-- ==== Sys2Proof/Word.lean ====
section
/-! DEFINITION. The words and the plain containers every part of the model shares: bytes, the two commons
halves, the three lanes, the access levels, keyed tables and canonical byte memories. -/

namespace Sys2Proof

/-- One byte of a wire format or of a memory. -/
abbrev Byte := BitVec 8

/-- The commons halves (Table 0.2): half A serves Welong channel A, half B channel B. -/
inductive Half where
  | a
  | b
  deriving DecidableEq, Repr

/-- The processing lanes (Table 0.2). -/
inductive Lane where
  | a
  | b
  | c
  deriving DecidableEq, Repr

/-- Access levels of the dictionary (Table 14.2). -/
inductive Level where
  | observer
  | operator
  | maintainer
  | commissioner
  deriving DecidableEq, Repr

/-- Direction byte of a LINEPOS value (R17); reserved values have no constructor. -/
inductive Dir where
  | unknown
  | rising
  | falling
  deriving DecidableEq, Repr

/-- One value per commons half. -/
structure Two (α : Type) where
  a : α
  b : α
  deriving DecidableEq, Repr

/-- One value per lane. -/
structure Three (α : Type) where
  a : α
  b : α
  c : α
  deriving DecidableEq, Repr

/-- A keyed table: pairs with strictly rising keys; an absent key stands for the reader's default. -/
abbrev Tab (α : Type) := List (Nat × α)

/-- A byte memory: addresses strictly rising, no entry equal to what an unlisted address reads as. -/
abbrev Mem := List Host.Cell

end Sys2Proof
end

