-- ==== Sys2Proof/Station.lean ====
section
/-! DEFINITION. Station data as the element and route model of 02_station_data.md: the records of its parts.
The byte layout of the records inside a part is not given by the spec; the parsed form is what the rules use. -/

namespace Sys2Proof

/-- A controller point bound to a vital input or output, with the input's restrictive level (R48) and
filter class. -/
structure Binding where
  port : Nat
  point : Nat
  rval : Bool
  fclass : Nat
  deriving DecidableEq, Repr

/-- What a section end joins (Table 2.3): a section, a boundary, or nothing (buffer stop or point leg). -/
inductive Link where
  | sec (n : Nat)
  | bnd (n : Nat)
  | stop
  deriving DecidableEq, Repr

/-- Section record (Table 2.3). -/
structure SectionRec where
  num : Nat
  line : Nat
  start : Int
  fin : Int
  occ : Binding
  point : Option Nat
  low : Link
  high : Link
  maxOcc : Nat
  deriving DecidableEq, Repr

/-- Point record (Table 2.4); a leg is the element and chainage where travel continues. -/
structure PointRec where
  num : Nat
  sec : Nat
  toe : Int
  toeDir : Dir
  legs : List (Nat × Int)
  det : List Binding
  drive : List Binding
  throwS : Nat
  trailable : Bool
  deriving DecidableEq, Repr

/-- What an aspect code means (Table 2.5). -/
inductive Aspect where
  | undefined
  | restrictive
  | permissive
  deriving DecidableEq, Repr

/-- Signal record (Table 2.5). -/
structure SignalRec where
  num : Nat
  sec : Nat
  high : Bool
  chain : Int
  facing : Dir
  start : Nat
  overlapMm : Nat
  aspects : List Aspect
  outs : List Binding
  proving : List Binding
  deriving DecidableEq, Repr

/-- Crossing record (Table 2.6). -/
structure CrossingRec where
  num : Nat
  kind : Nat
  prot : List Nat
  closed : Binding
  openOut : Binding
  closeS : Nat
  openS : Nat
  deriving DecidableEq, Repr

/-- Boundary record (Table 2.6). -/
structure BoundaryRec where
  num : Nat
  sec : Nat
  high : Bool
  neighMod : Nat
  neighElt : Nat
  inverted : Bool
  deriving DecidableEq, Repr

/-- Where a release key is read. -/
inductive KeyInput where
  | ctl (b : Binding)
  | pair (n : Nat)
  deriving DecidableEq, Repr

/-- Release-key record (Table 2.6). -/
structure KeyRec where
  num : Nat
  input : KeyInput
  scope : List Nat
  kind : Nat
  deriving DecidableEq, Repr

/-- One entry of an element list (Table 2.7). -/
inductive Elem where
  | sec (n : Nat)
  | pt (n pos : Nat)
  | xing (n : Nat)
  deriving DecidableEq, Repr

/-- One flank entry (Table 2.7). -/
inductive Flank where
  | pt (n pos : Nat)
  | sig (n : Nat)
  | xing (n : Nat)
  deriving DecidableEq, Repr

/-- Route record (Table 2.7). -/
structure RouteRec where
  num : Nat
  entry : Nat
  exit : Nat
  dir : Dir
  elems : List Elem
  overlaps : List Nat
  flank : List Flank
  prio : Nat
  aspect : Nat
  approach : Nat
  opS : Nat
  deriving DecidableEq, Repr

/-- Overlap record (R663). -/
structure OverlapRec where
  num : Nat
  elems : List Elem
  releaseS : Nat
  deriving DecidableEq, Repr

/-- Carrier class record (Table 2.8). -/
structure ClassRec where
  safety : Nat
  release : Nat
  maxLen : Nat
  maxUnc : Nat
  maxAge : Nat
  deriving DecidableEq, Repr

/-- Tail slot record (Table 9.12). -/
structure SlotRec where
  slot : Nat
  kind : Nat
  chans : Nat
  start : Nat
  len : Nat
  sender : Nat
  exp : Nat
  phase : Nat
  dests : Nat
  deriving DecidableEq, Repr

/-- Schedule mode record (Table 9.13). -/
structure ModeRec where
  num : Nat
  busNs : Nat
  lCyc : Nat
  prec : Nat
  guardNs : Nat
  syncNodes : List Nat
  coldNodes : List Nat
  claimMask : Nat
  slots : List SlotRec
  keepsHead : Bool
  deriving DecidableEq, Repr

/-- Chainage break record (R53). -/
structure BreakRec where
  e1 : Nat
  c1 : Int
  e2 : Nat
  c2 : Int
  inverted : Bool
  deriving DecidableEq, Repr

/-- Filter class record (Table 11.4). -/
structure FilterRec where
  minMs : Nat
  maxS : Nat
  winMs : Nat
  limit : Nat
  recMs : Nat
  deriving DecidableEq, Repr

/-- Binding of a local input pair (R424). -/
structure PairRec where
  num : Nat
  antivalent : Bool
  discMs : Nat
  fclass : Nat
  rval : Bool
  deriving DecidableEq, Repr

/-- What a local vital output drives (R270). -/
inductive LocalKind where
  | signal
  | drive (pos : Nat)
  | crossing
  | unbound
  deriving DecidableEq, Repr

/-- Binding of a local vital output; `dark` tells that the dark test is not disabled (R430). -/
structure LocalOutRec where
  num : Nat
  kind : LocalKind
  elem : Nat
  bit : Nat
  dark : Bool
  deriving DecidableEq, Repr

/-- Adjacency entry of the Trestle graph part (R65): what lies past one end of a section. -/
structure GraphRec where
  sec : Nat
  high : Bool
  link : Link
  deriving DecidableEq, Repr

/-- The whole parsed station data (Table 2.1). -/
structure Station where
  modAddr : Nat
  site : Nat
  portReq : Nat
  sections : List SectionRec
  points : List PointRec
  signals : List SignalRec
  crossings : List CrossingRec
  boundaries : List BoundaryRec
  keys : List KeyRec
  routes : List RouteRec
  overlaps : List OverlapRec
  relations : List (Nat × Nat)
  lines : List Nat
  breaks : List BreakRec
  graph : List GraphRec
  classes : List ClassRec
  modes : List ModeRec
  filters : List FilterRec
  pairs : List PairRec
  localOuts : List LocalOutRec
  authSlots : Tab (List Nat)
  defaults : List Byte
  rangeFault : Option Nat
  deriving DecidableEq, Repr, Inhabited

/-- No station data: the module is unconfigured (R87). -/
def Station.none : Station :=
  { modAddr := 0xFFFF, site := 0, portReq := 8, sections := [], points := [], signals := [], crossings := [],
    boundaries := [], keys := [], routes := [], overlaps := [], relations := [], lines := [], breaks := [],
    graph := [], classes := [], modes := [], filters := [], pairs := [], localOuts := [], authSlots := [],
    defaults := [], rangeFault := Option.none }

end Sys2Proof
end

