-- ==== Sys2Proof/Lanes.lean ====
section
/-! DEFINITION. What a lane holds: the benchmarked interlocking state (Table 6.4) as one record, the latched
cycle input image it reads (R28) and the output image it writes (Table 6.2). -/

namespace Sys2Proof

/-- One route request with what the module attaches to it (Table 3.1, R92, R511). -/
structure Req where
  cls : Nat
  hold : Bool
  opt : Nat
  all : Bool
  resv : Bool
  target : Nat
  tag : Nat
  stamp : Nat
  port : Nat
  level : Level
  epoch : Nat
  session : Nat
  deriving DecidableEq, Repr

/-- A position report record (Table 5.1) with the star port and place in the frame it came from. -/
structure Report where
  carrier : Nat
  cls : Nat
  dir : Nat
  line : Nat
  front : Int
  len : Nat
  frontUnc : Nat
  rearUnc : Nat
  resv : Bool
  port : Nat
  pos : Nat
  deriving DecidableEq, Repr

/-- Points as `port × 1024 + point`: the levels a half holds, and which were substituted (R48). -/
structure BusImage where
  levels : Tab Bool
  subst : List Nat
  reports : List Report
  pairs : Tab Bool
  pairSubst : List Nat
  ni : Nat
  flags : Tab Nat
  cv : Tab Nat
  nonVital : Tab (List Byte)
  clearAhead : Tab Bool
  deriving DecidableEq, Repr

/-- A dictionary write (or RC read) of a lane object in the cycle input image (R28, R546): session, sequence, the
session's variable selection, and what the commons checked of it (`aux`, a refusal code of its own). `given` is the
result and reply data of a setting, applied at the tick to what the lanes share. -/
structure DictWrite where
  sess : Nat
  seq : Nat
  index : Nat
  sub : Nat
  write : Bool
  value : List Byte
  sel : List Byte
  aux : Nat
  given : Option (Nat × List Byte)
  deriving DecidableEq, Repr

/-- What the lanes answer to a `DictWrite` in block 17 (R548): result code (Table 14.6) and reply data. -/
structure DictAns where
  sess : Nat
  seq : Nat
  index : Nat
  sub : Nat
  result : Nat
  data : List Byte
  deriving DecidableEq, Repr

/-- The cycle input image (R28). `refused` holds requests of a standby's own queues (R96). `replies` are the
neighbours' answers to boundary reservations (route, granted; R514). `hb` is the heartbeat record of R492: pair link,
channel A, channel B. -/
structure CycleImage where
  num : Nat
  counter : Nat
  bus : BusImage
  reqs : List Req
  diverged : List Req
  refused : List Req
  replies : List (Nat × Bool)
  writes : List DictWrite
  cepochs : Tab Nat
  hb : List (Bool × Bool × Bool)
  run : Bool
  standby : Bool
  key : Bool
  appResults : List (List Byte)
  windows : Mem
  deriving DecidableEq, Repr

/-- Route states (Table 3.5). -/
inductive RState where
  | released
  | requested
  | checked
  | reserved
  | moving
  | locked
  | cleared
  | occupied
  | releasing
  deriving DecidableEq, Repr

/-- Release modes of an occupied route (R150, R152, R163). -/
inductive RMode where
  | chainage
  | sequence
  | detection
  deriving DecidableEq, Repr

/-- A route's state: Table 3.9 and what Locking and release keeps for it. List positions stand for list
elements; `rel` those released, `wasOcc` those seen occupied since the route entered occupied, `seqOk` those
whose follower was occupied together with them. -/
structure RouteSt where
  state : RState
  code : Nat
  ovl : Nat
  repl : Bool
  appr : Bool
  hold : Bool
  emrg : Bool
  port : Nat
  tag : Nat
  cls : Nat
  canceller : Option Nat
  cancelTag : Nat
  cancelCls : Nat
  approachRel : Bool
  rel : List Nat
  ovlHeld : Bool
  ovlRel : List Nat
  mode : RMode
  carrier : Option Nat
  rearFired : Bool
  wasOcc : List Nat
  seqOk : List Nat
  distRun : Nat
  ovlArmed : Bool
  ovlFired : Bool
  reservedImg : Nat
  clearedImg : Nat
  confirmed : Bool
  passed : Bool
  rank : Nat
  relCode : Nat
  deriving DecidableEq, Repr

/-- Supervised movement of a point: the position wanted, who asked, and when supervision ends. -/
structure Move where
  pos : Nat
  port : Nat
  tag : Nat
  cls : Nat
  commanded : Bool
  deadline : Nat
  since : Nat
  order : Nat
  own : Bool
  maint : Bool
  deriving DecidableEq, Repr

/-- A point's state (Table 3.10); `mv` is a movement wanted or under way, `own` one that no route owns. -/
structure PointSt where
  failed : Bool
  lost : Bool
  mv : Option Move
  detRun : Nat
  deriving DecidableEq, Repr

/-- A signal's state (Table 3.10); `first` the image in which its cleared aspect was first commanded. -/
structure SignalSt where
  aspect : Nat
  route : Option Nat
  first : Nat
  deriving DecidableEq, Repr

/-- Crossing states (Table 4.3). -/
inductive CState where
  | opened
  | closing
  | closed
  | opening
  | closingFailed
  | forcedOpen
  deriving DecidableEq, Repr

/-- A crossing's state; `since` the image its timed state began in, `run` images its closed input stood active, `app` the
program's hold-closed as the last kernel step counted it among the holders (R161, Table 8.2). -/
structure CrossSt where
  cs : CState
  since : Nat
  slow : Bool
  run : Nat
  app : Bool
  deriving DecidableEq, Repr

/-- A section's counts: images clear, images showing GHOST without a break, and whether event 42 was raised. -/
structure SecSt where
  clearRun : Nat
  ghostRun : Nat
  ghostRep : Bool
  occ : Bool
  deriving DecidableEq, Repr

/-- A release key's state (Table 4.7). -/
structure KeySt where
  active : Bool
  timing : Bool
  remain : Nat
  done : Bool
  deriving DecidableEq, Repr

/-- Event kinds of the chainage scheduler (Table 4.2). -/
inductive EvKind where
  | rearPass
  | frontWithin
  | frontPass
  | clearFor
  | elapsed
  deriving DecidableEq, Repr

/-- A pending scheduler event (Table 4.1). -/
structure SEvent where
  kind : EvKind
  app : Bool
  carrier : Nat
  target : Nat
  line : Nat
  threshold : Int
  amount : Nat
  image : Nat
  owner : Nat
  dir : Dir
  deriving DecidableEq, Repr

/-- A held request and how often it was re-presented (R109). -/
structure Held where
  req : Req
  tries : Nat
  code : Nat
  detail : Nat
  deriving DecidableEq, Repr

/-- A result record (Table 3.2). -/
structure ResultRec where
  tag : Nat
  cls : Nat
  kind : Nat
  target : Nat
  code : Nat
  detail : Nat
  image : Nat
  deriving DecidableEq, Repr

/-- A port's result ring (R98). -/
structure Ring where
  recs : List ResultRec
  lost : Nat
  deriving DecidableEq, Repr

/-- A running emergency release (R171). -/
structure EmRel where
  route : Nat
  remain : Nat
  session : Nat
  deriving DecidableEq, Repr

/-- Tracking states (Table 5.2). -/
inductive TState where
  | empty
  | candidate
  | tracked
  | lost
  deriving DecidableEq, Repr

/-- A place on a line. -/
structure Place where
  sec : Nat
  chain : Int
  deriving DecidableEq, Repr

/-- A tracking-table entry (Tables 5.2, 5.7) with the far ends of R138 (one place per leg, R659). -/
structure Carrier where
  id : Nat
  ts : TState
  lreason : Nat
  dir : Dir
  cls : Nat
  limit : Nat
  line : Nat
  front : Int
  len : Nat
  fu : Nat
  ru : Nat
  span : List Nat
  far : List Place
  rear : List Place
  hitBnd : Bool
  confirm : Nat
  contra : Nat
  miss : Nat
  wasLost : Bool
  clearRun : Nat
  lastValid : Nat
  port : Nat
  slot : Option Nat
  eLine : Nat
  eChain : Int
  dist : Int
  sSec : Nat
  eSec : Nat
  deriving DecidableEq, Repr

/-- An authority record (Table 5.5). -/
structure AuthRec where
  carrier : Nat
  limit : Nat
  dir : Dir
  line : Nat
  chain : Int
  dist : Int
  sSec : Nat
  eSec : Nat
  image : Nat
  deriving DecidableEq, Repr

/-- A boundary lock held for a neighbour (R512). -/
structure BLock where
  requester : Nat
  route : Nat
  epoch : Nat
  deriving DecidableEq, Repr

/-- An authority restriction of the application program (R200). -/
inductive Restr where
  | place (carrier line : Nat) (chain : Int) (dir : Dir)
  | sec (n : Nat)
  deriving DecidableEq, Repr

/-- Output channels of the application program in one image (Table 8.2). -/
structure AppOut where
  stops : List Nat
  inhibits : List (Nat × Nat)
  holdClosed : List Nat
  holdOpen : List Nat
  restrs : List Restr
  reqs : List (List Byte)
  arms : List SEvent
  louts : Tab Bool
  nonVital : Tab (List Byte)
  no : Nat
  powerVote : Nat
  windows : List (Nat × Byte)
  deriving DecidableEq, Repr, Inhabited

/-- A variable reference (R284). -/
structure VarRef where
  inst : Nat
  field : Nat
  deriving DecidableEq, Repr

/-- A variable of the program with its attributes (R285). -/
structure VarSt where
  ref : VarRef
  type : Nat
  vital : Bool
  retain : Bool
  hostw : Bool
  value : List Byte
  dflt : List Byte
  deriving DecidableEq, Repr

/-- Timer and edge blocks of the vital library (Table 8.1). -/
inductive VlKind where
  | ton
  | tof
  | tp
  | rise
  | fall
  deriving DecidableEq, Repr

/-- A vital-library timer or edge detector: input, output, elapsed and preset in ms. -/
structure VlBlock where
  ref : Nat
  kind : VlKind
  input : Bool
  out : Bool
  running : Bool
  elapsed : Nat
  preset : Nat
  fresh : Bool
  deriving DecidableEq, Repr

/-- Restriction scope of a program container (R299). -/
structure Scope where
  sigs : List Nat
  points : List Nat
  xings : List Nat
  auth : Bool
  deriving DecidableEq, Repr

/-- An instance of a block type (R283): identity, type, version and core partition. -/
structure InstRec where
  id : Nat
  type : Nat
  ver : Nat
  vital : Bool
  part : Nat
  deriving DecidableEq, Repr

/-- A parsed application program (Table 8.3). -/
structure Program where
  id : Nat
  version : Nat
  modAddr : Nat
  site : Nat
  needDigest : List Byte
  insts : List InstRec
  vars : List VarSt
  blocks : List VlBlock
  scope : Scope
  bounds : List Nat
  instrBounds : List Nat
  exports : List (Nat × Nat × VarRef)
  library : List (Nat × Nat)
  refs : List Nat
  routeRefs : List Nat
  writesBad : Bool
  dataBytes : Nat
  nonVitalDflt : Tab (List Byte)
  noDflt : Nat
  deriving DecidableEq, Repr

/-- A force (R317). -/
structure Force where
  ref : VarRef
  value : List Byte
  image : Nat
  deriving DecidableEq, Repr

/-- Program states (object 0x7000 sub 1). -/
inductive PState where
  | none
  | running
  | armed
  | stopped
  | faulted
  deriving DecidableEq, Repr

/-- The program as a lane runs it (Table 8.8). `under` is the state that an armed change rests on, `pre` the
variables as the application step of the image began with. -/
structure ProgSt where
  ps : PState
  under : PState
  pre : List VarSt
  prog : Option Program
  vars : List VarSt
  blocks : List VlBlock
  forces : List Force
  out : AppOut
  faultRun : Nat
  faults : Nat
  lastFault : Nat
  lastInst : Nat
  origin : Nat
  switchImg : Nat
  outcome : Nat
  forceOutcome : Nat
  longest : Nat
  deriving DecidableEq, Repr

/-- The benchmarked state of a lane (Table 6.4). `frozen` holds the routes whose elements this image freed and no
request of this image may take (R100), `newRes` those this image reserved (R107); `appFired` and `appFull` the
application blocks whose scheduler event fired or could not be armed (R141). -/
structure Kernel where
  image : CycleImage
  routes : Tab RouteSt
  points : Tab PointSt
  signals : Tab SignalSt
  crossings : Tab CrossSt
  sections : Tab SecSt
  keys : Tab KeySt
  events : List SEvent
  pendHigh : Nat
  refusedArms : Nat
  held : List Held
  results : Tab Ring
  emRels : List EmRel
  emOutcome : Nat
  carriers : Tab Carrier
  carHigh : Nat
  refusedCars : Nat
  capCut : Nat
  auths : Tab AuthRec
  blocks : Tab BLock
  stuck : Tab Nat
  stuckNow : List Nat
  reqsLast : Nat
  longPass : Nat
  longAuth : Nat
  cvBoth : Three Nat
  cvOne : Two Nat
  frozen : List (Nat × RouteSt)
  newRes : List Nat
  appFired : List Nat
  appFull : List Nat
  prog : ProgSt
  deriving DecidableEq, Repr

/-- A Field book record as the model holds it (Table 15.1): the fields the rules name. -/
structure FbRec where
  seq : Nat
  time : Int
  image : Nat
  type : Nat
  event : Nat
  code : Nat
  source : Nat
  flags : Nat
  who : Nat
  data : List Nat
  deriving DecidableEq, Repr

/-- A raising of an event source with the detail its record names first (Table 14.10). -/
structure EvRaise where
  event : Nat
  detail : Nat
  deriving DecidableEq, Repr

/-- Command block of one controller (Table 6.2, R31): L envelopes that share a payload; envelope j carries
stamp `first + j` and sequence `stamp + base`. -/
structure CmdBlock where
  payload : List Byte
  first : Nat
  count : Nat
  base : Nat
  epoch : Nat
  deriving DecidableEq, Repr

/-- Local block (block 16). -/
structure LocalBlock where
  outs : List Bool
  no : Nat
  deriving DecidableEq, Repr

/-- Module block (block 17): requests that are voted, and the dictionary view. -/
structure ModuleBlock where
  excl : List (Lane × Nat)
  halfOff : List Half
  powerVote : Nat
  switchImg : Nat
  modeSwitch : Nat
  handover : Nat
  graphCheck : Nat
  appReqs : List (List Byte)
  answers : List DictAns
  view : Kernel
  deriving DecidableEq, Repr

/-- A boundary reservation message (Table 13.8). -/
structure ReserveMsg where
  toward : Nat
  elem : Nat
  action : Nat
  route : Nat
  code : Nat
  reply : Bool
  epoch : Nat
  image : Nat
  deriving DecidableEq, Repr

/-- Cascade block (block 19): heartbeats, benchmark and reservation envelopes of the next program cycle. -/
structure CascBlock where
  role : Nat
  ready : Bool
  epoch : Nat
  reserves : List ReserveMsg
  deriving DecidableEq, Repr

/-- A lane's output image (R207). -/
structure OutputImage where
  num : Nat
  checkOk : Bool
  cmds : Tab CmdBlock
  locals : LocalBlock
  module : ModuleBlock
  records : List FbRec
  events : List EvRaise
  casc : CascBlock
  deriving DecidableEq, Repr

/-- A lane's kernel step under way: the state, and the records, events and reservation messages it writes. -/
structure KRun where
  k : Kernel
  recs : List FbRec
  evs : List EvRaise
  reserves : List ReserveMsg
  deriving DecidableEq, Repr

end Sys2Proof
end

