-- ==== Sys2Proof/Records.lean ====
section
/-! DEFINITION. What the commons hold for the object dictionary, the events, the Field book, the Chest, the
built-in self-test and the ageing items (14_object_dictionary.md, 15_diagnostics_and_records.md). -/

namespace Sys2Proof

/-- Source of a request datagram (R536): a UDP address (IPv6, or IPv4 mapped) and port, a star port, or the
bridge's proxy session: the module a PROXY request comes from and its outer session's level (R564). -/
inductive Source where
  | udp (ip port : Nat)
  | welong (port : Nat)
  | proxy (origin : Nat) (level : Level)
  deriving DecidableEq, Repr

/-- A reply datagram (Table 14.1). -/
structure Reply where
  dest : Source
  service : Nat
  session : Nat
  resent : Bool
  seq : Nat
  index : Nat
  sub : Nat
  stamp : Nat
  status : Nat
  result : Nat
  data : List Byte
  deriving DecidableEq, Repr

/-- A request accepted and not yet answered: an at-tick write or read-clear (R546). -/
structure AtTick where
  src : Source
  seq : Nat
  write : Bool
  index : Nat
  sub : Nat
  value : List Byte
  deriving DecidableEq, Repr

/-- A record of a session's event queue (Table 14.10). -/
structure EvQ where
  event : Nat
  count : Nat
  image : Nat
  time : Nat
  detail : Nat
  deriving DecidableEq, Repr

/-- One dictionary session with its per-session objects (R536 to R542, Tables 14.14 and 15.9). `last` is
`State.ns` at the last accepted datagram; `seenAt` the bus cycle and channel of the newest request. -/
structure Session where
  opened : Bool
  level : Level
  src : Source
  stamp : Nat
  lastStamp : Nat
  newest : Nat
  seenChan : Option Half
  seenAt : Nat
  kept : List Reply
  queue : List AtTick
  due : List Reply
  last : Nat
  mask : BitVec 96
  events : List EvQ
  outputSel : Nat
  bridgeSel : Nat
  eventCur : Nat
  carrierSel : Nat
  varSel : List Byte
  forceCur : Nat
  bookCur : Nat
  passed : Nat
  chestCur : Nat
  snapSel : Nat
  snapOff : Nat
  crcAlg : Nat
  crcReg : Nat
  deriving DecidableEq, Repr

/-- A session that is closed. -/
def Session.closed : Session :=
  { opened := false, level := .observer, src := .udp 0 0, stamp := 0, lastStamp := 0, newest := 0,
    seenChan := none, seenAt := 0, kept := [], queue := [], due := [], last := 0, mask := BitVec.allOnes 96,
    events := [], outputSel := 0, bridgeSel := 0, eventCur := 0, carrierSel := 0, varSel := [], forceCur := 0,
    bookCur := 0, passed := 0, chestCur := 0, snapSel := 0, snapOff := 0, crcAlg := 3, crcReg := 0xFFFFFFFF }

/-- A source's refused OPENs (R539): times of the CREDENTIAL refusals, and when its lockout ends. -/
structure OpenFail where
  src : Source
  times : List Nat
  lockedTo : Option Nat
  deriving DecidableEq, Repr

/-- Network settings of the maintenance port (object 0x1100). -/
structure NetSettings where
  ip4 : Nat
  prefix4 : Nat
  gateway : Nat
  ip6 : List Byte
  prefix6 : Nat
  udpPort : Nat
  deriving DecidableEq, Repr

/-- Highest depth and overflow mark of a hardware queue since last read (Table 14.12). -/
structure QStat where
  high : Nat
  ovf : Bool
  deriving DecidableEq, Repr

/-- The dictionary's own state. `reply` is the reply the last command sent, `result` the result code of the last
write applied (Table 14.6). -/
structure DictSt where
  sessions : Tab Session
  fails : List OpenFail
  proxied : List AtTick
  proxyDue : List Reply
  reply : Option Reply
  result : Nat
  value : List Byte
  net : NetSettings
  netNew : Option (NetSettings × Nat)
  timeoutS : Nat
  lockN : Nat
  lockS : Nat
  welong : Bool
  creds : Tab (List Byte)
  discarded : Nat
  modAddrSet : Nat
  modAddr : Nat
  qstats : Tab QStat
  startNs : Nat
  warm : Bool
  deriving DecidableEq, Repr

/-- Event sources (R553 to R559). -/
structure EventSt where
  pend : BitVec 96
  enable : BitVec 96
  counts : Tab Nat
  aseq : Nat
  deriving DecidableEq, Repr

/-- The Field book (R565 to R571): the write buffer and the records held, oldest first. -/
structure Book where
  buf : List FbRec
  recs : List FbRec
  newest : Nat
  lost : Nat
  lostNew : Nat
  retired : Nat
  faulty : Bool
  deriving DecidableEq, Repr

/-- A Chest fault record (Table 15.2). -/
structure ChestRec where
  num : Nat
  kind : Nat
  source : Nat
  code : Nat
  time : Nat
  mtime : Nat
  image : Nat
  startCount : Nat
  status : Nat
  epoch : Nat
  summary : Nat
  detail : List Byte
  good : Bool
  deriving DecidableEq, Repr

/-- A snapshot slot (R574). -/
structure Snapshot where
  complete : Bool
  serial : Nat
  record : Nat
  image : Nat
  body : List Byte
  deriving DecidableEq, Repr

/-- The Chest (R572 to R578): fault ring oldest first, snapshot slots, and the halves' counter records (R358). -/
structure Chest where
  recs : List ChestRec
  newest : Nat
  snaps : Two Snapshot
  counters : Two Nat
  faulty : Bool
  deriving DecidableEq, Repr

/-- States of a self-test (Table 15.10). -/
inductive TestState where
  | idle
  | running
  | passed
  | failed
  | stopped
  | aborted
  deriving DecidableEq, Repr

/-- Self-test of one instance (R579 to R584): `next` the first slice not run, `stop` a stop command pending,
`due` the module time at which the next slice may start. -/
structure TestInst where
  target : Nat
  ts : TestState
  done : Nat
  total : Nat
  next : Nat
  last : Nat
  stop : Bool
  due : Nat
  fail : Nat
  rerun : Option Nat
  deriving DecidableEq, Repr

/-- In-service test of one lane (R585 to R587). -/
structure IstLane where
  rotations : Nat
  percent : Nat
  slow : Bool
  images : Nat
  corrected : Nat
  deriving DecidableEq, Repr

/-- Self-test state of the module; instances 0 to 2 are lanes, 3 and 4 the halves. -/
structure TestSt where
  insts : Tab TestInst
  outcome : Nat
  budget : Nat
  ist : Three IstLane
  halfOut : Two Bool
  quietLane : Bool
  deriving DecidableEq, Repr

/-- One ageing item (R588, Table 15.11): the daily means kept for the forecast, newest first. -/
structure AgeItem where
  margin : Nat
  warned : Bool
  forecast : Nat
  means : List Nat
  sum : Nat
  samples : Nat
  deriving DecidableEq, Repr

/-- Ageing state; items are keyed by object index and sub. -/
structure AgeSt where
  items : Tab AgeItem
  warn : List Nat
  threshold : Nat
  restore : Three Bool
  deriving DecidableEq, Repr

end Sys2Proof
end

