-- ==== Sys2Proof/Vote.lean ====
section
/-! DEFINITION. What the commons hold of the lanes, the voters and the comparators
(01_architecture.md, 06_lanes_and_voting.md). -/

namespace Sys2Proof

/-- Lane states (LSTATE of Table 6.13). -/
inductive LState where
  | inVote
  | excluded
  | booting
  | copying
  | catchingUp
  | shadow
  | withdrawn
  | held
  | off
  deriving DecidableEq, Repr

/-- One processing lane: its state word's parts (Table 6.13), its rejoin (R230 to R238), and the state it runs.
`line` is its status line to each half, `lateWas` the late count before the present image, `due` the module
time or image that ends its rejoin phase's budget, `ran` the last image it ran. -/
structure LaneSt where
  ls : LState
  reason : Nat
  line : Two Bool
  late : Two Nat
  lateWas : Two Nat
  fails : List Nat
  redclk : Bool
  progress : Nat
  kernel : Kernel
  out : Option OutputImage
  ran : Nat
  dueNs : Nat
  dueImg : Nat
  rounds : Nat
  copyPoint : Option Nat
  keptImgs : List CycleImage
  outOk : Option Nat
  benchOk : Option Nat
  shadowOk : Nat
  returned : Bool
  started : Bool
  fwVersion : Nat
  fwClass : Nat
  fwDigest : List Byte
  cores : List Nat
  halted : List Nat
  deriving DecidableEq, Repr

/-- Benchmark verdicts (Table 6.5). -/
inductive Verdict where
  | match_
  | minority (l : Lane)
  | noMajority
  | none
  deriving DecidableEq, Repr

/-- A comparator's verdict on an image, with the benchmark prefixes it received (R220). -/
structure VerdictMsg where
  image : Nat
  verdict : Verdict
  prefixes : Three (List Byte)
  deriving DecidableEq, Repr

/-- A voted command block: its contents and the pair code of the two lanes whose check values it carries. -/
structure VotedCmd where
  block : CmdBlock
  pair : Nat
  deriving DecidableEq, Repr

/-- One half's voted output image of one program cycle (R33, R34): what it forwards. -/
structure VotedImage where
  num : Nat
  cmds : Tab VotedCmd
  locals : Option LocalBlock
  module : Option ModuleBlock
  casc : Option (CascBlock × Nat)
  deriving DecidableEq, Repr

/-- One commons half: service, voter, comparator (Table 6.14), ingress buffers and transmit buffers (R371).
`votedImg` is the last image it voted; `decided` its benchmark verdict on the present image. -/
structure HalfSt where
  inServ : Bool
  reason : Nat
  injFail : Nat
  firstFail : Nat
  voter : Bool
  flagged : Bool
  injPass : Bool
  cmpVec : Bool
  ingress : Three (Option OutputImage)
  bench : Three (Option (Nat × List Byte))
  votedImg : Option Nat
  decided : Option VerdictMsg
  active : Option VotedImage
  next : Option VotedImage
  deriving DecidableEq, Repr

/-- Vote settings, counters and outcomes (Table 6.12). `nextSet` holds settings of object 0x2100 written in the image under
way, by sub: they take effect at the next tick (R253). -/
structure VoteSt where
  deadlinePct : Nat
  n : Nat
  autoRejoin : Bool
  rejoinMax : Nat
  lastVoted : Nat
  unanimous : Nat
  majority : Nat
  unforwarded : Nat
  longest : Nat
  benchImage : Nat
  lastVerdict : Nat
  prefixes : Three (List Byte)
  disagree : Nat
  lastExcl : List Byte
  cmdOutcome : Nat
  pendLane : Option Lane
  pendFrom : Nat
  matched : Option Nat
  matchAny : Option Nat
  restrictive : Bool
  everVoted : Bool
  summaries : List (List Byte)
  tickNs : Nat
  tickUtc : Int
  nextSet : Tab Nat
  deriving DecidableEq, Repr

/-- Debug actions (Table 6.11). -/
inductive JAction where
  | halt
  | resume
  | memWrite
  | regWrite
  deriving DecidableEq, Repr

/-- A debug journal entry (Table 6.11). -/
structure JEntry where
  seq : Nat
  core : Nat
  action : JAction
  count : Nat
  addr : Nat
  image : Nat
  data : List Byte
  doneB : Bool
  doneC : Bool
  deriving DecidableEq, Repr

/-- Commissioning mode (R246 to R252): `mode` in force, `asked` entry waiting for the tick, `leaving` and the
images benchmarked since the journal drained. -/
structure CommSt where
  mode : Bool
  asked : Bool
  leaving : Bool
  leaveImgs : Nat
  debugOpen : Bool
  journal : List JEntry
  seq : Nat
  published : List Nat
  mem : Three (Tab (List Byte))
  regs : Three (Tab (List Byte))
  deriving DecidableEq, Repr

end Sys2Proof
end

