-- ==== Sys2Proof/Bus.lean ====
section
/-! DEFINITION. What the commons hold of the Welong channels, the vital envelopes and the Trestle halves
(07_trestle.md, 09_welong_bus.md, 10_vital_envelope.md). -/

namespace Sys2Proof

/-- A Welong frame as a half receives it (R334, R336): whether its FCS, tag, addresses and reserved bits pass,
its header fields, and its body. The destination node and the padding take no part in R338. -/
structure Frame where
  fcsOk : Bool
  tagged : Bool
  etherType : Nat
  destOk : Bool
  version : Nat
  kind : Nat
  mode : Nat
  flags : Nat
  counter : Nat
  slot : Nat
  src : Nat
  bodyLen : Nat
  body : List Byte
  deriving DecidableEq, Repr

/-- A valid input envelope as merge logic keeps it (Tables 9.7, 10.2). -/
structure InputEnv where
  seq : Nat
  epoch : Nat
  flags : Nat
  ni : Nat
  cv : Nat
  bits : List Bool
  reports : List Report
  nonVital : List Byte
  payload : List Byte
  deriving DecidableEq, Repr

/-- Base of an input connection at one half (R387): the base held and the candidate with its run. -/
structure ConnBase where
  base : Option Nat
  cand : Nat
  run : Nat
  candAt : Nat
  deriving DecidableEq, Repr

/-- One star port of one channel (Table 9.18 and its counters). `rx` holds the envelope received for the coming
bus cycle, `rxFlags` its frame flags, `integrateAt` the last bus cycle that carried a whole INTEGRATE frame, `readyLog` the READYMODE + 1
shown in the last bus cycles (0 not ready), newest last, `tablesDue` the modes whose port tables are still to be sent. -/
structure PortSt where
  linkDly : Nat
  link : Bool
  speed100 : Bool
  integ : Bool
  closed : Bool
  cmdClosed : Bool
  syncUsed : Bool
  table : Bool
  ready : Bool
  readyMode : Nat
  readyLog : List Nat
  cutAt : List Nat
  reopenRun : Nat
  integrateAt : Nat
  measRounds : List Nat
  measOpen : Bool
  delaySeq : Nat
  tableClear : Nat
  tablesDue : List Nat
  cuts : Nat
  discarded : Nat
  discEvt : Bool
  valid : Nat
  envFail : Nat
  rx : Option InputEnv
  rxFlags : Nat
  base : ConnBase
  deriving DecidableEq, Repr

/-- States of a half on its channel (Table 9.17). -/
inductive ChState where
  | off
  | listening
  | coldStarting
  | integrating
  | synchronised
  | backingOff
  deriving DecidableEq, Repr

/-- One channel (Tables 9.15, 9.17): `devs` the deviations of the coming bus cycle in 1/16 ns by sync slot, `corrs`
the offset corrections (1/16 ns) since the last rate correction, `checks` the bus cycles passed while integrating. -/
structure ChanSt where
  st : ChState
  starter : Bool
  since : Nat
  checks : Nat
  startedAt : Nat
  devs : Tab Int
  k : Nat
  lastCorr : Int
  largest : Nat
  rate : Int
  corrs : List Int
  weak : Nat
  weakRun : Nat
  blocked : List (Nat × Nat)
  ports : Tab PortSt
  deriving DecidableEq, Repr

/-- Announced mode switch (R365 to R369). -/
structure SwitchSt where
  mode : Nat
  s : Nat
  announced : Bool
  confirmed : Bool
  deriving DecidableEq, Repr

/-- The Welong bus (09_welong_bus.md). -/
structure BusSt where
  counter : Nat
  busNs : Nat
  lCyc : Nat
  prec : Nat
  guardNs : Nat
  mode : Nat
  dormant : Bool
  pend : Option SwitchSt
  askedImg : Nat
  outcome : Nat
  notReady : Nat
  etherType : Nat
  etherSet : Nat
  portOutcome : Nat
  claims : List (Nat × Nat)
  spare : Tab Nat
  acks : List (Nat × List Nat)
  chans : Two ChanSt
  tick : Bool
  deriving DecidableEq, Repr

/-- Envelope state of one controller at the module: its last epoch, flags and sources (Table 10.11), its command
connection's base, and the reports counted. -/
structure EnvPort where
  cepoch : Nat
  cflags : Nat
  srcs : Nat
  cmdBase : Option Nat
  cmdEpoch : Nat
  permBase : Two (Option Nat)
  cvReports : Nat
  misRun : Nat
  evtDone : Bool
  deriving DecidableEq, Repr

/-- A Trestle decision on one output (Table 7.10). -/
structure Decision where
  culprit : Nat
  reason : Nat
  cmd : Bool
  permit : Bool
  deriving DecidableEq, Repr

/-- One Trestle half (Tables 7.7, 7.9). -/
structure TrestleSt where
  lock : Bool
  vecPass : Bool
  codeF : Bool
  rot : Nat
  vecIdx : Nat
  failVec : Nat
  failWalk : Nat
  disReason : Nat
  graphCheck : Nat
  withheld : Nat
  conflicts : Nat
  longEval : Nat
  longWalk : Nat
  decisions : Tab Decision
  withheldRun : Tab Nat
  withheldTold : List Nat
  clearOut : Tab Bool
  bndSeen : List Nat
  overran : Bool
  deriving DecidableEq, Repr

/-- A permit word as sent (Table 7.5). -/
structure PermitWord where
  seq : Nat
  stamp : Nat
  epoch : Nat
  inhibit : Bool
  words : List Nat
  bytes : List Byte
  deriving DecidableEq, Repr

/-- What each half sent in the last bus cycle: command envelopes and permit words by star port, and its SYNC
announcement (pending mode, switch counter, PENDING, CONFIRMED). -/
structure TxSt where
  cmds : Tab (List Byte)
  permits : Tab PermitWord
  localPermit : List Bool
  sync : Option (Nat × Nat × Bool × Bool)
  tables : List (Nat × Nat)
  delayReqs : List (Nat × Nat)
  acks : List (Nat × List Nat)
  clearAhead : List (Nat × Bool)
  deriving DecidableEq, Repr

end Sys2Proof
end

