-- ==== Sys2Proof/LocalIo.lean ====
section
/-! DEFINITION. What the local I/O stage and the time base hold (11_local_io.md, 12_time_base.md). -/

namespace Sys2Proof

/-- Input supervision faults (Table 11.3). -/
inductive FCode where
  | none
  | pulseA
  | pulseB
  | foreign
  | supply
  | discrepancy
  deriving DecidableEq, Repr

/-- One input pair as one half sees it (R421 to R425, Table 11.10). Times are ns of `State.ns`; `changes` the times
of the raw value's changes inside the chatter window, `stableFrom` the bus cycle whose sample first showed the raw
value, `discFrom` when the present discrepancy began, `cleanFrom` since when none of the pair's faults was seen. -/
structure PairSt where
  rawA : Bool
  rawB : Bool
  raw : Bool
  filtered : Bool
  stableFrom : Nat
  discFrom : Option Nat
  changes : List Nat
  chat : Bool
  fcode : FCode
  cleanFrom : Nat
  deriving DecidableEq, Repr

/-- One test-pulse supply (object 0x3302). -/
structure TpSt where
  on : Bool
  cause : Nat
  milliamp : Nat
  deriving DecidableEq, Repr

/-- Output faults (Table 11.6). -/
inductive OCode where
  | none
  | stuckOn
  | stuckOff
  | overcurrent
  | darkTest
  | supply
  deriving DecidableEq, Repr

/-- One local vital output (Table 11.11); `passed` counts switch-test runs passed in a row. -/
structure VoSt where
  cmd : Bool
  permit : Bool
  on : Bool
  mid : Bool
  ocode : OCode
  passed : Nat
  lastTest : Nat
  lastDark : Nat
  deriving DecidableEq, Repr

/-- The local I/O stage. Pair 17 is the commissioning key (Table 11.1). `niFrom` tells when each raw non-vital input took
its present value; `resetLowFrom` and `resetLowNs` when RESET's last low period began and how long it lasted. -/
structure LioSt where
  pairs : Two (Tab PairSt)
  stuck : Tab Bool
  tps : Tab TpSt
  vos : Tab VoSt
  ni : Nat
  niRaw : Nat
  niFrom : List Nat
  no : Nat
  noDefaults : Nat
  noBlockRun : Nat
  locals : Option LocalBlock
  localNext : Option LocalBlock
  resetLevel : Bool
  resetSince : Nat
  resetLowFrom : Nat
  resetLowNs : Nat
  rstuck : Bool
  rcount : Nat
  kfault : Bool
  key : Bool
  deriving DecidableEq, Repr

/-- One half's clock (R442, R443): counter in ns, reference pair, rate in 2⁻¹⁶ ppb, offset in 2⁻¹⁶ ns, its bus
anchor (R461), and corrections due at t0 + 200 µs (R447). -/
structure HalfClock where
  c : Nat
  cRef : Nat
  tRef : Int
  r : Int
  o : Int
  anchorCtr : Nat
  anchor : Int
  align : Option Int
  deriving DecidableEq, Repr

/-- A correction of the servo waiting for t0 + 200 µs (R447, R452). -/
inductive Corr where
  | servoOffset (o : Int)
  | servoRate (r : Int)
  deriving DecidableEq, Repr

/-- Servo states (Table 12.2). -/
inductive Servo where
  | freeRun
  | acquiring
  | locked
  | holdover
  deriving DecidableEq, Repr

/-- What an Announce message told of a master (R457): the data set compared by the best master clock algorithm. -/
structure Master where
  prio1 : Nat
  clockClass : Nat
  accuracy : Nat
  variance : Nat
  prio2 : Nat
  gm : Nat
  steps : Nat
  sender : Nat
  timescale : Bool
  utcValid : Bool
  utcOffset : Int
  leap59 : Bool
  leap61 : Bool
  interval : Nat
  delayInt : Nat
  heard : Nat
  deriving DecidableEq, Repr

/-- PTP slave (R457): masters heard, the current one, a Sync awaiting its Follow_Up, an outstanding Delay_Req. -/
structure PtpSt where
  domain : Nat
  timeout : Nat
  masters : List Master
  current : Option Nat
  awaiting : Option (Nat × Int)
  delayReq : Option (Nat × Int)
  lastSync : Option (Int × Int)
  pathDelay : Nat
  discarded : Nat
  delaySeq : Nat
  lastReq : Nat
  deriving DecidableEq, Repr

/-- A timestamp entry (Table 12.6). -/
structure StampEntry where
  ident : Nat
  slot : Nat
  port : Nat
  flags : Nat
  time : Int
  deriving DecidableEq, Repr

/-- A timestamp queue (R463, R466). -/
structure StampQ where
  entries : List StampEntry
  overflow : Nat
  select : Nat
  evtDone : Bool
  deriving DecidableEq, Repr

/-- A timed frame of the maintenance port (R468). -/
structure TimedFrame where
  launch : Int
  serial : Nat
  deriving DecidableEq, Repr

/-- The time base (12_time_base.md). -/
structure TimeSt where
  halves : Two HalfClock
  due : List Corr
  tjr : Bool
  tdiff : Bool
  diff : Int
  refused : Int
  outcome : Nat
  jump : Nat
  select : Nat
  src : Nat
  valid : Bool
  servo : Servo
  meas : List Int
  lastOffset : Int
  goodRun : Nat
  offsetAt : Nat
  rateAt : Nat
  estErr : Nat
  ptp : PtpSt
  leap : Int
  leapAnn : Int
  leapV : Bool
  leapDay : Nat
  stamps : Tab StampQ
  timed : List TimedFrame
  missed : Nat
  ingress : Tab Nat
  datumHeard : Nat
  datumHere : Bool
  deriving DecidableEq, Repr

end Sys2Proof
end

