-- ==== Sys2Proof/Cascade.lean ====
section
/-! DEFINITION. What the commons hold of the cascade, the standby pair, the Datum and the bridge
(13_pairs_and_cascade.md). -/

namespace Sys2Proof

/-- A path between modules (Table 13.2) or the pair's own paths (R491). -/
inductive Path where
  | c1
  | c2
  | board
  | pairLink
  | chanA
  | chanB
  deriving DecidableEq, Repr

/-- A cascade or clear-ahead connection at the consumer (Table 13.3, R479, R482): its peer and number; `kind` is
0x6 or 0x7. `best` is the least-delayed envelope of the running 1,024 bus cycles. -/
structure ConnSt where
  kind : Nat
  peer : Nat
  num : Nat
  lastSeq : Option Nat
  startCount : Nat
  ref : Option (Nat × Nat)
  best : Option (Nat × Nat)
  refAt : Nat
  busNs : Nat
  lCyc : Nat
  partner : Nat
  preferred : Bool
  maxAge : Nat
  deriving DecidableEq, Repr

/-- A neighbour half's last clear-ahead bit for one boundary (R263): the producer, its half, the envelope's stamp,
and the bit. -/
structure ClearIn where
  boundary : Nat
  peer : Nat
  num : Nat
  stamp : Nat
  bit : Bool
  deriving DecidableEq, Repr

/-- State of one cascade path (R481): copies received, when it last delivered, and its fault. -/
structure PathSt where
  link : Bool
  fault : Bool
  copies : List Nat
  lastAt : Nat
  deriving DecidableEq, Repr

/-- A cascade frame as received (R474, Table 13.2): `side` the board-link side it arrived on (0 for C1 and C2), `resv` the
reserved header octets as one number. -/
structure CascFrame where
  fcsOk : Bool
  etherType : Nat
  version : Nat
  kind : Nat
  src : Nat
  dst : Nat
  path : Nat
  hops : Nat
  resv : Nat
  bodyLen : Nat
  side : Nat
  body : List Byte
  deriving DecidableEq, Repr

/-- A cascade envelope (Tables 10.2, 10.4): header fields, payload, pair code and check values as received. -/
structure Envelope where
  tag : Nat
  seq : Nat
  stamp : Nat
  epoch : Nat
  kind : Nat
  flags : Nat
  payload : List Byte
  pair : Nat
  cv1 : Nat
  cv2 : Nat
  deriving DecidableEq, Repr

/-- The cascade of one module. `txSeq` is the last sequence sent per connection (kind, consumer, number, sequence),
`anchorAt` the counter at which an ANCHOR last left on a connection (consumer, number, counter), `anchored` the connections
on which one left since the start; `sent` the envelopes that left in the last bus cycle, by consumer, `forwarded` the last
frames passed on by the board link, by the side they left on; `replies` the boundary replies waiting for the tick;
`cancelAllDue` the neighbours a cancel all is still to be sent to (R515). -/
structure CascSt where
  conns : List ConnSt
  clearIn : List ClearIn
  paths : Three PathSt
  startCount : Nat
  bl1 : Bool
  bl2 : Bool
  ring : Bool
  pos : Nat
  nmod : Nat
  blAddrs : List Nat
  etherType : Nat
  etherSet : Nat
  txSeq : List (Nat × Nat × Nat × Nat)
  anchorAt : List (Nat × Nat × Nat)
  anchored : List (Nat × Nat)
  sent : List (Nat × Envelope)
  forwarded : List (Nat × CascFrame)
  dups : Nat
  refused : Nat
  maxAge : Nat
  clearAge : Nat
  replies : List (Nat × Bool)
  cancelAllDue : List Nat
  deriving DecidableEq, Repr

/-- Roles in a pair (Table 13.18). -/
inductive Role where
  | unpaired
  | active
  | standby
  deriving DecidableEq, Repr

/-- What the partner's last heartbeat said (Table 13.5). -/
structure PartnerSt where
  heard : Bool
  role : Nat
  ready : Bool
  reason : Nat
  pref : Bool
  handover : Bool
  cold : Bool
  image : Nat
  h : Nat
  digest : List Byte
  program : Nat
  readyTime : Nat
  epoch : Nat
  address : Nat
  namesUs : Bool
  orderCode : Nat
  compatClass : Nat
  settingsN : Nat
  deriving DecidableEq, Repr

/-- The standby pair. `hbNow` holds the paths whose heartbeat counted for the coming record, `hbRec` the record
since the last tick; `plRun`, `welRun`, `allRun` the bus cycles in a row without a heartbeat on the pair link alone, on both
channels alone, on any path; `nr3`, `nr4` not-ready reasons that hold until the next resynchronisation; `lost` that an image
showed the loss; `shadows` the shadow image copies of the present program cycle and `ownRun` the image the lanes of a standby
already ran in it; `gateOpen` whether the stars gate slots 9 and 10 from their internal ports (R488); `unformed` that event
56 told that no pair can be formed; `epochSet` that this start has taken its epoch (R506). -/
structure PairLinkSt where
  partnerAddr : Nat
  preferred : Bool
  takeback : Bool
  stabilityS : Nat
  formed : Bool
  role : Role
  epoch : Nat
  retainedEpoch : Nat
  partner : PartnerSt
  hbNow : List (Nat × Path)
  hbRec : List (Bool × Bool × Bool)
  plRun : Nat
  welRun : Nat
  allRun : Nat
  pathFault : Bool
  nr3 : Bool
  nr4 : Bool
  resync : Bool
  resyncDue : Nat
  lost : Bool
  readySince : Option Nat
  h : Option Nat
  lastH : Nat
  cold : Bool
  outcome : Nat
  shadows : List (Half × CycleImage)
  ownRun : Option Nat
  deposeRun : Nat
  gateOpen : Bool
  unformed : Bool
  epochSet : Bool
  deriving DecidableEq, Repr

/-- A bridge transaction (Table 13.13). `peer` is the other module. -/
structure Trans where
  type : Nat
  tag : Nat
  init : Nat
  window : Nat
  offset : Nat
  length : Nat
  code : Nat
  epoch : Nat
  data : List Byte
  peer : Nat
  deriving DecidableEq, Repr

/-- An outbound bridge transaction: when it was sent, data arrived for a read, when, and how often it was resent. -/
structure OutTrans where
  t : Trans
  path : Nat
  sentNs : Nat
  arrived : Option (List Byte)
  arrivedNs : Nat
  error : Option Nat
  resends : Nat
  polled : Bool
  deriving DecidableEq, Repr

/-- A failure record (Table 13.14). -/
structure FailRec where
  target : Nat
  window : Nat
  tag : Nat
  offset : Nat
  length : Nat
  init : Nat
  type : Nat
  code : Nat
  image : Nat
  deriving DecidableEq, Repr

/-- The bridge (R522 to R528): window access and contents (16 × 64 KiB in one memory), outbound transactions, the
completions last sent, what the local initiator was answered last (0 accepted, 1 RETRY, 2 data, else a code of Table 13.15)
and with what data, and the failure queue. -/
structure BridgeSt where
  access : List Nat
  mem : Mem
  out : List OutTrans
  inbound : List Trans
  answers : List Trans
  answered : Nat
  ansData : List Byte
  failures : List FailRec
  failOvf : Nat
  deriving DecidableEq, Repr

/-- A cycle report held by the Datum (Table 13.12). -/
structure CycleReport where
  addr : Nat
  bytes : List Byte
  partner : Nat
  startCount : Nat
  stampNs : Nat
  conflict : Bool
  deriving DecidableEq, Repr

/-- A Datum time frame (R519): the Datum it names, module time of its launch in 2⁻¹⁶ ns, leap offset and announcement,
Datum epoch, ESTERR. -/
structure TimeFrame where
  addr : Nat
  launch : Int
  leap : Int
  leapAnn : Int
  epoch : Nat
  estErr : Nat
  deriving DecidableEq, Repr

/-- The Datum and its frames (R518 to R521). `lastFrame` is the launch and arrival of the last time frame used, `delayReq`
the outstanding delay request with its launch time, `delayAns` the Datum's last answer (module, sequence, arrival);
`pathUsed` the path the measurement uses. -/
structure DatumSt where
  addr : Nat
  syncDriver : Bool
  downstream : List Nat
  reports : List CycleReport
  newestEpoch : Option Nat
  pathDelay : Int
  pathUsed : Nat
  lastFrame : Option (Int × Int)
  delayReq : Option (Nat × Int)
  delayAns : Option (Nat × Nat × Int)
  delaySeq : Nat
  delayAt : Nat
  sentAt : Int
  sent : Option TimeFrame
  reportSent : List Byte
  syncDiff : Int
  syncAt : Nat
  mismatch : Bool
  deriving DecidableEq, Repr

end Sys2Proof
end

