-- ==== Sys2Proof/Power.lean ====
section
/-! DEFINITION. What the backup domain, the power states, start-up, the firmware update, the supplies and the
station-data and program slots hold (02, 08, 16 and 17 of spec/). -/

namespace Sys2Proof

/-- Power states (Table 16.1), Failed-wake beside them. -/
inductive PwState where
  | run
  | quiet
  | dormant
  | standby
  | off
  | failedWake
  deriving DecidableEq, Repr

/-- A domain of the wake sequence: 0 backup, 1 and 2 the halves, 3 to 5 the lanes (object 0x8004 sub 2). -/
structure Domain where
  step : Nat
  attempts : Nat
  alternate : Bool
  failed : Bool
  deriving DecidableEq, Repr

/-- Power states, votes and start-up (Tables 16.2, 16.3, 16.5, 16.11). `step` is the start-up step under way,
0 when confirmed. -/
structure PowerSt where
  st : PwState
  votes : List Nat
  moving : Option PwState
  transAt : Nat
  wakeQ : Bool
  collapsed : Nat
  holdS : Nat
  wakeTime : Nat
  wakeUntil : Option Nat
  wakeDrive : Nat
  bankMask : Nat
  banksLost : Bool
  step : Nat
  step7At : Nat
  confirmOutcome : Nat
  confirmDue : Bool
  confirmSrc : Nat
  confirmImg : Option Nat
  confirmed : Bool
  coldNext : Bool
  unconfigured : Bool
  startMiss : Nat
  domains : Tab Domain
  lastWake : Nat
  calendar : Nat
  keeperCount : Nat
  norCount : Nat
  leavingFor : Option Nat
  pfail : Nat
  bankCharged : Bool
  retained : Three (Option Kernel)
  deriving DecidableEq, Repr

/-- A supply input (Table 17.3): its voltage in mV, whether it counts as lost, and whether disconnected. -/
structure SupplyIn where
  millivolt : Int
  lost : Bool
  disconnected : Bool
  over32 : Bool
  deriving DecidableEq, Repr

/-- Supplies and backup cell (R631 to R636). -/
structure SupplySt where
  pwr1 : SupplyIn
  pwr2 : SupplyIn
  cellMv : Nat
  cellLow : Bool
  cellMissing : Bool
  cellGood : Nat
  deriving DecidableEq, Repr

/-- Slot states of station data (Table 2.10). -/
inductive SlotState where
  | empty
  | receiving
  | checking
  | refused
  | valid
  | pending
  | active
  | interrupted
  deriving DecidableEq, Repr

/-- What a lane's checks of a load gave (R79): accepted with a digest, or a refusal code and detail. -/
structure LoadVerdict where
  code : Nat
  detail : Nat
  digest : List Byte
  deriving DecidableEq, Repr

/-- A station-data slot as one lane holds it. -/
structure DataSlot where
  st : SlotState
  bytes : Mem
  size : Nat
  parsed : Station
  version : Nat
  site : Nat
  digest : List Byte
  deriving DecidableEq, Repr

/-- Station-data load (Table 2.10) and the signing-key registers (R73). -/
structure LoadSt where
  slots : Two DataSlot
  offset : Nat
  session : Nat
  code : Nat
  detail : Nat
  highest : Nat
  rollback : Bool
  site : Nat
  compose : List Nat
  verify : List Nat
  keyWindow : List Byte
  keyOutcome : Nat
  pubKeys : List (Nat × List Byte)
  fmtClasses : List Nat
  deriving DecidableEq, Repr

/-- A program slot (Table 8.9). -/
structure ProgSlot where
  st : SlotState
  bytes : Mem
  size : Nat
  parsed : Option Program
  digest : List Byte
  deriving DecidableEq, Repr

/-- Program load and settings (Tables 8.8, 8.9). -/
structure ProgLoadSt where
  slots : Two ProgSlot
  active : Option Half
  offset : Nat
  session : Nat
  code : Nat
  detail : Nat
  faultStop : Nat
  switchLead : Nat
  bankImage : Three Nat
  deriving DecidableEq, Repr

/-- Phases of an install (Table 16.12). -/
inductive InstPhase where
  | idle
  | fallbackCopy
  | withdrawing
  | writing
  | rejoining
  | rollingBack
  deriving DecidableEq, Repr

/-- Firmware header fields kept of the image in the new area (Table 16.6). -/
structure FwHeader where
  cclass : Nat
  version : Nat
  length : Nat
  blocks : Nat
  settings : Nat
  formats : List Nat
  minLoader : Nat
  digest : List Byte
  deriving DecidableEq, Repr

/-- Firmware update (Tables 16.7 to 16.12). -/
structure UpdateSt where
  accept : Bool
  auto : Bool
  rollback : Bool
  outcome : Nat
  nextBlock : Nat
  buffer : Mem
  bufOffset : Nat
  header : Option FwHeader
  newArea : Mem
  blockDigest : List Byte
  upd : Bool
  valid : Bool
  newVersion : Nat
  fallback : Nat
  fallClass : Nat
  fallDigest : List Byte
  action : Nat
  phase : InstPhase
  lane : Nat
  block : Nat
  doneL : Nat
  stopAsked : Bool
  rolling : Bool
  installOutcome : Nat
  fwdOutcomes : List Nat
  fwdNext : Nat
  updating : Bool
  settingsClass : Nat
  runSettings : Nat
  deriving DecidableEq, Repr

/-- Identity of the module (object 0x1000) that manufacture fixes. -/
structure Ident where
  ports : Nat
  serial : Nat
  issue : Nat
  made : Nat
  mac : List Byte
  loader : Nat
  vendorKeys : List (Nat × List Byte)
  deriving DecidableEq, Repr

end Sys2Proof
end

