-- ==== Sys2Proof/Config.lean ====
section
/-! DEFINITION. What the spec leaves open (free values: constants without a body) and what it fixes. -/

namespace Sys2Proof.Config

/-- SHAKE256-256 (R75): the spec names the function and states none of its steps, so no digest is computed here. DESIGN
CHOICE, log 15 (safe). DESIGN CHOICE, log 15 (safe). -/
opaque shake256 : List Byte → List Byte

/-- SHAKE256-256 over an image of `n` bytes held in a memory (R613). DESIGN CHOICE, log 15 (safe). -/
opaque shakeMem : Mem → Nat → List Byte

/-- Falcon-1024 verification of a signature over a digest with a public key (R75, R613). DESIGN CHOICE, log 15 (safe). -/
opaque falcon : List Byte → List Byte → List Byte → Bool

/-- The records inside a station-data part: their byte layout is not given (R72), so reading a container is free. DESIGN
CHOICE, log 14 (safe). DESIGN CHOICE, log 14 (safe). -/
opaque parseStation : Mem → Nat → Station

/-- As `parseStation`, for a program container (R302). DESIGN CHOICE, log 14 (safe). -/
opaque parseProgram : Mem → Nat → Option Program

/-- Part formats that a firmware knows within a format class (Table 2.11): the formats' numbers are not given. PRESUMED, log
16 (unsafe). PRESUMED, log 16 (unsafe). -/
opaque partFormat : Nat → Nat → Nat → Bool

/-- What the start-up defaults part says of sections, keys and tracked carriers (R88): its layout is not given. DESIGN
CHOICE, log 17 (safe). DESIGN CHOICE, log 17 (safe). -/
opaque startDefaults : List Byte → Tab SecSt × Tab KeySt × Tab Carrier

/-- Vital block types and versions of a firmware version (R287): the library is outside the spec. DESIGN CHOICE, log 18
(safe). DESIGN CHOICE, log 18 (safe). -/
opaque library : Nat → List (Nat × Nat)

/-- Bytes of the Trestle graph and permit map over which R258 takes its check. DESIGN CHOICE, log 36 (safe). -/
opaque graphBytes : Station → List Byte

/-- The application program's instances (R294): from the kernel's state of the image, whose cycle input image and
fired scheduler events it reads, one step answers channel values and variables.
The vital library's blocks and the user's code are outside the spec's text. DESIGN CHOICE, log 19 (safe). -/
opaque appStep : Program → Kernel → List VarSt → List VlBlock → (AppOut × List VarSt)

/-- A fault of the program's own code in an image (ACCESS-VIOLATION or BLOCK-TRAP, Table 8.7) with its instance. DESIGN
CHOICE, log 19 (safe). DESIGN CHOICE, log 19 (safe). -/
opaque appFault : Program → Kernel → List VarSt → Option (Nat × Nat)

/-- What a timer block of the program sees at its input in an image (R308). DESIGN CHOICE, log 19 (safe). -/
opaque blockInput : Program → Kernel → Nat → Bool

/-- Instructions each partition of the program retires in an image (R298). DESIGN CHOICE, log
30 (safe). DESIGN CHOICE, log 19 (safe). DESIGN CHOICE, log 30 (safe). -/
opaque appInstr : Program → Kernel → List Nat

/-- Conversion of instance data at an online change where R308 leaves it to the program (R309). DESIGN CHOICE, log 19
(safe). DESIGN CHOICE, log 19 (safe). -/
opaque convert : Program → Program → List VarSt → List VarSt

/-- Benchmark digest of a lane's state (R217): pages and their bytes are the firmware's. DESIGN CHOICE, log 18 (safe). -/
opaque benchDigest : Nat → Kernel → List Byte

/-- A fresh value the spec leaves open, one for each reading of the model's own counter `State.free`. DESIGN CHOICE, log 10
(safe). DESIGN CHOICE, log 10 (safe). -/
opaque freeValue : Nat → Nat

/-- Path residence or processing time in units of 10 ns of a walk's end (R280): hardware's own. DESIGN CHOICE, log 35
(safe). DESIGN CHOICE, log 35 (safe). -/
opaque evalTime : Nat → Nat

/-- A firmware's digest as the loader reports it (object 0x1001). DESIGN CHOICE, log 18 (safe). -/
opaque fwDigest : Nat → List Byte

/-- Slices of a NOR self-test beyond its read-margin scan (Table 15.4), by slice budget in ms: the program and erase of the two
spare blocks, whose slices the spec does not count. DESIGN CHOICE, log 83 (unsafe). -/
opaque norSlices : Nat → Nat

end Sys2Proof.Config
end

