-- ==== Sys2Proof/Operand.lean ====
section
/-! DEFINITION. Operands of the commands that are more than a number: what the hardware or the outside reports. -/

namespace Sys2Proof

/-- What one half's own circuits report in a bus cycle: the ns its oscillator counted since the last t0, the samples of
channels a and b of the local pairs 1 to 16 and of the commissioning key, the star ports whose frame the closing gate
cut (R347), and the faults its own checkers found (R257, R277, R279): a code fault, a failed in-service vector (vector,
walker, whether it is a boundary walker), a read-back mismatch. -/
structure HalfIn where
  dt : Nat
  pins : List (Bool × Bool)
  cuts : List Nat
  codeFault : Bool
  vector : Option (Nat × Nat × Bool)
  readBack : Bool
  deriving DecidableEq, Repr

/-- What the circuits report in one bus cycle: both halves, the non-vital inputs NI1 to NI8, the level of RESET, the
vital outputs whose readback is not what the stage drives (output, terminal, mid node), how many buffered Field
book records the storage took, how many of its blocks failed and were retired (R568), and whether the Chest failed to take a
record (R578). -/
structure HeadIn where
  a : HalfIn
  b : HalfIn
  ni : Nat
  reset : Bool
  vos : List (Nat × Bool × Bool)
  stored : Nat
  retired : Nat
  chestFault : Bool
  deriving DecidableEq, Repr

/-- A PTP Sync or Follow_Up message (R457): its sender, domain, sequenceId, two-step flag, logMessageInterval, and its
origin time with the correction field, in 2⁻¹⁶ ns. -/
structure PtpMsg where
  sender : Nat
  domain : Nat
  seq : Nat
  twoStep : Bool
  logInt : Int
  origin : Int
  deriving DecidableEq, Repr

/-- Pass times of an image as the hardware measured them, in µs (objects 0x6002 sub 3, 0x6500 sub 6, 0x7000 sub 6). -/
structure PassTimes where
  traverse : Nat
  authority : Nat
  app : Nat
  deriving DecidableEq, Repr

/-- Nothing measured. -/
def PassTimes.zero : PassTimes := ⟨0, 0, 0⟩

/-- What a lane's in-service test did in an image (R585 to R587): single-bit errors corrected, how far its rotation stands in
percent, whether the rotation ended, and a failure: an uncorrectable error or a leaf digest that differs at an address
(`vector` false), or a failed vector. -/
structure IstIn where
  corrected : Nat
  percent : Nat
  ended : Bool
  failed : Option (Bool × Nat)
  deriving DecidableEq, Repr

/-- What the hardware reports of one program cycle tick: for each lane whether its copies from halves A and B are valid (R29),
its pass times and its in-service test, and the requests (port, tag) of which the halves hold different copies (R94). -/
structure TickIn where
  copies : Three (Bool × Bool)
  times : Three PassTimes
  ist : Three IstIn
  diverged : List (Nat × Nat)
  deriving DecidableEq, Repr

/-- A bridge command (R523 to R526): a transaction that a local initiator asks for, or a cascade frame of kind 0x02 received
from another module. -/
inductive BridgeOp where
  | ask (init target window offset length : Nat) (data : List Byte)
  | frame (f : CascFrame)
  deriving DecidableEq, Repr

/-- What the circuits and loaders report as a start-up step completes (Table 16.5): the calendar clock in TAI seconds (R446); per
half the number of failed voter trials with the first one (R221), whether its comparator vectors passed (R223), the first
failed Trestle vector with its walker (R276), and whether the graph it loaded compares (R258); per lane whether its firmware
signature (R614), its station-data check (R86) and its retained banks (R323) are good. -/
structure StartIn where
  calendar : Nat
  voter : Two (Nat × Nat)
  cmp : Two Bool
  vec : Two (Option (Nat × Nat))
  graph : Two Bool
  fw : Three Bool
  data : Three Bool
  banks : Three Bool
  deriving DecidableEq, Repr

/-- The far side of a PROXY request as the bridge found it (R564): its code of Table 13.15, 0 when the reply came; whether the
posted write itself failed (R526); the target's reply datagram. -/
structure ProxyIn where
  code : Nat
  posted : Bool
  reply : List Byte
  deriving DecidableEq, Repr

end Sys2Proof
end

