-- ==== Sys2Proof/Syntax.lean ====
section
/-! DEFINITION. The commands of the block: one constructor per row of spec/opcode_table.json, with the row's operands.
The table gives no row any bits, so the operands are what the row's rule reads from outside. -/

namespace Sys2Proof

/-- A command (a frame, a message, a register write, a pin or hardware event, or the passage of time). -/
inductive Instr where
  /-- R22. At t0 of every bus cycle both halves run the fixed vital head: sync, input, Trestle evaluation, then command frames and permit words. -/
  | busCycleStart (inp : HeadIn)
  /-- R25. A walk unfinished at the end of the walk step has its permit withheld, and the half counts an overrun and is disabled. -/
  | evaluationOverrun (h : Half) (key : Nat)
  /-- R354. Every 16 bus cycles a node adds its summed offset corrections to its rate correction, limited to ±200 ppm. -/
  | rateCorrection (h : Half)
  /-- R355. After 8 bus cycles in a row with at most two sync values, event 22 is raised. -/
  | weakSynchronisation (h : Half)
  /-- R351. A valid SYNC frame received in a sync slot yields a clock deviation value for synchronisation. -/
  | syncFrame (h : Half) (port : Nat) (f : Frame) (at_ : Int)
  /-- R361. After 8 bus cycles plus its node delay a backed-off starter listens again. -/
  | backOffEnd (h : Half)
  /-- R360. A valid COLD-START frame received makes a listening node integrate, or forces an integrated controller to reintegrate to node 0's counter. -/
  | coldStart (h : Half) (port : Nat) (f : Frame) (at_ : Int) (coll : Option Nat)
  /-- R356. A cold-start node that hears no valid sync frame within its listen time starts the bus. -/
  | listenTimeout (h : Half)
  /-- R358. Every 65,536 bus cycles each half writes its highest bus-cycle counter to the Chest control area. -/
  | counterRecordWrite (h : Half)
  /-- R24. A controller's INPUT frame with its input envelope is received on one channel. -/
  | inputFrame (h : Half) (port : Nat) (f : Frame)
  /-- R350. An INTEGRATE frame from a closed port is received whole in its input slot. -/
  | integrateFrame (h : Half) (port : Nat) (f : Frame)
  /-- R349. A port cut 3 times within 8 bus cycles has its ingress closed from the next bus cycle. -/
  | portClosedByCuts (h : Half) (port : Nat)
  /-- R332. A star port link comes up and the star measures its link delay before accepting other frames. -/
  | linkUp (h : Half) (port : Nat)
  /-- R364. A star port link drops, releasing its claimed spare slots. -/
  | linkDown (h : Half) (port : Nat)
  /-- R332. A node's DELAY-RESP answers a DELAY-REQ and feeds the star's link-delay measurement. -/
  | delayResp (h : Half) (port : Nat) (f : Frame) (roundTrip : Nat)
  /-- R332. Every 65,536 bus cycles the star sends a DELAY-REQ in the claim slot to re-measure a port's link delay. -/
  | linkDelayRemeasure (h : Half) (port : Nat)
  /-- R350. Port command action 0x01 closes a port's ingress until a release command. -/
  | portClose (sess : Nat) (h : Half) (port : Nat)
  /-- R350. Port command action 0x02 releases a commanded port closure so it can reopen by INTEGRATE frames. -/
  | portRelease (sess : Nat) (h : Half) (port : Nat)
  /-- R332. Port command action 0x03 starts a link-delay measurement of one port. -/
  | measureLinkDelay (sess : Nat) (h : Half) (port : Nat)
  /-- R345. Node 0 resends a controller's port tables when TABLE has been clear in 8 consecutive bus cycles. -/
  | portTableResend (h : Half) (port : Nat)
  /-- R363. A controller's CLAIM frame asks for 0 to 4 spare slots, served by both halves in ascending node number. -/
  | claimFrame (h : Half) (port : Nat) (f : Frame)
  /-- R346. A SERVICE frame from a controller carries one dictionary request to node 0. -/
  | serviceFrame (h : Half) (port : Nat) (f : Frame) (far : ProxyIn)
  /-- R373. A valid WAKE frame in the Dormant claim slot raises event 29 and passes a wake request to the backup domain. -/
  | wakeFrame (h : Half) (port : Nat) (f : Frame)
  /-- R365. A write of a target mode to object 0x5010 sub 1 requests a schedule mode switch and fixes the switch counter. -/
  | modeRequest (sess n : Nat)
  /-- R369. A write of 0xFF to object 0x5010 sub 1 before the checkpoint aborts the pending switch. -/
  | modeAbort (sess : Nat)
  /-- R367. At counter s − 2 × L_old the switch is judged agreed or not from the controllers' READY flags. -/
  | checkpointReached
  /-- R368. At bus cycle s every node that saw CONFIRMED runs the new schedule mode. -/
  | modeSwitch
  /-- R28. At t0 + 50 µs of a bus cycle whose counter is a multiple of L the commons latches the cycle input image with a new image number. -/
  | programCycleTick (t : TickIn)
  /-- R209. A lane's output image arrives complete in a voter ingress buffer. -/
  | outputImage (l : Lane) (h : Half) (img : Option OutputImage)
  /-- R32. At the vote deadline the voter votes with the images present and counts absent lanes as late. -/
  | voteDeadline (h : Half)
  /-- R214. A half excludes a lane whose consecutive late deliveries reach 3. -/
  | lateExclusion (l : Lane)
  /-- R218. A lane delivers its benchmark of an image to both comparators. -/
  | benchmarkMsg (l : Lane) (h : Half) (dig : Option (List Byte))
  /-- R220. A comparator's verdict message from the other comparator is cross-checked, with test vectors run on disagreement. -/
  | comparatorLinkMessage (passA : Bool) (passB : Bool)
  /-- R225. An uncorrectable ECC error or NOR read failure makes the lane exclude itself with MEMORY. -/
  | memoryError (l : Lane) (addr : Nat)
  /-- R225. The lane clock or PLL monitor leaving its limits makes the supervisor exclude the lane with CLOCK. -/
  | laneClockFault (l : Lane)
  /-- R225. A lane regulator leaving its limits makes the supervisor exclude the lane with SUPPLY. -/
  | laneSupplyFault (l : Lane)
  /-- R230. At the tick after exclusion, or on a return command, an excluded lane begins rejoin from booting. -/
  | rejoinStart (l : Lane)
  /-- R231. The rejoining lane's firmware, station-data and memory checks complete and copying begins. -/
  | bootingDone (l : Lane) (fw : Bool) (data : Bool) (mem : Bool)
  /-- R233. A pre-copy round ends and either fixes the copy point or begins a new round. -/
  | copyRoundEnd (l : Lane) (pages : Nat) (canStream : Bool)
  /-- R234. The final round is received and the lane runs the kept images back to back to catch up. -/
  | finalRoundReceived (l : Lane)
  /-- R235. After two consecutive matching shadow images and benchmarks the lane enters the vote at the next tick. -/
  | laneEntersVote (l : Lane)
  /-- R231. A rejoin phase overrunning its budget fails the rejoin with REJOIN-TIMEOUT. -/
  | rejoinTimeout (l : Lane)
  /-- R239. Lane command 0x01 to 0x03 requests the planned withdrawal of a lane at the next benchmark image. -/
  | withdrawLane (sess : Nat) (l : Lane)
  /-- R242. Lane command 0x11 to 0x13 returns a withdrawn or held lane through a full rejoin. -/
  | returnLane (sess : Nat) (l : Lane)
  /-- R241. Lane command 0xFF cancels a pending withdrawal, or is refused with NOT-PENDING. -/
  | cancelWithdrawal (sess : Nat)
  /-- R239. At the tick of image b + 1 after a MATCH with three benchmarks the pending lane leaves the vote. -/
  | withdrawalTakesEffect
  /-- R246. A write of 1 to object 0x8101 sub 1 enters commissioning mode with Trestle inhibited and Lane A's debug open. -/
  | enterCommissioning (sess : Nat)
  /-- R252. A write of 2 to object 0x8101 sub 1 drains the journal and benchmarks until MATCH to leave commissioning mode. -/
  | leaveCommissioning (sess : Nat)
  /-- R251. The key going inactive closes debug access, journals resumes for halted cores and clears breakpoints. -/
  | commissioningKeyInactive
  /-- R249. A debugger halt of a Lane A core is journaled before it takes effect. -/
  | debugHalt (core : Nat)
  /-- R249. A Lane A core hitting a breakpoint is journaled as a halt at the hit count. -/
  | breakpointHit (core : Nat) (count : Nat)
  /-- R249. A debugger resume of a Lane A core is journaled before it takes effect. -/
  | debugResume (core : Nat)
  /-- R249. A single step is journaled as a resume then a halt at count + 1. -/
  | debugSingleStep (core : Nat)
  /-- R249. A debugger memory write to Lane A is journaled before it takes effect. -/
  | debugMemoryWrite (core : Nat) (addr : Nat) (data : List Byte)
  /-- R249. A debugger register write to Lane A is journaled before it takes effect. -/
  | debugRegisterWrite (core : Nat) (reg : Nat) (data : List Byte)
  /-- R248. Lane A publishes each core's retired-instruction count to Lanes B and C every 65,536 instructions and at each barrier. -/
  | instructionCountPublish (counts : List Nat)
  /-- R249. A core of Lane B or C reaching a journal entry's count applies that entry. -/
  | journalEntryApply (l : Lane) (core : Nat)
  /-- R278. A scrub pass re-reads the frozen graph and permit map and recomputes its check, disabling the half on mismatch. -/
  | graphScrub (h : Half) (mismatch : Bool)
  /-- R281. An output commanded permissive and withheld in L consecutive bus cycles raises event 37. -/
  | outputWithheldLCycles (h : Half) (key : Nat)
  /-- R263. A neighbour's CLEAR-AHEAD envelope is received and sets the presence and value of each boundary's clear-ahead bit. -/
  | clearAhead (f : CascFrame)
  /-- R101. A set request (class 0x02) asks for a route to be checked and reserved. -/
  | setRoute (q : Req)
  /-- R124. A cancel request (class 0x01) releases a route according to its state. -/
  | cancelRoute (q : Req)
  /-- R125. An emergency cancel (class 0x00) acts as a cancel, ranks first, may apply to all routes and sets EMRG. -/
  | emergencyCancel (q : Req)
  /-- R121. A point move request (class 0x03) asks for one point to be moved to a target position. -/
  | pointMove (q : Req)
  /-- R109. A held request refused at its 64th re-presentation ends with HOLD-EXPIRED. -/
  | holdExpired (port : Nat) (tag : Nat)
  /-- R119. A point not detected by its deadline image has its drive turned off and becomes FAILED. -/
  | throwTimeout (point : Nat)
  /-- R123. LOST clears once the point has been detected in its locked position for the recovery time. -/
  | lostCleared (point : Nat)
  /-- R112. A route waiting 10 program cycles for boundary confirmation goes to released with BOUNDARY-REFUSED. -/
  | boundaryConfirmationTimeout (route : Nat)
  /-- R116. Proving inputs not showing the cleared aspect by the third image replace the signal with SIGNAL-NOT-PROVEN. -/
  | signalNotProven (signal : Nat)
  /-- R152. In sequence mode a section releases after it has been clear for the recovery time following the train's passage. -/
  | sequenceRelease (route : Nat)
  /-- R163. A CLEAR-FOR event fires after its count of clear images and releases the section in detection mode. -/
  | clearFor (route : Nat)
  /-- R146. An ELAPSED event fires when its count of images has passed. -/
  | elapsedEvent (app : Bool) (owner : Nat)
  /-- R147. A route releasing after a cancel releases in the third consecutive image with its approach area and start element clear. -/
  | releaseByDistance (route : Nat)
  /-- R166. A section showing GHOST longer than its maximum occupied time raises event 42 once. -/
  | ghostTimeout (sec : Nat)
  /-- R157. A crossing not closed within its closing time becomes closing-failed and releases waiting routes with CROSSING-TIMEOUT. -/
  | crossingClosingTimeout (crossing : Nat)
  /-- R159. An opening crossing whose closed input is still active after its opening time writes CROSSING-OPEN-SLOW. -/
  | crossingOpenSlow (crossing : Nat)
  /-- R160. A forced-open crossing becomes closed after its closed input has been active for the recovery time. -/
  | crossingRecovered (crossing : Nat)
  /-- R169. A key or emergency-release timer expires and releases each clear, unoverlapped section in scope. -/
  | keyTimerExpiry (key : Bool) (num : Nat)
  /-- R171. A route number written to object 0x6030 sub 1 starts an emergency release of an occupied or releasing route. -/
  | emergencyRelease (sess : Nat) (route : Nat)
  /-- R171. Writing 0xFFFF to object 0x6030 sub 1 ends every running emergency release with KEY-DROPPED. -/
  | emergencyReleaseEndAll (sess : Nat)
  /-- R185. A candidate with valid plausible reports in C consecutive images becomes tracked. -/
  | carrierConfirmed (carrier : Nat)
  /-- R185. A tracked carrier with no valid report for its maximum report age becomes lost with VANISHED. -/
  | carrierVanished (carrier : Nat)
  /-- R185. A tracked carrier with implausible reports in 3 consecutive images becomes lost with CONTRADICT. -/
  | carrierContradict (carrier : Nat)
  /-- R185. A lost carrier's entry empties once every section of its last span has been clear for E images. -/
  | lostSpanCleared (carrier : Nat)
  /-- R308. A vital-library timer's elapsed time meets its preset and its output changes. -/
  | vlTimerExpiry (ref : Nat)
  /-- R301. After the set count of consecutive faulted images the program enters state faulted. -/
  | programFaulted
  /-- R305. Program command 1 arms an online change and fixes the switch image s = a + M. -/
  | progArm (sess : Nat)
  /-- R310. Program command 2 aborts an armed online change. -/
  | progAbort (sess : Nat)
  /-- R301. Program command 3 stops the program so that the fault substitution applies. -/
  | progStop (sess : Nat)
  /-- R301. Program command 4 starts a stopped or faulted program. -/
  | progStart (sess : Nat)
  /-- R307. At the tick of image s each lane converts instance data and switches to the new program slot. -/
  | onlineChangeSwitch
  /-- R313. A host write to a HOSTW variable takes effect in the image in which it is applied. -/
  | variableWrite (sess : Nat) (inst : Nat) (fld : Nat) (value : List Byte)
  /-- R319. Force action 0x01 fixes a non-vital variable at a given value. -/
  | forceSet (sess : Nat) (inst : Nat) (fld : Nat) (value : List Byte)
  /-- R317. Force action 0x02 removes the force on one variable. -/
  | forceRemove (sess : Nat) (inst : Nat) (fld : Nat)
  /-- R317. Force action 0x03 removes every force. -/
  | forceRemoveAll (sess : Nat)
  /-- R303. Program load control 1 erases the inactive program slot and opens a load. -/
  | programLoadOpen (sess : Nat)
  /-- R303. A program load window write stores bytes at the load offset and advances it. -/
  | programLoadWindow (sess : Nat) (data : List Byte)
  /-- R303. Program load control 2 ends the data and starts the lanes' checks. -/
  | programLoadEnd (sess : Nat)
  /-- R303. Program load control 3 abandons the load. -/
  | programLoadAbandon (sess : Nat)
  /-- R303. The lanes' program checks complete and the slot becomes valid or refused. -/
  | programLoadChecked (faulty : Three (Option LoadVerdict))
  /-- R77. Load control 1 erases the inactive station-data slot in all lanes and sets it receiving. -/
  | loadOpen (sess : Nat)
  /-- R77. A load window write passes 1 to 1,024 bytes at the load offset to all three lanes. -/
  | loadWindow (sess : Nat) (data : List Byte)
  /-- R78. Load control 2 ends the data and starts each lane's station-data checks. -/
  | loadEnd (sess : Nat)
  /-- R77. Load control 3 abandons a station-data load. -/
  | loadAbandon (sess : Nat)
  /-- R79. The lanes' checks complete and the load is accepted or refused by voted verdicts. -/
  | loadChecked (faulty : Three (Option LoadVerdict))
  /-- R83. Activate written 1 marks the valid station-data slot pending for the next restart. -/
  | activateData (sess : Nat)
  /-- R77. Activate written 0 withdraws a pending activation and leaves the slot valid. -/
  | withdrawActivation (sess : Nat)
  /-- R74. Key action 1 registers a Compose public key. -/
  | registerComposeKey (sess : Nat) (key : List Byte)
  /-- R74. Key action 2 registers a Verify public key. -/
  | registerVerifyKey (sess : Nat) (key : List Byte)
  /-- R74. Key action 3 removes a key by fingerprint. -/
  | removeKey (sess : Nat) (finger : List Byte)
  /-- R421. A local input pair's test-pulse supervision fault found in 2 consecutive pulse periods latches restrictive. -/
  | inputSupervisionFault (h : Half) (n : Nat) (code : FCode) (tp cause : Nat)
  /-- R424. A pair discrepancy lasting longer than its discrepancy time latches DISCREPANCY. -/
  | discrepancy (h : Half) (n : Nat)
  /-- R425. A pair changing more than its chatter limit within the window reports restrictive until recovery. -/
  | chattering (h : Half) (n : Nat)
  /-- R427. An input active beyond its maximum active time becomes stuck and takes its restrictive value. -/
  | stuckInput (port : Nat) (point : Nat)
  /-- R422. A write to object 0x3304 sub 1 clears latched pair faults not seen for 8 pulse periods. -/
  | acknowledgePairs (sess mask : Nat)
  /-- R431. A write to object 0x3304 sub 2 clears latched output faults whose switch tests passed. -/
  | acknowledgeOutputs (sess mask : Nat)
  /-- R436. A write to object 0x3304 sub 3 clears a latched key supervision fault. -/
  | acknowledgeKey (sess : Nat)
  /-- R430. Every 2 s each de-energised output's switches are tested one at a time. -/
  | switchTest (n : Nat) (midU outU midL outL : Bool)
  /-- R430. Every 60 s each switch of an energised output is given a dark test. -/
  | darkTest (n : Nat) (low : Bool)
  /-- R434. An accepted RESET rising edge confirms start-up, restarts cold or retries wake according to MODE. -/
  | resetEdge
  /-- R435. RESET high for more than 10 s sets RSTUCK and raises event 39. -/
  | resetStuck
  /-- R449. An offset increment is added to O, or refused beyond the jump threshold with TJR set. -/
  | offsetIncrement (sess : Nat) (o : Int)
  /-- R448. A rate increment is added to r with a new reference pair, or refused with RATE-LIMIT. -/
  | rateIncrement (sess : Nat) (r : Int)
  /-- R451. A time step written to object 0x4001 sub 5 is added to O without limit and clears TJR. -/
  | timeStep (sess : Nat) (ns : Int)
  /-- R450. A write of 1 to object 0x4001 sub 8 clears TJR. -/
  | acknowledgeRefusal (sess : Nat)
  /-- R455. A PTP Sync message gives the servo an offset measurement that drives its increments. -/
  | ptpSync (m : PtpMsg) (dt : Nat)
  /-- R457. A PTP Announce message feeds the best master clock algorithm, which may change grandmaster. -/
  | announceMsg (domain : Nat) (m : Master)
  /-- R455. No Announce within the receipt timeout loses the source and enters holdover. -/
  | announceTimeout (sender : Nat)
  /-- R460. At the end of the UTC day of an announced leap the leap offset changes by one second. -/
  | leapSecond
  /-- R468. A timed maintenance-port frame whose launch time has passed by more than 1 µs at the queue head is discarded. -/
  | timedFrameLate
  /-- R469. A scheduled Welong frame not complete 1 µs before its launch time is not sent in its slot. -/
  | launchMissed (h : Half) (slot port : Nat)
  /-- R479. A cascade envelope copy is received, accepted if newer and otherwise discarded as a duplicate. -/
  | cascadeEnvelope (f : CascFrame)
  /-- R483. An ANCHOR envelope announces a producer's start count and bus-cycle length and may reopen a connection. -/
  | anchorMsg (f : CascFrame)
  /-- R476. The lanes send an ANCHOR on each cascade connection at opening, at mode switches and at least every 1,024 bus cycles. -/
  | anchorSend (peer num : Nat)
  /-- R482. Every 1,024 consumer bus cycles the age reference pair is replaced by the least-delayed envelope. -/
  | referencePairUpdate (kind peer num : Nat)
  /-- R481. A cascade path delivering nothing for 1 s while another delivers raises event 61. -/
  | pathFault (n : Nat)
  /-- R485. At board-link link-up neighbours exchange addresses and each module learns its position and ring status. -/
  | boardLinkUp (side pos : Nat) (addrs : List Nat) (ring : Bool)
  /-- R492. A partner HEARTBEAT envelope arrives on a path and enters the heartbeat record. -/
  | heartbeatMsg (path : Path) (f : Frame)
  /-- R493. Three consecutive bus cycles with no heartbeat on any path declare the partner lost. -/
  | partnerLost
  /-- R494. A copy of the active module's cycle input image arrives over the pair link for the standby's lanes. -/
  | shadowImage (h : Half) (img : CycleImage) (good : Bool) (t : TickIn)
  /-- R495. No shadow image by tick + 500 µs makes the standby run its own image and become not ready. -/
  | shadowMissed (t : TickIn)
  /-- R496. The active's benchmark arrives at the standby and is compared with its own. -/
  | benchmarkEnvelope (f : CascFrame)
  /-- R498. Pair command 0x03 starts resynchronisation of the standby. -/
  | resynchronise (sess : Nat)
  /-- R498. Resynchronisation of the standby's state from the active completes and the standby becomes ready. -/
  | resyncComplete (k : Kernel)
  /-- R503. Pair command 0x01 starts a planned hand-over with h fixed at the vote. -/
  | handOver (sess : Nat)
  /-- R505. Pair command 0x02 moves control to a partner with different data or program once all routes are released. -/
  | coldHandOver (sess : Nat)
  /-- R503. At program cycle h both stars change gates and control passes to the incoming module with epoch e + 1. -/
  | handOverImage
  /-- R504. A preferred standby ready for the stability time makes the active partner decide a planned hand-over. -/
  | takeback
  /-- R511. A RESERVE envelope from a neighbour is placed on requester port 1 as a boundary reservation request. -/
  | reserveMsg (f : CascFrame)
  /-- R514. A RESERVE-REPLY confirms or refuses a route's boundary reservation. -/
  | reserveReply (f : CascFrame)
  /-- R519. A Datum time frame is received and feeds time source 2. -/
  | timeFrame (path : Nat) (f : TimeFrame) (dt : Nat)
  /-- R519. The Datum sends a time frame with a launch time every 125 ms. -/
  | timeFrameSend (launch : Int)
  /-- R519. Once per second a module sends the Datum a delay request to measure its path delay. -/
  | datumDelayRequest (launch : Int)
  /-- R520. A module sends its cycle report to the Datum at tick + 1,000 µs of its assigned images. -/
  | cycleReportSend
  /-- R520. The Datum receives a module's cycle report and keeps the latest per module. -/
  | cycleReport (f : CascFrame)
  /-- R529. The SYNC driver module drives a 1 µs pulse at each whole second of module time. -/
  | syncPulse
  /-- R529. A module stamps the SYNC rising edge and records its time difference. -/
  | syncEdge (dt : Nat)
  /-- R524. A bridge READ-REQ asks the far module for data from one of its windows. -/
  | readReq (op : BridgeOp)
  /-- R524. A bridge READ-DATA returns read data, held until the initiator repeats its read. -/
  | readData (f : CascFrame)
  /-- R524. Read data not fetched by the initiator within 10 ms is discarded and its tag freed. -/
  | readDataDiscard (tag : Nat)
  /-- R525. A bridge WRITE is posted into the far module's window. -/
  | bridgeWrite (op : BridgeOp)
  /-- R525. A bridge WRITE-DONE confirms a posted write. -/
  | writeDone (f : CascFrame)
  /-- R526. A bridge ERROR answer is returned to the initiator or placed in the failure queue. -/
  | bridgeError (f : CascFrame)
  /-- R526. No answer within 100 ms gives TIMEOUT to the initiator or the failure queue. -/
  | bridgeTimeout (tag : Nat)
  /-- R537. An OPEN request opens a session at the granted level when the credential verifies. -/
  | openSess (src : Source) (ch : Option Half) (b : List Byte)
  /-- R540. A CLOSE request closes the session. -/
  | closeSess (src : Source) (ch : Option Half) (b : List Byte)
  /-- R553. A STATUS request returns the status field and keeps the session alive. -/
  | statusReq (src : Source) (ch : Option Half) (b : List Byte)
  /-- R546. A READ request returns an object's value from the voted image or the commons. -/
  | readObj (src : Source) (ch : Option Half) (b : List Byte)
  /-- R546. A WRITE request to an object with no row of its own is applied at the tick or at once and answered. -/
  | writeObj (src : Source) (ch : Option Half) (b : List Byte)
  /-- R546. A read of an RC object returns its value and then clears it. -/
  | readClear (src : Source) (ch : Option Half) (b : List Byte)
  /-- R545. A DESCRIBE request returns an object's descriptor. -/
  | describeObj (src : Source) (ch : Option Half) (b : List Byte)
  /-- R558. An EVENT-READ returns and removes up to 16 records from the session's event queue. -/
  | eventRead (src : Source) (ch : Option Half) (b : List Byte)
  /-- R564. A PROXY request passes a complete request to another module through the bridge and returns its reply. -/
  | proxyReq (src : Source) (ch : Option Half) (b : List Byte) (far : ProxyIn)
  /-- R559. A W1C write to object 0x3001 clears pending event bits for every session. -/
  | eventPendingClear (src : Source) (ch : Option Half) (b : List Byte)
  /-- R540. A session sending no accepted datagram for the session timeout closes. -/
  | sessionTimeout (n : Nat)
  /-- R539. A source's OPEN lockout ends after the lockout time. -/
  | lockoutEnd (src : Source)
  /-- R563. Maintenance port settings take effect 5 s after the write is applied. -/
  | networkSettingsApply
  /-- R570. A read of the Field book window returns the record at the session's cursor and advances it. -/
  | fieldBookRead (sess : Nat)
  /-- R571. A write to the Field book cursor sets it to a sequence, the oldest or the newest + 1. -/
  | fieldBookCursor (sess v : Nat)
  /-- R571. A seek write sets the cursor to the first record at or after a given time. -/
  | fieldBookSeek (sess t : Nat)
  /-- R567. When buffer space returns after losses a RECORDS-LOST marker is written first. -/
  | recordsLostMarker
  /-- R596. A read of the Chest window returns the record at the session's Chest cursor and advances it. -/
  | chestRead (sess : Nat) (good : Bool)
  /-- R596. A read of the snapshot window returns 1,024 bytes from the session's offset and advances it. -/
  | snapshotRead (sess : Nat)
  /-- R176. A read of the scheduler event record returns the pending event at the cursor and advances it. -/
  | eventRecordRead (sess : Nat)
  /-- R326. A read of the force record returns the force at the cursor and advances it. -/
  | forceRecordRead (sess : Nat)
  /-- R577. Chest clear 0xC1 erases the fault ring and snapshots and writes a CLEARED record. -/
  | chestClear (sess v : Nat)
  /-- R596. Writing the session's check-value algorithm loads its Init into the running value. -/
  | checkAlgorithmSelect (sess v : Nat)
  /-- R594. Data written to the session's check-value unit is fed through its algorithm. -/
  | checkData (sess : Nat) (data : List Byte)
  /-- R595. Writing the running value resumes a suspended check-value computation. -/
  | checkRunningValue (sess v : Nat)
  /-- R575. Both supplies below the power-fail threshold for 50 µs stop all output and write the Chest record, counters and snapshot. -/
  | powerFail (mv1 mv2 : Int)
  /-- R576. A completed power-fail write with the supply recovered restarts the module. -/
  | powerFailWriteDone (recovered : Bool)
  /-- R579. Self-test action 0x01 runs slices of a destructive test on an isolated target. -/
  | selfTestRun (sess target inst slices : Nat)
  /-- R582. Self-test action 0x02 stops the test after the current slice. -/
  | selfTestStop (sess inst : Nat)
  /-- R581. Self-test action 0x10 disables a half for test while the other half serves. -/
  | takeHalfOut (sess inst : Nat)
  /-- R581. Self-test action 0x11 restarts a half taken out, repeating its start-up tests. -/
  | restartHalf (sess inst : Nat) (inp : StartIn)
  /-- R580. A self-test slice runs within its budget and the next starts 10 ms later. -/
  | selfTestSlice (inst : Nat) (fail : Option Nat)
  /-- R586. An in-service rotation taking more than 12,288 images sets SLOW. -/
  | rotationSlow (l : Lane)
  /-- R588. An ageing item is measured at its interval and its warning or action level is acted on. -/
  | ageingMeasurement (index sub margin : Nat)
  /-- R589. A lane whose timing margin reached the action level steps to 1.0 GHz in idle time. -/
  | clockStep (l : Lane) (inTime : Bool)
  /-- R590. A NOR block at its action level is copied, erased and rewritten in idle time. -/
  | norRefresh (l : Lane) (good : Bool)
  /-- R589. A clock restore command returns a lane to 1.2 GHz at its next restart when its margin allows. -/
  | clockRestore (sess v : Nat)
  /-- R592. Each day the forecast of each ageing item is recomputed from 180 days of daily means. -/
  | forecastDay
  /-- R599. A write of a power vote to object 0x8001 recomputes the power-state target. -/
  | powerVote (sess : Nat) (origin : Option (Nat × Level)) (sub v : Nat)
  /-- R600. A WAKE# edge, WAKE frame, wake time or supply return sets the local WAKE vote to Run. -/
  | wakeRequest (cal : Option Nat)
  /-- R599. The local WAKE vote is withdrawn after the WAKE hold time. -/
  | wakeHoldExpiry
  /-- R602. At the first tick after the target changes the module begins a transition to the adjacent power state. -/
  | transitionStart
  /-- R604. A completed power-state transition raises event 64 and moves on towards the current target. -/
  | transitionComplete
  /-- R606. A domain wake step that times out is retried on the alternate oscillator. -/
  | wakeStepTimeout (d stp : Nat)
  /-- R609. A write of 1 to object 0x8004 sub 1 starts a new wake sequence from Failed-wake. -/
  | wakeRetry (sess v : Nat)
  /-- R610. A start-up step completes and the next step of the sequence begins. -/
  | startUpStep (inp : StartIn)
  /-- R611. A write of 0xA5 to object 0x8010 sub 1 during step 7 confirms start-up. -/
  | startUpConfirmation (sess v : Nat)
  /-- R632. A supply input below 16.8 V for 1 ms counts as lost. -/
  | supplyLost (n : Nat) (mv : Int)
  /-- R632. A supply input from 16.8 V to 33 V for 100 ms counts as returned. -/
  | supplyReturned (n : Nat) (mv : Int)
  /-- R631. A supply input above 34 V is disconnected within 10 µs and counts as lost. -/
  | supplyOvervoltage (n : Nat) (mv : Int)
  /-- R636. Every 60 s the backup cell is measured and reported low, missing or restored. -/
  | backupCellMeasurement (mv : Nat)
  /-- R654. A domain reaching 150 °C junction shuts its regulator down, excluding the lane or disabling the half. -/
  | thermalShutdown (d : Nat)
  /-- R617. Update command 0x01 checks the firmware header and signature and opens a transfer. -/
  | updateOpen (sess : Nat) (via : Option Level)
  /-- R616. A write to the update buffer window stores bytes at the buffer offset and advances it. -/
  | bufferWindow (sess : Nat) (data : List Byte)
  /-- R617. Update command 0x02 checks one block and writes it to the new area. -/
  | updateBlock (sess : Nat) (via : Option Level) (n crc : Nat) (good : Bool)
  /-- R617. Update command 0x03 abandons the transfer and discards the new area. -/
  | updateAbandon (sess : Nat) (via : Option Level)
  /-- R618. A module holding a valid image forwards it to each downstream module in turn. -/
  | forwardImage (code : Nat)
  /-- R621. Install action 0x01 updates the lanes one by one through withdrawal, rewrite and rejoin. -/
  | installRolling (sess : Nat)
  /-- R623. Install action 0x02 writes all three lanes at once and restarts the module cold. -/
  | installAllLanes (sess : Nat)
  /-- R622. Install action 0x03 stops a rolling install and rolls it back. -/
  | installStop (sess : Nat)
  /-- R621. A rewritten lane enters the vote and the install moves to the next lane or completes. -/
  | installLaneDone (l : Lane)
  /-- R40. A commons half's supply, oscillator or logic fails its self-checks and the half is disabled within one bus cycle. -/
  | halfSupplyOrClock (h : Half)
  /-- R540. The maintenance port loses its link and every UDP session closes. -/
  | maintenancePortLinkDown
  /-- R485. A board-link chain or ring breaks, the parts work on separately and event 61 is raised. -/
  | boardLinkBreak (down1 down2 : Bool) (pos : Nat) (addrs : List Nat)
  /-- R435. RESET low for 1 s clears RSTUCK. -/
  | rstuckClear
  /-- R431. A vital output above 0.7 A for 1 ms latches OVERCURRENT and de-energises its group. -/
  | overcurrent (n : Nat)
  /-- R431. Readback shows an output or mid node high while its switches are commanded off, and STUCK-ON latches. -/
  | stuckOn (n : Nat)
  /-- R519. The Datum receives a module's delay request and answers it with its hardware stamps. -/
  | delayRequest (src seq dt : Nat)
  /-- R519. A module receives the Datum's answer to its delay request and computes its path delay. -/
  | delayResponse (path seq : Nat) (received : Int)
  /-- R457. The PTP slave sends a Delay_Req with a launch time at the master's logMinDelayReqInterval. -/
  | ptpDelayReq (launch : Int)
  /-- R457. A PTP Delay_Resp is received and completes the end-to-end path delay measurement. -/
  | ptpDelayResp (sender seq : Nat) (received : Int)
  /-- R457. A PTP Follow_Up from a two-step master supplies the precise Sync origin time. -/
  | followUp (m : PtpMsg)
  /-- R456. The Datum's time frames stop arriving, the source is lost and the servo enters holdover with event 51. -/
  | timeSourceLost
  /-- R623. Every 10 s each module of a pair reads its partner's compatibility class through the bridge. -/
  | compatibilityClassRead (cls ord n : Nat)
  /-- R634. The hold-up bank reaches the rail voltage after inrush-limited charging, and start-up step 1 begins. -/
  | holdUpBankCharged
  /-- R631. A supply input entering the tolerated band above 32 V raises event 67. -/
  | supplyEnters32VBand (n : Nat) (mv : Int)
  deriving DecidableEq, Repr

end Sys2Proof
end

