-- ==== Sys2Proof/Decode.lean ====
section
/-! DEFINITION. Reading a command from a word. spec/opcode_table.json gives no row any bits (every row's list of
fields is empty), so no word spells a command. -/

namespace Sys2Proof

/-- The command an opcode-table word spells: none, since no row of the table has bits. DESIGN CHOICE, log 2 (safe). -/
def decodeTableWord (_nbits _w : Nat) : Option Instr := none

end Sys2Proof
end

