-- ==== Sys2Proof/Machine/State.lean ====
section
/-! DEFINITION. The machine's state: every piece the spec gives the module, as plain data, with the queue of
commands that wait; the reasons a step can stop; and the state after reset. -/

namespace Sys2Proof.Machine

/-- Why the machine stops. -/
inductive Fault where
  /-- Raised by a meaning whose operands are not of the shape `Instr.wf` states (a frame longer than its kind
  allows for, a window write of no byte). Safe: the model stops where no such command exists. -/
  | operandShape
  deriving DecidableEq, Repr

/-- Why a command is refused a meaning. -/
inductive Refusal where
  /-- Raised by an arm of `exec` whose command has no meaning yet. Safe: the model stops. -/
  | notModelled (mnemonic : String)
  deriving DecidableEq, Repr

/-- Settings the lanes apply that belong to no other part: requester ports and throws (Table 3.8), tracking
(Table 5.6). `shown` holds the settings of lane objects as the last voted image's dictionary view shows them (R97, R549), by
object × 256 + sub. -/
structure RouteSet where
  portCfg : Tab Nat
  simThrows : Nat
  confirmC : Nat
  clearE : Nat
  shown : Tab Nat
  deriving DecidableEq, Repr

/-- The module. `pending` is the model's queue of commands, first in, first out; `free` the model's own counter for
free values; `ns` the nanoseconds passed since power-up as its hardware timers count them. -/
structure State where
  pending : List Instr
  free : Nat
  ns : Nat
  cfg : Station
  ident : Ident
  imageNo : Nat
  image : CycleImage
  lanes : Three LaneSt
  view : Kernel
  vote : VoteSt
  halves : Two HalfSt
  comm : CommSt
  bus : BusSt
  busImg : Two BusImage
  env : Tab EnvPort
  tres : Two TrestleSt
  tx : Two TxSt
  lio : LioSt
  time : TimeSt
  casc : CascSt
  pair : PairLinkSt
  bridge : BridgeSt
  datum : DatumSt
  dict : DictSt
  ev : EventSt
  book : Book
  chest : Chest
  test : TestSt
  age : AgeSt
  power : PowerSt
  supply : SupplySt
  load : LoadSt
  progLoad : ProgLoadSt
  upd : UpdateSt
  set : RouteSet
  queues : Tab (List Req)
  deriving DecidableEq, Repr

/-! Each part of the state after reset. -/

/-- No bus input image received: nothing is listed, so every input reads at its restrictive value. -/
def BusImage.init : BusImage :=
  { levels := [], subst := [], reports := [], pairs := [], pairSubst := [], ni := 0, flags := [], cv := [],
    nonVital := [], clearAhead := [] }

/-- The cycle input image before the first tick. -/
def CycleImage.init : CycleImage :=
  { num := 0, counter := 0, bus := BusImage.init, reqs := [], diverged := [], refused := [], replies := [], writes := [], cepochs := [], hb := [],
    run := false, standby := false, key := false, appResults := [], windows := [] }

/-- Channels of an absent program. -/
def AppOut.none : AppOut :=
  { stops := [], inhibits := [], holdClosed := [], holdOpen := [], restrs := [], reqs := [], arms := [], louts := [],
    nonVital := [], no := 0, powerVote := 0xFF, windows := [] }

/-- No program (Table 8.8). -/
def ProgSt.init : ProgSt :=
  { ps := .none, under := .none, pre := [], prog := none, vars := [], blocks := [], forces := [], out := AppOut.none, faultRun := 0,
    faults := 0, lastFault := 0, lastInst := 0, origin := 0, switchImg := 0, outcome := 0, forceOutcome := 0,
    longest := 0 }

/-- A lane's benchmarked state with nothing set (R88). -/
def Kernel.init : Kernel :=
  { image := CycleImage.init, routes := [], points := [], signals := [], crossings := [], sections := [],
    keys := [], events := [], pendHigh := 0, refusedArms := 0, held := [], results := [], emRels := [],
    emOutcome := 0, carriers := [], carHigh := 0, refusedCars := 0, capCut := 0, auths := [], blocks := [],
    stuck := [], stuckNow := [], reqsLast := 0, longPass := 0, longAuth := 0, cvBoth := ⟨0, 0, 0⟩,
    cvOne := ⟨0, 0⟩, frozen := [], newRes := [], appFired := [], appFull := [], prog := ProgSt.init }

/-- A lane after reset (Table 6.13): LSTATE reads 0 while its status lines are down. DEDUCED, log 13 (safe). -/
def LaneSt.init : LaneSt :=
  { ls := .inVote, reason := 0, line := ⟨false, false⟩, late := ⟨0, 0⟩, lateWas := ⟨0, 0⟩, fails := [],
    redclk := false, progress := 0xFF, kernel := Kernel.init, out := none, ran := 0, dueNs := 0, dueImg := 0,
    rounds := 0, copyPoint := none, keptImgs := [], outOk := none, benchOk := none,
    shadowOk := 0, returned := false, started := false, fwVersion := 0, fwClass := 0,
    fwDigest := [], cores := [0, 0, 0, 0], halted := [] }

/-- Vote settings and counters at their defaults (Table 6.12). -/
def VoteSt.init : VoteSt :=
  { deadlinePct := 90, n := 8, autoRejoin := true, rejoinMax := 3, lastVoted := 0, unanimous := 0, majority := 0,
    unforwarded := 0, longest := 0, benchImage := 0, lastVerdict := 0, prefixes := ⟨[], [], []⟩, disagree := 0,
    lastExcl := [], cmdOutcome := 0, pendLane := none, pendFrom := 0, matched := none, matchAny := none, restrictive := false,
    everVoted := false, summaries := [], tickNs := 0, tickUtc := 0, nextSet := [] }

/-- A half before its start-up tests (Table 6.14). DEDUCED, log 13 (safe). -/
def HalfSt.init : HalfSt :=
  { inServ := false, reason := 0, injFail := 0, firstFail := 0, voter := false, flagged := false, injPass := false,
    cmpVec := false, ingress := ⟨none, none, none⟩, bench := ⟨none, none, none⟩, votedImg := none, decided := none,
    active := none, next := none }

/-- Commissioning mode off (R246). -/
def CommSt.init : CommSt :=
  { mode := false, asked := false, leaving := false, leaveImgs := 0, debugOpen := false, journal := [], seq := 0,
    published := [0, 0, 0, 0], mem := ⟨[], [], []⟩, regs := ⟨[], [], []⟩ }

/-- A channel that is off (Table 9.17). -/
def ChanSt.init : ChanSt :=
  { st := .off, starter := false, since := 0, checks := 0, startedAt := 0, devs := [], k := 0, lastCorr := 0,
    largest := 0, rate := 0, corrs := [], weak := 0, weakRun := 0, blocked := [], ports := [] }

/-- A star port without link (Table 9.18). -/
def PortSt.init : PortSt :=
  { linkDly := 0xFFFF, link := false, speed100 := false, integ := false, closed := false, cmdClosed := false,
    syncUsed := false, table := false, ready := false, readyMode := 0, readyLog := [], cutAt := [], reopenRun := 0,
    integrateAt := 0, measRounds := [], measOpen := false, delaySeq := 0, tableClear := 0, tablesDue := [],
    cuts := 0, discarded := 0, discEvt := false, valid := 0, envFail := 0, rx := none, rxFlags := 0,
    base := { base := none, cand := 0, run := 0, candAt := 0 } }

/-- The Welong bus before it starts (Table 9.15). DESIGN CHOICE, log 12 (unsafe). DESIGN CHOICE, log 39 (safe). -/
def BusSt.init : BusSt :=
  { counter := 0, busNs := 500000, lCyc := 20, prec := 500, guardNs := 500, mode := 0, dormant := false,
    pend := none, askedImg := 0, outcome := 0, notReady := 0xFF, etherType := 0x88B5, etherSet := 0x88B5,
    portOutcome := 0, claims := [], spare := [], acks := [], chans := ⟨ChanSt.init, ChanSt.init⟩, tick := false }

/-- Controller status before any input envelope (Table 10.11). -/
def EnvPort.init : EnvPort :=
  { cepoch := 0, cflags := 0, srcs := 0, cmdBase := none, cmdEpoch := 0, permBase := ⟨none, none⟩, cvReports := 0,
    misRun := 0, evtDone := false }

/-- A Trestle half before it is loaded (Tables 7.7, 7.9). -/
def TrestleSt.init : TrestleSt :=
  { lock := false, vecPass := false, codeF := false, rot := 0, vecIdx := 0, failVec := 0, failWalk := 0,
    disReason := 0, graphCheck := 0, withheld := 0, conflicts := 0, longEval := 0, longWalk := 0, decisions := [],
    withheldRun := [], withheldTold := [], clearOut := [], bndSeen := [], overran := false }

/-- Nothing sent. -/
def TxSt.init : TxSt :=
  { cmds := [], permits := [], localPermit := [], sync := none, tables := [], delayReqs := [], acks := [],
    clearAhead := [] }

/-- Local I/O after reset (Tables 11.10 to 11.12). -/
def LioSt.init : LioSt :=
  { pairs := ⟨[], []⟩, stuck := [], tps := [], vos := [], ni := 0, niRaw := 0, niFrom := [], no := 0, noDefaults := 0, noBlockRun := 0,
    locals := none, localNext := none, resetLevel := false, resetSince := 0, resetLowFrom := 0, resetLowNs := 0,
    rstuck := false, rcount := 0, kfault := false, key := false }

/-- A half's clock at power-up (R442). -/
def HalfClock.init : HalfClock :=
  { c := 0, cRef := 0, tRef := 0, r := 0, o := 0, anchorCtr := 0, anchor := 0, align := none }

/-- The time base at its defaults (Tables 12.7, 12.8). -/
def TimeSt.init : TimeSt :=
  { halves := ⟨HalfClock.init, HalfClock.init⟩, due := [], tjr := false, tdiff := false,
    diff := 0, refused := 0, outcome := 0, jump := 1000000, select := 0, src := 3, valid := false,
    servo := .freeRun, meas := [], lastOffset := 0, goodRun := 0, offsetAt := 0, rateAt := 0, estErr := 0xFFFF,
    ptp := { domain := 0, timeout := 3, masters := [], current := none, awaiting := none, delayReq := none,
             lastSync := none, pathDelay := 0, discarded := 0, delaySeq := 0, lastReq := 0 },
    leap := 37, leapAnn := 0, leapV := false, leapDay := 0, stamps := [], timed := [], missed := 0, ingress := [],
    datumHeard := 0, datumHere := false }

/-- A path that has delivered nothing. -/
def PathSt.init : PathSt := { link := false, fault := false, copies := [], lastAt := 0 }

/-- The cascade at its defaults (Table 13.17). -/
def CascSt.init : CascSt :=
  { conns := [], clearIn := [], paths := ⟨PathSt.init, PathSt.init, PathSt.init⟩, startCount := 0, bl1 := false,
    bl2 := false, ring := false, pos := 0, nmod := 0, blAddrs := [], etherType := 0x88B5, etherSet := 0x88B5,
    txSeq := [], anchorAt := [], anchored := [], sent := [], forwarded := [], dups := 0, refused := 0, maxAge := 3,
    clearAge := 2, replies := [], cancelAllDue := [] }

/-- No partner heard. PRESUMED, log 56 (unsafe). -/
def PartnerSt.init : PartnerSt :=
  { heard := false, role := 0, ready := false, reason := 0, pref := false, handover := false, cold := false,
    image := 0, h := 0, digest := [], program := 0, readyTime := 0, epoch := 0, address := 0xFFFF, namesUs := false,
    orderCode := 0, compatClass := 0, settingsN := 0 }

/-- An unpaired module (Table 13.18). -/
def PairLinkSt.init : PairLinkSt :=
  { partnerAddr := 0xFFFF, preferred := false, takeback := true, stabilityS := 60, formed := false,
    role := .unpaired, epoch := 0, retainedEpoch := 0, partner := PartnerSt.init, hbNow := [], hbRec := [],
    plRun := 0, welRun := 0, allRun := 0, pathFault := false, nr3 := false, nr4 := false, resync := false,
    resyncDue := 0, lost := false, readySince := none, h := none, lastH := 0, cold := false, outcome := 0,
    shadows := [], ownRun := none, deposeRun := 0, gateOpen := false, unformed := false, epochSet := false }

/-- The bridge with every window closed (Table 13.17). -/
def BridgeSt.init : BridgeSt :=
  { access := [0, 0, 0, 0, 0, 0, 0, 0, 0, 0, 0, 0, 0, 0, 2, 2], mem := [], out := [], inbound := [],
    answers := [], answered := 0, ansData := [], failures := [], failOvf := 0 }

/-- No Datum named (Table 13.17). -/
def DatumSt.init : DatumSt :=
  { addr := 0xFFFF, syncDriver := false, downstream := [0xFFFF, 0xFFFF, 0xFFFF, 0xFFFF], reports := [],
    newestEpoch := none, pathDelay := 0, pathUsed := 0, lastFrame := none, delayReq := none, delayAns := none,
    delaySeq := 0, delayAt := 0, sentAt := 0, sent := none, reportSent := [], syncDiff := 0, syncAt := 0,
    mismatch := false }

/-- The dictionary at its defaults (Table 14.14). -/
def DictSt.init : DictSt :=
  { sessions := [], fails := [], proxied := [], proxyDue := [], reply := none, result := 0, value := [],
    net := { ip4 := 0, prefix4 := 24, gateway := 0, ip6 := List.replicate 16 0, prefix6 := 64, udpPort := 47310 },
    netNew := none, timeoutS := 30, lockN := 5, lockS := 300, welong := true, creds := [], discarded := 0,
    modAddrSet := 0xFFFF, modAddr := 0xFFFF, qstats := [], startNs := 0, warm := false }

/-- A self-test instance that never ran (Table 15.10). -/
def TestInst.init : TestInst :=
  { target := 0, ts := .idle, done := 0, total := 0, next := 0, last := 0, stop := false, due := 0, fail := 0,
    rerun := none }

/-- An empty snapshot slot. -/
def Snapshot.init : Snapshot := { complete := false, serial := 0, record := 0, image := 0, body := [] }

/-- Power and start-up after reset (Tables 16.2, 16.10, 16.11): start-up step 1 awaits the hold-up bank. DESIGN CHOICE, log
12 (unsafe). DESIGN CHOICE, log 12 (unsafe). DEDUCED, log 13 (safe). -/
def PowerSt.init : PowerSt :=
  { st := .run, votes := [0, 0xFF, 0xFF, 0xFF, 0xFF], moving := none, transAt := 0, wakeQ := false, collapsed := 0,
    holdS := 60, wakeTime := 0, wakeUntil := none, wakeDrive := 0, bankMask := 0xFF, banksLost := false,
    step := 1, step7At := 0, confirmOutcome := 0, confirmDue := false, confirmSrc := 0,
    confirmImg := none, confirmed := false, coldNext := true, unconfigured := true, startMiss := 0, domains := [],
    lastWake := 0, calendar := 0, keeperCount := 0, norCount := 0, leavingFor := none, pfail := 0,
    bankCharged := false, retained := ⟨none, none, none⟩ }

/-- An empty station-data slot. -/
def DataSlot.init : DataSlot :=
  { st := .empty, bytes := [], size := 0, parsed := Station.none, version := 0, site := 0, digest := [] }

/-- No load under way, no key registered (Table 2.10). PRESUMED, log 16 (unsafe). -/
def LoadSt.init : LoadSt :=
  { slots := ⟨DataSlot.init, DataSlot.init⟩, offset := 0, session := 0xFF, code := 0,
    detail := 0, highest := 0, rollback := false, site := 0, compose := [0, 0, 0, 0], verify := [0, 0, 0, 0],
    keyWindow := [], keyOutcome := 0, pubKeys := [], fmtClasses := [1] }

/-- An empty program slot. -/
def ProgSlot.init : ProgSlot := { st := .empty, bytes := [], size := 0, parsed := none, digest := [] }

/-- No update (Table 16.10). -/
def UpdateSt.init : UpdateSt :=
  { accept := true, auto := false, rollback := false, outcome := 0, nextBlock := 0, buffer := [], bufOffset := 0,
    header := none, newArea := [], blockDigest := [], upd := false, valid := false, newVersion := 0, fallback := 0,
    fallClass := 0, fallDigest := [], action := 0, phase := .idle, lane := 0, block := 0, doneL := 0,
    stopAsked := false, rolling := false, installOutcome := 0, fwdOutcomes := [0, 0, 0, 0], fwdNext := 0,
    updating := false, settingsClass := 0, runSettings := 0 }

/-- A supply input at its nominal voltage. DESIGN CHOICE, log 12 (unsafe). -/
def SupplyIn.init : SupplyIn := { millivolt := 24000, lost := false, disconnected := false, over32 := false }

/-- The machine right after reset: the hold-up bank charges and start-up step 1 has not begun (R634, R610). DESIGN CHOICE,
log 12 (unsafe). DESIGN CHOICE, log 12 (unsafe). -/
def State.reset : State :=
  { pending := [], free := 0, ns := 0, cfg := Station.none,
    ident := { ports := 16, serial := 1, issue := 0, made := 0, mac := [0, 0, 0, 0, 0, 0], loader := 0,
               vendorKeys := [] },
    imageNo := 0, image := CycleImage.init,
    lanes := ⟨LaneSt.init, LaneSt.init, LaneSt.init⟩, view := Kernel.init, vote := VoteSt.init,
    halves := ⟨HalfSt.init, HalfSt.init⟩, comm := CommSt.init, bus := BusSt.init,
    busImg := ⟨BusImage.init, BusImage.init⟩, env := [], tres := ⟨TrestleSt.init, TrestleSt.init⟩,
    tx := ⟨TxSt.init, TxSt.init⟩, lio := LioSt.init, time := TimeSt.init, casc := CascSt.init,
    pair := PairLinkSt.init, bridge := BridgeSt.init, datum := DatumSt.init, dict := DictSt.init,
    ev := { pend := 0#96, enable := BitVec.allOnes 96, counts := [], aseq := 0 },
    book := { buf := [], recs := [], newest := 0, lost := 0, lostNew := 0, retired := 0, faulty := false },
    chest := { recs := [], newest := 0, snaps := ⟨Snapshot.init, Snapshot.init⟩, counters := ⟨0, 0⟩,
               faulty := false },
    test := { insts := [], outcome := 0, budget := 50,
              ist := ⟨⟨0, 0, false, 0, 0⟩, ⟨0, 0, false, 0, 0⟩, ⟨0, 0, false, 0, 0⟩⟩, halfOut := ⟨false, false⟩,
              quietLane := false },
    age := { items := [], warn := [20, 20, 30, 20, 25, 25], threshold := 15000, restore := ⟨false, false, false⟩ },
    power := PowerSt.init,
    supply := { pwr1 := SupplyIn.init, pwr2 := SupplyIn.init, cellMv := 3000, cellLow := false,
                cellMissing := false, cellGood := 0 },
    load := LoadSt.init,
    progLoad := { slots := ⟨ProgSlot.init, ProgSlot.init⟩, active := none, offset := 0, session := 0xFF, code := 0,
                  detail := 0, faultStop := 3, switchLead := 16, bankImage := ⟨0, 0, 0⟩ },
    upd := UpdateSt.init,
    set := { portCfg := [], simThrows := 32, confirmC := 2, clearE := 3, shown := [] }, queues := [] }

end Sys2Proof.Machine
end

