-- ==== Sys2Proof/Machine/Ops.lean ====
section
/-! DEFINITION. The named operations over the plain containers: per-half and per-lane values, keyed tables,
byte memories, big-endian words (R9). -/

namespace Sys2Proof.Machine

/-- The other commons half. -/
def otherHalf : Half → Half
  | .a => .b
  | .b => .a

/-- The value of one half. -/
def twoGet {α : Type} (t : Two α) : Half → α
  | .a => t.a
  | .b => t.b

/-- The pair with one half's value replaced. -/
def twoPut {α : Type} (t : Two α) (h : Half) (v : α) : Two α :=
  match h with
  | .a => { t with a := v }
  | .b => { t with b := v }

/-- The pair with one half's value changed. -/
def twoMod {α : Type} (t : Two α) (h : Half) (f : α → α) : Two α := twoPut t h (f (twoGet t h))

/-- Both values changed. -/
def twoMap {α β : Type} (t : Two α) (f : Half → α → β) : Two β := ⟨f .a t.a, f .b t.b⟩

/-- The value of one lane. -/
def triGet {α : Type} (t : Three α) : Lane → α
  | .a => t.a
  | .b => t.b
  | .c => t.c

/-- The triple with one lane's value replaced. -/
def triPut {α : Type} (t : Three α) (l : Lane) (v : α) : Three α :=
  match l with
  | .a => { t with a := v }
  | .b => { t with b := v }
  | .c => { t with c := v }

/-- The triple with one lane's value changed. -/
def triMod {α : Type} (t : Three α) (l : Lane) (f : α → α) : Three α := triPut t l (f (triGet t l))

/-- Every value changed. -/
def triMap {α β : Type} (t : Three α) (f : Lane → α → β) : Three β := ⟨f .a t.a, f .b t.b, f .c t.c⟩

/-- Lanes A, B and C in their order. -/
def allLanes : List Lane := [.a, .b, .c]

/-- Both halves in their order. -/
def allHalves : List Half := [.a, .b]

/-- Number of a lane: 0, 1, 2. -/
def laneNo : Lane → Nat
  | .a => 0
  | .b => 1
  | .c => 2

/-- The lane of a number 0 to 2. -/
def laneOf? (n : Nat) : Option Lane :=
  if n = 0 then some .a else if n = 1 then some .b else if n = 2 then some .c else none

/-- Number of a half: 0, 1. -/
def halfNo : Half → Nat
  | .a => 0
  | .b => 1

/-- Value of a keyed table, if listed. -/
def tabFind {α : Type} : Tab α → Nat → Option α
  | [], _ => none
  | (k, v) :: t, n => if k = n then some v else tabFind t n

/-- Value of a keyed table, or the default. -/
def tabGet {α : Type} (t : Tab α) (n : Nat) (d : α) : α := (tabFind t n).getD d

/-- A keyed table with one value set; keys stay rising. -/
def tabPut {α : Type} : Tab α → Nat → α → Tab α
  | [], n, v => [(n, v)]
  | (k, w) :: t, n, v =>
    if n < k then (n, v) :: (k, w) :: t else if n = k then (n, v) :: t else (k, w) :: tabPut t n v

/-- A keyed table with one key taken out. -/
def tabDel {α : Type} (t : Tab α) (n : Nat) : Tab α := t.filter (fun p => p.1 ≠ n)

/-- A keyed table with one value changed. -/
def tabMod {α : Type} (t : Tab α) (n : Nat) (d : α) (f : α → α) : Tab α := tabPut t n (f (tabGet t n d))

/-- Every value of a keyed table changed. -/
def tabMap {α β : Type} (t : Tab α) (f : Nat → α → β) : Tab β := t.map (fun p => (p.1, f p.1 p.2))

/-- The keys of a table. -/
def tabKeys {α : Type} (t : Tab α) : List Nat := t.map (·.1)

/-- A list with its element at a place replaced. -/
def listPut {α : Type} (l : List α) (n : Nat) (v : α) : List α := l.set n v

/-- The last `n` elements of a list. -/
def keepLast {α : Type} (n : Nat) (l : List α) : List α := l.drop (l.length - n)

/-- `n` bytes of a number, most significant first (R9); higher bits are cut. -/
def be : Nat → Nat → List Byte
  | 0, _ => []
  | n + 1, v => BitVec.ofNat 8 (v / 256 ^ n) :: be n v

/-- The number a byte string spells, most significant first. -/
def ofBe (l : List Byte) : Nat := l.foldl (fun a b => a * 256 + b.toNat) 0

/-- Two's complement of an integer in `n` bytes. -/
def beI (n : Nat) (v : Int) : List Byte := be n (v % (256 ^ n : Nat)).toNat

/-- The integer `n` bytes spell in two's complement. -/
def ofBeI (l : List Byte) : Int :=
  let n := l.length
  let v := ofBe l
  if 2 * v < 256 ^ n then (v : Int) else (v : Int) - (256 ^ n : Nat)

/-- The bytes at a place of a byte string; short when the string ends. -/
def cut (l : List Byte) (off len : Nat) : List Byte := (l.drop off).take len

/-- The number at a place of a byte string. -/
def field (l : List Byte) (off len : Nat) : Nat := ofBe (cut l off len)

/-- A number's bits [hi:lo] (R10). -/
def bits (v hi lo : Nat) : Nat := v / 2 ^ lo % 2 ^ (hi + 1 - lo)

/-- A number's bit. -/
def bit (v n : Nat) : Bool := v / 2 ^ n % 2 = 1

/-- A truth value as a bit. -/
def b2n (b : Bool) : Nat := if b then 1 else 0

/-- Saturation. -/
def sat (limit v : Nat) : Nat := min limit v

/-- A byte of a memory; an unlisted address reads as 0x00. DESIGN CHOICE, log 11 (unsafe). -/
def memRead : Mem → Nat → Byte
  | [], _ => 0#8
  | (a, b) :: m, n => if a = n then b else memRead m n

/-- A memory with one byte written, in canonical form: rising addresses, no 0x00 listed. DESIGN CHOICE, log 11 (unsafe). -/
def memWrite : Mem → Nat → Byte → Mem
  | [], n, v => if v = 0#8 then [] else [(n, v)]
  | (a, b) :: m, n, v =>
    if n < a then (if v = 0#8 then (a, b) :: m else (n, v) :: (a, b) :: m)
    else if n = a then (if v = 0#8 then m else (n, v) :: m)
    else (a, b) :: memWrite m n v

/-- A memory with a byte string written from an address on. -/
def memWriteAll : Mem → Nat → List Byte → Mem
  | m, _, [] => m
  | m, n, b :: l => memWriteAll (memWrite m n b) (n + 1) l

/-- `len` bytes of a memory from an address on. -/
def memReadAll (m : Mem) (n : Nat) : Nat → List Byte
  | 0 => []
  | len + 1 => memRead m n :: memReadAll m (n + 1) len

/-- The canonical form of a memory above an address. -/
def memWfFrom : Nat → Mem → Bool
  | _, [] => true
  | lo, (a, b) :: m => decide (lo ≤ a) && decide (b ≠ 0#8) && memWfFrom (a + 1) m

/-- The canonical form: addresses strictly rising and no entry equal to what an unlisted address reads as. -/
def Memory.wf (m : Mem) : Bool := memWfFrom 0 m

end Sys2Proof.Machine
end

