-- ==== Sys2Proof/Machine/Check.lean ====
section
/-! DEFINITION. The check-value algorithms of Table 15.8 and their uses: CRC-32C with a seed (R383), datagrams
(R534), permit words (R273), connection identities (R377, R378). -/

namespace Sys2Proof.Machine

/-- One row of Table 15.8. -/
structure CrcAlg where
  width : Nat
  poly : Nat
  init : Nat
  refl : Bool
  xorOut : Nat

/-- CRC-16/CCITT-FALSE. -/
def crc16 : CrcAlg := ⟨16, 0x1021, 0xFFFF, false, 0⟩
/-- CRC-32 of IEEE 802.3. -/
def crc32 : CrcAlg := ⟨32, 0x04C11DB7, 0xFFFFFFFF, true, 0xFFFFFFFF⟩
/-- CRC-32C. -/
def crc32c : CrcAlg := ⟨32, 0x1EDC6F41, 0xFFFFFFFF, true, 0xFFFFFFFF⟩
/-- CRC-64/ECMA-182. -/
def crc64 : CrcAlg := ⟨64, 0x42F0E1EBA9EA3693, 0, false, 0⟩

/-- The algorithm of a code of Table 15.8. -/
def crcOf? (code : Nat) : Option CrcAlg :=
  if code = 1 then some crc16 else if code = 2 then some crc32 else if code = 3 then some crc32c
  else if code = 4 then some crc64 else none

/-- One message bit into the register, in the orientation of the polynomial (R593). -/
def crcBit (a : CrcAlg) (reg : Nat) (b : Nat) : Nat :=
  let top := (reg / 2 ^ (a.width - 1) + b) % 2
  let sh := reg * 2 % 2 ^ a.width
  if top = 1 then sh ^^^ a.poly else sh

/-- The bits of a byte from `n` down to 0 into the register: bit 7 first, or bit 0 first when reflected. -/
def crcBits (a : CrcAlg) (byte : Nat) : Nat → Nat → Nat
  | 0, reg => reg
  | n + 1, reg =>
    crcBits a byte n (crcBit a reg (if a.refl then byte / 2 ^ (7 - n) % 2 else byte / 2 ^ n % 2))

/-- A byte string into the register: the running value after it (R595). -/
def crcFeed (a : CrcAlg) : Nat → List Byte → Nat
  | reg, [] => reg
  | reg, b :: l => crcFeed a (crcBits a b.toNat 8 reg) l

/-- The low `n` bits of a number in reverse order. -/
def bitRev : Nat → Nat → Nat
  | 0, _ => 0
  | n + 1, v => v % 2 * 2 ^ n + bitRev n (v / 2)

/-- The final value: output reflection and final XOR (Table 15.8). -/
def crcFinal (a : CrcAlg) (reg : Nat) : Nat :=
  (if a.refl then bitRev a.width reg else reg) ^^^ a.xorOut

/-- A check value with a seed in place of Init (R593). -/
def crcSeed (a : CrcAlg) (seed : Nat) (l : List Byte) : Nat := crcFinal a (crcFeed a seed l)

/-- A check value with the algorithm's own Init. -/
def crcOf (a : CrcAlg) (l : List Byte) : Nat := crcSeed a a.init l

/-- Lane seeds (Table 6.1). -/
def laneSeed : Lane → Nat
  | .a => 0x3A5C0F21
  | .b => 0xC4E1B79A
  | .c => 0x6D2F8B54

/-- Trestle seeds (R273). -/
def trestleSeed : Half → Nat
  | .a => 0x9B1E4D37
  | .b => 0x27F0A6C3

/-- Pair-code bit of a lane (Table 6.1). -/
def pairBit : Lane → Nat
  | .a => 1
  | .b => 2
  | .c => 4

/-- The two lanes a pair code names, lower bit first (R206). -/
def pairLanes? (code : Nat) : Option (Lane × Lane) :=
  if code = 3 then some (.a, .b) else if code = 5 then some (.a, .c) else if code = 6 then some (.b, .c) else none

/-- The site fold (R377). -/
def siteFold (site : Nat) : Nat :=
  (bits site 15 0 ^^^ bits site 31 16 ^^^ bits site 47 32 ^^^ bits site 63 48) % 4096

/-- Identity of a Welong connection (R377). -/
def welongId (kind modAddr port site : Nat) : Nat :=
  kind * 2 ^ 28 + modAddr % 4096 * 2 ^ 16 + port % 16 * 2 ^ 12 + siteFold site

/-- Identity of a cascade or clear-ahead connection (R378). -/
def cascadeId (kind producer consumer num : Nat) : Nat :=
  kind * 2 ^ 28 + producer % 4096 * 2 ^ 16 + consumer % 4096 * 2 ^ 4 + num % 16

/-- Check value of an envelope (R383): implicit prefix, header, payload. -/
def envCheck (seed pref : Nat) (l : List Byte) : Nat := crcSeed crc32c seed (be 2 pref ++ l)

end Sys2Proof.Machine
end

