-- ==== Sys2Proof/Machine/Clock.lean ====
section
/-! DEFINITION. Readings of module time and UTC (R443 to R445, R458) and of the model's elapsed time. -/

namespace Sys2Proof.Machine

/-- A half's module-time reading in 2⁻¹⁶ ns (R443). -/
def halfReading (h : HalfClock) : Int :=
  let d : Int := (h.c : Int) - (h.cRef : Int)
  h.tRef + d * 65536 + d * h.r / 1000000000 + h.o

/-- A half's module time in whole ns. -/
def halfNs (h : HalfClock) : Int := halfReading h / 65536

/-- The half whose reading is module time (R445). -/
def timeHalf (s : State) : Half := if s.halves.a.inServ then .a else .b

/-- Module time in 2⁻¹⁶ ns (R445). DESIGN CHOICE, log 4 (unsafe). -/
def moduleTime (s : State) : Int := halfReading (twoGet s.time.halves (timeHalf s))

/-- Module time as a U64 of ns (R444). -/
def moduleNs (s : State) : Nat := (moduleTime s / 65536).toNat

/-- UTC as ns: module time less the leap offset (R458). -/
def utcNs (s : State) : Int := moduleTime s / 65536 - s.time.leap * 1000000000

/-- A TIME96 value (R444) from ns. -/
def time96 (ns : Int) : List Byte := be 8 (ns / 1000000000).toNat ++ be 4 (ns % 1000000000).toNat

/-- Nanoseconds of a second. -/
def secNs : Nat := 1000000000

/-- Length of a program cycle in ns. -/
def cycleNs (s : State) : Nat := s.bus.busNs * s.bus.lCyc

/-- A count of images that covers a time: ⌈time ÷ program cycle⌉. -/
def imagesFor (s : State) (ns : Nat) : Nat := (ns + cycleNs s - 1) / cycleNs s

/-- The ingress stamp of a request on a requester port (R92, R453): module time, or the port's last stamp + 1 ns. -/
def ingressStamp (port : Nat) (s : State) : Nat × State :=
  let n := match tabFind s.time.ingress port with | some l => max (moduleNs s) (l + 1) | none => moduleNs s
  (n, { s with time := { s.time with ingress := tabPut s.time.ingress port n } })

/-- The next free value (a value the spec leaves open) and the state whose counter has moved on. DESIGN CHOICE, log 10
(safe). DESIGN CHOICE, log 10 (safe). -/
def takeFree (s : State) : Nat × State := (Config.freeValue s.free, { s with free := s.free + 1 })

end Sys2Proof.Machine
end

