-- ==== Sys2Proof/Machine/Flags.lean ====
section
/-! DEFINITION. The words that show the module's condition: which lanes are in vote, MODE and the status field
(Table 14.7), the fault summary (Table 14.8), a standby's readiness (Table 13.6), and the state words of lanes,
halves, Trestle halves and the pair. -/

namespace Sys2Proof.Machine

/-- A lane one half counts as in vote (R208). -/
def inVoteAt (s : State) (h : Half) (l : Lane) : Bool :=
  (triGet s.lanes l).ls = .inVote && twoGet (triGet s.lanes l).line h

/-- A lane in vote. -/
def inVote (s : State) (l : Lane) : Bool := inVoteAt s .a l || inVoteAt s .b l

/-- The lanes in vote (R208), in their order. -/
def lanesInVote (s : State) : List Lane := allLanes.filter (inVote s)

/-- The lanes one half counts. -/
def lanesAt (s : State) (h : Half) : List Lane := allLanes.filter (inVoteAt s h)

/-- The halves in service. -/
def halvesUp (s : State) : List Half := allHalves.filter (fun h => (twoGet s.halves h).inServ)

/-- MODE (Table 14.7): 0 Run, 1 Quiet, 2 Dormant, 3 Commissioning, 4 Restrictive, 5 Starting, 6 Updating,
7 Failed-wake. -/
def modeOf (s : State) : Nat :=
  if s.power.st = .failedWake then 7
  else if halvesUp s = [] && s.halves.a.reason ≠ 0 && s.halves.b.reason ≠ 0 then
    (if (lanesInVote s).isEmpty then 7 else 4)
  else if s.power.st = .dormant then 2
  else if s.power.st = .quiet then 1
  else if s.upd.updating then 6
  else if s.vote.restrictive then 4
  else if s.power.unconfigured && (s.power.step = 0 || 5 ≤ s.power.step) then 4
  else if s.power.step ≠ 0 then 5
  else if s.comm.mode then 3
  else 0

/-- LANES (Table 6.8): the lanes in vote; 0 with fewer than two of them and while restrictive or unconfigured. DESIGN
CHOICE, log 89 (unsafe). DESIGN CHOICE, log 89 (unsafe). -/
def lanesField (s : State) : Nat :=
  let n := (lanesInVote s).length
  if n < 2 || modeOf s = 4 then 0 else n

/-- The active station-data slot. -/
def activeSlot (s : State) : Option DataSlot :=
  if s.load.slots.a.st = .active then some s.load.slots.a
  else if s.load.slots.b.st = .active then some s.load.slots.b else none

/-- The active body digest, empty when unconfigured. -/
def activeDigest (s : State) : List Byte := ((activeSlot s).map (·.digest)).getD []

/-- Its first 8 bytes, 0x00 when unconfigured. -/
def digest8 (s : State) : List Byte :=
  match activeSlot s with
  | some d => d.digest.take 8
  | none => List.replicate 8 0#8

/-- Version of the active program, 0 when none. -/
def progVersion (s : State) : Nat :=
  match s.view.prog.prog with
  | some p => p.version
  | none => 0

/-- A standby's not-ready reason (Table 13.6); the first that applies, RESYNC before the reasons it mends. -/
def nrReason (s : State) : Nat :=
  let p := s.pair
  if p.role ≠ .standby then 8
  else if p.partner.heard && p.partner.digest ≠ digest8 s then 1
  else if (p.partner.heard && p.partner.program ≠ progVersion s) ||
      (p.partner.compatClass ≠ 0 && p.partner.compatClass ≠ (s.lanes.a.fwClass)) then 2
  else if (lanesInVote s).length < 2 || s.vote.restrictive then 6
  else if p.partner.settingsN ≠ 0 && p.partner.settingsN ≠ s.vote.n then 7
  else if p.resync then 5
  else if p.nr3 then 3
  else if p.nr4 then 4
  else 0

/-- A ready standby (R497). -/
def pairReady (s : State) : Bool := nrReason s = 0

/-- Controller points that station data binds as vital inputs. -/
def inputBindings (st : Station) : List Binding :=
  st.sections.map (·.occ) ++ (st.points.map (·.det)).flatten ++ (st.signals.map (·.proving)).flatten ++
  st.crossings.map (·.closed) ++
  st.keys.filterMap (fun k => match k.input with | .ctl b => some b | .pair _ => none)

/-- Controller points that station data binds as vital outputs, but for authority slots. -/
def outputBindings (st : Station) : List Binding :=
  (st.points.map (·.drive)).flatten ++ (st.signals.map (·.outs)).flatten ++ st.crossings.map (·.openOut)

/-- Star ports that station data binds a controller to. -/
def boundPorts (st : Station) : List Nat :=
  (((inputBindings st ++ outputBindings st).map (·.port)) ++ tabKeys st.authSlots).eraseDups

/-- State of one port of one channel. -/
def portOf (s : State) (h : Half) (p : Nat) : PortSt := tabGet (twoGet s.bus.chans h).ports p PortSt.init

/-- What a controller's connections show. -/
def envOf (s : State) (p : Nat) : EnvPort := tabGet s.env p EnvPort.init

/-- Key of an ageing item: object index and sub. -/
def ageKey (index sub : Nat) : Nat := index * 256 + sub

/-- Warning level in force of an item (object 0x3610). -/
def warnLevel (s : State) (key : Nat) : Nat := s.age.warn.getD (key / 256 - 0x3600) 0

/-- FAULT (R555): the fault summary word (Table 14.8). DEDUCED, log 115 (unsafe). -/
def faultSummary (s : State) : Nat :=
  let unconf := s.power.unconfigured
  let planned := (allLanes.filter (fun l => (triGet s.lanes l).ls = .withdrawn)).length
  let half := allHalves.any (fun h =>
    let x := twoGet s.halves h
    !x.inServ || !x.voter || x.flagged || (twoGet s.tres h).disReason ≠ 0)
  let welong := allHalves.any (fun h => (twoGet s.bus.chans h).ports.any (fun p => p.2.closed)) ||
    (boundPorts s.cfg).any (fun p => (envOf s p).srcs = 1 || (envOf s p).srcs = 2)
  let casc := s.casc.paths.a.fault || s.casc.paths.b.fault || s.casc.paths.c.fault
  let pairF := s.pair.pathFault || (s.pair.partnerAddr ≠ 0xFFFF && !s.pair.formed) ||
    (s.pair.role = .standby && nrReason s ≠ 0 && nrReason s ≠ 5)
  let lio := s.lio.rstuck || s.lio.kfault ||
    allHalves.any (fun h => (twoGet s.lio.pairs h).any (fun p => p.2.fcode ≠ .none)) ||
    s.lio.vos.any (fun v => v.2.ocode ≠ .none)
  let supply := s.supply.pwr1.lost || s.supply.pwr2.lost || s.supply.cellLow || s.supply.cellMissing
  let prog := s.view.prog.ps = .stopped || s.view.prog.ps = .faulted
  b2n (s.vote.restrictive || unconf) * 2 ^ 31 + b2n (s.power.st = .failedWake) * 2 ^ 30 +
  b2n ((lanesInVote s).length + planned < 3) * 2 ^ 29 + b2n half * 2 ^ 28 + b2n welong * 2 ^ 27 +
  b2n casc * 2 ^ 26 + b2n pairF * 2 ^ 25 + b2n lio * 2 ^ 24 + b2n supply * 2 ^ 23 +
  b2n (s.chest.faulty || s.book.faulty) * 2 ^ 22 + b2n prog * 2 ^ 21 +
  b2n (s.view.points.any (fun p => p.2.failed)) * 2 ^ 20 + b2n s.time.tdiff * 2 ^ 19 +
  b2n (s.age.items.any (fun i => i.2.margin ≤ warnLevel s i.1)) * 2 ^ 18

/-- A timestamp queue of this index holds an overflow count (TSO, R466). -/
def tsoSet (s : State) : Bool := s.time.stamps.any (fun q => q.2.overflow ≠ 0)

/-- The status field (Table 14.7) with its ATTN bit given. -/
def statusWith (attn : Bool) (s : State) : Nat :=
  b2n attn * 2 ^ 15 + modeOf s * 2 ^ 12 + lanesField s * 2 ^ 10 + b2n (s.pair.role = .standby) * 2 ^ 9 +
  b2n (faultSummary s ≠ 0) * 2 ^ 8 + b2n (s.bridge.failures ≠ []) * 2 ^ 7 + b2n s.time.tjr * 2 ^ 6 +
  b2n (tsoSet s) * 2 ^ 5 + b2n s.upd.upd * 2 ^ 4 + s.ev.aseq % 16

/-- ATTN of the module view: a pending bit of an enabled source is set (R559). -/
def attnModule (s : State) : Bool := (s.ev.pend &&& s.ev.enable) ≠ 0#96

/-- The module view of the status field (object 0x3000 sub 1). -/
def statusField (s : State) : Nat := statusWith (attnModule s) s

/-- LSTATE codes (Table 6.13). -/
def lstateCode : LState → Nat
  | .inVote => 0
  | .excluded => 1
  | .booting => 2
  | .copying => 3
  | .catchingUp => 4
  | .shadow => 5
  | .withdrawn => 6
  | .held => 7
  | .off => 8

/-- The lane state word (Table 6.13). -/
def laneWord (s : State) (l : Lane) : Nat :=
  let x := triGet s.lanes l
  let fails := (x.fails.filter (fun t => s.ns < t + 3600 * secNs)).length
  x.reason % 256 * 2 ^ 24 + lstateCode x.ls * 2 ^ 20 + sat 3 x.late.a * 2 ^ 18 + sat 3 x.late.b * 2 ^ 16 +
  sat 15 fails * 2 ^ 12 + b2n x.redclk * 2 ^ 11 + x.progress % 256

/-- The half state word (Table 6.14). -/
def halfWord (s : State) (h : Half) : Nat :=
  let x := twoGet s.halves h
  x.injFail * 2 ^ 24 + x.firstFail * 2 ^ 16 + b2n (x.voter && x.inServ) * 2 ^ 15 +
  b2n (x.inServ && x.cmpVec && !x.flagged) * 2 ^ 14 + b2n x.injPass * 2 ^ 13 + b2n x.cmpVec * 2 ^ 12

/-- The Trestle half state word (Table 7.9). -/
def trestleWord (s : State) (h : Half) : Nat :=
  let x := twoGet s.tres h
  b2n ((twoGet s.halves h).inServ && x.disReason = 0 && x.lock) * 2 ^ 31 + b2n x.lock * 2 ^ 30 +
  b2n x.vecPass * 2 ^ 29 + b2n x.codeF * 2 ^ 28 + sat 0xFFF x.rot * 2 ^ 16 + x.failVec % 256 * 2 ^ 8 +
  x.failWalk % 16 * 2 ^ 4 + x.disReason % 16

/-- The pair state word (Table 13.18). -/
def pairWord (s : State) : Nat :=
  let p := s.pair
  let role := match p.role with | .unpaired => 0 | .active => 1 | .standby => 2
  let last : Bool × Bool × Bool := p.hbRec.getLastD (false, false, false)
  p.epoch % 65536 * 2 ^ 16 + role * 2 ^ 14 + (if p.partner.heard then p.partner.role % 4 else 0) * 2 ^ 12 +
  b2n p.preferred * 2 ^ 11 + b2n (pairReady s) * 2 ^ 10 + b2n (p.partner.heard && p.partner.ready) * 2 ^ 9 +
  b2n p.h.isSome * 2 ^ 8 + nrReason s * 2 ^ 4 + b2n last.1 * 2 ^ 3 + b2n last.2.1 * 2 ^ 2 + b2n last.2.2 * 2

/-- The module is the one that commands: single, or the active of a pair (R500). -/
def commands (s : State) : Bool := s.pair.role ≠ .standby

/-- Lanes run images (R550): Run state, not restrictive, past start-up step 4. DESIGN CHOICE, log 8 (unsafe). -/
def imagesRun (s : State) : Bool :=
  s.power.st = .run && !s.vote.restrictive && (s.power.step = 0 || 5 ≤ s.power.step) && !s.upd.updating

end Sys2Proof.Machine
end

