-- ==== Sys2Proof/Machine/Report.lean ====
section
/-! DEFINITION. How the module reports: raising an event (R553 to R559), writing a Field book record (R565 to R567)
and a Chest record with its snapshot (R572 to R574). -/

namespace Sys2Proof.Machine

/-- No detail item (Table 14.10). -/
def noDetail : Nat := 0xFFFFFFFF

/-- A session's event queue after a raising is offered to it (R557). -/
def offerEvent (img e d time : Nat) (q : List EvQ) : List EvQ :=
  if q.any (fun r => r.event = e) then
    q.map (fun r => if r.event = e then { r with count := sat 0xFFFF (r.count + 1), image := img } else r)
  else q ++ [{ event := e, count := 1, image := img, time := time, detail := d }]

/-- A session after a raising: only an open one whose mask includes the source (R557). -/
def offerSession (img e d time : Nat) (x : Session) : Session :=
  if x.opened && x.mask.getLsbD e then { x with events := offerEvent img e d time x.events } else x

/-- Highest depth of a hardware queue and its overflow mark after a depth was reached (Table 14.12). -/
def noteDepth (q depth : Nat) (full : Bool) (s : State) : State :=
  let qs := tabMod s.dict.qstats q ⟨0, false⟩ (fun x => ⟨max x.high depth, x.ovf || full⟩)
  { s with dict := { s.dict with qstats := qs } }

/-- Raising of an event source in an image (0 outside any): pending bit, count, ASEQ, session queues. -/
def raiseAt (img e d : Nat) (s : State) : State :=
  let fresh := !s.ev.pend.getLsbD e
  { s with
    ev := { s.ev with pend := s.ev.pend ||| (1#96 <<< e),
                      counts := tabMod s.ev.counts e 0 (fun n => sat 0xFFFF (n + 1)),
                      aseq := if fresh then (s.ev.aseq + 1) % 16 else s.ev.aseq }
    dict := { s.dict with sessions := tabMap s.dict.sessions (fun _ x => offerSession img e d (moduleNs s) x) } }

/-- Raising of an event source outside any image. -/
def raiseEv (e d : Nat) (s : State) : State := raiseAt 0 e d s

/-- Capacity of the Field book's write buffer (R567). -/
def bookBuffer : Nat := 4096

/-- A record split into a first record and continuations of 28 data bytes each, at most 3 (R565). -/
def bookGroup (r : FbRec) : List FbRec :=
  let one (i : Nat) (d : List Nat) : FbRec :=
    { r with type := if i = 0 then r.type else 4, data := d.take 28,
             flags := r.flags + (if 28 < d.length && i < 3 then 1 else 0) }
  let d := r.data
  if d.length ≤ 28 then [one 0 d]
  else if d.length ≤ 56 then [one 0 d, one 1 (d.drop 28)]
  else if d.length ≤ 84 then [one 0 d, one 1 (d.drop 28), one 2 (d.drop 56)]
  else [one 0 d, one 1 (d.drop 28), one 2 (d.drop 56), one 3 (d.drop 84)]

/-- TIMEQ (Table 15.1). -/
def timeq (s : State) : Nat := if s.time.valid then 0 else 2

/-- The RECORDS-LOST marker of losses not yet told (R567), once the buffer has room; event 89. Its Code is a free value: the
spec names it and gives no number. DESIGN CHOICE, log 79 (safe). -/
def bookMarker (s : State) : State :=
  if s.book.lostNew = 0 || bookBuffer ≤ s.book.buf.length then s
  else
    let c := takeFree s
    let r : FbRec := { seq := 0, time := utcNs s, image := 0, type := 5, event := 0xFF, code := c.1 % 65536, source := 3,
                       flags := timeq s, who := 0xFFFF, data := (be 4 s.book.lostNew).map BitVec.toNat }
    let t := c.2
    raiseEv 89 noDetail { t with book := { t.book with buf := t.book.buf ++ [r], lostNew := 0 } }

/-- A group of records into the write buffer, after the marker of earlier losses, or lost as one when the buffer has no room
for it (R565, R567). -/
def bookPut (r : FbRec) (s : State) : State :=
  let g := bookGroup r
  let s := if s.book.buf.length + g.length < bookBuffer then bookMarker s else s
  if s.book.lostNew = 0 && s.book.buf.length + g.length ≤ bookBuffer then
    { s with book := { s.book with buf := s.book.buf ++ g } }
  else { s with book := { s.book with lost := s.book.lost + 1, lostNew := s.book.lostNew + 1 } }

/-- A commons record: type, event, code, source, session or port, data bytes (Table 15.1). -/
def record (type event code source who : Nat) (data : List Byte) (s : State) : State :=
  bookPut { seq := 0, time := utcNs s, image := 0, type := type, event := event, code := code, source := source,
            flags := timeq s, who := who, data := data.map BitVec.toNat } s

/-- An event with its Field book record. -/
def raiseRec (e d code source who : Nat) (data : List Byte) (s : State) : State :=
  record 1 e code source who data (raiseEv e d s)

/-- Capacity of the Chest's fault ring (R572). -/
def chestRing : Nat := 4096

/-- A Chest fault record, written when the Chest is not faulty (R573, R578); event 76. DESIGN CHOICE, log 82 (unsafe). -/
def chestWrite (kind source code : Nat) (detail : List Byte) (s : State) : State :=
  if s.chest.faulty then s
  else
    let r : ChestRec :=
      { num := s.chest.newest + 1, kind := kind, source := source, code := code, time := (utcNs s).toNat,
        mtime := moduleNs s, image := s.imageNo, startCount := s.casc.startCount, status := statusField s,
        epoch := s.pair.epoch, summary := faultSummary s, detail := detail.take 200, good := true }
    raiseEv 76 kind { s with chest := { s.chest with recs := keepLast chestRing (s.chest.recs ++ [r]),
                                                     newest := s.chest.newest + 1 } }

/-- Route state codes (Table 3.5). -/
def rstateCode : RState → Nat
  | .released => 0
  | .requested => 1
  | .checked => 2
  | .reserved => 3
  | .moving => 4
  | .locked => 5
  | .cleared => 6
  | .occupied => 7
  | .releasing => 8

/-- The snapshot of R574 from the last voted module block: route states, element states, carriers, program state,
lane, half and Trestle words, cycle summaries. The layout inside the body is not given. DESIGN CHOICE, log 26 (unsafe). -/
def snapshotBody (s : State) : List Byte :=
  (s.view.routes.map (fun r => be 2 r.1 ++ be 1 (rstateCode r.2.state) ++ be 2 r.2.code)).flatten ++
  (s.view.signals.map (fun g => be 2 g.1 ++ be 1 g.2.aspect)).flatten ++
  (s.view.points.map (fun p => be 2 p.1 ++ be 1 (b2n p.2.failed + 2 * b2n p.2.lost))).flatten ++
  (s.view.carriers.map (fun c => be 2 c.2.id ++ be 2 c.2.line ++ beI 4 c.2.front)).flatten ++
  be 1 s.view.prog.switchImg ++
  (allLanes.map (fun l => be 4 (laneWord s l))).flatten ++
  (allHalves.map (fun h => be 4 (halfWord s h) ++ be 4 (trestleWord s h))).flatten ++
  s.vote.summaries.flatten

/-- The slot that does not hold the newest complete snapshot. -/
def snapSlot (s : State) : Half :=
  if !s.chest.snaps.a.complete then .a
  else if !s.chest.snaps.b.complete then .b
  else if s.chest.snaps.a.serial < s.chest.snaps.b.serial then .a else .b

/-- A complete snapshot beside the newest fault record (R574). -/
def snapshot (s : State) : State :=
  if s.chest.faulty then s
  else
    let n := max s.chest.snaps.a.serial s.chest.snaps.b.serial + 1
    let x : Snapshot := { complete := true, serial := n, record := s.chest.newest, image := s.view.image.num,
                          body := snapshotBody s }
    { s with chest := { s.chest with snaps := twoPut s.chest.snaps (snapSlot s) x } }

/-- Source codes of halves in Field book records (Table 15.1). -/
def bookHalf : Half → Nat
  | .a => 1
  | .b => 2

/-- Source codes of halves in Chest records (Table 15.2). -/
def chestHalf : Half → Nat
  | .a => 0x10
  | .b => 0x11

end Sys2Proof.Machine
end

