-- ==== Sys2Proof/Machine/Exclude.lean ====
section
/-! DEFINITION. Taking a lane out (R225 to R228), disabling a commons half (R42, Table 1.8), aborting what a fault
aborts (R310, R369), and the restrictive state (R243, R244). -/

namespace Sys2Proof.Machine

/-- The kernels of all lanes and the dictionary view changed alike. -/
def mapKernels (f : Kernel → Kernel) (s : State) : State :=
  { s with lanes := triMap s.lanes (fun _ x => { x with kernel := f x.kernel }), view := f s.view }

/-- An armed online change aborted by a fault (R310). -/
def abortProg (code : Nat) (k : Kernel) : Kernel :=
  if k.prog.ps = .armed then
    { k with prog := { k.prog with ps := k.prog.under, switchImg := 0, outcome := code } } else k

/-- The abort of an armed change in every lane; event 82. -/
def abortChange (code : Nat) (s : State) : State :=
  if s.view.prog.ps = .armed then raiseEv 82 code (mapKernels (abortProg code) s) else s

/-- The abort of an announced, unconfirmed mode switch because the module left Run (R369). -/
def abortModeSwitch (s : State) : State :=
  match s.bus.pend with
  | some p =>
    if p.confirmed then s
    else raiseEv 26 p.mode { s with bus := { s.bus with pend := none, outcome := 0x6007 } }
  | none => s

/-- Object 0x3104: lane, reason, block, reserved, image, time of the exclusion (Table 6.12). -/
def lastExclBytes (s : State) (l : Lane) (reason block : Nat) : List Byte :=
  let t := moduleNs s
  be 1 (laneNo l) ++ be 1 reason ++ be 1 block ++ be 1 0 ++ be 4 s.imageNo ++ be 4 (t / secNs) ++ be 4 (t % secNs)

/-- A lane stops, drops its status lines, writes its Chest record, is held in reset (R226); event 0, 1 or 2. With
automatic rejoin off it is held at once, with event 11 (R237). -/
def dropLane (l : Lane) (reason block : Nat) (detail : List Byte) (s : State) : State :=
  let x := triGet s.lanes l
  let x' := { x with
    ls := if s.vote.autoRejoin then .excluded else .held, reason := reason, line := ⟨false, false⟩, out := none,
    progress := 0xFF, keptImgs := [], copyPoint := none, outOk := none, benchOk := none, shadowOk := 0,
    returned := false, started := false }
  let s1 := { s with
    lanes := triPut s.lanes l x',
    halves := twoMap s.halves (fun _ h => { h with ingress := triPut h.ingress l none, bench := triPut h.bench l none }),
    vote := { s.vote with lastExcl := lastExclBytes s l reason block } }
  let s2 := raiseRec (laneNo l) (laneNo l) reason 0 0xFFFF (be 1 (laneNo l) ++ be 1 reason)
    (chestWrite 1 (laneNo l) reason (be 1 reason ++ be 4 s.imageNo ++ detail) s1)
  if s.vote.autoRejoin then s2 else raiseEv 11 (laneNo l) s2

/-- A lane rejoining, in any phase (Table 6.9). -/
def rejoining (x : LaneSt) : Bool :=
  x.ls = .booting || x.ls = .copying || x.ls = .catchingUp || x.ls = .shadow

/-- A rejoin under way (R240). -/
def rejoinUnderWay (s : State) : Bool := allLanes.any (fun l => rejoining (triGet s.lanes l))

/-- Budget of the booting phase in ns (Table 6.9). -/
def bootBudget : Nat := 6 * secNs

/-- A lane's timing margin (object 0x3600), 100 before it is measured. -/
def timingMargin (s : State) (l : Lane) : Nat := ((tabFind s.age.items (ageKey 0x3600 (laneNo l + 1))).map (·.margin)).getD 100

/-- A restore asked for takes effect at the lane's restart when its margin is at least 30 % (R589). -/
def restoreClock (l : Lane) (s : State) : State :=
  if !triGet s.age.restore l then s
  else
    let s := { s with age := { s.age with restore := triPut s.age.restore l false } }
    if 30 ≤ timingMargin s l then { s with lanes := triMod s.lanes l (fun x => { x with redclk := false }) } else s

/-- The booting phase begins (R231): the lane's reset is released. -/
def startBooting (l : Lane) (s : State) : State :=
  let s := restoreClock l s
  { s with lanes := triMod s.lanes l (fun x =>
      { x with ls := .booting, dueNs := s.ns + bootBudget, rounds := 0, copyPoint := none, keptImgs := [],
               outOk := none, benchOk := none, shadowOk := 0, progress := 0, returned := false, started := false }) }

/-- Rejoins restart from booting when a lane in vote was excluded meanwhile (R238). -/
def restartRejoins (s : State) : State :=
  allLanes.foldl (fun s l => if rejoining (triGet s.lanes l) then startBooting l s else s) s

/-- A pending withdrawal is cancelled by the restrictive state (R241): CANCELLED-BY-FAULT, event 12. DEDUCED, log 105
(safe). DEDUCED, log 105 (safe). -/
def dropPending (s : State) : State :=
  if s.vote.pendLane.isSome then
    raiseEv 12 0x4005 { s with vote := { s.vote with pendLane := none, cmdOutcome := 0x4005 } }
  else s

/-- The restrictive state (R244): every lane in vote excluded with RESTRICTIVE-STATE, Chest record and snapshot,
nothing more forwarded, event 6. -/
def enterRestrictive (s : State) : State :=
  if s.vote.restrictive then s
  else
    let s := dropPending s
    let s := (lanesInVote s).foldl (fun s l => dropLane l 0x12 0xFF [] s) s
    let s := abortModeSwitch (abortChange 0x5105 s)
    let s := { s with
      vote := { s.vote with restrictive := true, pendLane := none },
      halves := twoMap s.halves (fun _ h => { h with next := none }),
      lio := { s.lio with localNext := none },
      pair := { s.pair with h := none } }
    raiseRec 6 noDetail 0 3 0xFFFF [] (snapshot (chestWrite 6 0x30 0 [] s))

/-- Lanes in vote excluded for one reason; fewer than two left take the module into the restrictive state (R228),
two left restart any rejoin (R238). -/
def excludeLanes (ls : List Lane) (reason block : Nat) (detail : List Byte) (s : State) : State :=
  if ls = [] then s
  else
    let s := ls.foldl (fun s l => dropLane l reason block detail s) s
    if (lanesInVote s).length < 2 then enterRestrictive s else restartRejoins s

/-- A channel whose half stops: it sends and forwards nothing, and holds no link's sync values. -/
def chanOff (c : ChanSt) : ChanSt := { c with st := .off, starter := false, devs := [], k := 0, weakRun := 0 }

/-- A half disabled (Table 1.8, R42): out of service with a cause, its channel silent; HALF-DISABLED in the Chest
unless another kind is named; event 32. DESIGN CHOICE, log 34 (safe). -/
def disableHalf (h : Half) (cause kind : Nat) (detail : List Byte) (s : State) : State :=
  if !(twoGet s.halves h).inServ && (twoGet s.halves h).reason ≠ 0 then s
  else
    let s1 := { s with
      halves := twoMod s.halves h (fun x => { x with
        inServ := false, reason := cause, voter := false,
        ingress := ⟨none, none, none⟩, bench := ⟨none, none, none⟩, active := none, next := none, decided := none }),
      tres := twoMod s.tres h (fun t => { t with
        disReason := if cause ≤ 8 then cause else t.disReason, decisions := [] }),
      tx := twoPut s.tx h TxSt.init,
      bus := { s.bus with chans := twoMod s.bus.chans h chanOff } }
    raiseRec 32 (halfNo h) cause (bookHalf h) 0xFFFF (be 1 cause)
      (chestWrite kind (chestHalf h) cause detail s1)

/-- Instance as commanded (Table 15.5), of the key under which a test is kept. -/
def instNo (k : Nat) : Nat := if k < 3 then k else 0x10 + (k - 3)

/-- The isolation of self-tests ends (R582): those under way are abandoned with ABORTED; event 73. -/
def abortTests (p : Nat → Bool) (s : State) : State :=
  (s.test.insts.filter (fun x => p x.1 && x.2.ts = .running)).foldl (fun s x =>
    raiseEv 73 (instNo x.1) { s with test := { s.test with
      outcome := 0xA009, insts := tabPut s.test.insts x.1 { x.2 with ts := .aborted, last := 0xA009 } } }) s

/-- HALF-DISABLED (Table 15.3). -/
def halfDisabled : Nat := 0x0B

/-- Roll-back of an install (R622): the lane in hand is rewritten from the fallback area, then those updated. DESIGN CHOICE,
log 88 (unsafe). DESIGN CHOICE, log 88 (unsafe). -/
def startRollBack (s : State) : State :=
  if s.upd.phase = .idle then s
  else
    let rewrite (x : LaneSt) : LaneSt := if x.ls = .held then { x with returned := true } else x
    { s with
      lanes := match laneOf? s.upd.lane with | some l => triMod s.lanes l rewrite | none => s.lanes
      upd := { s.upd with phase := .rollingBack, rolling := false, stopAsked := false } }

/-- The order in which an install takes the lanes (R621). -/
def installOrder : List Lane := [.c, .b, .a]

/-- A lane's withdrawal asked for by the loader (R621): it waits for the next benchmark image (R239). -/
def loaderWithdraw (l : Lane) (s : State) : State :=
  { s with
    vote := { s.vote with pendLane := some l, pendFrom := s.imageNo }
    upd := { s.upd with lane := laneNo l } }

/-- A roll-back goes on (R622): while the lane in hand is out of the vote it is rewritten and rejoins; then the next updated
lane is withdrawn; with none left the outcome is ROLLED-BACK, event 95. -/
def rollNext (s : State) : State :=
  if s.upd.phase ≠ .rollingBack || s.vote.pendLane.isSome then s
  else if (laneOf? s.upd.lane).any (fun l => !inVote s l) then s
  else match installOrder.find? (fun l => bit s.upd.doneL (laneNo l)) with
    | some l => loaderWithdraw l s
    | none => raiseEv 95 0xB010 { s with upd := { s.upd with
        phase := .idle, action := 0, installOutcome := 0xB010, outcome := 0xB010, lane := 0, block := 0 } }

/-- A failed rejoin (R237): Chest record, event 10, back to reset; held after too many failures (event 11). A failed
rejoin during an install rolls it back (R622). -/
def failRejoin (l : Lane) (reason : Nat) (s : State) : State :=
  let x := triGet s.lanes l
  let fails := s.ns :: x.fails.filter (fun t => s.ns < t + 3600 * secNs)
  let hold := s.vote.rejoinMax ≤ fails.length || !s.vote.autoRejoin ||
    (s.upd.phase = .rollingBack && s.upd.lane = laneNo l)
  let x' := { x with
    ls := if hold then .held else .excluded, reason := reason, fails := fails, out := none,
    progress := 0xFF, keptImgs := [], copyPoint := none, outOk := none, benchOk := none, shadowOk := 0,
    line := ⟨false, false⟩, started := false }
  let inHand := s.upd.phase = .rejoining && s.upd.lane = laneNo l
  let s1 := raiseEv 10 (laneNo l) (chestWrite 4 (laneNo l) reason (be 1 reason) { s with lanes := triPut s.lanes l x' })
  let s2 := if hold then raiseEv 11 (laneNo l) s1 else s1
  if inHand then startRollBack s2 else s2

/-- A lane excludes itself or is excluded by its supervisor (R225); a rejoining lane's rejoin fails with the reason (R237).
DEDUCED, log 104 (safe). -/
def excludeLane (l : Lane) (reason : Nat) (detail : List Byte) (s : State) : State :=
  if inVote s l then excludeLanes [l] reason 0xFF detail s
  else if rejoining (triGet s.lanes l) then failRejoin l reason s
  else s

end Sys2Proof.Machine
end

