-- ==== Sys2Proof/Machine/Graph.lean ====
section
/-! DEFINITION. The track as the lanes and Trestle read it: input levels (R48), detection (R55), travel through
sections, points and chainage breaks (R53, R54, R61, R183), and the distances and spans the rules take from it. -/

namespace Sys2Proof.Machine

/-- The other direction of travel. -/
def opposite : Dir → Dir
  | .rising => .falling
  | .falling => .rising
  | .unknown => .unknown

/-- Direction codes (R17). -/
def dirCode : Dir → Nat
  | .unknown => 0
  | .rising => 1
  | .falling => 2

/-- The direction of a code. -/
def dirOf (n : Nat) : Dir := if n = 1 then .rising else if n = 2 then .falling else .unknown

/-- Key of a controller point in an image. -/
def pointKey (b : Binding) : Nat := b.port * 1024 + b.point

/-- Level of a bound input in an image; its restrictive value where the image holds none (R48). -/
def levelOf (img : BusImage) (b : Binding) : Bool := tabGet img.levels (pointKey b) b.rval

/-- The module substituted this input's restrictive value. -/
def substituted (img : BusImage) (b : Binding) : Bool := img.subst.contains (pointKey b)

/-- An input stands at the level other than its restrictive value. -/
def active (img : BusImage) (b : Binding) : Bool := levelOf img b != b.rval

/-- Position a point is detected in (R55). -/
def detected (img : BusImage) (p : PointRec) : Option Nat :=
  if p.det.any (substituted img) then none
  else if (p.det.filter (active img)).length = 1 then p.det.findIdx? (active img)
  else none

/-- A section of the station data. -/
def secRec (st : Station) (n : Nat) : Option SectionRec := st.sections.find? (fun x => x.num = n)
/-- A point of the station data. -/
def ptRec (st : Station) (n : Nat) : Option PointRec := st.points.find? (fun x => x.num = n)
/-- A signal of the station data. -/
def sigRec (st : Station) (n : Nat) : Option SignalRec := st.signals.find? (fun x => x.num = n)
/-- A crossing of the station data. -/
def xingRec (st : Station) (n : Nat) : Option CrossingRec := st.crossings.find? (fun x => x.num = n)
/-- A boundary of the station data. -/
def bndRec (st : Station) (n : Nat) : Option BoundaryRec := st.boundaries.find? (fun x => x.num = n)
/-- A route of the station data. -/
def routeRec (st : Station) (n : Nat) : Option RouteRec := st.routes.find? (fun x => x.num = n)
/-- An overlap record of the station data. -/
def ovlRec (st : Station) (n : Nat) : Option OverlapRec := st.overlaps.find? (fun x => x.num = n)
/-- A release key of the station data. -/
def keyRec (st : Station) (n : Nat) : Option KeyRec := st.keys.find? (fun x => x.num = n)

/-- Class record; a class that is missing keeps the defaults of Table 2.8. -/
def classRec (st : Station) (n : Nat) : ClassRec :=
  st.classes.getD n { safety := 5000, release := 500, maxLen := 20000, maxUnc := 2000, maxAge := 5 }

/-- Filter class record; Table 11.4 has eight. -/
def filterRec (st : Station) (n : Nat) : FilterRec :=
  st.filters.getD n { minMs := 0, maxS := 0, winMs := 10, limit := 255, recMs := 10 }

/-- A section is occupied in an image (R48). -/
def occupied (st : Station) (img : BusImage) (n : Nat) : Bool :=
  match secRec st n with
  | some x => !active img x.occ
  | none => true

/-- A crossing's closed input is active in an image, in the sense of R48: it reports closed. -/
def closedInput (st : Station) (img : BusImage) (n : Nat) : Bool :=
  match xingRec st n with
  | some x => active img x.closed && !substituted img x.closed
  | none => false

/-- A detected position of a point by number. -/
def detOf (st : Station) (img : BusImage) (n : Nat) : Option Nat := (ptRec st n).bind (detected img)

/-- Where travel goes at the end of a section. -/
inductive Nxt where
  | sec (n : Nat) (c : Int) (d : Dir)
  | bnd (n : Nat)
  | stop
  deriving DecidableEq, Repr

/-- One way out of a section: the chainage where it leaves, the facing point and position it takes, and what
follows. -/
structure Exit where
  at_ : Int
  pt : Option (Nat × Nat)
  nxt : Nxt
  deriving DecidableEq, Repr

/-- The far end of a section in a direction. -/
def endOf (x : SectionRec) (d : Dir) : Int := if d = .falling then x.start else x.fin

/-- The near end of a section for a direction of travel: where it is entered. -/
def entryOf (x : SectionRec) (d : Dir) : Int := if d = .falling then x.fin else x.start

/-- A break between two elements, seen from the first: both chainages and whether rising inverts (R53). -/
def breakFrom (st : Station) (a b : Nat) : Option (Int × Int × Bool) :=
  match st.breaks.find? (fun k => (k.e1 = a && k.e2 = b) || (k.e2 = a && k.e1 = b)) with
  | some k => if k.e1 = a && k.e2 = b then some (k.c1, k.c2, k.inverted) else some (k.c2, k.c1, k.inverted)
  | none => none

/-- Travel out of section `x` in direction `d` to a linked element: where it leaves and what follows. -/
def across (st : Station) (x : SectionRec) (d : Dir) (l : Link) (entry : Option Int) : Int × Nxt :=
  match l with
  | .bnd n => (endOf x d, .bnd n)
  | .stop => (endOf x d, .stop)
  | .sec n =>
    match breakFrom st x.num n with
    | some (c1, c2, inv) => (c1, .sec n c2 (if inv then opposite d else d))
    | none =>
      match secRec st n with
      | some y => (endOf x d, .sec n (entry.getD (entryOf y d)) d)
      | none => (endOf x d, .stop)

/-- The link of a point's leg element. -/
def legLink (st : Station) (n : Nat) : Link :=
  if (secRec st n).isSome then .sec n else if (bndRec st n).isSome then .bnd n else .stop

/-- The point travel meets by its toe in a section, from a chainage on in a direction: it faces the travel (Table
2.4) and its toe is still ahead. -/
def facingPoint (st : Station) (x : SectionRec) (c : Int) (d : Dir) : Option PointRec :=
  match st.points.find? (fun p => p.sec = x.num) with
  | some p => if p.toeDir = opposite d && (if d = .falling then p.toe ≤ c else c ≤ p.toe) then some p else none
  | none => none

/-- Every way out of a section from a chainage in a direction: one, or one per leg of a facing point. -/
def exits (st : Station) (x : SectionRec) (c : Int) (d : Dir) : List Exit :=
  match facingPoint st x c d with
  | some p =>
    p.legs.mapIdx (fun k g =>
      let a := across st x d (legLink st g.1) (some g.2)
      { at_ := a.1, pt := some (p.num, k), nxt := a.2 })
  | none =>
    let a := across st x d (if d = .falling then x.low else x.high) none
    [{ at_ := a.1, pt := none, nxt := a.2 }]

/-- The ways out that the detected points leave open; a facing point without detection leaves all (R183). -/
def exitsDet (st : Station) (img : BusImage) (x : SectionRec) (c : Int) (d : Dir) : List Exit :=
  (exits st x c d).filter (fun e =>
    match e.pt with
    | some (p, k) => (detOf st img p).all (fun j => j = k)
    | none => true)

/-- A signal that faces travel leaving a section by `ex`: at that end, or at the near end of what follows. -/
def signalAt (st : Station) (x : SectionRec) (d : Dir) (ex : Exit) : Option SignalRec :=
  st.signals.find? (fun g =>
    (g.sec = x.num && g.facing = d && g.chain = ex.at_ && g.high = (d = .rising)) ||
    (match ex.nxt with
     | .sec m c' d' => g.sec = m && g.facing = d' && g.chain = c' && g.high = (d' = .falling)
     | _ => false))

/-- Position a trailing point needs for travel that entered its section from `prev`; the leg inside the own range
where travel began in the section. -/
def trailPos (st : Station) (p : PointRec) (prev : Option Nat) : Option Nat :=
  match prev with
  | some n => p.legs.findIdx? (fun g => g.1 = n)
  | none => p.legs.findIdx? (fun g => (breakFrom st p.sec g.1).isNone)

/-- The point of a section with the position that travel from `prev` at a chainage in a direction takes there,
for the way out `e`. -/
def pointTaken (st : Station) (x : SectionRec) (d : Dir) (prev : Option Nat) (e : Exit) : Option (Nat × Nat) :=
  match e.pt with
  | some q => some q
  | none =>
    match st.points.find? (fun p => p.sec = x.num) with
    | some p => if p.toeDir = d then (trailPos st p prev).map (fun k => (p.num, k)) else none
    | none => none

/-- The section of a place on a line (R51). -/
def sectionAt (st : Station) (line : Nat) (c : Int) : Option SectionRec :=
  st.sections.find? (fun x => x.line = line && x.start ≤ c && c < x.fin)

/-- A place `r` further in a direction. -/
def along (d : Dir) (c : Int) (r : Nat) : Int := if d = .falling then c - r else c + r

/-- What a walk of a given length covers: sections, the places where it ends, whether it met a boundary. -/
structure Spread where
  secs : List Nat
  ends : List Place
  bnd : Bool
  deriving DecidableEq, Repr

/-- Nothing covered. -/
def Spread.none : Spread := { secs := [], ends := [], bnd := false }

/-- Two spreads together. -/
def spreadJoin (a b : Spread) : Spread :=
  { secs := (a.secs ++ b.secs).eraseDups, ends := (a.ends ++ b.ends).eraseDups, bnd := a.bnd || b.bnd }

/-- Walk by a length along the detected points and every leg of an undetected one (R183, R659); `fuel` bounds the
sections passed. A walk that ends at a stop or boundary ends there. DEDUCED, log 114 (unsafe). -/
def spread (st : Station) (img : BusImage) : Nat → Nat → Int → Dir → Nat → Spread
  | 0, n, c, _, _ => { secs := [n], ends := [⟨n, c⟩], bnd := false }
  | fuel + 1, n, c, d, r =>
    match secRec st n with
    | none => Spread.none
    | some x =>
      (exitsDet st img x c d).foldl (fun acc e =>
        let len := (e.at_ - c).natAbs
        let stay : Spread := { secs := [n], ends := [⟨n, along d c r⟩], bnd := false }
        let got : Spread :=
          if r < len || (r = len && d = .falling) then stay
          else
            match e.nxt with
            | .sec m c' d' => spreadJoin { secs := [n], ends := [], bnd := false } (spread st img fuel m c' d' (r - len))
            | .bnd _ => { secs := [n], ends := [⟨n, e.at_⟩], bnd := true }
            | .stop => { secs := [n], ends := [⟨n, e.at_⟩], bnd := false }
        spreadJoin acc got) Spread.none

/-- Sections that reports can span: 250 m over sections of at least 1 m, both ways. -/
def spanFuel : Nat := 512

/-- A pending place of a search: section, chainage, direction, distance so far. -/
structure Front where
  sec : Nat
  c : Int
  d : Dir
  dist : Nat
  deriving DecidableEq, Repr

/-- Search along every leg for a place: its distance and the direction of arrival there. `fuel` bounds the sections
looked at, each once in each direction. -/
def seek (st : Station) (target : Place) : Nat → List (Nat × Dir) → List Front → Option (Nat × Dir)
  | 0, _, _ => none
  | _, _, [] => none
  | fuel + 1, seen, f :: rest =>
    if f.sec = target.sec && (if f.d = .falling then target.chain ≤ f.c else f.c ≤ target.chain) then
      some (f.dist + (target.chain - f.c).natAbs, f.d)
    else if seen.contains (f.sec, f.d) then seek st target fuel seen rest
    else
      match secRec st f.sec with
      | none => seek st target fuel seen rest
      | some x =>
        let next := (exits st x f.c f.d).filterMap (fun e =>
          match e.nxt with
          | .sec m c' d' => some { sec := m, c := c', d := d', dist := f.dist + (e.at_ - f.c).natAbs : Front }
          | _ => none)
        seek st target fuel ((f.sec, f.d) :: seen) (rest ++ next)

/-- Distance along the track from a place in a direction to another place, over every leg, with the direction of
arrival (R138: summed piecewise, R53). -/
def distTo (st : Station) (n : Nat) (c : Int) (d : Dir) (target : Place) : Option (Nat × Dir) :=
  seek st target (4 * st.sections.length + 4) [] [{ sec := n, c := c, d := d, dist := 0 }]

/-- The sections a walk of a length covers along every leg, a section partly within it included (R143). -/
def cover (st : Station) : Nat → List (Nat × Dir) → Nat → List Front → List (Nat × Dir)
  | 0, seen, _, _ => seen
  | _, seen, _, [] => seen
  | fuel + 1, seen, len, f :: rest =>
    if len ≤ f.dist || seen.contains (f.sec, f.d) then cover st fuel seen len rest
    else
      match secRec st f.sec with
      | none => cover st fuel seen len rest
      | some x =>
        let next := (exits st x f.c f.d).filterMap (fun e =>
          match e.nxt with
          | .sec m c' d' => some { sec := m, c := c', d := d', dist := f.dist + (e.at_ - f.c).natAbs : Front }
          | _ => none)
        cover st fuel ((f.sec, f.d) :: seen) len (rest ++ next)

/-- The approach area of a route (R143): sections behind its entry signal with the direction the walk passed
them in, which is against the movement. -/
def approachArea (st : Station) (r : RouteRec) : List (Nat × Dir) :=
  match sigRec st r.entry with
  | none => []
  | some g =>
    if r.approach = 0 then []
    else cover st (4 * st.sections.length + 4) [] r.approach [{ sec := g.sec, c := g.chain, d := opposite g.facing, dist := 0 }]

/-- A section of a route's element list with its direction of travel and place in the list. -/
structure PathSec where
  pos : Nat
  sec : Nat
  dir : Dir
  deriving DecidableEq, Repr

/-- Sections of an element list from a direction on; a break that inverts turns the direction (R53). -/
def pathSecs (st : Station) : Nat → Option Nat → Dir → List Elem → List PathSec
  | _, _, _, [] => []
  | i, prev, d, .sec n :: l =>
    let d' := match prev.bind (fun p => breakFrom st p n) with
      | some (_, _, true) => opposite d
      | _ => d
    { pos := i, sec := n, dir := d' } :: pathSecs st (i + 1) (some n) d' l
  | i, prev, d, _ :: l => pathSecs st (i + 1) prev d l

/-- Sections of a route's list; the entry signal's own section leads into it. -/
def routeSecs (st : Station) (r : RouteRec) : List PathSec :=
  pathSecs st 0 ((sigRec st r.entry).map (·.sec)) r.dir r.elems

/-- Direction of travel at the end of a route's list. -/
def exitDir (st : Station) (r : RouteRec) : Dir := ((routeSecs st r).getLast?.map (·.dir)).getD r.dir

/-- The overlap selected by its position 1 to 4 in the route's list. -/
def ovlAt (st : Station) (r : RouteRec) (pos : Nat) : Option OverlapRec :=
  if pos = 0 then none else (r.overlaps[pos - 1]?).bind (ovlRec st)

/-- Sections of an overlap in travel order; the list's last section leads into it. -/
def ovlSecs (st : Station) (r : RouteRec) (o : OverlapRec) : List PathSec :=
  pathSecs st 0 ((routeSecs st r).getLast?.map (·.sec)) (exitDir st r) o.elems

/-- Elements of a list as element numbers. -/
def elemNo : Elem → Nat
  | .sec n => n
  | .pt n _ => n
  | .xing n => n

/-- The start element of a route: the first section of its list. -/
def startSec (st : Station) (r : RouteRec) : Nat := ((routeSecs st r).head?.map (·.sec)).getD 0xFFFF

/-- Image `a` is at or after image `b`, in the 32-bit sequence of R28. -/
def imgReached (a b : Nat) : Bool := (a + 0x100000000 - b % 0x100000000) % 0x100000000 < 0x80000000

/-- An image number a count of images later. -/
def imgAdd (a n : Nat) : Nat := (a + n) % 0x100000000

end Sys2Proof.Machine
end

