-- ==== Sys2Proof/Machine/Lock.lean ====
section
/-! DEFINITION. What the lanes' kernel works with: the settings it reads, how it writes results, records and events,
who holds which element (R131 to R134), and the element state words (Tables 3.9, 3.10, 4.4, 4.5, 4.7, 5.7). -/

namespace Sys2Proof.Machine

/-- Settings and site data a kernel step reads beside its own state and the image; `faultStop` object 0x2320 sub 1,
`addr` the module's address, `prefAddr` the address R513 compares, `peers` each neighbour's partner and which of
the two is preferred. -/
structure KEnv where
  st : Station
  set : RouteSet
  cycle : Nat
  faultStop : Nat
  epoch : Nat
  addr : Nat
  prefAddr : Nat
  peers : List (Nat × Nat × Nat)
  epochOf : Tab Nat
  oneHalf : Option Half

/-- A count of images that covers a time in ns. -/
def KEnv.images (e : KEnv) (ns : Nat) : Nat := if e.cycle = 0 then 0 else (ns + e.cycle - 1) / e.cycle

/-- A route that was never set (R88). -/
def RouteSt.init : RouteSt :=
  { state := .released, code := 0, ovl := 0, repl := false, appr := false, hold := false, emrg := false, port := 0,
    tag := 0, cls := 0, canceller := none, cancelTag := 0, cancelCls := 0, approachRel := false, rel := [],
    ovlHeld := false, ovlRel := [], mode := .chainage, carrier := none, rearFired := false, wasOcc := [],
    seqOk := [], distRun := 0, ovlArmed := false, ovlFired := false, reservedImg := 0, clearedImg := 0,
    confirmed := false, passed := false, rank := 0, relCode := 0 }

/-- A free, undetected point. -/
def PointSt.init : PointSt := { failed := false, lost := false, mv := none, detRun := 0 }

/-- A signal at aspect 0x0. -/
def SignalSt.init : SignalSt := { aspect := 0, route := none, first := 0 }

/-- A crossing commanded closed (R88, Table 4.3). -/
def CrossSt.init : CrossSt := { cs := .closing, since := 0, slow := false, run := 0, app := false }

/-- A section with nothing counted. -/
def SecSt.init : SecSt := { clearRun := 0, ghostRun := 0, ghostRep := false, occ := true }

/-- A key never turned. -/
def KeySt.init : KeySt := { active := false, timing := false, remain := 0, done := false }

/-- A route's state. -/
def rst (k : Kernel) (n : Nat) : RouteSt := tabGet k.routes n RouteSt.init
/-- A point's state. -/
def pst (k : Kernel) (n : Nat) : PointSt := tabGet k.points n PointSt.init
/-- A signal's state. -/
def gst (k : Kernel) (n : Nat) : SignalSt := tabGet k.signals n SignalSt.init
/-- A crossing's state. -/
def xst (k : Kernel) (n : Nat) : CrossSt := tabGet k.crossings n CrossSt.init

/-- The image a kernel works on. -/
def bimg (k : Kernel) : BusImage := k.image.bus

/-- Kernel state changed in a run. -/
def onK (f : Kernel → Kernel) (x : KRun) : KRun := { x with k := f x.k }

/-- A route's state changed. -/
def modRoute (n : Nat) (f : RouteSt → RouteSt) (x : KRun) : KRun :=
  onK (fun k => { k with routes := tabMod k.routes n RouteSt.init f }) x
/-- A point's state changed. -/
def modPoint (n : Nat) (f : PointSt → PointSt) (x : KRun) : KRun :=
  onK (fun k => { k with points := tabMod k.points n PointSt.init f }) x
/-- A signal's state changed. -/
def modSignal (n : Nat) (f : SignalSt → SignalSt) (x : KRun) : KRun :=
  onK (fun k => { k with signals := tabMod k.signals n SignalSt.init f }) x
/-- A crossing's state changed. -/
def modCross (n : Nat) (f : CrossSt → CrossSt) (x : KRun) : KRun :=
  onK (fun k => { k with crossings := tabMod k.crossings n CrossSt.init f }) x

/-- An event raised by the lanes. -/
def kEv (e d : Nat) (x : KRun) : KRun := { x with evs := x.evs ++ [{ event := e, detail := d }] }

/-- A lane's Field book record (R566): source lanes. -/
def kRec (type event code who : Nat) (data : List Byte) (x : KRun) : KRun :=
  { x with recs := x.recs ++ [{ seq := 0, time := 0, image := x.k.image.num, type := type, event := event, code := code,
                                source := 0, flags := 0, who := who, data := data.map BitVec.toNat }] }

/-- A result record in a port's ring (R97, R98). -/
def kResult (port tag cls kind target code detail : Nat) (x : KRun) : KRun :=
  let r : ResultRec := { tag := tag, cls := cls, kind := kind, target := target, code := code, detail := detail,
                         image := x.k.image.num }
  onK (fun k =>
    let ring := tabGet k.results port ⟨[], 0⟩
    let ring' : Ring :=
      if ring.recs.length < 64 then { ring with recs := ring.recs ++ [r] }
      else { recs := ring.recs.drop 1 ++ [r], lost := sat 0xFFFF (ring.lost + 1) }
    { k with results := tabPut k.results port ring' }) x

/-- A result for a request. -/
def reqResult (q : Req) (kind code detail : Nat) (x : KRun) : KRun :=
  kResult q.port q.tag q.cls kind q.target code detail x

/-- A result for the port that set a route. -/
def routeResult (n : Nat) (kind code detail : Nat) (x : KRun) : KRun :=
  let r := rst x.k n
  kResult r.port r.tag r.cls kind n code detail x

/-! Codes of Tables 3.7 and 4.8. -/

def cUnknown : Nat := 0x1001
def cNotPermitted : Nat := 0x1002
def cModuleState : Nat := 0x1003
def cNotActive : Nat := 0x1004
def cMalformed : Nat := 0x1005
def cDuplicate : Nat := 0x1006
def cAlreadySet : Nat := 0x1007
def cNotSet : Nat := 0x1008
def cOccupied : Nat := 0x1009
def cDiverged : Nat := 0x100A
def cHoldFull : Nat := 0x100B
def cCancelled : Nat := 0x100C
def cPointUnknown : Nat := 0x100D
def cConflict : Nat := 0x1101
def cReserved : Nat := 0x1102
def cSecOccupied : Nat := 0x1103
def cMoving : Nat := 0x1104
def cLocked : Nat := 0x1105
def cNotMovable : Nat := 0x1106
def cFlank : Nat := 0x1107
def cOverlap : Nat := 0x1108
def cCrossing : Nat := 0x1109
def cOpposing : Nat := 0x110A
def cFailed : Nat := 0x1201
def cThrow : Nat := 0x2001
def cDetLost : Nat := 0x2002
def cXTimeout : Nat := 0x2003
def cAhead : Nat := 0x2004
def cXOpened : Nat := 0x2005
def cFlankLost : Nat := 0x2006
def cNotProven : Nat := 0x2007
def cBndRefused : Nat := 0x2008
def cCancel : Nat := 0x2009
def cEmergency : Nat := 0x200A
def cBndLost : Nat := 0x200B
def cKeyRelease : Nat := 0x3001
def cEmRelease : Nat := 0x3002
def cLostRelease : Nat := 0x3003
def cPassedAtStop : Nat := 0x3004
def cReversed : Nat := 0x3005
def cBlkOccupied : Nat := 0x3006
def cKeyDropped : Nat := 0x3007
def cWrongState : Nat := 0x3008
def cEmFull : Nat := 0x3009
def cOpenSlow : Nat := 0x300B
def cBlkCarrier : Nat := 0x300C

/-- A code that may lead to holding (Table 3.7). -/
def holdable (c : Nat) : Bool := 0x1101 ≤ c && c ≤ 0x110A

/-- No element (result detail). -/
def noElem : Nat := 0xFFFF

/-! Who holds what. -/

/-- A state from reserved to releasing (R103). -/
def holding (s : RState) : Bool := 3 ≤ rstateCode s

/-- A state from locked to releasing. -/
def lockedState (s : RState) : Bool := 5 ≤ rstateCode s

/-- Routes in a state from reserved to releasing with their records, in ascending number. -/
def holders (st : Station) (k : Kernel) : List (RouteRec × RouteSt) :=
  k.routes.filterMap (fun p => if holding p.2.state then (routeRec st p.1).map (fun r => (r, p.2)) else none)

/-- Elements with the direction travel has there. -/
def withDir (st : Station) : Option Nat → Dir → List Elem → List (Elem × Dir)
  | _, _, [] => []
  | prev, d, .sec n :: l =>
    let d' := match prev.bind (fun p => breakFrom st p n) with
      | some (_, _, true) => opposite d
      | _ => d
    (.sec n, d') :: withDir st (some n) d' l
  | prev, d, e :: l => (e, d) :: withDir st prev d l

/-- A route's list with directions; the entry signal's own section leads into it. -/
def listDir (st : Station) (r : RouteRec) : List (Elem × Dir) :=
  withDir st ((sigRec st r.entry).map (·.sec)) r.dir r.elems

/-- An overlap's list with directions. -/
def ovlDir (st : Station) (r : RouteRec) (o : OverlapRec) : List (Elem × Dir) :=
  withDir st ((routeSecs st r).getLast?.map (·.sec)) (exitDir st r) o.elems

/-- List elements not yet released. -/
def heldList (st : Station) (r : RouteRec) (x : RouteSt) : List (Elem × Dir) :=
  ((listDir st r).zipIdx.filter (fun p => !x.rel.contains p.2)).map (·.1)

/-- Overlap elements not yet released. -/
def heldOvl (st : Station) (r : RouteRec) (x : RouteSt) : List (Elem × Dir) :=
  if !x.ovlHeld then []
  else
    match ovlAt st r x.ovl with
    | some o => ((ovlDir st r o).zipIdx.filter (fun p => !x.ovlRel.contains p.2)).map (·.1)
    | none => []

/-- Every section of the list is released. -/
def listClear (st : Station) (r : RouteRec) (x : RouteSt) : Bool :=
  (routeSecs st r).all (fun p => x.rel.contains p.pos)

/-- Flank entries a route reserves or holds (R133). -/
def heldFlank (st : Station) (r : RouteRec) (x : RouteSt) : List Flank := if listClear st r x then [] else r.flank

/-- How an element is held. -/
inductive How where
  | list
  | ovl
  | flank
  deriving DecidableEq, Repr

/-- A holder of a section: route, direction, list or overlap, and the route's state. -/
structure SecHold where
  route : Nat
  dir : Dir
  how : How
  state : RState
  deriving DecidableEq, Repr

/-- Holders of a section among some routes. -/
def secHolds (st : Station) (hs : List (RouteRec × RouteSt)) (n : Nat) : List SecHold :=
  (hs.map (fun h =>
    ((heldList st h.1 h.2).filter (fun e => e.1 = .sec n)).map (fun e => ⟨h.1.num, e.2, .list, h.2.state⟩) ++
    ((heldOvl st h.1 h.2).filter (fun e => e.1 = .sec n)).map (fun e => (⟨h.1.num, e.2, .ovl, h.2.state⟩ : SecHold)))).flatten

/-- A holder of a point: route, position, how, and the route's state. -/
structure PtHold where
  route : Nat
  pos : Nat
  how : How
  state : RState
  deriving DecidableEq, Repr

/-- Positions some elements need a point in. -/
def needs (n : Nat) (l : List (Elem × Dir)) : List Nat :=
  l.filterMap (fun e => match e.1 with | .pt m k => if m = n then some k else none | _ => none)

/-- Positions flank entries need a point in. -/
def flankNeeds (n : Nat) (l : List Flank) : List Nat :=
  l.filterMap (fun e => match e with | .pt m k => if m = n then some k else none | _ => none)

/-- Holders of a point among some routes. -/
def ptHolds (st : Station) (hs : List (RouteRec × RouteSt)) (n : Nat) : List PtHold :=
  (hs.map (fun h =>
    (needs n (heldList st h.1 h.2)).map (fun k => ⟨h.1.num, k, .list, h.2.state⟩) ++
    (needs n (heldOvl st h.1 h.2)).map (fun k => ⟨h.1.num, k, .ovl, h.2.state⟩) ++
    (flankNeeds n (heldFlank st h.1 h.2)).map (fun k => (⟨h.1.num, k, .flank, h.2.state⟩ : PtHold)))).flatten

/-- A point's lock, if any (R131 to R133): its position. -/
def ptLock (st : Station) (k : Kernel) (n : Nat) : Option PtHold :=
  (ptHolds st (holders st k) n).find? (fun h => lockedState h.state)

/-- Routes holding a crossing closed (R157): list holds from reserved, flank holds from reserved (R133). -/
def xingRoutes (st : Station) (k : Kernel) (n : Nat) : List Nat :=
  ((holders st k).filter (fun h =>
    (heldList st h.1 h.2).any (fun e => e.1 = .xing n) || (heldFlank st h.1 h.2).any (fun f => f = .xing n))).map (·.1.num)

/-- A crossing has a holder (R157, R161): routes, or the program's hold-closed of the image before. -/
def xingHeld (st : Station) (k : Kernel) (n : Nat) : Bool :=
  !(xingRoutes st k n).isEmpty || k.prog.out.holdClosed.contains n

/-- A crossing is closed (R157). -/
def xingClosed (k : Kernel) (n : Nat) : Bool := (xst k n).cs = .closed

/-- Routes holding a signal as flank from locking on (R133). -/
def flankCount (st : Station) (k : Kernel) (n : Nat) : Nat :=
  ((holders st k).filter (fun h => lockedState h.2.state && (heldFlank st h.1 h.2).any (fun f => f = .sig n))).length

/-- A boundary lock on a section, with the direction that enters the module from the boundary (R512). -/
def blockOn (st : Station) (k : Kernel) (n : Nat) : Option Dir :=
  (st.boundaries.find? (fun b => b.sec = n && (tabFind k.blocks b.num).isSome)).map
    (fun b => if b.high then .falling else .rising)

/-- Sections a carrier's span covers count while it is tracked (Table 5.2). -/
def trackedOn (k : Kernel) (n : Nat) : List Carrier :=
  (k.carriers.map (·.2)).filter (fun c => c.ts = .tracked && c.span.contains n)

/-- A section shows GHOST (R165). -/
def ghost (st : Station) (k : Kernel) (n : Nat) : Bool := occupied st (bimg k) n && (trackedOn k n).isEmpty

/-- The tracked carriers. -/
def tracked (k : Kernel) : List Carrier := (k.carriers.map (·.2)).filter (fun c => c.ts = .tracked)

/-- A key or emergency release timer runs with a section in scope (Table 4.4). -/
def keyRuns (st : Station) (k : Kernel) (n : Nat) : Bool :=
  st.keys.any (fun y => (tabGet k.keys y.num KeySt.init).timing && y.scope.contains n) ||
  k.emRels.any (fun m => match routeRec st m.route with
    | some r => (listDir st r).any (fun e => e.1 = .sec n) || (heldOvl st r (rst k m.route)).any (fun e => e.1 = .sec n)
    | none => false)

/-- An active release key names a crossing (R161). -/
def keyOpen (st : Station) (k : Kernel) (n : Nat) : Bool :=
  st.keys.any (fun y => (tabGet k.keys y.num KeySt.init).active && y.scope.contains n)

/-! State words. -/

/-- Route status word (Table 3.9). -/
def routeWord (k : Kernel) (n : Nat) : Nat :=
  let r := rst k n
  let held := k.held.any (fun h => h.req.cls = 2 && h.req.target = n)
  r.code % 65536 * 2 ^ 16 + r.ovl % 8 * 2 ^ 13 + b2n r.repl * 2 ^ 12 + b2n r.appr * 2 ^ 11 + b2n held * 2 ^ 10 +
  b2n r.emrg * 2 ^ 9 + r.port % 16 * 2 ^ 4 + rstateCode r.state

/-- Lowest of some numbers. -/
def lowest (l : List Nat) : Option Nat := l.foldl (fun a n => some (match a with | some m => min m n | none => n)) none

/-- Point state word (Table 3.10). DEDUCED, log 117 (unsafe). -/
def pointWord (st : Station) (k : Kernel) (p : PointRec) : Nat :=
  let x := pst k p.num
  let hs := ptHolds st (holders st k) p.num
  let own : Bool := match x.mv with | some m => m.own | none => false
  let owner :=
    if own then 0xFFFE
    else match lowest ((hs.filter (fun h => h.how = .list)).map (·.route)) with
      | some n => n
      | none => (lowest (hs.map (·.route))).getD 0xFFFF
  let req := match x.mv with
    | some m => m.pos
    | none => ((hs.head?).map (·.pos)).getD 0xF
  let locked := hs.any (fun h => h.how ≠ .flank && lockedState h.state)
  let flanked := hs.any (fun h => h.how = .flank && lockedState h.state)
  let ps := match x.mv with
    | some m => if m.commanded then 2 else 1
    | none => if x.failed then 5 else if locked then 3 else if flanked then 4 else if hs.isEmpty then 0 else 1
  let drive : Bool := match x.mv with | some m => m.commanded && !k.prog.out.inhibits.any (fun i => i.1 = p.num) | none => false
  owner * 2 ^ 16 + ((detected (bimg k) p).getD 0xF) * 2 ^ 12 + req * 2 ^ 8 + ps * 2 ^ 4 + b2n drive * 8 +
  b2n x.lost * 4

/-- Aspect the proving inputs show, when fitted and valid. -/
def proven (img : BusImage) (g : SignalRec) : Option Nat :=
  if g.proving.length ≠ 4 || g.proving.any (substituted img) then none
  else some (g.proving.foldl (fun a b => a * 2 + b2n (levelOf img b)) 0)

/-- Aspect actually commanded (R58, R134, R290): 0x0 for an undefined code, a held flank signal or a program stop. -/
def sentAspect (st : Station) (k : Kernel) (g : SignalRec) : Nat :=
  let a := (gst k g.num).aspect
  if g.aspects.getD a .undefined = .undefined || k.prog.out.stops.contains g.num || flankCount st k g.num ≠ 0 then 0 else a

/-- Signal state word (Table 3.10). -/
def signalWord (st : Station) (k : Kernel) (g : SignalRec) : Nat :=
  let x := gst k g.num
  (if sentAspect st k g = 0 then 0xFFFF else x.route.getD 0xFFFF) * 2 ^ 16 + sat 15 (flankCount st k g.num) * 2 ^ 8 + (proven (bimg k) g).getD 0xF * 2 ^ 4 +
  sentAspect st k g

/-- Section state word (Table 4.4). -/
def sectionWord (st : Station) (k : Kernel) (x : SectionRec) : Nat :=
  let hs := secHolds st (holders st k) x.num
  let lists := hs.filter (fun h => h.how = .list)
  let ovls := hs.filter (fun h => h.how = .ovl)
  let blk := blockOn st k x.num
  let owner := match lowest (lists.map (·.route)) with
    | some n => n
    | none => match lowest (ovls.map (·.route)) with
      | some n => n
      | none => if blk.isSome then 0xFFFD else 0xFFFF
  let dir := match hs.head? with
    | some h => dirCode h.dir
    | none => match blk with | some d => dirCode d | none => 0
  let ls : Nat :=
    if lists.any (fun h => lockedState h.state) then 2
    else if !lists.isEmpty then 1
    else if ovls.any (fun h => lockedState h.state) then 3
    else if !ovls.isEmpty || blk.isSome then 1 else 0
  let mode : Nat := match lowest (hs.map (·.route)) with
    | some _ => b2n ((rst k owner).mode ≠ .chainage)
    | none => 0
  let locks := ovls.filter (fun h => lockedState h.state)
  owner * 2 ^ 16 + b2n (occupied st (bimg k) x.num) * 2 ^ 15 + b2n (substituted (bimg k) x.occ) * 2 ^ 14 +
  b2n (ghost st k x.num) * 2 ^ 13 + b2n (keyRuns st k x.num) * 2 ^ 12 + dir * 2 ^ 10 + ls * 2 ^ 8 +
  sat 7 (locks.length - 1) * 2 ^ 5 + mode * 2 ^ 4 + sat 15 (trackedOn k x.num).length

/-- Crossing state codes (Table 4.3). -/
def cstateCode : CState → Nat
  | .opened => 0
  | .closing => 1
  | .closed => 2
  | .opening => 3
  | .closingFailed => 4
  | .forcedOpen => 5

/-- A crossing's open output is commanded permissive (R158, Table 4.3, Table 8.2): no holder, every protected section clear. -/
def openOut (st : Station) (k : Kernel) (n : Nat) : Bool :=
  ((xst k n).cs = .opened || (xst k n).cs = .opening) && !xingHeld st k n &&
  (xingRec st n).any (fun c => c.prot.all (fun m => !occupied st (bimg k) m))

/-- Crossing state word (Table 4.5). DEDUCED, log 116 (unsafe). -/
def crossingWord (st : Station) (k : Kernel) (x : CrossingRec) : Nat :=
  let hs := xingRoutes st k x.num
  let app := k.prog.out.holdClosed.contains x.num
  let held := (xst k x.num).app
  let holder := match lowest hs with
    | some n => n
    | none => if held then 0xFFFE else 0xFFFF
  holder * 2 ^ 16 + cstateCode (xst k x.num).cs * 2 ^ 12 + b2n (closedInput st (bimg k) x.num) * 2 ^ 11 +
  b2n (openOut st k x.num) * 2 ^ 10 + b2n (keyOpen st k x.num) * 2 ^ 9 + b2n (k.prog.out.holdOpen.contains x.num) * 2 ^ 8 +
  b2n app * 2 ^ 7 + sat 15 (hs.length + b2n held) * 2 ^ 3

/-- Element state word (object 0x6800 range, Table 3.8). -/
def elementWord (st : Station) (k : Kernel) (n : Nat) : Nat :=
  match ptRec st n, sigRec st n, secRec st n, xingRec st n with
  | some p, _, _, _ => pointWord st k p
  | _, some g, _, _ => signalWord st k g
  | _, _, some x, _ => sectionWord st k x
  | _, _, _, some x => crossingWord st k x
  | _, _, _, _ => if (bndRec st n).isSome || (keyRec st n).isSome then 0 else 0xFFFFFFFF

/-- Release key state word (Table 4.7). -/
def keyWord (k : Kernel) (n : Nat) : Nat :=
  let x := tabGet k.keys n KeySt.init
  sat 0xFFFF x.remain * 2 ^ 16 + b2n x.done * 4 + b2n x.timing * 2 + b2n x.active

/-- Tracking state codes (Table 5.2). -/
def tstateCode : TState → Nat
  | .empty => 0
  | .candidate => 1
  | .tracked => 2
  | .lost => 3

/-- Carrier entry word (Table 5.7). -/
def carrierWord (c : Carrier) : Nat :=
  c.id % 65536 * 2 ^ 16 + tstateCode c.ts * 2 ^ 13 + c.lreason % 8 * 2 ^ 10 + dirCode c.dir * 2 ^ 8 +
  c.cls % 16 * 2 ^ 4 + c.limit % 16

end Sys2Proof.Machine
end

