-- ==== Sys2Proof/Machine/Scheduler.lean ====
section
/-! DEFINITION. The chainage scheduler (R136 to R142): arming, firing in order, and what the kernel's events do:
approach locking (R143 to R149), sectional release (R150 to R153), detection release (R162 to R164). -/

namespace Sys2Proof.Machine

/-- Events the scheduler holds (R136). -/
def schedCap : Nat := 16384

/-- Events of the kernel for a route dropped, of one kind. -/
def dropEvent (n : Nat) (kd : EvKind) (k : Kernel) : Kernel :=
  { k with events := k.events.filter (fun v => v.app || v.owner ≠ n || v.kind ≠ kd) }

/-- All events of the kernel for a route dropped. -/
def dropEvents (n : Nat) (k : Kernel) : Kernel :=
  { k with events := k.events.filter (fun v => v.app || v.owner ≠ n) }

/-- A route's event of a kind is pending. -/
def hasEvent (k : Kernel) (n : Nat) (kd : EvKind) : Bool :=
  k.events.any (fun v => !v.app && v.owner = n && v.kind = kd)

/-- Order of kinds (Table 4.2). -/
def evKindNo : EvKind → Nat
  | .rearPass => 1
  | .frontWithin => 2
  | .frontPass => 3
  | .clearFor => 4
  | .elapsed => 5

/-- `a` is taken before `b` (R139). -/
def evBefore (a b : SEvent) : Bool :=
  if a.app ≠ b.app then !a.app
  else if a.owner ≠ b.owner then a.owner < b.owner else evKindNo a.kind < evKindNo b.kind

/-- An event put where R139 takes it. -/
def evInsert (v : SEvent) : List SEvent → List SEvent
  | [] => [v]
  | w :: l => if evBefore v w then v :: w :: l else w :: evInsert v l

/-- An arm (R136, R141): into the table in its order, or refused with event 44; a refused FRONT-WITHIN sets APPR
at once, a refused application arm reports SCHEDULER-FULL to its block. -/
def arm (e : KEnv) (v : SEvent) (x : KRun) : KRun :=
  let cap := if v.app then schedCap - 2 * e.st.routes.length else schedCap
  let count := if v.app then (x.k.events.filter (·.app)).length else x.k.events.length
  if count < cap then
    onK (fun k =>
      let l := evInsert v k.events
      { k with events := l, pendHigh := max k.pendHigh l.length }) x
  else
    let x := kEv 44 v.owner (onK (fun k => { k with refusedArms := sat 0xFFFFFFFF (k.refusedArms + 1) }) x)
    if v.app then onK (fun k => { k with appFull := k.appFull ++ [v.owner] }) x
    else if v.kind = .frontWithin then modRoute v.owner (fun r => { r with appr := true }) x
    else x

/-- First unreleased section of a route's list, in travel order. -/
def nextList (st : Station) (r : RouteRec) (x : RouteSt) : Option PathSec :=
  (routeSecs st r).find? (fun p => !x.rel.contains p.pos)

/-- First unreleased section of a route's overlap. -/
def nextOvl (st : Station) (r : RouteRec) (x : RouteSt) : Option PathSec :=
  if !x.ovlHeld then none
  else (ovlAt st r x.ovl).bind (fun o => (ovlSecs st r o).find? (fun p => !x.ovlRel.contains p.pos))

/-- Places that count as a carrier's far front: both span ends for an unknown direction. -/
def farFronts (c : Carrier) : List Place := if c.dir = .unknown then c.far ++ c.rear else c.far

/-- A route's exit: the end of its last list section. -/
def exitPlace (st : Station) (r : RouteRec) : Option (Place × Dir) :=
  (routeSecs st r).getLast?.bind (fun p => (secRec st p.sec).map (fun x => (⟨p.sec, endOf x p.dir⟩, p.dir)))

/-- A tracked carrier on the route or its overlap reaches beyond the route's exit (R155). -/
def reachesBeyond (st : Station) (k : Kernel) (r : RouteRec) (x : RouteSt) : Bool :=
  match exitPlace st r with
  | none => false
  | some (p, d) =>
    let on := (routeSecs st r).map (·.sec) ++
      (match ovlAt st r x.ovl with | some o => (ovlSecs st r o).map (·.sec) | none => [])
    (tracked k).any (fun c => c.span.any on.contains &&
      (farFronts c).any (fun q => match distTo st p.sec p.chain d q with | some (n, _) => 0 < n | none => false))

/-- Section the next release concerns: of the list, then of an overlap that releases behind a carrier (R155). -/
def nextSec (st : Station) (k : Kernel) (r : RouteRec) (x : RouteSt) : Option (PathSec × Bool) :=
  match nextList st r x with
  | some p => some (p, false)
  | none => if reachesBeyond st k r x then (nextOvl st r x).map (fun p => (p, true)) else none

/-- A REAR-PASS event for a section (R150). -/
def rearEvent (e : KEnv) (k : Kernel) (r : RouteRec) (c : Carrier) (p : PathSec) : Option SEvent :=
  (secRec e.st p.sec).map (fun x =>
    { kind := .rearPass, app := false, carrier := c.id, target := p.sec, line := x.line, threshold := endOf x p.dir,
      amount := (classRec e.st c.cls).release, image := k.image.num, owner := r.num, dir := p.dir })

/-- A CLEAR-FOR event for a section (R163). -/
def clearEvent (e : KEnv) (k : Kernel) (r : RouteRec) (p : PathSec) : SEvent :=
  { kind := .clearFor, app := false, carrier := 0xFFFF, target := p.sec,
    line := ((secRec e.st p.sec).map (·.line)).getD 0xFFFF, threshold := 0, amount := e.images (r.opS * secNs),
    image := k.image.num, owner := r.num, dir := p.dir }

/-- The entry of a tracked carrier. -/
def carrierOf (k : Kernel) (id : Nat) : Option Carrier := ((k.carriers.map (·.2)).find? (fun c => c.id = id && c.ts ≠ .empty))

/-- Sectional release goes on for a route: occupied, or releasing otherwise than after a cancel, or
after a cancel once passed at stop (R149, R150). -/
def sectional (x : RouteSt) : Bool := x.state = .occupied || (x.state = .releasing && (!x.approachRel || x.passed))

/-- The release event a route should hold, armed when it holds none (R150, R163). -/
def ensureArmed (e : KEnv) (n : Nat) (x : KRun) : KRun :=
  match routeRec e.st n with
  | none => x
  | some r =>
    let s := rst x.k n
    if !sectional s then x
    else
      match nextSec e.st x.k r s with
      | none => x
      | some (p, _) =>
        match s.mode with
        | .chainage =>
          if s.rearFired || hasEvent x.k n .rearPass then x
          else match s.carrier.bind (carrierOf x.k) with
            | some c => match rearEvent e x.k r c p with
              | some v => arm e v x
              | none => x
            | none => x
        | .detection => if hasEvent x.k n .clearFor then x else arm e (clearEvent e x.k r p) x
        | .sequence => x

/-- List positions released together with the section at a position: the section, its point right after it (R60,
R151), and each crossing whose protected sections on the route are then all released. -/
def releasedWith (st : Station) (r : RouteRec) (rel : List Nat) (pos : Nat) : List Nat :=
  let ix := r.elems.zipIdx
  let pts := match r.elems[pos + 1]? with
    | some (.pt _ _) => [pos + 1]
    | _ => []
  let rel1 := rel ++ pos :: pts
  let secsLeft := ix.filterMap (fun q => match q.1 with | .sec n => if rel1.contains q.2 then none else some n | _ => none)
  let xs := ix.filterMap (fun q => match q.1 with
    | .xing n =>
      if !rel1.contains q.2 && ((xingRec st n).map (fun y => y.prot.all (fun z => !secsLeft.contains z))).getD true
      then some q.2 else none
    | _ => none)
  rel1 ++ xs

/-- Overlap positions released together with a section of it. -/
def ovlReleasedWith (st : Station) (o : OverlapRec) (rel : List Nat) (pos : Nat) : List Nat :=
  releasedWith st { num := 0, entry := 0, exit := 0, dir := .unknown, elems := o.elems, overlaps := [], flank := [],
                    prio := 0, aspect := 0, approach := 0, opS := 0 } rel pos

/-- A section of a route released (R150, R151): of its list, or of its overlap, whose lock is dropped with the last. -/
def releaseSection (e : KEnv) (n : Nat) (p : PathSec) (inOvl : Bool) (x : KRun) : KRun :=
  match routeRec e.st n with
  | none => x
  | some r =>
    let x := onK (dropEvent n .clearFor) (onK (dropEvent n .rearPass) x)
    modRoute n (fun s =>
      if inOvl then
        match ovlAt e.st r s.ovl with
        | some o =>
          let rel := ovlReleasedWith e.st o s.ovlRel p.pos
          if (ovlSecs e.st r o).all (fun q => rel.contains q.pos) then
            { s with ovlRel := [], ovlHeld := false, ovl := 0, rearFired := false }
          else { s with ovlRel := rel, rearFired := false }
        | none => s
      else { s with rel := releasedWith e.st r s.rel p.pos, rearFired := false }) x

/-- The condition of a REAR-PASS or FRONT-PASS event: the place lies beyond the threshold by at least the amount. -/
def beyondBy (st : Station) (v : SEvent) (q : Place) : Bool :=
  match distTo st v.target v.threshold v.dir q with
  | some (n, _) => v.amount ≤ n
  | none => false

/-- The condition of a FRONT-WITHIN event for a carrier (Table 4.2, R659): walking back from the threshold reaches
its far front within the amount while it moves towards the threshold. -/
def frontWithin (st : Station) (v : SEvent) (c : Carrier) : Bool :=
  (farFronts c).any (fun q =>
    match distTo st v.target v.threshold (opposite v.dir) q with
    | some (n, d) => n ≤ v.amount && (c.dir = .unknown || c.dir = opposite d)
    | none => false)

/-- Carriers an event concerns. -/
def evCarriers (k : Kernel) (v : SEvent) : List Carrier :=
  (tracked k).filter (fun c => v.carrier = 0xFFFF || c.id = v.carrier)

/-- A position event's condition holds in the image (R137, R138): REAR-PASS not while the far rear lies on several
legs, neither pass for a carrier of unknown direction. -/
def evHolds (st : Station) (k : Kernel) (v : SEvent) : Bool :=
  match v.kind with
  | .rearPass => (evCarriers k v).any (fun c => c.dir ≠ .unknown && c.rear.length = 1 && c.rear.all (beyondBy st v))
  | .frontPass => (evCarriers k v).any (fun c => c.dir ≠ .unknown && !c.far.isEmpty && c.far.all (beyondBy st v))
  | .frontWithin => (evCarriers k v).any (frontWithin st v)
  | .clearFor => false
  | .elapsed => false

/-- A position event fires (R139): its effect on its route, or the news for its application block. -/
def fire (v : SEvent) (x : KRun) : KRun :=
  let x := onK (fun k => { k with events := k.events.filter (fun w => w ≠ v) }) x
  if v.app then onK (fun k => { k with appFired := k.appFired ++ [v.owner] }) x
  else if v.kind = .frontWithin then modRoute v.owner (fun r => { r with appr := true }) x
  else modRoute v.owner (fun r => { r with rearFired := true }) x

/-- Sectional release of one route in chainage mode with its chained events, at most 96 firings (R140, R150). -/
def releaseChain (e : KEnv) (n : Nat) : Nat → KRun → KRun
  | 0, x => x
  | fuel + 1, x =>
    match routeRec e.st n with
    | none => x
    | some r =>
      let s := rst x.k n
      if !sectional s || s.mode ≠ .chainage then x
      else
        match nextSec e.st x.k r s with
        | none => x
        | some (p, o) =>
          if s.rearFired then
            if occupied e.st (bimg x.k) p.sec then x
            else releaseChain e n fuel (ensureArmed e n (releaseSection e n p o x))
          else
            match x.k.events.find? (fun v => !v.app && v.owner = n && v.kind = .rearPass) with
            | some v => if evHolds e.st x.k v then releaseChain e n fuel (fire v x) else x
            | none => x

/-- Overlap release once its timer has fired (R155). -/
def tryOverlap (e : KEnv) (n : Nat) (x : KRun) : KRun :=
  match routeRec e.st n with
  | none => x
  | some r =>
    let s := rst x.k n
    if s.ovlFired && s.ovlHeld then
      match ovlAt e.st r s.ovl with
      | some o =>
        if (ovlSecs e.st r o).all (fun p => s.ovlRel.contains p.pos || !occupied e.st (bimg x.k) p.sec) &&
            !reachesBeyond e.st x.k r s then
          modRoute n (fun s => { s with ovlHeld := false, ovl := 0, ovlRel := [] }) x
        else x
      | none => x
    else x

/-- Kernel events whose condition holds in the image, in order; release by chainage is handled route by route. -/
def runScheduler (e : KEnv) (x : KRun) : KRun :=
  let x := (x.k.events.filter (fun v => v.kind = .frontWithin || v.kind = .frontPass || (v.kind = .rearPass && v.app))).foldl
    (fun x v => if evHolds e.st x.k v then fire v x else x) x
  (tabKeys x.k.routes).foldl (fun x n =>
    if sectional (rst x.k n) then tryOverlap e n (releaseChain e n 193 (ensureArmed e n x)) else x) x

/-- Release mode fixed at the occupation of the start element (R150). -/
def fixMode (e : KEnv) (n : Nat) (x : KRun) : KRun :=
  match routeRec e.st n with
  | none => x
  | some r =>
    let s0 := startSec e.st r
    let cs := trackedOn x.k s0
    let progress (c : Carrier) : Int :=
      match (routeSecs e.st r).head?.bind (fun p => (secRec e.st p.sec).map (fun y => (p, y))) with
      | some (p, y) =>
        (farFronts c).foldl (fun a q => match distTo e.st p.sec (entryOf y p.dir) p.dir q with
          | some (m, _) => max a (m : Int)
          | none => a) (-1)
      | none => -1
    let best := cs.foldl (fun (a : Option Carrier) c => match a with
      | some b => if progress b < progress c then some c else some b
      | none => some c) none
    let x := match best with
      | some c => modRoute n (fun s => { s with mode := .chainage, carrier := some c.id, rearFired := false }) x
      | none => modRoute n (fun s => { s with mode := .sequence, carrier := none, rearFired := false }) x
    ensureArmed e n x

/-- The carrier of a route no longer releases it by chainage (R162): REAR-PASS dropped, detection mode, code,
event 45, record, CLEAR-FOR armed. -/
def carrierGone (e : KEnv) (id code : Nat) (which : RouteRec → Bool) (x : KRun) : KRun :=
  (tabKeys x.k.routes).foldl (fun x n =>
    let s := rst x.k n
    match routeRec e.st n with
    | some r =>
      if sectional s && s.mode = .chainage && s.carrier = some id && which r then
        let x := onK (dropEvent n .rearPass) x
        let x := modRoute n (fun s => { s with mode := .detection, code := code, rearFired := false }) x
        ensureArmed e n (kRec 1 45 code 0xFFFF (be 2 n ++ be 2 id) (kEv 45 n x))
      else x
    | none => x) x

/-- A route's carrier left through a boundary (R661): sequence mode, nothing else. -/
def carrierHandedOver (id : Nat) (x : KRun) : KRun :=
  (tabKeys x.k.routes).foldl (fun x n =>
    let s := rst x.k n
    if sectional s && s.carrier = some id && s.mode ≠ .sequence then
      modRoute n (fun s => { s with mode := .sequence, carrier := none, rearFired := false })
        (onK (dropEvent n .clearFor) (onK (dropEvent n .rearPass) x))
    else x) x

/-- A route's direction where a carrier stands. -/
def routeDirAt (st : Station) (r : RouteRec) (x : RouteSt) (sec : Nat) : Dir :=
  let ps := routeSecs st r ++ (match ovlAt st r x.ovl with | some o => ovlSecs st r o | none => [])
  ((ps.find? (fun p => p.sec = sec)).map (·.dir)).getD r.dir

/-- A route's carrier reports again in the route's direction (R164): chainage mode. -/
def carrierBack (e : KEnv) (c : Carrier) (sec : Nat) (x : KRun) : KRun :=
  (tabKeys x.k.routes).foldl (fun x n =>
    let s := rst x.k n
    match routeRec e.st n with
    | some r =>
      if sectional s && s.mode = .detection && s.carrier = some c.id && c.dir = routeDirAt e.st r s sec then
        ensureArmed e n (modRoute n (fun s => { s with mode := .chainage, rearFired := false })
          (onK (dropEvent n .clearFor) x))
      else x
    | none => x) x

end Sys2Proof.Machine
end

