-- ==== Sys2Proof/Machine/Tracking.lean ====
section
/-! DEFINITION. Carrier tracking (R179 to R188, R194, R659): reports, spans, the transitions of Table 5.3, slots. -/

namespace Sys2Proof.Machine

/-- A report record counts as present (R181). -/
def reportPresent (st : Station) (r : Report) : Bool :=
  !r.resv && r.carrier ≠ 0 && r.carrier ≠ 0xFFFF && st.lines.contains r.line

/-- A report is chosen before another of the same carrier (R182). -/
def reportBefore (a b : Report) : Bool :=
  let sa := a.frontUnc + a.rearUnc
  let sb := b.frontUnc + b.rearUnc
  if sa ≠ sb then sa < sb else if a.port ≠ b.port then a.port < b.port else a.pos < b.pos

/-- The report used for a carrier in an image (R182). -/
def reportOf (st : Station) (img : BusImage) (id : Nat) : Option Report :=
  (img.reports.filter (fun r => reportPresent st r && r.carrier = id)).foldl
    (fun a r => match a with | some b => if reportBefore r b then some r else some b | none => some r) none

/-- What a report says on the track (R138, R183): span, far front, far rear, boundary met, the stretch from reported
rear to reported front. -/
structure Located where
  sec : Nat
  span : List Nat
  far : List Place
  rear : List Place
  bnd : Bool
  stretch : List Nat
  deriving DecidableEq, Repr

/-- Where a report places its carrier; none when its front lies in no section of the module. -/
def locate (st : Station) (img : BusImage) (r : Report) : Option Located :=
  (sectionAt st r.line r.front).map (fun x =>
    let d := dirOf r.dir
    if d = .unknown then
      let u := max r.frontUnc r.rearUnc
      let up := spread st img spanFuel x.num r.front .rising (r.len + u)
      let dn := spread st img spanFuel x.num r.front .falling (r.len + u)
      let s := spreadJoin (spread st img spanFuel x.num r.front .rising r.len)
        (spread st img spanFuel x.num r.front .falling r.len)
      { sec := x.num, span := (up.secs ++ dn.secs).eraseDups, far := up.ends, rear := dn.ends, bnd := up.bnd || dn.bnd,
        stretch := s.secs }
    else
      let f := spread st img spanFuel x.num r.front d r.frontUnc
      let b := spread st img spanFuel x.num r.front (opposite d) (r.len + r.rearUnc)
      let s := spread st img spanFuel x.num r.front (opposite d) r.len
      { sec := x.num, span := (f.secs ++ b.secs).eraseDups, far := f.ends, rear := b.ends, bnd := f.bnd || b.bnd,
        stretch := s.secs })

/-- A report is valid (R184) for an entry of a class, or for a new identity. -/
def reportValid (st : Station) (cls : Option Nat) (r : Report) : Bool :=
  let c := classRec st r.cls
  r.dir ≤ 2 && (sectionAt st r.line r.front).isSome && r.len ≤ c.maxLen && r.frontUnc ≤ c.maxUnc &&
  r.rearUnc ≤ c.maxUnc && cls.all (fun k => k = r.cls)

/-- A valid report is plausible (R184). -/
def plausible (st : Station) (img : BusImage) (l : Located) : Bool := l.stretch.any (occupied st img)

/-- An entry with a report's values. -/
def putReport (r : Report) (l : Located) (img : Nat) (c : Carrier) : Carrier :=
  { c with
    dir := dirOf r.dir, cls := r.cls, line := r.line, front := r.front, len := r.len, fu := r.frontUnc,
    ru := r.rearUnc, span := l.span, far := l.far, rear := l.rear, hitBnd := l.bnd, contra := 0, miss := 0,
    lastValid := img, port := r.port }

/-- An empty entry for a carrier. -/
def Carrier.new (id : Nat) : Carrier :=
  { id := id, ts := .candidate, lreason := 0, dir := .unknown, cls := 0, limit := 0, line := 0xFFFF, front := 0,
    len := 0, fu := 0, ru := 0, span := [], far := [], rear := [], hitBnd := false, confirm := 0, contra := 0,
    miss := 0, wasLost := false, clearRun := 0, lastValid := 0, port := 0, slot := none, eLine := 0xFFFF,
    eChain := 0, dist := 0, sSec := 0xFFFF, eSec := 0xFFFF }

/-- The lowest free authority slot of a controller (R194), as port × 256 + slot. -/
def freeSlot (st : Station) (k : Kernel) (port : Nat) : Option Nat :=
  let used := k.carriers.filterMap (fun c => c.2.slot)
  ((List.range (tabGet st.authSlots port []).length).map (fun i => port * 256 + i)).find? (fun v => !used.contains v)

/-- A tracked carrier's slot (R194): kept on its controller, else the lowest free one of the controller whose report
was selected. -/
def giveSlot (st : Station) (n : Nat) (x : KRun) : KRun :=
  match tabFind x.k.carriers n with
  | none => x
  | some c =>
    if c.slot.any (fun v => v / 256 = c.port) then x
    else
      let k1 := { x.k with carriers := tabPut x.k.carriers n { c with slot := none } }
      onK (fun _ => { k1 with carriers := tabPut k1.carriers n { c with slot := freeSlot st k1 c.port } }) x

/-- Reasons of a lost carrier (Table 5.7) with the record of R185. -/
def loseCarrier (e : KEnv) (n reason : Nat) (x : KRun) : KRun :=
  match tabFind x.k.carriers n with
  | none => x
  | some c =>
    let c' := { c with ts := .lost, lreason := reason, slot := none, limit := 0, clearRun := 0, confirm := 0, wasLost := true }
    let x := onK (fun k => { k with carriers := tabPut k.carriers n c' }) x
    let data := be 2 c.id ++ be 1 reason ++ (c.span.map (be 2)).flatten
    carrierGone e c.id cLostRelease (fun _ => true) (kRec 1 46 reason 0xFFFF data (kEv 46 c.id x))

/-- One entry's transitions in an image (Table 5.3, R185): all but those that rows of their own make
(CARRIER_CONFIRMED, CONTRADICT, VANISHED, LOST_SPAN_CLEARED), whose counts it keeps. -/
def trackEntry (e : KEnv) (n : Nat) (x : KRun) : KRun :=
  match tabFind x.k.carriers n with
  | none => x
  | some c =>
    let st := e.st
    let img := bimg x.k
    let rep := reportOf st img c.id
    let put (c' : Carrier) (x : KRun) : KRun := onK (fun k => { k with carriers := tabPut k.carriers n c' }) x
    match c.ts with
    | .empty => x
    | .candidate =>
      match rep.bind (fun r => if reportValid st (some c.cls) r then (locate st img r).map (fun l => (r, l)) else none) with
      | some (r, l) =>
        let run := if plausible st img l then c.confirm + 1 else 0
        if c.wasLost then put { c with confirm := run, lastValid := x.k.image.num, port := r.port } x
        else put { putReport r l x.k.image.num c with confirm := run } x
      | none =>
        if c.wasLost then put { c with ts := .lost, confirm := 0 } x
        else onK (fun k => { k with carriers := tabDel k.carriers n }) x
    | .lost =>
      match rep.bind (fun r => if reportValid st (some c.cls) r then (locate st img r).map (fun l => (r, l)) else none) with
      | some (r, l) =>
        put { c with ts := .candidate, wasLost := true, confirm := b2n (plausible st img l),
                     lastValid := x.k.image.num, port := r.port } x
      | none =>
        put { c with clearRun := if c.span.all (fun s => !occupied st img s) then c.clearRun + 1 else 0 } x
    | .tracked =>
      let miss := put { c with miss := c.miss + 1, contra := 0 } x
      match rep with
      | none => miss
      | some r =>
        let k := classRec st r.cls
        if k.maxUnc < r.frontUnc || k.maxUnc < r.rearUnc then loseCarrier e n 2 x
        else if k.maxLen < r.len || r.cls ≠ c.cls then loseCarrier e n 3 x
        else
          match locate st img r with
          | none =>
            if c.hitBnd then
              carrierHandedOver c.id (kRec 1 0xFF 0 0xFFFF (be 2 c.id ++ (c.span.map (be 2)).flatten)
                (onK (fun k => { k with carriers := tabDel k.carriers n }) x))
            else loseCarrier e n 5 x
          | some l =>
            if 2 < r.dir then miss
            else if plausible st img l then
              let c' := putReport r l x.k.image.num c
              let x := giveSlot st n (put c' x)
              let x := carrierGone e c.id cReversed
                (fun rr => c'.dir ≠ .unknown && c'.dir = opposite (routeDirAt st rr (rst x.k rr.num) l.sec)) x
              carrierBack e c' l.sec x
            else put { c with contra := c.contra + 1, miss := 0 } x

/-- Entries of the tracking table (R185). -/
def trackCap : Nat := 2048

/-- The lowest entry number not listed. -/
def freeEntry {α : Type} (t : Tab α) : Nat → Nat → Nat
  | 0, n => n
  | fuel + 1, n => if (tabFind t n).isSome then freeEntry t fuel (n + 1) else n

/-- A number in its place among ascending ones. -/
def insertUp (n : Nat) : List Nat → List Nat
  | [] => [n]
  | m :: l => if n ≤ m then n :: m :: l else m :: insertUp n l

/-- New identities of an image (transition 1, R186), in ascending identity. DESIGN CHOICE, log 99 (unsafe). -/
def trackNew (e : KEnv) (x : KRun) : KRun :=
  let img := bimg x.k
  let ids := (((img.reports.filter (reportPresent e.st)).map (·.carrier)).eraseDups.filter
    (fun i => !x.k.carriers.any (fun c => c.2.id = i))).foldr insertUp []
  let out := ids.foldl (fun (a : KRun × Bool) i =>
    match reportOf e.st img i with
    | some r =>
      match (if reportValid e.st none r then locate e.st img r else none) with
      | some l =>
        if a.1.k.carriers.length < trackCap then
          let n := freeEntry a.1.k.carriers trackCap 0
          let c := { putReport r l x.k.image.num (Carrier.new i) with confirm := b2n (plausible e.st img l) }
          (onK (fun k =>
            let t := tabPut k.carriers n c
            { k with carriers := t, carHigh := max k.carHigh t.length }) a.1, a.2)
        else (onK (fun k => { k with refusedCars := sat 0xFFFFFFFF (k.refusedCars + 1) }) a.1, true)
      | none => a
    | none => a) (x, false)
  if out.2 then kEv 47 noDetail out.1 else out.1

/-- Tracked carriers without a slot take one in the first image in which one is free (R194), in ascending entry. DESIGN
CHOICE, log 99 (unsafe). DESIGN CHOICE, log 99 (unsafe). -/
def fillSlots (st : Station) (x : KRun) : KRun :=
  (x.k.carriers.filter (fun c => c.2.ts = .tracked && c.2.slot.isNone)).foldl (fun x c => giveSlot st c.1 x) x

/-- Tracking of one image (R185): the entries as they stood, then new identities, then the slots that came free. -/
def runTracking (e : KEnv) (x : KRun) : KRun :=
  fillSlots e.st (trackNew e ((tabKeys x.k.carriers).foldl (fun x n => trackEntry e n x) x))

/-- Entry number of a carrier. -/
def entryNo (k : Kernel) (id : Nat) : Option Nat := (k.carriers.find? (fun c => c.2.id = id)).map (·.1)

/-- Transition 2 (Table 5.3): a candidate with the confirmation count of plausible reports becomes tracked. -/
def confirmCarrier (e : KEnv) (id : Nat) (x : KRun) : KRun :=
  match entryNo x.k id with
  | none => x
  | some n =>
    match tabFind x.k.carriers n with
    | none => x
    | some c =>
      match (reportOf e.st (bimg x.k) id).bind (fun r => (locate e.st (bimg x.k) r).map (fun l => (r, l))) with
      | some (r, l) =>
        if c.ts = .candidate && e.set.confirmC ≤ c.confirm && reportValid e.st (some c.cls) r then
          let c' := { putReport r l x.k.image.num c with ts := .tracked, lreason := 0, wasLost := false, confirm := 0 }
          carrierBack e c' l.sec (giveSlot e.st n (onK (fun k => { k with carriers := tabPut k.carriers n c' }) x))
        else x
      | none => x

/-- Transition 9: no valid report for the class's maximum report age. -/
def vanishCarrier (e : KEnv) (id : Nat) (x : KRun) : KRun :=
  match entryNo x.k id with
  | none => x
  | some n =>
    match tabFind x.k.carriers n with
    | some c => if c.ts = .tracked && (classRec e.st c.cls).maxAge ≤ c.miss then loseCarrier e n 1 x else x
    | none => x

/-- Transition 8: not plausible in 3 consecutive images. -/
def contradictCarrier (e : KEnv) (id : Nat) (x : KRun) : KRun :=
  match entryNo x.k id with
  | none => x
  | some n =>
    match tabFind x.k.carriers n with
    | some c => if c.ts = .tracked && 3 ≤ c.contra then loseCarrier e n 4 x else x
    | none => x

/-- Transition 13: every section of a lost span clear for the clearance count. -/
def clearLost (e : KEnv) (id : Nat) (x : KRun) : KRun :=
  match entryNo x.k id with
  | none => x
  | some n =>
    match tabFind x.k.carriers n with
    | some c =>
      if c.ts = .lost && e.set.clearE ≤ c.clearRun then
        kRec 1 0xFF 0 0xFFFF (be 2 c.id ++ (c.span.map (be 2)).flatten)
          (onK (fun k => { k with carriers := tabDel k.carriers n }) x)
      else x
    | none => x

end Sys2Proof.Machine
end

