-- ==== Sys2Proof/Machine/Traverse.lean ====
section
/-! DEFINITION. Requests and the Traverse pass (R89 to R112, R121, R124 to R126, R660): checks, ranking, reserving,
holding, cancelling; boundary reservations on port 1 (R511 to R513). -/

namespace Sys2Proof.Machine

/-- A port's configuration (object 0x2300). -/
def portCfg (e : KEnv) (p : Nat) : Nat := tabGet e.set.portCfg p (if p = 0 || p = 2 then 3 else 1)

/-- Order of access levels (Table 14.2). -/
def levelNo : Level → Nat
  | .observer => 0
  | .operator => 1
  | .maintainer => 2
  | .commissioner => 3

/-- Step 1 of R101: class, flags, access, MODE and ROLE (R91, R95, R96). -/
def validity (e : KEnv) (k : Kernel) (q : Req) : Option Nat :=
  if 3 < q.cls || q.resv || (q.all && q.cls ≠ 0) || (q.cls = 2 && 4 < q.opt) then some cMalformed
  else if !bit (portCfg e q.port) 0 then some cNotPermitted
  else if q.cls = 0 && !bit (portCfg e q.port) 1 then some cNotPermitted
  else if levelNo q.level < 1 then some cNotPermitted
  else if q.cls = 3 && (pst k q.target).failed && levelNo q.level < 2 then some cNotPermitted
  else if !k.image.run then some cModuleState
  else if k.image.standby then some cNotActive
  else none

/-- Routes a request is compared with: those of earlier images and those this image freed (R100), or those reserved
by requests applied before it in the image (R107). -/
def against (st : Station) (k : Kernel) (earlier : Bool) : List (RouteRec × RouteSt) :=
  if earlier then (holders st k).filter (fun h => k.newRes.contains h.1.num)
  else (holders st k).filter (fun h => !k.newRes.contains h.1.num) ++
    k.frozen.filterMap (fun f => (routeRec st f.1).map (fun r => (r, f.2)))

/-- A point's individual move or waiting movement that counts in the comparison. -/
def moveAgainst (k : Kernel) (n : Nat) (earlier : Bool) : Option Move :=
  (pst k n).mv.filter (fun m => if earlier then m.own && m.since = k.image.num else !(m.own && !m.commanded && m.since = k.image.num))

/-- Positions two overlaps need of the points they share agree (R104). -/
def sharesOk (st : Station) (a : OverlapRec) (hr : RouteRec) (hx : RouteSt) : Bool :=
  match ovlAt st hr hx.ovl with
  | some b => a.elems.all (fun x => match x with
    | .pt n k => b.elems.all (fun y => match y with | .pt m j => m ≠ n || j = k | _ => true)
    | _ => true)
  | none => true

/-- As `sharesOk`, for the route of a number among some routes. -/
def sharedWith (st : Station) (o : OverlapRec) (hs : List (RouteRec × RouteSt)) (n : Nat) : Bool :=
  match hs.find? (fun q => q.1.num = n) with
  | some q => sharesOk st o q.1 q.2
  | none => true

/-- One element against Table 3.4; `ovl` is the overlap it belongs to, for the exception of R104; `img` says whether
the image's occupation and detection are looked at too. -/
def checkElem (e : KEnv) (k : Kernel) (earlier : Bool) (ovl : Option OverlapRec) (el : Elem × Dir) : Option (Nat × Nat) :=
  let st := e.st
  let hs := against st k earlier
  match el.1 with
  | .sec n =>
    let all := secHolds st hs n
    let hold := match ovl with
      | some o => all.filter (fun h : SecHold =>
          !(decide (h.how = How.ovl) && decide (h.dir = el.2) && sharedWith st o hs h.route))
      | none => all
    let out := !earlier && (blockOn st k n).any (fun d => d = opposite el.2)
    if hold.any (fun h => h.dir ≠ el.2) || out then some (cOpposing, n)
    else if !hold.isEmpty then some (cReserved, n)
    else if !earlier && occupied st (bimg k) n then some (cSecOccupied, n)
    else none
  | .pt n pos =>
    let x := pst k n
    let mv := moveAgainst k n earlier
    if !earlier && x.failed then some (cFailed, n)
    else if mv.any (fun m => m.commanded) then some (cMoving, n)
    else if (ptHolds st hs n).any (fun h => h.pos ≠ pos) || mv.any (fun m => m.own && m.pos ≠ pos) then some (cLocked, n)
    else if !earlier && detOf st (bimg k) n ≠ some pos &&
        (match ptRec st n with | some p => occupied st (bimg k) p.sec | none => true) then some (cNotMovable, n)
    else none
  | .xing n =>
    if !earlier && (keyOpen st k n || k.prog.out.holdOpen.contains n) then some (cCrossing, n) else none

/-- The first failing element of a list. -/
def firstFail (e : KEnv) (k : Kernel) (earlier : Bool) (ovl : Option OverlapRec) (l : List (Elem × Dir)) :
    Option (Nat × Nat) :=
  l.findSome? (checkElem e k earlier ovl)

/-- One flank entry (R105). -/
def checkFlank (e : KEnv) (k : Kernel) (earlier : Bool) (f : Flank) : Option (Nat × Nat) :=
  match f with
  | .pt n pos => (checkElem e k earlier none (.pt n pos, .unknown)).map (fun _ => (cFlank, n))
  | .sig n =>
    if (against e.st k earlier).any (fun h => h.1.entry = n && rstateCode h.2.state ≤ 6) then some (cFlank, n) else none
  | .xing n => (checkElem e k earlier none (.xing n, .unknown)).map (fun _ => (cFlank, n))

/-- Overlap positions tried for a request (R104). -/
def ovlTried (r : RouteRec) (opt : Nat) : List Nat :=
  if opt = 0 then (List.range r.overlaps.length).map (· + 1) else [opt]

/-- A route's list, an overlap's elements. -/
def ovlFail (e : KEnv) (k : Kernel) (earlier : Bool) (r : RouteRec) (pos : Nat) : Option (Nat × Nat) :=
  match ovlAt e.st r pos with
  | some o => firstFail e k earlier (some o) (ovlDir e.st r o)
  | none => none

/-- Steps 4 to 6 of R101: the overlap position selected, 0 when the route has none, or the failure. -/
def checkRoute (e : KEnv) (k : Kernel) (r : RouteRec) (opt : Nat) : Nat ⊕ (Nat × Nat) :=
  match firstFail e k false none (listDir e.st r) with
  | some f => .inr f
  | none =>
    let tried := ovlTried r opt
    let sel := if r.overlaps.isEmpty then some 0 else tried.find? (fun p => (ovlFail e k false r p).isNone)
    match sel with
    | none => .inr (cOverlap, ((tried.head?.bind (ovlFail e k false r)).map (·.2)).getD noElem)
    | some p =>
      match r.flank.findSome? (checkFlank e k false) with
      | some f => .inr f
      | none => .inl p

/-- The first element a checked route shares with a request applied earlier in the image (R107). -/
def conflict (e : KEnv) (k : Kernel) (r : RouteRec) (ovl : Nat) : Option Nat :=
  match firstFail e k true none (listDir e.st r) with
  | some f => some f.2
  | none =>
    match (if ovl = 0 then none else ovlFail e k true r ovl) with
    | some f => some f.2
    | none => (r.flank.findSome? (checkFlank e k true)).map (·.2)

/-- Requests that may be held at one time (R110). -/
def heldCap : Nat := 256

/-- Held re-presentations (R109). -/
def heldTries : Nat := 64

/-- Two requests are the same one: port and stamp (R92). -/
def sameReq (a b : Req) : Bool := a.port = b.port && a.stamp = b.stamp

/-- A request's entry among the held ones. -/
def heldOf (k : Kernel) (q : Req) : Option Held := k.held.find? (fun h => sameReq h.req q)

/-- A held request dropped; its route goes back to released when it was only requested. -/
def unhold (q : Req) (x : KRun) : KRun :=
  let x := onK (fun k => { k with held := k.held.filter (fun h => !sameReq h.req q) }) x
  if q.cls = 2 && (rst x.k q.target).state = .requested && !x.k.held.any (fun h => h.req.cls = 2 && h.req.target = q.target)
  then modRoute q.target (fun s => { s with state := .released }) x else x

/-- The CODE field of a route named by a refused set request (Table 3.9). DEDUCED, log 108 (unsafe). -/
def noteCode (e : KEnv) (q : Req) (code : Nat) (x : KRun) : KRun :=
  if q.cls = 2 && (routeRec e.st q.target).isSome then modRoute q.target (fun s => { s with code := code }) x else x

/-- A refusal (R109, R110): held with a HELD result, kept while it is re-presented, or final. DEDUCED, log 108 (unsafe). -/
def refuse (e : KEnv) (q : Req) (code detail : Nat) (x : KRun) : KRun :=
  let x := noteCode e q code x
  match heldOf x.k q with
  | some h =>
    if holdable code then
      onK (fun k => { k with held := k.held.map (fun g =>
        if sameReq g.req q then { g with tries := h.tries + 1, code := code, detail := detail } else g) }) x
    else reqResult q 3 code detail (unhold q x)
  | none =>
    if q.hold && holdable code then
      if heldCap ≤ x.k.held.length then reqResult q 3 cHoldFull noElem (noteCode e q cHoldFull x)
      else
        let x := onK (fun k => { k with held := k.held ++ [{ req := q, tries := 0, code := code, detail := detail }] }) x
        let x := if q.cls = 2 && (rst x.k q.target).state = .released then
          modRoute q.target (fun s => { s with state := .requested }) x else x
        reqResult q 2 code detail x
    else reqResult q 3 code detail x

/-- A route reserved (transition 5). -/
def reserve (e : KEnv) (q : Req) (ovl : Nat) (x : KRun) : KRun :=
  let _ := e
  let x := unhold q x
  let x := onK (fun k => { k with newRes := k.newRes ++ [q.target] }) x
  let x := modRoute q.target (fun s =>
    { RouteSt.init with
      state := .reserved, code := 0, ovl := ovl, ovlHeld := ovl ≠ 0, port := q.port, tag := q.tag, cls := q.cls,
      reservedImg := x.k.image.num, rank := x.k.newRes.length, clearedImg := s.clearedImg }) x
  reqResult q 1 0 noElem x

/-- The neighbour's reservation message for a route's exit (R510, R515). -/
def reserveMsg (e : KEnv) (r : RouteRec) (action img : Nat) : Option ReserveMsg :=
  (bndRec e.st r.exit).map (fun b =>
    { toward := b.neighMod, elem := b.neighElt, action := action, route := r.num, code := 0, reply := false,
      epoch := e.epoch, image := img })

/-- A message put in the cascade block, once however often its image's routes are sequenced. -/
def kSend (m : Option ReserveMsg) (x : KRun) : KRun :=
  match m with
  | some v => { x with reserves := if x.reserves.contains v then x.reserves else x.reserves ++ [v] }
  | none => x

/-- A route's points when transition 10 releases it (R660): commanded moves go on as individual moves that report to
the setting port, waiting ones end; a move another route needs stays that route's. -/
def keepMoves (e : KEnv) (n : Nat) (x : KRun) : KRun :=
  match routeRec e.st n with
  | none => x
  | some r =>
    let s := rst x.k n
    let pts := (heldList e.st r s ++ heldOvl e.st r s).filterMap (fun p => match p.1 with | .pt m k => some (m, k) | _ => none) ++
      r.flank.filterMap (fun f => match f with | .pt m k => some (m, k) | _ => none)
    let others := (holders e.st x.k).filter (fun h => h.1.num ≠ n)
    pts.foldl (fun x p =>
      match (pst x.k p.1).mv with
      | some m =>
        if m.own || (ptHolds e.st others p.1).any (fun h => h.pos = m.pos) then x
        else if m.commanded then
          modPoint p.1 (fun y => { y with mv := some { m with own := true, port := s.port, tag := s.tag, cls := s.cls } }) x
        else modPoint p.1 (fun y => { y with mv := none }) x
      | none => x) x

/-- The entry signal of a route at aspect 0x0 (transitions 13 to 16). -/
def signalStop (e : KEnv) (n : Nat) (x : KRun) : KRun :=
  match routeRec e.st n with
  | none => x
  | some r =>
    if (gst x.k r.entry).route = some n then
      modSignal r.entry (fun g => { g with aspect := 0, route := none, first := 0 }) x
    else x

/-- RELEASED to the setting port and to a canceller at another port (R126). -/
def releasedResults (n code detail : Nat) (x : KRun) : KRun :=
  let s := rst x.k n
  let x := routeResult n 0x15 code detail x
  match s.canceller with
  | some p => if p = s.port then x else kResult p s.cancelTag s.cancelCls 0x15 n code detail x
  | none => x

/-- A route goes to released (R135, R156): locks, holds and events dropped, results, the neighbour's cancel. The
elements freed by a cancel or by transition 10 count as held to the end of the image (`freeze`, R100). -/
def toReleased (e : KEnv) (n code detail : Nat) (freeze : Bool) (x : KRun) : KRun :=
  let s := rst x.k n
  let x := releasedResults n code detail (signalStop e n x)
  let x := onK (fun k => dropEvents n { k with frozen := if freeze then k.frozen ++ [(n, s)] else k.frozen }) x
  let x := modRoute n (fun s =>
    { RouteSt.init with
      code := if code = 0 then s.code else code, emrg := s.emrg, port := s.port, tag := s.tag, cls := s.cls }) x
  match routeRec e.st n with
  | some r => kSend (reserveMsg e r 2 x.k.image.num) x
  | none => x

/-- Transition 10: a reserved or moving route goes to released with a code, its points under R660; event 63 when its boundary
reservation was refused or timed out (Table 13.21). -/
def transition10 (e : KEnv) (n code detail : Nat) (x : KRun) : KRun :=
  let s := rst x.k n
  if s.state = .reserved || s.state = .moving then
    let x := if code = cBndRefused then kEv 63 n x else x
    toReleased e n code detail true (keepMoves e n x)
  else x

/-- A cancel's effect on one route (R124, R125); the caller answers a refusal. DESIGN CHOICE, log 110 (unsafe). -/
def cancelRoute1 (e : KEnv) (q : Req) (n : Nat) (x : KRun) : KRun :=
  let code := if q.cls = 0 then cEmergency else cCancel
  let s := rst x.k n
  let x := if q.cls = 0 && s.state ≠ .released && s.state ≠ .occupied && s.state ≠ .releasing then
    modRoute n (fun s => { s with emrg := true }) x else x
  let x := if s.state = .reserved || s.state = .moving || s.state = .locked || s.state = .cleared then
    modRoute n (fun s => { s with canceller := some q.port, cancelTag := q.tag, cancelCls := q.cls }) x else x
  match s.state with
  | .requested =>
    (x.k.held.filter (fun h => h.req.cls = 2 && h.req.target = n)).foldl (fun x h =>
      reqResult h.req 3 cCancelled noElem (noteCode e h.req cCancelled (unhold h.req x))) x
  | .reserved => transition10 e n code noElem x
  | .moving => transition10 e n code noElem x
  | .locked | .cleared =>
    if s.appr then
      let x := signalStop e n x
      let x := modRoute n (fun s => { s with state := .releasing, approachRel := true, passed := false, code := code,
                                             relCode := code, repl := false, distRun := 0 }) x
      let x := onK (dropEvent n .frontWithin) x
      match routeRec e.st n with
      | some r =>
        arm e { kind := .elapsed, app := false, carrier := 0xFFFF, target := startSec e.st r, line := 0xFFFF,
                threshold := 0, amount := e.images (r.opS * secNs), image := x.k.image.num, owner := n, dir := r.dir } x
      | none => x
    else toReleased e n code noElem true x
  | .released | .checked | .occupied | .releasing => x

/-- A cancel or emergency cancel request (R124, R125, R108). -/
def applyCancel (e : KEnv) (q : Req) (x : KRun) : KRun :=
  let x := if q.cls = 0 then
    kRec 2 0xFF 0 q.port (be 1 q.port ++ be 2 q.session ++ be 4 q.tag ++ be 2 (if q.all then 0xFFFF else q.target)) x else x
  if q.all then
    let ns := (tabKeys x.k.routes).filter (fun n =>
      let c := rstateCode (rst x.k n).state
      1 ≤ c && c ≤ 6)
    ns.foldl (fun x n => cancelRoute1 e q n x) (reqResult q 1 0 noElem x)
  else if (routeRec e.st q.target).isNone then reqResult q 3 cUnknown noElem x
  else
    match (rst x.k q.target).state with
    | .released => reqResult q 3 cNotSet noElem x
    | .occupied | .releasing => reqResult q 3 cOccupied noElem x
    | _ => cancelRoute1 e q q.target (reqResult q 1 0 noElem x)

/-- A point move request (R120, R121). -/
def applyMove (e : KEnv) (q : Req) (x : KRun) : KRun :=
  match (ptRec e.st q.target).filter (fun p => q.opt < p.legs.length) with
  | none => refuse e q cPointUnknown q.target x
  | some p =>
    let y := pst x.k p.num
    if !(ptHolds e.st (against e.st x.k false) p.num).isEmpty then refuse e q cLocked p.num x
    else if (moveAgainst x.k p.num false).isSome then refuse e q cMoving p.num x
    else if occupied e.st (bimg x.k) p.sec then refuse e q cNotMovable p.num x
    else if !(ptHolds e.st (against e.st x.k true) p.num).isEmpty || (moveAgainst x.k p.num true).isSome then
      refuse e q cConflict p.num x
    else
      let m : Move := { pos := q.opt, port := q.port, tag := q.tag, cls := q.cls, commanded := false, deadline := 0,
                        since := x.k.image.num, order := (x.k.newRes.length + 1) * 256, own := true, maint := y.failed }
      onK (fun k => { k with newRes := k.newRes ++ [0x10000 + p.num] }) (modPoint p.num (fun y => { y with mv := some m }) (unhold q x))

/-- A set request that is no re-clear (R101 to R107). -/
def applySet (e : KEnv) (q : Req) (x : KRun) : KRun :=
  match routeRec e.st q.target with
  | none => refuse e q cUnknown noElem x
  | some r =>
    if r.overlaps.length < q.opt then refuse e q cMalformed noElem x
    else if x.k.newRes.contains q.target then refuse e q cDuplicate noElem x
    else if x.k.held.any (fun h => h.req.cls = 2 && h.req.target = q.target && !sameReq h.req q) then
      refuse e q cDuplicate noElem x
    else if holding (rst x.k q.target).state then refuse e q cAlreadySet noElem x
    else
      match checkRoute e x.k r q.opt with
      | .inr f => refuse e q f.1 f.2 x
      | .inl ovl =>
        match conflict e x.k r ovl with
        | some d => refuse e q cConflict d x
        | none => reserve e q ovl x

/-- A reservation of a boundary by a neighbour, on port 1 (R511 to R513). -/
def applyBoundary (e : KEnv) (q : Req) (x : KRun) : KRun :=
  let from_ := q.tag / 2 ^ 20
  let route := q.tag % 2 ^ 16
  let answer (elt result code : Nat) (x : KRun) : KRun :=
    kSend (some { toward := from_, elem := elt, action := result, route := route, code := code, reply := true,
                  epoch := q.epoch, image := x.k.image.num }) x
  let peer := (e.peers.find? (fun p => p.1 = from_ || p.2.1 = from_)).map (fun p => (p.1, p.2.1))
  let same (a : Nat) : Bool := a = from_ || peer.any (fun p => a = p.1 || a = p.2)
  let drop (which : Nat → BLock → Bool) (x : KRun) : KRun :=
    onK (fun k => { k with blocks := k.blocks.filter (fun b => !which b.1 b.2) }) x
  if q.cls = 1 then
    if q.target = 0xFFFF then drop (fun _ b => same b.requester) x
    else drop (fun n b => n = q.target && same b.requester && b.route = route) x
  else if q.cls ≠ 2 then reqResult q 3 cMalformed noElem x
  else
    match bndRec e.st q.target with
    | none => answer q.target 3 cUnknown x
    | some b =>
      let out : Dir := if b.high then .rising else .falling
      let grant (x : KRun) : KRun :=
        answer q.target 1 0 (onK (fun k => { k with blocks := tabPut k.blocks b.num ⟨from_, route, q.epoch⟩ }) x)
      let rivals := (secHolds e.st (holders e.st x.k) b.sec).filter (fun h => h.dir = out)
      match tabFind x.k.blocks b.num with
      | some l => if same l.requester then grant x else answer q.target 3 cOpposing x
      | none =>
        if rivals.isEmpty then grant x
        else
          let waiting := rivals.all (fun h => h.state = .reserved && !(rst x.k h.route).confirmed &&
            (routeRec e.st h.route).any (fun r => r.exit = b.num))
          let theirs := ((e.peers.find? (fun p => p.1 = from_ || p.2.1 = from_)).map (·.2.2)).getD from_
          if waiting && theirs < e.prefAddr then
            grant (rivals.foldl (fun x h => transition10 e h.route cBndRefused b.num x) x)
          else answer q.target 3 cOpposing x

/-- Priority of a request's route (R106). -/
def reqPrio (st : Station) (q : Req) : Nat := if q.cls = 3 then 0 else ((routeRec st q.target).map (·.prio)).getD 0

/-- `a` ranks before `b` (R106). -/
def ranksBefore (st : Station) (a b : Req) : Bool :=
  if a.cls ≠ b.cls then a.cls < b.cls
  else if reqPrio st a ≠ reqPrio st b then reqPrio st b < reqPrio st a
  else if a.stamp ≠ b.stamp then a.stamp < b.stamp
  else if a.port ≠ b.port then a.port < b.port else a.target < b.target

/-- Insertion in rank order. -/
def rankInsert (st : Station) (q : Req) : List Req → List Req
  | [] => [q]
  | a :: l => if ranksBefore st q a then q :: a :: l else a :: rankInsert st q l

/-- Requests in rank order. -/
def rank (st : Station) (l : List Req) : List Req := l.foldr (rankInsert st) []

end Sys2Proof.Machine
end

