-- ==== Sys2Proof/Machine/Sequence.lean ====
section
/-! DEFINITION. The kernel step (R30 step 2): the Traverse pass (R99), route sequencing (R113 to R119, R131 to R135,
R144 to R155), points, crossings (R157 to R161), release keys (R167 to R173), and what the kernel's timed rows do. -/

namespace Sys2Proof.Machine

/-- The start element of a route is occupied. -/
def startOcc (e : KEnv) (k : Kernel) (n : Nat) : Bool :=
  match routeRec e.st n with
  | some r => occupied e.st (bimg k) (startSec e.st r)
  | none => false

/-- Points a route needs with their positions, in list, overlap, flank order. -/
def neededPoints (st : Station) (r : RouteRec) (s : RouteSt) : List (Nat × Nat) :=
  ((heldList st r s ++ heldOvl st r s).filterMap (fun p => match p.1 with | .pt m k => some (m, k) | _ => none)) ++
  (heldFlank st r s).filterMap (fun f => match f with | .pt m k => some (m, k) | _ => none)

/-- Crossings of a route's list that it has not released. -/
def listXings (st : Station) (r : RouteRec) (s : RouteSt) : List Nat :=
  (heldList st r s).filterMap (fun p => match p.1 with | .xing n => some n | _ => none)

/-- Every point a route needs is detected in its required position. -/
def pointsOk (e : KEnv) (k : Kernel) (r : RouteRec) (s : RouteSt) : Bool :=
  (neededPoints e.st r s).all (fun p => detOf e.st (bimg k) p.1 = some p.2)

/-- The condition of transitions 7 and 9. -/
def lockOk (e : KEnv) (k : Kernel) (r : RouteRec) (s : RouteSt) : Bool :=
  pointsOk e k r s && (listXings e.st r s).all (xingClosed k) && ((bndRec e.st r.exit).isNone || s.confirmed)

/-- The first condition of R114 that fails, with the fault code of R115 and the element. -/
def clearFault (e : KEnv) (k : Kernel) (r : RouteRec) (s : RouteSt) : Option (Nat × Nat) :=
  let st := e.st
  let img := bimg k
  let secs := (routeSecs st r).map (·.sec) ++
    (match ovlAt st r s.ovl with | some o => (ovlSecs st r o).map (·.sec) | none => [])
  let pts := neededPoints st r s
  match secs.find? (occupied st img) with
  | some n => some (cAhead, n)
  | none =>
    match pts.find? (fun p => detOf st img p.1 ≠ some p.2) with
    | some p => some (cDetLost, p.1)
    | none =>
      match (listXings st r s).find? (fun n => !xingClosed k n) with
      | some n => some (cXOpened, n)
      | none =>
        match r.flank.findSome? (fun f => match f with
            | .sig n => if (gst k n).aspect ≠ 0 then some n else none
            | _ => none) with
        | some n => some (cFlankLost, n)
        | none =>
          match r.flank.findSome? (fun f => match f with
              | .xing n => if xingClosed k n then none else some n
              | _ => none) with
          | some n => some (cFlankLost, n)
          | none =>
            match pts.find? (fun p => (pst k p.1).lost) with
            | some p => some (cDetLost, p.1)
            | none =>
              if (bndRec st r.exit).isSome && !tabGet img.clearAhead r.exit false then some (cBndLost, r.exit) else none

/-- APPR in an image in which the route is cleared (R144). -/
def setAppr (e : KEnv) (n : Nat) (x : KRun) : KRun :=
  match routeRec e.st n with
  | none => x
  | some r =>
    if r.approach = 0 || (approachArea e.st r).any (fun a => occupied e.st (bimg x.k) a.1) then
      modRoute n (fun s => { s with appr := true }) x
    else x

/-- A route clears its entry signal (transitions 11 and 12, R114, R144). -/
def clearRoute (e : KEnv) (n : Nat) (x : KRun) : KRun :=
  match routeRec e.st n with
  | none => x
  | some r =>
    let x := modRoute n (fun s => { s with state := .cleared, repl := false, clearedImg := x.k.image.num }) x
    let x := modSignal r.entry (fun _ => { aspect := r.aspect, route := some n, first := x.k.image.num }) x
    let x := routeResult n 0x12 0 noElem x
    let x : KRun := match sigRec e.st r.entry with
      | some g => arm e { kind := .frontWithin, app := false, carrier := 0xFFFF, target := g.sec,
                          line := ((secRec e.st g.sec).map SectionRec.line).getD 0xFFFF, threshold := g.chain,
                          amount := r.approach, image := x.k.image.num, owner := n, dir := g.facing } x
      | none => x
    let x : KRun := match x.k.events.find? (fun v => !v.app && v.owner = n && v.kind = .frontWithin) with
      | some v => if evHolds e.st x.k v then fire v x else x
      | none => x
    setAppr e n x

/-- A cleared route falls back to locked by a fault (transition 13, R115). -/
def replaceRoute (e : KEnv) (n code detail : Nat) (x : KRun) : KRun :=
  let x := signalStop e n x
  let x := onK (dropEvent n .frontWithin) x
  routeResult n 0x13 code detail (modRoute n (fun s => { s with state := .locked, repl := true, code := code }) x)

/-- A re-clear (R115): transition 12 in the image, or a refusal that changes nothing else. -/
def reClear (e : KEnv) (q : Req) (r : RouteRec) (x : KRun) : KRun :=
  match clearFault e x.k r (rst x.k r.num) with
  | some f => reqResult q 3 f.1 f.2 (noteCode e q f.1 x)
  | none =>
    if flankCount e.st x.k r.entry ≠ 0 then reqResult q 3 cFlankLost r.entry (noteCode e q cFlankLost x)
    else clearRoute e r.num (reqResult q 1 0 noElem x)

/-- One request applied in rank order (R107). -/
def applyReq (e : KEnv) (q : Req) (x : KRun) : KRun :=
  match validity e x.k q with
  | some c => if q.cls = 2 || q.cls = 3 then refuse e q c noElem x else reqResult q 3 c noElem x
  | none =>
    if q.port = 1 then applyBoundary e q x
    else if q.cls = 0 || q.cls = 1 then applyCancel e q x
    else if q.cls = 3 then applyMove e q x
    else
      match routeRec e.st q.target with
      | some r =>
        let s := rst x.k q.target
        if s.state = .locked && s.repl && q.opt ≤ r.overlaps.length then reClear e q r x else applySet e q x
      | none => applySet e q x

/-- The Traverse pass (R99): the image's requests and the held ones, ranked, one by one; diverged ones refused
(R94). Held requests past their 64th presentation wait for HOLD_EXPIRED. -/
def traverse (e : KEnv) (x : KRun) : KRun :=
  let held := (x.k.held.filter (fun h => h.tries < heldTries)).map (·.req)
  let qs := rank e.st (x.k.image.reqs ++ held)
  let x := onK (fun k => { k with reqsLast := qs.length }) x
  let x := x.k.image.diverged.foldl (fun x q => reqResult q 3 cDiverged noElem x) x
  qs.foldl (fun x q =>
    if (x.k.image.reqs.any (sameReq q)) || (heldOf x.k q).isSome then applyReq e q x else x) x

/-! Crossings. -/

/-- Every protected section of a crossing is clear. -/
def protClear (e : KEnv) (k : Kernel) (c : CrossingRec) : Bool := c.prot.all (fun n => !occupied e.st (bimg k) n)

/-- One crossing in one image (Table 4.3): all but the timed transitions that have rows of their own. It takes one transition
an image: a holder makes it closing, and it is closed in a later image at the earliest (R157). DEDUCED, log 98 (safe).
DEDUCED, log 116 (unsafe). -/
def stepCrossing (e : KEnv) (c : CrossingRec) (x : KRun) : KRun :=
  let k := x.k
  let y := xst k c.num
  let inp := closedInput e.st (bimg k) c.num
  let held := xingHeld e.st k c.num
  let free := !held && protClear e k c
  let now := k.image.num
  let toward (cs : CState) (x : KRun) : KRun := modCross c.num (fun y => { y with cs := cs, since := now, slow := false }) x
  let x := modCross c.num (fun y => { y with run := if inp then y.run + 1 else 0, app := k.prog.out.holdClosed.contains c.num }) x
  match y.cs with
  | .opened => if held then toward .closing x else x
  | .closing => if inp then toward .closed x else x
  | .closed => if !inp then kEv 41 c.num (toward .forcedOpen x) else if free then toward .opening x else x
  | .opening =>
    if held then toward .closing x else if !inp then toward .opened x else x
  | .closingFailed => if inp then toward .closed x else if free then toward .opening x else x
  | .forcedOpen => if free then toward .opening x else x

/-- All crossings, after the Traverse pass (R157). -/
def stepCrossings (e : KEnv) (x : KRun) : KRun := e.st.crossings.foldl (fun x c => stepCrossing e c x) x

/-! Points. -/

/-- Points a moving route needs and that are not detected there begin waiting (R117, transition 8). -/
def queuePoints (e : KEnv) (n : Nat) (x : KRun) : KRun :=
  match routeRec e.st n with
  | none => x
  | some r =>
    let s := rst x.k n
    ((neededPoints e.st r s).zipIdx).foldl (fun x p =>
      let y := pst x.k p.1.1
      if y.mv.isSome || y.failed || detOf e.st (bimg x.k) p.1.1 = some p.1.2 then x
      else
        let m : Move := { pos := p.1.2, port := s.port, tag := s.tag, cls := s.cls, commanded := false, deadline := 0,
                          since := x.k.image.num, order := s.rank * 256 + p.2, own := false, maint := false }
        modPoint p.1.1 (fun y => { y with mv := some m }) x) x

/-- Waiting movements in the order of R117. -/
def waitBefore (a b : Nat × Move) : Bool :=
  if a.2.since ≠ b.2.since then imgReached b.2.since a.2.since else a.2.order < b.2.order

/-- Insertion in waiting order. -/
def waitInsert (a : Nat × Move) : List (Nat × Move) → List (Nat × Move)
  | [] => [a]
  | b :: l => if waitBefore a b then a :: b :: l else b :: waitInsert a l

/-- Waiting points are commanded while the throw limit allows (R117 to R119); an individual move's ACCEPTED. -/
def commandPoints (e : KEnv) (x : KRun) : KRun :=
  let waiting := (x.k.points.filterMap (fun p => p.2.mv.bind (fun m => if m.commanded then none else some (p.1, m)))).foldr
    waitInsert []
  waiting.foldl (fun x w =>
    let busy := (x.k.points.filter (fun p => p.2.mv.any (·.commanded))).length
    if e.set.simThrows ≤ busy then x
    else
      let limit := ((ptRec e.st w.1).map (·.throwS)).getD 8
      let m := { w.2 with commanded := true, deadline := imgAdd x.k.image.num (1 + e.images (limit * secNs)) }
      let x := modPoint w.1 (fun y => { y with mv := some m }) x
      if m.own then kResult m.port m.tag m.cls 1 w.1 0 noElem x else x) x

/-- Movements whose point is detected in the target position end (R118, R121, R660, R120). The detail of POINT-DONE is the
point. DEDUCED, log 94 (unsafe). -/
def endMoves (e : KEnv) (x : KRun) : KRun :=
  (tabKeys x.k.points).foldl (fun x n =>
    match (pst x.k n).mv with
    | some m =>
      if detOf e.st (bimg x.k) n = some m.pos then
        let x := modPoint n (fun y => { y with mv := none, failed := false }) x
        if m.own then kResult m.port m.tag m.cls 0x16 n 0 n x else x
      else x
    | none => x) x

/-- Locked points without valid detection (R122, R123): LOST and event 40, the DETECTION-LOST of an occupied route; a point
whose lock has ended is free of LOST. DEDUCED, log 95 (unsafe). -/
def watchPoints (e : KEnv) (x : KRun) : KRun :=
  let ns := ((holders e.st x.k).filter (fun h => lockedState h.2.state)).foldl
    (fun l h => l ++ (neededPoints e.st h.1 h.2).map (·.1)) (tabKeys x.k.points)
  ns.eraseDups.foldl (fun x n =>
    match ptLock e.st x.k n with
    | none => if (pst x.k n).lost then modPoint n (fun y => { y with lost := false, detRun := 0 }) x else x
    | some _ =>
      if (detOf e.st (bimg x.k) n).isSome then x
      else
        let was := (pst x.k n).lost
        let x := modPoint n (fun y => { y with lost := true, detRun := 0 }) x
        if was then x
        else
          let x := kEv 40 n x
          ((ptHolds e.st (holders e.st x.k) n).filter (fun h => h.state = .occupied)).foldl
            (fun x h => modRoute h.route (fun s => { s with code := cDetLost }) x) x) x

/-- The count of R123: consecutive images in which a locked point is detected in its locked position. -/
def countDetection (e : KEnv) (x : KRun) : KRun :=
  (tabKeys x.k.points).foldl (fun x n =>
    match ptLock e.st x.k n with
    | none => x
    | some h =>
      let ok := detOf e.st (bimg x.k) n = some h.pos
      modPoint n (fun y => { y with detRun := if ok then y.detRun + 1 else 0 }) x) x

/-! Route sequencing. -/

/-- A route enters locked (transitions 7 and 9). -/
def lockRoute (n : Nat) (x : KRun) : KRun :=
  routeResult n 0x11 0 noElem (modRoute n (fun s => { s with state := .locked }) x)

/-- A route enters occupied (transition 14, R145, R150). -/
def occupyRoute (e : KEnv) (n : Nat) (x : KRun) : KRun :=
  let x := signalStop e n x
  let x := onK (dropEvent n .frontWithin) x
  let x := modRoute n (fun s => { s with state := .occupied, appr := false, wasOcc := [], seqOk := [] }) x
  fixMode e n (routeResult n 0x14 0 noElem x)

/-- What R152 keeps for an occupied or releasing route: sections seen occupied, and those seen occupied together with
the section that follows. Overlap positions count from 1,000 on. -/
def watchSequence (e : KEnv) (n : Nat) (x : KRun) : KRun :=
  match routeRec e.st n with
  | none => x
  | some r =>
    let s := rst x.k n
    let img := bimg x.k
    let list := (routeSecs e.st r).map (fun p => (p.pos, p.sec))
    let ovl := match ovlAt e.st r s.ovl with
      | some o => (ovlSecs e.st r o).map (fun p => (1000 + p.pos, p.sec))
      | none => []
    let path := list ++ ovl
    let after : Bool :=
      if (bndRec e.st r.exit).isSome then tabFind img.clearAhead r.exit = some false
      else
        match exitPlace e.st r with
        | some (p, d) => match (secRec e.st p.sec).map (fun y => (across e.st y d (if d = .falling then y.low else y.high) none).2) with
          | some (.sec m _ _) => occupied e.st img m
          | _ => false
        | none => false
    let occ := path.map (fun p => (p.1, occupied e.st img p.2))
    let follow := (occ.drop 1).map (·.2) ++ [after]
    let both := (occ.zip follow).filterMap (fun q => if q.1.2 && q.2 then some q.1.1 else none)
    let was := occ.filterMap (fun q => if q.2 then some q.1 else none)
    modRoute n (fun s => { s with wasOcc := (s.wasOcc ++ was).eraseDups, seqOk := (s.seqOk ++ both).eraseDups }) x

/-- The overlap release timer (R154). DESIGN CHOICE, log 110 (unsafe). -/
def armOverlap (e : KEnv) (n : Nat) (x : KRun) : KRun :=
  match routeRec e.st n with
  | none => x
  | some r =>
    let s := rst x.k n
    let ps := routeSecs e.st r
    match ps.getLast?, ovlAt e.st r s.ovl with
    | some p, some o =>
      if sectional s && s.ovlHeld && !s.ovlArmed && occupied e.st (bimg x.k) p.sec &&
          ps.all (fun q => q.pos = p.pos || s.rel.contains q.pos) then
        let x := modRoute n (fun s => { s with ovlArmed := true, ovlFired := o.releaseS = 0 }) x
        if o.releaseS = 0 then tryOverlap e n x
        else arm e { kind := .elapsed, app := false, carrier := 0xFFFF, target := p.sec, line := 0xFFFF, threshold := 0,
                     amount := e.images (o.releaseS * secNs), image := x.k.image.num, owner := n, dir := p.dir } x
      else x
    | _, _ => x

/-- A route of approach release whose start element is occupied (R149). -/
def passedAtStop (e : KEnv) (n : Nat) (x : KRun) : KRun :=
  let s := rst x.k n
  if s.state = .releasing && s.approachRel && !s.passed && startOcc e x.k n then
    let x := onK (dropEvent n .elapsed) x
    let x := modRoute n (fun s => { s with passed := true, code := cPassedAtStop, relCode := cPassedAtStop, wasOcc := [], seqOk := [] }) x
    fixMode e n (kRec 1 45 cPassedAtStop 0xFFFF (be 2 n) (kEv 45 n x))
  else x

/-- The count of R147: consecutive images in which an approach release by distance holds. DEDUCED, log 107 (unsafe). -/
def countDistance (e : KEnv) (n : Nat) (x : KRun) : KRun :=
  match routeRec e.st n with
  | none => x
  | some r =>
    let s := rst x.k n
    if s.state = .releasing && s.approachRel && !s.passed then
      let area := approachArea e.st r
      let ok := !startOcc e x.k n && area.all (fun a => !occupied e.st (bimg x.k) a.1) &&
        (tracked x.k).all (fun c => !area.any (fun a => c.span.contains a.1 && (c.dir = .unknown || c.dir = opposite a.2)))
      modRoute n (fun s => { s with distRun := if ok then s.distRun + 1 else 0 }) x
    else x

/-- Transition 17: the first section of the list released. -/
def firstReleased (st : Station) (r : RouteRec) (s : RouteSt) : Bool := !s.rel.isEmpty || (routeSecs st r).isEmpty

/-- Transition 18: list and overlap released (R153). -/
def finishRoute (e : KEnv) (n : Nat) (x : KRun) : KRun :=
  match routeRec e.st n with
  | none => x
  | some r =>
    let s := rst x.k n
    if s.state = .releasing && listClear e.st r s && !s.ovlHeld then toReleased e n s.relCode noElem false x else x

/-- Transition 14 and those that follow it in the same evaluation (Table 3.6). -/
def seqOccupied (e : KEnv) (n : Nat) (x : KRun) : KRun :=
  match routeRec e.st n with
  | none => x
  | some r =>
    let x := if sectional (rst x.k n) then armOverlap e n (watchSequence e n x) else x
    let x := if (rst x.k n).state = .occupied && firstReleased e.st r (rst x.k n) then
      modRoute n (fun s => { s with state := .releasing }) x else x
    finishRoute e n x

/-- One route in one image (R113): every transition of Table 3.6 whose condition holds, in table order. -/
def sequenceRoute (e : KEnv) (n : Nat) (x : KRun) : KRun :=
  match routeRec e.st n with
  | none => x
  | some r =>
    let bnd := (bndRec e.st r.exit).isSome
    let x := if (rst x.k n).state = .reserved then
        (if lockOk e x.k r (rst x.k n) then lockRoute n x
         else if bnd && !(rst x.k n).confirmed then x
         else if !pointsOk e x.k r (rst x.k n) || !(listXings e.st r (rst x.k n)).all (xingClosed x.k) then
           modRoute n (fun s => { s with state := .moving }) x
         else x)
      else x
    let x := if (rst x.k n).state = .moving then
        (if lockOk e x.k r (rst x.k n) then lockRoute n x else queuePoints e n x)
      else x
    let x := if (rst x.k n).state = .reserved && bnd && !(rst x.k n).confirmed then
      kSend (reserveMsg e r 1 x.k.image.num) x else x
    let s := rst x.k n
    let wasCleared := s.state = .cleared
    let x := if s.state = .locked && !s.repl && (clearFault e x.k r s).isNone && flankCount e.st x.k r.entry = 0 then
      clearRoute e n x else x
    let x := if wasCleared then
        (if startOcc e x.k n then occupyRoute e n x
         else match clearFault e x.k r (rst x.k n) with
          | some f => replaceRoute e n f.1 f.2 x
          | none => setAppr e n x)
      else x
    seqOccupied e n (passedAtStop e n x)

/-- Route sequencing of one image: routes in ascending number, then the drives (R113, R117). -/
def sequence (e : KEnv) (x : KRun) : KRun :=
  let x := watchPoints e (endMoves e x)
  commandPoints e ((tabKeys x.k.routes).foldl (fun x n => sequenceRoute e n x) x)

/-! Sections and keys. -/

/-- Counts of one section (R152, R166). -/
def stepSection (e : KEnv) (y : SectionRec) (x : KRun) : KRun :=
  let occ := occupied e.st (bimg x.k) y.num
  let gh := ghost e.st x.k y.num
  onK (fun k => { k with sections := tabMod k.sections y.num SecSt.init (fun t =>
    { t with occ := occ, clearRun := if occ then 0 else t.clearRun + 1, ghostRun := if gh then t.ghostRun + 1 else 0,
             ghostRep := gh && t.ghostRep }) }) x

/-- A release key's input in an image: its controller point, or its local pair (Table 2.6). -/
def keyInput (k : Kernel) (y : KeyRec) : Bool :=
  match y.input with
  | .ctl b => levelOf (bimg k) b
  | .pair n => tabGet (bimg k).pairs n false

/-- A section of a scope locked by a route in occupied or releasing (R168). -/
def scopeRoutes (e : KEnv) (k : Kernel) (scope : List Nat) : List (Nat × Nat) :=
  ((holders e.st k).filter (fun h => h.2.state = .occupied || h.2.state = .releasing)).flatMap (fun h =>
    ((heldList e.st h.1 h.2 ++ heldOvl e.st h.1 h.2).filterMap (fun p => match p.1 with
      | .sec n => if scope.contains n then some (h.1.num, n) else none
      | _ => none)))

/-- Longest time of operation among some routes. -/
def longestOp (st : Station) (rs : List Nat) : Nat := rs.foldl (fun a n => max a (((routeRec st n).map (·.opS)).getD 0)) 0

/-- Record and event 43 of a key or emergency release (R173). DEDUCED, log 113 (unsafe). -/
def keyRecord (src route elt code : Nat) (x : KRun) : KRun :=
  kRec 1 43 code 0xFFFF (be 2 src ++ be 2 route ++ be 2 elt ++ be 2 code ++ be 4 x.k.image.num) (kEv 43 src x)

/-- One release key in one image (R167, R168, R170): request, timer, drop. -/
def stepKey (e : KEnv) (y : KeyRec) (x : KRun) : KRun :=
  let now := keyInput x.k y
  let t := tabGet x.k.keys y.num KeySt.init
  let put (t : KeySt) (x : KRun) : KRun := onK (fun k => { k with keys := tabPut k.keys y.num t }) x
  if now && !t.active then
    let rs := (scopeRoutes e x.k y.scope).map (·.1)
    let t' : KeySt := if rs.isEmpty then { t with active := true, timing := false, remain := 0 }
      else { active := true, timing := true, remain := e.images (longestOp e.st rs * secNs), done := false }
    keyRecord y.num 0xFFFF 0xFFFF 0 (put t' x)
  else if !now && t.timing then keyRecord y.num 0xFFFF 0xFFFF cKeyDropped (put { t with active := false, timing := false, remain := 0 } x)
  else put { t with active := now } x

/-- One image passes for the running timers of keys and emergency releases (R167, R171), before the image's dictionary
writes: a timer started in image k ends in image k + N. -/
def tickKeys (k : Kernel) : Kernel :=
  { k with keys := k.keys.map (fun p => (p.1, if p.2.timing then { p.2 with remain := p.2.remain - 1 } else p.2)),
           emRels := k.emRels.map (fun m => { m with remain := m.remain - 1 }) }

/-- Elements a route holds in its list and its overlap. -/
def heldElems (e : KEnv) (k : Kernel) (n : Nat) : List Elem :=
  match routeRec e.st n with
  | some r => ((heldList e.st r (rst k n) ++ heldOvl e.st r (rst k n)).map (·.1)).eraseDups
  | none => []

/-- A record for each point and crossing that a route held in `old` and holds no longer: released with its section (R173). -/
def withSection (e : KEnv) (src whole n : Nat) (old : List Elem) (x : KRun) : KRun :=
  (old.filter (fun el => (match el with | .sec _ => false | _ => true) && !(heldElems e x.k n).contains el)).foldl
    (fun x el => keyRecord src n (elemNo el) whole x) x

/-- Sections of a scope released at a timer's expiry (R169), the blocked ones recorded; `whole` is the code of a route
all of whose elements are then released. -/
def keyRelease (e : KEnv) (src whole : Nat) (scope : List Nat) (only : Option Nat) (x : KRun) : KRun :=
  ((scopeRoutes e x.k scope).filter (fun p => only.all (fun n => n = p.1))).foldl (fun x p =>
    if occupied e.st (bimg x.k) p.2 then keyRecord src p.1 p.2 cBlkOccupied x
    else if !(trackedOn x.k p.2).isEmpty then keyRecord src p.1 p.2 cBlkCarrier x
    else
      match routeRec e.st p.1 with
      | none => x
      | some r =>
        let old := heldElems e x.k p.1
        let x : KRun := match (routeSecs e.st r).find? (fun q => q.sec = p.2 && !(rst x.k p.1).rel.contains q.pos) with
          | some q => releaseSection e p.1 q false x
          | none => x
        let x : KRun := match (ovlAt e.st r (rst x.k p.1).ovl).bind (fun o => (ovlSecs e.st r o).find? (fun q => q.sec = p.2)) with
          | some q => releaseSection e p.1 q true x
          | none => x
        let s := rst x.k p.1
        let x := if listClear e.st r s && !s.ovlHeld then
          modRoute p.1 (fun s => { s with relCode := whole, code := whole }) x else x
        ensureArmed e p.1 (withSection e src whole p.1 old (keyRecord src p.1 p.2 whole x))) x

/-- The release keys in the scheduler step (R172); expiry has its own row. -/
def stepKeys (e : KEnv) (x : KRun) : KRun := e.st.keys.foldl (fun x y => stepKey e y x) x

/-- RESERVE_REPLY as the lanes see it (R514): granted confirms, refused releases. -/
def boundaryReply (e : KEnv) (n : Nat) (granted : Bool) (x : KRun) : KRun :=
  match routeRec e.st n with
  | none => x
  | some r =>
    if (rst x.k n).state = .reserved && (bndRec e.st r.exit).isSome then
      (if granted then modRoute n (fun s => { s with confirmed := true }) x
       else transition10 e n cBndRefused r.exit x)
    else x

/-- The kernel step but for the authority engine (R30, R100, R157, R185): tracking, scheduler with keys,
neighbours' replies (R514), Traverse, crossings, route sequencing. What counts images counts here, once per image: a row
of a timed condition sequences the routes again in the same image and counts nothing. DEDUCED, log 107 (unsafe). -/
def kernelStep (e : KEnv) (x : KRun) : KRun :=
  let x := runTracking e x
  let x := e.st.sections.foldl (fun x y => stepSection e y x) x
  let waiting := (tabKeys x.k.routes).filter (fun n => (rst x.k n).state = .releasing)
  let x := stepKeys e (runScheduler e x)
  let x := x.k.image.replies.foldl (fun x r => boundaryReply e r.1 r.2 x) x
  let x := countDetection e (sequence e (stepCrossings e (traverse e x)))
  waiting.foldl (fun x n => countDistance e n x) x

/-! Rows of the kernel's timed conditions. Each acts in the image whose kernel step is under way. -/

/-- HOLD_EXPIRED (R109): a held request refused at its 64th re-presentation. -/
def holdExpire (port tag : Nat) (x : KRun) : KRun :=
  match x.k.held.find? (fun h => h.req.port = port && h.req.tag = tag && heldTries ≤ h.tries) with
  | some h => reqResult h.req 4 h.code h.detail (unhold h.req x)
  | none => x

/-- THROW_TIMEOUT (R119, R120, R660): the deadline image shows no detection. -/
def throwTimeout (e : KEnv) (p : Nat) (x : KRun) : KRun :=
  match (pst x.k p).mv with
  | some m =>
    if m.commanded && imgReached x.k.image.num m.deadline && detOf e.st (bimg x.k) p ≠ some m.pos then
      let x := modPoint p (fun y => { y with mv := none, failed := true }) x
      let x := kEv 40 p x
      let x := if m.own then kResult m.port m.tag m.cls 0x16 p cThrow p x else x
      ((ptHolds e.st (holders e.st x.k) p).filter (fun h => h.state = .reserved || h.state = .moving)).foldl
        (fun x h => transition10 e h.route cThrow p x) x
    else x
  | none => x

/-- LOST_CLEARED (R123): detected in the locked position for the recovery time of its detection input. -/
def lostCleared (e : KEnv) (p : Nat) (x : KRun) : KRun :=
  match ptRec e.st p with
  | none => x
  | some r =>
    let rec_ := (r.det.map (fun b => (filterRec e.st b.fclass).recMs)).foldl max 0
    if (pst x.k p).lost && e.images (rec_ * 1000000) ≤ (pst x.k p).detRun && 0 < (pst x.k p).detRun then
      modPoint p (fun y => { y with lost := false }) x
    else x

/-- BOUNDARY_CONFIRMATION_TIMEOUT (R112): 10 program cycles in reserved without confirmation. DEDUCED, log 112 (unsafe). -/
def boundaryTimeout (e : KEnv) (n : Nat) (x : KRun) : KRun :=
  match routeRec e.st n with
  | none => x
  | some r =>
    let s := rst x.k n
    if s.state = .reserved && (bndRec e.st r.exit).isSome && !s.confirmed &&
        imgReached x.k.image.num (imgAdd s.reservedImg 10) then transition10 e n cBndRefused r.exit x
    else x

/-- SIGNAL_NOT_PROVEN (R116): the third image after the first command does not show the cleared aspect. -/
def signalNotProven (e : KEnv) (n : Nat) (x : KRun) : KRun :=
  match sigRec e.st n with
  | none => x
  | some g =>
    let y := gst x.k n
    match y.route with
    | some r =>
      if g.proving.length = 4 && (rst x.k r).state = .cleared && x.k.image.num = imgAdd y.first 3 &&
          proven (bimg x.k) g ≠ some y.aspect && !startOcc e x.k r then replaceRoute e r cNotProven n x
      else x
    | none => x

/-- SEQUENCE_RELEASE (R152): the first unreleased section of a route in sequence mode, seen occupied, seen occupied
together with the section that follows, clear for its recovery time. -/
def sequenceRelease (e : KEnv) (n : Nat) (x : KRun) : KRun :=
  match routeRec e.st n with
  | none => x
  | some r =>
    let s := rst x.k n
    if !sectional s || s.mode ≠ .sequence then x
    else
      match nextSec e.st x.k r s with
      | none => x
      | some (p, o) =>
        let key := if o then 1000 + p.pos else p.pos
        let run := (tabGet x.k.sections p.sec SecSt.init).clearRun
        let rec_ := ((secRec e.st p.sec).map (fun y => (filterRec e.st y.occ.fclass).recMs)).getD 0
        if s.wasOcc.contains key && s.seqOk.contains key && 0 < run && e.images (rec_ * 1000000) ≤ run then
          seqOccupied e n (releaseSection e n p o x)
        else x

/-- CLEAR_FOR (R163): the section clear in each image of the count, which starts from the arming image, and no tracked span
over it. DEDUCED, log 100 (unsafe). -/
def clearFor (e : KEnv) (n : Nat) (x : KRun) : KRun :=
  match routeRec e.st n with
  | none => x
  | some r =>
    let s := rst x.k n
    match x.k.events.find? (fun v => !v.app && v.owner = n && v.kind = .clearFor), nextSec e.st x.k r s with
    | some v, some (p, o) =>
      if s.mode = .detection && v.target = p.sec && v.amount ≤ (tabGet x.k.sections p.sec SecSt.init).clearRun &&
          imgReached (imgAdd x.k.image.num 1) (imgAdd v.image v.amount) && (trackedOn x.k p.sec).isEmpty then
        seqOccupied e n (ensureArmed e n (releaseSection e n p o x))
      else x
    | _, _ => x

/-- ELAPSED (R137, R146, R148, R154, R155): a timer of the kernel or of an application block fires. -/
def elapsedFires (e : KEnv) (app : Bool) (owner : Nat) (x : KRun) : KRun :=
  match x.k.events.find? (fun v => v.app = app && v.owner = owner && v.kind = .elapsed &&
      imgReached x.k.image.num (imgAdd v.image v.amount)) with
  | none => x
  | some v =>
    let x := onK (fun k => { k with events := k.events.filter (fun w => w ≠ v) }) x
    if app then onK (fun k => { k with appFired := k.appFired ++ [owner] }) x
    else
      let s := rst x.k owner
      if s.state = .releasing && s.approachRel && !s.passed then
        (if startOcc e x.k owner then x else toReleased e owner s.relCode noElem false x)
      else seqOccupied e owner (tryOverlap e owner (modRoute owner (fun s => { s with ovlFired := true }) x))

/-- RELEASE_BY_DISTANCE (R147): the third consecutive image. -/
def releaseByDistance (e : KEnv) (n : Nat) (x : KRun) : KRun :=
  let s := rst x.k n
  if s.state = .releasing && s.approachRel && !s.passed && 3 ≤ s.distRun then toReleased e n s.relCode noElem false x else x

/-- GHOST_TIMEOUT (R166). -/
def ghostTimeout (e : KEnv) (n : Nat) (x : KRun) : KRun :=
  match secRec e.st n with
  | none => x
  | some y =>
    let t := tabGet x.k.sections n SecSt.init
    if y.maxOcc ≠ 0 && !t.ghostRep && y.maxOcc * secNs < t.ghostRun * e.cycle then
      kRec 1 42 0 0xFFFF (be 2 n) (kEv 42 n
        (onK (fun k => { k with sections := tabMod k.sections n SecSt.init (fun t => { t with ghostRep := true }) }) x))
    else x

/-- CROSSING_CLOSING_TIMEOUT (R157). -/
def crossingTimeout (e : KEnv) (n : Nat) (x : KRun) : KRun :=
  match xingRec e.st n with
  | none => x
  | some c =>
    let y := xst x.k n
    if y.cs = .closing && imgReached x.k.image.num (imgAdd y.since (e.images (c.closeS * secNs))) then
      let x := kEv 41 n (modCross n (fun y => { y with cs := .closingFailed, since := x.k.image.num }) x)
      (xingRoutes e.st x.k n).foldl (fun x r => transition10 e r cXTimeout n x) x
    else x

/-- CROSSING_OPEN_SLOW (R159). -/
def crossingSlow (e : KEnv) (n : Nat) (x : KRun) : KRun :=
  match xingRec e.st n with
  | none => x
  | some c =>
    let y := xst x.k n
    if y.cs = .opening && !y.slow && imgReached x.k.image.num (imgAdd y.since (e.images (c.openS * secNs))) then
      kRec 1 41 cOpenSlow 0xFFFF (be 2 n) (kEv 41 n (modCross n (fun y => { y with slow := true }) x))
    else x

/-- CROSSING_RECOVERED (R160): the closed input active for the recovery time, and in at least one image. -/
def crossingRecovered (e : KEnv) (n : Nat) (x : KRun) : KRun :=
  match xingRec e.st n with
  | none => x
  | some c =>
    let y := xst x.k n
    if y.cs = .forcedOpen && 0 < y.run && e.images ((filterRec e.st c.closed.fclass).recMs * 1000000) ≤ y.run then
      modCross n (fun y => { y with cs := .closed, since := x.k.image.num }) x
    else x

/-- A route's list and overlap as a release scope (R171). -/
def routeScope (st : Station) (r : RouteRec) (s : RouteSt) : List Nat :=
  (routeSecs st r).map (·.sec) ++ (match ovlAt st r s.ovl with | some o => (ovlSecs st r o).map (·.sec) | none => [])

/-- KEY_TIMER_EXPIRY (R169, R171): a key's timer, or a route's emergency release. -/
def keyExpiry (e : KEnv) (key : Bool) (n : Nat) (x : KRun) : KRun :=
  if key then
    match keyRec e.st n with
    | none => x
    | some y =>
      let t := tabGet x.k.keys n KeySt.init
      if t.timing && t.remain = 0 then
        let x := onK (fun k => { k with keys := tabPut k.keys n { t with timing := false, done := true } }) x
        let x := keyRelease e n cKeyRelease y.scope none (keyRecord n 0xFFFF 0xFFFF 0 x)
        sequence e x
      else x
  else
    match x.k.emRels.find? (fun m => m.route = n && m.remain = 0), routeRec e.st n with
    | some m, some r =>
      let x := onK (fun k => { k with emRels := k.emRels.filter (fun v => v.route ≠ n) }) x
      let x := keyRelease e m.session cEmRelease (routeScope e.st r (rst x.k n)) (some n) (keyRecord m.session n 0xFFFF 0 x)
      sequence e x
    | _, _ => x

/-- EMERGENCY_RELEASE (R171): starts a release of a route, or answers a code. -/
def emergencyRelease (e : KEnv) (session n : Nat) (x : KRun) : KRun :=
  let out (c : Nat) (x : KRun) : KRun := keyRecord session n 0xFFFF c (onK (fun k => { k with emOutcome := c }) x)
  let s := rst x.k n
  match routeRec e.st n with
  | none => out cWrongState x
  | some r =>
    if s.state ≠ .occupied && s.state ≠ .releasing then out cWrongState x
    else if x.k.emRels.any (fun m => m.route = n) then out 0 x
    else if 16 ≤ x.k.emRels.length then out cEmFull x
    else out 0 (onK (fun k => { k with emRels := k.emRels ++ [{ route := n, remain := e.images (r.opS * secNs), session := session }] }) x)

/-- EMERGENCY_RELEASE_END_ALL (R171): every running one ends with KEY-DROPPED. DEDUCED, log 113 (unsafe). -/
def emergencyEndAll (session : Nat) (x : KRun) : KRun :=
  let rs := x.k.emRels
  let x := onK (fun k => { k with emRels := [], emOutcome := 0 }) x
  rs.foldl (fun x m => keyRecord session m.route 0xFFFF cKeyDropped x) x

end Sys2Proof.Machine
end

