-- ==== Sys2Proof/Machine/Authority.lean ====
section
/-! DEFINITION. The authority engine (R189 to R201): the walk ahead of a tracked carrier, its limits (Table 5.4), the
restrictions of the application program, and the authority records of the slots (Table 5.5). -/

namespace Sys2Proof.Machine

/-- A stretch of the walk inside one section: from `c` at distance `d0` to its way out at `out`. -/
structure Seg where
  sec : Nat
  c : Int
  dir : Dir
  d0 : Int
  out : Int
  deriving DecidableEq, Repr

/-- Where an authority ends. -/
structure AuthEnd where
  limit : Nat
  dist : Int
  line : Nat
  chain : Int
  sec : Nat
  deriving DecidableEq, Repr

/-- Total stretch of a span (R138). -/
def spanLen (c : Carrier) : Nat := if c.dir = .unknown then 2 * (c.len + max c.fu c.ru) else c.len + c.fu + c.ru

/-- A place lies inside a carrier's span. -/
def inStretch (st : Station) (c : Carrier) (q : Place) : Bool :=
  let back : Dir := if c.dir = .unknown then .falling else opposite c.dir
  c.far.any (fun f => match distTo st f.sec f.chain back q with
    | some (n, _) => 0 < n && n < spanLen c
    | none => false)

/-- The spans of two tracked carriers overlap (R192). -/
def spansOverlap (st : Station) (a b : Carrier) : Bool :=
  a.span.any b.span.contains &&
  ((b.far ++ b.rear).any (inStretch st a) || (a.far ++ a.rear).any (inStretch st b) ||
   (a.far.any b.far.contains && a.rear.any b.rear.contains) || (a.far.any b.rear.contains && a.rear.any b.far.contains) ||
   (a.dir = b.dir && (a.far.any b.far.contains || a.rear.any b.rear.contains)))

/-- Spans that stand as obstacles of lost carriers (Table 5.2, transition 12). -/
def lostOn (k : Kernel) (n : Nat) : Bool :=
  (k.carriers.map (·.2)).any (fun c => (c.ts = .lost || (c.ts = .candidate && c.wasLost)) && c.span.contains n)

/-- A route grants authority behind its entry signal to a carrier in it (R189 case 1). -/
def grantsInside (s : RouteSt) : Bool := s.state = .occupied || (s.state = .releasing && !s.approachRel)

/-- A carrier's span overlaps an unreleased section of a route's list. -/
def onRoute (st : Station) (c : Carrier) (r : RouteRec) (s : RouteSt) : Bool :=
  (heldList st r s).any (fun p => match p.1 with | .sec n => c.span.contains n | _ => false)

/-- A carrier's span covers the chainage of a route's entry signal (R189 case 2). -/
def coversEntry (st : Station) (c : Carrier) (r : RouteRec) : Bool :=
  match sigRec st r.entry with
  | some g => c.span.contains (startSec st r) && (c.span.contains g.sec ||
      c.rear.any (fun q => q.sec = startSec st r && (secRec st q.sec).any (fun y => entryOf y r.dir = q.chain)))
  | none => false

/-- What the walk knows when it stands in a section: the route it follows, routes entered by their signal, the
overlap it runs in, whether it passed a signal that faces it, sections and points passed. -/
structure WalkCtx where
  entered : List Nat
  ovlOf : Option Nat
  passed : Bool
  count : Nat
  prev : Option Nat
  deriving DecidableEq, Repr

/-- Routes that open a section to a carrier in a direction, by case 1 or 2 of R189. -/
def openRoutes (e : KEnv) (k : Kernel) (c : Carrier) (w : WalkCtx) (n : Nat) (d : Dir) : List RouteRec :=
  ((holders e.st k).filter (fun h =>
    (heldList e.st h.1 h.2).any (fun p => p.1 = .sec n && p.2 = d) &&
    ((grantsInside h.2 && onRoute e.st c h.1 h.2) ||
     (h.2.state = .cleared && (w.entered.contains h.1.num || coversEntry e.st c h.1))))).map (·.1)

/-- A section is free (LSTATE 0). -/
def secFree (e : KEnv) (k : Kernel) (n : Nat) : Bool :=
  (secHolds e.st (holders e.st k) n).isEmpty && (blockOn e.st k n).isNone

/-- How a section is open to a carrier (R189): 1 by a route, 3 by the overlap, 4 by approach, 0 not. -/
def openCase (e : KEnv) (k : Kernel) (c : Carrier) (w : WalkCtx) (n : Nat) (d : Dir) : Nat :=
  if !(openRoutes e k c w n d).isEmpty then 1
  else if w.ovlOf.any (fun r => (secHolds e.st (holders e.st k) n).any (fun h => h.route = r && h.how = .ovl)) then 3
  else if secFree e k n && !w.passed then 4 else 0

/-- A point is good for the walk in a position: locked or flank-locked there, detected there, not LOST, not moving. -/
def pointGood (e : KEnv) (k : Kernel) (p pos : Nat) : Bool :=
  (ptHolds e.st (holders e.st k) p).any (fun h => lockedState h.state && h.pos = pos) &&
  detOf e.st (bimg k) p = some pos && !(pst k p).lost && (pst k p).mv.isNone

/-- A crossing that is not closed protects a section (LIMIT 8). -/
def xingOpenOn (e : KEnv) (k : Kernel) (n : Nat) : Bool :=
  e.st.crossings.any (fun c => c.prot.contains n && !xingClosed k c.num)

/-- A signal that faces the walk at the way out of a section. -/
def facingSignal (e : KEnv) (x : SectionRec) (d : Dir) (ex : Exit) : Option SignalRec := signalAt e.st x d ex

/-- The route a walk enters by passing a signal (R190): cleared, its aspect commanded, its list going on with the
next section. -/
def enteredBy (e : KEnv) (k : Kernel) (g : SignalRec) (next : Nat) : Option RouteRec :=
  match (gst k g.num).route.bind (routeRec e.st) with
  | some r => if (rst k r.num).state = .cleared && sentAspect e.st k g ≠ 0 && startSec e.st r = next then some r else none
  | none => none

/-- Most sections and points of a walk (LIMIT 12). -/
def walkMax : Nat := 128

/-- Line of a section. -/
def lineOf (st : Station) (n : Nat) : Nat := ((secRec st n).map SectionRec.line).getD 0xFFFF

/-- The lowest of the limits that apply at one place. -/
def minLimit (l : List Nat) : Option Nat := lowest l

/-- The walk from a place in an open section (R189 to R191): its stretches and the nearest limit on it. A limit that leaves
the next section open (GHOST, a detected point, a crossing) ends the authority; the walk goes on past it, for the carriers
ahead whose margin reaches back over it. `fuel` covers the 128 sections and points. DEDUCED, log 101 (safe). -/
def authWalk (e : KEnv) (k : Kernel) (c : Carrier) : Nat → WalkCtx → Nat → Int → Dir → Int → List Seg × AuthEnd
  | 0, _, n, ch, _, d0 => ([], { limit := 12, dist := d0, line := lineOf e.st n, chain := ch, sec := n })
  | fuel + 1, w, n, ch, d, d0 =>
    match secRec e.st n with
    | none => ([], { limit := 4, dist := d0, line := 0xFFFF, chain := ch, sec := n })
    | some x =>
      match (exitsDet e.st (bimg k) x ch d).head? with
      | none => ([], { limit := 7, dist := d0, line := x.line, chain := ch, sec := n })
      | some ex =>
        let seg : Seg := { sec := n, c := ch, dir := d, d0 := d0, out := ex.at_ }
        let d1 : Int := d0 + (ex.at_ - ch).natAbs
        let here (l : Nat) : List Seg × AuthEnd := ([seg], { limit := l, dist := d1, line := x.line, chain := ex.at_, sec := n })
        let routes := openRoutes e k c w n d
        let lastOf := routes.filter (fun r => (routeSecs e.st r).getLast?.any (fun p => p.sec = n))
        let atOvlEnd : Bool := w.ovlOf.any (fun r => match (routeRec e.st r).bind (fun rr => (ovlAt e.st rr (rst k r).ovl).map (fun o => ovlSecs e.st rr o)) with
          | some ps => ps.getLast?.any (fun p => p.sec = n)
          | none => false)
        let sig := facingSignal e x d ex
        match ex.nxt with
        | .bnd _ => here ((minLimit ((if lastOf.isEmpty then [] else [1]) ++ (if atOvlEnd then [2] else []) ++ (if sig.isSome then [3] else []) ++ [10])).getD 10)
        | .stop => here ((minLimit ((if lastOf.isEmpty then [] else [1]) ++ (if atOvlEnd then [2] else []) ++ (if sig.isSome then [3] else []) ++ [11])).getD 11)
        | .sec m c' d' =>
          let onto := sig.bind (fun g => enteredBy e k g m)
          let intoOvl := if onto.isSome then none else lastOf.find? (fun r =>
            (heldOvl e.st r (rst k r.num)).any (fun p => p.1 = .sec m))
          let ovlOf := match intoOvl with
            | some r => some r.num
            | none => if onto.isSome || !lastOf.isEmpty then none else w.ovlOf
          let pt := (secRec e.st m).bind (fun y => ((exitsDet e.st (bimg k) y c' d').head?).bind (fun ex2 => pointTaken e.st y d' (some n) ex2))
          let facingUndet := (secRec e.st m).any (fun y => (facingPoint e.st y c' d').any (fun p => (detected (bimg k) p).isNone))
          let w' : WalkCtx := { entered := (onto.map (·.num)).toList ++ w.entered, ovlOf := ovlOf,
                                passed := w.passed || sig.isSome, prev := some n,
                                count := w.count + 1 + b2n pt.isSome }
          let stopHere :=
            (if !lastOf.isEmpty && onto.isNone && intoOvl.isNone then [1] else []) ++
            (if atOvlEnd && onto.isNone then [2] else []) ++
            (if sig.isSome && onto.isNone && intoOvl.isNone then [3] else [])
          let stopNext :=
            (if openCase e k c w' m d' = 0 then [4] else []) ++
            (if ghost e.st k m || lostOn k m then [6] else []) ++
            (if facingUndet || pt.any (fun p => !pointGood e k p.1 p.2) then [7] else []) ++
            (if xingOpenOn e k m then [8] else []) ++
            (if walkMax < w'.count then [12] else [])
          let next (l : Nat) : AuthEnd := { limit := l, dist := d1, line := lineOf e.st m, chain := c', sec := n }
          match minLimit (stopHere ++ stopNext) with
          | some l =>
            if l ≤ 3 then here l
            else if l = 4 || facingUndet || walkMax < w'.count then ([seg], next l)
            else (seg :: (authWalk e k c fuel w' m c' d' d1).1, next l)
          | none =>
            let r := authWalk e k c fuel w' m c' d' d1
            (seg :: r.1, r.2)

/-- The place at a distance on the walk; behind the far front, back along the track. -/
def placeAt (st : Station) (img : BusImage) (segs : List Seg) (d : Int) : Option Place :=
  match segs.head? with
  | none => none
  | some s0 =>
    if d < 0 then (spread st img spanFuel s0.sec s0.c (opposite s0.dir) d.natAbs).ends.head?
    else
      (segs.find? (fun s => d ≤ s.d0 + (s.out - s.c).natAbs)).map (fun s => ⟨s.sec, along s.dir s.c (d - s.d0).natAbs⟩)

/-- An end at a distance with a limit. Behind the far front the authority enters no section but that of the far front (Table
5.5), and a place beyond the end of the track is given at that end. DESIGN CHOICE, log 106 (unsafe). -/
def endAt (e : KEnv) (k : Kernel) (segs : List Seg) (l : Nat) (d : Int) (dflt : AuthEnd) : AuthEnd :=
  match placeAt e.st (bimg k) segs d with
  | some q =>
    let sec := if d < 0 then ((segs.head?).map Seg.sec).getD q.sec else q.sec
    { limit := l, dist := d, line := lineOf e.st q.sec, chain := q.chain, sec := sec }
  | none => { dflt with limit := l, dist := d }

/-- Distance on the walk of a place of it. -/
def onSegs (segs : List Seg) (pick : Seg → List Place) : List Int :=
  (segs.map (fun s => (pick s).filterMap (fun q =>
    if q.sec ≠ s.sec then none
    else
      let fwd : Int := if s.dir = .falling then s.c - q.chain else q.chain - s.c
      if 0 ≤ fwd && fwd ≤ (s.out - s.c).natAbs then some (s.d0 + fwd) else none))).flatten

/-- Lowest of some distances. -/
def nearest (l : List Int) : Option Int := l.foldl (fun a n => some (match a with | some m => min m n | none => n)) none

/-- The limit CARRIER-AHEAD (R192) on a walk. -/
def aheadLimit (e : KEnv) (k : Kernel) (c : Carrier) (segs : List Seg) : Option Int :=
  nearest (((tracked k).filter (fun o => o.id ≠ c.id)).filterMap (fun o =>
    let margin : Int := max (classRec e.st c.cls).safety (classRec e.st o.cls).safety
    if spansOverlap e.st c o then some (0 - margin)
    else
      (nearest (onSegs segs (fun s =>
        if o.dir = .unknown then o.far ++ o.rear else if o.dir = s.dir then o.rear else o.far))).map (fun d => d - margin)))

/-- The limit of the program's restrictions (R200, R201) on a walk; an element restriction on the section of the far
front limits at the far front. -/
def appLimit (e : KEnv) (k : Kernel) (c : Carrier) (segs : List Seg) : Option Int :=
  nearest ((k.prog.out.restrs.map (fun r => match r with
    | .sec n => (segs.filter (fun s => s.sec = n)).map (·.d0)
    | .place id line ch d =>
      if id ≠ 0xFFFF && id ≠ c.id then []
      else onSegs segs (fun s => if lineOf e.st s.sec = line && (d = .unknown || d = s.dir) then [⟨s.sec, ch⟩] else []))).flatten)

/-- A crossing, point or closed section at the far front itself. -/
def startLimit (e : KEnv) (k : Kernel) (c : Carrier) (n : Nat) (ch : Int) (d : Dir) : Option (Nat × Int) :=
  if xingOpenOn e k n then some (8, 0)
  else
    match e.st.points.find? (fun p => p.sec = n) with
    | some p =>
      let ahead : Bool := if d = .falling then p.toe ≤ ch else ch ≤ p.toe
      let prev := (p.legs.find? (fun g => c.span.contains g.1)).map (·.1)
      let pos := if p.toeDir = opposite d then detected (bimg k) p else trailPos e.st p prev
      if ahead && !(pos.any (fun j => pointGood e k p.num j)) then some (7, (p.toe - ch).natAbs) else none
    | none => none

/-- A signal that faces the carrier stands exactly at a place at the near end of a section. DEDUCED, log 102 (safe). -/
def signalBehind (st : Station) (n : Nat) (ch : Int) (d : Dir) : Option SignalRec :=
  (secRec st n).bind (fun x => (exits st x ch (opposite d)).findSome? (fun ex =>
    if ex.at_ ≠ ch then none
    else st.signals.find? (fun g =>
      (g.sec = n && g.facing = d && g.chain = ch && g.high = (d = .falling)) ||
      (match ex.nxt with
       | .sec m c' d' => g.sec = m && g.facing = opposite d' && g.chain = c' && g.high = (d' = .falling)
       | _ => false))))

/-- The toe of the undetected point that puts a far front on several legs (R659). -/
def splitToe (st : Station) (img : BusImage) (c : Carrier) : Option (Nat × Int) :=
  (st.points.find? (fun p => c.span.contains p.sec && (detected img p).isNone && p.toeDir = opposite c.dir)).map
    (fun p => (p.sec, p.toe))

/-- The end of authority of one tracked carrier (R191) with the section of its far front. A far front exactly at a signal
that faces it has not passed that signal, unless a route opens the section to it. A far front in an
overlap alone has zero authority: no walk has reached the exit. DEDUCED, log 102 (safe). DEDUCED, log 103 (safe). -/
def authorityOf (e : KEnv) (k : Kernel) (c : Carrier) : AuthEnd × Nat :=
  let none_ (l : Nat) (n : Nat) (ch : Int) : AuthEnd × Nat :=
    ({ limit := l, dist := 0, line := lineOf e.st n, chain := ch, sec := n }, n)
  if c.dir = .unknown then
    (match sectionAt e.st c.line c.front with | some y => none_ 14 y.num c.front | none => none_ 14 0xFFFF c.front)
  else
    match c.far with
    | [q] =>
      let w0 : WalkCtx := { entered := [], ovlOf := none, passed := false, count := 1, prev := none }
      if c.slot.isNone then none_ 13 q.sec q.chain
      else if openCase e k c w0 q.sec c.dir = 0 then none_ 0 q.sec q.chain
      else
        let r :=
          if (openRoutes e k c w0 q.sec c.dir).isEmpty && (signalBehind e.st q.sec q.chain c.dir).isSome then
            ([{ sec := q.sec, c := q.chain, dir := c.dir, d0 := 0, out := q.chain : Seg }], (none_ 3 q.sec q.chain).1)
          else authWalk e k c (walkMax + 2) w0 q.sec q.chain c.dir 0
        let cands : List (Nat × Int) :=
          ((startLimit e k c q.sec q.chain c.dir).toList) ++
          ((aheadLimit e k c r.1).map (fun d => (5, d))).toList ++ ((appLimit e k c r.1).map (fun d => (9, d))).toList
        let best := cands.foldl (fun (a : AuthEnd) p =>
          if p.2 < a.dist || (p.2 = a.dist && p.1 < a.limit) then endAt e k r.1 p.1 p.2 a else a) r.2
        (best, q.sec)
    | _ =>
      match splitToe e.st (bimg k) c with
      | some p => none_ 7 p.1 p.2
      | none => none_ 0 0xFFFF c.front

/-- An authority leaves its slot commanded permissive (R196). -/
def authPermissive (a : AuthRec) : Bool := 0 < a.dist && a.limit ≠ 0 && a.limit ≠ 13 && a.limit ≠ 14

/-- Drive outputs commanded (R118), the program's inhibits applied. -/
def drivesOn (k : Kernel) : List (Nat × Nat) :=
  k.points.filterMap (fun p => p.2.mv.bind (fun m =>
    if m.commanded && !k.prog.out.inhibits.any (fun i => i.1 = p.1) then some (p.1, m.pos) else none))

/-- Aspects meant as permissive. -/
def aspectPermissive (g : SignalRec) (a : Nat) : Bool := g.aspects.getD a .undefined = .permissive

/-- Permissive outputs other than slots in an image (R196). -/
def otherPermissive (e : KEnv) (k : Kernel) : Nat :=
  (e.st.signals.filter (fun g => aspectPermissive g (sentAspect e.st k g))).length + (drivesOn k).length +
  (e.st.crossings.filter (fun c => openOut e.st k c.num)).length

/-- Permissive outputs at one time (R196). -/
def permissiveMax : Nat := 2048

/-- All authorities of an image (R198): every tracked carrier, then the cut at 2,048 permissive outputs in ascending
carrier identity, event 47 for overlapping spans and for a cut; the records of the slots (Table 5.5). `report` marks the
image's first pass; a later pass of the same image counts and raises only what it adds. DEDUCED, log 111 (unsafe). -/
def runAuthorities (e : KEnv) (report : Bool) (x : KRun) : KRun :=
  let k := x.k
  let cs := k.carriers.filter (fun c => c.2.ts = .tracked)
  let res := cs.map (fun c => (c.1, c.2, authorityOf e k c.2))
  let sorted := res.foldr (fun r l =>
    let before := l.takeWhile (fun s => s.2.1.id < r.2.1.id)
    before ++ r :: l.drop before.length) []
  let out := sorted.foldl (fun (a : Nat × Nat × Tab Carrier × Tab AuthRec) r =>
    let c := r.2.1
    let en := r.2.2.1
    let rec0 : AuthRec := { carrier := c.id, limit := en.limit, dir := c.dir, line := en.line, chain := en.chain,
                            dist := en.dist, sSec := r.2.2.2, eSec := en.sec, image := k.image.num }
    let cutIt := authPermissive rec0 && permissiveMax ≤ a.1
    let rec1 := if cutIt then { rec0 with limit := 13, dist := 0 } else rec0
    let used := if authPermissive rec1 then a.1 + 1 else a.1
    let c' := { c with limit := rec1.limit, eLine := rec1.line, eChain := rec1.chain, dist := rec1.dist,
                       sSec := rec1.sSec, eSec := rec1.eSec }
    let full := cutIt || en.limit = 13
    (used, a.2.1 + b2n full, tabPut a.2.2.1 r.1 c',
     match c.slot with | some v => tabPut a.2.2.2 v rec1 | none => a.2.2.2))
    (otherPermissive e k, 0, k.carriers, [])
  let overlap := cs.any (fun a => cs.any (fun b => a.1 < b.1 && spansOverlap e.st a.2 b.2))
  let told := if report then 0 else (cs.filter (fun c => c.2.limit = 13)).length
  let x := onK (fun k => { k with
    carriers := out.2.2.1, auths := out.2.2.2, capCut := sat 0xFFFFFFFF (k.capCut + (out.2.1 - told)) }) x
  let x := if overlap && (report || !x.evs.any (fun v => v.event = 47)) then kEv 47 noDetail x else x
  if out.2.1 ≠ 0 && told = 0 then kEv 47 noDetail x else x

/-- An authority record as sent (Table 5.5). -/
def authBytes (a : AuthRec) : List Byte :=
  be 2 a.carrier ++ be 1 (a.limit % 16) ++ be 1 (dirCode a.dir) ++ be 2 a.line ++ beI 4 a.chain ++ beI 4 a.dist ++
  be 2 a.sSec ++ be 2 a.eSec ++ be 2 0 ++ be 4 a.image

end Sys2Proof.Machine
end

