-- ==== Sys2Proof/Machine/Program.lean ====
section
/-! DEFINITION. The application program in a lane (R282 to R327): the application step, its faults and the fault
substitution, online change, variables and forces. -/

namespace Sys2Proof.Machine

/-- The program state that counts: what an armed change rests on, else the state itself. -/
def progRuns (p : ProgSt) : PState := if p.ps = .armed then p.under else p.ps

/-- Program state codes (object 0x7000 sub 1). -/
def pstateCode : PState → Nat
  | .none => 0
  | .running => 1
  | .armed => 2
  | .stopped => 3
  | .faulted => 4

/-- The program changed. -/
def onProg (f : ProgSt → ProgSt) (x : KRun) : KRun := onK (fun k => { k with prog := f k.prog }) x

/-- A variable of a program by reference. -/
def varOf (vs : List VarSt) (r : VarRef) : Option VarSt := vs.find? (fun v => v.ref = r)

/-- Forces over variables (R319): a forced variable holds the forced value. -/
def forceAll (fs : List Force) (vs : List VarSt) : List VarSt :=
  vs.map (fun v => match fs.find? (fun f => f.ref = v.ref) with | some f => { v with value := f.value } | none => v)

/-- Channels in place of a program that does not run or has faulted (R299). -/
def substitution (k : Kernel) (p : Program) : AppOut :=
  { AppOut.none with
    stops := p.scope.sigs, inhibits := p.scope.points.map (fun n => (n, 0)), holdClosed := p.scope.xings,
    restrs := if p.scope.auth then (tracked k).filterMap (fun c => c.far.head?.map (fun q => Restr.sec q.sec)) else [],
    nonVital := p.nonVitalDflt, no := p.noDflt }

/-- One timer or edge block in one image (R295, R308, R309): inputs, running, elapsed; an expiry of its own row. -/
def stepBlock (e : KEnv) (p : Program) (k : Kernel) (b : VlBlock) : VlBlock :=
  let i := Config.blockInput p k b.ref
  let ms := e.cycle / 1000000
  match b.kind with
  | .ton =>
    if !i then { b with input := false, out := false, running := false, elapsed := 0, fresh := false }
    else if !b.running && !b.out then { b with input := true, running := true, elapsed := 0, fresh := false }
    else { b with input := true, elapsed := if b.running then b.elapsed + ms else b.elapsed, fresh := false }
  | .tof =>
    if i then { b with input := true, out := true, running := false, elapsed := 0, fresh := false }
    else if b.input then { b with input := false, running := true, elapsed := 0, fresh := false }
    else { b with elapsed := if b.running then b.elapsed + ms else b.elapsed, fresh := false }
  | .tp =>
    if b.running then { b with input := i, elapsed := b.elapsed + ms, fresh := false }
    else if i && !b.input then { b with input := true, out := true, running := true, elapsed := 0, fresh := false }
    else { b with input := i, fresh := false }
  | .rise => { b with input := i, out := !b.fresh && i && !b.input, fresh := false }
  | .fall => { b with input := i, out := !b.fresh && !i && b.input, fresh := false }

/-- Restrictions one image may set (R300). -/
def restrMax : Nat := 4096

/-- The fault of an application step, if any, with the instance (R298 to R300). DESIGN CHOICE, log 30 (safe). -/
def stepFault (p : Program) (k : Kernel) (vs : List VarSt) (out : AppOut) : Option (Nat × Nat) :=
  if ((Config.appInstr p k).zip p.instrBounds).any (fun q => q.2 < q.1) then some (0x5201, 0)
  else match Config.appFault p k vs with
    | some f => some f
    | none => if restrMax < out.restrs.length then some (0x5204, 0) else none

/-- Application events a step arms (R136): each block holds one, its older one replaced. -/
def armApp (e : KEnv) (l : List SEvent) (x : KRun) : KRun :=
  l.foldl (fun x v =>
    let v' := { v with app := true, image := x.k.image.num }
    arm e v' (onK (fun k => { k with events := k.events.filter (fun w => !(w.app && w.owner = v.owner)) }) x)) x

/-- The instances run on some variables and blocks (R294, R299). -/
def runInstances (e : KEnv) (p : Program) (vs : List VarSt) (x : KRun) : KRun :=
  let k := x.k
  let r := Config.appStep p k vs k.prog.blocks
  let vs' := forceAll k.prog.forces r.2
  match stepFault p k vs r.1 with
  | none => armApp e r.1.arms (onProg (fun q => { q with vars := vs', out := r.1, faultRun := 0 }) x)
  | some f =>
    let x := onProg (fun q => { q with vars := vs', out := substitution k p, faultRun := q.faultRun + 1,
                                       faults := sat 0xFFFFFFFF (q.faults + 1), lastFault := f.1, lastInst := f.2 }) x
    kRec 1 80 f.1 0xFFFF (be 2 f.1 ++ be 8 f.2 ++ be 4 k.image.num) (kEv 80 f.1 x)

/-- The application step of an image (R294). -/
def appImage (e : KEnv) (x : KRun) : KRun :=
  match x.k.prog.prog with
  | none => onProg (fun q => { q with out := AppOut.none }) x
  | some p =>
    match progRuns x.k.prog with
    | .running =>
      let vs := forceAll x.k.prog.forces x.k.prog.vars
      let x := onProg (fun q => { q with pre := vs, blocks := q.blocks.map (stepBlock e p x.k) }) x
      runInstances e p vs x
    | .stopped | .faulted => onProg (fun q => { q with out := substitution x.k p }) x
    | .none | .armed => onProg (fun q => { q with out := AppOut.none }) x

/-- VL_TIMER_EXPIRY (R308): a running timer whose elapsed time meets its preset changes its output in this image. -/
def timerExpiry (e : KEnv) (ref : Nat) (x : KRun) : KRun :=
  match x.k.prog.prog, x.k.prog.blocks.find? (fun b => b.ref = ref) with
  | some p, some b =>
    let done : Bool := b.running && b.preset ≤ b.elapsed && progRuns x.k.prog = .running && x.k.prog.faultRun = 0
    let put (b' : VlBlock) : KRun :=
      runInstances e p x.k.prog.pre
        (onProg (fun q => { q with blocks := q.blocks.map (fun c => if c.ref = ref then b' else c) }) x)
    if !done then x
    else
      match b.kind with
      | .ton => put { b with out := true, running := false }
      | .tof => put { b with out := false, running := false }
      | .tp => put { b with out := false, running := false }
      | .rise | .fall => x
  | _, _ => x

/-- PROGRAM_FAULTED (R301). -/
def progFaulted (e : KEnv) (x : KRun) : KRun :=
  match x.k.prog.prog with
  | none => x
  | some p =>
    if progRuns x.k.prog = .running && e.faultStop ≤ x.k.prog.faultRun then
      let put (q : ProgSt) : ProgSt := if q.ps = .armed then { q with under := .faulted } else { q with ps := .faulted }
      kEv 81 4 (onProg (fun q => { put q with out := substitution x.k p }) x)
    else x

/-- STOP (R301). -/
def progStop (x : KRun) : KRun :=
  match x.k.prog.prog with
  | none => onProg (fun q => { q with outcome := 0 }) x
  | some p =>
    let put (q : ProgSt) : ProgSt := if q.ps = .armed then { q with under := .stopped } else { q with ps := .stopped }
    if progRuns x.k.prog = .running then
      kEv 81 3 (onProg (fun q => { put q with out := substitution x.k p, outcome := 0 }) x)
    else onProg (fun q => { q with outcome := 0 }) x

/-- A program that no start command frees (R287, R304): LIBRARY-ABSENT, STATION-DATA-MISMATCH. -/
def unfit (q : ProgSt) : Bool := q.lastFault = 0x5205 || q.lastFault = 0x5007

/-- START (R301). -/
def progStart (x : KRun) : KRun :=
  if progRuns x.k.prog = .stopped || progRuns x.k.prog = .faulted then
    if unfit x.k.prog then onProg (fun q => { q with outcome := q.lastFault }) x
    else
      let put (q : ProgSt) : ProgSt := if q.ps = .armed then { q with under := .running } else { q with ps := .running }
      kEv 81 1 (onProg (fun q => { put q with faultRun := 0, outcome := 0 }) x)
  else onProg (fun q => { q with outcome := 0 }) x

/-- A change armed in an image (R306). -/
def progArmed (lead : Nat) (x : KRun) : KRun :=
  kEv 82 0x5101 (onProg (fun q => { q with under := q.ps, ps := .armed, switchImg := imgAdd x.k.image.num lead, outcome := 0x5101 }) x)

/-- An armed change aborted, or NOT-ARMED (R310). -/
def progAborted (x : KRun) : KRun :=
  if x.k.prog.ps = .armed then
    kEv 82 0x5104 (onProg (fun q => { q with ps := q.under, switchImg := 0, outcome := 0x5104 }) x)
  else onProg (fun q => { q with outcome := 0x5103 }) x

/-- The instance of a program. -/
def instOf (p : Program) (id : Nat) : Option InstRec := p.insts.find? (fun i => i.id = id)

/-- A variable's value after an online change (Table 8.4). -/
def carryVar (old new : Program) (vs : List VarSt) (v : VarSt) : VarSt :=
  match instOf old v.ref.inst, instOf new v.ref.inst with
  | some a, some b =>
    if a.type ≠ b.type then { v with value := v.dflt }
    else
      match varOf vs v.ref with
      | some w =>
        if a.ver = b.ver || w.type = v.type then { v with value := w.value } else { v with value := v.dflt }
      | none => { v with value := v.dflt }
  | _, _ => { v with value := v.dflt }

/-- A timer or edge block after an online change (R308, R309). -/
def carryBlock (old : List VlBlock) (b : VlBlock) : VlBlock :=
  match old.find? (fun c => c.ref = b.ref && c.kind = b.kind) with
  | some c => { c with preset := b.preset }
  | none => { b with input := false, out := false, running := false, elapsed := 0, fresh := true }

/-- A force at an online change (R321): kept, or dropped with a code. -/
def forceFate (new : Program) (olds : List VarSt) (f : Force) : Option Nat :=
  match varOf new.vars f.ref with
  | none => some 0x5311
  | some v =>
    if v.vital then some 0x5312
    else if (varOf olds f.ref).any (fun w => w.type ≠ v.type) then some 0x5313 else none

/-- The online change (R307 to R309, R321): the new program with carried instance data, the dropped forces recorded,
instances of another block type recorded. -/
def switchProgram (new : Program) (x : KRun) : KRun :=
  let q := x.k.prog
  let vs : List VarSt := match q.prog with
    | some old => new.vars.map (carryVar old new q.vars)
    | none => new.vars.map (fun v => { v with value := v.dflt })
  let retyped : List InstRec := match q.prog with
    | some old => new.insts.filter (fun b => (instOf old b.id).any (fun a => a.type ≠ b.type))
    | none => []
  let fates := q.forces.map (fun f => (f, forceFate new q.vars f))
  let x := onProg (fun q => { q with
    ps := .running, under := .running, prog := some new, vars := vs, pre := vs,
    blocks := new.blocks.map (carryBlock q.blocks), forces := (fates.filter (fun p => p.2.isNone)).map (·.1),
    faultRun := 0, origin := 2, outcome := 0, lastFault := if unfit q then 0 else q.lastFault }) x
  let x := retyped.foldl (fun x b => kRec 3 0xFF 0 0xFFFF (be 8 b.id) x) x
  let x := fates.foldl (fun x p => match p.2 with
    | some c => kRec 1 84 c 0xFFFF (be 8 p.1.ref.inst ++ be 2 p.1.ref.field ++ p.1.value) (kEv 84 c x)
    | none => x) x
  kEv 82 0 x

/-- A host write to a variable (R313, R315, R319): the code 0x0000, or the refusal. -/
def varWrite (ref : VarRef) (val : List Byte) (x : KRun) : KRun × Nat :=
  match varOf x.k.prog.vars ref with
  | none => (x, 0x5302)
  | some v =>
    if !v.hostw then (x, 0x5305)
    else if val.length ≠ v.value.length then (x, 0x5304)
    else
      let vs := forceAll x.k.prog.forces (x.k.prog.vars.map (fun w => if w.ref = ref then { w with value := val } else w))
      (onProg (fun q => { q with vars := vs }) x, 0)

/-- Order of references (force table, object 0x7020 sub 4). -/
def refBefore (a b : VarRef) : Bool := a.inst < b.inst || (a.inst = b.inst && a.field < b.field)

/-- A force put in ascending reference. -/
def forcePut (f : Force) : List Force → List Force
  | [] => [f]
  | g :: l => if f.ref = g.ref then f :: l else if refBefore f.ref g.ref then f :: g :: l else g :: forcePut f l

/-- Forces the module holds at most (R317). -/
def forceMax : Nat := 256

/-- Record and event 83 of a force set or removed. -/
def forceRecord (session : Nat) (ref : VarRef) (val : List Byte) (x : KRun) : KRun :=
  kRec 2 83 0 session (be 8 ref.inst ++ be 2 ref.field ++ val) (kEv 83 session x)

/-- The outcome of a force request (object 0x7020 sub 2). -/
def forceOut (c : Nat) (x : KRun) : KRun := onProg (fun q => { q with forceOutcome := c }) x

/-- FORCE_SET (R317 to R319). -/
def forceSet (session : Nat) (ref : VarRef) (val : List Byte) (x : KRun) : KRun :=
  match varOf x.k.prog.vars ref with
  | none => forceOut 0x5302 x
  | some v =>
    if v.vital then forceOut 0x5301 x
    else if 64 < v.value.length || val.length ≠ v.value.length then forceOut 0x5304 x
    else if !x.k.prog.forces.any (fun f => f.ref = ref) && forceMax ≤ x.k.prog.forces.length then forceOut 0x5303 x
    else
      forceRecord session ref val (forceOut 0 (onProg (fun q =>
        let fs := forcePut { ref := ref, value := val, image := x.k.image.num } q.forces
        { q with forces := fs, vars := forceAll fs q.vars }) x))

/-- FORCE_REMOVE (R317). -/
def forceRemove (session : Nat) (ref : VarRef) (x : KRun) : KRun :=
  match x.k.prog.forces.find? (fun f => f.ref = ref) with
  | none => forceOut 0x5306 x
  | some f =>
    forceRecord session ref f.value (forceOut 0 (onProg (fun q => { q with forces := q.forces.filter (fun g => g.ref ≠ ref) }) x))

/-- FORCE_REMOVE_ALL (R317). -/
def forceRemoveAll (session : Nat) (x : KRun) : KRun :=
  let fs := x.k.prog.forces
  let x := forceOut 0 (onProg (fun q => { q with forces := [] }) x)
  fs.foldl (fun x f => forceRecord session f.ref f.value x) x

/-- A program at a start (R301, R322, R324, R325): warm keeps RETAIN variables, timers and edges; forces go with one
record each. -/
def progRestart (warm : Bool) (x : KRun) : KRun :=
  let fs := x.k.prog.forces
  let x := onProg (fun q =>
    match q.prog with
    | none => { ProgSt.init with outcome := 0 }
    | some p =>
      let vs := q.vars.map (fun v => if warm && v.retain then v else { v with value := v.dflt })
      let bs := if warm then q.blocks else p.blocks.map (fun b => { b with input := false, out := false, running := false, elapsed := 0, fresh := true })
      { q with ps := .running, under := .running, vars := vs, pre := vs, blocks := bs, forces := [], out := AppOut.none,
               faultRun := 0, origin := if warm then 1 else 0, switchImg := 0 }) x
  fs.foldl (fun x f => kRec 1 0xFF 0x5314 0xFFFF (be 8 f.ref.inst ++ be 2 f.ref.field ++ f.value) x) x

/-- A program stopped at a start because it does not fit (R287, R304). -/
def progUnfit (code : Nat) (x : KRun) : KRun :=
  match x.k.prog.prog with
  | none => x
  | some p => kEv 81 3 (onProg (fun q => { q with ps := .stopped, lastFault := code, out := substitution x.k p }) x)

/-- Variable descriptor word (Table 8.10). -/
def varDescriptor (p : ProgSt) (ref : VarRef) : Nat :=
  match varOf p.vars ref with
  | none => 0
  | some v =>
    v.value.length % 65536 * 2 ^ 16 + v.type % 256 * 2 ^ 8 + b2n v.vital * 2 ^ 7 + b2n v.retain * 2 ^ 6 +
    b2n v.hostw * 2 ^ 5 + b2n (p.forces.any (fun f => f.ref = ref)) * 2 ^ 4 +
    b2n ((p.prog.map (fun g => g.exports.any (fun x => x.2.2 = ref))).getD false) * 2 ^ 3

end Sys2Proof.Machine
end

