-- ==== Sys2Proof/Machine/LaneObj.lean ====
section
/-! DEFINITION. Dictionary writes and RC reads of the lane objects that hold kernel or program state (Tables 3.8, 4.6,
5.6, 8.8): applied to the image at the tick (R28, R546), answered as R548 says. -/

namespace Sys2Proof.Machine

/-! Result codes of Table 14.6. -/

def rOk : Nat := 0
def rBadRequest : Nat := 1
def rSession : Nat := 2
def rSessionFull : Nat := 3
def rCredential : Nat := 4
def rLockedOut : Nat := 5
def rUnknown : Nat := 6
def rAbsent : Nat := 7
def rLevel : Nat := 8
def rKey : Nat := 9
def rAccess : Nat := 10
def rLength : Nat := 11
def rRange : Nat := 12
def rReservedBit : Nat := 13
def rStandby : Nat := 14
def rModuleState : Nat := 15
def rBusy : Nat := 16
def rUnconfirmed : Nat := 17
def rFunction : Nat := 18
def rProxy : Nat := 19

/-- A variable reference (R284): instance U64, field U16. -/
def varRefOf (l : List Byte) : VarRef := ⟨field l 0 8, field l 8 2⟩

/-- A result record as read (Table 3.2). -/
def resultBytes (r : ResultRec) : List Byte :=
  be 4 r.tag ++ be 1 r.cls ++ be 1 r.kind ++ be 2 r.target ++ be 2 r.code ++ be 2 r.detail ++ be 4 r.image

/-- A function's outcome as a reply: OK, or FUNCTION with its code. -/
def functionReply (code : Nat) (ok : List Byte) : Nat × List Byte :=
  if code = 0 then (rOk, ok) else (rFunction, be 2 code)

/-- Value of a variable. -/
def varValue (k : Kernel) (r : VarRef) : List Byte := ((varOf k.prog.vars r).map (·.value)).getD []

/-- Variable of an exported object (R316). -/
def exportRef (k : Kernel) (index sub : Nat) : Option VarRef :=
  (k.prog.prog.bind (fun p => p.exports.find? (fun y => y.1 = index && y.2.1 = sub))).map (·.2.2)

/-- A host write to a variable with its reply (R313 to R315). -/
def varObj (r : VarRef) (val : List Byte) (x : KRun) : KRun × Nat × List Byte :=
  let y := varWrite r val x
  if y.2 = 0 then (y.1, rOk, varValue y.1.k r) else (y.1, rFunction, be 2 y.2)

/-- The program command (object 0x7001 sub 1): arm with the commons' verdict and lead, abort, stop, start. -/
def progObj (cmd aux lead : Nat) (x : KRun) : KRun :=
  if cmd = 1 then
    (if x.k.prog.ps = .armed then onProg (fun q => { q with outcome := 0x500E }) x
     else if aux ≠ 0 then onProg (fun q => { q with outcome := aux }) x else progArmed lead x)
  else if cmd = 2 then progAborted x
  else if cmd = 3 then progStop x
  else progStart x

/-- Outcomes of a program command that are refusals (Table 8.7). -/
def progRefusal (cmd code : Nat) : Nat := if (cmd = 1 && code = 0x5101) || (cmd = 2 && code = 0x5104) then 0 else code

/-- A force request (Table 8.5). -/
def forceObj (session : Nat) (v : List Byte) (x : KRun) : KRun :=
  let r := varRefOf (cut v 2 10)
  if field v 0 1 = 1 then forceSet session r (v.drop 12) x
  else if field v 0 1 = 2 then forceRemove session r x
  else if field v 0 1 = 3 then forceRemoveAll session x
  else forceOut 0x5304 x

/-- A write to a lane object that holds kernel state. -/
def laneWrite (e : KEnv) (lead : Nat) (w : DictWrite) (x : KRun) : KRun × Nat × List Byte :=
  if w.index = 0x6030 then
    let n := field w.value 0 2
    let x := if n = 0xFFFF then emergencyEndAll w.sess x else emergencyRelease e w.sess n x
    (x, functionReply x.k.emOutcome [])
  else if w.index = 0x7001 then
    let c := field w.value 0 1
    if c = 0 || 4 < c then (x, rRange, [])
    else
      let x := progObj c w.aux lead x
      (x, functionReply (progRefusal c x.k.prog.outcome) [])
  else if w.index = 0x7010 then varObj (varRefOf w.sel) w.value x
  else if w.index = 0x7020 then
    let x := forceObj w.sess w.value x
    (x, functionReply x.k.prog.forceOutcome [])
  else match exportRef x.k w.index w.sub with
    | some r => varObj r w.value x
    | none => (x, rUnknown, [])

/-- An RC read of a lane object: the value before it was cleared. -/
def laneClear (w : DictWrite) (x : KRun) : KRun × Nat × List Byte :=
  let k := x.k
  let p := w.index - 0x6020
  let ring := tabGet k.results p ⟨[], 0⟩
  let ans (n v : Nat) (k' : Kernel) : KRun × Nat × List Byte := (onK (fun _ => k') x, rOk, be n v)
  if w.index = 0x6002 then ans 2 k.longPass { k with longPass := 0 }
  else if 0x6020 ≤ w.index && w.index ≤ 0x602F && w.sub = 1 then
    match ring.recs with
    | [] => (x, rOk, List.replicate 16 0#8)
    | r :: l => (onK (fun k => { k with results := tabPut k.results p { ring with recs := l } }) x, rOk, resultBytes r)
  else if 0x6020 ≤ w.index && w.index ≤ 0x602F then
    ans 2 ring.lost { k with results := tabPut k.results p { ring with lost := 0 } }
  else if w.index = 0x6400 && w.sub = 2 then ans 2 k.pendHigh { k with pendHigh := k.events.length }
  else if w.index = 0x6400 then ans 4 k.refusedArms { k with refusedArms := 0 }
  else if w.index = 0x6500 && w.sub = 4 then ans 2 k.carHigh { k with carHigh := k.carriers.length }
  else if w.index = 0x6500 && w.sub = 5 then ans 4 k.refusedCars { k with refusedCars := 0 }
  else if w.index = 0x6500 && w.sub = 6 then ans 2 k.longAuth { k with longAuth := 0 }
  else if w.index = 0x6500 then ans 4 k.capCut { k with capCut := 0 }
  else if w.index = 0x7000 && w.sub = 6 then ans 4 k.prog.longest { k with prog := { k.prog with longest := 0 } }
  else ans 4 k.prog.faults { k with prog := { k.prog with faults := 0 } }

/-- The dictionary requests of an image, in their order, with the answers of block 17 (R547, R548). DESIGN CHOICE, log 25
(safe). DESIGN CHOICE, log 25 (safe). -/
def laneWrites (e : KEnv) (lead : Nat) (x : KRun) : KRun × List DictAns :=
  x.k.image.writes.foldl (fun a w =>
    let r := match w.given with
      | some g => (a.1, g)
      | none => if w.write then laneWrite e lead w a.1 else laneClear w a.1
    (r.1, a.2 ++ [{ sess := w.sess, seq := w.seq, index := w.index, sub := w.sub, result := r.2.1, data := r.2.2 }]))
    (x, [])

end Sys2Proof.Machine
end

