-- ==== Sys2Proof/Machine/LaneRun.lean ====
section
/-! DEFINITION. A lane's program cycle (R29 to R31): the copies of the cycle input image and their merge, the kernel and
application step, the output image with its command blocks (Tables 6.2, 9.8), and the lanes' own checks of the image
(R407, R427). -/

namespace Sys2Proof.Machine

/-! ## The image -/

/-- Key of a local pair among the inputs that R427 counts. -/
def pairKey (n : Nat) : Nat := 16 * 1024 + n

/-- Restrictive level of a controller's input point (R48). -/
def restrictiveOf (st : Station) (key : Nat) : Bool :=
  ((inputBindings st).find? (fun b => pointKey b = key)).any (·.rval)

/-- Restrictive value of a local pair (R424). -/
def pairRestrictive (st : Station) (n : Nat) : Bool := (st.pairs.find? (fun p => p.num = n)).any (·.rval)

/-- Restrictive merge of two keyed levels: a key whose values differ takes its restrictive value. -/
def mergeLevels (r : Nat → Bool) (a b : Tab Bool) : Tab Bool :=
  ((tabKeys a ++ tabKeys b).eraseDups).foldl (fun t n =>
    match tabFind a n, tabFind b n with
    | some x, some y => tabPut t n (if x = y then x else r n)
    | _, _ => tabPut t n (r n)) []

/-- Keyed numbers of two copies ORed bit by bit. -/
def mergeOr (a b : Tab Nat) : Tab Nat :=
  ((tabKeys a ++ tabKeys b).eraseDups).foldl (fun t n => tabPut t n (tabGet a n 0 ||| tabGet b n 0)) []

/-- Per-element restrictive merge of two copies of a bus input image (R29). A clear-ahead bit that differs counts as absent,
which neither clears a signal (R114) nor stands for an occupied section (R152). -/
def mergeBus (st : Station) (a b : BusImage) : BusImage :=
  { levels := mergeLevels (restrictiveOf st) a.levels b.levels
    subst := (a.subst ++ b.subst ++ (tabKeys a.levels).filter (fun n => tabFind a.levels n ≠ tabFind b.levels n)).eraseDups
    reports := a.reports.filter (fun r => b.reports.contains r)
    pairs := mergeLevels (pairRestrictive st) a.pairs b.pairs
    pairSubst := (a.pairSubst ++ b.pairSubst ++ (tabKeys a.pairs).filter (fun n => tabFind a.pairs n ≠ tabFind b.pairs n)).eraseDups
    ni := a.ni &&& b.ni
    flags := mergeOr a.flags b.flags
    cv := mergeOr a.cv b.cv
    nonVital := a.nonVital
    clearAhead := a.clearAhead.filter b.clearAhead.contains }

/-- Restrictive merge of two copies of a cycle input image; diverged requests are dropped and reported (R94). -/
def mergeImages (st : Station) (a b : CycleImage) : CycleImage :=
  if a = b then a
  else
    let same (q : Req) : Bool := b.reqs.contains q
    { a with
      bus := mergeBus st a.bus b.bus
      replies := a.replies.filter b.replies.contains
      reqs := a.reqs.filter same
      diverged := a.diverged ++ a.reqs.filter (fun q => !same q) ++ b.reqs.filter (fun q => !a.reqs.contains q)
      hb := (a.hb.zip b.hb).map (fun p => (p.1.1 && p.2.1, p.1.2.1 && p.2.2.1, p.1.2.2 && p.2.2.2))
      run := a.run && b.run
      standby := a.standby || b.standby
      key := a.key && b.key }

/-- A lane's choice among the copies it has (R29): none, one, or the merge. -/
def chooseCopy (st : Station) : Option CycleImage → Option CycleImage → Option CycleImage
  | some a, some b => some (mergeImages st a b)
  | some a, none => some a
  | none, b => b

/-! ## The kernel's surroundings -/

/-- Address that R513 compares: the preferred member's. -/
def preferredAddr (s : State) : Nat :=
  if s.pair.partnerAddr = 0xFFFF || s.pair.preferred then s.dict.modAddr else s.pair.partnerAddr

/-- One epoch is newer than another, modulo 2¹⁶ (R394). -/
def newerEpoch (a b : Nat) : Bool :=
  let d := (a + 65536 - b % 65536) % 65536
  1 ≤ d && d ≤ 32767

/-- The newest of two epochs. -/
def newestEpoch (a b : Nat) : Nat := if newerEpoch b a then b else a

/-- The epoch a module takes with control (R506): one newer than the one kept in retained bank 0, the partner's, and every
CEPOCH of the image that is set (R395). DESIGN CHOICE, log 67 (safe). -/
def takeEpoch (s : State) : Nat :=
  let l := (if s.pair.partner.heard then [s.pair.partner.epoch] else []) ++ (s.image.cepochs.map (·.2)).filter (· ≠ 0)
  (l.foldl newestEpoch s.pair.retainedEpoch + 1) % 65536

/-- The epoch that the lanes write into envelopes (R500): the one a standby would take with control. -/
def laneEpoch (s : State) : Nat := if s.pair.role = .standby then takeEpoch s else s.pair.epoch

/-- Role in the heartbeats (Table 13.5): standby also while a pair module's role is not yet settled. -/
def roleSent (s : State) : Nat :=
  if s.pair.role = .standby || (s.pair.role = .unpaired && s.pair.partnerAddr ≠ 0xFFFF && !s.power.confirmed) then 2 else 1

/-- What a kernel step reads beside its state and image. -/
def kenv (s : State) : KEnv :=
  { st := s.cfg, set := s.set, cycle := cycleNs s, faultStop := s.progLoad.faultStop, epoch := s.pair.epoch,
    addr := s.dict.modAddr, prefAddr := preferredAddr s,
    peers := (s.casc.conns.filter (fun c => c.kind = 6)).map (fun c =>
      (c.peer, c.partner, if c.preferred || c.partner = 0xFFFF then c.peer else c.partner)),
    epochOf := s.image.cepochs,
    oneHalf := match halvesUp s with | [h] => some h | _ => none }

/-- Maximum active time of a filter class in images (R427); 0 no limit. -/
def stuckLimit (e : KEnv) (fclass : Nat) : Nat := e.images ((filterRec e.st fclass).maxS * secNs)

/-- Counts of consecutive images with an input active, and the stuck inputs that stay so (R427). -/
def countStuck (e : KEnv) (k : Kernel) : Kernel :=
  let img := k.image.bus
  let bs := (inputBindings e.st).filter (fun b => stuckLimit e b.fclass ≠ 0)
  let ps := e.st.pairs.filter (fun p => stuckLimit e p.fclass ≠ 0)
  let on : List (Nat × Bool × Bool) :=
    bs.map (fun b => (pointKey b, levelOf img b, b.rval)) ++
    ps.map (fun p => (pairKey p.num, tabGet img.pairs p.num p.rval, p.rval))
  let counts : Tab Nat := on.foldl (fun t p => if p.2.1 then tabPut t p.1 (tabGet k.stuck p.1 0 + 1) else t) []
  let now := k.stuckNow.filter (fun n => (tabFind counts n).isSome)
  { k with stuck := counts, stuckNow := now }

/-- The image with the stuck inputs at their restrictive values (R427). -/
def substituteStuck (e : KEnv) (k : Kernel) : Kernel :=
  let b := k.image.bus
  let ctl := k.stuckNow.filter (· < pairKey 0)
  let loc := (k.stuckNow.filter (pairKey 0 ≤ ·)).map (· - pairKey 0)
  let bus := { b with
    levels := ctl.foldl (fun t n => tabPut t n (restrictiveOf e.st n)) b.levels
    subst := (b.subst ++ ctl).eraseDups
    pairs := loc.foldl (fun t n => tabPut t n (pairRestrictive e.st n)) b.pairs
    pairSubst := (b.pairSubst ++ loc).eraseDups }
  if k.stuckNow = [] then k else { k with image := { k.image with bus := bus } }

/-- Both channels' check-value reports of one lane in an image, over the controllers (R407). -/
def cvBothNow (e : KEnv) (img : CycleImage) (l : Lane) : Bool :=
  img.bus.cv.any (fun c =>
    let a := bit c.2 (laneNo l)
    let b := bit c.2 (laneNo l + 3)
    match e.oneHalf with
    | none => a && b
    | some .a => a
    | some .b => b)

/-- A lane's check value reported failed on one channel only (R407). -/
def cvOneNow (e : KEnv) (img : CycleImage) (h : Half) : Bool :=
  e.oneHalf.isNone && img.bus.cv.any (fun c => allLanes.any (fun l =>
    let a := bit c.2 (laneNo l)
    let b := bit c.2 (laneNo l + 3)
    match h with | .a => a && !b | .b => b && !a))

/-- Consecutive images of R407. -/
def countCv (e : KEnv) (k : Kernel) : Kernel :=
  let both : Three Nat := triMap k.cvBoth (fun l n => if cvBothNow e k.image l then n + 1 else 0)
  let any := allLanes.any (fun l => cvBothNow e k.image l)
  let one : Two Nat := twoMap k.cvOne (fun h n => if !any && cvOneNow e k.image h then n + 1 else 0)
  { k with cvBoth := both, cvOne := one }

/-! ## The program cycle of a lane -/

/-- The longest passes kept (RC objects). -/
def notePasses (p : PassTimes) (k : Kernel) : Kernel :=
  { k with longPass := max k.longPass p.traverse, longAuth := max k.longAuth p.authority,
           prog := { k.prog with longest := max k.prog.longest p.app } }

/-- Authority engine, application step, and the authorities with the step's stops and restrictions (R30, R200). -/
def runEngines (e : KEnv) (x : KRun) : KRun := runAuthorities e false (appImage e (runAuthorities e true x))

/-- A lane's step over one image (R30) with the dictionary requests applied before it (R548). -/
def runImage (e : KEnv) (lead : Nat) (p : PassTimes) (img : CycleImage) (k : Kernel) : KRun × List DictAns :=
  let k0 := { tickKeys k with image := img, frozen := [], newRes := [], appFired := [], appFull := [] }
  let k1 := countCv e (substituteStuck e (countStuck e k0))
  let x : KRun := { k := k1, recs := [], evs := [], reserves := [] }
  let w := laneWrites e lead x
  let x := img.refused.foldl (fun x q => reqResult q 3 cNotActive noElem x) w.1
  (onK (notePasses p) (runEngines e (kernelStep e x)), w.2)

/-! ## The output image -/

/-- Vital outputs of the controllers as commanded: point key and value. -/
def outputPoints (st : Station) (k : Kernel) : Tab Bool :=
  let sig := (st.signals.map (fun g =>
    let a := sentAspect st k g
    ((List.range g.outs.length).zip g.outs).map (fun p => (pointKey p.2, bit a (3 - p.1))))).flatten
  let drv := (st.points.map (fun p =>
    ((List.range p.drive.length).zip p.drive).map (fun d => (pointKey d.2, (drivesOn k).contains (p.num, d.1))))).flatten
  let xng := st.crossings.map (fun c => (pointKey c.openOut, openOut st k c.num))
  let aut := (st.authSlots.map (fun t =>
    ((List.range t.2.length).zip t.2).map (fun p =>
      (t.1 * 1024 + p.2, ((tabFind k.auths (t.1 * 256 + p.1)).any authPermissive))))).flatten
  (sig ++ drv ++ xng ++ aut).foldl (fun t p => tabPut t p.1 p.2) []

/-- One 32-bit word of a bitmap (R339). -/
def bitmapWord (on : Nat → Bool) (w : Nat) : Nat :=
  (List.range 32).foldl (fun a i => a + b2n (on (w * 32 + i)) * 2 ^ i) 0

/-- A bitmap over `n` points as bytes. -/
def bitmapBytes (on : Nat → Bool) (n : Nat) : List Byte :=
  ((List.range ((n + 31) / 32)).map (fun w => be 4 (bitmapWord on w))).flatten

/-- Bytes padded to a multiple of 4. -/
def pad4 (l : List Byte) : List Byte := l ++ List.replicate ((4 - l.length % 4) % 4) 0#8

/-- Highest output point of a controller plus one. -/
def outCount (outs : Tab Bool) (port : Nat) : Nat :=
  (outs.filter (fun o => o.1 / 1024 = port)).foldl (fun a o => max a (o.1 % 1024 + 1)) 0

/-- The authority record of a slot as sent: 24 zero bytes when no carrier has the slot (R195). -/
def slotBytes (k : Kernel) (key : Nat) : List Byte :=
  match tabFind k.auths key with
  | some a => authBytes a
  | none => List.replicate 24 0#8

/-- Command payload of one controller (Table 9.8). -/
def commandPayload (st : Station) (k : Kernel) (port : Nat) : List Byte :=
  let outs := outputPoints st k
  let no := outCount outs port
  let na := (tabGet st.authSlots port []).length
  let nv := (tabGet k.prog.out.nonVital port []).take 128
  be 2 no ++ be 2 nv.length ++ be 1 na ++ be 3 0 ++ bitmapBytes (fun i => tabGet outs (port * 1024 + i) false) no ++
  ((List.range na).map (fun v => slotBytes k (port * 256 + v))).flatten ++ pad4 nv

/-- Commanded value of a local vital output (R270, Table 8.2). -/
def localValue (st : Station) (k : Kernel) (o : LocalOutRec) : Bool :=
  match o.kind with
  | .signal => (sigRec st o.elem).any (fun g => bit (sentAspect st k g) o.bit)
  | .drive pos => (drivesOn k).contains (o.elem, pos)
  | .crossing => openOut st k o.elem
  | .unbound => tabGet k.prog.out.louts o.num false

/-- Local block (block 16). -/
def localBlock (st : Station) (k : Kernel) : LocalBlock :=
  { outs := (List.range 16).map (fun i => (st.localOuts.find? (fun o => o.num = i + 1)).any (localValue st k))
    no := k.prog.out.no % 256 }

/-- Base of a command connection: kept while the epoch stays, else sequence 1 in the first bus cycle (R386). -/
def cmdBase (s : State) (port first : Nat) : Nat :=
  let v := envOf s port
  match v.cmdBase with
  | some b => if v.cmdEpoch = laneEpoch s then b else (0x100000001 - first) % 0x100000000
  | none => (0x100000001 - first) % 0x100000000

/-- First stamp of the next program cycle's command envelopes. -/
def firstStamp (s : State) (img : CycleImage) : Nat := (img.counter + s.bus.lCyc) % 0x100000000

/-- Envelopes of the next program cycle: those of the new mode at an agreed switch (R367), else L. -/
def cycleCount (s : State) (img : CycleImage) : Nat :=
  match s.bus.pend with
  | some p =>
    if p.confirmed && p.s = img.counter + s.bus.lCyc then
      ((s.cfg.modes.find? (fun m => m.num = p.mode)).map (·.lCyc)).getD s.bus.lCyc
    else s.bus.lCyc
  | none => s.bus.lCyc

/-- Command block of one controller (block 0 to 15). -/
def cmdBlock (s : State) (k : Kernel) (port : Nat) : CmdBlock :=
  let f := firstStamp s k.image
  { payload := commandPayload s.cfg k port, first := f, count := cycleCount s k.image, base := cmdBase s port f,
    epoch := laneEpoch s }

/-- Module block (block 17). -/
def moduleBlock (s : State) (x : KRun) (ans : List DictAns) : ModuleBlock :=
  let k := x.k
  { excl := (allLanes.filter (fun l => 2 ≤ triGet k.cvBoth l)).map (fun l => (l, 0x09))
    halfOff := allHalves.filter (fun h => 2 ≤ twoGet k.cvOne h)
    powerVote := k.prog.out.powerVote
    switchImg := if k.prog.ps = .armed then k.prog.switchImg else 0
    modeSwitch := ((s.bus.pend).map (·.s)).getD 0
    handover := s.pair.h.getD 0
    graphCheck := crcOf crc64 (Config.graphBytes s.cfg)
    appReqs := k.prog.out.reqs
    answers := ans
    view := k }

/-- A lane's output image (R207). -/
def outputImage (s : State) (x : KRun) (ans : List DictAns) : OutputImage :=
  { num := x.k.image.num, checkOk := true
    cmds := (boundPorts s.cfg).foldl (fun t p => tabPut t p (cmdBlock s x.k p)) []
    locals := localBlock s.cfg x.k
    module := moduleBlock s x ans
    records := x.recs, events := x.evs
    casc := { role := roleSent s, ready := pairReady s, epoch := s.pair.epoch,
              reserves := if s.pair.role = .standby then [] else x.reserves } }

/-- A lane that runs one image. -/
def laneRun (s : State) (p : PassTimes) (img : CycleImage) (v : LaneSt) : LaneSt :=
  let r := runImage (kenv s) s.progLoad.switchLead p img v.kernel
  { v with kernel := r.1.k, out := some (outputImage s r.1 r.2), ran := img.num }

/-! ## A step of the kernel within the image under way -/

/-- A half has voted the image under way. -/
def imageVoted (s : State) : Bool := s.vote.everVoted && s.vote.lastVoted = s.imageNo

/-- A lane whose image under way takes one further step of the kernel, with its engines run again. DESIGN CHOICE, log 23
(safe). DESIGN CHOICE, log 23 (safe). -/
def laneAgain (s : State) (f : KEnv → KRun → KRun) (v : LaneSt) : LaneSt :=
  match v.out with
  | some o =>
    if o.num = s.imageNo && v.ran = s.imageNo then
      let e := kenv s
      let x : KRun := { k := v.kernel, recs := o.records, evs := o.events, reserves := o.casc.reserves }
      let y := runAuthorities e false (f e x)
      { v with kernel := y.k, out := some { outputImage s y o.module.answers with num := o.num, checkOk := o.checkOk } }
    else v
  | none => v

/-- A step of the kernel in every lane that runs the image under way, before that image's vote. DESIGN CHOICE, log 23
(safe). DESIGN CHOICE, log 23 (safe). -/
def laneRow (f : KEnv → KRun → KRun) (s : State) : State :=
  if imageVoted s then s else { s with lanes := triMap s.lanes (fun _ v => laneAgain s f v) }

end Sys2Proof.Machine
end

