-- ==== Sys2Proof/Machine/Access.lean ====
section
/-! DEFINITION. Who may write an object (R546 to R551): the session that writes, its level, the commissioning key, and
whether the lanes run images. Commands that name an object's function go through these checks. -/

namespace Sys2Proof.Machine

/-- Order of the access levels (Table 14.2). -/
def levelRank : Level → Nat
  | .observer => 0
  | .operator => 1
  | .maintainer => 2
  | .commissioner => 3

/-- The session of a number. -/
def sessOf (s : State) (n : Nat) : Session := tabGet s.dict.sessions n Session.closed

/-- A session changed. -/
def modSess (n : Nat) (f : Session → Session) (s : State) : State :=
  { s with dict := { s.dict with sessions := tabMod s.dict.sessions n Session.closed f } }

/-- The result code a session's write ends with before the object is looked at: SESSION, LEVEL, KEY, or OK. -/
def sessRefusal (s : State) (n : Nat) (min : Level) (key : Bool) : Nat :=
  let x := sessOf s n
  if !x.opened then rSession
  else if levelRank x.level < levelRank min then rLevel
  else if key && !s.lio.key then rKey
  else rOk

/-- The result of the last write and its reply data. -/
def withResult (r : Nat × List Byte) (s : State) : State :=
  { s with dict := { s.dict with result := r.1, value := r.2 } }

/-- A commons function written by a session: its refusal, or the function with its result. -/
def asSession (n : Nat) (min : Level) (key : Bool) (f : State → State × Nat × List Byte) (s : State) : State :=
  let c := sessRefusal s n min key
  if c ≠ rOk then withResult (c, []) s
  else
    let r := f s
    withResult (r.2.1, r.2.2) r.1

/-- A function asked for through a PROXY request of another module (R564): the outer session's level, never above Operator. -/
def asProxy (level min : Level) (key : Bool) (f : State → State × Nat × List Byte) (s : State) : State :=
  if levelRank min ≤ Nat.min 1 (levelRank level) && (!key || s.lio.key) then
    let r := f s
    withResult (r.2.1, r.2.2) r.1
  else withResult (if levelRank min ≤ Nat.min 1 (levelRank level) then rKey else rLevel, []) s

/-- A session number that no session holds any more: the stamp of the last one is kept (R537). -/
def endSession (x : Session) : Session :=
  { Session.closed with lastStamp := if x.opened then x.stamp else x.lastStamp }

/-- Sessions closed (R540): their queued requests and due replies go; event 86 for each. -/
def closeWhere (p : Nat → Session → Bool) (s : State) : State :=
  (s.dict.sessions.filter (fun x => x.2.opened && p x.1 x.2)).foldl (fun s x =>
    raiseEv 86 x.1 { s with dict := { s.dict with sessions := tabPut s.dict.sessions x.1 (endSession x.2) } }) s

/-- STANDBY or MODULE-STATE of a lane object (R550, R551). -/
def laneRefusal (s : State) (standbyToo : Bool) : Nat :=
  if s.pair.role = .standby && !standbyToo then rStandby else if !imagesRun s then rModuleState else rOk

/-- The lanes that run the image under way, in their order. -/
def runningLanes (s : State) : List Lane := allLanes.filter (fun l => (triGet s.lanes l).ran = s.imageNo && inVote s l)

/-- The kernel of the first lane in vote: the lanes agree unless one is faulty. -/
def leadKernel (s : State) : Kernel :=
  match lanesInVote s with
  | l :: _ => (triGet s.lanes l).kernel
  | [] => s.view

/-- A lane function written by a session, applied in the image under way; `out` reads its outcome code. -/
def asLaneSession (n : Nat) (min : Level) (standbyToo : Bool) (f : KEnv → KRun → KRun) (out : Kernel → Nat)
    (s : State) : State :=
  let c := sessRefusal s n min false
  let d := laneRefusal s standbyToo
  if c ≠ rOk then withResult (c, []) s
  else if d ≠ rOk then withResult (d, []) s
  else
    let t := laneRow f s
    withResult (functionReply (out (leadKernel t)) []) t

end Sys2Proof.Machine
end

