-- ==== Sys2Proof/Machine/ProgramRows.lean ====
section
/-! DEFINITION. Commands of the application program: its state, online change, variables and forces (R301 to R321). -/

namespace Sys2Proof.Machine

/-- Allotment per core in µs (R296). -/
def allotmentOf (s : State) (pct : Nat) : Nat := cycleNs s * pct / 100 / 1000 - 1000

/-- Allotment at the vote deadline in force. -/
def allotment (s : State) : Nat := allotmentOf s s.vote.deadlinePct

/-- Largest partition time bound of a program. -/
def largestBound (p : Program) : Nat := p.bounds.foldl max 0

/-- The half number of the slot that holds a valid program (R303). -/
def validProgSlot (s : State) : Option Half :=
  if s.progLoad.slots.a.st = .valid then some .a else if s.progLoad.slots.b.st = .valid then some .b else none

/-- The program of the valid slot. -/
def validProgram (s : State) : Option Program := (validProgSlot s).bind (fun h => (twoGet s.progLoad.slots h).parsed)

/-- A station-data or program load is being checked. -/
def loadChecking (s : State) : Bool :=
  s.load.slots.a.st = .checking || s.load.slots.b.st = .checking ||
  s.progLoad.slots.a.st = .checking || s.progLoad.slots.b.st = .checking

/-- The commons' part of R305: refusal code of an arm, 0 when none. DESIGN CHOICE, log 29 (unsafe). -/
def armRefusal (s : State) : Nat :=
  if modeOf s ≠ 0 && modeOf s ≠ 1 then 0x5106
  else if rejoinUnderWay s || s.vote.pendLane.isSome || loadChecking s || s.upd.upd then 0x500E
  else match validProgram s with
    | none => 0x5102
    | some p => if allotment s < largestBound p + 400 then 0x500C else 0

/-- A program command of a Maintainer session (object 0x7001 sub 1); a standby takes arm and abort (R499). -/
def progCommand (sess cmd : Nat) (s : State) : State :=
  asLaneSession sess .maintainer (cmd ≤ 2) (fun _ x => progObj cmd (armRefusal s) s.progLoad.switchLead x)
    (fun k => progRefusal cmd k.prog.outcome) s

/-- ARM (R305). -/
def execProgArm (sess : Nat) (s : State) : Host.Outcome State Fault Refusal := .next (progCommand sess 1 s)

/-- ABORT (R310). -/
def execProgAbort (sess : Nat) (s : State) : Host.Outcome State Fault Refusal := .next (progCommand sess 2 s)

/-- STOP (R301). -/
def execProgStop (sess : Nat) (s : State) : Host.Outcome State Fault Refusal := .next (progCommand sess 3 s)

/-- START (R301). -/
def execProgStart (sess : Nat) (s : State) : Host.Outcome State Fault Refusal := .next (progCommand sess 4 s)

/-- VL_TIMER_EXPIRY (R308). -/
def execVlTimerExpiry (ref : Nat) (s : State) : Host.Outcome State Fault Refusal :=
  .next (laneRow (fun e x => timerExpiry e ref x) s)

/-- PROGRAM_FAULTED (R301). -/
def execProgramFaulted (s : State) : Host.Outcome State Fault Refusal :=
  .next (laneRow (fun e x => progFaulted e x) s)

/-- A program switched in one lane's kernel. -/
def switchIn (p : Program) (k : Kernel) : Kernel :=
  (switchProgram p { k := k, recs := [], evs := [], reserves := [] }).k

/-- The switch in every lane (R307): kernels, slot pointer, the events and records it gives. -/
def switchNow (p : Program) (h : Half) (s : State) : State :=
  let y := switchProgram p { k := leadKernel s, recs := [], evs := [], reserves := [] }
  let put (x : ProgSlot) (st : SlotState) : ProgSlot := { x with st := st }
  let slots := twoMod (twoMod s.progLoad.slots h (fun x => put x .active)) (otherHalf h)
    (fun x => put x (if x.parsed.isSome then .valid else .empty))
  let s := { s with lanes := triMap s.lanes (fun _ v => { v with kernel := switchIn p v.kernel }),
                    progLoad := { s.progLoad with slots := slots, active := some h } }
  let s := y.evs.foldl (fun s v => raiseAt (imgAdd s.imageNo 1) v.event v.detail s) s
  y.recs.foldl (fun s r => bookPut { r with time := utcNs s, image := imgAdd s.imageNo 1 } s) s

/-- ONLINE_CHANGE_SWITCH (R307): the tick of the switch image comes next, with two lanes in vote. -/
def onlineSwitch (s : State) : State :=
  match validProgram s, validProgSlot s with
  | some p, some h =>
    if (leadKernel s).prog.ps = .armed && imgReached (imgAdd s.imageNo 1) (leadKernel s).prog.switchImg &&
        2 ≤ (lanesInVote s).length then switchNow p h s
    else s
  | _, _ => s

/-- ONLINE_CHANGE_SWITCH (R307). -/
def execOnlineChangeSwitch (s : State) : Host.Outcome State Fault Refusal := .next (onlineSwitch s)

/-- VARIABLE_WRITE (R313). -/
def execVariableWrite (sess inst fld : Nat) (value : List Byte) (s : State) : Host.Outcome State Fault Refusal :=
  let r : VarRef := ⟨inst, fld⟩
  let code := (varWrite r value { k := leadKernel s, recs := [], evs := [], reserves := [] }).2
  let t := asLaneSession sess .operator false (fun _ x => (varWrite r value x).1) (fun _ => code) s
  .next (if t.dict.result = rOk then withResult (rOk, varValue (leadKernel t) r) t else t)

/-- FORCE_SET (R319). -/
def execForceSet (sess inst fld : Nat) (value : List Byte) (s : State) : Host.Outcome State Fault Refusal :=
  .next (asLaneSession sess .maintainer false (fun _ x => forceSet sess ⟨inst, fld⟩ value x) (·.prog.forceOutcome) s)

/-- FORCE_REMOVE (R317). -/
def execForceRemove (sess inst fld : Nat) (s : State) : Host.Outcome State Fault Refusal :=
  .next (asLaneSession sess .maintainer false (fun _ x => forceRemove sess ⟨inst, fld⟩ x) (·.prog.forceOutcome) s)

/-- FORCE_REMOVE_ALL (R317). -/
def execForceRemoveAll (sess : Nat) (s : State) : Host.Outcome State Fault Refusal :=
  .next (asLaneSession sess .maintainer false (fun _ x => forceRemoveAll sess x) (·.prog.forceOutcome) s)

end Sys2Proof.Machine
end

