-- ==== Sys2Proof/Machine/Envelope.lean ====
section
/-! DEFINITION. Frames and envelopes: which frames a half accepts (R338), the checks of Table 10.6 on an input envelope, the
base of a connection (R387), the bytes of the envelopes the module sends (Tables 10.2, 10.4), and the timestamp queues
(R463 to R466). -/

namespace Sys2Proof.Machine

/-! ## Timestamp queues -/

/-- A timestamp queue with the stamp selection Table 12.7 gives by default. -/
def stampInit (q : Nat) : StampQ := { entries := [], overflow := 0, select := if q < 68 then 1 else 0, evtDone := false }

/-- A timestamp queue. -/
def stampQ (s : State) (q : Nat) : StampQ := tabGet s.time.stamps q (stampInit q)

/-- A stamp offered to a queue (R463, R464, R466): only kinds selected; 16 entries; an overflow raises event 52 once per
program cycle. `sel` is the selection bit. -/
def stamp (q sel : Nat) (e : StampEntry) (s : State) : State :=
  let x := stampQ s q
  if !bit x.select sel then s
  else
    let put (y : StampQ) (s : State) : State := { s with time := { s.time with stamps := tabPut s.time.stamps q y } }
    if x.entries.length < 16 then
      noteDepth q (x.entries.length + 1) false (put { x with entries := x.entries ++ [e] } s)
    else
      let s := noteDepth q 16 true (put { x with overflow := sat 0xFFFFFFFF (x.overflow + 1), evtDone := true } s)
      if x.evtDone then s else raiseEv 52 q s

/-- Transmit queue of a half; the receive queue is the next one (Table 12.4). -/
def txQueue : Half → Nat
  | .a => 64
  | .b => 66

/-- A Welong stamp: the half's own reading `at_` ns after t0 (R465). DESIGN CHOICE, log 4 (unsafe). -/
def welongStamp (s : State) (h : Half) (ident slot port : Nat) (rx : Bool) (at_ : Int) : StampEntry :=
  { ident := ident % 65536, slot := slot, port := port, flags := b2n rx + b2n (!rx) * 2 + b2n (h = .b) * 4,
    time := (twoGet s.time.halves h).anchor + at_ * 65536 }

/-- A half's transmit stamp in the present bus cycle, of a frame from its internal port. DESIGN CHOICE, log 42 (safe). -/
def txStamp (h : Half) (sel slot : Nat) (at_ : Int) (s : State) : State :=
  stamp (txQueue h) sel (welongStamp s h s.bus.counter slot 0xFE false at_) s

/-- A stamp of the maintenance port (Table 12.6). -/
def portStamp (q ident : Nat) (launch : Bool) (t : Int) : StampEntry :=
  { ident := ident % 65536, slot := 0xFFFF, port := 0xFF, flags := b2n (q = 69) + 2 * b2n launch, time := t }

/-- Schedule mode of station data. -/
def modeRec (s : State) (n : Nat) : Option ModeRec := s.cfg.modes.find? (fun m => m.num = n)

/-- The mode in force. -/
def modeNow (s : State) : Option ModeRec := modeRec s s.bus.mode

/-! ## Frames -/

/-- Event 28, at most once per port and program cycle (Table 9.19). -/
def discard (h : Half) (port : Nat) (s : State) : State :=
  let p := portOf s h port
  let q := { p with discarded := sat 0xFFFFFFFF (p.discarded + 1), discEvt := true }
  let s := { s with bus := { s.bus with chans := twoMod s.bus.chans h (fun c => { c with ports := tabPut c.ports port q }) } }
  if p.discEvt then s else raiseEv 28 port s

/-- A star port changed. -/
def modPort (h : Half) (port : Nat) (f : PortSt → PortSt) (s : State) : State :=
  { s with bus := { s.bus with chans := twoMod s.bus.chans h (fun c =>
      { c with ports := tabMod c.ports port PortSt.init f }) } }

/-- A half keeps the schedule of its channel: it sends and its star opens its gates (R357, R359, Table 9.17). -/
def chanUp (s : State) (h : Half) : Bool :=
  let c := (twoGet s.bus.chans h).st
  c = .coldStarting || c = .synchronised

/-- The bus cycle whose head comes next. DESIGN CHOICE, log 5 (safe). -/
def nextCounter (s : State) : Nat := (s.bus.counter + 1) % 2 ^ 48

/-- What R338 asks of every frame, but for its counter and slot. -/
def frameForm (s : State) (port : Nat) (f : Frame) (kind maxBody : Nat) (flagsOk : Bool) : Bool :=
  f.fcsOk && !f.tagged && f.etherType = s.bus.etherType && f.version = 1 && f.kind = kind && f.destOk &&
  f.src = port + 1 && f.bodyLen = f.body.length && f.bodyLen ≤ maxBody && f.mode < 16 && flagsOk

/-- A frame of the given bus cycle and slot that a half accepts (R338). -/
def frameOk (s : State) (port : Nat) (f : Frame) (kind slot counter maxBody : Nat) (flagsOk : Bool) : Bool :=
  frameForm s port f kind maxBody flagsOk && f.slot = slot && f.counter = counter

/-- A port that can pass frames to its half: present, with link, admitted (R332), its star in service. -/
def portLive (s : State) (h : Half) (port : Nat) : Bool :=
  let p := portOf s h port
  port < s.ident.ports && (twoGet s.halves h).inServ && p.link && p.linkDly ≠ 0xFFFF

/-! ## Input envelopes -/

/-- Vital input points a controller is configured with: highest bound one plus one (Table 9.7). -/
def inPoints (st : Station) (port : Nat) : Nat :=
  ((inputBindings st).filter (fun b => b.port = port)).foldl (fun a b => max a (b.point + 1)) 0

/-- A position report record (Table 5.1). -/
def readReport (port pos : Nat) (b : List Byte) : Report :=
  { carrier := field b 0 2, cls := field b 2 1 % 16, dir := field b 3 1, line := field b 4 2,
    front := ofBeI (cut b 6 4), len := field b 10 4, frontUnc := field b 14 2, rearUnc := field b 16 2,
    resv := field b 2 1 / 16 ≠ 0 || field b 18 2 ≠ 0, port := port, pos := pos }

/-- Length an input payload must have for its counts (Table 9.7). -/
def inputLen (ni nn nr : Nat) : Nat := 8 + 4 * ((ni + 31) / 32) + 20 * nr + (nn + 3) / 4 * 4

/-- Step 7 of Table 10.6 for an input payload: the counts in range and within the configuration. -/
def inputCounts (s : State) (port : Nat) (p : List Byte) : Bool :=
  let ni := field p 0 2
  let nn := field p 2 2
  let nr := field p 4 1
  8 ≤ p.length && ni ≤ 1024 && ni ≤ inPoints s.cfg port && nn ≤ 128 && nr ≤ 32 && field p 5 1 < 64 &&
  field p 6 2 = 0 && p.length = inputLen ni nn nr

/-- An input envelope read from its body. -/
def inputEnv (port : Nat) (b : List Byte) : InputEnv :=
  let p := cut b 16 (field b 14 2)
  let ni := field p 0 2
  let words := (ni + 31) / 32
  let nr := field p 4 1
  { seq := field b 2 4, epoch := field b 10 2, flags := field b 13 1, ni := ni, cv := field p 5 1
    bits := (List.range ni).map (fun i => bit (field p (8 + 4 * (i / 32)) 4) (i % 32))
    reports := (List.range nr).map (fun i => readReport port i (cut p (8 + 4 * words + 20 * i) 20))
    nonVital := cut p (8 + 4 * words + 20 * nr) (field p 2 2)
    payload := p }

/-- Steps 2 to 4 and 7 of Table 10.6 on an input envelope for a bus cycle: structure, check value, freshness, payload. -/
def inputChecks (s : State) (port counter : Nat) (b : List Byte) : Bool :=
  let len := field b 14 2
  20 ≤ b.length && b.length = 20 + len && field b 12 1 = 0x20 &&
  envCheck (welongId 1 s.dict.modAddr port s.cfg.site) (counter / 2 ^ 32) (b.take (16 + len)) = field b (16 + len) 4 &&
  field b 6 4 = counter % 2 ^ 32 && inputCounts s port (cut b 16 len)

/-- Step 5 of Table 10.6 (R387): whether the envelope passes, and the connection's base afterwards. A new base that
alone arrives in 4 consecutive bus cycles is adopted from the next bus cycle. -/
def baseCheck (c : ConnBase) (b counter : Nat) : Bool × ConnBase :=
  match c.base with
  | none => (true, { base := some b, cand := 0, run := 0, candAt := 0 })
  | some old =>
    if b = old then (true, { c with run := 0 })
    else
      let run := if c.run ≠ 0 && c.cand = b && c.candAt + 1 = counter then c.run + 1 else 1
      if 4 ≤ run then (false, { base := some b, cand := 0, run := 0, candAt := 0 })
      else (false, { base := some old, cand := b, run := run, candAt := counter })

/-- Base of an envelope: (sequence − stamp) mod 2³² (R386). -/
def baseOf (seq stampV : Nat) : Nat := (seq + 0x100000000 - stampV % 0x100000000) % 0x100000000

/-! ## Envelopes sent -/

/-- Bytes of an envelope header (Table 10.2). -/
def envHeader (tag seq stampV epoch kind flags len : Nat) : List Byte :=
  be 2 tag ++ be 4 seq ++ be 4 stampV ++ be 2 epoch ++ be 1 kind ++ be 1 flags ++ be 2 len

/-- A command envelope of a voted block for a bus cycle, with the check values of its two lanes (R31, R33). -/
def commandEnv (s : State) (port counter : Nat) (v : VotedCmd) : List Byte :=
  let st := counter % 0x100000000
  let body := envHeader (0x4000 + s.dict.modAddr % 4096) ((st + v.block.base) % 0x100000000) st v.block.epoch 0x30 0
    v.block.payload.length ++ v.block.payload
  let id := welongId 2 s.dict.modAddr port s.cfg.site
  let cv (l : Lane) : Nat := envCheck (id ^^^ laneSeed l) (counter / 2 ^ 32) body
  match pairLanes? v.pair with
  | some p => body ++ be 1 v.pair ++ be 3 0 ++ be 4 (cv p.1) ++ be 4 (cv p.2)
  | none => []

/-- Header and payload of a cascade envelope. -/
def cascadeBytes (e : Envelope) : List Byte :=
  envHeader e.tag e.seq e.stamp e.epoch e.kind e.flags e.payload.length ++ e.payload

/-- A lane-produced cascade envelope of two lanes (Table 10.4); its implicit prefix is 0. -/
def laneEnvelope (id pair tag seq stampV epoch kind : Nat) (payload : List Byte) : Envelope :=
  let e : Envelope := { tag := tag, seq := seq, stamp := stampV, epoch := epoch, kind := kind, flags := 0,
                        payload := payload, pair := pair, cv1 := 0, cv2 := 0 }
  match pairLanes? pair with
  | some p =>
    { e with cv1 := envCheck (id ^^^ laneSeed p.1) 0 (cascadeBytes e), cv2 := envCheck (id ^^^ laneSeed p.2) 0 (cascadeBytes e) }
  | none => e

/-- Steps 2 and 3 of Table 10.6 for a lane-produced cascade envelope of one of the kinds given. -/
def laneEnvelopeOk (id : Nat) (kinds : List Nat) (e : Envelope) : Bool :=
  kinds.contains e.kind && e.flags = 0 &&
  match pairLanes? e.pair with
  | some p => e.cv1 = envCheck (id ^^^ laneSeed p.1) 0 (cascadeBytes e) && e.cv2 = envCheck (id ^^^ laneSeed p.2) 0 (cascadeBytes e)
  | none => false

/-- Steps 2 and 3 for a clear-ahead envelope of a Trestle half. -/
def clearEnvelopeOk (id : Nat) (h : Half) (e : Envelope) : Bool :=
  e.kind = 0x95 && e.flags = 0 && e.cv1 = envCheck (id ^^^ trestleSeed h) 0 (cascadeBytes e)

end Sys2Proof.Machine
end

