-- ==== Sys2Proof/Machine/Reply.lean ====
section
/-! DEFINITION. Sending a reply datagram (Table 14.1, R541, R553), and the replies that a vote sets free (R548, R549). -/

namespace Sys2Proof.Machine

/-- Status field of a reply: ATTN of the session's own event queue (Table 14.7). -/
def sessionStatus (s : State) (n : Nat) : Nat := statusWith (!(sessOf s n).events.isEmpty) s

/-- Replies a session keeps (R541). -/
def keptReplies : Nat := 8

/-- The bus cycle, counted from the present one, in which a tail slot is next active (R343). -/
def slotWait (s : State) (r : SlotRec) : Nat := (r.phase + 2 ^ r.exp - s.bus.counter % 2 ^ r.exp) % 2 ^ r.exp

/-- The first active service slot from node 0 to a port on a channel: its number, the bus cycles until then, and its ns
after the present t0 (R346); in the Dormant schedule slots 16 and 17 serve ports 0 and 1 (Table 9.14). DESIGN CHOICE, log 42
(safe). DESIGN CHOICE, log 42 (safe). DEDUCED, log 92 (safe). -/
def serviceSlot (s : State) (h : Half) (port : Nat) : Option (Nat × Nat × Nat) :=
  if s.bus.dormant then
    if port < 2 then some (16 + port, 0, 100000 + 200000 * port) else none
  else
  let l := (((modeNow s).map (·.slots)).getD []).filter (fun r =>
    r.kind = 2 && r.sender = 0 && bit r.dests (port + 1) && bit r.chans (halfNo h))
  l.foldl (fun best r =>
    let at_ := slotWait s r * s.bus.busNs + r.start
    match best with
    | none => some (r.slot, slotWait s r, at_)
    | some b => if at_ < b.2.2 then some (r.slot, slotWait s r, at_) else best) none

/-- Stamp of a SERVICE frame that a half sends (Table 12.5). -/
def serviceStamp (port : Nat) (h : Half) (s : State) : State :=
  match chanUp s h, serviceSlot s h port with
  | true, some b => stamp (txQueue h) 4 (welongStamp s h (s.bus.counter + b.2.1) b.1 0xFE false b.2.2) s
  | _, _ => s

/-- Stamps of a reply that leaves (Tables 12.4, 12.5). -/
def stampReply (r : Reply) (s : State) : State :=
  match r.dest with
  | .udp _ _ => stamp 68 1 (portStamp 68 r.seq false (moduleTime s)) s
  | .welong port => allHalves.foldl (fun s h => serviceStamp port h s) s
  | .proxy _ _ => s

/-- A reply leaves. -/
def emit (r : Reply) (s : State) : State := stampReply r { s with dict := { s.dict with reply := some r } }

/-- A reply leaves, with the status field of the moment, and is kept. -/
def sendReply (n : Nat) (r : Reply) (s : State) : State :=
  let r := { r with status := sessionStatus s n }
  emit r (modSess n (fun x => { x with kept := keepLast keptReplies (x.kept ++ [r]) }) s)

/-- A reply outside any session. DEDUCED, log 70 (unsafe). -/
def sendLoose (r : Reply) (s : State) : State := emit { r with status := statusWith false s } s

/-- Number under which proxied requests stand among the sessions (R547: after every local one). -/
def proxySess : Nat := 16

/-- A due reply filled in from block 17 (R548), or UNCONFIRMED (R549). -/
def fillReply (ans : Option (List DictAns)) (n : Nat) (r : Reply) : Reply :=
  match ans with
  | none => { r with result := rUnconfirmed, data := [] }
  | some l =>
    match l.find? (fun a => a.sess = n && a.seq = r.seq && a.index = r.index && a.sub = r.sub) with
    | some a => { r with result := a.result, data := a.data }
    | none => { r with result := rUnconfirmed, data := [] }

/-- The lane-object replies of a voted image, in ascending session and sequence; proxied ones last. -/
def answerVoted (ans : Option (List DictAns)) (s : State) : State :=
  let s := (tabKeys s.dict.sessions).foldl (fun s n =>
    let due := (sessOf s n).due
    let s := modSess n (fun x => { x with due := [] }) s
    due.foldl (fun s r => sendReply n (fillReply ans n r) s) s) s
  let due := s.dict.proxyDue
  let s := { s with dict := { s.dict with proxyDue := [] } }
  due.foldl (fun s r => sendLoose (fillReply ans proxySess r) s) s

end Sys2Proof.Machine
end

