-- ==== Sys2Proof/Machine/Voting.lean ====
section
/-! DEFINITION. The voters and the benchmark comparators (R32 to R34, R206 to R220, R225 to R229, R243): output images
in the ingress buffers, the vote block by block, what a voted image does, late deliveries, benchmarks and verdicts. -/

namespace Sys2Proof.Machine

/-! ## The vote -/

/-- Number of blocks of an output image (Table 6.2). -/
def blockCount : Nat := 20

/-- One block of two output images equal bit for bit, check values apart (R210). -/
def blockEq (i : Nat) (a b : OutputImage) : Bool :=
  if i < 16 then tabFind a.cmds i = tabFind b.cmds i
  else if i = 16 then a.locals = b.locals
  else if i = 17 then a.module = b.module
  else if i = 18 then a.records = b.records && a.events = b.events
  else a.casc = b.casc

/-- What comparing one block gave (Table 6.3): agreement, a lane in the minority, or no agreement. -/
inductive BlockVerdict where
  | agree
  | minority (l : Lane)
  | differ
  deriving DecidableEq, Repr

/-- The verdict of one block from the present images (R211); fewer than two are no matter of a block. -/
def blockVerdict (i : Nat) : List (Lane × OutputImage) → BlockVerdict
  | [(_, a), (_, b)] => if blockEq i a b then .agree else .differ
  | [(la, a), (lb, b), (lc, c)] =>
    if blockEq i a b then (if blockEq i a c then .agree else .minority lc)
    else if blockEq i a c then .minority lb
    else if blockEq i b c then .minority la
    else .differ
  | _ => .agree

/-- A lane's image as present at a voter (R209). -/
def presentAt (s : State) (h : Half) (l : Lane) : Option OutputImage :=
  match triGet (twoGet s.halves h).ingress l with
  | some o => if o.num = s.imageNo && o.checkOk then some o else none
  | none => none

/-- The present images of the lanes in vote, in lane order. -/
def presentImages (s : State) (h : Half) : List (Lane × OutputImage) :=
  (lanesAt s h).filterMap (fun l => (presentAt s h l).map (fun o => (l, o)))

/-- Result of one half's vote: the verdict of each block, the lanes named, whether a block differs. -/
structure VoteResult where
  verdicts : List BlockVerdict
  named : List Lane
  differs : Bool

/-- A half's vote over its present images. -/
def voteOf (ps : List (Lane × OutputImage)) : VoteResult :=
  let vs := (List.range blockCount).map (fun i => blockVerdict i ps)
  { verdicts := vs
    named := allLanes.filter (fun l => vs.contains (.minority l))
    differs := vs.contains .differ }

/-- Pair code of two lanes (R206). -/
def pairCode : List (Lane × OutputImage) → Nat
  | (p, _) :: (q, _) :: _ => pairBit p + pairBit q
  | _ => 0

/-- The voted image that the agreeing pair's blocks make (R33). -/
def votedFrom (ps : List (Lane × OutputImage)) (num : Nat) : VotedImage :=
  let code := pairCode ps
  match ps with
  | (_, o) :: _ =>
    { num := num, cmds := tabMap o.cmds (fun _ b => { block := b, pair := code }), locals := some o.locals,
      module := some o.module, casc := some (o.casc, code) }
  | [] => { num := num, cmds := [], locals := none, module := none, casc := none }

/-- Block that first named a lane, for its Chest record; 0xFF none. -/
def blockNaming (vs : List BlockVerdict) (l : Lane) : Nat :=
  let i := vs.findIdx (fun v => decide (v = .minority l))
  if i < vs.length then i else 0xFF

/-! ## What a voted image does -/

/-- A request of the application program from 8 bytes (Table 3.1). -/
def parseReq (l : List Byte) (port stamp sess epoch : Nat) (level : Level) : Req :=
  let f := field l 1 1
  { cls := field l 0 1, hold := bit f 0, opt := bits f 3 1, all := bit f 4, resv := f / 32 ≠ 0,
    target := field l 2 2, tag := field l 4 4, stamp := stamp, port := port, level := level, epoch := epoch,
    session := sess }

/-- Requests a queue holds (R90). -/
def queueCap : Nat := 64

/-- A request put into its port's queue; with no room it is refused (R90). -/
def enqueue (q : Req) (s : State) : State :=
  let l := tabGet s.queues q.port []
  if l.length < queueCap then
    noteDepth (112 + q.port) (l.length + 1) false { s with queues := tabPut s.queues q.port (l ++ [q]) }
  else noteDepth (112 + q.port) l.length true s

/-- VL.RREQ requests of a voted module block enter port 0 at the vote moment (R292). -/
def enqueueApp (l : List (List Byte)) (s : State) : State :=
  l.foldl (fun s b =>
    let r := ingressStamp 0 s
    enqueue (parseReq b 0 r.1 0xFFFF 0 .operator) r.2) s

/-- Lane records and events of a voted record block (R566, R557). -/
def takeRecords (rs : List FbRec) (es : List EvRaise) (s : State) : State :=
  let s := es.foldl (fun s v => raiseAt s.imageNo v.event v.detail s) s
  rs.foldl (fun s r => bookPut { r with time := s.vote.tickUtc, flags := r.flags + timeq s } s) s

/-- Exchange memory windows written by the lanes at the vote moment (R522): 16 windows of 64 KiB. -/
def writeWindows (l : List (Nat × Byte)) (s : State) : State :=
  { s with bridge := { s.bridge with mem := l.foldl (fun m p => if p.1 < 0x100000 then memWrite m p.1 p.2 else m) s.bridge.mem } }

/-- Cause of a half disabled as a voter fault (R407): a cause of its own beside DISREASON's. DESIGN CHOICE, log 34 (safe). -/
def causeVoter : Nat := 9

/-- A mode switch whose counter the module block carries is announced (R365, R366); event 26. -/
def announceSwitch (m : ModuleBlock) (s : State) : State :=
  match s.bus.pend with
  | some p =>
    if !p.announced && m.modeSwitch = p.s then
      raiseEv 26 p.mode { s with bus := { s.bus with pend := some { p with announced := true } } }
    else s
  | none => s

/-- The module block's requests (R215, R407): lanes excluded, halves disabled with event 8. -/
def takeModule (m : ModuleBlock) (s : State) : State :=
  let s := m.excl.foldl (fun s p => if inVote s p.1 then excludeLanes [p.1] p.2 0xFF [] s else s) s
  let s := m.halfOff.foldl (fun s h => raiseEv 8 (halfNo h) (disableHalf h causeVoter halfDisabled [] s)) s
  announceSwitch m { s with power := { s.power with votes := s.power.votes.set 3 m.powerVote } }

/-- A cycle summary of the snapshot: image, lanes present, lanes named, blocks forwarded. DESIGN CHOICE, log 26 (unsafe). -/
def summaryOf (s : State) (ps : List (Lane × OutputImage)) (r : VoteResult) (ok : Bool) : List Byte :=
  be 4 s.imageNo ++ be 1 (ps.foldl (fun a p => a + pairBit p.1) 0) ++
  be 1 (r.named.foldl (fun a l => a + pairBit l) 0) ++ be 1 (b2n ok)

/-- Settings of lane objects as the dictionary view of a voted image shows them (R97, R549), by object and sub. -/
def settingsShown (s : State) : Tab Nat :=
  let v := s.vote
  ([v.deadlinePct, v.n, b2n v.autoRejoin, v.rejoinMax].zipIdx.map (fun p => (0x210001 + p.2, tabGet v.nextSet (p.2 + 1) p.1))) ++
  (List.range 16).map (fun i => (0x230001 + i, tabGet s.set.portCfg i (if i = 0 || i = 2 then 3 else 1))) ++
  [(0x230100, s.set.simThrows), (0x231001, s.set.confirmC), (0x231002, s.set.clearE), (0x232001, s.progLoad.faultStop),
   (0x232002, s.progLoad.switchLead), (0x250100, s.lio.noDefaults)]

/-- What a voted image does once, at the first half's vote: the dictionary view, records, requests, power vote,
exclusions asked for, replies. DEDUCED, log 118 (unsafe). DEDUCED, log 119 (safe). -/
def takeVoted (o : OutputImage) (s : State) : State :=
  let s := { s with
    view := o.module.view
    vote := { s.vote with lastVoted := s.imageNo, everVoted := true }
    set := { s.set with shown := settingsShown s } }
  let s := takeRecords o.records o.events s
  let s := writeWindows o.module.view.prog.out.windows (enqueueApp o.module.appReqs s)
  takeModule o.module (answerVoted (some o.module.answers) s)

/-- Block counters of object 0x3101 (Table 6.12), counted once per image at the first half's vote. DESIGN CHOICE, log 27
(unsafe). DESIGN CHOICE, log 27 (unsafe). -/
def countBlocks (s : State) (lanes : Nat) (ps : List (Lane × OutputImage)) (r : VoteResult) : VoteSt :=
  let ok := (r.verdicts.filter (fun v => decide (v = BlockVerdict.agree))).length
  let minor := (r.verdicts.filter (fun v => match v with | .minority _ => true | _ => false)).length
  let bad := blockCount - ok - minor
  let v := s.vote
  if ps.length < 2 then { v with unforwarded := sat 0xFFFFFFFF (v.unforwarded + blockCount) }
  else if ps.length = lanes then
    { v with unanimous := sat 0xFFFFFFFF (v.unanimous + ok), majority := sat 0xFFFFFFFF (v.majority + minor),
             unforwarded := sat 0xFFFFFFFF (v.unforwarded + bad) }
  else { v with majority := sat 0xFFFFFFFF (v.majority + ok), unforwarded := sat 0xFFFFFFFF (v.unforwarded + bad) }

/-- The module is on its way from Run to Quiet: the image under way is the last (Table 16.3). DESIGN CHOICE, log 9 (safe). -/
def leavingRun (s : State) : Bool := s.power.moving = some .quiet && !(3 ≤ s.power.step && s.power.step ≤ 6)

/-- The half's module is in control in the next program cycle (R500): active and not handing over, or standby and
taking over. -/
def activeNext (s : State) : Bool :=
  let turning := s.pair.h = some (imgAdd s.imageNo 1)
  !leavingRun s && !s.upd.updating &&
  match s.pair.role with
  | .standby => turning
  | _ => !turning

/-- Command connections that a loaded block opens or keeps (R386, R500). -/
def keepBases (v : VotedImage) (s : State) : State :=
  { s with env := v.cmds.foldl (fun t c => tabMod t c.1 EnvPort.init (fun x =>
      { x with cmdBase := some c.2.block.base, cmdEpoch := c.2.block.epoch })) s.env }

/-- A voted image into a half's next transmit buffer (R34, R371). -/
def loadNext (h : Half) (v : VotedImage) (s : State) : State :=
  if activeNext s then
    keepBases v { s with halves := twoMod s.halves h (fun x => { x with next := some v }),
                         lio := { s.lio with localNext := v.locals } }
  else { s with halves := twoMod s.halves h (fun x => { x with next := some { v with cmds := [], locals := none } }) }

/-- Late deliveries of one half (R214): absent lanes count one more than before the image, present ones none;
event 4. -/
def countLate (h : Half) (ps : List (Lane × OutputImage)) (s : State) : State :=
  (lanesAt s h).foldl (fun s l =>
    let here := ps.any (fun p => p.1 = l)
    let was := twoGet (triGet s.lanes l).lateWas h
    let s := { s with lanes := triMod s.lanes l (fun x =>
      { x with late := twoPut x.late h (if here then 0 else sat 3 (was + 1)) }) }
    if here then s else raiseAt s.imageNo 4 (laneNo l) s) s

/-- A shadow lane's image against the voted one (R235): equal counts, different fails the rejoin, absent neither. -/
def shadowCheck (h : Half) (o : OutputImage) (s : State) : State :=
  allLanes.foldl (fun s l =>
    let x := triGet s.lanes l
    if x.ls = .catchingUp || x.ls = .shadow then
      match presentAt s h l with
      | some c =>
        if (List.range blockCount).all (fun i => blockEq i o c) then
          { s with lanes := triPut s.lanes l { x with outOk := some s.imageNo } }
        else failRejoin l 0x0D s
      | none => s
    else s) s

/-- A half's voter votes the image latched last (R32, R211 to R213). DEDUCED, log 111 (unsafe). -/
def voteHalf (h : Half) (s : State) : State :=
  let x := twoGet s.halves h
  let ls := lanesAt s h
  if !x.inServ || !x.voter || x.votedImg = some s.imageNo || ls = [] then s
  else
    let first := !imageVoted s
    let again := first && allHalves.any (fun k => (twoGet s.halves k).votedImg = some s.imageNo)
    let ps := presentImages s h
    let r := voteOf ps
    let keep := ps.filter (fun p => !r.named.contains p.1)
    let ok := 2 ≤ ps.length && !r.differs && r.named.length ≤ 1
    let s := countLate h ps s
    let s := { s with
      halves := twoMod s.halves h (fun y => { y with votedImg := some s.imageNo, next := none })
      vote := if first && !again then
          { countBlocks s ls.length ps r with summaries := keepLast 64 (s.vote.summaries ++ [summaryOf s ps r ok]) }
        else s.vote }
    if ps.length < 2 then
      let s := if first && !again then raiseAt s.imageNo 5 noDetail (raiseAt s.imageNo 4 noDetail s) else s
      let other := otherHalf h
      if first && (again || !(twoGet s.halves other).inServ) then answerVoted none s else s
    else if !ok then
      let s := raiseAt s.imageNo 5 noDetail s
      let s := r.named.foldl (fun s l => dropLane l 0x01 (blockNaming r.verdicts l) (be 1 (blockNaming r.verdicts l)) s) s
      answerVoted none (enterRestrictive s)
    else
      match keep with
      | (_, o) :: _ =>
        let s := shadowCheck h o (loadNext h (votedFrom keep s.imageNo) s)
        let s := if first then takeVoted o s else s
        r.named.foldl (fun s l =>
          if inVote s l then excludeLanes [l] 0x01 (blockNaming r.verdicts l) (be 1 (blockNaming r.verdicts l)) s else s) s
      | [] => s

/-- Every lane in vote at a half has delivered the image latched last. -/
def allPresent (s : State) (h : Half) : Bool :=
  !(lanesAt s h).isEmpty && (lanesAt s h).all (fun l => (presentAt s h l).isSome)

/-- A lane may deliver to the voters: in vote, or rejoining and past the copying phase (R226, R235). -/
def delivers (s : State) (h : Half) (l : Lane) : Bool :=
  inVoteAt s h l || (triGet s.lanes l).ls = .catchingUp || (triGet s.lanes l).ls = .shadow

/-- OUTPUT_IMAGE (R209): a lane's output image arrives complete; `img` is what a faulty lane delivers in place of the
image it computed. DESIGN CHOICE, log 24 (safe). -/
def outputArrives (l : Lane) (h : Half) (img : Option OutputImage) (s : State) : State :=
  let o := match img with | some o => some o | none => (triGet s.lanes l).out
  match o with
  | none => s
  | some o =>
    let x := twoGet s.halves h
    if !x.inServ || !delivers s h l || o.num ≠ s.imageNo || x.votedImg = some s.imageNo then s
    else
      let s := { s with
        halves := twoMod s.halves h (fun y => { y with ingress := triPut y.ingress l (some o) })
        vote := { s.vote with longest := max s.vote.longest ((s.ns - s.vote.tickNs) / 1000) } }
      if allPresent s h then voteHalf h s else s

/-- OUTPUT_IMAGE (R209). -/
def execOutputImage (l : Lane) (h : Half) (img : Option OutputImage) (s : State) : Host.Outcome State Fault Refusal :=
  .next (outputArrives l h img s)

/-! ## Benchmarks -/

/-- The lanes leave commissioning mode and every journal entry is applied (R252). -/
def leavingNow (s : State) : Bool := s.comm.leaving && s.comm.journal.isEmpty

/-- Start-up steps that wait for a match of every image (R224, R610). -/
def matching (s : State) : Bool := s.power.step = 5 || s.power.step = 6

/-- Images that carry a benchmark (R218, R224, R252, R602). -/
def benchDue (s : State) : Bool :=
  s.imageNo % s.vote.n = 0 || rejoinUnderWay s || matching s || leavingNow s ||
    s.power.moving = some .quiet

/-- The benchmarks of the present image at a half. -/
def benchOf (s : State) (h : Half) (l : Lane) : Option (List Byte) :=
  match triGet (twoGet s.halves h).bench l with
  | some b => if b.1 = s.imageNo then some b.2 else none
  | none => none

/-- A comparator's verdict from the benchmarks present (Table 6.5). -/
def verdictOf : List (Lane × List Byte) → Verdict
  | [(_, a), (_, b)] => if a = b then .match_ else .noMajority
  | [(la, a), (lb, b), (lc, c)] =>
    if a = b then (if a = c then .match_ else .minority lc)
    else if a = c then .minority lb
    else if b = c then .minority la
    else .noMajority
  | _ => .none

/-- The benchmarks a half's comparator counts. -/
def benchList (s : State) (h : Half) : List (Lane × List Byte) :=
  (lanesAt s h).filterMap (fun l => (benchOf s h l).map (fun d => (l, d)))

/-- A comparator decides (R219). -/
def decideBench (h : Half) (s : State) : State :=
  let x := twoGet s.halves h
  if !x.inServ || !benchDue s || lanesAt s h = [] || x.decided.any (fun v => v.image = s.imageNo) then s
  else
    let ps := benchList s h
    let pre : Three (List Byte) := triMap x.bench (fun l _ => ((benchOf s h l).getD []).take 8)
    let s := (lanesAt s h).foldl (fun s l =>
      if ps.any (fun p => p.1 = l) then s
      else
        let was := twoGet (triGet s.lanes l).lateWas h
        let counted := twoGet (triGet s.lanes l).late h = sat 3 (was + 1)
        let s := { s with lanes := triMod s.lanes l (fun y => { y with late := twoPut y.late h (sat 3 (was + 1)) }) }
        if counted then s else raiseAt s.imageNo 4 (laneNo l) s) s
    { s with halves := twoMod s.halves h (fun y =>
        { y with decided := some { image := s.imageNo, verdict := verdictOf ps, prefixes := pre } }) }

/-- Code of a verdict (object 0x3102 sub 2). -/
def verdictCode : Verdict → Nat
  | .match_ => 0
  | .minority l => laneNo l + 1
  | .noMajority => 4
  | .none => 5

/-- The matched digest of the lanes in vote at a half. -/
def matchedDigest (s : State) : Option (List Byte) :=
  (allHalves.filterMap (fun h => ((benchList s h).head?).map (·.2))).head?

/-- Rejoining lanes' benchmarks against the match (R235): equal counts, different fails, absent neither. -/
def shadowBench (s : State) : State :=
  match matchedDigest s with
  | none => s
  | some d =>
    allLanes.foldl (fun s l =>
      let x := triGet s.lanes l
      if x.ls = .catchingUp || x.ls = .shadow then
        match (allHalves.filterMap (fun h => benchOf s h l)).head? with
        | some b => if b = d then { s with lanes := triPut s.lanes l { x with benchOk := some s.imageNo } } else failRejoin l 0x0D s
        | none => s
      else s) s

/-- A pending withdrawal whose benchmark image is not a match of three is cancelled (R241); event 12. -/
def checkWithdrawal (three : Bool) (s : State) : State :=
  if s.vote.pendLane.isSome && s.vote.pendFrom ≤ s.imageNo && s.imageNo % s.vote.n = 0 && !three then
    let s := raiseAt s.imageNo 12 0x4005 { s with vote := { s.vote with pendLane := none, cmdOutcome := 0x4005 } }
    if s.upd.phase = .withdrawing then rollNext (startRollBack s) else s
  else s

/-- START-MISMATCH (R224, Table 15.3): no match, or no majority, in start-up step 5 or 6. -/
def startMismatch (s : State) : State :=
  if matching s then chestWrite 3 0x30 s.power.startMiss [] s else s

/-- Images without a match while the module starts or leaves commissioning mode: the fourth is restrictive (R224,
R252). -/
def missedMatch (s : State) : State :=
  if matching s then
    let s := { s with power := { s.power with startMiss := s.power.startMiss + 1 } }
    if 4 ≤ s.power.startMiss then enterRestrictive (startMismatch s) else s
  else if leavingNow s then
    let s := { s with comm := { s.comm with leaveImgs := s.comm.leaveImgs + 1 } }
    if 4 ≤ s.comm.leaveImgs then enterRestrictive s else s
  else s

/-- Commissioning mode left with the first match (R252); event 14. The outputs wait for start-up confirmation. -/
def leaveDone (s : State) : State :=
  if leavingNow s then
    raiseAt s.imageNo 14 0 { s with
      comm := { s.comm with mode := false, leaving := false, leaveImgs := 0, debugOpen := false }
      power := { s.power with step := 7, step7At := s.ns, confirmed := false } }
  else s

/-- A verdict applied (Table 6.5). -/
def applyVerdict (v : VerdictMsg) (s : State) : State :=
  let three := v.verdict = .match_ && (lanesInVote s).length = 3 && v.prefixes.a ≠ [] && v.prefixes.b ≠ [] && v.prefixes.c ≠ []
  let s := { s with vote := { s.vote with benchImage := v.image, lastVerdict := verdictCode v.verdict, prefixes := v.prefixes } }
  let s := checkWithdrawal three s
  match v.verdict with
  | .match_ =>
    let s := { s with vote := { s.vote with
      matched := if three then some v.image else s.vote.matched, matchAny := some v.image } }
    leaveDone (shadowBench s)
  | .minority l =>
    let reason := if leavingNow s then 0x11 else 0x02
    missedMatch (excludeLanes [l] reason 0xFF (v.prefixes.a ++ v.prefixes.b ++ v.prefixes.c) s)
  | .noMajority => enterRestrictive (startMismatch s)
  | .none => missedMatch s

/-- A comparator in use: its half in service and not flagged (R220). -/
def cmpUp (s : State) (h : Half) : Bool := (twoGet s.halves h).inServ && !(twoGet s.halves h).flagged

/-- A half's verdict on the present image. -/
def decidedNow (s : State) (h : Half) : Option VerdictMsg :=
  match (twoGet s.halves h).decided with
  | some v => if v.image = s.imageNo then some v else none
  | none => none

/-- The verdict already applied to the present image. -/
def verdictDone (s : State) : Bool := s.vote.benchImage = s.imageNo && s.imageNo ≠ 0

/-- Agreeing verdicts, or the only comparator's, are applied (R220). -/
def settleBench (s : State) : State :=
  if verdictDone s then s
  else match cmpUp s .a, cmpUp s .b, decidedNow s .a, decidedNow s .b with
    | true, true, some a, some b => if a = b then applyVerdict a s else s
    | true, false, some a, _ => applyVerdict a s
    | false, true, _, some b => applyVerdict b s
    | _, _, _, _ => s

/-- BENCHMARK (R218): a lane's benchmark of the image latched last reaches a comparator; `dig` is what a faulty lane
delivers in place of its own digest. DESIGN CHOICE, log 24 (safe). -/
def benchArrives (l : Lane) (h : Half) (dig : Option (List Byte)) (s : State) : State :=
  let own := match dig with | some d => d | none => Config.benchDigest s.imageNo (triGet s.lanes l).kernel
  let d := (own ++ List.replicate 32 0#8).take 32
  if !(twoGet s.halves h).inServ || !delivers s h l || (triGet s.lanes l).ran ≠ s.imageNo || !benchDue s then s
  else
    let s := { s with halves := twoMod s.halves h (fun y => { y with bench := triPut y.bench l (some (s.imageNo, d)) }) }
    if (lanesAt s h).all (fun l => (benchOf s h l).isSome) && !(lanesAt s h).isEmpty then settleBench (decideBench h s) else s

/-- BENCHMARK (R218). -/
def execBenchmarkMsg (l : Lane) (h : Half) (dig : Option (List Byte)) (s : State) : Host.Outcome State Fault Refusal :=
  .next (benchArrives l h dig s)

/-- The more restrictive of two verdicts (R220). -/
def moreRestrictive (a b : VerdictMsg) : VerdictMsg :=
  match a.verdict, b.verdict with
  | .noMajority, _ => a
  | _, .noMajority => b
  | .minority x, .minority y => if x = y then a else { a with verdict := .noMajority }
  | .minority _, _ => a
  | _, .minority _ => b
  | .match_, _ => a
  | _, _ => b

/-- COMPARATOR_LINK_MESSAGE (R220): the verdicts differ and both comparators run their eight stored vectors; `passA`
and `passB` are what the vectors gave. -/
def linkMessage (passA passB : Bool) (s : State) : State :=
  match cmpUp s .a && cmpUp s .b && !verdictDone s, decidedNow s .a, decidedNow s .b with
  | true, some a, some b =>
    if a = b then settleBench s
    else
      let s := { s with vote := { s.vote with disagree := sat 0xFFFFFFFF (s.vote.disagree + 1) } }
      let flag (h : Half) (s : State) : State :=
        raiseAt s.imageNo 9 (halfNo h) { s with halves := twoMod s.halves h (fun y => { y with flagged := true, cmpVec := false }) }
      if passA && !passB then applyVerdict a (flag .b s)
      else if passB && !passA then applyVerdict b (flag .a s)
      else applyVerdict (moreRestrictive a b) (raiseAt s.imageNo 7 noDetail s)
  | _, _, _ => s

/-- COMPARATOR_LINK_MESSAGE (R220). -/
def execComparatorLinkMessage (passA passB : Bool) (s : State) : Host.Outcome State Fault Refusal :=
  .next (linkMessage passA passB s)

/-- VOTE_DEADLINE (R32): the half votes with what is present, its comparator decides. -/
def execVoteDeadline (h : Half) (s : State) : Host.Outcome State Fault Refusal :=
  .next (settleBench (decideBench h (voteHalf h s)))

/-- LATE_EXCLUSION (R214): a half's count for a lane is 3; never in commissioning mode (R247). -/
def lateExclusion (l : Lane) (s : State) : State :=
  let x := triGet s.lanes l
  if inVote s l && !s.comm.mode && (3 ≤ x.late.a || 3 ≤ x.late.b) then excludeLanes [l] 0x03 0xFF [] s else s

/-- LATE_EXCLUSION (R214). -/
def execLateExclusion (l : Lane) (s : State) : Host.Outcome State Fault Refusal := .next (lateExclusion l s)

/-- MEMORY_ERROR (R225): an uncorrectable error in a lane's memory. -/
def execMemoryError (l : Lane) (addr : Nat) (s : State) : Host.Outcome State Fault Refusal :=
  .next (excludeLane l 0x05 (be 8 addr) s)

/-- LANE_CLOCK_FAULT (R225). -/
def execLaneClockFault (l : Lane) (s : State) : Host.Outcome State Fault Refusal := .next (excludeLane l 0x07 [] s)

/-- LANE_SUPPLY_FAULT (R225). -/
def execLaneSupplyFault (l : Lane) (s : State) : Host.Outcome State Fault Refusal := .next (excludeLane l 0x08 [] s)

end Sys2Proof.Machine
end

