-- ==== Sys2Proof/Machine/Rejoin.lean ====
section
/-! DEFINITION. Rejoin (R230 to R238) and planned withdrawal of a lane (R239 to R242). -/

namespace Sys2Proof.Machine

/-- A lane's firmware area written by the loader during an install (R621, R622): from the new area, or from the fallback
area in a roll-back, which begins when the new area was discarded meanwhile. -/
def writeFirmware (l : Lane) (s : State) : State :=
  let s := if s.upd.phase = .writing && !s.upd.valid then startRollBack s else s
  let u := s.upd
  let put (ver cls : Nat) (dig : List Byte) (s : State) : State :=
    { s with lanes := triMod s.lanes l (fun x => { x with fwVersion := ver, fwClass := cls, fwDigest := dig }) }
  if u.phase = .writing then
    let s := put u.newVersion (((u.header).map (·.cclass)).getD 0) (((u.header).map (·.digest)).getD []) s
    { s with upd := { u with phase := .rejoining, block := ((u.header).map (·.blocks)).getD 1 - 1 } }
  else if u.phase = .rollingBack then put u.fallback u.fallClass u.fallDigest s
  else s

/-- REJOIN_START (R230): automatic, or returned by a Maintainer; not while an online change is armed. -/
def rejoinStart (l : Lane) (s : State) : State :=
  let x := triGet s.lanes l
  let mine := s.upd.lane = laneNo l && (s.upd.phase = .writing || s.upd.phase = .rollingBack)
  let may := (x.ls = .excluded && (s.vote.autoRejoin || mine)) ||
    ((x.ls = .withdrawn || x.ls = .held) && (x.returned || (mine && x.ls = .withdrawn)))
  if may && s.view.prog.ps ≠ .armed && !s.vote.restrictive && s.power.st = .run then
    startBooting l (if mine then writeFirmware l s else s)
  else s

/-- REJOIN_START (R230). -/
def execRejoinStart (l : Lane) (s : State) : Host.Outcome State Fault Refusal := .next (rejoinStart l s)

/-- Budget of the copying phase in ns (Table 6.9). -/
def copyBudget : Nat := 12 * secNs

/-- BOOTING_DONE (R231, R86): what the lane's firmware signature check, station-data check and memory test gave. -/
def bootingDone (l : Lane) (fw data mem : Bool) (s : State) : State :=
  let x := triGet s.lanes l
  if x.ls ≠ .booting then s
  else
  let s := { s with test := { s.test with insts := s.test.insts.map (fun p =>
    if p.1 = laneNo l then (p.1, { p.2 with rerun := none }) else p) } }
  if !fw then failRejoin l 0x0A s
  else if !data then failRejoin l 0x0B s
  else if !mem then failRejoin l 0x05 s
  else { s with lanes := triPut s.lanes l { x with ls := .copying, rounds := 0, copyPoint := none, keptImgs := [],
                                                   dueNs := s.ns + copyBudget, progress := 34 } }

/-- BOOTING_DONE (R231). -/
def execBootingDone (l : Lane) (fw data mem : Bool) (s : State) : Host.Outcome State Fault Refusal :=
  .next (bootingDone l fw data mem s)

/-- Pages that a final round may hold, and rounds that may pass without a copy point (R233). -/
def finalPages : Nat := 1024
def copyRounds : Nat := 20

/-- COPY_ROUND_END (R233): a pre-copy round ends with `pages` pages written since it began; `canStream` whether every
lane in vote could stream (R232). The copy point's snapshot is the state at the end of the image just voted. -/
def copyRoundEnd (l : Lane) (pages : Nat) (canStream : Bool) (s : State) : State :=
  let x := triGet s.lanes l
  if x.ls ≠ .copying || x.copyPoint.isSome || !imageVoted s then s
  else if !canStream then failRejoin l 0x0E s
  else if pages ≤ finalPages then
    { s with lanes := triPut s.lanes l { x with rounds := x.rounds + 1, copyPoint := some s.imageNo,
                                                kernel := leadKernel s, keptImgs := [], progress := 80 } }
  else if copyRounds ≤ x.rounds + 1 then failRejoin l 0x0E s
  else { s with lanes := triPut s.lanes l { x with rounds := x.rounds + 1 } }

/-- COPY_ROUND_END (R233). -/
def execCopyRoundEnd (l : Lane) (pages : Nat) (canStream : Bool) (s : State) : Host.Outcome State Fault Refusal :=
  .next (copyRoundEnd l pages canStream s)

/-- FINAL_ROUND_RECEIVED (R234): the kept images run back to back. -/
def finalRound (l : Lane) (s : State) : State :=
  let x := triGet s.lanes l
  if x.ls ≠ .copying || x.copyPoint.isNone then s
  else
    let y := x.keptImgs.foldl (fun v img => laneRun s PassTimes.zero img v) x
    { s with lanes := triPut s.lanes l { y with ls := .catchingUp, keptImgs := [], copyPoint := none, progress := 90,
                                                dueImg := imgAdd s.imageNo 60 } }

/-- FINAL_ROUND_RECEIVED (R234). -/
def execFinalRoundReceived (l : Lane) (s : State) : Host.Outcome State Fault Refusal := .next (finalRound l s)

/-- A rejoining lane's results of the image latched last equalled the voted ones (R235). -/
def shadowGood (s : State) (x : LaneSt) : Bool := x.outOk = some s.imageNo && x.benchOk = some s.imageNo

/-- LANE_ENTERS_VOTE (R235, R236): two consecutive equal images; the next tick comes. -/
def laneEnters (l : Lane) (s : State) : State :=
  let x := triGet s.lanes l
  if x.ls = .shadow && shadowGood s x && 1 ≤ x.shadowOk then
    raiseEv 3 (laneNo l) { s with lanes := triPut s.lanes l { x with
      ls := .inVote, line := ⟨s.halves.a.inServ, s.halves.b.inServ⟩, late := ⟨0, 0⟩, lateWas := ⟨0, 0⟩,
      progress := 0xFF, outOk := none, benchOk := none, shadowOk := 0 } }
  else s

/-- LANE_ENTERS_VOTE (R235). -/
def execLaneEntersVote (l : Lane) (s : State) : Host.Outcome State Fault Refusal := .next (laneEnters l s)

/-- The present phase of a rejoin is over its budget (Table 6.9). -/
def rejoinOver (s : State) (x : LaneSt) : Bool :=
  match x.ls with
  | .booting | .copying => x.dueNs < s.ns
  | .catchingUp | .shadow => imgReached s.imageNo (imgAdd x.dueImg 1)
  | _ => false

/-- REJOIN_TIMEOUT (R231). -/
def execRejoinTimeout (l : Lane) (s : State) : Host.Outcome State Fault Refusal :=
  .next (if rejoinOver s (triGet s.lanes l) then failRejoin l 0x0F s else s)

/-! ## Planned withdrawal -/

/-- Lane command outcome (object 0x8100 sub 2). -/
def laneOutcome (c : Nat) (s : State) : State := { s with vote := { s.vote with cmdOutcome := c } }

/-- A lane command's reply: 0x4001 and 0x4006 are no refusals. -/
def laneReply (c : Nat) (s : State) : State × Nat × List Byte :=
  (laneOutcome c s, if c = 0 || c = 0x4001 || c = 0x4006 then (rOk, []) else (rFunction, be 2 c))

/-- A withdrawal asked for (R239, R240). -/
def withdrawFn (l : Lane) (s : State) : State × Nat × List Byte :=
  if (lanesInVote s).length < 3 || rejoinUnderWay s then laneReply 0x4002 s
  else if s.vote.pendLane.isSome || s.view.prog.ps = .armed || loadChecking s || s.upd.updating || s.upd.phase ≠ .idle then
    laneReply 0x4003 s
  else if modeOf s ≠ 0 && modeOf s ≠ 1 then laneReply 0x4007 s
  else laneReply 0x4001 { s with vote := { s.vote with pendLane := some l, pendFrom := s.imageNo } }

/-- A lane returned (R242). -/
def returnFn (l : Lane) (s : State) : State × Nat × List Byte :=
  let x := triGet s.lanes l
  if x.ls = .withdrawn || x.ls = .held then
    laneReply 0 (abortTests (· = laneNo l) { s with lanes := triPut s.lanes l { x with returned := true } })
  else laneReply 0x4004 s

/-- A pending withdrawal cancelled by command (R241); event 12. -/
def cancelFn (s : State) : State × Nat × List Byte :=
  if s.vote.pendLane.isSome then
    let s := raiseEv 12 0x4006 { s with vote := { s.vote with pendLane := none } }
    laneReply 0x4006 (if s.upd.phase = .withdrawing then rollNext (startRollBack s) else s)
  else laneReply 0x4009 s

/-- WITHDRAW_LANE (R239): object 0x8100 sub 1. -/
def execWithdrawLane (sess : Nat) (l : Lane) (s : State) : Host.Outcome State Fault Refusal :=
  .next (asSession sess .maintainer false (withdrawFn l) s)

/-- RETURN_LANE (R242). -/
def execReturnLane (sess : Nat) (l : Lane) (s : State) : Host.Outcome State Fault Refusal :=
  .next (asSession sess .maintainer false (returnFn l) s)

/-- CANCEL_WITHDRAWAL (R241). -/
def execCancelWithdrawal (sess : Nat) (s : State) : Host.Outcome State Fault Refusal :=
  .next (asSession sess .maintainer false cancelFn s)

/-- A lane in vote leaves planned (R239): LSTATE 6, reason WITHDRAWN, outcome DONE, event 12. -/
def leavePlanned (l : Lane) (s : State) : State :=
  let s := { s with
    lanes := triMod s.lanes l (fun x => { x with ls := .withdrawn, reason := 0x10, line := ⟨false, false⟩, out := none,
                                                 returned := false })
    halves := twoMap s.halves (fun _ h => { h with ingress := triPut h.ingress l none, bench := triPut h.bench l none })
    vote := { s.vote with pendLane := none, cmdOutcome := 0 }
    upd := if s.upd.phase = .withdrawing then { s.upd with phase := .writing, block := 0 } else s.upd }
  raiseEv 12 (laneNo l) s

/-- WITHDRAWAL_TAKES_EFFECT (R239): image b matched with three benchmarks and its successor's tick comes. -/
def withdrawalEffect (s : State) : State :=
  match s.vote.pendLane with
  | some l =>
    if s.vote.pendFrom ≤ s.imageNo && s.imageNo % s.vote.n = 0 && s.vote.matched = some s.imageNo then leavePlanned l s else s
  | none => s

/-- WITHDRAWAL_TAKES_EFFECT (R239). -/
def execWithdrawalTakesEffect (s : State) : Host.Outcome State Fault Refusal := .next (withdrawalEffect s)

end Sys2Proof.Machine
end

