-- ==== Sys2Proof/Machine/Commission.lean ====
section
/-! DEFINITION. Commissioning mode and its debug journal (R246 to R252). -/

namespace Sys2Proof.Machine

/-- Commissioning mode asked for (R246): it takes effect at the next tick. DESIGN CHOICE, log 31 (safe). -/
def enterFn (s : State) : State × Nat × List Byte :=
  ({ s with comm := { s.comm with asked := true } }, rOk, [])

/-- Leaving asked for (R252). -/
def leaveFn (s : State) : State × Nat × List Byte :=
  (if s.comm.mode then { s with comm := { s.comm with leaving := true, leaveImgs := 0 } } else s, rOk, [])

/-- ENTER_COMMISSIONING (R246): object 0x8101 sub 1 written 1 by a Commissioner with the key active. -/
def execEnterCommissioning (sess : Nat) (s : State) : Host.Outcome State Fault Refusal :=
  .next (asSession sess .commissioner true enterFn s)

/-- LEAVE_COMMISSIONING (R252): object 0x8101 sub 1 written 2. -/
def execLeaveCommissioning (sess : Nat) (s : State) : Host.Outcome State Fault Refusal :=
  .next (asSession sess .commissioner true leaveFn s)

/-- Entries of the debug journal (R250). -/
def journalCap : Nat := 1024

/-- Debug access to Lane A is open (R246, R251). -/
def debugReady (s : State) : Bool := s.comm.mode && s.comm.debugOpen && s.lio.key

/-- Retired-instruction count of a lane's core. -/
def coreCount (v : LaneSt) (core : Nat) : Nat := v.cores.getD core 0

/-- What an action does to a lane (Table 6.11). DESIGN CHOICE, log 32 (unsafe). -/
def actOn (l : Lane) (a : JAction) (core addr : Nat) (data : List Byte) (s : State) : State :=
  match a with
  | .halt => { s with lanes := triMod s.lanes l (fun v => { v with halted := (v.halted ++ [core]).eraseDups }) }
  | .resume => { s with lanes := triMod s.lanes l (fun v => { v with halted := v.halted.filter (· ≠ core) }) }
  | .memWrite => { s with comm := { s.comm with mem := triMod s.comm.mem l (fun t => tabPut t addr data) } }
  | .regWrite => { s with comm := { s.comm with regs := triMod s.comm.regs l (fun t => tabPut t (core * 65536 + addr) data) } }

/-- An action journaled before it takes effect in Lane A (R249). -/
def journal (a : JAction) (core count addr : Nat) (data : List Byte) (s : State) : State :=
  let j : JEntry := { seq := s.comm.seq + 1, core := core, action := a, count := count, addr := addr,
                      image := s.imageNo, data := data, doneB := false, doneC := false }
  actOn .a a core addr data { s with comm := { s.comm with journal := s.comm.journal ++ [j], seq := s.comm.seq + 1 } }

/-- A changing action of the debug access, or event 15 when the journal has no room for its entries (R250). -/
def debugAct (n core : Nat) (f : State → State) (s : State) : State :=
  if !debugReady s || 3 < core then s
  else if journalCap < s.comm.journal.length + n then raiseEv 15 core s
  else f s

/-- DEBUG_HALT (R249). -/
def execDebugHalt (core : Nat) (s : State) : Host.Outcome State Fault Refusal :=
  .next (debugAct 1 core (fun s => journal .halt core (coreCount s.lanes.a core) 0 [] s) s)

/-- BREAKPOINT_HIT (R249): recorded as a halt at the hit count. -/
def execBreakpointHit (core count : Nat) (s : State) : Host.Outcome State Fault Refusal :=
  .next (debugAct 1 core (fun s => journal .halt core (max count (coreCount s.lanes.a core)) 0 [] s) s)

/-- DEBUG_RESUME (R249). -/
def execDebugResume (core : Nat) (s : State) : Host.Outcome State Fault Refusal :=
  .next (debugAct 1 core (fun s => journal .resume core (coreCount s.lanes.a core) 0 [] s) s)

/-- DEBUG_SINGLE_STEP (R249): a resume, and a halt at count + 1. -/
def execDebugSingleStep (core : Nat) (s : State) : Host.Outcome State Fault Refusal :=
  .next (debugAct 2 core (fun s =>
    let n := coreCount s.lanes.a core
    let s := journal .resume core n 0 [] s
    journal .halt core (n + 1) 0 [] { s with lanes := { s.lanes with a := { s.lanes.a with cores := s.lanes.a.cores.set core (n + 1) } } }) s)

/-- DEBUG_MEMORY_WRITE (R249): at most 256 bytes (Table 6.11). -/
def execDebugMemoryWrite (core addr : Nat) (data : List Byte) (s : State) : Host.Outcome State Fault Refusal :=
  .next (if data.length ≤ 256 then debugAct 1 core (fun s => journal .memWrite core (coreCount s.lanes.a core) addr data s) s else s)

/-- DEBUG_REGISTER_WRITE (R249). -/
def execDebugRegisterWrite (core reg : Nat) (data : List Byte) (s : State) : Host.Outcome State Fault Refusal :=
  .next (if data.length ≤ 256 then debugAct 1 core (fun s => journal .regWrite core (coreCount s.lanes.a core) reg data s) s else s)

/-- Entries freed once Lanes B and C, as far as they are in vote, have applied them (R250). -/
def freeEntries (s : State) : State :=
  { s with comm := { s.comm with journal := s.comm.journal.filter (fun j =>
      !((j.doneB || !inVote s .b) && (j.doneC || !inVote s .c))) } }

/-- INSTRUCTION_COUNT_PUBLISH (R248): Lane A's counts of its four cores; Lanes B and C follow up to them. -/
def execInstructionCountPublish (counts : List Nat) (s : State) : Host.Outcome State Fault Refusal :=
  let up (old : List Nat) : List Nat := (List.range 4).map (fun i => max (old.getD i 0) (counts.getD i 0))
  .next (if s.comm.mode then
      let a := up s.lanes.a.cores
      let follow (v : LaneSt) : LaneSt := { v with cores := (List.range 4).map (fun i =>
        if v.halted.contains i then v.cores.getD i 0 else a.getD i 0) }
      { s with comm := { s.comm with published := a },
               lanes := { a := { s.lanes.a with cores := a }, b := follow s.lanes.b, c := follow s.lanes.c } }
    else s)

/-- An entry of the journal that a lane has not applied. -/
def notDone (l : Lane) (j : JEntry) : Bool :=
  match l with
  | .a => false
  | .b => !j.doneB
  | .c => !j.doneC

/-- JOURNAL_ENTRY_APPLY (R249): Lane B or C applies its oldest entry of a core whose count that core has reached. -/
def journalApply (l : Lane) (core : Nat) (s : State) : State :=
  match s.comm.journal.find? (fun j => notDone l j && j.core = core) with
  | some j =>
    if j.count ≤ max (coreCount (triGet s.lanes l) core) (s.comm.published.getD core 0) then
      let mark (k : JEntry) : JEntry :=
        if k.seq ≠ j.seq then k else match l with | .b => { k with doneB := true } | .c => { k with doneC := true } | .a => k
      let s := actOn l j.action j.core j.addr j.data { s with comm := { s.comm with journal := s.comm.journal.map mark } }
      freeEntries s
    else s
  | none => s

/-- JOURNAL_ENTRY_APPLY (R249). -/
def execJournalEntryApply (l : Lane) (core : Nat) (s : State) : Host.Outcome State Fault Refusal :=
  .next (journalApply l core s)

/-- COMMISSIONING_KEY_INACTIVE (R251): the debug access closes, every halted core resumes; the mode stays. -/
def keyInactive (s : State) : State :=
  if s.comm.debugOpen && !s.lio.key then
    let s := s.lanes.a.halted.foldl (fun s c => journal .resume c (coreCount s.lanes.a c) 0 [] s) s
    { s with comm := { s.comm with debugOpen := false } }
  else s

/-- COMMISSIONING_KEY_INACTIVE (R251). -/
def execCommissioningKeyInactive (s : State) : Host.Outcome State Fault Refusal := .next (keyInactive s)

end Sys2Proof.Machine
end

