-- ==== Sys2Proof/Machine/Trestle.lean ====
section
/-! DEFINITION. Trestle (R255 to R281): the walks of one half over its own bus input image and command image, the
claim sweep, the judgement of drives and open outputs, the permit words, the outgoing clear-ahead bits. -/

namespace Sys2Proof.Machine

/-! ## The command image -/

/-- The voted command block that serves a controller in a bus cycle: its stamps cover the counter. -/
def cmdFor (v : Option VotedImage) (counter port : Nat) : Option VotedCmd :=
  match v with
  | some v =>
    match tabFind v.cmds port with
    | some c => if (counter + 0x100000000 - c.block.first) % 0x100000000 < c.block.count then some c else none
    | none => none
  | none => none

/-- An output point as commanded in a bus cycle (Table 9.8). -/
def cmdBit (v : Option VotedImage) (counter key : Nat) : Bool :=
  match cmdFor v counter (key / 1024) with
  | some c =>
    let p := key % 1024
    p < field c.block.payload 0 2 && bit (field c.block.payload (8 + 4 * (p / 32)) 4) (p % 32)
  | none => false

/-- The authority record of a slot in the command image (Table 5.5): start section, end section, direction. -/
def cmdAuth (v : Option VotedImage) (counter port slot : Nat) : Option (Nat × Nat × Dir) :=
  match cmdFor v counter port with
  | some c =>
    let off := 8 + 4 * ((field c.block.payload 0 2 + 31) / 32) + 24 * slot
    some (field c.block.payload (off + 14) 2, field c.block.payload (off + 16) 2, dirOf (field c.block.payload (off + 3) 1))
  | none => none

/-! ## Walks -/

/-- Reason codes of Table 7.8 that a walk gives. -/
def tNotClear : Nat := 2
def tNoDetection : Nat := 3
def tTrailing : Nat := 4
def tCrossing : Nat := 5
def tBoundary : Nat := 6
def tOpposing : Nat := 7
def tUnrelated : Nat := 8
def tEnd : Nat := 9
def tLimit : Nat := 10

/-- What a walk reads: site, the half's bus input image, clear-ahead bits present and set (R263). -/
structure TEnv where
  st : Station
  img : BusImage
  clear : Nat → Bool

/-- A walk so far: sections reached with the direction of travel, points reached, signals passed in their facing
direction, elements counted, the element that failed with its reason, boundaries whose bit was missing. -/
structure Walk where
  secs : List (Nat × Dir)
  pts : List Nat
  sigs : List Nat
  len : Nat
  fail : Option (Nat × Nat)
  deriving DecidableEq, Repr

/-- A walk that has not begun. -/
def Walk.none : Walk := { secs := [], pts := [], sigs := [], len := 0, fail := Option.none }

/-- The failing element of a walk recorded. -/
def Walk.failed (w : Walk) (culprit reason : Nat) : Walk := { w with fail := some (culprit, reason) }

/-- A crossing that protects a section and is not shown closed. -/
def openCrossing (t : TEnv) (n : Nat) : Option Nat :=
  (t.st.crossings.find? (fun c => c.prot.contains n && !closedInput t.st t.img c.num)).map (·.num)

/-- What ends a walk of its own accord: a signal's stopping limits (R67), an authority's end section (R266), the
first signal inward of a boundary (R264). -/
inductive Goal where
  | signal (g : Nat)
  | auth (eSec : Nat)
  | inward
  deriving DecidableEq, Repr

/-- The first section of a walk is an authority's start section. -/
def startFree (g : Goal) (first : Bool) : Bool := match g with | .auth _ => first | _ => false

/-- Checks of one section (Table 7.3, R266) with the way out it leaves open. -/
def walkSection (t : TEnv) (g : Goal) (first : Bool) (x : SectionRec) (c : Int) (d : Dir) (prev : Option Nat)
    (w : Walk) : Walk × Option Exit :=
  let w := { w with secs := w.secs ++ [(x.num, d)], len := w.len + 1 }
  if !startFree g first && occupied t.st t.img x.num then (w.failed x.num tNotClear, none)
  else match openCrossing t x.num with
    | some n => (w.failed n tCrossing, none)
    | none =>
      match facingPoint t.st x c d with
      | some p =>
        let w := { w with pts := w.pts ++ [p.num], len := w.len + 1 }
        match detOf t.st t.img p.num with
        | none => (w.failed p.num tNoDetection, none)
        | some _ => (w, (exitsDet t.st t.img x c d).head?)
      | none =>
        match t.st.points.find? (fun p => p.sec = x.num && p.toeDir = d) with
        | some p =>
          let w := { w with pts := w.pts ++ [p.num], len := w.len + 1 }
          match detOf t.st t.img p.num with
          | none => (w.failed p.num tNoDetection, none)
          | some k =>
            if startFree g first || trailPos t.st p prev = some k then (w, (exits t.st x c d).head?)
            else (w.failed p.num tTrailing, none)
        | none => (w, (exits t.st x c d).head?)

/-- Elements a walk may hold (R68). -/
def walkLimit : Nat := 128

/-- Length of a stretch. -/
def gap (a b : Int) : Int := if a < b then b - a else a - b

/-- A walk (R261, R264, R266, R267) over at most `fuel` sections; `over` is what is left of a Trestle overlap. -/
def walkFrom (t : TEnv) (g : Goal) : Nat → Bool → Nat → Int → Dir → Option Nat → Option Int → Walk → Walk
  | 0, _, n, _, _, _, _, w => w.failed n tLimit
  | fuel + 1, first, n, c, d, prev, beyond, w =>
    match secRec t.st n with
    | none => w.failed n tEnd
    | some x =>
      if walkLimit ≤ w.len && !(decide (g = .inward)) then w.failed n tLimit
      else
        match walkSection t g first x c d prev w with
        | (w, none) => if w.fail.isSome then w else w.failed n tEnd
        | (w, some ex) =>
          let sig := signalAt t.st x d ex
          let rest := beyond.map (fun o => o - gap c ex.at_)
          let passed := match sig with | some y => { w with sigs := w.sigs ++ [y.num] } | none => w
          let next (beyond : Option Int) (w : Walk) : Walk :=
            match ex.nxt with
            | .stop => match g with | .auth _ => w.failed n tEnd | _ => w
            | .bnd b =>
              match g with
              | .auth _ => w.failed b tEnd
              | _ => if t.clear b then { w with len := w.len + 1 } else w.failed b tBoundary
            | .sec m c' d' => walkFrom t g fuel false m c' d' (some n) beyond w
          match g with
          | .auth eSec => if n = eSec then w else next none passed
          | .inward => if sig.isSome || walkLimit ≤ w.len then w else next none w
          | .signal _ =>
            match rest with
            | some r => if r ≤ 0 then w else next (some r) w
            | none =>
              match sig with
              | some y => if y.overlapMm = 0 then w else next (some y.overlapMm) passed
              | none => next none w

/-- Walk of a signal (R262). -/
def signalWalk (t : TEnv) (g : SignalRec) : Walk :=
  match secRec t.st g.start with
  | some x =>
    let d := match breakFrom t.st g.sec g.start with | some b => if b.2.2 then opposite g.facing else g.facing | none => g.facing
    let c := match breakFrom t.st g.sec g.start with | some b => b.2.1 | none => entryOf x d
    let prev := if g.sec = g.start then none else some g.sec
    walkFrom t (.signal g.num) (walkLimit + 1) true g.start c d prev none Walk.none
  | none => Walk.none.failed g.start tEnd

/-- Walk of an authority slot (R266). -/
def authWalkT (t : TEnv) (sSec eSec : Nat) (d : Dir) : Walk :=
  if d = .unknown then Walk.none.failed 0xFFFF 0x12
  else match secRec t.st sSec with
    | some x => walkFrom t (.auth eSec) (walkLimit + 1) true sSec (entryOf x d) d none none Walk.none
    | none => Walk.none.failed sSec tEnd

/-- Outgoing clear-ahead walk of a boundary (R264). -/
def inwardWalk (t : TEnv) (b : BoundaryRec) : Walk :=
  match secRec t.st b.sec with
  | some x =>
    let d : Dir := if b.high then .falling else .rising
    walkFrom t .inward (walkLimit + 1) true b.sec (entryOf x d) d none none Walk.none
  | none => Walk.none.failed b.sec tEnd

/-! ## Claims -/

/-- Whose walk it is. -/
inductive Walker where
  | signal (g : Nat)
  | auth (slot sSec : Nat)
  deriving DecidableEq, Repr

/-- Two walks in the same direction are related (Table 7.4). -/
def related (st : Station) (a b : Walker × Walk) : Bool :=
  match a.1, b.1 with
  | .signal g, .signal h => st.relations.contains (g, h) || st.relations.contains (h, g)
  | .auth _ s, .signal g => a.2.sigs.contains g || b.2.secs.any (fun p => p.1 = s)
  | .signal g, .auth _ s => b.2.sigs.contains g || a.2.secs.any (fun p => p.1 = s)
  | .auth _ _, .auth _ _ => false

/-- The claims of a walk: the sections of one that passed every element. -/
def claims (w : Walk) : List (Nat × Dir) := if w.fail.isNone then w.secs else []

/-- The first section at which another walk's claim stands against a walk's, with the reason (R267). -/
def conflictOf (st : Station) (all : List (Walker × Walk)) (a : Walker × Walk) : Option (Nat × Nat) :=
  (claims a.2).findSome? (fun p =>
    let others := all.filter (fun b => decide (b.1 ≠ a.1) && (claims b.2).any (fun q => q.1 = p.1))
    if others.any (fun b => (claims b.2).any (fun q => q.1 = p.1 && decide (q.2 ≠ p.2))) then some (p.1, tOpposing)
    else if others.any (fun b => !related st a b) then some (p.1, tUnrelated)
    else none)

/-! ## Outputs -/

/-- An output that Trestle permits: its selection key (object 0x3210), its controller points, its kind. -/
inductive OutKind where
  | signal (g : Nat)
  | drive (p pos : Nat)
  | crossing (x : Nat)
  | slot (port n : Nat)
  | free
  deriving DecidableEq, Repr

structure TOut where
  key : Nat
  order : Nat
  points : List Nat
  kind : OutKind
  cmd : Bool

/-- Selection key of Table 7.7. -/
def outKey (kind port elem : Nat) : Nat := kind * 2 ^ 24 + port * 2 ^ 16 + elem

/-- Every output of the module with its command, controllers' first, then the local ones (R260, R270). -/
def trestleOutputs (st : Station) (v : Option VotedImage) (locals : Option LocalBlock) (counter : Nat) : List TOut :=
  let ord (l : List Nat) : Nat := l.foldl min 0xFFFFFF
  let sig := (st.signals.filter (fun g => !g.outs.isEmpty)).map (fun g =>
    let pts := g.outs.map pointKey
    ({ key := outKey 1 (pts.headD 0 / 1024) g.num, order := ord pts, points := pts, kind := .signal g.num,
       cmd := pts.any (cmdBit v counter) } : TOut))
  let drv := (st.points.map (fun p => ((List.range p.drive.length).zip p.drive).map (fun d =>
    ({ key := outKey 2 d.2.port p.num, order := pointKey d.2, points := [pointKey d.2], kind := .drive p.num d.1,
       cmd := cmdBit v counter (pointKey d.2) } : TOut)))).flatten
  let xng := st.crossings.map (fun c =>
    ({ key := outKey 3 c.openOut.port c.num, order := pointKey c.openOut, points := [pointKey c.openOut],
       kind := .crossing c.num, cmd := cmdBit v counter (pointKey c.openOut) } : TOut))
  let aut := (st.authSlots.map (fun t => ((List.range t.2.length).zip t.2).map (fun p =>
    ({ key := outKey 4 t.1 p.1, order := t.1 * 1024 + p.2, points := [t.1 * 1024 + p.2], kind := .slot t.1 p.1,
       cmd := cmdBit v counter (t.1 * 1024 + p.2) } : TOut)))).flatten
  let loc := st.localOuts.map (fun o =>
    let on := (locals.map (fun b => b.outs.getD (o.num - 1) false)).getD false
    ({ key := outKey 5 0 o.num, order := 16 * 1024 + o.num, points := [],
       kind := match o.kind with
         | .signal => .signal o.elem | .drive pos => .drive o.elem pos | .crossing => .crossing o.elem | .unbound => .free,
       cmd := on } : TOut))
  sig ++ drv ++ xng ++ aut ++ loc

/-- Walks of one bus cycle: one per signal and per slot commanded permissive. -/
def trestleWalks (t : TEnv) (v : Option VotedImage) (counter : Nat) (outs : List TOut) : List (Walker × Walk) :=
  let gs := (outs.filterMap (fun o => match o.kind with | .signal g => if o.cmd then some g else none | _ => none)).eraseDups
  let ss := outs.filterMap (fun o => match o.kind with | .slot p n => if o.cmd then some (p, n) else none | _ => none)
  gs.filterMap (fun n => (sigRec t.st n).map (fun g => (Walker.signal n, signalWalk t g))) ++
  ss.map (fun p => match cmdAuth v counter p.1 p.2 with
    | some a => (Walker.auth (p.1 * 256 + p.2) a.1, authWalkT t a.1 a.2.1 a.2.2)
    | none => (Walker.auth (p.1 * 256 + p.2) 0xFFFF, Walk.none.failed 0xFFFF tEnd))

/-- The walk of a walker. -/
def walkOf (ws : List (Walker × Walk)) (p : Walker → Bool) : Option (Walker × Walk) := ws.find? (fun w => p w.1)

/-- Why one commanded output is withheld (R261 to R269); none when it is permitted. -/
def withheldFor (t : TEnv) (ws : List (Walker × Walk)) (outs : List TOut) (o : TOut) : Option (Nat × Nat) :=
  let walked (p : Walker → Bool) : Option (Nat × Nat) :=
    match walkOf ws p with
    | some w => match w.2.fail with | some f => some f | none => conflictOf t.st ws w
    | none => some (0xFFFF, tEnd)
  match o.kind with
  | .signal g => walked (fun w => decide (w = .signal g))
  | .slot p n => walked (fun w => match w with | .auth s _ => decide (s = p * 256 + n) | .signal _ => false)
  | .drive p pos =>
    let own := ((ptRec t.st p).map (·.sec)).getD 0xFFFF
    if occupied t.st t.img own then some (own, 0x0B)
    else if ws.any (fun w => w.2.pts.contains p) then some (p, 0x0C)
    else if outs.any (fun q => q.cmd && (match q.kind with | .drive r k => decide (r = p) && decide (k ≠ pos) | _ => false)) then
      some (p, 0x0D)
    else none
  | .crossing x =>
    match xingRec t.st x with
    | some c =>
      (c.prot.find? (fun n => occupied t.st t.img n || ws.any (fun w => w.2.secs.any (fun s => s.1 = n)))).map (fun n => (n, 0x0E))
    | none => some (x, 0x0E)
  | .free => none

/-- Outputs evaluated in one bus cycle (R260). -/
def trestleCap : Nat := 2048

/-- The decision on one output. -/
def decide1 (t : TEnv) (inhibit : Bool) (ws : List (Walker × Walk)) (outs : List TOut) (o : TOut) : Decision :=
  if inhibit then { culprit := 0xFFFF, reason := if o.cmd then 0x11 else 1, cmd := o.cmd, permit := false }
  else if !o.cmd then { culprit := 0xFFFF, reason := 1, cmd := false, permit := false }
  else if trestleCap ≤ (outs.filter (fun q => q.cmd && q.order < o.order)).length then
    { culprit := 0xFFFF, reason := 0x0F, cmd := true, permit := false }
  else match withheldFor t ws outs o with
    | some f => { culprit := f.1, reason := f.2, cmd := true, permit := false }
    | none => { culprit := 0xFFFF, reason := 0, cmd := true, permit := true }

/-- A boundary's outgoing clear-ahead bit (R264). -/
def clearAheadBit (t : TEnv) (ws : List (Walker × Walk)) (b : BoundaryRec) : Bool :=
  let w := inwardWalk t b
  w.fail.isNone && w.secs.all (fun p => !ws.any (fun v => (claims v.2).any (fun q => q.1 = p.1 && decide (q.2 = opposite p.2))))

/-! ## Permit words -/

/-- Highest output point of a controller in the permit map, plus one (R271). -/
def permitPoints (st : Station) (port : Nat) : Nat :=
  let l := ((outputBindings st).filter (fun b => b.port = port)).map (·.point) ++ tabGet st.authSlots port []
  l.foldl (fun a p => max a (p + 1)) 0

/-- One map word: 16 cells with the phase value where permitted (R272). -/
def permitWord (on : Nat → Bool) (counter w : Nat) : Nat :=
  (List.range 16).foldl (fun a i => a + (if on (w * 16 + i) then (if counter % 2 = 0 then 1 else 2) * 4 ^ i else 0)) 0

/-- Bytes of a permit word (Table 7.5), with its check value over the implicit prefix, header and map (R273, R383). -/
def permitBytes (s : State) (h : Half) (port : Nat) (p : PermitWord) : List Byte :=
  let body := envHeader ((halfNo h + 1) * 0x1000 + s.dict.modAddr % 4096) p.seq p.stamp p.epoch 0x50 (b2n p.inhibit)
    (4 * p.words.length) ++ (p.words.map (be 4)).flatten
  let id := welongId 3 s.dict.modAddr port s.cfg.site
  body ++ be 4 (envCheck (id ^^^ trestleSeed h) (s.bus.counter / 2 ^ 32) body)

/-- Base of a half's permit connection (R386): sequence 1 at the first word after the half started. -/
def permitBase (s : State) (h : Half) (port : Nat) : Nat :=
  (twoGet (envOf s port).permBase h).getD ((0x100000001 - s.bus.counter % 0x100000000) % 0x100000000)

/-- The permit word of a controller in a bus cycle (R271 to R275). -/
def permitFor (s : State) (h : Half) (port : Nat) (inhibit : Bool) (on : Nat → Bool) : PermitWord :=
  let st := s.bus.counter % 0x100000000
  let n := (permitPoints s.cfg port + 15) / 16
  let p : PermitWord :=
    { seq := (st + permitBase s h port) % 0x100000000, stamp := st, epoch := s.pair.epoch, inhibit := inhibit,
      words := (List.range n).map (permitWord (fun i => !inhibit && on (port * 1024 + i)) s.bus.counter), bytes := [] }
  { p with bytes := permitBytes s h port p }

/-- Every cell withheld by mode (R275). -/
def inhibited (s : State) : Bool := s.comm.mode || s.power.unconfigured || !s.power.confirmed

/-- Outputs of a half that withheld in this bus cycle, counted in a row (event 37). -/
def countWithheld (old : Tab Nat) (ds : Tab Decision) : Tab Nat :=
  ds.foldl (fun t d => if d.2.cmd && !d.2.permit then tabPut t d.1 (tabGet old d.1 0 + 1) else t) []

/-- Drive outputs of different positions of one point commanded permissive together (R268). -/
def doubleDriven (outs : List TOut) (n : Nat) : Bool :=
  2 ≤ ((outs.filterMap (fun o => match o.kind with
    | .drive p k => if o.cmd && p = n then some k else none
    | _ => none)).eraseDups).length

/-- One half's evaluation of a bus cycle (R259) with the permit words it assembles. DESIGN CHOICE, log 35 (safe). -/
def evaluate (h : Half) (clear : Nat → Bool) (s : State) : State :=
  let x := twoGet s.halves h
  let t : TEnv := { st := s.cfg, img := twoGet s.busImg h, clear := clear }
  let locals := match x.active with | some v => v.locals | none => none
  let outs := trestleOutputs s.cfg x.active locals s.bus.counter
  let ws := trestleWalks t x.active s.bus.counter outs
  let inh := inhibited s || !(twoGet s.tres h).lock
  let ds : Tab Decision := outs.foldl (fun m o =>
    let d := decide1 t inh ws outs o
    match tabFind m o.key with
    | some e => if e.cmd then m else tabPut m o.key d
    | none => tabPut m o.key d) []
  let permitted (o : TOut) : Bool := (decide1 t inh ws outs o).permit
  let cells := (outs.filter permitted).flatMap (·.points)
  let conflicts := (ws.filter (fun w => w.2.fail.isNone && (conflictOf s.cfg ws w).isSome)).length
  let bad := (ds.filter (fun d => d.2.cmd && !d.2.permit)).length
  let missing := ((ws.filterMap (fun w => match w.2.fail with | some f => if f.2 = tBoundary then some f.1 else none | none => none)).eraseDups).filter
    (fun b => !s.tres.a.bndSeen.contains b && !s.tres.b.bndSeen.contains b)
  let y := twoGet s.tres h
  let run := countWithheld (if y.decisions.isEmpty then [] else y.withheldRun) ds
  let y' : TrestleSt := { y with
    withheld := sat 0xFFFFFFFF (y.withheld + bad), conflicts := sat 0xFFFFFFFF (y.conflicts + conflicts),
    longEval := max y.longEval (Config.evalTime s.bus.counter % 65536), longWalk := ws.foldl (fun a w => max a w.2.len) y.longWalk,
    decisions := ds, withheldRun := run, withheldTold := y.withheldTold.filter (fun k => (tabFind run k).isSome),
    clearOut := s.cfg.boundaries.foldl (fun m b => tabPut m b.num (clearAheadBit t ws b)) [],
    bndSeen := y.bndSeen ++ missing }
  let tx := twoGet s.tx h
  let ports := boundPorts s.cfg
  let tx' : TxSt := { tx with
    permits := ports.foldl (fun m p => tabPut m p (permitFor s h p inh cells.contains)) []
    localPermit := (List.range 16).map (fun i => outs.any (fun o => o.key = outKey 5 0 (i + 1) && permitted o)) }
  let s := { s with tres := twoPut s.tres h y', tx := twoPut s.tx h tx',
                    env := ports.foldl (fun m p => tabMod m p EnvPort.init (fun x =>
                      { x with permBase := twoPut x.permBase h (some (permitBase s h p)) })) s.env }
  let s := match ds.find? (fun d => d.2.reason = 7 || d.2.reason = 8) with
    | some d => raiseEv 34 d.2.culprit s
    | none => s
  let s := missing.foldl (fun s b => raiseEv 35 b s) s
  match s.cfg.points.find? (fun p => doubleDriven outs p.num) with
  | some p => raiseEv 36 p.num s
  | none => s

/-! ## Rows -/

/-- EVALUATION_OVERRUN (R25, R259): a walk not finished at 119.5 µs withholds its output's permit; event 33; the half
is disabled at the end of the bus cycle. -/
def evaluationOverrun (h : Half) (key : Nat) (s : State) : State :=
  if !(twoGet s.halves h).inServ || (tabFind (twoGet s.tres h).decisions key).isNone then s
  else
    let x := (twoGet s.halves h).active
    let locals := match x with | some v => v.locals | none => none
    let pts := ((trestleOutputs s.cfg x locals s.bus.counter).filter (fun o => o.key = key)).flatMap (·.points)
    let drop (port : Nat) (p : PermitWord) : PermitWord :=
      let words := (List.range p.words.length).map (fun w =>
        permitWord (fun i => bits (p.words.getD (i / 16) 0) (2 * (i % 16) + 1) (2 * (i % 16)) ≠ 0 && !pts.contains (port * 1024 + i))
          p.stamp w)
      { p with words := words, bytes := permitBytes s h port { p with words := words } }
    let tx := twoGet s.tx h
    let locP := if key / 2 ^ 24 = 5 then tx.localPermit.set (key % 65536 - 1) false else tx.localPermit
    let tx' : TxSt := { tx with permits := tabMap tx.permits drop, localPermit := locP }
    let d : Decision := { culprit := 0xFFFF, reason := 0x10, cmd := true, permit := false }
    let put (y : TrestleSt) : TrestleSt := { y with overran := true, decisions := tabPut y.decisions key d }
    let s := { s with tres := twoMod s.tres h put, tx := twoPut s.tx h tx' }
    raiseEv 33 (halfNo h) s

/-- EVALUATION_OVERRUN (R25). -/
def execEvaluationOverrun (h : Half) (key : Nat) (s : State) : Host.Outcome State Fault Refusal :=
  .next (evaluationOverrun h key s)

/-- GRAPH_SCRUB (R278): a pass of the scrub ends; a mismatch disables the half. -/
def execGraphScrub (h : Half) (mismatch : Bool) (s : State) : Host.Outcome State Fault Refusal :=
  .next (if mismatch && (twoGet s.halves h).inServ then disableHalf h 5 halfDisabled [] s else s)

/-- An output that one half has withheld for L consecutive bus cycles up to the present one, and that is not reported.
DEDUCED, log 97 (safe). -/
def withheldLong (s : State) (h : Half) (key : Nat) : Bool :=
  let y := twoGet s.tres h
  (tabFind y.decisions key).any (fun d => d.cmd && !d.permit) && (tabFind y.withheldRun key).any (fun n => s.bus.lCyc ≤ n) &&
    !y.withheldTold.contains key

/-- OUTPUT_WITHHELD_L_CYCLES (R281): an output commanded permissive and withheld in L consecutive bus cycles; the module raises
event 37 once in such a stretch. DEDUCED, log 97 (safe). -/
def withheldL (h : Half) (key : Nat) (s : State) : State :=
  if withheldLong s h key then
    raiseEv 37 (key % 65536) { s with tres := twoMap s.tres (fun _ y => { y with withheldTold := y.withheldTold ++ [key] }) }
  else s

/-- OUTPUT_WITHHELD_L_CYCLES (R281). -/
def execOutputWithheldLCycles (h : Half) (key : Nat) (s : State) : Host.Outcome State Fault Refusal :=
  .next (withheldL h key s)

end Sys2Proof.Machine
end

