-- ==== Sys2Proof/Machine/Welong.lean ====
section
/-! DEFINITION. The Welong bus (R328 to R375): frames received before a head, cold start and integration, links and their
delay, port closing, spare slots, schedule modes. -/

namespace Sys2Proof.Machine

/-! ## Small parts -/

/-- Event of a channel's ports closing and reopening (19, 20) or its links (17, 18). -/
def portEvent (base : Nat) (h : Half) : Nat := base + halfNo h

/-- A channel changed. -/
def modChan (h : Half) (f : ChanSt → ChanSt) (s : State) : State :=
  { s with bus := { s.bus with chans := twoMod s.bus.chans h f } }

/-- Bus-cycle length of mode 0 in ns, or the default bus cycle when the module is unconfigured. -/
def busNs0 (s : State) : Nat := ((modeRec s 0).map (·.busNs)).getD 500000

/-- Nominal arrival of sync slot k in 1/16 ns (R351). -/
def syncArrival (s : State) (k : Nat) : Int := ((if s.bus.dormant then 20000 else 2000) * k + 100) * 16

/-- Node that owns a sync slot (Tables 9.13, 9.14); node 0 owns slot 0. -/
def syncNode (s : State) (k : Nat) : Option Nat :=
  if k = 0 then some 0
  else if s.bus.dormant then (if k ≤ 2 then some k else none)
  else match modeNow s with
    | some m => match m.syncNodes[k - 1]? with | some n => if n = 0xFF then none else some n | none => none
    | none => none

/-- Frame flags of a SYNC or COLD-START frame from a controller: every bit but CHANNEL is reserved (Table 9.5). -/
def syncFlagsOk (f : Frame) : Bool := f.flags < 2

/-- A SYNC body (Table 9.6). -/
def syncBodyOk (f : Frame) : Bool := f.body.length = 24 && field f.body 0 1 ≤ 7

/-- Deviation of a SYNC frame in 1/16 ns (R351): `at_` is its arrival after t0 by the half's schedule clock. -/
def syncDev (s : State) (f : Frame) (at_ : Int) : Int :=
  at_ - syncArrival s (field f.body 0 1) - (field f.body 20 4 : Int)

/-- Precision in 1/16 ns. -/
def precision (s : State) : Nat := 16 * s.bus.prec

/-- A spare slot released or claimed: the table of slots by number, with event 25 when it changed. -/
def setSpare (t : Tab Nat) (node : Nat) (s : State) : State :=
  if t = s.bus.spare then s else raiseEv 25 node { s with bus := { s.bus with spare := t } }

/-- Every spare slot of a node released (R364). -/
def releaseNode (node : Nat) (s : State) : State := setSpare (s.bus.spare.filter (fun p => p.2 ≠ node)) node s

/-- No channel has the port integrated any more: Welong sessions of the port close with its loss (R540). -/
def closeIfGone (port : Nat) (s : State) : State :=
  if (portOf s .a port).integ || (portOf s .b port).integ then s
  else closeWhere (fun _ x => x.src = .welong port) s

/-- A node is no longer integrated on a channel. DEDUCED, log 38 (unsafe). -/
def dropInteg (h : Half) (port : Nat) (s : State) : State :=
  closeIfGone port (modPort h port (fun p => { p with
    integ := false, table := false, ready := false, readyMode := 0, readyLog := [], rx := none, tablesDue := [],
    tableClear := 0 }) s)

/-- A port closed (R349, R350). -/
def closePort (h : Half) (port : Nat) (byCmd : Bool) (s : State) : State :=
  let was := (portOf s h port).closed
  let s := modPort h port (fun p => { p with closed := true, cmdClosed := p.cmdClosed || byCmd, reopenRun := 0 }) (dropInteg h port s)
  if was then s else raiseEv (portEvent 19 h) port (releaseNode (port + 1) s)

/-! ## Input frames -/

/-- Event 38, once per controller and program cycle (R418). -/
def envEvent (port : Nat) (s : State) : State :=
  let e := envOf s port
  if e.evtDone then s else raiseEv 38 port { s with env := tabPut s.env port { e with evtDone := true } }

/-- Modes of the active station data in ascending order (R345). -/
def allModes (s : State) : List Nat := (List.range 8).filter (fun m => (modeRec s m).isSome)

/-- Times after t0 at which input frames arrive (Table 9.10). -/
def inputArrival : Nat := 25000

/-- An INPUT frame (R24, R338, R384): accepted and checked for the bus cycle whose head comes next. DESIGN CHOICE, log 5
(safe). DESIGN CHOICE, log 5 (safe). -/
def inputFrame (h : Half) (port : Nat) (f : Frame) (s : State) : State :=
  if !chanUp s h || s.bus.dormant || !portLive s h port then s
  else if (portOf s h port).closed then modPort h port (fun p => { p with cuts := sat 0xFFFFFFFF (p.cuts + 1) }) s
  else
    let c := nextCounter s
    if !frameOk s port f 0x20 8 c 924 (f.flags < 64) then discard h port s
    else
      let s := stamp (txQueue h + 1) 1 (welongStamp s h c 8 port true (s.bus.busNs + inputArrival)) s
      let p := portOf s h port
      let rise := !p.integ
      let p := { p with
        integ := true, valid := p.valid, table := bit f.flags 1, ready := bit f.flags 2, readyMode := bits f.flags 5 3
        rxFlags := f.flags
        tablesDue := if rise then allModes s else p.tablesDue
        base := if rise then { base := none, cand := 0, run := 0, candAt := 0 } else p.base }
      let fail (p : PortSt) : State :=
        envEvent port (modPort h port (fun _ => { p with envFail := sat 0xFFFFFFFF (p.envFail + 1) }) s)
      if !inputChecks s port c f.body then fail p
      else
        let b := baseCheck p.base (baseOf (field f.body 2 4) (field f.body 6 4)) c
        let p := { p with base := b.2 }
        if !b.1 then fail p
        else modPort h port (fun _ => { p with rx := some (inputEnv port f.body), valid := sat 0xFFFFFFFF (p.valid + 1) }) s

/-- INPUT (R24). -/
def execInputFrame (h : Half) (port : Nat) (f : Frame) (s : State) : Host.Outcome State Fault Refusal :=
  .next (inputFrame h port f s)

/-- INTEGRATE (R350): a closed port's frame, whole in its input slot; the port reopens at the start of the bus cycle that
follows 4 consecutive ones. DESIGN CHOICE, log 41 (safe). -/
def integrateFrame (h : Half) (port : Nat) (f : Frame) (s : State) : State :=
  let p := portOf s h port
  let c := nextCounter s
  if !chanUp s h || !portLive s h port || !p.closed || f.kind ≠ 0x12 then s
  else if !frameOk s port f 0x12 8 c 4 (f.flags < 2 && field f.body 0 4 = 0) then discard h port s
  else
    let run := if p.integrateAt + 1 = c && p.reopenRun ≠ 0 then p.reopenRun + 1 else 1
    let s := modPort h port (fun p => { p with reopenRun := run, integrateAt := c }) s
    if 4 ≤ run && !p.cmdClosed then
      raiseEv (portEvent 19 h) port (modPort h port (fun p => { p with closed := false, reopenRun := 0, cutAt := [] }) s)
    else s

/-- INTEGRATE (R350). -/
def execIntegrateFrame (h : Half) (port : Nat) (f : Frame) (s : State) : Host.Outcome State Fault Refusal :=
  .next (integrateFrame h port f s)

/-! ## Synchronisation -/

/-- A deviation for the coming head (R351, R352): beyond Π it is discarded as implausible, event 22. -/
def takeDev (h : Half) (k port : Nat) (d : Int) (s : State) : State :=
  if precision s < d.natAbs then raiseEv 22 port s
  else modChan h (fun c => { c with devs := tabPut c.devs k d }) s

/-- In the Dormant schedule, which has no input slot, a controller's SYNC frame in its own slot shows that it is integrated.
DEDUCED, log 92 (safe). -/
def dormantInteg (h : Half) (port : Nat) (s : State) : State :=
  if s.bus.dormant && !(portOf s h port).integ then modPort h port (fun p => { p with integ := true, tablesDue := allModes s }) s else s

/-- A half integrates to a bus it hears (R360): counter, bus-cycle length, mode. `c` is the frame's bus cycle. -/
def startIntegrating (h : Half) (f : Frame) (s : State) : State :=
  let s := modChan h (fun x => { x with st := .integrating, starter := false, checks := 0, devs := [] }) s
  if chanUp s (otherHalf h) then s
  else
    let m := modeRec s (f.mode % 8)
    let b := { s.bus with
      counter := (f.counter + (2 ^ 48 - 1)) % 2 ^ 48, busNs := field f.body 8 4, mode := f.mode % 8
      lCyc := (m.map (·.lCyc)).getD s.bus.lCyc, prec := (m.map (·.prec)).getD s.bus.prec
      guardNs := (m.map (·.guardNs)).getD s.bus.guardNs }
    { s with bus := if s.bus.dormant then { s.bus with counter := b.counter, busNs := b.busNs } else b }

/-- The counter floor (R358). -/
def counterFloor (s : State) : Nat := max s.chest.counters.a s.chest.counters.b + 65537

/-- A half's first COLD-START frame (R357): c0 from module time and the floor, or the other half's counter over the
cross-link. The next head carries c0. Event 23. DESIGN CHOICE, log 39 (safe). -/
def startBus (h : Half) (s : State) : State :=
  let c0 := max (moduleNs s / 250000) (counterFloor s)
  let other := otherHalf h
  let counter := if chanUp s other && (twoGet s.halves other).inServ then s.bus.counter else c0 - 1
  let s := { s with bus := { s.bus with counter := counter % 2 ^ 48, etherType := if chanUp s other then s.bus.etherType else s.bus.etherSet } }
  let s := modChan h (fun c => { c with
    st := .coldStarting, starter := true, startedAt := (counter + 1) % 2 ^ 48, devs := [], k := 0, checks := 0 }) s
  raiseEv 23 (halfNo h) s

/-- A valid SYNC or COLD-START frame at a listening half: it integrates, or starts the bus when the counter heard lies
below the floor (R356, R358). A counter other than the running half's own is not taken up (R490). DESIGN CHOICE, log 39
(safe). DESIGN CHOICE, log 39 (safe). -/
def hearBus (h : Half) (f : Frame) (s : State) : State :=
  if f.counter < counterFloor s then startBus h s
  else if chanUp s (otherHalf h) && f.counter ≠ nextCounter s then s
  else startIntegrating h f s

/-- A starter backs off (R361); event 23. -/
def backOff (h : Half) (s : State) : State :=
  raiseEv 23 (halfNo h) (modChan h (fun c => { c with st := .backingOff, starter := false, since := s.ns, devs := [] }) s)

/-- The starter's 8 bus cycles of checks (R361). -/
def startChecking (s : State) (c : ChanSt) : Bool :=
  c.starter && nextCounter s < c.startedAt + 8

/-- SYNC (R351): `at_` is the arrival after t0 in 1/16 ns by the half's schedule clock. DESIGN CHOICE, log 5 (safe). -/
def syncFrame (h : Half) (port : Nat) (f : Frame) (at_ : Int) (s : State) : State :=
  let c := twoGet s.bus.chans h
  let k := field f.body 0 1
  let form := frameForm s port f 0x10 24 (syncFlagsOk f) && syncBodyOk f
  let d := syncDev s f at_
  if !portLive s h port || (portOf s h port).closed then s
  else
    let rx (s : State) : State := stamp (txQueue h + 1) 0 (welongStamp s h f.counter k port true (s.bus.busNs + at_ / 16)) s
    match c.st with
    | .off => s
    | .backingOff => s
    | .listening => if form then hearBus h f (rx s) else discard h port s
    | .integrating =>
      if !form then discard h port s
      else if f.counter = nextCounter s && d.natAbs ≤ precision s then takeDev h k port d (rx s)
      else modChan h (fun c => { c with st := .listening, since := s.ns, devs := [] }) s
    | _ =>
      if startChecking s c && form && (f.counter ≠ nextCounter s || precision s < d.natAbs) then backOff h s
      else if form && f.slot = k && f.counter = nextCounter s && syncNode s k = some (port + 1) then dormantInteg h port (takeDev h k port d (rx s))
      else discard h port s

/-- SYNC (R351). -/
def execSyncFrame (h : Half) (port : Nat) (f : Frame) (at_ : Int) (s : State) : Host.Outcome State Fault Refusal :=
  .next (syncFrame h port f at_ s)

/-- A port blocked for one bus cycle of mode 0 (R359). -/
def blocked (s : State) (c : ChanSt) (port : Nat) : Bool := c.blocked.any (fun b => b.1 = port && s.ns < b.2)

/-- A COLD-START frame taken by a half that is not integrated, or that has just started (R360). DEDUCED, log 40 (safe). -/
def coldFrame (h : Half) (port : Nat) (f : Frame) (at_ : Int) (s : State) : State :=
  let c := twoGet s.bus.chans h
  let form := frameForm s port f 0x11 24 (syncFlagsOk f) && syncBodyOk f
  let rx (s : State) : State :=
    stamp (txQueue h + 1) 0 (welongStamp s h f.counter (field f.body 0 1) port true (s.bus.busNs + at_ / 16)) s
  if !form then discard h port s
  else match c.st with
    | .listening => hearBus h f (rx s)
    | .integrating =>
      if f.counter = nextCounter s && (syncDev s f at_).natAbs ≤ precision s then rx s
      else modChan h (fun c => { c with st := .listening, since := s.ns, devs := [] }) s
    | .coldStarting =>
      if f.counter < counterFloor s then backOff h s else hearBus h f (rx s)
    | _ => discard h port s

/-- COLD_START (R360): a COLD-START frame at a star port; `coll` is another port whose COLD-START frame collides with it.
The star forwards the lower node's frame and blocks the other port (R359); event 24. -/
def coldStart (h : Half) (port : Nat) (f : Frame) (at_ : Int) (coll : Option Nat) (s : State) : State :=
  let c := twoGet s.bus.chans h
  if c.st = .off || c.st = .backingOff || !portLive s h port || blocked s c port then s
  else match coll with
    | some q =>
      if q = port || c.st = .synchronised then s
      else
        let s := raiseEv 24 (max q port) (modChan h (fun c =>
          { c with blocked := c.blocked.filter (fun b => s.ns < b.2) ++ [(max q port, s.ns + busNs0 s)] }) s)
        if port < q then coldFrame h port f at_ s else s
    | none => coldFrame h port f at_ s

/-- COLD_START (R360). -/
def execColdStart (h : Half) (port : Nat) (f : Frame) (at_ : Int) (coll : Option Nat) (s : State) :
    Host.Outcome State Fault Refusal :=
  .next (coldStart h port f at_ coll s)

/-- LISTEN_TIMEOUT (R356): 3 bus cycles of mode 0 without a valid frame; the half starts the bus, its channel first
asking for its trunk half's values (R490), which the shared counter stands for. -/
def listenTimeout (h : Half) (s : State) : State :=
  let c := twoGet s.bus.chans h
  if c.st = .listening && (twoGet s.halves h).inServ && c.since + 3 * busNs0 s ≤ s.ns then startBus h s else s

/-- LISTEN_TIMEOUT (R356). -/
def execListenTimeout (h : Half) (s : State) : Host.Outcome State Fault Refusal := .next (listenTimeout h s)

/-- BACK_OFF_END (R361): 8 bus cycles of mode 0 after backing off the half listens again. -/
def backOffEnd (h : Half) (s : State) : State :=
  let c := twoGet s.bus.chans h
  if c.st = .backingOff && c.since + 8 * busNs0 s ≤ s.ns then
    modChan h (fun c => { c with st := .listening, since := s.ns }) s
  else s

/-- BACK_OFF_END (R361). -/
def execBackOffEnd (h : Half) (s : State) : Host.Outcome State Fault Refusal := .next (backOffEnd h s)

/-- RATE_CORRECTION (R354): 16 offset corrections added up, in 2⁻¹⁶ ppm, limited to ±200 ppm. -/
def rateCorrection (h : Half) (s : State) : State :=
  modChan h (fun c =>
    if c.corrs.length < 16 then c
    else
      let sum := c.corrs.foldl (· + ·) 0
      let r := c.rate + sum * 1000000 * 65536 / (16 * 16 * s.bus.busNs)
      { c with rate := max (-(200 * 65536)) (min (200 * 65536) r), corrs := [] }) s

/-- RATE_CORRECTION (R354). -/
def execRateCorrection (h : Half) (s : State) : Host.Outcome State Fault Refusal := .next (rateCorrection h s)

/-- WEAK_SYNCHRONISATION (R355): 8 bus cycles in a row with k ≤ 2; event 22. -/
def weakSync (h : Half) (s : State) : State :=
  if 8 ≤ (twoGet s.bus.chans h).weakRun then raiseEv 22 (halfNo h) (modChan h (fun c => { c with weakRun := 0 }) s) else s

/-- WEAK_SYNCHRONISATION (R355). -/
def execWeakSynchronisation (h : Half) (s : State) : Host.Outcome State Fault Refusal := .next (weakSync h s)

/-- COUNTER_RECORD_WRITE (R358): every 65,536 bus cycles a half writes the highest counter it has sent. -/
def counterRecord (h : Half) (s : State) : State :=
  if (twoGet s.halves h).inServ && chanUp s h && twoGet s.chest.counters h + 65536 ≤ s.bus.counter then
    { s with chest := { s.chest with counters := twoPut s.chest.counters h s.bus.counter } }
  else s

/-- COUNTER_RECORD_WRITE (R358). -/
def execCounterRecordWrite (h : Half) (s : State) : Host.Outcome State Fault Refusal := .next (counterRecord h s)

/-! ## Links and ports -/

/-- Sequence numbers of the DELAY-REQ frames a star sends (Table 9.1). -/
def sendDelayReq (h : Half) (port n : Nat) (s : State) : State :=
  let p := portOf s h port
  let reqs := (List.range n).map (fun i => (port, p.delaySeq + i + 1))
  let s := modPort h port (fun p => { p with delaySeq := p.delaySeq + n, measOpen := true, measRounds := [] }) s
  { s with tx := twoMod s.tx h (fun t => { t with delayReqs := t.delayReqs ++ reqs }) }

/-- LINK_UP (R332): the link of a port comes up and its delay is measured in 8 rounds; events 17, 18. -/
def linkUp (h : Half) (port : Nat) (s : State) : State :=
  if s.ident.ports ≤ port || !(twoGet s.halves h).inServ || (portOf s h port).link then s
  else if s.bus.dormant && 2 ≤ port then s
  else
    let s := modPort h port (fun p => { p with link := true, speed100 := s.bus.dormant, linkDly := 0xFFFF }) s
    raiseEv (portEvent 17 h) port (sendDelayReq h port 8 s)

/-- LINK_UP (R332). -/
def execLinkUp (h : Half) (port : Nat) (s : State) : Host.Outcome State Fault Refusal := .next (linkUp h port s)

/-- A link drops: its node is not integrated, its claims are released; events 17, 18. -/
def linkDown (h : Half) (port : Nat) (s : State) : State :=
  if !(portOf s h port).link then s
  else
    let s := modPort h port (fun p => { p with link := false, speed100 := false, linkDly := 0xFFFF, measOpen := false,
                                               measRounds := [], reopenRun := 0 }) (dropInteg h port s)
    raiseEv (portEvent 17 h) port (releaseNode (port + 1) s)

/-- LINK_DOWN (R364). -/
def execLinkDown (h : Half) (port : Nat) (s : State) : Host.Outcome State Fault Refusal := .next (linkDown h port s)

/-- An ordered insertion, for the median. -/
def insertSorted (v : Nat) : List Nat → List Nat
  | [] => [v]
  | x :: l => if v ≤ x then v :: x :: l else x :: insertSorted v l

/-- Median of a list; of an even number the mean of the middle two (R332). DESIGN CHOICE, log 44 (unsafe). -/
def median (l : List Nat) : Nat :=
  let t := l.foldl (fun a v => insertSorted v a) []
  (t.getD ((t.length - 1) / 2) 0 + t.getD (t.length / 2) 0) / 2

/-- A link delay measured, in ns (R332): over 5,000 ns the port is not admitted; event 27 then, and at a change of more
than 100 ns. -/
def setDelay (h : Half) (port ns : Nat) (s : State) : State :=
  let old := (portOf s h port).linkDly
  let beyond := 5000 < ns
  let moved := old ≠ 0xFFFF && (old + 100 < ns || ns + 100 < old)
  let s := modPort h port (fun p => { p with linkDly := if beyond then 0xFFFF else ns, measOpen := false, measRounds := [] }) s
  if beyond || moved then raiseEv 27 port s else s

/-- DELAY_RESP (R332): a node's answer; `roundTrip` is what the star measured, in 1/16 ns. -/
def delayResp (h : Half) (port : Nat) (f : Frame) (roundTrip : Nat) (s : State) : State :=
  let p := portOf s h port
  if !p.link || !p.measOpen then s
  else if !(frameForm s port f 0x14 8 (f.flags < 2) && f.body.length = 8) then discard h port s
  else
    let one := (roundTrip - field f.body 4 4) / 2
    let first := p.linkDly = 0xFFFF && !p.integ
    let l := p.measRounds ++ [one]
    if first && l.length < 8 then modPort h port (fun p => { p with measRounds := l }) s
    else
      let s := if first then s else stamp (txQueue h + 1) 6 (welongStamp s h f.counter 11 port true 170500) s
      let s := setDelay h port (median l / 16) s
      { s with tx := twoMod s.tx h (fun t => { t with delayReqs := t.delayReqs.filter (fun r => r.1 ≠ port) }) }

/-- DELAY_RESP (R332). -/
def execDelayResp (h : Half) (port : Nat) (f : Frame) (roundTrip : Nat) (s : State) : Host.Outcome State Fault Refusal :=
  .next (delayResp h port f roundTrip s)

/-- LINK_DELAY_REMEASURE (R332): one DELAY-REQ in the claim slot, every 65,536 bus cycles. -/
def remeasure (h : Half) (port : Nat) (s : State) : State :=
  if chanUp s h && portLive s h port then txStamp h 6 11 170500 (sendDelayReq h port 1 s) else s

/-- LINK_DELAY_REMEASURE (R332). -/
def execLinkDelayRemeasure (h : Half) (port : Nat) (s : State) : Host.Outcome State Fault Refusal :=
  .next (if s.bus.counter % 65536 = 0 then remeasure h port s else s)

/-- Outcome of the last port command (Table 9.16) with its reply. -/
def portReply (code : Nat) (s : State) : State × Nat × List Byte :=
  ({ s with bus := { s.bus with portOutcome := code } }, functionReply code [])

/-- A port command (object 0x5110): 1 close, 2 release, 3 measure link delay. -/
def portCommand (act : Nat) (h : Half) (port : Nat) (s : State) : State × Nat × List Byte :=
  if s.ident.ports ≤ port then portReply 0x6101 s
  else if act ≠ 1 && !(portOf s h port).link then portReply 0x6102 s
  else if act = 1 then portReply 0 (closePort h port true s)
  else if act = 2 then portReply 0 (modPort h port (fun p => { p with cmdClosed := false, reopenRun := 0 }) s)
  else portReply 0 (remeasure h port s)

/-- PORT_CLOSE (R350). -/
def execPortClose (sess : Nat) (h : Half) (port : Nat) (s : State) : Host.Outcome State Fault Refusal :=
  .next (asSession sess .maintainer false (portCommand 1 h port) s)

/-- PORT_RELEASE (R350). -/
def execPortRelease (sess : Nat) (h : Half) (port : Nat) (s : State) : Host.Outcome State Fault Refusal :=
  .next (asSession sess .maintainer false (portCommand 2 h port) s)

/-- MEASURE_LINK_DELAY (R332). -/
def execMeasureLinkDelay (sess : Nat) (h : Half) (port : Nat) (s : State) : Host.Outcome State Fault Refusal :=
  .next (asSession sess .maintainer false (portCommand 3 h port) s)

/-- Cuts of a port in the last 8 bus cycles. -/
def cutsNow (s : State) (p : PortSt) : Nat := (p.cutAt.filter (fun c => s.bus.counter < c + 8)).length

/-- PORT_CLOSED_BY_CUTS (R349): cut 3 times within 8 consecutive bus cycles. -/
def closedByCuts (h : Half) (port : Nat) (s : State) : State :=
  let p := portOf s h port
  if !p.closed && 3 ≤ cutsNow s p then closePort h port false s else s

/-- PORT_CLOSED_BY_CUTS (R349). -/
def execPortClosedByCuts (h : Half) (port : Nat) (s : State) : Host.Outcome State Fault Refusal :=
  .next (closedByCuts h port s)

/-- PORT_TABLE_RESEND (R345): TABLE clear in 8 consecutive bus cycles. -/
def portTableResend (h : Half) (port : Nat) (s : State) : State :=
  let p := portOf s h port
  if p.integ && 8 ≤ p.tableClear && p.tablesDue = [] then
    modPort h port (fun p => { p with tablesDue := allModes s, tableClear := 0 }) s
  else s

/-- PORT_TABLE_RESEND (R345). -/
def execPortTableResend (h : Half) (port : Nat) (s : State) : Host.Outcome State Fault Refusal :=
  .next (portTableResend h port s)

/-! ## Spare slots -/

/-- CLAIM (R363): a controller's claim received on one channel in the claim slot of the present bus cycle; both halves serve
it at the end of the bus cycle. -/
def claimFrame (h : Half) (port : Nat) (f : Frame) (s : State) : State :=
  let p := portOf s h port
  if !chanUp s h || s.bus.dormant || !portLive s h port || !p.integ || p.closed then s
  else if !(frameOk s port f 0x80 11 s.bus.counter 4 (f.flags < 2) && f.body.length = 4 && field f.body 0 1 ≤ 4 &&
      field f.body 1 3 = 0 && bit (((modeNow s).map (·.claimMask)).getD 0) port) then discard h port s
  else
    let s := stamp (txQueue h + 1) 6 (welongStamp s h f.counter 11 port true 170500) s
    let c := (port + 1, field f.body 0 1)
    { s with bus := { s.bus with claims := if s.bus.claims.any (fun x => x.1 = c.1) then s.bus.claims else s.bus.claims ++ [c] } }

/-- CLAIM (R363). -/
def execClaimFrame (h : Half) (port : Nat) (f : Frame) (s : State) : Host.Outcome State Fault Refusal :=
  .next (claimFrame h port f s)

/-- Spare slots of the mode in force, ascending. -/
def spareSlots (s : State) : List Nat :=
  (((modeNow s).map (fun m => (m.slots.filter (fun r => r.kind = 4)).map (·.slot))).getD []).foldl
    (fun a v => insertSorted v a) []

/-- One claim served (R363): the lowest free slots up to its count, or its highest ones released. -/
def serveClaim (node count : Nat) (s : State) : State :=
  let mine := (s.bus.spare.filter (fun p => p.2 = node)).map (·.1)
  let free := (spareSlots s).filter (fun n => (tabFind s.bus.spare n).isNone)
  let got := if count ≤ mine.length then mine.take count else mine ++ free.take (count - mine.length)
  let t := (s.bus.spare.filter (fun p => p.2 ≠ node))
  let t := got.foldl (fun t n => tabPut t n node) t
  let changed := t ≠ s.bus.spare
  let s := { s with bus := { s.bus with spare := t, acks := s.bus.acks ++ [(node, got)] } }
  if changed || got.length < count then raiseEv 25 node s else s

/-- The claims of a bus cycle in ascending node number. -/
def serveClaims (s : State) : State :=
  let l := s.bus.claims
  let s := { s with bus := { s.bus with claims := [], acks := [] } }
  (List.range 17).foldl (fun s n =>
    match l.find? (fun c => c.1 = n) with
    | some c => serveClaim n c.2 s
    | none => s) s

/-! ## Schedule modes -/

/-- Outcome of a mode request (Table 9.16) with its reply. -/
def modeReply (code : Nat) (s : State) : State × Nat × List Byte :=
  ({ s with bus := { s.bus with outcome := code } }, functionReply (if code = 0x6001 then 0 else code) [])

/-- The switch counter (R365): smallest multiple of lcm(L_old, L_new) at or above c_a + 4 × L_old + 16. -/
def switchCounter (ca lOld lNew : Nat) : Nat :=
  let m := Nat.lcm lOld lNew
  (ca + 4 * lOld + 16 + m - 1) / m * m

/-- The program's need would not fit the new mode's allotment (R297). -/
def budgetBad (s : State) (m : ModeRec) : Bool :=
  match s.view.prog.prog with
  | some p => m.busNs * m.lCyc * s.vote.deadlinePct / 100 / 1000 - 1000 < largestBound p
  | none => false

/-- A mode request (R365), or an abort (R369). -/
def modeRequestFn (n : Nat) (s : State) : State × Nat × List Byte :=
  if n = 0xFF then
    match s.bus.pend with
    | some p =>
      if p.confirmed then modeReply s.bus.outcome s
      else
        let s := raiseEv 26 p.mode { s with bus := { s.bus with pend := none, outcome := 0x6006 } }
        (s, rOk, [])
    | none => (s, rOk, [])
  else match modeRec s n with
    | none => modeReply 0x6003 s
    | some m =>
      if n = s.bus.mode then modeReply 0x6004 s
      else if s.bus.pend.isSome then modeReply 0x6002 s
      else if modeOf s ≠ 0 then modeReply 0x6008 s
      else if budgetBad s m then modeReply 0x600A s
      else
        let p : SwitchSt := { mode := n, s := switchCounter s.image.counter s.bus.lCyc m.lCyc, announced := false, confirmed := false }
        modeReply 0x6001 { s with bus := { s.bus with pend := some p, askedImg := s.imageNo, notReady := 0xFF } }

/-- A command that changes what the lanes write into the module block of the image under way. -/
def withImage (f : State → State) (s : State) : State := laneRow (fun _ x => x) (f s)

/-- MODE_REQUEST (R365): object 0x5010 sub 1 written at the tick of the image under way. -/
def execModeRequest (sess n : Nat) (s : State) : Host.Outcome State Fault Refusal :=
  .next (withImage (asSession sess .maintainer false (if n ≤ 7 then modeRequestFn n else fun s => (s, rRange, []))) s)

/-- MODE_ABORT (R369): 0xFF written. -/
def execModeAbort (sess : Nat) (s : State) : Host.Outcome State Fault Refusal :=
  .next (withImage (asSession sess .maintainer false (modeRequestFn 0xFF)) s)

/-- READY shown for a mode in each of the 4 bus cycles before the newest one. -/
def readyFor (p : PortSt) (mode : Nat) : Bool :=
  let l := (keepLast 5 p.readyLog).take 4
  l.length = 4 && l.all (fun v => v = mode + 1)

/-- Nodes not ready for a mode at the checkpoint, lowest first (R367). -/
def notReadyNodes (s : State) (mode : Nat) : List Nat :=
  ((List.range s.ident.ports).filter (fun p =>
    let a := portOf s .a p
    let b := portOf s .b p
    (a.integ || b.integ) && !((a.integ && readyFor a mode) || (b.integ && readyFor b mode)))).map (· + 1)

/-- CHECKPOINT (R367): at counter s − 2 × L. -/
def checkpoint (s : State) : State :=
  match s.bus.pend with
  | some p =>
    if p.confirmed || s.bus.counter + 2 * s.bus.lCyc < p.s then s
    else match p.announced, notReadyNodes s p.mode with
      | true, [] => { s with bus := { s.bus with pend := some { p with confirmed := true } } }
      | _, l => raiseEv 26 p.mode { s with bus := { s.bus with pend := none, outcome := 0x6005, notReady := l.headD 0xFF } }
  | none => s

/-- CHECKPOINT (R367). -/
def execCheckpointReached (s : State) : Host.Outcome State Fault Refusal := .next (checkpoint s)

/-- A mode's figures in force. -/
def putMode (m : ModeRec) (b : BusSt) : BusSt :=
  { b with mode := m.num, busNs := m.busNs, lCyc := m.lCyc, prec := m.prec, guardNs := m.guardNs }

/-- MODE_SWITCH (R368): the bus cycle s comes next and the switch is agreed; claims without a slot go (R364). DESIGN CHOICE,
log 5 (safe). DESIGN CHOICE, log 5 (safe). -/
def modeSwitch (s : State) : State :=
  match s.bus.pend with
  | some p =>
    match modeRec s p.mode with
    | some m =>
      if p.confirmed && p.s ≤ nextCounter s then
        let s := { s with bus := putMode m { s.bus with pend := none, outcome := 0 } }
        let keep := s.bus.spare.filter (fun c => (spareSlots s).contains c.1)
        raiseEv 26 m.num (setSpare keep (((s.bus.spare.filter (fun c => !keep.contains c)).head?.map (·.2)).getD 0) s)
      else s
    | none => s
  | none => s

/-- MODE_SWITCH (R368). -/
def execModeSwitch (s : State) : Host.Outcome State Fault Refusal := .next (modeSwitch s)

end Sys2Proof.Machine
end

