-- ==== Sys2Proof/Machine/LocalRows.lean ====
section
/-! DEFINITION. Local vital and non-vital I/O (R419 to R440): sampling and filtering of the input pairs, supervision faults
and their acknowledgement, the decision and tests of the vital outputs, non-vital I/O, RESET supervision. -/

namespace Sys2Proof.Machine

/-! ## Input pairs -/

/-- Number under which the commissioning key stands among the pairs (Table 11.1). -/
def keyPair : Nat := 17

/-- A pair nothing has sampled. -/
def PairSt.init : PairSt :=
  { rawA := false, rawB := false, raw := false, filtered := false, stableFrom := 0, discFrom := none, changes := [],
    chat := false, fcode := .none, cleanFrom := 0 }

/-- A pair as a half sees it. -/
def pairOf (s : State) (h : Half) (n : Nat) : PairSt := tabGet (twoGet s.lio.pairs h) n PairSt.init

/-- A pair of one half changed. -/
def modPair (h : Half) (n : Nat) (f : PairSt → PairSt) (s : State) : State :=
  { s with lio := { s.lio with pairs := twoMod s.lio.pairs h (fun t => tabMod t n PairSt.init f) } }

/-- Binding of a pair; the key is antivalent with 500 ms (R436), restrictive inactive. -/
def pairRec (st : Station) (n : Nat) : Option PairRec :=
  if n = keyPair then some { num := n, antivalent := true, discMs := 500, fclass := 0, rval := false }
  else st.pairs.find? (fun p => p.num = n)

/-- Filter figures of a pair: minimum stable time in ms, chatter window, limit, recovery; the key's are 200 ms and no
chatter limit (R436). -/
def pairFilter (st : Station) (p : PairRec) : FilterRec :=
  if p.num = keyPair then { minMs := 200, maxS := 0, winMs := 0, limit := 255, recMs := 0 } else filterRec st p.fclass

/-- Raw pair value (R424): none during a discrepancy. -/
def rawPair (antivalent a b : Bool) : Option Bool :=
  if antivalent then (if a = b then none else some a) else (if a = b then some a else none)

/-- Changes of a pair inside its chatter window. -/
def changesNow (s : State) (f : FilterRec) (p : PairSt) : Nat := (p.changes.filter (fun t => s.ns < t + f.winMs * 1000000)).length

/-- More changes than the limit (R425). -/
def tooMany (s : State) (f : FilterRec) (p : PairSt) : Bool := f.limit < changesNow s f p

/-- Bus cycles of a minimum stable time, rounded up (Table 11.4). -/
def stableCycles (s : State) (f : FilterRec) : Nat := (f.minMs * 1000000 + s.bus.busNs - 1) / s.bus.busNs

/-- A pair's sample of the sampling window (R423 to R425). -/
def samplePair (s : State) (r : PairRec) (f : FilterRec) (a b : Bool) (p : PairSt) : PairSt :=
  let p := { p with rawA := a, rawB := b }
  match rawPair r.antivalent a b with
  | none => { p with discFrom := some (p.discFrom.getD s.ns), filtered := r.rval, cleanFrom := s.ns }
  | some v =>
    let moved := v ≠ p.raw
    let p := { p with
      discFrom := none, raw := v
      stableFrom := if moved || p.discFrom.isSome then s.bus.counter else p.stableFrom
      changes := if moved then keepLast 256 (p.changes ++ [s.ns]) else p.changes }
    let last := p.changes.getLastD 0
    let p := { p with chat := p.chat && s.ns < last + f.recMs * 1000000 }
    let ok := v = r.rval || stableCycles s f ≤ (s.bus.counter + 2 ^ 48 - p.stableFrom) % 2 ^ 48
    { p with filtered := if p.chat || tooMany s f p then r.rval else if ok then v else p.filtered }

/-- Value of a pair in a half's local input block, and whether it is substituted (Table 11.5). -/
def pairValue (r : PairRec) (p : PairSt) : Bool × Bool :=
  if p.fcode ≠ .none || p.discFrom.isSome || p.chat then (r.rval, true) else (p.filtered, false)

/-- The sampling of every bound pair and of the key by one half. -/
def sampleHalf (h : Half) (pins : List (Bool × Bool)) (s : State) : State :=
  ((List.range 17).map (· + 1)).foldl (fun s n =>
    match pairRec s.cfg n, pins[n - 1]? with
    | some r, some x => modPair h n (samplePair s r (pairFilter s.cfg r) x.1 x.2) s
    | none, some x => modPair h n (fun p => { p with rawA := x.1, rawB := x.2 }) s
    | _, none => s) s

/-- The key is active only when both halves find it so (R436). DEDUCED, log 46 (safe). -/
def keyActive (s : State) : Bool :=
  allHalves.all (fun h => let p := pairOf s h keyPair; p.filtered && p.fcode = .none && p.discFrom.isNone)

/-- The local part of a half's bus input image (R423). -/
def localInputs (s : State) (h : Half) (b : BusImage) : BusImage :=
  s.cfg.pairs.foldl (fun b r =>
    let v := pairValue r (pairOf s h r.num)
    { b with pairs := tabPut b.pairs r.num v.1, pairSubst := if v.2 then b.pairSubst ++ [r.num] else b.pairSubst })
    { b with ni := s.lio.ni }

/-- Non-vital inputs filtered for 3 ms (R432). -/
def sampleNi (raw : Nat) (s : State) : State :=
  let from_ := (List.range 8).map (fun i => if bit raw i = bit s.lio.niRaw i then s.lio.niFrom.getD i 0 else s.ns)
  let v := (List.range 8).foldl (fun a i =>
    a + b2n (if from_.getD i 0 + 3000000 ≤ s.ns then bit raw i else bit s.lio.ni i) * 2 ^ i) 0
  { s with lio := { s.lio with niRaw := raw % 256, niFrom := from_, ni := v } }

/-- RESET's level with the lengths of its low and high periods (R434). -/
def sampleReset (lvl : Bool) (s : State) : State :=
  if lvl = s.lio.resetLevel then s
  else if lvl then
    { s with lio := { s.lio with resetLevel := true, resetLowFrom := s.lio.resetSince, resetLowNs := s.ns - s.lio.resetSince,
                                 resetSince := s.ns } }
  else { s with lio := { s.lio with resetLevel := false, resetSince := s.ns } }

/-- Code of a supervision fault (Table 11.3). -/
def fcodeNo : FCode → Nat
  | .none => 0
  | .pulseA => 1
  | .pulseB => 2
  | .foreign => 3
  | .supply => 4
  | .discrepancy => 5

/-- A fault latched in one half (R422); for the key also KFAULT (R436). Event 39 and a record naming the cause (R440).
DEDUCED, log 109 (unsafe). -/
def latchPair (h : Half) (n : Nat) (code : FCode) (s : State) : State :=
  let s := modPair h n (fun p => { p with fcode := if p.fcode = .none then code else p.fcode, cleanFrom := s.ns }) s
  let s := if n = keyPair then { s with lio := { s.lio with kfault := true, key := false } } else s
  raiseRec 39 n (fcodeNo code) (bookHalf h) 0xFFFF (be 1 n ++ be 1 (fcodeNo code)) s

/-- Pairs on a supply: TP1 and TP2 feed pairs 1 to 8, TP3 and TP4 pairs 9 to 16 and the key (Table 11.1). -/
def supplyPairs (tp : Nat) : List Nat :=
  if tp ≤ 2 then (List.range 8).map (· + 1) else (List.range 9).map (· + 9)

/-- A supervision fault of Table 11.3 found by a half; of a supply, by its number and cause (object 0x3302). -/
def supervisionFault (h : Half) (n : Nat) (code : FCode) (tp cause : Nat) (s : State) : State :=
  if !(twoGet s.halves h).inServ then s
  else match code with
    | .none => s
    | .discrepancy => s
    | .supply =>
      if tp = 0 || 4 < tp || cause = 0 || 3 < cause then s
      else
        let s := { s with lio := { s.lio with tps := tabMod s.lio.tps tp ⟨true, 0, 0⟩ (fun t => { t with cause := cause }) } }
        (supplyPairs tp).foldl (fun s n => latchPair h n .supply s) s
    | c => if n = 0 || keyPair < n then s else latchPair h n c s

/-- INPUT_SUPERVISION_FAULT (R421). -/
def execInputSupervisionFault (h : Half) (n : Nat) (code : FCode) (tp cause : Nat) (s : State) :
    Host.Outcome State Fault Refusal :=
  .next (supervisionFault h n code tp cause s)

/-- DISCREPANCY (R424): a discrepancy outlasts its time. DEDUCED, log 109 (unsafe). -/
def discrepancyRow (h : Half) (n : Nat) (s : State) : State :=
  match pairRec s.cfg n, (pairOf s h n).discFrom with
  | some r, some t =>
    if (twoGet s.halves h).inServ && t + r.discMs * 1000000 < s.ns && (pairOf s h n).fcode = .none then latchPair h n .discrepancy s else s
  | _, _ => s

/-- DISCREPANCY (R424). -/
def execDiscrepancy (h : Half) (n : Nat) (s : State) : Host.Outcome State Fault Refusal := .next (discrepancyRow h n s)

/-- CHATTERING (R425): a pair starts chattering; event 39. DEDUCED, log 109 (unsafe). -/
def chatteringRow (h : Half) (n : Nat) (s : State) : State :=
  match pairRec s.cfg n with
  | some r =>
    let p := pairOf s h n
    if (twoGet s.halves h).inServ && !p.chat && tooMany s (pairFilter s.cfg r) p then
      raiseRec 39 n 6 (bookHalf h) 0xFFFF (be 1 n) (modPair h n (fun p => { p with chat := true, filtered := r.rval }) s)
    else s
  | none => s

/-- CHATTERING (R425). -/
def execChattering (h : Half) (n : Nat) (s : State) : Host.Outcome State Fault Refusal := .next (chatteringRow h n s)

/-- 8 pulse periods of 2,000 µs (R420, R422). -/
def cleanNs : Nat := 8 * 2000000

/-- A half's fault of a pair cleared when it has seen none for 8 pulse periods (R422). -/
def clearPair (s : State) (p : PairSt) : PairSt :=
  if p.cleanFrom + cleanNs ≤ s.ns && p.discFrom.isNone then { p with fcode := .none } else p

/-- Pairs acknowledged (object 0x3304 sub 1). -/
def ackPairsFn (mask : Nat) (s : State) : State × Nat × List Byte :=
  ((List.range 16).foldl (fun s i =>
    if bit mask i then modPair .b (i + 1) (clearPair s) (modPair .a (i + 1) (clearPair s) s) else s) s, rOk, [])

/-- The key's fault acknowledged (object 0x3304 sub 3). -/
def ackKeyFn (s : State) : State × Nat × List Byte :=
  let s := modPair .b keyPair (clearPair s) (modPair .a keyPair (clearPair s) s)
  let bad := allHalves.any (fun h => decide ((pairOf s h keyPair).fcode ≠ .none))
  ({ s with lio := { s.lio with kfault := s.lio.kfault && bad } }, rOk, [])

/-- ACKNOWLEDGE_PAIRS (R422). -/
def execAcknowledgePairs (sess mask : Nat) (s : State) : Host.Outcome State Fault Refusal :=
  .next (asSession sess .maintainer false (ackPairsFn mask) s)

/-- ACKNOWLEDGE_KEY (R436). -/
def execAcknowledgeKey (sess : Nat) (s : State) : Host.Outcome State Fault Refusal :=
  .next (asSession sess .maintainer false ackKeyFn s)

/-! ## Vital outputs -/

/-- An output after reset (Table 11.11). -/
def VoSt.init : VoSt :=
  { cmd := false, permit := false, on := false, mid := false, ocode := .none, passed := 0, lastTest := 0, lastDark := 0 }

/-- A vital output. -/
def voOf (s : State) (n : Nat) : VoSt := tabGet s.lio.vos n VoSt.init

/-- A vital output changed. -/
def modVo (n : Nat) (f : VoSt → VoSt) (s : State) : State :=
  { s with lio := { s.lio with vos := tabMod s.lio.vos n VoSt.init f } }

/-- Binding of a local output. -/
def outRec (st : Station) (n : Nat) : Option LocalOutRec := st.localOuts.find? (fun o => o.num = n)

/-- What groups outputs: the element a signal's or a point's outputs are bound to (R429). -/
def sameGroup (a b : LocalOutRec) : Bool :=
  match a.kind, b.kind with
  | .signal, .signal => a.elem = b.elem
  | .drive _, .drive _ => a.elem = b.elem
  | _, _ => a.num = b.num

/-- The outputs of an output's group. -/
def groupOf (st : Station) (n : Nat) : List Nat :=
  match outRec st n with
  | some o => (st.localOuts.filter (sameGroup o)).map (·.num)
  | none => [n]

/-- Code of an output fault (Table 11.6). -/
def ocodeNo : OCode → Nat
  | .none => 0
  | .stuckOn => 1
  | .stuckOff => 2
  | .overcurrent => 3
  | .darkTest => 4
  | .supply => 5

/-- An output fault (R431): latched, its group de-energised; event 39 and a record. -/
def outputFault (n : Nat) (code : OCode) (s : State) : State :=
  let s := (groupOf s.cfg n).foldl (fun s m => modVo m (fun v => { v with on := false, mid := false }) s) s
  let was := (voOf s n).ocode
  let s := modVo n (fun v => { v with ocode := if was = .none then code else was, passed := 0 }) s
  if was = .none then raiseRec 39 n (ocodeNo code) 3 0xFFFF (be 1 n ++ be 1 (ocodeNo code)) s else s

/-- Halves whose internal permit word arrived in this bus cycle. -/
def permitHalves (s : State) : List Half := (halvesUp s).filter (fun h => !(twoGet s.tx h).localPermit.isEmpty)

/-- The permit of a local output (R36, R270): set in every word that arrived, and at least one did. -/
def localPermit (s : State) (n : Nat) : Bool :=
  let hs := permitHalves s
  !hs.isEmpty && hs.all (fun h => (twoGet s.tx h).localPermit.getD (n - 1) false)

/-- The commanded value of a local output in the voted local block; none commanded by a standby (R499). -/
def localCmd (s : State) (n : Nat) : Bool :=
  commands s && (s.lio.locals.map (fun b => b.outs.getD (n - 1) false)).getD false

/-- Whether an output is driven on (R410, R411, R428, R429): a signal's outputs as a whole, at most one drive of a point. -/
def driveOn (s : State) (n : Nat) : Bool :=
  let g := groupOf s.cfg n
  let held := g.any (fun m => decide ((voOf s m).ocode ≠ .none))
  let base := localCmd s n && localPermit s n && !held
  match outRec s.cfg n with
  | some o =>
    match o.kind with
    | .signal => base && g.all (localPermit s)
    | .drive _ => base && (g.filter (localCmd s)).length ≤ 1
    | _ => base
  | none => base

/-- The local output decision at t0 + 170 µs with the readback of each output (R428 to R431). -/
def localDecision (read : List (Nat × Bool × Bool)) (s : State) : State :=
  let ns := (List.range 16).map (· + 1)
  let want := ns.map (fun n => (n, driveOn s n))
  let s := want.foldl (fun s w =>
    modVo w.1 (fun v => { v with cmd := localCmd s w.1, permit := localPermit s w.1, on := w.2, mid := w.2,
                                 lastTest := if w.2 && !v.on then s.ns else v.lastTest
                                 lastDark := if w.2 && !v.on then s.ns else v.lastDark }) s) s
  want.foldl (fun s w =>
    match read.find? (fun r => r.1 = w.1) with
    | some r =>
      if w.2 && !r.2.1 then outputFault w.1 .stuckOff s
      else if !w.2 && (r.2.1 || r.2.2) then outputFault w.1 .stuckOn (modVo w.1 (fun v => { v with on := r.2.1, mid := r.2.2 }) s)
      else s
    | none => s) s

/-- Non-vital outputs (R433, R499): the voted block's, else the last for L bus cycles, then the defaults. -/
def driveNo (s : State) : State :=
  let run := if s.lio.locals.isSome then 0 else s.lio.noBlockRun + 1
  let dflt := s.bus.lCyc ≤ run || s.power.st = .quiet || !commands s
  let no := if dflt then s.lio.noDefaults else (s.lio.locals.map (·.no)).getD s.lio.no
  { s with lio := { s.lio with noBlockRun := run, no := no } }

/-- Interval of the switch tests and of the dark test (R430). -/
def switchNs : Nat := 2 * secNs
def darkNs : Nat := 60 * secNs

/-- SWITCH_TEST (R430): what the mid node and the terminal read with the upper switch alone on, then the lower one. -/
def switchTest (n : Nat) (midU outU midL outL : Bool) (s : State) : State :=
  let v := voOf s n
  if n = 0 || 16 < n || v.on || s.ns < v.lastTest + switchNs then s
  else
    let s := modVo n (fun v => { v with lastTest := s.ns }) s
    if outU || midL || outL then outputFault n .stuckOn s
    else if !midU then outputFault n .stuckOff s
    else modVo n (fun v => { v with passed := v.passed + 1 }) s

/-- SWITCH_TEST (R430). -/
def execSwitchTest (n : Nat) (midU outU midL outL : Bool) (s : State) : Host.Outcome State Fault Refusal :=
  .next (switchTest n midU outU midL outL s)

/-- DARK_TEST (R430): whether the output read low within 300 µs of a switch's off pulse. -/
def darkTest (n : Nat) (low : Bool) (s : State) : State :=
  let v := voOf s n
  if !v.on || (outRec s.cfg n).any (fun o => !o.dark) || s.ns < v.lastDark + darkNs then s
  else
    let s := modVo n (fun v => { v with lastDark := s.ns }) s
    if low then s else outputFault n .darkTest s

/-- DARK_TEST (R430). -/
def execDarkTest (n : Nat) (low : Bool) (s : State) : Host.Outcome State Fault Refusal := .next (darkTest n low s)

/-- OVERCURRENT (R431): above 0.7 A for 1 ms. -/
def execOvercurrent (n : Nat) (s : State) : Host.Outcome State Fault Refusal :=
  .next (if 1 ≤ n && n ≤ 16 && (voOf s n).on then outputFault n .overcurrent s else s)

/-- STUCK_ON (R431): output or mid node high while the switches are commanded off. -/
def execStuckOn (n : Nat) (s : State) : Host.Outcome State Fault Refusal :=
  .next (if 1 ≤ n && n ≤ 16 && !(voOf s n).on then outputFault n .stuckOn s else s)

/-- Outputs acknowledged (object 0x3304 sub 2): only after 3 runs of the switch tests passed. -/
def ackOutputsFn (mask : Nat) (s : State) : State × Nat × List Byte :=
  ((List.range 16).foldl (fun s i =>
    if bit mask i && 3 ≤ (voOf s (i + 1)).passed then modVo (i + 1) (fun v => { v with ocode := .none }) s else s) s, rOk, [])

/-- ACKNOWLEDGE_OUTPUTS (R431). -/
def execAcknowledgeOutputs (sess mask : Nat) (s : State) : Host.Outcome State Fault Refusal :=
  .next (asSession sess .maintainer false (ackOutputsFn mask) s)

/-! ## RESET -/

/-- RESET_STUCK (R435): high for more than 10 s. -/
def resetStuck (s : State) : State :=
  if s.lio.resetLevel && !s.lio.rstuck && s.lio.resetSince + 10 * secNs < s.ns then
    raiseRec 39 noDetail 7 3 0xFFFF [] { s with lio := { s.lio with rstuck := true } }
  else s

/-- RESET_STUCK (R435). -/
def execResetStuck (s : State) : Host.Outcome State Fault Refusal := .next (resetStuck s)

/-- RSTUCK_CLEAR (R435): low for 1 s. -/
def rstuckClear (s : State) : State :=
  if !s.lio.resetLevel && s.lio.resetSince + secNs ≤ s.ns then { s with lio := { s.lio with rstuck := false } } else s

/-- RSTUCK_CLEAR (R435). -/
def execRstuckClear (s : State) : Host.Outcome State Fault Refusal := .next (rstuckClear s)

end Sys2Proof.Machine
end

