-- ==== Sys2Proof/Machine/TimeRows.lean ====
section
/-! DEFINITION. Module time (R441 to R471): corrections by increment, the comparison of the halves, the servo, PTP, the leap
offset, launch times. -/

namespace Sys2Proof.Machine

/-! ## Corrections -/

/-- One ns, one ppm and the rate limits in the registers' units (R443, R448). -/
def unitNs : Int := 65536
def rateMax : Int := 200000 * 65536
def rateStepMax : Int := 10000 * 65536

/-- An offset increment in one half (R443). -/
def addOffset (o : Int) (h : HalfClock) : HalfClock := { h with o := h.o + o }

/-- A rate increment in one half: the reference pair first moves to the present counter with the old rate (R443). DESIGN
CHOICE, log 50 (safe). DESIGN CHOICE, log 50 (safe). -/
def addRate (r : Int) (h : HalfClock) : HalfClock :=
  { h with cRef := h.c, tRef := halfReading h - h.o, r := h.r + r }

/-- Total rate correction r as written to both halves (object 0x4001 sub 3). -/
def rateNow (s : State) : Int := (twoGet s.time.halves (timeHalf s)).r

/-- Both clocks changed. -/
def modClocks (f : HalfClock → HalfClock) (s : State) : State :=
  { s with time := { s.time with halves := twoMap s.time.halves (fun _ h => f h) } }

/-- Outcome of a correction (object 0x4001 sub 7). -/
def corrOutcome (code : Nat) (s : State) : State := { s with time := { s.time with outcome := code } }

/-- An offset increment, or its refusal beyond the jump threshold (R449, R450): TJR, event 48, a record. DESIGN CHOICE, log
47 (safe). DESIGN CHOICE, log 47 (safe). -/
def offsetInc (o : Int) (s : State) : State :=
  if s.time.jump * 65536 < o.natAbs then
    raiseRec 48 noDetail 0 3 0xFFFF (beI 8 (o / 65536))
      (corrOutcome 0x7001 { s with time := { s.time with tjr := true, refused := o / 65536, servo := .holdover } })
  else corrOutcome 0 (modClocks (addOffset o) s)

/-- A rate increment, or RATE-LIMIT (R448). DESIGN CHOICE, log 47 (safe). -/
def rateInc (r : Int) (s : State) : State :=
  if rateStepMax < r.natAbs || rateMax < (rateNow s + r).natAbs then corrOutcome 0x7002 s
  else corrOutcome 0 (modClocks (addRate r) s)

/-- A time step in ns (R451, R452): TJR cleared, event 49 and a record of both readings; a servo offset due at the same
moment is discarded. A step of 0 only clears TJR. -/
def stepTime (ns : Int) (s : State) : State :=
  let before := moduleTime s / 65536
  let due := s.time.due.filter (fun c => match c with | .servoOffset _ => false | _ => true)
  if ns = 0 then corrOutcome 0 { s with time := { s.time with tjr := false } }
  else
    let s := modClocks (addOffset (ns * 65536)) { s with time := { s.time with tjr := false, due := due } }
    raiseRec 49 noDetail 0 3 0xFFFF (beI 8 before ++ beI 8 (moduleTime s / 65536)) (corrOutcome 0 s)

/-- One due correction. -/
def applyCorr (c : Corr) (s : State) : State :=
  match c with
  | .servoOffset o => if s.time.tjr then s else offsetInc o s
  | .servoRate r => rateInc r s

/-- The servo's corrections due at t0 + 200 µs, offsets before rates (R447, R452). DESIGN CHOICE, log 47 (safe). -/
def applyDue (s : State) : State :=
  let offset (c : Corr) : Bool := match c with | .servoOffset _ => true | .servoRate _ => false
  let l := s.time.due
  let s := { s with time := { s.time with due := [] } }
  (l.filter offset ++ l.filter (fun c => !offset c)).foldl (fun s c => applyCorr c s) s

/-- A dictionary correction with its reply. -/
def corrReply (f : State → State) (s : State) : State × Nat × List Byte :=
  let t := f s
  (t, functionReply t.time.outcome [])

/-- OFFSET_INCREMENT (R449): object 0x4001 sub 1, in 2⁻¹⁶ ns, at t0 + 200 µs of the tick's bus cycle. -/
def execOffsetIncrement (sess : Nat) (o : Int) (s : State) : Host.Outcome State Fault Refusal :=
  .next (asSession sess .maintainer false (corrReply (offsetInc o)) s)

/-- RATE_INCREMENT (R448): object 0x4001 sub 2, in 2⁻¹⁶ ppb. -/
def execRateIncrement (sess : Nat) (r : Int) (s : State) : Host.Outcome State Fault Refusal :=
  .next (asSession sess .maintainer false (corrReply (rateInc r)) s)

/-- TIME_STEP (R451): object 0x4001 sub 5, in ns. -/
def execTimeStep (sess : Nat) (ns : Int) (s : State) : Host.Outcome State Fault Refusal :=
  .next (asSession sess .maintainer false (corrReply (stepTime ns)) s)

/-- TJR acknowledged (object 0x4001 sub 8). -/
def ackRefusalFn (s : State) : State × Nat × List Byte := ({ s with time := { s.time with tjr := false } }, rOk, [])

/-- ACKNOWLEDGE_REFUSAL (R450). -/
def execAcknowledgeRefusal (sess : Nat) (s : State) : Host.Outcome State Fault Refusal :=
  .next (asSession sess .maintainer false ackRefusalFn s)

/-- The comparison of both halves at t0 + 200 µs (R446), with the increment due from the last one applied to half B. DESIGN
CHOICE, log 49 (unsafe). DESIGN CHOICE, log 49 (unsafe). -/
def compareHalves (s : State) : State :=
  if !s.halves.a.inServ || !s.halves.b.inServ then s
  else
    let hb := s.time.halves.b
    let hb := match hb.align with | some v => { addOffset v hb with align := none } | none => hb
    let d := halfReading s.time.halves.a - halfReading hb
    let put (h : HalfClock) (td : Bool) (s : State) : State :=
      { s with time := { s.time with halves := { s.time.halves with b := h }, diff := -d / 65536, tdiff := td } }
    if d.natAbs ≤ 2000 * 65536 then put hb false s
    else if s.time.jump * 65536 < d.natAbs then raiseEv 54 noDetail (put hb true s)
    else raiseRec 54 noDetail 0 3 0xFFFF (beI 8 (d / 65536)) (put { hb with align := some d } s.time.tdiff s)

/-! ## The servo -/

/-- A free value in −bound to bound. -/
def takeFreeInt (bound : Nat) (s : State) : Int × State :=
  let r := takeFree s
  ((r.1 % (2 * bound + 1) : Nat) - (bound : Int), r.2)

/-- The servo forgets its measurements (R456). -/
def servoStart (src : Nat) (t : TimeSt) : TimeSt :=
  { t with src := src, valid := true, servo := .acquiring, meas := [], goodRun := 0 }

/-- A source becomes the one in use; event 50 when another was (R456). -/
def useSource (src : Nat) (s : State) : State :=
  if s.time.src = src then
    (if s.time.servo = .freeRun || (s.time.servo = .holdover && !s.time.tjr) then
      { s with time := servoStart src s.time } else s)
  else raiseEv 50 src { s with time := servoStart src s.time }

/-- An offset measured from the source in use, in 2⁻¹⁶ ns (R455): the servo's increments take effect at t0 + 200 µs of
the next bus cycle (R447). The size of its rate increments and the error estimate are not given: free values. DESIGN CHOICE,
log 48 (unsafe). DESIGN CHOICE, log 48 (unsafe). -/
def servoMeasure (src : Nat) (off : Int) (s : State) : State :=
  let s := useSource src s
  let t := s.time
  let good := if off.natAbs ≤ 1000 * 65536 then t.goodRun + 1 else 0
  let servo := if t.tjr then Servo.holdover else if 16 ≤ good then .locked else if t.servo = .locked then .locked else .acquiring
  let meas := keepLast 16 (t.meas ++ [off])
  let mark := s.imageNo + 1
  let oneO := decide (servo = .locked) && decide (t.offsetAt = mark)
  let oneR := decide (servo = .locked) && decide (t.rateAt = mark)
  let rate := takeFreeInt (10000 * 65536) s
  let est := takeFree rate.2
  let due1 := if t.tjr || oneO then [] else [Corr.servoOffset (-off)]
  let due2 := if meas.length < 8 || oneR then [] else [Corr.servoRate rate.1]
  { est.2 with time := { t with
      lastOffset := off, goodRun := good, servo := servo, meas := meas, due := t.due ++ due1 ++ due2, estErr := est.1 % 65536
      offsetAt := if due1 = [] then t.offsetAt else mark, rateAt := if due2 = [] then t.rateAt else mark } }

/-- PTP serves as source (R454). -/
def ptpUsed (s : State) : Bool := s.time.select = 0 || s.time.select = 1

/-- The Datum's time serves as source (R454): never on the Datum itself; in automatic mode only without PTP. -/
def datumUsed (s : State) : Bool :=
  !s.time.datumHere && (s.time.select = 2 || (s.time.select = 0 && s.time.ptp.current.isNone))

/-- The source in use is lost (R456): holdover with the last rate; event 51. -/
def loseSource (s : State) : State :=
  raiseEv 51 s.time.src { s with time := { s.time with servo := .holdover, src := 0, meas := [], goodRun := 0 } }

/-- TIME_SOURCE_LOST (R456): the Datum's time frames stop arriving. -/
def timeSourceLost (s : State) : State :=
  if s.time.src = 2 && s.time.servo ≠ .freeRun then loseSource s else s

/-- TIME_SOURCE_LOST (R456). -/
def execTimeSourceLost (s : State) : Host.Outcome State Fault Refusal := .next (timeSourceLost s)

/-! ## The leap offset -/

/-- UTC day of the present moment. -/
def utcDay (s : State) : Int := utcNs s / (86400 * 1000000000)

/-- Leap offset and announcement from a source or a Maintainer (R459); a change raises event 53. -/
def setLeap (offset ann : Int) (s : State) : State :=
  let same := s.time.leap = offset && s.time.leapAnn = ann
  let s1 := { s with time := { s.time with leap := offset, leapAnn := ann, leapV := true } }
  if same then s1 else raiseEv 53 noDetail { s1 with time := { s1.time with leapDay := (utcDay s1).toNat } }

/-- LEAP (R460): at the end of the UTC day of the announcement, one second earlier for a deleted one. -/
def leapRow (s : State) : State :=
  let due : Int := ((s.time.leapDay : Int) + 1) * 86400 * 1000000000 - (if s.time.leapAnn < 0 then 1000000000 else 0)
  if s.time.leapAnn ≠ 0 && due ≤ utcNs s then setLeap (s.time.leap + s.time.leapAnn) 0 s else s

/-- LEAP (R460). -/
def execLeapSecond (s : State) : Host.Outcome State Fault Refusal := .next (leapRow s)

/-! ## PTP -/

/-- One master's data set against another's by the default algorithm (R457). DESIGN CHOICE, log 48 (unsafe). -/
def betterMaster (a b : Master) : Bool :=
  let ka := [a.prio1, a.clockClass, a.accuracy, a.variance, a.prio2, a.gm]
  let kb := [b.prio1, b.clockClass, b.accuracy, b.variance, b.prio2, b.gm]
  if a.gm = b.gm then (a.steps < b.steps || (a.steps = b.steps && a.sender < b.sender))
  else
    match (ka.zip kb).find? (fun p => p.1 ≠ p.2) with
    | some p => p.1 < p.2
    | none => false

/-- The best master heard. -/
def bestMaster (l : List Master) : Option Master :=
  l.foldl (fun b m => match b with | none => some m | some x => if betterMaster m x then some m else some x) none

/-- The current master. -/
def currentMaster (s : State) : Option Master :=
  s.time.ptp.current.bind (fun n => s.time.ptp.masters.find? (fun m => m.sender = n))

/-- PTP's own state changed. -/
def modPtp (f : PtpSt → PtpSt) (s : State) : State := { s with time := { s.time with ptp := f s.time.ptp } }

/-- The best master becomes current; event 50 when the grandmaster changes while PTP is the source (R456). -/
def chooseMaster (s : State) : State :=
  let old := currentMaster s
  let new := bestMaster s.time.ptp.masters
  let s := modPtp (fun p => { p with current := new.map (·.sender) }) s
  if old.map (·.gm) = new.map (·.gm) || s.time.src ≠ 1 || new.isNone then s
  else raiseEv 50 1 { s with time := { s.time with servo := if s.time.tjr then .holdover else .acquiring, meas := [], goodRun := 0 } }

/-- PTP's leap values (R459). -/
def ptpLeap (s : State) : State :=
  match currentMaster s with
  | some m =>
    if m.utcValid && ptpUsed s then setLeap m.utcOffset (if m.leap61 then 1 else if m.leap59 then -1 else 0) s else s
  | none => s

/-- ANNOUNCE (R457): a master's Announce message in a domain. -/
def announce (domain : Nat) (m : Master) (s : State) : State :=
  if domain ≠ s.time.ptp.domain then s
  else
    let m := { m with heard := s.ns }
    let s := modPtp (fun p => { p with masters := p.masters.filter (fun x => x.sender ≠ m.sender) ++ [m] }) s
    ptpLeap (chooseMaster s)

/-- ANNOUNCE (R457). -/
def execAnnounceMsg (domain : Nat) (m : Master) (s : State) : Host.Outcome State Fault Refusal :=
  .next (announce domain m s)

/-- ANNOUNCE_TIMEOUT (R455): a master not heard for the receipt timeout; losing the last one loses the source. -/
def announceTimeout (sender : Nat) (s : State) : State :=
  match s.time.ptp.masters.find? (fun m => m.sender = sender) with
  | some m =>
    if m.heard + s.time.ptp.timeout * m.interval ≤ s.ns then
      let s := modPtp (fun p => { p with masters := p.masters.filter (fun x => x.sender ≠ sender) }) s
      let s := chooseMaster s
      if s.time.ptp.current.isNone && s.time.src = 1 then loseSource s else s
    else s
  | none => s

/-- ANNOUNCE_TIMEOUT (R455). -/
def execAnnounceTimeout (sender : Nat) (s : State) : Host.Outcome State Fault Refusal := .next (announceTimeout sender s)

/-- Module time `dt` ns after the last t0. -/
def timeAfter (s : State) (dt : Nat) : Int := moduleTime s + dt * 65536 + (dt : Int) * rateNow s / 1000000000

/-- A PTP message discarded and counted (object 0x4012 sub 4). -/
def ptpDiscard (s : State) : State := modPtp (fun p => { p with discarded := sat 0xFFFFFFFF (p.discarded + 1) }) s

/-- A complete Sync measurement (R457): the offset from the master, when PTP is the source. -/
def ptpMeasure (origin rx : Int) (s : State) : State :=
  let s := modPtp (fun p => { p with lastSync := some (origin, rx), awaiting := none }) s
  if ptpUsed s then servoMeasure 1 (rx - origin - s.time.ptp.pathDelay * 65536) s else s

/-- PTP_SYNC (R457): a Sync message received `dt` ns after t0. -/
def ptpSync (m : PtpMsg) (dt : Nat) (s : State) : State :=
  match currentMaster s with
  | some c =>
    if m.domain ≠ s.time.ptp.domain || c.sender ≠ m.sender then s
    else if !c.timescale || m.logInt < -7 || 1 < m.logInt then ptpDiscard s
    else
      let rx := timeAfter s dt
      let s := stamp 69 0 (portStamp 69 m.seq false rx) s
      if m.twoStep then modPtp (fun p => { p with awaiting := some (m.seq, rx) }) s else ptpMeasure m.origin rx s
  | none => s

/-- PTP_SYNC (R455). -/
def execPtpSync (m : PtpMsg) (dt : Nat) (s : State) : Host.Outcome State Fault Refusal := .next (ptpSync m dt s)

/-- FOLLOW_UP (R457): the precise origin time of a two-step Sync. -/
def followUp (m : PtpMsg) (s : State) : State :=
  match currentMaster s, s.time.ptp.awaiting with
  | some c, some w =>
    if m.domain = s.time.ptp.domain && c.sender = m.sender && w.1 = m.seq then ptpMeasure m.origin w.2 s else s
  | _, _ => s

/-- FOLLOW_UP (R457). -/
def execFollowUp (m : PtpMsg) (s : State) : Host.Outcome State Fault Refusal := .next (followUp m s)

/-- Frames the timed queue holds (R468). -/
def timedCap : Nat := 8

/-- A timed frame into its queue in launch order (R468); none for one more than 1 s ahead. -/
def queueTimed (f : TimedFrame) (s : State) : Option State :=
  let l := s.time.timed
  if moduleTime s + 1000000000 * 65536 < f.launch || timedCap ≤ l.length then none
  else some { s with time := { s.time with
    timed := l.filter (fun x => x.launch ≤ f.launch) ++ [f] ++ l.filter (fun x => f.launch < x.launch) } }

/-- PTP_DELAY_REQ (R457): a Delay_Req queued with its launch time, at the master's interval. -/
def ptpDelayReq (launch : Int) (s : State) : State :=
  match currentMaster s with
  | some m =>
    if s.time.ptp.lastReq ≠ 0 && s.ns < s.time.ptp.lastReq + m.delayInt then s
    else
      let n := (s.time.ptp.delaySeq + 1) % 65536
      match queueTimed { launch := launch, serial := n } s with
      | some t =>
        stamp 68 0 (portStamp 68 n true launch)
          (modPtp (fun p => { p with delaySeq := n, delayReq := some (n, launch), lastReq := t.ns }) t)
      | none => s
  | none => s

/-- PTP_DELAY_REQ (R457). -/
def execPtpDelayReq (launch : Int) (s : State) : Host.Outcome State Fault Refusal := .next (ptpDelayReq launch s)

/-- PTP_DELAY_RESP (R457): when the master received the Delay_Req; the mean path delay end to end. -/
def ptpDelayResp (sender seq : Nat) (received : Int) (s : State) : State :=
  match currentMaster s, s.time.ptp.delayReq, s.time.ptp.lastSync with
  | some m, some d, some y =>
    if m.sender = sender && d.1 = seq then
      let two := (y.2 - y.1) + (received - d.2)
      modPtp (fun p => { p with pathDelay := (two / 2 / 65536).toNat, delayReq := none }) s
    else s
  | _, _, _ => s

/-- PTP_DELAY_RESP (R457). -/
def execPtpDelayResp (sender seq : Nat) (received : Int) (s : State) : Host.Outcome State Fault Refusal :=
  .next (ptpDelayResp sender seq received s)

/-! ## Launch times -/

/-- A missed launch counted; event 55 (R468, R469). -/
def missLaunch (d : Nat) (s : State) : State :=
  raiseEv 55 d { s with time := { s.time with missed := sat 0xFFFFFFFF (s.time.missed + 1) } }

/-- Timed frames whose launch time has come leave (R468). -/
def launchTimed (s : State) : State :=
  let now := moduleTime s
  { s with time := { s.time with timed := s.time.timed.filter (fun f => now < f.launch) } }

/-- TIMED_FRAME_LATE (R468): the head frame's launch time has passed by more than 1 µs. -/
def timedLate (s : State) : State :=
  match s.time.timed with
  | f :: l =>
    if f.launch + 1000 * 65536 < moduleTime s then
      let s := { s with time := { s.time with timed := l } }
      missLaunch 0xFF (modPtp (fun p => { p with delayReq := if p.delayReq.any (fun d => d.1 = f.serial) then none else p.delayReq }) s)
    else s
  | [] => s

/-- TIMED_FRAME_LATE (R468). -/
def execTimedFrameLate (s : State) : Host.Outcome State Fault Refusal := .next (timedLate s)

/-- LAUNCH_MISSED (R469): a scheduled frame of the present bus cycle was not complete in time and is not sent. -/
def launchMissed (h : Half) (slot port : Nat) (s : State) : State :=
  if !chanUp s h then s
  else
    let t := twoGet s.tx h
    let t := if slot = 0 then { t with sync := none }
      else if slot = 9 then { t with cmds := tabDel t.cmds port }
      else if slot = 10 then { t with permits := tabDel t.permits port }
      else if slot = 11 then { t with acks := t.acks.filter (fun a => a.1 ≠ port + 1) }
      else { t with tables := t.tables.filter (fun x => x.1 ≠ port) }
    missLaunch port { s with tx := twoPut s.tx h t }

/-- LAUNCH_MISSED (R469). -/
def execLaunchMissed (h : Half) (slot port : Nat) (s : State) : Host.Outcome State Fault Refusal :=
  .next (launchMissed h slot port s)

end Sys2Proof.Machine
end

