-- ==== Sys2Proof/Machine/Restart.lean ====
section
/-! DEFINITION. What a restart makes of the lanes' state: cold (R88, R325), warm (R142, R325), and the commons' part of both. -/

namespace Sys2Proof.Machine

/-- A lane's kernel after a cold restart (R88): routes released, signals at aspect 0x0, points unlocked, crossings commanded
closed, everything else from the start-up defaults part; boundary locks end (R515), pending events and held requests go.
DESIGN CHOICE, log 17 (safe). DESIGN CHOICE, log 33 (unsafe). -/
def coldKernel (e : KEnv) (img : Nat) (k : Kernel) : Kernel :=
  let d := Config.startDefaults e.st.defaults
  { Kernel.init with
    image := k.image, prog := k.prog, results := k.results
    crossings := e.st.crossings.foldl (fun t c => tabPut t c.num { CrossSt.init with since := img }) []
    sections := d.1, keys := d.2.1, carriers := d.2.2 }

/-- Why a program does not fit at a start: its required digest (0x5007, R304), a block type the firmware lacks (0x5205,
R287). -/
def progMisfit (s : State) (p : Program) : Option Nat :=
  if p.needDigest ≠ digest8 s then some 0x5007
  else if p.library.any (fun b => !(Config.library s.lanes.a.fwVersion).contains b) then some 0x5205
  else none

/-- A cold restart of one lane's state (R88, R325). -/
def coldRun (e : KEnv) (img : Nat) (x : KRun) : KRun := progRestart false (onK (coldKernel e img) x)

/-- FRONT-WITHIN of a cleared route armed again (R142). -/
def armApproach (e : KEnv) (n : Nat) (x : KRun) : KRun :=
  match routeRec e.st n with
  | none => x
  | some r =>
    match sigRec e.st r.entry with
    | some g =>
      if (rst x.k n).state = .cleared then
        arm e { kind := .frontWithin, app := false, carrier := 0xFFFF, target := g.sec,
                line := ((secRec e.st g.sec).map SectionRec.line).getD 0xFFFF, threshold := g.chain,
                amount := r.approach, image := x.k.image.num, owner := n, dir := g.facing } x
      else x
    | none => x

/-- A scheduler event that outlives a warm restart: elapsed events count in full from the first image (R142, R325);
application events keep their arms. DESIGN CHOICE, log 33 (unsafe). -/
def keepEvent (img : Nat) (v : SEvent) : Option SEvent :=
  if v.kind = .elapsed then some { v with image := img } else if v.app then some v else none

/-- Timers of release keys and emergency releases end as KEY-DROPPED (R142). -/
def dropTimers (x : KRun) : KRun :=
  let keys := x.k.keys.filter (fun t => t.2.timing)
  let ems := x.k.emRels
  let x := onK (fun k => { k with
    keys := tabMap k.keys (fun _ t => { t with timing := false, remain := 0 }), emRels := [] }) x
  let x := keys.foldl (fun x t => keyRecord t.1 0xFFFF 0xFFFF cKeyDropped x) x
  ems.foldl (fun x m => keyRecord 0xFFFF m.route 0xFFFF cKeyDropped x) x

/-- A warm restart of one lane's state (R142, R325); `img` is the first image after it. DESIGN CHOICE, log 33 (unsafe). -/
def warmRun (e : KEnv) (img : Nat) (x : KRun) : KRun :=
  let x := dropTimers x
  let x := onK (fun k => { k with
    events := k.events.filterMap (keepEvent img)
    routes := tabMap k.routes (fun _ r => { r with rearFired := false }) }) x
  let x := (tabKeys x.k.routes).foldl (fun x n => armApproach e n (ensureArmed e n x)) x
  progRestart true x

/-- A restart of the lanes' states between two images: each kernel takes it, its records and events are taken once. -/
def restartKernels (f : KEnv → Nat → KRun → KRun) (s : State) : State :=
  let e := kenv s
  let img := imgAdd s.imageNo 1
  let run (k : Kernel) : KRun := f e img { k := k, recs := [], evs := [], reserves := [] }
  let y := run (leadKernel s)
  let s := { s with lanes := triMap s.lanes (fun _ v => { v with kernel := (run v.kernel).k }) }
  let s := y.evs.foldl (fun s v => raiseAt img v.event v.detail s) s
  y.recs.foldl (fun s r => bookPut { r with time := utcNs s, image := img, flags := r.flags + timeq s } s) s

/-- The program as a start finds it: stopped when it does not fit (R287, R304). -/
def fitProgram (s : State) (x : KRun) : KRun :=
  match x.k.prog.prog.bind (progMisfit s) with
  | some c => progUnfit c x
  | none => x

/-- A cold restart of the module's vital state. -/
def coldRestart (s : State) : State := restartKernels (fun e n x => fitProgram s (coldRun e n x)) s

/-- A warm restart of the module's vital state. -/
def warmRestart (s : State) : State := restartKernels (fun e n x => fitProgram s (warmRun e n x)) s

/-- Start-up step 7 begins (R610): INHIBIT until start-up confirmation. -/
def awaitConfirmation (s : State) : State :=
  { s with power := { s.power with step := 7, step7At := s.ns, confirmed := false, confirmDue := false, confirmImg := none } }

/-- Control taken as after a cold restart (R502, R505). -/
def coldControl (s : State) : State := awaitConfirmation (coldRestart s)

end Sys2Proof.Machine
end

