-- ==== Sys2Proof/Machine/CascadeRows.lean ====
section
/-! DEFINITION. The cascade (R472 to R485, R508 to R516): frames, connections with their ages, anchors, reservations, clear-ahead
bits, paths and the board link. -/

namespace Sys2Proof.Machine

/-! ## Frames -/

/-- What a valid cascade frame is for this module (R474, R485). -/
inductive Due where
  | mine
  | forward
  | discard
  deriving DecidableEq, Repr

/-- Where a frame of one of the kinds of Table 13.2 goes. -/
def dueOf (s : State) (f : CascFrame) (kind : Nat) : Due :=
  if !f.fcsOk || f.etherType ≠ s.casc.etherType || f.version ≠ 2 || f.kind ≠ kind || f.resv ≠ 0 || 4096 ≤ f.src ||
      f.path = 0 || 3 < f.path || f.bodyLen ≠ f.body.length || 1484 < f.bodyLen then .discard
  else if f.dst = s.dict.modAddr || f.dst = 0xFFFF then .mine
  else if f.path = 3 then .forward
  else .discard

/-- The board-link side a frame leaves on: the one it did not arrive on. -/
def otherSide (n : Nat) : Nat := if n = 1 then 2 else 1

/-- A frame for another module passed on by the board link (R485); one whose hops run out is discarded. -/
def forwardFrame (f : CascFrame) (s : State) : State :=
  let up := if otherSide f.side = 1 then s.casc.bl1 else s.casc.bl2
  if f.hops ≤ 1 || !up then s
  else { s with casc := { s.casc with forwarded := [(otherSide f.side, { f with hops := f.hops - 1 })] } }

/-- State of a path, 1 C1, 2 C2, 3 board link. -/
def pathSt (s : State) (n : Nat) : PathSt :=
  if n = 1 then s.casc.paths.a else if n = 2 then s.casc.paths.b else s.casc.paths.c

/-- A path's state changed. -/
def modPath (n : Nat) (f : PathSt → PathSt) (s : State) : State :=
  let p := s.casc.paths
  { s with casc := { s.casc with paths :=
      if n = 1 then { p with a := f p.a } else if n = 2 then { p with b := f p.b } else { p with c := f p.c } } }

/-- A copy delivered by a path (R481); event 61 when a failed path delivers again. PRESUMED, log 62 (safe). -/
def countCopy (n : Nat) (s : State) : State :=
  let was := (pathSt s n).fault
  let s := modPath n (fun p => { p with
    link := true, fault := false, lastAt := s.ns, copies := p.copies.filter (fun t => s.ns < t + secNs) ++ [s.ns] }) s
  if was then raiseEv 61 n s else s

/-- PATH_FAULT (R481): no copy for 1 s on a path while another delivered. -/
def pathFault (n : Nat) (s : State) : State :=
  let p := pathSt s n
  let other := ([1, 2, 3].filter (· ≠ n)).any (fun m => (pathSt s m).copies.any (fun t => s.ns < t + secNs))
  if n = 0 || 3 < n || p.fault || s.ns < p.lastAt + secNs || !other then s
  else raiseEv 61 n (modPath n (fun p => { p with fault := true }) s)

/-- PATH_FAULT (R481). -/
def execPathFault (n : Nat) (s : State) : Host.Outcome State Fault Refusal := .next (pathFault n s)

/-! ## Connections -/

/-- A connection before its first envelope. -/
def ConnSt.init (kind peer num : Nat) : ConnSt :=
  { kind := kind, peer := peer, num := num, lastSeq := none, startCount := 0, ref := none, best := none, refAt := 0,
    busNs := 0, lCyc := 0, partner := 0xFFFF, preferred := false, maxAge := 0 }

/-- A connection, if anything was accepted on it. -/
def findConn (s : State) (kind peer num : Nat) : Option ConnSt :=
  s.casc.conns.find? (fun c => c.kind = kind && c.peer = peer && c.num = num)

/-- A connection stored. -/
def putConn (c : ConnSt) (s : State) : State :=
  let l := s.casc.conns.filter (fun d => !(d.kind = c.kind && d.peer = c.peer && d.num = c.num)) ++ [c]
  { s with casc := { s.casc with conns := l } }

/-- Modules that have connections with this one: the partner, the neighbours, the neighbours' partners (Table 13.3). -/
def cascPeers (s : State) : List Nat :=
  let ns := s.cfg.boundaries.map (·.neighMod)
  let ps := (s.casc.conns.filter (fun c => ns.contains c.peer)).map (·.partner)
  ((if s.pair.partnerAddr = 0xFFFF then [] else [s.pair.partnerAddr]) ++ ns ++ ps.filter (· ≠ 0xFFFF)).eraseDups

/-- An envelope read from a frame body: header, payload, trailer (Tables 10.2, 10.4); step 2 of Table 10.6 as far as the
body tells it. -/
def readEnvelope (b : List Byte) : Option Envelope :=
  let len := field b 14 2
  let t := 16 + len
  let clear := field b 12 1 = 0x95
  let size := if clear then t + 4 else t + 12
  if b.length ≠ size || field b 13 1 ≠ 0 || (!clear && field b (t + 1) 3 ≠ 0) then none
  else some
    { tag := field b 0 2, seq := field b 2 4, stamp := field b 6 4, epoch := field b 10 2, kind := field b 12 1, flags := 0,
      payload := cut b 16 len, pair := if clear then 0 else field b t 1,
      cv1 := field b (if clear then t else t + 4) 4, cv2 := if clear then 0 else field b (t + 8) 4 }

/-- Envelope kinds of a lane connection (Table 13.3). -/
def connKinds (num : Nat) : List Nat :=
  if num = 0 then [0x90, 0x94] else if num = 1 then [0x91, 0x94] else [0x92, 0x93, 0x94]

/-- The connection whose identity an envelope's check values verify (steps 2 and 3): kind code, peer, number. -/
def connMatch (s : State) (e : Envelope) : Option (Nat × Nat × Nat) :=
  let me := s.dict.modAddr
  (cascPeers s).findSome? (fun p =>
    if e.kind = 0x95 then
      allHalves.findSome? (fun h => if clearEnvelopeOk (cascadeId 7 p me (halfNo h)) h e then some (7, p, halfNo h) else none)
    else [0, 1, 2].findSome? (fun n =>
      if laneEnvelopeOk (cascadeId 6 p me n) (connKinds n) e then some (6, p, n) else none))

/-- Newer sequence (R479). -/
def newerSeq (a last : Nat) : Bool :=
  let d := (a + 0x100000000 - last % 0x100000000) % 0x100000000
  1 ≤ d && d ≤ 0x7FFFFFFF

/-- Difference of two 32-bit stamps as a signed number. -/
def stampDiff (a b : Nat) : Int :=
  let d := (a + 0x100000000 - b % 0x100000000) % 0x100000000
  if d < 0x80000000 then (d : Int) else (d : Int) - 0x100000000

/-- Division rounded to the nearest whole number. DESIGN CHOICE, log 65 (unsafe). -/
def roundDiv (a b : Int) : Int := (2 * a + b) / (2 * b)

/-- Age of a stamp at a consumer's counter (R482); the heartbeat connection shares the counter. DESIGN CHOICE, log 65
(unsafe). DESIGN CHOICE, log 65 (unsafe). -/
def ageOf (s : State) (c : ConnSt) (stampV counter : Nat) : Int :=
  if c.kind = 6 && c.num = 0 then stampDiff counter stampV
  else match c.ref with
    | some r => ((counter : Int) - (r.2 : Int)) - roundDiv (stampDiff stampV r.1 * (c.busNs : Int)) (max 1 s.bus.busNs : Nat)
    | none => 0

/-- Maximum age of a connection (R390, R516). -/
def maxAgeOf (s : State) (c : ConnSt) : Nat :=
  if c.kind = 7 then s.casc.clearAge else if c.maxAge = 0 then s.casc.maxAge else c.maxAge

/-- Step 4 on a cascade connection (R390). -/
def ageOk (s : State) (c : ConnSt) (stampV : Nat) : Bool :=
  let a := ageOf s c stampV s.bus.counter
  decide ((-1 : Int) ≤ a) && a ≤ (maxAgeOf s c : Int)

/-- Delay figure of an envelope (R482): c − s × ratio, scaled by the consumer's bus-cycle length. -/
def delayOf (s : State) (c : ConnSt) (r : Nat × Nat) : Int :=
  let base := match c.ref with | some x => x.1 | none => 0
  (r.2 : Int) * (s.bus.busNs : Int) - stampDiff r.1 base * (c.busNs : Int)

/-- The less delayed of two envelopes. -/
def lessDelayed (s : State) (c : ConnSt) (a : Option (Nat × Nat)) (b : Nat × Nat) : Nat × Nat :=
  match a with
  | some x => if delayOf s c b < delayOf s c x then b else x
  | none => b

/-- Step 7 of Table 10.6 on a cascade payload: length, counts, reserved bits (Tables 13.4, 13.5, 13.8, 13.10). -/
def payloadOk (e : Envelope) : Bool :=
  let p := e.payload
  if e.kind = 0x94 then p.length = 16 && field p 9 1 < 2 && field p 12 1 < 2 && field p 13 3 = 0 && 1 ≤ field p 8 1
  else if e.kind = 0x90 then
    p.length = 32 && (field p 0 1 = 1 || field p 0 1 = 2) && field p 1 1 < 16 && field p 3 1 = 0 && field p 28 4 = 0
  else if e.kind = 0x92 then
    p.length = 12 && 1 ≤ field p 2 1 && field p 2 1 ≤ 3 && field p 3 1 = 0 && field p 6 2 = 0
  else if e.kind = 0x93 then
    p.length = 12 && (field p 2 1 = 1 || field p 2 1 = 3) && field p 3 1 = 0 && field p 10 2 = 0
  else if e.kind = 0x95 then
    let n := field p 8 2
    n ≤ 256 && p.length = 12 + 4 * n && field p 10 2 = 0 && (List.range n).all (fun i => field p (12 + 4 * i + 2) 1 < 2)
  else true

/-- An ANCHOR with OPEN set, or a CLEAR-AHEAD: what may open a connection afresh (R479). DEDUCED, log 54 (safe). -/
def mayOpen (e : Envelope) : Bool := (e.kind = 0x94 && field e.payload 9 1 = 1) || e.kind = 0x95

/-- Envelopes that carry the producer's start count and bus-cycle length (Tables 13.4, 13.10). -/
def carriesStart (e : Envelope) : Bool := e.kind = 0x94 || e.kind = 0x95

/-- Refused by a check of Table 10.6 (object 0x3403 sub 2). -/
def refuseEnv (s : State) : State := { s with casc := { s.casc with refused := sat 0xFFFFFFFF (s.casc.refused + 1) } }

/-- A connection after an accepted envelope: sequence, start count, reference pair and least-delayed candidate (R482). -/
def afterEnvelope (s : State) (c : ConnSt) (e : Envelope) (opened : Bool) : ConnSt :=
  let now := (e.stamp, s.bus.counter)
  let c := { c with lastSeq := some e.seq, startCount := if carriesStart e then max c.startCount (field e.payload 0 4) else c.startCount }
  let len := if carriesStart e then field e.payload 4 4 else c.busNs
  let renewed := c.busNs ≠ 0 && len ≠ c.busNs && !opened
  let c := { c with busNs := len }
  let c := if e.kind = 0x94 then { c with lCyc := field e.payload 8 1, partner := field e.payload 10 2,
                                          preferred := field e.payload 12 1 = 1 } else c
  if renewed then { c with ref := none, best := none, refAt := s.bus.counter }
  else match c.ref with
    | none => { c with ref := some now, best := none, refAt := s.bus.counter }
    | some _ => { c with best := some (lessDelayed s c c.best now) }

/-- A copy received (R479, R384): the connection it was accepted on, if it was. `path` 0 is no cascade path. DEDUCED, log 54
(safe). DEDUCED, log 54 (safe). -/
def takeEnvelope (path : Nat) (e : Envelope) (s : State) : State × Option (Nat × Nat × Nat) :=
  match connMatch s e with
  | none => (refuseEnv s, none)
  | some k =>
    let s := if path = 0 then s else countCopy path s
    let old := (findConn s k.1 k.2.1 k.2.2).getD (ConnSt.init k.1 k.2.1 k.2.2)
    let count := field e.payload 0 4
    let opened := mayOpen e && (old.lastSeq.isNone || old.startCount < count)
    let newer := match old.lastSeq with | some l => newerSeq e.seq l | none => carriesStart e || (k.1 = 6 && k.2.2 = 0)
    let c : ConnSt := if opened then
      { old with ref := some (e.stamp, s.bus.counter), best := none, refAt := s.bus.counter, busNs := field e.payload 4 4 } else old
    if !payloadOk e || !ageOk s c e.stamp then (refuseEnv s, none)
    else if !newer && !opened then
      (if old.lastSeq.isNone then (refuseEnv s, none)
       else ({ s with casc := { s.casc with dups := sat 0xFFFFFFFF (s.casc.dups + 1) } }, none))
    else (putConn (afterEnvelope s c e opened) s, some k)

/-- Bus cycles after which a reference pair is replaced (R482). -/
def refCycles : Nat := 1024

/-- REFERENCE_PAIR_UPDATE (R482). -/
def referenceUpdate (kind peer num : Nat) (s : State) : State :=
  match findConn s kind peer num with
  | some c =>
    if c.refAt + refCycles ≤ s.bus.counter then
      putConn { c with ref := match c.best with | some b => some b | none => c.ref, best := none, refAt := s.bus.counter } s
    else s
  | none => s

/-- REFERENCE_PAIR_UPDATE (R482). -/
def execReferencePairUpdate (kind peer num : Nat) (s : State) : Host.Outcome State Fault Refusal :=
  .next (referenceUpdate kind peer num s)

/-! ## What the envelopes do -/

/-- Clear-ahead bits of a neighbour's half (R263, Table 13.10). -/
def takeClear (peer num : Nat) (e : Envelope) (s : State) : State :=
  let n := field e.payload 8 2
  let es := (List.range n).map (fun i => (field e.payload (12 + 4 * i) 2, bit (field e.payload (12 + 4 * i + 2) 1) 0))
  let keep := s.casc.clearIn.filter (fun c => !(c.peer = peer && c.num = num && es.any (fun x => x.1 = c.boundary)))
  { s with casc := { s.casc with clearIn := keep ++ es.map (fun x =>
      { boundary := x.1, peer := peer, num := num, stamp := e.stamp, bit := x.2 }) } }

/-- A boundary's clear-ahead bits inside the allowed age (R263): from the neighbour or its partner. -/
def clearBits (s : State) (b : Nat) : List ClearIn :=
  match s.cfg.boundaries.find? (fun x => x.num = b) with
  | none => []
  | some x => s.casc.clearIn.filter (fun c =>
      c.boundary = b &&
      (c.peer = x.neighMod || (s.casc.conns.any (fun d => d.peer = x.neighMod && d.partner = c.peer && c.peer ≠ 0xFFFF))) &&
      match findConn s 7 c.peer c.num with
      | some d => ageOk s d c.stamp
      | none => false)

/-- The clear-ahead bit of a boundary as a walk uses it: present and set by every valid message (R263). -/
def clearBit (s : State) (b : Nat) : Bool :=
  let l := clearBits s b
  !l.isEmpty && l.all (·.bit)

/-- A RESERVE placed on requester port 1 (R511). -/
def takeReserve (peer : Nat) (e : Envelope) (s : State) : State :=
  let p := e.payload
  let act := field p 2 1
  let r := ingressStamp 1 s
  enqueue { cls := if act = 1 then 2 else 1, hold := false, opt := 0, all := false, resv := false
            target := if act = 3 then 0xFFFF else field p 0 2, tag := peer * 2 ^ 20 + field p 4 2, stamp := r.1, port := 1
            level := .operator, epoch := e.epoch, session := 0xFFFF } r.2

/-- A RESERVE-REPLY (R508, R514): for the lanes' next image, or discarded when it echoes another epoch. DEDUCED, log 53
(safe). DEDUCED, log 53 (safe). -/
def takeReply (peer : Nat) (e : Envelope) (s : State) : State :=
  let p := e.payload
  let route := field p 4 2
  if field p 6 2 ≠ s.pair.epoch then
    raiseRec 63 route (field p 6 2) 3 0xFFFF (be 2 peer ++ be 2 route ++ be 2 (field p 6 2)) s
  else { s with casc := { s.casc with replies := s.casc.replies ++ [(route, decide (field p 2 1 = 1))] } }

/-- A copy of one of some kinds received from a cascade frame, with what its kind does. -/
def cascReceive (kinds : List Nat) (f : CascFrame) (act : Nat × Nat × Nat → Envelope → State → State) (s : State) : State :=
  match dueOf s f 1 with
  | .discard => s
  | .forward => forwardFrame f s
  | .mine =>
    match readEnvelope f.body with
    | none => refuseEnv s
    | some e =>
      if !kinds.contains e.kind then s
      else
        match takeEnvelope f.path e s with
        | (s, some k) => act k e s
        | (s, none) => s

/-- Receiving half's own clear-ahead row (R263). -/
def clearAheadRow (f : CascFrame) (s : State) : State := cascReceive [0x95] f (fun k e s => takeClear k.2.1 k.2.2 e s) s

/-- CLEAR_AHEAD (R263). -/
def execClearAhead (f : CascFrame) (s : State) : Host.Outcome State Fault Refusal := .next (clearAheadRow f s)

/-- RESERVE (R511). -/
def execReserveMsg (f : CascFrame) (s : State) : Host.Outcome State Fault Refusal :=
  .next (cascReceive [0x92] f (fun k e s => takeReserve k.2.1 e s) s)

/-- RESERVE_REPLY (R514). -/
def execReserveReply (f : CascFrame) (s : State) : Host.Outcome State Fault Refusal :=
  .next (cascReceive [0x93] f (fun k e s => takeReply k.2.1 e s) s)

/-! ## Sending -/

/-- The next sequence number on a connection (R389). -/
def nextSeq (kind peer num : Nat) (s : State) : Nat × State :=
  let same (x : Nat × Nat × Nat × Nat) : Bool := x.1 = kind && x.2.1 = peer && x.2.2.1 = num
  let n := ((s.casc.txSeq.find? same).map (fun x => x.2.2.2 + 1)).getD 1 % 0x100000000
  (n, { s with casc := { s.casc with txSeq := s.casc.txSeq.filter (fun x => !same x) ++ [(kind, peer, num, n)] } })

/-- The voted block 19 in force, with its pair code: the first half's that holds one (R477). -/
def cascNow (s : State) : Option (CascBlock × Nat) :=
  (allHalves.filterMap (fun h => (twoGet s.halves h).active.bind (·.casc))).head?

/-- An envelope leaves on C1 and on C2 (R478), each copy with its stamp (Tables 12.4, 12.5). -/
def sendEnvelope (peer : Nat) (e : Envelope) (s : State) : State :=
  let sel := if e.kind = 0x90 then 0 else 1
  let x : StampEntry := { ident := e.seq % 65536, slot := 0xFFFF, port := 0xFF, flags := 0, time := moduleTime s }
  stamp 71 sel x (stamp 70 sel x { s with casc := { s.casc with sent := s.casc.sent ++ [(peer, e)] } })

/-- A lane-produced envelope sent on a connection (R476 to R478). -/
def sendLane (peer num kind pair epoch : Nat) (payload : List Byte) (s : State) : State :=
  let q := nextSeq 6 peer num s
  let e := laneEnvelope (cascadeId 6 s.dict.modAddr peer num) pair (0x4000 + s.dict.modAddr % 4096) q.1
    (s.bus.counter % 0x100000000) epoch kind payload
  sendEnvelope peer e q.2

/-- ANCHOR payload (Table 13.4). -/
def anchorPayload (s : State) (opening : Bool) : List Byte :=
  be 4 s.casc.startCount ++ be 4 s.bus.busNs ++ be 1 s.bus.lCyc ++ be 1 (b2n opening) ++ be 2 s.pair.partnerAddr ++
  be 1 (b2n s.pair.preferred) ++ be 3 0

/-- Connections the lanes produce on (Table 13.3): heartbeat and benchmark to the partner, reservations to neighbours and
their partners. -/
def producedConns (s : State) : List (Nat × Nat) :=
  (cascPeers s).flatMap (fun p =>
    (if p = s.pair.partnerAddr then [(p, 0), (p, 1)] else []) ++
    (if p ≠ s.pair.partnerAddr || s.cfg.boundaries.any (fun b => b.neighMod = p) then [(p, 2)] else []))

/-- ANCHOR_SEND (R476): at opening, at a bus mode switch, and at least every 1,024 bus cycles. -/
def anchorSend (peer num : Nat) (s : State) : State :=
  match cascNow s with
  | none => s
  | some b =>
    if !(producedConns s).contains (peer, num) then s
    else
      let opening := !s.casc.anchored.contains (peer, num)
      let s := sendLane peer num 0x94 b.2 s.pair.epoch (anchorPayload s opening) s
      { s with casc := { s.casc with
          anchored := if opening then s.casc.anchored ++ [(peer, num)] else s.casc.anchored
          anchorAt := s.casc.anchorAt.filter (fun x => !(x.1 = peer && x.2.1 = num)) ++ [(peer, num, s.bus.counter)] } }

/-- ANCHOR_SEND (R476). -/
def execAnchorSend (peer num : Nat) (s : State) : Host.Outcome State Fault Refusal := .next (anchorSend peer num s)

/-! ## The board link -/

/-- BOARD_LINK_UP (R485): a side of the board link comes up; addresses along the link, this module's place among them,
whether it is a ring. -/
def boardLinkUp (side pos : Nat) (addrs : List Nat) (ring : Bool) (s : State) : State :=
  if side = 0 || 2 < side || 8 < addrs.length || addrs.length ≤ pos then s
  else
    let s := { s with casc := { s.casc with
      bl1 := s.casc.bl1 || side = 1, bl2 := s.casc.bl2 || side = 2, ring := ring, pos := pos, nmod := addrs.length, blAddrs := addrs } }
    let was := (pathSt s 3).fault
    let s := modPath 3 (fun p => { p with link := true, fault := false }) s
    if was then raiseEv 61 3 s else s

/-- BOARD_LINK_UP (R485). -/
def execBoardLinkUp (side pos : Nat) (addrs : List Nat) (ring : Bool) (s : State) : Host.Outcome State Fault Refusal :=
  .next (boardLinkUp side pos addrs ring s)

/-- BOARD_LINK_BREAK (R485): the chain or ring breaks; `down` are the sides of this module without link, `addrs` the modules
of its part; the parts work on; event 61. DESIGN CHOICE, log 64 (safe). -/
def boardLinkBreak (down1 down2 : Bool) (pos : Nat) (addrs : List Nat) (s : State) : State :=
  if !(s.casc.bl1 || s.casc.bl2) then s
  else
    let b1 := s.casc.bl1 && !down1
    let b2 := s.casc.bl2 && !down2
    let on := b1 || b2
    let s := { s with casc := { s.casc with
      bl1 := b1, bl2 := b2, ring := false, pos := if on then pos % 8 else 0, nmod := if on then min 8 addrs.length else 1
      blAddrs := if on then addrs.take 8 else [] } }
    raiseEv 61 3 (modPath 3 (fun p => { p with link := on, fault := !on }) s)

/-- BOARD_LINK_BREAK (R485). -/
def execBoardLinkBreak (down1 down2 : Bool) (pos : Nat) (addrs : List Nat) (s : State) : Host.Outcome State Fault Refusal :=
  .next (boardLinkBreak down1 down2 pos addrs s)

end Sys2Proof.Machine
end

