-- ==== Sys2Proof/Machine/Deliver.lean ====
section
/-! DEFINITION. Delivery of a cycle input image to the lanes (R29, R30, R234): who runs it, who keeps it, who lost it. -/

namespace Sys2Proof.Machine

/-- Images the commons keeps for a rejoining lane (R234). -/
def keptCap : Nat := 8

/-- Shadow phase budget in images (Table 6.9). -/
def shadowImages : Nat := 3

/-- A lane's core is halted in commissioning mode: the lanes wait for it (R248, R249). DESIGN CHOICE, log 32 (unsafe). -/
def debugHeld (s : State) : Bool := s.comm.mode && !s.lanes.a.halted.isEmpty

/-- One lane takes the image: in vote or shadowing it runs it, past its copy point it is kept for it, without a valid copy it
loses it (IMAGE-LOST). -/
def deliverTo (l : Lane) (img : Option CycleImage) (p : PassTimes) (s : State) : State :=
  let v := triGet s.lanes l
  let put (x : LaneSt) : State := { s with lanes := triPut s.lanes l x }
  match v.ls, img with
  | .inVote, some i => if debugHeld s then s else put (laneRun s p i v)
  | .inVote, none => excludeLanes [l] 0x04 0xFF (be 4 s.imageNo) s
  | .shadow, some i => put (laneRun s p i v)
  | .catchingUp, some i => put { laneRun s p i v with ls := .shadow, progress := 95, dueImg := imgAdd s.imageNo shadowImages }
  | .copying, some i =>
    if v.copyPoint.isNone then s
    else if keptCap ≤ v.keptImgs.length then failRejoin l 0x0F s
    else put { v with keptImgs := v.keptImgs ++ [i] }
  | .copying, none => if v.copyPoint.isNone then s else failRejoin l 0x0F s
  | .shadow, none => failRejoin l 0x04 s
  | .catchingUp, none => failRejoin l 0x04 s
  | _, _ => s

/-- Copies of the image a lane has: those of the halves in service whose transfer to it was good. -/
def copyFor (img : Half → Option CycleImage) (ok : Bool × Bool) : Option CycleImage × Option CycleImage :=
  (if ok.1 then img .a else none, if ok.2 then img .b else none)

/-- Event 13 is due: two copies that differ, or only one (R29). -/
def copiesUnequal (c : Option CycleImage × Option CycleImage) : Bool :=
  match c with
  | (some a, some b) => a ≠ b
  | (none, none) => false
  | _ => true

/-- The image under way delivered to the lanes; `img` the copy each half delivers, `halves` whether two were expected. -/
def deliver (img : Half → Option CycleImage) (two : Bool) (t : TickIn) (s : State) : State :=
  let s := { s with lanes := triMap s.lanes (fun _ v => { v with lateWas := v.late }) }
  let odd := allLanes.any (fun l =>
    let c := copyFor img (triGet t.copies l)
    (inVote s l) && copiesUnequal c && (two || (c.1.isSome && c.2.isSome)))
  let s := if odd then raiseAt s.imageNo 13 noDetail s else s
  allLanes.foldl (fun s l =>
    let c := copyFor img (triGet t.copies l)
    deliverTo l (chooseCopy s.cfg c.1 c.2) (triGet t.times l) s) s

/-- In-service test of one lane (R585 to R587). -/
def istLane (l : Lane) (r : IstIn) (s : State) : State :=
  let x := triGet s.test.ist l
  let n := x.images + 1
  let y : IstLane := { x with
    corrected := sat 0xFFFFFFFF (x.corrected + r.corrected), percent := min 100 r.percent,
    rotations := if r.ended then x.rotations + 1 else x.rotations, images := if r.ended then 0 else n,
    slow := if r.ended then false else x.slow }
  let s := { s with test := { s.test with ist := triPut s.test.ist l y } }
  match r.failed with
  | none => s
  | some f =>
    if !inVote s l then s
    else
      let s := chestWrite 0x0D (laneNo l) (if f.1 then 6 else 5) (be 8 f.2) s
      excludeLanes [l] (if f.1 then 0x06 else 0x05) 0xFF (be 8 f.2) s

/-- A lane's in-service test runs in the image it ran. -/
def istRun (t : TickIn) (s : State) : State :=
  allLanes.foldl (fun s l =>
    if (triGet s.lanes l).ls = .inVote && (triGet s.lanes l).ran = s.imageNo then istLane l (triGet t.ist l) s else s) s

/-- Image numbers of the retained banks (R323). -/
def noteBanks (s : State) : State :=
  let b := triMap s.progLoad.bankImage (fun l n => if (triGet s.lanes l).ran = s.imageNo then s.imageNo else n)
  { s with progLoad := { s.progLoad with bankImage := b } }

/-- The lanes run the image under way (R30), with their in-service tests and retained banks. -/
def runLanes (img : Half → Option CycleImage) (two : Bool) (t : TickIn) (s : State) : State :=
  noteBanks (istRun t (deliver img two t s))

end Sys2Proof.Machine
end

