-- ==== Sys2Proof/Machine/PairRows.lean ====
section
/-! DEFINITION. The standby pair (R486 to R509): heartbeats and roles, loss of the partner and takeover, shadow images,
resynchronisation, hand-over; and the cascade rows that bear on it. -/

namespace Sys2Proof.Machine

/-! ## Forming a pair and settling roles -/

/-- The pair's own state changed. -/
def modPairLink (f : PairLinkSt → PairLinkSt) (s : State) : State := { s with pair := f s.pair }

/-- Both modules have one order code (R486); the partner's is read with its compatibility class, 0 while unread. PRESUMED,
log 56 (unsafe). PRESUMED, log 56 (unsafe). -/
def sameOrder (s : State) : Bool := s.pair.partner.orderCode = 0 || s.pair.partner.orderCode = s.ident.ports

/-- Equal body digests (R486), but where one of a pair was restarted with new station data (R509). DEDUCED, log 58 (safe). -/
def digestFits (s : State) : Bool :=
  let p := s.pair
  p.partner.digest = digest8 s || p.partner.role = 1 || (p.formed && p.role = .active)

/-- The conditions of R486 on a partner that is heard. -/
def pairFits (s : State) : Bool :=
  s.pair.partner.namesUs && s.pair.preferred ≠ s.pair.partner.pref && sameOrder s && digestFits s

/-- The module has been commanding on its own (R500). -/
def hasControl (s : State) : Bool := s.pair.role ≠ .standby && s.power.confirmed

/-- Role of a module whose role is not yet settled: a heard active partner keeps control; with neither active the preferred
takes it. Of two that command, the one with the newer epoch keeps control. DESIGN CHOICE, log 57 (unsafe). -/
def settledRole (s : State) : Role :=
  let p := s.pair
  let keep := hasControl s && !newerEpoch p.partner.epoch p.epoch && (p.epoch ≠ p.partner.epoch || p.preferred)
  if p.partner.role = 1 then (if keep then .active else .standby)
  else if hasControl s || p.preferred then .active else .standby

/-- A change of readiness noted (R496, R498); event 59. -/
def noteReady (s : State) : State :=
  match pairReady s, s.pair.readySince with
  | true, none => raiseEv 59 0 (modPairLink (fun p => { p with readySince := some s.ns }) s)
  | false, some _ => raiseEv 59 (nrReason s) (modPairLink (fun p => { p with readySince := none }) s)
  | _, _ => s

/-- The conditions of R486 looked at with what is known of the partner; event 56 when no pair can be formed. DESIGN CHOICE,
log 57 (unsafe). DESIGN CHOICE, log 57 (unsafe). -/
def settlePair (s : State) : State :=
  let p := s.pair
  if p.partnerAddr = 0xFFFF then
    (if p.formed || p.role ≠ .unpaired then noteReady (modPairLink (fun p => { p with formed := false, role := .unpaired }) s) else s)
  else if !p.partner.heard then s
  else if !pairFits s then
    let s' := noteReady (modPairLink (fun p => { p with formed := false, unformed := true, role := .unpaired, h := none }) s)
    if p.unformed then s' else raiseEv 56 noDetail s'
  else
    let role := if p.role = .unpaired then settledRole s else p.role
    let fresh := decide (p.role = .unpaired) && decide (role = .standby)
    noteReady (modPairLink (fun p => { p with formed := true, unformed := false, role := role, nr3 := p.nr3 || fresh }) s)

/-! ## Heartbeats -/

/-- HEARTBEAT payload (Table 13.5). -/
def heartbeatPayload (s : State) (b : CascBlock) (img : Nat) : List Byte :=
  let p := s.pair
  let ready := match p.readySince with | some t => sat 0xFFFFFFFF ((s.ns - t) / secNs) | none => 0
  be 1 b.role ++ be 1 (b2n b.ready + b2n p.preferred * 2 + b2n p.h.isSome * 4 + b2n (p.h.isSome && p.cold) * 8) ++
  be 1 (nrReason s) ++ be 1 0 ++ be 4 img ++ be 4 (p.h.getD 0) ++ digest8 s ++ be 4 (progVersion s) ++ be 4 ready ++ be 4 0

/-- What a heartbeat says of the partner (Table 13.5). -/
def readHeartbeat (e : Envelope) (p : PartnerSt) : PartnerSt :=
  let b := e.payload
  let f := field b 1 1
  { p with
    heard := true, role := field b 0 1, ready := bit f 0, pref := bit f 1, handover := bit f 2, cold := bit f 3
    reason := field b 2 1, image := field b 4 4, h := field b 8 4, digest := cut b 12 8, program := field b 20 4
    readyTime := field b 24 4, epoch := e.epoch }

/-- Buffers of the next program cycle without commands: the module stops commanding (R507). -/
def stripNext (s : State) : State :=
  { s with
    halves := twoMap s.halves (fun _ x => { x with next := x.next.map (fun v => { v with cmds := [], locals := none }) })
    lio := { s.lio with localNext := none } }

/-- A deposed module (R507): standby, not ready for reason 3, event 60. -/
def depose (s : State) : State :=
  noteReady (raiseEv 60 s.pair.epoch (stripNext (modPairLink (fun p => { p with
    role := .standby, nr3 := true, deposeRun := 0, h := none, cold := false }) s)))

/-- A hand-over the partner announces (R503, Table 13.7). -/
def noteHandover (s : State) : State :=
  let q := s.pair.partner
  if s.pair.role = .standby && q.role = 1 && q.handover && q.h ≠ 0 then
    modPairLink (fun p => { p with h := some q.h, lastH := q.h, cold := q.cold }) s
  else if s.pair.role = .standby && q.role = 1 && !q.handover && s.pair.h.isSome then
    modPairLink (fun p => { p with h := none, cold := false }) s
  else s

/-- A heartbeat used: what it says, the pair, the roles (R486, R503, R507). -/
def useHeartbeat (e : Envelope) (s : State) : State :=
  let s := settlePair (modPairLink (fun p => { p with partner := readHeartbeat e p.partner }) s)
  let p := s.pair
  if p.role = .active && p.partner.role = 1 && newerEpoch p.partner.epoch p.epoch then depose s
  else noteReady (noteHandover s)

/-- The trunk node of a pair (R487). -/
def trunkNode (s : State) : Nat := s.ident.ports

/-- A heartbeat slot of the schedule mode in force on a channel (R489, Table 9.12). -/
def heartbeatSlot (s : State) (h : Half) (n : Nat) : Bool :=
  ((modeNow s).map (fun m => m.slots.any (fun r => r.slot = n && r.kind = 1 && bit r.chans (halfNo h)))).getD false

/-- A Welong HEARTBEAT frame (kind 0x70) that a half accepts in its slot (R338, R491). -/
def heartbeatFrameOk (s : State) (h : Half) (f : Frame) : Bool :=
  chanUp s h && (twoGet s.halves h).inServ && f.fcsOk && !f.tagged && f.etherType = s.bus.etherType && f.version = 1 &&
  f.kind = 0x70 && f.destOk && (f.src = 0 || f.src = trunkNode s) && f.bodyLen = f.body.length && f.bodyLen ≤ 128 &&
  f.flags < 2 && f.counter = s.bus.counter && heartbeatSlot s h f.slot

/-- A heartbeat of the present bus cycle on a path (R492): it counts when its checks pass with the bus cycle's stamp, a copy
of one already accepted too. DEDUCED, log 55 (unsafe). -/
def heartbeatOn (path : Path) (b : List Byte) (s : State) : State :=
  let peer := s.pair.partnerAddr
  match readEnvelope b with
  | none => refuseEnv s
  | some e =>
    if e.kind ≠ 0x90 || peer = 0xFFFF || !laneEnvelopeOk (cascadeId 6 peer s.dict.modAddr 0) [0x90] e || !payloadOk e ||
        e.stamp ≠ s.bus.counter % 0x100000000 then refuseEnv s
    else
      let old := (findConn s 6 peer 0).getD (ConnSt.init 6 peer 0)
      let newer := match old.lastSeq with | some l => newerSeq e.seq l | none => true
      let again := old.lastSeq = some e.seq
      if !newer && !again then { s with casc := { s.casc with dups := sat 0xFFFFFFFF (s.casc.dups + 1) } }
      else
        let mark := (s.bus.counter, path)
        let s := modPairLink (fun p => { p with hbNow := if p.hbNow.contains mark then p.hbNow else p.hbNow ++ [mark] }) s
        if newer then useHeartbeat e (putConn { old with lastSeq := some e.seq } s)
        else { s with casc := { s.casc with dups := sat 0xFFFFFFFF (s.casc.dups + 1) } }

/-- HEARTBEAT (R492): on the pair link as the body `f.body`, on a channel as a Welong frame. -/
def heartbeatRow (path : Path) (f : Frame) (s : State) : State :=
  match path with
  | .pairLink => if f.fcsOk then heartbeatOn path f.body s else s
  | .chanA => if heartbeatFrameOk s .a f then heartbeatOn path f.body s else s
  | .chanB => if heartbeatFrameOk s .b f then heartbeatOn path f.body s else s
  | _ => s

/-- HEARTBEAT (R492). -/
def execHeartbeatMsg (path : Path) (f : Frame) (s : State) : Host.Outcome State Fault Refusal :=
  .next (heartbeatRow path f s)

/-! ## Anchors and benchmarks -/

/-- An ANCHOR of the partner tells whom it names and whether it is the preferred (Table 13.4, R486). -/
def takeAnchor (peer : Nat) (e : Envelope) (s : State) : State :=
  if peer ≠ s.pair.partnerAddr then s
  else settlePair (modPairLink (fun p => { p with partner := { p.partner with
    namesUs := field e.payload 10 2 = s.dict.modAddr, pref := field e.payload 12 1 = 1 } }) s)

/-- ANCHOR (R483). -/
def execAnchorMsg (f : CascFrame) (s : State) : Host.Outcome State Fault Refusal :=
  .next (cascReceive [0x94] f (fun k e s => takeAnchor k.2.1 e s) s)

/-- This module's own benchmark of an image: the one its comparators hold. -/
def ownBenchmark (s : State) (img : Nat) : Option (List Byte) :=
  (allHalves.findSome? (fun h => (lanesAt s h).findSome? (fun l =>
    match triGet (twoGet s.halves h).bench l with
    | some b => if b.1 = img then some b.2 else none
    | none => none)))

/-- A BENCHMARK of the active compared with the standby's own of the same image (R496): image number, then the digest. -/
def takeBenchmark (e : Envelope) (s : State) : State :=
  let img := field e.payload 0 4
  match ownBenchmark s img with
  | some d =>
    if s.pair.role = .standby && !s.pair.resync && d ≠ e.payload.drop 4 then
      noteReady (modPairLink (fun p => { p with nr4 := true }) s)
    else s
  | none => s

/-- BENCHMARK_ENVELOPE (R496). -/
def execBenchmarkEnvelope (f : CascFrame) (s : State) : Host.Outcome State Fault Refusal :=
  .next (cascReceive [0x91] f (fun k e s => if k.2.1 = s.pair.partnerAddr then takeBenchmark e s else s) s)

/-- CASCADE_ENVELOPE (R479): a copy of any kind, with what its kind does; a heartbeat counts on its own paths only (R491). -/
def execCascadeEnvelope (f : CascFrame) (s : State) : Host.Outcome State Fault Refusal :=
  .next (cascReceive [0x90, 0x91, 0x92, 0x93, 0x94, 0x95] f (fun k e s =>
    if e.kind = 0x95 then takeClear k.2.1 k.2.2 e s
    else if e.kind = 0x94 then takeAnchor k.2.1 e s
    else if e.kind = 0x93 then takeReply k.2.1 e s
    else if e.kind = 0x92 then takeReserve k.2.1 e s
    else if e.kind = 0x91 && k.2.1 = s.pair.partnerAddr then takeBenchmark e s
    else s) s)

/-! ## Loss of the partner -/

/-- The partner is no longer heard. -/
def forgetPartner (s : State) : State :=
  modPairLink (fun p => { p with
    lost := false, allRun := 0
    partner := { p.partner with heard := false, role := 0, ready := false, handover := false } }) s

/-- Control taken with the epoch of R506, which retained bank 0 keeps. -/
def takeControl (ep : Nat) (s : State) : State :=
  modPairLink (fun p => { p with role := .active, epoch := ep, retainedEpoch := ep, h := none, cold := false, resync := false,
                                 nr3 := false, nr4 := false, readySince := none, deposeRun := 0, epochSet := true }) s

/-- PARTNER_LOST (R493): the image under way shows 3 bus cycles in a row without a heartbeat. A standby takes control: ready,
with its state (R501); else as after a cold restart, with a record of the reason (R502). -/
def partnerLost (s : State) : State :=
  if !s.pair.formed || !s.pair.partner.heard || !s.pair.lost then s
  else if s.pair.role ≠ .standby then forgetPartner s
  else
    let why := nrReason s
    let s' := takeControl (takeEpoch s) (forgetPartner s)
    if why = 0 then raiseEv 57 0 (withImage id s')
    else raiseRec 57 why why 3 0xFFFF (be 1 why) (coldControl s')

/-- PARTNER_LOST (R493). -/
def execPartnerLost (s : State) : Host.Outcome State Fault Refusal := .next (partnerLost s)

/-! ## Shadow images -/

/-- What a standby's halves add to a shadow image: its own dictionary writes and refused requests, its heartbeat record
(R494, R499). -/
def addOwn (own img : CycleImage) : CycleImage :=
  { img with writes := own.writes, refused := own.refused, hb := own.hb, windows := own.windows }

/-- The standby's lanes run the shadow image from the copies that came (R494). -/
def runShadow (t : TickIn) (s : State) : State :=
  let copy (h : Half) : Option CycleImage := (s.pair.shadows.find? (fun x => x.1 = h)).map (fun x => addOwn s.image x.2)
  match mergeOptional s.cfg (copy .a) (copy .b) with
  | none => s
  | some img =>
    let s := { s with image := img, imageNo := img.num, pair := { s.pair with ownRun := some img.num } }
    runLanes copy true t s
where
  mergeOptional (st : Station) (a b : Option CycleImage) : Option CycleImage := chooseCopy st a b

/-- SHADOW_IMAGE (R494): one copy with its check good or not; with both copies present the lanes run it. -/
def shadowImage (h : Half) (img : CycleImage) (good : Bool) (t : TickIn) (s : State) : State :=
  if s.pair.role ≠ .standby || !good || s.pair.ownRun = some s.imageNo then s
  else
    let l := s.pair.shadows.filter (fun x => x.1 ≠ h) ++ [(h, img)]
    let s := modPairLink (fun p => { p with shadows := l }) s
    if l.length = 2 && imagesRun s then runShadow t s else s

/-- SHADOW_IMAGE (R494). -/
def execShadowImage (h : Half) (img : CycleImage) (good : Bool) (t : TickIn) (s : State) : Host.Outcome State Fault Refusal :=
  .next (shadowImage h img good t s)

/-- A standby's own image for its lanes (R495): no requests and no dictionary writes. -/
def ownImage (img : CycleImage) : CycleImage := { img with reqs := [], diverged := [], writes := [], replies := [], standby := true }

/-- SHADOW_MISSED (R495): at tick + 500 µs the lanes run the one copy that came, or without any their own latched image; the
standby is then not ready with SHADOW-MISSED. -/
def shadowMissed (t : TickIn) (s : State) : State :=
  if s.pair.role ≠ .standby || s.pair.ownRun = some s.imageNo || !imagesRun s then s
  else if s.pair.shadows ≠ [] then runShadow t s
  else
    let img := ownImage s.image
    let copy (h : Half) : Option CycleImage := if (twoGet s.halves h).inServ then some img else none
    let s := { s with image := img, pair := { s.pair with ownRun := some img.num, nr3 := s.pair.nr3 || !s.pair.lost } }
    noteReady (runLanes copy ((halvesUp s).length = 2) t s)

/-- SHADOW_MISSED (R495). -/
def execShadowMissed (t : TickIn) (s : State) : Host.Outcome State Fault Refusal := .next (shadowMissed t s)

/-! ## Resynchronisation -/

/-- Reasons that let no resynchronisation run (R498). -/
def resyncBarred (s : State) : Bool :=
  let p := { s with pair := { s.pair with resync := false, nr3 := false, nr4 := false } }
  nrReason p ≠ 0

/-- Resynchronisation begins (R498): it completes within 30 s. -/
def startResync (s : State) : State :=
  noteReady (modPairLink (fun p => { p with resync := true, resyncDue := s.ns + 30 * secNs }) s)

/-- Outcome of a pair command (Table 13.20) with its reply. -/
def pairReply (code : Nat) (s : State) : State × Nat × List Byte :=
  (modPairLink (fun p => { p with outcome := code }) s, functionReply (if code = 0x9008 then 0 else code) [])

/-- Resynchronise (pair command 0x03, R498). DESIGN CHOICE, log 60 (unsafe). -/
def resyncFn (s : State) : State × Nat × List Byte :=
  if !s.pair.formed then pairReply 0x9001 s
  else if s.pair.role ≠ .standby then pairReply 0x9003 s
  else if modeOf s ≠ 0 || resyncBarred s then pairReply 0x9006 s
  else if s.pair.resync then pairReply 0x9005 s
  else pairReply 0 (startResync s)

/-- RESYNCHRONISE (R498). -/
def execResynchronise (sess : Nat) (s : State) : Host.Outcome State Fault Refusal :=
  .next (asSession sess .maintainer false resyncFn s)

/-- RESYNC_COMPLETE (R498): the benchmarked state `k` streamed by the active's lanes takes the place of the standby's. -/
def resyncComplete (k : Kernel) (s : State) : State :=
  if s.pair.role ≠ .standby || !s.pair.resync || resyncBarred s then s
  else
    let s := { s with lanes := triMap s.lanes (fun l v => if inVote s l then { v with kernel := k } else v) }
    noteReady (modPairLink (fun p => { p with resync := false, nr3 := false, nr4 := false }) s)

/-- RESYNC_COMPLETE (R498). -/
def execResyncComplete (k : Kernel) (s : State) : Host.Outcome State Fault Refusal := .next (resyncComplete k s)

/-! ## Hand-over -/

/-- What keeps a hand-over from being decided (R504): another one, an armed change, a load check, an update. -/
def handoverBusy (s : State) : Bool :=
  s.pair.h.isSome || s.view.prog.ps = .armed || loadChecking s || s.upd.updating || s.upd.phase ≠ .idle

/-- The hand-over decided in the image under way (R503): h = a + 2; event 58. -/
def decideHandover (cold : Bool) (s : State) : State :=
  let h := imgAdd s.imageNo 2
  withImage id (raiseEv 58 0x9008 (modPairLink (fun p => { p with h := some h, lastH := h, cold := cold }) s))

/-- A refused hand-over (Table 13.20); event 58. -/
def refuseHandover (code : Nat) (s : State) : State × Nat × List Byte := pairReply code (raiseEv 58 code s)

/-- Hand over (pair command 0x01, R504). -/
def handOverFn (s : State) : State × Nat × List Byte :=
  if !s.pair.formed then refuseHandover 0x9001 s
  else if s.pair.role ≠ .active then refuseHandover 0x9003 s
  else if modeOf s ≠ 0 then refuseHandover 0x9006 s
  else if handoverBusy s then refuseHandover 0x9005 s
  else if !s.pair.partner.heard || !s.pair.partner.ready then refuseHandover 0x9002 s
  else pairReply 0x9008 (decideHandover false s)

/-- Every route is released. -/
def routesReleased (s : State) : Bool := (leadKernel s).routes.all (fun r => r.2.state = .released)

/-- Cold hand-over (pair command 0x02, R505). -/
def coldHandOverFn (s : State) : State × Nat × List Byte :=
  let q := s.pair.partner
  if !s.pair.formed then refuseHandover 0x9001 s
  else if s.pair.role ≠ .active then refuseHandover 0x9003 s
  else if modeOf s ≠ 0 then refuseHandover 0x9006 s
  else if handoverBusy s then refuseHandover 0x9005 s
  else if !routesReleased s then refuseHandover 0x9004 s
  else if !q.heard || q.role ≠ 2 || (q.reason ≠ 1 && q.reason ≠ 2) then refuseHandover 0x9002 s
  else pairReply 0x9008 (decideHandover true s)

/-- HAND_OVER (R503). -/
def execHandOver (sess : Nat) (s : State) : Host.Outcome State Fault Refusal :=
  .next (asSession sess .maintainer false handOverFn s)

/-- COLD_HAND_OVER (R505). -/
def execColdHandOver (sess : Nat) (s : State) : Host.Outcome State Fault Refusal :=
  .next (asSession sess .maintainer false coldHandOverFn s)

/-- TAKEBACK (R504): the ready, preferred standby has been so for the stability time. -/
def takeback (s : State) : State :=
  let q := s.pair.partner
  if s.pair.formed && s.pair.role = .active && !s.pair.preferred && s.pair.takeback && q.heard && q.ready &&
      s.pair.stabilityS ≤ q.readyTime && !handoverBusy s && modeOf s = 0 then decideHandover false s
  else s

/-- TAKEBACK (R504). -/
def execTakeback (s : State) : Host.Outcome State Fault Refusal := .next (takeback s)

/-- The outgoing module at program cycle h (Table 13.7): standby, its command's outcome DONE; event 58. -/
def giveControl (s : State) : State :=
  let cold := s.pair.cold
  noteReady (raiseEv 58 0 (modPairLink (fun p => { p with
    role := .standby, h := none, cold := false, outcome := 0, nr3 := cold, resync := false }) s))

/-- HAND_OVER_IMAGE (R503): the first bus cycle of program cycle h comes next. DESIGN CHOICE, log 5 (safe). -/
def handOverImage (s : State) : State :=
  match s.pair.h with
  | none => s
  | some h =>
    if h ≠ imgAdd s.imageNo 1 || nextCounter s % s.bus.lCyc ≠ 0 then s
    else match s.pair.role with
      | .active => giveControl s
      | .standby =>
        let cold := s.pair.cold
        let s := raiseEv 58 0 (takeControl (takeEpoch s) s)
        if cold then coldControl s else s
      | .unpaired => s

/-- HAND_OVER_IMAGE (R503). -/
def execHandOverImage (s : State) : Host.Outcome State Fault Refusal := .next (handOverImage s)

end Sys2Proof.Machine
end

