-- ==== Sys2Proof/Machine/BridgeRows.lean ====
section
/-! DEFINITION. The bridge (R522 to R528): reads answered with RETRY, posted writes, completions, failures. -/

namespace Sys2Proof.Machine

/-! Error codes of Table 13.15. -/

def bClosed : Nat := 0x8001
def bReadOnly : Nat := 0x8002
def bRange : Nat := 0x8003
def bTimeout : Nat := 0x8004
def bNoPath : Nat := 0x8005
def bCheck : Nat := 0x8006
def bFarBusy : Nat := 0x8007

/-- Answers to a local initiator beside the error codes: accepted, RETRY, data. -/
def ansDone : Nat := 0
def ansRetry : Nat := 1
def ansData : Nat := 2

/-- Bytes of a transaction but its check (Table 13.13). -/
def transBody (t : Trans) : List Byte :=
  be 1 t.type ++ be 1 t.tag ++ be 1 t.init ++ be 1 t.window ++ be 2 t.offset ++ be 2 t.length ++ be 2 t.code ++ be 2 t.epoch ++ t.data

/-- Bytes of a transaction. -/
def transBytes (t : Trans) : List Byte := transBody t ++ be 4 (crcOf crc32c (transBody t))

/-- Data bytes a transaction of a type carries. -/
def transData (type length : Nat) : Nat := if type = 2 || type = 3 then length else 0

/-- A transaction read from a frame body: none when its length, type or reserved bits do not fit. -/
def readTrans (src : Nat) (b : List Byte) : Option Trans :=
  let type := field b 0 1
  let n := transData type (field b 6 2)
  if type = 0 || 5 < type || 15 < field b 3 1 || 3 < field b 2 1 || b.length ≠ 16 + n || (type ≠ 5 && field b 8 2 ≠ 0) then none
  else some { type := type, tag := field b 1 1, init := field b 2 1, window := field b 3 1, offset := field b 4 2,
              length := field b 6 2, code := field b 8 2, epoch := field b 10 2, data := cut b 12 n, peer := src }

/-- The check field of a body verifies. -/
def transCheck (b : List Byte) : Bool :=
  16 ≤ b.length && field b (b.length - 4) 4 = crcOf crc32c (b.take (b.length - 4))

/-- Length and place within the window (R523). -/
def rangeOk (offset length : Nat) : Bool :=
  4 ≤ length && length ≤ 256 && length % 4 = 0 && offset + length ≤ 0x10000

/-- The bridge's own state changed. -/
def modBridge (f : BridgeSt → BridgeSt) (s : State) : State := { s with bridge := f s.bridge }

/-- The path of a transaction (R528): the board link when the target is on it, otherwise C1, otherwise C2; none when both
have failed. -/
def bridgePath (s : State) (target : Nat) : Option Nat :=
  if (s.casc.bl1 || s.casc.bl2) && s.casc.blAddrs.contains target then some 3
  else if !s.casc.paths.a.fault then some 1
  else if !s.casc.paths.b.fault then some 2
  else none

/-- Transactions of one direction (R527). -/
def tagCap : Nat := 256

/-- Records of the failure queue (R526). -/
def failCap : Nat := 64

/-- The lowest free tag. -/
def freeTag (s : State) : Nat := ((List.range tagCap).find? (fun n => !s.bridge.out.any (fun o => o.t.tag = n))).getD 0

/-- A failure record placed in queue 72 (R526); event 72. -/
def bridgeFail (t : Trans) (code : Nat) (s : State) : State :=
  let n := s.bridge.failures.length
  if failCap ≤ n then
    noteDepth 72 failCap true (modBridge (fun b => { b with failOvf := sat 0xFFFFFFFF (b.failOvf + 1) }) s)
  else
    let r : FailRec := { target := t.peer, window := t.window, tag := t.tag, offset := t.offset, length := t.length, init := t.init,
                         type := t.type, code := code, image := s.imageNo }
    noteDepth 72 (n + 1) false (raiseEv 72 code (modBridge (fun b => { b with failures := b.failures ++ [r] }) s))

/-- The local initiator's answer. -/
def answerLocal (code : Nat) (data : List Byte) (s : State) : State :=
  modBridge (fun b => { b with answered := code, ansData := data }) s

/-- A tag freed. -/
def dropTag (n : Nat) (s : State) : State := modBridge (fun b => { b with out := b.out.filter (fun o => o.t.tag ≠ n) }) s

/-- A transaction sent on its path with a tag. -/
def sendTrans (t : Trans) (path : Nat) (s : State) : State :=
  let o : OutTrans := { t := { t with tag := freeTag s }, path := path, sentNs := s.ns, arrived := none, arrivedNs := 0, error := none,
                        resends := 0, polled := false }
  noteDepth 73 (s.bridge.out.length + 1) false (modBridge (fun b => { b with out := b.out ++ [o] }) s)

/-- A repeat of the same read (R524). -/
def sameRead (init target window offset length : Nat) (o : OutTrans) : Bool :=
  o.t.type = 1 && o.t.init = init && o.t.peer = target && o.t.window = window && o.t.offset = offset && o.t.length = length

/-- A read of a local initiator (R524): RETRY until the data or an error has come. -/
def askRead (init target window offset length : Nat) (s : State) : State :=
  match s.bridge.out.find? (sameRead init target window offset length) with
  | some o =>
    match o.arrived, o.error with
    | some d, _ => answerLocal ansData d (dropTag o.t.tag s)
    | none, some c => answerLocal c [] (dropTag o.t.tag s)
    | none, none =>
      answerLocal ansRetry [] (modBridge (fun b => { b with out := b.out.map (fun x => if x.t.tag = o.t.tag then { x with polled := true } else x) }) s)
  | none =>
    if !rangeOk offset length then answerLocal bRange [] s
    else match bridgePath s target with
      | none => answerLocal bNoPath [] s
      | some p =>
        if tagCap ≤ s.bridge.out.length then answerLocal ansRetry [] s
        else answerLocal ansRetry [] (sendTrans { type := 1, tag := 0, init := init, window := window, offset := offset, length := length,
                                                  code := 0, epoch := s.pair.epoch, data := [], peer := target } p s)

/-- A posted write of a local initiator (R525): accepted at once; what fails goes to the failure queue. -/
def askWrite (init target window offset : Nat) (data : List Byte) (s : State) : State :=
  let t : Trans := { type := 3, tag := 0, init := init, window := window, offset := offset, length := data.length, code := 0,
                     epoch := s.pair.epoch, data := data, peer := target }
  if tagCap ≤ s.bridge.out.length then answerLocal ansRetry [] s
  else if !rangeOk offset data.length then answerLocal ansDone [] (bridgeFail t bRange s)
  else match bridgePath s target with
    | none => answerLocal ansDone [] (bridgeFail t bNoPath s)
    | some p => answerLocal ansDone [] (sendTrans t p s)

/-- Window 15 is the update receive buffer (R522, R616). -/
def loaderWindow : Nat := 15

/-- Bytes of a window. -/
def windowRead (s : State) (w offset length : Nat) : List Byte :=
  if w = loaderWindow then memReadAll s.upd.buffer offset length else memReadAll s.bridge.mem (w * 0x10000 + offset) length

/-- Bytes written into a window. -/
def windowWrite (w offset : Nat) (data : List Byte) (s : State) : State :=
  if w = loaderWindow then { s with upd := { s.upd with buffer := memWriteAll s.upd.buffer offset data } }
  else modBridge (fun b => { b with mem := memWriteAll b.mem (w * 0x10000 + offset) data }) s

/-- A completion sent back: it echoes tag and epoch (R508, R527). -/
def complete (t : Trans) (type code : Nat) (data : List Byte) (s : State) : State :=
  let a : Trans := { t with type := type, code := code, data := data }
  noteDepth 75 (s.bridge.answers.length + 1) false (modBridge (fun b => { b with answers := b.answers ++ [a] }) s)

/-- A request of another module taken by the far bridge (R525 to R527). -/
def farRequest (t : Trans) (good : Bool) (s : State) : State :=
  if tagCap ≤ s.bridge.inbound.length then complete t 5 bFarBusy [] (noteDepth 74 tagCap true s)
  else
    let s := noteDepth 74 (s.bridge.inbound.length + 1) false (modBridge (fun b => { b with inbound := b.inbound ++ [t] }) s)
    let acc := s.bridge.access.getD t.window 0
    if !good then complete t 5 bCheck [] s
    else if !rangeOk t.offset t.length then complete t 5 bRange [] s
    else if acc = 0 then complete t 5 bClosed [] s
    else if t.type = 1 then complete t 2 0 (windowRead s t.window t.offset t.length) s
    else if acc = 1 then complete t 5 bReadOnly [] s
    else complete t 4 0 [] (windowWrite t.window t.offset t.data s)

/-- A bridge frame of some type that is this module's. -/
def bridgeFrame (type : Nat) (f : CascFrame) (act : Trans → Bool → State → State) (s : State) : State :=
  match dueOf s f 2 with
  | .discard => s
  | .forward => forwardFrame f s
  | .mine => match readTrans f.src f.body with
    | some t => if t.type = type then act t (transCheck f.body) s else s
    | none => s

/-- A completion that echoes another epoch is discarded (R508): Field book record, event 63. -/
def oldEpoch (t : Trans) (s : State) : State :=
  raiseRec 63 t.peer t.epoch 3 0xFFFF (be 2 t.peer ++ be 1 t.tag ++ be 2 t.epoch) s

/-- The open transaction a completion answers. -/
def openTrans (s : State) (type : Nat) (t : Trans) : Option OutTrans :=
  s.bridge.out.find? (fun o => o.t.tag = t.tag && o.t.peer = t.peer && o.t.type = type && o.arrived.isNone && o.error.isNone)

/-- A completion with a good check and the current epoch. -/
def completion (t : Trans) (good : Bool) (f : State → State) (s : State) : State :=
  if !good then s else if t.epoch ≠ s.pair.epoch then oldEpoch t s else f s

/-- An outbound transaction changed. -/
def modOut (tag : Nat) (f : OutTrans → OutTrans) (s : State) : State :=
  modBridge (fun b => { b with out := b.out.map (fun o => if o.t.tag = tag then f o else o) }) s

/-- A transaction ends in an error (R526): kept for an initiator that repeats its read, else a failure record. DEDUCED, log
63 (unsafe). DEDUCED, log 63 (unsafe). -/
def endError (o : OutTrans) (code : Nat) (s : State) : State :=
  if o.t.type = 1 && o.polled then modOut o.t.tag (fun x => { x with error := some code, arrivedNs := s.ns }) s
  else bridgeFail o.t code (dropTag o.t.tag s)

/-- READ_REQ (R524): a local initiator reads, or another module's read request arrives. -/
def execReadReq (op : BridgeOp) (s : State) : Host.Outcome State Fault Refusal :=
  .next (match op with
    | .ask i t w o n _ => askRead i t w o n s
    | .frame f => bridgeFrame 1 f farRequest s)

/-- BRIDGE_WRITE (R525): a local initiator writes, or another module's write arrives. -/
def execBridgeWrite (op : BridgeOp) (s : State) : Host.Outcome State Fault Refusal :=
  .next (match op with
    | .ask i t w o _ d => askWrite i t w o d s
    | .frame f => bridgeFrame 3 f farRequest s)

/-- READ_DATA (R524): held until the initiator repeats its read. -/
def execReadData (f : CascFrame) (s : State) : Host.Outcome State Fault Refusal :=
  .next (bridgeFrame 2 f (fun t good s => completion t good (fun s =>
    match openTrans s 1 t with
    | some o => if t.length = o.t.length then modOut o.t.tag (fun x => { x with arrived := some t.data, arrivedNs := s.ns }) s else s
    | none => s) s) s)

/-- WRITE_DONE (R525). -/
def execWriteDone (f : CascFrame) (s : State) : Host.Outcome State Fault Refusal :=
  .next (bridgeFrame 4 f (fun t good s => completion t good (fun s =>
    match openTrans s 3 t with | some o => dropTag o.t.tag s | none => s) s) s)

/-- Resends of a transaction that the far side could not take (Table 13.15). DEDUCED, log 63 (unsafe). -/
def resendMax : Nat := 8

/-- ERROR (R526): a far bridge's error; FAR-BUSY is resent up to 8 times first. -/
def execBridgeError (f : CascFrame) (s : State) : Host.Outcome State Fault Refusal :=
  .next (bridgeFrame 5 f (fun t good s => completion t good (fun s =>
    match (openTrans s 1 t <|> openTrans s 3 t) with
    | some o =>
      if t.code = bFarBusy && o.resends < resendMax then modOut o.t.tag (fun x => { x with resends := x.resends + 1 }) s
      else endError o t.code s
    | none => s) s) s)

/-- BRIDGE_TIMEOUT (R526): no answer within 100 ms. DEDUCED, log 63 (unsafe). -/
def bridgeTimeoutRow (tag : Nat) (s : State) : State :=
  match s.bridge.out.find? (fun o => o.t.tag = tag) with
  | some o => if o.arrived.isNone && o.error.isNone && o.sentNs + 100000000 ≤ s.ns then endError o bTimeout s else s
  | none => s

/-- BRIDGE_TIMEOUT (R526). -/
def execBridgeTimeout (tag : Nat) (s : State) : Host.Outcome State Fault Refusal := .next (bridgeTimeoutRow tag s)

/-- READ_DATA_DISCARD (R524): 10 ms after its arrival nobody has fetched the answer: data goes, an error is recorded. -/
def readDataDiscard (tag : Nat) (s : State) : State :=
  match s.bridge.out.find? (fun o => o.t.tag = tag) with
  | some o =>
    if o.arrivedNs + 10000000 ≤ s.ns && (o.arrived.isSome || o.error.isSome) then
      (match o.error with | some c => bridgeFail o.t c (dropTag tag s) | none => dropTag tag s)
    else s
  | none => s

/-- READ_DATA_DISCARD (R524). -/
def execReadDataDiscard (tag : Nat) (s : State) : Host.Outcome State Fault Refusal := .next (readDataDiscard tag s)

end Sys2Proof.Machine
end

