-- ==== Sys2Proof/Machine/DatumRows.lean ====
section
/-! DEFINITION. The Datum (R518 to R521), its time frames, cycle reports, and the SYNC wire (R529). -/

namespace Sys2Proof.Machine

/-- The Datum's own state changed. -/
def modDatum (f : DatumSt → DatumSt) (s : State) : State := { s with datum := f s.datum }

/-- This module is the Datum (R518): named, or its partner is, and it commands. -/
def isDatum (s : State) : Bool :=
  s.datum.addr ≠ 0xFFFF && (s.datum.addr = s.dict.modAddr || (s.pair.formed && s.datum.addr = s.pair.partnerAddr)) && commands s

/-- The path on which the Datum is reached: the board link when it is on it, otherwise C1, otherwise C2 (R519). -/
def datumPath (s : State) : Nat := (bridgePath s s.datum.addr).getD 1

/-- TIME_FRAME (R518, R519): a Datum time frame received `dt` ns after t0 on a path. -/
def timeFrameRow (path : Nat) (f : TimeFrame) (dt : Nat) (s : State) : State :=
  let s := { s with time := { s.time with datumHere := isDatum s } }
  if isDatum s || s.datum.addr = 0xFFFF then s
  else if f.addr ≠ s.datum.addr then
    (if s.datum.mismatch then s else raiseEv 62 f.addr (modDatum (fun d => { d with mismatch := true }) s))
  else if path ≠ datumPath s || (s.datum.newestEpoch.any (fun e => newerEpoch e f.epoch)) then s
  else
    let rx := timeAfter s dt
    let s := modDatum (fun d => { d with
      mismatch := false, newestEpoch := some f.epoch, lastFrame := some (f.launch, rx)
      pathUsed := path, delayReq := if d.pathUsed = path then d.delayReq else none
      pathDelay := if d.pathUsed = path then d.pathDelay else 0 }) s
    let s := { s with time := { s.time with datumHeard := s.ns } }
    if datumUsed s then servoMeasure 2 (rx - f.launch - s.datum.pathDelay) (setLeap f.leap f.leapAnn s) else s

/-- TIME_FRAME (R519). -/
def execTimeFrame (path : Nat) (f : TimeFrame) (dt : Nat) (s : State) : Host.Outcome State Fault Refusal :=
  .next (timeFrameRow path f dt s)

/-- Interval of the Datum's time frames: 125 ms in 2⁻¹⁶ ns. -/
def frameInterval : Int := 125000000 * 65536

/-- TIME_FRAME_SEND (R519): the Datum's frame with its launch time. -/
def timeFrameSend (launch : Int) (s : State) : State :=
  if !isDatum s || launch < s.datum.sentAt + frameInterval then s
  else
    let f : TimeFrame := { addr := s.datum.addr, launch := launch, leap := s.time.leap, leapAnn := s.time.leapAnn,
                           epoch := s.pair.epoch, estErr := s.time.estErr }
    let s := modDatum (fun d => { d with sentAt := launch, sent := some f }) s
    [70, 71].foldl (fun s q => stamp q 0 { ident := (launch / 65536 / 125000000).toNat % 65536, slot := 0xFFFF, port := 0xFF,
                                           flags := 2, time := launch } s) s

/-- TIME_FRAME_SEND (R519). -/
def execTimeFrameSend (launch : Int) (s : State) : Host.Outcome State Fault Refusal := .next (timeFrameSend launch s)

/-- DATUM_DELAY_REQUEST (R519): once per second, with the hardware stamp of its launch. -/
def datumDelayRequest (launch : Int) (s : State) : State :=
  if isDatum s || s.datum.addr = 0xFFFF || (s.datum.delaySeq ≠ 0 && s.ns < s.datum.delayAt + secNs) then s
  else
    let n := s.datum.delaySeq + 1
    modDatum (fun d => { d with delaySeq := n, delayAt := s.ns, delayReq := some (n, launch) }) s

/-- DATUM_DELAY_REQUEST (R519). -/
def execDatumDelayRequest (launch : Int) (s : State) : Host.Outcome State Fault Refusal := .next (datumDelayRequest launch s)

/-- DELAY_REQUEST (R519): the Datum answers a module with the stamp of its request's arrival, `dt` ns after t0. -/
def delayRequestRow (src seq dt : Nat) (s : State) : State :=
  if !isDatum s then s else modDatum (fun d => { d with delayAns := some (src, seq, timeAfter s dt) }) s

/-- DELAY_REQUEST (R519). -/
def execDelayRequest (src seq dt : Nat) (s : State) : Host.Outcome State Fault Refusal := .next (delayRequestRow src seq dt s)

/-- DELAY_RESPONSE (R519): when the Datum received the request; the path delay end to end, on the path of the last frame. -/
def delayResponseRow (path seq : Nat) (received : Int) (s : State) : State :=
  match s.datum.delayReq, s.datum.lastFrame with
  | some r, some f =>
    if r.1 = seq && path = s.datum.pathUsed then
      modDatum (fun d => { d with pathDelay := ((f.2 - f.1) + (received - r.2)) / 2, delayReq := none }) s
    else s
  | _, _ => s

/-- DELAY_RESPONSE (R519). -/
def execDelayResponse (path seq : Nat) (received : Int) (s : State) : Host.Outcome State Fault Refusal :=
  .next (delayResponseRow path seq received s)

/-- Lowest firmware version among the lanes in vote (object 0x1000 sub 9). -/
def runningVersion (s : State) : Nat :=
  match (lanesInVote s).map (fun l => (triGet s.lanes l).fwVersion) with
  | [] => 0
  | v :: l => l.foldl min v

/-- A cycle report (Table 13.12). -/
def reportBytes (s : State) : List Byte :=
  be 2 s.dict.modAddr ++ be 2 s.pair.partnerAddr ++ be 2 (statusField s) ++ be 2 s.pair.epoch ++ be 4 s.imageNo ++ digest8 s ++
  be 4 (runningVersion s) ++ be 4 s.casc.startCount ++ be 4 0

/-- A report kept by the Datum (R520): the latest of each module in ascending address; two modules with one address within
1 s are both flagged, event 62. -/
def keepReport (b : List Byte) (s : State) : State :=
  let r : CycleReport := { addr := field b 0 2, bytes := b, partner := field b 2 2, startCount := field b 24 4, stampNs := s.ns,
                           conflict := false }
  let clash := s.datum.reports.filter (fun x => x.addr = r.addr && (x.startCount ≠ r.startCount || x.partner ≠ r.partner) &&
    s.ns < x.stampNs + secNs)
  let bad := !clash.isEmpty
  let stay := (clash.map (fun x => { x with conflict := true }))
  let l := s.datum.reports.filter (fun x => x.addr < r.addr) ++ stay ++ [{ r with conflict := bad }] ++
    s.datum.reports.filter (fun x => r.addr < x.addr)
  let fresh := bad && clash.any (fun x => !x.conflict)
  let s := modDatum (fun d => { d with reports := l }) s
  if fresh then raiseEv 62 r.addr s else s

/-- CYCLE_REPORT_SEND (R520): at tick + 1,000 µs of the images whose number mod 64 is the module address mod 64. -/
def cycleReportSend (s : State) : State :=
  if s.datum.addr = 0xFFFF || s.imageNo % 64 ≠ s.dict.modAddr % 64 then s
  else
    let b := reportBytes s
    let s := modDatum (fun d => { d with reportSent := b }) s
    if isDatum s then keepReport b s else s

/-- CYCLE_REPORT_SEND (R520). -/
def execCycleReportSend (s : State) : Host.Outcome State Fault Refusal := .next (cycleReportSend s)

/-- CYCLE_REPORT (R520): a cascade frame of kind 0x04. -/
def cycleReportRow (f : CascFrame) (s : State) : State :=
  match dueOf s f 4 with
  | .discard => s
  | .forward => forwardFrame f s
  | .mine => if isDatum s && f.body.length = 32 && field f.body 28 4 = 0 then keepReport f.body s else s

/-- CYCLE_REPORT (R520). -/
def execCycleReport (f : CascFrame) (s : State) : Host.Outcome State Fault Refusal := .next (cycleReportRow f s)

/-! ## SYNC -/

/-- SYNC_PULSE (R529): a pulse at each whole second of module time, only of the SYNC driver. -/
def syncPulse (s : State) : State :=
  let sec := moduleNs s / secNs
  if s.datum.syncDriver && s.datum.syncAt < sec then modDatum (fun d => { d with syncAt := sec }) s else s

/-- SYNC_PULSE (R529). -/
def execSyncPulse (s : State) : Host.Outcome State Fault Refusal := .next (syncPulse s)

/-- SYNC_EDGE (R529): a rising edge stamped `dt` ns after t0; own time minus the pulse's whole second; beyond 10 µs event 62. -/
def syncEdge (dt : Nat) (s : State) : State :=
  if s.datum.syncDriver then s
  else
    let t := timeAfter s dt / 65536
    let sec := (t + 500000000) / 1000000000
    let diff := t - sec * 1000000000
    let s := modDatum (fun d => { d with syncDiff := diff, syncAt := sec.toNat }) s
    if 10000 < diff.natAbs then raiseEv 62 noDetail s else s

/-- SYNC_EDGE (R529). -/
def execSyncEdge (dt : Nat) (s : State) : Host.Outcome State Fault Refusal := .next (syncEdge dt s)

end Sys2Proof.Machine
end

