-- ==== Sys2Proof/Machine/DataCheck.lean ====
section
/-! DEFINITION. The content checks of a station-data load (Table 2.11 from FIELD-RANGE on; R13, R44 to R70, R344, R424, R426,
R487, R489, R658, R663), in the table's order. A check answers the refusal code and the detail: the element, route, overlap
record, class, mode or part concerned. -/

namespace Sys2Proof.Machine

/-- No element concerned (object 0x8203 sub 2). -/
def noElement : Nat := 0xFFFFFFFF

/-- A refusal: its code and detail. -/
abbrev Refused := Option (Nat × Nat)

/-- The first record of a list that breaks a rule. -/
def bad {α : Type} (code : Nat) (l : List α) (breaks : α → Bool) (detail : α → Nat) : Refused :=
  (l.find? breaks).map (fun x => (code, detail x))

/-- The first refusal among checks in their order. -/
def firstRefusal (l : List Refused) : Refused := l.findSome? (fun r => r)

/-- A list too long (Table 2.2). -/
def beyond {α : Type} (l : List α) (lo hi : Nat) : Refused :=
  if l.length < lo || hi < l.length then some (0x0301, noElement) else none

/-- A condition of the whole. -/
def breach (code : Nat) (b : Bool) (detail : Nat) : Refused := if b then some (code, detail) else none

/-- A number within a range. -/
def inside (lo hi v : Nat) : Bool := lo ≤ v && v ≤ hi

/-- A binding within Table 2.4's and R47's ranges. -/
def bindOk (b : Binding) : Bool := b.port ≤ 15 && b.point ≤ 1023 && b.fclass ≤ 7

/-- Every binding of an element with the element's number. -/
def bindings (st : Station) : List (Nat × Binding) :=
  st.sections.map (fun x => (x.num, x.occ)) ++
  (st.points.map (fun p => (p.det ++ p.drive).map (fun b => (p.num, b)))).flatten ++
  (st.signals.map (fun g => (g.outs ++ g.proving).map (fun b => (g.num, b)))).flatten ++
  (st.crossings.map (fun c => [(c.num, c.closed), (c.num, c.openOut)])).flatten ++
  st.keys.filterMap (fun k => match k.input with | .ctl b => some (k.num, b) | .pair _ => none)

/-- Controller points of the authority slots. -/
def slotPoints (st : Station) : List (Nat × Nat) :=
  (st.authSlots.map (fun t => t.2.map (fun p => (t.1, p)))).flatten

/-- FIELD-RANGE (R658): each field alone. -/
def checkRange (st : Station) : Refused := firstRefusal [
  st.rangeFault.map (fun d => (0x0300, d)),
  bad 0x0300 st.sections (fun x => !inside 1 0xFFFE x.line || 86400 < x.maxOcc) (·.num),
  bad 0x0300 st.points (fun p => decide (p.toeDir = .unknown) || !inside 1 60 p.throwS) (·.num),
  bad 0x0300 st.signals (fun g => decide (g.facing = .unknown) || 500000 < g.overlapMm) (·.num),
  bad 0x0300 st.crossings (fun c => 3 < c.kind || !inside 1 8 c.prot.length || !inside 1 120 c.closeS || !inside 1 120 c.openS)
    (·.num),
  bad 0x0300 st.boundaries (fun b => 0xFFF < b.neighMod) (·.num),
  bad 0x0300 st.keys (fun k => 1 < k.kind || !inside 1 64 k.scope.length) (·.num),
  bad 0x0300 st.routes (fun r => 0x1FFF < r.num || decide (r.dir = .unknown) || 15 < r.prio || !inside 1 15 r.aspect ||
    2000000 < r.approach || !inside 5 600 r.opS ||
    (r.elems.any (fun e => match e with | .pt _ k => 7 < k | _ => false))) (·.num),
  bad 0x0300 st.overlaps (fun o => !inside 1 8192 o.num || 600 < o.releaseS) (·.num),
  bad 0x0300 st.classes.zipIdx (fun c => 100000 < c.1.safety || 10000 < c.1.release || !inside 500 200000 c.1.maxLen ||
    50000 < c.1.maxUnc || !inside 1 50 c.1.maxAge) (·.2),
  bad 0x0300 st.filters.zipIdx (fun f => 1000 < f.1.minMs || 86400 < f.1.maxS || !inside 10 60000 f.1.winMs ||
    !inside 2 255 f.1.limit || !inside 10 600000 f.1.recMs) (·.2),
  bad 0x0300 st.pairs (fun p => !inside 1 16 p.num || !inside 5 500 p.discMs || 7 < p.fclass) (·.num),
  bad 0x0300 st.modes (fun m => 7 < m.num || !inside 100 1000 m.prec || !inside 200 1000 m.guardNs || 3 < m.coldNodes.length ||
    0xFFFF < m.claimMask || m.slots.any (fun t => !inside 16 1023 t.slot || !inside 1 4 t.kind || !inside 1 3 t.chans ||
      7 < t.exp || 0x1FFFF < t.dests)) (·.num),
  bad 0x0300 (bindings st) (fun b => !bindOk b.2) (·.1),
  bad 0x0300 (slotPoints st) (fun p => 15 < p.1 || 1023 < p.2) (·.1)]

/-- CAPACITY (R45, Table 2.2). DESIGN CHOICE, log 20 (unsafe). -/
def checkCapacity (st : Station) : Refused := firstRefusal [
  beyond st.sections 1 4096, beyond st.points 0 2048, beyond st.signals 0 2048, beyond st.crossings 0 512, beyond st.boundaries 0 256,
  beyond st.keys 0 256, beyond st.routes 0 8192, beyond st.overlaps 0 8192, beyond st.relations 0 8192, beyond st.lines 1 256,
  beyond st.breaks 0 2048, beyond st.classes 16 16, beyond st.modes 1 8,
  bad 0x0301 st.points (fun p => !inside 2 8 p.legs.length) (·.num),
  bad 0x0301 st.signals (fun g => 16 < g.aspects.length) (·.num),
  bad 0x0301 st.routes (fun r => !inside 1 96 r.elems.length || 4 < r.overlaps.length || 32 < r.flank.length) (·.num),
  bad 0x0301 st.overlaps (fun o => !inside 1 16 o.elems.length) (·.num)]

/-- Numbers of all elements, whatever their kinds (R46). -/
def elementNos (st : Station) : List Nat :=
  st.sections.map (·.num) ++ st.points.map (·.num) ++ st.signals.map (·.num) ++ st.crossings.map (·.num) ++
  st.boundaries.map (·.num) ++ st.keys.map (·.num)

/-- A number that occurs again later in the list. -/
def repeated : List Nat → Option Nat
  | [] => none
  | n :: l => if l.contains n then some n else repeated l

/-- A section exists. -/
def isSec (st : Station) (n : Nat) : Bool := (secRec st n).isSome

/-- A link names something that exists. -/
def linkOk (st : Station) (l : Link) : Bool :=
  match l with | .sec n => isSec st n | .bnd n => (bndRec st n).isSome | .stop => true

/-- An entry of an element list names something that exists. -/
def elemOk (st : Station) (e : Elem) : Bool :=
  match e with | .sec n => isSec st n | .pt n _ => (ptRec st n).isSome | .xing n => (xingRec st n).isSome

/-- A flank entry names something that exists. -/
def flankOk (st : Station) (f : Flank) : Bool :=
  match f with | .pt n _ => (ptRec st n).isSome | .sig n => (sigRec st n).isSome | .xing n => (xingRec st n).isSome

/-- REFERENCE (R13, R46, R56, R59, R663). -/
def checkReference (own : Nat) (st : Station) : Refused := firstRefusal [
  (repeated (elementNos st)).map (fun n => (0x0302, n)),
  (repeated (st.routes.map (·.num))).map (fun n => (0x0302, n)),
  (repeated (st.overlaps.map (·.num))).map (fun n => (0x0302, n)),
  bad 0x0302 (elementNos st) (fun n => !inside 1 0xFFFE n) (fun n => n),
  bad 0x0302 st.sections (fun x => !linkOk st x.low || !linkOk st x.high || (match x.point with
    | some p => !((ptRec st p).any (fun r => r.sec = x.num)) | none => st.points.any (fun p => p.sec = x.num))) (·.num),
  (repeated (st.points.map (·.sec))).map (fun n => (0x0302, n)),
  bad 0x0302 st.points (fun p => !isSec st p.sec || p.legs.any (fun g => !isSec st g.1 && (bndRec st g.1).isNone)) (·.num),
  bad 0x0302 st.signals (fun g => !isSec st g.sec || !isSec st g.start) (·.num),
  bad 0x0302 st.crossings (fun c => c.prot.any (fun n => !isSec st n)) (·.num),
  bad 0x0302 st.boundaries (fun b => !isSec st b.sec || decide (b.neighMod = own)) (·.num),
  bad 0x0302 st.keys (fun k => k.scope.any (fun n => !isSec st n && (ptRec st n).isNone && (xingRec st n).isNone)) (·.num),
  bad 0x0302 st.routes (fun r => (sigRec st r.entry).isNone ||
    ((sigRec st r.exit).isNone && (bndRec st r.exit).isNone && !isSec st r.exit) ||
    r.elems.any (fun e => !elemOk st e) || r.flank.any (fun f => !flankOk st f) ||
    r.overlaps.any (fun o => (ovlRec st o).isNone)) (·.num),
  bad 0x0302 st.overlaps (fun o => o.elems.any (fun e => !elemOk st e)) (·.num),
  bad 0x0302 st.relations (fun p => (sigRec st p.1).isNone || (sigRec st p.2).isNone) (·.1),
  bad 0x0302 st.breaks (fun b => !isSec st b.e1 || !isSec st b.e2) (·.e1),
  bad 0x0302 st.localOuts (fun o => match o.kind with
    | .signal => (sigRec st o.elem).isNone | .drive _ => (ptRec st o.elem).isNone | .crossing => (xingRec st o.elem).isNone
    | .unbound => false) (·.elem)]

/-- A chainage lies on a section, its high end included. -/
def onSection (st : Station) (n : Nat) (c : Int) : Bool := (secRec st n).any (fun x => x.start ≤ c && c ≤ x.fin)

/-- CHAINAGE (R50, R51, R53): lines, sections, breaks, and the places of points and signals on their sections. -/
def checkChainage (st : Station) : Refused := firstRefusal [
  bad 0x0303 st.lines (fun n => !inside 1 0xFFFE n) (fun n => n),
  bad 0x0303 st.sections (fun x => !st.lines.contains x.line || x.fin < x.start + 1000 ||
    st.sections.any (fun y => decide (y.num ≠ x.num) && decide (y.line = x.line) && decide (x.start < y.fin) &&
      decide (y.start < x.fin))) (·.num),
  bad 0x0303 st.points (fun p => !onSection st p.sec p.toe) (·.num),
  bad 0x0303 st.signals (fun g => !((secRec st g.sec).any (fun x => g.chain = (if g.high then x.fin else x.start)))) (·.num),
  bad 0x0303 st.breaks (fun b => !onSection st b.e1 b.c1 || !onSection st b.e2 b.c2) (·.e1)]

/-- A required position within a point's positions. -/
def posOk (st : Station) (n k : Nat) : Bool := (ptRec st n).any (fun p => k < p.legs.length)

/-- Required positions of an element list. -/
def listPosOk (st : Station) (l : List Elem) : Bool := l.all (fun e => match e with | .pt n k => posOk st n k | _ => true)

/-- R60: a point follows its own section, a crossing the last of its protected sections on the way. -/
def orderOk (st : Station) (all : List Nat) : Option Nat → List Elem → Bool
  | _, [] => true
  | _, .sec n :: l => orderOk st all (some n) l
  | prev, .pt n _ :: l => (ptRec st n).any (fun p => prev = some p.sec) && orderOk st all prev l
  | prev, .xing n :: l =>
    (xingRec st n).any (fun c => (all.filter c.prot.contains).getLast? = prev && prev.isSome) && orderOk st all prev l

/-- Position that a list asks of a point. -/
def listedPos (l : List Elem) (n : Nat) : Option Nat :=
  l.findSome? (fun e => match e with | .pt m k => if m = n then some k else none | _ => none)

/-- Travel leaves a section of a list by the listed positions: its point, if any, stands in the list. -/
def wayOk (st : Station) (l : List Elem) (x : SectionRec) (d : Dir) (prev : Option Nat) (e : Exit) : Bool :=
  match st.points.find? (fun p => p.sec = x.num) with
  | none => true
  | some p =>
    match pointTaken st x d prev e with
    | some q => listedPos l p.num = some q.2
    | none => false

/-- R61: each section of a list leads to the next, and the last to the exit. -/
def pathOk (st : Station) (r : RouteRec) : Option Nat → Int → List PathSec → Bool
  | _, _, [] => false
  | prev, c, [p] =>
    match secRec st p.sec with
    | some x => (exits st x c p.dir).any (fun e => wayOk st r.elems x p.dir prev e &&
        ((signalAt st x p.dir e).any (fun g => g.num = r.exit) ||
         (match e.nxt with | .bnd b => decide (b = r.exit) | .stop => decide (p.sec = r.exit) | .sec _ _ _ => false)))
    | none => false
  | prev, c, p :: q :: l =>
    match secRec st p.sec with
    | some x =>
      match (exits st x c p.dir).find? (fun e => wayOk st r.elems x p.dir prev e &&
          (match e.nxt with | .sec m _ d => decide (m = q.sec) && decide (d = q.dir) | _ => false)) with
      | some e => pathOk st r (some p.sec) (match e.nxt with | .sec _ c' _ => c' | _ => c) (q :: l)
      | none => false
    | none => false

/-- Chainage at which a route's first section is entered. -/
def startChain (st : Station) (r : RouteRec) : Int :=
  match sigRec st r.entry, (routeSecs st r).head? with
  | some g, some p =>
    match breakFrom st g.sec p.sec with
    | some b => b.2.1
    | none => ((secRec st p.sec).map (fun x => entryOf x p.dir)).getD 0
  | _, _ => 0

/-- ROUTE (R60 to R62). -/
def checkRoutes (st : Station) : Refused := firstRefusal [
  bad 0x0304 st.routes (fun r =>
    let secs := (routeSecs st r).map (·.sec)
    !listPosOk st r.elems || r.flank.any (fun f => match f with | .pt n k => !posOk st n k | _ => false) ||
    !orderOk st secs none r.elems ||
    !((sigRec st r.entry).any (fun g => secs.head? = some g.start && decide (g.facing = r.dir) &&
      decide (g.aspects.getD r.aspect .undefined = .permissive))) ||
    !pathOk st r ((sigRec st r.entry).bind (fun g => if secs.head? = some g.sec then none else some g.sec)) (startChain st r)
      (routeSecs st r)) (·.num),
  bad 0x0304 st.overlaps (fun o => !listPosOk st o.elems) (·.num)]

/-- Adjacency as the lanes derive it (R66): what lies past each end of each section. -/
def derivedGraph (st : Station) : List GraphRec :=
  (st.sections.map (fun x => [⟨x.num, false, x.low⟩, ⟨x.num, true, x.high⟩])).flatten

/-- The start element of a signal as the graph gives it (R65). -/
def startOk (st : Station) (g : SignalRec) : Bool :=
  g.start = g.sec ||
  (secRec st g.sec).any (fun x => (exits st x (entryOf x g.facing) g.facing).any (fun e =>
    match e.nxt with | .sec m _ _ => decide (m = g.start) | _ => false))

/-- Elements of the longest Trestle walk over any combination of point positions (R67, R68), at most `fuel` sections deep;
`over` is what is left of a Trestle overlap. -/
def longestWalk (st : Station) : Nat → Nat → Int → Dir → Option Int → Nat
  | 0, _, _, _, _ => 0
  | fuel + 1, n, c, d, rem =>
    match secRec st n with
    | none => 0
    | some x =>
      let own := 1 + b2n (st.points.any (fun p => p.sec = n))
      (exits st x c d).foldl (fun m e =>
        let left := rem.map (fun o => o - gap c e.at_)
        let sig := signalAt st x d e
        let go (o : Option Int) : Nat :=
          match e.nxt with
          | .sec y c' d' => longestWalk st fuel y c' d' o
          | .bnd _ => 1
          | .stop => 0
        let rest := match left with
          | some r => if r ≤ 0 then 0 else go (some r)
          | none => match sig with
            | some g => if g.overlapMm = 0 then 0 else go (some g.overlapMm)
            | none => go none
        max m (own + rest)) own

/-- A signal's longest walk (R68). -/
def signalLongest (st : Station) (g : SignalRec) : Nat :=
  match secRec st g.start with
  | some x =>
    match breakFrom st g.sec g.start with
    | some b => longestWalk st (walkLimit + 1) g.start b.2.1 (if b.2.2 then opposite g.facing else g.facing) none
    | none => longestWalk st (walkLimit + 1) g.start (entryOf x g.facing) g.facing none
  | none => 0

/-- TRESTLE-GRAPH (R63, R66, R68). -/
def checkGraph (st : Station) : Refused := firstRefusal [
  bad 0x0305 (derivedGraph st) (fun g => !st.graph.contains g) (·.sec),
  bad 0x0305 st.graph (fun g => !(derivedGraph st).contains g) (·.sec),
  bad 0x0305 st.signals (fun g => !startOk st g || walkLimit < signalLongest st g) (·.num),
  bad 0x0305 st.relations (fun p => match sigRec st p.1, sigRec st p.2 with
    | some a, some b => decide (a.facing ≠ b.facing) | _, _ => true) (·.1)]

/-- The trunk port of a pair's module (R487). -/
def trunkPort (ports : Nat) : Nat := ports - 1

/-- BINDING (R47, R49, R58, R487). -/
def checkBinding (ports : Nat) (paired : Bool) (st : Station) : Refused := firstRefusal [
  (repeated ((bindings st).map (fun b => pointKey b.2) ++ (slotPoints st).map (fun p => p.1 * 1024 + p.2))).map
    (fun n => (0x0306, n)),
  (repeated (st.pairs.map (·.num))).map (fun n => (0x0306, n)),
  (repeated (st.localOuts.map (·.num))).map (fun n => (0x0306, n)),
  bad 0x0306 st.points (fun p => p.det.length ≠ p.legs.length || p.drive.length ≠ p.legs.length) (·.num),
  bad 0x0306 st.signals (fun g => decide (g.aspects.getD 0 .undefined ≠ .restrictive) ||
    (g.outs.length ≠ 4 && g.outs.length ≠ 0) || (g.proving.length ≠ 4 && g.proving.length ≠ 0)) (·.num),
  bad 0x0306 st.localOuts (fun o => !inside 1 16 o.num) (·.elem),
  bad 0x0306 (bindings st) (fun b => paired && b.2.port = trunkPort ports) (·.1),
  bad 0x0306 (slotPoints st) (fun p => paired && p.1 = trunkPort ports) (·.1)]

/-- Wire time of the largest frame of a slot's kind in ns (R344). -/
def kindWire (kind : Nat) : Nat := if kind = 1 then 1456 else 12432

/-- Nodes of a destination set. -/
def destNodes (m : Nat) : List Nat := (List.range 17).filter (bit m)

/-- Two tail slots that may meet (R344): active in one bus cycle, on one channel, with windows that overlap, and a sender or a
destination in common. -/
def slotsMeet (a b : SlotRec) : Bool :=
  let e := 2 ^ min a.exp b.exp
  a.phase % e = b.phase % e && (a.chans &&& b.chans) ≠ 0 && a.start < b.start + b.len && b.start < a.start + a.len &&
  (a.sender = b.sender || (a.dests &&& b.dests) ≠ 0)

/-- A pair of slots of a list that meet. -/
def anyMeet : List SlotRec → Bool
  | [] => false
  | a :: l => l.any (slotsMeet a) || anyMeet l

/-- One mode of the schedule (R70, R344, R489). -/
def modeBad (ports : Nat) (paired : Bool) (bound : List Nat) (m : ModeRec) : Bool :=
  let trunk := trunkPort ports + 1
  let known (n : Nat) : Bool := bound.contains (n - 1) && n ≠ 0 || (paired && n = trunk)
  let nodes := (List.range 17)
  let service (a b : Nat) : Bool := m.slots.any (fun t => t.kind = 2 && t.sender = a && bit t.dests b && 2 ^ t.exp ≤ m.lCyc)
  let beat (c a b : Nat) : Bool := m.slots.any (fun t => t.kind = 1 && bit t.chans c && t.exp = 0 && t.sender = a && bit t.dests b)
  !m.keepsHead || !inside 4 200 m.lCyc || !inside 250000 4000000 m.busNs || m.busNs % 1000 ≠ 0 ||
  !inside 2000000 100000000 (m.busNs * m.lCyc) || 2400 < m.prec + 2 * m.guardNs || 255 < m.slots.length ||
  m.slots.any (fun t => t.start < 174000 || m.busNs < t.start + t.len + 4000 ||
    2 * t.len < 200 + m.prec + 2 * m.guardNs + 2 * kindWire t.kind || 2 ^ t.exp ≤ t.phase) ||
  (repeated (m.slots.map (·.slot))).isSome || anyMeet m.slots ||
  bound.any (fun p => !service 0 (p + 1) || !service (p + 1) 0) ||
  nodes.any (fun n => 64 < (m.slots.filter (fun t => t.sender = n || bit t.dests n)).length) ||
  (m.syncNodes.filter (· ≠ 0xFF)).any (fun n => !known n) || m.coldNodes.any (fun n => !known n || !m.syncNodes.contains n) ||
  (ports = 8 && ((m.syncNodes.filter (· ≠ 0xFF)).any (8 < ·) ||
    m.slots.any (fun t => (t.sender ≠ 0xFE && 8 < t.sender) || (destNodes t.dests).any (8 < ·)))) ||
  (paired && (!m.syncNodes.contains trunk ||
    [0, 1].any (fun c => !beat c 0 trunk || !beat c trunk 0)))

/-- SCHEDULE (R70, R344, R489). -/
def checkSchedule (ports : Nat) (paired : Bool) (st : Station) : Refused := firstRefusal [
  (repeated (st.modes.map (·.num))).map (fun n => (0x0307, n)),
  breach 0x0307 (!st.modes.any (fun m => m.num = 0)) 0,
  bad 0x0307 st.modes (modeBad ports paired (boundPorts st)) (·.num)]

/-- The content checks in the order of Table 2.11. -/
def checkContent (ports own : Nat) (paired : Bool) (st : Station) : Refused := firstRefusal [
  checkRange st, checkCapacity st, checkReference own st, checkChainage st, checkRoutes st, checkGraph st,
  checkBinding ports paired st, checkSchedule ports paired st]

end Sys2Proof.Machine
end

