-- ==== Sys2Proof/Machine/Load.lean ====
section
/-! DEFINITION. Loading station data and programs (R71 to R85, R302 to R304): the signed container, the slots, the checks of
Tables 2.11 and 8.7, the lanes' verdicts, and the signing keys. -/

namespace Sys2Proof.Machine

/-! ## The container -/

/-- Header length of a container (R71). -/
def headLen : Nat := 96

/-- Largest container (Table 2.2). -/
def maxContainer : Nat := 0x1000000

/-- A number read from a memory. -/
def memNat (m : Mem) (at_ len : Nat) : Nat := ofBe (memReadAll m at_ len)

/-- Every byte of a stretch is 0x00. -/
def memZero (m : Mem) (at_ len : Nat) : Bool := m.all (fun p => p.1 < at_ || at_ + len ≤ p.1)

/-- Header fields that station data and programs share (Table 2.9). -/
structure ContHead where
  tag : Nat
  cclass : Nat
  site : Nat
  modAddr : Nat
  ports : Nat
  version : Nat
  bodyLen : Nat
  parts : Nat
  digest : List Byte
  id : Nat
  need : List Byte

/-- The header of a container. -/
def readHead (m : Mem) : ContHead :=
  { tag := memNat m 0 4, cclass := memNat m 4 2, site := memNat m 8 8, modAddr := memNat m 16 2, ports := memNat m 18 1,
    version := memNat m 20 4, bodyLen := memNat m 36 4, parts := memNat m 40 2, digest := memReadAll m 48 32,
    id := memNat m 8 8, need := memReadAll m 80 8 }

/-- Header length, header check and reserved fields (R71, Table 8.3). DESIGN CHOICE, log 20 (unsafe). -/
def headOk (prog : Bool) (m : Mem) : Bool :=
  memNat m 6 2 = headLen && memNat m 19 1 = 0 && memZero m 42 6 && memNat m 16 2 < 0x1000 &&
  (if prog then memNat m 18 1 = 0 && memZero m 88 4 else memZero m 80 12) &&
  memNat m 92 4 = crcOf crc32c (memReadAll m 0 92) && memNat m 20 4 ≠ 0 && memNat m 8 8 ≠ 0

/-- A directory entry: type, format, offset, length, CRC-32C. -/
structure PartEntry where
  type : Nat
  format : Nat
  off : Nat
  len : Nat
  crc : Nat

/-- The directory of a container. -/
def readParts (m : Mem) (n : Nat) : List PartEntry :=
  (List.range n).map (fun i =>
    let b := headLen + 16 * i
    { type := memNat m b 2, format := memNat m (b + 2) 2, off := memNat m (b + 4) 4, len := memNat m (b + 8) 4,
      crc := memNat m (b + 12) 4 })

/-- Part types of station data (Table 2.1) and of programs (Table 8.3). -/
def partTypes (prog : Bool) : List Nat :=
  if prog then [0x0101, 0x0102, 0x0103, 0x0104, 0x0105, 0x0106, 0x0107, 0x0108]
  else [1, 2, 3, 4, 5, 6, 0x10, 0x11, 0x12, 0x13, 0x20, 0x21, 0x30, 0x40, 0x50, 0x60, 0x70]

/-- Parts stand one after the other on 8-byte boundaries with gaps of 0x00, within the body. -/
def partsLaid (m : Mem) (fin : Nat) : Nat → List PartEntry → Bool
  | at_, [] => at_ ≤ fin && memZero m at_ (fin - at_)
  | at_, p :: l => p.off % 8 = 0 && at_ ≤ p.off && memZero m at_ (p.off - at_) && partsLaid m fin (p.off + p.len) l

/-- PART-CHECK: the type of the first part whose check fails. -/
def partBad (prog : Bool) (m : Mem) (h : ContHead) : Option Nat :=
  let ts := partTypes prog
  let ps := readParts m ts.length
  if h.parts ≠ ts.length || ps.map (·.type) ≠ ts || !partsLaid m (headLen + h.bodyLen) (headLen + 16 * ts.length) ps then
    some noElement
  else (ps.find? (fun p => crcOf crc32c (memReadAll m p.off p.len) ≠ p.crc)).map (·.type)

/-- A signature record (R72): role, fingerprint, signature. -/
structure SigRec where
  role : Nat
  resv : Nat
  finger : Nat
  sig : List Byte

/-- Signature records from a place on, at most three looked at. -/
def readSigs (m : Mem) (fin : Nat) : Nat → Nat → List SigRec
  | 0, _ => []
  | n + 1, at_ =>
    if fin < at_ + 12 then []
    else
      let len := memNat m (at_ + 10) 2
      if fin < at_ + 12 + len then []
      else
        { role := memNat m at_ 1, resv := memNat m (at_ + 1) 1, finger := memNat m (at_ + 2) 8,
          sig := memReadAll m (at_ + 12) len } :: readSigs m fin n (at_ + 12 + len)

/-- The digest that both signatures cover: header bytes 0 to 91 (R72). -/
def signedDigest (m : Mem) : List Byte := Config.shake256 (memReadAll m 0 92)

/-- A public key by its fingerprint. -/
def keyOf (l : LoadSt) (finger : Nat) : List Byte := ((l.pubKeys.find? (fun k => k.1 = finger)).map (·.2)).getD []

/-- A key is registered in a role (R73). -/
def keyIn (l : LoadSt) (role finger : Nat) : Bool := finger ≠ 0 && (if role = 1 then l.compose else l.verify).contains finger

/-- Both signatures (R72, R75): 0 good; 1 missing, 2 role, 3 key unknown, 4 invalid, with the fingerprint's record. -/
def signatures (l : LoadSt) (m : Mem) (size : Nat) (h : ContHead) : Nat :=
  match readSigs m size 3 (headLen + h.bodyLen) with
  | [a, b] =>
    let other (x : SigRec) : Bool := !keyIn l x.role x.finger && keyIn l (3 - x.role) x.finger
    if !inside 1 2 a.role || !inside 1 2 b.role || a.role = b.role || a.resv ≠ 0 || b.resv ≠ 0 || other a || other b then 2
    else if !keyIn l a.role a.finger || !keyIn l b.role b.finger then 3
    else if Config.falcon (keyOf l a.finger) (signedDigest m) a.sig && Config.falcon (keyOf l b.finger) (signedDigest m) b.sig
      then 0 else 4
  | _ => 1

/-- The body digest matches (R71). -/
def bodyOk (m : Mem) (h : ContHead) : Bool := Config.shake256 (memReadAll m headLen h.bodyLen) = h.digest

/-! ## Station data -/

/-- Station data that needs star ports the module lacks (R2, WRONG-PORTS). -/
def portsBad (s : State) (h : ContHead) (st : Station) : Bool :=
  s.ident.ports ≤ 8 && (h.ports = 0x10 || (bindings st).any (fun b => 8 ≤ b.2.port) || (slotPoints st).any (fun p => 8 ≤ p.1))

/-- A pair is configured (R486). -/
def pairNamed (s : State) : Bool := s.pair.partnerAddr ≠ 0xFFFF

/-- A lane's checks of a loaded container in the order of Table 2.11: accepted with the body digest, or refused. DESIGN
CHOICE, log 14 (safe). DESIGN CHOICE, log 14 (safe). -/
def stationVerdict (s : State) (m : Mem) (size : Nat) : LoadVerdict :=
  let h := readHead m
  let st := Config.parseStation m size
  let sigs := signatures s.load m size h
  let no (c d : Nat) : LoadVerdict := ⟨c, d, h.digest⟩
  if h.tag ≠ 0x5A534433 || !headOk false m || (h.ports ≠ 8 && h.ports ≠ 0x10) then no 0x0101 noElement
  else if !s.load.fmtClasses.contains h.cclass then no 0x0102 noElement
  else match (readParts m (partTypes false).length).find? (fun p => !Config.partFormat h.cclass p.type p.format) with
  | some p => no 0x0102 p.type
  | none =>
    if h.modAddr ≠ s.dict.modAddr || (s.load.site ≠ 0 && s.load.site ≠ h.site) then no 0x0103 noElement
    else if portsBad s h st then no 0x0104 noElement
    else match partBad false m h with
    | some d => no 0x0105 d
    | none =>
      if !bodyOk m h then no 0x0106 noElement
      else if sigs ≠ 0 then no (0x0200 + sigs) noElement
      else if h.version ≤ s.load.highest && !s.load.rollback then no 0x0205 h.version
      else if maxContainer < size then no 0x0301 noElement
      else match checkContent s.ident.ports s.dict.modAddr (pairNamed s) st with
      | some r => no r.1 r.2
      | none => ⟨0, noElement, h.digest⟩

/-- The slot of the given half number changed. -/
def modSlot (h : Half) (f : DataSlot → DataSlot) (s : State) : State :=
  { s with load := { s.load with slots := twoMod s.load.slots h f } }

/-- The station-data slot in a state. -/
def slotIn (s : State) (st : SlotState) : Option Half :=
  if s.load.slots.a.st = st then some .a else if s.load.slots.b.st = st then some .b else none

/-- The slot a load goes to: the one that is not active (R77). DESIGN CHOICE, log 20 (unsafe). -/
def loadSlot (s : State) : Half := if s.load.slots.a.st = .active then .b else .a

/-- A load or check is under way. -/
def loadBusy (s : State) : Bool := (slotIn s .receiving).isSome || (slotIn s .checking).isSome

/-- Outcome of a load command with its code kept (object 0x8203 sub 1). -/
def loadReply (code detail : Nat) (s : State) : State × Nat × List Byte :=
  let r := functionReply code []
  ({ s with load := { s.load with code := code, detail := detail } }, r.1, r.2)

/-- Load control 1 (R77). -/
def loadOpenFn (sess : Nat) (s : State) : State × Nat × List Byte :=
  if loadBusy s || (slotIn s .pending).isSome || s.upd.upd then loadReply 0x0402 noElement s
  else
    let t := modSlot (loadSlot s) (fun _ => { DataSlot.init with st := .receiving }) s
    ({ t with load := { t.load with offset := 0, session := sess } }, rOk, [])

/-- Load control 2 (R78): the data end and the lanes check their copies. DESIGN CHOICE, log 20 (unsafe). -/
def loadEndFn (s : State) : State × Nat × List Byte :=
  (match slotIn s .receiving with
    | some h => modSlot h (fun x => { x with st := .checking }) s
    | none => s, rOk, [])

/-- Load control 3 (R77): the load is abandoned and its slot is empty. -/
def loadAbandonFn (s : State) : State × Nat × List Byte :=
  let drop (x : DataSlot) : DataSlot := if x.st = .receiving || x.st = .checking then DataSlot.init else x
  ({ s with load := { s.load with slots := twoMap s.load.slots (fun _ x => drop x), session := 0xFF } }, rOk, [])

/-- A load window write (R77, R82): bytes to all three lanes at the load offset, which advances. DESIGN CHOICE, log 20
(unsafe). DESIGN CHOICE, log 20 (unsafe). -/
def loadWindowFn (sess : Nat) (data : List Byte) (s : State) : State × Nat × List Byte :=
  match slotIn s .receiving with
  | some h =>
    if s.load.session ≠ sess then loadReply 0x0403 noElement s
    else if maxContainer < s.load.offset + data.length then (s, rRange, [])
    else
      let off := s.load.offset
      let put (x : DataSlot) : DataSlot :=
        { x with bytes := memWriteAll x.bytes off data, size := max x.size (off + data.length) }
      let t := modSlot h put s
      ({ t with load := { t.load with offset := off + data.length } }, rOk, [])
  | none => loadReply 0x0403 noElement s

/-- Result of the lanes' verdicts (R79): what is adopted, and the lane that is excluded. DESIGN CHOICE, log 20 (unsafe). -/
def agreeVerdicts (l : List (Lane × LoadVerdict)) : Option LoadVerdict × Option Lane :=
  let acc (v : LoadVerdict) : Bool := v.code = 0
  match l with
  | [a] => (some a.2, none)
  | [a, b] => if a.2 = b.2 then (some a.2, none) else (none, none)
  | [a, b, c] =>
    if a.2 = b.2 then (if a.2 = c.2 then (some a.2, none) else (some a.2, some c.1))
    else if a.2 = c.2 then (some a.2, some b.1)
    else if b.2 = c.2 then (some b.2, some a.1)
    else if acc a.2 && acc b.2 && acc c.2 then (none, none) else (none, none)
  | _ => (none, none)

/-- What each lane in vote reports: its own checks, or what a faulty lane reports in their place. -/
def laneVerdicts (s : State) (v : LoadVerdict) (faulty : Three (Option LoadVerdict)) : List (Lane × LoadVerdict) :=
  (lanesInVote s).map (fun l => (l, (triGet faulty l).getD v))

/-- A load refused (R80): slot state 5, code and detail, event 88, Field book record. -/
def refuseLoad (h : Half) (code detail : Nat) (s : State) : State :=
  let s := modSlot h (fun x => { x with st := .refused }) s
  let s := { s with load := { s.load with code := code, detail := detail, session := 0xFF } }
  raiseRec 88 code code 0 0xFFFF (be 4 detail) s

/-- A load accepted (R79, R85). -/
def acceptLoad (h : Half) (s : State) : State :=
  let x := twoGet s.load.slots h
  let hd := readHead x.bytes
  let st : Station := { Config.parseStation x.bytes x.size with modAddr := hd.modAddr, site := hd.site, portReq := hd.ports }
  let y : DataSlot := { x with st := .valid, parsed := st, version := hd.version,
                               site := hd.site, digest := hd.digest }
  let s := modSlot h (fun _ => y) s
  { s with load := { s.load with code := 0, detail := noElement, session := 0xFF, highest := hd.version, rollback := false,
                                 site := if s.load.site = 0 then hd.site else s.load.site } }

/-- LOAD_CHECKED (R79): the verdicts are voted; a lane that differs from the other two is excluded with LOAD-VERDICT. -/
def loadChecked (faulty : Three (Option LoadVerdict)) (s : State) : State :=
  match slotIn s .checking with
  | none => s
  | some h =>
    let x := twoGet s.load.slots h
    let r := agreeVerdicts (laneVerdicts s (stationVerdict s x.bytes x.size) faulty)
    let s := match r.1 with
      | some v => if v.code = 0 then acceptLoad h s else refuseLoad h v.code v.detail s
      | none => refuseLoad h 0x0401 noElement s
    match r.2 with
    | some l => excludeLanes [l] 0x0C 0xFF [] s
    | none => s

/-- Activate (R77, R83). -/
def activateFn (v : Nat) (s : State) : State × Nat × List Byte :=
  if v = 1 then
    match slotIn s .valid with
    | some h => if (slotIn s .checking).isSome then loadReply 0x0402 noElement s
                else (modSlot h (fun x => { x with st := .pending }) s, rOk, [])
    | none => loadReply 0x0402 noElement s
  else if v = 0 then
    (match slotIn s .pending with
      | some h => modSlot h (fun x => { x with st := .valid }) s
      | none => s, rOk, [])
  else (s, rRange, [])

/-! ## Signing keys -/

/-- Fingerprint of a public key (R73). -/
def fingerprint (key : List Byte) : Nat := ofBe ((Config.shake256 key).take 8)

/-- Keys of one role. -/
def keysPerRole : Nat := 4

/-- Key action's record (R76): role, fingerprint, session. -/
def keyRec3 (code role finger sess : Nat) (s : State) : State :=
  record 3 0xFF code 0 sess (be 1 role ++ be 8 finger) { s with load := { s.load with keyWindow := [], keyOutcome := code } }

/-- A key registered in a role (R73, R74). DESIGN CHOICE, log 21 (unsafe). -/
def registerFn (role sess : Nat) (s : State) : State × Nat × List Byte :=
  let l := s.load
  let f := fingerprint l.keyWindow
  let refuse (c : Nat) : State × Nat × List Byte := (keyRec3 c role f sess s, rFunction, be 2 c)
  let mine := if role = 1 then l.compose else l.verify
  if l.keyWindow = [] || f = 0 then refuse 0x0203
  else if keyIn l (3 - role) f then refuse 0x0202
  else if mine.contains f then (keyRec3 0 role f sess s, rOk, [])
  else match mine.findIdx? (fun x => x = 0) with
  | none => refuse 0x0301
  | some i =>
    let keys := l.pubKeys ++ [(f, l.keyWindow)]
    let l' : LoadSt := if role = 1 then { l with compose := mine.set i f, pubKeys := keys }
      else { l with verify := mine.set i f, pubKeys := keys }
    (keyRec3 0 role f sess { s with load := l' }, rOk, [])

/-- A key removed by its fingerprint. DESIGN CHOICE, log 21 (unsafe). -/
def removeFn (sess : Nat) (s : State) : State × Nat × List Byte :=
  let l := s.load
  let f := ofBe l.keyWindow
  let role := if keyIn l 1 f then 1 else if keyIn l 2 f then 2 else 0
  if l.keyWindow.length ≠ 8 || role = 0 then (keyRec3 0x0203 role f sess s, rFunction, be 2 0x0203)
  else
    let clear (k : List Nat) : List Nat := k.map (fun x => if x = f then 0 else x)
    let l' : LoadSt := { l with compose := clear l.compose, verify := clear l.verify,
                                pubKeys := l.pubKeys.filter (fun k => k.1 ≠ f) }
    (keyRec3 0 role f sess { s with load := l' }, rOk, [])

/-- A key action (object 0x8212 sub 1). DESIGN CHOICE, log 21 (unsafe). -/
def keyActionFn (sess v : Nat) (s : State) : State × Nat × List Byte :=
  if v = 1 || v = 2 then registerFn v sess s else if v = 3 then removeFn sess s else (s, rRange, [])

/-- Load control (object 0x8201). -/
def loadControlFn (sess v : Nat) (s : State) : State × Nat × List Byte :=
  if v = 1 then loadOpenFn sess s else if v = 2 then loadEndFn s else if v = 3 then loadAbandonFn s else (s, rRange, [])

/-! ## Programs -/

/-- The program slot that loads go to (R303). -/
def progLoadSlot (s : State) : Half := match s.progLoad.active with | some h => otherHalf h | none => .a

/-- A program slot changed. -/
def modProgSlot (h : Half) (f : ProgSlot → ProgSlot) (s : State) : State :=
  { s with progLoad := { s.progLoad with slots := twoMod s.progLoad.slots h f } }

/-- The program slot in a state. -/
def progSlotIn (s : State) (st : SlotState) : Option Half :=
  if s.progLoad.slots.a.st = st then some .a else if s.progLoad.slots.b.st = st then some .b else none

/-- Outcome of a program load command with its code kept (object 0x8303 sub 1). -/
def progLoadReply (code detail : Nat) (s : State) : State × Nat × List Byte :=
  let r := functionReply code []
  ({ s with progLoad := { s.progLoad with code := code, detail := detail } }, r.1, r.2)

/-- Program load control 1 (R303): a valid slot is overwritten, which aborts an armed change (R310). DEDUCED, log 22 (safe). -/
def progOpenFn (sess : Nat) (s : State) : State × Nat × List Byte :=
  if (progSlotIn s .receiving).isSome || (progSlotIn s .checking).isSome || s.upd.upd then progLoadReply 0x500E noElement s
  else
    let t := abortChange 0x5105 s
    let t := modProgSlot (progLoadSlot t) (fun _ => { ProgSlot.init with st := .receiving }) t
    ({ t with progLoad := { t.progLoad with offset := 0, session := sess } }, rOk, [])

/-- Program load control 2. -/
def progEndFn (s : State) : State × Nat × List Byte :=
  (match progSlotIn s .receiving with
    | some h => modProgSlot h (fun x => { x with st := .checking }) s
    | none => s, rOk, [])

/-- Program load control 3. -/
def progAbandonFn (s : State) : State × Nat × List Byte :=
  let drop (x : ProgSlot) : ProgSlot := if x.st = .receiving || x.st = .checking then ProgSlot.init else x
  ({ s with progLoad := { s.progLoad with slots := twoMap s.progLoad.slots (fun _ x => drop x), session := 0xFF } }, rOk, [])

/-- Program load control (object 0x8301). -/
def progControlFn (sess v : Nat) (s : State) : State × Nat × List Byte :=
  if v = 1 then progOpenFn sess s else if v = 2 then progEndFn s else if v = 3 then progAbandonFn s else (s, rRange, [])

/-- A program load window write. -/
def progWindowFn (sess : Nat) (data : List Byte) (s : State) : State × Nat × List Byte :=
  match progSlotIn s .receiving with
  | some h =>
    if s.progLoad.session ≠ sess then progLoadReply 0x500F noElement s
    else if maxContainer < s.progLoad.offset + data.length then (s, rRange, [])
    else
      let off := s.progLoad.offset
      let put (x : ProgSlot) : ProgSlot :=
        { x with bytes := memWriteAll x.bytes off data, size := max x.size (off + data.length) }
      let t := modProgSlot h put s
      ({ t with progLoad := { t.progLoad with offset := off + data.length } }, rOk, [])
  | none => progLoadReply 0x500F noElement s

/-- The root instance's identity (R282). -/
def rootId : Nat := 1

/-- Content checks of a program (R282 to R287, R293, R304) in the order of Table 8.7. -/
def progContent (s : State) (p : Program) (need : List Byte) : Refused := firstRefusal [
  breach 0x5007 (need ≠ digest8 s || p.refs.any (fun n => !(elementNos s.cfg).contains n) ||
    p.routeRefs.any (fun n => (routeRec s.cfg n).isNone)) noElement,
  breach 0x5008 (p.library.any (fun b => !(Config.library s.lanes.a.fwVersion).contains b)) noElement,
  breach 0x5009 (65536 < p.insts.length || 6 * 0x100000 < p.dataBytes ||
    p.exports.any (fun e => !inside 0x7400 0x7FFF e.1 || 255 < e.2.1)) noElement,
  bad 0x500A p.insts.zipIdx (fun i => i.1.id = 0 || i.1.id = 0xFFFFFFFFFFFFFFFF ||
    (p.insts.filter (fun j => j.id = i.1.id)).length ≠ 1) (·.2),
  breach 0x500A (!p.insts.any (fun i => i.id = rootId)) noElement,
  bad 0x500A p.vars.zipIdx (fun v => !p.insts.any (fun i => i.id = v.1.ref.inst) ||
    (p.vars.filter (fun w => w.ref = v.1.ref)).length ≠ 1) (·.2),
  bad 0x500B p.vars.zipIdx (fun v => v.1.vital && v.1.hostw) (·.2),
  breach 0x500B p.writesBad noElement,
  bad 0x500C p.bounds.zipIdx (fun b => allotment s < b.1 + 400) (·.2)]

/-- A lane's checks of a program container in the order of Table 8.7. -/
def progVerdict (s : State) (m : Mem) (size : Nat) : LoadVerdict :=
  let h := readHead m
  let sigs := signatures s.load m size h
  let no (c d : Nat) : LoadVerdict := ⟨c, d, h.digest⟩
  if h.tag ≠ 0x5A415033 || !headOk true m || maxContainer < size then no 0x5001 noElement
  else if !s.load.fmtClasses.contains h.cclass then no 0x5002 noElement
  else match (readParts m (partTypes true).length).find? (fun p => !Config.partFormat h.cclass p.type p.format) with
  | some p => no 0x5002 p.type
  | none =>
    if h.modAddr ≠ s.dict.modAddr ||
        (Config.parseProgram m size).any (fun p => s.load.site ≠ 0 && p.site ≠ s.load.site) then no 0x5003 noElement
    else match partBad true m h with
    | some d => no 0x5004 d
    | none =>
      if !bodyOk m h then no 0x5005 noElement
      else if sigs ≠ 0 then no 0x5006 sigs
      else match Config.parseProgram m size with
      | none => no 0x5004 noElement
      | some p =>
        match progContent s p h.need with
        | some r => no r.1 r.2
        | none => ⟨0, noElement, h.digest⟩

/-- A program load refused: event 85 in place of event 88 (R303). -/
def refuseProg (h : Half) (code detail : Nat) (s : State) : State :=
  let s := modProgSlot h (fun x => { x with st := .refused }) s
  let s := { s with progLoad := { s.progLoad with code := code, detail := detail, session := 0xFF } }
  raiseRec 85 code code 0 0xFFFF (be 4 detail) s

/-- A program load accepted. -/
def acceptProg (h : Half) (s : State) : State :=
  let head (x : ProgSlot) (p : Program) : Program :=
    let hd := readHead x.bytes
    { p with id := hd.id, version := hd.version, modAddr := hd.modAddr, needDigest := hd.need }
  let s := modProgSlot h (fun x => { x with st := .valid, parsed := (Config.parseProgram x.bytes x.size).map (head x),
                                            digest := (readHead x.bytes).digest }) s
  { s with progLoad := { s.progLoad with code := 0, detail := noElement, session := 0xFF } }

/-- PROGRAM_LOAD_CHECKED (R303). -/
def progChecked (faulty : Three (Option LoadVerdict)) (s : State) : State :=
  match progSlotIn s .checking with
  | none => s
  | some h =>
    let x := twoGet s.progLoad.slots h
    let r := agreeVerdicts (laneVerdicts s (progVerdict s x.bytes x.size) faulty)
    let s := match r.1 with
      | some v => if v.code = 0 then acceptProg h s else refuseProg h v.code v.detail s
      | none => refuseProg h 0x500D noElement s
    match r.2 with
    | some l => excludeLanes [l] 0x0C 0xFF [] s
    | none => s

/-! ## The commands -/

/-- A setting of the lanes written by a session: level, key, and the lanes running images (R550); a standby takes these
writes (R499). -/
def asSlotSession (n : Nat) (min : Level) (key : Bool) (f : State → State × Nat × List Byte) (s : State) : State :=
  let c := sessRefusal s n min key
  let d := laneRefusal s true
  if c ≠ rOk then withResult (c, []) s
  else if d ≠ rOk then withResult (d, []) s
  else
    let r := f s
    withResult (r.2.1, r.2.2) r.1

/-- A window write's length (1 to 1,024 bytes). -/
def windowFn (f : List Byte → State → State × Nat × List Byte) (data : List Byte) (s : State) : State × Nat × List Byte :=
  if data = [] || 1024 < data.length then (s, rLength, []) else f data s

/-- LOAD_OPEN (R77). -/
def execLoadOpen (sess : Nat) (s : State) : Host.Outcome State Fault Refusal :=
  .next (asSlotSession sess .maintainer false (loadOpenFn sess) s)

/-- LOAD_WINDOW (R77). -/
def execLoadWindow (sess : Nat) (data : List Byte) (s : State) : Host.Outcome State Fault Refusal :=
  .next (asSlotSession sess .maintainer false (windowFn (loadWindowFn sess) data) s)

/-- LOAD_END (R78). -/
def execLoadEnd (sess : Nat) (s : State) : Host.Outcome State Fault Refusal :=
  .next (asSlotSession sess .maintainer false loadEndFn s)

/-- LOAD_ABANDON (R77). -/
def execLoadAbandon (sess : Nat) (s : State) : Host.Outcome State Fault Refusal :=
  .next (asSlotSession sess .maintainer false loadAbandonFn s)

/-- LOAD_CHECKED (R79). -/
def execLoadChecked (faulty : Three (Option LoadVerdict)) (s : State) : Host.Outcome State Fault Refusal :=
  .next (loadChecked faulty s)

/-- ACTIVATE (R83). -/
def execActivateData (sess : Nat) (s : State) : Host.Outcome State Fault Refusal :=
  .next (asSlotSession sess .maintainer false (activateFn 1) s)

/-- WITHDRAW_ACTIVATION (R77). -/
def execWithdrawActivation (sess : Nat) (s : State) : Host.Outcome State Fault Refusal :=
  .next (asSlotSession sess .maintainer false (activateFn 0) s)

/-- A registration that is refused for want of level or key is recorded too (R76). -/
def keyCommand (sess v : Nat) (key : List Byte) (s : State) : State :=
  let s := { s with load := { s.load with keyWindow := key } }
  if sessRefusal s sess .commissioner true = rOk then asSlotSession sess .commissioner true (keyActionFn sess v) s
  else asSlotSession sess .commissioner true (keyActionFn sess v) (keyRec3 0x0403 v (fingerprint key) sess s)

/-- REGISTER_COMPOSE_KEY (R74). -/
def execRegisterComposeKey (sess : Nat) (key : List Byte) (s : State) : Host.Outcome State Fault Refusal :=
  .next (keyCommand sess 1 key s)

/-- REGISTER_VERIFY_KEY (R74). -/
def execRegisterVerifyKey (sess : Nat) (key : List Byte) (s : State) : Host.Outcome State Fault Refusal :=
  .next (keyCommand sess 2 key s)

/-- REMOVE_KEY (R74). -/
def execRemoveKey (sess : Nat) (finger : List Byte) (s : State) : Host.Outcome State Fault Refusal :=
  .next (keyCommand sess 3 finger s)

/-- PROGRAM_LOAD_OPEN (R303). -/
def execProgramLoadOpen (sess : Nat) (s : State) : Host.Outcome State Fault Refusal :=
  .next (asSlotSession sess .maintainer false (progOpenFn sess) s)

/-- PROGRAM_LOAD_WINDOW (R303). -/
def execProgramLoadWindow (sess : Nat) (data : List Byte) (s : State) : Host.Outcome State Fault Refusal :=
  .next (asSlotSession sess .maintainer false (windowFn (progWindowFn sess) data) s)

/-- PROGRAM_LOAD_END (R303). -/
def execProgramLoadEnd (sess : Nat) (s : State) : Host.Outcome State Fault Refusal :=
  .next (asSlotSession sess .maintainer false progEndFn s)

/-- PROGRAM_LOAD_ABANDON (R303). -/
def execProgramLoadAbandon (sess : Nat) (s : State) : Host.Outcome State Fault Refusal :=
  .next (asSlotSession sess .maintainer false progAbandonFn s)

/-- PROGRAM_LOAD_CHECKED (R303). -/
def execProgramLoadChecked (faulty : Three (Option LoadVerdict)) (s : State) : Host.Outcome State Fault Refusal :=
  .next (progChecked faulty s)

end Sys2Proof.Machine
end

