-- ==== Sys2Proof/Machine/Startup.lean ====
section
/-! DEFINITION. Restarts and start-up (R83 to R88, R221 to R224, R324, R603, R606 to R612): what a restart leaves of the
commons' state, the steps of Table 16.5, Failed-wake, the RESET edge and start-up confirmation. -/

namespace Sys2Proof.Machine

/-! ## Restart -/

/-- A load that a restart interrupts (R81). -/
def cutSlot (st : SlotState) : SlotState :=
  match st with
  | .receiving => .interrupted
  | .checking => .interrupted
  | st => st

/-- A lane powered off or held in reset, with what its NOR keeps. -/
def laneOff (k : Kernel) (x : LaneSt) : LaneSt :=
  { LaneSt.init with ls := .off, redclk := x.redclk, kernel := k, fwVersion := x.fwVersion, fwClass := x.fwClass, fwDigest := x.fwDigest }

/-- A star port without link that keeps its counters and a commanded closure. -/
def portDown (p : PortSt) : PortSt :=
  { PortSt.init with cmdClosed := p.cmdClosed, closed := p.cmdClosed, cuts := p.cuts, discarded := p.discarded,
                     valid := p.valid, envFail := p.envFail, delaySeq := p.delaySeq }

/-- A channel whose links all drop; a half in service listens. -/
def chanDown (up : Bool) (now : Nat) (c : ChanSt) : ChanSt :=
  { ChanSt.init with
    st := if up then .listening else .off, since := now, weak := c.weak, largest := c.largest
    ports := tabMap c.ports (fun _ p => portDown p) }

/-- Every link of both channels drops and the halves in service listen (R356, R372). -/
def busDown (s : State) : State :=
  { s with bus := { s.bus with
    chans := twoMap s.bus.chans (fun h c => chanDown (twoGet s.halves h).inServ s.ns c)
    pend := none, claims := [], spare := [], acks := [], tick := false } }

/-- A session's lane objects and counters end with it; settings of the commons outlive a restart, its other state does not. -/
def freshBus (b : BusSt) : BusSt :=
  { BusSt.init with
    etherType := b.etherSet, etherSet := b.etherSet, counter := b.counter, busNs := b.busNs, lCyc := b.lCyc, prec := b.prec,
    guardNs := b.guardNs, mode := b.mode, chans := twoMap b.chans (fun _ c => chanDown false 0 c) }

/-- The time base before a half takes the calendar clock; settings of Tables 12.7 and 12.8 stay. -/
def freshTime (t : TimeSt) : TimeSt :=
  { TimeSt.init with
    jump := t.jump, select := t.select, leap := t.leap
    ptp := { TimeSt.init.ptp with domain := t.ptp.domain, timeout := t.ptp.timeout }
    stamps := tabMap t.stamps (fun _ q => { q with entries := [], overflow := 0, evtDone := false }) }

/-- The cascade before its connections open; the board link and its paths are hardware that stays up. -/
def freshCasc (c : CascSt) : CascSt :=
  { CascSt.init with
    paths := triMap c.paths (fun _ p => { PathSt.init with link := p.link }), startCount := c.startCount, bl1 := c.bl1,
    bl2 := c.bl2, ring := c.ring, pos := c.pos, nmod := c.nmod, blAddrs := c.blAddrs, etherType := c.etherSet,
    etherSet := c.etherSet, maxAge := c.maxAge, clearAge := c.clearAge }

/-- The pair before its partner is heard. -/
def freshPair (p : PairLinkSt) : PairLinkSt :=
  { PairLinkSt.init with
    partnerAddr := p.partnerAddr, preferred := p.preferred, takeback := p.takeback, stabilityS := p.stabilityS,
    retainedEpoch := p.retainedEpoch }

/-- An update after a restart (R619): an unfinished transfer is discarded; a valid image and an install record stay. -/
def freshUpdate (u : UpdateSt) : UpdateSt :=
  let u := { u with buffer := [], bufOffset := 0, updating := false }
  if u.upd && !u.valid && u.phase = .idle then
    { u with upd := false, header := none, newArea := [], blockDigest := [], newVersion := 0, nextBlock := 0 }
  else u

/-- The commons after a restart of the module. -/
def freshCommons (s : State) : State :=
  { s with
    image := CycleImage.init, view := Kernel.init, halves := ⟨HalfSt.init, HalfSt.init⟩
    vote := { VoteSt.init with deadlinePct := s.vote.deadlinePct, n := s.vote.n, autoRejoin := s.vote.autoRejoin,
                               rejoinMax := s.vote.rejoinMax, lastExcl := s.vote.lastExcl }
    comm := CommSt.init, bus := freshBus s.bus, busImg := ⟨BusImage.init, BusImage.init⟩, env := []
    tres := ⟨TrestleSt.init, TrestleSt.init⟩, tx := ⟨TxSt.init, TxSt.init⟩
    lio := { LioSt.init with noDefaults := s.lio.noDefaults, resetLevel := s.lio.resetLevel, resetSince := s.lio.resetSince,
                             resetLowFrom := s.lio.resetLowFrom, resetLowNs := s.lio.resetLowNs, rstuck := s.lio.rstuck,
                             rcount := s.lio.rcount }
    time := freshTime s.time, casc := freshCasc s.casc, pair := freshPair s.pair
    bridge := { BridgeSt.init with access := s.bridge.access }
    datum := { DatumSt.init with addr := s.datum.addr, syncDriver := s.datum.syncDriver, downstream := s.datum.downstream }
    dict := { DictSt.init with sessions := tabMap s.dict.sessions (fun _ x => endSession x), net := s.dict.net, timeoutS := s.dict.timeoutS, lockN := s.dict.lockN, lockS := s.dict.lockS,
                               welong := s.dict.welong, creds := s.dict.creds, modAddrSet := s.dict.modAddrSet,
                               modAddr := s.dict.modAddr }
    ev := { s.ev with pend := 0#96, counts := [], aseq := 0 }
    test := { insts := [], outcome := 0, budget := s.test.budget, ist := ⟨⟨0, 0, false, 0, 0⟩, ⟨0, 0, false, 0, 0⟩, ⟨0, 0, false, 0, 0⟩⟩,
              halfOut := ⟨false, false⟩, quietLane := false }
    load := { s.load with slots := twoMap s.load.slots (fun _ x => { x with st := cutSlot x.st }), session := 0xFF,
                          keyWindow := [] }
    progLoad := { s.progLoad with slots := twoMap s.progLoad.slots (fun _ x => { x with st := cutSlot x.st }), session := 0xFF }
    upd := freshUpdate s.upd, queues := [] }

/-- The retained banks of the lanes as they stand. -/
def retainedNow (s : State) : Three (Option Kernel) := triMap s.lanes (fun _ x => some x.kernel)

/-- A restart of the module: the lanes stop, the commons start afresh, start-up step 1 comes next (R610). `cold` bars a
warm restart. DESIGN CHOICE, log 86 (unsafe). -/
def restartModule (cold : Bool) (s : State) : State :=
  let keep := s.power.retained
  let ret : Three (Option Kernel) :=
    if s.power.st = .run then retainedNow s else keep
  let t := freshCommons s
  { t with
    lanes := triMap s.lanes (fun _ x => laneOff x.kernel x)
    power := { s.power with
      st := .run, moving := none, wakeQ := false, collapsed := 0, step := 1, step7At := 0, confirmDue := false,
      confirmImg := none, confirmed := false, coldNext := s.power.coldNext || cold, startMiss := 0, domains := [],
      leavingFor := none, pfail := 0, retained := ret } }

/-! ## Failed-wake -/

/-- A wake domain (R606): 0 backup, 1 and 2 the halves, 3 to 5 the lanes. -/
def domainOf (s : State) (d : Nat) : Domain := tabGet s.power.domains d { step := 0, attempts := 0, alternate := false, failed := false }

/-- Detail of a FAILED-WAKE record (R608): step reached, attempts, oscillator of each domain. -/
def wakeDetail (s : State) : List Byte :=
  (List.range 6).flatMap (fun d =>
    let x := domainOf s d
    be 1 x.step ++ be 1 x.attempts ++ be 1 (b2n x.alternate))

/-- The Dormant schedule of a half (Table 9.14). -/
def dormantBus (s : State) : State :=
  { s with bus := { s.bus with dormant := true, busNs := 4000000, prec := 1000, guardNs := 1000, mode := 0 } }

/-- The figures of schedule mode 0. -/
def modeZero (s : State) : State :=
  let b := { s.bus with dormant := false, mode := 0 }
  match modeRec s 0 with
  | some m => { s with bus := putMode m b }
  | none => { s with bus := { b with busNs := 500000, lCyc := 20, prec := 500, guardNs := 500 } }

/-- Every lane off. -/
def lanesOff (s : State) : State := { s with lanes := triMap s.lanes (fun _ x => laneOff x.kernel x) }

/-- Nothing of the module is sent any more, and every local output is off. -/
def silence (s : State) : State :=
  { s with
    tx := ⟨TxSt.init, TxSt.init⟩
    halves := twoMap s.halves (fun _ x => { x with active := none, next := none })
    lio := { s.lio with locals := none, localNext := none, vos := tabMap s.lio.vos (fun _ v =>
      { v with cmd := false, permit := false, on := false, mid := false }) } }

/-- Failed-wake entered (R607, R608); event 66. -/
def enterFailedWake (s : State) : State :=
  let s := silence (lanesOff { s with power := { s.power with st := .failedWake, moving := none, step := 0, confirmed := false } })
  let s := raiseEv 66 noDetail (snapshot (chestWrite 7 0x20 0 (wakeDetail s) s))
  dormantBus (busDown s)

/-! ## The steps of Table 16.5 -/

/-- Step 1 (R480, R540): the module start count advances; the sessions are closed. -/
def stepOne (s : State) : State :=
  let n := (max s.power.keeperCount s.power.norCount + 1) % 2 ^ 32
  { s with
    casc := { s.casc with startCount := n }
    dict := { s.dict with sessions := tabMap s.dict.sessions (fun _ x => endSession x), startNs := s.ns }
    power := { s.power with keeperCount := n, norCount := n, step := 2 } }

/-- A half's clock set from the calendar clock (R446). -/
def calendarClock (tai : Nat) : HalfClock :=
  { HalfClock.init with tRef := (tai : Int) * secNs * 65536, anchor := (tai : Int) * secNs * 65536 }

/-- Step 2: both halves wake, take the calendar clock and listen for the bus (R356, R446); the module address of R7's
setting comes into force. -/
def stepTwo (calendar : Nat) (s : State) : State :=
  let up (h : Half) : Bool := !(domainOf s (halfNo h + 1)).failed
  let half (h : Half) : HalfSt := if up h then { HalfSt.init with inServ := true } else { HalfSt.init with reason := 7 }
  let s := { s with
    halves := ⟨half .a, half .b⟩, tx := ⟨TxSt.init, TxSt.init⟩
    dict := { s.dict with modAddr := s.dict.modAddrSet }
    time := { s.time with halves := ⟨calendarClock calendar, calendarClock calendar⟩, src := 3, valid := false } }
  busDown s

/-- Step 3 at one half: voter trials (R221, R222), comparator sets (R223), Trestle vectors (R276). DESIGN CHOICE, log 87
(safe). DESIGN CHOICE, log 87 (safe). -/
def stepThree (i : StartIn) (h : Half) (s : State) : State :=
  let v := twoGet i.voter h
  let good := v.1 = 0
  if !(twoGet s.halves h).inServ then s
  else
    let s := { s with
      halves := twoMod s.halves h (fun x => { x with
        injFail := sat 48 v.1, firstFail := if good then 0 else v.2, injPass := good, voter := good, cmpVec := twoGet i.cmp h
        flagged := !twoGet i.cmp h })
      tres := twoMod s.tres h (fun t => { t with vecPass := (twoGet i.vec h).isNone }) }
    let s := if twoGet i.cmp h then s else raiseEv 9 (halfNo h) s
    let s := if good then s else raiseEv 8 (halfNo h) (disableHalf h causeVoter 2 (be 1 v.2) s)
    match twoGet i.vec h with
    | none => s
    | some w =>
      let s := { s with tres := twoMod s.tres h (fun t => { t with failVec := w.1, failWalk := w.2 }) }
      disableHalf h 1 5 (be 1 w.1 ++ be 1 w.2) s

/-- The pending slot becomes the active one (R83); a different active slot bars a warm restart (R84). DESIGN CHOICE, log 20
(unsafe). DESIGN CHOICE, log 20 (unsafe). -/
def activatePending (s : State) : State :=
  match slotIn s .pending with
  | none => s
  | some h =>
    let was := (slotIn s .active)
    let s := match was with | some o => modSlot o (fun x => { x with st := .valid }) s | none => s
    let s := modSlot h (fun x => { x with st := .active }) s
    { s with power := { s.power with coldNext := true } }

/-- The program of the active program slot, if any. -/
def slotProgram (s : State) : Option Program := s.progLoad.active.bind (fun h => (twoGet s.progLoad.slots h).parsed)

/-- A lane's state from station-data and program defaults (R88, Table 8.6). -/
def defaultKernel (s : State) : Kernel :=
  let p := slotProgram s
  let q : ProgSt := { ProgSt.init with prog := p, vars := (p.map (·.vars)).getD [], blocks := (p.map (·.blocks)).getD [] }
  (coldRun (kenv s) (imgAdd s.imageNo 1) { k := { Kernel.init with prog := q }, recs := [], evs := [], reserves := [] }).k

/-- The lanes whose firmware boots: of those whose domain woke (R607), with a good signature or rewritten from the area an
install record names (R624). -/
def bootLane (i : StartIn) (l : Lane) (s : State) : State :=
  let s := restoreClock l s
  if (domainOf s (laneNo l + 3)).failed then
    { s with lanes := triMod s.lanes l (fun x => { x with ls := .held }) }
  else if triGet i.fw l then
    { s with lanes := triMod s.lanes l (fun x => { x with
        ls := .inVote, line := ⟨s.halves.a.inServ, s.halves.b.inServ⟩, progress := 0xFF }) }
  else if s.upd.phase ≠ .idle && s.upd.lane = laneNo l then
    let back := s.upd.phase = .rollingBack
    { s with lanes := triMod s.lanes l (fun x => { x with
        ls := .inVote, line := ⟨s.halves.a.inServ, s.halves.b.inServ⟩, progress := 0xFF
        fwVersion := if back then s.upd.fallback else s.upd.newVersion
        fwClass := if back then s.upd.fallClass else ((s.upd.header).map (·.cclass)).getD x.fwClass
        fwDigest := if back then s.upd.fallDigest else ((s.upd.header).map (·.digest)).getD x.fwDigest }) }
  else dropLane l 0x0A 0xFF [] s

/-- The module has no usable station data (R87): no active slot, a format class its firmware lacks, or fewer than two lanes
whose check passed. -/
def noStation (i : StartIn) (s : State) : Bool :=
  match activeSlot s with
  | none => true
  | some x => !s.load.fmtClasses.contains (readHead x.bytes).cclass ||
      ((lanesInVote s).filter (fun l => triGet i.data l)).length < 2

/-- Lanes whose retained banks are valid and carry one image number common to two of them (R323, R324). -/
def bankLanes (i : StartIn) (s : State) : List Lane :=
  let ok := (lanesInVote s).filter (fun l => triGet i.banks l && (triGet s.power.retained l).isSome)
  let same (l : Lane) : List Lane := ok.filter (fun k => triGet s.progLoad.bankImage k = triGet s.progLoad.bankImage l)
  match ok.find? (fun l => 2 ≤ (same l).length) with
  | some l => same l
  | none => []

/-- Settings back at their defaults but for the identity set (R625). -/
def resetSettings (cls : Nat) (s : State) : State :=
  let r := State.reset
  let old := s.upd.settingsClass
  raiseRec 94 cls 0 3 0xFFFF (be 2 old ++ be 2 cls) { s with
    vote := { s.vote with deadlinePct := r.vote.deadlinePct, n := r.vote.n, autoRejoin := r.vote.autoRejoin, rejoinMax := r.vote.rejoinMax }
    set := r.set, bus := { s.bus with etherSet := r.bus.etherSet }
    lio := { s.lio with noDefaults := r.lio.noDefaults }
    time := { s.time with jump := r.time.jump, select := r.time.select, leap := r.time.leap
                          ptp := { s.time.ptp with domain := r.time.ptp.domain, timeout := r.time.ptp.timeout }, stamps := [] }
    casc := { s.casc with etherSet := r.casc.etherSet, maxAge := r.casc.maxAge, clearAge := r.casc.clearAge }
    pair := { s.pair with takeback := r.pair.takeback, stabilityS := r.pair.stabilityS }
    bridge := { s.bridge with access := r.bridge.access }
    dict := { s.dict with timeoutS := r.dict.timeoutS, lockN := r.dict.lockN, lockS := r.dict.lockS, welong := r.dict.welong }
    ev := { s.ev with enable := r.ev.enable }, test := { s.test with budget := r.test.budget }
    age := { s.age with warn := r.age.warn, threshold := r.age.threshold }
    power := { s.power with holdS := r.power.holdS, wakeTime := r.power.wakeTime, bankMask := r.power.bankMask,
                            votes := s.power.votes.set 0 0 }
    progLoad := { s.progLoad with faultStop := r.progLoad.faultStop, switchLead := r.progLoad.switchLead }
    upd := { s.upd with settingsClass := cls } }

/-- Step 4: lanes boot, station data becomes active and is checked, the lanes load their state (R83 to R87, R610), the halves
load and compare the Trestle graph (R69, R258). DESIGN CHOICE, log 87 (safe). DESIGN CHOICE, log 89 (unsafe). -/
def stepFour (i : StartIn) (s : State) : State :=
  let s := allLanes.foldl (fun s l => bootLane i l s) s
  let s := if s.upd.runSettings = s.upd.settingsClass then s else resetSettings s.upd.runSettings s
  let s := activatePending s
  let none_ := noStation i s
  let bad := (lanesInVote s).filter (fun l => !triGet i.data l)
  let s := if none_ then raiseEv 88 noDetail s else bad.foldl (fun s l => dropLane l 0x0B 0xFF [] s) s
  let st := if none_ then Station.none else ((activeSlot s).map (·.parsed)).getD Station.none
  let s := modeZero { s with cfg := st, power := { s.power with unconfigured := none_ } }
  let banks := bankLanes i s
  let warm := !s.power.coldNext && banks.length ≥ 2
  let d := defaultKernel s
  let s := { s with lanes := triMap s.lanes (fun l x =>
    { x with kernel := if banks.contains l then (triGet s.power.retained l).getD d else d }) }
  let s := if warm then ((lanesInVote s).filter (fun l => !banks.contains l)).foldl (fun s l => dropLane l 0x05 0xFF [] s) s else s
  let s := { s with power := { s.power with coldNext := !warm, step := 5, startMiss := 0 }, vote := { s.vote with matchAny := none } }
  let crc := crcOf crc64 (Config.graphBytes s.cfg)
  let s := (if none_ then [] else allHalves).foldl (fun s h =>
    if !(twoGet s.halves h).inServ then s
    else
      let s := { s with tres := twoMod s.tres h (fun t => { t with lock := true, graphCheck := crc }) }
      if twoGet i.graph h then s else disableHalf h 5 halfDisabled [] s) s
  if (lanesInVote s).length < 2 then enterRestrictive s else s

/-- The restart choice (R324, R603): the module's state kept, or replaced by defaults. -/
def restartChoice (warm : Bool) (s : State) : State :=
  let s := if warm then warmRestart s else coldRestart s
  { s with
    dict := { s.dict with warm := warm }
    power := { s.power with step := 6, startMiss := 0, coldNext := false, confirmed := false
                            votes := if warm then s.power.votes else s.power.votes.set 3 0xFF }
    vote := { s.vote with matchAny := none } }

/-- START_UP_STEP (R610): the step under way completes and the next begins. -/
def startUpStep (i : StartIn) (s : State) : State :=
  if s.power.pfail ≠ 0 || s.power.st = .failedWake || s.power.st = .off || s.vote.restrictive then s
  else match s.power.step with
    | 1 => if s.power.bankCharged then stepOne s else s
    | 2 =>
      let s := stepTwo i.calendar s
      if halvesUp s = [] then enterFailedWake s
      else if s.power.moving = some .dormant then dormantBus { s with power := { s.power with step := 0 } }
      else { s with power := { s.power with step := 3 } }
    | 3 =>
      let s := stepThree i .b (stepThree i .a s)
      if halvesUp s = [] then enterFailedWake s else { s with power := { s.power with step := 4 } }
    | 4 => stepFour i s
    | 5 => if s.vote.matchAny.isSome then restartChoice (!s.power.coldNext) s else s
    | 6 =>
      if s.vote.matchAny.isNone then s
      else if s.power.moving = some .quiet then { s with power := { s.power with step := 0 } }
      else awaitConfirmation s
    | _ => s

/-- START_UP_STEP (R610). -/
def execStartUpStep (i : StartIn) (s : State) : Host.Outcome State Fault Refusal := .next (startUpStep i s)

/-! ## Wake steps -/

/-- Attempts of one wake step: the first and three retries (R606). -/
def wakeAttempts : Nat := 4

/-- What a domain that failed every attempt costs (R607). DESIGN CHOICE, log 87 (safe). -/
def domainFailed (d : Nat) (s : State) : State :=
  let s := { s with power := { s.power with lastWake := d * 2 ^ 24 + wakeAttempts * 2 ^ 16 } }
  let halvesFailed := (domainOf s 1).failed && (domainOf s 2).failed
  let lanesFailed := ((List.range 3).filter (fun n => (domainOf s (n + 3)).failed)).length
  if d = 0 || halvesFailed || 2 ≤ lanesFailed then enterFailedWake s
  else if d = 1 then disableHalf .a 7 halfDisabled [] s
  else if d = 2 then disableHalf .b 7 halfDisabled [] s
  else match laneOf? (d - 3) with
    | some l => { s with lanes := triMod s.lanes l (fun x => { x with ls := .held, line := ⟨false, false⟩ }) }
    | none => s

/-- A domain wakes only in its own start-up step, or again on a lane's return (R607, R610). -/
def domainWaking (s : State) (d : Nat) : Bool :=
  s.power.pfail = 0 && s.power.st ≠ .failedWake && s.power.st ≠ .off &&
  ((d = 0 && s.power.step = 1) || ((d = 1 || d = 2) && s.power.step = 2) ||
    (3 ≤ d && d ≤ 5 && (s.power.step = 4 || (laneOf? (d - 3)).any (fun l => (triGet s.lanes l).ls = .booting))))

/-- WAKE_STEP_TIMEOUT (R606): step 1 (regulator) or 2 (oscillator and PLL) of a domain timed out; the next attempt uses the
alternate oscillator, event 66; after the last the domain has failed. -/
def wakeTimeout (d stp : Nat) (s : State) : State :=
  let x := domainOf s d
  if !domainWaking s d || x.failed || stp = 0 || 2 < stp then s
  else
    let n := x.attempts + 1
    let y : Domain := { step := stp, attempts := n, alternate := x.alternate || n < wakeAttempts, failed := wakeAttempts ≤ n }
    let s := { s with power := { s.power with domains := tabPut s.power.domains d y } }
    if n < wakeAttempts then raiseEv 66 d s else domainFailed d s

/-- WAKE_STEP_TIMEOUT (R606). -/
def execWakeStepTimeout (d stp : Nat) (s : State) : Host.Outcome State Fault Refusal := .next (wakeTimeout d stp s)

/-- A new wake sequence from Failed-wake, with the attempt counts reset (R609); its restart is cold: the lanes' banks were
powered off. -/
def newWake (s : State) : State := if s.power.st = .failedWake then restartModule true s else s

/-- Wake retry (object 0x8004 sub 1). -/
def wakeRetryFn (v : Nat) (s : State) : State × Nat × List Byte :=
  if v ≠ 1 then (s, rRange, [])
  else if s.power.st ≠ .failedWake then (s, rFunction, be 2 0xB016)
  else (newWake s, rOk, [])

/-- WAKE_RETRY (R609). -/
def execWakeRetry (sess v : Nat) (s : State) : Host.Outcome State Fault Refusal :=
  .next (asSession sess .maintainer false (wakeRetryFn v) s)

/-! ## Confirmation -/

/-- Start-up confirmation given (R611): it enters the cycle input image of the next tick. -/
def giveConfirm (src : Nat) (s : State) : State :=
  { s with power := { s.power with confirmDue := true, confirmSrc := src } }

/-- Start-up confirmation written (object 0x8010 sub 1). -/
def confirmFn (v : Nat) (s : State) : State × Nat × List Byte :=
  let out (c : Nat) (s : State) : State := { s with power := { s.power with confirmOutcome := c } }
  if v ≠ 0xA5 then (s, rRange, [])
  else if s.power.step ≠ 7 || s.power.st ≠ .run then (out 0xB015 s, rFunction, be 2 0xB015)
  else (giveConfirm 2 (out 0 s), rOk, [])

/-- START_UP_CONFIRMATION (R611). -/
def execStartUpConfirmation (sess v : Nat) (s : State) : Host.Outcome State Fault Refusal :=
  .next (asSession sess .maintainer false (confirmFn v) s)

/-- Shortest low and high of an accepted RESET edge (R434). -/
def resetLowMin : Nat := 100000000
def resetHighMin : Nat := 20000000

/-- Effect of an accepted edge by MODE (Table 11.7): 0 none, 1 confirmation, 2 cold restart, 3 a new wake sequence. -/
def resetEffect (s : State) : Nat :=
  let m := modeOf s
  if m = 5 && s.power.step = 7 && s.power.step7At ≤ s.lio.resetLowFrom then 1
  else if m = 4 then 2
  else if m = 7 then 3
  else 0

/-- RESET_EDGE (R434): RESET has stood high for 20 ms after a low period of at least 100 ms. DESIGN CHOICE, log 51 (unsafe). -/
def resetEdge (s : State) : State :=
  let x := s.lio
  if !x.resetLevel || s.ns < x.resetSince + resetHighMin || x.resetLowNs < resetLowMin then s
  else
    let e := resetEffect s
    let data := be 1 (modeOf s) ++ be 1 e
    let s := { s with lio := { x with resetLowNs := 0, rcount := (x.rcount + 1) % 65536 } }
    let s := if e = 0 then raiseRec 39 noDetail 0 3 0xFFFF data s else record 2 0xFF e 3 0xFFFF data s
    if e = 1 then giveConfirm 1 s else if e = 2 then restartModule true s else if e = 3 then restartModule true s else s

/-- RESET_EDGE (R434). -/
def execResetEdge (s : State) : Host.Outcome State Fault Refusal := .next (resetEdge s)

end Sys2Proof.Machine
end

