-- ==== Sys2Proof/Machine/PowerRows.lean ====
section
/-! DEFINITION. Power votes, wake requests and transitions (R598 to R605), the supplies and the hold-up bank (R575, R576,
R631 to R636), and faults of a half's or a lane's supply (R40, R654). -/

namespace Sys2Proof.Machine

/-! ## Votes -/

/-- Code of a power state (Table 16.1); 5 Failed-wake (Table 16.11). -/
def pwCode : PwState → Nat
  | .run => 0
  | .quiet => 1
  | .dormant => 2
  | .standby => 3
  | .off => 4
  | .failedWake => 5

/-- The power state of a code. -/
def pwOf (n : Nat) : PwState := if n = 0 then .run else if n = 1 then .quiet else if n = 2 then .dormant else .standby

/-- The target (R599): the lowest vote not withdrawn, Standby when every vote is. -/
def powerTarget (votes : List Nat) : Nat := (votes.filter (· ≠ 0xFF)).foldl min 3

/-- The state left while a transition to a shallower state runs, else the state itself. -/
def stateShown (p : PowerSt) : Nat :=
  match p.st, p.moving with
  | .run, some .run => 1
  | .run, some .quiet => if 3 ≤ p.step && p.step ≤ 6 then 2 else 0
  | st, _ => pwCode st

/-- Power state word (Table 16.11). -/
def powerWord (s : State) : Nat :=
  let p := s.power
  let t := powerTarget p.votes
  stateShown p * 2 ^ 29 + t * 2 ^ 26 + b2n p.moving.isSome * 2 ^ 25 + b2n p.wakeQ * 2 ^ 24 +
  ((List.range 5).foldl (fun a i => a + b2n (p.votes.getD i 0xFF = t) * 2 ^ i) 0) * 2 ^ 16 + sat 255 p.collapsed * 2 ^ 8

/-- A request while a transition runs (R604): it collapses into the latest; event 65. DESIGN CHOICE, log 85 (unsafe). -/
def collapse (s : State) : State :=
  if s.power.moving.isSome then
    raiseEv 65 noDetail { s with power := { s.power with collapsed := sat 255 (s.power.collapsed + 1) } }
  else s

/-- A client's vote set. DESIGN CHOICE, log 85 (unsafe). -/
def setVote (i v : Nat) (s : State) : State :=
  collapse { s with power := { s.power with votes := s.power.votes.set i v } }

/-- A power vote written (R599): sub 1 by a session, subs 2 and 3 only by a PROXY request of the module that object 0x2601 or
0x2600 names. -/
def voteFn (origin : Option Nat) (sub v : Nat) (s : State) : State × Nat × List Byte :=
  let named (a : Nat) : Bool := a ≠ 0xFFFF && origin = some a
  if sub = 4 || sub = 5 then (s, rAccess, [])
  else if sub = 0 || 5 < sub then (s, rUnknown, [])
  else if (sub = 2 && !named s.datum.addr) || (sub = 3 && !named s.pair.partnerAddr) then (s, rLevel, [])
  else if 3 < v && v ≠ 0xFF then (s, rRange, [])
  else (setVote (sub - 1) v s, rOk, be 1 v)

/-- POWER_VOTE (R599): by a local session, or through a PROXY request whose origin and outer level are given. -/
def execPowerVote (sess : Nat) (origin : Option (Nat × Level)) (sub v : Nat) (s : State) : Host.Outcome State Fault Refusal :=
  .next (match origin with
    | none => asSession sess .operator false (voteFn none sub v) s
    | some o => asProxy o.2 .operator false (voteFn (some o.1) sub v) s)

/-- A module that wakes drives WAKE# low for 10 ms (R529); it ignores the wire's edges then and for 20 ms more (R649). -/
def wakeDeafNs : Nat := 30000000

/-- A wake request (R600, R604): the WAKE vote goes to Run for the hold time; on the way to a deeper state it is remembered.
DESIGN CHOICE, log 87 (safe). -/
def wake (s : State) : State :=
  let p := s.power
  let deeper := match p.moving with | some m => pwCode p.st < pwCode m && !(p.step ≠ 0 && p.step ≠ 7) | none => false
  let s := { s with power := { p with votes := p.votes.set 4 0, wakeUntil := some (s.ns + p.holdS * secNs),
                                      wakeQ := p.wakeQ || deeper } }
  if deeper then raiseEv 65 noDetail s else s

/-- WAKE_REQUEST (R600): a falling edge on WAKE# held low, or the calendar clock reaching the wake time; `cal` is the
calendar's TAI second in the second case. -/
def wakeRequest (cal : Option Nat) (s : State) : State :=
  if s.power.st = .off || s.power.pfail ≠ 0 || s.power.st = .failedWake then s
  else match cal with
    | some t => if s.power.wakeTime ≠ 0 && s.power.wakeTime ≤ t then
        wake { s with power := { s.power with calendar := max s.power.calendar t, wakeTime := 0 } } else s
    | none => if s.ns < s.power.wakeDrive then s else wake s

/-- WAKE_REQUEST (R600). -/
def execWakeRequest (cal : Option Nat) (s : State) : Host.Outcome State Fault Refusal := .next (wakeRequest cal s)

/-- WAKE_HOLD_EXPIRY (R599): the WAKE vote is withdrawn after the hold time. -/
def wakeHoldExpiry (s : State) : State :=
  match s.power.wakeUntil with
  | some t =>
    if t ≤ s.ns then
      collapse { s with power := { s.power with wakeUntil := none, votes := s.power.votes.set 4 0xFF } }
    else s
  | none => s

/-- WAKE_HOLD_EXPIRY (R599). -/
def execWakeHoldExpiry (s : State) : Host.Outcome State Fault Refusal := .next (wakeHoldExpiry s)

/-- WAKE (R373): a WAKE frame of node 1 or 2 in the claim slot of the Dormant schedule; event 29. -/
def wakeFrame (h : Half) (port : Nat) (f : Frame) (s : State) : State :=
  if !s.bus.dormant || s.power.st ≠ .dormant || 2 ≤ port || !chanUp s h || !portLive s h port then s
  else if frameOk s port f 0x15 11 s.bus.counter 4 (f.flags < 2) && f.body.length = 4 && field f.body 0 4 = 0 then
    wake (raiseEv 29 port s)
  else discard h port s

/-- WAKE (R373). -/
def execWakeFrame (h : Half) (port : Nat) (f : Frame) (s : State) : Host.Outcome State Fault Refusal :=
  .next (wakeFrame h port f s)

/-! ## Transitions -/

/-- A warm restart is possible on leaving Quiet (R324, R603): the lanes kept their state, and no self-test slice ran. -/
def quietWarm (s : State) : Bool := !s.test.quietLane && !s.power.coldNext && 2 ≤ (lanesInVote s).length

/-- Run to Quiet (Table 16.3): the image under way is the last, its voted blocks are discarded; what R310 and R369 abort. -/
def leaveRun (s : State) : State :=
  let s := abortModeSwitch (abortChange 0x5105 s)
  { s with
    halves := twoMap s.halves (fun _ x => { x with next := none }), lio := { s.lio with localNext := none }
    power := { s.power with moving := some .quiet, transAt := s.ns, leavingFor := none } }

/-- An active module of a pair leaves Run only after handing over to a ready partner (R601). -/
def leaveActive (s : State) : State :=
  match s.power.leavingFor with
  | some h =>
    if s.pair.role = .active && s.pair.h.isSome && !imgReached s.imageNo h then s
    else if s.pair.role = .active && s.pair.h.isSome then s
    else if imgReached s.imageNo h || s.pair.role = .active then leaveRun s
    else s
  | none =>
    if s.pair.role = .active && s.pair.formed && s.pair.partner.heard && s.pair.partner.ready && !handoverBusy s &&
        modeOf s = 0 then
      let s := decideHandover false s
      { s with power := { s.power with leavingFor := s.pair.h } }
    else if s.pair.role = .active && s.pair.h.isSome then s
    else leaveRun s

/-- Isolation of self-tests in Quiet ends (R582), but for halves taken out. -/
def endQuietTests (s : State) : State :=
  abortTests (fun i => i < 3 || (i = 3 && !s.test.halfOut.a) || (i = 4 && !s.test.halfOut.b)) s

/-- The step from a state to its neighbour begins (Table 16.3). DESIGN CHOICE, log 86 (unsafe). -/
def beginMove (toward : PwState) (s : State) : State :=
  let go (s : State) : State := { s with power := { s.power with moving := some toward, transAt := s.ns } }
  let up (s : State) : State := { s with power := { s.power with wakeDrive := s.ns + wakeDeafNs } }
  match s.power.st, toward with
  | .run, _ => leaveActive s
  | .quiet, .run =>
    if s.vote.restrictive then restartModule true s
    else
    let warm := quietWarm s
    let s := restartChoice warm (go (endQuietTests s))
    { s with power := { s.power with st := .run } }
  | .dormant, .quiet =>
    let s := raiseEv 29 noDetail (modeZero (busDown (up (go s))))
    let cold := s.power.coldNext || s.power.bankMask ≠ 0xFF || s.vote.restrictive
    { s with
      tres := ⟨TrestleSt.init, TrestleSt.init⟩, vote := { s.vote with restrictive := false }
      power := { s.power with st := .run, step := 3, confirmed := false, coldNext := cold } }
  | .standby, .dormant =>
    let s := up (go s)
    { s with power := { s.power with step := 1, coldNext := true } }
  | _, _ => go (endQuietTests s)

/-- The neighbour of a state towards the target. -/
def nextState (st : PwState) (target : Nat) : PwState :=
  if pwCode st < target then pwOf (pwCode st + 1) else pwOf (pwCode st - 1)

/-- A power state that transitions leave or enter. -/
def inLadder (st : PwState) : Bool := st ≠ .off && st ≠ .failedWake

/-- A transition towards the target begins, when none runs and start-up does not wait for another step (R602). -/
def moveOn (s : State) : State :=
  let p := s.power
  let t := powerTarget p.votes
  if p.moving.isSome || p.pfail ≠ 0 || !inLadder p.st || (p.step ≠ 0 && p.step ≠ 7) || t = pwCode p.st ||
      s.upd.updating then s
  else beginMove (nextState p.st t) s

/-- TRANSITION_START (R602): at the first tick after the target changed, or at once when no lane runs images. -/
def execTransitionStart (s : State) : Host.Outcome State Fault Refusal := .next (moveOn s)

/-- The work of the transition under way is done. DESIGN CHOICE, log 86 (unsafe). -/
def moveDone (s : State) : Bool :=
  match s.power.moving with
  | some .quiet => if leavingRun s then verdictDone s || (lanesInVote s).isEmpty || s.imageNo = 0 else s.power.step = 0
  | some .dormant => s.power.st = .quiet || s.power.step = 0
  | some .standby => true
  | some .run => s.power.step = 0
  | _ => false

/-- The state reached (Table 16.3). -/
def arrive (toward : PwState) (s : State) : State :=
  let to_ (s : State) : State := { s with power := { s.power with st := toward, moving := none } }
  match toward with
  | .quiet => to_ { s with
      test := { s.test with quietLane := false }
      power := { s.power with step := 0, confirmed := false, retained := retainedNow s } }
  | .dormant =>
    let ret : Three (Option Kernel) := if s.power.bankMask = 0xFF then s.power.retained else ⟨none, none, none⟩
    let ep := if bit s.power.bankMask 0 then s.pair.retainedEpoch else 0
    let s := if s.power.st = .standby then s else lanesOff (silence s)
    let s := { s with
      tres := ⟨TrestleSt.init, TrestleSt.init⟩, pair := { s.pair with retainedEpoch := ep }
      power := { s.power with retained := ret, coldNext := s.power.coldNext || s.power.bankMask ≠ 0xFF } }
    to_ (raiseEv 29 noDetail (dormantBus (busDown s)))
  | .standby =>
    let s := silence { s with
      halves := ⟨HalfSt.init, HalfSt.init⟩, pair := { s.pair with retainedEpoch := 0 }
      power := { s.power with calendar := moduleNs s / secNs, votes := s.power.votes.set 4 0xFF, wakeUntil := none,
                              retained := ⟨none, none, none⟩, coldNext := true } }
    to_ { busDown s with dict := { s.dict with sessions := tabMap s.dict.sessions (fun _ x => endSession x) } }
  | _ => to_ s

/-- TRANSITION_COMPLETE (R604): event 64; the module moves on towards the target as it now stands. DESIGN CHOICE, log 86
(unsafe). DESIGN CHOICE, log 86 (unsafe). -/
def transitionComplete (s : State) : State :=
  match s.power.moving with
  | none => s
  | some toward =>
    if !moveDone s || s.power.pfail ≠ 0 then s
    else
      let s := raiseEv 64 (pwCode toward) (arrive toward s)
      moveOn { s with power := { s.power with collapsed := 0, wakeQ := false } }

/-- TRANSITION_COMPLETE (R604). -/
def execTransitionComplete (s : State) : Host.Outcome State Fault Refusal := .next (transitionComplete s)

/-! ## Supplies -/

/-- Voltage below which an input counts as lost, and below which both faults the outputs (Table 17.3), in mV. -/
def supplyMin : Int := 16800

/-- One of the two supply inputs. -/
def supplyOf (s : State) (n : Nat) : SupplyIn := if n = 2 then s.supply.pwr2 else s.supply.pwr1

/-- A supply input changed. -/
def modSupply (n : Nat) (f : SupplyIn → SupplyIn) (s : State) : State :=
  if n = 2 then { s with supply := { s.supply with pwr2 := f s.supply.pwr2 } }
  else if n = 1 then { s with supply := { s.supply with pwr1 := f s.supply.pwr1 } }
  else s

/-- An input below the minimum, or disconnected. -/
def supplyLow (x : SupplyIn) : Bool := x.disconnected || x.millivolt < supplyMin

/-- Both inputs below 16.8 V: every local vital output takes the SUPPLY fault (Table 11.6). -/
def supplyFaults (s : State) : State :=
  if supplyLow s.supply.pwr1 && supplyLow s.supply.pwr2 then
    (s.cfg.localOuts.map (·.num)).foldl (fun s n => if (voOf s n).ocode = .supply then s else outputFault n .supply s) s
  else s

/-- An input counted lost; event 67. -/
def loseSupply (n : Nat) (f : SupplyIn → SupplyIn) (s : State) : State :=
  let was := (supplyOf s n).lost
  let s := modSupply n (fun x => { f x with lost := true, over32 := false }) s
  supplyFaults (if was then s else raiseEv 67 n s)

/-- SUPPLY_LOST (R632): input `n` has stayed at `mv` below 16.8 V for 1 ms. -/
def supplyLostRow (n : Nat) (mv : Int) (s : State) : State :=
  if n = 0 || 2 < n || supplyMin ≤ mv then s
  else loseSupply n (fun x => { x with millivolt := mv, disconnected := x.disconnected || mv < -500 }) s

/-- SUPPLY_LOST (R632). -/
def execSupplyLost (n : Nat) (mv : Int) (s : State) : Host.Outcome State Fault Refusal := .next (supplyLostRow n mv s)

/-- SUPPLY_OVERVOLTAGE (R631): above 34 V the input is disconnected and lost. -/
def execSupplyOvervoltage (n : Nat) (mv : Int) (s : State) : Host.Outcome State Fault Refusal :=
  .next (if n = 0 || 2 < n || mv ≤ 34000 then s
    else loseSupply n (fun x => { x with millivolt := mv, disconnected := true }) s)

/-- SUPPLY_ENTERS_32_V_BAND (R631): event 67 at each entry. -/
def execSupplyEnters32VBand (n : Nat) (mv : Int) (s : State) : Host.Outcome State Fault Refusal :=
  .next (if n = 0 || 2 < n || mv ≤ 32000 || 34000 < mv || (supplyOf s n).over32 then s
    else raiseEv 67 n (modSupply n (fun x => { x with millivolt := mv, over32 := true }) s))

/-- What the keeper registers hold after a time without supply and cell is lost: the votes take their defaults (R600). -/
def losePowerKeepers (s : State) : State :=
  if s.power.banksLost then
    { s with power := { s.power with votes := [0, 0xFF, 0xFF, 0xFF, 0xFF], wakeTime := 0, keeperCount := 0, banksLost := false } }
  else s

/-- SUPPLY_RETURNED (R632): from 16.8 V to 33 V for 100 ms; an input disconnected for overvoltage is reconnected; event 67.
In Off it is a wake request (R600); after a power-fail write it lets start-up begin; from Failed-wake, both having been
lost, it starts a new wake sequence (R609). -/
def supplyReturnedRow (n : Nat) (mv : Int) (s : State) : State :=
  if n = 0 || 2 < n || mv < supplyMin || 33000 < mv || !(supplyOf s n).lost then s
  else
    let both := s.supply.pwr1.lost && s.supply.pwr2.lost
    let s := modSupply n (fun x => { x with millivolt := mv, lost := false, disconnected := false, over32 := 32000 < mv }) s
    raiseEv 67 n (if s.power.st = .off then
      let s := losePowerKeepers (restartModule true s)
      wake { s with power := { s.power with bankCharged := false, retained := ⟨none, none, none⟩ } }
    else if s.power.pfail = 2 then
      let t := restartModule true s
      { t with power := { t.power with bankCharged := false, retained := ⟨none, none, none⟩ } }
    else if s.power.st = .failedWake && both then
      let t := restartModule true s
      { t with power := { t.power with bankCharged := false } }
    else s)

/-- SUPPLY_RETURNED (R632). -/
def execSupplyReturned (n : Nat) (mv : Int) (s : State) : Host.Outcome State Fault Refusal := .next (supplyReturnedRow n mv s)

/-- HOLD_UP_BANK_CHARGED (R634): start-up step 1 may begin. -/
def execHoldUpBankCharged (s : State) : Host.Outcome State Fault Refusal :=
  .next (if s.supply.pwr1.lost && s.supply.pwr2.lost then s else { s with power := { s.power with bankCharged := true } })

/-- POWER_FAIL (R575): both inputs, at `mv1` and `mv2`, have stayed below the power-fail threshold for 50 µs. Nothing more is
sent, no image is latched, every local output is off; the Chest takes its record, the counter records and the snapshot. -/
def powerFail (mv1 mv2 : Int) (s : State) : State :=
  let under (mv : Int) : Bool := mv < (s.age.threshold : Int)
  if s.power.pfail ≠ 0 || s.power.st = .off || !under mv1 || !under mv2 then s
  else
    let put (mv : Int) (x : SupplyIn) : SupplyIn := { x with millivolt := mv }
    let s := silence { s with supply := { s.supply with pwr1 := put mv1 s.supply.pwr1, pwr2 := put mv2 s.supply.pwr2 } }
    let s := { s with
      power := { s.power with pfail := 1, retained := if s.power.st = .run then retainedNow s else s.power.retained }
      chest := { s.chest with counters := twoMap s.chest.counters (fun h c =>
        if chanUp s h && (twoGet s.halves h).inServ then max c s.bus.counter else c) } }
    snapshot (chestWrite 8 0x20 0 [] s)

/-- POWER_FAIL (R575). -/
def execPowerFail (mv1 mv2 : Int) (s : State) : Host.Outcome State Fault Refusal := .next (powerFail mv1 mv2 s)

/-- POWER_FAIL_WRITE_DONE (R576): the write is complete. With the supply recovered the module restarts; else it is without
power: the lanes' banks and the Field book's buffer are lost, and with no cell the keeper registers too. -/
def powerFailDone (recovered : Bool) (s : State) : State :=
  if s.power.pfail ≠ 1 then s
  else if recovered then
    let ret := s.power.retained
    let t := restartModule false s
    { t with power := { t.power with retained := ret } }
  else
    let lost := (s.book.buf.filter (fun r => r.type ≠ 4)).length
    { s with
      book := { s.book with buf := [], lost := s.book.lost + lost, lostNew := s.book.lostNew + lost }
      pair := { s.pair with retainedEpoch := 0 }
      power := { s.power with
        pfail := 2, retained := ⟨none, none, none⟩, coldNext := true, bankCharged := false, moving := none
        st := if s.supply.cellMissing then .off else s.power.st, banksLost := s.power.banksLost || s.supply.cellMissing } }

/-- POWER_FAIL_WRITE_DONE (R576). -/
def execPowerFailWriteDone (recovered : Bool) (s : State) : Host.Outcome State Fault Refusal := .next (powerFailDone recovered s)

/-- BACKUP_CELL_MEASUREMENT (R636): low below 2.2 V, missing below 1.8 V, cleared by two measurements of 2.3 V or more; each
change raises event 67. -/
def cellMeasured (mv : Nat) (s : State) : State :=
  let x := s.supply
  let good := if 2300 ≤ mv then x.cellGood + 1 else 0
  let y : SupplySt :=
    if 2 ≤ good then { x with cellMv := mv, cellGood := 2, cellLow := false, cellMissing := false }
    else { x with cellMv := mv, cellGood := good, cellLow := x.cellLow || mv < 2200, cellMissing := x.cellMissing || mv < 1800 }
  let changed := y.cellLow ≠ x.cellLow || y.cellMissing ≠ x.cellMissing
  if s.power.st = .off || (x.pwr1.lost && x.pwr2.lost) then s
  else if changed then raiseEv 67 0 { s with supply := y } else { s with supply := y }

/-- BACKUP_CELL_MEASUREMENT (R636). -/
def execBackupCellMeasurement (mv : Nat) (s : State) : Host.Outcome State Fault Refusal := .next (cellMeasured mv s)

/-- THERMAL_SHUTDOWN (R654): a domain's regulator shuts down at 150 °C: the lane is excluded with SUPPLY, the half
disabled. `d` counts as in object 0x8004 sub 2. -/
def thermal (d : Nat) (s : State) : State :=
  if d = 1 then disableHalf .a 7 halfDisabled [] s
  else if d = 2 then disableHalf .b 7 halfDisabled [] s
  else if d < 3 then s
  else match laneOf? (d - 3) with
    | some l => excludeLane l 0x08 [] s
    | none => s

/-- THERMAL_SHUTDOWN (R654). -/
def execThermalShutdown (d : Nat) (s : State) : Host.Outcome State Fault Refusal := .next (thermal d s)

/-- HALF_SUPPLY_OR_CLOCK (R40): a half fails its own checks of supply, oscillator or logic and is disabled. -/
def execHalfSupplyOrClock (h : Half) (s : State) : Host.Outcome State Fault Refusal :=
  .next (if (twoGet s.halves h).inServ then disableHalf h 7 halfDisabled [] s else s)

/-- COMPATIBILITY_CLASS_READ (R623): what the partner answered over the bridge, 0 for no answer: its compatibility class,
its order code (star ports) and its object 0x2100 sub 2. -/
def execCompatibilityClassRead (cls ord n : Nat) (s : State) : Host.Outcome State Fault Refusal :=
  .next (if s.pair.partnerAddr = 0xFFFF then s
    else settlePair (modPairLink (fun p => { p with partner := { p.partner with
      compatClass := cls, orderCode := ord, settingsN := n } }) s))

end Sys2Proof.Machine
end

