-- ==== Sys2Proof/Machine/UpdateRows.lean ====
section
/-! DEFINITION. Firmware update (R613 to R625): receiving an image, forwarding it, installing it. -/

namespace Sys2Proof.Machine

/-! ## Receiving -/

/-- Bytes of a block and of the receive buffer (R613, R616). -/
def blockLen : Nat := 65536

/-- Header of the image in the receive buffer (Table 16.6). -/
def fwHeader (m : Mem) : FwHeader :=
  { cclass := memNat m 6 2, version := memNat m 8 4, length := memNat m 12 4, blocks := memNat m 16 2,
    settings := memNat m 18 2, formats := (List.range 8).map (fun i => memNat m (20 + 2 * i) 2), minLoader := memNat m 36 4,
    digest := memReadAll m 60 32 }

/-- Tag, header length, reserved bytes, header check, block count and image length (R617). -/
def fwHeaderOk (m : Mem) : Bool :=
  let h := fwHeader m
  memNat m 0 4 = 0x5A465733 && memNat m 4 2 = 128 && memZero m 92 32 && memNat m 124 4 = crcOf crc32c (memReadAll m 0 124) &&
  1 ≤ h.blocks && h.blocks ≤ 192 && h.length = h.blocks * blockLen

/-- The vendor key a fingerprint names (R614). -/
def vendorKey (s : State) (m : Mem) : Option (List Byte) :=
  (s.ident.vendorKeys.find? (fun k => k.1 = memNat m 52 8)).map (·.2)

/-- The signature record that follows the header in the buffer: 1 to 1,536 bytes. -/
def fwSignature (m : Mem) : Option (List Byte) :=
  let n := memNat m 128 2
  if 1 ≤ n && n ≤ 1536 then some (memReadAll m 130 n) else none

/-- The signature over header bytes 0 to 123 holds (R613). -/
def fwSigned (key : List Byte) (m : Mem) : Bool :=
  (fwSignature m).any (fun sig => Config.falcon key (Config.shake256 (memReadAll m 0 124)) sig)

/-- An update or an install is in progress. -/
def updateBusy (s : State) : Bool := s.upd.upd || s.upd.updating || s.upd.phase ≠ .idle

/-- The first check of Table 16.7 that an open fails, 0 for none. -/
def openRefusal (s : State) : Nat :=
  let m := s.upd.buffer
  let h := fwHeader m
  if !s.upd.accept then 0xB012
  else if updateBusy s then 0xB007
  else if !fwHeaderOk m then 0xB002
  else if s.ident.loader < h.minLoader then 0xB003
  else match vendorKey s m with
    | none => 0xB004
    | some k =>
      if !fwSigned k m then 0xB005
      else if h.version < runningVersion s && !s.upd.rollback then 0xB006
      else 0

/-- An update command's outcome with its reply (object 0x8041 sub 2). -/
def updateReply (code : Nat) (refused : Bool) (s : State) : State × Nat × List Byte :=
  ({ s with upd := { s.upd with outcome := code } }, functionReply (if refused then code else 0) [])

/-- Open (update command 0x01, R617); event 92. -/
def updateOpenFn (s : State) : State × Nat × List Byte :=
  let c := openRefusal s
  if c ≠ 0 then updateReply c true (raiseEv 92 c s)
  else
    let u : UpdateSt := { s.upd with header := some (fwHeader s.upd.buffer), upd := true, valid := false, newArea := [],
                                     blockDigest := [], nextBlock := 0, newVersion := 0, fwdNext := 0, fwdOutcomes := [0, 0, 0, 0] }
    updateReply 0xB001 false (raiseEv 92 0xB001 { s with upd := u })

/-- What keeps a rolling install from starting (Table 16.8), 0 for nothing. -/
def rollingRefusal (s : State) : Nat :=
  let cls := ((s.upd.header).map (·.cclass)).getD 0
  if !s.upd.valid then 0xB014
  else if s.upd.phase ≠ .idle || s.upd.updating then 0xB007
  else if s.upd.newVersion = runningVersion s then 0xB013
  else if (leadLane s).any (fun l => (triGet s.lanes l).fwClass ≠ cls) then 0xB00C
  else if (lanesInVote s).length < 3 then 0xB00D
  else if modeOf s ≠ 0 then 0xB016
  else if s.view.prog.ps = .armed || loadChecking s || s.pair.h.isSome || s.vote.pendLane.isSome then 0xB007
  else 0
where
  leadLane (s : State) : Option Lane := (lanesInVote s).head?

/-- An install command's outcome with its reply (object 0x8043 sub 2). -/
def installReply (code : Nat) (s : State) : State × Nat × List Byte :=
  ({ s with upd := { s.upd with installOutcome := code } }, functionReply code [])

/-- The running image of a lane in vote in the fallback area (R621). -/
def copyFallback (s : State) : State :=
  match lanesInVote s with
  | l :: _ =>
    let x := triGet s.lanes l
    { s with upd := { s.upd with fallback := x.fwVersion, fallClass := x.fwClass, fallDigest := x.fwDigest } }
  | [] => s

/-- Rolling install (install action 0x01, R621): the fallback copy is made and Lane C's withdrawal is asked for. DESIGN
CHOICE, log 88 (unsafe). DESIGN CHOICE, log 88 (unsafe). -/
def installRollingFn (s : State) : State × Nat × List Byte :=
  let c := rollingRefusal s
  if c ≠ 0 then installReply c s
  else
    let s := copyFallback s
    let s := { s with upd := { s.upd with action := 1, phase := .withdrawing, rolling := true, stopAsked := false, doneL := 0, block := 0 } }
    (loaderWithdraw .c s, rOk, [])

/-- The last block is in (R617): the image is valid, or discarded; event 93. An automatic install starts (R620), but for an
equal version (R618). -/
def finishImage (h : FwHeader) (s : State) : State × Nat × List Byte :=
  if Config.shakeMem s.upd.newArea h.length = h.digest then
    let s := raiseEv 93 0xB00B { s with upd := { s.upd with valid := true, newVersion := h.version } }
    let s := if s.upd.auto && h.version ≠ runningVersion s then (installRollingFn s).1 else s
    updateReply 0xB00B false s
  else
    let s := raiseEv 93 0xB00A { s with upd := { s.upd with upd := false, valid := false, header := none, newArea := [], nextBlock := 0 } }
    updateReply 0xB00A true s

/-- A block taken into the new area (R617); the last one checks the image. -/
def blockTaken (h : FwHeader) (n : Nat) (b : List Byte) (s : State) : State × Nat × List Byte :=
  let s := { s with upd := { s.upd with newArea := memWriteAll s.upd.newArea (n * blockLen) b, nextBlock := n + 1 } }
  if n + 1 = h.blocks then finishImage h s else (s, rOk, [])

/-- One block (update command 0x02, R617): `good` tells that what was written reads back. DESIGN CHOICE, log 76 (safe).
DESIGN CHOICE, log 88 (unsafe). -/
def updateBlockFn (n crc : Nat) (good : Bool) (s : State) : State × Nat × List Byte :=
  let refuse (c : Nat) : State × Nat × List Byte := updateReply c true (raiseEv 93 c s)
  if !s.upd.accept then refuse 0xB012
  else match s.upd.header with
    | none => refuse 0xB008
    | some h =>
      if !s.upd.upd || s.upd.valid || n ≠ s.upd.nextBlock || h.blocks ≤ n then refuse 0xB008
      else
        let b := memReadAll s.upd.buffer 0 blockLen
        if crcOf crc32c b ≠ crc || !good then refuse 0xB009
        else blockTaken h n b s

/-- Abandon (update command 0x03, R617); event 95. DESIGN CHOICE, log 88 (unsafe). -/
def updateAbandonFn (s : State) : State × Nat × List Byte :=
  if !s.upd.accept then updateReply 0xB012 true s
  else
    let installing := s.upd.phase ≠ .idle || s.upd.updating
    let u : UpdateSt := { s.upd with newArea := [], valid := false, blockDigest := [], nextBlock := 0, upd := s.upd.upd && installing }
    updateReply 0xB011 false (raiseEv 95 0xB011 { s with upd := u })

/-- A write to the buffer window (R616): at the offset, which advances. DESIGN CHOICE, log 89 (unsafe). -/
def bufferWindowFn (data : List Byte) (s : State) : State × Nat × List Byte :=
  if data = [] || 1024 < data.length then (s, rLength, [])
  else if blockLen < s.upd.bufOffset + data.length then (s, rRange, [])
  else
    ({ s with upd := { s.upd with buffer := memWriteAll s.upd.buffer s.upd.bufOffset data,
                                  bufOffset := s.upd.bufOffset + data.length } }, rOk, [])

/-- An update command of a session, or of an upstream module through a PROXY request (R616). -/
def asUpdate (sess : Nat) (via : Option Level) (f : State → State × Nat × List Byte) (s : State) : State :=
  match via with
  | none => asSession sess .operator false f s
  | some l => asProxy l .operator false f s

/-- UPDATE_OPEN (R617). -/
def execUpdateOpen (sess : Nat) (via : Option Level) (s : State) : Host.Outcome State Fault Refusal :=
  .next (asUpdate sess via updateOpenFn s)

/-- UPDATE_BLOCK (R617). -/
def execUpdateBlock (sess : Nat) (via : Option Level) (n crc : Nat) (good : Bool) (s : State) : Host.Outcome State Fault Refusal :=
  .next (asUpdate sess via (updateBlockFn n crc good) s)

/-- UPDATE_ABANDON (R617). -/
def execUpdateAbandon (sess : Nat) (via : Option Level) (s : State) : Host.Outcome State Fault Refusal :=
  .next (asUpdate sess via updateAbandonFn s)

/-- BUFFER_WINDOW (R616): object 0x8042 sub 2. -/
def execBufferWindow (sess : Nat) (data : List Byte) (s : State) : Host.Outcome State Fault Refusal :=
  .next (asSession sess .maintainer false (bufferWindowFn data) s)

/-! ## Forwarding -/

/-- The next downstream module to forward to, by its sub − 1 (R618, R621). -/
def nextDown (s : State) : Option Nat :=
  (List.range 4).find? (fun i => s.upd.fwdNext ≤ i && s.datum.downstream.getD i 0xFFFF ≠ 0xFFFF)

/-- FORWARD (R618): the next downstream module's transfer ended with an outcome of Table 16.9; event 93. -/
def forwardRow (code : Nat) (s : State) : State :=
  match s.upd.valid, nextDown s with
  | true, some i => raiseEv 93 code { s with upd := { s.upd with fwdOutcomes := s.upd.fwdOutcomes.set i (code % 65536), fwdNext := i + 1 } }
  | _, _ => s

/-- FORWARD (R618). -/
def execForwardImage (code : Nat) (s : State) : Host.Outcome State Fault Refusal := .next (forwardRow code s)

/-! ## Installing -/

/-- What keeps an install of all lanes from starting (Table 16.8), 0 for nothing. -/
def allLanesRefusal (s : State) : Nat :=
  if !s.upd.valid then 0xB014
  else if s.upd.phase ≠ .idle || s.upd.updating then 0xB007
  else if s.upd.newVersion = runningVersion s then 0xB013
  else if s.pair.role = .standby then 0
  else if s.pair.formed && s.pair.partner.heard && s.pair.partner.ready then 0xB00F
  else if !routesReleased s then 0xB00E
  else 0

/-- All lanes (install action 0x02, R623): the lanes stop, every output is restrictive, MODE shows Updating. -/
def installAllFn (s : State) : State × Nat × List Byte :=
  let c := allLanesRefusal s
  if c ≠ 0 then installReply c s
  else
    let s := copyFallback s
    ({ s with
      upd := { s.upd with action := 2, phase := .writing, updating := true, rolling := false, stopAsked := false, doneL := 0,
                          lane := 2, block := 0 }
      halves := twoMap s.halves (fun _ x => { x with next := none }), lio := { s.lio with localNext := none } }, rOk, [])

/-- Stop (install action 0x03, R622). DESIGN CHOICE, log 88 (unsafe). -/
def installStopFn (s : State) : State × Nat × List Byte :=
  if s.upd.action = 1 && s.upd.phase ≠ .idle && s.upd.phase ≠ .rollingBack then
    ({ s with upd := { s.upd with stopAsked := true } }, rOk, [])
  else installReply 0xB014 s

/-- INSTALL_ROLLING (R621). -/
def execInstallRolling (sess : Nat) (s : State) : Host.Outcome State Fault Refusal :=
  .next (asSession sess .maintainer false installRollingFn s)

/-- INSTALL_ALL_LANES (R623). -/
def execInstallAllLanes (sess : Nat) (s : State) : Host.Outcome State Fault Refusal :=
  .next (asSession sess .maintainer false installAllFn s)

/-- INSTALL_STOP (R622). -/
def execInstallStop (sess : Nat) (s : State) : Host.Outcome State Fault Refusal :=
  .next (asSession sess .maintainer false installStopFn s)

/-- Every lane runs the new firmware: DONE, UPD clears, event 95; its format classes become object 0x8220 (Table 16.6). -/
def installDone (s : State) : State :=
  let fm := (((s.upd.header).map (·.formats)).getD []).filter (· ≠ 0)
  raiseEv 95 0 { s with
    upd := { s.upd with phase := .idle, action := 0, outcome := 0, installOutcome := 0, upd := false, rolling := false,
                        updating := false, rollback := false, lane := 0, block := 0
                        runSettings := ((s.upd.header).map (·.settings)).getD s.upd.runSettings }
    load := { s.load with fmtClasses := if fm = [] then s.load.fmtClasses else fm } }

/-- A lane of an install of all lanes is written (R623); with the third the module restarts cold and the install is done. -/
def writeAllLane (l : Lane) (s : State) : State :=
  let u := s.upd
  let h := u.header
  let d := u.doneL ||| 2 ^ laneNo l
  let s := { s with
    lanes := triMod s.lanes l (fun x => { x with
      fwVersion := u.newVersion, fwClass := (h.map (·.cclass)).getD x.fwClass, fwDigest := (h.map (·.digest)).getD x.fwDigest })
    upd := { u with doneL := d, lane := laneNo l, block := (h.map (·.blocks)).getD 1 - 1 } }
  if d = 7 then installDone (restartModule true s) else s

/-- The lane after another in an install (R621). -/
def lanePast : Lane → Option Lane
  | .c => some .b
  | .b => some .a
  | .a => none

/-- INSTALL_LANE_DONE (R621): the lane in hand is in the vote again; event 94; the next lane is withdrawn, or the install is
done, stopped, or goes on rolling back. -/
def installLaneDone (l : Lane) (s : State) : State :=
  if s.upd.updating then (if bit s.upd.doneL (laneNo l) then s else writeAllLane l s)
  else if s.upd.lane ≠ laneNo l || !inVote s l then s
  else if s.upd.phase = .rejoining then
    let s := raiseEv 94 (laneNo l) { s with upd := { s.upd with doneL := s.upd.doneL ||| 2 ^ laneNo l } }
    if s.upd.stopAsked then rollNext (startRollBack s)
    else match lanePast l with
      | some n => loaderWithdraw n { s with upd := { s.upd with phase := .withdrawing, block := 0 } }
      | none => installDone s
  else if s.upd.phase = .rollingBack && s.vote.pendLane.isNone then
    let bits_ := s.upd.doneL - b2n (bit s.upd.doneL (laneNo l)) * 2 ^ laneNo l
    rollNext { s with upd := { s.upd with doneL := bits_ } }
  else s

/-- INSTALL_LANE_DONE (R621). -/
def execInstallLaneDone (l : Lane) (s : State) : Host.Outcome State Fault Refusal := .next (installLaneDone l s)

/-- Codes of the install phases (Table 16.12). -/
def phaseCode : InstPhase → Nat
  | .idle => 0
  | .fallbackCopy => 1
  | .withdrawing => 2
  | .writing => 3
  | .rejoining => 4
  | .rollingBack => 5

/-- Install state word (Table 16.12). -/
def installWord (s : State) : Nat :=
  let u := s.upd
  u.action % 256 * 2 ^ 24 + phaseCode u.phase * 2 ^ 20 + u.lane % 4 * 2 ^ 18 + u.block % 256 * 2 ^ 8 + u.doneL % 8

end Sys2Proof.Machine
end

