-- ==== Sys2Proof/Machine/RecordRows.lean ====
section
/-! DEFINITION. Reading the Field book, the Chest, the scheduler's events and the forces through a session's cursors
(R565 to R577, R596, Tables 15.1 and 15.2), the Chest clear, and the session's check-value unit (R593 to R595). -/

namespace Sys2Proof.Machine

/-! ## Field book -/

/-- A Field book record as read (Table 15.1). -/
def bookBytes (r : FbRec) : List Byte :=
  let d := (r.data.take 28).map (fun v => (BitVec.ofNat 8 v : Byte))
  let b := be 8 r.seq ++ time96 r.time ++ be 4 r.image ++ be 1 r.type ++ be 1 r.event ++ be 2 r.code ++ be 1 r.source ++
    be 1 r.flags ++ be 2 r.who ++ d ++ List.replicate (28 - d.length) 0#8
  b ++ be 4 (crcOf crc32c b)

/-- Sequence of the oldest record held; 0 when none. -/
def bookOldest (s : State) : Nat := match s.book.recs with | r :: _ => r.seq | [] => 0

/-- FIELD_BOOK_READ (R570): zeros at or beyond the newest record; an erased record gives the oldest held, and the records
passed over are counted. A cursor of 0, its default, stands for the oldest held. DEDUCED, log 78 (unsafe). -/
def bookReadFn (n : Nat) (s : State) : State × Nat × List Byte :=
  let x := sessOf s n
  if s.book.newest ≤ x.bookCur then (s, rOk, List.replicate 64 0#8)
  else match s.book.recs.find? (fun r => x.bookCur ≤ r.seq) with
    | none => (s, rOk, List.replicate 64 0#8)
    | some r =>
      let beyond := if x.bookCur = 0 then 0 else r.seq - x.bookCur
      (modSess n (fun y => { y with bookCur := r.seq + 1, passed := sat 0xFFFFFFFF (y.passed + beyond) }) s, rOk, bookBytes r)

/-- FIELD_BOOK_READ (R570). -/
def execFieldBookRead (sess : Nat) (s : State) : Host.Outcome State Fault Refusal :=
  .next (asSession sess .observer false (bookReadFn sess) s)

/-- The cursor set (R571). -/
def setBookCur (n v : Nat) (s : State) : State × Nat × List Byte :=
  (modSess n (fun y => { y with bookCur := v }) s, rOk, be 8 v)

/-- FIELD_BOOK_CURSOR (R571): 0 the oldest record held, all ones the newest plus one. DEDUCED, log 78 (unsafe). -/
def bookCursorFn (n v : Nat) (s : State) : State × Nat × List Byte :=
  setBookCur n (if v = 0 then (if s.book.recs.isEmpty then s.book.newest + 1 else bookOldest s)
                else if v = 2 ^ 64 - 1 then s.book.newest + 1 else v) s

/-- FIELD_BOOK_CURSOR (R571). -/
def execFieldBookCursor (sess v : Nat) (s : State) : Host.Outcome State Fault Refusal :=
  if v < 2 ^ 64 then .next (asSession sess .observer false (bookCursorFn sess v) s) else .fault .operandShape

/-- FIELD_BOOK_SEEK (R571): the first record whose time is at or after the one written, else the newest plus one. -/
def bookSeekFn (n : Nat) (t : Int) (s : State) : State × Nat × List Byte :=
  let r := setBookCur n (match s.book.recs.find? (fun r => t ≤ r.time) with
    | some r => r.seq
    | none => s.book.newest + 1) s
  (r.1, r.2.1, [])

/-- FIELD_BOOK_SEEK (R571): `t` is the TIME96 written, in ns. -/
def execFieldBookSeek (sess t : Nat) (s : State) : Host.Outcome State Fault Refusal :=
  .next (asSession sess .observer false (bookSeekFn sess t) s)

/-- RECORDS_LOST_MARKER (R567): the buffer has space again after losses. -/
def execRecordsLostMarker (s : State) : Host.Outcome State Fault Refusal := .next (bookMarker s)

/-! ## Chest -/

/-- A Chest fault record but its kind and check (Table 15.2). -/
def chestBody (kind : Nat) (r : ChestRec) : List Byte :=
  let d := r.detail.take 200
  be 4 r.num ++ be 1 kind ++ be 1 r.source ++ be 2 r.code ++ time96 r.time ++ be 8 r.mtime ++ be 4 r.image ++
  be 4 r.startCount ++ be 2 r.status ++ be 2 r.epoch ++ be 4 r.summary ++ be 1 d.length ++ be 3 0 ++
  d ++ List.replicate (200 - d.length) 0#8

/-- A Chest fault record as read; one whose check fails shows Kind 0xFF (R573), and its stored check is a free value. -/
def chestBytes (free : Nat) (r : ChestRec) : List Byte :=
  if r.good then chestBody r.kind r ++ be 8 (crcOf crc64 (chestBody r.kind r)) else chestBody 0xFF r ++ be 8 free

/-- CHEST_READ (R573, Table 15.9): the record at the cursor or the next held; a cursor of 0 is the oldest. `good` tells whether
the record's check holds; a failing one raises event 77. DESIGN CHOICE, log 81 (safe). -/
def chestReadFn (n : Nat) (good : Bool) (s : State) : State × Nat × List Byte :=
  match s.chest.recs.find? (fun r => (sessOf s n).chestCur ≤ r.num) with
  | none => (s, rOk, List.replicate 256 0#8)
  | some r =>
    let r := { r with good := r.good && good }
    let s := { s with chest := { s.chest with recs := s.chest.recs.map (fun x => if x.num = r.num then r else x) } }
    let f := takeFree s
    let s := if r.good then s else raiseEv 77 r.num f.2
    (modSess n (fun y => { y with chestCur := r.num + 1 }) s, rOk, chestBytes f.1 r)

/-- CHEST_READ (R596). -/
def execChestRead (sess : Nat) (good : Bool) (s : State) : Host.Outcome State Fault Refusal :=
  .next (asSession sess .observer false (chestReadFn sess good) s)

/-- The snapshot slot a session reads (object 0x9101 sub 1): 0 the newest complete one, 1 the other. -/
def snapSelected (s : State) (sel : Nat) : Snapshot :=
  let new := otherHalf (snapSlot s)
  twoGet s.chest.snaps (if sel = 0 then new else otherHalf new)

/-- A snapshot as read: its 64-byte header (R574: record number, image number, length, CRC-64 of the body) and its body.
DESIGN CHOICE, log 26 (unsafe). -/
def snapBytes (x : Snapshot) : List Byte :=
  if !x.complete then []
  else be 4 x.record ++ be 4 x.image ++ be 4 x.body.length ++ be 8 (crcOf crc64 x.body) ++ List.replicate 44 0#8 ++ x.body

/-- 1,024 bytes from an offset of a snapshot, 0x00 past its end. -/
def snapWindow (x : Snapshot) (off : Nat) : List Byte :=
  let b := cut (snapBytes x) off 1024
  b ++ List.replicate (1024 - b.length) 0#8

/-- SNAPSHOT_READ (R596). -/
def snapReadFn (n : Nat) (s : State) : State × Nat × List Byte :=
  let x := sessOf s n
  (modSess n (fun y => { y with snapOff := sat 0xFFFFFFFF (y.snapOff + 1024) }) s, rOk,
   snapWindow (snapSelected s x.snapSel) x.snapOff)

/-- SNAPSHOT_READ (R596). -/
def execSnapshotRead (sess : Nat) (s : State) : Host.Outcome State Fault Refusal :=
  .next (asSession sess .observer false (snapReadFn sess) s)

/-- CHEST_CLEAR (R577): ring and snapshots go, the control area stays, record 1 tells of it; event 78. -/
def chestClearFn (n v : Nat) (s : State) : State × Nat × List Byte :=
  if v ≠ 0xC1 then (s, rRange, [])
  else
    let old := s.chest.newest
    let s := { s with chest := { s.chest with recs := [], newest := 0, snaps := ⟨Snapshot.init, Snapshot.init⟩ } }
    (raiseEv 78 n (chestWrite 0x0C 0x30 0 (be 1 n ++ be 4 old) s), rOk, [])

/-- CHEST_CLEAR (R577). -/
def execChestClear (sess v : Nat) (s : State) : Host.Outcome State Fault Refusal :=
  .next (asSession sess .commissioner true (chestClearFn sess v) s)

/-! ## Scheduler events and forces -/

/-- A pending scheduler event as read (Table 4.1). -/
def eventBytes (v : SEvent) : List Byte :=
  be 1 (evKindNo v.kind) ++ be 1 (b2n v.app) ++ be 2 v.carrier ++ be 2 v.target ++ be 2 v.line ++ beI 4 v.threshold ++
  be 4 v.amount ++ be 4 v.image ++ be 2 v.owner ++ be 1 (dirCode v.dir) ++ be 1 0

/-- EVENT_RECORD_READ (R176): of the voted image, in the order of R139. -/
def eventRecordFn (n : Nat) (s : State) : State × Nat × List Byte :=
  match s.view.events[(sessOf s n).eventCur]? with
  | some v => (modSess n (fun y => { y with eventCur := y.eventCur + 1 }) s, rOk, eventBytes v)
  | none => (s, rOk, List.replicate 24 0#8)

/-- EVENT_RECORD_READ (R176). -/
def execEventRecordRead (sess : Nat) (s : State) : Host.Outcome State Fault Refusal :=
  .next (asSession sess .observer false (eventRecordFn sess) s)

/-- A force as read (Table 8.8). -/
def forceBytes (f : Force) : List Byte :=
  be 8 f.ref.inst ++ be 2 f.ref.field ++ be 2 f.value.length ++ be 4 f.image ++ f.value

/-- FORCE_RECORD_READ (R326): of the voted image, in ascending reference. -/
def forceRecordFn (n : Nat) (s : State) : State × Nat × List Byte :=
  match s.view.prog.forces[(sessOf s n).forceCur]? with
  | some f => (modSess n (fun y => { y with forceCur := y.forceCur + 1 }) s, rOk, forceBytes f)
  | none => (s, rOk, List.replicate 16 0#8)

/-- FORCE_RECORD_READ (R326). -/
def execForceRecordRead (sess : Nat) (s : State) : Host.Outcome State Fault Refusal :=
  .next (asSession sess .observer false (forceRecordFn sess) s)

/-! ## The session's check-value unit -/

/-- Algorithm of a session's unit (object 0x3700 sub 1). -/
def unitAlg (x : Session) : CrcAlg := (crcOf? x.crcAlg).getD crc32c

/-- CHECK_ALGORITHM_SELECT (Table 15.9): Init is loaded. -/
def crcSelectFn (n v : Nat) (s : State) : State × Nat × List Byte :=
  match crcOf? v with
  | some a => (modSess n (fun y => { y with crcAlg := v, crcReg := a.init }) s, rOk, be 1 v)
  | none => (s, rRange, [])

/-- CHECK_ALGORITHM_SELECT (R596). -/
def execCheckAlgorithmSelect (sess v : Nat) (s : State) : Host.Outcome State Fault Refusal :=
  .next (asSession sess .observer false (crcSelectFn sess v) s)

/-- CHECK_DATA (R594): 1 to 1,024 bytes fed to the unit. -/
def crcDataFn (n : Nat) (d : List Byte) (s : State) : State × Nat × List Byte :=
  if d.isEmpty || 1024 < d.length then (s, rLength, [])
  else (modSess n (fun y => { y with crcReg := crcFeed (unitAlg y) y.crcReg d }) s, rOk, [])

/-- CHECK_DATA (R594). -/
def execCheckData (sess : Nat) (data : List Byte) (s : State) : Host.Outcome State Fault Refusal :=
  .next (asSession sess .observer false (crcDataFn sess data) s)

/-- CHECK_RUNNING_VALUE (R595): the register written. -/
def crcValueFn (n v : Nat) (s : State) : State × Nat × List Byte :=
  if v < 2 ^ (unitAlg (sessOf s n)).width then (modSess n (fun y => { y with crcReg := v }) s, rOk, be 8 v)
  else (s, rRange, [])

/-- CHECK_RUNNING_VALUE (R595). -/
def execCheckRunningValue (sess v : Nat) (s : State) : Host.Outcome State Fault Refusal :=
  .next (asSession sess .observer false (crcValueFn sess v) s)

/-- Final value of a session's unit (object 0x3700 sub 4). -/
def unitFinal (x : Session) : Nat := crcFinal (unitAlg x) x.crcReg

/-- Append mode (R594): the data with the final value big-endian. -/
def crcAppend (a : CrcAlg) (l : List Byte) : List Byte := l ++ be (a.width / 8) (crcOf a l)

/-- Check-strip mode (R594): the data without its last bytes, and whether they are its check. -/
def crcStrip (a : CrcAlg) (l : List Byte) : List Byte × Bool :=
  let n := a.width / 8
  let d := l.take (l.length - n)
  (d, n ≤ l.length && be n (crcOf a d) = l.drop (l.length - n))

end Sys2Proof.Machine
end

