-- ==== Sys2Proof/Machine/TestRows.lean ====
section
/-! DEFINITION. Built-in self-test (R579 to R584), in-service test rotation (R586), ageing and margins (R588 to R592). -/

namespace Sys2Proof.Machine

/-! ## Self-test -/

/-- Instances as commanded (Table 15.5): 0 to 2 the lanes, 0x10 and 0x11 the halves; the key under which a test is kept. -/
def instKey? (inst : Nat) : Option Nat :=
  if inst < 3 then some inst else if inst = 0x10 then some 3 else if inst = 0x11 then some 4 else none

/-- The half of an instance key. -/
def keyHalf (k : Nat) : Half := if k = 3 then .a else .b

/-- The half an action of Table 15.5 names. -/
def instHalf? (inst : Nat) : Option Half := if inst = 0x10 then some .a else if inst = 0x11 then some .b else none

/-- Self-test state of an instance. -/
def testOf (s : State) (k : Nat) : TestInst := tabGet s.test.insts k TestInst.init

/-- Self-test state changed. -/
def modTest (k : Nat) (f : TestInst → TestInst) (s : State) : State :=
  { s with test := { s.test with insts := tabMod s.test.insts k TestInst.init f } }

/-- Outcome of the last self-test command (Table 15.6). -/
def testOutcome (c : Nat) (s : State) : State := { s with test := { s.test with outcome := c } }

/-- Reply of a self-test command: RUNNING and STOPPED are no refusals. -/
def testReply (c : Nat) (s : State) : State × Nat × List Byte :=
  (testOutcome c s, if c = 0 || c = 0xA001 || c = 0xA005 then (rOk, []) else (rFunction, be 2 c))

/-- A target of Table 15.4 fits the instance: a lane's parts, or a half's. -/
def targetFits (target k : Nat) : Bool :=
  (k < 3 && 1 ≤ target && target ≤ 4) || (3 ≤ k && 0x10 ≤ target && target ≤ 0x13)

/-- Longest fixed slice of a target in ms (Table 15.4); 0 when its slices follow the budget. -/
def fixedSlice (target : Nat) : Nat :=
  if target = 4 then 5 else if target = 0x10 then 20 else if target = 0x11 then 10
  else if target = 0x12 || target = 0x13 then 5 else 0

/-- Division rounded up. -/
def ceilDiv (a b : Nat) : Nat := (a + b - 1) / b

/-- Slices of a target at a budget in ms (Table 15.4): 1 GiB at 0.64 MiB per ms, 8 MiB at 0.32 MiB per ms, 64 MiB at 1 MiB per
ms with the spare blocks' slices, and the fixed ones. -/
def testSlices (s : State) (target : Nat) : Nat :=
  let b := s.test.budget
  if target = 1 then ceilDiv 1600 b
  else if target = 2 then ceilDiv 25 b
  else if target = 3 then sat 1023 (ceilDiv 64 b + Config.norSlices b)
  else if target = 4 then 6
  else if target = 0x11 then 2
  else if target = 0x12 then ceilDiv s.ident.ports 4
  else 1

/-- The instance carries nothing vital (R579): a withdrawn lane, a half taken out for test, or the module in Quiet. -/
def isolated (s : State) (k : Nat) : Bool :=
  (s.power.st = .quiet && s.power.moving.isNone) ||
  (match laneOf? k with
   | some l => (triGet s.lanes l).ls = .withdrawn
   | none => twoGet s.test.halfOut (keyHalf k))

/-- A self-test started (R579, R580, R582): 0xA001 RUNNING, event 73. -/
def testRunFn (target inst slices : Nat) (s : State) : State × Nat × List Byte :=
  match instKey? inst with
  | none => testReply 0xA002 s
  | some k =>
    if !targetFits target k || !isolated s k then testReply 0xA002 s
    else if (testOf s k).ts = .running then testReply 0xA006 s
    else if s.test.budget < fixedSlice target then testReply 0xA003 s
    else
      let n := testSlices s target
      let t : TestInst := { (testOf s k) with
        target := target, ts := .running, done := 0, total := if slices = 0 then n else min slices n, next := 0, last := 0xA001
        stop := false, due := s.ns, fail := 0 }
      testReply 0xA001 (raiseEv 73 inst (modTest k (fun _ => t) s))

/-- SELF_TEST_RUN (R579): object 0x3500 sub 1, action 0x01. -/
def execSelfTestRun (sess target inst slices : Nat) (s : State) : Host.Outcome State Fault Refusal :=
  .next (asSession sess .maintainer false (testRunFn target inst slices) s)

/-- A test ends: its state, the outcome and event 73. -/
def endTest (k : Nat) (ts : TestState) (code : Nat) (s : State) : State :=
  raiseEv 73 (instNo k) (testOutcome code (modTest k (fun t => { t with ts := ts, last := code, stop := false }) s))

/-- A self-test stopped after its slice (Table 15.5); between two slices at once. DESIGN CHOICE, log 83 (unsafe). -/
def testStopFn (inst : Nat) (s : State) : State × Nat × List Byte :=
  match instKey? inst with
  | none => testReply 0xA002 s
  | some k =>
    let t := testOf s k
    if t.ts ≠ .running then testReply 0xA005 s
    else if s.ns < t.due then testReply 0xA005 (endTest k .stopped 0xA005 s)
    else testReply 0xA005 (modTest k (fun t => { t with stop := true }) s)

/-- SELF_TEST_STOP (R582): action 0x02. -/
def execSelfTestStop (sess inst : Nat) (s : State) : Host.Outcome State Fault Refusal :=
  .next (asSession sess .maintainer false (testStopFn inst) s)

/-- What a slice destroys (Table 15.4). -/
def destroy (target k : Nat) (s : State) : State :=
  match laneOf? k with
  | some l =>
    let s := if s.power.st = .quiet then { s with test := { s.test with quietLane := true } } else s
    if target = 1 || target = 2 then
      { s with
        lanes := triMod s.lanes l (fun x => { x with kernel := { Kernel.init with prog := { ProgSt.init with prog := x.kernel.prog.prog } } })
        power := { s.power with retained := triPut s.power.retained l none } }
    else s
  | none =>
    let h := keyHalf k
    if target = 0x10 then
      { s with halves := twoMod s.halves h (fun x => { x with ingress := ⟨none, none, none⟩, bench := ⟨none, none, none⟩ }) }
    else if target = 0x11 then
      { s with tres := twoMod s.tres h (fun t => { t with lock := false, graphCheck := 0, decisions := [] }) }
    else if target = 0x12 then (List.range s.ident.ports).foldl (fun s p => linkDown h p s) s
    else
      let f := takeFreeInt (2 ^ 80) s
      let t := f.2.time
      { f.2 with time := { t with halves := twoMod t.halves h (fun c => { c with tRef := f.1 }) } }

/-- A failed slice (R584): Chest record, event 74; the lane is held, the half stays disabled. -/
def testFailed (k slice detail : Nat) (s : State) : State :=
  let t := testOf s k
  let s := modTest k (fun t => { t with ts := .failed, last := 0xA004, fail := detail, stop := false, rerun := some t.target }) s
  let data := be 1 t.target ++ be 1 (instNo k) ++ be 2 slice ++ be 8 detail
  let s := raiseEv 74 (instNo k) (chestWrite 9 (instNo k) 0xA004 data (testOutcome 0xA004 s))
  let s := raiseEv 73 (instNo k) s
  match laneOf? k with
  | some l => { s with lanes := triMod s.lanes l (fun x => { x with ls := .held, line := ⟨false, false⟩, out := none }) }
  | none => disableHalf (keyHalf k) 10 halfDisabled [] s

/-- SELF_TEST_SLICE (R580): the slice under way ends; `fail` the fail detail of one that failed. The next starts 10 ms later.
DESIGN CHOICE, log 83 (unsafe). -/
def testSlice (inst : Nat) (fail : Option Nat) (s : State) : State :=
  match instKey? inst with
  | none => s
  | some k =>
    let t := testOf s k
    if t.ts ≠ .running || s.ns < t.due then s
    else
      let s := destroy t.target k s
      match fail with
      | some d => testFailed k t.next d s
      | none =>
        let s := modTest k (fun t => { t with done := t.done + 1, next := t.next + 1, due := s.ns + 10000000 }) s
        if t.total ≤ t.next + 1 then endTest k .passed 0 s
        else if t.stop then endTest k .stopped 0xA005 s
        else s

/-- SELF_TEST_SLICE (R580). -/
def execSelfTestSlice (inst : Nat) (fail : Option Nat) (s : State) : Host.Outcome State Fault Refusal :=
  .next (testSlice inst fail s)

/-- A half taken out for test (R581). DESIGN CHOICE, log 34 (safe). DESIGN CHOICE, log 82 (unsafe). -/
def takeOutFn (inst : Nat) (s : State) : State × Nat × List Byte :=
  match instHalf? inst with
  | none => testReply 0xA002 s
  | some h =>
    if (testOf s (3 + halfNo h)).ts = .running then testReply 0xA006 s
    else if !(twoGet s.halves (otherHalf h)).inServ || (modeOf s ≠ 0 && modeOf s ≠ 1) then testReply 0xA007 s
    else
      let s := disableHalf h 10 halfDisabled [] s
      testReply 0 (raiseEv 73 inst { s with test := { s.test with halfOut := twoPut s.test.halfOut h true } })

/-- TAKE_HALF_OUT (R581): action 0x10. -/
def execTakeHalfOut (sess inst : Nat) (s : State) : Host.Outcome State Fault Refusal :=
  .next (asSession sess .maintainer false (takeOutFn inst) s)

/-- A half restarted (R43, R581): its start-up tests and graph load run again; its clock starts from the other half's, its
channel listens, and the lanes in vote raise their status lines to it. DESIGN CHOICE, log 52 (safe). -/
def restartHalf (h : Half) (i : StartIn) (s : State) : State :=
  let s := abortTests (· = 3 + halfNo h) s
  let t := s.time
  let c := if (twoGet s.halves (otherHalf h)).inServ then twoGet t.halves (otherHalf h) else twoGet t.halves h
  let port (p : PortSt) : PortSt := { p with rx := none, base := PortSt.init.base }
  let s := { s with
    halves := twoPut s.halves h { HalfSt.init with inServ := true }
    tres := twoPut s.tres h TrestleSt.init
    tx := twoPut s.tx h TxSt.init
    busImg := twoPut s.busImg h BusImage.init
    lanes := triMap s.lanes (fun _ x => if x.ls = .inVote then { x with line := twoPut x.line h true } else x)
    env := tabMap s.env (fun _ v => { v with permBase := twoPut v.permBase h none })
    lio := { s.lio with pairs := twoPut s.lio.pairs h [] }
    time := { t with halves := twoPut t.halves h c }
    test := { s.test with halfOut := twoPut s.test.halfOut h false }
    bus := { s.bus with chans := twoMod s.bus.chans h (fun x => { x with
      st := .listening, since := s.ns, starter := false, ports := tabMap x.ports (fun _ p => port p) }) } }
  let s := stepThree i h s
  if !(twoGet s.halves h).inServ || s.power.unconfigured then s
  else
    let crc := crcOf crc64 (Config.graphBytes s.cfg)
    let s := { s with tres := twoMod s.tres h (fun t => { t with lock := true, graphCheck := crc }) }
    if twoGet i.graph h then s else disableHalf h 5 halfDisabled [] s

/-- A half restarted by command: one that is disabled. DESIGN CHOICE, log 76 (safe). DESIGN CHOICE, log 83 (unsafe). -/
def restartHalfFn (inst : Nat) (i : StartIn) (s : State) : State × Nat × List Byte :=
  match instHalf? inst with
  | none => testReply 0xA002 s
  | some h =>
    if (twoGet s.halves h).inServ then testReply 0xA007 s
    else testReply 0 (raiseEv 73 inst (restartHalf h i s))

/-- RESTART_HALF (R581): action 0x11. -/
def execRestartHalf (sess inst : Nat) (i : StartIn) (s : State) : Host.Outcome State Fault Refusal :=
  .next (asSession sess .maintainer false (restartHalfFn inst i) s)

/-- TSTATE codes (Table 15.10). -/
def testStateCode : TestState → Nat
  | .idle => 0
  | .running => 1
  | .passed => 2
  | .failed => 3
  | .stopped => 4
  | .aborted => 5

/-- The self-test state word (Table 15.10). -/
def testWord (s : State) (k : Nat) : Nat :=
  let t := testOf s k
  t.target % 256 * 2 ^ 24 + testStateCode t.ts * 2 ^ 20 + sat 1023 t.done * 2 ^ 10 + sat 1023 t.total

/-! ## In-service test -/

/-- Images that a full rotation may take before SLOW (R586). -/
def slowImages : Nat := 12288

/-- ROTATION_SLOW (R586): event 75. -/
def rotationSlow (l : Lane) (s : State) : State :=
  let x := triGet s.test.ist l
  if slowImages < x.images && !x.slow then
    raiseEv 75 (laneNo l) { s with test := { s.test with ist := triPut s.test.ist l { x with slow := true } } }
  else s

/-- ROTATION_SLOW (R586). -/
def execRotationSlow (l : Lane) (s : State) : Host.Outcome State Fault Refusal := .next (rotationSlow l s)

/-- The in-service state word (object 0x3510). -/
def istWord (x : IstLane) : Nat := sat 0xFFFF x.rotations * 2 ^ 16 + x.percent % 256 * 2 ^ 8 + b2n x.slow * 2 ^ 7

/-! ## Ageing -/

/-- An item never measured. -/
def AgeItem.fresh : AgeItem := { margin := 100, warned := false, forecast := 0xFFFE, means := [], sum := 0, samples := 0 }

/-- Subs of each ageing object 0x3600 to 0x3605 (Table 15.7). -/
def ageSubs : List Nat := [3, 5, 3, 1, 16, 35]

/-- An ageing item exists. -/
def ageItemOk (index sub : Nat) : Bool :=
  0x3600 ≤ index && index ≤ 0x3605 && 1 ≤ sub && sub ≤ ageSubs.getD (index - 0x3600) 0

/-- An ageing item. -/
def ageItemOf (s : State) (key : Nat) : AgeItem := tabGet s.age.items key AgeItem.fresh

/-- An ageing item changed. -/
def modAge (key : Nat) (f : AgeItem → AgeItem) (s : State) : State :=
  { s with age := { s.age with items := tabMod s.age.items key AgeItem.fresh f } }

/-- Highest power-fail threshold and its step in mV (R591). -/
def thresholdMax : Nat := 16500
def thresholdStep : Nat := 100

/-- AGEING_MEASUREMENT (R588, R591): a margin in percent; event 69 once at its warning level; a hold-up margin at or below 40 %
raises the power-fail threshold, event 71. -/
def ageing (index sub margin : Nat) (s : State) : State :=
  let key := ageKey index sub
  let low := margin ≤ warnLevel s key
  let was := (ageItemOf s key).warned
  let s := modAge key (fun x => { x with margin := margin, warned := low, sum := x.sum + margin, samples := x.samples + 1 }) s
  let s := if low && !was then raiseEv 69 index s else s
  if index = 0x3603 && margin ≤ 40 && s.age.threshold < thresholdMax then
    raiseEv 71 noDetail { s with age := { s.age with threshold := min thresholdMax (s.age.threshold + thresholdStep) } }
  else s

/-- AGEING_MEASUREMENT (R588). -/
def execAgeingMeasurement (index sub margin : Nat) (s : State) : Host.Outcome State Fault Refusal :=
  if ageItemOk index sub && decide (margin ≤ 100) then .next (ageing index sub margin s) else .fault .operandShape

/-- CLOCK_STEP (R589): a lane whose timing margin is at the action level steps to 1.0 GHz, unless the relock would not end in
time and is deferred; event 68. -/
def clockStep (l : Lane) (inTime : Bool) (s : State) : State :=
  if inTime && timingMargin s l ≤ 10 && !(triGet s.lanes l).redclk then
    raiseEv 68 (laneNo l) { s with lanes := triMod s.lanes l (fun x => { x with redclk := true }) }
  else s

/-- CLOCK_STEP (R589). -/
def execClockStep (l : Lane) (inTime : Bool) (s : State) : Host.Outcome State Fault Refusal := .next (clockStep l inTime s)

/-- NOR_REFRESH (R590): a block at or below the action level is refreshed, event 70; one that fails to read back excludes the
lane with MEMORY. -/
def norRefresh (l : Lane) (good : Bool) (s : State) : State :=
  if 40 < (ageItemOf s (ageKey 0x3602 (laneNo l + 1))).margin then s
  else if good then raiseEv 70 (laneNo l) s
  else excludeLane l 0x05 [] s

/-- NOR_REFRESH (R590). -/
def execNorRefresh (l : Lane) (good : Bool) (s : State) : Host.Outcome State Fault Refusal := .next (norRefresh l good s)

/-- Clock restore (object 0x3611 sub 2): it takes effect at the lane's next restart (R589). -/
def clockRestoreFn (v : Nat) (s : State) : State × Nat × List Byte :=
  match laneOf? v with
  | some l => ({ s with age := { s.age with restore := triPut s.age.restore l true } }, rOk, [])
  | none => (s, rRange, [])

/-- CLOCK_RESTORE (R589). -/
def execClockRestore (sess v : Nat) (s : State) : Host.Outcome State Fault Refusal :=
  .next (asSession sess .maintainer false (clockRestoreFn v) s)

/-- Sums of a series, oldest first, against its day numbers from `n`: Σx, Σy, Σxx, Σxy. -/
def lineSums : Nat → List Nat → Int × Int × Int × Int
  | _, [] => (0, 0, 0, 0)
  | n, y :: l =>
    let r := lineSums (n + 1) l
    (r.1 + n, r.2.1 + y, r.2.2.1 + n * n, r.2.2.2 + n * y)

/-- Days until a least-squares line through the daily means (in thousandths, oldest first) reaches a level (R592). DESIGN
CHOICE, log 84 (unsafe). DESIGN CHOICE, log 84 (unsafe). -/
def lineForecast (level : Nat) (means : List Nat) : Nat :=
  let n : Int := means.length
  let q := lineSums 0 means
  let num := n * q.2.2.2 - q.1 * q.2.1
  let den := n * q.2.2.1 - q.1 * q.1
  if 0 ≤ num then 0xFFFF
  else
    let top := -((level * n - q.2.1) * den + num * q.1)
    let days := top / (-(n * num)) - (n - 1)
    if 65534 < days then 0xFFFF else days.toNat

/-- Forecast of an item (R592). -/
def forecast (level : Nat) (x : AgeItem) : Nat :=
  if x.margin ≤ level then 0
  else if x.means.length < 14 then 0xFFFE
  else lineForecast (level * 1000) x.means.reverse

/-- FORECAST (R592): the day's mean of each item joins the last 180, and its forecast is computed. -/
def forecastDay (s : State) : State :=
  let item (key : Nat) (x : AgeItem) : AgeItem :=
    let y := if x.samples = 0 then x else
      { x with means := ((x.sum * 1000 / x.samples) :: x.means).take 180, sum := 0, samples := 0 }
    { y with forecast := forecast (warnLevel s key) y }
  { s with age := { s.age with items := tabMap s.age.items item } }

/-- FORECAST (R592). -/
def execForecastDay (s : State) : Host.Outcome State Fault Refusal := .next (forecastDay s)

/-- The ageing item word (Table 15.11). -/
def ageWord (s : State) (key : Nat) : Nat :=
  let x := ageItemOf s key
  let w := warnLevel s key
  x.margin % 256 * 2 ^ 24 + w % 256 * 2 ^ 16 + (if x.margin ≤ w then 0 else x.forecast % 65536)

end Sys2Proof.Machine
end

