-- ==== Sys2Proof/Machine/Objects.lean ====
section
/-! DEFINITION. The object dictionary's table (R543 to R545, R561, R662, Tables 14.3, 14.4, 14.13 and every chapter's
object table) and the value each object reads as. -/

namespace Sys2Proof.Machine

/-! ## The table -/

/-- One row of an object table: indexes and subs it names, type code (Table 14.3), access code (Table 14.4), write level
(0xFF not writable), whether there is one value per session, whether Table 14.5 applies it at once, and the maximum length of
OCTETS and VSTRING values. -/
structure ObjRow where
  i0 : Nat
  i1 : Nat
  s0 : Nat
  s1 : Nat
  ty : Nat
  acc : Nat
  lvl : Nat
  perSess : Bool
  atOnce : Bool
  max : Nat
  deriving DecidableEq, Repr

/-- A read-only row. -/
def ro (i0 i1 s0 s1 ty : Nat) (max : Nat := 0) : ObjRow := ⟨i0, i1, s0, s1, ty, 0, 0xFF, false, false, max⟩

/-- A row that is written at the tick. -/
def wr (i0 i1 s0 s1 ty acc lvl : Nat) (max : Nat := 0) : ObjRow := ⟨i0, i1, s0, s1, ty, acc, lvl, false, false, max⟩

/-- A read-clear row. -/
def rc (i0 i1 s0 s1 ty : Nat) (max : Nat := 0) : ObjRow := ⟨i0, i1, s0, s1, ty, 4, 0xFF, false, false, max⟩

/-- A per-session row of Observer sessions. -/
def ps (i0 s0 s1 ty acc : Nat) (atOnce : Bool) (max : Nat := 0) : ObjRow := ⟨i0, i0, s0, s1, ty, acc, 0, true, atOnce, max⟩

/-- Tables 14.14 and 6.12. -/
def objIdent : List ObjRow :=
  [ro 0x1000 0x1000 1 1 0xE 12, ro 0x1000 0x1000 2 2 0xE 6, ro 0x1000 0x1000 3 3 0xE 8, ro 0x1000 0x1000 4 4 5, ro 0x1000 0x1000 5 5 3, ro 0x1000 0x1000 6 7 0xA,
   ro 0x1000 0x1000 8 8 2, ro 0x1000 0x1000 9 9 4, ro 0x1000 0x1000 10 10 3, ro 0x1000 0x1000 11 11 4,
   ro 0x1000 0x1000 12 12 2, ro 0x1000 0x1000 13 13 3, ro 0x1001 0x1001 1 3 4, ro 0x1001 0x1001 4 6 0xD 8,
   wr 0x1010 0x1010 1 1 3 1 3, ro 0x1010 0x1010 2 2 3, wr 0x1100 0x1100 1 1 4 1 2, wr 0x1100 0x1100 2 2 2 1 2,
   wr 0x1100 0x1100 3 3 4 1 2, wr 0x1100 0x1100 4 4 0xD 1 2 16, wr 0x1100 0x1100 5 5 2 1 2, wr 0x1100 0x1100 6 6 3 1 2,
   ro 0x1100 0x1100 7 7 0xD 6, wr 0x1110 0x1110 1 1 3 1 2, wr 0x1110 0x1110 2 2 2 1 2, wr 0x1110 0x1110 3 3 3 1 2,
   wr 0x1110 0x1110 4 4 1 1 2, ro 0x1200 0x1200 1 16 4, ⟨0x1201, 0x1201, 0, 0, 2, 0, 0xFF, true, false, 0⟩,
   ps 0x1202 1 3 4 1 true, ro 0x1203 0x1203 1 16 0xD 18, wr 0x1210 0x1210 1 4 0xD 2 3 32, wr 0x2010 0x2010 1 3 4 1 2,
   ro 0x3000 0x3000 1 1 3, ro 0x3000 0x3000 2 4 4, ro 0x3000 0x3000 5 5 2, rc 0x3000 0x3000 6 6 4,
   ⟨0x3001, 0x3001, 1, 3, 4, 3, 1, false, true, 0⟩, rc 0x3002 0x3002 1 96 3, rc 0x3010 0x3010 1 128 4,
   wr 0x2100 0x2100 1 2 2 1 2, wr 0x2100 0x2100 3 3 1 1 2, wr 0x2100 0x2100 4 4 2 1 2, ro 0x3100 0x3100 1 3 4,
   ro 0x3101 0x3101 1 1 4, rc 0x3101 0x3101 2 5 4, ro 0x3102 0x3102 1 1 4, ro 0x3102 0x3102 2 2 2,
   ro 0x3102 0x3102 3 5 0xD 8, rc 0x3102 0x3102 6 6 4, ro 0x3103 0x3103 1 2 4, ro 0x3104 0x3104 0 0 0xD 16,
   wr 0x8100 0x8100 1 1 2 2 2, ro 0x8100 0x8100 2 2 3, ro 0x8100 0x8100 3 3 2, wr 0x8101 0x8101 1 1 2 2 3,
   ro 0x8101 0x8101 2 2 3, ro 0x8101 0x8101 3 3 4]

/-- Tables 3.8, 4.6, 5.6, 8.8. -/
def objLanes : List ObjRow :=
  [wr 0x2300 0x2300 1 16 2 1 2, wr 0x2301 0x2301 0 0 3 1 2, ro 0x6002 0x6002 1 2 3, rc 0x6002 0x6002 3 3 3,
   ⟨0x6010, 0x601F, 1, 1, 0xD, 2, 1, false, true, 8⟩, ro 0x6010 0x601F 2 2 2, rc 0x6020 0x602F 1 1 0xD 16,
   ro 0x6020 0x602F 2 2 2, rc 0x6020 0x602F 3 3 3, ro 0x6200 0x621F 0 255 4, ro 0x6800 0x68FF 0 255 4,
   wr 0x6030 0x6030 1 1 3 2 2, ro 0x6030 0x6030 2 2 3, ro 0x6030 0x6030 3 3 2, ro 0x6400 0x6400 1 1 3, rc 0x6400 0x6400 2 2 3,
   ro 0x6400 0x6400 3 3 3, rc 0x6400 0x6400 4 4 4, ps 0x6401 1 1 3 1 true, ro 0x6401 0x6401 2 2 0xD 24,
   ro 0x6410 0x6410 0 255 4, wr 0x2310 0x2310 1 2 2 1 2, ro 0x6500 0x6500 1 3 3, rc 0x6500 0x6500 4 4 3,
   rc 0x6500 0x6500 5 5 4, rc 0x6500 0x6500 6 6 3, rc 0x6500 0x6500 7 7 4, ps 0x6501 1 1 3 1 true, ro 0x6501 0x6501 2 2 4,
   ro 0x6501 0x6501 3 3 0xC, ro 0x6501 0x6501 4 5 4, ro 0x6501 0x6501 6 6 0xC, ro 0x6501 0x6501 7 7 8, ro 0x6501 0x6501 8 8 3,
   ro 0x6501 0x6501 9 10 4, ro 0x6A00 0x6A07 0 255 4, wr 0x2320 0x2320 1 2 2 1 2, ro 0x7000 0x7000 1 1 2, ro 0x7000 0x7000 2 2 5,
   ro 0x7000 0x7000 3 5 4, rc 0x7000 0x7000 6 7 4, ro 0x7000 0x7000 8 8 3, ro 0x7000 0x7000 9 9 2, ro 0x7000 0x7000 10 10 4,
   ro 0x7000 0x7000 11 11 5, wr 0x7001 0x7001 1 1 2 2 2, ro 0x7001 0x7001 2 2 3, ps 0x7010 1 1 0xD 1 true 10,
   ro 0x7010 0x7010 2 2 4, wr 0x7010 0x7010 3 3 0xD 1 1 1024, wr 0x7020 0x7020 1 1 0xD 2 2 76, ro 0x7020 0x7020 2 3 3,
   ps 0x7020 4 4 3 1 true, ro 0x7020 0x7020 5 5 0xD 80]

/-- Tables 2.10 and 8.9. -/
def objSlots : List ObjRow :=
  [ro 0x8200 0x8200 1 2 2, wr 0x8201 0x8201 0 0 2 1 2, wr 0x8202 0x8202 1 1 4 1 2, wr 0x8202 0x8202 2 2 0xD 2 2 1024,
   ro 0x8203 0x8203 1 1 3, ro 0x8203 0x8203 2 2 4, wr 0x8204 0x8204 0 0 2 2 2, ro 0x8205 0x8205 1 1 5, ro 0x8205 0x8205 2 2 4,
   ro 0x8205 0x8205 3 3 0xD 8, ro 0x8206 0x8206 1 1 4, wr 0x8206 0x8206 2 2 1 1 3, wr 0x8207 0x8207 0 0 5 1 3,
   ro 0x8210 0x8211 1 4 5, wr 0x8212 0x8212 1 1 2 2 3, wr 0x8212 0x8212 2 2 0xD 2 3 1376, ro 0x8220 0x8220 1 8 3,
   ro 0x8300 0x8300 1 2 2, wr 0x8301 0x8301 0 0 2 1 2, wr 0x8302 0x8302 1 1 4 1 2, wr 0x8302 0x8302 2 2 0xD 2 2 1024,
   ro 0x8303 0x8303 1 1 3, ro 0x8303 0x8303 2 2 4, ro 0x8305 0x8305 1 2 5, ro 0x8305 0x8305 3 4 4]

/-- Tables 7.6, 9.15, 10.10, 11.9. -/
def objBus : List ObjRow :=
  [ro 0x3200 0x3200 1 2 4, rc 0x3201 0x3202 1 2 4, rc 0x3201 0x3202 3 3 3, rc 0x3201 0x3202 4 4 2, ro 0x3201 0x3202 5 5 4,
   ro 0x3201 0x3202 6 6 5, ps 0x3210 1 1 4 1 true, ro 0x3210 0x3210 2 3 4, ro 0x5000 0x5000 1 2 4, wr 0x5001 0x5001 0 0 3 1 3,
   ro 0x5002 0x5002 1 1 2, ro 0x5002 0x5002 2 2 5, ro 0x5002 0x5002 3 3 4, ro 0x5002 0x5002 4 4 2, ro 0x5002 0x5002 5 6 3,
   wr 0x5010 0x5010 1 1 2 2 2, ro 0x5010 0x5010 2 2 3, ro 0x5010 0x5010 3 3 2, ro 0x5010 0x5010 4 4 5, ro 0x5010 0x5010 5 5 2,
   ro 0x5020 0x5021 1 1 2, ro 0x5020 0x5021 2 2 8, rc 0x5020 0x5021 3 3 4, ro 0x5020 0x5021 4 4 8, rc 0x5020 0x5021 5 5 4,
   ro 0x5100 0x5101 1 16 4, rc 0x5102 0x5107 1 16 4, wr 0x5110 0x5110 0 0 3 2 2, ro 0x5111 0x5111 0 0 3, ro 0x5200 0x5200 1 8 4,
   wr 0x2400 0x2400 1 2 2 1 2, rc 0x5300 0x5301 1 16 4, ro 0x5302 0x5302 1 16 4, rc 0x5303 0x5303 1 16 4,
   ro 0x5310 0x5312 1 16 4, ro 0x5313 0x5313 0 0 3, wr 0x2501 0x2501 0 0 2 1 2, ro 0x3300 0x3301 1 16 4, ro 0x3302 0x3302 1 4 4,
   ro 0x3303 0x3303 0 0 4, wr 0x3304 0x3304 1 2 3 2 2, wr 0x3304 0x3304 3 3 1 2 2, ro 0x3305 0x3305 1 2 2]

/-- Tables 12.7 and 13.17. -/
def objTime : List ObjRow :=
  [ro 0x4000 0x4000 1 1 0xA, ro 0x4000 0x4000 2 2 3, ro 0x4000 0x4000 3 3 4, ro 0x4000 0x4000 4 4 5, ro 0x4000 0x4000 5 5 0xA,
   wr 0x4001 0x4001 1 1 9 2 2, wr 0x4001 0x4001 2 2 8 2 2, ro 0x4001 0x4001 3 3 9, wr 0x4001 0x4001 4 4 4 1 2,
   wr 0x4001 0x4001 5 5 9 2 2, ro 0x4001 0x4001 6 6 9, ro 0x4001 0x4001 7 7 3, wr 0x4001 0x4001 8 8 1 2 2,
   wr 0x4010 0x4010 1 1 2 1 2, ro 0x4010 0x4010 2 2 9, wr 0x4011 0x4011 1 2 2 1 2, ro 0x4012 0x4012 1 1 0xD 8,
   ro 0x4012 0x4012 2 2 4, ro 0x4012 0x4012 3 3 3, rc 0x4012 0x4012 4 4 4, wr 0x4020 0x4020 1 1 7 1 2, wr 0x4020 0x4020 2 2 6 1 2,
   ro 0x4030 0x4030 1 2 0xD 18, ro 0x4031 0x4031 0 0 8, rc 0x4100 0x4107 1 1 0xD 20, ro 0x4100 0x4107 2 2 2, rc 0x4100 0x4107 3 3 4,
   wr 0x4100 0x4107 4 4 3 1 1, rc 0x4110 0x4110 1 1 4, wr 0x2600 0x2600 1 1 3 1 3, wr 0x2600 0x2600 2 2 1 1 3,
   wr 0x2600 0x2600 3 3 1 1 2, wr 0x2600 0x2600 4 4 3 1 2, wr 0x2600 0x2600 5 5 3 1 3, wr 0x2601 0x2601 1 1 3 1 3,
   wr 0x2601 0x2601 2 2 1 1 2, wr 0x2602 0x2602 1 4 3 1 3, wr 0x2610 0x2610 1 14 2 1 2, ro 0x2610 0x2610 15 16 2,
   ro 0x3400 0x3400 0 0 4, ro 0x3401 0x3401 1 3 4, ro 0x3402 0x3402 0 0 4, rc 0x3403 0x3403 1 2 4, ps 0x3410 1 1 3 1 true,
   ro 0x3410 0x3410 2 2 0xD 32, rc 0x3420 0x3420 1 1 0xD 16, ro 0x3420 0x3420 2 2 2, rc 0x3420 0x3420 3 3 4,
   ro 0x3420 0x3420 4 4 3, ro 0x3421 0x3421 0 0 8, wr 0x8110 0x8110 1 1 2 2 2, ro 0x8110 0x8110 2 2 3, ro 0x8110 0x8110 3 3 4]

/-- Tables 15.9 and 16.10. -/
def objCare : List ObjRow :=
  [wr 0x3500 0x3500 1 1 0xD 2 2 6, ro 0x3500 0x3500 2 2 3, wr 0x3500 0x3500 3 3 3 1 2, ro 0x3501 0x3501 1 5 4,
   ro 0x3502 0x3502 1 5 5, ro 0x3510 0x3510 1 3 4, rc 0x3511 0x3511 1 3 4, ro 0x3600 0x3600 1 3 4, ro 0x3601 0x3601 1 5 4,
   ro 0x3602 0x3602 1 3 4, ro 0x3603 0x3603 1 1 4, ro 0x3604 0x3604 1 16 4, ro 0x3605 0x3605 1 35 4, wr 0x3610 0x3610 1 6 2 1 2,
   ro 0x3611 0x3611 1 1 3, wr 0x3611 0x3611 2 2 2 2 2, ps 0x3700 1 1 2 1 false, ps 0x3700 2 2 5 1 false,
   ps 0x3700 3 3 0xD 2 false 1024, ⟨0x3700, 0x3700, 4, 4, 5, 0, 0xFF, true, false, 0⟩, ps 0x9000 1 1 5 1 false,
   ro 0x9000 0x9000 2 2 0xD 64, ⟨0x9000, 0x9000, 3, 3, 4, 4, 0xFF, true, false, 0⟩, ps 0x9000 4 4 0xA 2 false,
   ro 0x9000 0x9000 5 6 5, rc 0x9000 0x9000 7 7 4, ro 0x9000 0x9000 8 8 3, ps 0x9100 1 1 4 1 false, ro 0x9100 0x9100 2 2 0xD 256,
   ro 0x9100 0x9100 3 3 3, ro 0x9100 0x9100 4 4 4, ps 0x9101 1 1 2 1 false, ps 0x9101 2 2 4 1 false, ro 0x9101 0x9101 3 3 0xD 1024,
   wr 0x9110 0x9110 1 1 2 2 3, ro 0x8000 0x8000 1 1 4, wr 0x8001 0x8001 1 3 2 1 1, ro 0x8001 0x8001 4 5 2,
   wr 0x8002 0x8002 1 1 3 1 2, wr 0x8002 0x8002 2 2 5 1 2, wr 0x8003 0x8003 0 0 2 1 2, wr 0x8004 0x8004 1 1 2 2 2,
   ro 0x8004 0x8004 2 2 4, wr 0x8010 0x8010 1 1 2 2 2, ro 0x8010 0x8010 2 2 2, ro 0x8010 0x8010 3 3 3, wr 0x8040 0x8040 1 1 1 1 3,
   wr 0x8040 0x8040 2 2 1 1 2, wr 0x8040 0x8040 3 3 1 1 3, wr 0x8041 0x8041 1 1 0xD 2 1 8, ro 0x8041 0x8041 2 3 3,
   wr 0x8042 0x8042 1 1 4 1 2, wr 0x8042 0x8042 2 2 0xD 2 2 1024, wr 0x8043 0x8043 1 1 2 2 2, ro 0x8043 0x8043 2 2 3,
   ro 0x8043 0x8043 3 3 4, ro 0x8044 0x8044 1 4 3, ro 0x8045 0x8045 1 2 4]

/-- Every object but the exported variables (Table 14.13). -/
def objTable : List ObjRow := objIdent ++ objLanes ++ objSlots ++ objBus ++ objTime ++ objCare

/-- A row names an object. -/
def ObjRow.has (r : ObjRow) (index sub : Nat) : Bool := r.i0 ≤ index && index ≤ r.i1 && r.s0 ≤ sub && sub ≤ r.s1

/-- The row of an object of the table. -/
def tableRow (index sub : Nat) : Option ObjRow := objTable.find? (fun r => r.has index sub)

/-- The row of an exported variable (R316): its variable's type and length, writable when HOSTW. -/
def exportRow (s : State) (index sub : Nat) : Option ObjRow :=
  if index < 0x7400 || 0x7FFF < index then none
  else ((exportRef s.view index sub).bind (varOf s.view.prog.vars)).map (fun v =>
    { i0 := index, i1 := index, s0 := sub, s1 := sub, ty := v.type, acc := b2n v.hostw, lvl := if v.hostw then 1 else 0xFF,
      perSess := false, atOnce := false, max := v.value.length })

/-- The row of an object, if it exists (R561, R662). DESIGN CHOICE, log 75 (unsafe). -/
def objRow (s : State) (index sub : Nat) : Option ObjRow :=
  match tableRow index sub with
  | some r => some r
  | none => exportRow s index sub

/-- Length of a type; 0 for OCTETS and VSTRING (Table 14.3). -/
def typeLen (ty : Nat) : Nat :=
  if ty = 1 || ty = 2 || ty = 6 then 1 else if ty = 3 || ty = 7 then 2 else if ty = 4 || ty = 8 || ty = 0xB then 4
  else if ty = 5 || ty = 9 then 8 else if ty = 0xA then 12 else if ty = 0xC then 7 else 0

/-- Longest value of an object. -/
def ObjRow.maxLen (r : ObjRow) : Nat := if typeLen r.ty = 0 then r.max else typeLen r.ty

/-- A written value's length fits its type (R543). -/
def ObjRow.lengthOk (r : ObjRow) (n : Nat) : Bool := if typeLen r.ty = 0 then decide (n ≤ r.max) else decide (n = typeLen r.ty)

/-- Held by the lanes (Table 14.13, bit 4 of the descriptor). -/
def laneHeld (index : Nat) : Bool :=
  index = 0x2100 || (0x2300 ≤ index && index ≤ 0x2320) || index = 0x2501 || (0x6000 ≤ index && index ≤ 0x7FFF) ||
  (0x8200 ≤ index && index ≤ 0x8305)

/-- Per-port objects, whose sub is the star port plus one. DESIGN CHOICE, log 72 (safe). -/
def perPort (index : Nat) : Bool :=
  (0x5100 ≤ index && index ≤ 0x5107) || (0x5300 ≤ index && index ≤ 0x5303) || (0x5310 ≤ index && index ≤ 0x5312)

/-- A per-port sub of a port that the order code lacks (R3). -/
def portAbsent (s : State) (index sub : Nat) : Bool := perPort index && decide (s.ident.ports < sub)

/-- A lane object: its value is lane state or a setting the lanes apply; a session's own selections are not. DESIGN CHOICE,
log 72 (safe). DESIGN CHOICE, log 72 (safe). -/
def ObjRow.lane (r : ObjRow) : Bool := laneHeld r.i0 && !r.perSess

/-- Writes, or RC reads, are applied at the tick (R546). -/
def ObjRow.atTick (r : ObjRow) : Bool :=
  if r.acc = 0 then false else if r.acc = 4 then r.lane else !r.atOnce

/-- The descriptor (Table 14.4). -/
def ObjRow.descriptor (r : ObjRow) : List Byte :=
  be 1 r.ty ++ be 1 (r.acc + b2n r.perSess * 8 + b2n r.lane * 16 + b2n r.atTick * 32 + b2n (decide (r.lvl = 3)) * 64) ++
  be 1 0 ++ be 1 r.lvl ++ be 2 r.maxLen ++ be 2 0

/-! ## Words of the commons -/

/-- Text as bytes. -/
def textBytes (t : String) : List Byte := t.toList.map (fun c => BitVec.ofNat 8 c.toNat)

/-- Value of the `sub`-th entry of a list whose subs count from 1. -/
def pick (l : List (List Byte)) (sub : Nat) : List Byte := l.getD (sub - 1) []

/-- 20 years in seconds: 7,305 days. DESIGN CHOICE, log 84 (unsafe). -/
def lifeSeconds : Nat := 631152000

/-- A source as 18 bytes (object 0x1203): a UDP source is its IPv6 address as a number, with its port. -/
def sourceBytes (x : Session) : List Byte :=
  match x.opened, x.src with
  | true, .udp ip port => be 16 ip ++ be 2 port
  | true, .welong port => List.replicate 16 0#8 ++ be 2 port
  | _, _ => List.replicate 18 0#8

/-- The session state word (Table 14.15). -/
def sessionWord (s : State) (n : Nat) : Nat :=
  let x := sessOf s n
  let port := match x.src with | .welong p => some p | _ => none
  if !x.opened then 0
  else 2 ^ 31 + b2n port.isSome * 2 ^ 30 + levelRank x.level * 2 ^ 28 + port.getD 0 % 16 * 2 ^ 24 +
    sat 8 (x.queue.length + x.due.length) * 2 ^ 20 + sat 0xFFFF ((s.ns - x.last) / secNs)

/-- Capacity of a hardware queue (Table 14.11). -/
def queueSize (q : Nat) : Nat :=
  if q < 64 then 32 else if q < 72 then 16 else if q = 72 then 64 else if q < 76 then 256 else if q < 80 then 0
  else if q < 96 then 8 else if q < 112 then 96 else 64

/-- Entries of a hardware queue. -/
def queueDepth (s : State) (q : Nat) : Nat :=
  if q < 64 then 0
  else if q < 72 then (stampQ s q).entries.length
  else if q = 72 then s.bridge.failures.length
  else if q = 73 then s.bridge.out.length
  else if q = 74 then s.bridge.inbound.length
  else if q = 75 then s.bridge.answers.length
  else if q < 80 then 0
  else if q < 96 then (sessOf s (q - 80)).queue.length + (sessOf s (q - 80)).due.length
  else if q < 112 then (sessOf s (q - 96)).events.length
  else (tabGet s.queues (q - 112) []).length

/-- The queue state word (Table 14.12). -/
def queueWord (s : State) (q : Nat) : Nat :=
  let x := tabGet s.dict.qstats q ⟨0, false⟩
  sat 1023 (queueDepth s q) * 2 ^ 22 + queueSize q * 2 ^ 12 + sat 1023 (max x.high (queueDepth s q)) * 2 ^ 2 + b2n x.ovf

/-- A decision word (Table 7.10). -/
def decisionWord (d : Decision) : Nat :=
  d.culprit % 65536 * 2 ^ 16 + d.reason % 256 * 2 ^ 8 + b2n d.cmd * 2 ^ 7 + b2n d.permit * 2 ^ 6

/-- No decision on an output: it is not commanded. -/
def Decision.none : Decision := { culprit := 0xFFFF, reason := 1, cmd := false, permit := false }

/-- Codes of the channel states (Table 9.17). -/
def chStateCode : ChState → Nat
  | .off => 0
  | .listening => 1
  | .coldStarting => 2
  | .integrating => 3
  | .synchronised => 4
  | .backingOff => 5

/-- The channel state word (Table 9.17). -/
def channelWord (s : State) (h : Half) : Nat :=
  let c := twoGet s.bus.chans h
  b2n (chanUp s h) * 2 ^ 31 + b2n c.starter * 2 ^ 30 + b2n s.bus.dormant * 2 ^ 29 +
  (c.ports.filter (fun p => p.2.integ)).length * 2 ^ 24 + s.bus.mode % 8 * 2 ^ 21 + b2n s.bus.pend.isSome * 2 ^ 20 +
  sat 8 c.k * 2 ^ 16 + (c.ports.filter (fun p => p.2.closed)).length * 2 ^ 8 + chStateCode c.st

/-- The port state word (Table 9.18). -/
def portWord (s : State) (h : Half) (port : Nat) : Nat :=
  let p := portOf s h port
  let claimed := (s.bus.spare.filter (fun x => x.2 = port + 1)).length
  p.linkDly % 65536 * 2 ^ 16 + b2n p.link * 2 ^ 15 + b2n p.speed100 * 2 ^ 14 + b2n p.integ * 2 ^ 13 + b2n p.closed * 2 ^ 12 +
  b2n p.syncUsed * 2 ^ 11 + b2n p.table * 2 ^ 10 + b2n p.ready * 2 ^ 9 + p.readyMode % 8 * 2 ^ 6 + sat 4 claimed * 2 ^ 3 +
  sat 3 (cutsNow s p)

/-- The controller status word (Table 10.11). -/
def controllerWord (s : State) (port : Nat) : Nat :=
  let v := envOf s port
  let noBase := allHalves.all (fun h => (portOf s h port).base.base.isNone)
  v.cepoch % 65536 * 2 ^ 16 + v.cflags % 256 * 2 ^ 8 + v.srcs % 4 * 2 ^ 6 +
  b2n (v.cepoch ≠ 0 && v.cepoch ≠ s.pair.epoch) * 2 ^ 5 + b2n noBase * 2 ^ 4

/-- The input pair state word (Table 11.10), of the first half in service. -/
def inputPairWord (s : State) (n : Nat) : Nat :=
  let x := tabGet (twoGet s.lio.pairs (timeHalf s)) n PairSt.init
  let r := pairRec s.cfg n
  let mode := match r with | some r => if r.antivalent then 2 else 1 | none => 0
  b2n (tabGet s.image.bus.pairs n false) * 2 ^ 31 + b2n x.rawA * 2 ^ 30 + b2n x.rawB * 2 ^ 29 +
  b2n (s.image.bus.pairSubst.contains n) * 2 ^ 28 + b2n (tabGet s.lio.stuck n false) * 2 ^ 27 + b2n x.chat * 2 ^ 26 +
  b2n x.discFrom.isSome * 2 ^ 25 + b2n (x.fcode ≠ .none) * 2 ^ 24 + fcodeNo x.fcode * 2 ^ 20 + mode * 2 ^ 18 +
  ((r.map (·.fclass)).getD 0) % 8 * 2 ^ 15 + b2n (r.any (·.rval)) * 2 ^ 14

/-- The vital output state word (Table 11.11). -/
def vitalOutWord (s : State) (n : Nat) : Nat :=
  let x := tabGet s.lio.vos n VoSt.init
  let r := s.cfg.localOuts.find? (fun o => o.num = n)
  let elem := match r with | some o => if o.kind = .unbound then 0xFFFF else o.elem | none => 0xFFFF
  b2n x.cmd * 2 ^ 31 + b2n x.permit * 2 ^ 30 + b2n x.on * 2 ^ 29 + b2n x.mid * 2 ^ 28 + b2n (x.ocode ≠ .none) * 2 ^ 27 +
  ocodeNo x.ocode * 2 ^ 24 + b2n (r.any (fun o => !o.dark)) * 2 ^ 23 + elem % 65536

/-- The supply state word of a test-pulse supply (object 0x3302). -/
def tpWord (x : TpSt) : Nat := b2n x.on * 2 ^ 31 + b2n (x.cause ≠ 0) * 2 ^ 30 + x.cause % 4 * 2 ^ 28 + x.milliamp % 65536

/-- The RESET and key state word (Table 11.12). -/
def resetWord (s : State) : Nat :=
  let k := tabGet (twoGet s.lio.pairs (timeHalf s)) 17 PairSt.init
  b2n s.lio.resetLevel * 2 ^ 31 + b2n s.lio.rstuck * 2 ^ 30 + b2n s.lio.key * 2 ^ 29 + b2n k.rawA * 2 ^ 28 + b2n k.rawB * 2 ^ 27 +
  b2n s.lio.kfault * 2 ^ 26 + s.lio.rcount % 65536

/-- Servo codes (Table 12.2). -/
def servoCode : Servo → Nat
  | .freeRun => 0
  | .acquiring => 1
  | .locked => 2
  | .holdover => 3

/-- The time quality word (Table 12.8). -/
def timeWord (s : State) : Nat :=
  let t := s.time
  b2n t.valid * 2 ^ 31 + b2n t.tjr * 2 ^ 30 + t.src % 4 * 2 ^ 28 + servoCode t.servo * 2 ^ 26 + b2n t.tdiff * 2 ^ 25 +
  b2n t.leapV * 2 ^ 24 + (if t.leapAnn = 1 then 1 else if t.leapAnn = -1 then 2 else 0) * 2 ^ 22 + sat 0xFFFF t.estErr

/-- A timestamp entry (Table 12.6). -/
def stampBytes (e : StampEntry) : List Byte :=
  be 2 e.ident ++ be 2 e.slot ++ be 1 e.port ++ be 1 e.flags ++ be 8 (e.time / 65536 / 1000000000).toNat ++
  be 4 (e.time / 65536 % 1000000000).toNat ++ be 2 (e.time % 65536).toNat

/-- A failure record (Table 13.14). -/
def failBytes (f : FailRec) : List Byte :=
  be 2 f.target ++ be 1 f.window ++ be 1 f.tag ++ be 2 f.offset ++ be 2 f.length ++ be 1 f.init ++ be 1 f.type ++ be 2 f.code ++
  be 4 f.image

/-- A path state word (object 0x3401). -/
def pathWord (s : State) (p : PathSt) : Nat :=
  b2n p.link * 2 ^ 31 + b2n p.fault * 2 ^ 30 + sat 0xFFFF (p.copies.filter (fun t => s.ns < t + secNs)).length

/-- The board link state word (Table 13.19). -/
def boardWord (c : CascSt) : Nat :=
  b2n c.bl1 * 2 ^ 31 + b2n c.bl2 * 2 ^ 30 + b2n c.ring * 2 ^ 29 + c.pos % 8 * 2 ^ 26 + c.nmod % 16 * 2 ^ 22

/-- A mode descriptor (object 0x5200). -/
def modeWord (m : ModeRec) : Nat := m.busNs / 1000 * 2 ^ 16 + m.lCyc % 256 * 2 ^ 8 + m.slots.length % 256

/-- Slot state codes (object 0x8200). -/
def slotCode : SlotState → Nat
  | .empty => 0
  | .receiving => 1
  | .checking => 2
  | .valid => 3
  | .active => 4
  | .refused => 5
  | .interrupted => 6
  | .pending => 7

/-- What a load control reads as: 1 receiving, 2 checking. -/
def controlCode (a b : SlotState) : Nat :=
  if a = .receiving || b = .receiving then 1 else if a = .checking || b = .checking then 2 else 0

/-- The variable descriptor word (Table 8.10). -/
def varWord (k : Kernel) (r : VarRef) : Nat :=
  match varOf k.prog.vars r with
  | none => 0
  | some v =>
    v.value.length % 65536 * 2 ^ 16 + v.type % 256 * 2 ^ 8 + b2n v.vital * 2 ^ 7 + b2n v.retain * 2 ^ 6 + b2n v.hostw * 2 ^ 5 +
    b2n (k.prog.forces.any (fun f => f.ref = r)) * 2 ^ 4 +
    b2n (k.prog.prog.any (fun p => p.exports.any (fun e => e.2.2 = r))) * 2 ^ 3

/-- A LINEPOS value (R17). -/
def linePos (line : Nat) (chain : Int) (dir : Dir) : List Byte := be 2 line ++ beI 4 chain ++ be 1 (dirCode dir)

end Sys2Proof.Machine
end

