-- ==== Sys2Proof/Machine/ObjRead.lean ====
section
/-! DEFINITION. The value each object reads as (R546: commons objects at once, lane objects from the voted image), by
object table. -/

namespace Sys2Proof.Machine

/-- A wide mask's 32-bit part: events 32 (sub − 1) and up. -/
def maskPart (m : BitVec 96) (sub : Nat) : Nat := m.toNat / 2 ^ (32 * (sub - 1)) % 2 ^ 32

/-- Table 14.14. -/
def readIdent (s : State) (n index sub : Nat) : List Byte :=
  let i := s.ident
  let d := s.dict
  let w := d.net
  if index = 0x1000 then
    pick [textBytes "Sorgan Dyder", textBytes "Zorula", textBytes (if i.ports = 16 then "ZV3-1600" else "ZV3-0800"), be 8 i.serial,
          be 2 i.issue, be 8 i.made ++ be 4 0, be 8 (i.made + lifeSeconds) ++ be 4 0, be 1 i.ports, be 4 (runningVersion s),
          be 2 (((lanesInVote s).find? (fun l => (triGet s.lanes l).fwVersion = runningVersion s)).elim 0 (fun l => (triGet s.lanes l).fwClass)),
          be 4 i.loader, be 1 1, be 2 (s.load.fmtClasses.filter (· ≠ 0)).length] sub
  else if index = 0x1001 then
    let ver (l : Lane) : List Byte := be 4 (if (triGet s.lanes l).ls = .off then 0xFFFFFFFF else (triGet s.lanes l).fwVersion)
    let dig (l : Lane) : List Byte := cut ((triGet s.lanes l).fwDigest ++ List.replicate 8 0#8) 0 8
    pick [ver .a, ver .b, ver .c, dig .a, dig .b, dig .c] sub
  else if index = 0x1010 then pick [be 2 d.modAddrSet, be 2 d.modAddr] sub
  else if index = 0x1100 then
    pick [be 4 w.ip4, be 1 w.prefix4, be 4 w.gateway, cut (w.ip6 ++ List.replicate 16 0#8) 0 16, be 1 w.prefix6, be 2 w.udpPort, i.mac] sub
  else if index = 0x1110 then pick [be 2 d.timeoutS, be 1 d.lockN, be 2 d.lockS, be 1 (b2n d.welong)] sub
  else if index = 0x1200 then be 4 (sessionWord s (sub - 1))
  else if index = 0x1201 then be 1 n
  else if index = 0x1202 then be 4 (maskPart (sessOf s n).mask sub)
  else if index = 0x1203 then sourceBytes (sessOf s (sub - 1))
  else if index = 0x2010 then be 4 (maskPart s.ev.enable sub)
  else if index = 0x3000 then
    pick [be 2 (statusField s), be 4 (faultSummary s), be 4 s.casc.startCount, be 4 (sat 0xFFFFFFFF ((s.ns - d.startNs) / secNs)),
          be 1 (b2n d.warm), be 4 d.discarded] sub
  else if index = 0x3001 then be 4 (maskPart s.ev.pend sub)
  else if index = 0x3002 then be 2 (tabGet s.ev.counts (sub - 1) 0)
  else be 4 (queueWord s (sub - 1))

/-- A setting of a lane object as the last voted image shows it (R97, R549). DEDUCED, log 119 (safe). -/
def shownSetting (s : State) (index sub now : Nat) : Nat := tabGet s.set.shown (index * 256 + sub) now

/-- Verdict codes (object 0x3102 sub 2) are kept as numbers in State. Tables 6.12 and its commands' outcomes. -/
def readVote (s : State) (index sub : Nat) : List Byte :=
  let v := s.vote
  if index = 0x2100 then be 1 (shownSetting s index sub ([v.deadlinePct, v.n, b2n v.autoRejoin, v.rejoinMax].getD (sub - 1) 0))
  else if index = 0x3100 then pick (allLanes.map (fun l => be 4 (laneWord s l))) sub
  else if index = 0x3101 then pick [be 4 v.lastVoted, be 4 v.unanimous, be 4 v.majority, be 4 v.unforwarded, be 4 v.longest] sub
  else if index = 0x3102 then
    let pre (l : Lane) : List Byte := cut (triGet v.prefixes l ++ List.replicate 8 0#8) 0 8
    pick [be 4 v.benchImage, be 1 v.lastVerdict, pre .a, pre .b, pre .c, be 4 v.disagree] sub
  else if index = 0x3103 then pick (allHalves.map (fun h => be 4 (halfWord s h))) sub
  else if index = 0x3104 then cut (v.lastExcl ++ List.replicate 16 0#8) 0 16
  else if index = 0x8100 then pick [[], be 2 v.cmdOutcome, be 1 (match v.pendLane with | some l => laneNo l | none => 0xFF)] sub
  else pick [[], be 2 s.comm.journal.length, be 4 s.comm.seq] sub

/-- Entries of the tracking table in a state. -/
def countCarriers (k : Kernel) (t : TState) : Nat := (k.carriers.filter (fun c => c.2.ts = t)).length

/-- The carrier a session selected, of the voted image. -/
def selectedCarrier (s : State) (n : Nat) : Option Carrier := carrierOf s.view (sessOf s n).carrierSel

/-- Object 0x6501 subs 2 to 10; of a carrier not held, zeros and no slot. -/
def readCarrier (c : Option Carrier) (sub : Nat) : List Byte :=
  match c with
  | none => pick [[], be 4 0, linePos 0 0 .unknown, be 4 0, be 4 0, linePos 0 0 .unknown, be 4 0, be 2 0xFFFF, be 4 0, be 4 0] sub
  | some c =>
    pick [[], be 4 (carrierWord c), linePos c.line c.front c.dir, be 4 (c.fu * 2 ^ 16 + c.ru), be 4 c.len, linePos c.eLine c.eChain c.dir,
          beI 4 c.dist, be 2 (c.slot.getD 0xFFFF), be 4 c.lastValid,
          be 4 (c.sSec * 2 ^ 16 + c.eSec)] sub

/-- Tables 3.8, 4.6 and 5.6, from the voted image. -/
def readKernel (s : State) (n index sub : Nat) : List Byte :=
  let k := s.view
  if index = 0x2300 then be 1 (shownSetting s index sub (tabGet s.set.portCfg (sub - 1) (if sub = 1 || sub = 3 then 3 else 1)))
  else if index = 0x2301 then be 2 (shownSetting s index sub s.set.simThrows)
  else if index = 0x2310 then be 1 (shownSetting s index sub (if sub = 1 then s.set.confirmC else s.set.clearE))
  else if index = 0x6002 then pick [be 2 k.reqsLast, be 2 k.held.length, be 2 k.longPass] sub
  else if 0x6010 ≤ index && index ≤ 0x601F then be 1 (64 - (tabGet s.queues (index - 0x6010) []).length)
  else if 0x6020 ≤ index && index ≤ 0x602F then
    let r := tabGet k.results (index - 0x6020) ⟨[], 0⟩
    pick [(match r.recs with | x :: _ => resultBytes x | [] => List.replicate 16 0#8), be 1 r.recs.length, be 2 r.lost] sub
  else if index = 0x6030 then pick [[], be 2 k.emOutcome, be 1 k.emRels.length] sub
  else if 0x6200 ≤ index && index ≤ 0x621F then
    let r := (index - 0x6200) * 256 + sub
    be 4 (if (routeRec s.cfg r).isSome then routeWord k r else 0)
  else if index = 0x6400 then pick [be 2 k.events.length, be 2 k.pendHigh, be 2 (2 * s.cfg.routes.length), be 4 k.refusedArms] sub
  else if index = 0x6401 then pick [be 2 (sessOf s n).eventCur, []] sub
  else if index = 0x6410 then be 4 (match s.cfg.keys[sub]? with | some x => keyWord k x.num | none => 0)
  else if index = 0x6500 then
    pick [be 2 (countCarriers k .tracked), be 2 (countCarriers k .candidate), be 2 (countCarriers k .lost), be 2 k.carHigh,
          be 4 k.refusedCars, be 2 k.longAuth, be 4 k.capCut] sub
  else if index = 0x6501 then if sub = 1 then be 2 (sessOf s n).carrierSel else readCarrier (selectedCarrier s n) sub
  else if 0x6800 ≤ index && index ≤ 0x68FF then be 4 (elementWord s.cfg k ((index - 0x6800) * 256 + sub))
  else be 4 (match tabFind k.carriers ((index - 0x6A00) * 256 + sub) with | some c => carrierWord c | none => 0)

/-- Tables 8.8 and 8.9. -/
def readProgram (s : State) (n index sub : Nat) : List Byte :=
  let p := s.view.prog
  let l := s.progLoad
  let x := sessOf s n
  if index = 0x2320 then be 1 (shownSetting s index sub (if sub = 1 then l.faultStop else l.switchLead))
  else if index = 0x7000 then
    pick [be 1 (pstateCode p.ps), be 8 ((p.prog.map (·.id)).getD 0), be 4 (progVersion s),
          be 4 ((p.prog.map (fun q => q.insts.length)).getD 0), be 4 (allotment s), be 4 p.longest, be 4 p.faults, be 2 p.lastFault,
          be 1 p.origin, be 4 p.switchImg, be 8 p.lastInst] sub
  else if index = 0x7001 then pick [[], be 2 p.outcome] sub
  else if index = 0x7010 then
    let sel := if x.varSel = [] then List.replicate 10 0#8 else x.varSel
    pick [sel, be 4 (varWord s.view (varRefOf sel)), varValue s.view (varRefOf sel)] sub
  else if index = 0x7020 then pick [[], be 2 p.forceOutcome, be 2 p.forces.length, be 2 x.forceCur, []] sub
  else if index = 0x8300 then pick [be 1 (slotCode l.slots.a.st), be 1 (slotCode l.slots.b.st)] sub
  else if index = 0x8301 then be 1 (controlCode l.slots.a.st l.slots.b.st)
  else if index = 0x8302 then pick [be 4 l.offset, []] sub
  else if index = 0x8303 then pick [be 2 l.code, be 4 l.detail] sub
  else if index = 0x8305 then
    let id (v : ProgSlot) : List Byte := be 8 ((v.parsed.map (·.id)).getD 0)
    let ver (v : ProgSlot) : List Byte := be 4 ((v.parsed.map (·.version)).getD 0)
    pick [id l.slots.a, id l.slots.b, ver l.slots.a, ver l.slots.b] sub
  else match exportRef s.view index sub with
    | some r => varValue s.view r
    | none => []

/-- Table 2.10. -/
def readLoad (s : State) (index sub : Nat) : List Byte :=
  let l := s.load
  if index = 0x8200 then pick [be 1 (slotCode l.slots.a.st), be 1 (slotCode l.slots.b.st)] sub
  else if index = 0x8201 then be 1 (controlCode l.slots.a.st l.slots.b.st)
  else if index = 0x8202 then pick [be 4 l.offset, []] sub
  else if index = 0x8203 then pick [be 2 l.code, be 4 l.detail] sub
  else if index = 0x8205 then
    let a := activeSlot s
    pick [be 8 ((a.map (·.site)).getD 0), be 4 ((a.map (·.version)).getD 0), cut (digest8 s ++ List.replicate 8 0#8) 0 8] sub
  else if index = 0x8206 then pick [be 4 l.highest, be 1 (b2n l.rollback)] sub
  else if index = 0x8207 then be 8 l.site
  else if index = 0x8210 then be 8 (l.compose.getD (sub - 1) 0)
  else if index = 0x8211 then be 8 (l.verify.getD (sub - 1) 0)
  else be 2 (l.fmtClasses.getD (sub - 1) 0)

/-- The decision shown for the output a session selected (object 0x3210). -/
def selectedDecision (s : State) (n : Nat) (h : Half) : Nat :=
  decisionWord (tabGet (twoGet s.tres h).decisions (sessOf s n).outputSel Decision.none)

/-- Tables 7.6 and 9.15. -/
def readBus (s : State) (n index sub : Nat) : List Byte :=
  let b := s.bus
  let half : Half := if index % 2 = 0 then .a else .b
  let c := twoGet b.chans half
  if index = 0x3200 then pick (allHalves.map (fun h => be 4 (trestleWord s h))) sub
  else if index = 0x3201 || index = 0x3202 then
    let t := if index = 0x3201 then s.tres.a else s.tres.b
    pick [be 4 t.withheld, be 4 t.conflicts, be 2 t.longEval, be 1 t.longWalk, be 4 t.rot, be 8 t.graphCheck] sub
  else if index = 0x3210 then pick [be 4 (sessOf s n).outputSel, be 4 (selectedDecision s n .a), be 4 (selectedDecision s n .b)] sub
  else if index = 0x5000 then pick (allHalves.map (fun h => be 4 (channelWord s h))) sub
  else if index = 0x5001 then be 2 b.etherSet
  else if index = 0x5002 then
    pick [be 1 (if b.dormant then 0x10 else b.mode), be 8 (s.image.counter % 2 ^ 48), be 4 b.busNs, be 1 b.lCyc, be 2 b.prec, be 2 b.guardNs] sub
  else if index = 0x5010 then
    pick [[], be 2 b.outcome, be 1 ((b.pend.map (·.mode)).getD 0xFF), be 8 ((b.pend.map (·.s)).getD 0), be 1 b.notReady] sub
  else if index = 0x5020 || index = 0x5021 then pick [be 1 (sat 8 c.k), beI 4 c.lastCorr, be 4 c.largest, beI 4 c.rate, be 4 c.weak] sub
  else if index = 0x5100 || index = 0x5101 then be 4 (portWord s half (sub - 1))
  else if index = 0x5102 || index = 0x5103 then be 4 (portOf s half (sub - 1)).cuts
  else if index = 0x5104 || index = 0x5105 then be 4 (portOf s half (sub - 1)).discarded
  else if index = 0x5106 || index = 0x5107 then be 4 (portOf s half (sub - 1)).valid
  else if index = 0x5111 then be 2 b.portOutcome
  else if index = 0x5300 || index = 0x5301 then be 4 (portOf s half (sub - 1)).envFail
  else be 4 (match modeRec s (sub - 1) with | some m => modeWord m | none => 0)

/-- Tables 10.10 and 11.9. -/
def readVital (s : State) (index sub : Nat) : List Byte :=
  let id (kind : Nat) : List Byte := be 4 (welongId kind s.dict.modAddr (sub - 1) s.cfg.site)
  if index = 0x2400 then pick [be 1 s.casc.maxAge, be 1 s.casc.clearAge] sub
  else if index = 0x5302 then be 4 (controllerWord s (sub - 1))
  else if index = 0x5303 then be 4 (envOf s (sub - 1)).cvReports
  else if index = 0x5310 then id 1
  else if index = 0x5311 then id 2
  else if index = 0x5312 then id 3
  else if index = 0x5313 then be 2 (siteFold s.cfg.site)
  else if index = 0x2501 then be 1 (shownSetting s index sub s.lio.noDefaults)
  else if index = 0x3300 then be 4 (inputPairWord s sub)
  else if index = 0x3301 then be 4 (vitalOutWord s sub)
  else if index = 0x3302 then be 4 (tpWord (tabGet s.lio.tps sub ⟨false, 0, 0⟩))
  else if index = 0x3303 then be 4 (resetWord s)
  else pick [be 1 s.image.bus.ni, be 1 s.lio.no] sub

/-- Table 12.7. -/
def readTime (s : State) (index sub : Nat) : List Byte :=
  let t := s.time
  let q := stampQ s (64 + (index - 0x4100))
  let anchor (h : HalfClock) : List Byte := be 6 h.anchorCtr ++ time96 (h.anchor / 65536)
  if index = 0x4000 then
    pick [time96 (moduleTime s / 65536), be 2 (moduleTime s % 65536).toNat, be 4 (timeWord s), be 8 (moduleNs s), time96 (utcNs s)] sub
  else if index = 0x4001 then
    pick [[], [], beI 8 (twoGet t.halves (timeHalf s)).r, be 4 t.jump, [], beI 8 t.refused, be 2 t.outcome] sub
  else if index = 0x4010 then pick [be 1 t.select, beI 8 t.lastOffset] sub
  else if index = 0x4011 then pick [be 1 t.ptp.domain, be 1 t.ptp.timeout] sub
  else if index = 0x4012 then
    let m := currentMaster s
    pick [be 8 ((m.map (·.gm)).getD 0), be 4 t.ptp.pathDelay, be 2 ((m.map (·.steps)).getD 0), be 4 t.ptp.discarded] sub
  else if index = 0x4020 then pick [beI 2 t.leap, beI 1 t.leapAnn] sub
  else if index = 0x4030 then pick [anchor t.halves.a, anchor t.halves.b] sub
  else if index = 0x4031 then beI 4 t.diff
  else if index = 0x4110 then be 4 t.missed
  else pick [(match q.entries with | e :: _ => stampBytes e | [] => List.replicate 20 0#8), be 1 q.entries.length, be 4 q.overflow,
             be 2 q.select] sub

/-- A session's report record (object 0x3410 sub 2). -/
def readReport32 (s : State) (n : Nat) : List Byte :=
  if s.datum.addr ≠ s.dict.modAddr then List.replicate 32 0#8
  else match s.datum.reports.find? (fun r => r.addr = (sessOf s n).bridgeSel) with
    | some r => cut (r.bytes ++ List.replicate 32 0#8) 0 32
    | none => List.replicate 32 0#8

/-- Table 13.17. -/
def readPair (s : State) (n index sub : Nat) : List Byte :=
  let p := s.pair
  let b := s.bridge
  if index = 0x2600 then
    pick [be 2 p.partnerAddr, be 1 (b2n p.preferred), be 1 (b2n p.takeback), be 2 p.stabilityS, be 2 s.casc.etherSet] sub
  else if index = 0x2601 then pick [be 2 s.datum.addr, be 1 (b2n s.datum.syncDriver)] sub
  else if index = 0x2602 then be 2 (s.datum.downstream.getD (sub - 1) 0xFFFF)
  else if index = 0x2610 then be 1 (b.access.getD (sub - 1) 0)
  else if index = 0x3400 then be 4 (pairWord s)
  else if index = 0x3401 then pick [be 4 (pathWord s s.casc.paths.a), be 4 (pathWord s s.casc.paths.b), be 4 (pathWord s s.casc.paths.c)] sub
  else if index = 0x3402 then be 4 (boardWord s.casc)
  else if index = 0x3403 then pick [be 4 s.casc.dups, be 4 s.casc.refused] sub
  else if index = 0x3410 then pick [be 2 (sessOf s n).bridgeSel, readReport32 s n] sub
  else if index = 0x3420 then
    pick [(match b.failures with | f :: _ => failBytes f | [] => List.replicate 16 0#8), be 1 b.failures.length, be 4 b.failOvf,
          be 2 b.out.length] sub
  else if index = 0x3421 then beI 4 s.datum.syncDiff
  else pick [[], be 2 p.outcome, be 4 p.lastH] sub

/-- Table 15.9. -/
def readCare (s : State) (n index sub : Nat) : List Byte :=
  let x := sessOf s n
  if index = 0x3500 then pick [[], be 2 s.test.outcome, be 2 s.test.budget] sub
  else if index = 0x3501 then be 4 (testWord s (sub - 1))
  else if index = 0x3502 then be 8 (testOf s (sub - 1)).fail
  else if index = 0x3510 then pick (allLanes.map (fun l => be 4 (istWord (triGet s.test.ist l)))) sub
  else if index = 0x3511 then pick (allLanes.map (fun l => be 4 (triGet s.test.ist l).corrected)) sub
  else if index = 0x3610 then be 1 (s.age.warn.getD (sub - 1) 0)
  else if index = 0x3611 then be 2 s.age.threshold
  else if index = 0x3700 then pick [be 1 x.crcAlg, be 8 x.crcReg, [], be 8 (unitFinal x)] sub
  else if index = 0x9000 then
    pick [be 8 x.bookCur, [], be 4 x.passed, [], be 8 (bookOldest s), be 8 s.book.newest, be 4 s.book.lost, be 2 s.book.retired] sub
  else if index = 0x9100 then pick [be 4 x.chestCur, [], be 2 s.chest.recs.length, be 4 s.chest.newest] sub
  else if index = 0x9101 then pick [be 1 x.snapSel, be 4 x.snapOff, []] sub
  else be 4 (ageWord s (ageKey index sub))

/-- Table 16.10. -/
def readPower (s : State) (index sub : Nat) : List Byte :=
  let p := s.power
  let u := s.upd
  if index = 0x8000 then be 4 (powerWord s)
  else if index = 0x8001 then be 1 (p.votes.getD (sub - 1) 0xFF)
  else if index = 0x8002 then pick [be 2 p.holdS, be 8 p.wakeTime] sub
  else if index = 0x8003 then be 1 p.bankMask
  else if index = 0x8004 then pick [[], be 4 p.lastWake] sub
  else if index = 0x8010 then pick [[], be 1 p.step, be 2 p.confirmOutcome] sub
  else if index = 0x8040 then pick [be 1 (b2n u.accept), be 1 (b2n u.auto), be 1 (b2n u.rollback)] sub
  else if index = 0x8041 then pick [[], be 2 u.outcome, be 2 u.nextBlock] sub
  else if index = 0x8042 then pick [be 4 u.bufOffset, []] sub
  else if index = 0x8043 then pick [[], be 2 u.installOutcome, be 4 (installWord s)] sub
  else if index = 0x8044 then be 2 (u.fwdOutcomes.getD (sub - 1) 0)
  else pick [be 4 u.newVersion, be 4 u.fallback] sub

/-- The part of the dictionary an object lies in. -/
def readPart (s : State) (n index sub : Nat) : List Byte :=
  if index < 0x2010 || index = 0x2010 || (0x3000 ≤ index && index ≤ 0x3010) then readIdent s n index sub
  else if index = 0x2100 || (0x3100 ≤ index && index ≤ 0x3104) || index = 0x8100 || index = 0x8101 then readVote s index sub
  else if (0x2300 ≤ index && index ≤ 0x2310) || (0x6000 ≤ index && index < 0x7000) then readKernel s n index sub
  else if index = 0x2320 || (0x7000 ≤ index && index < 0x8000) || (0x8300 ≤ index && index ≤ 0x8305) then readProgram s n index sub
  else if 0x8200 ≤ index && index ≤ 0x8220 then readLoad s index sub
  else if (0x3200 ≤ index && index ≤ 0x3210) || (0x5000 ≤ index && index ≤ 0x5301) then readBus s n index sub
  else if index = 0x2400 || index = 0x2501 || (0x3300 ≤ index && index ≤ 0x3305) || (0x5302 ≤ index && index ≤ 0x5313) then
    readVital s index sub
  else if 0x4000 ≤ index && index ≤ 0x4110 then readTime s index sub
  else if (0x2600 ≤ index && index ≤ 0x2610) || (0x3400 ≤ index && index ≤ 0x3421) || index = 0x8110 then readPair s n index sub
  else if (0x3500 ≤ index && index ≤ 0x3700) || 0x9000 ≤ index then readCare s n index sub
  else readPower s index sub

/-- The value of an object for a session (R544, R546); a write-only object reads as zeros of its type's length. -/
def readValue (s : State) (n : Nat) (r : ObjRow) (index sub : Nat) : List Byte :=
  if r.acc = 2 then List.replicate (typeLen r.ty) 0#8 else readPart s n index sub

/-- The windows whose reading moves a cursor (R570, R596, R176, R326). -/
def readWindow (s : State) (n index sub : Nat) : Option (State × Nat × List Byte) :=
  if index = 0x9000 && sub = 2 then some (bookReadFn n s)
  else if index = 0x9100 && sub = 2 then some (chestReadFn n true s)
  else if index = 0x9101 && sub = 3 then some (snapReadFn n s)
  else if index = 0x6401 && sub = 2 then some (eventRecordFn n s)
  else if index = 0x7020 && sub = 5 then some (forceRecordFn n s)
  else none

end Sys2Proof.Machine
end

