-- ==== Sys2Proof/Machine/ObjWrite.lean ====
section
/-! DEFINITION. Writing an object (R532, R543, R546, R562): the range, reserved-bit and function checks made as the write is
applied, and its effect; and the read-clear objects of the commons. A write answers its result code and the value it left. -/

namespace Sys2Proof.Machine

/-- A write done: its effect, OK, the value. -/
def wrote (v : List Byte) (s : State) : State × Nat × List Byte := (s, rOk, v)

/-- A number written inside its range, else RANGE. -/
def ranged (lo hi : Nat) (v : List Byte) (f : Nat → State) (s : State) : State × Nat × List Byte :=
  if lo ≤ ofBe v && ofBe v ≤ hi then wrote v (f (ofBe v)) else (s, rRange, [])

/-- A BOOL written (Table 14.3). -/
def boolean (v : List Byte) (f : Bool → State) (s : State) : State × Nat × List Byte :=
  ranged 0 1 v (fun x => f (decide (x = 1))) s

/-- A word whose bits from `n` up are reserved (R11). -/
def reserved (n : Nat) (v : List Byte) (f : Nat → State) (s : State) : State × Nat × List Byte :=
  if ofBe v < 2 ^ n then wrote v (f (ofBe v)) else (s, rReservedBit, [])

/-- A module address, or 0xFFFF unset. -/
def address (v : List Byte) (f : Nat → State) (s : State) : State × Nat × List Byte :=
  if ofBe v = 0xFFFF then wrote v (f 0xFFFF) else reserved 12 v f s

/-- A command code handed to a function; RANGE for one that names none. -/
def command (f : Option (State → State × Nat × List Byte)) (s : State) : State × Nat × List Byte :=
  match f with
  | some g => g s
  | none => (s, rRange, [])

/-- One 32-bit part of a 96-bit mask replaced. -/
def putPart (m : BitVec 96) (sub v : Nat) : BitVec 96 :=
  BitVec.ofNat 96 (m.toNat - maskPart m sub * 2 ^ (32 * (sub - 1)) + v % 2 ^ 32 * 2 ^ (32 * (sub - 1)))

/-- EtherTypes that object 0x5001 refuses (Table 9.15). -/
def etherOk (v : Nat) : Bool := 0x0600 ≤ v && v ≠ 0x8100

/-- Network settings waiting to take effect, or those in force. -/
def netPending (s : State) : NetSettings := ((s.dict.netNew).map (·.1)).getD s.dict.net

/-- A network setting written (R563): it takes effect 5 s later. -/
def putNet (v : List Byte) (f : NetSettings → NetSettings) (s : State) : State × Nat × List Byte :=
  wrote v { s with dict := { s.dict with netNew := some (f (netPending s), s.ns + 5 * secNs) } }

/-- Object 0x1100 (Table 14.14). -/
def writeNet (sub : Nat) (v : List Byte) (s : State) : State × Nat × List Byte :=
  let x := ofBe v
  if sub = 1 then putNet v (fun n => { n with ip4 := x }) s
  else if sub = 2 then (if 8 ≤ x && x ≤ 30 then putNet v (fun n => { n with prefix4 := x }) s else (s, rRange, []))
  else if sub = 3 then putNet v (fun n => { n with gateway := x }) s
  else if sub = 4 then (if v.length = 16 then putNet v (fun n => { n with ip6 := v }) s else (s, rLength, []))
  else if sub = 5 then (if 16 ≤ x && x ≤ 128 then putNet v (fun n => { n with prefix6 := x }) s else (s, rRange, []))
  else if 1024 ≤ x && x ≠ 319 && x ≠ 320 then putNet v (fun n => { n with udpPort := x }) s
  else (s, rRange, [])

/-- A verifier written (object 0x1210, R537): the digest over the serial number and the credential; length 0 unsets. -/
def writeCredential (sub : Nat) (v : List Byte) (s : State) : State × Nat × List Byte :=
  let t := if v = [] then tabDel s.dict.creds sub else tabPut s.dict.creds sub (Config.shake256 (be 8 s.ident.serial ++ v))
  wrote [] { s with dict := { s.dict with creds := t } }

/-- EVENT_PENDING_CLEAR (R559): pending bits cleared by ones, for every session. -/
def clearPending (sub : Nat) (v : List Byte) (s : State) : State × Nat × List Byte :=
  let keep := maskPart s.ev.pend sub &&& (0xFFFFFFFF ^^^ ofBe v)
  wrote (be 4 keep) { s with ev := { s.ev with pend := putPart s.ev.pend sub keep } }

/-- Table 14.14. -/
def writeIdent (n index sub : Nat) (v : List Byte) (s : State) : State × Nat × List Byte :=
  let d := s.dict
  if index = 0x1010 then address v (fun x => { s with dict := { d with modAddrSet := x } }) s
  else if index = 0x1100 then writeNet sub v s
  else if index = 0x1110 then
    (if sub = 1 then ranged 5 3600 v (fun x => { s with dict := { d with timeoutS := x } }) s
     else if sub = 2 then ranged 1 20 v (fun x => { s with dict := { d with lockN := x } }) s
     else if sub = 3 then ranged 10 3600 v (fun x => { s with dict := { d with lockS := x } }) s
     else boolean v (fun x => { s with dict := { d with welong := x } }) s)
  else if index = 0x1202 then wrote v (modSess n (fun y => { y with mask := putPart y.mask sub (ofBe v) }) s)
  else if index = 0x1210 then writeCredential sub v s
  else if index = 0x2010 then wrote v { s with ev := { s.ev with enable := putPart s.ev.enable sub (ofBe v) } }
  else clearPending sub v s

/-- A setting of object 0x2100: it takes effect at the tick after the one that applies it (R253). -/
def laterSetting (sub lo hi : Nat) (v : List Byte) (s : State) : State × Nat × List Byte :=
  ranged lo hi v (fun x => { s with vote := { s.vote with nextSet := tabPut s.vote.nextSet sub x } }) s

/-- Settings of the lanes and their commands (Tables 3.8, 5.6, 6.12, 8.8). -/
def writeVote (index sub : Nat) (v : List Byte) (s : State) : State × Nat × List Byte :=
  let x := ofBe v
  if index = 0x2100 then
    (if sub = 1 then laterSetting 1 50 95 v s else if sub = 2 then laterSetting 2 1 64 v s
     else if sub = 3 then laterSetting 3 0 1 v s else laterSetting 4 1 10 v s)
  else if index = 0x2300 then reserved 2 v (fun x => { s with set := { s.set with portCfg := tabPut s.set.portCfg (sub - 1) x } }) s
  else if index = 0x2301 then ranged 1 2048 v (fun x => { s with set := { s.set with simThrows := x } }) s
  else if index = 0x2310 then
    (if sub = 1 then ranged 1 10 v (fun x => { s with set := { s.set with confirmC := x } }) s
     else ranged 1 50 v (fun x => { s with set := { s.set with clearE := x } }) s)
  else if index = 0x2320 then
    (if sub = 1 then ranged 1 10 v (fun x => { s with progLoad := { s.progLoad with faultStop := x } }) s
     else ranged 4 255 v (fun x => { s with progLoad := { s.progLoad with switchLead := x } }) s)
  else if index = 0x2501 then wrote v { s with lio := { s.lio with noDefaults := x } }
  else if index = 0x8100 then
    command (if x = 0xFF then some cancelFn
             else if 1 ≤ x && x ≤ 3 then (laneOf? (x - 1)).map withdrawFn
             else if 0x11 ≤ x && x ≤ 0x13 then (laneOf? (x - 0x11)).map returnFn else none) s
  else command (if x = 1 then some enterFn else if x = 2 then some leaveFn else none) s

/-- Table 2.10 and Table 8.9. DESIGN CHOICE, log 25 (safe). -/
def writeSlots (n index sub : Nat) (v : List Byte) (s : State) : State × Nat × List Byte :=
  let x := ofBe v
  let l := s.load
  if index = 0x8201 then loadControlFn n x s
  else if index = 0x8202 then
    (if sub = 1 then wrote v { s with load := { l with offset := x } } else windowFn (loadWindowFn n) v s)
  else if index = 0x8204 then activateFn x s
  else if index = 0x8206 then boolean v (fun b => { s with load := { l with rollback := b } }) s
  else if index = 0x8207 then wrote v { s with load := { l with site := x } }
  else if index = 0x8212 then
    (if sub = 1 then keyActionFn n x s else wrote [] { s with load := { l with keyWindow := l.keyWindow ++ v } })
  else if index = 0x8301 then progControlFn n x s
  else if sub = 1 then wrote v { s with progLoad := { s.progLoad with offset := x } }
  else windowFn (progWindowFn n) v s

/-- An output selection names a kind of Table 7.7, and port 0 for a local output. -/
def outputSelOk (v : Nat) : Bool :=
  1 ≤ v / 2 ^ 24 && v / 2 ^ 24 ≤ 5 && (v / 2 ^ 24 ≠ 5 || (bits v 23 16 = 0 && 1 ≤ v % 65536 && v % 65536 ≤ 16))

/-- Tables 7.6, 9.15, 10.10, 11.9. -/
def writeBus (n index sub : Nat) (v : List Byte) (s : State) : State × Nat × List Byte :=
  let x := ofBe v
  if index = 0x3210 then
    (if outputSelOk x || x = 0 then wrote v (modSess n (fun y => { y with outputSel := x }) s) else (s, rRange, []))
  else if index = 0x5001 then
    (if etherOk x then wrote v { s with bus := { s.bus with etherSet := x } } else (s, rRange, []))
  else if index = 0x5010 then modeRequestFn x s
  else if index = 0x5110 then
    (if bits x 6 4 ≠ 0 then (s, rReservedBit, [])
     else if x / 256 = 0 || 3 < x / 256 then (s, rRange, [])
     else portCommand (x / 256) (if bit x 7 then .b else .a) (x % 16) s)
  else if index = 0x2400 then
    (if sub = 1 then ranged 1 64 v (fun x => { s with casc := { s.casc with maxAge := x } }) s
     else ranged 1 64 v (fun x => { s with casc := { s.casc with clearAge := x } }) s)
  else if sub = 1 then ackPairsFn x s
  else if sub = 2 then ackOutputsFn x s
  else if x = 1 then ackKeyFn s
  else if x = 0 then wrote [] s
  else (s, rRange, [])

/-- A session's selected source no longer serves: the source in use is lost (R454, R456). DESIGN CHOICE, log 77 (safe). -/
def reselect (s : State) : State :=
  if (s.time.src = 1 && !ptpUsed s) || (s.time.src = 2 && !datumUsed s) then loseSource s else s

/-- Leap values written while no source gives them (R459). DESIGN CHOICE, log 75 (unsafe). -/
def writeLeap (sub : Nat) (v : List Byte) (s : State) : State × Nat × List Byte :=
  if s.time.src = 1 || s.time.src = 2 then (s, rAccess, [])
  else if sub = 1 then wrote v (setLeap (ofBeI v) s.time.leapAnn s)
  else if -1 ≤ ofBeI v && ofBeI v ≤ 1 then wrote v (setLeap s.time.leap (ofBeI v) s)
  else (s, rRange, [])

/-- Table 12.7. -/
def writeTime (index sub : Nat) (v : List Byte) (s : State) : State × Nat × List Byte :=
  let x := ofBe v
  let t := s.time
  if index = 0x4001 then
    (if sub = 1 then corrReply (offsetInc (ofBeI v)) s
     else if sub = 2 then corrReply (rateInc (ofBeI v)) s
     else if sub = 4 then ranged 10000 1000000000 v (fun x => { s with time := { t with jump := x } }) s
     else if sub = 5 then corrReply (stepTime (ofBeI v)) s
     else if x = 1 then ackRefusalFn s
     else if x = 0 then wrote [] s
     else (s, rRange, []))
  else if index = 0x4010 then ranged 0 3 v (fun x => reselect { s with time := { t with select := x } }) s
  else if index = 0x4011 then
    (if sub = 1 then ranged 0 127 v (fun x => modPtp (fun p => { p with domain := x }) s) s
     else ranged 2 10 v (fun x => modPtp (fun p => { p with timeout := x }) s) s)
  else if index = 0x4020 then writeLeap sub v s
  else
    let q := 64 + (index - 0x4100)
    reserved (if q < 68 then 8 else 2) v (fun x =>
      { s with time := { t with stamps := tabPut t.stamps q { stampQ s q with select := x } } }) s

/-- Table 13.17. DESIGN CHOICE, log 75 (unsafe). -/
def writePair (n index sub : Nat) (v : List Byte) (s : State) : State × Nat × List Byte :=
  let x := ofBe v
  let p := s.pair
  if index = 0x2600 then
    (if sub = 1 then address v (fun a => { s with pair := { p with partnerAddr := a, formed := p.formed && a = p.partnerAddr } }) s
     else if sub = 2 then boolean v (fun b => { s with pair := { p with preferred := b } }) s
     else if sub = 3 then boolean v (fun b => { s with pair := { p with takeback := b } }) s
     else if sub = 4 then ranged 10 3600 v (fun x => { s with pair := { p with stabilityS := x } }) s
     else wrote v { s with casc := { s.casc with etherSet := x } })
  else if index = 0x2601 then
    (if sub = 1 then address v (fun a => { s with datum := { s.datum with addr := a } }) s
     else boolean v (fun b => { s with datum := { s.datum with syncDriver := b } }) s)
  else if index = 0x2602 then
    address v (fun a => { s with datum := { s.datum with downstream := s.datum.downstream.set (sub - 1) a } }) s
  else if index = 0x2610 then
    ranged 0 2 v (fun x => { s with bridge := { s.bridge with access := s.bridge.access.set (sub - 1) x } }) s
  else if index = 0x3410 then wrote v (modSess n (fun y => { y with bridgeSel := x }) s)
  else command (if x = 1 then some handOverFn else if x = 2 then some coldHandOverFn else if x = 3 then some resyncFn else none) s

/-- A self-test command (Table 15.5); the restart of a half needs what its circuits report and has a command of its own.
DESIGN CHOICE, log 76 (safe). -/
def writeTest (v : List Byte) (s : State) : State × Nat × List Byte :=
  let inst := field v 2 1
  if v.length ≠ 6 then (s, rLength, [])
  else if field v 3 1 ≠ 0 then (s, rReservedBit, [])
  else command (if field v 0 1 = 1 then some (testRunFn (field v 1 1) inst (field v 4 2))
                else if field v 0 1 = 2 then some (testStopFn inst)
                else if field v 0 1 = 0x10 then some (takeOutFn inst) else none) s

/-- Table 15.9. -/
def writeCare (n index sub : Nat) (v : List Byte) (s : State) : State × Nat × List Byte :=
  let x := ofBe v
  if index = 0x3500 then
    (if sub = 1 then writeTest v s else ranged 5 500 v (fun x => { s with test := { s.test with budget := x } }) s)
  else if index = 0x3610 then ranged 5 90 v (fun x => { s with age := { s.age with warn := s.age.warn.set (sub - 1) x } }) s
  else if index = 0x3611 then clockRestoreFn x s
  else if index = 0x3700 then
    (if sub = 1 then crcSelectFn n x s else if sub = 2 then crcValueFn n x s else crcDataFn n v s)
  else if index = 0x9000 then
    (if sub = 1 then bookCursorFn n x s else bookSeekFn n (field v 0 8 * secNs + field v 8 4 : Nat) s)
  else if index = 0x9100 then wrote v (modSess n (fun y => { y with chestCur := x }) s)
  else if index = 0x9101 then
    (if sub = 1 then ranged 0 1 v (fun x => modSess n (fun y => { y with snapSel := x }) s) s
     else wrote v (modSess n (fun y => { y with snapOff := x }) s))
  else chestClearFn n x s

/-- An update command (R616): open or abandon; a block needs the read-back of the new area and has a command of its own.
DESIGN CHOICE, log 76 (safe). -/
def writeUpdate (v : List Byte) (s : State) : State × Nat × List Byte :=
  if v.length ≠ 8 then (s, rLength, [])
  else if field v 1 1 ≠ 0 then (s, rReservedBit, [])
  else command (if field v 0 1 = 1 then some updateOpenFn else if field v 0 1 = 3 then some updateAbandonFn else none) s

/-- Table 16.10. `origin` is the module a proxied vote comes from. -/
def writePower (origin : Option Nat) (index sub : Nat) (v : List Byte) (s : State) : State × Nat × List Byte :=
  let x := ofBe v
  let p := s.power
  let u := s.upd
  if index = 0x8001 then voteFn origin sub x s
  else if index = 0x8002 then
    (if sub = 1 then ranged 1 3600 v (fun x => { s with power := { p with holdS := x } }) s
     else wrote v { s with power := { p with wakeTime := x } })
  else if index = 0x8003 then wrote v { s with power := { p with bankMask := x } }
  else if index = 0x8004 then wakeRetryFn x s
  else if index = 0x8010 then confirmFn x s
  else if index = 0x8040 then
    boolean v (fun b =>
      if sub = 1 then { s with upd := { u with accept := b } }
      else if sub = 2 then { s with upd := { u with auto := b } } else { s with upd := { u with rollback := b } }) s
  else if index = 0x8041 then writeUpdate v s
  else if index = 0x8042 then
    (if sub = 1 then ranged 0 65535 v (fun x => { s with upd := { u with bufOffset := x } }) s else bufferWindowFn v s)
  else command (if x = 1 then some installRollingFn else if x = 2 then some installAllFn else if x = 3 then some installStopFn else none) s

/-- The selections of a session among the lane objects (Table 14.5). -/
def writeSelect (n index : Nat) (v : List Byte) (s : State) : State × Nat × List Byte :=
  let x := ofBe v
  if index = 0x6401 then wrote v (modSess n (fun y => { y with eventCur := x }) s)
  else if index = 0x6501 then wrote v (modSess n (fun y => { y with carrierSel := x }) s)
  else if index = 0x7010 then
    (if v.length = 10 then wrote v (modSess n (fun y => { y with varSel := v }) s) else (s, rLength, []))
  else wrote v (modSess n (fun y => { y with forceCur := x }) s)

/-- A request written to its mailbox (R89 to R92): it enters the port's queue with its stamp. DESIGN CHOICE, log 75
(unsafe). DESIGN CHOICE, log 75 (unsafe). -/
def writeMailbox (n : Nat) (level : Level) (port : Nat) (v : List Byte) (s : State) : State × Nat × List Byte :=
  if v.length ≠ 8 then (s, rLength, [])
  else if port < 2 then (s, rAccess, [])
  else if queueCap ≤ (tabGet s.queues port []).length then (noteDepth (112 + port) queueCap true s, rBusy, [])
  else
    let r := ingressStamp port s
    (enqueue (parseReq v port r.1 n 0 level) r.2, rOk, [])

/-- The effect of a write that the commons applies. -/
def writePart (n : Nat) (origin : Option Nat) (level : Level) (index sub : Nat) (v : List Byte) (s : State) : State × Nat × List Byte :=
  if 0x6010 ≤ index && index ≤ 0x601F then writeMailbox n level (index - 0x6010) v s
  else if 0x6000 ≤ index && index < 0x8000 then writeSelect n index v s
  else if index ≤ 0x1210 || index = 0x2010 || (0x3000 ≤ index && index ≤ 0x3010) then writeIdent n index sub v s
  else if (0x2100 ≤ index && index ≤ 0x2320) || index = 0x2501 || index = 0x8100 || index = 0x8101 then writeVote index sub v s
  else if 0x8200 ≤ index && index ≤ 0x8305 then writeSlots n index sub v s
  else if index = 0x2400 || index = 0x3210 || index = 0x3304 || (0x5000 ≤ index && index ≤ 0x5313) then writeBus n index sub v s
  else if 0x4000 ≤ index && index ≤ 0x4110 then writeTime index sub v s
  else if (0x2600 ≤ index && index ≤ 0x2610) || (0x3400 ≤ index && index ≤ 0x3421) || index = 0x8110 then writePair n index sub v s
  else if (0x3500 ≤ index && index ≤ 0x3700) || 0x9000 ≤ index then writeCare n index sub v s
  else writePower origin index sub v s

/-! ## Read-clear -/

/-- A queue's state word cleared (R560): HIGH starts again from the present depth. -/
def clearQueue (q : Nat) (s : State) : State :=
  { s with dict := { s.dict with qstats := tabPut s.dict.qstats q ⟨queueDepth s q, false⟩ } }

/-- What an RC read of a commons object clears (R546). -/
def clearPart (n index sub : Nat) (s : State) : State :=
  let half : Half := if index % 2 = 0 then .a else .b
  let p := sub - 1
  if index = 0x3000 then { s with dict := { s.dict with discarded := 0 } }
  else if index = 0x3002 then { s with ev := { s.ev with counts := tabPut s.ev.counts p 0 } }
  else if index = 0x3010 then clearQueue p s
  else if index = 0x3101 then
    { s with vote := (if sub = 2 then { s.vote with unanimous := 0 } else if sub = 3 then { s.vote with majority := 0 }
                      else if sub = 4 then { s.vote with unforwarded := 0 } else { s.vote with longest := 0 }) }
  else if index = 0x3102 then { s with vote := { s.vote with disagree := 0 } }
  else if index = 0x3201 || index = 0x3202 then
    { s with tres := twoMod s.tres (if index = 0x3201 then .a else .b) (fun t =>
        if sub = 1 then { t with withheld := 0 } else if sub = 2 then { t with conflicts := 0 }
        else if sub = 3 then { t with longEval := 0 } else { t with longWalk := 0 }) }
  else if index = 0x5020 || index = 0x5021 then
    modChan half (fun c => if sub = 3 then { c with largest := 0 } else { c with weak := 0 }) s
  else if index = 0x5102 || index = 0x5103 then modPort half p (fun x => { x with cuts := 0 }) s
  else if index = 0x5104 || index = 0x5105 then modPort half p (fun x => { x with discarded := 0 }) s
  else if index = 0x5106 || index = 0x5107 then modPort half p (fun x => { x with valid := 0 }) s
  else if index = 0x5300 || index = 0x5301 then modPort half p (fun x => { x with envFail := 0 }) s
  else if index = 0x5303 then { s with env := tabMod s.env p EnvPort.init (fun v => { v with cvReports := 0 }) }
  else if index = 0x4012 then modPtp (fun t => { t with discarded := 0 }) s
  else if index = 0x4110 then { s with time := { s.time with missed := 0 } }
  else if 0x4100 ≤ index && index ≤ 0x4107 then
    let q := 64 + (index - 0x4100)
    let x := stampQ s q
    let y : StampQ := if sub = 1 then { x with entries := x.entries.drop 1 } else { x with overflow := 0 }
    { s with time := { s.time with stamps := tabPut s.time.stamps q y } }
  else if index = 0x3403 then
    { s with casc := (if sub = 1 then { s.casc with dups := 0 } else { s.casc with refused := 0 }) }
  else if index = 0x3420 then
    { s with bridge := (if sub = 1 then { s.bridge with failures := s.bridge.failures.drop 1 } else { s.bridge with failOvf := 0 }) }
  else if index = 0x3511 then
    match laneOf? p with
    | some l => { s with test := { s.test with ist := triMod s.test.ist l (fun x => { x with corrected := 0 }) } }
    | none => s
  else if sub = 3 then modSess n (fun y => { y with passed := 0 }) s
  else { s with book := { s.book with lost := 0 } }

end Sys2Proof.Machine
end

