-- ==== Sys2Proof/Machine/DictRows.lean ====
section
/-! DEFINITION. The dictionary's services (R533 to R564): the datagram, its checks, the sessions, and the effect of each
service on acceptance; and what the dictionary does by time alone. -/

namespace Sys2Proof.Machine

/-! ## The datagram -/

/-- A request datagram as read (Table 14.1). -/
structure Dgram where
  version : Nat
  service : Nat
  session : Nat
  flags : Nat
  seq : Nat
  index : Nat
  sub : Nat
  resv : Nat
  stamp : Nat
  status : Nat
  result : Nat
  data : List Byte
  deriving DecidableEq, Repr

/-- The fields of a datagram (Table 14.1). -/
def readDgram (b : List Byte) : Dgram :=
  { version := field b 0 1, service := field b 1 1, session := field b 2 1, flags := field b 3 1, seq := field b 4 4,
    index := field b 8 2, sub := field b 10 1, resv := field b 11 1, stamp := field b 14 2, status := field b 16 2,
    result := field b 18 2, data := cut b 20 (field b 12 2) }

/-- A datagram that is not discarded (R533, R535): its length, its CRC-32C, and that it is a request. -/
def dgramOk (b : List Byte) : Bool :=
  24 ≤ b.length && b.length ≤ 1400 && b.length = 24 + field b 12 2 && field b 1 1 < 128 &&
  crcOf crc32c (b.take (b.length - 4)) = field b (b.length - 4) 4

/-- Service codes (Table 14.2). -/
def svOpen : Nat := 0x01
def svClose : Nat := 0x02
def svStatus : Nat := 0x03
def svRead : Nat := 0x10
def svWrite : Nat := 0x11
def svDescribe : Nat := 0x12
def svEvents : Nat := 0x20
def svProxy : Nat := 0x30

/-- Services of Table 14.2. -/
def services : List Nat := [svOpen, svClose, svStatus, svRead, svWrite, svDescribe, svEvents, svProxy]

/-- Services whose request carries no data. -/
def noDataServices : List Nat := [svClose, svStatus, svRead, svDescribe]

/-- OPEN's own data are well formed (Table 14.2). -/
def openShape (d : List Byte) : Bool :=
  4 ≤ d.length && field d 0 1 ≤ 3 && field d 1 1 = 0 && field d 2 1 ≤ 32 && field d 3 1 = 0 && d.length = 4 + field d 2 1

/-- PROXY's own data are well formed: a target and one complete request datagram (Table 14.2). -/
def proxyShape (d : List Byte) : Bool := 28 ≤ d.length && field d 2 2 = 0

/-- A header fault that is answered BAD-REQUEST (R535, Table 14.6). DESIGN CHOICE, log 68 (unsafe). -/
def badRequest (d : Dgram) : Bool :=
  d.version ≠ 1 || !services.contains d.service || d.flags ≠ 0 || d.resv ≠ 0 || d.status ≠ 0 || d.result ≠ 0 ||
  (noDataServices.contains d.service && d.data ≠ []) ||
  (d.service = svOpen && (d.session ≠ 0xFF || d.stamp ≠ 0 || !openShape d.data)) ||
  (d.service = svEvents && d.data.length ≠ 4) || (d.service = svProxy && !proxyShape d.data)

/-- The reply to a request, in a session of a number and stamp. -/
def replyTo (src : Source) (d : Dgram) (session stamp result : Nat) (data : List Byte) : Reply :=
  { dest := src, service := 128 + d.service, session := session, resent := false, seq := d.seq, index := d.index, sub := d.sub,
    stamp := stamp, status := 0, result := result, data := data }

/-- A datagram discarded without reply and counted (object 0x3000 sub 6). -/
def dropDgram (s : State) : State := { s with dict := { s.dict with discarded := sat 0xFFFFFFFF (s.dict.discarded + 1) } }

/-- The dictionary runs: the module is in no state in which the commons are off (Table 16.1). DESIGN CHOICE, log 74 (safe). -/
def dictAlive (s : State) : Bool := s.power.pfail = 0 && s.power.st ≠ .standby && s.power.st ≠ .off

/-- Receive stamp of a maintenance datagram (Tables 12.4, 12.5). -/
def receiveStamp (src : Source) (d : Dgram) (s : State) : State :=
  match src with
  | .udp _ _ => stamp 69 1 (portStamp 69 d.seq false (moduleTime s)) s
  | _ => s

/-- The request's session, when it is open, the stamp is its own and the source is the one that opened it (R536), and
controllers may hold sessions (object 0x1110 sub 4). -/
def inSession (s : State) (src : Source) (d : Dgram) : Bool :=
  let x := sessOf s d.session
  d.session < 16 && x.opened && x.stamp = d.stamp && x.src = src &&
  (match src with | .welong _ => s.dict.welong | _ => true)

/-! ## Sessions -/

/-- A sequence newer than the newest accepted (R541). -/
def laterSeq (seq newest : Nat) : Bool :=
  let d := (seq + 2 ^ 32 - newest % 2 ^ 32) % 2 ^ 32
  1 ≤ d && d < 2 ^ 31

/-- The copy of a Welong datagram that comes by the other channel (R541). -/
def otherCopy (s : State) (x : Session) (ch : Option Half) (d : Dgram) : Bool :=
  match x.src with
  | .welong _ => d.seq = x.newest && ch ≠ x.seenChan && s.bus.counter ≤ x.seenAt + 2
  | _ => false

/-- Requests of a session not yet answered (R542). -/
def unanswered (x : Session) : Nat := x.queue.length + x.due.length

/-- Places of a session's inbound queue (R542). -/
def sessionCap : Nat := 8

/-- A request of a session accepted (R541, R542). DEDUCED, log 69 (unsafe). -/
def acceptReq (n : Nat) (ch : Option Half) (d : Dgram) (s : State) : State :=
  noteDepth (80 + n) (unanswered (sessOf s n) + 1) false
    (modSess n (fun x => { x with newest := d.seq, last := s.ns, seenChan := ch, seenAt := s.bus.counter }) s)

/-- What a request in a session meets before its service (R541, R542): a copy, a kept reply, an old sequence, a full queue;
otherwise it is accepted and `f` serves it. -/
def admitReq (src : Source) (ch : Option Half) (d : Dgram) (f : State → State) (s : State) : State :=
  let n := d.session
  let x := sessOf s n
  if otherCopy s x ch d then s
  else match x.kept.find? (fun r => r.seq = d.seq) with
    | some r => emit { r with resent := true, status := sessionStatus s n } s
    | none =>
      if !laterSeq d.seq x.newest then dropDgram s
      else if sessionCap ≤ unanswered x then
        emit { replyTo src d n d.stamp rBusy [] with status := sessionStatus s n } (noteDepth (80 + n) sessionCap true s)
      else f (acceptReq n ch d s)

/-- The reply to a request of a session. DEDUCED, log 69 (unsafe). -/
def answer (src : Source) (d : Dgram) (result : Nat) (data : List Byte) (s : State) : State :=
  match src with
  | .proxy _ _ => sendLoose (replyTo src d 0xFF 0 result data) s
  | _ => sendReply d.session (replyTo src d d.session d.stamp result data) s

/-- A request served in its session, or in the proxy session when it came by the bridge (R536, R564). -/
def inAnySession (src : Source) (ch : Option Half) (d : Dgram) (f : State → State) (s : State) : State :=
  match src with
  | .proxy _ _ => f s
  | _ => if inSession s src d then admitReq src ch d f s else sendLoose (replyTo src d 0xFF 0 rSession []) s

/-- Number of the session a request's objects belong to. -/
def sessNo (src : Source) (d : Dgram) : Nat := match src with | .proxy _ _ => proxySess | _ => d.session

/-- Level of a request: its session's; a proxied one's is never above Operator (R564). -/
def reqLevel (s : State) (src : Source) (n : Nat) : Level :=
  match src with
  | .proxy _ l => if levelRank l ≤ 1 then l else .operator
  | _ => (sessOf s n).level

/-- The module a proxied request comes from. -/
def originOf (src : Source) : Option Nat := match src with | .proxy m _ => some m | _ => none

/-- A datagram through the checks of R535, then `f`; `own` picks the service of the command. -/
def withRequest (own : Dgram → Bool) (f : Dgram → State → State) (src : Source) (b : List Byte) (s : State) : State :=
  if !dictAlive s then s
  else if !dgramOk b then dropDgram s
  else
    let d := readDgram b
    let bad := badRequest d || (originOf src).isSome && [svOpen, svClose, svEvents, svProxy].contains d.service
    if bad then
      let s := receiveStamp src d s
      if inSession s src d then sendLoose (replyTo src d d.session d.stamp rBadRequest []) s
      else sendLoose (replyTo src d 0xFF 0 rBadRequest []) s
    else if own d then f d (receiveStamp src d s) else s

/-! ## OPEN -/

/-- The lowest free session number (R537). -/
def freeSession (s : State) : Option Nat := (List.range 16).find? (fun n => !(sessOf s n).opened)

/-- The credential fits the level (R537). -/
def credentialOk (s : State) (level : Nat) (cred : List Byte) : Bool :=
  match tabFind s.dict.creds (level + 1) with
  | some v => Config.shake256 (be 8 s.ident.serial ++ cred) = v
  | none => cred = [] && (level = 0 || (level = 3 && s.lio.key))

/-- The access level of a code (Table 14.2). -/
def levelAt (n : Nat) : Level := if n = 0 then .observer else if n = 1 then .operator else if n = 2 then .maintainer else .commissioner

/-- What a source's refused OPENs say of it. -/
def failOf (s : State) (src : Source) : OpenFail :=
  (s.dict.fails.find? (fun x => x.src = src)).getD { src := src, times := [], lockedTo := none }

/-- A source's refused OPENs changed; a source of which nothing is held is dropped. -/
def putFail (x : OpenFail) (s : State) : State :=
  let l := s.dict.fails.filter (fun y => y.src ≠ x.src)
  { s with dict := { s.dict with fails := if x.times = [] && x.lockedTo.isNone then l else l ++ [x] } }

/-- A source under lockout (R539). -/
def lockedOut (s : State) (src : Source) : Bool :=
  match (failOf s src).lockedTo with
  | some t => s.ns < t
  | none => false

/-- A CREDENTIAL refusal noted (R539, R540): event 86, and a lockout with its own event 86 at the last one allowed. DEDUCED,
log 71 (unsafe). DEDUCED, log 71 (unsafe). -/
def noteRefused (src : Source) (s : State) : State :=
  let x := failOf s src
  let times := (x.times.filter (fun t => s.ns < t + 60 * secNs)) ++ [s.ns]
  let s := raiseEv 86 noDetail s
  if s.dict.lockN ≤ times.length then
    raiseEv 86 noDetail (putFail { x with times := [], lockedTo := some (s.ns + s.dict.lockS * secNs) } s)
  else putFail { x with times := times, lockedTo := none } s

/-- A new stamp (R537): never 0 and never that of the last session of the number; otherwise free. -/
def newStamp (last : Nat) (s : State) : Nat × State :=
  let r := takeFree s
  let v := 1 + r.1 % 65535
  (if v = last then v % 65535 + 1 else v, r.2)

/-- A session opened (R537): event 86, raised before it opens (R557). -/
def openAt (n level : Nat) (src : Source) (ch : Option Half) (d : Dgram) (s : State) : State :=
  let s := raiseEv 86 n s
  let r := newStamp (sessOf s n).lastStamp s
  let s := r.2
  let x := { Session.closed with opened := true, level := levelAt level, src := src, stamp := r.1, lastStamp := r.1, newest := d.seq,
                                 seenChan := ch, seenAt := s.bus.counter, last := s.ns }
  let s := { s with dict := { s.dict with sessions := tabPut s.dict.sessions n x } }
  sendReply n (replyTo src d n r.1 rOk (be 1 level ++ be 1 0 ++ be 2 s.dict.timeoutS)) s

/-- A Welong copy of an OPEN already served on the other channel (R541). -/
def openCopy (s : State) (src : Source) (ch : Option Half) (d : Dgram) : Bool :=
  s.dict.sessions.any (fun p => p.2.opened && p.2.src = src && otherCopy s p.2 ch d)

/-- OPEN (R537 to R539). DEDUCED, log 71 (unsafe). -/
def openReq (src : Source) (ch : Option Half) (d : Dgram) (s : State) : State :=
  let level := field d.data 0 1
  let refuse (c : Nat) (s : State) : State := sendLoose (replyTo src d 0xFF 0 c []) s
  let barred := match src with | .welong _ => !s.dict.welong | _ => false
  if openCopy s src ch d then s
  else if barred then refuse rSession s
  else if lockedOut s src then refuse rLockedOut s
  else match freeSession s with
    | none => refuse rSessionFull s
    | some n =>
      if level = 3 && !s.lio.key then refuse rKey s
      else if !credentialOk s level (d.data.drop 4) then refuse rCredential (noteRefused src s)
      else openAt n level src ch d s

/-! ## The services of a session -/

/-- CLOSE (R540): the reply, then the session's end. -/
def closeReq (src : Source) (d : Dgram) (s : State) : State :=
  closeWhere (fun n _ => n = d.session) (answer src d rOk [] s)

/-- STATUS (R553). -/
def statusService (src : Source) (d : Dgram) (s : State) : State := answer src d rOk [] s

/-- The row of an object, or its refusal UNKNOWN-OBJECT or ABSENT (R561, R662). -/
def findObj (s : State) (index sub : Nat) : ObjRow ⊕ Nat :=
  match objRow s index sub with
  | some r => if portAbsent s index sub then .inr rAbsent else .inl r
  | none => .inr rUnknown

/-- DESCRIBE (R545). -/
def describeReq (src : Source) (d : Dgram) (s : State) : State :=
  match findObj s d.index d.sub with
  | .inl r => answer src d rOk r.descriptor s
  | .inr c => answer src d c [] s

/-- A request that waits for the tick (R546). -/
def queueReq (src : Source) (d : Dgram) (write : Bool) (s : State) : State :=
  let r : AtTick := { src := src, seq := d.seq, write := write, index := d.index, sub := d.sub, value := d.data }
  match src with
  | .proxy _ _ => { s with dict := { s.dict with proxied := s.dict.proxied ++ [r] } }
  | _ => modSess d.session (fun x => { x with queue := x.queue ++ [r] }) s

/-- STANDBY or MODULE-STATE of a request that acts on a lane object (R550, R551). -/
def laneBar (s : State) (standbyToo : Bool) (r : ObjRow) : Nat := if r.lane then laneRefusal s standbyToo else rOk

/-- READ of an object that is not RC (R544, R546). -/
def readReq (src : Source) (d : Dgram) (s : State) : State :=
  let n := sessNo src d
  match findObj s d.index d.sub with
  | .inr c => answer src d c [] s
  | .inl r =>
    match readWindow s n d.index d.sub with
    | some w => answer src d w.2.1 w.2.2 w.1
    | none => answer src d rOk (readValue s n r d.index d.sub) s

/-- READ of an RC object (R546): of the commons at once, of the lanes at the tick. -/
def clearReq (src : Source) (d : Dgram) (s : State) : State :=
  let n := sessNo src d
  match findObj s d.index d.sub with
  | .inr c => answer src d c [] s
  | .inl r =>
    if r.lane then
      (if laneBar s false r ≠ rOk then answer src d (laneBar s false r) [] s else queueReq src d false s)
    else
      let v := readValue s n r d.index d.sub
      answer src d rOk v (clearPart n d.index d.sub s)

/-- Writes that a standby accepts to lane objects (R499). -/
def standbyWrites (index sub : Nat) (v : List Byte) : Bool :=
  (0x8200 ≤ index && index ≤ 0x8220) || (0x8300 ≤ index && index ≤ 0x8305) ||
  (index = 0x7001 && sub = 1 && (ofBe v = 1 || ofBe v = 2))

/-- The checks of a write on acceptance (R546): the object, its access code, level, key and length; then the lanes' state. -/
def writeRefusal (s : State) (level : Level) (r : ObjRow) (index sub : Nat) (v : List Byte) : Nat :=
  if r.acc = 0 || r.acc = 4 then rAccess
  else if levelRank level < r.lvl then rLevel
  else if r.lvl = 3 && !s.lio.key then rKey
  else if !r.lengthOk v.length then rLength
  else laneBar s (standbyWrites index sub v) r

/-- WRITE (R546): refused, applied at once (Table 14.5), or queued for the tick. -/
def writeReq (src : Source) (d : Dgram) (s : State) : State :=
  let n := sessNo src d
  match findObj s d.index d.sub with
  | .inr c => answer src d c [] s
  | .inl r =>
    let level := reqLevel s src n
    let c := writeRefusal s level r d.index d.sub d.data
    if c ≠ rOk then answer src d c [] s
    else if r.atTick then queueReq src d true s
    else
      let w := writePart n (originOf src) level d.index d.sub d.data s
      answer src d w.2.1 (if r.acc = 2 then (if w.2.1 = rOk then [] else w.2.2) else w.2.2) w.1

/-- An event record (Table 14.10). -/
def eventRec (e : EvQ) : List Byte :=
  be 1 e.event ++ be 1 (b2n (decide (1 < e.count))) ++ be 2 e.count ++ be 4 e.image ++ time96 e.time ++ be 4 e.detail

/-- EVENT-READ (R558). DESIGN CHOICE, log 68 (unsafe). -/
def eventsReq (src : Source) (d : Dgram) (s : State) : State :=
  let m := field d.data 0 1
  if m = 0 || 16 < m || field d.data 1 3 ≠ 0 then answer src d rRange [] s
  else
    let l := ((sessOf s d.session).events).take m
    answer src d rOk (be 1 l.length ++ be 3 0 ++ (l.map eventRec).flatten)
      (modSess d.session (fun x => { x with events := x.events.drop m }) s)

/-- The bridge transaction of a PROXY request: initiator 0, window 14 (R522, R564). DESIGN CHOICE, log 73 (safe). -/
def proxyTrans (s : State) (target : Nat) (inner : List Byte) : Trans :=
  { type := 3, tag := 0, init := 0, window := 14, offset := 0, length := inner.length, code := 0, epoch := s.pair.epoch, data := inner,
    peer := target }

/-- PROXY (R564). DESIGN CHOICE, log 73 (safe). -/
def proxyService (src : Source) (d : Dgram) (far : ProxyIn) (s : State) : State :=
  let target := field d.data 0 2
  let inner := d.data.drop 4
  if target = s.dict.modAddr || [svOpen, svClose, svEvents, svProxy].contains (field inner 1 1) then answer src d rBadRequest [] s
  else
    let code := if (bridgePath s target).isNone then bNoPath else far.code
    if code = 0 then answer src d rOk (be 2 0 ++ be 2 0 ++ far.reply) s
    else
      let s := if far.posted || (bridgePath s target).isNone then bridgeFail (proxyTrans s target inner) code s else s
      answer src d rProxy (be 2 code) s

/-! ## The commands -/

/-- A READ of an RC object. -/
def readsClear (s : State) (d : Dgram) : Bool := (objRow s d.index d.sub).any (fun r => r.acc = 4)

/-- Index of the event pending words. -/
def pendingIndex : Nat := 0x3001

/-- OPEN as a command (R537). -/
def openRow (src : Source) (ch : Option Half) (b : List Byte) (s : State) : State :=
  withRequest (fun d => d.service = svOpen) (openReq src ch) src b s

/-- OPEN (R537). -/
def execOpenSess (src : Source) (ch : Option Half) (b : List Byte) (s : State) : Host.Outcome State Fault Refusal :=
  .next (openRow src ch b s)

/-- CLOSE as a command (R540). -/
def closeRow (src : Source) (ch : Option Half) (b : List Byte) (s : State) : State :=
  withRequest (fun d => d.service = svClose) (fun d => inAnySession src ch d (closeReq src d)) src b s

/-- CLOSE (R540). -/
def execCloseSess (src : Source) (ch : Option Half) (b : List Byte) (s : State) : Host.Outcome State Fault Refusal :=
  .next (closeRow src ch b s)

/-- STATUS as a command (R553). -/
def statusRow (src : Source) (ch : Option Half) (b : List Byte) (s : State) : State :=
  withRequest (fun d => d.service = svStatus) (fun d => inAnySession src ch d (statusService src d)) src b s

/-- STATUS (R553). -/
def execStatusReq (src : Source) (ch : Option Half) (b : List Byte) (s : State) : Host.Outcome State Fault Refusal :=
  .next (statusRow src ch b s)

/-- READ as a command (R546). -/
def readRow (src : Source) (ch : Option Half) (b : List Byte) (s : State) : State :=
  withRequest (fun d => d.service = svRead && !readsClear s d) (fun d => inAnySession src ch d (readReq src d)) src b s

/-- READ (R546). -/
def execReadObj (src : Source) (ch : Option Half) (b : List Byte) (s : State) : Host.Outcome State Fault Refusal :=
  .next (readRow src ch b s)

/-- WRITE as a command (R546). -/
def writeRow (src : Source) (ch : Option Half) (b : List Byte) (s : State) : State :=
  withRequest (fun d => d.service = svWrite && d.index ≠ pendingIndex) (fun d => inAnySession src ch d (writeReq src d)) src b s

/-- WRITE (R546). -/
def execWriteObj (src : Source) (ch : Option Half) (b : List Byte) (s : State) : Host.Outcome State Fault Refusal :=
  .next (writeRow src ch b s)

/-- READ_CLEAR as a command (R546). -/
def clearRow (src : Source) (ch : Option Half) (b : List Byte) (s : State) : State :=
  withRequest (fun d => d.service = svRead && readsClear s d) (fun d => inAnySession src ch d (clearReq src d)) src b s

/-- READ_CLEAR (R546). -/
def execReadClear (src : Source) (ch : Option Half) (b : List Byte) (s : State) : Host.Outcome State Fault Refusal :=
  .next (clearRow src ch b s)

/-- DESCRIBE as a command (R545). -/
def describeRow (src : Source) (ch : Option Half) (b : List Byte) (s : State) : State :=
  withRequest (fun d => d.service = svDescribe) (fun d => inAnySession src ch d (describeReq src d)) src b s

/-- DESCRIBE (R545). -/
def execDescribeObj (src : Source) (ch : Option Half) (b : List Byte) (s : State) : Host.Outcome State Fault Refusal :=
  .next (describeRow src ch b s)

/-- EVENT_READ as a command (R558). -/
def eventsRow (src : Source) (ch : Option Half) (b : List Byte) (s : State) : State :=
  withRequest (fun d => d.service = svEvents) (fun d => inAnySession src ch d (eventsReq src d)) src b s

/-- EVENT_READ (R558). -/
def execEventRead (src : Source) (ch : Option Half) (b : List Byte) (s : State) : Host.Outcome State Fault Refusal :=
  .next (eventsRow src ch b s)

/-- PROXY as a command (R564). -/
def proxyRow (src : Source) (ch : Option Half) (b : List Byte) (far : ProxyIn) (s : State) : State :=
  withRequest (fun d => d.service = svProxy) (fun d => inAnySession src ch d (proxyService src d far)) src b s

/-- PROXY (R564). -/
def execProxyReq (src : Source) (ch : Option Half) (b : List Byte) (far : ProxyIn) (s : State) : Host.Outcome State Fault Refusal :=
  .next (proxyRow src ch b far s)

/-- EVENT_PENDING_CLEAR as a command (R559). -/
def pendingRow (src : Source) (ch : Option Half) (b : List Byte) (s : State) : State :=
  withRequest (fun d => d.service = svWrite && d.index = pendingIndex) (fun d => inAnySession src ch d (writeReq src d)) src b s

/-- EVENT_PENDING_CLEAR (R559). -/
def execEventPendingClear (src : Source) (ch : Option Half) (b : List Byte) (s : State) : Host.Outcome State Fault Refusal :=
  .next (pendingRow src ch b s)

/-- Any service of a datagram that a SERVICE frame carries. -/
def serve (src : Source) (ch : Option Half) (b : List Byte) (far : ProxyIn) (s : State) : State :=
  let v := field b 1 1
  if v = svOpen then openRow src ch b s
  else if v = svClose then closeRow src ch b s
  else if v = svRead then (if readsClear s (readDgram b) then clearRow src ch b s else readRow src ch b s)
  else if v = svWrite then (if field b 8 2 = pendingIndex then pendingRow src ch b s else writeRow src ch b s)
  else if v = svDescribe then describeRow src ch b s
  else if v = svEvents then eventsRow src ch b s
  else if v = svProxy then proxyRow src ch b far s
  else statusRow src ch b s

/-- Start of the slot in which a controller may send node 0 a SERVICE frame in the present bus cycle: a tail slot of the mode in
force (R343, R346, R364), or its slot of the Dormant schedule (Table 9.14). DEDUCED, log 92 (safe). -/
def serviceFrom (s : State) (h : Half) (port slot : Nat) : Option Nat :=
  if s.bus.dormant then (if port < 2 && slot = 18 + port then some (500000 + 200000 * port) else none)
  else ((((modeNow s).map (·.slots)).getD []).find? (fun r =>
    r.slot = slot && bit r.chans (halfNo h) && slotWait s r = 0 && bit r.dests 0 &&
    ((r.kind = 2 && r.sender = port + 1) || (r.kind = 4 && tabFind s.bus.spare slot = some (port + 1))))).map (·.start)

/-- SERVICE (R346): a controller's frame in a service slot of the present bus cycle. -/
def serviceRow (h : Half) (port : Nat) (f : Frame) (far : ProxyIn) (s : State) : State :=
  let p := portOf s h port
  if !chanUp s h || !portLive s h port || !p.integ || p.closed then s
  else match serviceFrom s h port f.slot with
    | none => discard h port s
    | some r =>
      if !(frameForm s port f 0x60 1500 (f.flags < 2) && f.counter = s.bus.counter) then discard h port s
      else serve (.welong port) (some h) f.body far
        (stamp (txQueue h + 1) 4 (welongStamp s h f.counter f.slot port true r) s)

/-- SERVICE (R346). -/
def execServiceFrame (h : Half) (port : Nat) (f : Frame) (far : ProxyIn) (s : State) : Host.Outcome State Fault Refusal :=
  .next (serviceRow h port f far s)

/-! ## By time -/

/-- SESSION_TIMEOUT (R540). -/
def sessionTimeout (n : Nat) (s : State) : State :=
  closeWhere (fun m x => m = n && x.last + s.dict.timeoutS * secNs ≤ s.ns) s

/-- SESSION_TIMEOUT (R540). -/
def execSessionTimeout (n : Nat) (s : State) : Host.Outcome State Fault Refusal := .next (sessionTimeout n s)

/-- LOCKOUT_END (R539). -/
def lockoutEnd (src : Source) (s : State) : State :=
  match (failOf s src).lockedTo with
  | some t => if t ≤ s.ns then putFail { failOf s src with lockedTo := none } s else s
  | none => s

/-- LOCKOUT_END (R539). -/
def execLockoutEnd (src : Source) (s : State) : Host.Outcome State Fault Refusal := .next (lockoutEnd src s)

/-- NETWORK_SETTINGS_APPLY (R563). -/
def networkApply (s : State) : State :=
  match s.dict.netNew with
  | some p => if p.2 ≤ s.ns then { s with dict := { s.dict with net := p.1, netNew := none } } else s
  | none => s

/-- NETWORK_SETTINGS_APPLY (R563). -/
def execNetworkSettingsApply (s : State) : Host.Outcome State Fault Refusal := .next (networkApply s)

/-- MAINTENANCE_PORT_LINK_DOWN (R540). -/
def maintenanceDown (s : State) : State :=
  closeWhere (fun _ x => match x.src with | .udp _ _ => true | _ => false) s

/-- MAINTENANCE_PORT_LINK_DOWN (R540). -/
def execMaintenancePortLinkDown (s : State) : Host.Outcome State Fault Refusal := .next (maintenanceDown s)

/-! ## At the tick -/

/-- A lane object whose write, or RC read, the kernels apply (R548); the rest of the dictionary's at-tick writes act on settings
and on the commons. DESIGN CHOICE, log 25 (safe). -/
def byLanes (q : AtTick) : Bool :=
  !q.write || (0x6000 ≤ q.index && q.index < 0x8000)

/-- What the commons checks of a program command for the lanes (R304, R305). -/
def writeAux (q : AtTick) (s : State) : Nat :=
  if q.index = 0x7001 && ofBe q.value = 1 then armRefusal s else 0

/-- A request handed to the lanes in the image (R28), its reply due after the vote (R546). DESIGN CHOICE, log 25 (safe). -/
def toLanes (n : Nat) (q : AtTick) (r : Reply) (given : Option (Nat × List Byte)) (s : State) : State :=
  let w : DictWrite := { sess := n, seq := q.seq, index := q.index, sub := q.sub, write := q.write, value := q.value,
                         sel := (sessOf s n).varSel, aux := writeAux q s, given := given }
  let s := { s with image := { s.image with writes := s.image.writes ++ [w] } }
  if n = proxySess then { s with dict := { s.dict with proxyDue := s.dict.proxyDue ++ [r] } }
  else modSess n (fun x => { x with due := x.due ++ [r] }) s

/-- A reply to an at-tick request. -/
def tickReply (n : Nat) (q : AtTick) (result : Nat) (data : List Byte) (s : State) : Reply :=
  { dest := q.src, service := 128 + (if q.write then svWrite else svRead), session := if n = proxySess then 0xFF else n,
    resent := false, seq := q.seq, index := q.index, sub := q.sub, stamp := (sessOf s n).stamp, status := 0, result := result, data := data }

/-- A reply to an at-tick request leaves. -/
def sendTick (n : Nat) (q : AtTick) (result : Nat) (data : List Byte) (s : State) : State :=
  if n = proxySess then sendLoose (tickReply n q result data s) s else sendReply n (tickReply n q result data s) s

/-- One at-tick request applied (R546 to R548): the key is checked again (R437). -/
def applyAtTick (n : Nat) (q : AtTick) (s : State) : State :=
  match findObj s q.index q.sub with
  | .inr c => sendTick n q c [] s
  | .inl r =>
    if q.write && r.lvl = 3 && !s.lio.key then sendTick n q rKey [] s
    else if r.lane && laneRefusal s (standbyWrites q.index q.sub q.value) ≠ rOk then
      sendTick n q (laneRefusal s (standbyWrites q.index q.sub q.value)) [] s
    else if byLanes q then toLanes n q (tickReply n q rOk [] s) none s
    else
      let w := writePart n (originOf q.src) (reqLevel s q.src n) q.index q.sub q.value s
      let data := if r.acc = 2 && w.2.1 = rOk then [] else w.2.2
      if r.lane then toLanes n q (tickReply n q rOk [] w.1) (some (w.2.1, data)) w.1 else sendTick n q w.2.1 data w.1

/-- A time step among a tick's requests: it goes before the others (R452). -/
def isStep (q : AtTick) : Bool := q.write && q.index = 0x4001 && q.sub = 5

/-- The at-tick requests of a tick with their sessions, in the order they are applied (R452, R547). -/
def tickRequests (s : State) : List (Nat × AtTick) :=
  let l := (s.dict.sessions.map (fun p => p.2.queue.map (fun q => (p.1, q)))).flatten ++ s.dict.proxied.map (fun q => (proxySess, q))
  l.filter (fun p => isStep p.2) ++ l.filter (fun p => !isStep p.2)

/-- Every at-tick request of a tick applied. -/
def applyRequests (s : State) : State :=
  let l := tickRequests s
  let s := { s with dict := { s.dict with sessions := tabMap s.dict.sessions (fun _ x => { x with queue := [] }), proxied := [] } }
  l.foldl (fun s p => applyAtTick p.1 p.2 s) s

end Sys2Proof.Machine
end

