-- ==== Sys2Proof/Machine/Head.lean ====
section
/-! DEFINITION. BUS_CYCLE_START: what the commons do in the vital head of a bus cycle and on to t0 + 200 µs (R19 to R26, R34 to R38,
R259, R345, R347, R353, R371, R428, R446, R516). -/

namespace Sys2Proof.Machine

/-! ## The storage behind the records -/

/-- Erase blocks of the Field book's NAND, records in each, and blocks that 480 MiB take (R568). DESIGN CHOICE, log 80
(unsafe). DESIGN CHOICE, log 80 (unsafe). -/
def bookBlocks : Nat := 4096

/-- Records of an erase block. -/
def blockRecords : Nat := 2048

/-- Erase blocks usable for records. DESIGN CHOICE, log 80 (unsafe). -/
def bookUsable : Nat := 3840

/-- Blocks that failed and were retired: event 91 for each; below 480 MiB the Field book is faulty (R568). -/
def retireBlocks (n : Nat) (s : State) : State :=
  let s := (List.range n).foldl (fun s _ => raiseEv 91 noDetail s) s
  let r := min bookBlocks (s.book.retired + n)
  let bad := bookBlocks - r < bookUsable
  let was := s.book.faulty
  let s := { s with book := { s.book with retired := r, faulty := was || bad } }
  if bad && !was then chestWrite 0x0A 0x30 0 (be 4 r) s else s

/-- One buffered record into the NAND, the oldest block erased first when it is full; event 90 (R568). DESIGN CHOICE, log 80
(unsafe). DESIGN CHOICE, log 80 (unsafe). -/
def storeRecord (s : State) : State :=
  match s.book.buf with
  | [] => s
  | r :: l =>
    let full := (bookBlocks - s.book.retired) * blockRecords ≤ s.book.recs.length
    let s := if full then raiseEv 90 noDetail s else s
    let kept := if full then s.book.recs.drop blockRecords else s.book.recs
    let n := s.book.newest + 1
    { s with book := { s.book with buf := l, recs := kept ++ [{ r with seq := n }], newest := n } }

/-- What the Field book's storage and the Chest did since the last bus cycle (R568, R578). -/
def recordStorage (i : HeadIn) (s : State) : State :=
  let s := if i.retired = 0 then s else retireBlocks i.retired s
  let s := (List.range (min i.stored s.book.buf.length)).foldl (fun s _ => storeRecord s) s
  if i.chestFault && !s.chest.faulty then
    raiseRec 77 noDetail 0 3 0xFFFF [] { s with chest := { s.chest with faulty := true } }
  else s

/-! ## Time and the counter -/

/-- What one half's circuits report. -/
def halfIn (i : HeadIn) : Half → HalfIn
  | .a => i.a
  | .b => i.b

/-- Time since the last t0 passes in both halves' oscillators (R442). DESIGN CHOICE, log 4 (unsafe). -/
def passTime (i : HeadIn) (s : State) : State :=
  { s with
    ns := s.ns + (halfIn i (timeHalf s)).dt
    time := { s.time with halves := twoMap s.time.halves (fun h x => { x with c := x.c + (halfIn i h).dt }) } }

/-- A half whose evaluation overran is disabled at the end of that bus cycle (R259). -/
def endOverrun (s : State) : State :=
  allHalves.foldl (fun s h =>
    if (twoGet s.tres h).overran then
      let s := { s with tres := twoMod s.tres h (fun t => { t with overran := false }) }
      if (twoGet s.halves h).inServ then disableHalf h 6 halfDisabled [] s else s
    else s) s

/-- A half in service whose channel runs with a counter. -/
def running (s : State) (h : Half) : Bool :=
  (twoGet s.halves h).inServ && (chanUp s h || (twoGet s.bus.chans h).st = .integrating)

/-- The counter of the bus cycle that begins, and what it means to each channel: a starter's 8 bus cycles pass (R357), a half
that integrates has checked 2 bus cycles (R360); event 23. DEDUCED, log 40 (safe). -/
def nextCycle (s : State) : State :=
  let n := nextCounter s
  let s := { s with bus := { s.bus with counter := n } }
  allHalves.foldl (fun s h =>
    let c := twoGet s.bus.chans h
    if !(twoGet s.halves h).inServ then s
    else match c.st with
      | .coldStarting => if c.startedAt + 8 ≤ n then modChan h (fun c => { c with st := .synchronised }) s else s
      | .integrating =>
        if 3 ≤ c.checks then raiseEv 23 (halfNo h) (modChan h (fun c => { c with st := .synchronised }) s)
        else modChan h (fun c => { c with checks := c.checks + 1 }) s
      | _ => s) s

/-- Bus anchors latched at t0 (R461). -/
def latchAnchors (s : State) : State :=
  { s with time := { s.time with halves := twoMap s.time.halves (fun _ x =>
      { x with anchorCtr := s.bus.counter, anchor := halfReading x }) } }

/-- Transmit buffers swap at t0 of a bus cycle whose counter is a multiple of L (R371): also the local block and the stars' gates
of slots 9 and 10 (R488); the tick falls in this bus cycle (R27). DESIGN CHOICE, log 91 (safe). -/
def swapBuffers (s : State) : State :=
  let p := s.power
  let done := p.confirmImg = some s.imageNo
  { s with
    halves := twoMap s.halves (fun _ x => { x with active := x.next, next := none })
    lio := { s.lio with locals := s.lio.localNext, localNext := none }
    pair := { s.pair with gateOpen := commands s && !s.vote.restrictive }
    bus := { s.bus with tick := true }
    power := { p with confirmed := p.confirmed || done, confirmImg := if done then none else p.confirmImg } }

/-! ## The bus input image -/

/-- A controller's valid frame on a channel: none of a half that is disabled (R24). -/
def inputOn (s : State) (h : Half) (port : Nat) : Option InputEnv :=
  if (twoGet s.halves h).inServ && chanUp s h then (portOf s h port).rx else none

/-- The level of a point in an envelope. -/
def envBit (e : InputEnv) (n : Nat) : Option Bool := if n < e.ni then e.bits[n]? else none

/-- A bound input merged from both channels (Table 1.3) and whether it counts as substituted (R48): one that is missing or
invalid does, one on which two valid frames differ takes its restrictive value and does not. DEDUCED, log 96 (unsafe). -/
def mergedLevel (a b : Option InputEnv) (x : Binding) : Bool × Bool :=
  match a, b with
  | some p, some q =>
    match envBit p x.point, envBit q x.point with
    | some v, some w => (if v = w then v else x.rval, false)
    | _, _ => (x.rval, true)
  | some p, none => match envBit p x.point with | some v => (v, false) | none => (x.rval, true)
  | none, some q => match envBit q x.point with | some v => (v, false) | none => (x.rval, true)
  | none, none => (x.rval, true)

/-- A number that both frames carry, ORed (R24). -/
def orOf (f : InputEnv → Nat) (a b : Option InputEnv) : Nat :=
  (match a with | some e => f e | none => 0) ||| (match b with | some e => f e | none => 0)

/-- Position reports merged (R24): with two valid frames only those that both carry. DEDUCED, log 37 (unsafe). -/
def mergedReports (a b : Option InputEnv) : List Report :=
  match a, b with
  | some p, some q => p.reports.filter (fun r => q.reports.contains r)
  | some p, none => p.reports
  | none, some q => q.reports
  | none, none => []

/-- The two channels' frames differ: event 16. -/
def framesDiffer (a b : Option InputEnv) : Bool :=
  match a, b with
  | some p, some q => p.payload ≠ q.payload || p.flags ≠ q.flags
  | _, _ => false

/-- The controllers' parts of the bus input image (R24). -/
def mergeInputs (s : State) : BusImage :=
  let bs := (inputBindings s.cfg).map (fun x =>
    let v := mergedLevel (inputOn s .a x.port) (inputOn s .b x.port) x
    (pointKey x, v))
  let levels : Tab Bool := bs.foldl (fun t p => tabPut t p.1 p.2.1) []
  let ps := (List.range 16).map (fun p => (p, inputOn s .a p, inputOn s .b p))
  let here := ps.filter (fun p => p.2.1.isSome || p.2.2.isSome)
  let nv := here.filterMap (fun p =>
    match p.2.1, p.2.2 with
    | some e, _ => some (p.1, e.nonVital)
    | none, some e => some (p.1, e.nonVital)
    | none, none => none)
  { BusImage.init with
    levels := levels
    subst := (bs.filter (fun p => p.2.2)).map (·.1)
    reports := (ps.map (fun p => mergedReports p.2.1 p.2.2)).flatten
    flags := here.map (fun p => (p.1, orOf (·.flags) p.2.1 p.2.2))
    cv := here.map (fun p => (p.1, orOf (·.cv) p.2.1 p.2.2))
    nonVital := nv }

/-- A half's bus input image: the merged controllers, its own pairs, the non-vital inputs, the clear-ahead bits that are
present (R263, R370, R516). -/
def imageOf (s : State) (m : BusImage) (h : Half) : BusImage :=
  let b := localInputs s h m
  { b with clearAhead := s.cfg.boundaries.foldl (fun t x => if (clearBits s x.num).isEmpty then t else tabPut t x.num (clearBit s x.num)) [] }

/-- What a controller's valid frames of a bus cycle show (Table 10.11). -/
def noteController (tick : Bool) (a b : Option InputEnv) (x : EnvPort) : EnvPort :=
  let e := match a, b with | some e, _ => some e | none, y => y
  let x := { x with cepoch := (e.map (·.epoch)).getD x.cepoch }
  if tick then { x with srcs := b2n a.isSome + 2 * b2n b.isSome, cflags := orOf (·.flags) a b } else x

/-- A port at the end of the input phase: what it showed is noted, its frame is used up. -/
def closeInput (p : PortSt) : PortSt :=
  let shown := if bit p.rxFlags 2 then bits p.rxFlags 5 3 + 1 else 0
  { p with
    rx := none, rxFlags := 0
    readyLog := if p.integ then keepLast 5 (p.readyLog ++ [shown]) else []
    tableClear := if p.integ && !p.table then p.tableClear + 1 else 0 }

/-- A channel with integrated controllers of which none sent a valid frame (event 30). -/
def channelSilent (s : State) (h : Half) : Bool :=
  let ps := (List.range s.ident.ports).filter (fun p => (portOf s h p).integ)
  (twoGet s.halves h).inServ && chanUp s h && !s.bus.dormant && !ps.isEmpty && ps.all (fun p => (inputOn s h p).isNone)

/-- The input phase: both halves merge both channels (R24). -/
def inputPhase (s : State) : State :=
  let tick := decide (s.bus.counter % s.bus.lCyc = 0)
  let ports := List.range 16
  let silent := allHalves.filter (channelSilent s)
  let odd := ports.filter (fun p => framesDiffer (inputOn s .a p) (inputOn s .b p))
  let seen := (boundPorts s.cfg ++ ports.filter (fun p => (inputOn s .a p).isSome || (inputOn s .b p).isSome)).eraseDups
  let env := seen.foldl (fun t p => tabMod t p EnvPort.init (noteController tick (inputOn s .a p) (inputOn s .b p))) s.env
  let m := mergeInputs s
  let s := { s with env := env, busImg := twoMap s.busImg (fun h _ => imageOf s m h) }
  let s := { s with bus := { s.bus with chans := twoMap s.bus.chans (fun _ c => { c with ports := tabMap c.ports (fun _ p => closeInput p) }) } }
  let s := odd.foldl (fun s p => raiseEv 16 p s) s
  silent.foldl (fun s h => raiseEv 30 (halfNo h) s) s

/-! ## Evaluation and what the halves send -/

/-- Trestle works in a half: in service, not in Dormant (R275). -/
def trestleOn (s : State) (h : Half) : Bool := (twoGet s.halves h).inServ && !s.bus.dormant

/-- The vectors of one bus cycle (R277): the rotation advances, a wrong result disables the half. -/
def runVector (h : Half) (f : Option (Nat × Nat × Bool)) (s : State) : State :=
  let s := { s with tres := twoMod s.tres h (fun t =>
    if t.vecIdx + 1 = 128 then { t with vecIdx := 0, rot := t.rot + 1 } else { t with vecIdx := t.vecIdx + 1 }) }
  match f with
  | none => s
  | some v =>
    disableHalf h (if v.2.2 then 8 else 2) halfDisabled (be 1 v.1 ++ be 1 v.2.1)
      { s with tres := twoMod s.tres h (fun t => { t with failVec := v.1, failWalk := v.2.1 }) }

/-- Nothing leaves a half in slots 9 and 10, and its internal permit word is absent. -/
def noPermits (h : Half) (s : State) : State :=
  { s with tx := twoMod s.tx h (fun t => { t with permits := [], localPermit := [], clearAhead := [] }) }

/-- A half in service that sends commands and permit words on its channel (R26, R500). -/
def sends (s : State) (h : Half) : Bool := trestleOn s h && chanUp s h && commands s

/-- A program cycle begins with the tick of this bus cycle, before its evaluation (R27, R259): a boundary's event may be raised
again (R263). -/
def newBoundaryCycle (s : State) : State :=
  if s.bus.counter % s.bus.lCyc = 0 then { s with tres := twoMap s.tres (fun _ t => { t with bndSeen := [] }) } else s

/-- The evaluation of one half (R257, R259, R277, R279) over the bus cycle's image. -/
def evaluationPhase (i : HeadIn) (s : State) : State :=
  allHalves.foldl (fun s h =>
    let x := halfIn i h
    if !trestleOn s h then noPermits h s
    else if x.codeFault then
      disableHalf h 3 halfDisabled [] { s with tres := twoMod s.tres h (fun t => { t with codeF := true }) }
    else
      let s := runVector h x.vector s
      if !trestleOn s h then s
      else
        let s := evaluate h (clearBit s) s
        if x.readBack then disableHalf h 4 halfDisabled [] s
        else if sends s h then s else noPermits h s) s

/-- Command frames of a bus cycle (R26, R371). -/
def commandFrames (s : State) (h : Half) : Tab (List Byte) :=
  let v := (twoGet s.halves h).active
  if !sends s h then []
  else (boundPorts s.cfg).foldl (fun t p =>
    match cmdFor v s.bus.counter p with
    | some c => tabPut t p (commandEnv s p s.bus.counter c)
    | none => t) []

/-- What SYNC frames announce (R366, R367): pending mode, switch counter, PENDING, CONFIRMED; 0xFF and 0 when none. DEDUCED,
log 45 (safe). DEDUCED, log 45 (safe). -/
def syncWord (s : State) : Nat × Nat × Bool × Bool :=
  match s.bus.pend with
  | some p =>
    if p.announced && (s.imageNo ≠ s.bus.askedImg || s.image.counter + s.bus.lCyc ≤ s.bus.counter) then (p.mode, p.s, true, p.confirmed)
    else (0xFF, 0, false, false)
  | none => (0xFF, 0, false, false)

/-- Service slots from node 0 to a port active in this bus cycle: slot and start (R343, Table 9.14). -/
def serviceNow (s : State) (h : Half) (port : Nat) : List (Nat × Nat) :=
  if s.bus.dormant then (if port = 0 then [(16, 100000)] else if port = 1 then [(17, 300000)] else [])
  else ((((modeNow s).map (·.slots)).getD []).filter (fun r =>
    r.kind = 2 && r.sender = 0 && bit r.dests (port + 1) && bit r.chans (halfNo h) && slotWait s r = 0)).map (fun r => (r.slot, r.start))

/-- Port tables due to a port, one in each service slot, in ascending mode order (R345). -/
def sendTables (h : Half) (port : Nat) (s : State) : State :=
  (serviceNow s h port).foldl (fun s r =>
    match (portOf s h port).tablesDue with
    | [] => s
    | m :: l =>
      let s := modPort h port (fun p => { p with tablesDue := l }) s
      txStamp h 4 r.1 r.2 { s with tx := twoMod s.tx h (fun t => { t with tables := t.tables ++ [(port, m)] }) }) s

/-- The heartbeat slots in which a half sends in this bus cycle (R489, R491). -/
def heartbeatSlots (s : State) (h : Half) : List (Nat × Nat) :=
  (((modeNow s).map (·.slots)).getD []).filterMap (fun r =>
    if r.kind = 1 && bit r.chans (halfNo h) && (r.sender = 0 || r.sender = trunkNode s) && slotWait s r = 0 then some (r.slot, r.start)
    else none)

/-- What a half sends in a bus cycle, with the stamps of its frames (Tables 9.10, 12.5). DESIGN CHOICE, log 42 (safe).
DESIGN CHOICE, log 91 (safe). -/
def sendHalf (acks : List (Nat × List Nat)) (h : Half) (s : State) : State :=
  let t := twoGet s.tx h
  if !((twoGet s.halves h).inServ && chanUp s h) then
    { s with tx := twoPut s.tx h { t with cmds := [], sync := none, tables := [], acks := [], delayReqs := [] } }
  else
    let t' : TxSt := { t with cmds := commandFrames s h, sync := some (syncWord s), tables := [], acks := acks }
    let s := { s with tx := twoPut s.tx h t' }
    let s := txStamp h 0 0 100 s
    let s := t'.cmds.foldl (fun s _ => txStamp h 2 9 130500 s) s
    let s := t'.permits.foldl (fun s _ => txStamp h 3 10 150500 s) s
    let s := acks.foldl (fun s _ => txStamp h 6 11 170500 s) s
    (List.range s.ident.ports).foldl (fun s p => if (portOf s h p).integ then sendTables h p s else s) s

/-! ## The cascade -/

/-- The neighbour, and its partner when it is paired (R510, R516). -/
def withPartner (s : State) (peer : Nat) : List Nat :=
  peer :: ((s.casc.conns.find? (fun c => c.peer = peer && c.partner ≠ 0xFFFF)).map (·.partner)).toList

/-- The neighbours of the module. -/
def neighbours (s : State) : List Nat := (s.cfg.boundaries.map (·.neighMod)).eraseDups

/-- CLEAR-AHEAD payload for a neighbour (Table 13.10): cleared while the half sends INHIBIT. -/
def clearPayload (s : State) (h : Half) (peer : Nat) : List Byte :=
  let bs := s.cfg.boundaries.filter (fun b => b.neighMod = peer)
  let inh := inhibited s || !(twoGet s.tres h).lock
  be 4 s.casc.startCount ++ be 4 s.bus.busNs ++ be 2 bs.length ++ be 2 0 ++
  (bs.map (fun b => be 2 b.neighElt ++ be 1 (b2n (!inh && tabGet (twoGet s.tres h).clearOut b.num false)) ++ be 1 0)).flatten

/-- One CLEAR-AHEAD envelope of a half (R516) with the half's own check value. -/
def sendClear (h : Half) (neighbour toward : Nat) (s : State) : State :=
  let q := nextSeq 7 toward (halfNo h) s
  let e : Envelope :=
    { tag := (halfNo h + 1) * 0x1000 + s.dict.modAddr % 4096, seq := q.1, stamp := s.bus.counter % 0x100000000, epoch := s.pair.epoch,
      kind := 0x95, flags := 0, payload := clearPayload s h neighbour, pair := 0, cv1 := 0, cv2 := 0 }
  let cv := envCheck (cascadeId 7 s.dict.modAddr toward (halfNo h) ^^^ trestleSeed h) 0 (cascadeBytes e)
  sendEnvelope toward { e with cv1 := cv } q.2

/-- CLEAR-AHEAD at t0 + 175 µs (R516). -/
def clearAheadPhase (s : State) : State :=
  allHalves.foldl (fun s h =>
    if !trestleOn s h || !commands s then s
    else
      let inh := inhibited s || !(twoGet s.tres h).lock
      let out := s.cfg.boundaries.map (fun b => (b.num, !inh && tabGet (twoGet s.tres h).clearOut b.num false))
      let s := { s with tx := twoMod s.tx h (fun t => { t with clearAhead := out }) }
      (neighbours s).foldl (fun s n => (withPartner s n).foldl (fun s toward => sendClear h n toward s) s) s) s

/-- The voted image in force that holds a block 19, with that block and its pair code. -/
def cascImage (s : State) : Option (VotedImage × CascBlock × Nat) :=
  (allHalves.filterMap (fun h => (twoGet s.halves h).active.bind (fun v => v.casc.map (fun c => (v, c.1, c.2))))).head?

/-- RESERVE payload (Table 13.8). -/
def reservePayload (elem action route image : Nat) : List Byte :=
  be 2 elem ++ be 1 action ++ be 1 0 ++ be 2 route ++ be 2 0 ++ be 2 (image % 65536) ++ be 2 (image / 65536)

/-- RESERVE-REPLY payload (Table 13.8). -/
def replyPayload (m : ReserveMsg) : List Byte :=
  be 2 m.elem ++ be 1 m.action ++ be 1 0 ++ be 2 m.route ++ be 2 m.epoch ++ be 2 m.code ++ be 2 0

/-- One reservation message of block 19 (R510, R512). -/
def sendReserve (pair : Nat) (m : ReserveMsg) (s : State) : State :=
  if m.reply then sendLane m.toward 2 0x93 pair s.pair.epoch (replyPayload m) s
  else (withPartner s m.toward).foldl (fun s toward =>
    sendLane toward 2 0x92 pair s.pair.epoch (reservePayload m.elem m.action m.route m.image) s) s

/-- Cancel all to the neighbours, before any reserve (R515). DESIGN CHOICE, log 66 (safe). -/
def sendCancels (pair : Nat) (s : State) : State :=
  let l := s.casc.cancelAllDue
  let s := { s with casc := { s.casc with cancelAllDue := [] } }
  l.foldl (fun s n => (withPartner s n).foldl (fun s toward =>
    sendLane toward 2 0x92 pair s.pair.epoch (reservePayload 0xFFFF 3 0xFFFF s.imageNo) s) s) s

/-- The heartbeat of block 19, in every bus cycle of a paired module (R476, R491), with the stamps of its frames. -/
def heartbeatPhase (v : VotedImage) (b : CascBlock) (pair : Nat) (s : State) : State :=
  if s.pair.partnerAddr = 0xFFFF then s
  else
    allHalves.foldl (fun s h =>
        if (twoGet s.halves h).inServ && chanUp s h then
          (heartbeatSlots s h).foldl (fun s r => txStamp h 5 r.1 r.2 s) s else s)
      (sendLane s.pair.partnerAddr 0 0x90 pair b.epoch (heartbeatPayload s b v.num) s)

/-- Reservations and the benchmark of block 19, in the first bus cycle of a program cycle (R491, R496, R510, R512). -/
def reservePhase (v : VotedImage) (b : CascBlock) (pair : Nat) (s : State) : State :=
  if s.bus.counter % s.bus.lCyc ≠ 0 || !commands s then s
  else
    let s := b.reserves.foldl (fun s m => sendReserve pair m s) (sendCancels pair s)
    if s.pair.partnerAddr ≠ 0xFFFF && s.pair.role = .active && s.vote.benchImage = v.num then
      match ownBenchmark s v.num with
      | some d => sendLane s.pair.partnerAddr 1 0x91 pair s.pair.epoch (be 4 v.num ++ d) s
      | none => s
    else s

/-- What block 19 sends in a bus cycle. DEDUCED, log 55 (unsafe). -/
def cascadePhase (s : State) : State :=
  match cascImage s with
  | none => s
  | some (v, b, pair) => reservePhase v b pair (heartbeatPhase v b pair s)

/-- The heartbeat record of the bus cycle that has ended (R492); two images' worth is kept. -/
def recordHeartbeats (s : State) : State :=
  if s.pair.partnerAddr = 0xFFFF then modPairLink (fun p => { p with hbNow := [], hbRec := [] }) s
  else
    let j := (s.bus.counter + 2 ^ 48 - 1) % 2 ^ 48
    let on (p : Path) : Bool := s.pair.hbNow.contains (j, p)
    modPairLink (fun p => { p with
      hbNow := p.hbNow.filter (fun m => m.1 = s.bus.counter)
      hbRec := keepLast (2 * s.bus.lCyc) (p.hbRec ++ [(on .pairLink, on .chanA, on .chanB)]) }) s

/-! ## The schedule clock -/

/-- An ordered insertion. -/
def insertInt (v : Int) : List Int → List Int
  | [] => [v]
  | x :: l => if v ≤ x then v :: x :: l else x :: insertInt v l

/-- Values dropped at each end (R353). -/
def dropEnds (k : Nat) : Nat := if 8 ≤ k then 2 else if 3 ≤ k then 1 else 0

/-- Fault-tolerant midpoint of deviations (R353): half the sum of the smallest and the largest value left. DESIGN CHOICE,
log 43 (safe). DESIGN CHOICE, log 43 (safe). -/
def midpoint (l : List Int) : Int :=
  let t := l.foldl (fun a v => insertInt v a) []
  let n := dropEnds t.length
  let r := (t.drop n).take (t.length - 2 * n)
  (r.headD 0 + r.getLastD 0) / 2

/-- Sync slots whose node is at a port. -/
def syncedPort (s : State) (devs : Tab Int) (port : Nat) : Bool := devs.any (fun d => syncNode s d.1 = some (port + 1))

/-- OFFSET_CORRECTION (R353, R355) of one half: its own value 0 and the deviations of the bus cycle. DESIGN CHOICE, log 43
(safe). DESIGN CHOICE, log 43 (safe). -/
def offsetCorrection (h : Half) (s : State) : State :=
  let c := twoGet s.bus.chans h
  if !((twoGet s.halves h).inServ && chanUp s h) then modChan h (fun c => { c with devs := [] }) s
  else
    let vs := (0 : Int) :: c.devs.map (·.2)
    let k := vs.length
    let m := midpoint vs
    if precision s < m.natAbs then disableHalf h 7 halfDisabled [] s
    else
      let ns := roundDiv (-m) 16
      modChan h (fun c => { c with
        devs := [], k := k, lastCorr := ns, largest := max c.largest ns.natAbs, corrs := keepLast 16 (c.corrs ++ [-m])
        weak := if k ≤ 2 then sat 0xFFFFFFFF (c.weak + 1) else c.weak, weakRun := if k ≤ 2 then c.weakRun + 1 else 0
        ports := tabMap c.ports (fun n p => { p with syncUsed := syncedPort s c.devs n }) }) s

/-- FRAME_CUT (R347): ports whose frame the closing gate cut; event 21 for the first within 8 bus cycles. -/
def frameCuts (h : Half) (cuts : List Nat) (s : State) : State :=
  cuts.foldl (fun s n =>
    if !portLive s h n || !chanUp s h then s
    else
      let first := cutsNow s (portOf s h n) = 0
      let s := modPort h n (fun p => { p with
        cuts := sat 0xFFFFFFFF (p.cuts + 1)
        cutAt := keepLast 8 (p.cutAt.filter (fun c => s.bus.counter < c + 8) ++ [s.bus.counter]) }) s
      if first then raiseEv 21 n s else s) s

/-! ## The whole head -/

/-- The pins sampled by both halves (R423, R432, R434, R436). -/
def samplePins (i : HeadIn) (s : State) : State :=
  let s := allHalves.foldl (fun s h => if (twoGet s.halves h).inServ then sampleHalf h (halfIn i h).pins s else s) s
  let s := sampleReset i.reset (sampleNi i.ni s)
  { s with lio := { s.lio with key := keyActive s } }

/-- What is sent or received for one bus cycle only. -/
def clearCycle (s : State) : State :=
  { s with
    bridge := { s.bridge with inbound := [], answers := [] }
    casc := { s.casc with sent := [], forwarded := [] } }

/-- From t0 + 170 µs on: local outputs, cascade, comparison of the halves, corrections due (R428, R446, R447). -/
def afterHead (i : HeadIn) (s : State) : State :=
  let s := driveNo (localDecision i.vos s)
  let s := compareHalves s
  let s := if s.bus.tick then s else applyDue s
  launchTimed s

/-- No channel keeps a schedule: no frame is sent and no counter advances; the commons goes on (R42). DESIGN CHOICE, log 6
(safe). DESIGN CHOICE, log 6 (safe). -/
def silentHead (i : HeadIn) (s : State) : State :=
  let s := { s with
    bus := { s.bus with tick := true }
    tx := twoMap s.tx (fun _ t => { t with cmds := [], permits := [], localPermit := [], sync := none, tables := [], acks := [], delayReqs := [],
                                           clearAhead := [] }) }
  afterHead i s

/-- The vital head of a bus cycle (R22). -/
def vitalHead (i : HeadIn) (s : State) : State :=
  let s := latchAnchors (nextCycle s)
  let s := serveClaims s
  let acks := s.bus.acks
  let s := if s.bus.counter % s.bus.lCyc = 0 then swapBuffers s else { s with bus := { s.bus with tick := false } }
  let s := inputPhase s
  let s := evaluationPhase i (newBoundaryCycle s)
  let s := allHalves.foldl (fun s h => sendHalf acks h s) s
  let s := clearAheadPhase s
  let s := cascadePhase s
  let s := recordHeartbeats s
  let s := allHalves.foldl (fun s h => frameCuts h (halfIn i h).cuts (offsetCorrection h s)) s
  afterHead i s

/-- BUS_CYCLE_START (R22). Without supply only time passes (R633); in Standby and Off the backup domain alone runs. DESIGN
CHOICE, log 7 (safe). DESIGN CHOICE, log 7 (safe). -/
def busCycleStart (i : HeadIn) (s : State) : State :=
  let s := passTime i s
  if s.power.pfail ≠ 0 || s.power.st = .standby || s.power.st = .off then s
  else
    let s := recordStorage i (endOverrun s)
    let s := samplePins i (clearCycle s)
    if allHalves.any (running s) then vitalHead i s else silentHead i s

/-- BUS_CYCLE_START (R22). -/
def execBusCycleStart (i : HeadIn) (s : State) : Host.Outcome State Fault Refusal := .next (busCycleStart i s)

end Sys2Proof.Machine
end

