-- ==== Sys2Proof/Machine/KernelRows.lean ====
section
/-! DEFINITION. Commands of the lanes' kernel in the image under way: requests (R101 to R125), timed conditions
(R109, R112, R116, R119, R123, R146 to R171), carriers (R185), stuck inputs (R427). -/

namespace Sys2Proof.Machine

/-- One request evaluated and sequenced in an image. DESIGN CHOICE, log 23 (safe). -/
def oneRequest (q : Req) (e : KEnv) (x : KRun) : KRun := sequence e (applyReq e q x)

/-- SET (R101). -/
def execSetRoute (q : Req) (s : State) : Host.Outcome State Fault Refusal :=
  .next (laneRow (oneRequest { q with cls := 2 }) s)

/-- CANCEL (R124). -/
def execCancelRoute (q : Req) (s : State) : Host.Outcome State Fault Refusal :=
  .next (laneRow (oneRequest { q with cls := 1 }) s)

/-- EMERGENCY_CANCEL (R125). -/
def execEmergencyCancel (q : Req) (s : State) : Host.Outcome State Fault Refusal :=
  .next (laneRow (oneRequest { q with cls := 0 }) s)

/-- POINT_MOVE (R121). -/
def execPointMove (q : Req) (s : State) : Host.Outcome State Fault Refusal :=
  .next (laneRow (oneRequest { q with cls := 3 }) s)

/-- HOLD_EXPIRED (R109): the 64th re-presentation of a held request did not reserve. -/
def execHoldExpired (port tag : Nat) (s : State) : Host.Outcome State Fault Refusal :=
  .next (laneRow (fun _ x => holdExpire port tag x) s)

/-- THROW_TIMEOUT (R119). -/
def execThrowTimeout (point : Nat) (s : State) : Host.Outcome State Fault Refusal :=
  .next (laneRow (fun e x => sequence e (throwTimeout e point x)) s)

/-- LOST_CLEARED (R123). -/
def execLostCleared (point : Nat) (s : State) : Host.Outcome State Fault Refusal :=
  .next (laneRow (fun e x => sequence e (lostCleared e point x)) s)

/-- BOUNDARY_CONFIRMATION_TIMEOUT (R112). -/
def execBoundaryConfirmationTimeout (route : Nat) (s : State) : Host.Outcome State Fault Refusal :=
  .next (laneRow (fun e x => sequence e (boundaryTimeout e route x)) s)

/-- SIGNAL_NOT_PROVEN (R116). -/
def execSignalNotProven (signal : Nat) (s : State) : Host.Outcome State Fault Refusal :=
  .next (laneRow (fun e x => sequence e (signalNotProven e signal x)) s)

/-- SEQUENCE_RELEASE (R152). -/
def execSequenceRelease (route : Nat) (s : State) : Host.Outcome State Fault Refusal :=
  .next (laneRow (fun e x => sequence e (sequenceRelease e route x)) s)

/-- CLEAR_FOR (R163). -/
def execClearFor (route : Nat) (s : State) : Host.Outcome State Fault Refusal :=
  .next (laneRow (fun e x => sequence e (clearFor e route x)) s)

/-- ELAPSED (R146): a timer of the kernel (`app` false, owner a route) or of an application block. -/
def execElapsedEvent (app : Bool) (owner : Nat) (s : State) : Host.Outcome State Fault Refusal :=
  .next (laneRow (fun e x => sequence e (elapsedFires e app owner x)) s)

/-- RELEASE_BY_DISTANCE (R147). -/
def execReleaseByDistance (route : Nat) (s : State) : Host.Outcome State Fault Refusal :=
  .next (laneRow (fun e x => sequence e (releaseByDistance e route x)) s)

/-- GHOST_TIMEOUT (R166). -/
def execGhostTimeout (sec : Nat) (s : State) : Host.Outcome State Fault Refusal :=
  .next (laneRow (fun e x => ghostTimeout e sec x) s)

/-- CROSSING_CLOSING_TIMEOUT (R157). -/
def execCrossingClosingTimeout (crossing : Nat) (s : State) : Host.Outcome State Fault Refusal :=
  .next (laneRow (fun e x => sequence e (crossingTimeout e crossing x)) s)

/-- CROSSING_OPEN_SLOW (R159). -/
def execCrossingOpenSlow (crossing : Nat) (s : State) : Host.Outcome State Fault Refusal :=
  .next (laneRow (fun e x => crossingSlow e crossing x) s)

/-- CROSSING_RECOVERED (R160). -/
def execCrossingRecovered (crossing : Nat) (s : State) : Host.Outcome State Fault Refusal :=
  .next (laneRow (fun e x => sequence e (crossingRecovered e crossing x)) s)

/-- KEY_TIMER_EXPIRY (R169, R171): of a release key, or of a route's emergency release. -/
def execKeyTimerExpiry (key : Bool) (num : Nat) (s : State) : Host.Outcome State Fault Refusal :=
  .next (laneRow (fun e x => keyExpiry e key num x) s)

/-- EMERGENCY_RELEASE (R171): object 0x6030 sub 1 written with a route number by a Maintainer session. -/
def execEmergencyRelease (sess route : Nat) (s : State) : Host.Outcome State Fault Refusal :=
  .next (asLaneSession sess .maintainer false (fun e x => emergencyRelease e sess route x) (·.emOutcome) s)

/-- EMERGENCY_RELEASE_END_ALL (R171): object 0x6030 sub 1 written with 0xFFFF. -/
def execEmergencyReleaseEndAll (sess : Nat) (s : State) : Host.Outcome State Fault Refusal :=
  .next (asLaneSession sess .maintainer false (fun _ x => emergencyEndAll sess x) (·.emOutcome) s)

/-- CARRIER_CONFIRMED (R185, transition 2). -/
def execCarrierConfirmed (carrier : Nat) (s : State) : Host.Outcome State Fault Refusal :=
  .next (laneRow (fun e x => sequence e (confirmCarrier e carrier x)) s)

/-- CARRIER_VANISHED (R185, transition 9). -/
def execCarrierVanished (carrier : Nat) (s : State) : Host.Outcome State Fault Refusal :=
  .next (laneRow (fun e x => sequence e (fillSlots e.st (vanishCarrier e carrier x))) s)

/-- CARRIER_CONTRADICT (R185, transition 8). -/
def execCarrierContradict (carrier : Nat) (s : State) : Host.Outcome State Fault Refusal :=
  .next (laneRow (fun e x => sequence e (fillSlots e.st (contradictCarrier e carrier x))) s)

/-- LOST_SPAN_CLEARED (R185, transition 13). -/
def execLostSpanCleared (carrier : Nat) (s : State) : Host.Outcome State Fault Refusal :=
  .next (laneRow (fun e x => clearLost e carrier x) s)

/-- Filter class of an input that R427 counts. -/
def stuckClass (st : Station) (key : Nat) : Option Nat :=
  if key < pairKey 0 then ((inputBindings st).find? (fun b => pointKey b = key)).map (·.fclass)
  else ((st.pairs).find? (fun p => pairKey p.num = key)).map (·.fclass)

/-- STUCK_INPUT (R427): an input active in as many consecutive images as its class allows. -/
def stuckInput (key : Nat) (e : KEnv) (x : KRun) : KRun :=
  match stuckClass e.st key with
  | none => x
  | some c =>
    let n := stuckLimit e c
    if n ≠ 0 && n ≤ tabGet x.k.stuck key 0 && !x.k.stuckNow.contains key then
      let x := onK (fun k => substituteStuck e { k with stuckNow := k.stuckNow ++ [key] }) x
      sequence e (stepKeys e (kRec 1 39 0 0xFFFF (be 2 key) (kEv 39 key x)))
    else x

/-- STUCK_INPUT (R427): `port` 16 names the local pairs. -/
def execStuckInput (port point : Nat) (s : State) : Host.Outcome State Fault Refusal :=
  .next (laneRow (stuckInput (port * 1024 + point)) s)

end Sys2Proof.Machine
end

