-- ==== Sys2Proof/Machine/Tick.lean ====
section
/-! DEFINITION. PROGRAM_CYCLE_TICK: the cycle input image is latched and the lanes run it (R27 to R31, R91 to R96, R246, R253,
R418, R492 to R495, R506, R507, R510, R546, R611, R612). -/

namespace Sys2Proof.Machine

/-! ## What ends with the program cycle -/

/-- Vote settings written in the image that ends take effect (R253). DESIGN CHOICE, log 28 (safe). -/
def applyVoteSettings (v : VoteSt) : VoteSt :=
  let old := v
  { v with
    deadlinePct := tabGet old.nextSet 1 v.deadlinePct, n := tabGet old.nextSet 2 v.n
    autoRejoin := (match tabFind old.nextSet 3 with | some x => x ≠ 0 | none => v.autoRejoin)
    rejoinMax := tabGet old.nextSet 4 v.rejoinMax, nextSet := [] }

/-- Lanes in the shadow phase: images in a row whose results equalled the voted ones (R235). -/
def countShadows (s : State) : State :=
  { s with lanes := triMap s.lanes (fun _ x =>
    if x.ls = .shadow then { x with shadowOk := if shadowGood s x then x.shadowOk + 1 else 0 } else x) }

/-- What is raised or counted once per program cycle may be again (R418, R466, Table 9.19). -/
def newProgramCycle (s : State) : State :=
  let chan (c : ChanSt) : ChanSt := { c with ports := tabMap c.ports (fun _ p => { p with discEvt := false }) }
  { s with
    bus := { s.bus with chans := twoMap s.bus.chans (fun _ c => chan c) }
    time := { s.time with stamps := tabMap s.time.stamps (fun _ q => { q with evtDone := false }) }
    env := tabMap s.env (fun _ v => { v with evtDone := false }) }

/-! ## Requests -/

/-- Requests taken in one tick (R93). -/
def requestCap : Nat := 256

/-- A request before another one: cancels first, then by ingress time stamp (R93). -/
def sooner (a b : Req) : Bool :=
  let first (q : Req) : Bool := q.cls = 0 || q.cls = 1
  if first a = first b then a.stamp < b.stamp else first a

/-- A request put in its place. -/
def insertReq (q : Req) : List Req → List Req
  | [] => [q]
  | x :: l => if sooner q x then q :: x :: l else x :: insertReq q l

/-- Queued requests in the order they are taken. -/
def queuedReqs (s : State) : List Req :=
  (s.queues.flatMap (fun p => p.2)).foldl (fun l q => insertReq q l) []

/-- The requests of the coming image (R93). DESIGN CHOICE, log 8 (unsafe). -/
def takenReqs (s : State) : List Req := if imagesRun s then (queuedReqs s).take requestCap else []

/-- The queues without the requests taken. -/
def leftQueues (s : State) : Tab (List Req) :=
  let l := takenReqs s
  tabMap s.queues (fun _ q => q.filter (fun r => !l.contains r))

/-! ## The cycle input image -/

/-- Results for port 0 of the image voted last, for the application program (R292). -/
def portResults (s : State) : List (List Byte) :=
  ((tabGet s.view.results 0 ⟨[], 0⟩).recs.filter (fun r => r.image = s.vote.lastVoted && s.vote.everVoted)).map resultBytes

/-- Epochs that the controllers' envelopes in the image carry (R395). -/
def imageEpochs (s : State) : Tab Nat := (s.env.filter (fun v => v.2.srcs ≠ 0)).map (fun v => (v.1, v.2.cepoch))

/-- The image of the tick (R28), with the bus input image of the half whose reading is module time. DESIGN CHOICE, log 8
(unsafe). DESIGN CHOICE, log 8 (unsafe). DEDUCED, log 53 (safe). -/
def latchImage (t : TickIn) (s : State) : State :=
  let l := takenReqs s
  let odd (q : Req) : Bool := t.diverged.contains (q.port, q.tag)
  let standby := decide (s.pair.role = .standby)
  let img : CycleImage :=
    { num := imgAdd s.imageNo 1, counter := s.bus.counter, bus := twoGet s.busImg (timeHalf s)
      reqs := if standby then [] else l.filter (fun q => !odd q), diverged := if standby then [] else l.filter odd
      refused := if standby then l else [], replies := s.casc.replies, writes := [], cepochs := imageEpochs s
      hb := keepLast s.bus.lCyc s.pair.hbRec, run := decide (modeOf s = 0), standby := standby, key := s.lio.key
      appResults := portResults s, windows := s.bridge.mem }
  { s with
    imageNo := img.num, image := img, queues := leftQueues s, casc := { s.casc with replies := [] }
    vote := { s.vote with tickNs := s.ns, tickUtc := utcNs s + 50000 } }

/-- A half's copy of the image: its own local pairs (R423). -/
def copyOf (s : State) (h : Half) : Option CycleImage :=
  if (twoGet s.halves h).inServ then some { s.image with bus := twoGet s.busImg h } else none

/-- What the controllers of the image report (R397, R418, Table 10.11). DESIGN CHOICE, log 90
(unsafe). DESIGN CHOICE, log 61 (safe). DESIGN CHOICE, log 90 (unsafe). -/
def reportControllers (s : State) : State :=
  s.env.foldl (fun s p =>
    let v := envOf s p.1
    let here := v.srcs ≠ 0
    let mis := here && v.cepoch ≠ 0 && v.cepoch ≠ s.pair.epoch
    let w : EnvPort := { v with
      misRun := if mis then v.misRun + 1 else 0
      cvReports := if bits v.cflags 4 2 ≠ 0 then sat 0xFFFFFFFF (v.cvReports + 1) else v.cvReports }
    let s := { s with env := tabPut s.env p.1 w }
    if v.cflags ≠ 0 || (2 ≤ w.misRun && commands s) then envEvent p.1 s else s) s

/-! ## The pair -/

/-- Longest run of bus cycles of a kind in a record. -/
def longestRun (p : Bool × Bool × Bool → Bool) (l : List (Bool × Bool × Bool)) : Nat :=
  (l.foldl (fun (a : Nat × Nat) x => if p x then (a.1 + 1, max a.2 (a.1 + 1)) else (0, a.2)) (0, 0)).2

/-- Heartbeats of the image's record and the last two bus cycles of the one before (R493): a run of 3 that ends in the image.
The partner is lost, or a path has a fault; event 56. DESIGN CHOICE, log 59 (safe). -/
def judgeHeartbeats (s : State) : State :=
  let p := s.pair
  if !p.formed || !p.partner.heard then modPairLink (fun p => { p with plRun := 0, welRun := 0, allRun := 0 }) s
  else
    let l := keepLast (s.bus.lCyc + 2) p.hbRec
    let all := longestRun (fun x => !x.1 && !x.2.1 && !x.2.2) l
    let pl := longestRun (fun x => !x.1 && (x.2.1 || x.2.2)) l
    let wel := longestRun (fun x => x.1 && !x.2.1 && !x.2.2) l
    let fault := decide (3 ≤ pl) || decide (3 ≤ wel)
    let s := modPairLink (fun p => { p with
      plRun := pl, welRun := wel, allRun := all, lost := p.lost || 3 ≤ all, pathFault := fault }) s
    if fault ≠ p.pathFault then raiseEv 56 noDetail s else s

/-- A controller's envelope in the image with an epoch newer than the module's own (R507). DESIGN CHOICE, log 61 (safe). -/
def newerSeen (s : State) : Bool := s.image.cepochs.any (fun c => c.2 ≠ 0 && newerEpoch c.2 s.pair.epoch)

/-- Deposition by the controllers (R507). -/
def judgeEpochs (s : State) : State :=
  if s.pair.role ≠ .active then s
  else
    let run := if newerSeen s then s.pair.deposeRun + 1 else 0
    let s := modPairLink (fun p => { p with deposeRun := run }) s
    if 2 ≤ run then depose s else s

/-- The first image of a start (R506, R515): the epoch, and cancel all to the neighbours. DESIGN CHOICE, log 66 (safe).
DESIGN CHOICE, log 67 (safe). -/
def startEpoch (s : State) : State :=
  if s.pair.epochSet || s.pair.role = .standby || !imagesRun s then s
  else
    let e := takeEpoch s
    let s := modPairLink (fun p => { p with epoch := e, retainedEpoch := e, epochSet := true }) s
    { s with casc := { s.casc with cancelAllDue := neighbours s } }

/-- A standby at its tick: resynchronisation that is due (R498), readiness, confirmation while ready (R612). -/
def standbyTick (s : State) : State :=
  if s.pair.role ≠ .standby then noteReady s
  else
    let due := (s.pair.nr3 || s.pair.nr4) && !s.pair.resync && s.pair.partner.heard && !resyncBarred s
    let s := noteReady (if due then startResync s else s)
    if pairReady s && s.power.step = 7 then { s with power := { s.power with step := 0, confirmed := true, confirmDue := false } } else s

/-! ## Confirmation and commissioning -/

/-- Start-up confirmation in the image (R611): event 64, a record of its source. `given` says that it was given before this
tick; a write applied at this tick enters the image of the next. DEDUCED, log 93 (safe). -/
def confirmTick (given : Bool) (s : State) : State :=
  let p := s.power
  if given && p.confirmDue && p.step = 7 then
    raiseRec 64 0 p.confirmSrc 3 0xFFFF (be 1 p.confirmSrc)
      { s with power := { p with confirmDue := false, confirmImg := some s.imageNo, step := 0 } }
  else s

/-- Commissioning mode takes effect (R246): an active module of a pair hands control over first. DESIGN CHOICE, log 31
(safe). DESIGN CHOICE, log 31 (safe). -/
def commissionTick (s : State) : State :=
  let p := s.pair
  if !s.comm.asked then s
  else if p.formed && p.role = .active && p.partner.heard then
    (if p.partner.ready && !handoverBusy s then decideHandover false s else s)
  else
    raiseAt s.imageNo 14 1 { s with comm := { s.comm with
      mode := true, asked := false, leaving := false, leaveImgs := 0, debugOpen := s.lio.key, journal := [], seq := 0 } }

/-! ## The tick -/

/-- The lanes take the image (R29, R30); a standby's wait for the shadow image (R494). -/
def runTick (t : TickIn) (s : State) : State :=
  if !imagesRun s || s.pair.role = .standby then s
  else runLanes (copyOf s) ((halvesUp s).length = 2) t s

/-- A tick with an image. -/
def imageTick (t : TickIn) (s : State) : State :=
  let s := newProgramCycle (countShadows { s with vote := applyVoteSettings s.vote })
  let s := modPairLink (fun p => { p with shadows := [] }) (latchImage t s)
  let given := s.power.confirmDue
  let s := applyRequests s
  let s := judgeEpochs (judgeHeartbeats (reportControllers s))
  let s := startEpoch s
  let s := runTick t s
  let s := commissionTick (confirmTick given s)
  applyDue (standbyTick s)

/-- PROGRAM_CYCLE_TICK (R28): t0 + 50 µs of a bus cycle whose counter is a multiple of L. Without a channel that keeps the
schedule, and while the last image before Quiet is under way, no image is latched and the commons alone applies its writes.
DESIGN CHOICE, log 6 (safe). DESIGN CHOICE, log 9 (safe). -/
def programCycleTick (t : TickIn) (s : State) : State :=
  if !s.bus.tick || s.power.pfail ≠ 0 then s
  else
    let s := { s with bus := { s.bus with tick := false } }
    if allHalves.any (fun h => (twoGet s.halves h).inServ && chanUp s h) && !leavingRun s then imageTick t s
    else applyDue (applyRequests s)

/-- PROGRAM_CYCLE_TICK (R28). -/
def execProgramCycleTick (t : TickIn) (s : State) : Host.Outcome State Fault Refusal := .next (programCycleTick t s)

end Sys2Proof.Machine
end

