-- ==== Sys2Proof/Machine/Dispatch.lean ====
section
/-! DEFINITION. One arm per command: the direct call of its meaning. -/

namespace Sys2Proof.Machine

def exec (i : Instr) (s : State) : Host.Outcome State Fault Refusal :=
  match i with
  | .busCycleStart inp => Sys2Proof.Machine.execBusCycleStart inp s
  | .evaluationOverrun h key => Sys2Proof.Machine.execEvaluationOverrun h key s
  | .rateCorrection h => Sys2Proof.Machine.execRateCorrection h s
  | .weakSynchronisation h => Sys2Proof.Machine.execWeakSynchronisation h s
  | .syncFrame h port f at_ => Sys2Proof.Machine.execSyncFrame h port f at_ s
  | .backOffEnd h => Sys2Proof.Machine.execBackOffEnd h s
  | .coldStart h port f at_ coll => Sys2Proof.Machine.execColdStart h port f at_ coll s
  | .listenTimeout h => Sys2Proof.Machine.execListenTimeout h s
  | .counterRecordWrite h => Sys2Proof.Machine.execCounterRecordWrite h s
  | .inputFrame h port f => Sys2Proof.Machine.execInputFrame h port f s
  | .integrateFrame h port f => Sys2Proof.Machine.execIntegrateFrame h port f s
  | .portClosedByCuts h port => Sys2Proof.Machine.execPortClosedByCuts h port s
  | .linkUp h port => Sys2Proof.Machine.execLinkUp h port s
  | .linkDown h port => Sys2Proof.Machine.execLinkDown h port s
  | .delayResp h port f roundTrip => Sys2Proof.Machine.execDelayResp h port f roundTrip s
  | .linkDelayRemeasure h port => Sys2Proof.Machine.execLinkDelayRemeasure h port s
  | .portClose sess h port => Sys2Proof.Machine.execPortClose sess h port s
  | .portRelease sess h port => Sys2Proof.Machine.execPortRelease sess h port s
  | .measureLinkDelay sess h port => Sys2Proof.Machine.execMeasureLinkDelay sess h port s
  | .portTableResend h port => Sys2Proof.Machine.execPortTableResend h port s
  | .claimFrame h port f => Sys2Proof.Machine.execClaimFrame h port f s
  | .serviceFrame h port f far => Sys2Proof.Machine.execServiceFrame h port f far s
  | .wakeFrame h port f => Sys2Proof.Machine.execWakeFrame h port f s
  | .modeRequest sess n => Sys2Proof.Machine.execModeRequest sess n s
  | .modeAbort sess => Sys2Proof.Machine.execModeAbort sess s
  | .checkpointReached => Sys2Proof.Machine.execCheckpointReached s
  | .modeSwitch => Sys2Proof.Machine.execModeSwitch s
  | .programCycleTick t => Sys2Proof.Machine.execProgramCycleTick t s
  | .outputImage l h img => Sys2Proof.Machine.execOutputImage l h img s
  | .voteDeadline h => Sys2Proof.Machine.execVoteDeadline h s
  | .lateExclusion l => Sys2Proof.Machine.execLateExclusion l s
  | .benchmarkMsg l h dig => Sys2Proof.Machine.execBenchmarkMsg l h dig s
  | .comparatorLinkMessage passA passB => Sys2Proof.Machine.execComparatorLinkMessage passA passB s
  | .memoryError l addr => Sys2Proof.Machine.execMemoryError l addr s
  | .laneClockFault l => Sys2Proof.Machine.execLaneClockFault l s
  | .laneSupplyFault l => Sys2Proof.Machine.execLaneSupplyFault l s
  | .rejoinStart l => Sys2Proof.Machine.execRejoinStart l s
  | .bootingDone l fw data mem => Sys2Proof.Machine.execBootingDone l fw data mem s
  | .copyRoundEnd l pages canStream => Sys2Proof.Machine.execCopyRoundEnd l pages canStream s
  | .finalRoundReceived l => Sys2Proof.Machine.execFinalRoundReceived l s
  | .laneEntersVote l => Sys2Proof.Machine.execLaneEntersVote l s
  | .rejoinTimeout l => Sys2Proof.Machine.execRejoinTimeout l s
  | .withdrawLane sess l => Sys2Proof.Machine.execWithdrawLane sess l s
  | .returnLane sess l => Sys2Proof.Machine.execReturnLane sess l s
  | .cancelWithdrawal sess => Sys2Proof.Machine.execCancelWithdrawal sess s
  | .withdrawalTakesEffect => Sys2Proof.Machine.execWithdrawalTakesEffect s
  | .enterCommissioning sess => Sys2Proof.Machine.execEnterCommissioning sess s
  | .leaveCommissioning sess => Sys2Proof.Machine.execLeaveCommissioning sess s
  | .commissioningKeyInactive => Sys2Proof.Machine.execCommissioningKeyInactive s
  | .debugHalt core => Sys2Proof.Machine.execDebugHalt core s
  | .breakpointHit core count => Sys2Proof.Machine.execBreakpointHit core count s
  | .debugResume core => Sys2Proof.Machine.execDebugResume core s
  | .debugSingleStep core => Sys2Proof.Machine.execDebugSingleStep core s
  | .debugMemoryWrite core addr data => Sys2Proof.Machine.execDebugMemoryWrite core addr data s
  | .debugRegisterWrite core reg data => Sys2Proof.Machine.execDebugRegisterWrite core reg data s
  | .instructionCountPublish counts => Sys2Proof.Machine.execInstructionCountPublish counts s
  | .journalEntryApply l core => Sys2Proof.Machine.execJournalEntryApply l core s
  | .graphScrub h mismatch => Sys2Proof.Machine.execGraphScrub h mismatch s
  | .outputWithheldLCycles h key => Sys2Proof.Machine.execOutputWithheldLCycles h key s
  | .clearAhead f => Sys2Proof.Machine.execClearAhead f s
  | .setRoute q => Sys2Proof.Machine.execSetRoute q s
  | .cancelRoute q => Sys2Proof.Machine.execCancelRoute q s
  | .emergencyCancel q => Sys2Proof.Machine.execEmergencyCancel q s
  | .pointMove q => Sys2Proof.Machine.execPointMove q s
  | .holdExpired port tag => Sys2Proof.Machine.execHoldExpired port tag s
  | .throwTimeout point => Sys2Proof.Machine.execThrowTimeout point s
  | .lostCleared point => Sys2Proof.Machine.execLostCleared point s
  | .boundaryConfirmationTimeout route => Sys2Proof.Machine.execBoundaryConfirmationTimeout route s
  | .signalNotProven signal => Sys2Proof.Machine.execSignalNotProven signal s
  | .sequenceRelease route => Sys2Proof.Machine.execSequenceRelease route s
  | .clearFor route => Sys2Proof.Machine.execClearFor route s
  | .elapsedEvent app owner => Sys2Proof.Machine.execElapsedEvent app owner s
  | .releaseByDistance route => Sys2Proof.Machine.execReleaseByDistance route s
  | .ghostTimeout sec => Sys2Proof.Machine.execGhostTimeout sec s
  | .crossingClosingTimeout crossing => Sys2Proof.Machine.execCrossingClosingTimeout crossing s
  | .crossingOpenSlow crossing => Sys2Proof.Machine.execCrossingOpenSlow crossing s
  | .crossingRecovered crossing => Sys2Proof.Machine.execCrossingRecovered crossing s
  | .keyTimerExpiry key num => Sys2Proof.Machine.execKeyTimerExpiry key num s
  | .emergencyRelease sess route => Sys2Proof.Machine.execEmergencyRelease sess route s
  | .emergencyReleaseEndAll sess => Sys2Proof.Machine.execEmergencyReleaseEndAll sess s
  | .carrierConfirmed carrier => Sys2Proof.Machine.execCarrierConfirmed carrier s
  | .carrierVanished carrier => Sys2Proof.Machine.execCarrierVanished carrier s
  | .carrierContradict carrier => Sys2Proof.Machine.execCarrierContradict carrier s
  | .lostSpanCleared carrier => Sys2Proof.Machine.execLostSpanCleared carrier s
  | .vlTimerExpiry ref => Sys2Proof.Machine.execVlTimerExpiry ref s
  | .programFaulted => Sys2Proof.Machine.execProgramFaulted s
  | .progArm sess => Sys2Proof.Machine.execProgArm sess s
  | .progAbort sess => Sys2Proof.Machine.execProgAbort sess s
  | .progStop sess => Sys2Proof.Machine.execProgStop sess s
  | .progStart sess => Sys2Proof.Machine.execProgStart sess s
  | .onlineChangeSwitch => Sys2Proof.Machine.execOnlineChangeSwitch s
  | .variableWrite sess inst fld value => Sys2Proof.Machine.execVariableWrite sess inst fld value s
  | .forceSet sess inst fld value => Sys2Proof.Machine.execForceSet sess inst fld value s
  | .forceRemove sess inst fld => Sys2Proof.Machine.execForceRemove sess inst fld s
  | .forceRemoveAll sess => Sys2Proof.Machine.execForceRemoveAll sess s
  | .programLoadOpen sess => Sys2Proof.Machine.execProgramLoadOpen sess s
  | .programLoadWindow sess data => Sys2Proof.Machine.execProgramLoadWindow sess data s
  | .programLoadEnd sess => Sys2Proof.Machine.execProgramLoadEnd sess s
  | .programLoadAbandon sess => Sys2Proof.Machine.execProgramLoadAbandon sess s
  | .programLoadChecked faulty => Sys2Proof.Machine.execProgramLoadChecked faulty s
  | .loadOpen sess => Sys2Proof.Machine.execLoadOpen sess s
  | .loadWindow sess data => Sys2Proof.Machine.execLoadWindow sess data s
  | .loadEnd sess => Sys2Proof.Machine.execLoadEnd sess s
  | .loadAbandon sess => Sys2Proof.Machine.execLoadAbandon sess s
  | .loadChecked faulty => Sys2Proof.Machine.execLoadChecked faulty s
  | .activateData sess => Sys2Proof.Machine.execActivateData sess s
  | .withdrawActivation sess => Sys2Proof.Machine.execWithdrawActivation sess s
  | .registerComposeKey sess key => Sys2Proof.Machine.execRegisterComposeKey sess key s
  | .registerVerifyKey sess key => Sys2Proof.Machine.execRegisterVerifyKey sess key s
  | .removeKey sess finger => Sys2Proof.Machine.execRemoveKey sess finger s
  | .inputSupervisionFault h n code tp cause => Sys2Proof.Machine.execInputSupervisionFault h n code tp cause s
  | .discrepancy h n => Sys2Proof.Machine.execDiscrepancy h n s
  | .chattering h n => Sys2Proof.Machine.execChattering h n s
  | .stuckInput port point => Sys2Proof.Machine.execStuckInput port point s
  | .acknowledgePairs sess mask => Sys2Proof.Machine.execAcknowledgePairs sess mask s
  | .acknowledgeOutputs sess mask => Sys2Proof.Machine.execAcknowledgeOutputs sess mask s
  | .acknowledgeKey sess => Sys2Proof.Machine.execAcknowledgeKey sess s
  | .switchTest n midU outU midL outL => Sys2Proof.Machine.execSwitchTest n midU outU midL outL s
  | .darkTest n low => Sys2Proof.Machine.execDarkTest n low s
  | .resetEdge => Sys2Proof.Machine.execResetEdge s
  | .resetStuck => Sys2Proof.Machine.execResetStuck s
  | .offsetIncrement sess o => Sys2Proof.Machine.execOffsetIncrement sess o s
  | .rateIncrement sess r => Sys2Proof.Machine.execRateIncrement sess r s
  | .timeStep sess ns => Sys2Proof.Machine.execTimeStep sess ns s
  | .acknowledgeRefusal sess => Sys2Proof.Machine.execAcknowledgeRefusal sess s
  | .ptpSync m dt => Sys2Proof.Machine.execPtpSync m dt s
  | .announceMsg domain m => Sys2Proof.Machine.execAnnounceMsg domain m s
  | .announceTimeout sender => Sys2Proof.Machine.execAnnounceTimeout sender s
  | .leapSecond => Sys2Proof.Machine.execLeapSecond s
  | .timedFrameLate => Sys2Proof.Machine.execTimedFrameLate s
  | .launchMissed h slot port => Sys2Proof.Machine.execLaunchMissed h slot port s
  | .cascadeEnvelope f => Sys2Proof.Machine.execCascadeEnvelope f s
  | .anchorMsg f => Sys2Proof.Machine.execAnchorMsg f s
  | .anchorSend peer num => Sys2Proof.Machine.execAnchorSend peer num s
  | .referencePairUpdate kind peer num => Sys2Proof.Machine.execReferencePairUpdate kind peer num s
  | .pathFault n => Sys2Proof.Machine.execPathFault n s
  | .boardLinkUp side pos addrs ring => Sys2Proof.Machine.execBoardLinkUp side pos addrs ring s
  | .heartbeatMsg path f => Sys2Proof.Machine.execHeartbeatMsg path f s
  | .partnerLost => Sys2Proof.Machine.execPartnerLost s
  | .shadowImage h img good t => Sys2Proof.Machine.execShadowImage h img good t s
  | .shadowMissed t => Sys2Proof.Machine.execShadowMissed t s
  | .benchmarkEnvelope f => Sys2Proof.Machine.execBenchmarkEnvelope f s
  | .resynchronise sess => Sys2Proof.Machine.execResynchronise sess s
  | .resyncComplete k => Sys2Proof.Machine.execResyncComplete k s
  | .handOver sess => Sys2Proof.Machine.execHandOver sess s
  | .coldHandOver sess => Sys2Proof.Machine.execColdHandOver sess s
  | .handOverImage => Sys2Proof.Machine.execHandOverImage s
  | .takeback => Sys2Proof.Machine.execTakeback s
  | .reserveMsg f => Sys2Proof.Machine.execReserveMsg f s
  | .reserveReply f => Sys2Proof.Machine.execReserveReply f s
  | .timeFrame path f dt => Sys2Proof.Machine.execTimeFrame path f dt s
  | .timeFrameSend launch => Sys2Proof.Machine.execTimeFrameSend launch s
  | .datumDelayRequest launch => Sys2Proof.Machine.execDatumDelayRequest launch s
  | .cycleReportSend => Sys2Proof.Machine.execCycleReportSend s
  | .cycleReport f => Sys2Proof.Machine.execCycleReport f s
  | .syncPulse => Sys2Proof.Machine.execSyncPulse s
  | .syncEdge dt => Sys2Proof.Machine.execSyncEdge dt s
  | .readReq op => Sys2Proof.Machine.execReadReq op s
  | .readData f => Sys2Proof.Machine.execReadData f s
  | .readDataDiscard tag => Sys2Proof.Machine.execReadDataDiscard tag s
  | .bridgeWrite op => Sys2Proof.Machine.execBridgeWrite op s
  | .writeDone f => Sys2Proof.Machine.execWriteDone f s
  | .bridgeError f => Sys2Proof.Machine.execBridgeError f s
  | .bridgeTimeout tag => Sys2Proof.Machine.execBridgeTimeout tag s
  | .openSess src ch b => Sys2Proof.Machine.execOpenSess src ch b s
  | .closeSess src ch b => Sys2Proof.Machine.execCloseSess src ch b s
  | .statusReq src ch b => Sys2Proof.Machine.execStatusReq src ch b s
  | .readObj src ch b => Sys2Proof.Machine.execReadObj src ch b s
  | .writeObj src ch b => Sys2Proof.Machine.execWriteObj src ch b s
  | .readClear src ch b => Sys2Proof.Machine.execReadClear src ch b s
  | .describeObj src ch b => Sys2Proof.Machine.execDescribeObj src ch b s
  | .eventRead src ch b => Sys2Proof.Machine.execEventRead src ch b s
  | .proxyReq src ch b far => Sys2Proof.Machine.execProxyReq src ch b far s
  | .eventPendingClear src ch b => Sys2Proof.Machine.execEventPendingClear src ch b s
  | .sessionTimeout n => Sys2Proof.Machine.execSessionTimeout n s
  | .lockoutEnd src => Sys2Proof.Machine.execLockoutEnd src s
  | .networkSettingsApply => Sys2Proof.Machine.execNetworkSettingsApply s
  | .fieldBookRead sess => Sys2Proof.Machine.execFieldBookRead sess s
  | .fieldBookCursor sess v => Sys2Proof.Machine.execFieldBookCursor sess v s
  | .fieldBookSeek sess t => Sys2Proof.Machine.execFieldBookSeek sess t s
  | .recordsLostMarker => Sys2Proof.Machine.execRecordsLostMarker s
  | .chestRead sess good => Sys2Proof.Machine.execChestRead sess good s
  | .snapshotRead sess => Sys2Proof.Machine.execSnapshotRead sess s
  | .eventRecordRead sess => Sys2Proof.Machine.execEventRecordRead sess s
  | .forceRecordRead sess => Sys2Proof.Machine.execForceRecordRead sess s
  | .chestClear sess v => Sys2Proof.Machine.execChestClear sess v s
  | .checkAlgorithmSelect sess v => Sys2Proof.Machine.execCheckAlgorithmSelect sess v s
  | .checkData sess data => Sys2Proof.Machine.execCheckData sess data s
  | .checkRunningValue sess v => Sys2Proof.Machine.execCheckRunningValue sess v s
  | .powerFail mv1 mv2 => Sys2Proof.Machine.execPowerFail mv1 mv2 s
  | .powerFailWriteDone recovered => Sys2Proof.Machine.execPowerFailWriteDone recovered s
  | .selfTestRun sess target inst slices => Sys2Proof.Machine.execSelfTestRun sess target inst slices s
  | .selfTestStop sess inst => Sys2Proof.Machine.execSelfTestStop sess inst s
  | .takeHalfOut sess inst => Sys2Proof.Machine.execTakeHalfOut sess inst s
  | .restartHalf sess inst inp => Sys2Proof.Machine.execRestartHalf sess inst inp s
  | .selfTestSlice inst fail => Sys2Proof.Machine.execSelfTestSlice inst fail s
  | .rotationSlow l => Sys2Proof.Machine.execRotationSlow l s
  | .ageingMeasurement index sub margin => Sys2Proof.Machine.execAgeingMeasurement index sub margin s
  | .clockStep l inTime => Sys2Proof.Machine.execClockStep l inTime s
  | .norRefresh l good => Sys2Proof.Machine.execNorRefresh l good s
  | .clockRestore sess v => Sys2Proof.Machine.execClockRestore sess v s
  | .forecastDay => Sys2Proof.Machine.execForecastDay s
  | .powerVote sess origin sub v => Sys2Proof.Machine.execPowerVote sess origin sub v s
  | .wakeRequest cal => Sys2Proof.Machine.execWakeRequest cal s
  | .wakeHoldExpiry => Sys2Proof.Machine.execWakeHoldExpiry s
  | .transitionStart => Sys2Proof.Machine.execTransitionStart s
  | .transitionComplete => Sys2Proof.Machine.execTransitionComplete s
  | .wakeStepTimeout d stp => Sys2Proof.Machine.execWakeStepTimeout d stp s
  | .wakeRetry sess v => Sys2Proof.Machine.execWakeRetry sess v s
  | .startUpStep inp => Sys2Proof.Machine.execStartUpStep inp s
  | .startUpConfirmation sess v => Sys2Proof.Machine.execStartUpConfirmation sess v s
  | .supplyLost n mv => Sys2Proof.Machine.execSupplyLost n mv s
  | .supplyReturned n mv => Sys2Proof.Machine.execSupplyReturned n mv s
  | .supplyOvervoltage n mv => Sys2Proof.Machine.execSupplyOvervoltage n mv s
  | .backupCellMeasurement mv => Sys2Proof.Machine.execBackupCellMeasurement mv s
  | .thermalShutdown d => Sys2Proof.Machine.execThermalShutdown d s
  | .updateOpen sess via => Sys2Proof.Machine.execUpdateOpen sess via s
  | .bufferWindow sess data => Sys2Proof.Machine.execBufferWindow sess data s
  | .updateBlock sess via n crc good => Sys2Proof.Machine.execUpdateBlock sess via n crc good s
  | .updateAbandon sess via => Sys2Proof.Machine.execUpdateAbandon sess via s
  | .forwardImage code => Sys2Proof.Machine.execForwardImage code s
  | .installRolling sess => Sys2Proof.Machine.execInstallRolling sess s
  | .installAllLanes sess => Sys2Proof.Machine.execInstallAllLanes sess s
  | .installStop sess => Sys2Proof.Machine.execInstallStop sess s
  | .installLaneDone l => Sys2Proof.Machine.execInstallLaneDone l s
  | .halfSupplyOrClock h => Sys2Proof.Machine.execHalfSupplyOrClock h s
  | .maintenancePortLinkDown => Sys2Proof.Machine.execMaintenancePortLinkDown s
  | .boardLinkBreak down1 down2 pos addrs => Sys2Proof.Machine.execBoardLinkBreak down1 down2 pos addrs s
  | .rstuckClear => Sys2Proof.Machine.execRstuckClear s
  | .overcurrent n => Sys2Proof.Machine.execOvercurrent n s
  | .stuckOn n => Sys2Proof.Machine.execStuckOn n s
  | .delayRequest src seq dt => Sys2Proof.Machine.execDelayRequest src seq dt s
  | .delayResponse path seq received => Sys2Proof.Machine.execDelayResponse path seq received s
  | .ptpDelayReq launch => Sys2Proof.Machine.execPtpDelayReq launch s
  | .ptpDelayResp sender seq received => Sys2Proof.Machine.execPtpDelayResp sender seq received s
  | .followUp m => Sys2Proof.Machine.execFollowUp m s
  | .timeSourceLost => Sys2Proof.Machine.execTimeSourceLost s
  | .compatibilityClassRead cls ord n => Sys2Proof.Machine.execCompatibilityClassRead cls ord n s
  | .holdUpBankCharged => Sys2Proof.Machine.execHoldUpBankCharged s
  | .supplyEnters32VBand n mv => Sys2Proof.Machine.execSupplyEnters32VBand n mv s

end Sys2Proof.Machine
end

