-- ==== Sys2Proof/Safety.lean ====
section
/-! DEFINITION. What counts as a sound state of the module: every memory in its canonical form, every buffer within the
capacity the spec gives it, and a half out of service that sends nothing; and the terms the statements use: an event source
that pends, a session that may write, what reporting alone changes. -/

namespace Sys2Proof.Machine

/-- Every byte memory of the module has its canonical form: exchange windows (R522), station-data slots (R77), program slots
(R303), update buffer and new area (R616, R617). -/
def State.memoriesWf (s : State) : Prop :=
  Memory.wf s.bridge.mem = true ∧ Memory.wf s.load.slots.a.bytes = true ∧ Memory.wf s.load.slots.b.bytes = true ∧
  Memory.wf s.progLoad.slots.a.bytes = true ∧ Memory.wf s.progLoad.slots.b.bytes = true ∧
  Memory.wf s.upd.buffer = true ∧ Memory.wf s.upd.newArea = true

/-- Every buffer is within its capacity: timestamp queues 16 entries (R463), requester queues 64 requests (R90), the Field
book's write buffer 4,096 records (R567), the Chest's fault ring 4,096 records (R572). -/
def State.withinCapacity (s : State) : Prop :=
  (∀ q ∈ s.time.stamps, q.2.entries.length ≤ 16) ∧ (∀ q ∈ s.queues, q.2.length ≤ queueCap) ∧
  s.book.buf.length ≤ bookBuffer ∧ s.chest.recs.length ≤ chestRing

/-- A half out of service holds nothing to send and sends nothing (R42). -/
def quietHalf (x : HalfSt) (t : TxSt) : Prop := x.inServ = false → x.active = none ∧ x.next = none ∧ t = TxSt.init

/-- The invariant of the module. -/
def State.sound (s : State) : Prop :=
  s.memoriesWf ∧ s.withinCapacity ∧ quietHalf s.halves.a s.tx.a ∧ quietHalf s.halves.b s.tx.b

/-! ## Terms of the statements -/

/-- An event source pends (R555). -/
abbrev State.raised (s : State) (e : Nat) : Prop := s.ev.pend.getLsbD e = true

/-- A session may write a function of the given level, with the commissioning key where it is asked for (R546 to R551). -/
abbrev State.allows (s : State) (n : Nat) (min : Level) (key : Bool) : Prop :=
  (sessOf s n).opened = true ∧ levelRank min ≤ levelRank (sessOf s n).level ∧ (key = true → s.lio.key = true)

/-- Of the event sources and the dictionary only pending bits, counts, ASEQ, the sessions' event queues, the last result with
its value and the queues' highest depths may differ. -/
def told (s t : State) : Prop :=
  t.ev.enable = s.ev.enable ∧
  t.dict = { s.dict with sessions := t.dict.sessions, result := t.dict.result, value := t.dict.value, qstats := t.dict.qstats } ∧
  ∀ n, sessOf t n = { sessOf s n with events := (sessOf t n).events }

/-- Reporting alone has happened: events, Field book and Chest records; nothing else differs (R555, R565, R573). -/
def reported (s t : State) : Prop :=
  told s t ∧ t = { s with free := t.free, dict := t.dict, ev := t.ev, book := t.book, chest := t.chest }

/-- A reply has left, or none: only what a datagram itself touches differs, the sessions, the reply, the queues' highest depths,
the timestamp queues and the event sources (R541, R553, R560). -/
def replied (s t : State) : Prop :=
  t.ev.enable = s.ev.enable ∧
  t = { s with
    time := { s.time with stamps := t.time.stamps }, ev := t.ev,
    dict := { s.dict with sessions := t.dict.sessions, reply := t.dict.reply, qstats := t.dict.qstats } }

/-- Every session but one is as before, but for its event queue. -/
def sessionsKept (n : Nat) (s t : State) : Prop := ∀ m, m ≠ n → sessOf t m = { sessOf s m with events := (sessOf t m).events }

/-- The newest result record of a port's ring (R97, R98). -/
abbrev lastResult (k : Kernel) (port : Nat) : Option ResultRec := (tabGet k.results port ⟨[], 0⟩).recs.getLast?

/-- A step of the kernel in the image under way (R30): each lane that has run that image takes the step, with the authority
engine after it, and its output image is made again; no other lane and nothing else changes. -/
def kernelRow (f : KEnv → KRun → KRun) (s t : State) : Prop :=
  t = { s with lanes := t.lanes } ∧
  ∀ l, (∀ o, (triGet s.lanes l).out = some o → o.num = s.imageNo → (triGet s.lanes l).ran = s.imageNo →
      ∃ y, y = runAuthorities (kenv s) false (f (kenv s) ⟨(triGet s.lanes l).kernel, o.records, o.events, o.casc.reserves⟩) ∧
        triGet t.lanes l = { triGet s.lanes l with
          kernel := y.k, out := some { outputImage s y o.module.answers with num := o.num, checkOk := o.checkOk } }) ∧
    ((∀ o, (triGet s.lanes l).out = some o → o.num = s.imageNo → (triGet s.lanes l).ran ≠ s.imageNo) →
      triGet t.lanes l = triGet s.lanes l)

/-- Every star port but one is as before. -/
def portsKept (h : Half) (port : Nat) (s t : State) : Prop :=
  ∀ k p, ¬(k = h ∧ p = port) → portOf t k p = portOf s k p

end Sys2Proof.Machine
end

