-- ==== Sys2Proof/WellFormed.lean ====
section
/-! DEFINITION. Well-formed commands: operands of the widths the spec's fields have. The hardware and the wire present no others. -/

namespace Sys2Proof

/-- A star port number (ZV3-1600: 16 ports). -/
def isPort (p : Nat) : Bool := decide (p < 16)

/-- A dictionary session number (R536). -/
def isSess (n : Nat) : Bool := decide (n < 16)

/-- A number of `n` bits. -/
def fits (n v : Nat) : Bool := decide (v < 2 ^ n)

/-- A Welong frame's fields (Table 9.4). -/
def Frame.wf (f : Frame) : Bool :=
  fits 16 f.etherType && fits 8 f.version && fits 8 f.kind && fits 8 f.mode && fits 8 f.flags && fits 48 f.counter &&
  fits 16 f.slot && fits 8 f.src && fits 16 f.bodyLen && decide (f.body.length ≤ 1828)

/-- A cascade frame's fields (R474). -/
def CascFrame.wf (f : CascFrame) : Bool :=
  fits 16 f.etherType && fits 8 f.version && fits 8 f.kind && fits 16 f.src && fits 16 f.dst && fits 8 f.path && fits 8 f.hops &&
  fits 16 f.bodyLen && decide (f.side ≤ 2) && decide (f.body.length ≤ 1500)

/-- A route request's fields (Table 3.1). -/
def Req.wf (q : Req) : Bool :=
  fits 8 q.cls && fits 3 q.opt && fits 16 q.target && fits 32 q.tag && fits 64 q.stamp && isPort q.port && fits 16 q.epoch

/-- A datagram's source. -/
def Source.wf : Source → Bool
  | .udp ip port => fits 128 ip && fits 16 port
  | .welong port => isPort port
  | .proxy origin _ => fits 16 origin

/-- The far side of a PROXY request. -/
def ProxyIn.wf (p : ProxyIn) : Bool := fits 16 p.code && decide (p.reply.length ≤ 1500)

/-- A datagram as received. -/
def datagramWf (src : Source) (b : List Byte) : Bool := src.wf && decide (b.length ≤ 1500)

/-- A bridge command. -/
def BridgeOp.wf : BridgeOp → Bool
  | .ask init target window offset length data =>
    fits 8 init && fits 16 target && fits 4 window && fits 16 offset && fits 16 length && decide (data.length ≤ 1500)
  | .frame f => f.wf

/-- What a half's circuits report of a bus cycle. -/
def HalfIn.wf (x : HalfIn) : Bool :=
  decide (0 < x.dt) && decide (x.pins.length = 17) && x.cuts.all isPort &&
  (match x.vector with | some v => decide (1 ≤ v.1 && v.1 ≤ 128) && decide (v.2.1 < 16) | none => true)

/-- What the circuits report of a bus cycle. -/
def HeadIn.wf (i : HeadIn) : Bool :=
  i.a.wf && i.b.wf && fits 8 i.ni && i.vos.all (fun v => decide (1 ≤ v.1 && v.1 ≤ 16))

/-- What one lane's in-service test reports. -/
def IstIn.wf (x : IstIn) : Bool :=
  decide (x.percent ≤ 100) && (match x.failed with | some f => fits 64 f.2 | none => true)

/-- What the hardware reports of a tick. -/
def TickIn.wf (t : TickIn) : Bool :=
  t.ist.a.wf && t.ist.b.wf && t.ist.c.wf && t.diverged.all (fun d => isPort d.1 && fits 32 d.2)

/-- What the hardware reports of a start-up step. -/
def StartIn.wf (i : StartIn) : Bool :=
  fits 64 i.calendar && decide (i.voter.a.1 ≤ 48) && decide (i.voter.b.1 ≤ 48)

/-- A PTP message's fields. -/
def PtpMsg.wf (m : PtpMsg) : Bool := fits 8 m.domain && fits 16 m.seq

/-- A master's data set (R457). -/
def Master.wf (m : Master) : Bool :=
  fits 8 m.prio1 && fits 8 m.clockClass && fits 8 m.accuracy && fits 16 m.variance && fits 8 m.prio2 && fits 64 m.gm && fits 16 m.steps

/-- A Datum time frame's fields (R519). -/
def TimeFrame.wf (f : TimeFrame) : Bool := fits 16 f.addr && fits 32 f.epoch && fits 16 f.estErr

/-- Well-formed commands. -/
def Instr.wf : Instr → Bool
  | .busCycleStart i => i.wf
  | .evaluationOverrun _ key => fits 32 key
  | .rateCorrection _ => true
  | .weakSynchronisation _ => true
  | .syncFrame _ port f _ => isPort port && f.wf
  | .backOffEnd _ => true
  | .coldStart _ port f _ coll => isPort port && f.wf && coll.all isPort
  | .listenTimeout _ => true
  | .counterRecordWrite _ => true
  | .inputFrame _ port f => isPort port && f.wf
  | .integrateFrame _ port f => isPort port && f.wf
  | .portClosedByCuts _ port => isPort port
  | .linkUp _ port => isPort port
  | .linkDown _ port => isPort port
  | .delayResp _ port f _ => isPort port && f.wf
  | .linkDelayRemeasure _ port => isPort port
  | .portClose sess _ port => isSess sess && fits 8 port
  | .portRelease sess _ port => isSess sess && fits 8 port
  | .measureLinkDelay sess _ port => isSess sess && fits 8 port
  | .portTableResend _ port => isPort port
  | .claimFrame _ port f => isPort port && f.wf
  | .serviceFrame _ port f far => isPort port && f.wf && far.wf
  | .wakeFrame _ port f => isPort port && f.wf
  | .modeRequest sess n => isSess sess && decide (n ≤ 7)
  | .modeAbort sess => isSess sess
  | .checkpointReached => true
  | .modeSwitch => true
  | .programCycleTick t => t.wf
  | .outputImage _ _ img => img.all (fun o => fits 32 o.num)
  | .voteDeadline _ => true
  | .lateExclusion _ => true
  | .benchmarkMsg _ _ dig => dig.all (fun d => decide (d.length = 32))
  | .comparatorLinkMessage _ _ => true
  | .memoryError _ addr => fits 64 addr
  | .laneClockFault _ => true
  | .laneSupplyFault _ => true
  | .rejoinStart _ => true
  | .bootingDone _ _ _ _ => true
  | .copyRoundEnd _ _ _ => true
  | .finalRoundReceived _ => true
  | .laneEntersVote _ => true
  | .rejoinTimeout _ => true
  | .withdrawLane sess _ => isSess sess
  | .returnLane sess _ => isSess sess
  | .cancelWithdrawal sess => isSess sess
  | .withdrawalTakesEffect => true
  | .enterCommissioning sess => isSess sess
  | .leaveCommissioning sess => isSess sess
  | .commissioningKeyInactive => true
  | .debugHalt core => decide (core < 4)
  | .breakpointHit core _ => decide (core < 4)
  | .debugResume core => decide (core < 4)
  | .debugSingleStep core => decide (core < 4)
  | .debugMemoryWrite core addr data => decide (core < 4) && fits 64 addr && decide (data.length ≤ 32)
  | .debugRegisterWrite core reg data => decide (core < 4) && fits 16 reg && decide (data.length ≤ 32)
  | .instructionCountPublish counts => decide (counts.length = 4)
  | .journalEntryApply _ core => decide (core < 4)
  | .graphScrub _ _ => true
  | .outputWithheldLCycles _ key => fits 32 key
  | .clearAhead f => f.wf
  | .setRoute q => q.wf && decide (q.cls = 2)
  | .cancelRoute q => q.wf && decide (q.cls = 1)
  | .emergencyCancel q => q.wf && decide (q.cls = 0)
  | .pointMove q => q.wf && decide (q.cls = 3)
  | .holdExpired port tag => isPort port && fits 32 tag
  | .throwTimeout point => fits 16 point
  | .lostCleared point => fits 16 point
  | .boundaryConfirmationTimeout route => fits 16 route
  | .signalNotProven signal => fits 16 signal
  | .sequenceRelease route => fits 16 route
  | .clearFor route => fits 16 route
  | .elapsedEvent _ owner => fits 16 owner
  | .releaseByDistance route => fits 16 route
  | .ghostTimeout sec => fits 16 sec
  | .crossingClosingTimeout crossing => fits 16 crossing
  | .crossingOpenSlow crossing => fits 16 crossing
  | .crossingRecovered crossing => fits 16 crossing
  | .keyTimerExpiry _ num => fits 16 num
  | .emergencyRelease sess route => isSess sess && fits 16 route
  | .emergencyReleaseEndAll sess => isSess sess
  | .carrierConfirmed carrier => fits 16 carrier
  | .carrierVanished carrier => fits 16 carrier
  | .carrierContradict carrier => fits 16 carrier
  | .lostSpanCleared carrier => fits 16 carrier
  | .vlTimerExpiry ref => fits 32 ref
  | .programFaulted => true
  | .progArm sess => isSess sess
  | .progAbort sess => isSess sess
  | .progStop sess => isSess sess
  | .progStart sess => isSess sess
  | .onlineChangeSwitch => true
  | .variableWrite sess inst fld value => isSess sess && fits 16 inst && fits 16 fld && decide (value.length ≤ 256)
  | .forceSet sess inst fld value => isSess sess && fits 16 inst && fits 16 fld && decide (value.length ≤ 256)
  | .forceRemove sess inst fld => isSess sess && fits 16 inst && fits 16 fld
  | .forceRemoveAll sess => isSess sess
  | .programLoadOpen sess => isSess sess
  | .programLoadWindow sess data => isSess sess && decide (1 ≤ data.length && data.length ≤ 1024)
  | .programLoadEnd sess => isSess sess
  | .programLoadAbandon sess => isSess sess
  | .programLoadChecked _ => true
  | .loadOpen sess => isSess sess
  | .loadWindow sess data => isSess sess && decide (1 ≤ data.length && data.length ≤ 1024)
  | .loadEnd sess => isSess sess
  | .loadAbandon sess => isSess sess
  | .loadChecked _ => true
  | .activateData sess => isSess sess
  | .withdrawActivation sess => isSess sess
  | .registerComposeKey sess key => isSess sess && decide (key.length ≤ 4096)
  | .registerVerifyKey sess key => isSess sess && decide (key.length ≤ 4096)
  | .removeKey sess finger => isSess sess && decide (finger.length ≤ 32)
  | .inputSupervisionFault _ n _ tp cause => decide (n ≤ 17) && decide (tp ≤ 4) && decide (cause ≤ 3)
  | .discrepancy _ n => decide (1 ≤ n && n ≤ 17)
  | .chattering _ n => decide (1 ≤ n && n ≤ 16)
  | .stuckInput port point => decide (port ≤ 16) && fits 10 point
  | .acknowledgePairs sess mask => isSess sess && fits 16 mask
  | .acknowledgeOutputs sess mask => isSess sess && fits 16 mask
  | .acknowledgeKey sess => isSess sess
  | .switchTest n _ _ _ _ => decide (1 ≤ n && n ≤ 16)
  | .darkTest n _ => decide (1 ≤ n && n ≤ 16)
  | .resetEdge => true
  | .resetStuck => true
  | .offsetIncrement sess _ => isSess sess
  | .rateIncrement sess _ => isSess sess
  | .timeStep sess _ => isSess sess
  | .acknowledgeRefusal sess => isSess sess
  | .ptpSync m _ => m.wf
  | .announceMsg domain m => fits 8 domain && m.wf
  | .announceTimeout _ => true
  | .leapSecond => true
  | .timedFrameLate => true
  | .launchMissed _ slot port => fits 10 slot && isPort port
  | .cascadeEnvelope f => f.wf
  | .anchorMsg f => f.wf
  | .anchorSend peer num => fits 12 peer && decide (num ≤ 2)
  | .referencePairUpdate kind peer num => decide (kind = 6 ∨ kind = 7) && fits 12 peer && decide (num ≤ 2)
  | .pathFault n => decide (1 ≤ n && n ≤ 3)
  | .boardLinkUp side pos addrs _ => decide (1 ≤ side && side ≤ 2) && decide (addrs.length ≤ 8) && decide (pos < addrs.length)
  | .heartbeatMsg _ f => f.wf
  | .partnerLost => true
  | .shadowImage _ img _ t => fits 32 img.num && t.wf
  | .shadowMissed t => t.wf
  | .benchmarkEnvelope f => f.wf
  | .resynchronise sess => isSess sess
  | .resyncComplete _ => true
  | .handOver sess => isSess sess
  | .coldHandOver sess => isSess sess
  | .handOverImage => true
  | .takeback => true
  | .reserveMsg f => f.wf
  | .reserveReply f => f.wf
  | .timeFrame path f _ => decide (1 ≤ path && path ≤ 3) && f.wf
  | .timeFrameSend _ => true
  | .datumDelayRequest _ => true
  | .cycleReportSend => true
  | .cycleReport f => f.wf
  | .syncPulse => true
  | .syncEdge _ => true
  | .readReq op => op.wf
  | .readData f => f.wf
  | .readDataDiscard tag => fits 8 tag
  | .bridgeWrite op => op.wf
  | .writeDone f => f.wf
  | .bridgeError f => f.wf
  | .bridgeTimeout tag => fits 8 tag
  | .openSess src _ b => datagramWf src b
  | .closeSess src _ b => datagramWf src b
  | .statusReq src _ b => datagramWf src b
  | .readObj src _ b => datagramWf src b
  | .writeObj src _ b => datagramWf src b
  | .readClear src _ b => datagramWf src b
  | .describeObj src _ b => datagramWf src b
  | .eventRead src _ b => datagramWf src b
  | .proxyReq src _ b far => datagramWf src b && far.wf
  | .eventPendingClear src _ b => datagramWf src b
  | .sessionTimeout n => isSess n
  | .lockoutEnd src => src.wf
  | .networkSettingsApply => true
  | .fieldBookRead sess => isSess sess
  | .fieldBookCursor sess v => isSess sess && fits 64 v
  | .fieldBookSeek sess t => isSess sess && fits 96 t
  | .recordsLostMarker => true
  | .chestRead sess _ => isSess sess
  | .snapshotRead sess => isSess sess
  | .eventRecordRead sess => isSess sess
  | .forceRecordRead sess => isSess sess
  | .chestClear sess v => isSess sess && fits 8 v
  | .checkAlgorithmSelect sess v => isSess sess && fits 8 v
  | .checkData sess data => isSess sess && decide (data.length ≤ 1024)
  | .checkRunningValue sess v => isSess sess && fits 64 v
  | .powerFail _ _ => true
  | .powerFailWriteDone _ => true
  | .selfTestRun sess target inst slices => isSess sess && fits 8 target && fits 8 inst && fits 32 slices
  | .selfTestStop sess inst => isSess sess && fits 8 inst
  | .takeHalfOut sess inst => isSess sess && fits 8 inst
  | .restartHalf sess inst i => isSess sess && fits 8 inst && i.wf
  | .selfTestSlice inst _ => fits 8 inst
  | .rotationSlow _ => true
  | .ageingMeasurement index sub margin =>
    decide (0x3600 ≤ index && index ≤ 0x3605 && 1 ≤ sub) && decide (sub ≤ [3, 5, 3, 1, 16, 35].getD (index - 0x3600) 0) &&
    decide (margin ≤ 100)
  | .clockStep _ _ => true
  | .norRefresh _ _ => true
  | .clockRestore sess v => isSess sess && fits 8 v
  | .forecastDay => true
  | .powerVote sess _ sub v => isSess sess && fits 8 sub && fits 8 v
  | .wakeRequest _ => true
  | .wakeHoldExpiry => true
  | .transitionStart => true
  | .transitionComplete => true
  | .wakeStepTimeout d stp => decide (d < 6) && fits 8 stp
  | .wakeRetry sess v => isSess sess && fits 8 v
  | .startUpStep i => i.wf
  | .startUpConfirmation sess v => isSess sess && fits 8 v
  | .supplyLost n _ => decide (n = 1 ∨ n = 2)
  | .supplyReturned n _ => decide (n = 1 ∨ n = 2)
  | .supplyOvervoltage n _ => decide (n = 1 ∨ n = 2)
  | .backupCellMeasurement _ => true
  | .thermalShutdown d => decide (d < 6)
  | .updateOpen sess _ => isSess sess
  | .bufferWindow sess data => isSess sess && decide (1 ≤ data.length && data.length ≤ 1024)
  | .updateBlock sess _ n crc _ => isSess sess && fits 16 n && fits 32 crc
  | .updateAbandon sess _ => isSess sess
  | .forwardImage code => fits 16 code
  | .installRolling sess => isSess sess
  | .installAllLanes sess => isSess sess
  | .installStop sess => isSess sess
  | .installLaneDone _ => true
  | .halfSupplyOrClock _ => true
  | .maintenancePortLinkDown => true
  | .boardLinkBreak _ _ pos addrs => decide (addrs.length ≤ 8) && decide (pos ≤ addrs.length)
  | .rstuckClear => true
  | .overcurrent n => decide (1 ≤ n && n ≤ 16)
  | .stuckOn n => decide (1 ≤ n && n ≤ 16)
  | .delayRequest src seq _ => fits 16 src && fits 32 seq
  | .delayResponse path seq _ => decide (1 ≤ path && path ≤ 3) && fits 32 seq
  | .ptpDelayReq _ => true
  | .ptpDelayResp _ seq _ => fits 16 seq
  | .followUp m => m.wf
  | .timeSourceLost => true
  | .compatibilityClassRead cls ord n => fits 8 cls && fits 8 ord && fits 8 n
  | .holdUpBankCharged => true
  | .supplyEnters32VBand n _ => decide (n = 1 ∨ n = 2)

end Sys2Proof
end

