-- ==== Sys2Proof/Certificates/Slice0/Obligations.lean ====
section
/-! DEFINITION. The statements about the model. -/

open Sys2Proof Sys2Proof.Machine

/-- The block takes the command at the front of its queue and has the effect of exec, on the queue's rest. -/
def Obligations.StepRunsFront : Prop :=
  ∀ (c : Instr) (rest : List Instr) (s : State), step { s with pending := c :: rest } = exec c { s with pending := rest }

/-- On an empty queue the block idles: the model's choice (log 1). -/
def Obligations.IdleOnEmpty : Prop :=
  ∀ s : State, s.pending = [] → step s = .next s

/-- The state after reset meets the invariant of the module (R463, R90, R567, R572; R42). -/
def Obligations.ResetSound : Prop :=
  State.reset.sound

/-- Every step keeps the invariant: capacities (R90, R463, R567, R572), canonical memories (R77, R303, R522, R616, R617) and a disabled half that sends nothing (R24, R42). -/
def Obligations.StepKeepsSound : Prop :=
  ∀ s t : State, s.sound → step s = .next t → t.sound

/-- BUS_CYCLE_START and PROGRAM_CYCLE_TICK (R22, R28, R371): results and completion. -/
def Obligations.BusCyclesAndTicks : Prop :=
  (∀ (s : State) (i : HeadIn), (s.power.pfail ≠ 0 ∨ s.power.st = .standby ∨ s.power.st = .off) →
    exec (.busCycleStart i) s = .next { s with
      ns := s.ns + (halfIn i (timeHalf s)).dt,
      time := { s.time with halves := twoMap s.time.halves (fun h x => { x with c := x.c + (halfIn i h).dt }) } }) ∧
  (∀ (s : State) (i : HeadIn), s.power.pfail = 0 → s.power.st ≠ .standby → s.power.st ≠ .off →
    s.tres.a.overran = false → s.tres.b.overran = false →
    ∃ t, exec (.busCycleStart i) s = .next t ∧ t.ns = s.ns + (halfIn i (timeHalf s)).dt ∧ t.imageNo = s.imageNo ∧
      t.pending = s.pending ∧ t.cfg = s.cfg ∧
      (running s .a = false → running s .b = false → t.bus.counter = s.bus.counter ∧ t.bus.tick = true ∧
        ∀ h, (twoGet t.tx h).cmds = [] ∧ (twoGet t.tx h).permits = [] ∧ (twoGet t.tx h).sync = none) ∧
      ((running s .a = true ∨ running s .b = true) → t.bus.counter = (s.bus.counter + 1) % 2 ^ 48 ∧
        t.bus.tick = decide (t.bus.counter % s.bus.lCyc = 0) ∧ (∀ h, (twoGet t.time.halves h).anchorCtr = t.bus.counter) ∧
        (t.bus.tick = true → ∀ h, (twoGet t.halves h).inServ = true →
          (twoGet t.halves h).active = (twoGet s.halves h).next ∧ (twoGet t.halves h).next = none) ∧
        (t.bus.tick = false → ∀ h, (twoGet t.halves h).inServ = true →
          (twoGet t.halves h).active = (twoGet s.halves h).active ∧ (twoGet t.halves h).next = (twoGet s.halves h).next) ∧
        (s.pair.role = .standby → ∀ h, (twoGet t.tx h).cmds = [] ∧ (twoGet t.tx h).permits = []))) ∧
  (∀ (s : State) (c : TickIn), (s.bus.tick = false ∨ s.power.pfail ≠ 0) → exec (.programCycleTick c) s = .next s) ∧
  (∀ (s : State) (c : TickIn), s.bus.tick = true → s.power.pfail = 0 →
    ∃ t, exec (.programCycleTick c) s = .next t ∧ t.bus.tick = false ∧ t.bus.counter = s.bus.counter ∧ t.ns = s.ns ∧
      t.pending = s.pending ∧
      (((∀ h, (twoGet s.halves h).inServ = true → chanUp s h = false) ∨ leavingRun s = true) →
        t.imageNo = s.imageNo ∧ t.lanes.a.ran = s.lanes.a.ran ∧ t.lanes.b.ran = s.lanes.b.ran ∧ t.lanes.c.ran = s.lanes.c.ran) ∧
      ((∃ h, (twoGet s.halves h).inServ = true ∧ chanUp s h = true) → leavingRun s = false →
        t.imageNo = imgAdd s.imageNo 1 ∧ t.image.num = t.imageNo ∧ t.image.counter = s.bus.counter ∧ t.vote.tickNs = s.ns ∧
        t.image.reqs.length ≤ 256 ∧ (∀ q ∈ t.image.reqs, ∃ p ∈ s.queues, q ∈ p.2) ∧
        (s.pair.role = .standby → t.image.reqs = [] ∧ t.image.standby = true) ∧ (imagesRun s = false → t.image.reqs = [])))

/-- Upkeep of a channel (R354, R355, R358, R361, R356, R357): results, completion and frames. -/
def Obligations.ChannelUpkeep : Prop :=
  (∀ (s : State) (h : Half), (twoGet s.bus.chans h).corrs.length = 16 →
    ∃ t, exec (.rateCorrection h) s = .next t ∧
      (twoGet t.bus.chans h).rate = max (-13107200) (min 13107200 ((twoGet s.bus.chans h).rate +
        (twoGet s.bus.chans h).corrs.sum * 1000000 * 65536 / (256 * s.bus.busNs))) ∧
      t = { s with bus := { s.bus with chans := twoMod s.bus.chans h (fun c =>
        { c with rate := (twoGet t.bus.chans h).rate, corrs := [] }) } }) ∧
  (∀ (s : State) (h : Half), 8 ≤ (twoGet s.bus.chans h).weakRun →
    ∃ t, exec (.weakSynchronisation h) s = .next t ∧ t.raised 22 ∧ told s t ∧
      t = { s with bus := { s.bus with chans := twoMod s.bus.chans h (fun c => { c with weakRun := 0 }) }, ev := t.ev, dict := t.dict }) ∧
  (∀ (s : State) (h : Half), (twoGet s.halves h).inServ = true → chanUp s h = true →
    twoGet s.chest.counters h + 65536 ≤ s.bus.counter →
    ∃ t, exec (.counterRecordWrite h) s = .next t ∧
      t = { s with chest := { s.chest with counters := twoPut s.chest.counters h s.bus.counter } }) ∧
  (∀ (s : State) (h : Half), (twoGet s.bus.chans h).st = .backingOff → (twoGet s.bus.chans h).since + 8 * busNs0 s ≤ s.ns →
    ∃ t, exec (.backOffEnd h) s = .next t ∧
      t = { s with bus := { s.bus with chans := twoMod s.bus.chans h (fun c => { c with st := .listening, since := s.ns }) } }) ∧
  (∀ (s : State) (h : Half), (twoGet s.bus.chans h).st = .listening → (twoGet s.halves h).inServ = true →
    (twoGet s.bus.chans h).since + 3 * busNs0 s ≤ s.ns → chanUp s (otherHalf h) = false →
    ∃ t, exec (.listenTimeout h) s = .next t ∧ (twoGet t.bus.chans h).st = .coldStarting ∧
      (twoGet t.bus.chans h).starter = true ∧ t.raised 23 ∧ told s t ∧
      t.bus.counter = (max (moduleNs s / 250000) (max s.chest.counters.a s.chest.counters.b + 65537) - 1) % 2 ^ 48 ∧
      twoGet t.bus.chans (otherHalf h) = twoGet s.bus.chans (otherHalf h) ∧
      t = { s with bus := t.bus, ev := t.ev, dict := t.dict })

/-- Links and ports (R332, R345, R349, R364): results, completion and frames. -/
def Obligations.PortsAndLinks : Prop :=
  (∀ (s : State) (h : Half) (p : Nat), p < s.ident.ports → (twoGet s.halves h).inServ = true → (portOf s h p).link = false →
    s.bus.dormant = false →
    ∃ t, exec (.linkUp h p) s = .next t ∧ (portOf t h p).link = true ∧ (portOf t h p).linkDly = 0xFFFF ∧
      (twoGet t.tx h).delayReqs = (twoGet s.tx h).delayReqs ++ (List.range 8).map (fun i => (p, (portOf s h p).delaySeq + i + 1)) ∧
      t.raised (17 + halfNo h) ∧ told s t ∧ portsKept h p s t ∧ t = { s with bus := t.bus, tx := t.tx, ev := t.ev, dict := t.dict }) ∧
  (∀ (s : State) (h : Half) (p : Nat), (portOf s h p).link = true →
    ∃ t, exec (.linkDown h p) s = .next t ∧ (portOf t h p).link = false ∧ (portOf t h p).integ = false ∧
      (∀ c ∈ t.bus.spare, c.2 ≠ p + 1) ∧ t.raised (17 + halfNo h) ∧ portsKept h p s t ∧
      t = { s with bus := t.bus, ev := t.ev, dict := t.dict }) ∧
  (∀ (s : State) (h : Half) (p rt : Nat) (f : Frame), (portOf s h p).link = true → (portOf s h p).measOpen = true →
    (portOf s h p).measRounds = [] → (portOf s h p).linkDly ≠ 0xFFFF →
    frameForm s p f 0x14 8 (f.flags < 2) = true → f.body.length = 8 →
    ∃ t, exec (.delayResp h p f rt) s = .next t ∧
      (portOf t h p).linkDly = (if 5000 < (rt - field f.body 4 4) / 2 / 16 then 0xFFFF else (rt - field f.body 4 4) / 2 / 16) ∧
      (5000 < (rt - field f.body 4 4) / 2 / 16 → t.raised 27) ∧
      ((portOf s h p).linkDly + 100 < (rt - field f.body 4 4) / 2 / 16 ∨ (rt - field f.body 4 4) / 2 / 16 + 100 < (portOf s h p).linkDly →
        t.raised 27) ∧
      told s t ∧ portsKept h p s t ∧ t = { s with bus := t.bus, tx := t.tx, time := t.time, ev := t.ev, dict := t.dict }) ∧
  (∀ (s : State) (h : Half) (p : Nat), s.bus.counter % 65536 = 0 → chanUp s h = true → portLive s h p = true →
    ∃ t, exec (.linkDelayRemeasure h p) s = .next t ∧
      (twoGet t.tx h).delayReqs = (twoGet s.tx h).delayReqs ++ [(p, (portOf s h p).delaySeq + 1)] ∧
      (portOf t h p).measOpen = true ∧ told s t ∧ portsKept h p s t ∧
      t = { s with bus := t.bus, tx := t.tx, time := t.time, ev := t.ev, dict := t.dict }) ∧
  (∀ (s : State) (h : Half) (p : Nat), (portOf s h p).closed = false →
    3 ≤ ((portOf s h p).cutAt.filter (fun c => s.bus.counter < c + 8)).length →
    ∃ t, exec (.portClosedByCuts h p) s = .next t ∧ (portOf t h p).closed = true ∧ (portOf t h p).integ = false ∧
      (portOf t h p).cmdClosed = (portOf s h p).cmdClosed ∧ (∀ c ∈ t.bus.spare, c.2 ≠ p + 1) ∧ t.raised (19 + halfNo h) ∧
      portsKept h p s t ∧ t = { s with bus := t.bus, ev := t.ev, dict := t.dict }) ∧
  (∀ (s : State) (h : Half) (p : Nat), (portOf s h p).integ = true → 8 ≤ (portOf s h p).tableClear → (portOf s h p).tablesDue = [] →
    ∃ t, exec (.portTableResend h p) s = .next t ∧
      (portOf t h p).tablesDue = (List.range 8).filter (fun m => (modeRec s m).isSome) ∧ (portOf t h p).tableClear = 0 ∧
      portsKept h p s t ∧ t = { s with bus := t.bus })

/-- Frames at a star port (R24, R338, R350, R384, R387): results, completion and frames. -/
def Obligations.FramesTakenIn : Prop :=
  (∀ (s : State) (h : Half) (p : Nat) (f : Frame), chanUp s h = true → s.bus.dormant = false → portLive s h p = true →
    (portOf s h p).closed = false → frameOk s p f 0x20 8 (nextCounter s) 924 (f.flags < 64) = true →
    inputChecks s p (nextCounter s) f.body = true → (portOf s h p).integ = true →
    (portOf s h p).base.base = some (baseOf (field f.body 2 4) (field f.body 6 4)) →
    ∃ t, exec (.inputFrame h p f) s = .next t ∧ (portOf t h p).rx = some (inputEnv p f.body) ∧
      (portOf t h p).integ = true ∧ (portOf t h p).table = bit f.flags 1 ∧ (portOf t h p).ready = bit f.flags 2 ∧
      (portOf t h p).readyMode = f.flags / 8 % 8 ∧ (portOf t h p).valid = min 0xFFFFFFFF ((portOf s h p).valid + 1) ∧
      (portOf t h p).envFail = (portOf s h p).envFail ∧ (portOf t h p).tablesDue = (portOf s h p).tablesDue ∧
      told s t ∧ portsKept h p s t ∧ t = { s with bus := t.bus, time := t.time, ev := t.ev, dict := t.dict }) ∧
  (∀ (s : State) (h : Half) (p : Nat) (f : Frame), chanUp s h = true → s.bus.dormant = false → portLive s h p = true →
    (portOf s h p).closed = false → frameOk s p f 0x20 8 (nextCounter s) 924 (f.flags < 64) = true →
    inputChecks s p (nextCounter s) f.body = false →
    ∃ t, exec (.inputFrame h p f) s = .next t ∧ (portOf t h p).rx = (portOf s h p).rx ∧ (portOf t h p).integ = true ∧
      (portOf t h p).envFail = min 0xFFFFFFFF ((portOf s h p).envFail + 1) ∧ (portOf t h p).valid = (portOf s h p).valid ∧
      ((portOf s h p).integ = false → (portOf t h p).tablesDue = (List.range 8).filter (fun m => (modeRec s m).isSome)) ∧
      ((envOf s p).evtDone = false → t.raised 38) ∧ (envOf t p).evtDone = true ∧ told s t ∧ portsKept h p s t ∧
      t = { s with bus := t.bus, time := t.time, env := t.env, ev := t.ev, dict := t.dict }) ∧
  (∀ (s : State) (h : Half) (p : Nat) (f : Frame), chanUp s h = true → s.bus.dormant = false → portLive s h p = true →
    (portOf s h p).closed = false → frameOk s p f 0x20 8 (nextCounter s) 924 (f.flags < 64) = false →
    ∃ t, exec (.inputFrame h p f) s = .next t ∧
      portOf t h p = { portOf s h p with discarded := min 0xFFFFFFFF ((portOf s h p).discarded + 1), discEvt := true } ∧
      ((portOf s h p).discEvt = false → t.raised 28) ∧ told s t ∧ portsKept h p s t ∧
      t = { s with bus := t.bus, ev := t.ev, dict := t.dict }) ∧
  (∀ (s : State) (h : Half) (p : Nat) (f : Frame), chanUp s h = true → s.bus.dormant = false → portLive s h p = true →
    (portOf s h p).closed = true →
    ∃ t, exec (.inputFrame h p f) s = .next t ∧
      portOf t h p = { portOf s h p with cuts := min 0xFFFFFFFF ((portOf s h p).cuts + 1) } ∧ portsKept h p s t ∧
      t = { s with bus := t.bus }) ∧
  (∀ (s : State) (h : Half) (p : Nat) (f : Frame), chanUp s h = true → portLive s h p = true → (portOf s h p).closed = true →
    (portOf s h p).cmdClosed = false → (portOf s h p).integrateAt + 1 = nextCounter s → 3 ≤ (portOf s h p).reopenRun →
    frameOk s p f 0x12 8 (nextCounter s) 4 (f.flags < 2 && field f.body 0 4 = 0) = true →
    ∃ t, exec (.integrateFrame h p f) s = .next t ∧ (portOf t h p).closed = false ∧ (portOf t h p).cutAt = [] ∧
      t.raised (19 + halfNo h) ∧ told s t ∧ portsKept h p s t ∧ t = { s with bus := t.bus, ev := t.ev, dict := t.dict }) ∧
  (∀ (s : State) (h : Half) (p : Nat) (f : Frame), chanUp s h = true → portLive s h p = true → (portOf s h p).closed = true →
    ((portOf s h p).cmdClosed = true ∨ (portOf s h p).integrateAt + 1 ≠ nextCounter s ∨ (portOf s h p).reopenRun < 3) →
    frameOk s p f 0x12 8 (nextCounter s) 4 (f.flags < 2 && field f.body 0 4 = 0) = true →
    ∃ t, exec (.integrateFrame h p f) s = .next t ∧ portOf t h p = { portOf s h p with
        reopenRun := (if (portOf s h p).integrateAt + 1 = nextCounter s then (portOf s h p).reopenRun + 1 else 1),
        integrateAt := nextCounter s } ∧ portsKept h p s t ∧ t = { s with bus := t.bus })

/-- Synchronisation and start (R351, R356 to R360): results, completion and frames. -/
def Obligations.BusStartAndSync : Prop :=
  (∀ (s : State) (h : Half) (p k : Nat) (f : Frame) (at_ : Int), portLive s h p = true → (portOf s h p).closed = false →
    (twoGet s.bus.chans h).st = .synchronised → (twoGet s.bus.chans h).starter = false → s.bus.dormant = false →
    frameForm s p f 0x10 24 (f.flags < 2) = true → f.body.length = 24 → field f.body 0 1 = k → k ≤ 7 → f.slot = k →
    f.counter = nextCounter s → syncNode s k = some (p + 1) →
    ∃ t, exec (.syncFrame h p f at_) s = .next t ∧
      ((at_ - ((2000 * (k : Int) + 100) * 16) - (field f.body 20 4 : Int)).natAbs ≤ 16 * s.bus.prec →
        t.bus = { s.bus with chans := twoMod s.bus.chans h (fun c => { c with
          devs := tabPut c.devs k (at_ - ((2000 * (k : Int) + 100) * 16) - (field f.body 20 4 : Int)) }) }) ∧
      (16 * s.bus.prec < (at_ - ((2000 * (k : Int) + 100) * 16) - (field f.body 20 4 : Int)).natAbs →
        t.bus = s.bus ∧ t.raised 22) ∧
      told s t ∧ t = { s with bus := t.bus, time := t.time, ev := t.ev, dict := t.dict }) ∧
  (∀ (s : State) (h : Half) (p : Nat) (f : Frame) (at_ : Int), portLive s h p = true → (twoGet s.bus.chans h).blocked = [] →
    (twoGet s.bus.chans h).st = .listening → frameForm s p f 0x11 24 (f.flags < 2) = true → f.body.length = 24 →
    field f.body 0 1 ≤ 7 → max s.chest.counters.a s.chest.counters.b + 65537 ≤ f.counter → f.counter < 2 ^ 48 →
    chanUp s (otherHalf h) = false → s.bus.dormant = false →
    ∃ t, exec (.coldStart h p f at_ none) s = .next t ∧ (twoGet t.bus.chans h).st = .integrating ∧
      (twoGet t.bus.chans h).devs = [] ∧ nextCounter t = f.counter ∧ t.bus.busNs = field f.body 8 4 ∧ t.bus.mode = f.mode % 8 ∧
      (∀ q, portOf t h q = portOf s h q) ∧ twoGet t.bus.chans (otherHalf h) = twoGet s.bus.chans (otherHalf h) ∧
      told s t ∧ t = { s with bus := t.bus, time := t.time, ev := t.ev, dict := t.dict }) ∧
  (∀ (s : State) (h : Half) (p q : Nat) (f : Frame) (at_ : Int), portLive s h p = true → (twoGet s.bus.chans h).blocked = [] →
    (twoGet s.bus.chans h).st = .listening → q < p →
    ∃ t, exec (.coldStart h p f at_ (some q)) s = .next t ∧ t.raised 24 ∧ told s t ∧
      (twoGet t.bus.chans h).blocked = [(p, s.ns + ((modeRec s 0).map (·.busNs)).getD 500000)] ∧
      t = { s with bus := { s.bus with chans := twoMod s.bus.chans h (fun c => { c with blocked := (twoGet t.bus.chans h).blocked }) },
                   ev := t.ev, dict := t.dict })

/-- Port commands (R332, R350, Table 9.16): results, completion and frames. -/
def Obligations.PortCommands : Prop :=
  (∀ (s : State) (n : Nat) (h : Half) (p : Nat), s.allows n .maintainer false → p < s.ident.ports →
    ∃ t, exec (.portClose n h p) s = .next t ∧ (portOf t h p).closed = true ∧ (portOf t h p).cmdClosed = true ∧
      (portOf t h p).integ = false ∧ ((portOf s h p).closed = false → t.raised (19 + halfNo h)) ∧ t.bus.portOutcome = 0 ∧
      t.dict.result = 0 ∧ portsKept h p s t ∧ t = { s with bus := t.bus, ev := t.ev, dict := t.dict }) ∧
  (∀ (s : State) (n : Nat) (h : Half) (p : Nat), s.allows n .maintainer false → p < s.ident.ports → (portOf s h p).link = true →
    ∃ t, exec (.portRelease n h p) s = .next t ∧ portOf t h p = { portOf s h p with cmdClosed := false, reopenRun := 0 } ∧
      t.bus.portOutcome = 0 ∧ t.dict.result = 0 ∧ told s t ∧ portsKept h p s t ∧ t = { s with bus := t.bus, dict := t.dict }) ∧
  (∀ (s : State) (n : Nat) (h : Half) (p : Nat), s.allows n .maintainer false → chanUp s h = true → portLive s h p = true →
    ∃ t, exec (.measureLinkDelay n h p) s = .next t ∧
      (twoGet t.tx h).delayReqs = (twoGet s.tx h).delayReqs ++ [(p, (portOf s h p).delaySeq + 1)] ∧
      (portOf t h p).measOpen = true ∧ t.bus.portOutcome = 0 ∧ t.dict.result = 0 ∧ told s t ∧ portsKept h p s t ∧
      t = { s with bus := t.bus, tx := t.tx, time := t.time, ev := t.ev, dict := t.dict }) ∧
  (∀ (s : State) (n : Nat) (h : Half) (p : Nat), s.allows n .maintainer false → s.ident.ports ≤ p →
    ∃ t, exec (.portClose n h p) s = .next t ∧ exec (.portRelease n h p) s = .next t ∧ exec (.measureLinkDelay n h p) s = .next t ∧
      t.bus = { s.bus with portOutcome := 0x6101 } ∧ told s t ∧ t = { s with bus := t.bus, dict := t.dict }) ∧
  (∀ (s : State) (n : Nat) (h : Half) (p : Nat), s.allows n .maintainer false → p < s.ident.ports → (portOf s h p).link = false →
    ∃ t, exec (.portRelease n h p) s = .next t ∧ exec (.measureLinkDelay n h p) s = .next t ∧
      t.bus = { s.bus with portOutcome := 0x6102 } ∧ told s t ∧ t = { s with bus := t.bus, dict := t.dict }) ∧
  (∀ (s : State) (n : Nat) (h : Half) (p : Nat), (sessOf s n).opened = true → levelRank (sessOf s n).level < 2 →
    ∃ t, exec (.portClose n h p) s = .next t ∧ exec (.portRelease n h p) s = .next t ∧ exec (.measureLinkDelay n h p) s = .next t ∧
      t = { s with dict := { s.dict with result := rLevel, value := [] } })

/-- Claims and schedule modes (R363 to R369): results, completion and frames. -/
def Obligations.ClaimsAndModes : Prop :=
  (∀ (s : State) (h : Half) (p c : Nat) (f : Frame), chanUp s h = true → s.bus.dormant = false → portLive s h p = true →
    (portOf s h p).integ = true → (portOf s h p).closed = false → frameOk s p f 0x80 11 s.bus.counter 4 (f.flags < 2) = true →
    f.body.length = 4 → field f.body 0 1 = c → c ≤ 4 → field f.body 1 3 = 0 →
    bit (((modeNow s).map (·.claimMask)).getD 0) p = true → (∀ x ∈ s.bus.claims, x.1 ≠ p + 1) →
    ∃ t, exec (.claimFrame h p f) s = .next t ∧ t.bus = { s.bus with claims := s.bus.claims ++ [(p + 1, c)] } ∧ told s t ∧
      t = { s with bus := t.bus, time := t.time, ev := t.ev, dict := t.dict }) ∧
  (∀ (s : State) (m : ModeRec), modeRec s m.num = some m → m.num ≤ 7 → m.num ≠ s.bus.mode → s.bus.pend = none →
    modeOf s = 0 → budgetBad s m = false → 0 < s.bus.lCyc → 0 < m.lCyc →
    ∃ t q, modeRequestFn m.num s = (t, 0, []) ∧ t.bus = { s.bus with pend := some q, askedImg := s.imageNo, notReady := 0xFF, outcome := 0x6001 } ∧
      q.mode = m.num ∧ q.announced = false ∧ q.confirmed = false ∧ q.s % s.bus.lCyc = 0 ∧ q.s % m.lCyc = 0 ∧
      s.image.counter + 4 * s.bus.lCyc + 16 ≤ q.s ∧
      (∀ c, c % s.bus.lCyc = 0 → c % m.lCyc = 0 → s.image.counter + 4 * s.bus.lCyc + 16 ≤ c → q.s ≤ c) ∧
      t = { s with bus := t.bus } ∧
      (∀ n, s.allows n .maintainer false → exec (.modeRequest n m.num) s = .next (laneRow (fun _ x => x) (withResult (0, []) t)))) ∧
  (∀ (s : State) (n : Nat) (q : SwitchSt), s.allows n .maintainer false → s.bus.pend = some q → q.confirmed = false →
    exec (.modeAbort n) s = .next (laneRow (fun _ x => x) (withResult (0, [])
      (raiseEv 26 q.mode { s with bus := { s.bus with pend := none, outcome := 0x6006 } })))) ∧
  (∀ (s : State) (q : SwitchSt), s.bus.pend = some q → q.confirmed = false → q.s ≤ s.bus.counter + 2 * s.bus.lCyc →
    q.announced = true → notReadyNodes s q.mode = [] →
    exec .checkpointReached s = .next { s with bus := { s.bus with pend := some { q with confirmed := true } } }) ∧
  (∀ (s : State) (q : SwitchSt) (k : Nat) (l : List Nat), s.bus.pend = some q → q.confirmed = false →
    q.s ≤ s.bus.counter + 2 * s.bus.lCyc → notReadyNodes s q.mode = k :: l →
    ∃ t, exec .checkpointReached s = .next t ∧ t.raised 26 ∧ told s t ∧
      t = { s with bus := { s.bus with pend := none, outcome := 0x6005, notReady := k }, ev := t.ev, dict := t.dict }) ∧
  (∀ (s : State) (q : SwitchSt) (m : ModeRec), s.bus.pend = some q → modeRec s q.mode = some m → q.confirmed = true →
    q.s ≤ nextCounter s →
    ∃ t, exec .modeSwitch s = .next t ∧ t.raised 26 ∧ told s t ∧
      t.bus = { s.bus with pend := none, outcome := 0, mode := m.num, busNs := m.busNs, lCyc := m.lCyc, prec := m.prec,
                           guardNs := m.guardNs, spare := t.bus.spare } ∧
      t.bus.spare = s.bus.spare.filter (fun c => m.slots.any (fun r => r.kind = 4 && r.slot = c.1)) ∧
      t = { s with bus := t.bus, ev := t.ev, dict := t.dict })

/-- The vote forwards only what two lanes agree on (R211, R212). -/
def Obligations.VoteKeepsAgreeing : Prop :=
  ∀ ps : List (Lane × OutputImage), (ps.map (·.1)).Nodup → 2 ≤ ps.length → (voteOf ps).differs = false →
    (voteOf ps).named.length ≤ 1 →
    2 ≤ (ps.filter (fun p => !(voteOf ps).named.contains p.1)).length ∧
    (∀ p ∈ ps.filter (fun p => !(voteOf ps).named.contains p.1), ∀ q ∈ ps.filter (fun p => !(voteOf ps).named.contains p.1),
      ∀ i, i < 20 → blockEq i p.2 q.2 = true) ∧
    (∀ p ∈ ps, ∀ q ∈ ps, (voteOf ps).named = [p.1] → q.1 ≠ p.1 → ∃ i, i < 20 ∧ blockEq i q.2 p.2 = false) ∧
    (∃ l k, l ≠ k ∧ pairCode (ps.filter (fun p => !(voteOf ps).named.contains p.1)) = pairBit l + pairBit k)

/-- Verdicts of Table 6.5 (R219). -/
def Obligations.BenchmarkVerdicts : Prop :=
  (∀ ps : List (Lane × List Byte), 2 ≤ ps.length → ps.length ≤ 3 → (verdictOf ps = .match_ ↔ ∀ p ∈ ps, ∀ q ∈ ps, p.2 = q.2)) ∧
  (∀ (x y z : Lane × List Byte) (l : List (Lane × List Byte)), l ∈ [[z, x, y], [x, z, y], [x, y, z]] → x.2 = y.2 → z.2 ≠ x.2 →
    verdictOf l = .minority z.1) ∧
  (∀ x y z : Lane × List Byte, x.2 ≠ y.2 → x.2 ≠ z.2 → y.2 ≠ z.2 → verdictOf [x, y, z] = .noMajority) ∧
  (∀ x y : Lane × List Byte, x.2 ≠ y.2 → verdictOf [x, y] = .noMajority) ∧
  (∀ ps : List (Lane × List Byte), ps.length < 2 → verdictOf ps = .none)

/-- Votes and benchmarks (R209 to R220): results, completion and frames. -/
def Obligations.HalfVotes : Prop :=
  (∀ (s : State) (l k : Lane) (h : Half) (o : OutputImage), (twoGet s.halves h).inServ = true → delivers s h l = true →
    o.num = s.imageNo → (twoGet s.halves h).votedImg ≠ some s.imageNo → k ≠ l → inVoteAt s h k = true → presentAt s h k = none →
    exec (.outputImage l h (some o)) s = .next { s with
      halves := twoMod s.halves h (fun y => { y with ingress := triPut y.ingress l (some o) }),
      vote := { s.vote with longest := max s.vote.longest ((s.ns - s.vote.tickNs) / 1000) } }) ∧
  (∀ (s : State) (h : Half) (p : Lane × OutputImage) (ps : List (Lane × OutputImage)), (twoGet s.halves h).inServ = true →
    (twoGet s.halves h).voter = true → (twoGet s.halves h).votedImg ≠ some s.imageNo → imageVoted s = true →
    presentImages s h = p :: ps → ps ≠ [] → (∀ q ∈ ps, ∀ i, i < 20 → blockEq i p.2 q.2 = true) →
    ps.length + 1 = (lanesAt s h).length → activeNext s = true →
    (∀ l, (triGet s.lanes l).ls ≠ .catchingUp ∧ (triGet s.lanes l).ls ≠ .shadow) → benchDue s = false →
    (∀ k, decidedNow s k = none) →
    ∃ t, exec (.voteDeadline h) s = .next t ∧ (twoGet t.halves h).next = some (votedFrom (p :: ps) s.imageNo) ∧
      t.lio = { s.lio with localNext := some p.2.locals } ∧
      (∀ l ∈ lanesAt s h, triGet t.lanes l = { triGet s.lanes l with late := twoPut (triGet s.lanes l).late h 0 }) ∧
      (∀ l, l ∉ lanesAt s h → triGet t.lanes l = triGet s.lanes l) ∧
      t.halves = twoMod s.halves h (fun y => { y with votedImg := some s.imageNo, next := (twoGet t.halves h).next }) ∧
      (∀ c ∈ p.2.cmds, (p.2.cmds.map (·.1)).Nodup → (envOf t c.1).cmdBase = some c.2.base) ∧
      t = { s with halves := t.halves, lanes := t.lanes, lio := t.lio, env := t.env }) ∧
  (∀ (s : State) (h : Half), (twoGet s.halves h).inServ = true → (twoGet s.halves h).voter = true →
    (twoGet s.halves h).votedImg ≠ some s.imageNo → lanesAt s h ≠ [] → (presentImages s h).length < 2 → imageVoted s = true →
    benchDue s = false → (∀ k, decidedNow s k = none) →
    ∃ t, exec (.voteDeadline h) s = .next t ∧
      t.halves = twoMod s.halves h (fun y => { y with votedImg := some s.imageNo, next := none }) ∧
      (∀ l ∈ lanesAt s h, (∀ p ∈ presentImages s h, p.1 ≠ l) →
        twoGet (triGet t.lanes l).late h = min 3 (twoGet (triGet s.lanes l).lateWas h + 1) ∧ t.raised 4) ∧
      told s t ∧ t = { s with halves := t.halves, lanes := t.lanes, ev := t.ev, dict := t.dict }) ∧
  (∀ (s : State) (l k : Lane) (h : Half) (d : List Byte), (twoGet s.halves h).inServ = true → delivers s h l = true →
    (triGet s.lanes l).ran = s.imageNo → benchDue s = true → d.length = 32 → k ≠ l → inVoteAt s h k = true → benchOf s h k = none →
    exec (.benchmarkMsg l h (some d)) s = .next { s with
      halves := twoMod s.halves h (fun y => { y with bench := triPut y.bench l (some (s.imageNo, d)) }) }) ∧
  (∀ (s : State) (v w : VerdictMsg), cmpUp s .a = true → cmpUp s .b = true → verdictDone s = false → decidedNow s .a = some v →
    decidedNow s .b = some w → v ≠ w → v.verdict = .match_ → s.vote.pendLane = none → leavingNow s = false →
    (∀ l, (triGet s.lanes l).ls ≠ .catchingUp ∧ (triGet s.lanes l).ls ≠ .shadow) →
    ∃ t, exec (.comparatorLinkMessage true false) s = .next t ∧ t.raised 9 ∧
      t.halves = { s.halves with b := { s.halves.b with flagged := true, cmpVec := false } } ∧
      t.vote.disagree = min 0xFFFFFFFF (s.vote.disagree + 1) ∧ t.vote.lastVerdict = 0 ∧ t.vote.benchImage = s.imageNo ∧
      t.vote.matchAny = some s.imageNo ∧ told s t ∧
      t = { s with halves := t.halves, vote := t.vote, ev := t.ev, dict := t.dict })

/-- Lane exclusion (R225 to R227) and failed rejoin (R231, R237): results, completion and frames. -/
def Obligations.LaneExclusions : Prop :=
  (∀ (s : State) (l : Lane) (addr : Nat) (c : Instr) (r : Nat), (lanesInVote s).length = 3 →
    (c = .memoryError l addr ∧ r = 5 ∨ c = .laneClockFault l ∧ r = 7 ∨ c = .laneSupplyFault l ∧ r = 8 ∨
      c = .lateExclusion l ∧ r = 3 ∧ s.comm.mode = false ∧ (3 ≤ (triGet s.lanes l).late.a ∨ 3 ≤ (triGet s.lanes l).late.b)) →
    ∃ t, exec c s = .next t ∧ t.raised (laneNo l) ∧
      (s.chest.faulty = false → t.chest.recs.getLast?.map (fun x => (x.kind, x.source, x.code)) = some (1, laneNo l, r)) ∧
      reported { s with
        lanes := triPut s.lanes l { triGet s.lanes l with
          ls := if s.vote.autoRejoin then .excluded else .held, reason := r, line := ⟨false, false⟩, out := none,
          progress := 0xFF, keptImgs := [], copyPoint := none, outOk := none, benchOk := none, shadowOk := 0,
          returned := false, started := false },
        halves := twoMap s.halves (fun _ h => { h with ingress := triPut h.ingress l none, bench := triPut h.bench l none }),
        vote := { s.vote with lastExcl := lastExclBytes s l r 0xFF } } t) ∧
  (∀ (s : State) (l : Lane), (lanesInVote s).length = 3 →
    (∀ addr, ∃ t, exec (.memoryError l addr) s = .next t ∧ (triGet t.lanes l).reason = 5) ∧
    (∃ t, exec (.laneClockFault l) s = .next t ∧ (triGet t.lanes l).reason = 7) ∧
    (∃ t, exec (.laneSupplyFault l) s = .next t ∧ (triGet t.lanes l).reason = 8)) ∧
  (∀ (s : State) (l : Lane), s.comm.mode = true → exec (.lateExclusion l) s = .next s) ∧
  (∀ (s : State) (l : Lane), ((triGet s.lanes l).ls = .booting ∨ (triGet s.lanes l).ls = .copying) → (triGet s.lanes l).dueNs < s.ns →
    s.vote.autoRejoin = true → s.upd.phase = .idle →
    ∃ t, exec (.rejoinTimeout l) s = .next t ∧ t.raised 10 ∧ (triGet t.lanes l).reason = 15 ∧
      (triGet t.lanes l).fails = s.ns :: (triGet s.lanes l).fails.filter (fun x => s.ns < x + 3600000000000) ∧
      (triGet t.lanes l).ls = (if s.vote.rejoinMax ≤ (triGet t.lanes l).fails.length then .held else .excluded) ∧
      (s.vote.rejoinMax ≤ (triGet t.lanes l).fails.length → t.raised 11) ∧
      (∀ k, k ≠ l → triGet t.lanes k = triGet s.lanes k) ∧ reported { s with lanes := t.lanes } t)

/-- Rejoin (R230 to R237): results, completion and frames. -/
def Obligations.LaneRejoin : Prop :=
  (∀ (s : State) (l : Lane), (triGet s.lanes l).ls = .excluded → s.vote.autoRejoin = true → s.upd.phase = .idle →
    s.view.prog.ps ≠ .armed → s.vote.restrictive = false → s.power.st = .run → triGet s.age.restore l = false →
    exec (.rejoinStart l) s = .next { s with lanes := triMod s.lanes l (fun x => { x with
      ls := .booting, dueNs := s.ns + 6000000000, rounds := 0, copyPoint := none, keptImgs := [], outOk := none, benchOk := none,
      shadowOk := 0, progress := 0, returned := false, started := false }) }) ∧
  (∀ (s : State) (l : Lane), (triGet s.lanes l).ls = .booting →
    ∃ t, exec (.bootingDone l true true true) s = .next t ∧
      t.lanes = triMod s.lanes l (fun x => { x with
        ls := .copying, rounds := 0, copyPoint := none, keptImgs := [],
        dueNs := s.ns + 12000000000, progress := 34 }) ∧
      t.test.insts = s.test.insts.map (fun p => if p.1 = laneNo l then (p.1, { p.2 with rerun := none }) else p) ∧
      t = { s with lanes := t.lanes, test := { s.test with insts := t.test.insts } }) ∧
  (∀ (s : State) (l : Lane) (fw data mem : Bool), (triGet s.lanes l).ls = .booting → (fw && data && mem) = false →
    ∃ t, exec (.bootingDone l fw data mem) s = .next t ∧ t.raised 10 ∧
      (triGet t.lanes l).reason = (if !fw then 0x0A else if !data then 0x0B else 0x05) ∧
      ((triGet t.lanes l).ls = .excluded ∨ (triGet t.lanes l).ls = .held)) ∧
  (∀ (s : State) (l : Lane) (n : Nat), (triGet s.lanes l).ls = .copying → (triGet s.lanes l).copyPoint = none → imageVoted s = true →
    n ≤ 1024 →
    exec (.copyRoundEnd l n true) s = .next { s with lanes := triMod s.lanes l (fun x => { x with
      rounds := x.rounds + 1, copyPoint := some s.imageNo, kernel := leadKernel s, keptImgs := [], progress := 80 }) }) ∧
  (∀ (s : State) (l : Lane) (n : Nat), (triGet s.lanes l).ls = .copying → (triGet s.lanes l).copyPoint = none → imageVoted s = true →
    1024 < n →
    ((triGet s.lanes l).rounds < 19 → exec (.copyRoundEnd l n true) s =
      .next { s with lanes := triMod s.lanes l (fun x => { x with rounds := x.rounds + 1 }) }) ∧
    (19 ≤ (triGet s.lanes l).rounds → ∃ t, exec (.copyRoundEnd l n true) s = .next t ∧ (triGet t.lanes l).reason = 0x0E ∧ t.raised 10)) ∧
  (∀ (s : State) (l : Lane) (j : Nat), (triGet s.lanes l).ls = .copying → (triGet s.lanes l).copyPoint = some j →
    ∃ t, exec (.finalRoundReceived l) s = .next t ∧ (triGet t.lanes l).ls = .catchingUp ∧
      (triGet t.lanes l).kernel = ((triGet s.lanes l).keptImgs.foldl (fun v img => laneRun s PassTimes.zero img v) (triGet s.lanes l)).kernel ∧
      (triGet t.lanes l).keptImgs = [] ∧ (triGet t.lanes l).dueImg = (s.imageNo + 60) % 2 ^ 32 ∧
      (∀ k, k ≠ l → triGet t.lanes k = triGet s.lanes k) ∧ t = { s with lanes := t.lanes }) ∧
  (∀ (s : State) (l : Lane), (triGet s.lanes l).ls = .shadow → (triGet s.lanes l).outOk = some s.imageNo →
    (triGet s.lanes l).benchOk = some s.imageNo → 1 ≤ (triGet s.lanes l).shadowOk →
    ∃ t, exec (.laneEntersVote l) s = .next t ∧ t.raised 3 ∧ told s t ∧
      t.lanes = triMod s.lanes l (fun x => { x with
        ls := .inVote, line := ⟨s.halves.a.inServ, s.halves.b.inServ⟩,
        late := ⟨0, 0⟩, lateWas := ⟨0, 0⟩, progress := 0xFF, outOk := none, benchOk := none, shadowOk := 0 }) ∧
      t = { s with lanes := t.lanes, ev := t.ev, dict := t.dict })

/-- Withdrawal (R239 to R242) and commissioning mode (R246, R251, R252): results, completion and frames. -/
def Obligations.WithdrawalAndCommissioning : Prop :=
  (∀ (s : State) (n : Nat) (l : Lane), s.allows n .maintainer false → (lanesInVote s).length = 3 → s.vote.pendLane = none →
    s.view.prog.ps ≠ .armed → loadChecking s = false → s.upd.updating = false → s.upd.phase = .idle → modeOf s ≤ 1 →
    exec (.withdrawLane n l) s = .next (withResult (0, []) { s with
      vote := { s.vote with pendLane := some l, pendFrom := s.imageNo, cmdOutcome := 0x4001 } })) ∧
  (∀ (s : State) (n : Nat) (l : Lane), s.allows n .maintainer false → (lanesInVote s).length < 3 →
    exec (.withdrawLane n l) s = .next (withResult (rFunction, [0x40#8, 0x02#8]) { s with
      vote := { s.vote with cmdOutcome := 0x4002 } })) ∧
  (∀ (s : State) (l : Lane), s.vote.pendLane = some l → s.vote.pendFrom ≤ s.imageNo → s.imageNo % s.vote.n = 0 →
    s.vote.matched = some s.imageNo → s.upd.phase = .idle →
    exec .withdrawalTakesEffect s = .next (raiseEv 12 (laneNo l) { s with
      lanes := triMod s.lanes l (fun x => { x with ls := .withdrawn, reason := 0x10, line := ⟨false, false⟩, out := none, returned := false }),
      halves := twoMap s.halves (fun _ h => { h with ingress := triPut h.ingress l none, bench := triPut h.bench l none }),
      vote := { s.vote with pendLane := none, cmdOutcome := 0 } })) ∧
  (∀ (s : State) (n : Nat) (l : Lane), s.allows n .maintainer false → s.vote.pendLane = some l → s.upd.phase = .idle →
    exec (.cancelWithdrawal n) s = .next (withResult (0, []) (laneOutcome 0x4006
      (raiseEv 12 0x4006 { s with vote := { s.vote with pendLane := none } })))) ∧
  (∀ (s : State) (n : Nat), s.allows n .maintainer false → s.vote.pendLane = none →
    exec (.cancelWithdrawal n) s = .next (withResult (rFunction, [0x40#8, 0x09#8]) { s with vote := { s.vote with cmdOutcome := 0x4009 } })) ∧
  (∀ (s : State) (n : Nat) (l : Lane), s.allows n .maintainer false → ((triGet s.lanes l).ls = .withdrawn ∨ (triGet s.lanes l).ls = .held) →
    ∃ t, exec (.returnLane n l) s = .next t ∧ t.lanes = triMod s.lanes l (fun x => { x with returned := true }) ∧
      t.vote = { s.vote with cmdOutcome := 0 } ∧ t.dict.result = 0 ∧
      ((∀ p ∈ s.test.insts, p.1 = laneNo l → p.2.ts ≠ .running) → t.test = s.test) ∧ told s t ∧
      t = { s with lanes := t.lanes, vote := t.vote, test := t.test, ev := t.ev, dict := t.dict }) ∧
  (∀ (s : State) (n : Nat), s.allows n .commissioner true →
    exec (.enterCommissioning n) s = .next (withResult (0, []) { s with comm := { s.comm with asked := true } })) ∧
  (∀ (s : State) (n : Nat), s.allows n .commissioner true → s.comm.mode = true →
    exec (.leaveCommissioning n) s = .next (withResult (0, []) { s with comm := { s.comm with leaving := true, leaveImgs := 0 } })) ∧
  (∀ (s : State) (n : Nat), s.allows n .commissioner false → s.lio.key = false →
    exec (.enterCommissioning n) s = .next (withResult (rKey, []) s) ∧ exec (.leaveCommissioning n) s = .next (withResult (rKey, []) s)) ∧
  (∀ s : State, s.comm.debugOpen = true → s.lio.key = false →
    ∃ t, exec .commissioningKeyInactive s = .next t ∧ t.comm.debugOpen = false ∧ t.comm.mode = s.comm.mode ∧
      t.comm.journal.length = s.comm.journal.length + s.lanes.a.halted.length ∧ t.comm.seq = s.comm.seq + s.lanes.a.halted.length ∧
      (s.lanes.a.halted.Nodup → t.lanes.a.halted = []) ∧ t.lanes.b = s.lanes.b ∧ t.lanes.c = s.lanes.c ∧
      t = { s with lanes := t.lanes, comm := t.comm })

/-- Debug journal (R248 to R250): results, completion and frames. -/
def Obligations.DebugJournal : Prop :=
  (∀ (s : State) (core : Nat), debugReady s = true → core ≤ 3 → s.comm.journal.length < 1024 →
    exec (.debugHalt core) s = .next (actOn .a .halt core 0 [] { s with comm := { s.comm with
      seq := s.comm.seq + 1,
      journal := s.comm.journal ++ [⟨s.comm.seq + 1, core, .halt, coreCount s.lanes.a core, 0, s.imageNo, [], false, false⟩] } }) ∧
    (∀ n, coreCount s.lanes.a core ≤ n → exec (.breakpointHit core n) s = .next (actOn .a .halt core 0 [] { s with comm := { s.comm with
      seq := s.comm.seq + 1,
      journal := s.comm.journal ++ [⟨s.comm.seq + 1, core, .halt, n, 0, s.imageNo, [], false, false⟩] } })) ∧
    exec (.debugResume core) s = .next (actOn .a .resume core 0 [] { s with comm := { s.comm with
      seq := s.comm.seq + 1,
      journal := s.comm.journal ++ [⟨s.comm.seq + 1, core, .resume, coreCount s.lanes.a core, 0, s.imageNo, [], false, false⟩] } }) ∧
    (∀ addr data, data.length ≤ 256 →
      exec (.debugMemoryWrite core addr data) s = .next { s with comm := { s.comm with
        seq := s.comm.seq + 1,
        journal := s.comm.journal ++ [⟨s.comm.seq + 1, core, .memWrite, coreCount s.lanes.a core, addr, s.imageNo, data, false, false⟩],
        mem := { s.comm.mem with a := tabPut s.comm.mem.a addr data } } } ∧
      exec (.debugRegisterWrite core addr data) s = .next { s with comm := { s.comm with
        seq := s.comm.seq + 1,
        journal := s.comm.journal ++ [⟨s.comm.seq + 1, core, .regWrite, coreCount s.lanes.a core, addr, s.imageNo, data, false, false⟩],
        regs := { s.comm.regs with a := tabPut s.comm.regs.a (core * 65536 + addr) data } } })) ∧
  (∀ (s : State) (core : Nat), debugReady s = true → core ≤ 3 → s.comm.journal.length < 1023 →
    ∃ t, exec (.debugSingleStep core) s = .next t ∧ t.comm.seq = s.comm.seq + 2 ∧
      t.comm.journal = s.comm.journal ++ [⟨s.comm.seq + 1, core, .resume, coreCount s.lanes.a core, 0, s.imageNo, [], false, false⟩,
        ⟨s.comm.seq + 2, core, .halt, coreCount s.lanes.a core + 1, 0, s.imageNo, [], false, false⟩] ∧
      core ∈ t.lanes.a.halted ∧ t.lanes.a.cores = s.lanes.a.cores.set core (coreCount s.lanes.a core + 1) ∧
      t = { s with
                   comm := { s.comm with seq := t.comm.seq, journal := t.comm.journal },
                   lanes := { s.lanes with a := { s.lanes.a with cores := t.lanes.a.cores, halted := t.lanes.a.halted } } }) ∧
  (∀ (s : State) (core addr : Nat) (data : List Byte), debugReady s = true → core ≤ 3 → s.comm.journal.length = 1024 → data.length ≤ 256 →
    ∀ c ∈ [Instr.debugHalt core, .breakpointHit core addr, .debugResume core, .debugSingleStep core,
      .debugMemoryWrite core addr data, .debugRegisterWrite core addr data], exec c s = .next (raiseEv 15 core s)) ∧
  (∀ (s : State) (counts : List Nat), s.comm.mode = true →
    ∃ t, exec (.instructionCountPublish counts) s = .next t ∧
      (∀ i, i < 4 → coreCount t.lanes.a i = max (coreCount s.lanes.a i) (counts.getD i 0) ∧
        t.comm.published.getD i 0 = coreCount t.lanes.a i ∧
        coreCount t.lanes.b i = (if s.lanes.b.halted.contains i then coreCount s.lanes.b i else coreCount t.lanes.a i) ∧
        coreCount t.lanes.c i = (if s.lanes.c.halted.contains i then coreCount s.lanes.c i else coreCount t.lanes.a i)) ∧
      t = { s with
                   comm := { s.comm with published := t.comm.published },
                   lanes := ⟨{ s.lanes.a with cores := t.lanes.a.cores }, { s.lanes.b with cores := t.lanes.b.cores },
                             { s.lanes.c with cores := t.lanes.c.cores }⟩ }) ∧
  (∀ (s : State) (j : JEntry) (r : List JEntry), s.comm.journal = j :: r → (∀ k ∈ r, k.seq ≠ j.seq) → j.doneB = false →
    inVote s .b = true → inVote s .c = true → j.action = .memWrite →
    j.count ≤ coreCount s.lanes.b j.core → (∀ k ∈ r, (k.doneB && k.doneC) = false) →
    ∃ t, exec (.journalEntryApply .b j.core) s = .next t ∧ t.comm.mem = { s.comm.mem with b := tabPut s.comm.mem.b j.addr j.data } ∧
      t.comm.journal = (if j.doneC then r else { j with doneB := true } :: r) ∧
      t = { s with comm := { s.comm with journal := t.comm.journal, mem := t.comm.mem } })

/-- A passed walk rests on clear sections, closed crossings and detected points (R261, R262, R266). -/
def Obligations.WalkElementsPass : Prop :=
  (∀ (t : TEnv) (g : SignalRec), (signalWalk t g).fail = none →
    (∀ p ∈ (signalWalk t g).secs, occupied t.st t.img p.1 = false ∧ openCrossing t p.1 = none) ∧
    (∀ p ∈ (signalWalk t g).pts, (detOf t.st t.img p).isSome = true)) ∧
  (∀ (t : TEnv) (sSec eSec : Nat) (d : Dir), (authWalkT t sSec eSec d).fail = none →
    (authWalkT t sSec eSec d).secs ≠ [] ∧
    (∀ p ∈ (authWalkT t sSec eSec d).secs.tail, occupied t.st t.img p.1 = false) ∧
    (∀ p ∈ (authWalkT t sSec eSec d).secs, openCrossing t p.1 = none) ∧
    (∀ p ∈ (authWalkT t sSec eSec d).pts, (detOf t.st t.img p).isSome = true) ∧
    ((authWalkT t sSec eSec d).secs.getLast?.map (·.1)) = some eSec)

/-- What Trestle withholds (R267 to R269, R272, R275). -/
def Obligations.PermitsWithheld : Prop :=
  (∀ (st : Station) (ws : List (Walker × Walk)), ∀ x ∈ ws, ∀ y ∈ ws, x.1 ≠ y.1 → x.2.fail = none → y.2.fail = none →
    conflictOf st ws x = none → ∀ p ∈ x.2.secs, ∀ q ∈ y.2.secs, p.1 = q.1 → p.2 = q.2 ∧ related st x y = true) ∧
  (∀ (t : TEnv) (ws : List (Walker × Walk)) (outs : List TOut) (o : TOut) (p pos : Nat), o.kind = .drive p pos →
    withheldFor t ws outs o = none →
    occupied t.st t.img (((ptRec t.st p).map (·.sec)).getD 0xFFFF) = false ∧ (∀ w ∈ ws, p ∉ w.2.pts) ∧
    (∀ q ∈ outs, ∀ k, q.kind = .drive p k → q.cmd = true → k = pos)) ∧
  (∀ (t : TEnv) (ws : List (Walker × Walk)) (outs : List TOut) (o : TOut) (x : Nat), o.kind = .crossing x →
    withheldFor t ws outs o = none → ∃ c, xingRec t.st x = some c ∧
      ∀ n ∈ c.prot, occupied t.st t.img n = false ∧ ∀ w ∈ ws, ∀ q ∈ w.2.secs, q.1 ≠ n) ∧
  (∀ (s : State) (h : Half) (clear : Nat → Bool),
    (s.comm.mode = true ∨ s.power.unconfigured = true ∨ s.power.confirmed = false ∨ (twoGet s.tres h).lock = false) →
    ∀ p w, tabFind (twoGet (evaluate h clear s).tx h).permits p = some w → w.inhibit = true ∧ ∀ v ∈ w.words, v = 0)

/-- Trestle's commands (R25, R259, R278, R281): results, completion and frames. -/
def Obligations.TrestleRows : Prop :=
  (∀ (s : State) (h : Half) (key : Nat) (d : Decision), (twoGet s.halves h).inServ = true →
    tabFind (twoGet s.tres h).decisions key = some d →
    ∃ t, exec (.evaluationOverrun h key) s = .next t ∧ t.raised 33 ∧
      twoGet t.tres h = { twoGet s.tres h with overran := true, decisions := tabPut (twoGet s.tres h).decisions key ⟨0xFFFF, 0x10, true, false⟩ } ∧
      (∀ o ∈ trestleOutputs s.cfg (twoGet s.halves h).active ((twoGet s.halves h).active.bind (·.locals)) s.bus.counter, o.key = key →
        ∀ x ∈ o.points, ∀ w, tabFind (twoGet t.tx h).permits (x / 1024) = some w → x % 1024 / 16 < w.words.length →
          w.words.getD (x % 1024 / 16) 0 / 4 ^ (x % 16) % 4 = 0) ∧
      told s t ∧ t = { s with
        tres := twoPut s.tres h (twoGet t.tres h),
        tx := twoMod s.tx h (fun x => { x with permits := (twoGet t.tx h).permits, localPermit := (twoGet t.tx h).localPermit }),
        ev := t.ev, dict := t.dict }) ∧
  (∀ (s : State) (h : Half) (c : Instr) (r : Nat), (twoGet s.halves h).inServ = true →
    (c = .graphScrub h true ∧ r = 5 ∨ c = .halfSupplyOrClock h ∧ r = 7) →
    ∃ t, exec c s = .next t ∧ t.raised 32 ∧ reported { s with
      halves := twoMod s.halves h (fun x => { x with
        inServ := false, reason := r, voter := false, ingress := ⟨none, none, none⟩, bench := ⟨none, none, none⟩,
        active := none, next := none, decided := none }),
      tres := twoMod s.tres h (fun y => { y with disReason := r, decisions := [] }),
      tx := twoPut s.tx h TxSt.init,
      bus := { s.bus with chans := twoMod s.bus.chans h (fun c => { c with st := .off, starter := false, devs := [], k := 0, weakRun := 0 }) } } t) ∧
  (∀ (s : State) (h : Half), exec (.graphScrub h false) s = .next s) ∧
  (∀ (s : State) (h : Half), (twoGet s.halves h).inServ = true →
    ∃ t, exec (.halfSupplyOrClock h) s = .next t ∧ (twoGet t.halves h).inServ = false ∧ (twoGet t.halves h).reason = 7) ∧
  (∀ (s : State) (h : Half) (key n : Nat) (d : Decision), tabFind (twoGet s.tres h).withheldRun key = some n → s.bus.lCyc ≤ n →
    tabFind (twoGet s.tres h).decisions key = some d → d.cmd = true → d.permit = false →
    exec (.outputWithheldLCycles h key) s = .next (if (twoGet s.tres h).withheldTold.contains key then s
      else raiseEv 37 (key % 65536) { s with tres := twoMap s.tres (fun _ y => { y with withheldTold := y.withheldTold ++ [key] }) }))

/-- Set requests of the Traverse pass (R101 to R110): results, completion and frames. -/
def Obligations.SetRequests : Prop :=
  (∀ (s : State) (q : Req), imageVoted s = false → ∃ t, exec (.setRoute q) s = .next t ∧
    kernelRow (fun e x => sequence e (applyReq e { q with cls := 2 } x)) s t) ∧
  (∀ (e : KEnv) (x : KRun) (q : Req) (r : RouteRec) (ovl : Nat), q.cls = 2 → q.port ≠ 1 → validity e x.k q = none →
    routeRec e.st q.target = some r → q.opt ≤ r.overlaps.length → x.k.newRes.contains q.target = false →
    (∀ h ∈ x.k.held, h.req.cls = 2 → h.req.target = q.target → sameReq h.req q = true) →
    holding (rst x.k q.target).state = false → checkRoute e x.k r q.opt = .inl ovl → conflict e x.k r ovl = none →
    ∃ y, y = applyReq e q x ∧
      rst y.k q.target = { RouteSt.init with
        state := .reserved, ovl := ovl, ovlHeld := ovl ≠ 0, port := q.port, tag := q.tag, cls := 2,
        reservedImg := x.k.image.num, rank := x.k.newRes.length + 1, clearedImg := (rst x.k q.target).clearedImg } ∧
      lastResult y.k q.port = some ⟨q.tag, 2, 1, q.target, 0, 0xFFFF, x.k.image.num⟩ ∧ heldOf y.k q = none ∧
      (∀ n, n ≠ q.target → rst y.k n = rst x.k n) ∧ y.recs = x.recs ∧ y.evs = x.evs ∧ y.reserves = x.reserves ∧
      y.k = { x.k with
        routes := y.k.routes, results := y.k.results, held := y.k.held, newRes := x.k.newRes ++ [q.target] }) ∧
  (∀ (e : KEnv) (x : KRun) (q : Req), q.cls = 2 → q.port ≠ 1 → validity e x.k q = none → routeRec e.st q.target = none →
    heldOf x.k q = none → ∃ y, y = applyReq e q x ∧
      lastResult y.k q.port = some ⟨q.tag, 2, 3, q.target, 0x1001, 0xFFFF, x.k.image.num⟩ ∧
      y = { x with k := { x.k with results := y.k.results } }) ∧
  (∀ (e : KEnv) (x : KRun) (q : Req) (r : RouteRec), q.cls = 2 → q.port ≠ 1 → validity e x.k q = none →
    routeRec e.st q.target = some r → q.opt ≤ r.overlaps.length → x.k.newRes.contains q.target = false →
    (∀ h ∈ x.k.held, ¬(h.req.cls = 2 ∧ h.req.target = q.target)) → heldOf x.k q = none →
    holding (rst x.k q.target).state = true → ¬((rst x.k q.target).state = .locked ∧ (rst x.k q.target).repl = true) →
    ∃ y, y = applyReq e q x ∧
      lastResult y.k q.port = some ⟨q.tag, 2, 3, q.target, 0x1007, 0xFFFF, x.k.image.num⟩ ∧
      rst y.k q.target = { rst x.k q.target with code := 0x1007 } ∧ (∀ n, n ≠ q.target → rst y.k n = rst x.k n) ∧
      y = { x with k := { x.k with routes := y.k.routes, results := y.k.results } }) ∧
  (∀ (e : KEnv) (x : KRun) (q : Req) (r : RouteRec) (code elt : Nat), q.cls = 2 → q.port ≠ 1 → validity e x.k q = none →
    routeRec e.st q.target = some r → q.opt ≤ r.overlaps.length → x.k.newRes.contains q.target = false →
    (∀ h ∈ x.k.held, ¬(h.req.cls = 2 ∧ h.req.target = q.target)) → heldOf x.k q = none →
    (rst x.k q.target).state = .released → checkRoute e x.k r q.opt = .inr (code, elt) → 0x1101 ≤ code → code ≤ 0x110A →
    ∃ y, y = applyReq e q x ∧ (∀ n, n ≠ q.target → rst y.k n = rst x.k n) ∧
      (q.hold = true → x.k.held.length < 256 →
        lastResult y.k q.port = some ⟨q.tag, 2, 2, q.target, code, elt, x.k.image.num⟩ ∧
        y.k.held = x.k.held ++ [⟨q, 0, code, elt⟩] ∧
        rst y.k q.target = { rst x.k q.target with state := .requested, code := code }) ∧
      (q.hold = true → 256 ≤ x.k.held.length →
        lastResult y.k q.port = some ⟨q.tag, 2, 3, q.target, 0x100B, elt, x.k.image.num⟩ ∧ y.k.held = x.k.held ∧
        rst y.k q.target = { rst x.k q.target with code := 0x100B }) ∧
      (q.hold = false →
        lastResult y.k q.port = some ⟨q.tag, 2, 3, q.target, code, elt, x.k.image.num⟩ ∧ y.k.held = x.k.held ∧
        rst y.k q.target = { rst x.k q.target with code := code }) ∧
      y = { x with k := { x.k with routes := y.k.routes, results := y.k.results, held := y.k.held } }) ∧
  (∀ (s : State) (port tag : Nat), imageVoted s = false → ∃ t, exec (.holdExpired port tag) s = .next t ∧
    kernelRow (fun _ x => holdExpire port tag x) s t) ∧
  (∀ (x : KRun) (port tag : Nat) (h : Held),
    x.k.held.find? (fun h => h.req.port = port && h.req.tag = tag && 64 ≤ h.tries) = some h →
    ∃ y, y = holdExpire port tag x ∧
      lastResult y.k port = some ⟨tag, h.req.cls, 4, h.req.target, h.code, h.detail, x.k.image.num⟩ ∧
      y.k.held = x.k.held.filter (fun g => !sameReq g.req h.req) ∧ (∀ n, n ≠ h.req.target → rst y.k n = rst x.k n) ∧
      ((rst x.k h.req.target).state ≠ .requested → y.k.routes = x.k.routes) ∧
      (h.req.cls = 2 → (rst x.k h.req.target).state = .requested →
        (∀ g ∈ x.k.held, sameReq g.req h.req = false → ¬(g.req.cls = 2 ∧ g.req.target = h.req.target)) →
        rst y.k h.req.target = { rst x.k h.req.target with state := .released }) ∧
      y = { x with k := { x.k with routes := y.k.routes, results := y.k.results, held := y.k.held } })

/-- Cancels (R124 to R126): results, completion and frames. -/
def Obligations.CancelRequests : Prop :=
  (∀ (s : State) (q : Req), imageVoted s = false →
    (∃ t, exec (.cancelRoute q) s = .next t ∧ kernelRow (fun e x => sequence e (applyReq e { q with cls := 1 } x)) s t) ∧
    (∃ t, exec (.emergencyCancel q) s = .next t ∧ kernelRow (fun e x => sequence e (applyReq e { q with cls := 0 } x)) s t)) ∧
  (∀ (e : KEnv) (x : KRun) (q : Req) (c : Nat), q.cls ≤ 1 → q.port ≠ 1 → q.all = false → validity e x.k q = none →
    (routeRec e.st q.target = none ∧ c = 0x1001 ∨
      (routeRec e.st q.target).isSome = true ∧ (rst x.k q.target).state = .released ∧ c = 0x1008 ∨
      (routeRec e.st q.target).isSome = true ∧ ((rst x.k q.target).state = .occupied ∨ (rst x.k q.target).state = .releasing) ∧ c = 0x1009) →
    ∃ y, y = applyReq e q x ∧ lastResult y.k q.port = some ⟨q.tag, q.cls, 3, q.target, c, 0xFFFF, x.k.image.num⟩ ∧
      (q.cls = 1 → y.recs = x.recs) ∧ y = { x with k := { x.k with results := y.k.results }, recs := y.recs }) ∧
  (∀ (e : KEnv) (x : KRun) (q : Req) (r : RouteRec) (v : RouteSt) (c : Nat), q.cls = 1 ∧ c = 0x2009 ∨ q.cls = 0 ∧ c = 0x200A →
    q.port ≠ 1 → q.all = false → validity e x.k q = none → routeRec e.st q.target = some r → v = rst x.k q.target →
    (v.state = .reserved ∨ v.state = .moving ∨ (v.state = .locked ∨ v.state = .cleared) ∧ v.appr = false) →
    ∃ y, y = applyReq e q x ∧
      rst y.k q.target = { RouteSt.init with
        code := c, emrg := v.emrg || q.cls = 0, port := v.port, tag := v.tag, cls := v.cls } ∧
      gst y.k r.entry = (if (gst x.k r.entry).route = some q.target then ⟨0, none, 0⟩ else gst x.k r.entry) ∧
      (∀ w ∈ y.k.events, w.app = true ∨ w.owner ≠ q.target) ∧
      lastResult y.k v.port = some ⟨v.tag, v.cls, 0x15, q.target, c, 0xFFFF, x.k.image.num⟩ ∧
      (q.port ≠ v.port → lastResult y.k q.port = some ⟨q.tag, q.cls, 0x15, q.target, c, 0xFFFF, x.k.image.num⟩) ∧
      (∀ n, n ≠ q.target → rst y.k n = rst x.k n) ∧ (∀ n, n ≠ r.entry → gst y.k n = gst x.k n) ∧
      (∀ v, v ∈ y.reserves ↔ v ∈ x.reserves ∨ reserveMsg e r 2 x.k.image.num = some v) ∧ y.evs = x.evs ∧
      (v.state = .locked ∨ v.state = .cleared → y.k.points = x.k.points) ∧
      y.k = { x.k with
        routes := y.k.routes, points := y.k.points, signals := y.k.signals, results := y.k.results, events := y.k.events,
        frozen := y.k.frozen }) ∧
  (∀ (e : KEnv) (x : KRun) (q : Req) (r : RouteRec) (v : RouteSt) (c : Nat), q.cls = 1 ∧ c = 0x2009 ∨ q.cls = 0 ∧ c = 0x200A →
    q.port ≠ 1 → q.all = false → validity e x.k q = none → routeRec e.st q.target = some r → v = rst x.k q.target →
    (v.state = .locked ∨ v.state = .cleared) → v.appr = true → x.k.events.length < 16384 →
    ∃ y, y = applyReq e q x ∧ (rst y.k q.target).state = .releasing ∧ (rst y.k q.target).approachRel = true ∧
      (rst y.k q.target).code = c ∧ (rst y.k q.target).relCode = c ∧ (rst y.k q.target).rel = v.rel ∧
      (rst y.k q.target).ovlHeld = v.ovlHeld ∧
      gst y.k r.entry = (if (gst x.k r.entry).route = some q.target then ⟨0, none, 0⟩ else gst x.k r.entry) ∧
      (∃ w ∈ y.k.events, w.app = false ∧ w.kind = .elapsed ∧ w.owner = q.target ∧ w.image = x.k.image.num ∧
        w.amount = e.images (r.opS * 1000000000)) ∧
      lastResult y.k q.port = some ⟨q.tag, q.cls, 1, q.target, 0, 0xFFFF, x.k.image.num⟩ ∧
      (∀ n, n ≠ q.target → rst y.k n = rst x.k n) ∧ y.reserves = x.reserves ∧ y.evs = x.evs ∧
      y.k = { x.k with
        routes := y.k.routes, signals := y.k.signals, results := y.k.results, events := y.k.events, pendHigh := y.k.pendHigh }) ∧
  (∀ (e : KEnv) (x : KRun) (q : Req) (n : Nat), q.cls = 0 → q.port ≠ 1 → q.all = true → validity e x.k q = none →
    ((rst x.k n).state = .reserved ∨ (rst x.k n).state = .moving) →
    (rst (applyReq e q x).k n).state = .released ∧ (rst (applyReq e q x).k n).code = 0x200A)

/-- Points (R117 to R123, R660): results, completion and frames. -/
def Obligations.PointMoves : Prop :=
  (∀ s : State, imageVoted s = false →
    (∀ q, ∃ t, exec (.pointMove q) s = .next t ∧ kernelRow (fun e x => sequence e (applyReq e { q with cls := 3 } x)) s t) ∧
    (∀ p, ∃ t, exec (.throwTimeout p) s = .next t ∧ kernelRow (fun e x => sequence e (throwTimeout e p x)) s t) ∧
    (∀ p, ∃ t, exec (.lostCleared p) s = .next t ∧ kernelRow (fun e x => sequence e (lostCleared e p x)) s t)) ∧
  (∀ (e : KEnv) (x : KRun) (q : Req) (p : PointRec), q.cls = 3 → q.port ≠ 1 → validity e x.k q = none →
    ptRec e.st q.target = some p → q.opt < p.legs.length → heldOf x.k q = none → q.hold = false →
    ∃ y, y = applyReq e q x ∧
      (ptHolds e.st (against e.st x.k false) q.target = [] → moveAgainst x.k q.target false = none →
        occupied e.st (bimg x.k) p.sec = false → ptHolds e.st (against e.st x.k true) q.target = [] →
        moveAgainst x.k q.target true = none →
        pst y.k q.target = { pst x.k q.target with
          mv := some ⟨q.opt, q.port, q.tag, 3, false, 0, x.k.image.num, (x.k.newRes.length + 1) * 256, true, (pst x.k q.target).failed⟩ } ∧
        (∀ n, n ≠ q.target → pst y.k n = pst x.k n) ∧
        y = { x with k := { x.k with
          points := y.k.points, newRes := y.k.newRes, held := y.k.held } }) ∧
      (∀ c, (ptHolds e.st (against e.st x.k false) q.target ≠ [] ∧ c = 0x1105 ∨
          ptHolds e.st (against e.st x.k false) q.target = [] ∧ moveAgainst x.k q.target false ≠ none ∧ c = 0x1104 ∨
          ptHolds e.st (against e.st x.k false) q.target = [] ∧ moveAgainst x.k q.target false = none ∧
            occupied e.st (bimg x.k) p.sec = true ∧ c = 0x1106) →
        lastResult y.k q.port = some ⟨q.tag, 3, 3, q.target, c, q.target, x.k.image.num⟩ ∧
        y = { x with k := { x.k with results := y.k.results } })) ∧
  (∀ (e : KEnv) (x : KRun) (q : Req), q.cls = 3 → q.port ≠ 1 → validity e x.k q = none → heldOf x.k q = none →
    (∀ p, ptRec e.st q.target = some p → p.legs.length ≤ q.opt) →
    ∃ y, y = applyReq e q x ∧ lastResult y.k q.port = some ⟨q.tag, 3, 3, q.target, 0x100D, q.target, x.k.image.num⟩ ∧
      y = { x with k := { x.k with results := y.k.results } }) ∧
  (∀ (e : KEnv) (x : KRun), ((commandPoints e x).k.points.filter (fun p => p.2.mv.any (·.commanded))).length ≤
    max e.set.simThrows (x.k.points.filter (fun p => p.2.mv.any (·.commanded))).length) ∧
  (∀ (e : KEnv) (x : KRun) (p : Nat) (m : Move), (pst x.k p).mv = some m → m.commanded = true →
    imgReached x.k.image.num m.deadline = true → detOf e.st (bimg x.k) p ≠ some m.pos →
    ∃ y, y = throwTimeout e p x ∧ (pst y.k p).mv = none ∧ (pst y.k p).failed = true ∧ ⟨40, p⟩ ∈ y.evs ∧
      (∀ h ∈ ptHolds e.st (holders e.st x.k) p, (h.state = .reserved ∨ h.state = .moving) → (rst x.k h.route).state = h.state →
        (rst y.k h.route).state = .released ∧ (rst y.k h.route).code = 0x2001) ∧
      ((∀ h ∈ ptHolds e.st (holders e.st x.k) p, h.state ≠ .reserved ∧ h.state ≠ .moving) →
        (m.own = true → lastResult y.k m.port = some ⟨m.tag, m.cls, 0x16, p, 0x2001, p, x.k.image.num⟩) ∧
        (m.own = false → y.k.results = x.k.results) ∧ (∀ n, n ≠ p → pst y.k n = pst x.k n) ∧ y.evs = x.evs ++ [⟨40, p⟩] ∧
        y = { x with k := { x.k with points := y.k.points, results := y.k.results }, evs := y.evs })) ∧
  (∀ (e : KEnv) (x : KRun) (p : Nat) (r : PointRec), ptRec e.st p = some r → (pst x.k p).lost = true → 0 < (pst x.k p).detRun →
    (∀ b ∈ r.det, e.images ((filterRec e.st b.fclass).recMs * 1000000) ≤ (pst x.k p).detRun) →
    ∃ y, y = lostCleared e p x ∧ pst y.k p = { pst x.k p with lost := false } ∧ (∀ n, n ≠ p → pst y.k n = pst x.k n) ∧
      y = { x with k := { x.k with points := y.k.points } })

/-- Crossings (R157 to R161), boundary confirmation (R112), proved signals (R116): results, completion and frames. -/
def Obligations.CrossingsAndFaults : Prop :=
  (∀ (s : State) (n : Nat), imageVoted s = false →
    (∃ t, exec (.crossingClosingTimeout n) s = .next t ∧ kernelRow (fun e x => sequence e (crossingTimeout e n x)) s t) ∧
    (∃ t, exec (.crossingOpenSlow n) s = .next t ∧ kernelRow (fun e x => crossingSlow e n x) s t) ∧
    (∃ t, exec (.crossingRecovered n) s = .next t ∧ kernelRow (fun e x => sequence e (crossingRecovered e n x)) s t) ∧
    (∃ t, exec (.boundaryConfirmationTimeout n) s = .next t ∧ kernelRow (fun e x => sequence e (boundaryTimeout e n x)) s t) ∧
    (∃ t, exec (.signalNotProven n) s = .next t ∧ kernelRow (fun e x => sequence e (signalNotProven e n x)) s t)) ∧
  (∀ (e : KEnv) (x : KRun) (n : Nat) (c : CrossingRec), xingRec e.st n = some c → (xst x.k n).cs = .closing →
    ∃ y, y = crossingTimeout e n x ∧
      (imgReached x.k.image.num (imgAdd (xst x.k n).since (e.images (c.closeS * 1000000000))) = true →
        xst y.k n = { xst x.k n with cs := .closingFailed, since := x.k.image.num } ∧ ⟨41, n⟩ ∈ y.evs ∧
        (∀ m, m ≠ n → xst y.k m = xst x.k m) ∧
        (∀ r ∈ xingRoutes e.st x.k n, ((rst x.k r).state = .reserved ∨ (rst x.k r).state = .moving) →
          (rst y.k r).state = .released ∧ (rst y.k r).code = 0x2003) ∧
        (xingRoutes e.st x.k n = [] → y = { x with
          k := { x.k with crossings := y.k.crossings },
          evs := x.evs ++ [⟨41, n⟩] })) ∧
      (imgReached x.k.image.num (imgAdd (xst x.k n).since (e.images (c.closeS * 1000000000))) = false → y = x)) ∧
  (∀ (e : KEnv) (x : KRun) (n : Nat) (c : CrossingRec), xingRec e.st n = some c → (xst x.k n).cs = .opening →
    (xst x.k n).slow = false → imgReached x.k.image.num (imgAdd (xst x.k n).since (e.images (c.openS * 1000000000))) = true →
    ∃ y, y = crossingSlow e n x ∧ xst y.k n = { xst x.k n with slow := true } ∧ (∀ m, m ≠ n → xst y.k m = xst x.k m) ∧
      y.evs = x.evs ++ [⟨41, n⟩] ∧ y.recs.map (fun r => (r.type, r.event, r.code)) =
        x.recs.map (fun r => (r.type, r.event, r.code)) ++ [(1, 41, 0x300B)] ∧ crossingSlow e n y = y ∧
      y = { x with k := { x.k with crossings := y.k.crossings }, recs := y.recs, evs := y.evs }) ∧
  (∀ (e : KEnv) (x : KRun) (n : Nat) (c : CrossingRec), xingRec e.st n = some c → (xst x.k n).cs = .forcedOpen →
    ∃ y, y = crossingRecovered e n x ∧
      (0 < (xst x.k n).run → e.images ((filterRec e.st c.closed.fclass).recMs * 1000000) ≤ (xst x.k n).run →
        xst y.k n = { xst x.k n with cs := .closed, since := x.k.image.num } ∧ (∀ m, m ≠ n → xst y.k m = xst x.k m)) ∧
      ((xst x.k n).run < e.images ((filterRec e.st c.closed.fclass).recMs * 1000000) → y = x) ∧
      y = { x with k := { x.k with crossings := y.k.crossings } }) ∧
  (∀ (e : KEnv) (x : KRun) (n : Nat) (r : RouteRec), routeRec e.st n = some r → (bndRec e.st r.exit).isSome = true →
    (rst x.k n).state = .reserved →
    ((rst x.k n).confirmed = false → imgReached x.k.image.num (imgAdd (rst x.k n).reservedImg 10) = true →
      ∃ y, y = boundaryTimeout e n x ∧ (rst y.k n).state = .released ∧ (rst y.k n).code = 0x2008 ∧
        y.evs = x.evs ++ [⟨63, n⟩] ∧ (∀ m, m ≠ n → rst y.k m = rst x.k m) ∧
        lastResult y.k (rst x.k n).port = some ⟨(rst x.k n).tag, (rst x.k n).cls, 0x15, n, 0x2008, r.exit, x.k.image.num⟩) ∧
    ((rst x.k n).confirmed = true → boundaryTimeout e n x = x)) ∧
  (∀ (e : KEnv) (x : KRun) (n r : Nat) (g : SignalRec) (rr : RouteRec), sigRec e.st n = some g → (gst x.k n).route = some r →
    g.proving.length = 4 → routeRec e.st r = some rr → rr.entry = n → (rst x.k r).state = .cleared →
    ∃ y, y = signalNotProven e n x ∧
      (x.k.image.num = imgAdd (gst x.k n).first 3 → proven (bimg x.k) g ≠ some (gst x.k n).aspect → startOcc e x.k r = false →
        rst y.k r = { rst x.k r with state := .locked, repl := true, code := 0x2007 } ∧ gst y.k n = ⟨0, none, 0⟩ ∧
        lastResult y.k (rst x.k r).port = some ⟨(rst x.k r).tag, (rst x.k r).cls, 0x13, r, 0x2007, n, x.k.image.num⟩ ∧
        (∀ m, m ≠ r → rst y.k m = rst x.k m) ∧ (∀ m, m ≠ n → gst y.k m = gst x.k m)) ∧
      (proven (bimg x.k) g = some (gst x.k n).aspect → y = x) ∧
      y = { x with k := { x.k with
        routes := y.k.routes, signals := y.k.signals, results := y.k.results, events := y.k.events } })

/-- Release (R146 to R153, R163), ghosts (R166): results, completion and frames. -/
def Obligations.SectionalRelease : Prop :=
  (∀ (s : State) (n : Nat), imageVoted s = false →
    (∃ t, exec (.sequenceRelease n) s = .next t ∧ kernelRow (fun e x => sequence e (sequenceRelease e n x)) s t) ∧
    (∃ t, exec (.clearFor n) s = .next t ∧ kernelRow (fun e x => sequence e (clearFor e n x)) s t) ∧
    (∀ app, ∃ t, exec (.elapsedEvent app n) s = .next t ∧ kernelRow (fun e x => sequence e (elapsedFires e app n x)) s t) ∧
    (∃ t, exec (.releaseByDistance n) s = .next t ∧ kernelRow (fun e x => sequence e (releaseByDistance e n x)) s t) ∧
    (∃ t, exec (.ghostTimeout n) s = .next t ∧ kernelRow (fun e x => ghostTimeout e n x) s t)) ∧
  (∀ (e : KEnv) (x : KRun) (n : Nat) (r : RouteRec) (p : PathSec), routeRec e.st n = some r → sectional (rst x.k n) = true →
    (rst x.k n).mode = .sequence → nextList e.st r (rst x.k n) = some p → (rst x.k n).wasOcc.contains p.pos = true →
    (rst x.k n).seqOk.contains p.pos = true → 0 < (tabGet x.k.sections p.sec SecSt.init).clearRun →
    e.images (((secRec e.st p.sec).map (fun y => (filterRec e.st y.occ.fclass).recMs)).getD 0 * 1000000) ≤
      (tabGet x.k.sections p.sec SecSt.init).clearRun →
    ∃ y, y = sequenceRelease e n x ∧ ((rst y.k n).state = .releasing ∧ p.pos ∈ (rst y.k n).rel ∨ (rst y.k n).state = .released) ∧
      (∀ m, m ≠ n → rst y.k m = rst x.k m) ∧ y.recs = x.recs) ∧
  (∀ (e : KEnv) (x : KRun) (n : Nat) (r : RouteRec) (p : PathSec) (v : SEvent), routeRec e.st n = some r →
    sectional (rst x.k n) = true → (rst x.k n).mode = .detection → nextList e.st r (rst x.k n) = some p →
    x.k.events.find? (fun v => !v.app && v.owner = n && v.kind = .clearFor) = some v → v.target = p.sec →
    v.amount ≤ (tabGet x.k.sections p.sec SecSt.init).clearRun →
    imgReached (imgAdd x.k.image.num 1) (imgAdd v.image v.amount) = true →
    ∃ y, y = clearFor e n x ∧
      (trackedOn x.k p.sec = [] → ((rst y.k n).state = .releasing ∧ p.pos ∈ (rst y.k n).rel ∨ (rst y.k n).state = .released)) ∧
      (trackedOn x.k p.sec ≠ [] → y = x) ∧ (∀ m, m ≠ n → rst y.k m = rst x.k m) ∧ y.recs = x.recs) ∧
  (∀ (e : KEnv) (x : KRun) (n : Nat) (v : SEvent), (rst x.k n).state = .releasing → (rst x.k n).approachRel = true →
    (rst x.k n).passed = false → (rst x.k n).relCode ≠ 0 →
    x.k.events.find? (fun v => v.app = false && v.owner = n && v.kind = .elapsed && imgReached x.k.image.num (imgAdd v.image v.amount)) = some v →
    ∃ y, y = elapsedFires e false n x ∧
      (startOcc e x.k n = false → (rst y.k n).state = .released ∧ (rst y.k n).code = (rst x.k n).relCode ∧
        lastResult y.k (rst x.k n).port =
          some ⟨(rst x.k n).tag, (rst x.k n).cls, 0x15, n, (rst x.k n).relCode, 0xFFFF, x.k.image.num⟩) ∧
      (startOcc e x.k n = true → y.k = { x.k with events := x.k.events.filter (fun w => w ≠ v) }) ∧
      (∀ m, m ≠ n → rst y.k m = rst x.k m) ∧ y.recs = x.recs ∧ y.evs = x.evs) ∧
  (∀ (e : KEnv) (x : KRun) (n : Nat) (v : SEvent),
    x.k.events.find? (fun v => v.app = true && v.owner = n && v.kind = .elapsed && imgReached x.k.image.num (imgAdd v.image v.amount)) = some v →
    elapsedFires e true n x = { x with k := { x.k with
      events := x.k.events.filter (fun w => w ≠ v), appFired := x.k.appFired ++ [n] } }) ∧
  (∀ (e : KEnv) (x : KRun) (n : Nat), (rst x.k n).state = .releasing → (rst x.k n).approachRel = true → (rst x.k n).passed = false →
    (3 ≤ (rst x.k n).distRun → (rst x.k n).relCode ≠ 0 →
      (rst (releaseByDistance e n x).k n).state = .released ∧ (rst (releaseByDistance e n x).k n).code = (rst x.k n).relCode) ∧
    ((rst x.k n).distRun < 3 → releaseByDistance e n x = x) ∧
    (∀ m, m ≠ n → rst (releaseByDistance e n x).k m = rst x.k m)) ∧
  (∀ (e : KEnv) (x : KRun) (n : Nat) (c : SectionRec), secRec e.st n = some c → c.maxOcc ≠ 0 →
    (tabGet x.k.sections n SecSt.init).ghostRep = false →
    ∃ y, y = ghostTimeout e n x ∧
      (c.maxOcc * 1000000000 < (tabGet x.k.sections n SecSt.init).ghostRun * e.cycle →
        tabGet y.k.sections n SecSt.init = { tabGet x.k.sections n SecSt.init with ghostRep := true } ∧
        y.evs = x.evs ++ [⟨42, n⟩] ∧ y.recs.length = x.recs.length + 1 ∧ ghostTimeout e n y = y) ∧
      ((tabGet x.k.sections n SecSt.init).ghostRun * e.cycle ≤ c.maxOcc * 1000000000 → y = x) ∧
      y = { x with k := { x.k with sections := y.k.sections }, evs := y.evs, recs := y.recs })

/-- Key and emergency releases (R168 to R173): results, completion and frames. -/
def Obligations.KeyAndEmergencyReleases : Prop :=
  (∀ (s : State) (key : Bool) (n : Nat), imageVoted s = false →
    ∃ t, exec (.keyTimerExpiry key n) s = .next t ∧ kernelRow (fun e x => keyExpiry e key n x) s t) ∧
  (∀ (e : KEnv) (x : KRun) (n : Nat) (y : KeyRec), keyRec e.st n = some y → (tabGet x.k.keys n KeySt.init).timing = true →
    (tabGet x.k.keys n KeySt.init).remain = 0 →
    ∃ z, keyExpiry e true n x = sequence e z ∧
      tabGet z.k.keys n KeySt.init = { tabGet x.k.keys n KeySt.init with timing := false, done := true } ∧
      (∀ m, m ≠ n → tabGet z.k.keys m KeySt.init = tabGet x.k.keys m KeySt.init) ∧ ⟨43, n⟩ ∈ z.evs ∧
      x.recs.length + 1 + (scopeRoutes e x.k y.scope).length ≤ z.recs.length ∧
      ((∀ p ∈ scopeRoutes e x.k y.scope, occupied e.st (bimg x.k) p.2 = true) → z.k.routes = x.k.routes) ∧
      z.k.points = x.k.points ∧ z.k.signals = x.k.signals ∧ z.k.crossings = x.k.crossings ∧ z.k.results = x.k.results) ∧
  (∀ (e : KEnv) (x : KRun) (n : Nat), (tabGet x.k.keys n KeySt.init).timing = false → keyExpiry e true n x = x) ∧
  (∀ (s : State) (n route : Nat), s.allows n .maintainer false → s.pair.role ≠ .standby → imagesRun s = true → imageVoted s = false →
    (∃ t u, exec (.emergencyRelease n route) s = .next t ∧ kernelRow (fun e x => emergencyRelease e n route x) s u ∧
      t = withResult (functionReply (leadKernel u).emOutcome []) u) ∧
    (∃ t u, exec (.emergencyReleaseEndAll n) s = .next t ∧ kernelRow (fun _ x => emergencyEndAll n x) s u ∧
      t = withResult (functionReply (leadKernel u).emOutcome []) u)) ∧
  (∀ (s : State) (n route : Nat), (sessOf s n).opened = false →
    exec (.emergencyRelease n route) s = .next (withResult (rSession, []) s) ∧
    exec (.emergencyReleaseEndAll n) s = .next (withResult (rSession, []) s)) ∧
  (∀ (s : State) (n route : Nat), (sessOf s n).opened = true → levelRank (sessOf s n).level < levelRank .maintainer →
    exec (.emergencyRelease n route) s = .next (withResult (rLevel, []) s) ∧
    exec (.emergencyReleaseEndAll n) s = .next (withResult (rLevel, []) s)) ∧
  (∀ (e : KEnv) (x : KRun) (session n : Nat), ∃ y, y = emergencyRelease e session n x ∧
    (∀ r, routeRec e.st n = some r →
      ((rst x.k n).state ≠ .occupied → (rst x.k n).state ≠ .releasing → y.k = { x.k with emOutcome := 0x3008 }) ∧
      ((rst x.k n).state = .occupied ∨ (rst x.k n).state = .releasing →
        (x.k.emRels.any (fun m => m.route = n) = true → y.k = { x.k with emOutcome := 0 }) ∧
        (x.k.emRels.any (fun m => m.route = n) = false → 16 ≤ x.k.emRels.length → y.k = { x.k with emOutcome := 0x3009 }) ∧
        (x.k.emRels.any (fun m => m.route = n) = false → x.k.emRels.length < 16 →
          y.k = { x.k with emRels := x.k.emRels ++ [⟨n, e.images (r.opS * 1000000000), session⟩], emOutcome := 0 }))) ∧
    (routeRec e.st n = none → y.k = { x.k with emOutcome := 0x3008 }) ∧
    y.evs = x.evs ++ [⟨43, session⟩] ∧ y.recs.length = x.recs.length + 1 ∧ y.reserves = x.reserves) ∧
  (∀ (x : KRun) (session : Nat), ∃ y, y = emergencyEndAll session x ∧ y.k = { x.k with emRels := [], emOutcome := 0 } ∧
    y.recs.length = x.recs.length + x.k.emRels.length ∧ y.evs.length = x.evs.length + x.k.emRels.length ∧ y.reserves = x.reserves)

/-- Carriers (R185, Table 5.3) and stuck inputs (R427): results, completion and frames. -/
def Obligations.CarriersAndStuckInputs : Prop :=
  (∀ (s : State) (id : Nat), imageVoted s = false →
    (∃ t, exec (.carrierConfirmed id) s = .next t ∧ kernelRow (fun e x => sequence e (confirmCarrier e id x)) s t) ∧
    (∃ t, exec (.carrierVanished id) s = .next t ∧ kernelRow (fun e x => sequence e (fillSlots e.st (vanishCarrier e id x))) s t) ∧
    (∃ t, exec (.carrierContradict id) s = .next t ∧ kernelRow (fun e x => sequence e (fillSlots e.st (contradictCarrier e id x))) s t) ∧
    (∃ t, exec (.lostSpanCleared id) s = .next t ∧ kernelRow (fun e x => clearLost e id x) s t) ∧
    (∀ point, ∃ t, exec (.stuckInput id point) s = .next t ∧ kernelRow (stuckInput (id * 1024 + point)) s t)) ∧
  (∀ (e : KEnv) (x : KRun) (id n : Nat) (c : Carrier) (r : Report) (l : Located), entryNo x.k id = some n →
    tabFind x.k.carriers n = some c → reportOf e.st (bimg x.k) id = some r → locate e.st (bimg x.k) r = some l →
    c.ts = .candidate → e.set.confirmC ≤ c.confirm → reportValid e.st (some c.cls) r = true → c.slot = none →
    ∃ y d, y = confirmCarrier e id x ∧ tabFind y.k.carriers n = some d ∧ d.ts = .tracked ∧ d.lreason = 0 ∧ d.id = c.id ∧
      d.line = r.line ∧ d.front = r.front ∧ d.len = r.len ∧ d.cls = r.cls ∧ d.span = l.span ∧ d.miss = 0 ∧ d.contra = 0 ∧
      (∀ v, d.slot = some v → (∃ i, v = r.port * 256 + i ∧ i < (tabGet e.st.authSlots r.port []).length) ∧
        ∀ m f, m ≠ n → tabFind x.k.carriers m = some f → f.slot ≠ some v) ∧
      (∀ m, m ≠ n → tabFind y.k.carriers m = tabFind x.k.carriers m) ∧ y.recs = x.recs ∧ y.reserves = x.reserves) ∧
  (∀ (e : KEnv) (x : KRun) (id n : Nat) (c : Carrier), entryNo x.k id = some n → tabFind x.k.carriers n = some c →
    e.set.confirmC > c.confirm → confirmCarrier e id x = x) ∧
  (∀ (e : KEnv) (x : KRun) (id n : Nat) (c : Carrier), entryNo x.k id = some n → tabFind x.k.carriers n = some c →
    c.ts = .tracked → ∀ y reason, (y = vanishCarrier e id x ∧ (classRec e.st c.cls).maxAge ≤ c.miss ∧ reason = 1 ∨
      y = contradictCarrier e id x ∧ 3 ≤ c.contra ∧ reason = 4) →
    tabFind y.k.carriers n = some { c with
      ts := .lost, lreason := reason, slot := none, limit := 0, clearRun := 0, confirm := 0, wasLost := true } ∧
    (∀ m, m ≠ n → tabFind y.k.carriers m = tabFind x.k.carriers m) ∧ ⟨46, c.id⟩ ∈ y.evs ∧ x.recs.length < y.recs.length ∧
    y.reserves = x.reserves) ∧
  (∀ (e : KEnv) (x : KRun) (id n : Nat) (c : Carrier), entryNo x.k id = some n → tabFind x.k.carriers n = some c →
    (c.miss < (classRec e.st c.cls).maxAge → vanishCarrier e id x = x) ∧ (c.contra < 3 → contradictCarrier e id x = x) ∧
    (c.clearRun < e.set.clearE → clearLost e id x = x)) ∧
  (∀ (e : KEnv) (x : KRun) (id n : Nat) (c : Carrier), entryNo x.k id = some n → tabFind x.k.carriers n = some c → c.ts = .lost →
    e.set.clearE ≤ c.clearRun →
    ∃ y, y = clearLost e id x ∧ tabFind y.k.carriers n = none ∧ (∀ m, m ≠ n → tabFind y.k.carriers m = tabFind x.k.carriers m) ∧
      y.recs.length = x.recs.length + 1 ∧ y = { x with k := { x.k with carriers := y.k.carriers }, recs := y.recs }) ∧
  (∀ (e : KEnv) (x : KRun) (key c : Nat), stuckClass e.st key = some c → stuckLimit e c ≠ 0 →
    stuckLimit e c ≤ tabGet x.k.stuck key 0 →
    (x.k.stuckNow.contains key = true → stuckInput key e x = x) ∧
    (x.k.stuckNow.contains key = false → ∃ z, stuckInput key e x = sequence e (stepKeys e z) ∧
      z.k.stuckNow = x.k.stuckNow ++ [key] ∧ z.evs = x.evs ++ [⟨39, key⟩] ∧ z.recs.length = x.recs.length + 1 ∧
      (key < pairKey 0 → tabGet z.k.image.bus.levels key true = restrictiveOf e.st key ∧ key ∈ z.k.image.bus.subst) ∧
      (pairKey 0 ≤ key → tabGet z.k.image.bus.pairs (key - pairKey 0) true = pairRestrictive e.st (key - pairKey 0) ∧
        (key - pairKey 0) ∈ z.k.image.bus.pairSubst) ∧
      z.k = { x.k with stuckNow := z.k.stuckNow, image := z.k.image })) ∧
  (∀ (e : KEnv) (x : KRun) (key c : Nat), stuckClass e.st key = some c → tabGet x.k.stuck key 0 < stuckLimit e c →
    stuckInput key e x = x)

/-- Program commands (R301, R305 to R310): results, completion and frames. -/
def Obligations.ProgramCommands : Prop :=
  (∀ (s : State) (n : Nat), s.allows n .maintainer false → imagesRun s = true → imageVoted s = false →
    (∃ t u, exec (.progArm n) s = .next t ∧ kernelRow (fun _ x => progObj 1 (armRefusal s) s.progLoad.switchLead x) s u ∧
      t = withResult (functionReply (progRefusal 1 (leadKernel u).prog.outcome) []) u) ∧
    (∃ t u, exec (.progAbort n) s = .next t ∧ kernelRow (fun _ x => progAborted x) s u ∧
      t = withResult (functionReply (progRefusal 2 (leadKernel u).prog.outcome) []) u) ∧
    (s.pair.role ≠ .standby →
      (∃ t u, exec (.progStop n) s = .next t ∧ kernelRow (fun _ x => progStop x) s u ∧
        t = withResult (functionReply (leadKernel u).prog.outcome []) u) ∧
      (∃ t u, exec (.progStart n) s = .next t ∧ kernelRow (fun _ x => progStart x) s u ∧
        t = withResult (functionReply (leadKernel u).prog.outcome []) u)) ∧
    (s.pair.role = .standby →
      exec (.progStop n) s = .next (withResult (rStandby, []) s) ∧ exec (.progStart n) s = .next (withResult (rStandby, []) s))) ∧
  (∀ s : State, imageVoted s = false →
    (∃ t, exec .programFaulted s = .next t ∧ kernelRow (fun e x => progFaulted e x) s t) ∧
    (∀ ref, ∃ t, exec (.vlTimerExpiry ref) s = .next t ∧ kernelRow (fun e x => timerExpiry e ref x) s t)) ∧
  (∀ s : State, (1 < modeOf s → armRefusal s = 0x5106) ∧
    (modeOf s ≤ 1 → (rejoinUnderWay s = true ∨ s.vote.pendLane.isSome = true ∨ loadChecking s = true ∨ s.upd.upd = true) →
      armRefusal s = 0x500E) ∧
    (modeOf s ≤ 1 → rejoinUnderWay s = false → s.vote.pendLane = none → loadChecking s = false → s.upd.upd = false →
      (validProgram s = none → armRefusal s = 0x5102) ∧
      (∀ p, validProgram s = some p →
        ((∀ b ∈ p.bounds, b + 400 ≤ allotment s) → 400 ≤ allotment s → armRefusal s = 0) ∧
        (∀ b ∈ p.bounds, allotment s < b + 400 → armRefusal s = 0x500C)))) ∧
  (∀ (x : KRun) (aux lead : Nat),
    (x.k.prog.ps = .armed → progObj 1 aux lead x = { x with k := { x.k with prog := { x.k.prog with outcome := 0x500E } } }) ∧
    (x.k.prog.ps ≠ .armed → aux ≠ 0 → progObj 1 aux lead x = { x with k := { x.k with prog := { x.k.prog with outcome := aux } } }) ∧
    (x.k.prog.ps ≠ .armed → aux = 0 → progObj 1 aux lead x = { x with
      k := { x.k with prog := { x.k.prog with
        ps := .armed, under := x.k.prog.ps, switchImg := (x.k.image.num + lead) % 2 ^ 32, outcome := 0x5101 } },
      evs := x.evs ++ [⟨82, 0x5101⟩] }) ∧
    (x.k.prog.ps = .armed → progAborted x = { x with
      k := { x.k with prog := { x.k.prog with ps := x.k.prog.under, switchImg := 0, outcome := 0x5104 } },
      evs := x.evs ++ [⟨82, 0x5104⟩] }) ∧
    (x.k.prog.ps ≠ .armed → progAborted x = { x with k := { x.k with prog := { x.k.prog with outcome := 0x5103 } } })) ∧
  (∀ (x : KRun) (p : Program), x.k.prog.prog = some p → x.k.prog.ps = .running →
    progStop x = { x with
      k := { x.k with prog := { x.k.prog with ps := .stopped, out := substitution x.k p, outcome := 0 } },
      evs := x.evs ++ [⟨81, 3⟩] } ∧
    (substitution x.k p).stops = p.scope.sigs ∧ (substitution x.k p).holdClosed = p.scope.xings ∧
    (∀ n ∈ p.scope.points, (n, 0) ∈ (substitution x.k p).inhibits) ∧ (substitution x.k p).nonVital = p.nonVitalDflt) ∧
  (∀ x : KRun, (x.k.prog.ps = .stopped ∨ x.k.prog.ps = .faulted) →
    (unfit x.k.prog = true → progStart x = { x with k := { x.k with prog := { x.k.prog with outcome := x.k.prog.lastFault } } }) ∧
    (unfit x.k.prog = false → progStart x = { x with
      k := { x.k with prog := { x.k.prog with ps := .running, faultRun := 0, outcome := 0 } },
      evs := x.evs ++ [⟨81, 1⟩] })) ∧
  (∀ (e : KEnv) (x : KRun) (p : Program), x.k.prog.prog = some p → x.k.prog.ps = .running →
    (e.faultStop ≤ x.k.prog.faultRun → progFaulted e x = { x with
      k := { x.k with prog := { x.k.prog with ps := .faulted, out := substitution x.k p } },
      evs := x.evs ++ [⟨81, 4⟩] }) ∧
    (x.k.prog.faultRun < e.faultStop → progFaulted e x = x)) ∧
  (∀ (e : KEnv) (x : KRun) (p : Program) (b : VlBlock), x.k.prog.prog = some p →
    x.k.prog.blocks.find? (fun c => c.ref = b.ref) = some b → x.k.prog.ps = .running →
    (b.running = true → b.preset ≤ b.elapsed → x.k.prog.faultRun = 0 → (b.kind = .ton ∨ b.kind = .tof ∨ b.kind = .tp) →
      (timerExpiry e b.ref x).k.prog.blocks =
        x.k.prog.blocks.map (fun c => if c.ref = b.ref then { b with out := decide (b.kind = .ton), running := false } else c)) ∧
    (b.running = false ∨ b.elapsed < b.preset → timerExpiry e b.ref x = x))

/-- Online change (R307), variables (R313 to R315), forces (R317 to R321): results, completion and frames. -/
def Obligations.VariablesAndForces : Prop :=
  (∀ (s : State) (p : Program) (h : Half), validProgram s = some p → validProgSlot s = some h →
    (leadKernel s).prog.ps = .armed → imgReached (imgAdd s.imageNo 1) (leadKernel s).prog.switchImg = true →
    2 ≤ (lanesInVote s).length →
    ∃ t, exec .onlineChangeSwitch s = .next t ∧ t.raised 82 ∧ t.progLoad.active = some h ∧
      (twoGet t.progLoad.slots h).st = .active ∧
      (twoGet t.progLoad.slots (otherHalf h)).st = (if (twoGet s.progLoad.slots (otherHalf h)).parsed.isSome then .valid else .empty) ∧
      (∀ l, (triGet t.lanes l).kernel = switchIn p (triGet s.lanes l).kernel ∧
        (triGet t.lanes l).kernel.prog.prog = some p ∧ (triGet t.lanes l).kernel.prog.ps = .running ∧
        (triGet t.lanes l).kernel.prog.origin = 2) ∧
      reported { s with lanes := t.lanes, progLoad := t.progLoad } t) ∧
  (∀ s : State, (validProgram s = none ∨ (leadKernel s).prog.ps ≠ .armed ∨ (lanesInVote s).length < 2) →
    exec .onlineChangeSwitch s = .next s) ∧
  (∀ (new old : Program) (x : KRun), x.k.prog.prog = some old →
    ∃ y, y = switchProgram new x ∧ y.k.prog.vars = new.vars.map (carryVar old new x.k.prog.vars) ∧
      (∀ f ∈ x.k.prog.forces, f ∈ y.k.prog.forces ↔ ∃ v, varOf new.vars f.ref = some v ∧ v.vital = false ∧
        ∀ w, varOf x.k.prog.vars f.ref = some w → w.type = v.type) ∧
      y.k = { x.k with prog := y.k.prog } ∧ y.reserves = x.reserves) ∧
  (∀ (old new : Program) (vs : List VarSt) (v w : VarSt) (i j : InstRec), instOf old v.ref.inst = some i →
    instOf new v.ref.inst = some j → i.type = j.type → varOf vs v.ref = some w →
    (i.ver = j.ver ∨ w.type = v.type → carryVar old new vs v = { v with value := w.value }) ∧
    (i.ver ≠ j.ver → w.type ≠ v.type → carryVar old new vs v = { v with value := v.dflt })) ∧
  (∀ (s : State) (n i f : Nat) (val : List Byte), s.allows n .operator false → s.pair.role ≠ .standby → imagesRun s = true →
    imageVoted s = false →
    ∃ t u, exec (.variableWrite n i f val) s = .next t ∧ kernelRow (fun _ x => (varWrite ⟨i, f⟩ val x).1) s u ∧
      (∀ v, varOf (leadKernel s).prog.vars ⟨i, f⟩ = some v → v.hostw = true → val.length = v.value.length →
        t = withResult (0, varValue (leadKernel u) ⟨i, f⟩) u) ∧
      (varOf (leadKernel s).prog.vars ⟨i, f⟩ = none → t = withResult (rFunction, [0x53#8, 0x02#8]) u) ∧
      (∀ v, varOf (leadKernel s).prog.vars ⟨i, f⟩ = some v → v.hostw = false → t = withResult (rFunction, [0x53#8, 0x05#8]) u) ∧
      (∀ v, varOf (leadKernel s).prog.vars ⟨i, f⟩ = some v → v.hostw = true → val.length ≠ v.value.length →
        t = withResult (rFunction, [0x53#8, 0x04#8]) u)) ∧
  (∀ (r : VarRef) (val : List Byte) (x : KRun) (v : VarSt), varOf x.k.prog.vars r = some v → v.hostw = true →
    val.length = v.value.length →
    ∃ y, y = (varWrite r val x).1 ∧ (varWrite r val x).2 = 0 ∧
      y = { x with k := { x.k with prog := { x.k.prog with vars := y.k.prog.vars } } } ∧
      y.k.prog.vars.map (·.ref) = x.k.prog.vars.map (·.ref) ∧
      ((∀ g ∈ x.k.prog.forces, g.ref ≠ r) → ∀ w ∈ y.k.prog.vars, w.ref = r → w.value = val) ∧
      (∀ g, x.k.prog.forces.find? (fun f => f.ref = r) = some g → ∀ w ∈ y.k.prog.vars, w.ref = r → w.value = g.value)) ∧
  (∀ (s : State) (n i f : Nat) (val : List Byte), s.allows n .maintainer false → s.pair.role ≠ .standby → imagesRun s = true →
    imageVoted s = false →
    (∃ t u, exec (.forceSet n i f val) s = .next t ∧ kernelRow (fun _ x => forceSet n ⟨i, f⟩ val x) s u ∧
      t = withResult (functionReply (leadKernel u).prog.forceOutcome []) u) ∧
    (∃ t u, exec (.forceRemove n i f) s = .next t ∧ kernelRow (fun _ x => forceRemove n ⟨i, f⟩ x) s u ∧
      t = withResult (functionReply (leadKernel u).prog.forceOutcome []) u) ∧
    (∃ t u, exec (.forceRemoveAll n) s = .next t ∧ kernelRow (fun _ x => forceRemoveAll n x) s u ∧
      t = withResult (functionReply (leadKernel u).prog.forceOutcome []) u)) ∧
  (∀ (n : Nat) (r : VarRef) (val : List Byte) (x : KRun), ∃ y, y = forceSet n r val x ∧
    (varOf x.k.prog.vars r = none → y = forceOut 0x5302 x) ∧
    (∀ v, varOf x.k.prog.vars r = some v →
      (v.vital = true → y = forceOut 0x5301 x) ∧
      (v.vital = false → val.length ≠ v.value.length → y = forceOut 0x5304 x) ∧
      (v.vital = false → val.length = v.value.length → val.length ≤ 64 → (∀ g ∈ x.k.prog.forces, g.ref ≠ r) →
        256 ≤ x.k.prog.forces.length → y = forceOut 0x5303 x) ∧
      (v.vital = false → val.length = v.value.length → val.length ≤ 64 → x.k.prog.forces.length < 256 →
        y.k.prog.forces = forcePut ⟨r, val, x.k.image.num⟩ x.k.prog.forces ∧ y.k.prog.forceOutcome = 0 ∧
        ⟨r, val, x.k.image.num⟩ ∈ y.k.prog.forces ∧ y.evs = x.evs ++ [⟨83, n⟩] ∧ y.recs.length = x.recs.length + 1 ∧
        y.k = { x.k with prog := { x.k.prog with
          vars := y.k.prog.vars, forces := y.k.prog.forces, forceOutcome := 0 } }))) ∧
  (∀ (n : Nat) (r : VarRef) (x : KRun),
    ((∀ g ∈ x.k.prog.forces, g.ref ≠ r) → forceRemove n r x = forceOut 0x5306 x) ∧
    (∀ g ∈ x.k.prog.forces, g.ref = r →
      ∃ y, y = forceRemove n r x ∧ y.k.prog.forces = x.k.prog.forces.filter (fun f => f.ref ≠ r) ∧
        y.evs = x.evs ++ [⟨83, n⟩] ∧ y.recs.length = x.recs.length + 1 ∧
        y.k = { x.k with prog := { x.k.prog with forces := y.k.prog.forces, forceOutcome := 0 } }) ∧
    ∃ y, y = forceRemoveAll n x ∧ y.k = { x.k with prog := { x.k.prog with forces := [], forceOutcome := 0 } } ∧
      y.recs.length = x.recs.length + x.k.prog.forces.length ∧ y.evs.length = x.evs.length + x.k.prog.forces.length)

/-- Loads (R77 to R83, R303): results, completion and frames. -/
def Obligations.DataAndProgramLoads : Prop :=
  (∀ (s : State) (n : Nat), s.allows n .maintainer false → imagesRun s = true →
    (loadBusy s = false → slotIn s .pending = none → s.upd.upd = false →
      exec (.loadOpen n) s = .next (withResult (0, []) { s with load := { s.load with
        slots := twoPut s.load.slots (loadSlot s) { DataSlot.init with st := .receiving },
        offset := 0, session := n } })) ∧
    ((loadBusy s = true ∨ (slotIn s .pending).isSome = true ∨ s.upd.upd = true) →
      exec (.loadOpen n) s = .next (withResult (rFunction, [0x04#8, 0x02#8]) { s with load := { s.load with
        code := 0x0402, detail := noElement } })) ∧
    ((progSlotIn s .receiving).isSome = true ∨ (progSlotIn s .checking).isSome = true ∨ s.upd.upd = true →
      exec (.programLoadOpen n) s = .next (withResult (rFunction, [0x50#8, 0x0E#8]) { s with progLoad := { s.progLoad with
        code := 0x500E, detail := noElement } })) ∧
    (progSlotIn s .receiving = none → progSlotIn s .checking = none → s.upd.upd = false → s.view.prog.ps ≠ .armed →
      exec (.programLoadOpen n) s = .next (withResult (0, []) { s with progLoad := { s.progLoad with
        slots := twoPut s.progLoad.slots (progLoadSlot s) { ProgSlot.init with st := .receiving },
        offset := 0, session := n } }))) ∧
  (∀ (s : State) (n : Nat) (h : Half) (d : List Byte), s.allows n .maintainer false → imagesRun s = true →
    1 ≤ d.length → d.length ≤ 1024 → slotIn s .receiving = some h →
    (s.load.session = n → s.load.offset + d.length ≤ 0x1000000 →
      exec (.loadWindow n d) s = .next (withResult (0, []) { s with load := { s.load with
        slots := twoMod s.load.slots h (fun x => { x with
          bytes := memWriteAll x.bytes s.load.offset d, size := max x.size (s.load.offset + d.length) }),
        offset := s.load.offset + d.length } })) ∧
    (s.load.session = n → 0x1000000 < s.load.offset + d.length → exec (.loadWindow n d) s = .next (withResult (rRange, []) s)) ∧
    (s.load.session ≠ n → exec (.loadWindow n d) s = .next (withResult (rFunction, [0x04#8, 0x03#8]) { s with load := { s.load with
      code := 0x0403, detail := noElement } }))) ∧
  (∀ (s : State) (n : Nat) (h : Half) (d : List Byte), s.allows n .maintainer false → imagesRun s = true →
    1 ≤ d.length → d.length ≤ 1024 → progSlotIn s .receiving = some h →
    (s.progLoad.session = n → s.progLoad.offset + d.length ≤ 0x1000000 →
      exec (.programLoadWindow n d) s = .next (withResult (0, []) { s with progLoad := { s.progLoad with
        slots := twoMod s.progLoad.slots h (fun x => { x with
          bytes := memWriteAll x.bytes s.progLoad.offset d, size := max x.size (s.progLoad.offset + d.length) }),
        offset := s.progLoad.offset + d.length } })) ∧
    (s.progLoad.session ≠ n → exec (.programLoadWindow n d) s = .next (withResult (rFunction, [0x50#8, 0x0F#8])
      { s with progLoad := { s.progLoad with code := 0x500F, detail := noElement } }))) ∧
  (∀ (s : State) (n : Nat) (d : List Byte), s.allows n .maintainer false → imagesRun s = true → (d = [] ∨ 1024 < d.length) →
    exec (.loadWindow n d) s = .next (withResult (rLength, []) s) ∧
    exec (.programLoadWindow n d) s = .next (withResult (rLength, []) s)) ∧
  (∀ (s : State) (n : Nat) (h : Half), s.allows n .maintainer false → imagesRun s = true →
    (slotIn s .receiving = some h → exec (.loadEnd n) s = .next (withResult (0, []) { s with load := { s.load with
      slots := twoMod s.load.slots h (fun x => { x with st := .checking }) } })) ∧
    (progSlotIn s .receiving = some h → exec (.programLoadEnd n) s = .next (withResult (0, []) { s with
      progLoad := { s.progLoad with slots := twoMod s.progLoad.slots h (fun x => { x with st := .checking }) } })) ∧
    (slotIn s .valid = some h → slotIn s .checking = none →
      exec (.activateData n) s = .next (withResult (0, []) { s with load := { s.load with
        slots := twoMod s.load.slots h (fun x => { x with st := .pending }) } })) ∧
    (slotIn s .valid = none → exec (.activateData n) s = .next (withResult (rFunction, [0x04#8, 0x02#8])
      { s with load := { s.load with code := 0x0402, detail := noElement } })) ∧
    (slotIn s .pending = some h → exec (.withdrawActivation n) s = .next (withResult (0, []) { s with load := { s.load with
      slots := twoMod s.load.slots h (fun x => { x with st := .valid }) } }))) ∧
  (∀ (s : State) (n : Nat), s.allows n .maintainer false → imagesRun s = true →
    (∃ t, exec (.loadAbandon n) s = .next t ∧ t.load.session = 0xFF ∧
      (∀ h, twoGet t.load.slots h = (if (twoGet s.load.slots h).st = .receiving ∨ (twoGet s.load.slots h).st = .checking
        then DataSlot.init else twoGet s.load.slots h)) ∧
      t = withResult (0, []) { s with load := { s.load with slots := t.load.slots, session := 0xFF } }) ∧
    (∃ t, exec (.programLoadAbandon n) s = .next t ∧ t.progLoad.session = 0xFF ∧
      (∀ h, twoGet t.progLoad.slots h = (if (twoGet s.progLoad.slots h).st = .receiving ∨ (twoGet s.progLoad.slots h).st = .checking
        then ProgSlot.init else twoGet s.progLoad.slots h)) ∧
      t = withResult (0, []) { s with progLoad := { s.progLoad with slots := t.progLoad.slots, session := 0xFF } })) ∧
  (∀ (s : State) (n : Nat) (d : List Byte), s.allows n .maintainer false → imagesRun s = false →
    ∀ c ∈ [Instr.loadOpen n, .loadWindow n d, .loadEnd n, .loadAbandon n, .activateData n, .withdrawActivation n,
      .programLoadOpen n, .programLoadWindow n d, .programLoadEnd n, .programLoadAbandon n],
      exec c s = .next (withResult (rModuleState, []) s))

/-- Verdicts on loads (R79, R80, R303), signing keys (R73 to R76): results, completion and frames. -/
def Obligations.VerdictsAndKeys : Prop :=
  (∀ (s : State) (h : Half) (x : DataSlot), slotIn s .checking = some h → twoGet s.load.slots h = x → lanesInVote s ≠ [] →
    (lanesInVote s).length ≤ 3 →
    ((stationVerdict s x.bytes x.size).code = 0 →
      ∃ t, exec (.loadChecked ⟨none, none, none⟩) s = .next t ∧ (twoGet t.load.slots h).st = .valid ∧
        (twoGet t.load.slots h).version = (readHead x.bytes).version ∧ (twoGet t.load.slots h).bytes = x.bytes ∧
        t.load.code = 0 ∧ t.load.session = 0xFF ∧ t.load.highest = (readHead x.bytes).version ∧ t.load.rollback = false ∧
        (s.load.site ≠ 0 → t.load.site = s.load.site) ∧
        twoGet t.load.slots (otherHalf h) = twoGet s.load.slots (otherHalf h) ∧ t = { s with load := t.load }) ∧
    ((stationVerdict s x.bytes x.size).code ≠ 0 →
      ∃ t, exec (.loadChecked ⟨none, none, none⟩) s = .next t ∧ t.raised 88 ∧
        reported { s with load := { s.load with
          slots := twoMod s.load.slots h (fun y => { y with st := .refused }),
          code := (stationVerdict s x.bytes x.size).code, detail := (stationVerdict s x.bytes x.size).detail, session := 0xFF } } t)) ∧
  (∀ (s : State) (h : Half) (x : ProgSlot), progSlotIn s .checking = some h → twoGet s.progLoad.slots h = x → lanesInVote s ≠ [] →
    (lanesInVote s).length ≤ 3 →
    ((progVerdict s x.bytes x.size).code = 0 →
      ∃ t, exec (.programLoadChecked ⟨none, none, none⟩) s = .next t ∧ (twoGet t.progLoad.slots h).st = .valid ∧
        (twoGet t.progLoad.slots h).parsed.isSome = (Config.parseProgram x.bytes x.size).isSome ∧ t.progLoad.code = 0 ∧
        t.progLoad.session = 0xFF ∧ twoGet t.progLoad.slots (otherHalf h) = twoGet s.progLoad.slots (otherHalf h) ∧
        t = { s with progLoad := t.progLoad }) ∧
    ((progVerdict s x.bytes x.size).code ≠ 0 →
      ∃ t, exec (.programLoadChecked ⟨none, none, none⟩) s = .next t ∧ t.raised 85 ∧
        reported { s with progLoad := { s.progLoad with
          slots := twoMod s.progLoad.slots h (fun y => { y with st := .refused }),
          code := (progVerdict s x.bytes x.size).code, detail := (progVerdict s x.bytes x.size).detail, session := 0xFF } } t)) ∧
  (∀ (s : State) (h : Half) (u v w : LoadVerdict), slotIn s .checking = some h → (lanesInVote s).length = 3 → u ≠ v → u ≠ w → v ≠ w →
    ∃ t, exec (.loadChecked ⟨some u, some v, some w⟩) s = .next t ∧ t.raised 88 ∧
      reported { s with load := { s.load with
        slots := twoMod s.load.slots h (fun y => { y with st := .refused }),
        code := 0x0401, detail := noElement, session := 0xFF } } t) ∧
  (∀ (s : State) (f : Three (Option LoadVerdict)), slotIn s .checking = none → exec (.loadChecked f) s = .next s) ∧
  (∀ (s : State) (f : Three (Option LoadVerdict)), progSlotIn s .checking = none → exec (.programLoadChecked f) s = .next s) ∧
  (∀ (l1 l2 l3 : Lane) (a b : LoadVerdict), a ≠ b →
    agreeVerdicts [(l1, a), (l2, a), (l3, b)] = (some a, some l3) ∧ agreeVerdicts [(l1, a), (l2, b), (l3, a)] = (some a, some l2) ∧
    agreeVerdicts [(l1, b), (l2, a), (l3, a)] = (some a, some l1) ∧ agreeVerdicts [(l1, a), (l2, b)] = (none, none) ∧
    agreeVerdicts [(l1, a), (l2, a), (l3, a)] = (some a, none)) ∧
  (∀ (s : State) (n : Nat) (key : List Byte) (c : Instr) (role : Nat), s.allows n .commissioner true → imagesRun s = true →
    key ≠ [] → fingerprint key ≠ 0 →
    (c = .registerComposeKey n key ∧ role = 1 ∨ c = .registerVerifyKey n key ∧ role = 2) →
    (keyIn s.load (3 - role) (fingerprint key) = true →
      ∃ t, exec c s = .next t ∧ t.dict.result = rFunction ∧ t.dict.value = [0x02#8, 0x02#8] ∧ t.load.keyOutcome = 0x0202 ∧
        reported { s with load := { s.load with keyWindow := [], keyOutcome := 0x0202 } } t) ∧
    (keyIn s.load (3 - role) (fingerprint key) = false → keyIn s.load role (fingerprint key) = false →
      (∀ i, (if role = 1 then s.load.compose else s.load.verify).findIdx? (fun x => x = 0) = some i →
        ∃ t, exec c s = .next t ∧ t.dict.result = 0 ∧ keyIn t.load role (fingerprint key) = true ∧
          reported { s with load := { s.load with
            compose := if role = 1 then s.load.compose.set i (fingerprint key) else s.load.compose,
            verify := if role = 1 then s.load.verify else s.load.verify.set i (fingerprint key),
            pubKeys := s.load.pubKeys ++ [(fingerprint key, key)], keyWindow := [], keyOutcome := 0 } } t) ∧
      ((if role = 1 then s.load.compose else s.load.verify).findIdx? (fun x => x = 0) = none →
        ∃ t, exec c s = .next t ∧ t.dict.result = rFunction ∧ t.load.keyOutcome = 0x0301 ∧
          reported { s with load := { s.load with keyWindow := [], keyOutcome := 0x0301 } } t))) ∧
  (∀ (s : State) (n : Nat) (d : List Byte), s.allows n .commissioner true → imagesRun s = true → d.length = 8 →
    (keyIn s.load 1 (ofBe d) = true ∨ keyIn s.load 2 (ofBe d) = true) →
    ∃ t, exec (.removeKey n d) s = .next t ∧ t.dict.result = 0 ∧ keyIn t.load 1 (ofBe d) = false ∧ keyIn t.load 2 (ofBe d) = false ∧
      (∀ f, f ≠ ofBe d → ∀ r, keyIn t.load r f = keyIn s.load r f) ∧
      reported { s with load := { s.load with
        compose := t.load.compose, verify := t.load.verify, pubKeys := t.load.pubKeys, keyWindow := [], keyOutcome := 0 } } t) ∧
  (∀ (s : State) (n : Nat) (key : List Byte), (sessOf s n).opened = true → (sessOf s n).level ≠ .commissioner →
    ∀ c ∈ [Instr.registerComposeKey n key, .registerVerifyKey n key, .removeKey n key],
      ∃ t, exec c s = .next t ∧ t.dict.result = rLevel ∧ t.load.keyOutcome = 0x0403 ∧
        reported { s with load := { s.load with keyWindow := [], keyOutcome := 0x0403 } } t)

/-- Input pairs (R421 to R425, R436) and RESET supervision (R435): results, completion and frames. -/
def Obligations.InputPairs : Prop :=
  (∀ (s : State) (h : Half) (n : Nat) (code : FCode), (twoGet s.halves h).inServ = true → 1 ≤ n → n ≤ 17 →
    (code = .pulseA ∨ code = .pulseB ∨ code = .foreign) →
    ∃ t, exec (.inputSupervisionFault h n code 0 0) s = .next t ∧ t.raised 39 ∧
      pairOf t h n = { pairOf s h n with
        fcode := if (pairOf s h n).fcode = .none then code else (pairOf s h n).fcode, cleanFrom := s.ns } ∧
      (∀ r, pairValue r (pairOf t h n) = (r.rval, true)) ∧ (∀ m, m ≠ n → pairOf t h m = pairOf s h m) ∧
      twoGet t.lio.pairs (otherHalf h) = twoGet s.lio.pairs (otherHalf h) ∧
      (n = 17 → t.lio.kfault = true ∧ t.lio.key = false) ∧ (n ≠ 17 → t.lio.kfault = s.lio.kfault ∧ t.lio.key = s.lio.key) ∧
      reported { s with lio := { s.lio with pairs := t.lio.pairs, kfault := t.lio.kfault, key := t.lio.key } } t) ∧
  (∀ (s : State) (h : Half) (tp cause : Nat), (twoGet s.halves h).inServ = true → 1 ≤ tp → tp ≤ 4 → 1 ≤ cause → cause ≤ 3 →
    ∃ t, exec (.inputSupervisionFault h 0 .supply tp cause) s = .next t ∧ t.raised 39 ∧
      (∀ n, n ∈ supplyPairs tp → (pairOf t h n).fcode = if (pairOf s h n).fcode = .none then .supply else (pairOf s h n).fcode) ∧
      (∀ n, n ∉ supplyPairs tp → pairOf t h n = pairOf s h n) ∧
      twoGet t.lio.pairs (otherHalf h) = twoGet s.lio.pairs (otherHalf h) ∧
      (tabGet t.lio.tps tp ⟨true, 0, 0⟩).cause = cause ∧ (3 ≤ tp → t.lio.kfault = true ∧ t.lio.key = false) ∧
      reported { s with lio := { s.lio with
        pairs := t.lio.pairs, tps := t.lio.tps, kfault := t.lio.kfault, key := t.lio.key } } t) ∧
  (∀ (s : State) (h : Half) (n : Nat) (r : PairRec) (t0 : Nat), (twoGet s.halves h).inServ = true → pairRec s.cfg n = some r →
    (pairOf s h n).discFrom = some t0 → (pairOf s h n).fcode = .none →
    (t0 + r.discMs * 1000000 < s.ns →
      ∃ t, exec (.discrepancy h n) s = .next t ∧ t.raised 39 ∧ pairOf t h n = { pairOf s h n with fcode := .discrepancy, cleanFrom := s.ns } ∧
        (∀ m, m ≠ n → pairOf t h m = pairOf s h m) ∧ twoGet t.lio.pairs (otherHalf h) = twoGet s.lio.pairs (otherHalf h) ∧
        reported { s with lio := { s.lio with pairs := t.lio.pairs, kfault := t.lio.kfault, key := t.lio.key } } t) ∧
    (s.ns ≤ t0 + r.discMs * 1000000 → exec (.discrepancy h n) s = .next s)) ∧
  (∀ (s : State) (h : Half) (n : Nat) (r : PairRec), (twoGet s.halves h).inServ = true → pairRec s.cfg n = some r →
    (pairOf s h n).chat = false →
    ((pairFilter s.cfg r).limit < changesNow s (pairFilter s.cfg r) (pairOf s h n) →
      ∃ t, exec (.chattering h n) s = .next t ∧ t.raised 39 ∧ pairOf t h n = { pairOf s h n with chat := true, filtered := r.rval } ∧
        (∀ m, m ≠ n → pairOf t h m = pairOf s h m) ∧ twoGet t.lio.pairs (otherHalf h) = twoGet s.lio.pairs (otherHalf h) ∧
        reported { s with lio := { s.lio with pairs := t.lio.pairs } } t) ∧
    (changesNow s (pairFilter s.cfg r) (pairOf s h n) ≤ (pairFilter s.cfg r).limit → exec (.chattering h n) s = .next s)) ∧
  (∀ (s : State) (n mask : Nat), s.allows n .maintainer false →
    ∃ t, exec (.acknowledgePairs n mask) s = .next t ∧
      (∀ h i, i < 16 → pairOf t h (i + 1) =
        (if bit mask i = true ∧ (pairOf s h (i + 1)).cleanFrom + 16000000 ≤ s.ns ∧ (pairOf s h (i + 1)).discFrom = none
          then { pairOf s h (i + 1) with fcode := .none } else pairOf s h (i + 1))) ∧
      (∀ h m, (m = 0 ∨ 16 < m) → pairOf t h m = pairOf s h m) ∧
      t = withResult (0, []) { s with lio := { s.lio with pairs := t.lio.pairs } }) ∧
  (∀ (s : State) (n : Nat), s.allows n .maintainer false →
    ∃ t, exec (.acknowledgeKey n) s = .next t ∧
      ((∀ h, (pairOf s h 17).cleanFrom + 16000000 ≤ s.ns ∧ (pairOf s h 17).discFrom = none) →
        t.lio.kfault = false ∧ ∀ h, (pairOf t h 17).fcode = .none) ∧
      (∀ h, (pairOf s h 17).fcode ≠ .none → s.ns < (pairOf s h 17).cleanFrom + 16000000 →
        (pairOf t h 17).fcode = (pairOf s h 17).fcode ∧ t.lio.kfault = s.lio.kfault) ∧
      (∀ h m, m ≠ 17 → pairOf t h m = pairOf s h m) ∧
      t = withResult (0, []) { s with lio := { s.lio with pairs := t.lio.pairs, kfault := t.lio.kfault } }) ∧
  (∀ s : State, s.lio.resetLevel = true → s.lio.rstuck = false →
    (s.lio.resetSince + 10000000000 < s.ns →
      ∃ t, exec .resetStuck s = .next t ∧ t.raised 39 ∧ reported { s with lio := { s.lio with rstuck := true } } t) ∧
    (s.ns ≤ s.lio.resetSince + 10000000000 → exec .resetStuck s = .next s)) ∧
  (∀ s : State, s.lio.resetLevel = false →
    (s.lio.resetSince + 1000000000 ≤ s.ns → exec .rstuckClear s = .next { s with lio := { s.lio with rstuck := false } }) ∧
    (s.ns < s.lio.resetSince + 1000000000 → exec .rstuckClear s = .next s))

/-- Vital outputs (R428 to R431): results, completion and frames. -/
def Obligations.VitalOutputFaults : Prop :=
  (∀ (s : State) (n : Nat) (c : Instr) (code : OCode), 1 ≤ n → n ≤ 16 →
    (c = .overcurrent n ∧ (voOf s n).on = true ∧ code = .overcurrent ∨ c = .stuckOn n ∧ (voOf s n).on = false ∧ code = .stuckOn ∨
      (∃ mu ou ml ol, c = .switchTest n mu ou ml ol ∧ (voOf s n).on = false ∧ (voOf s n).lastTest + 2000000000 ≤ s.ns ∧
        ((ou || ml || ol) = true ∧ code = .stuckOn ∨ mu = false ∧ (ou || ml || ol) = false ∧ code = .stuckOff)) ∨
      (c = .darkTest n false ∧ (voOf s n).on = true ∧ (∀ o, outRec s.cfg n = some o → o.dark = true) ∧
        (voOf s n).lastDark + 60000000000 ≤ s.ns ∧ code = .darkTest)) →
    ∃ t, exec c s = .next t ∧
      (voOf t n).ocode = (if (voOf s n).ocode = .none then code else (voOf s n).ocode) ∧ (voOf t n).passed = 0 ∧
      ((voOf s n).ocode = .none → t.raised 39) ∧
      (∀ m ∈ groupOf s.cfg n, (voOf t m).on = false ∧ (voOf t m).mid = false) ∧
      (∀ m, m ∉ groupOf s.cfg n → m ≠ n → voOf t m = voOf s m) ∧
      reported { s with lio := { s.lio with vos := t.lio.vos } } t) ∧
  (∀ (s : State) (n : Nat), 1 ≤ n → n ≤ 16 →
    ((voOf s n).on = true → ∃ t, exec (.overcurrent n) s = .next t ∧ (voOf t n).ocode ≠ .none) ∧
    ((voOf s n).on = false → ∃ t, exec (.stuckOn n) s = .next t ∧ (voOf t n).ocode ≠ .none) ∧
    ((voOf s n).on = false → (voOf s n).lastTest + 2000000000 ≤ s.ns →
      ∃ t, exec (.switchTest n true false false false) s = .next t ∧
        voOf t n = { voOf s n with lastTest := s.ns, passed := (voOf s n).passed + 1 } ∧ (∀ m, m ≠ n → voOf t m = voOf s m) ∧
        t = { s with lio := { s.lio with vos := t.lio.vos } }) ∧
    ((voOf s n).on = true → (∀ o, outRec s.cfg n = some o → o.dark = true) → (voOf s n).lastDark + 60000000000 ≤ s.ns →
      ∃ t, exec (.darkTest n true) s = .next t ∧ voOf t n = { voOf s n with lastDark := s.ns } ∧ (∀ m, m ≠ n → voOf t m = voOf s m) ∧
        t = { s with lio := { s.lio with vos := t.lio.vos } }) ∧
    (∀ o, outRec s.cfg n = some o → o.dark = false → ∀ low, exec (.darkTest n low) s = .next s)) ∧
  (∀ (s : State) (n mask : Nat), s.allows n .maintainer false →
    ∃ t, exec (.acknowledgeOutputs n mask) s = .next t ∧
      (∀ i, i < 16 → voOf t (i + 1) = (if bit mask i = true ∧ 3 ≤ (voOf s (i + 1)).passed
        then { voOf s (i + 1) with ocode := .none } else voOf s (i + 1))) ∧
      t = withResult (0, []) { s with lio := { s.lio with vos := t.lio.vos } }) ∧
  (∀ (s : State) (n m : Nat), m ∈ groupOf s.cfg n → (voOf s m).ocode ≠ .none → driveOn s n = false) ∧
  (∀ (s : State) (n m k : Nat) (o : LocalOutRec) (pos : Nat), outRec s.cfg n = some o → o.kind = .drive pos → m ∈ groupOf s.cfg n →
    k ∈ groupOf s.cfg n → m ≠ k → localCmd s m = true → localCmd s k = true → driveOn s n = false) ∧
  (∀ (s : State) (n : Nat), (s.lio.locals = none ∨ commands s = false ∨ localPermit s n = false) → driveOn s n = false)

/-- Module time (R443 to R451, R456, R460, R468, R469): results, completion and frames. -/
def Obligations.TimeCorrections : Prop :=
  (∀ (s : State) (n : Nat) (o : Int), s.allows n .maintainer false →
    (o.natAbs ≤ s.time.jump * 65536 →
      ∃ t, exec (.offsetIncrement n o) s = .next t ∧ t.dict.result = 0 ∧
        (∀ h, halfReading (twoGet t.time.halves h) = halfReading (twoGet s.time.halves h) + o) ∧
        t = withResult (0, []) { s with time := { s.time with
          halves := twoMap s.time.halves (fun _ c => { c with o := c.o + o }), outcome := 0 } }) ∧
    (s.time.jump * 65536 < o.natAbs →
      ∃ t, exec (.offsetIncrement n o) s = .next t ∧ t.raised 48 ∧ t.dict.result = rFunction ∧ t.dict.value = [0x70#8, 0x01#8] ∧
        reported { s with time := { s.time with outcome := 0x7001, tjr := true, refused := o / 65536, servo := .holdover } } t)) ∧
  (∀ (s : State) (n : Nat) (r : Int), s.allows n .maintainer false →
    (r.natAbs ≤ 10000 * 65536 → (rateNow s + r).natAbs ≤ 200000 * 65536 →
      ∃ t, exec (.rateIncrement n r) s = .next t ∧ t.dict.result = 0 ∧
        (∀ h, halfReading (twoGet t.time.halves h) = halfReading (twoGet s.time.halves h) ∧
          (twoGet t.time.halves h).r = (twoGet s.time.halves h).r + r) ∧
        t = withResult (0, []) { s with time := { s.time with halves := t.time.halves, outcome := 0 } }) ∧
    ((10000 * 65536 < r.natAbs ∨ 200000 * 65536 < (rateNow s + r).natAbs) →
      exec (.rateIncrement n r) s = .next (withResult (rFunction, [0x70#8, 0x02#8]) { s with time := { s.time with outcome := 0x7002 } }))) ∧
  (∀ (s : State) (n : Nat) (ns : Int), s.allows n .maintainer false →
    (ns ≠ 0 → ∃ t, exec (.timeStep n ns) s = .next t ∧ t.raised 49 ∧ t.time.tjr = false ∧ t.dict.result = 0 ∧
      (∀ h, halfReading (twoGet t.time.halves h) = halfReading (twoGet s.time.halves h) + ns * 65536) ∧
      (∀ c ∈ t.time.due, c ∈ s.time.due ∧ ∀ o, c ≠ .servoOffset o) ∧ (∀ r, .servoRate r ∈ s.time.due → .servoRate r ∈ t.time.due) ∧
      reported { s with time := { s.time with halves := t.time.halves, due := t.time.due, tjr := false, outcome := 0 } } t) ∧
    exec (.timeStep n 0) s = .next (withResult (0, []) { s with time := { s.time with tjr := false, outcome := 0 } }) ∧
    exec (.acknowledgeRefusal n) s = .next (withResult (0, []) { s with time := { s.time with tjr := false } })) ∧
  (∀ s : State, s.time.leapAnn ≠ 0 →
    ((((s.time.leapDay : Int) + 1) * 86400 - (if s.time.leapAnn < 0 then 1 else 0)) * 1000000000 ≤ utcNs s →
      ∃ t, exec .leapSecond s = .next t ∧ t.raised 53 ∧ t.time.leap = s.time.leap + s.time.leapAnn ∧ t.time.leapAnn = 0 ∧
        t.time.halves = s.time.halves ∧
        reported { s with time := { s.time with
          leap := t.time.leap, leapAnn := 0, leapV := true, leapDay := t.time.leapDay } } t) ∧
    (utcNs s < (((s.time.leapDay : Int) + 1) * 86400 - (if s.time.leapAnn < 0 then 1 else 0)) * 1000000000 →
      exec .leapSecond s = .next s)) ∧
  (∀ s : State, (s.time.src = 2 → s.time.servo ≠ .freeRun →
      ∃ t, exec .timeSourceLost s = .next t ∧ t.raised 51 ∧
        reported { s with time := { s.time with servo := .holdover, src := 0, meas := [], goodRun := 0 } } t) ∧
    (s.time.src ≠ 2 → exec .timeSourceLost s = .next s)) ∧
  (∀ (s : State) (f : TimedFrame) (l : List TimedFrame), s.time.timed = f :: l →
    (f.launch + 1000 * 65536 < moduleTime s →
      ∃ t, exec .timedFrameLate s = .next t ∧ t.raised 55 ∧ t.time.timed = l ∧ t.time.missed = min 0xFFFFFFFF (s.time.missed + 1) ∧
        reported { s with time := { s.time with timed := l, missed := t.time.missed, ptp := t.time.ptp } } t) ∧
    (moduleTime s ≤ f.launch + 1000 * 65536 → exec .timedFrameLate s = .next s)) ∧
  (∀ (s : State) (h : Half) (slot port : Nat),
    (chanUp s h = true →
      ∃ t, exec (.launchMissed h slot port) s = .next t ∧ t.raised 55 ∧ t.time.missed = min 0xFFFFFFFF (s.time.missed + 1) ∧
        (slot = 0 → (twoGet t.tx h).sync = none) ∧ (slot = 9 → tabFind (twoGet t.tx h).cmds port = none) ∧
        (slot = 10 → tabFind (twoGet t.tx h).permits port = none) ∧ (slot = 11 → ∀ a ∈ (twoGet t.tx h).acks, a.1 ≠ port + 1) ∧
        (slot ≠ 0 → slot ≠ 9 → slot ≠ 10 → slot ≠ 11 → ∀ x ∈ (twoGet t.tx h).tables, x.1 ≠ port) ∧
        (∀ p, p ≠ port → tabFind (twoGet t.tx h).cmds p = tabFind (twoGet s.tx h).cmds p ∧
          tabFind (twoGet t.tx h).permits p = tabFind (twoGet s.tx h).permits p) ∧
        twoGet t.tx (otherHalf h) = twoGet s.tx (otherHalf h) ∧
        reported { s with tx := t.tx, time := { s.time with missed := t.time.missed } } t) ∧
    (chanUp s h = false → exec (.launchMissed h slot port) s = .next s))

/-- PTP (R455 to R459): results, completion and frames. -/
def Obligations.PtpSlave : Prop :=
  (∀ (s : State) (domain : Nat) (m : Master),
    (domain ≠ s.time.ptp.domain → exec (.announceMsg domain m) s = .next s) ∧
    (domain = s.time.ptp.domain →
      ∃ t, exec (.announceMsg domain m) s = .next t ∧
        t.time.ptp.masters = s.time.ptp.masters.filter (fun x => x.sender ≠ m.sender) ++ [{ m with heard := s.ns }] ∧
        t.time.ptp.current = (bestMaster t.time.ptp.masters).map (·.sender) ∧
        (s.time.ptp.masters = [] → t.time.ptp.current = some m.sender) ∧
        (∀ x, s.time.ptp.masters = [x] → x.sender ≠ m.sender →
          t.time.ptp.current = some (if betterMaster m x then m.sender else x.sender)) ∧
        t.time.halves = s.time.halves ∧ t.time.ptp.pathDelay = s.time.ptp.pathDelay ∧ told s t ∧
        t = { s with time := t.time, ev := t.ev, dict := t.dict })) ∧
  (∀ (s : State) (sender : Nat) (m : Master), s.time.ptp.masters.find? (fun x => x.sender = sender) = some m →
    (m.heard + s.time.ptp.timeout * m.interval ≤ s.ns →
      ∃ t, exec (.announceTimeout sender) s = .next t ∧
        t.time.ptp.masters = s.time.ptp.masters.filter (fun x => x.sender ≠ sender) ∧
        t.time.ptp.current = (bestMaster t.time.ptp.masters).map (·.sender) ∧
        (t.time.ptp.masters = [] → s.time.src = 1 → t.raised 51 ∧ t.time.servo = .holdover ∧ t.time.src = 0) ∧
        t.time.halves = s.time.halves ∧ told s t ∧ t = { s with time := t.time, ev := t.ev, dict := t.dict }) ∧
    (s.ns < m.heard + s.time.ptp.timeout * m.interval → exec (.announceTimeout sender) s = .next s)) ∧
  (∀ (s : State) (c : Master) (m : PtpMsg) (dt : Nat), currentMaster s = some c →
    (m.domain = s.time.ptp.domain → m.sender = c.sender → c.timescale = true → -7 ≤ m.logInt → m.logInt ≤ 1 → m.twoStep = false →
      ptpUsed s = true →
      ∃ t, exec (.ptpSync m dt) s = .next t ∧ t.time.ptp.lastSync = some (m.origin, timeAfter s dt) ∧ t.time.ptp.awaiting = none ∧
        t.time.lastOffset = timeAfter s dt - m.origin - s.time.ptp.pathDelay * 65536 ∧ t.time.src = 1 ∧
        t.time.halves = s.time.halves ∧ told s t ∧ t = { s with time := t.time, free := t.free, ev := t.ev, dict := t.dict }) ∧
    (m.domain = s.time.ptp.domain → m.sender = c.sender → c.timescale = true → -7 ≤ m.logInt → m.logInt ≤ 1 → m.twoStep = true →
      ∃ t, exec (.ptpSync m dt) s = .next t ∧ t.time.ptp.awaiting = some (m.seq, timeAfter s dt) ∧
        t.time.lastOffset = s.time.lastOffset ∧ t.time.due = s.time.due ∧ t.time.halves = s.time.halves ∧ told s t ∧
        t = { s with time := t.time, ev := t.ev, dict := t.dict }) ∧
    (m.domain = s.time.ptp.domain → m.sender = c.sender → (c.timescale = false ∨ m.logInt < -7 ∨ 1 < m.logInt) →
      exec (.ptpSync m dt) s = .next { s with time := { s.time with
        ptp := { s.time.ptp with discarded := min 0xFFFFFFFF (s.time.ptp.discarded + 1) } } }) ∧
    (m.domain ≠ s.time.ptp.domain ∨ m.sender ≠ c.sender → exec (.ptpSync m dt) s = .next s) ∧
    (∀ rx, s.time.ptp.awaiting = some (m.seq, rx) → m.domain = s.time.ptp.domain → m.sender = c.sender → ptpUsed s = true →
      ∃ t, exec (.followUp m) s = .next t ∧ t.time.ptp.lastSync = some (m.origin, rx) ∧ t.time.ptp.awaiting = none ∧
        t.time.lastOffset = rx - m.origin - s.time.ptp.pathDelay * 65536 ∧ t.time.src = 1 ∧ t.time.halves = s.time.halves ∧
        told s t ∧ t = { s with time := t.time, free := t.free, ev := t.ev, dict := t.dict }) ∧
    (s.time.ptp.awaiting = none → exec (.followUp m) s = .next s)) ∧
  (∀ (s : State) (c : Master) (launch : Int), currentMaster s = some c →
    ((s.time.ptp.lastReq = 0 ∨ s.time.ptp.lastReq + c.delayInt ≤ s.ns) → launch ≤ moduleTime s + 1000000000 * 65536 →
      s.time.timed.length < 8 →
      ∃ t, exec (.ptpDelayReq launch) s = .next t ∧ t.time.ptp.delaySeq = (s.time.ptp.delaySeq + 1) % 65536 ∧
        t.time.ptp.delayReq = some ((s.time.ptp.delaySeq + 1) % 65536, launch) ∧ t.time.ptp.lastReq = s.ns ∧
        ⟨launch, (s.time.ptp.delaySeq + 1) % 65536⟩ ∈ t.time.timed ∧ t.time.timed.length = s.time.timed.length + 1 ∧
        (∀ f ∈ s.time.timed, f ∈ t.time.timed) ∧ told s t ∧ t = { s with time := t.time, ev := t.ev, dict := t.dict }) ∧
    (s.time.ptp.lastReq ≠ 0 → s.ns < s.time.ptp.lastReq + c.delayInt → exec (.ptpDelayReq launch) s = .next s) ∧
    (8 ≤ s.time.timed.length → exec (.ptpDelayReq launch) s = .next s)) ∧
  (∀ (s : State) (c : Master) (seq : Nat) (launch o rx received : Int), currentMaster s = some c →
    s.time.ptp.delayReq = some (seq, launch) → s.time.ptp.lastSync = some (o, rx) →
    exec (.ptpDelayResp c.sender seq received) s = .next { s with time := { s.time with
      ptp := { s.time.ptp with pathDelay := ((rx - o + (received - launch)) / 2 / 65536).toNat, delayReq := none } } } ∧
    (∀ q, q ≠ seq → exec (.ptpDelayResp c.sender q received) s = .next s))

/-- Cascade envelopes (R263, R474, R479, R496, R511, R514): results, completion and frames. -/
def Obligations.CascadeEnvelopes : Prop :=
  (∀ (s : State) (f : CascFrame), ∀ c ∈ [Instr.cascadeEnvelope f, .anchorMsg f, .reserveMsg f, .reserveReply f, .clearAhead f,
      .benchmarkEnvelope f],
    (dueOf s f 1 = .discard → exec c s = .next s) ∧
    (dueOf s f 1 = .forward → 2 ≤ f.hops → (if otherSide f.side = 1 then s.casc.bl1 else s.casc.bl2) = true →
      exec c s = .next { s with casc := { s.casc with forwarded := [(otherSide f.side, { f with hops := f.hops - 1 })] } }) ∧
    (dueOf s f 1 = .forward → (f.hops ≤ 1 ∨ (if otherSide f.side = 1 then s.casc.bl1 else s.casc.bl2) = false) →
      exec c s = .next s) ∧
    (dueOf s f 1 = .mine → readEnvelope f.body = none →
      exec c s = .next { s with casc := { s.casc with refused := min 0xFFFFFFFF (s.casc.refused + 1) } })) ∧
  (∀ (s : State) (f : CascFrame) (e : Envelope), dueOf s f 1 = .mine → readEnvelope f.body = some e →
    (e.kind ≠ 0x95 → exec (.clearAhead f) s = .next s) ∧ (e.kind ≠ 0x92 → exec (.reserveMsg f) s = .next s) ∧
    (e.kind ≠ 0x93 → exec (.reserveReply f) s = .next s) ∧ (e.kind ≠ 0x94 → exec (.anchorMsg f) s = .next s) ∧
    (e.kind ≠ 0x91 → exec (.benchmarkEnvelope f) s = .next s)) ∧
  (∀ (s : State) (p : Nat) (e : Envelope), connMatch s e = none →
    takeEnvelope p e s = ({ s with casc := { s.casc with refused := min 0xFFFFFFFF (s.casc.refused + 1) } }, none)) ∧
  (∀ (s u : State) (p : Nat) (e : Envelope) (k : Nat × Nat × Nat), takeEnvelope p e s = (u, some k) →
    connMatch s e = some k ∧ payloadOk e = true ∧ (∃ c, findConn u k.1 k.2.1 k.2.2 = some c ∧ c.lastSeq = some e.seq ∧
      (∀ d, findConn s k.1 k.2.1 k.2.2 = some d → ∀ l, d.lastSeq = some l → newerSeq e.seq l = true ∨
        (carriesStart e = true ∧ d.startCount < field e.payload 0 4))) ∧
    (∀ k', k' ≠ k → findConn u k'.1 k'.2.1 k'.2.2 = findConn s k'.1 k'.2.1 k'.2.2) ∧ u.casc.refused = s.casc.refused ∧
    told s u ∧ u = { s with casc := { s.casc with conns := u.casc.conns, paths := u.casc.paths }, ev := u.ev, dict := u.dict }) ∧
  (∀ (s u : State) (f : CascFrame) (e : Envelope) (k : Nat × Nat × Nat), dueOf s f 1 = .mine → readEnvelope f.body = some e →
    takeEnvelope f.path e s = (u, some k) →
    (e.kind = 0x95 → ∃ t, exec (.clearAhead f) s = .next t ∧ exec (.cascadeEnvelope f) s = .next t ∧
      (∀ i, i < field e.payload 8 2 →
        ⟨field e.payload (12 + 4 * i) 2, k.2.1, k.2.2, e.stamp, bit (field e.payload (12 + 4 * i + 2) 1) 0⟩ ∈ t.casc.clearIn) ∧
      (∀ x ∈ u.casc.clearIn, (x.peer ≠ k.2.1 ∨ x.num ≠ k.2.2) → x ∈ t.casc.clearIn) ∧
      t = { u with casc := { u.casc with clearIn := t.casc.clearIn } }) ∧
    (e.kind = 0x92 → ∃ t q, exec (.reserveMsg f) s = .next t ∧ exec (.cascadeEnvelope f) s = .next t ∧
      q.cls = (if field e.payload 2 1 = 1 then 2 else 1) ∧ q.target = (if field e.payload 2 1 = 3 then 0xFFFF else field e.payload 0 2) ∧
      q.tag = k.2.1 * 2 ^ 20 + field e.payload 4 2 ∧ q.port = 1 ∧ q.epoch = e.epoch ∧ q.hold = false ∧
      ((tabGet u.queues 1 []).length < 64 → tabGet t.queues 1 [] = tabGet u.queues 1 [] ++ [q]) ∧
      (64 ≤ (tabGet u.queues 1 []).length → t.queues = u.queues) ∧ (∀ p, p ≠ 1 → tabGet t.queues p [] = tabGet u.queues p []) ∧
      told u t ∧ t = { u with queues := t.queues, time := { u.time with ingress := t.time.ingress }, dict := t.dict }) ∧
    (e.kind = 0x93 → field e.payload 6 2 = s.pair.epoch →
      ∃ t, exec (.reserveReply f) s = .next t ∧ exec (.cascadeEnvelope f) s = .next t ∧
        t = { u with casc := { u.casc with
          replies := u.casc.replies ++ [(field e.payload 4 2, decide (field e.payload 2 1 = 1))] } }) ∧
    (e.kind = 0x93 → field e.payload 6 2 ≠ s.pair.epoch →
      ∃ t, exec (.reserveReply f) s = .next t ∧ exec (.cascadeEnvelope f) s = .next t ∧ t.raised 63 ∧ reported u t) ∧
    (e.kind = 0x94 → k.2.1 ≠ s.pair.partnerAddr → exec (.anchorMsg f) s = .next u ∧ exec (.cascadeEnvelope f) s = .next u) ∧
    (e.kind = 0x94 → k.2.1 = s.pair.partnerAddr →
      ∃ t, exec (.anchorMsg f) s = .next t ∧ exec (.cascadeEnvelope f) s = .next t ∧
        t.pair.partner = { u.pair.partner with
          namesUs := decide (field e.payload 10 2 = s.dict.modAddr), pref := decide (field e.payload 12 1 = 1) } ∧
        t.pair.epoch = u.pair.epoch ∧ told u t ∧ t = { u with pair := t.pair, ev := t.ev, dict := t.dict }) ∧
    (e.kind = 0x91 → ∀ d, k.2.1 = s.pair.partnerAddr → ownBenchmark s (field e.payload 0 4) = some d → s.pair.role = .standby →
      s.pair.resync = false →
      ∃ t, exec (.benchmarkEnvelope f) s = .next t ∧ exec (.cascadeEnvelope f) s = .next t ∧
        (d ≠ e.payload.drop 4 → t.pair.nr4 = true ∧ told u t ∧ t = { u with pair := t.pair, ev := t.ev, dict := t.dict }) ∧
        (d = e.payload.drop 4 → t = u)))

/-- Cascade paths (R481, R485), anchors (R476, R478), reference pairs (R482): results, completion and frames. -/
def Obligations.CascadePathsAndAnchors : Prop :=
  (∀ (s : State) (n : Nat), 1 ≤ n → n ≤ 3 → (pathSt s n).fault = false →
    ((pathSt s n).lastAt + 1000000000 ≤ s.ns →
      (∃ m, 1 ≤ m ∧ m ≤ 3 ∧ m ≠ n ∧ ∃ x ∈ (pathSt s m).copies, s.ns < x + 1000000000) →
      ∃ t, exec (.pathFault n) s = .next t ∧ t.raised 61 ∧ pathSt t n = { pathSt s n with fault := true } ∧
        (∀ m, 1 ≤ m → m ≤ 3 → m ≠ n → pathSt t m = pathSt s m) ∧ told s t ∧
        t = { s with casc := { s.casc with paths := t.casc.paths }, ev := t.ev, dict := t.dict }) ∧
    (s.ns < (pathSt s n).lastAt + 1000000000 → exec (.pathFault n) s = .next s)) ∧
  (∀ (s : State) (side pos : Nat) (addrs : List Nat) (ring : Bool), 1 ≤ side → side ≤ 2 → addrs.length ≤ 8 → pos < addrs.length →
    ∃ t, exec (.boardLinkUp side pos addrs ring) s = .next t ∧ t.casc.bl1 = (s.casc.bl1 || side = 1) ∧
      t.casc.bl2 = (s.casc.bl2 || side = 2) ∧ t.casc.ring = ring ∧ t.casc.pos = pos ∧ t.casc.nmod = addrs.length ∧
      t.casc.blAddrs = addrs ∧ pathSt t 3 = { pathSt s 3 with link := true, fault := false } ∧
      ((pathSt s 3).fault = true → t.raised 61) ∧ ((pathSt s 3).fault = false → t.ev = s.ev) ∧ told s t ∧
      t = { s with casc := { s.casc with
        bl1 := t.casc.bl1, bl2 := t.casc.bl2, ring := ring, pos := pos, nmod := t.casc.nmod, blAddrs := addrs,
        paths := { s.casc.paths with c := t.casc.paths.c } }, ev := t.ev, dict := t.dict }) ∧
  (∀ (s : State) (d1 d2 : Bool) (pos : Nat) (addrs : List Nat),
    ((s.casc.bl1 || s.casc.bl2) = true →
      ∃ t, exec (.boardLinkBreak d1 d2 pos addrs) s = .next t ∧ t.raised 61 ∧ t.casc.bl1 = (s.casc.bl1 && !d1) ∧
        t.casc.bl2 = (s.casc.bl2 && !d2) ∧ t.casc.ring = false ∧ (pathSt t 3).link = (t.casc.bl1 || t.casc.bl2) ∧
        (pathSt t 3).fault = !(t.casc.bl1 || t.casc.bl2) ∧ pathSt t 1 = pathSt s 1 ∧ pathSt t 2 = pathSt s 2 ∧ told s t ∧
        t = { s with casc := { s.casc with
          bl1 := t.casc.bl1, bl2 := t.casc.bl2, ring := false, pos := t.casc.pos, nmod := t.casc.nmod,
          blAddrs := t.casc.blAddrs, paths := t.casc.paths }, ev := t.ev, dict := t.dict }) ∧
    ((s.casc.bl1 || s.casc.bl2) = false → exec (.boardLinkBreak d1 d2 pos addrs) s = .next s)) ∧
  (∀ (s : State) (peer num : Nat) (b : CascBlock × Nat), cascNow s = some b →
    ((producedConns s).contains (peer, num) = true →
      ∃ t e, exec (.anchorSend peer num) s = .next t ∧ t.casc.sent = s.casc.sent ++ [(peer, e)] ∧ e.kind = 0x94 ∧
        e.seq = (nextSeq 6 peer num s).1 ∧ e.stamp = s.bus.counter % 2 ^ 32 ∧ e.epoch = s.pair.epoch ∧ e.pair = b.2 ∧
        e.payload = anchorPayload s (!s.casc.anchored.contains (peer, num)) ∧
        t.casc.anchored.contains (peer, num) = true ∧ (peer, num, s.bus.counter) ∈ t.casc.anchorAt ∧ told s t ∧
        t = { s with
          casc := { s.casc with sent := t.casc.sent, txSeq := t.casc.txSeq, anchored := t.casc.anchored, anchorAt := t.casc.anchorAt },
          time := { s.time with stamps := t.time.stamps }, ev := t.ev, dict := t.dict }) ∧
    ((producedConns s).contains (peer, num) = false → exec (.anchorSend peer num) s = .next s)) ∧
  (∀ (s : State) (kind peer num : Nat) (c : ConnSt), findConn s kind peer num = some c →
    (c.refAt + 1024 ≤ s.bus.counter →
      ∃ t, exec (.referencePairUpdate kind peer num) s = .next t ∧
        findConn t kind peer num = some { c with
          ref := (match c.best with | some b => some b | none => c.ref), best := none, refAt := s.bus.counter } ∧
        (∀ k p n, ¬(k = kind ∧ p = peer ∧ n = num) → findConn t k p n = findConn s k p n) ∧
        t = { s with casc := { s.casc with conns := t.casc.conns } }) ∧
    (s.bus.counter < c.refAt + 1024 → exec (.referencePairUpdate kind peer num) s = .next s))

/-- The bridge (R522 to R528): results, completion and frames. -/
def Obligations.BridgeTransactions : Prop :=
  (∀ (s : State) (i w o n : Nat) (tgt : Nat) (d : List Byte),
    (s.bridge.out.find? (sameRead i tgt w o n) = none →
      (rangeOk o n = false → exec (.readReq (.ask i tgt w o n d)) s =
        .next { s with bridge := { s.bridge with answered := 0x8003, ansData := [] } }) ∧
      (rangeOk o n = true → bridgePath s tgt = none → exec (.readReq (.ask i tgt w o n d)) s =
        .next { s with bridge := { s.bridge with answered := 0x8005, ansData := [] } }) ∧
      (∀ p, rangeOk o n = true → bridgePath s tgt = some p → s.bridge.out.length < 256 →
        ∃ t x, exec (.readReq (.ask i tgt w o n d)) s = .next t ∧ t.bridge.answered = 1 ∧ t.bridge.out = s.bridge.out ++ [x] ∧
          x.t = ⟨1, freeTag s, i, w, o, n, 0, s.pair.epoch, [], tgt⟩ ∧ x.path = p ∧ x.sentNs = s.ns ∧ x.arrived = none ∧
          reported { s with bridge := { s.bridge with answered := 1, ansData := [], out := t.bridge.out } } t)) ∧
    (∀ x, s.bridge.out.find? (sameRead i tgt w o n) = some x →
      (∀ v, x.arrived = some v → exec (.readReq (.ask i tgt w o n d)) s = .next { s with bridge := { s.bridge with
        answered := 2, ansData := v, out := s.bridge.out.filter (fun y => y.t.tag ≠ x.t.tag) } }) ∧
      (∀ c, x.arrived = none → x.error = some c → exec (.readReq (.ask i tgt w o n d)) s = .next { s with bridge := { s.bridge with
        answered := c, ansData := [], out := s.bridge.out.filter (fun y => y.t.tag ≠ x.t.tag) } }) ∧
      (x.arrived = none → x.error = none → ∃ t, exec (.readReq (.ask i tgt w o n d)) s = .next t ∧ t.bridge.answered = 1 ∧
        t.bridge.out.length = s.bridge.out.length ∧ t = { s with bridge := { s.bridge with
          answered := 1, ansData := [], out := t.bridge.out } }))) ∧
  (∀ (s : State) (i w o n : Nat) (tgt : Nat) (d : List Byte), s.bridge.out.length < 256 →
    (∀ p, rangeOk o d.length = true → bridgePath s tgt = some p →
      ∃ t x, exec (.bridgeWrite (.ask i tgt w o n d)) s = .next t ∧ t.bridge.answered = 0 ∧ t.bridge.out = s.bridge.out ++ [x] ∧
        x.t = ⟨3, freeTag s, i, w, o, d.length, 0, s.pair.epoch, d, tgt⟩ ∧ x.path = p ∧ x.sentNs = s.ns ∧
        reported { s with bridge := { s.bridge with answered := 0, ansData := [], out := t.bridge.out } } t) ∧
    (∀ c, (rangeOk o d.length = false ∧ c = 0x8003 ∨ rangeOk o d.length = true ∧ bridgePath s tgt = none ∧ c = 0x8005) →
      s.bridge.failures.length < 64 →
      ∃ t, exec (.bridgeWrite (.ask i tgt w o n d)) s = .next t ∧ t.raised 72 ∧ t.bridge.answered = 0 ∧
        t.bridge.failures = s.bridge.failures ++ [⟨tgt, w, 0, o, d.length, i, 3, c, s.imageNo⟩] ∧
        reported { s with bridge := { s.bridge with answered := 0, ansData := [], failures := t.bridge.failures } } t)) ∧
  (∀ (s : State) (f : CascFrame) (x : Trans) (c : Instr), dueOf s f 2 = .mine → readTrans f.src f.body = some x →
    (c = .readReq (.frame f) ∧ x.type = 1 ∨ c = .bridgeWrite (.frame f) ∧ x.type = 3) →
    (256 ≤ s.bridge.inbound.length →
      ∃ t, exec c s = .next t ∧ t.bridge.answers = s.bridge.answers ++ [{ x with type := 5, code := 0x8007, data := [] }] ∧
        reported { s with bridge := { s.bridge with answers := t.bridge.answers } } t) ∧
    (∀ code, s.bridge.inbound.length < 256 →
      (transCheck f.body = false ∧ code = 0x8006 ∨
        transCheck f.body = true ∧ rangeOk x.offset x.length = false ∧ code = 0x8003 ∨
        transCheck f.body = true ∧ rangeOk x.offset x.length = true ∧ s.bridge.access.getD x.window 0 = 0 ∧ code = 0x8001 ∨
        transCheck f.body = true ∧ rangeOk x.offset x.length = true ∧ s.bridge.access.getD x.window 0 = 1 ∧ x.type = 3 ∧ code = 0x8002) →
      ∃ t, exec c s = .next t ∧ t.bridge.answers = s.bridge.answers ++ [{ x with type := 5, code := code, data := [] }] ∧
        reported { s with bridge := { s.bridge with inbound := s.bridge.inbound ++ [x], answers := t.bridge.answers } } t) ∧
    (s.bridge.inbound.length < 256 → transCheck f.body = true → rangeOk x.offset x.length = true →
      2 ≤ s.bridge.access.getD x.window 0 →
      ∃ t, exec c s = .next t ∧
        (x.type = 1 → t.bridge.answers = s.bridge.answers ++ [{ x with type := 2, code := 0, data := windowRead s x.window x.offset x.length }] ∧
          t.bridge.mem = s.bridge.mem ∧ t.upd = s.upd) ∧
        (x.type = 3 → t.bridge.answers = s.bridge.answers ++ [{ x with type := 4, code := 0, data := [] }] ∧
          (x.window ≠ 15 → t.upd = s.upd ∧ t.bridge.mem = memWriteAll s.bridge.mem (x.window * 0x10000 + x.offset) x.data) ∧
          (x.window = 15 → t.bridge.mem = s.bridge.mem ∧
            t.upd = { s.upd with buffer := memWriteAll s.upd.buffer x.offset x.data })) ∧
        reported { s with
          bridge := { s.bridge with inbound := s.bridge.inbound ++ [x], answers := t.bridge.answers, mem := t.bridge.mem },
          upd := t.upd } t)) ∧
  (∀ (s : State) (f : CascFrame) (x : Trans) (c : Instr), dueOf s f 2 = .mine → readTrans f.src f.body = some x →
    (c = .readData f ∧ x.type = 2 ∨ c = .writeDone f ∧ x.type = 4 ∨ c = .bridgeError f ∧ x.type = 5) →
    (transCheck f.body = false → exec c s = .next s) ∧
    (transCheck f.body = true → x.epoch ≠ s.pair.epoch → ∃ t, exec c s = .next t ∧ t.raised 63 ∧ reported s t)) ∧
  (∀ (s : State) (f : CascFrame) (x : Trans) (o : OutTrans), dueOf s f 2 = .mine → readTrans f.src f.body = some x →
    transCheck f.body = true → x.epoch = s.pair.epoch →
    (x.type = 2 → openTrans s 1 x = some o → x.length = o.t.length →
      ∃ t, exec (.readData f) s = .next t ∧ (∀ y ∈ t.bridge.out, y.t.tag = o.t.tag → y.arrived = some x.data ∧ y.arrivedNs = s.ns) ∧
        (∀ y ∈ s.bridge.out, y.t.tag ≠ o.t.tag → y ∈ t.bridge.out) ∧ t.bridge.out.length = s.bridge.out.length ∧
        t = { s with bridge := { s.bridge with out := t.bridge.out } }) ∧
    (x.type = 4 → openTrans s 3 x = some o → exec (.writeDone f) s =
      .next { s with bridge := { s.bridge with out := s.bridge.out.filter (fun y => y.t.tag ≠ o.t.tag) } }) ∧
    (x.type = 5 → openTrans s 1 x = none → openTrans s 3 x = some o →
      (x.code = 0x8007 → o.resends < 8 → ∃ t, exec (.bridgeError f) s = .next t ∧
        (∀ y ∈ t.bridge.out, y.t.tag = o.t.tag → 1 ≤ y.resends) ∧ t.bridge.failures = s.bridge.failures ∧
        t = { s with bridge := { s.bridge with out := t.bridge.out } }) ∧
      ((x.code ≠ 0x8007 ∨ 8 ≤ o.resends) → s.bridge.failures.length < 64 → o.t.type = 3 →
        ∃ t, exec (.bridgeError f) s = .next t ∧ t.raised 72 ∧ (∀ y ∈ t.bridge.out, y.t.tag ≠ o.t.tag) ∧
          t.bridge.failures = s.bridge.failures ++ [⟨o.t.peer, o.t.window, o.t.tag, o.t.offset, o.t.length, o.t.init, 3, x.code, s.imageNo⟩] ∧
          reported { s with bridge := { s.bridge with out := t.bridge.out, failures := t.bridge.failures } } t))) ∧
  (∀ (s : State) (tag : Nat) (o : OutTrans), s.bridge.out.find? (fun x => x.t.tag = tag) = some o →
    (o.arrived = none → o.error = none → o.sentNs + 100000000 ≤ s.ns → (o.t.type ≠ 1 ∨ o.polled = false) →
      s.bridge.failures.length < 64 →
      ∃ t, exec (.bridgeTimeout tag) s = .next t ∧ t.raised 72 ∧ (∀ y ∈ t.bridge.out, y.t.tag ≠ tag) ∧
        t.bridge.failures = s.bridge.failures ++ [⟨o.t.peer, o.t.window, o.t.tag, o.t.offset, o.t.length, o.t.init, o.t.type, 0x8004, s.imageNo⟩] ∧
        reported { s with bridge := { s.bridge with out := t.bridge.out, failures := t.bridge.failures } } t) ∧
    (s.ns < o.sentNs + 100000000 → exec (.bridgeTimeout tag) s = .next s) ∧
    (o.arrived.isSome = true → o.error = none → o.arrivedNs + 10000000 ≤ s.ns → exec (.readDataDiscard tag) s =
      .next { s with bridge := { s.bridge with out := s.bridge.out.filter (fun y => y.t.tag ≠ tag) } }) ∧
    (s.ns < o.arrivedNs + 10000000 → exec (.readDataDiscard tag) s = .next s))

/-- HEARTBEAT (R486, R492, R497, R503, R507): results, completion and frame. -/
def Obligations.HeartbeatsAndRoles : Prop :=
  (∀ (s : State) (p : Path) (f : Frame),
    (p = .pairLink ∧ f.fcsOk = false ∨ p = .chanA ∧ heartbeatFrameOk s .a f = false ∨ p = .chanB ∧ heartbeatFrameOk s .b f = false ∨
      p ≠ .pairLink ∧ p ≠ .chanA ∧ p ≠ .chanB) → exec (.heartbeatMsg p f) s = .next s) ∧
  (∀ (s : State) (p : Path) (f : Frame),
    (p = .pairLink ∧ f.fcsOk = true ∨ p = .chanA ∧ heartbeatFrameOk s .a f = true ∨ p = .chanB ∧ heartbeatFrameOk s .b f = true) →
    (readEnvelope f.body = none → exec (.heartbeatMsg p f) s =
      .next { s with casc := { s.casc with refused := min 0xFFFFFFFF (s.casc.refused + 1) } }) ∧
    (∀ e, readEnvelope f.body = some e →
      (e.kind ≠ 0x90 ∨ s.pair.partnerAddr = 0xFFFF ∨ laneEnvelopeOk (cascadeId 6 s.pair.partnerAddr s.dict.modAddr 0) [0x90] e = false ∨
        payloadOk e = false ∨ e.stamp ≠ s.bus.counter % 2 ^ 32) → exec (.heartbeatMsg p f) s =
        .next { s with casc := { s.casc with refused := min 0xFFFFFFFF (s.casc.refused + 1) } }) ∧
    (∀ e c l, readEnvelope f.body = some e → e.kind = 0x90 → s.pair.partnerAddr ≠ 0xFFFF →
      laneEnvelopeOk (cascadeId 6 s.pair.partnerAddr s.dict.modAddr 0) [0x90] e = true → payloadOk e = true →
      e.stamp = s.bus.counter % 2 ^ 32 → findConn s 6 s.pair.partnerAddr 0 = some c → c.lastSeq = some l →
      newerSeq e.seq l = false →
      (e.seq ≠ l → exec (.heartbeatMsg p f) s =
        .next { s with casc := { s.casc with dups := min 0xFFFFFFFF (s.casc.dups + 1) } }) ∧
      (e.seq = l → ∃ t, exec (.heartbeatMsg p f) s = .next t ∧ (s.bus.counter, p) ∈ t.pair.hbNow ∧
        (∀ x ∈ s.pair.hbNow, x ∈ t.pair.hbNow) ∧ t = { s with
          pair := { s.pair with hbNow := t.pair.hbNow },
          casc := { s.casc with dups := min 0xFFFFFFFF (s.casc.dups + 1) } }))) ∧
  (∀ (s : State) (p : Path) (f : Frame) (e : Envelope) (q : PartnerSt),
    (p = .pairLink ∧ f.fcsOk = true ∨ p = .chanA ∧ heartbeatFrameOk s .a f = true ∨ p = .chanB ∧ heartbeatFrameOk s .b f = true) →
    readEnvelope f.body = some e → e.kind = 0x90 → s.pair.partnerAddr ≠ 0xFFFF →
    laneEnvelopeOk (cascadeId 6 s.pair.partnerAddr s.dict.modAddr 0) [0x90] e = true → payloadOk e = true →
    e.stamp = s.bus.counter % 2 ^ 32 →
    (∀ c, findConn s 6 s.pair.partnerAddr 0 = some c → ∀ l, c.lastSeq = some l → newerSeq e.seq l = true) →
    q = readHeartbeat e s.pair.partner →
    ∃ t, exec (.heartbeatMsg p f) s = .next t ∧ t.pair.partner = q ∧ q.heard = true ∧ q.role = field e.payload 0 1 ∧
      q.image = field e.payload 4 4 ∧ q.epoch = e.epoch ∧
      (∃ c, findConn t 6 s.pair.partnerAddr 0 = some c ∧ c.lastSeq = some e.seq) ∧ (s.bus.counter, p) ∈ t.pair.hbNow ∧
      t.pair.epoch = s.pair.epoch ∧ t.pair.readySince.isSome = pairReady t ∧
      (t.pair.readySince.isSome ≠ s.pair.readySince.isSome → t.raised 59) ∧
      (pairFits { s with pair := { s.pair with partner := q } } = false →
        t.pair.formed = false ∧ t.pair.role = .unpaired ∧ t.pair.h = none ∧ (s.pair.unformed = false → t.raised 56)) ∧
      (pairFits { s with pair := { s.pair with partner := q } } = true →
        t.pair.formed = true ∧ t.pair.unformed = false ∧
        (s.pair.role = .unpaired → q.role = 1 → s.power.confirmed = false → t.pair.role = .standby ∧ t.pair.nr3 = true) ∧
        (s.pair.role = .unpaired → q.role ≠ 1 → (s.power.confirmed = true ∨ s.pair.preferred = true) → t.pair.role = .active) ∧
        (s.pair.role = .unpaired → q.role ≠ 1 → s.power.confirmed = false → s.pair.preferred = false →
          t.pair.role = .standby ∧ t.pair.nr3 = true) ∧
        (s.pair.role = .active → q.role = 1 → newerEpoch q.epoch s.pair.epoch = true →
          t.pair.role = .standby ∧ t.pair.nr3 = true ∧ t.raised 60 ∧ t.lio.localNext = none ∧
          ∀ h v, (twoGet t.halves h).next = some v → v.cmds = [] ∧ v.locals = none) ∧
        (s.pair.role = .standby ∨ s.pair.role = .active ∧ ¬(q.role = 1 ∧ newerEpoch q.epoch s.pair.epoch = true) →
          t.pair.role = s.pair.role) ∧
        (s.pair.role = .standby → q.role = 1 → q.handover = true → q.h ≠ 0 → t.pair.h = some q.h ∧ t.pair.cold = q.cold)) ∧
      (¬(s.pair.role = .active ∧ q.role = 1 ∧ newerEpoch q.epoch s.pair.epoch = true) → t.halves = s.halves ∧ t.lio = s.lio) ∧
      told s t ∧ t = { s with
        pair := t.pair, casc := { s.casc with conns := t.casc.conns },
        halves := t.halves, lio := { s.lio with localNext := t.lio.localNext }, ev := t.ev, dict := t.dict })

/-- PARTNER_LOST, SHADOW_IMAGE, SHADOW_MISSED (R493 to R495, R501, R502): results, completion and frames. -/
def Obligations.PartnerLossAndShadows : Prop :=
  (∀ s : State,
    ((s.pair.formed = false ∨ s.pair.partner.heard = false ∨ s.pair.lost = false) → exec .partnerLost s = .next s) ∧
    (s.pair.formed = true → s.pair.partner.heard = true → s.pair.lost = true →
      (s.pair.role ≠ .standby → exec .partnerLost s = .next { s with pair := { s.pair with
        lost := false, allRun := 0
        partner := { s.pair.partner with heard := false, role := 0, ready := false, handover := false } } }) ∧
      (s.pair.role = .standby → ∃ t, exec .partnerLost s = .next t ∧ t.raised 57 ∧ t.pair.role = .active ∧
        t.pair.epoch = takeEpoch s ∧ t.pair.retainedEpoch = takeEpoch s ∧ t.pair.partner.heard = false ∧ t.pair.lost = false ∧
        t.pair.h = none ∧ t.pair.nr3 = false ∧ t.pair.nr4 = false ∧ t.pair.resync = false ∧
        (nrReason s = 0 → ∃ u, (imageVoted s = false → kernelRow (fun _ x => x) u t) ∧ (imageVoted s = true → t = u) ∧
          u.lanes = s.lanes ∧ told s u ∧ u = { s with pair := u.pair, ev := u.ev, dict := u.dict }) ∧
        (nrReason s ≠ 0 → t.power.step = 7 ∧ t.power.step7At = s.ns ∧ t.power.confirmed = false ∧
          (∀ l n, (rst (triGet t.lanes l).kernel n).state = .released) ∧ told s t ∧
          t = { s with
            pair := t.pair, lanes := t.lanes, free := t.free, book := t.book, ev := t.ev, dict := t.dict,
            power := { s.power with step := 7, step7At := s.ns, confirmed := false, confirmDue := false, confirmImg := none } })))) ∧
  (∀ (s : State) (h : Half) (img : CycleImage) (good : Bool) (c : TickIn),
    ((s.pair.role ≠ .standby ∨ good = false ∨ s.pair.ownRun = some s.imageNo) → exec (.shadowImage h img good c) s = .next s) ∧
    (s.pair.role = .standby → good = true → s.pair.ownRun ≠ some s.imageNo →
      (s.pair.shadows = [] → exec (.shadowImage h img good c) s =
        .next { s with pair := { s.pair with shadows := [(h, img)] } }) ∧
      (∀ other m, s.pair.shadows = [(otherHalf h, other)] → imagesRun s = true →
        chooseCopy s.cfg (some (addOwn s.image (if h = .a then img else other)))
          (some (addOwn s.image (if h = .a then other else img))) = some m →
        ∃ t, exec (.shadowImage h img good c) s = .next t ∧ t.image = m ∧ t.imageNo = m.num ∧ t.pair.ownRun = some m.num ∧
          t.cfg = s.cfg ∧ t.bus.counter = s.bus.counter ∧
          ((∀ l, (triGet s.lanes l).ls = .inVote ∧ triGet c.copies l = (true, true) ∧ (triGet c.ist l).failed = none) →
            debugHeld s = false →
            (∀ l, (triGet t.lanes l).ls = .inVote ∧ (triGet t.lanes l).ran = m.num) ∧ told s t ∧
            t = { s with
              image := m, imageNo := m.num, pair := { s.pair with shadows := t.pair.shadows, ownRun := some m.num },
              lanes := t.lanes, test := t.test, progLoad := { s.progLoad with bankImage := t.progLoad.bankImage },
              ev := t.ev, dict := t.dict })))) ∧
  (∀ (s : State) (c : TickIn),
    ((s.pair.role ≠ .standby ∨ s.pair.ownRun = some s.imageNo ∨ imagesRun s = false) → exec (.shadowMissed c) s = .next s) ∧
    (s.pair.role = .standby → s.pair.ownRun ≠ some s.imageNo → imagesRun s = true → s.pair.shadows = [] →
      (∀ l, (triGet s.lanes l).ls = .inVote ∧ (triGet c.ist l).failed = none ∧ triGet c.copies l = (true, true)) →
      debugHeld s = false → s.halves.a.inServ = true → s.halves.b.inServ = true →
      ∃ t, exec (.shadowMissed c) s = .next t ∧
        t.image = { s.image with reqs := [], diverged := [], writes := [], replies := [], standby := true } ∧
        t.pair.nr3 = (s.pair.nr3 || !s.pair.lost) ∧ t.pair.ownRun = some s.image.num ∧
        (∀ l, (triGet t.lanes l).ls = .inVote ∧ (triGet t.lanes l).ran = s.image.num) ∧
        (s.pair.readySince.isSome = true → s.pair.lost = false → t.pair.readySince = none ∧ t.raised 59) ∧ told s t ∧
        t = { s with
          image := t.image, lanes := t.lanes, test := t.test, pair := t.pair,
          progLoad := { s.progLoad with bankImage := t.progLoad.bankImage }, ev := t.ev, dict := t.dict }))

/-- Hand-over and resynchronisation (R498, R503 to R506): results, completion and frames. -/
def Obligations.HandOversAndResync : Prop :=
  (∀ (s : State) (n : Nat), s.allows n .maintainer false →
    (∀ c, (s.pair.formed = false ∧ c = 0x9001 ∨ s.pair.formed = true ∧ s.pair.role ≠ .active ∧ c = 0x9003 ∨
        s.pair.formed = true ∧ s.pair.role = .active ∧ modeOf s ≠ 0 ∧ c = 0x9006 ∨
        s.pair.formed = true ∧ s.pair.role = .active ∧ modeOf s = 0 ∧ handoverBusy s = true ∧ c = 0x9005) →
      (∃ t, exec (.handOver n) s = .next t ∧ t.raised 58 ∧ t.dict.result = rFunction ∧ t.dict.value = be 2 c ∧
        reported { s with pair := { s.pair with outcome := c } } t) ∧
      (∃ t, exec (.coldHandOver n) s = .next t ∧ t.raised 58 ∧ t.dict.result = rFunction ∧ t.dict.value = be 2 c ∧
        reported { s with pair := { s.pair with outcome := c } } t)) ∧
    (s.pair.formed = true → s.pair.role = .active → modeOf s = 0 → handoverBusy s = false →
      ((s.pair.partner.heard = false ∨ s.pair.partner.ready = false) →
        ∃ t, exec (.handOver n) s = .next t ∧ t.raised 58 ∧ t.dict.result = rFunction ∧ t.dict.value = [0x90#8, 0x02#8] ∧
          reported { s with pair := { s.pair with outcome := 0x9002 } } t) ∧
      (s.pair.partner.heard = true → s.pair.partner.ready = true →
        ∃ t u v, exec (.handOver n) s = .next t ∧ u.raised 58 ∧ reported { s with pair := { s.pair with
            h := some (imgAdd s.imageNo 2), lastH := imgAdd s.imageNo 2, cold := false } } u ∧
          (imageVoted s = false → kernelRow (fun _ x => x) u v) ∧ (imageVoted s = true → v = u) ∧
          t = withResult (0, []) { v with pair := { v.pair with outcome := 0x9008 } }) ∧
      (routesReleased s = false →
        ∃ t, exec (.coldHandOver n) s = .next t ∧ t.raised 58 ∧ t.dict.result = rFunction ∧ t.dict.value = [0x90#8, 0x04#8] ∧
          reported { s with pair := { s.pair with outcome := 0x9004 } } t) ∧
      (routesReleased s = true → (s.pair.partner.heard = false ∨ s.pair.partner.role ≠ 2 ∨
          s.pair.partner.reason ≠ 1 ∧ s.pair.partner.reason ≠ 2) →
        ∃ t, exec (.coldHandOver n) s = .next t ∧ t.raised 58 ∧ t.dict.result = rFunction ∧ t.dict.value = [0x90#8, 0x02#8] ∧
          reported { s with pair := { s.pair with outcome := 0x9002 } } t) ∧
      (routesReleased s = true → s.pair.partner.heard = true → s.pair.partner.role = 2 →
        (s.pair.partner.reason = 1 ∨ s.pair.partner.reason = 2) →
        ∃ t u v, exec (.coldHandOver n) s = .next t ∧ u.raised 58 ∧ reported { s with pair := { s.pair with
            h := some (imgAdd s.imageNo 2), lastH := imgAdd s.imageNo 2, cold := true } } u ∧
          (imageVoted s = false → kernelRow (fun _ x => x) u v) ∧ (imageVoted s = true → v = u) ∧
          t = withResult (0, []) { v with pair := { v.pair with outcome := 0x9008 } }))) ∧
  (∀ s : State,
    ((s.pair.formed = false ∨ s.pair.role ≠ .active ∨ s.pair.preferred = true ∨ s.pair.takeback = false ∨
        s.pair.partner.heard = false ∨ s.pair.partner.ready = false ∨ s.pair.partner.readyTime < s.pair.stabilityS ∨
        handoverBusy s = true ∨ modeOf s ≠ 0) → exec .takeback s = .next s) ∧
    (s.pair.formed = true → s.pair.role = .active → s.pair.preferred = false → s.pair.takeback = true →
      s.pair.partner.heard = true → s.pair.partner.ready = true → s.pair.stabilityS ≤ s.pair.partner.readyTime →
      handoverBusy s = false → modeOf s = 0 →
      ∃ u v, exec .takeback s = .next v ∧ u.raised 58 ∧ reported { s with pair := { s.pair with
          h := some (imgAdd s.imageNo 2), lastH := imgAdd s.imageNo 2, cold := false } } u ∧
        (imageVoted s = false → kernelRow (fun _ x => x) u v) ∧ (imageVoted s = true → v = u))) ∧
  (∀ s : State,
    (s.pair.h = none → exec .handOverImage s = .next s) ∧
    (∀ h, s.pair.h = some h → (h ≠ imgAdd s.imageNo 1 ∨ nextCounter s % s.bus.lCyc ≠ 0) → exec .handOverImage s = .next s) ∧
    (s.pair.h = some (imgAdd s.imageNo 1) → nextCounter s % s.bus.lCyc = 0 →
      (s.pair.role = .active → ∃ t, exec .handOverImage s = .next t ∧ t.raised 58 ∧ t.pair.role = .standby ∧ t.pair.h = none ∧
        t.pair.outcome = 0 ∧ t.pair.nr3 = s.pair.cold ∧ t.pair.epoch = s.pair.epoch ∧ reported { s with pair := t.pair } t) ∧
      (s.pair.role = .standby → ∃ t, exec .handOverImage s = .next t ∧ t.raised 58 ∧ t.pair.role = .active ∧ t.pair.h = none ∧
        t.pair.epoch = takeEpoch s ∧ t.pair.retainedEpoch = takeEpoch s ∧ t.pair.nr3 = false ∧ t.pair.nr4 = false ∧
        (s.pair.cold = false → reported { s with pair := t.pair } t) ∧
        (s.pair.cold = true → t.power.step = 7 ∧ t.power.confirmed = false ∧
          (∀ l n, (rst (triGet t.lanes l).kernel n).state = .released) ∧
          reported { s with
            pair := t.pair, lanes := t.lanes,
            power := { s.power with step := 7, step7At := s.ns, confirmed := false, confirmDue := false, confirmImg := none } } t)))) ∧
  (∀ (s : State) (n : Nat), s.allows n .maintainer false →
    (∀ c, (s.pair.formed = false ∧ c = 0x9001 ∨ s.pair.formed = true ∧ s.pair.role ≠ .standby ∧ c = 0x9003 ∨
        s.pair.formed = true ∧ s.pair.role = .standby ∧ (modeOf s ≠ 0 ∨ resyncBarred s = true) ∧ c = 0x9006 ∨
        s.pair.formed = true ∧ s.pair.role = .standby ∧ modeOf s = 0 ∧ resyncBarred s = false ∧ s.pair.resync = true ∧ c = 0x9005) →
      exec (.resynchronise n) s = .next (withResult (rFunction, be 2 c) { s with pair := { s.pair with outcome := c } })) ∧
    (s.pair.formed = true → s.pair.role = .standby → modeOf s = 0 → resyncBarred s = false → s.pair.resync = false →
      ∃ t, exec (.resynchronise n) s = .next t ∧ t.dict.result = 0 ∧ t.pair.resync = true ∧
        t.pair.resyncDue = s.ns + 30000000000 ∧ t.pair.outcome = 0 ∧ t.pair.role = .standby ∧ t.pair.readySince = none ∧
        (s.pair.readySince.isSome = true → t.raised 59) ∧ reported { s with pair := t.pair } t)) ∧
  (∀ (s : State) (k : Kernel),
    ((s.pair.role ≠ .standby ∨ s.pair.resync = false ∨ resyncBarred s = true) → exec (.resyncComplete k) s = .next s) ∧
    (s.pair.role = .standby → s.pair.resync = true → resyncBarred s = false →
      ∃ t, exec (.resyncComplete k) s = .next t ∧ t.pair.resync = false ∧ t.pair.nr3 = false ∧ t.pair.nr4 = false ∧
        (∀ l, inVote s l = true → triGet t.lanes l = { triGet s.lanes l with kernel := k }) ∧
        (∀ l, inVote s l = false → triGet t.lanes l = triGet s.lanes l) ∧
        t.pair.readySince.isSome = pairReady t ∧ (t.pair.readySince.isSome ≠ s.pair.readySince.isSome → t.raised 59) ∧
        reported { s with lanes := t.lanes, pair := t.pair } t))

/-- The Datum and SYNC (R518 to R520, R529): results, completion and frames. -/
def Obligations.DatumAndSync : Prop :=
  (∀ (s u : State) (p : Nat) (f : TimeFrame) (dt : Nat), u = { s with time := { s.time with datumHere := isDatum s } } →
    ((isDatum s = true ∨ s.datum.addr = 0xFFFF) → exec (.timeFrame p f dt) s = .next u) ∧
    (isDatum s = false → s.datum.addr ≠ 0xFFFF → f.addr ≠ s.datum.addr →
      (s.datum.mismatch = true → exec (.timeFrame p f dt) s = .next u) ∧
      (s.datum.mismatch = false → ∃ t, exec (.timeFrame p f dt) s = .next t ∧ t.raised 62 ∧
        reported { u with datum := { s.datum with mismatch := true } } t)) ∧
    (isDatum s = false → f.addr = s.datum.addr → s.datum.addr ≠ 0xFFFF →
      ((p ≠ datumPath s ∨ ∃ e, s.datum.newestEpoch = some e ∧ newerEpoch e f.epoch = true) → exec (.timeFrame p f dt) s = .next u) ∧
      (p = datumPath s → (∀ e, s.datum.newestEpoch = some e → newerEpoch e f.epoch = false) →
        ∃ v, v = { u with
            datum := { s.datum with
              mismatch := false, newestEpoch := some f.epoch, lastFrame := some (f.launch, timeAfter s dt), pathUsed := p,
              delayReq := if s.datum.pathUsed = p then s.datum.delayReq else none,
              pathDelay := if s.datum.pathUsed = p then s.datum.pathDelay else 0 },
            time := { u.time with datumHeard := s.ns } } ∧
          (datumUsed v = false → exec (.timeFrame p f dt) s = .next v) ∧
          (datumUsed v = true → exec (.timeFrame p f dt) s =
            .next (servoMeasure 2 (timeAfter s dt - f.launch - v.datum.pathDelay) (setLeap f.leap f.leapAnn v)))))) ∧
  (∀ (s : State) (l : Int),
    ((isDatum s = false ∨ l < s.datum.sentAt + 125000000 * 65536) → exec (.timeFrameSend l) s = .next s) ∧
    (isDatum s = true → s.datum.sentAt + 125000000 * 65536 ≤ l →
      ∃ t, exec (.timeFrameSend l) s = .next t ∧
        t.datum = { s.datum with sentAt := l, sent := some ⟨s.datum.addr, l, s.time.leap, s.time.leapAnn, s.pair.epoch, s.time.estErr⟩ } ∧
        told s t ∧ t = { s with datum := t.datum, time := { s.time with stamps := t.time.stamps }, ev := t.ev, dict := t.dict })) ∧
  (∀ (s : State) (l : Int),
    ((isDatum s = true ∨ s.datum.addr = 0xFFFF ∨ s.datum.delaySeq ≠ 0 ∧ s.ns < s.datum.delayAt + 1000000000) →
      exec (.datumDelayRequest l) s = .next s) ∧
    (isDatum s = false → s.datum.addr ≠ 0xFFFF → (s.datum.delaySeq = 0 ∨ s.datum.delayAt + 1000000000 ≤ s.ns) →
      exec (.datumDelayRequest l) s = .next { s with datum := { s.datum with
        delaySeq := s.datum.delaySeq + 1, delayAt := s.ns, delayReq := some (s.datum.delaySeq + 1, l) } })) ∧
  (∀ (s : State) (src seq dt : Nat),
    (isDatum s = true → exec (.delayRequest src seq dt) s =
      .next { s with datum := { s.datum with delayAns := some (src, seq, timeAfter s dt) } }) ∧
    (isDatum s = false → exec (.delayRequest src seq dt) s = .next s)) ∧
  (∀ (s : State) (p seq : Nat) (rx : Int),
    (∀ l f, s.datum.delayReq = some (seq, l) → s.datum.lastFrame = some f → p = s.datum.pathUsed →
      exec (.delayResponse p seq rx) s = .next { s with datum := { s.datum with
        pathDelay := ((f.2 - f.1) + (rx - l)) / 2, delayReq := none } }) ∧
    ((s.datum.lastFrame = none ∨ p ≠ s.datum.pathUsed ∨ ∀ l, s.datum.delayReq ≠ some (seq, l)) →
      exec (.delayResponse p seq rx) s = .next s)) ∧
  (∀ s : State,
    ((s.datum.addr = 0xFFFF ∨ s.imageNo % 64 ≠ s.dict.modAddr % 64) → exec .cycleReportSend s = .next s) ∧
    (s.datum.addr ≠ 0xFFFF → s.imageNo % 64 = s.dict.modAddr % 64 →
      ∃ t, exec .cycleReportSend s = .next t ∧ t.datum.reportSent = reportBytes s ∧
        (reportBytes s).length = 24 + (digest8 s).length ∧
        (isDatum s = false → t = { s with datum := { s.datum with reportSent := reportBytes s } }) ∧
        reported { s with datum := { s.datum with reportSent := reportBytes s, reports := t.datum.reports } } t)) ∧
  (∀ (s : State) (f : CascFrame),
    (dueOf s f 4 = .discard → exec (.cycleReport f) s = .next s) ∧
    (dueOf s f 4 = .forward → 2 ≤ f.hops → (if otherSide f.side = 1 then s.casc.bl1 else s.casc.bl2) = true →
      exec (.cycleReport f) s = .next { s with casc := { s.casc with forwarded := [(otherSide f.side, { f with hops := f.hops - 1 })] } }) ∧
    (dueOf s f 4 = .forward → (f.hops ≤ 1 ∨ (if otherSide f.side = 1 then s.casc.bl1 else s.casc.bl2) = false) →
      exec (.cycleReport f) s = .next s) ∧
    (dueOf s f 4 = .mine → (isDatum s = false ∨ f.body.length ≠ 32 ∨ field f.body 28 4 ≠ 0) → exec (.cycleReport f) s = .next s) ∧
    (dueOf s f 4 = .mine → isDatum s = true → f.body.length = 32 → field f.body 28 4 = 0 →
      ∃ t, exec (.cycleReport f) s = .next t ∧
        (∃ r ∈ t.datum.reports, r.addr = field f.body 0 2 ∧ r.bytes = f.body ∧ r.stampNs = s.ns ∧
          (r.conflict = true ↔ ∃ x ∈ s.datum.reports, x.addr = r.addr ∧ s.ns < x.stampNs + 1000000000 ∧
            (x.startCount ≠ field f.body 24 4 ∨ x.partner ≠ field f.body 2 2))) ∧
        (∀ x, x.addr ≠ field f.body 0 2 → (x ∈ t.datum.reports ↔ x ∈ s.datum.reports)) ∧
        (∀ x ∈ s.datum.reports, x.addr = field f.body 0 2 → x.conflict = false → s.ns < x.stampNs + 1000000000 →
          (x.startCount ≠ field f.body 24 4 ∨ x.partner ≠ field f.body 2 2) →
          t.raised 62 ∧ { x with conflict := true } ∈ t.datum.reports) ∧
        reported { s with datum := { s.datum with reports := t.datum.reports } } t)) ∧
  (∀ (s : State) (dt : Nat),
    (s.datum.syncDriver = true → s.datum.syncAt < moduleNs s / 1000000000 →
      exec .syncPulse s = .next { s with datum := { s.datum with syncAt := moduleNs s / 1000000000 } }) ∧
    ((s.datum.syncDriver = false ∨ moduleNs s / 1000000000 ≤ s.datum.syncAt) → exec .syncPulse s = .next s) ∧
    (s.datum.syncDriver = true → exec (.syncEdge dt) s = .next s) ∧
    (s.datum.syncDriver = false → ∃ t d, exec (.syncEdge dt) s = .next t ∧ d = t.datum.syncDiff ∧
      (∃ sec : Int, timeAfter s dt / 65536 = sec * 1000000000 + d ∧ -500000000 ≤ d ∧ d < 500000000 ∧ t.datum.syncAt = sec.toNat) ∧
      (10000 < d.natAbs → t.raised 62 ∧ reported { s with datum := t.datum } t) ∧
      (d.natAbs ≤ 10000 → t = { s with datum := { s.datum with syncDiff := d, syncAt := t.datum.syncAt } })))

/-- Every datagram (R533 to R542): the checks before its service, completion and frames. -/
def Obligations.DatagramChecks : Prop :=
  (∀ (s : State) (src : Source) (ch : Option Half) (b : List Byte) (far : ProxyIn),
    ∀ c ∈ [Instr.openSess src ch b, .closeSess src ch b, .statusReq src ch b, .readObj src ch b, .writeObj src ch b, .readClear src ch b,
      .describeObj src ch b, .eventRead src ch b, .eventPendingClear src ch b, .proxyReq src ch b far],
    (dictAlive s = false → exec c s = .next s) ∧
    (dictAlive s = true → dgramOk b = false →
      exec c s = .next { s with dict := { s.dict with discarded := min 0xFFFFFFFF (s.dict.discarded + 1) } }) ∧
    (dictAlive s = true → dgramOk b = true → badRequest (readDgram b) = true →
      ∃ t r, exec c s = .next t ∧ t.dict.reply = some r ∧ r.result = rBadRequest ∧ r.data = [] ∧ r.seq = field b 4 4 ∧ replied s t ∧
        ∀ n, sessOf t n = { sessOf s n with events := (sessOf t n).events })) ∧
  (∀ (s : State) (src : Source) (ch : Option Half) (b : List Byte) (far : ProxyIn) (c : Instr) (d : Dgram) (x : Session),
    (c = .closeSess src ch b ∧ d.service = 0x02 ∨ c = .statusReq src ch b ∧ d.service = 0x03 ∨
      c = .readObj src ch b ∧ d.service = 0x10 ∧ readsClear s d = false ∨ c = .readClear src ch b ∧ d.service = 0x10 ∧ readsClear s d = true ∨
      c = .writeObj src ch b ∧ d.service = 0x11 ∧ d.index ≠ 0x3001 ∨ c = .eventPendingClear src ch b ∧ d.service = 0x11 ∧ d.index = 0x3001 ∨
      c = .describeObj src ch b ∧ d.service = 0x12 ∨ c = .eventRead src ch b ∧ d.service = 0x20 ∨
      c = .proxyReq src ch b far ∧ d.service = 0x30) →
    dictAlive s = true → dgramOk b = true → badRequest d = false → d = readDgram b → x = sessOf s d.session →
    (∀ m l, src ≠ .proxy m l) →
    (inSession s src d = false →
      ∃ t r, exec c s = .next t ∧ t.dict.reply = some r ∧ r.result = rSession ∧ r.data = [] ∧ r.seq = d.seq ∧ replied s t ∧
        ∀ n, sessOf t n = { sessOf s n with events := (sessOf t n).events }) ∧
    (inSession s src d = true →
      (otherCopy s x ch d = true → ∃ t, exec c s = .next t ∧ t.dict.reply = s.dict.reply ∧ replied s t ∧
        ∀ n, sessOf t n = { sessOf s n with events := (sessOf t n).events }) ∧
      (∀ k, otherCopy s x ch d = false → x.kept.find? (fun r => r.seq = d.seq) = some k →
        ∃ t r, exec c s = .next t ∧ t.dict.reply = some r ∧ r = { k with resent := true, status := r.status } ∧ replied s t ∧
          ∀ n, sessOf t n = { sessOf s n with events := (sessOf t n).events }) ∧
      (otherCopy s x ch d = false → x.kept.find? (fun r => r.seq = d.seq) = none → laterSeq d.seq x.newest = false →
        ∃ t, exec c s = .next t ∧ t.dict.reply = s.dict.reply ∧ t.dict.discarded = min 0xFFFFFFFF (s.dict.discarded + 1) ∧
          replied { s with dict := { s.dict with discarded := t.dict.discarded } } t ∧
          ∀ n, sessOf t n = { sessOf s n with events := (sessOf t n).events }) ∧
      (otherCopy s x ch d = false → x.kept.find? (fun r => r.seq = d.seq) = none → laterSeq d.seq x.newest = true →
        8 ≤ unanswered x →
        ∃ t r, exec c s = .next t ∧ t.dict.reply = some r ∧ r.result = rBusy ∧ r.seq = d.seq ∧ replied s t ∧
          ∀ n, sessOf t n = { sessOf s n with events := (sessOf t n).events })))

/-- Sessions (R536 to R540, R563): results, completion and frames. -/
def Obligations.SessionLife : Prop :=
  (∀ (s : State) (src : Source) (ch : Option Half) (b : List Byte) (d : Dgram), dictAlive s = true → dgramOk b = true →
    badRequest d = false → d = readDgram b → d.service = 0x01 → (∀ m l, src ≠ .proxy m l) → openCopy s src ch d = false →
    (∀ p, src = .welong p → s.dict.welong = true) →
    (∀ code, (lockedOut s src = true ∧ code = rLockedOut ∨ lockedOut s src = false ∧ freeSession s = none ∧ code = rSessionFull ∨
        lockedOut s src = false ∧ freeSession s ≠ none ∧ field d.data 0 1 = 3 ∧ s.lio.key = false ∧ code = rKey) →
      ∃ t r, exec (.openSess src ch b) s = .next t ∧ t.dict.reply = some r ∧ r.result = code ∧ r.data = [] ∧ r.seq = d.seq ∧
        replied s t ∧ ∀ n, sessOf t n = { sessOf s n with events := (sessOf t n).events }) ∧
    (∀ n, lockedOut s src = false → freeSession s = some n → (field d.data 0 1 = 3 → s.lio.key = true) →
      (credentialOk s (field d.data 0 1) (d.data.drop 4) = false →
        ∃ t r l, exec (.openSess src ch b) s = .next t ∧ t.dict.reply = some r ∧ r.result = rCredential ∧ r.data = [] ∧ t.raised 86 ∧
          l = (failOf s src).times.filter (fun y => s.ns < y + 60000000000) ++ [s.ns] ∧
          (l.length < s.dict.lockN → failOf t src = { failOf s src with times := l, lockedTo := none }) ∧
          (s.dict.lockN ≤ l.length →
            failOf t src = { failOf s src with times := [], lockedTo := some (s.ns + s.dict.lockS * 1000000000) }) ∧
          replied { s with dict := { s.dict with fails := t.dict.fails } } t ∧
          ∀ m, sessOf t m = { sessOf s m with events := (sessOf t m).events }) ∧
      (credentialOk s (field d.data 0 1) (d.data.drop 4) = true →
        ∃ t r, exec (.openSess src ch b) s = .next t ∧ t.dict.reply = some r ∧ r.result = 0 ∧ r.session = n ∧ r.seq = d.seq ∧
          r.stamp ≠ 0 ∧ r.stamp < 65536 ∧ r.stamp ≠ (sessOf s n).lastStamp ∧
          r.data = be 1 (field d.data 0 1) ++ be 1 0 ++ be 2 s.dict.timeoutS ∧ (sessOf t n).opened = true ∧
          (sessOf t n).stamp = r.stamp ∧ (sessOf t n).level = levelAt (field d.data 0 1) ∧ (sessOf t n).src = src ∧
          (sessOf t n).newest = d.seq ∧ (sessOf t n).last = s.ns ∧ n < 16 ∧ (sessOf s n).opened = false ∧
          (∀ m, m < n → (sessOf s m).opened = true) ∧ t.raised 86 ∧ sessionsKept n s t ∧ replied { s with free := t.free } t))) ∧
  (∀ (s : State) (src : Source) (ch : Option Half) (b : List Byte) (d : Dgram) (x : Session), dictAlive s = true → dgramOk b = true → badRequest d = false → d = readDgram b → x = sessOf s d.session →
    (∀ m l, src ≠ .proxy m l) → inSession s src d = true → otherCopy s x ch d = false → x.kept.find? (fun r => r.seq = d.seq) = none →
    laterSeq d.seq x.newest = true → unanswered x < 8 → d.service = 0x02 →
    ∃ t r, exec (.closeSess src ch b) s = .next t ∧ t.dict.reply = some r ∧ r.result = 0 ∧ r.session = d.session ∧ r.seq = d.seq ∧
      (sessOf t d.session).opened = false ∧ t.raised 86 ∧ sessionsKept d.session s t ∧ replied s t) ∧
  (∀ (s : State) (n : Nat),
    ((sessOf s n).opened = true → (sessOf s n).last + s.dict.timeoutS * 1000000000 ≤ s.ns →
      ∃ t, exec (.sessionTimeout n) s = .next t ∧ (sessOf t n).opened = false ∧ t.raised 86 ∧ sessionsKept n s t ∧
        t.ev.enable = s.ev.enable ∧ t = { s with ev := t.ev, dict := { s.dict with sessions := t.dict.sessions } }) ∧
    ((∀ p ∈ s.dict.sessions, p.1 = n → p.2.opened = true → s.ns < p.2.last + s.dict.timeoutS * 1000000000) →
      exec (.sessionTimeout n) s = .next s)) ∧
  (∀ s : State, (tabKeys s.dict.sessions).Nodup →
    ∃ t, exec .maintenancePortLinkDown s = .next t ∧
      (∀ n ip port, (sessOf s n).src = .udp ip port → (sessOf t n).opened = false) ∧
      (∀ n, (∀ ip port, (sessOf s n).src ≠ .udp ip port) → sessOf t n = { sessOf s n with events := (sessOf t n).events }) ∧
      ((∃ p ∈ s.dict.sessions, p.2.opened = true ∧ ∃ ip port, p.2.src = .udp ip port) → t.raised 86) ∧ t.ev.enable = s.ev.enable ∧
      t = { s with ev := t.ev, dict := { s.dict with sessions := t.dict.sessions } }) ∧
  (∀ (s : State) (src : Source) (l : Nat),
    ((failOf s src).lockedTo = some l → l ≤ s.ns → ∃ t, exec (.lockoutEnd src) s = .next t ∧
      (failOf t src).lockedTo = none ∧ (failOf t src).times = (failOf s src).times ∧ lockedOut t src = false ∧
      (∀ y, y ≠ src → failOf t y = failOf s y) ∧ t = { s with dict := { s.dict with fails := t.dict.fails } }) ∧
    ((failOf s src).lockedTo = some l → s.ns < l → exec (.lockoutEnd src) s = .next s) ∧
    ((failOf s src).lockedTo = none → exec (.lockoutEnd src) s = .next s)) ∧
  (∀ s : State,
    (∀ p, s.dict.netNew = some p → p.2 ≤ s.ns → exec .networkSettingsApply s =
      .next { s with dict := { s.dict with net := p.1, netNew := none } }) ∧
    (∀ p, s.dict.netNew = some p → s.ns < p.2 → exec .networkSettingsApply s = .next s) ∧
    (s.dict.netNew = none → exec .networkSettingsApply s = .next s))

/-- The services (R544 to R564, R346): results, completion and frames. -/
def Obligations.DictionaryServices : Prop :=
  (∀ (s : State) (src : Source) (ch : Option Half) (b : List Byte) (d : Dgram) (x : Session), dictAlive s = true → dgramOk b = true → badRequest d = false → d = readDgram b → x = sessOf s d.session →
    (∀ m l, src ≠ .proxy m l) → inSession s src d = true → otherCopy s x ch d = false → x.kept.find? (fun r => r.seq = d.seq) = none →
    laterSeq d.seq x.newest = true → unanswered x < 8 →
    (d.service = 0x03 → ∃ t r, exec (.statusReq src ch b) s = .next t ∧ t.dict.reply = some r ∧ r.result = 0 ∧ r.data = [] ∧
      r.seq = d.seq ∧ r.service = 0x83 ∧ r.session = d.session ∧ (sessOf t d.session).newest = d.seq ∧ (sessOf t d.session).last = s.ns ∧
      sessionsKept d.session s t ∧ replied s t) ∧
    (d.service = 0x12 → ∃ t r, exec (.describeObj src ch b) s = .next t ∧ t.dict.reply = some r ∧ r.seq = d.seq ∧
      (∀ o, findObj s d.index d.sub = .inl o → r.result = 0 ∧ r.data = o.descriptor) ∧
      (∀ c, findObj s d.index d.sub = .inr c → r.result = c ∧ r.data = []) ∧ (sessOf t d.session).newest = d.seq ∧
      sessionsKept d.session s t ∧ replied s t) ∧
    (d.service = 0x10 → readsClear s d = false → ∃ t r, exec (.readObj src ch b) s = .next t ∧ t.dict.reply = some r ∧ r.seq = d.seq ∧
      (sessOf t d.session).newest = d.seq ∧
      (∀ c, findObj s d.index d.sub = .inr c → r.result = c ∧ r.data = [] ∧ sessionsKept d.session s t ∧ replied s t) ∧
      (∀ o, findObj s d.index d.sub = .inl o → ∃ u, replied s u ∧ sessionsKept d.session s u ∧
        (readWindow u d.session d.index d.sub = none → r.result = 0 ∧ r.data = readValue u d.session o d.index d.sub ∧
          sessionsKept d.session s t ∧ replied s t) ∧
        (∀ w, readWindow u d.session d.index d.sub = some w → r.result = w.2.1 ∧ r.data = w.2.2 ∧ replied w.1 t))) ∧
    (d.service = 0x11 → d.index ≠ 0x3001 →
      (∀ c, findObj s d.index d.sub = .inr c → ∃ t r, exec (.writeObj src ch b) s = .next t ∧ t.dict.reply = some r ∧ r.result = c ∧
        r.data = [] ∧ sessionsKept d.session s t ∧ replied s t) ∧
      (∀ o, findObj s d.index d.sub = .inl o → writeRefusal s x.level o d.index d.sub d.data ≠ rOk →
        ∃ t r, exec (.writeObj src ch b) s = .next t ∧ t.dict.reply = some r ∧
          r.result = writeRefusal s x.level o d.index d.sub d.data ∧ r.data = [] ∧ sessionsKept d.session s t ∧ replied s t) ∧
      (∀ o, findObj s d.index d.sub = .inl o → writeRefusal s x.level o d.index d.sub d.data = rOk → o.atTick = true →
        ∃ t, exec (.writeObj src ch b) s = .next t ∧ t.dict.reply = s.dict.reply ∧
          (sessOf t d.session).queue = x.queue ++ [⟨src, d.seq, true, d.index, d.sub, d.data⟩] ∧ (sessOf t d.session).newest = d.seq ∧
          sessionsKept d.session s t ∧ replied s t) ∧
      (∀ o, findObj s d.index d.sub = .inl o → writeRefusal s x.level o d.index d.sub d.data = rOk → o.atTick = false →
        ∃ t r u w, exec (.writeObj src ch b) s = .next t ∧ replied s u ∧ sessionsKept d.session s u ∧
          w = writePart d.session none x.level d.index d.sub d.data u ∧ t.dict.reply = some r ∧ r.result = w.2.1 ∧
          (r.data = w.2.2 ∨ o.acc = 2 ∧ w.2.1 = 0 ∧ r.data = []) ∧ replied w.1 t)) ∧
    (d.service = 0x10 → readsClear s d = true → ∀ o, findObj s d.index d.sub = .inl o →
      (o.lane = false → ∃ t r u, exec (.readClear src ch b) s = .next t ∧ replied s u ∧ sessionsKept d.session s u ∧
        t.dict.reply = some r ∧ r.result = 0 ∧ r.data = readValue u d.session o d.index d.sub ∧
        replied (clearPart d.session d.index d.sub u) t) ∧
      (o.lane = true → laneRefusal s false ≠ rOk → ∃ t r, exec (.readClear src ch b) s = .next t ∧ t.dict.reply = some r ∧
        r.result = laneRefusal s false ∧ sessionsKept d.session s t ∧ replied s t) ∧
      (o.lane = true → laneRefusal s false = rOk → ∃ t, exec (.readClear src ch b) s = .next t ∧ t.dict.reply = s.dict.reply ∧
        (sessOf t d.session).queue = x.queue ++ [⟨src, d.seq, false, d.index, d.sub, d.data⟩] ∧ sessionsKept d.session s t ∧
        replied s t)) ∧
    (d.service = 0x20 → (field d.data 0 1 = 0 ∨ 16 < field d.data 0 1 ∨ field d.data 1 3 ≠ 0) →
      ∃ t r, exec (.eventRead src ch b) s = .next t ∧ t.dict.reply = some r ∧ r.result = rRange ∧ r.data = [] ∧
        sessionsKept d.session s t ∧ replied s t) ∧
    (d.service = 0x20 → 1 ≤ field d.data 0 1 → field d.data 0 1 ≤ 16 → field d.data 1 3 = 0 →
      ∃ t r u l, exec (.eventRead src ch b) s = .next t ∧ replied s u ∧ l = (sessOf u d.session).events.take (field d.data 0 1) ∧
        (sessOf u d.session).events.map (·.event) = x.events.map (·.event) ++
          ((sessOf u d.session).events.map (·.event)).drop x.events.length ∧
        t.dict.reply = some r ∧ r.result = 0 ∧ r.data = be 1 l.length ++ be 3 0 ++ (l.map eventRec).flatten ∧
        (∃ rest, (sessOf t d.session).events.map (·.event) =
          ((sessOf u d.session).events.drop (field d.data 0 1)).map (·.event) ++ rest) ∧ sessionsKept d.session s t ∧ replied s t) ∧
    (d.service = 0x11 → d.index = 0x3001 → ∀ o, findObj s d.index d.sub = .inl o →
      (writeRefusal s x.level o d.index d.sub d.data ≠ rOk →
        ∃ t r, exec (.eventPendingClear src ch b) s = .next t ∧ t.dict.reply = some r ∧
          r.result = writeRefusal s x.level o d.index d.sub d.data ∧ sessionsKept d.session s t ∧ replied s t) ∧
      (writeRefusal s x.level o d.index d.sub d.data = rOk →
        ∃ t r, exec (.eventPendingClear src ch b) s = .next t ∧ t.dict.reply = some r ∧ r.result = 0 ∧
          (∀ e, e ≠ 52 → e < 96 → (t.raised e ↔ s.raised e ∧ ¬(e / 32 + 1 = d.sub ∧ bit (ofBe d.data) (e % 32) = true))) ∧
          sessionsKept d.session s t ∧ replied s t)) ∧
    (∀ far, d.service = 0x30 →
      ((field d.data 0 2 = s.dict.modAddr ∨ field (d.data.drop 4) 1 1 ∈ [0x01, 0x02, 0x20, 0x30]) →
        ∃ t r, exec (.proxyReq src ch b far) s = .next t ∧ t.dict.reply = some r ∧ r.result = rBadRequest ∧
          sessionsKept d.session s t ∧ replied s t) ∧
      (field d.data 0 2 ≠ s.dict.modAddr → field (d.data.drop 4) 1 1 ∉ [0x01, 0x02, 0x20, 0x30] →
        (bridgePath s (field d.data 0 2) ≠ none → far.code = 0 →
          ∃ t r, exec (.proxyReq src ch b far) s = .next t ∧ t.dict.reply = some r ∧ r.result = 0 ∧
            r.data = be 2 0 ++ be 2 0 ++ far.reply ∧ sessionsKept d.session s t ∧ replied s t) ∧
        (bridgePath s (field d.data 0 2) ≠ none → far.code ≠ 0 → far.posted = false →
          ∃ t r, exec (.proxyReq src ch b far) s = .next t ∧ t.dict.reply = some r ∧ r.result = rProxy ∧ r.data = be 2 far.code ∧
            sessionsKept d.session s t ∧ replied s t) ∧
        (bridgePath s (field d.data 0 2) = none → s.bridge.failures.length < 64 →
          ∃ t r f, exec (.proxyReq src ch b far) s = .next t ∧ t.dict.reply = some r ∧ r.result = rProxy ∧ r.data = [0x80#8, 0x05#8] ∧
            t.raised 72 ∧ t.bridge.failures = s.bridge.failures ++ [f] ∧ f.target = field d.data 0 2 ∧ f.window = 14 ∧ f.init = 0 ∧
            f.code = 0x8005 ∧ sessionsKept d.session s t ∧
            replied { s with bridge := { s.bridge with failures := t.bridge.failures } } t)))) ∧
  (∀ (s : State) (h : Half) (port : Nat) (f : Frame) (far : ProxyIn),
    ((chanUp s h = false ∨ portLive s h port = false ∨ (portOf s h port).integ = false ∨ (portOf s h port).closed = true) →
      exec (.serviceFrame h port f far) s = .next s) ∧
    (chanUp s h = true → portLive s h port = true → (portOf s h port).integ = true → (portOf s h port).closed = false →
      ((serviceFrom s h port f.slot = none ∨ frameForm s port f 0x60 1500 (f.flags < 2) = false ∨ f.counter ≠ s.bus.counter) →
        ∃ t, exec (.serviceFrame h port f far) s = .next t ∧
          portOf t h port = { portOf s h port with discarded := min 0xFFFFFFFF ((portOf s h port).discarded + 1), discEvt := true } ∧
          ((portOf s h port).discEvt = false → t.raised 28) ∧ told s t ∧ portsKept h port s t ∧
          t = { s with bus := { s.bus with chans := t.bus.chans }, ev := t.ev, dict := t.dict }) ∧
      (∀ r, serviceFrom s h port f.slot = some r → frameForm s port f 0x60 1500 (f.flags < 2) = true → f.counter = s.bus.counter →
        ∃ u, replied s u ∧ (∀ n, sessOf u n = { sessOf s n with events := (sessOf u n).events }) ∧ u.dict.reply = s.dict.reply ∧
          ∀ c, (field f.body 1 1 = 0x01 ∧ c = .openSess (.welong port) (some h) f.body ∨
              field f.body 1 1 = 0x02 ∧ c = .closeSess (.welong port) (some h) f.body ∨
              field f.body 1 1 = 0x03 ∧ c = .statusReq (.welong port) (some h) f.body ∨
              field f.body 1 1 = 0x10 ∧ readsClear s (readDgram f.body) = false ∧ c = .readObj (.welong port) (some h) f.body ∨
              field f.body 1 1 = 0x10 ∧ readsClear s (readDgram f.body) = true ∧ c = .readClear (.welong port) (some h) f.body ∨
              field f.body 1 1 = 0x11 ∧ field f.body 8 2 ≠ 0x3001 ∧ c = .writeObj (.welong port) (some h) f.body ∨
              field f.body 1 1 = 0x11 ∧ field f.body 8 2 = 0x3001 ∧ c = .eventPendingClear (.welong port) (some h) f.body ∨
              field f.body 1 1 = 0x12 ∧ c = .describeObj (.welong port) (some h) f.body ∨
              field f.body 1 1 = 0x20 ∧ c = .eventRead (.welong port) (some h) f.body ∨
              field f.body 1 1 = 0x30 ∧ c = .proxyReq (.welong port) (some h) f.body far) →
            exec (.serviceFrame h port f far) s = exec c u)))

/-- Functions of the commons (R546, R552): what refuses them before they act. -/
def Obligations.FunctionsNeedTheirSession : Prop :=
  ∀ (s : State) (n v w : Nat) (x : Int) (l : Lane) (d : List Byte) (i : StartIn) (c : Instr) (min : Level) (key : Bool),
    ((c, min, key) ∈ [(Instr.fieldBookRead n, Level.observer, false), (.fieldBookSeek n v, .observer, false), (.chestRead n true, .observer, false),
      (.chestRead n false, .observer, false), (.snapshotRead n, .observer, false), (.eventRecordRead n, .observer, false),
      (.forceRecordRead n, .observer, false), (.checkAlgorithmSelect n v, .observer, false), (.checkData n d, .observer, false),
      (.checkRunningValue n v, .observer, false), (.chestClear n v, .commissioner, true), (.offsetIncrement n x, .maintainer, false),
      (.rateIncrement n x, .maintainer, false), (.timeStep n x, .maintainer, false), (.acknowledgeRefusal n, .maintainer, false),
      (.withdrawLane n l, .maintainer, false), (.returnLane n l, .maintainer, false), (.resynchronise n, .maintainer, false),
      (.handOver n, .maintainer, false), (.coldHandOver n, .maintainer, false), (.powerVote n none v w, .operator, false),
      (.selfTestStop n v, .maintainer, false), (.takeHalfOut n v, .maintainer, false), (.restartHalf n v i, .maintainer, false),
      (.clockRestore n v, .maintainer, false), (.wakeRetry n v, .maintainer, false), (.startUpConfirmation n v, .maintainer, false),
      (.updateOpen n none, .operator, false), (.updateAbandon n none, .operator, false), (.bufferWindow n d, .maintainer, false),
      (.installRolling n, .maintainer, false), (.installAllLanes n, .maintainer, false), (.installStop n, .maintainer, false)]) →
    ((sessOf s n).opened = false → exec c s = .next (withResult (rSession, []) s)) ∧
    ((sessOf s n).opened = true → levelRank (sessOf s n).level < levelRank min → exec c s = .next (withResult (rLevel, []) s)) ∧
    ((sessOf s n).opened = true → levelRank min ≤ levelRank (sessOf s n).level → key = true → s.lio.key = false →
      exec c s = .next (withResult (rKey, []) s))

/-- R571: the cursor and the seek of the Field book, with completion and frame. A value above 64 bits spells no command. -/
def Obligations.FieldBookCursor : Prop :=
  ∀ (s : State) (n : Nat), s.allows n .observer false →
    (∀ r l, s.book.recs = r :: l →
      exec (.fieldBookCursor n 0) s = .next (withResult (0, be 8 r.seq) (modSess n (fun y => { y with bookCur := r.seq }) s))) ∧
    exec (.fieldBookCursor n 0xFFFFFFFFFFFFFFFF) s =
      .next (withResult (0, be 8 (s.book.newest + 1)) (modSess n (fun y => { y with bookCur := s.book.newest + 1 }) s)) ∧
    (∀ v, 0 < v → v < 0xFFFFFFFFFFFFFFFF →
      exec (.fieldBookCursor n v) s = .next (withResult (0, be 8 v) (modSess n (fun y => { y with bookCur := v }) s))) ∧
    (∀ (t : Nat) (a : List FbRec) (r : FbRec) (b : List FbRec), s.book.recs = a ++ r :: b → (∀ x ∈ a, x.time < t) → (t : Int) ≤ r.time →
      exec (.fieldBookSeek n t) s = .next (withResult (0, []) (modSess n (fun y => { y with bookCur := r.seq }) s))) ∧
    (∀ t : Nat, (∀ x ∈ s.book.recs, x.time < t) →
      exec (.fieldBookSeek n t) s = .next (withResult (0, []) (modSess n (fun y => { y with bookCur := s.book.newest + 1 }) s)))

/-- Reading records (R570 to R577), cursors (R176, R326), the check-value unit (R593 to R595): results, completion and frames. That the read at the newest record answers zeros is the reading of the log. -/
def Obligations.RecordReading : Prop :=
  (∀ (s : State) (n : Nat), s.allows n .observer false →
    (s.book.newest ≤ (sessOf s n).bookCur →
      exec (.fieldBookRead n) s = .next (withResult (0, List.replicate 64 0#8) s)) ∧
    (∀ a r b, (sessOf s n).bookCur < s.book.newest → s.book.recs = a ++ r :: b → (∀ x ∈ a, x.seq < (sessOf s n).bookCur) →
      (sessOf s n).bookCur ≤ r.seq →
      exec (.fieldBookRead n) s = .next (withResult (0, bookBytes r) (modSess n (fun y => { y with
        bookCur := r.seq + 1,
        passed := min 0xFFFFFFFF (y.passed + (if (sessOf s n).bookCur = 0 then 0 else r.seq - (sessOf s n).bookCur)) }) s))) ∧
    (∀ good, (∀ x ∈ s.chest.recs, x.num < (sessOf s n).chestCur) →
      exec (.chestRead n good) s = .next (withResult (0, List.replicate 256 0#8) s)) ∧
    (∀ good a r b, s.chest.recs = a ++ r :: b → (∀ x ∈ a, x.num < (sessOf s n).chestCur) → (sessOf s n).chestCur ≤ r.num →
      ∃ t, exec (.chestRead n good) s = .next t ∧ t.dict.result = 0 ∧ (sessOf t n).chestCur = r.num + 1 ∧ t.chest.newest = s.chest.newest ∧
        t.chest.snaps = s.chest.snaps ∧ t.chest.recs.length = s.chest.recs.length ∧
        ((r.good && good) = true → t.dict.value = chestBody r.kind r ++ be 8 (crcOf crc64 (chestBody r.kind r)) ∧ t.ev = s.ev) ∧
        ((r.good && good) = false → t.dict.value.take 248 = (chestBody 0xFF r).take 248 ∧ t.raised 77) ∧
        (∀ m, m ≠ n → sessOf t m = { sessOf s m with events := (sessOf t m).events }) ∧
        t = { s with
          free := t.free, chest := { s.chest with recs := t.chest.recs }, ev := t.ev,
          dict := { s.dict with sessions := t.dict.sessions, result := 0, value := t.dict.value } }) ∧
    exec (.snapshotRead n) s = .next (withResult (0, snapWindow (snapSelected s (sessOf s n).snapSel) (sessOf s n).snapOff)
      (modSess n (fun y => { y with snapOff := min 0xFFFFFFFF (y.snapOff + 1024) }) s)) ∧
    (∀ v, s.view.events[(sessOf s n).eventCur]? = some v → exec (.eventRecordRead n) s =
      .next (withResult (0, eventBytes v) (modSess n (fun y => { y with eventCur := y.eventCur + 1 }) s))) ∧
    (s.view.events.length ≤ (sessOf s n).eventCur →
      exec (.eventRecordRead n) s = .next (withResult (0, List.replicate 24 0#8) s)) ∧
    (∀ f, s.view.prog.forces[(sessOf s n).forceCur]? = some f → exec (.forceRecordRead n) s =
      .next (withResult (0, forceBytes f) (modSess n (fun y => { y with forceCur := y.forceCur + 1 }) s))) ∧
    (s.view.prog.forces.length ≤ (sessOf s n).forceCur →
      exec (.forceRecordRead n) s = .next (withResult (0, List.replicate 16 0#8) s)) ∧
    (∀ v a, crcOf? v = some a → exec (.checkAlgorithmSelect n v) s =
      .next (withResult (0, be 1 v) (modSess n (fun y => { y with crcAlg := v, crcReg := a.init }) s))) ∧
    (∀ v, crcOf? v = none → exec (.checkAlgorithmSelect n v) s = .next (withResult (rRange, []) s)) ∧
    (∀ d : List Byte, 1 ≤ d.length → d.length ≤ 1024 → exec (.checkData n d) s =
      .next (withResult (0, []) (modSess n (fun y => { y with crcReg := crcFeed (unitAlg y) y.crcReg d }) s))) ∧
    (∀ d : List Byte, (d = [] ∨ 1024 < d.length) → exec (.checkData n d) s = .next (withResult (rLength, []) s)) ∧
    (∀ v, v < 2 ^ (unitAlg (sessOf s n)).width → exec (.checkRunningValue n v) s =
      .next (withResult (0, be 8 v) (modSess n (fun y => { y with crcReg := v }) s))) ∧
    (∀ v, 2 ^ (unitAlg (sessOf s n)).width ≤ v → exec (.checkRunningValue n v) s = .next (withResult (rRange, []) s))) ∧
  (∀ (s : State) (n v : Nat), s.allows n .commissioner true →
    (v ≠ 0xC1 → exec (.chestClear n v) s = .next (withResult (rRange, []) s)) ∧
    (s.chest.faulty = false → ∃ t r, exec (.chestClear n 0xC1) s = .next t ∧ t.dict.result = 0 ∧ t.raised 78 ∧ t.chest.recs = [r] ∧
      t.chest.newest = 1 ∧ r.num = 1 ∧ r.kind = 0x0C ∧ r.detail = be 1 n ++ be 4 s.chest.newest ∧
      t.chest.snaps = ⟨Snapshot.init, Snapshot.init⟩ ∧ t.chest.counters = s.chest.counters ∧ reported s t)) ∧
  (∀ s : State, ((s.book.lostNew = 0 ∨ 4096 ≤ s.book.buf.length) → exec .recordsLostMarker s = .next s) ∧
    (0 < s.book.lostNew → s.book.buf.length < 4096 → ∃ t r, exec .recordsLostMarker s = .next t ∧ t.raised 89 ∧
      t.book.buf = s.book.buf ++ [r] ∧ r.type = 5 ∧ r.data = (be 4 s.book.lostNew).map BitVec.toNat ∧ t.book.lostNew = 0 ∧
      t.book.lost = s.book.lost ∧ t.book.recs = s.book.recs ∧ reported s t))

/-- Self-test and ageing (R579 to R592): results, completion and frames. -/
def Obligations.TestsAndAgeing : Prop :=
  (∀ (s : State) (n inst : Nat), s.allows n .maintainer false →
    (∀ target slices, instKey? inst = none → exec (.selfTestRun n target inst slices) s =
      .next (withResult (rFunction, be 2 0xA002) { s with test := { s.test with outcome := 0xA002 } })) ∧
    (∀ target slices k c, instKey? inst = some k →
      ((targetFits target k = false ∨ isolated s k = false) ∧ c = 0xA002 ∨
        targetFits target k = true ∧ isolated s k = true ∧ (testOf s k).ts = .running ∧ c = 0xA006 ∨
        targetFits target k = true ∧ isolated s k = true ∧ (testOf s k).ts ≠ .running ∧ s.test.budget < fixedSlice target ∧ c = 0xA003) →
      exec (.selfTestRun n target inst slices) s =
        .next (withResult (rFunction, be 2 c) { s with test := { s.test with outcome := c } })) ∧
    (∀ target slices k, instKey? inst = some k → targetFits target k = true → isolated s k = true → (testOf s k).ts ≠ .running →
      fixedSlice target ≤ s.test.budget →
      ∃ t, exec (.selfTestRun n target inst slices) s = .next t ∧ t.raised 73 ∧ t.dict.result = 0 ∧ t.test.outcome = 0xA001 ∧
        (testOf t k).ts = .running ∧ (testOf t k).target = target ∧ (testOf t k).done = 0 ∧ (testOf t k).next = 0 ∧
        (testOf t k).total = (if slices = 0 then testSlices s target else min slices (testSlices s target)) ∧
        (∀ j, j ≠ k → testOf t j = testOf s j) ∧ reported { s with test := t.test } t) ∧
    (instKey? inst = none → exec (.selfTestStop n inst) s =
      .next (withResult (rFunction, be 2 0xA002) { s with test := { s.test with outcome := 0xA002 } })) ∧
    (∀ k, instKey? inst = some k →
      ((testOf s k).ts ≠ .running → exec (.selfTestStop n inst) s =
        .next (withResult (0, []) { s with test := { s.test with outcome := 0xA005 } })) ∧
      ((testOf s k).ts = .running → s.ns < (testOf s k).due → ∃ t, exec (.selfTestStop n inst) s = .next t ∧ t.raised 73 ∧
        t.dict.result = 0 ∧ t.test.outcome = 0xA005 ∧ testOf t k = { testOf s k with ts := .stopped, last := 0xA005, stop := false } ∧
        (∀ j, j ≠ k → testOf t j = testOf s j) ∧ reported { s with test := t.test } t) ∧
      ((testOf s k).ts = .running → (testOf s k).due ≤ s.ns → ∃ t, exec (.selfTestStop n inst) s = .next t ∧ t.dict.result = 0 ∧
        testOf t k = { testOf s k with stop := true } ∧ (∀ j, j ≠ k → testOf t j = testOf s j) ∧
        reported { s with test := t.test } t)) ∧
    (∀ h, instHalf? inst = some h →
      ((testOf s (3 + halfNo h)).ts = .running → exec (.takeHalfOut n inst) s =
        .next (withResult (rFunction, be 2 0xA006) { s with test := { s.test with outcome := 0xA006 } })) ∧
      ((testOf s (3 + halfNo h)).ts ≠ .running → ((twoGet s.halves (otherHalf h)).inServ = false ∨ modeOf s ≠ 0 ∧ modeOf s ≠ 1) →
        exec (.takeHalfOut n inst) s = .next (withResult (rFunction, be 2 0xA007) { s with test := { s.test with outcome := 0xA007 } })) ∧
      ((testOf s (3 + halfNo h)).ts ≠ .running → (twoGet s.halves (otherHalf h)).inServ = true → (modeOf s = 0 ∨ modeOf s = 1) →
        ∃ t, exec (.takeHalfOut n inst) s = .next t ∧ t.raised 73 ∧ t.dict.result = 0 ∧ (twoGet t.halves h).inServ = false ∧
          twoGet t.halves (otherHalf h) = twoGet s.halves (otherHalf h) ∧ twoGet t.test.halfOut h = true ∧
          twoGet t.test.halfOut (otherHalf h) = twoGet s.test.halfOut (otherHalf h) ∧ t.test.insts = s.test.insts ∧
          reported { s with halves := t.halves, tres := t.tres, tx := t.tx, bus := t.bus, test := t.test } t) ∧
      (∀ i, (twoGet s.halves h).inServ = true → exec (.restartHalf n inst i) s =
        .next (withResult (rFunction, be 2 0xA007) { s with test := { s.test with outcome := 0xA007 } })) ∧
      (∀ i, (twoGet s.halves h).inServ = false → ∃ t, exec (.restartHalf n inst i) s = .next t ∧ t.raised 73 ∧ t.dict.result = 0 ∧
        twoGet t.test.halfOut h = false ∧ twoGet t.halves (otherHalf h) = twoGet s.halves (otherHalf h) ∧ t.cfg = s.cfg ∧
        (∀ l, (triGet t.lanes l).kernel = (triGet s.lanes l).kernel ∧ (triGet t.lanes l).ls = (triGet s.lanes l).ls) ∧
        ((twoGet i.voter h).1 = 0 → (twoGet i.vec h).isNone = true → twoGet i.graph h = true →
          (twoGet t.halves h).inServ = true ∧ (twoGet t.halves h).voter = true ∧ (twoGet t.bus.chans h).st = .listening) ∧
        ((twoGet i.voter h).1 ≠ 0 → (twoGet t.halves h).inServ = false))) ∧
    (instHalf? inst = none → exec (.takeHalfOut n inst) s =
      .next (withResult (rFunction, be 2 0xA002) { s with test := { s.test with outcome := 0xA002 } }))) ∧
  (∀ (s : State) (inst : Nat) (fail : Option Nat),
    (instKey? inst = none → exec (.selfTestSlice inst fail) s = .next s) ∧
    (∀ k, instKey? inst = some k →
      (((testOf s k).ts ≠ .running ∨ s.ns < (testOf s k).due) → exec (.selfTestSlice inst fail) s = .next s) ∧
      ((testOf s k).ts = .running → (testOf s k).due ≤ s.ns →
        ∃ t, exec (.selfTestSlice inst fail) s = .next t ∧ (∀ j, j ≠ k → testOf t j = testOf s j) ∧
          (fail = none → (testOf t k).done = (testOf s k).done + 1 ∧
            ((testOf s k).total ≤ (testOf s k).next + 1 → (testOf t k).ts = .passed ∧ t.test.outcome = 0 ∧ t.raised 73) ∧
            ((testOf s k).next + 1 < (testOf s k).total → (testOf s k).stop = true →
              (testOf t k).ts = .stopped ∧ t.test.outcome = 0xA005 ∧ t.raised 73) ∧
            ((testOf s k).next + 1 < (testOf s k).total → (testOf s k).stop = false →
              (testOf t k).ts = .running ∧ (testOf t k).due = s.ns + 10000000) ∧
            (k < 3 → ((testOf s k).target = 3 ∨ (testOf s k).target = 4) → reported { s with test := t.test } t) ∧
            (∀ l, laneOf? k = some l → ((testOf s k).target = 1 ∨ (testOf s k).target = 2) → triGet t.power.retained l = none ∧
              (∀ m, m ≠ l → triGet t.lanes m = triGet s.lanes m) ∧ t.halves = s.halves)) ∧
          (∀ d, fail = some d → (testOf t k).ts = .failed ∧ (testOf t k).fail = d ∧ (testOf t k).last = 0xA004 ∧ t.test.outcome = 0xA004 ∧
            t.raised 74 ∧ t.raised 73 ∧ (∀ l, laneOf? k = some l → (triGet t.lanes l).ls = .held) ∧
            (laneOf? k = none → (twoGet t.halves (keyHalf k)).inServ = false))))) ∧
  (∀ (s : State) (index sub margin : Nat), ageItemOk index sub = true → margin ≤ 100 →
    ∃ t, exec (.ageingMeasurement index sub margin) s = .next t ∧ (ageItemOf t (ageKey index sub)).margin = margin ∧
      (ageItemOf t (ageKey index sub)).samples = (ageItemOf s (ageKey index sub)).samples + 1 ∧
      (ageItemOf t (ageKey index sub)).warned = decide (margin ≤ warnLevel s (ageKey index sub)) ∧
      (margin ≤ warnLevel s (ageKey index sub) → (ageItemOf s (ageKey index sub)).warned = false → t.raised 69) ∧
      (index = 0x3603 → margin ≤ 40 → s.age.threshold < 16500 → t.raised 71 ∧ t.age.threshold = min 16500 (s.age.threshold + 100)) ∧
      ((index ≠ 0x3603 ∨ 40 < margin ∨ 16500 ≤ s.age.threshold) → t.age.threshold = s.age.threshold) ∧
      (∀ k, k ≠ ageKey index sub → ageItemOf t k = ageItemOf s k) ∧
      reported { s with age := { s.age with items := t.age.items, threshold := t.age.threshold } } t) ∧
  (∀ (s : State) (l : Lane),
    (timingMargin s l ≤ 10 → (triGet s.lanes l).redclk = false → ∃ t, exec (.clockStep l true) s = .next t ∧ t.raised 68 ∧
      triGet t.lanes l = { triGet s.lanes l with redclk := true } ∧ (∀ m, m ≠ l → triGet t.lanes m = triGet s.lanes m) ∧
      reported { s with lanes := t.lanes } t) ∧
    exec (.clockStep l false) s = .next s ∧
    (∀ b, (10 < timingMargin s l ∨ (triGet s.lanes l).redclk = true) → exec (.clockStep l b) s = .next s) ∧
    (∀ b, 40 < (ageItemOf s (ageKey 0x3602 (laneNo l + 1))).margin → exec (.norRefresh l b) s = .next s) ∧
    ((ageItemOf s (ageKey 0x3602 (laneNo l + 1))).margin ≤ 40 →
      (∃ t, exec (.norRefresh l true) s = .next t ∧ t.raised 70 ∧ reported s t) ∧
      (inVote s l = true → ∃ t, exec (.norRefresh l false) s = .next t ∧ inVote t l = false ∧ (triGet t.lanes l).reason = 0x05 ∧
        t.raised (laneNo l))) ∧
    (slowImages < (triGet s.test.ist l).images → (triGet s.test.ist l).slow = false → ∃ t, exec (.rotationSlow l) s = .next t ∧
      t.raised 75 ∧ triGet t.test.ist l = { triGet s.test.ist l with slow := true } ∧
      (∀ m, m ≠ l → triGet t.test.ist m = triGet s.test.ist m) ∧ reported { s with test := { s.test with ist := t.test.ist } } t) ∧
    (((triGet s.test.ist l).images ≤ slowImages ∨ (triGet s.test.ist l).slow = true) → exec (.rotationSlow l) s = .next s)) ∧
  (∀ (s : State) (n v : Nat), s.allows n .maintainer false →
    (∀ l, laneOf? v = some l → ∃ t, exec (.clockRestore n v) s = .next t ∧ triGet t.age.restore l = true ∧
      (∀ m, m ≠ l → triGet t.age.restore m = triGet s.age.restore m) ∧
      t = withResult (0, []) { s with age := { s.age with restore := t.age.restore } }) ∧
    (laneOf? v = none → exec (.clockRestore n v) s = .next (withResult (rRange, []) s))) ∧
  (∀ s : State, ∃ t, exec .forecastDay s = .next t ∧
    (∀ p ∈ t.age.items, p.2.forecast = forecast (warnLevel s p.1) p.2 ∧ p.2.samples = 0) ∧
    (∀ q ∈ s.age.items, ∃ p ∈ t.age.items, p.1 = q.1 ∧ p.2.margin = q.2.margin ∧ p.2.warned = q.2.warned ∧
      (q.2.samples ≠ 0 → p.2.means = ((q.2.sum * 1000 / q.2.samples) :: q.2.means).take 180) ∧
      (q.2.samples = 0 → p.2.means = q.2.means)) ∧
    t = { s with age := { s.age with items := t.age.items } })

/-- Votes and wakes (R373, R599, R600, R604): results, completion and frames. -/
def Obligations.VotesAndWakes : Prop :=
  (∀ (s : State) (n v : Nat), s.allows n .operator false → (v ≤ 3 ∨ v = 0xFF) →
    (s.power.moving = none → exec (.powerVote n none 1 v) s =
      .next (withResult (0, be 1 v) { s with power := { s.power with votes := s.power.votes.set 0 v } })) ∧
    (s.power.moving.isSome = true → ∃ t, exec (.powerVote n none 1 v) s = .next t ∧ t.raised 65 ∧ t.dict.result = 0 ∧
      reported { s with power := { s.power with
        votes := s.power.votes.set 0 v, collapsed := min 255 (s.power.collapsed + 1) } } t)) ∧
  (∀ (s : State) (n v : Nat), s.allows n .operator false →
    (∀ sub, (sub = 2 ∨ sub = 3) → exec (.powerVote n none sub v) s = .next (withResult (rLevel, []) s)) ∧
    (∀ sub, (sub = 4 ∨ sub = 5) → exec (.powerVote n none sub v) s = .next (withResult (rAccess, []) s)) ∧
    (3 < v → v ≠ 0xFF → exec (.powerVote n none 1 v) s = .next (withResult (rRange, []) s))) ∧
  (∀ (s : State) (n v sub m : Nat) (l : Level), 1 ≤ levelRank l → (v ≤ 3 ∨ v = 0xFF) →
    (sub = 2 ∧ m = s.datum.addr ∨ sub = 3 ∧ m = s.pair.partnerAddr) → m ≠ 0xFFFF →
    (s.power.moving = none → exec (.powerVote n (some (m, l)) sub v) s =
      .next (withResult (0, be 1 v) { s with power := { s.power with votes := s.power.votes.set (sub - 1) v } }))) ∧
  (∀ s : State,
    ((s.power.st = .off ∨ s.power.pfail ≠ 0 ∨ s.power.st = .failedWake) → ∀ c, exec (.wakeRequest c) s = .next s) ∧
    (s.ns < s.power.wakeDrive → exec (.wakeRequest none) s = .next s) ∧
    (∀ c, (s.power.wakeTime = 0 ∨ c < s.power.wakeTime) → exec (.wakeRequest (some c)) s = .next s) ∧
    (s.power.st ≠ .off → s.power.st ≠ .failedWake → s.power.pfail = 0 → s.power.wakeDrive ≤ s.ns →
      (s.power.moving = none → exec (.wakeRequest none) s = .next { s with power := { s.power with
        votes := s.power.votes.set 4 0, wakeUntil := some (s.ns + s.power.holdS * 1000000000) } }) ∧
      (∀ m, s.power.moving = some m → pwCode s.power.st < pwCode m → (s.power.step = 0 ∨ s.power.step = 7) →
        ∃ t, exec (.wakeRequest none) s = .next t ∧ t.raised 65 ∧ reported { s with power := { s.power with
          votes := s.power.votes.set 4 0, wakeUntil := some (s.ns + s.power.holdS * 1000000000), wakeQ := true } } t)) ∧
    (∀ c, s.power.st ≠ .off → s.power.st ≠ .failedWake → s.power.pfail = 0 → s.power.wakeTime ≠ 0 → s.power.wakeTime ≤ c →
      s.power.moving = none → exec (.wakeRequest (some c)) s = .next { s with power := { s.power with
        calendar := max s.power.calendar c, wakeTime := 0, votes := s.power.votes.set 4 0,
        wakeUntil := some (s.ns + s.power.holdS * 1000000000) } })) ∧
  (∀ s : State, (s.power.wakeUntil = none → exec .wakeHoldExpiry s = .next s) ∧
    (∀ e, s.power.wakeUntil = some e → s.ns < e → exec .wakeHoldExpiry s = .next s) ∧
    (∀ e, s.power.wakeUntil = some e → e ≤ s.ns →
      (s.power.moving = none → exec .wakeHoldExpiry s = .next { s with power := { s.power with
        wakeUntil := none, votes := s.power.votes.set 4 0xFF } }) ∧
      (s.power.moving.isSome = true → ∃ t, exec .wakeHoldExpiry s = .next t ∧ t.raised 65 ∧ reported { s with power := { s.power with
        wakeUntil := none, votes := s.power.votes.set 4 0xFF, collapsed := min 255 (s.power.collapsed + 1) } } t))) ∧
  (∀ (s : State) (h : Half) (port : Nat) (f : Frame),
    ((s.bus.dormant = false ∨ s.power.st ≠ .dormant ∨ 2 ≤ port ∨ chanUp s h = false ∨ portLive s h port = false) →
      exec (.wakeFrame h port f) s = .next s) ∧
    (s.bus.dormant = true → s.power.st = .dormant → port < 2 → chanUp s h = true → portLive s h port = true →
      (frameOk s port f 0x15 11 s.bus.counter 4 (f.flags < 2) = true → f.body = [0#8, 0#8, 0#8, 0#8] → s.power.moving = none →
        ∃ t, exec (.wakeFrame h port f) s = .next t ∧ t.raised 29 ∧ reported { s with power := { s.power with
          votes := s.power.votes.set 4 0, wakeUntil := some (s.ns + s.power.holdS * 1000000000) } } t) ∧
      ((frameOk s port f 0x15 11 s.bus.counter 4 (f.flags < 2) = false ∨ f.body.length ≠ 4) →
        ∃ t, exec (.wakeFrame h port f) s = .next t ∧
          portOf t h port = { portOf s h port with discarded := min 0xFFFFFFFF ((portOf s h port).discarded + 1), discEvt := true } ∧
          told s t ∧ portsKept h port s t ∧
          t = { s with bus := { s.bus with chans := t.bus.chans }, ev := t.ev, dict := t.dict })))

/-- TRANSITION_START and TRANSITION_COMPLETE (R602 to R604): results and completion. -/
def Obligations.PowerTransitions : Prop :=
  (∀ s : State,
    (s.power.moving.isSome = true ∨ s.power.pfail ≠ 0 ∨ s.power.st = .off ∨ s.power.st = .failedWake ∨
      (s.power.step ≠ 0 ∧ s.power.step ≠ 7) ∨ powerTarget s.power.votes = pwCode s.power.st ∨ s.upd.updating = true) →
    exec .transitionStart s = .next s) ∧
  (∀ s : State, s.power.moving = none → s.power.pfail = 0 → (s.power.step = 0 ∨ s.power.step = 7) → s.upd.updating = false →
    (s.power.st = .run → 1 ≤ powerTarget s.power.votes → s.pair.role ≠ .active → s.power.leavingFor = none →
      ∃ t, exec .transitionStart s = .next t ∧ t.power.st = .run ∧ t.power.moving = some .quiet ∧ t.power.transAt = s.ns ∧
        t.halves.a.next = none ∧ t.halves.b.next = none ∧ t.lio.localNext = none ∧ t.power.votes = s.power.votes) ∧
    (s.power.st = .quiet → 2 ≤ powerTarget s.power.votes →
      ∃ t, exec .transitionStart s = .next t ∧ t.power = { s.power with moving := some .dormant, transAt := s.ns } ∧ t.lanes = s.lanes) ∧
    (s.power.st = .quiet → powerTarget s.power.votes = 0 → s.vote.restrictive = false →
      ∃ t, exec .transitionStart s = .next t ∧ t.power.st = .run ∧ t.power.moving = some .run ∧ t.power.step = 6 ∧
        t.power.confirmed = false ∧ t.dict.warm = quietWarm s ∧
        (quietWarm s = false → ∀ l n, (rst (triGet t.lanes l).kernel n).state = .released)) ∧
    (s.power.st = .dormant → powerTarget s.power.votes ≤ 1 →
      ∃ t, exec .transitionStart s = .next t ∧ t.power.st = .run ∧ t.power.moving = some .quiet ∧ t.power.step = 3 ∧
        t.power.confirmed = false ∧ t.raised 29 ∧ t.bus.dormant = false ∧
        (s.power.bankMask ≠ 0xFF → t.power.coldNext = true)) ∧
    (s.power.st = .dormant → powerTarget s.power.votes = 3 →
      ∃ t, exec .transitionStart s = .next t ∧ t.power = { s.power with moving := some .standby, transAt := s.ns }) ∧
    (s.power.st = .standby → powerTarget s.power.votes ≤ 2 →
      ∃ t, exec .transitionStart s = .next t ∧ t.power.st = .standby ∧ t.power.moving = some .dormant ∧ t.power.step = 1 ∧
        t.power.coldNext = true)) ∧
  (∀ s : State,
    (s.power.moving = none → exec .transitionComplete s = .next s) ∧
    (∀ w, s.power.moving = some w → (moveDone s = false ∨ s.power.pfail ≠ 0) → exec .transitionComplete s = .next s) ∧
    (∀ w, s.power.moving = some w → moveDone s = true → s.power.pfail = 0 → (w = .run ∨ w = .quiet ∨ w = .dormant) →
      powerTarget s.power.votes = pwCode w →
      ∃ t, exec .transitionComplete s = .next t ∧ t.raised 64 ∧ t.power.st = w ∧ t.power.moving = none ∧ t.power.collapsed = 0 ∧
        t.power.wakeQ = false ∧ t.power.votes = s.power.votes ∧
        (w = .quiet → t.power.confirmed = false ∧ t.power.step = 0 ∧ t.lanes = s.lanes) ∧
        (w = .dormant → t.bus.dormant = true ∧ t.raised 29 ∧ t.power.retained =
          (if s.power.bankMask = 0xFF then s.power.retained else ⟨none, none, none⟩))) ∧
    (s.power.moving = some .standby → s.power.pfail = 0 → powerTarget (s.power.votes.set 4 0xFF) = 3 →
      ∃ t, exec .transitionComplete s = .next t ∧ t.power.st = .standby ∧ t.power.moving = none ∧ t.raised 64 ∧
        (∀ n, (sessOf t n).opened = false) ∧ t.halves.a.inServ = false ∧ t.halves.b.inServ = false ∧
        t.power.retained = ⟨none, none, none⟩ ∧ t.power.calendar = moduleNs s / 1000000000))

/-- Supplies (R575, R576, R631 to R636, R654): results, completion and frames. -/
def Obligations.SuppliesAndCell : Prop :=
  (∀ (s : State) (n : Nat) (mv : Int),
    ((n = 0 ∨ 2 < n ∨ 16800 ≤ mv) → exec (.supplyLost n mv) s = .next s) ∧
    ((n = 0 ∨ 2 < n ∨ mv ≤ 34000) → exec (.supplyOvervoltage n mv) s = .next s) ∧
    (∀ c, 1 ≤ n → n ≤ 2 → (c = .supplyLost n mv ∧ mv < 16800 ∨ c = .supplyOvervoltage n mv ∧ 34000 < mv) →
      ∃ t, exec c s = .next t ∧ (supplyOf t n).lost = true ∧ (supplyOf t n).millivolt = mv ∧ (34000 < mv → (supplyOf t n).disconnected = true) ∧
        supplyOf t (3 - n) = supplyOf s (3 - n) ∧ ((supplyOf s n).lost = false → t.raised 67) ∧
        ((supplyLow (supplyOf t 1) && supplyLow (supplyOf t 2)) = true → ∀ o ∈ s.cfg.localOuts, (voOf t o.num).ocode ≠ .none) ∧
        ((supplyLow (supplyOf t 1) && supplyLow (supplyOf t 2)) = false → t.lio = s.lio) ∧
        reported { s with supply := t.supply, lio := { s.lio with vos := t.lio.vos } } t) ∧
    ((n = 0 ∨ 2 < n ∨ mv ≤ 32000 ∨ 34000 < mv ∨ (supplyOf s n).over32 = true) → exec (.supplyEnters32VBand n mv) s = .next s) ∧
    (1 ≤ n → n ≤ 2 → 32000 < mv → mv ≤ 34000 → (supplyOf s n).over32 = false →
      ∃ t, exec (.supplyEnters32VBand n mv) s = .next t ∧ t.raised 67 ∧
        supplyOf t n = { supplyOf s n with millivolt := mv, over32 := true } ∧ supplyOf t (3 - n) = supplyOf s (3 - n) ∧
        reported { s with supply := t.supply } t) ∧
    ((n = 0 ∨ 2 < n ∨ mv < 16800 ∨ 33000 < mv ∨ (supplyOf s n).lost = false) → exec (.supplyReturned n mv) s = .next s) ∧
    (1 ≤ n → n ≤ 2 → 16800 ≤ mv → mv ≤ 33000 → (supplyOf s n).lost = true →
      ∃ t, exec (.supplyReturned n mv) s = .next t ∧ t.raised 67 ∧ (supplyOf t n).lost = false ∧ (supplyOf t n).disconnected = false ∧
        supplyOf t (3 - n) = supplyOf s (3 - n) ∧
        (s.power.st ≠ .off → s.power.pfail ≠ 2 → s.power.st ≠ .failedWake → reported { s with supply := t.supply } t) ∧
        ((s.power.st = .off ∨ s.power.pfail = 2) → t.power.step = 1 ∧ t.power.pfail = 0 ∧ t.power.bankCharged = false ∧
          t.power.retained = ⟨none, none, none⟩ ∧ t.power.confirmed = false ∧ t.halves.a.inServ = false ∧ t.halves.b.inServ = false) ∧
        (s.power.st = .off → s.power.votes.length = 5 → t.power.votes.getD 4 0xFF = 0))) ∧
  (∀ s : State,
    (s.supply.pwr1.lost = true → s.supply.pwr2.lost = true → exec .holdUpBankCharged s = .next s) ∧
    ((s.supply.pwr1.lost = false ∨ s.supply.pwr2.lost = false) →
      exec .holdUpBankCharged s = .next { s with power := { s.power with bankCharged := true } })) ∧
  (∀ (s : State) (v w : Int),
    ((s.power.pfail ≠ 0 ∨ s.power.st = .off ∨ (s.age.threshold : Int) ≤ v ∨ (s.age.threshold : Int) ≤ w) →
      exec (.powerFail v w) s = .next s) ∧
    (s.power.pfail = 0 → s.power.st ≠ .off → v < s.age.threshold → w < s.age.threshold →
      ∃ t, exec (.powerFail v w) s = .next t ∧ t.power.pfail = 1 ∧ t.tx = ⟨TxSt.init, TxSt.init⟩ ∧
        (∀ h, (twoGet t.halves h).active = none ∧ (twoGet t.halves h).next = none) ∧ t.lio.locals = none ∧ t.lio.localNext = none ∧
        (∀ n, (voOf t n).on = false ∧ (voOf t n).permit = false) ∧ t.lanes = s.lanes ∧ t.dict.sessions.length = s.dict.sessions.length ∧
        (s.chest.faulty = false → t.chest.newest = s.chest.newest + 1 ∧ t.raised 76) ∧
        (∀ h, twoGet s.chest.counters h ≤ twoGet t.chest.counters h) ∧ t.bus = s.bus)) ∧
  (∀ s : State,
    (s.power.pfail ≠ 1 → ∀ b, exec (.powerFailWriteDone b) s = .next s) ∧
    (s.power.pfail = 1 →
      (∃ t, exec (.powerFailWriteDone true) s = .next t ∧ t.power.step = 1 ∧ t.power.pfail = 0 ∧ t.power.st = .run ∧
        t.power.retained = s.power.retained ∧ t.power.coldNext = s.power.coldNext ∧ t.book = s.book ∧ t.chest = s.chest) ∧
      (∃ t, exec (.powerFailWriteDone false) s = .next t ∧ t.power.pfail = 2 ∧ t.power.retained = ⟨none, none, none⟩ ∧
        t.power.coldNext = true ∧ t.book.buf = [] ∧ t.book.recs = s.book.recs ∧ t.pair.retainedEpoch = 0 ∧
        (s.supply.cellMissing = true → t.power.st = .off) ∧ (s.supply.cellMissing = false → t.power.st = s.power.st) ∧
        t.chest = s.chest ∧ t.ev = s.ev))) ∧
  (∀ (s : State) (mv : Nat),
    ((s.power.st = .off ∨ s.supply.pwr1.lost = true ∧ s.supply.pwr2.lost = true) → exec (.backupCellMeasurement mv) s = .next s) ∧
    (s.power.st ≠ .off → (s.supply.pwr1.lost = false ∨ s.supply.pwr2.lost = false) →
      ∃ t, exec (.backupCellMeasurement mv) s = .next t ∧ t.supply.cellMv = mv ∧
        (2300 ≤ mv → 1 ≤ s.supply.cellGood → t.supply.cellLow = false ∧ t.supply.cellMissing = false) ∧
        (2300 ≤ mv → s.supply.cellGood = 0 → t.supply.cellGood = 1 ∧ t.supply.cellLow = s.supply.cellLow ∧
          t.supply.cellMissing = s.supply.cellMissing) ∧
        (mv < 2300 → t.supply.cellGood = 0 ∧ t.supply.cellLow = (s.supply.cellLow || decide (mv < 2200)) ∧
          t.supply.cellMissing = (s.supply.cellMissing || decide (mv < 1800))) ∧
        ((t.supply.cellLow ≠ s.supply.cellLow ∨ t.supply.cellMissing ≠ s.supply.cellMissing) → t.raised 67) ∧
        reported { s with supply := { s.supply with
          cellMv := mv, cellGood := t.supply.cellGood, cellLow := t.supply.cellLow, cellMissing := t.supply.cellMissing } } t)) ∧
  (∀ (s : State) (d : Nat),
    ((d = 0 ∨ 5 < d) → exec (.thermalShutdown d) s = .next s) ∧
    (∀ h, (d = 1 ∧ h = .a ∨ d = 2 ∧ h = .b) → (twoGet s.halves h).inServ = true →
      ∃ t, exec (.thermalShutdown d) s = .next t ∧ (twoGet t.halves h).inServ = false ∧ t.raised 32 ∧ twoGet t.tx h = TxSt.init ∧
        twoGet t.halves (otherHalf h) = twoGet s.halves (otherHalf h) ∧ t.lanes = s.lanes) ∧
    (∀ l, 3 ≤ d → laneOf? (d - 3) = some l → inVote s l = true →
      ∃ t, exec (.thermalShutdown d) s = .next t ∧ inVote t l = false ∧ (triGet t.lanes l).reason = 0x08 ∧ t.raised (laneNo l))) ∧
  (∀ (s : State) (c o n : Nat),
    (s.pair.partnerAddr = 0xFFFF → exec (.compatibilityClassRead c o n) s = .next s) ∧
    (s.pair.partnerAddr ≠ 0xFFFF → ∃ t, exec (.compatibilityClassRead c o n) s = .next t ∧
      t.pair.partner = { s.pair.partner with compatClass := c, orderCode := o, settingsN := n } ∧ t.pair.epoch = s.pair.epoch ∧
      (s.pair.partner.heard = true → c ≠ 0 → c ≠ s.lanes.a.fwClass → t.pair.readySince = none) ∧ told s t ∧
      t = { s with pair := t.pair, ev := t.ev, dict := t.dict }))

/-- Start-up (R606 to R611) and RESET (R434): results and completion. -/
def Obligations.StartUp : Prop :=
  (∀ (s : State) (i : StartIn),
    ((s.power.pfail ≠ 0 ∨ s.power.st = .failedWake ∨ s.power.st = .off ∨ s.vote.restrictive = true ∨ s.power.step = 0 ∨
      s.power.step = 7 ∨ s.power.step = 1 ∧ s.power.bankCharged = false ∨
      (s.power.step = 5 ∨ s.power.step = 6) ∧ s.vote.matchAny = none) → exec (.startUpStep i) s = .next s) ∧
    (s.power.pfail = 0 → s.power.st ≠ .failedWake → s.power.st ≠ .off → s.vote.restrictive = false →
      (s.power.step = 1 → s.power.bankCharged = true →
        ∃ t, exec (.startUpStep i) s = .next t ∧ t.power.step = 2 ∧
          t.casc.startCount = (max s.power.keeperCount s.power.norCount + 1) % 2 ^ 32 ∧ t.power.keeperCount = t.casc.startCount ∧
          t.power.norCount = t.casc.startCount ∧ (∀ n, (sessOf t n).opened = false) ∧ t.lanes = s.lanes ∧ t.halves = s.halves) ∧
      (s.power.step = 2 →
        ((domainOf s 1).failed = true → (domainOf s 2).failed = true →
          ∃ t, exec (.startUpStep i) s = .next t ∧ t.power.st = .failedWake ∧ t.raised 66 ∧ t.bus.dormant = true) ∧
        (∀ h, (domainOf s (halfNo h + 1)).failed = false → ∃ t, exec (.startUpStep i) s = .next t ∧ (twoGet t.halves h).inServ = true ∧
          t.dict.modAddr = s.dict.modAddrSet ∧ (twoGet t.bus.chans h).st = .listening ∧
          halfReading (twoGet t.time.halves h) = (i.calendar : Int) * 1000000000 * 65536 ∧
          (s.power.moving ≠ some .dormant → t.power.step = 3) ∧
          (s.power.moving = some .dormant → t.power.step = 0 ∧ t.bus.dormant = true))) ∧
      (s.power.step = 3 → ∀ h, (twoGet s.halves h).inServ = true → (twoGet i.voter h).1 = 0 → (twoGet i.vec h).isNone = true →
        ∃ t, exec (.startUpStep i) s = .next t ∧ t.power.step = 4 ∧ (twoGet t.halves h).inServ = true ∧ (twoGet t.halves h).voter = true ∧
          ((twoGet i.voter (otherHalf h)).1 ≠ 0 → (twoGet t.halves (otherHalf h)).inServ = false)) ∧
      (s.power.step = 4 → ∃ t, exec (.startUpStep i) s = .next t ∧ t.power.step = 5 ∧ t.vote.matchAny = none ∧
        (t.power.unconfigured = true → t.raised 88)) ∧
      (s.power.step = 5 → s.vote.matchAny.isSome = true → ∃ t, exec (.startUpStep i) s = .next t ∧ t.power.step = 6 ∧
        t.vote.matchAny = none ∧ t.power.confirmed = false ∧ t.dict.warm = !s.power.coldNext ∧
        (s.power.coldNext = true → ∀ l n, (rst (triGet t.lanes l).kernel n).state = .released)) ∧
      (s.power.step = 6 → s.vote.matchAny.isSome = true →
        (s.power.moving = some .quiet → exec (.startUpStep i) s = .next { s with power := { s.power with step := 0 } }) ∧
        (s.power.moving ≠ some .quiet → exec (.startUpStep i) s = .next { s with power := { s.power with
          step := 7, step7At := s.ns, confirmed := false, confirmDue := false, confirmImg := none } })))) ∧
  (∀ (s : State) (n v : Nat), s.allows n .maintainer false →
    (v ≠ 0xA5 → exec (.startUpConfirmation n v) s = .next (withResult (rRange, []) s)) ∧
    ((s.power.step ≠ 7 ∨ s.power.st ≠ .run) → exec (.startUpConfirmation n 0xA5) s =
      .next (withResult (rFunction, [0xB0#8, 0x15#8]) { s with power := { s.power with confirmOutcome := 0xB015 } })) ∧
    (s.power.step = 7 → s.power.st = .run → exec (.startUpConfirmation n 0xA5) s =
      .next (withResult (0, []) { s with power := { s.power with confirmOutcome := 0, confirmDue := true, confirmSrc := 2 } })) ∧
    (v ≠ 1 → exec (.wakeRetry n v) s = .next (withResult (rRange, []) s)) ∧
    (s.power.st ≠ .failedWake → exec (.wakeRetry n 1) s = .next (withResult (rFunction, [0xB0#8, 0x16#8]) s)) ∧
    (s.power.st = .failedWake → ∃ t, exec (.wakeRetry n 1) s = .next t ∧ t.dict.result = 0 ∧ t.power.st = .run ∧ t.power.step = 1 ∧
      t.power.domains = [] ∧ t.power.coldNext = true)) ∧
  (∀ (s : State) (d stp : Nat),
    ((domainWaking s d = false ∨ (domainOf s d).failed = true ∨ stp = 0 ∨ 2 < stp) → exec (.wakeStepTimeout d stp) s = .next s) ∧
    (domainWaking s d = true → (domainOf s d).failed = false → 1 ≤ stp → stp ≤ 2 →
      ((domainOf s d).attempts < 3 → ∃ t, exec (.wakeStepTimeout d stp) s = .next t ∧ t.raised 66 ∧
        domainOf t d = ⟨stp, (domainOf s d).attempts + 1, true, false⟩ ∧ (∀ e, e ≠ d → domainOf t e = domainOf s e) ∧
        reported { s with power := { s.power with domains := t.power.domains } } t) ∧
      (3 ≤ (domainOf s d).attempts → ∃ t, exec (.wakeStepTimeout d stp) s = .next t ∧ (domainOf t d).failed = true ∧
        t.power.lastWake = d * 2 ^ 24 + 4 * 2 ^ 16 ∧
        (d = 0 → t.power.st = .failedWake ∧ t.raised 66) ∧
        (∀ h, (d = 1 ∧ h = .a ∨ d = 2 ∧ h = .b) → (domainOf s (3 - d)).failed = false →
          (∀ l, (domainOf s (laneNo l + 3)).failed = false) → (twoGet t.halves h).inServ = false) ∧
        (∀ l, 3 ≤ d → laneOf? (d - 3) = some l → (domainOf s 1).failed = false →
          (∀ m, m ≠ l → (domainOf s (laneNo m + 3)).failed = false) → (triGet t.lanes l).ls = .held)))) ∧
  (∀ s : State,
    ((s.lio.resetLevel = false ∨ s.ns < s.lio.resetSince + 20000000 ∨ s.lio.resetLowNs < 100000000) → exec .resetEdge s = .next s) ∧
    (s.lio.resetLevel = true → s.lio.resetSince + 20000000 ≤ s.ns → 100000000 ≤ s.lio.resetLowNs →
      ∃ t, exec .resetEdge s = .next t ∧ t.lio.rcount = (s.lio.rcount + 1) % 65536 ∧ t.lio.resetLowNs = 0 ∧
        (resetEffect s = 0 → t.raised 39 ∧ reported { s with lio := { s.lio with resetLowNs := 0, rcount := t.lio.rcount } } t) ∧
        (resetEffect s = 1 → reported { s with
          lio := { s.lio with resetLowNs := 0, rcount := t.lio.rcount }, power := { s.power with confirmDue := true, confirmSrc := 1 } } t) ∧
        (2 ≤ resetEffect s → t.power.st = .run ∧ t.power.step = 1 ∧ t.power.coldNext = true ∧ t.power.confirmed = false)))

/-- Receiving firmware (R613 to R618): results, completion and frames. -/
def Obligations.ReceivingFirmware : Prop :=
  (∀ (s : State) (n : Nat) (d : List Byte), s.allows n .maintainer false →
    ((d = [] ∨ 1024 < d.length) → exec (.bufferWindow n d) s = .next (withResult (rLength, []) s)) ∧
    (d ≠ [] → d.length ≤ 1024 → 65536 < s.upd.bufOffset + d.length → exec (.bufferWindow n d) s = .next (withResult (rRange, []) s)) ∧
    (d ≠ [] → d.length ≤ 1024 → s.upd.bufOffset + d.length ≤ 65536 → exec (.bufferWindow n d) s =
      .next (withResult (0, []) { s with upd := { s.upd with
        buffer := memWriteAll s.upd.buffer s.upd.bufOffset d, bufOffset := s.upd.bufOffset + d.length } }))) ∧
  (∀ (s : State) (n : Nat) (via : Option Level), (via = none ∧ s.allows n .operator false ∨ ∃ l, via = some l ∧ 1 ≤ levelRank l) →
    (∀ c, (s.upd.accept = false ∧ c = 0xB012 ∨ s.upd.accept = true ∧ updateBusy s = true ∧ c = 0xB007 ∨
        s.upd.accept = true ∧ updateBusy s = false ∧ fwHeaderOk s.upd.buffer = false ∧ c = 0xB002 ∨
        s.upd.accept = true ∧ updateBusy s = false ∧ fwHeaderOk s.upd.buffer = true ∧ s.ident.loader < memNat s.upd.buffer 36 4 ∧ c = 0xB003 ∨
        s.upd.accept = true ∧ updateBusy s = false ∧ fwHeaderOk s.upd.buffer = true ∧ memNat s.upd.buffer 36 4 ≤ s.ident.loader ∧
          vendorKey s s.upd.buffer = none ∧ c = 0xB004) →
      ∃ t, exec (.updateOpen n via) s = .next t ∧ t.raised 92 ∧ t.dict.result = rFunction ∧ t.dict.value = be 2 c ∧
        reported { s with upd := { s.upd with outcome := c } } t) ∧
    (∀ k, s.upd.accept = true → updateBusy s = false → fwHeaderOk s.upd.buffer = true → memNat s.upd.buffer 36 4 ≤ s.ident.loader →
      vendorKey s s.upd.buffer = some k →
      (∀ c, (fwSigned k s.upd.buffer = false ∧ c = 0xB005 ∨
          fwSigned k s.upd.buffer = true ∧ memNat s.upd.buffer 8 4 < runningVersion s ∧ s.upd.rollback = false ∧ c = 0xB006) →
        ∃ t, exec (.updateOpen n via) s = .next t ∧ t.raised 92 ∧ t.dict.result = rFunction ∧ t.dict.value = be 2 c ∧
          reported { s with upd := { s.upd with outcome := c } } t) ∧
      (fwSigned k s.upd.buffer = true → (runningVersion s ≤ memNat s.upd.buffer 8 4 ∨ s.upd.rollback = true) →
        ∃ t, exec (.updateOpen n via) s = .next t ∧ t.raised 92 ∧ t.dict.result = 0 ∧ t.upd.upd = true ∧ t.upd.outcome = 0xB001 ∧
          t.upd.header = some (fwHeader s.upd.buffer) ∧ t.upd.nextBlock = 0 ∧ t.upd.newArea = [] ∧ t.upd.valid = false ∧
          reported { s with upd := t.upd } t)) ∧
    (∀ i crc good c, (s.upd.accept = false ∧ c = 0xB012 ∨ s.upd.accept = true ∧ s.upd.header = none ∧ c = 0xB008 ∨
        (∃ h, s.upd.accept = true ∧ s.upd.header = some h ∧
          (s.upd.upd = false ∨ s.upd.valid = true ∨ i ≠ s.upd.nextBlock ∨ h.blocks ≤ i)) ∧ c = 0xB008 ∨
        (∃ h, s.upd.accept = true ∧ s.upd.header = some h ∧ s.upd.upd = true ∧ s.upd.valid = false ∧ i = s.upd.nextBlock ∧ i < h.blocks ∧
          (crcOf crc32c (memReadAll s.upd.buffer 0 65536) ≠ crc ∨ good = false)) ∧ c = 0xB009) →
      ∃ t, exec (.updateBlock n via i crc good) s = .next t ∧ t.raised 93 ∧ t.dict.result = rFunction ∧ t.dict.value = be 2 c ∧
        reported { s with upd := { s.upd with outcome := c } } t) ∧
    (∀ i h, s.upd.accept = true → s.upd.header = some h → s.upd.upd = true → s.upd.valid = false → i = s.upd.nextBlock → i < h.blocks →
      (i + 1 < h.blocks → exec (.updateBlock n via i (crcOf crc32c (memReadAll s.upd.buffer 0 65536)) true) s =
        .next (withResult (0, []) { s with upd := { s.upd with
          newArea := memWriteAll s.upd.newArea (i * 65536) (memReadAll s.upd.buffer 0 65536), nextBlock := i + 1 } })) ∧
      (i + 1 = h.blocks → ∀ m, m = memWriteAll s.upd.newArea (i * 65536) (memReadAll s.upd.buffer 0 65536) →
        (Config.shakeMem m h.length = h.digest → (s.upd.auto = false ∨ h.version = runningVersion s) →
          ∃ t, exec (.updateBlock n via i (crcOf crc32c (memReadAll s.upd.buffer 0 65536)) true) s = .next t ∧ t.raised 93 ∧
            t.dict.result = 0 ∧ t.upd.valid = true ∧ t.upd.newVersion = h.version ∧ t.upd.outcome = 0xB00B ∧ t.upd.newArea = m ∧
            reported { s with upd := t.upd } t) ∧
        (Config.shakeMem m h.length ≠ h.digest →
          ∃ t, exec (.updateBlock n via i (crcOf crc32c (memReadAll s.upd.buffer 0 65536)) true) s = .next t ∧ t.raised 93 ∧
            t.dict.result = rFunction ∧ t.upd.upd = false ∧ t.upd.valid = false ∧ t.upd.newArea = [] ∧ t.upd.header = none ∧
            t.upd.outcome = 0xB00A ∧ reported { s with upd := t.upd } t))) ∧
    (s.upd.accept = false → exec (.updateAbandon n via) s =
      .next (withResult (rFunction, [0xB0#8, 0x12#8]) { s with upd := { s.upd with outcome := 0xB012 } })) ∧
    (s.upd.accept = true → ∃ t, exec (.updateAbandon n via) s = .next t ∧ t.raised 95 ∧ t.dict.result = 0 ∧
      reported { s with upd := { s.upd with
        newArea := [], valid := false, blockDigest := [], nextBlock := 0, outcome := 0xB011
        upd := s.upd.upd && (s.upd.phase ≠ .idle || s.upd.updating) } } t)) ∧
  (∀ (s : State) (c i : Nat),
    ((s.upd.valid = false ∨ nextDown s = none) → exec (.forwardImage c) s = .next s) ∧
    (s.upd.valid = true → nextDown s = some i → ∃ t, exec (.forwardImage c) s = .next t ∧ t.raised 93 ∧
      reported { s with upd := { s.upd with fwdOutcomes := s.upd.fwdOutcomes.set i (c % 65536), fwdNext := i + 1 } } t))

/-- Installing (R620 to R623): results and completion. -/
def Obligations.InstallingFirmware : Prop :=
  (∀ (s : State) (n : Nat), s.allows n .maintainer false →
    (rollingRefusal s ≠ 0 → exec (.installRolling n) s =
      .next (withResult (rFunction, be 2 (rollingRefusal s)) { s with upd := { s.upd with installOutcome := rollingRefusal s } })) ∧
    (s.upd.valid = false → rollingRefusal s = 0xB014) ∧
    (s.upd.valid = true → s.upd.phase = .idle → s.upd.updating = false → s.upd.newVersion = runningVersion s → rollingRefusal s = 0xB013) ∧
    (s.upd.valid = true → (s.upd.phase ≠ .idle ∨ s.upd.updating = true) → rollingRefusal s = 0xB007) ∧
    (rollingRefusal s = 0 → ∃ t, exec (.installRolling n) s = .next t ∧ t.dict.result = 0 ∧ t.upd.action = 1 ∧ t.upd.rolling = true ∧
      t.upd.doneL = 0 ∧ t.upd.lane = 2 ∧ (∀ l r, lanesInVote s = l :: r → t.upd.fallback = (triGet s.lanes l).fwVersion)) ∧
    (allLanesRefusal s ≠ 0 → exec (.installAllLanes n) s =
      .next (withResult (rFunction, be 2 (allLanesRefusal s)) { s with upd := { s.upd with installOutcome := allLanesRefusal s } })) ∧
    (s.upd.valid = true → s.upd.phase = .idle → s.upd.updating = false → s.upd.newVersion ≠ runningVersion s → s.pair.role ≠ .standby →
      s.pair.formed = true → s.pair.partner.heard = true → s.pair.partner.ready = true → allLanesRefusal s = 0xB00F) ∧
    (s.upd.valid = true → s.upd.phase = .idle → s.upd.updating = false → s.upd.newVersion ≠ runningVersion s → s.pair.role ≠ .standby →
      s.pair.formed = false → routesReleased s = false → allLanesRefusal s = 0xB00E) ∧
    (allLanesRefusal s = 0 → ∃ t, exec (.installAllLanes n) s = .next t ∧ t.dict.result = 0 ∧ t.upd.action = 2 ∧ t.upd.updating = true ∧
      t.upd.doneL = 0 ∧ t.halves.a.next = none ∧ t.halves.b.next = none ∧ t.lio.localNext = none ∧ t.lanes = s.lanes) ∧
    (s.upd.action = 1 → s.upd.phase ≠ .idle → s.upd.phase ≠ .rollingBack → exec (.installStop n) s =
      .next (withResult (0, []) { s with upd := { s.upd with stopAsked := true } })) ∧
    ((s.upd.action ≠ 1 ∨ s.upd.phase = .idle ∨ s.upd.phase = .rollingBack) → exec (.installStop n) s =
      .next (withResult (rFunction, [0xB0#8, 0x14#8]) { s with upd := { s.upd with installOutcome := 0xB014 } }))) ∧
  (∀ (s : State) (l : Lane), s.upd.updating = false → (s.upd.lane ≠ laneNo l ∨ inVote s l = false) →
    exec (.installLaneDone l) s = .next s) ∧
  (∀ (s : State) (l : Lane), s.upd.updating = false → s.upd.lane = laneNo l → inVote s l = true → s.upd.phase = .rejoining →
    s.upd.stopAsked = false →
    ∃ t, exec (.installLaneDone l) s = .next t ∧ t.raised 94 ∧
      (l = .a → t.raised 95 ∧ t.upd.phase = .idle ∧ t.upd.action = 0 ∧ t.upd.upd = false ∧ t.upd.outcome = 0 ∧ t.upd.installOutcome = 0 ∧
        t.upd.rollback = false ∧ (∀ h, s.upd.header = some h → h.formats.filter (· ≠ 0) ≠ [] →
          t.load.fmtClasses = h.formats.filter (· ≠ 0)) ∧ t.lanes = s.lanes) ∧
      (l = .c → t.upd.lane = 1) ∧ (l = .b → t.upd.lane = 0) ∧ (l ≠ .a → t.upd.doneL = s.upd.doneL ||| 2 ^ laneNo l)) ∧
  (∀ (s : State) (l : Lane), s.upd.updating = true →
    (bit s.upd.doneL (laneNo l) = true → exec (.installLaneDone l) s = .next s) ∧
    (bit s.upd.doneL (laneNo l) = false → s.upd.doneL ||| 2 ^ laneNo l ≠ 7 → ∃ t, exec (.installLaneDone l) s = .next t ∧
      (triGet t.lanes l).fwVersion = s.upd.newVersion ∧ (triGet t.lanes l).kernel = (triGet s.lanes l).kernel ∧
      t.upd.doneL = s.upd.doneL ||| 2 ^ laneNo l ∧ (∀ m, m ≠ l → triGet t.lanes m = triGet s.lanes m) ∧
      t = { s with lanes := t.lanes, upd := { s.upd with doneL := t.upd.doneL, lane := laneNo l, block := t.upd.block } }) ∧
    (bit s.upd.doneL (laneNo l) = false → s.upd.doneL ||| 2 ^ laneNo l = 7 → ∃ t, exec (.installLaneDone l) s = .next t ∧ t.raised 95 ∧
      (triGet t.lanes l).fwVersion = s.upd.newVersion ∧ t.power.step = 1 ∧ t.power.coldNext = true ∧ t.upd.upd = false ∧
      t.upd.outcome = 0 ∧ t.upd.phase = .idle ∧ t.upd.updating = false))

/-- R554, R557: raising an event source, with its frame. The image is 0 for a raising outside any image. -/
def Obligations.EventRaising : Prop :=
  ∀ (s : State) (img e d : Nat), e < 96 →
    ∃ t, t = raiseAt img e d s ∧ t.raised e ∧ (∀ k, k ≠ e → (t.raised k ↔ s.raised k)) ∧
      readPart t 0 0x3002 (e + 1) = be 2 (min 0xFFFF (tabGet s.ev.counts e 0 + 1)) ∧
      (∀ k, k ≠ e → readPart t 0 0x3002 (k + 1) = readPart s 0 0x3002 (k + 1)) ∧
      (¬s.raised e → t.ev.aseq = (s.ev.aseq + 1) % 16) ∧ (s.raised e → t.ev.aseq = s.ev.aseq) ∧
      (∀ n, (sessOf s n).opened = true → (sessOf s n).mask.getLsbD e = true →
        (∀ a r b, (sessOf s n).events = a ++ r :: b → r.event = e → (∀ x ∈ a ++ b, x.event ≠ e) →
          sessOf t n = { sessOf s n with events := a ++ { r with count := min 0xFFFF (r.count + 1), image := img } :: b }) ∧
        ((∀ x ∈ (sessOf s n).events, x.event ≠ e) →
          sessOf t n = { sessOf s n with events := (sessOf s n).events ++ [⟨e, 1, img, moduleNs s, d⟩] })) ∧
      (∀ n, ((sessOf s n).opened = false ∨ (sessOf s n).mask.getLsbD e = false) → sessOf t n = sessOf s n) ∧
      (∀ n, ((sessOf s n).events.map (·.event)).Nodup → (∀ x ∈ (sessOf s n).events, x.event < 96) →
        ((sessOf t n).events.map (·.event)).Nodup ∧ (∀ x ∈ (sessOf t n).events, x.event < 96) ∧ (sessOf t n).events.length ≤ 96) ∧
      t = { s with ev := { s.ev with pend := t.ev.pend, counts := t.ev.counts, aseq := t.ev.aseq },
                   dict := { s.dict with sessions := t.dict.sessions } }

/-- No command of the table stops the model, in any state: what the module turns away is answered or counted as the spec says. -/
def Obligations.EveryCommandCompletes : Prop :=
  ∀ (c : Instr) (s : State), c.wf = true → ∃ t, exec c s = .next t

/-- Layouts of Tables 10.2, 10.4 and 13.13: no field of an envelope or of a transaction is dropped or misplaced by the pair of writer and reader. -/
def Obligations.EnvelopesRoundTrip : Prop :=
  (∀ e : Envelope, e.tag < 2 ^ 16 → e.seq < 2 ^ 32 → e.stamp < 2 ^ 32 → e.epoch < 2 ^ 16 → e.kind < 2 ^ 8 →
    e.payload.length < 2 ^ 16 → e.pair < 2 ^ 8 → e.cv1 < 2 ^ 32 → e.cv2 < 2 ^ 32 →
    (e.kind ≠ 0x95 → e.flags = 0 →
      readEnvelope (cascadeBytes e ++ (be 1 e.pair ++ be 3 0 ++ be 4 e.cv1 ++ be 4 e.cv2)) = some e ∧
      (∀ r, 0 < r → r < 2 ^ 24 →
        readEnvelope (cascadeBytes e ++ (be 1 e.pair ++ be 3 r ++ be 4 e.cv1 ++ be 4 e.cv2)) = none)) ∧
    (e.kind = 0x95 → e.flags = 0 → e.pair = 0 → e.cv2 = 0 → readEnvelope (cascadeBytes e ++ be 4 e.cv1) = some e) ∧
    (∀ tail : List Byte, 0 < e.flags → e.flags < 2 ^ 8 → readEnvelope (cascadeBytes e ++ tail) = none) ∧
    (∀ tail : List Byte, tail.length ≠ (if e.kind = 0x95 then 4 else 12) → readEnvelope (cascadeBytes e ++ tail) = none)) ∧
  (∀ t : Trans, 1 ≤ t.type → t.type ≤ 5 → t.tag < 2 ^ 8 → t.init < 4 → t.window < 16 → t.offset < 2 ^ 16 → t.length < 2 ^ 16 →
    t.code < 2 ^ 16 → t.epoch < 2 ^ 16 → (t.type ≠ 5 → t.code = 0) → t.data.length = transData t.type t.length →
    transCheck (transBytes t) = true ∧ readTrans t.peer (transBytes t) = some t)
end

