-- ==== Sys2Proof/Laws/Memory.lean ====
section
/-! SUPPORT. Every operation over a byte memory keeps its canonical form, and a byte reads as what was written last. -/

namespace Sys2Proof.Laws

open Sys2Proof Sys2Proof.Machine

theorem memWfFrom_mono {lo hi : Nat} (m : Mem) (h : lo ≤ hi) (w : memWfFrom hi m = true) : memWfFrom lo m = true := by
  cases m with
  | nil => rfl
  | cons p t =>
    obtain ⟨a, b⟩ := p
    simp only [memWfFrom, Bool.and_eq_true, decide_eq_true_eq] at w ⊢
    exact ⟨⟨Nat.le_trans h w.1.1, w.1.2⟩, w.2⟩

theorem memWfFrom_write (m : Mem) : ∀ (lo n : Nat) (v : Byte), memWfFrom lo m = true → lo ≤ n →
    memWfFrom lo (memWrite m n v) = true := by
  induction m with
  | nil =>
    intro lo n v _ hn
    simp only [memWrite]
    split
    · rfl
    · simp_all [memWfFrom]
  | cons p t ih =>
    obtain ⟨a, b⟩ := p
    intro lo n v w hn
    simp only [memWfFrom, Bool.and_eq_true, decide_eq_true_eq] at w
    simp only [memWrite]
    split
    · split
      · simp_all [memWfFrom]
      · rename_i h1 h2
        simp only [memWfFrom, Bool.and_eq_true, decide_eq_true_eq]
        exact ⟨⟨hn, h2⟩, ⟨by omega, w.1.2⟩, w.2⟩
    · split
      · split
        · exact memWfFrom_mono t (by omega) w.2
        · rename_i h1 h2 h3
          simp only [memWfFrom, Bool.and_eq_true, decide_eq_true_eq]
          exact ⟨⟨hn, h3⟩, memWfFrom_mono t (by omega) w.2⟩
      · simp only [memWfFrom, Bool.and_eq_true, decide_eq_true_eq]
        exact ⟨w.1, ih (a + 1) n v w.2 (by omega)⟩

/-- A write keeps the canonical form. -/
theorem memWrite_wf {m : Mem} (n : Nat) (v : Byte) (w : Memory.wf m = true) : Memory.wf (memWrite m n v) = true :=
  memWfFrom_write m 0 n v w (Nat.zero_le n)

/-- A write of a byte string keeps the canonical form. -/
theorem memWriteAll_wf (l : List Byte) : ∀ {m : Mem} (n : Nat), Memory.wf m = true → Memory.wf (memWriteAll m n l) = true := by
  induction l with
  | nil => intro m n w; exact w
  | cons b t ih => intro m n w; exact ih (n + 1) (memWrite_wf n b w)

/-- The empty memory has the canonical form. -/
@[simp] theorem memory_wf_nil : Memory.wf [] = true := rfl

theorem memRead_below (m : Mem) : ∀ (lo n : Nat), memWfFrom lo m = true → n < lo → memRead m n = 0#8 := by
  induction m with
  | nil => intro _ _ _ _; rfl
  | cons p t ih =>
    obtain ⟨a, b⟩ := p
    intro lo n w hn
    simp only [memWfFrom, Bool.and_eq_true, decide_eq_true_eq] at w
    simp only [memRead]
    rw [if_neg (by omega)]
    exact ih (a + 1) n w.2 (by omega)

theorem memRead_write_from (m : Mem) : ∀ (lo n : Nat) (v : Byte), memWfFrom lo m = true →
    memRead (memWrite m n v) n = v := by
  induction m with
  | nil => intro _ n v _; simp only [memWrite]; split <;> simp_all [memRead]
  | cons p t ih =>
    obtain ⟨a, b⟩ := p
    intro lo n v w
    have hw := w
    simp only [memWfFrom, Bool.and_eq_true, decide_eq_true_eq] at w
    simp only [memWrite]
    split
    · rename_i h
      split
      · rename_i h2
        subst h2
        simp only [memRead]
        rw [if_neg (by omega)]
        exact memRead_below t (a + 1) n w.2 (by omega)
      · simp [memRead]
    · split
      · rename_i h
        subst h
        split
        · rename_i h2
          subst h2
          exact memRead_below t (n + 1) n w.2 (by omega)
        · simp [memRead]
      · rename_i h1 h2
        simp only [memRead]
        rw [if_neg (fun h => h2 h.symm)]
        exact ih (a + 1) n v w.2

/-- A read of the address written last answers the byte written. -/
theorem memRead_write {m : Mem} (n : Nat) (v : Byte) (w : Memory.wf m = true) : memRead (memWrite m n v) n = v :=
  memRead_write_from m 0 n v w

/-- A write leaves every other address alone. -/
theorem memRead_write_other (m : Mem) : ∀ (n k : Nat) (v : Byte), k ≠ n → memRead (memWrite m n v) k = memRead m k := by
  induction m with
  | nil => intro n k v h; simp only [memWrite]; split <;> simp [memRead, Ne.symm h]
  | cons p t ih =>
    obtain ⟨a, b⟩ := p
    intro n k v h
    simp only [memWrite]
    split
    · split <;> simp [memRead, Ne.symm h]
    · split
      · rename_i h2
        subst h2
        split <;> simp [memRead, Ne.symm h]
      · simp only [memRead]
        split
        · rfl
        · exact ih n k v h

end Sys2Proof.Laws
end

