-- ==== Sys2Proof/Laws/Sound.lean ====
section
/-! SUPPORT. The invariant of the module (`State.sound`) over record updates, choices and folds. -/

namespace Sys2Proof.Laws

open Sys2Proof Sys2Proof.Machine

/-- A state whose memories, buffers and transmit buffers are those of a sound one is sound. -/
theorem keeps_mk {s : State} {pending : List Instr} {free : Nat} {ns : Nat} {cfg : Station} {ident : Ident} {imageNo : Nat} {image : CycleImage} {lanes : Three LaneSt} {view : Kernel} {vote : VoteSt} {halves : Two HalfSt} {comm : CommSt} {bus : BusSt} {busImg : Two BusImage} {env : Tab EnvPort} {tres : Two TrestleSt} {tx : Two TxSt} {lio : LioSt} {time : TimeSt} {casc : CascSt} {pair : PairLinkSt} {bridge : BridgeSt} {datum : DatumSt} {dict : DictSt} {ev : EventSt} {book : Book} {chest : Chest} {test : TestSt} {age : AgeSt} {power : PowerSt} {supply : SupplySt} {load : LoadSt} {progLoad : ProgLoadSt} {upd : UpdateSt} {set : RouteSet} {queues : Tab (List Req)}
    (hs : s.sound)
    (e1 : bridge.mem = s.bridge.mem) (e2 : load.slots.a.bytes = s.load.slots.a.bytes)
    (e3 : load.slots.b.bytes = s.load.slots.b.bytes) (e4 : progLoad.slots.a.bytes = s.progLoad.slots.a.bytes)
    (e5 : progLoad.slots.b.bytes = s.progLoad.slots.b.bytes) (e6 : upd.buffer = s.upd.buffer)
    (e7 : upd.newArea = s.upd.newArea) (e8 : time.stamps = s.time.stamps) (e9 : queues = s.queues)
    (e10 : book.buf = s.book.buf) (e11 : chest.recs = s.chest.recs) (e12 : halves.a.inServ = s.halves.a.inServ)
    (e13 : halves.a.active = s.halves.a.active) (e14 : halves.a.next = s.halves.a.next)
    (e15 : halves.b.inServ = s.halves.b.inServ) (e16 : halves.b.active = s.halves.b.active)
    (e17 : halves.b.next = s.halves.b.next) (e18 : tx.a = s.tx.a) (e19 : tx.b = s.tx.b) :
    (State.mk pending free ns cfg ident imageNo image lanes view vote halves comm bus busImg env tres tx lio time casc pair bridge datum dict ev book chest test age power supply load progLoad upd set queues).sound := by
  obtain ⟨h1, h2, h3, h4⟩ := hs
  simp only [State.sound, State.memoriesWf, State.withinCapacity, quietHalf] at *
  simp only [e1, e2, e3, e4, e5, e6, e7, e8, e9, e10, e11, e12, e13, e14, e15, e16, e17, e18, e19]
  exact ⟨h1, h2, h3, h4⟩

/-- As `keeps_mk`, with the halves and their transmit buffers changed. -/
theorem keeps_mk2 {s : State} {pending : List Instr} {free : Nat} {ns : Nat} {cfg : Station} {ident : Ident} {imageNo : Nat} {image : CycleImage} {lanes : Three LaneSt} {view : Kernel} {vote : VoteSt} {halves : Two HalfSt} {comm : CommSt} {bus : BusSt} {busImg : Two BusImage} {env : Tab EnvPort} {tres : Two TrestleSt} {tx : Two TxSt} {lio : LioSt} {time : TimeSt} {casc : CascSt} {pair : PairLinkSt} {bridge : BridgeSt} {datum : DatumSt} {dict : DictSt} {ev : EventSt} {book : Book} {chest : Chest} {test : TestSt} {age : AgeSt} {power : PowerSt} {supply : SupplySt} {load : LoadSt} {progLoad : ProgLoadSt} {upd : UpdateSt} {set : RouteSet} {queues : Tab (List Req)}
    (hs : s.sound)
    (e1 : bridge.mem = s.bridge.mem) (e2 : load.slots.a.bytes = s.load.slots.a.bytes)
    (e3 : load.slots.b.bytes = s.load.slots.b.bytes) (e4 : progLoad.slots.a.bytes = s.progLoad.slots.a.bytes)
    (e5 : progLoad.slots.b.bytes = s.progLoad.slots.b.bytes) (e6 : upd.buffer = s.upd.buffer)
    (e7 : upd.newArea = s.upd.newArea) (e8 : time.stamps = s.time.stamps) (e9 : queues = s.queues)
    (e10 : book.buf = s.book.buf) (e11 : chest.recs = s.chest.recs)
    (qa : quietHalf s.halves.a s.tx.a → quietHalf halves.a tx.a)
    (qb : quietHalf s.halves.b s.tx.b → quietHalf halves.b tx.b) :
    (State.mk pending free ns cfg ident imageNo image lanes view vote halves comm bus busImg env tres tx lio time casc pair bridge datum dict ev book chest test age power supply load progLoad upd set queues).sound := by
  obtain ⟨h1, h2, h3, h4⟩ := hs
  simp only [State.sound, State.memoriesWf, State.withinCapacity] at *
  simp only [e1, e2, e3, e4, e5, e6, e7, e8, e9, e10, e11]
  exact ⟨h1, h2, qa h3, qb h4⟩

/-- A half whose service, image and transmit buffers are as before. -/
theorem quiet_mk {x : HalfSt} {t : TxSt} {inServ : Bool} {reason : Nat} {injFail : Nat} {firstFail : Nat} {voter : Bool} {flagged : Bool} {injPass : Bool} {cmpVec : Bool} {ingress : Three (Option OutputImage)} {bench : Three (Option (Nat × List Byte))} {votedImg : Option Nat} {decided : Option VerdictMsg} {active : Option VotedImage} {next : Option VotedImage}
    (e1 : inServ = x.inServ) (e2 : active = x.active) (e3 : next = x.next) (q : quietHalf x t) :
    quietHalf (HalfSt.mk inServ reason injFail firstFail voter flagged injPass cmpVec ingress bench votedImg decided active next) t := by
  subst e1 e2 e3
  exact q

/-- A half whose next image is dropped. -/
theorem quiet_noNext {x : HalfSt} {t : TxSt} {inServ : Bool} {reason : Nat} {injFail : Nat} {firstFail : Nat} {voter : Bool} {flagged : Bool} {injPass : Bool} {cmpVec : Bool} {ingress : Three (Option OutputImage)} {bench : Three (Option (Nat × List Byte))} {votedImg : Option Nat} {decided : Option VerdictMsg} {active : Option VotedImage} {next : Option VotedImage}
    (e1 : inServ = x.inServ) (e2 : active = x.active) (e3 : next = none) (q : quietHalf x t) :
    quietHalf (HalfSt.mk inServ reason injFail firstFail voter flagged injPass cmpVec ingress bench votedImg decided active next) t := by
  subst e1 e2 e3
  exact fun e => ⟨(q e).1, rfl, (q e).2.2⟩

/-- A half whose buffers swap. -/
theorem quiet_swap {x : HalfSt} {t : TxSt} {inServ : Bool} {reason : Nat} {injFail : Nat} {firstFail : Nat} {voter : Bool} {flagged : Bool} {injPass : Bool} {cmpVec : Bool} {ingress : Three (Option OutputImage)} {bench : Three (Option (Nat × List Byte))} {votedImg : Option Nat} {decided : Option VerdictMsg} {active : Option VotedImage} {next : Option VotedImage}
    (e1 : inServ = x.inServ) (e2 : active = x.next) (e3 : next = none) (q : quietHalf x t) :
    quietHalf (HalfSt.mk inServ reason injFail firstFail voter flagged injPass cmpVec ingress bench votedImg decided active next) t := by
  subst e1 e2 e3
  exact fun e => ⟨(q e).2.1, rfl, (q e).2.2⟩

/-- A half with nothing to send and empty transmit buffers. -/
theorem quiet_empty {x : HalfSt} {t u : TxSt} {inServ : Bool} {reason : Nat} {injFail : Nat} {firstFail : Nat} {voter : Bool} {flagged : Bool} {injPass : Bool} {cmpVec : Bool} {ingress : Three (Option OutputImage)} {bench : Three (Option (Nat × List Byte))} {votedImg : Option Nat} {decided : Option VerdictMsg} {active : Option VotedImage} {next : Option VotedImage}
    (e2 : active = none) (e3 : next = none) (e4 : u = TxSt.init) (_ : quietHalf x t) :
    quietHalf (HalfSt.mk inServ reason injFail firstFail voter flagged injPass cmpVec ingress bench votedImg decided active next) u := by
  subst e2 e3 e4
  exact fun _ => ⟨rfl, rfl, rfl⟩

theorem quiet_id {x : HalfSt} {t : TxSt} (q : quietHalf x t) : quietHalf x t := q

theorem keepLast_length {α : Type} (n : Nat) (l : List α) : (keepLast n l).length ≤ n := by
  simp only [keepLast, List.length_drop]
  omega

theorem keeps_ite {c : Prop} [Decidable c] {x y : State} (hx : x.sound) (hy : y.sound) : (if c then x else y).sound := by
  split <;> assumption

theorem keeps_ite_fst {α : Type} {c : Prop} [Decidable c] {x y : State × α} (hx : x.1.sound) (hy : y.1.sound) :
    (if c then x else y).1.sound := by
  split <;> assumption

theorem keeps_ite_snd {α : Type} {c : Prop} [Decidable c] {x y : α × State} (hx : x.2.sound) (hy : y.2.sound) :
    (if c then x else y).2.sound := by
  split <;> assumption

theorem keeps_foldl {α : Type} {f : State → α → State} (hf : ∀ s a, s.sound → (f s a).sound) (l : List α) :
    ∀ {s : State}, s.sound → (l.foldl f s).sound := by
  induction l with
  | nil => intro s h; exact h
  | cons a t ih => intro s h; exact ih (hf s a h)

theorem keeps_foldl_half {f : State → Half → State} (ha : ∀ s, s.sound → (f s .a).sound)
    (hb : ∀ s, s.sound → (f s .b).sound) (l : List Half) {s : State} (h : s.sound) : (l.foldl f s).sound :=
  keeps_foldl (fun s x k => by cases x; exact ha s k; exact hb s k) l h

/-- Transmit buffers changed of a half in service, or so that empty ones stay empty. -/
theorem keeps_txOf {h : Half} {g : TxSt → TxSt} {s : State} (hs : s.sound)
    (hg : (twoGet s.halves h).inServ = false → g TxSt.init = TxSt.init) :
    State.sound { s with tx := twoMod s.tx h g } := by
  cases h
  · refine keeps_mk2 hs rfl rfl rfl rfl rfl rfl rfl rfl rfl rfl rfl (fun q e => ⟨(q e).1, (q e).2.1, ?_⟩) quiet_id
    show g s.tx.a = TxSt.init
    rw [(q e).2.2]
    exact hg e
  · refine keeps_mk2 hs rfl rfl rfl rfl rfl rfl rfl rfl rfl rfl rfl quiet_id (fun q e => ⟨(q e).1, (q e).2.1, ?_⟩)
    show g s.tx.b = TxSt.init
    rw [(q e).2.2]
    exact hg e

/-- The state of an update changed. -/
theorem keeps_upd {u : UpdateSt} {s : State} (hs : s.sound) (h1 : Memory.wf u.buffer = true) (h2 : Memory.wf u.newArea = true) :
    State.sound { s with upd := u } :=
  ⟨⟨hs.1.1, hs.1.2.1, hs.1.2.2.1, hs.1.2.2.2.1, hs.1.2.2.2.2.1, h1, h2⟩, hs.2⟩

/-- The Chest changed. -/
theorem keeps_chest {c : Chest} {s : State} (hs : s.sound) (h : c.recs.length ≤ chestRing) :
    State.sound { s with chest := c } :=
  ⟨hs.1, ⟨hs.2.1.1, hs.2.1.2.1, hs.2.1.2.2.1, h⟩, hs.2.2⟩

/-- An outcome whose next state, if it has one, is sound. -/
def soundAfter (o : Host.Outcome State Fault Refusal) : Prop := ∀ t, o = .next t → t.sound

theorem soundAfter_next {x : State} (h : x.sound) : soundAfter (.next x) := by
  intro t e
  cases e
  exact h

theorem soundAfter_fault {f : Fault} : soundAfter (.fault f) := by
  intro t e
  cases e

theorem soundAfter_ite {c : Prop} [Decidable c] {x y : Host.Outcome State Fault Refusal} (hx : soundAfter x) (hy : soundAfter y) :
    soundAfter (if c then x else y) := by
  split <;> assumption

theorem upd_wf {s : State} (hs : s.sound) : Memory.wf s.upd.buffer = true ∧ Memory.wf s.upd.newArea = true := hs.1.2.2.2.2.2

end Sys2Proof.Laws
end

