-- ==== Sys2Proof/Laws/KeepsReport.lean ====
section
/-! SUPPORT. Each operation of Machine/Clock, Report, Envelope, Exclude keeps the invariant `State.sound`. -/

namespace Sys2Proof.Laws

open Sys2Proof Sys2Proof.Machine

theorem keeps_ingressStamp {port : Nat} {s : State} (hs : s.sound) : (ingressStamp port s).2.sound := by
  unfold ingressStamp
  try dsimp only
  repeat' first
    | with_reducible assumption
    | (fail_if_no_progress with_reducible refine keeps_mk ?_ rfl rfl rfl rfl rfl rfl rfl rfl rfl rfl rfl rfl rfl rfl rfl rfl rfl rfl rfl)


theorem keeps_takeFree {s : State} (hs : s.sound) : (takeFree s).2.sound := by
  unfold takeFree
  try dsimp only
  repeat' first
    | with_reducible assumption
    | (fail_if_no_progress with_reducible refine keeps_mk ?_ rfl rfl rfl rfl rfl rfl rfl rfl rfl rfl rfl rfl rfl rfl rfl rfl rfl rfl rfl)


theorem keeps_noteDepth {q depth : Nat} {full : Bool} {s : State} (hs : s.sound) : (noteDepth q depth full s).sound := by
  unfold noteDepth
  try dsimp only
  repeat' first
    | with_reducible assumption
    | (fail_if_no_progress with_reducible refine keeps_mk ?_ rfl rfl rfl rfl rfl rfl rfl rfl rfl rfl rfl rfl rfl rfl rfl rfl rfl rfl rfl)


theorem keeps_raiseAt {img e d : Nat} {s : State} (hs : s.sound) : (raiseAt img e d s).sound := by
  unfold raiseAt
  try dsimp only
  repeat' first
    | with_reducible assumption
    | (fail_if_no_progress with_reducible refine keeps_mk ?_ rfl rfl rfl rfl rfl rfl rfl rfl rfl rfl rfl rfl rfl rfl rfl rfl rfl rfl rfl)


theorem keeps_raiseEv {e d : Nat} {s : State} (hs : s.sound) : (raiseEv e d s).sound := by
  unfold raiseEv
  try dsimp only
  repeat' first
    | with_reducible assumption | with_reducible apply keeps_raiseAt


theorem keeps_bookMarker {s : State} (hs : s.sound) : (bookMarker s).sound := by
  unfold bookMarker
  split
  · exact hs
  · rename_i h
    simp only [Bool.or_eq_true, decide_eq_true_eq, not_or, Nat.not_le] at h
    apply keeps_raiseEv
    obtain ⟨h1, ⟨h2, h3, h4, h5⟩, h6⟩ := keeps_takeFree hs
    refine ⟨h1, ⟨h2, h3, ?_, h5⟩, h6⟩
    simp only [List.length_append, List.length_singleton]
    exact h.2

theorem keeps_bookPut {r : FbRec} {s : State} (hs : s.sound) : (bookPut r s).sound := by
  unfold bookPut
  have k : (if s.book.buf.length + (bookGroup r).length < bookBuffer then bookMarker s else s).sound :=
    keeps_ite (keeps_bookMarker hs) hs
  dsimp only
  generalize (if s.book.buf.length + (bookGroup r).length < bookBuffer then bookMarker s else s) = t at k ⊢
  obtain ⟨h1, ⟨h2, h3, h4, h5⟩, h6⟩ := k
  split
  · rename_i h
    simp only [Bool.and_eq_true, decide_eq_true_eq] at h
    refine ⟨h1, ⟨h2, h3, ?_, h5⟩, h6⟩
    simp only [List.length_append]
    exact h.2
  · exact ⟨h1, ⟨h2, h3, h4, h5⟩, h6⟩

theorem keeps_record {type event code source who : Nat} {data : List Byte} {s : State} (hs : s.sound) : (record type event code source who data s).sound := by
  unfold record
  try dsimp only
  repeat' first
    | with_reducible assumption | with_reducible apply keeps_bookPut


theorem keeps_raiseRec {e d code source who : Nat} {data : List Byte} {s : State} (hs : s.sound) : (raiseRec e d code source who data s).sound := by
  unfold raiseRec
  try dsimp only
  repeat' first
    | with_reducible assumption | with_reducible apply keeps_record | with_reducible apply keeps_raiseEv


theorem keeps_chestWrite {kind source code : Nat} {detail : List Byte} {s : State} (hs : s.sound) :
    (chestWrite kind source code detail s).sound := by
  unfold chestWrite
  split
  · exact hs
  · apply keeps_raiseEv
    simp only [State.sound, State.memoriesWf, State.withinCapacity] at hs ⊢
    exact ⟨hs.1, ⟨hs.2.1.1, hs.2.1.2.1, hs.2.1.2.2.1, keepLast_length _ _⟩, hs.2.2⟩

theorem keeps_snapshot {s : State} (hs : s.sound) : (snapshot s).sound := by
  unfold snapshot
  try dsimp only
  repeat' first
    | with_reducible assumption | with_reducible apply keeps_ite
    | (fail_if_no_progress with_reducible refine keeps_mk ?_ rfl rfl rfl rfl rfl rfl rfl rfl rfl rfl rfl rfl rfl rfl rfl rfl rfl rfl rfl)


theorem mem_tabPut {α : Type} {t : Tab α} {n : Nat} {v : α} {p : Nat × α} (h : p ∈ tabPut t n v) : p = (n, v) ∨ p ∈ t := by
  induction t with
  | nil => simp_all [tabPut]
  | cons a t ih =>
    obtain ⟨k, w⟩ := a
    simp only [tabPut] at h
    split at h
    · simpa using h
    · split at h
      · rcases List.mem_cons.mp h with h | h
        · exact Or.inl h
        · exact Or.inr (List.mem_cons_of_mem _ h)
      · rcases List.mem_cons.mp h with h | h
        · exact Or.inr (h ▸ List.mem_cons_self)
        · rcases ih h with h | h
          · exact Or.inl h
          · exact Or.inr (List.mem_cons_of_mem _ h)

theorem mem_of_tabFind {α : Type} {t : Tab α} {n : Nat} {v : α} (h : tabFind t n = some v) : (n, v) ∈ t := by
  induction t with
  | nil => simp [tabFind] at h
  | cons a t ih =>
    obtain ⟨k, w⟩ := a
    simp only [tabFind] at h
    split at h
    · rename_i e
      simp only [Option.some.injEq] at h
      simp [e, h]
    · exact List.mem_cons_of_mem _ (ih h)

/-- A timestamp queue put back with at most 16 entries keeps the invariant. -/
theorem keeps_stampQ {s : State} {q : Nat} {x : StampQ} (hs : s.sound) (h : x.entries.length ≤ 16) :
    State.sound { s with time := { s.time with stamps := tabPut s.time.stamps q x } } := by
  obtain ⟨h1, ⟨h2, h3⟩, h4⟩ := hs
  refine ⟨h1, ⟨fun p hp => ?_, h3⟩, h4⟩
  rcases mem_tabPut hp with e | e
  · rw [e]; exact h
  · exact h2 p e

theorem stampQ_length {s : State} {q : Nat} (hs : s.sound) : (stampQ s q).entries.length ≤ 16 := by
  unfold stampQ tabGet
  cases h : tabFind s.time.stamps q with
  | none => simp [stampInit]
  | some x => exact hs.2.1.1 _ (mem_of_tabFind h)

theorem keeps_stamp {q sel : Nat} {e : StampEntry} {s : State} (hs : s.sound) : (stamp q sel e s).sound := by
  unfold stamp
  dsimp only
  split
  · exact hs
  · split
    · rename_i h
      exact keeps_noteDepth (keeps_stampQ hs (by simp only [List.length_append, List.length_singleton]; omega))
    · have k := keeps_noteDepth (q := q) (depth := 16) (full := true) (keeps_stampQ (q := q)
        (x := { stampQ s q with overflow := sat 0xFFFFFFFF ((stampQ s q).overflow + 1), evtDone := true }) hs (stampQ_length hs))
      split
      · exact k
      · exact keeps_raiseEv k

theorem keeps_txStamp {h : Half} {sel slot : Nat} {at_ : Int} {s : State} (hs : s.sound) : (txStamp h sel slot at_ s).sound := by
  unfold txStamp
  try dsimp only
  repeat' first
    | with_reducible assumption | with_reducible apply keeps_stamp


theorem keeps_discard {h : Half} {port : Nat} {s : State} (hs : s.sound) : (Machine.discard h port s).sound := by
  unfold Machine.discard
  try dsimp only
  repeat' first
    | with_reducible assumption | with_reducible apply keeps_raiseEv | with_reducible apply keeps_ite
    | (fail_if_no_progress with_reducible refine keeps_mk ?_ rfl rfl rfl rfl rfl rfl rfl rfl rfl rfl rfl rfl rfl rfl rfl rfl rfl rfl rfl)


theorem keeps_modPort {h : Half} {port : Nat} {f : PortSt → PortSt} {s : State} (hs : s.sound) : (modPort h port f s).sound := by
  unfold modPort
  try dsimp only
  repeat' first
    | with_reducible assumption
    | (fail_if_no_progress with_reducible refine keeps_mk ?_ rfl rfl rfl rfl rfl rfl rfl rfl rfl rfl rfl rfl rfl rfl rfl rfl rfl rfl rfl)


theorem keeps_mapKernels {f : Kernel → Kernel} {s : State} (hs : s.sound) : (mapKernels f s).sound := by
  unfold mapKernels
  try dsimp only
  repeat' first
    | with_reducible assumption
    | (fail_if_no_progress with_reducible refine keeps_mk ?_ rfl rfl rfl rfl rfl rfl rfl rfl rfl rfl rfl rfl rfl rfl rfl rfl rfl rfl rfl)


theorem keeps_abortChange {code : Nat} {s : State} (hs : s.sound) : (abortChange code s).sound := by
  unfold abortChange
  try dsimp only
  repeat' first
    | with_reducible assumption | with_reducible apply keeps_raiseEv | with_reducible apply keeps_mapKernels
    | with_reducible apply keeps_ite


theorem keeps_abortModeSwitch {s : State} (hs : s.sound) : (abortModeSwitch s).sound := by
  unfold abortModeSwitch
  try dsimp only
  repeat' first
    | with_reducible assumption | with_reducible apply keeps_raiseEv | with_reducible apply keeps_ite
    | (fail_if_no_progress with_reducible refine keeps_mk ?_ rfl rfl rfl rfl rfl rfl rfl rfl rfl rfl rfl rfl rfl rfl rfl rfl rfl rfl rfl)
    | split


theorem keeps_dropLane {l : Lane} {reason block : Nat} {detail : List Byte} {s : State} (hs : s.sound) : (dropLane l reason block detail s).sound := by
  unfold dropLane
  try dsimp only
  repeat' first
    | with_reducible assumption | with_reducible apply keeps_ite | with_reducible apply keeps_raiseEv
    | with_reducible apply keeps_raiseRec | with_reducible apply keeps_chestWrite
    | (fail_if_no_progress with_reducible refine keeps_mk ?_ rfl rfl rfl rfl rfl rfl rfl rfl rfl rfl rfl rfl rfl rfl rfl rfl rfl rfl rfl)


theorem keeps_restoreClock {l : Lane} {s : State} (hs : s.sound) : (restoreClock l s).sound := by
  unfold restoreClock
  try dsimp only
  repeat' first
    | with_reducible assumption | with_reducible apply keeps_ite
    | (fail_if_no_progress with_reducible refine keeps_mk ?_ rfl rfl rfl rfl rfl rfl rfl rfl rfl rfl rfl rfl rfl rfl rfl rfl rfl rfl rfl)


theorem keeps_startBooting {l : Lane} {s : State} (hs : s.sound) : (startBooting l s).sound := by
  unfold startBooting
  try dsimp only
  repeat' first
    | with_reducible assumption | with_reducible apply keeps_restoreClock
    | (fail_if_no_progress with_reducible refine keeps_mk ?_ rfl rfl rfl rfl rfl rfl rfl rfl rfl rfl rfl rfl rfl rfl rfl rfl rfl rfl rfl)


theorem keeps_restartRejoins {s : State} (hs : s.sound) : (restartRejoins s).sound := by
  unfold restartRejoins
  try dsimp only
  repeat' first
    | with_reducible assumption | with_reducible apply keeps_startBooting | with_reducible apply keeps_ite
    | with_reducible refine keeps_foldl (fun s0 a0 k0 => ?_) _ ?_


theorem keeps_dropPending {s : State} (hs : s.sound) : (dropPending s).sound := by
  unfold dropPending
  refine keeps_ite (keeps_raiseEv (keeps_mk hs ?_ ?_ ?_ ?_ ?_ ?_ ?_ ?_ ?_ ?_ ?_ ?_ ?_ ?_ ?_ ?_ ?_ ?_ ?_)) hs <;> rfl


theorem keeps_enterRestrictive {s : State} (hs : s.sound) : (enterRestrictive s).sound := by
  unfold enterRestrictive
  try dsimp only
  repeat' first
    | with_reducible assumption | with_reducible apply keeps_dropPending | with_reducible apply keeps_dropLane
    | with_reducible apply keeps_abortModeSwitch
    | with_reducible apply keeps_abortChange | with_reducible apply keeps_raiseRec
    | with_reducible apply keeps_snapshot | with_reducible apply keeps_chestWrite | with_reducible apply keeps_ite
    | with_reducible refine keeps_foldl (fun s0 a0 k0 => ?_) _ ?_ | with_reducible exact quiet_noNext rfl rfl rfl
    | dsimp only [twoMod, twoPut, twoGet, twoMap]
    | (fail_if_no_progress with_reducible refine keeps_mk2 ?_ rfl rfl rfl rfl rfl rfl rfl rfl rfl rfl rfl ?_ ?_)


theorem keeps_excludeLanes {ls : List Lane} {reason block : Nat} {detail : List Byte} {s : State} (hs : s.sound) : (excludeLanes ls reason block detail s).sound := by
  unfold excludeLanes
  try dsimp only
  repeat' first
    | with_reducible assumption | with_reducible apply keeps_dropLane | with_reducible apply keeps_enterRestrictive
    | with_reducible apply keeps_restartRejoins | with_reducible apply keeps_ite
    | with_reducible refine keeps_foldl (fun s0 a0 k0 => ?_) _ ?_


theorem keeps_disableHalf {h : Half} {cause kind : Nat} {detail : List Byte} {s : State} (hs : s.sound) :
    (disableHalf h cause kind detail s).sound := by
  unfold disableHalf
  split
  · exact hs
  · apply keeps_raiseRec
    apply keeps_chestWrite
    cases h
    · exact keeps_mk2 hs rfl rfl rfl rfl rfl rfl rfl rfl rfl rfl rfl (quiet_empty rfl rfl rfl) quiet_id
    · exact keeps_mk2 hs rfl rfl rfl rfl rfl rfl rfl rfl rfl rfl rfl quiet_id (quiet_empty rfl rfl rfl)

theorem keeps_abortTests {p : Nat → Bool} {s : State} (hs : s.sound) : (abortTests p s).sound := by
  unfold abortTests
  try dsimp only
  repeat' first
    | with_reducible assumption | with_reducible apply keeps_raiseEv
    | with_reducible refine keeps_foldl (fun s0 a0 k0 => ?_) _ ?_
    | (fail_if_no_progress with_reducible refine keeps_mk ?_ rfl rfl rfl rfl rfl rfl rfl rfl rfl rfl rfl rfl rfl rfl rfl rfl rfl rfl rfl)


theorem keeps_startRollBack {s : State} (hs : s.sound) : (startRollBack s).sound := by
  unfold startRollBack
  try dsimp only
  repeat' first
    | with_reducible assumption | with_reducible apply keeps_ite
    | (fail_if_no_progress with_reducible refine keeps_mk ?_ rfl rfl rfl rfl rfl rfl rfl rfl rfl rfl rfl rfl rfl rfl rfl rfl rfl rfl rfl)


theorem keeps_loaderWithdraw {l : Lane} {s : State} (hs : s.sound) : (loaderWithdraw l s).sound := by
  unfold loaderWithdraw
  try dsimp only
  repeat' first
    | with_reducible assumption
    | (fail_if_no_progress with_reducible refine keeps_mk ?_ rfl rfl rfl rfl rfl rfl rfl rfl rfl rfl rfl rfl rfl rfl rfl rfl rfl rfl rfl)


theorem keeps_rollNext {s : State} (hs : s.sound) : (rollNext s).sound := by
  unfold rollNext
  try dsimp only
  repeat' first
    | with_reducible assumption | with_reducible apply keeps_loaderWithdraw | with_reducible apply keeps_raiseEv
    | with_reducible apply keeps_ite
    | (fail_if_no_progress with_reducible refine keeps_mk ?_ rfl rfl rfl rfl rfl rfl rfl rfl rfl rfl rfl rfl rfl rfl rfl rfl rfl rfl rfl)
    | split


theorem keeps_failRejoin {l : Lane} {reason : Nat} {s : State} (hs : s.sound) : (failRejoin l reason s).sound := by
  unfold failRejoin
  try dsimp only
  repeat' first
    | with_reducible assumption | with_reducible apply keeps_raiseEv | with_reducible apply keeps_chestWrite
    | with_reducible apply keeps_startRollBack | with_reducible apply keeps_ite
    | (fail_if_no_progress with_reducible refine keeps_mk ?_ rfl rfl rfl rfl rfl rfl rfl rfl rfl rfl rfl rfl rfl rfl rfl rfl rfl rfl rfl)

theorem keeps_excludeLane {l : Lane} {reason : Nat} {detail : List Byte} {s : State} (hs : s.sound) : (excludeLane l reason detail s).sound := by
  unfold excludeLane
  try dsimp only
  repeat' first
    | with_reducible assumption | with_reducible apply keeps_excludeLanes | with_reducible apply keeps_failRejoin | with_reducible apply keeps_ite



end Sys2Proof.Laws
end

