-- ==== Sys2Proof/Laws/KeepsLane.lean ====
section
/-! SUPPORT. Each operation of Machine/LaneObj, LaneRun, Access, KernelRows, ProgramRows keeps the invariant `State.sound`. -/

namespace Sys2Proof.Laws

open Sys2Proof Sys2Proof.Machine

theorem keeps_laneRow {f : KEnv → KRun → KRun} {s : State} (hs : s.sound) : (laneRow f s).sound := by
  unfold laneRow
  try dsimp only
  repeat' first
    | with_reducible assumption | with_reducible apply keeps_ite
    | (fail_if_no_progress with_reducible refine keeps_mk ?_ rfl rfl rfl rfl rfl rfl rfl rfl rfl rfl rfl rfl rfl rfl rfl rfl rfl rfl rfl)


theorem keeps_modSess {n : Nat} {f : Session → Session} {s : State} (hs : s.sound) : (modSess n f s).sound := by
  unfold modSess
  try dsimp only
  repeat' first
    | with_reducible assumption
    | (fail_if_no_progress with_reducible refine keeps_mk ?_ rfl rfl rfl rfl rfl rfl rfl rfl rfl rfl rfl rfl rfl rfl rfl rfl rfl rfl rfl)


theorem keeps_withResult {r : Nat × List Byte} {s : State} (hs : s.sound) : (withResult r s).sound := by
  unfold withResult
  try dsimp only
  repeat' first
    | with_reducible assumption
    | (fail_if_no_progress with_reducible refine keeps_mk ?_ rfl rfl rfl rfl rfl rfl rfl rfl rfl rfl rfl rfl rfl rfl rfl rfl rfl rfl rfl)


theorem keeps_asSession {n : Nat} {min : Level} {key : Bool} {f : State → State × Nat × List Byte} {s : State} (hf : ∀ s : State, s.sound → (f s).1.sound) (hs : s.sound) : (asSession n min key f s).sound := by
  unfold asSession
  try dsimp only
  repeat' first
    | with_reducible assumption | with_reducible apply keeps_withResult | with_reducible apply hf
    | with_reducible apply keeps_ite


theorem keeps_asProxy {level min : Level} {key : Bool} {f : State → State × Nat × List Byte} {s : State} (hf : ∀ s : State, s.sound → (f s).1.sound) (hs : s.sound) : (asProxy level min key f s).sound := by
  unfold asProxy
  try dsimp only
  repeat' first
    | with_reducible assumption | with_reducible apply keeps_withResult | with_reducible apply hf
    | with_reducible apply keeps_ite


theorem keeps_closeWhere {p : Nat → Session → Bool} {s : State} (hs : s.sound) : (closeWhere p s).sound := by
  unfold closeWhere
  try dsimp only
  repeat' first
    | with_reducible assumption | with_reducible apply keeps_raiseEv
    | with_reducible refine keeps_foldl (fun s0 a0 k0 => ?_) _ ?_
    | (fail_if_no_progress with_reducible refine keeps_mk ?_ rfl rfl rfl rfl rfl rfl rfl rfl rfl rfl rfl rfl rfl rfl rfl rfl rfl rfl rfl)


theorem keeps_asLaneSession {n : Nat} {min : Level} {standbyToo : Bool} {f : KEnv → KRun → KRun} {out : Kernel → Nat} {s : State} (hs : s.sound) : (asLaneSession n min standbyToo f out s).sound := by
  unfold asLaneSession
  try dsimp only
  repeat' first
    | with_reducible assumption | with_reducible apply keeps_withResult | with_reducible apply keeps_laneRow
    | with_reducible apply keeps_ite


theorem keeps_progCommand {sess cmd : Nat} {s : State} (hs : s.sound) : (progCommand sess cmd s).sound := by
  unfold progCommand
  try dsimp only
  repeat' first
    | with_reducible assumption | with_reducible apply keeps_asLaneSession


theorem keeps_switchNow {p : Program} {h : Half} {s : State} (hs : s.sound) : (switchNow p h s).sound := by
  unfold switchNow
  try dsimp only
  repeat' first
    | with_reducible assumption | with_reducible apply keeps_raiseAt | with_reducible apply keeps_bookPut
    | with_reducible refine keeps_foldl (fun s0 a0 k0 => ?_) _ ?_
    | (fail_if_no_progress with_reducible refine keeps_mk ?_ rfl rfl rfl rfl rfl rfl rfl rfl rfl rfl rfl rfl rfl rfl rfl rfl rfl rfl rfl)
    | dsimp only [twoMod, twoPut, twoGet, twoMap] | split


theorem keeps_onlineSwitch {s : State} (hs : s.sound) : (onlineSwitch s).sound := by
  unfold onlineSwitch
  try dsimp only
  repeat' first
    | with_reducible assumption | with_reducible apply keeps_switchNow | with_reducible apply keeps_ite | split


end Sys2Proof.Laws
end

