-- ==== Sys2Proof/Laws/KeepsVote.lean ====
section
/-! SUPPORT. Each operation of Machine/Reply, Voting, Rejoin, Commission keeps the invariant `State.sound`. -/

namespace Sys2Proof.Laws

open Sys2Proof Sys2Proof.Machine

theorem keeps_serviceStamp {port : Nat} {h : Half} {s : State} (hs : s.sound) : (serviceStamp port h s).sound := by
  unfold serviceStamp
  try dsimp only
  repeat' first
    | with_reducible assumption | with_reducible apply keeps_stamp | split


theorem keeps_stampReply {r : Reply} {s : State} (hs : s.sound) : (stampReply r s).sound := by
  unfold stampReply
  try dsimp only
  repeat' first
    | with_reducible assumption | with_reducible apply keeps_stamp | with_reducible apply keeps_serviceStamp
    | with_reducible refine keeps_foldl_half (fun s0 k0 => ?_) (fun s0 k0 => ?_) _ ?_ | split


theorem keeps_emit {r : Reply} {s : State} (hs : s.sound) : (emit r s).sound := by
  unfold emit
  try dsimp only
  repeat' first
    | with_reducible assumption | with_reducible apply keeps_stampReply
    | (fail_if_no_progress with_reducible refine keeps_mk ?_ rfl rfl rfl rfl rfl rfl rfl rfl rfl rfl rfl rfl rfl rfl rfl rfl rfl rfl rfl)


theorem keeps_sendReply {n : Nat} {r : Reply} {s : State} (hs : s.sound) : (sendReply n r s).sound := by
  unfold sendReply
  try dsimp only
  repeat' first
    | with_reducible assumption | with_reducible apply keeps_emit | with_reducible apply keeps_modSess


theorem keeps_sendLoose {r : Reply} {s : State} (hs : s.sound) : (sendLoose r s).sound := by
  unfold sendLoose
  try dsimp only
  repeat' first
    | with_reducible assumption | with_reducible apply keeps_emit


theorem keeps_answerVoted {ans : Option (List DictAns)} {s : State} (hs : s.sound) : (answerVoted ans s).sound := by
  unfold answerVoted
  try dsimp only
  repeat' first
    | with_reducible assumption | with_reducible apply keeps_modSess | with_reducible apply keeps_sendReply
    | with_reducible apply keeps_sendLoose | with_reducible refine keeps_foldl (fun s0 a0 k0 => ?_) _ ?_
    | (fail_if_no_progress with_reducible refine keeps_mk ?_ rfl rfl rfl rfl rfl rfl rfl rfl rfl rfl rfl rfl rfl rfl rfl rfl rfl rfl rfl)


theorem tabGet_nil_length {α : Type} {t : Tab (List α)} {n k : Nat} (h : ∀ q ∈ t, q.2.length ≤ k) :
    (tabGet t n []).length ≤ k := by
  unfold tabGet
  cases e : tabFind t n with
  | none => simp
  | some x => exact h _ (mem_of_tabFind e)

theorem keeps_enqueue {q : Req} {s : State} (hs : s.sound) : (enqueue q s).sound := by
  unfold enqueue
  dsimp only
  split
  · rename_i h
    apply keeps_noteDepth
    obtain ⟨h1, ⟨h2, h3, h4⟩, h5⟩ := hs
    refine ⟨h1, ⟨h2, fun p hp => ?_, h4⟩, h5⟩
    rcases mem_tabPut hp with e | e
    · rw [e]
      simp only [List.length_append, List.length_singleton]
      exact h
    · exact h3 p e
  · exact keeps_noteDepth hs

theorem keeps_enqueueApp {l : List (List Byte)} {s : State} (hs : s.sound) : (enqueueApp l s).sound := by
  unfold enqueueApp
  try dsimp only
  repeat' first
    | with_reducible assumption | with_reducible apply keeps_ingressStamp | with_reducible apply keeps_enqueue
    | with_reducible refine keeps_foldl (fun s0 a0 k0 => ?_) _ ?_


theorem keeps_takeRecords {rs : List FbRec} {es : List EvRaise} {s : State} (hs : s.sound) : (takeRecords rs es s).sound := by
  unfold takeRecords
  try dsimp only
  repeat' first
    | with_reducible assumption | with_reducible apply keeps_raiseAt | with_reducible apply keeps_bookPut
    | with_reducible refine keeps_foldl (fun s0 a0 k0 => ?_) _ ?_


theorem foldl_memWrite_wf (l : List (Nat × Byte)) : ∀ {m : Mem}, Memory.wf m = true →
    Memory.wf (l.foldl (fun m p => if p.1 < 0x100000 then memWrite m p.1 p.2 else m) m) = true := by
  induction l with
  | nil => intro m h; exact h
  | cons a t ih =>
    intro m h
    rw [List.foldl_cons]
    apply ih
    split
    · exact memWrite_wf _ _ h
    · exact h

theorem keeps_writeWindows {l : List (Nat × Byte)} {s : State} (hs : s.sound) : (writeWindows l s).sound :=
  ⟨⟨foldl_memWrite_wf l hs.1.1, hs.1.2⟩, hs.2⟩

theorem keeps_announceSwitch {m : ModuleBlock} {s : State} (hs : s.sound) : (announceSwitch m s).sound := by
  unfold announceSwitch
  try dsimp only
  repeat' first
    | with_reducible assumption | with_reducible apply keeps_raiseEv | with_reducible apply keeps_ite
    | (fail_if_no_progress with_reducible refine keeps_mk ?_ rfl rfl rfl rfl rfl rfl rfl rfl rfl rfl rfl rfl rfl rfl rfl rfl rfl rfl rfl)
    | split


theorem keeps_takeModule {m : ModuleBlock} {s : State} (hs : s.sound) : (takeModule m s).sound := by
  unfold takeModule
  try dsimp only
  repeat' first
    | with_reducible assumption | with_reducible apply keeps_excludeLanes | with_reducible apply keeps_raiseEv
    | with_reducible apply keeps_disableHalf | with_reducible apply keeps_announceSwitch
    | with_reducible apply keeps_ite | with_reducible refine keeps_foldl_half (fun s0 k0 => ?_) (fun s0 k0 => ?_) _ ?_
    | with_reducible refine keeps_foldl (fun s0 a0 k0 => ?_) _ ?_
    | (fail_if_no_progress with_reducible refine keeps_mk ?_ rfl rfl rfl rfl rfl rfl rfl rfl rfl rfl rfl rfl rfl rfl rfl rfl rfl rfl rfl)


theorem keeps_takeVoted {o : OutputImage} {s : State} (hs : s.sound) : (takeVoted o s).sound := by
  unfold takeVoted
  try dsimp only
  repeat' first
    | with_reducible assumption | with_reducible apply keeps_takeRecords | with_reducible apply keeps_writeWindows
    | with_reducible apply keeps_enqueueApp | with_reducible apply keeps_takeModule
    | with_reducible apply keeps_answerVoted
    | (fail_if_no_progress with_reducible refine keeps_mk ?_ rfl rfl rfl rfl rfl rfl rfl rfl rfl rfl rfl rfl rfl rfl rfl rfl rfl rfl rfl)


theorem keeps_keepBases {v : VotedImage} {s : State} (hs : s.sound) : (keepBases v s).sound := by
  unfold keepBases
  try dsimp only
  repeat' first
    | with_reducible assumption
    | (fail_if_no_progress with_reducible refine keeps_mk ?_ rfl rfl rfl rfl rfl rfl rfl rfl rfl rfl rfl rfl rfl rfl rfl rfl rfl rfl rfl)


theorem keeps_loadNext {h : Half} {v : VotedImage} {s : State} (hi : (twoGet s.halves h).inServ = true) (hs : s.sound) :
    (loadNext h v s).sound := by
  unfold loadNext
  split
  · apply keeps_keepBases
    cases h
    · refine keeps_mk2 hs rfl rfl rfl rfl rfl rfl rfl rfl rfl rfl rfl (fun _ e => ?_) quiet_id
      simp_all [twoGet, twoMod, twoPut]
    · refine keeps_mk2 hs rfl rfl rfl rfl rfl rfl rfl rfl rfl rfl rfl quiet_id (fun _ e => ?_)
      simp_all [twoGet, twoMod, twoPut]
  · cases h
    · refine keeps_mk2 hs rfl rfl rfl rfl rfl rfl rfl rfl rfl rfl rfl (fun _ e => ?_) quiet_id
      simp_all [twoGet, twoMod, twoPut]
    · refine keeps_mk2 hs rfl rfl rfl rfl rfl rfl rfl rfl rfl rfl rfl quiet_id (fun _ e => ?_)
      simp_all [twoGet, twoMod, twoPut]

theorem keeps_countLate {h : Half} {ps : List (Lane × OutputImage)} {s : State} (hs : s.sound) : (countLate h ps s).sound := by
  unfold countLate
  try dsimp only
  repeat' first
    | with_reducible assumption | with_reducible apply keeps_raiseAt | with_reducible apply keeps_ite
    | with_reducible refine keeps_foldl (fun s0 a0 k0 => ?_) _ ?_
    | (fail_if_no_progress with_reducible refine keeps_mk ?_ rfl rfl rfl rfl rfl rfl rfl rfl rfl rfl rfl rfl rfl rfl rfl rfl rfl rfl rfl)


theorem keeps_shadowCheck {h : Half} {o : OutputImage} {s : State} (hs : s.sound) : (shadowCheck h o s).sound := by
  unfold shadowCheck
  try dsimp only
  repeat' first
    | with_reducible assumption | with_reducible apply keeps_failRejoin | with_reducible apply keeps_ite
    | with_reducible refine keeps_foldl (fun s0 a0 k0 => ?_) _ ?_
    | (fail_if_no_progress with_reducible refine keeps_mk ?_ rfl rfl rfl rfl rfl rfl rfl rfl rfl rfl rfl rfl rfl rfl rfl rfl rfl rfl rfl)
    | split


theorem foldl_proj {σ α β : Type} {f : σ → α → σ} {p : σ → β} (h : ∀ s a, p (f s a) = p s) (l : List α) :
    ∀ s, p (l.foldl f s) = p s := by
  induction l with
  | nil => intro s; rfl
  | cons a t ih => intro s; exact (ih (f s a)).trans (h s a)

theorem countLate_halves {h : Half} {ps : List (Lane × OutputImage)} {s : State} : (countLate h ps s).halves = s.halves := by
  unfold countLate
  apply foldl_proj (p := State.halves)
  intro t l
  dsimp only
  split <;> rfl

/-- A half that has voted and drops its next image. -/
theorem keeps_voted {h : Half} {v : VoteSt} {n : Option Nat} {s : State} (hs : s.sound) :
    State.sound { s with halves := twoMod s.halves h (fun y => { y with votedImg := n, next := none }), vote := v } := by
  cases h
  · exact keeps_mk2 hs rfl rfl rfl rfl rfl rfl rfl rfl rfl rfl rfl (quiet_noNext rfl rfl rfl) quiet_id
  · exact keeps_mk2 hs rfl rfl rfl rfl rfl rfl rfl rfl rfl rfl rfl quiet_id (quiet_noNext rfl rfl rfl)

theorem keeps_voteHalf {h : Half} {s : State} (hs : s.sound) : (voteHalf h s).sound := by
  unfold voteHalf
  dsimp only
  split
  · exact hs
  · rename_i hg
    have hi : (twoGet s.halves h).inServ = true := by
      simp only [Bool.or_eq_true, not_or] at hg
      simpa using hg.1.1.1
    have k := keeps_countLate (h := h) (ps := presentImages s h) hs
    have kh := countLate_halves (h := h) (ps := presentImages s h) (s := s)
    generalize countLate h (presentImages s h) s = t at k kh ⊢
    rw [← kh] at hi
    split
    · refine keeps_ite (keeps_answerVoted (keeps_ite (keeps_raiseAt (keeps_raiseAt (keeps_voted k))) (keeps_voted k)))
        (keeps_ite (keeps_raiseAt (keeps_raiseAt (keeps_voted k))) (keeps_voted k))
    · split
      · refine keeps_answerVoted (keeps_enterRestrictive (keeps_foldl (fun t l q => keeps_dropLane q) _ (keeps_raiseAt (keeps_voted k))))
      · split
        · refine keeps_foldl (fun t l q => keeps_ite (keeps_excludeLanes q) q) _ ?_
          refine keeps_ite (keeps_takeVoted (keeps_shadowCheck (keeps_loadNext ?_ (keeps_voted k))))
            (keeps_shadowCheck (keeps_loadNext ?_ (keeps_voted k))) <;> cases h <;> exact hi
        · exact keeps_voted k

theorem keeps_ingress {h : Half} {g : HalfSt → Three (Option OutputImage)} {v : VoteSt} {s : State} (hs : s.sound) :
    State.sound { s with halves := twoMod s.halves h (fun y => { y with ingress := g y }), vote := v } := by
  cases h
  · exact keeps_mk2 hs rfl rfl rfl rfl rfl rfl rfl rfl rfl rfl rfl (quiet_mk rfl rfl rfl) quiet_id
  · exact keeps_mk2 hs rfl rfl rfl rfl rfl rfl rfl rfl rfl rfl rfl quiet_id (quiet_mk rfl rfl rfl)

theorem keeps_outputArrives {l : Lane} {h : Half} {img : Option OutputImage} {s : State} (hs : s.sound) :
    (outputArrives l h img s).sound := by
  unfold outputArrives
  dsimp only
  cases img with
  | some o => exact keeps_ite hs (keeps_ite (keeps_voteHalf (keeps_ingress hs)) (keeps_ingress hs))
  | none =>
    dsimp only
    cases (triGet s.lanes l).out with
    | none => exact hs
    | some o => exact keeps_ite hs (keeps_ite (keeps_voteHalf (keeps_ingress hs)) (keeps_ingress hs))

theorem keeps_decided {h : Half} {v : Option VerdictMsg} {s : State} (hs : s.sound) :
    State.sound { s with halves := twoMod s.halves h (fun y => { y with decided := v }) } := by
  cases h
  · exact keeps_mk2 hs rfl rfl rfl rfl rfl rfl rfl rfl rfl rfl rfl (quiet_mk rfl rfl rfl) quiet_id
  · exact keeps_mk2 hs rfl rfl rfl rfl rfl rfl rfl rfl rfl rfl rfl quiet_id (quiet_mk rfl rfl rfl)

theorem keeps_lanes {l : Three LaneSt} {s : State} (hs : s.sound) : State.sound { s with lanes := l } := hs

theorem keeps_decideBench {h : Half} {s : State} (hs : s.sound) : (decideBench h s).sound := by
  unfold decideBench
  dsimp only
  refine keeps_ite hs (keeps_decided (keeps_foldl (fun t l k => ?_) _ hs))
  exact keeps_ite k (keeps_ite k (keeps_raiseAt k))

theorem keeps_shadowBench {s : State} (hs : s.sound) : (shadowBench s).sound := by
  unfold shadowBench
  try dsimp only
  repeat' first
    | with_reducible assumption | with_reducible apply keeps_failRejoin | with_reducible apply keeps_ite
    | with_reducible refine keeps_foldl (fun s0 a0 k0 => ?_) _ ?_
    | (fail_if_no_progress with_reducible refine keeps_mk ?_ rfl rfl rfl rfl rfl rfl rfl rfl rfl rfl rfl rfl rfl rfl rfl rfl rfl rfl rfl)
    | split


theorem keeps_checkWithdrawal {three : Bool} {s : State} (hs : s.sound) : (checkWithdrawal three s).sound := by
  unfold checkWithdrawal
  try dsimp only
  repeat' first
    | with_reducible assumption | with_reducible apply keeps_raiseAt | with_reducible apply keeps_rollNext
    | with_reducible apply keeps_startRollBack | with_reducible apply keeps_ite
    | (fail_if_no_progress with_reducible refine keeps_mk ?_ rfl rfl rfl rfl rfl rfl rfl rfl rfl rfl rfl rfl rfl rfl rfl rfl rfl rfl rfl)


theorem keeps_startMismatch {s : State} (hs : s.sound) : (startMismatch s).sound := by
  unfold startMismatch
  try dsimp only
  repeat' first
    | with_reducible assumption | with_reducible apply keeps_chestWrite | with_reducible apply keeps_ite


theorem keeps_missedMatch {s : State} (hs : s.sound) : (missedMatch s).sound := by
  unfold missedMatch
  try dsimp only
  repeat' first
    | with_reducible assumption | with_reducible apply keeps_enterRestrictive
    | with_reducible apply keeps_startMismatch | with_reducible apply keeps_ite
    | (fail_if_no_progress with_reducible refine keeps_mk ?_ rfl rfl rfl rfl rfl rfl rfl rfl rfl rfl rfl rfl rfl rfl rfl rfl rfl rfl rfl)


theorem keeps_leaveDone {s : State} (hs : s.sound) : (leaveDone s).sound := by
  unfold leaveDone
  try dsimp only
  repeat' first
    | with_reducible assumption | with_reducible apply keeps_raiseAt | with_reducible apply keeps_ite
    | (fail_if_no_progress with_reducible refine keeps_mk ?_ rfl rfl rfl rfl rfl rfl rfl rfl rfl rfl rfl rfl rfl rfl rfl rfl rfl rfl rfl)


theorem keeps_applyVerdict {v : VerdictMsg} {s : State} (hs : s.sound) : (applyVerdict v s).sound := by
  unfold applyVerdict
  try dsimp only
  repeat' first
    | with_reducible assumption | with_reducible apply keeps_checkWithdrawal | with_reducible apply keeps_leaveDone
    | with_reducible apply keeps_shadowBench | with_reducible apply keeps_missedMatch
    | with_reducible apply keeps_excludeLanes | with_reducible apply keeps_enterRestrictive
    | with_reducible apply keeps_startMismatch
    | (fail_if_no_progress with_reducible refine keeps_mk ?_ rfl rfl rfl rfl rfl rfl rfl rfl rfl rfl rfl rfl rfl rfl rfl rfl rfl rfl rfl)
    | split


theorem keeps_settleBench {s : State} (hs : s.sound) : (settleBench s).sound := by
  unfold settleBench
  try dsimp only
  repeat' first
    | with_reducible assumption | with_reducible apply keeps_applyVerdict | with_reducible apply keeps_ite | split


theorem keeps_benchArrives {l : Lane} {h : Half} {dig : Option (List Byte)} {s : State} (hs : s.sound) :
    (benchArrives l h dig s).sound := by
  have k : ∀ d, State.sound { s with halves := twoMod s.halves h (fun y => { y with bench := triPut y.bench l (some (s.imageNo, d)) }) } := by
    intro d
    cases h
    · exact keeps_mk2 hs rfl rfl rfl rfl rfl rfl rfl rfl rfl rfl rfl (quiet_mk rfl rfl rfl) quiet_id
    · exact keeps_mk2 hs rfl rfl rfl rfl rfl rfl rfl rfl rfl rfl rfl quiet_id (quiet_mk rfl rfl rfl)
  unfold benchArrives
  exact keeps_ite hs (keeps_ite (keeps_settleBench (keeps_decideBench (k _))) (k _))

theorem keeps_linkMessage {passA passB : Bool} {s : State} (hs : s.sound) : (linkMessage passA passB s).sound := by
  unfold linkMessage
  try dsimp only
  repeat' first
    | with_reducible assumption | with_reducible apply keeps_settleBench | with_reducible apply keeps_raiseAt
    | with_reducible apply keeps_applyVerdict | with_reducible apply keeps_ite
    | (fail_if_no_progress with_reducible refine keeps_mk ?_ rfl rfl rfl rfl rfl rfl rfl rfl rfl rfl rfl rfl rfl rfl rfl rfl rfl rfl rfl)
    | dsimp only [twoMod, twoPut, twoGet, twoMap] | split


theorem keeps_lateExclusion {l : Lane} {s : State} (hs : s.sound) : (lateExclusion l s).sound := by
  unfold lateExclusion
  try dsimp only
  repeat' first
    | with_reducible assumption | with_reducible apply keeps_excludeLanes | with_reducible apply keeps_ite


theorem keeps_writeFirmware {l : Lane} {s : State} (hs : s.sound) : (writeFirmware l s).sound := by
  unfold writeFirmware
  try dsimp only
  repeat' first
    | with_reducible assumption | with_reducible apply keeps_startRollBack | with_reducible apply keeps_ite
    | (fail_if_no_progress with_reducible refine keeps_mk ?_ rfl rfl rfl rfl rfl rfl rfl rfl rfl rfl rfl rfl rfl rfl rfl rfl rfl rfl rfl)


theorem keeps_rejoinStart {l : Lane} {s : State} (hs : s.sound) : (rejoinStart l s).sound := by
  unfold rejoinStart
  try dsimp only
  repeat' first
    | with_reducible assumption | with_reducible apply keeps_startBooting | with_reducible apply keeps_writeFirmware
    | with_reducible apply keeps_ite


theorem keeps_bootingDone {l : Lane} {fw data mem : Bool} {s : State} (hs : s.sound) : (bootingDone l fw data mem s).sound := by
  unfold bootingDone
  try dsimp only
  repeat' first
    | with_reducible assumption | with_reducible apply keeps_failRejoin | with_reducible apply keeps_ite
    | (fail_if_no_progress with_reducible refine keeps_mk ?_ rfl rfl rfl rfl rfl rfl rfl rfl rfl rfl rfl rfl rfl rfl rfl rfl rfl rfl rfl)


theorem keeps_copyRoundEnd {l : Lane} {pages : Nat} {canStream : Bool} {s : State} (hs : s.sound) : (copyRoundEnd l pages canStream s).sound := by
  unfold copyRoundEnd
  try dsimp only
  repeat' first
    | with_reducible assumption | with_reducible apply keeps_failRejoin | with_reducible apply keeps_ite
    | (fail_if_no_progress with_reducible refine keeps_mk ?_ rfl rfl rfl rfl rfl rfl rfl rfl rfl rfl rfl rfl rfl rfl rfl rfl rfl rfl rfl)


theorem keeps_finalRound {l : Lane} {s : State} (hs : s.sound) : (finalRound l s).sound := by
  unfold finalRound
  try dsimp only
  repeat' first
    | with_reducible assumption | with_reducible apply keeps_ite
    | (fail_if_no_progress with_reducible refine keeps_mk ?_ rfl rfl rfl rfl rfl rfl rfl rfl rfl rfl rfl rfl rfl rfl rfl rfl rfl rfl rfl)


theorem keeps_laneEnters {l : Lane} {s : State} (hs : s.sound) : (laneEnters l s).sound := by
  unfold laneEnters
  try dsimp only
  repeat' first
    | with_reducible assumption | with_reducible apply keeps_raiseEv | with_reducible apply keeps_ite
    | (fail_if_no_progress with_reducible refine keeps_mk ?_ rfl rfl rfl rfl rfl rfl rfl rfl rfl rfl rfl rfl rfl rfl rfl rfl rfl rfl rfl)


theorem keeps_laneOutcome {c : Nat} {s : State} (hs : s.sound) : (laneOutcome c s).sound := by
  unfold laneOutcome
  try dsimp only
  repeat' first
    | with_reducible assumption
    | (fail_if_no_progress with_reducible refine keeps_mk ?_ rfl rfl rfl rfl rfl rfl rfl rfl rfl rfl rfl rfl rfl rfl rfl rfl rfl rfl rfl)


theorem keeps_laneReply {c : Nat} {s : State} (hs : s.sound) : (laneReply c s).1.sound := by
  unfold laneReply
  try dsimp only
  repeat' first
    | with_reducible assumption | with_reducible apply keeps_laneOutcome


theorem keeps_withdrawFn {l : Lane} {s : State} (hs : s.sound) : (withdrawFn l s).1.sound := by
  unfold withdrawFn
  try dsimp only
  repeat' first
    | with_reducible assumption | with_reducible apply keeps_laneReply | with_reducible apply keeps_ite_fst
    | (fail_if_no_progress with_reducible refine keeps_mk ?_ rfl rfl rfl rfl rfl rfl rfl rfl rfl rfl rfl rfl rfl rfl rfl rfl rfl rfl rfl)


theorem keeps_returnFn {l : Lane} {s : State} (hs : s.sound) : (returnFn l s).1.sound := by
  unfold returnFn
  try dsimp only
  repeat' first
    | with_reducible assumption | with_reducible apply keeps_laneReply | with_reducible apply keeps_abortTests
    | with_reducible apply keeps_ite_fst
    | (fail_if_no_progress with_reducible refine keeps_mk ?_ rfl rfl rfl rfl rfl rfl rfl rfl rfl rfl rfl rfl rfl rfl rfl rfl rfl rfl rfl)


theorem keeps_cancelFn {s : State} (hs : s.sound) : (cancelFn s).1.sound := by
  unfold cancelFn
  try dsimp only
  repeat' first
    | with_reducible assumption | with_reducible apply keeps_raiseEv | with_reducible apply keeps_laneReply
    | with_reducible apply keeps_rollNext | with_reducible apply keeps_startRollBack | with_reducible apply keeps_ite
    | with_reducible apply keeps_ite_fst
    | (fail_if_no_progress with_reducible refine keeps_mk ?_ rfl rfl rfl rfl rfl rfl rfl rfl rfl rfl rfl rfl rfl rfl rfl rfl rfl rfl rfl)


theorem keeps_leavePlanned {l : Lane} {s : State} (hs : s.sound) : (leavePlanned l s).sound := by
  unfold leavePlanned
  try dsimp only
  repeat' first
    | with_reducible assumption | with_reducible apply keeps_raiseEv
    | (fail_if_no_progress with_reducible refine keeps_mk ?_ rfl rfl rfl rfl rfl rfl rfl rfl rfl rfl rfl rfl rfl rfl rfl rfl rfl rfl rfl)
    | dsimp only [twoMod, twoPut, twoGet, twoMap] | split


theorem keeps_withdrawalEffect {s : State} (hs : s.sound) : (withdrawalEffect s).sound := by
  unfold withdrawalEffect
  try dsimp only
  repeat' first
    | with_reducible assumption | with_reducible apply keeps_leavePlanned | with_reducible apply keeps_ite | split


theorem keeps_enterFn {s : State} (hs : s.sound) : (enterFn s).1.sound := by
  unfold enterFn
  try dsimp only
  repeat' first
    | with_reducible assumption
    | (fail_if_no_progress with_reducible refine keeps_mk ?_ rfl rfl rfl rfl rfl rfl rfl rfl rfl rfl rfl rfl rfl rfl rfl rfl rfl rfl rfl)


theorem keeps_leaveFn {s : State} (hs : s.sound) : (leaveFn s).1.sound := by
  unfold leaveFn
  try dsimp only
  repeat' first
    | with_reducible assumption | with_reducible apply keeps_ite
    | (fail_if_no_progress with_reducible refine keeps_mk ?_ rfl rfl rfl rfl rfl rfl rfl rfl rfl rfl rfl rfl rfl rfl rfl rfl rfl rfl rfl)


theorem keeps_actOn {l : Lane} {a : JAction} {core addr : Nat} {data : List Byte} {s : State} (hs : s.sound) : (actOn l a core addr data s).sound := by
  unfold actOn
  try dsimp only
  repeat' first
    | with_reducible assumption
    | (fail_if_no_progress with_reducible refine keeps_mk ?_ rfl rfl rfl rfl rfl rfl rfl rfl rfl rfl rfl rfl rfl rfl rfl rfl rfl rfl rfl)
    | split


theorem keeps_journal {a : JAction} {core count addr : Nat} {data : List Byte} {s : State} (hs : s.sound) : (journal a core count addr data s).sound := by
  unfold journal
  try dsimp only
  repeat' first
    | with_reducible assumption | with_reducible apply keeps_actOn
    | (fail_if_no_progress with_reducible refine keeps_mk ?_ rfl rfl rfl rfl rfl rfl rfl rfl rfl rfl rfl rfl rfl rfl rfl rfl rfl rfl rfl)


theorem keeps_debugAct {n core : Nat} {f : State → State} {s : State} (hf : ∀ s : State, s.sound → (f s).sound) (hs : s.sound) : (debugAct n core f s).sound := by
  unfold debugAct
  try dsimp only
  repeat' first
    | with_reducible assumption | with_reducible apply keeps_raiseEv | with_reducible apply hf
    | with_reducible apply keeps_ite


theorem keeps_freeEntries {s : State} (hs : s.sound) : (freeEntries s).sound := by
  unfold freeEntries
  try dsimp only
  repeat' first
    | with_reducible assumption
    | (fail_if_no_progress with_reducible refine keeps_mk ?_ rfl rfl rfl rfl rfl rfl rfl rfl rfl rfl rfl rfl rfl rfl rfl rfl rfl rfl rfl)


theorem keeps_journalApply {l : Lane} {core : Nat} {s : State} (hs : s.sound) : (journalApply l core s).sound := by
  unfold journalApply
  try dsimp only
  repeat' first
    | with_reducible assumption | with_reducible apply keeps_actOn | with_reducible apply keeps_freeEntries
    | with_reducible apply keeps_ite
    | (fail_if_no_progress with_reducible refine keeps_mk ?_ rfl rfl rfl rfl rfl rfl rfl rfl rfl rfl rfl rfl rfl rfl rfl rfl rfl rfl rfl)
    | split


theorem keeps_keyInactive {s : State} (hs : s.sound) : (keyInactive s).sound := by
  unfold keyInactive
  try dsimp only
  repeat' first
    | with_reducible assumption | with_reducible apply keeps_journal | with_reducible apply keeps_ite
    | with_reducible refine keeps_foldl (fun s0 a0 k0 => ?_) _ ?_
    | (fail_if_no_progress with_reducible refine keeps_mk ?_ rfl rfl rfl rfl rfl rfl rfl rfl rfl rfl rfl rfl rfl rfl rfl rfl rfl rfl rfl)


end Sys2Proof.Laws
end

