-- ==== Sys2Proof/Laws/KeepsBus.lean ====
section
/-! SUPPORT. Each operation of Machine/Trestle, Welong keeps the invariant `State.sound`. -/

namespace Sys2Proof.Laws

open Sys2Proof Sys2Proof.Machine

theorem keeps_evaluate {h : Half} {clear : Nat → Bool} {s : State} (hi : (twoGet s.halves h).inServ = true) (hs : s.sound) :
    (evaluate h clear s).sound := by
  have k : ∀ t x e, State.sound { s with tres := t, tx := twoPut s.tx h x, env := e } := by
    intro t x e
    have := keeps_txOf (h := h) (g := fun _ => x) hs (fun c => absurd (hi.symm.trans c) (by decide))
    exact this
  unfold evaluate
  dsimp only
  have k3 : ∀ (ds : Tab Decision) t x e, State.sound (match ds.find? (fun d => d.2.reason = 7 || d.2.reason = 8) with
      | some d => raiseEv 34 d.2.culprit { s with tres := t, tx := twoPut s.tx h x, env := e }
      | none => { s with tres := t, tx := twoPut s.tx h x, env := e }) := by
    intro ds t x e
    split
    · exact keeps_raiseEv (k t x e)
    · exact k t x e
  split
  · exact keeps_raiseEv (keeps_foldl (fun s b q => keeps_raiseEv q) _ (k3 _ _ _ _))
  · exact keeps_foldl (fun s b q => keeps_raiseEv q) _ (k3 _ _ _ _)

theorem keeps_evaluationOverrun {h : Half} {key : Nat} {s : State} (hs : s.sound) : (evaluationOverrun h key s).sound := by
  unfold evaluationOverrun
  split
  · exact hs
  · rename_i hg
    have hi : (twoGet s.halves h).inServ = true := by
      simp only [Bool.or_eq_true, not_or] at hg
      simpa using hg.1
    have k : ∀ t x, State.sound { s with tres := t, tx := twoPut s.tx h x } := by
      intro t x
      have := keeps_txOf (h := h) (g := fun _ => x) hs (fun c => absurd (hi.symm.trans c) (by decide))
      exact this
    exact keeps_raiseEv (k _ _)

theorem keeps_withheldL {h : Half} {key : Nat} {s : State} (hs : s.sound) : (withheldL h key s).sound := by
  unfold withheldL
  try dsimp only
  repeat' first
    | with_reducible assumption | with_reducible apply keeps_raiseEv | with_reducible apply keeps_ite
    | (fail_if_no_progress with_reducible refine keeps_mk ?_ rfl rfl rfl rfl rfl rfl rfl rfl rfl rfl rfl rfl rfl rfl rfl rfl rfl rfl rfl)


theorem keeps_modChan {h : Half} {f : ChanSt → ChanSt} {s : State} (hs : s.sound) : (modChan h f s).sound := by
  unfold modChan
  try dsimp only
  repeat' first
    | with_reducible assumption
    | (fail_if_no_progress with_reducible refine keeps_mk ?_ rfl rfl rfl rfl rfl rfl rfl rfl rfl rfl rfl rfl rfl rfl rfl rfl rfl rfl rfl)


theorem keeps_setSpare {t : Tab Nat} {node : Nat} {s : State} (hs : s.sound) : (setSpare t node s).sound := by
  unfold setSpare
  try dsimp only
  repeat' first
    | with_reducible assumption | with_reducible apply keeps_raiseEv | with_reducible apply keeps_ite
    | (fail_if_no_progress with_reducible refine keeps_mk ?_ rfl rfl rfl rfl rfl rfl rfl rfl rfl rfl rfl rfl rfl rfl rfl rfl rfl rfl rfl)


theorem keeps_releaseNode {node : Nat} {s : State} (hs : s.sound) : (releaseNode node s).sound := by
  unfold releaseNode
  try dsimp only
  repeat' first
    | with_reducible assumption | with_reducible apply keeps_setSpare


theorem keeps_closeIfGone {port : Nat} {s : State} (hs : s.sound) : (closeIfGone port s).sound := by
  unfold closeIfGone
  try dsimp only
  repeat' first
    | with_reducible assumption | with_reducible apply keeps_closeWhere | with_reducible apply keeps_ite


theorem keeps_dropInteg {h : Half} {port : Nat} {s : State} (hs : s.sound) : (dropInteg h port s).sound := by
  unfold dropInteg
  try dsimp only
  repeat' first
    | with_reducible assumption | with_reducible apply keeps_closeIfGone | with_reducible apply keeps_modPort


theorem keeps_closePort {h : Half} {port : Nat} {byCmd : Bool} {s : State} (hs : s.sound) : (closePort h port byCmd s).sound := by
  unfold closePort
  try dsimp only
  repeat' first
    | with_reducible assumption | with_reducible apply keeps_modPort | with_reducible apply keeps_dropInteg
    | with_reducible apply keeps_raiseEv | with_reducible apply keeps_releaseNode | with_reducible apply keeps_ite


theorem keeps_envEvent {port : Nat} {s : State} (hs : s.sound) : (envEvent port s).sound := by
  unfold envEvent
  try dsimp only
  repeat' first
    | with_reducible assumption | with_reducible apply keeps_raiseEv | with_reducible apply keeps_ite
    | (fail_if_no_progress with_reducible refine keeps_mk ?_ rfl rfl rfl rfl rfl rfl rfl rfl rfl rfl rfl rfl rfl rfl rfl rfl rfl rfl rfl)


theorem keeps_inputFrame {h : Half} {port : Nat} {f : Frame} {s : State} (hs : s.sound) : (inputFrame h port f s).sound := by
  unfold inputFrame
  try dsimp only
  repeat' first
    | with_reducible assumption | with_reducible apply keeps_modPort
    | with_reducible apply Sys2Proof.Laws.keeps_discard | with_reducible apply keeps_stamp
    | with_reducible apply keeps_envEvent | with_reducible apply keeps_ite


theorem keeps_integrateFrame {h : Half} {port : Nat} {f : Frame} {s : State} (hs : s.sound) : (integrateFrame h port f s).sound := by
  unfold integrateFrame
  try dsimp only
  repeat' first
    | with_reducible assumption | with_reducible apply Sys2Proof.Laws.keeps_discard
    | with_reducible apply keeps_modPort | with_reducible apply keeps_raiseEv | with_reducible apply keeps_ite


theorem keeps_takeDev {h : Half} {k port : Nat} {d : Int} {s : State} (hs : s.sound) : (takeDev h k port d s).sound := by
  unfold takeDev
  try dsimp only
  repeat' first
    | with_reducible assumption | with_reducible apply keeps_raiseEv | with_reducible apply keeps_modChan
    | with_reducible apply keeps_ite


theorem keeps_dormantInteg {h : Half} {port : Nat} {s : State} (hs : s.sound) : (dormantInteg h port s).sound := by
  unfold dormantInteg
  try dsimp only
  repeat' first
    | with_reducible assumption | with_reducible apply keeps_modPort | with_reducible apply keeps_ite


theorem keeps_startIntegrating {h : Half} {f : Frame} {s : State} (hs : s.sound) : (startIntegrating h f s).sound := by
  unfold startIntegrating
  try dsimp only
  repeat' first
    | with_reducible assumption | with_reducible apply keeps_modChan | with_reducible apply keeps_ite
    | (fail_if_no_progress with_reducible refine keeps_mk ?_ rfl rfl rfl rfl rfl rfl rfl rfl rfl rfl rfl rfl rfl rfl rfl rfl rfl rfl rfl)


theorem keeps_startBus {h : Half} {s : State} (hs : s.sound) : (startBus h s).sound := by
  unfold startBus
  try dsimp only
  repeat' first
    | with_reducible assumption | with_reducible apply keeps_modChan | with_reducible apply keeps_raiseEv
    | (fail_if_no_progress with_reducible refine keeps_mk ?_ rfl rfl rfl rfl rfl rfl rfl rfl rfl rfl rfl rfl rfl rfl rfl rfl rfl rfl rfl)


theorem keeps_hearBus {h : Half} {f : Frame} {s : State} (hs : s.sound) : (hearBus h f s).sound := by
  unfold hearBus
  try dsimp only
  repeat' first
    | with_reducible assumption | with_reducible apply keeps_startBus | with_reducible apply keeps_startIntegrating
    | with_reducible apply keeps_ite


theorem keeps_backOff {h : Half} {s : State} (hs : s.sound) : (backOff h s).sound := by
  unfold backOff
  try dsimp only
  repeat' first
    | with_reducible assumption | with_reducible apply keeps_raiseEv | with_reducible apply keeps_modChan


theorem keeps_syncFrame {h : Half} {port : Nat} {f : Frame} {at_ : Int} {s : State} (hs : s.sound) :
    (syncFrame h port f at_ s).sound := by
  have hr : ∀ {t : State} {n : Nat} {e : StampEntry}, t.sound → (stamp n 0 e t).sound := fun k => keeps_stamp k
  have hd : (Machine.discard h port s).sound := keeps_discard hs
  unfold syncFrame
  dsimp only
  refine keeps_ite hs ?_
  cases (twoGet s.bus.chans h).st
  · exact hs
  · exact keeps_ite (keeps_hearBus (hr hs)) hd
  · exact keeps_ite (keeps_backOff hs) (keeps_ite (keeps_dormantInteg (keeps_takeDev (hr hs))) hd)
  · exact keeps_ite hd (keeps_ite (keeps_takeDev (hr hs)) (keeps_modChan hs))
  · exact keeps_ite (keeps_backOff hs) (keeps_ite (keeps_dormantInteg (keeps_takeDev (hr hs))) hd)
  · exact hs

theorem keeps_coldFrame {h : Half} {port : Nat} {f : Frame} {at_ : Int} {s : State} (hs : s.sound) : (coldFrame h port f at_ s).sound := by
  unfold coldFrame
  try dsimp only
  repeat' first
    | with_reducible assumption | with_reducible apply keeps_stamp | with_reducible apply Sys2Proof.Laws.keeps_discard
    | with_reducible apply keeps_hearBus | with_reducible apply keeps_modChan | with_reducible apply keeps_backOff
    | with_reducible apply keeps_ite | dsimp only [twoMod, twoPut, twoGet, twoMap] | split


theorem keeps_coldStart {h : Half} {port : Nat} {f : Frame} {at_ : Int} {coll : Option Nat} {s : State} (hs : s.sound) :
    (coldStart h port f at_ coll s).sound := by
  unfold coldStart
  dsimp only
  refine keeps_ite hs ?_
  cases coll with
  | none => exact keeps_coldFrame hs
  | some q =>
    have k : ∀ g, (raiseEv 24 (max q port) (modChan h g s)).sound := fun g => keeps_raiseEv (keeps_modChan hs)
    exact keeps_ite hs (keeps_ite (keeps_coldFrame (k _)) (k _))

theorem keeps_listenTimeout {h : Half} {s : State} (hs : s.sound) : (listenTimeout h s).sound := by
  unfold listenTimeout
  try dsimp only
  repeat' first
    | with_reducible assumption | with_reducible apply keeps_startBus | with_reducible apply keeps_ite


theorem keeps_backOffEnd {h : Half} {s : State} (hs : s.sound) : (backOffEnd h s).sound := by
  unfold backOffEnd
  try dsimp only
  repeat' first
    | with_reducible assumption | with_reducible apply keeps_modChan | with_reducible apply keeps_ite


theorem keeps_rateCorrection {h : Half} {s : State} (hs : s.sound) : (rateCorrection h s).sound := by
  unfold rateCorrection
  try dsimp only
  repeat' first
    | with_reducible assumption | with_reducible apply keeps_modChan


theorem keeps_weakSync {h : Half} {s : State} (hs : s.sound) : (weakSync h s).sound := by
  unfold weakSync
  try dsimp only
  repeat' first
    | with_reducible assumption | with_reducible apply keeps_raiseEv | with_reducible apply keeps_modChan
    | with_reducible apply keeps_ite


theorem keeps_counterRecord {h : Half} {s : State} (hs : s.sound) : (counterRecord h s).sound := by
  unfold counterRecord
  try dsimp only
  repeat' first
    | with_reducible assumption | with_reducible apply keeps_ite
    | (fail_if_no_progress with_reducible refine keeps_mk ?_ rfl rfl rfl rfl rfl rfl rfl rfl rfl rfl rfl rfl rfl rfl rfl rfl rfl rfl rfl)


theorem modPort_inServ {h k : Half} {port : Nat} {f : PortSt → PortSt} {s : State} :
    (twoGet (modPort h port f s).halves k).inServ = (twoGet s.halves k).inServ := rfl

theorem keeps_sendDelayReq {h : Half} {port n : Nat} {s : State} (hi : (twoGet s.halves h).inServ = true) (hs : s.sound) :
    (sendDelayReq h port n s).sound := by
  unfold sendDelayReq
  refine keeps_txOf (keeps_modPort hs) (fun e => ?_)
  rw [modPort_inServ, hi] at e
  exact absurd e (by decide)

theorem keeps_linkUp {h : Half} {port : Nat} {s : State} (hs : s.sound) : (linkUp h port s).sound := by
  unfold linkUp
  split
  · exact hs
  · rename_i hg
    refine keeps_ite hs (keeps_raiseEv (keeps_sendDelayReq ?_ (keeps_modPort hs)))
    rw [modPort_inServ]
    simp only [Bool.or_eq_true, not_or] at hg
    simpa using hg.1.2

theorem keeps_linkDown {h : Half} {port : Nat} {s : State} (hs : s.sound) : (linkDown h port s).sound := by
  unfold linkDown
  try dsimp only
  repeat' first
    | with_reducible assumption | with_reducible apply keeps_modPort | with_reducible apply keeps_dropInteg
    | with_reducible apply keeps_raiseEv | with_reducible apply keeps_releaseNode | with_reducible apply keeps_ite


theorem keeps_setDelay {h : Half} {port ns : Nat} {s : State} (hs : s.sound) : (setDelay h port ns s).sound := by
  unfold setDelay
  try dsimp only
  repeat' first
    | with_reducible assumption | with_reducible apply keeps_modPort | with_reducible apply keeps_raiseEv
    | with_reducible apply keeps_ite


theorem keeps_delayResp {h : Half} {port : Nat} {f : Frame} {roundTrip : Nat} {s : State} (hs : s.sound) :
    (delayResp h port f roundTrip s).sound := by
  unfold delayResp
  dsimp only
  refine keeps_ite hs (keeps_ite (keeps_discard hs) (keeps_ite (keeps_modPort hs) ?_))
  refine keeps_txOf (keeps_setDelay (keeps_ite hs (keeps_stamp hs))) (fun _ => rfl)

theorem keeps_remeasure {h : Half} {port : Nat} {s : State} (hs : s.sound) : (remeasure h port s).sound := by
  unfold remeasure
  split
  · rename_i hg
    refine keeps_txStamp (keeps_sendDelayReq ?_ hs)
    simp only [portLive, Bool.and_eq_true] at hg
    simpa using hg.2.1.1.2
  · exact hs

theorem keeps_portReply {code : Nat} {s : State} (hs : s.sound) : (portReply code s).1.sound := by
  unfold portReply
  try dsimp only
  repeat' first
    | with_reducible assumption
    | (fail_if_no_progress with_reducible refine keeps_mk ?_ rfl rfl rfl rfl rfl rfl rfl rfl rfl rfl rfl rfl rfl rfl rfl rfl rfl rfl rfl)


theorem keeps_portCommand {act : Nat} {h : Half} {port : Nat} {s : State} (hs : s.sound) : (portCommand act h port s).1.sound := by
  unfold portCommand
  try dsimp only
  repeat' first
    | with_reducible assumption | with_reducible apply keeps_portReply | with_reducible apply keeps_closePort
    | with_reducible apply keeps_modPort | with_reducible apply keeps_remeasure | with_reducible apply keeps_ite_fst


theorem keeps_closedByCuts {h : Half} {port : Nat} {s : State} (hs : s.sound) : (closedByCuts h port s).sound := by
  unfold closedByCuts
  try dsimp only
  repeat' first
    | with_reducible assumption | with_reducible apply keeps_closePort | with_reducible apply keeps_ite


theorem keeps_portTableResend {h : Half} {port : Nat} {s : State} (hs : s.sound) : (portTableResend h port s).sound := by
  unfold portTableResend
  try dsimp only
  repeat' first
    | with_reducible assumption | with_reducible apply keeps_modPort | with_reducible apply keeps_ite


theorem keeps_claimFrame {h : Half} {port : Nat} {f : Frame} {s : State} (hs : s.sound) : (claimFrame h port f s).sound := by
  unfold claimFrame
  try dsimp only
  repeat' first
    | with_reducible assumption | with_reducible apply Sys2Proof.Laws.keeps_discard | with_reducible apply keeps_stamp
    | with_reducible apply keeps_ite
    | (fail_if_no_progress with_reducible refine keeps_mk ?_ rfl rfl rfl rfl rfl rfl rfl rfl rfl rfl rfl rfl rfl rfl rfl rfl rfl rfl rfl)


theorem keeps_serveClaim {node count : Nat} {s : State} (hs : s.sound) : (serveClaim node count s).sound := by
  unfold serveClaim
  try dsimp only
  repeat' first
    | with_reducible assumption | with_reducible apply keeps_raiseEv | with_reducible apply keeps_ite
    | (fail_if_no_progress with_reducible refine keeps_mk ?_ rfl rfl rfl rfl rfl rfl rfl rfl rfl rfl rfl rfl rfl rfl rfl rfl rfl rfl rfl)


theorem keeps_serveClaims {s : State} (hs : s.sound) : (serveClaims s).sound := by
  unfold serveClaims
  try dsimp only
  repeat' first
    | with_reducible assumption | with_reducible apply keeps_serveClaim
    | with_reducible refine keeps_foldl (fun s0 a0 k0 => ?_) _ ?_
    | (fail_if_no_progress with_reducible refine keeps_mk ?_ rfl rfl rfl rfl rfl rfl rfl rfl rfl rfl rfl rfl rfl rfl rfl rfl rfl rfl rfl)
    | split


theorem keeps_modeReply {code : Nat} {s : State} (hs : s.sound) : (modeReply code s).1.sound := by
  unfold modeReply
  try dsimp only
  repeat' first
    | with_reducible assumption
    | (fail_if_no_progress with_reducible refine keeps_mk ?_ rfl rfl rfl rfl rfl rfl rfl rfl rfl rfl rfl rfl rfl rfl rfl rfl rfl rfl rfl)


theorem keeps_modeRequestFn {n : Nat} {s : State} (hs : s.sound) : (modeRequestFn n s).1.sound := by
  unfold modeRequestFn
  try dsimp only
  repeat' first
    | with_reducible assumption | with_reducible apply keeps_modeReply | with_reducible apply keeps_raiseEv
    | with_reducible apply keeps_ite_fst
    | (fail_if_no_progress with_reducible refine keeps_mk ?_ rfl rfl rfl rfl rfl rfl rfl rfl rfl rfl rfl rfl rfl rfl rfl rfl rfl rfl rfl)
    | split


theorem keeps_withImage {f : State → State} {s : State} (hf : ∀ s : State, s.sound → (f s).sound) (hs : s.sound) : (withImage f s).sound := by
  unfold withImage
  try dsimp only
  repeat' first
    | with_reducible assumption | with_reducible apply keeps_laneRow | with_reducible apply hf


theorem keeps_checkpoint {s : State} (hs : s.sound) : (checkpoint s).sound := by
  unfold checkpoint
  try dsimp only
  repeat' first
    | with_reducible assumption | with_reducible apply keeps_raiseEv | with_reducible apply keeps_ite
    | (fail_if_no_progress with_reducible refine keeps_mk ?_ rfl rfl rfl rfl rfl rfl rfl rfl rfl rfl rfl rfl rfl rfl rfl rfl rfl rfl rfl)
    | split


theorem keeps_modeSwitch {s : State} (hs : s.sound) : (modeSwitch s).sound := by
  unfold modeSwitch
  try dsimp only
  repeat' first
    | with_reducible assumption | with_reducible apply keeps_raiseEv | with_reducible apply keeps_setSpare
    | with_reducible apply keeps_ite
    | (fail_if_no_progress with_reducible refine keeps_mk ?_ rfl rfl rfl rfl rfl rfl rfl rfl rfl rfl rfl rfl rfl rfl rfl rfl rfl rfl rfl)
    | split


end Sys2Proof.Laws
end

