-- ==== Sys2Proof/Laws/KeepsLocal.lean ====
section
/-! SUPPORT. Each operation of Machine/LocalRows, TimeRows keeps the invariant `State.sound`. -/

namespace Sys2Proof.Laws

open Sys2Proof Sys2Proof.Machine

theorem keeps_modPair {h : Half} {n : Nat} {f : PairSt → PairSt} {s : State} (hs : s.sound) : (modPair h n f s).sound := by
  unfold modPair
  try dsimp only
  repeat' first
    | with_reducible assumption
    | (fail_if_no_progress with_reducible refine keeps_mk ?_ rfl rfl rfl rfl rfl rfl rfl rfl rfl rfl rfl rfl rfl rfl rfl rfl rfl rfl rfl)


theorem keeps_sampleHalf {h : Half} {pins : List (Bool × Bool)} {s : State} (hs : s.sound) : (sampleHalf h pins s).sound := by
  unfold sampleHalf
  try dsimp only
  repeat' first
    | with_reducible assumption | with_reducible apply keeps_modPair
    | with_reducible refine keeps_foldl (fun s0 a0 k0 => ?_) _ ?_ | split


theorem keeps_sampleNi {raw : Nat} {s : State} (hs : s.sound) : (sampleNi raw s).sound := by
  unfold sampleNi
  try dsimp only
  repeat' first
    | with_reducible assumption
    | (fail_if_no_progress with_reducible refine keeps_mk ?_ rfl rfl rfl rfl rfl rfl rfl rfl rfl rfl rfl rfl rfl rfl rfl rfl rfl rfl rfl)


theorem keeps_sampleReset {lvl : Bool} {s : State} (hs : s.sound) : (sampleReset lvl s).sound := by
  unfold sampleReset
  try dsimp only
  repeat' first
    | with_reducible assumption | with_reducible apply keeps_ite
    | (fail_if_no_progress with_reducible refine keeps_mk ?_ rfl rfl rfl rfl rfl rfl rfl rfl rfl rfl rfl rfl rfl rfl rfl rfl rfl rfl rfl)


theorem keeps_latchPair {h : Half} {n : Nat} {code : FCode} {s : State} (hs : s.sound) : (latchPair h n code s).sound := by
  unfold latchPair
  try dsimp only
  repeat' first
    | with_reducible assumption | with_reducible apply keeps_modPair | with_reducible apply keeps_raiseRec
    | with_reducible apply keeps_ite
    | (fail_if_no_progress with_reducible refine keeps_mk ?_ rfl rfl rfl rfl rfl rfl rfl rfl rfl rfl rfl rfl rfl rfl rfl rfl rfl rfl rfl)


theorem keeps_supervisionFault {h : Half} {n : Nat} {code : FCode} {tp cause : Nat} {s : State} (hs : s.sound) : (supervisionFault h n code tp cause s).sound := by
  unfold supervisionFault
  try dsimp only
  repeat' first
    | with_reducible assumption | with_reducible apply keeps_latchPair | with_reducible apply keeps_ite
    | with_reducible refine keeps_foldl (fun s0 a0 k0 => ?_) _ ?_
    | (fail_if_no_progress with_reducible refine keeps_mk ?_ rfl rfl rfl rfl rfl rfl rfl rfl rfl rfl rfl rfl rfl rfl rfl rfl rfl rfl rfl)
    | split


theorem keeps_discrepancyRow {h : Half} {n : Nat} {s : State} (hs : s.sound) : (discrepancyRow h n s).sound := by
  unfold discrepancyRow
  cases pairRec s.cfg n with
  | none => exact hs
  | some r =>
    cases (pairOf s h n).discFrom with
    | none => exact hs
    | some t => exact keeps_ite (keeps_latchPair hs) hs

theorem keeps_chatteringRow {h : Half} {n : Nat} {s : State} (hs : s.sound) : (chatteringRow h n s).sound := by
  unfold chatteringRow
  cases pairRec s.cfg n with
  | none => exact hs
  | some r => exact keeps_ite (keeps_raiseRec (keeps_modPair hs)) hs

theorem keeps_ackPairsFn {mask : Nat} {s : State} (hs : s.sound) : (ackPairsFn mask s).1.sound := by
  unfold ackPairsFn
  try dsimp only
  repeat' first
    | with_reducible assumption | with_reducible apply keeps_modPair | with_reducible apply keeps_ite
    | with_reducible refine keeps_foldl (fun s0 a0 k0 => ?_) _ ?_


theorem keeps_ackKeyFn {s : State} (hs : s.sound) : (ackKeyFn s).1.sound := by
  unfold ackKeyFn
  try dsimp only
  repeat' first
    | with_reducible assumption | with_reducible apply keeps_modPair
    | (fail_if_no_progress with_reducible refine keeps_mk ?_ rfl rfl rfl rfl rfl rfl rfl rfl rfl rfl rfl rfl rfl rfl rfl rfl rfl rfl rfl)


theorem keeps_modVo {n : Nat} {f : VoSt → VoSt} {s : State} (hs : s.sound) : (modVo n f s).sound := by
  unfold modVo
  try dsimp only
  repeat' first
    | with_reducible assumption
    | (fail_if_no_progress with_reducible refine keeps_mk ?_ rfl rfl rfl rfl rfl rfl rfl rfl rfl rfl rfl rfl rfl rfl rfl rfl rfl rfl rfl)


theorem keeps_outputFault {n : Nat} {code : OCode} {s : State} (hs : s.sound) : (outputFault n code s).sound := by
  unfold outputFault
  try dsimp only
  repeat' first
    | with_reducible assumption | with_reducible apply keeps_modVo | with_reducible apply keeps_raiseRec
    | with_reducible apply keeps_ite | with_reducible refine keeps_foldl (fun s0 a0 k0 => ?_) _ ?_


theorem keeps_localDecision {read : List (Nat × Bool × Bool)} {s : State} (hs : s.sound) : (localDecision read s).sound := by
  unfold localDecision
  try dsimp only
  repeat' first
    | with_reducible assumption | with_reducible apply keeps_modVo | with_reducible apply keeps_outputFault
    | with_reducible apply keeps_ite | with_reducible refine keeps_foldl (fun s0 a0 k0 => ?_) _ ?_ | split


theorem keeps_driveNo {s : State} (hs : s.sound) : (driveNo s).sound := by
  unfold driveNo
  try dsimp only
  repeat' first
    | with_reducible assumption
    | (fail_if_no_progress with_reducible refine keeps_mk ?_ rfl rfl rfl rfl rfl rfl rfl rfl rfl rfl rfl rfl rfl rfl rfl rfl rfl rfl rfl)


theorem keeps_switchTest {n : Nat} {midU outU midL outL : Bool} {s : State} (hs : s.sound) : (switchTest n midU outU midL outL s).sound := by
  unfold switchTest
  try dsimp only
  repeat' first
    | with_reducible assumption | with_reducible apply keeps_modVo | with_reducible apply keeps_outputFault
    | with_reducible apply keeps_ite


theorem keeps_darkTest {n : Nat} {low : Bool} {s : State} (hs : s.sound) : (darkTest n low s).sound := by
  unfold darkTest
  try dsimp only
  repeat' first
    | with_reducible assumption | with_reducible apply keeps_modVo | with_reducible apply keeps_outputFault
    | with_reducible apply keeps_ite


theorem keeps_ackOutputsFn {mask : Nat} {s : State} (hs : s.sound) : (ackOutputsFn mask s).1.sound := by
  unfold ackOutputsFn
  try dsimp only
  repeat' first
    | with_reducible assumption | with_reducible apply keeps_modVo | with_reducible apply keeps_ite
    | with_reducible refine keeps_foldl (fun s0 a0 k0 => ?_) _ ?_


theorem keeps_resetStuck {s : State} (hs : s.sound) : (resetStuck s).sound := by
  unfold resetStuck
  try dsimp only
  repeat' first
    | with_reducible assumption | with_reducible apply keeps_raiseRec | with_reducible apply keeps_ite
    | (fail_if_no_progress with_reducible refine keeps_mk ?_ rfl rfl rfl rfl rfl rfl rfl rfl rfl rfl rfl rfl rfl rfl rfl rfl rfl rfl rfl)


theorem keeps_rstuckClear {s : State} (hs : s.sound) : (rstuckClear s).sound := by
  unfold rstuckClear
  try dsimp only
  repeat' first
    | with_reducible assumption | with_reducible apply keeps_ite
    | (fail_if_no_progress with_reducible refine keeps_mk ?_ rfl rfl rfl rfl rfl rfl rfl rfl rfl rfl rfl rfl rfl rfl rfl rfl rfl rfl rfl)


theorem keeps_modClocks {f : HalfClock → HalfClock} {s : State} (hs : s.sound) : (modClocks f s).sound := by
  unfold modClocks
  try dsimp only
  repeat' first
    | with_reducible assumption
    | (fail_if_no_progress with_reducible refine keeps_mk ?_ rfl rfl rfl rfl rfl rfl rfl rfl rfl rfl rfl rfl rfl rfl rfl rfl rfl rfl rfl)


theorem keeps_corrOutcome {code : Nat} {s : State} (hs : s.sound) : (corrOutcome code s).sound := by
  unfold corrOutcome
  try dsimp only
  repeat' first
    | with_reducible assumption
    | (fail_if_no_progress with_reducible refine keeps_mk ?_ rfl rfl rfl rfl rfl rfl rfl rfl rfl rfl rfl rfl rfl rfl rfl rfl rfl rfl rfl)


theorem keeps_offsetInc {o : Int} {s : State} (hs : s.sound) : (offsetInc o s).sound := by
  unfold offsetInc
  try dsimp only
  repeat' first
    | with_reducible assumption | with_reducible apply keeps_raiseRec | with_reducible apply keeps_corrOutcome
    | with_reducible apply keeps_modClocks | with_reducible apply keeps_ite
    | (fail_if_no_progress with_reducible refine keeps_mk ?_ rfl rfl rfl rfl rfl rfl rfl rfl rfl rfl rfl rfl rfl rfl rfl rfl rfl rfl rfl)


theorem keeps_rateInc {r : Int} {s : State} (hs : s.sound) : (rateInc r s).sound := by
  unfold rateInc
  try dsimp only
  repeat' first
    | with_reducible assumption | with_reducible apply keeps_corrOutcome | with_reducible apply keeps_modClocks
    | with_reducible apply keeps_ite


theorem keeps_stepTime {ns : Int} {s : State} (hs : s.sound) : (stepTime ns s).sound := by
  unfold stepTime
  try dsimp only
  repeat' first
    | with_reducible assumption | with_reducible apply keeps_corrOutcome | with_reducible apply keeps_modClocks
    | with_reducible apply keeps_raiseRec | with_reducible apply keeps_ite
    | (fail_if_no_progress with_reducible refine keeps_mk ?_ rfl rfl rfl rfl rfl rfl rfl rfl rfl rfl rfl rfl rfl rfl rfl rfl rfl rfl rfl)


theorem keeps_applyCorr {c : Corr} {s : State} (hs : s.sound) : (applyCorr c s).sound := by
  unfold applyCorr
  try dsimp only
  repeat' first
    | with_reducible assumption | with_reducible apply keeps_offsetInc | with_reducible apply keeps_rateInc
    | with_reducible apply keeps_ite | split


theorem keeps_applyDue {s : State} (hs : s.sound) : (applyDue s).sound := by
  unfold applyDue
  try dsimp only
  repeat' first
    | with_reducible assumption | with_reducible apply keeps_applyCorr
    | with_reducible refine keeps_foldl (fun s0 a0 k0 => ?_) _ ?_
    | (fail_if_no_progress with_reducible refine keeps_mk ?_ rfl rfl rfl rfl rfl rfl rfl rfl rfl rfl rfl rfl rfl rfl rfl rfl rfl rfl rfl)


theorem keeps_corrReply {f : State → State} {s : State} (hf : ∀ s : State, s.sound → (f s).sound) (hs : s.sound) : (corrReply f s).1.sound := by
  unfold corrReply
  try dsimp only
  repeat' first
    | with_reducible assumption | with_reducible apply hf


theorem keeps_ackRefusalFn {s : State} (hs : s.sound) : (ackRefusalFn s).1.sound := by
  unfold ackRefusalFn
  try dsimp only
  repeat' first
    | with_reducible assumption
    | (fail_if_no_progress with_reducible refine keeps_mk ?_ rfl rfl rfl rfl rfl rfl rfl rfl rfl rfl rfl rfl rfl rfl rfl rfl rfl rfl rfl)


theorem keeps_compareHalves {s : State} (hs : s.sound) : (compareHalves s).sound := by
  unfold compareHalves
  try dsimp only
  repeat' first
    | with_reducible assumption | with_reducible apply keeps_raiseEv | with_reducible apply keeps_raiseRec
    | with_reducible apply keeps_ite
    | (fail_if_no_progress with_reducible refine keeps_mk ?_ rfl rfl rfl rfl rfl rfl rfl rfl rfl rfl rfl rfl rfl rfl rfl rfl rfl rfl rfl)


theorem keeps_takeFreeInt {bound : Nat} {s : State} (hs : s.sound) : (takeFreeInt bound s).2.sound := by
  unfold takeFreeInt
  try dsimp only
  repeat' first
    | with_reducible assumption | with_reducible apply keeps_takeFree


theorem keeps_useSource {src : Nat} {s : State} (hs : s.sound) : (useSource src s).sound := by
  unfold useSource
  try dsimp only
  repeat' first
    | with_reducible assumption | with_reducible apply keeps_raiseEv | with_reducible apply keeps_ite
    | (fail_if_no_progress with_reducible refine keeps_mk ?_ rfl rfl rfl rfl rfl rfl rfl rfl rfl rfl rfl rfl rfl rfl rfl rfl rfl rfl rfl)


theorem keeps_servoMeasure {src : Nat} {off : Int} {s : State} (hs : s.sound) : (servoMeasure src off s).sound := by
  unfold servoMeasure
  try dsimp only
  repeat' first
    | with_reducible assumption | with_reducible apply keeps_useSource | with_reducible apply keeps_takeFreeInt
    | with_reducible apply keeps_takeFree
    | (fail_if_no_progress with_reducible refine keeps_mk ?_ rfl rfl rfl rfl rfl rfl rfl rfl rfl rfl rfl rfl rfl rfl rfl rfl rfl rfl rfl)


theorem keeps_loseSource {s : State} (hs : s.sound) : (loseSource s).sound := by
  unfold loseSource
  try dsimp only
  repeat' first
    | with_reducible assumption | with_reducible apply keeps_raiseEv
    | (fail_if_no_progress with_reducible refine keeps_mk ?_ rfl rfl rfl rfl rfl rfl rfl rfl rfl rfl rfl rfl rfl rfl rfl rfl rfl rfl rfl)


theorem keeps_timeSourceLost {s : State} (hs : s.sound) : (timeSourceLost s).sound := by
  unfold timeSourceLost
  try dsimp only
  repeat' first
    | with_reducible assumption | with_reducible apply keeps_loseSource | with_reducible apply keeps_ite


theorem keeps_setLeap {offset ann : Int} {s : State} (hs : s.sound) : (setLeap offset ann s).sound := by
  unfold setLeap
  try dsimp only
  repeat' first
    | with_reducible assumption | with_reducible apply keeps_raiseEv | with_reducible apply keeps_ite
    | (fail_if_no_progress with_reducible refine keeps_mk ?_ rfl rfl rfl rfl rfl rfl rfl rfl rfl rfl rfl rfl rfl rfl rfl rfl rfl rfl rfl)


theorem keeps_leapRow {s : State} (hs : s.sound) : (leapRow s).sound := by
  unfold leapRow
  try dsimp only
  repeat' first
    | with_reducible assumption | with_reducible apply keeps_setLeap | with_reducible apply keeps_ite


theorem keeps_modPtp {f : PtpSt → PtpSt} {s : State} (hs : s.sound) : (modPtp f s).sound := by
  unfold modPtp
  try dsimp only
  repeat' first
    | with_reducible assumption
    | (fail_if_no_progress with_reducible refine keeps_mk ?_ rfl rfl rfl rfl rfl rfl rfl rfl rfl rfl rfl rfl rfl rfl rfl rfl rfl rfl rfl)


theorem keeps_chooseMaster {s : State} (hs : s.sound) : (chooseMaster s).sound := by
  unfold chooseMaster
  try dsimp only
  repeat' first
    | with_reducible assumption | with_reducible apply keeps_modPtp | with_reducible apply keeps_raiseEv
    | with_reducible apply keeps_ite
    | (fail_if_no_progress with_reducible refine keeps_mk ?_ rfl rfl rfl rfl rfl rfl rfl rfl rfl rfl rfl rfl rfl rfl rfl rfl rfl rfl rfl)


theorem keeps_ptpLeap {s : State} (hs : s.sound) : (ptpLeap s).sound := by
  unfold ptpLeap
  try dsimp only
  repeat' first
    | with_reducible assumption | with_reducible apply keeps_setLeap | with_reducible apply keeps_ite | split


theorem keeps_announce {domain : Nat} {m : Master} {s : State} (hs : s.sound) : (announce domain m s).sound := by
  unfold announce
  try dsimp only
  repeat' first
    | with_reducible assumption | with_reducible apply keeps_modPtp | with_reducible apply keeps_ptpLeap
    | with_reducible apply keeps_chooseMaster | with_reducible apply keeps_ite


theorem keeps_announceTimeout {sender : Nat} {s : State} (hs : s.sound) : (announceTimeout sender s).sound := by
  unfold announceTimeout
  try dsimp only
  repeat' first
    | with_reducible assumption | with_reducible apply keeps_modPtp | with_reducible apply keeps_chooseMaster
    | with_reducible apply keeps_loseSource | with_reducible apply keeps_ite | split


theorem keeps_ptpDiscard {s : State} (hs : s.sound) : (ptpDiscard s).sound := by
  unfold ptpDiscard
  try dsimp only
  repeat' first
    | with_reducible assumption | with_reducible apply keeps_modPtp


theorem keeps_ptpMeasure {origin rx : Int} {s : State} (hs : s.sound) : (ptpMeasure origin rx s).sound := by
  unfold ptpMeasure
  try dsimp only
  repeat' first
    | with_reducible assumption | with_reducible apply keeps_modPtp | with_reducible apply keeps_servoMeasure
    | with_reducible apply keeps_ite


theorem keeps_ptpSync {m : PtpMsg} {dt : Nat} {s : State} (hs : s.sound) : (ptpSync m dt s).sound := by
  unfold ptpSync
  try dsimp only
  repeat' first
    | with_reducible assumption | with_reducible apply keeps_ptpDiscard | with_reducible apply keeps_stamp
    | with_reducible apply keeps_modPtp | with_reducible apply keeps_ptpMeasure | with_reducible apply keeps_ite
    | split


theorem keeps_followUp {m : PtpMsg} {s : State} (hs : s.sound) : (followUp m s).sound := by
  unfold followUp
  try dsimp only
  repeat' first
    | with_reducible assumption | with_reducible apply keeps_ptpMeasure | with_reducible apply keeps_ite | split


theorem keeps_queueTimed {f : TimedFrame} {s t : State} (hs : s.sound) (e : queueTimed f s = some t) : t.sound := by
  unfold queueTimed at e
  dsimp only at e
  split at e
  · exact absurd e (by simp)
  · cases e
    exact hs

theorem keeps_ptpDelayReq {launch : Int} {s : State} (hs : s.sound) : (ptpDelayReq launch s).sound := by
  unfold ptpDelayReq
  cases currentMaster s with
  | none => exact hs
  | some m =>
    refine keeps_ite hs ?_
    dsimp only
    cases e : queueTimed { launch := launch, serial := (s.time.ptp.delaySeq + 1) % 65536 } s with
    | none => exact hs
    | some t => exact keeps_stamp (keeps_modPtp (keeps_queueTimed hs e))

theorem keeps_ptpDelayResp {sender seq : Nat} {received : Int} {s : State} (hs : s.sound) : (ptpDelayResp sender seq received s).sound := by
  unfold ptpDelayResp
  try dsimp only
  repeat' first
    | with_reducible assumption | with_reducible apply keeps_modPtp | with_reducible apply keeps_ite | split


theorem keeps_missLaunch {d : Nat} {s : State} (hs : s.sound) : (missLaunch d s).sound := by
  unfold missLaunch
  try dsimp only
  repeat' first
    | with_reducible assumption | with_reducible apply keeps_raiseEv
    | (fail_if_no_progress with_reducible refine keeps_mk ?_ rfl rfl rfl rfl rfl rfl rfl rfl rfl rfl rfl rfl rfl rfl rfl rfl rfl rfl rfl)


theorem keeps_launchTimed {s : State} (hs : s.sound) : (launchTimed s).sound := by
  unfold launchTimed
  try dsimp only
  repeat' first
    | with_reducible assumption
    | (fail_if_no_progress with_reducible refine keeps_mk ?_ rfl rfl rfl rfl rfl rfl rfl rfl rfl rfl rfl rfl rfl rfl rfl rfl rfl rfl rfl)


theorem keeps_timedLate {s : State} (hs : s.sound) : (timedLate s).sound := by
  unfold timedLate
  try dsimp only
  repeat' first
    | with_reducible assumption | with_reducible apply keeps_missLaunch | with_reducible apply keeps_modPtp
    | with_reducible apply keeps_ite
    | (fail_if_no_progress with_reducible refine keeps_mk ?_ rfl rfl rfl rfl rfl rfl rfl rfl rfl rfl rfl rfl rfl rfl rfl rfl rfl rfl rfl)
    | split


theorem keeps_launchMissed {h : Half} {slot port : Nat} {s : State} (hs : s.sound) : (launchMissed h slot port s).sound := by
  unfold launchMissed
  dsimp only
  refine keeps_ite hs (keeps_missLaunch ?_)
  let g : TxSt → TxSt := fun t =>
    if slot = 0 then { t with sync := none }
    else if slot = 9 then { t with cmds := tabDel t.cmds port }
    else if slot = 10 then { t with permits := tabDel t.permits port }
    else if slot = 11 then { t with acks := t.acks.filter (fun a => a.1 ≠ port + 1) }
    else { t with tables := t.tables.filter (fun x => x.1 ≠ port) }
  exact keeps_txOf (h := h) (g := g) hs (fun _ => by
    show (if slot = 0 then _ else _) = TxSt.init
    repeat' split
    all_goals rfl)

end Sys2Proof.Laws
end

