-- ==== Sys2Proof/Laws/KeepsCascade.lean ====
section
/-! SUPPORT. Each operation of Machine/Restart, CascadeRows, Deliver, PairRows keeps the invariant `State.sound`. -/

namespace Sys2Proof.Laws

open Sys2Proof Sys2Proof.Machine

theorem keeps_restartKernels {f : KEnv → Nat → KRun → KRun} {s : State} (hs : s.sound) : (restartKernels f s).sound := by
  unfold restartKernels
  try dsimp only
  repeat' first
    | with_reducible assumption | with_reducible apply keeps_raiseAt | with_reducible apply keeps_bookPut
    | with_reducible refine keeps_foldl (fun s0 a0 k0 => ?_) _ ?_
    | (fail_if_no_progress with_reducible refine keeps_mk ?_ rfl rfl rfl rfl rfl rfl rfl rfl rfl rfl rfl rfl rfl rfl rfl rfl rfl rfl rfl)


theorem keeps_coldRestart {s : State} (hs : s.sound) : (coldRestart s).sound := by
  unfold coldRestart
  try dsimp only
  repeat' first
    | with_reducible assumption | with_reducible apply keeps_restartKernels


theorem keeps_warmRestart {s : State} (hs : s.sound) : (warmRestart s).sound := by
  unfold warmRestart
  try dsimp only
  repeat' first
    | with_reducible assumption | with_reducible apply keeps_restartKernels


theorem keeps_awaitConfirmation {s : State} (hs : s.sound) : (awaitConfirmation s).sound := by
  unfold awaitConfirmation
  try dsimp only
  repeat' first
    | with_reducible assumption
    | (fail_if_no_progress with_reducible refine keeps_mk ?_ rfl rfl rfl rfl rfl rfl rfl rfl rfl rfl rfl rfl rfl rfl rfl rfl rfl rfl rfl)


theorem keeps_coldControl {s : State} (hs : s.sound) : (coldControl s).sound := by
  unfold coldControl
  try dsimp only
  repeat' first
    | with_reducible assumption | with_reducible apply keeps_awaitConfirmation
    | with_reducible apply keeps_coldRestart


theorem keeps_forwardFrame {f : CascFrame} {s : State} (hs : s.sound) : (forwardFrame f s).sound := by
  unfold forwardFrame
  try dsimp only
  repeat' first
    | with_reducible assumption | with_reducible apply keeps_ite
    | (fail_if_no_progress with_reducible refine keeps_mk ?_ rfl rfl rfl rfl rfl rfl rfl rfl rfl rfl rfl rfl rfl rfl rfl rfl rfl rfl rfl)


theorem keeps_modPath {n : Nat} {f : PathSt → PathSt} {s : State} (hs : s.sound) : (modPath n f s).sound := by
  unfold modPath
  try dsimp only
  repeat' first
    | with_reducible assumption
    | (fail_if_no_progress with_reducible refine keeps_mk ?_ rfl rfl rfl rfl rfl rfl rfl rfl rfl rfl rfl rfl rfl rfl rfl rfl rfl rfl rfl)


theorem keeps_countCopy {n : Nat} {s : State} (hs : s.sound) : (countCopy n s).sound := by
  unfold countCopy
  try dsimp only
  repeat' first
    | with_reducible assumption | with_reducible apply keeps_modPath | with_reducible apply keeps_raiseEv
    | with_reducible apply keeps_ite


theorem keeps_pathFault {n : Nat} {s : State} (hs : s.sound) : (pathFault n s).sound := by
  unfold pathFault
  try dsimp only
  repeat' first
    | with_reducible assumption | with_reducible apply keeps_raiseEv | with_reducible apply keeps_modPath
    | with_reducible apply keeps_ite


theorem keeps_putConn {c : ConnSt} {s : State} (hs : s.sound) : (putConn c s).sound := by
  unfold putConn
  try dsimp only
  repeat' first
    | with_reducible assumption
    | (fail_if_no_progress with_reducible refine keeps_mk ?_ rfl rfl rfl rfl rfl rfl rfl rfl rfl rfl rfl rfl rfl rfl rfl rfl rfl rfl rfl)


theorem keeps_refuseEnv {s : State} (hs : s.sound) : (refuseEnv s).sound := by
  unfold refuseEnv
  try dsimp only
  repeat' first
    | with_reducible assumption
    | (fail_if_no_progress with_reducible refine keeps_mk ?_ rfl rfl rfl rfl rfl rfl rfl rfl rfl rfl rfl rfl rfl rfl rfl rfl rfl rfl rfl)


theorem keeps_takeEnvelope {path : Nat} {e : Envelope} {s : State} (hs : s.sound) : (takeEnvelope path e s).1.sound := by
  unfold takeEnvelope
  try dsimp only
  repeat' first
    | with_reducible assumption | with_reducible apply keeps_refuseEnv | with_reducible apply keeps_countCopy
    | with_reducible apply keeps_putConn | with_reducible apply keeps_ite | with_reducible apply keeps_ite_fst
    | (fail_if_no_progress with_reducible refine keeps_mk ?_ rfl rfl rfl rfl rfl rfl rfl rfl rfl rfl rfl rfl rfl rfl rfl rfl rfl rfl rfl)
    | split


theorem keeps_referenceUpdate {kind peer num : Nat} {s : State} (hs : s.sound) : (referenceUpdate kind peer num s).sound := by
  unfold referenceUpdate
  try dsimp only
  repeat' first
    | with_reducible assumption | with_reducible apply keeps_putConn | with_reducible apply keeps_ite | split


theorem keeps_takeClear {peer num : Nat} {e : Envelope} {s : State} (hs : s.sound) : (takeClear peer num e s).sound := by
  unfold takeClear
  try dsimp only
  repeat' first
    | with_reducible assumption
    | (fail_if_no_progress with_reducible refine keeps_mk ?_ rfl rfl rfl rfl rfl rfl rfl rfl rfl rfl rfl rfl rfl rfl rfl rfl rfl rfl rfl)


theorem keeps_takeReserve {peer : Nat} {e : Envelope} {s : State} (hs : s.sound) : (takeReserve peer e s).sound := by
  unfold takeReserve
  try dsimp only
  repeat' first
    | with_reducible assumption | with_reducible apply keeps_ingressStamp | with_reducible apply keeps_enqueue


theorem keeps_takeReply {peer : Nat} {e : Envelope} {s : State} (hs : s.sound) : (takeReply peer e s).sound := by
  unfold takeReply
  try dsimp only
  repeat' first
    | with_reducible assumption | with_reducible apply keeps_raiseRec | with_reducible apply keeps_ite
    | (fail_if_no_progress with_reducible refine keeps_mk ?_ rfl rfl rfl rfl rfl rfl rfl rfl rfl rfl rfl rfl rfl rfl rfl rfl rfl rfl rfl)


theorem keeps_cascReceive {kinds : List Nat} {f : CascFrame} {act : Nat × Nat × Nat → Envelope → State → State} {s : State}
    (hact : ∀ k e s, s.sound → (act k e s).sound) (hs : s.sound) : (cascReceive kinds f act s).sound := by
  unfold cascReceive
  cases dueOf s f 1 with
  | discard => exact hs
  | forward => exact keeps_forwardFrame hs
  | mine =>
    dsimp only
    cases readEnvelope f.body with
    | none => exact keeps_refuseEnv hs
    | some e =>
      have k := keeps_takeEnvelope (path := f.path) (e := e) hs
      refine keeps_ite hs ?_
      generalize takeEnvelope f.path e s = p at k ⊢
      obtain ⟨t, x⟩ := p
      cases x with
      | none => exact k
      | some x => exact hact x e t k

theorem keeps_clearAheadRow {f : CascFrame} {s : State} (hs : s.sound) : (clearAheadRow f s).sound := by
  unfold clearAheadRow
  try dsimp only
  repeat' first
    | with_reducible assumption | with_reducible apply keeps_cascReceive | with_reducible apply keeps_takeClear
    | with_reducible intro s0 k0


theorem keeps_nextSeq {kind peer num : Nat} {s : State} (hs : s.sound) : (nextSeq kind peer num s).2.sound := by
  unfold nextSeq
  try dsimp only
  repeat' first
    | with_reducible assumption
    | (fail_if_no_progress with_reducible refine keeps_mk ?_ rfl rfl rfl rfl rfl rfl rfl rfl rfl rfl rfl rfl rfl rfl rfl rfl rfl rfl rfl)


theorem keeps_sendEnvelope {peer : Nat} {e : Envelope} {s : State} (hs : s.sound) : (sendEnvelope peer e s).sound := by
  unfold sendEnvelope
  try dsimp only
  repeat' first
    | with_reducible assumption | with_reducible apply keeps_stamp
    | (fail_if_no_progress with_reducible refine keeps_mk ?_ rfl rfl rfl rfl rfl rfl rfl rfl rfl rfl rfl rfl rfl rfl rfl rfl rfl rfl rfl)


theorem keeps_sendLane {peer num kind pair epoch : Nat} {payload : List Byte} {s : State} (hs : s.sound) : (sendLane peer num kind pair epoch payload s).sound := by
  unfold sendLane
  try dsimp only
  repeat' first
    | with_reducible assumption | with_reducible apply keeps_nextSeq | with_reducible apply keeps_sendEnvelope


theorem keeps_anchorSend {peer num : Nat} {s : State} (hs : s.sound) : (anchorSend peer num s).sound := by
  unfold anchorSend
  try dsimp only
  repeat' first
    | with_reducible assumption | with_reducible apply keeps_sendLane | with_reducible apply keeps_ite
    | (fail_if_no_progress with_reducible refine keeps_mk ?_ rfl rfl rfl rfl rfl rfl rfl rfl rfl rfl rfl rfl rfl rfl rfl rfl rfl rfl rfl)
    | split


theorem keeps_boardLinkUp {side pos : Nat} {addrs : List Nat} {ring : Bool} {s : State} (hs : s.sound) : (boardLinkUp side pos addrs ring s).sound := by
  unfold boardLinkUp
  try dsimp only
  repeat' first
    | with_reducible assumption | with_reducible apply keeps_modPath | with_reducible apply keeps_raiseEv
    | with_reducible apply keeps_ite
    | (fail_if_no_progress with_reducible refine keeps_mk ?_ rfl rfl rfl rfl rfl rfl rfl rfl rfl rfl rfl rfl rfl rfl rfl rfl rfl rfl rfl)


theorem keeps_boardLinkBreak {down1 down2 : Bool} {pos : Nat} {addrs : List Nat} {s : State} (hs : s.sound) : (boardLinkBreak down1 down2 pos addrs s).sound := by
  unfold boardLinkBreak
  try dsimp only
  repeat' first
    | with_reducible assumption | with_reducible apply keeps_raiseEv | with_reducible apply keeps_modPath
    | with_reducible apply keeps_ite
    | (fail_if_no_progress with_reducible refine keeps_mk ?_ rfl rfl rfl rfl rfl rfl rfl rfl rfl rfl rfl rfl rfl rfl rfl rfl rfl rfl rfl)


theorem keeps_deliverTo {l : Lane} {img : Option CycleImage} {p : PassTimes} {s : State} (hs : s.sound) : (deliverTo l img p s).sound := by
  unfold deliverTo
  try dsimp only
  repeat' first
    | with_reducible assumption | with_reducible apply keeps_excludeLanes | with_reducible apply keeps_failRejoin
    | with_reducible apply keeps_ite
    | (fail_if_no_progress with_reducible refine keeps_mk ?_ rfl rfl rfl rfl rfl rfl rfl rfl rfl rfl rfl rfl rfl rfl rfl rfl rfl rfl rfl)
    | split


theorem keeps_deliver {img : Half → Option CycleImage} {two : Bool} {t : TickIn} {s : State} (hs : s.sound) : (deliver img two t s).sound := by
  unfold deliver
  try dsimp only
  repeat' first
    | with_reducible assumption | with_reducible apply keeps_raiseAt | with_reducible apply keeps_deliverTo
    | with_reducible apply keeps_ite | with_reducible refine keeps_foldl (fun s0 a0 k0 => ?_) _ ?_
    | (fail_if_no_progress with_reducible refine keeps_mk ?_ rfl rfl rfl rfl rfl rfl rfl rfl rfl rfl rfl rfl rfl rfl rfl rfl rfl rfl rfl)


theorem keeps_istLane {l : Lane} {r : IstIn} {s : State} (hs : s.sound) : (istLane l r s).sound := by
  unfold istLane
  try dsimp only
  repeat' first
    | with_reducible assumption | with_reducible apply keeps_chestWrite | with_reducible apply keeps_excludeLanes
    | with_reducible apply keeps_ite
    | (fail_if_no_progress with_reducible refine keeps_mk ?_ rfl rfl rfl rfl rfl rfl rfl rfl rfl rfl rfl rfl rfl rfl rfl rfl rfl rfl rfl)
    | split


theorem keeps_istRun {t : TickIn} {s : State} (hs : s.sound) : (istRun t s).sound := by
  unfold istRun
  try dsimp only
  repeat' first
    | with_reducible assumption | with_reducible apply keeps_istLane | with_reducible apply keeps_ite
    | with_reducible refine keeps_foldl (fun s0 a0 k0 => ?_) _ ?_


theorem keeps_noteBanks {s : State} (hs : s.sound) : (noteBanks s).sound := by
  unfold noteBanks
  try dsimp only
  repeat' first
    | with_reducible assumption
    | (fail_if_no_progress with_reducible refine keeps_mk ?_ rfl rfl rfl rfl rfl rfl rfl rfl rfl rfl rfl rfl rfl rfl rfl rfl rfl rfl rfl)


theorem keeps_runLanes {img : Half → Option CycleImage} {two : Bool} {t : TickIn} {s : State} (hs : s.sound) : (runLanes img two t s).sound := by
  unfold runLanes
  try dsimp only
  repeat' first
    | with_reducible assumption | with_reducible apply keeps_noteBanks | with_reducible apply keeps_istRun
    | with_reducible apply keeps_deliver


theorem keeps_modPairLink {f : PairLinkSt → PairLinkSt} {s : State} (hs : s.sound) : (modPairLink f s).sound := by
  unfold modPairLink
  try dsimp only
  repeat' first
    | with_reducible assumption
    | (fail_if_no_progress with_reducible refine keeps_mk ?_ rfl rfl rfl rfl rfl rfl rfl rfl rfl rfl rfl rfl rfl rfl rfl rfl rfl rfl rfl)


theorem keeps_noteReady {s : State} (hs : s.sound) : (noteReady s).sound := by
  unfold noteReady
  try dsimp only
  repeat' first
    | with_reducible assumption | with_reducible apply keeps_raiseEv | with_reducible apply keeps_modPairLink | split


theorem keeps_settlePair {s : State} (hs : s.sound) : (settlePair s).sound := by
  unfold settlePair
  try dsimp only
  repeat' first
    | with_reducible assumption | with_reducible apply keeps_modPairLink | with_reducible apply keeps_raiseEv
    | with_reducible apply keeps_noteReady | with_reducible apply keeps_ite


theorem keeps_stripNext {s : State} (hs : s.sound) : (stripNext s).sound := by
  unfold stripNext
  refine keeps_mk2 hs rfl rfl rfl rfl rfl rfl rfl rfl rfl rfl rfl (fun q e => ?_) (fun q e => ?_)
  · obtain ⟨a, b, c⟩ := q e
    exact ⟨a, by simp [twoMap, b], c⟩
  · obtain ⟨a, b, c⟩ := q e
    exact ⟨a, by simp [twoMap, b], c⟩

theorem keeps_depose {s : State} (hs : s.sound) : (depose s).sound := by
  unfold depose
  try dsimp only
  repeat' first
    | with_reducible assumption | with_reducible apply keeps_noteReady | with_reducible apply keeps_raiseEv
    | with_reducible apply keeps_stripNext | with_reducible apply keeps_modPairLink


theorem keeps_noteHandover {s : State} (hs : s.sound) : (noteHandover s).sound := by
  unfold noteHandover
  try dsimp only
  repeat' first
    | with_reducible assumption | with_reducible apply keeps_modPairLink | with_reducible apply keeps_ite


theorem keeps_useHeartbeat {e : Envelope} {s : State} (hs : s.sound) : (useHeartbeat e s).sound := by
  unfold useHeartbeat
  try dsimp only
  repeat' first
    | with_reducible assumption | with_reducible apply keeps_settlePair | with_reducible apply keeps_modPairLink
    | with_reducible apply keeps_depose | with_reducible apply keeps_noteReady
    | with_reducible apply keeps_noteHandover | with_reducible apply keeps_ite


theorem keeps_heartbeatOn {path : Path} {b : List Byte} {s : State} (hs : s.sound) : (heartbeatOn path b s).sound := by
  unfold heartbeatOn
  try dsimp only
  repeat' first
    | with_reducible assumption | with_reducible apply keeps_refuseEnv | with_reducible apply keeps_modPairLink
    | with_reducible apply keeps_useHeartbeat | with_reducible apply keeps_putConn | with_reducible apply keeps_ite
    | (fail_if_no_progress with_reducible refine keeps_mk ?_ rfl rfl rfl rfl rfl rfl rfl rfl rfl rfl rfl rfl rfl rfl rfl rfl rfl rfl rfl)
    | split


theorem keeps_heartbeatRow {path : Path} {f : Frame} {s : State} (hs : s.sound) : (heartbeatRow path f s).sound := by
  unfold heartbeatRow
  try dsimp only
  repeat' first
    | with_reducible assumption | with_reducible apply keeps_heartbeatOn | with_reducible apply keeps_ite | split


theorem keeps_takeAnchor {peer : Nat} {e : Envelope} {s : State} (hs : s.sound) : (takeAnchor peer e s).sound := by
  unfold takeAnchor
  try dsimp only
  repeat' first
    | with_reducible assumption | with_reducible apply keeps_settlePair | with_reducible apply keeps_modPairLink
    | with_reducible apply keeps_ite


theorem keeps_takeBenchmark {e : Envelope} {s : State} (hs : s.sound) : (takeBenchmark e s).sound := by
  unfold takeBenchmark
  try dsimp only
  repeat' first
    | with_reducible assumption | with_reducible apply keeps_noteReady | with_reducible apply keeps_modPairLink
    | with_reducible apply keeps_ite | split


theorem keeps_forgetPartner {s : State} (hs : s.sound) : (forgetPartner s).sound := by
  unfold forgetPartner
  try dsimp only
  repeat' first
    | with_reducible assumption | with_reducible apply keeps_modPairLink


theorem keeps_takeControl {ep : Nat} {s : State} (hs : s.sound) : (takeControl ep s).sound := by
  unfold takeControl
  try dsimp only
  repeat' first
    | with_reducible assumption | with_reducible apply keeps_modPairLink


theorem keeps_partnerLost {s : State} (hs : s.sound) : (partnerLost s).sound := by
  unfold partnerLost
  dsimp only
  have k := keeps_takeControl (ep := takeEpoch s) (keeps_forgetPartner hs)
  exact keeps_ite hs (keeps_ite (keeps_forgetPartner hs)
    (keeps_ite (keeps_raiseEv (keeps_withImage (fun _ q => q) k)) (keeps_raiseRec (keeps_coldControl k))))

theorem keeps_runShadow {t : TickIn} {s : State} (hs : s.sound) : (runShadow t s).sound := by
  unfold runShadow
  try dsimp only
  repeat' first
    | with_reducible assumption | with_reducible apply keeps_runLanes
    | (fail_if_no_progress with_reducible refine keeps_mk ?_ rfl rfl rfl rfl rfl rfl rfl rfl rfl rfl rfl rfl rfl rfl rfl rfl rfl rfl rfl)
    | split


theorem keeps_shadowImage {h : Half} {img : CycleImage} {good : Bool} {t : TickIn} {s : State} (hs : s.sound) : (shadowImage h img good t s).sound := by
  unfold shadowImage
  try dsimp only
  repeat' first
    | with_reducible assumption | with_reducible apply keeps_modPairLink | with_reducible apply keeps_runShadow
    | with_reducible apply keeps_ite


theorem keeps_shadowMissed {t : TickIn} {s : State} (hs : s.sound) : (shadowMissed t s).sound := by
  unfold shadowMissed
  try dsimp only
  repeat' first
    | with_reducible assumption | with_reducible apply keeps_runShadow | with_reducible apply keeps_noteReady
    | with_reducible apply keeps_runLanes | with_reducible apply keeps_ite
    | (fail_if_no_progress with_reducible refine keeps_mk ?_ rfl rfl rfl rfl rfl rfl rfl rfl rfl rfl rfl rfl rfl rfl rfl rfl rfl rfl rfl)


theorem keeps_startResync {s : State} (hs : s.sound) : (startResync s).sound := by
  unfold startResync
  try dsimp only
  repeat' first
    | with_reducible assumption | with_reducible apply keeps_noteReady | with_reducible apply keeps_modPairLink


theorem keeps_pairReply {code : Nat} {s : State} (hs : s.sound) : (pairReply code s).1.sound := by
  unfold pairReply
  try dsimp only
  repeat' first
    | with_reducible assumption | with_reducible apply keeps_modPairLink


theorem keeps_resyncFn {s : State} (hs : s.sound) : (resyncFn s).1.sound := by
  unfold resyncFn
  try dsimp only
  repeat' first
    | with_reducible assumption | with_reducible apply keeps_pairReply | with_reducible apply keeps_startResync
    | with_reducible apply keeps_ite_fst


theorem keeps_resyncComplete {k : Kernel} {s : State} (hs : s.sound) : (resyncComplete k s).sound := by
  unfold resyncComplete
  try dsimp only
  repeat' first
    | with_reducible assumption | with_reducible apply keeps_noteReady | with_reducible apply keeps_modPairLink
    | with_reducible apply keeps_ite
    | (fail_if_no_progress with_reducible refine keeps_mk ?_ rfl rfl rfl rfl rfl rfl rfl rfl rfl rfl rfl rfl rfl rfl rfl rfl rfl rfl rfl)


theorem keeps_decideHandover {cold : Bool} {s : State} (hs : s.sound) : (decideHandover cold s).sound :=
  keeps_withImage (fun _ q => q) (keeps_raiseEv (keeps_modPairLink hs))

theorem keeps_refuseHandover {code : Nat} {s : State} (hs : s.sound) : (refuseHandover code s).1.sound := by
  unfold refuseHandover
  try dsimp only
  repeat' first
    | with_reducible assumption | with_reducible apply keeps_pairReply | with_reducible apply keeps_raiseEv


theorem keeps_handOverFn {s : State} (hs : s.sound) : (handOverFn s).1.sound := by
  unfold handOverFn
  try dsimp only
  repeat' first
    | with_reducible assumption | with_reducible apply keeps_refuseHandover | with_reducible apply keeps_pairReply
    | with_reducible apply keeps_decideHandover | with_reducible apply keeps_ite_fst


theorem keeps_coldHandOverFn {s : State} (hs : s.sound) : (coldHandOverFn s).1.sound := by
  unfold coldHandOverFn
  try dsimp only
  repeat' first
    | with_reducible assumption | with_reducible apply keeps_refuseHandover | with_reducible apply keeps_pairReply
    | with_reducible apply keeps_decideHandover | with_reducible apply keeps_ite_fst


theorem keeps_takeback {s : State} (hs : s.sound) : (takeback s).sound := by
  unfold takeback
  try dsimp only
  repeat' first
    | with_reducible assumption | with_reducible apply keeps_decideHandover | with_reducible apply keeps_ite


theorem keeps_giveControl {s : State} (hs : s.sound) : (giveControl s).sound := by
  unfold giveControl
  try dsimp only
  repeat' first
    | with_reducible assumption | with_reducible apply keeps_noteReady | with_reducible apply keeps_raiseEv
    | with_reducible apply keeps_modPairLink


theorem keeps_handOverImage {s : State} (hs : s.sound) : (handOverImage s).sound := by
  unfold handOverImage
  try dsimp only
  repeat' first
    | with_reducible assumption | with_reducible apply keeps_giveControl | with_reducible apply keeps_raiseEv
    | with_reducible apply keeps_takeControl | with_reducible apply keeps_coldControl | with_reducible apply keeps_ite
    | split


end Sys2Proof.Laws
end

