-- ==== Sys2Proof/Laws/KeepsBridge.lean ====
section
/-! SUPPORT. Each operation of Machine/BridgeRows, DatumRows keeps the invariant `State.sound`. -/

namespace Sys2Proof.Laws

open Sys2Proof Sys2Proof.Machine

theorem keeps_modBridge {f : BridgeSt → BridgeSt} {s : State} (hf : ∀ x, Memory.wf x.mem = true → Memory.wf (f x).mem = true)
    (hs : s.sound) : (modBridge f s).sound :=
  ⟨⟨hf _ hs.1.1, hs.1.2⟩, hs.2⟩

theorem keeps_bridgeFail {t : Trans} {code : Nat} {s : State} (hs : s.sound) : (bridgeFail t code s).sound := by
  unfold bridgeFail
  try dsimp only
  repeat' first
    | with_reducible assumption | with_reducible apply keeps_noteDepth | with_reducible apply keeps_modBridge
    | with_reducible apply keeps_raiseEv | with_reducible apply keeps_ite | with_reducible exact fun _ w => w


theorem keeps_answerLocal {code : Nat} {data : List Byte} {s : State} (hs : s.sound) : (answerLocal code data s).sound := by
  unfold answerLocal
  try dsimp only
  repeat' first
    | with_reducible assumption | with_reducible apply keeps_modBridge | with_reducible exact fun _ w => w


theorem keeps_dropTag {n : Nat} {s : State} (hs : s.sound) : (dropTag n s).sound := by
  unfold dropTag
  try dsimp only
  repeat' first
    | with_reducible assumption | with_reducible apply keeps_modBridge | with_reducible exact fun _ w => w


theorem keeps_sendTrans {t : Trans} {path : Nat} {s : State} (hs : s.sound) : (sendTrans t path s).sound := by
  unfold sendTrans
  try dsimp only
  repeat' first
    | with_reducible assumption | with_reducible apply keeps_noteDepth | with_reducible apply keeps_modBridge
    | with_reducible exact fun _ w => w


theorem keeps_askRead {init target window offset length : Nat} {s : State} (hs : s.sound) : (askRead init target window offset length s).sound := by
  unfold askRead
  try dsimp only
  repeat' first
    | with_reducible assumption | with_reducible apply keeps_answerLocal | with_reducible apply keeps_dropTag
    | with_reducible apply keeps_modBridge | with_reducible apply keeps_sendTrans | with_reducible apply keeps_ite
    | with_reducible exact fun _ w => w | split


theorem keeps_askWrite {init target window offset : Nat} {data : List Byte} {s : State} (hs : s.sound) : (askWrite init target window offset data s).sound := by
  unfold askWrite
  try dsimp only
  repeat' first
    | with_reducible assumption | with_reducible apply keeps_answerLocal | with_reducible apply keeps_bridgeFail
    | with_reducible apply keeps_sendTrans | with_reducible apply keeps_ite | split


theorem keeps_windowWrite {w offset : Nat} {data : List Byte} {s : State} (hs : s.sound) : (windowWrite w offset data s).sound := by
  unfold windowWrite
  split
  · obtain ⟨⟨h1, h2, h3, h4, h5, h6, h7⟩, h8⟩ := hs
    exact ⟨⟨h1, h2, h3, h4, h5, memWriteAll_wf _ _ h6, h7⟩, h8⟩
  · exact keeps_modBridge (fun _ q => memWriteAll_wf _ _ q) hs

theorem keeps_complete {t : Trans} {type code : Nat} {data : List Byte} {s : State} (hs : s.sound) : (complete t type code data s).sound := by
  unfold complete
  try dsimp only
  repeat' first
    | with_reducible assumption | with_reducible apply keeps_noteDepth | with_reducible apply keeps_modBridge
    | with_reducible exact fun _ w => w


theorem keeps_farRequest {t : Trans} {good : Bool} {s : State} (hs : s.sound) : (farRequest t good s).sound := by
  unfold farRequest
  try dsimp only
  repeat' first
    | with_reducible assumption | with_reducible apply keeps_complete | with_reducible apply keeps_noteDepth
    | with_reducible apply keeps_modBridge | with_reducible apply keeps_windowWrite | with_reducible apply keeps_ite
    | with_reducible exact fun _ w => w


theorem keeps_bridgeFrame {type : Nat} {f : CascFrame} {act : Trans → Bool → State → State} {s : State}
    (hact : ∀ t g s, s.sound → (act t g s).sound) (hs : s.sound) : (bridgeFrame type f act s).sound := by
  unfold bridgeFrame
  cases dueOf s f 2 with
  | discard => exact hs
  | forward => exact keeps_forwardFrame hs
  | mine =>
    dsimp only
    cases readTrans f.src f.body with
    | none => exact hs
    | some t => exact keeps_ite (hact _ _ _ hs) hs

theorem keeps_oldEpoch {t : Trans} {s : State} (hs : s.sound) : (oldEpoch t s).sound := by
  unfold oldEpoch
  try dsimp only
  repeat' first
    | with_reducible assumption | with_reducible apply keeps_raiseRec


theorem keeps_completion {t : Trans} {good : Bool} {f : State → State} {s : State} (hf : ∀ s : State, s.sound → (f s).sound) (hs : s.sound) : (completion t good f s).sound := by
  unfold completion
  try dsimp only
  repeat' first
    | with_reducible assumption | with_reducible apply keeps_oldEpoch | with_reducible apply hf
    | with_reducible apply keeps_ite


theorem keeps_modOut {tag : Nat} {f : OutTrans → OutTrans} {s : State} (hs : s.sound) : (modOut tag f s).sound := by
  unfold modOut
  try dsimp only
  repeat' first
    | with_reducible assumption | with_reducible apply keeps_modBridge | with_reducible exact fun _ w => w


theorem keeps_endError {o : OutTrans} {code : Nat} {s : State} (hs : s.sound) : (endError o code s).sound := by
  unfold endError
  try dsimp only
  repeat' first
    | with_reducible assumption | with_reducible apply keeps_modOut | with_reducible apply keeps_bridgeFail
    | with_reducible apply keeps_dropTag | with_reducible apply keeps_ite


theorem keeps_bridgeTimeoutRow {tag : Nat} {s : State} (hs : s.sound) : (bridgeTimeoutRow tag s).sound := by
  unfold bridgeTimeoutRow
  try dsimp only
  repeat' first
    | with_reducible assumption | with_reducible apply keeps_endError | with_reducible apply keeps_ite | split


theorem keeps_readDataDiscard {tag : Nat} {s : State} (hs : s.sound) : (readDataDiscard tag s).sound := by
  unfold readDataDiscard
  try dsimp only
  repeat' first
    | with_reducible assumption | with_reducible apply keeps_bridgeFail | with_reducible apply keeps_dropTag
    | with_reducible apply keeps_ite | split


theorem keeps_modDatum {f : DatumSt → DatumSt} {s : State} (hs : s.sound) : (modDatum f s).sound := by
  unfold modDatum
  try dsimp only
  repeat' first
    | with_reducible assumption
    | (fail_if_no_progress with_reducible refine keeps_mk ?_ rfl rfl rfl rfl rfl rfl rfl rfl rfl rfl rfl rfl rfl rfl rfl rfl rfl rfl rfl)


theorem keeps_timeFrameRow {path : Nat} {f : TimeFrame} {dt : Nat} {s : State} (hs : s.sound) : (timeFrameRow path f dt s).sound := by
  unfold timeFrameRow
  try dsimp only
  repeat' first
    | with_reducible assumption | with_reducible apply keeps_raiseEv | with_reducible apply keeps_modDatum
    | with_reducible apply keeps_servoMeasure | with_reducible apply keeps_setLeap | with_reducible apply keeps_ite
    | (fail_if_no_progress with_reducible refine keeps_mk ?_ rfl rfl rfl rfl rfl rfl rfl rfl rfl rfl rfl rfl rfl rfl rfl rfl rfl rfl rfl)


theorem keeps_timeFrameSend {launch : Int} {s : State} (hs : s.sound) : (timeFrameSend launch s).sound := by
  unfold timeFrameSend
  try dsimp only
  repeat' first
    | with_reducible assumption | with_reducible apply keeps_modDatum | with_reducible apply keeps_stamp
    | with_reducible apply keeps_ite | with_reducible refine keeps_foldl (fun s0 a0 k0 => ?_) _ ?_


theorem keeps_datumDelayRequest {launch : Int} {s : State} (hs : s.sound) : (datumDelayRequest launch s).sound := by
  unfold datumDelayRequest
  try dsimp only
  repeat' first
    | with_reducible assumption | with_reducible apply keeps_modDatum | with_reducible apply keeps_ite


theorem keeps_delayRequestRow {src seq dt : Nat} {s : State} (hs : s.sound) : (delayRequestRow src seq dt s).sound := by
  unfold delayRequestRow
  try dsimp only
  repeat' first
    | with_reducible assumption | with_reducible apply keeps_modDatum | with_reducible apply keeps_ite


theorem keeps_delayResponseRow {path seq : Nat} {received : Int} {s : State} (hs : s.sound) : (delayResponseRow path seq received s).sound := by
  unfold delayResponseRow
  try dsimp only
  repeat' first
    | with_reducible assumption | with_reducible apply keeps_modDatum | with_reducible apply keeps_ite | split


theorem keeps_keepReport {b : List Byte} {s : State} (hs : s.sound) : (keepReport b s).sound := by
  unfold keepReport
  try dsimp only
  repeat' first
    | with_reducible assumption | with_reducible apply keeps_modDatum | with_reducible apply keeps_raiseEv
    | with_reducible apply keeps_ite


theorem keeps_cycleReportSend {s : State} (hs : s.sound) : (cycleReportSend s).sound := by
  unfold cycleReportSend
  try dsimp only
  repeat' first
    | with_reducible assumption | with_reducible apply keeps_modDatum | with_reducible apply keeps_keepReport
    | with_reducible apply keeps_ite


theorem keeps_cycleReportRow {f : CascFrame} {s : State} (hs : s.sound) : (cycleReportRow f s).sound := by
  unfold cycleReportRow
  try dsimp only
  repeat' first
    | with_reducible assumption | with_reducible apply keeps_forwardFrame | with_reducible apply keeps_keepReport
    | with_reducible apply keeps_ite | split


theorem keeps_syncPulse {s : State} (hs : s.sound) : (syncPulse s).sound := by
  unfold syncPulse
  try dsimp only
  repeat' first
    | with_reducible assumption | with_reducible apply keeps_modDatum | with_reducible apply keeps_ite


theorem keeps_syncEdge {dt : Nat} {s : State} (hs : s.sound) : (syncEdge dt s).sound := by
  unfold syncEdge
  try dsimp only
  repeat' first
    | with_reducible assumption | with_reducible apply keeps_modDatum | with_reducible apply keeps_raiseEv
    | with_reducible apply keeps_ite


end Sys2Proof.Laws
end

