-- ==== Sys2Proof/Laws/KeepsLoad.lean ====
section
/-! SUPPORT. Each operation of Machine/Load keeps the invariant `State.sound`. -/

namespace Sys2Proof.Laws

open Sys2Proof Sys2Proof.Machine

theorem keeps_modSlot {h : Half} {f : DataSlot → DataSlot} {s : State}
    (hf : ∀ x, Memory.wf x.bytes = true → Memory.wf (f x).bytes = true) (hs : s.sound) : (modSlot h f s).sound := by
  obtain ⟨⟨h1, h2, h3, h4, h5, h6⟩, h7⟩ := hs
  cases h
  · exact ⟨⟨h1, hf _ h2, h3, h4, h5, h6⟩, h7⟩
  · exact ⟨⟨h1, h2, hf _ h3, h4, h5, h6⟩, h7⟩

theorem keeps_loadReply {code detail : Nat} {s : State} (hs : s.sound) : (loadReply code detail s).1.sound := by
  unfold loadReply
  try dsimp only
  repeat' first
    | with_reducible assumption
    | (fail_if_no_progress with_reducible refine keeps_mk ?_ rfl rfl rfl rfl rfl rfl rfl rfl rfl rfl rfl rfl rfl rfl rfl rfl rfl rfl rfl)


theorem keeps_loadOpenFn {sess : Nat} {s : State} (hs : s.sound) : (loadOpenFn sess s).1.sound := by
  unfold loadOpenFn
  refine keeps_ite_fst (keeps_loadReply hs) ?_
  exact keeps_mk (keeps_modSlot (h := loadSlot s) (f := fun _ => { DataSlot.init with st := .receiving }) (fun _ _ => rfl) hs)
    rfl rfl rfl rfl rfl rfl rfl rfl rfl rfl rfl rfl rfl rfl rfl rfl rfl rfl rfl

theorem keeps_loadEndFn {s : State} (hs : s.sound) : (loadEndFn s).1.sound := by
  unfold loadEndFn
  try dsimp only
  repeat' first
    | with_reducible assumption | with_reducible apply keeps_modSlot | with_reducible exact fun _ w => w | split


theorem keeps_loadAbandonFn {s : State} (hs : s.sound) : (loadAbandonFn s).1.sound := by
  obtain ⟨⟨h1, h2, h3, h4, h5, h6⟩, h7⟩ := hs
  have key : ∀ x : DataSlot, Memory.wf x.bytes = true →
      Memory.wf (if x.st = .receiving || x.st = .checking then DataSlot.init else x).bytes = true := by
    intro x hx
    split
    · rfl
    · exact hx
  exact ⟨⟨h1, key _ h2, key _ h3, h4, h5, h6⟩, h7⟩

theorem keeps_loadWindowFn {sess : Nat} {data : List Byte} {s : State} (hs : s.sound) : (loadWindowFn sess data s).1.sound := by
  unfold loadWindowFn
  cases slotIn s .receiving with
  | none => exact keeps_loadReply hs
  | some h =>
    refine keeps_ite_fst (keeps_loadReply hs) (keeps_ite_fst hs ?_)
    exact keeps_mk (keeps_modSlot (h := h) (f := fun x => { x with bytes := memWriteAll x.bytes s.load.offset data, size := max x.size (s.load.offset + data.length) }) (fun _ q => memWriteAll_wf _ _ q) hs)
      rfl rfl rfl rfl rfl rfl rfl rfl rfl rfl rfl rfl rfl rfl rfl rfl rfl rfl rfl

theorem keeps_refuseLoad {h : Half} {code detail : Nat} {s : State} (hs : s.sound) : (refuseLoad h code detail s).sound := by
  unfold refuseLoad
  try dsimp only
  repeat' first
    | with_reducible assumption | with_reducible apply keeps_modSlot | with_reducible apply keeps_raiseRec
    | (fail_if_no_progress with_reducible refine keeps_mk ?_ rfl rfl rfl rfl rfl rfl rfl rfl rfl rfl rfl rfl rfl rfl rfl rfl rfl rfl rfl)
    | with_reducible exact fun _ w => w


theorem keeps_acceptLoad {h : Half} {s : State} (hs : s.sound) : (acceptLoad h s).sound := by
  obtain ⟨⟨h1, h2, h3, h4, h5, h6⟩, h7⟩ := hs
  cases h <;> exact ⟨⟨h1, h2, h3, h4, h5, h6⟩, h7⟩

theorem keeps_loadChecked {faulty : Three (Option LoadVerdict)} {s : State} (hs : s.sound) : (loadChecked faulty s).sound := by
  unfold loadChecked
  try dsimp only
  repeat' first
    | with_reducible assumption | with_reducible apply keeps_acceptLoad | with_reducible apply keeps_refuseLoad
    | with_reducible apply keeps_excludeLanes | with_reducible apply keeps_ite
    | dsimp only [twoMod, twoPut, twoGet, twoMap] | split


theorem keeps_activateFn {v : Nat} {s : State} (hs : s.sound) : (activateFn v s).1.sound := by
  unfold activateFn
  try dsimp only
  repeat' first
    | with_reducible assumption | with_reducible apply keeps_loadReply | with_reducible apply keeps_modSlot
    | with_reducible apply keeps_ite_fst | with_reducible exact fun _ w => w
    | dsimp only [twoMod, twoPut, twoGet, twoMap] | split


theorem keeps_keyRec3 {code role finger sess : Nat} {s : State} (hs : s.sound) : (keyRec3 code role finger sess s).sound := by
  unfold keyRec3
  try dsimp only
  repeat' first
    | with_reducible assumption | with_reducible apply keeps_record
    | (fail_if_no_progress with_reducible refine keeps_mk ?_ rfl rfl rfl rfl rfl rfl rfl rfl rfl rfl rfl rfl rfl rfl rfl rfl rfl rfl rfl)


theorem keeps_registerFn {role sess : Nat} {s : State} (hs : s.sound) : (registerFn role sess s).1.sound := by
  unfold registerFn
  try dsimp only
  repeat' first
    | with_reducible assumption | with_reducible apply keeps_keyRec3 | with_reducible apply keeps_ite_fst
    | (fail_if_no_progress with_reducible refine keeps_mk ?_ rfl rfl rfl rfl rfl rfl rfl rfl rfl rfl rfl rfl rfl rfl rfl rfl rfl rfl rfl)
    | split


theorem keeps_removeFn {sess : Nat} {s : State} (hs : s.sound) : (removeFn sess s).1.sound := by
  unfold removeFn
  try dsimp only
  repeat' first
    | with_reducible assumption | with_reducible apply keeps_keyRec3 | with_reducible apply keeps_ite_fst
    | (fail_if_no_progress with_reducible refine keeps_mk ?_ rfl rfl rfl rfl rfl rfl rfl rfl rfl rfl rfl rfl rfl rfl rfl rfl rfl rfl rfl)


theorem keeps_keyActionFn {sess v : Nat} {s : State} (hs : s.sound) : (keyActionFn sess v s).1.sound := by
  unfold keyActionFn
  try dsimp only
  repeat' first
    | with_reducible assumption | with_reducible apply keeps_registerFn | with_reducible apply keeps_removeFn
    | with_reducible apply keeps_ite_fst


theorem keeps_loadControlFn {sess v : Nat} {s : State} (hs : s.sound) : (loadControlFn sess v s).1.sound := by
  unfold loadControlFn
  try dsimp only
  repeat' first
    | with_reducible assumption | with_reducible apply keeps_loadOpenFn | with_reducible apply keeps_loadEndFn
    | with_reducible apply keeps_loadAbandonFn | with_reducible apply keeps_ite_fst


theorem keeps_modProgSlot {h : Half} {f : ProgSlot → ProgSlot} {s : State}
    (hf : ∀ x, Memory.wf x.bytes = true → Memory.wf (f x).bytes = true) (hs : s.sound) : (modProgSlot h f s).sound := by
  obtain ⟨⟨h1, h2, h3, h4, h5, h6⟩, h7⟩ := hs
  cases h
  · exact ⟨⟨h1, h2, h3, hf _ h4, h5, h6⟩, h7⟩
  · exact ⟨⟨h1, h2, h3, h4, hf _ h5, h6⟩, h7⟩

theorem keeps_progLoadReply {code detail : Nat} {s : State} (hs : s.sound) : (progLoadReply code detail s).1.sound := by
  unfold progLoadReply
  try dsimp only
  repeat' first
    | with_reducible assumption
    | (fail_if_no_progress with_reducible refine keeps_mk ?_ rfl rfl rfl rfl rfl rfl rfl rfl rfl rfl rfl rfl rfl rfl rfl rfl rfl rfl rfl)


theorem keeps_progOpenFn {sess : Nat} {s : State} (hs : s.sound) : (progOpenFn sess s).1.sound := by
  unfold progOpenFn
  refine keeps_ite_fst (keeps_progLoadReply hs) ?_
  exact keeps_mk (keeps_modProgSlot (h := progLoadSlot (abortChange 0x5105 s)) (f := fun _ => { ProgSlot.init with st := .receiving }) (fun _ _ => rfl) (keeps_abortChange hs))
    rfl rfl rfl rfl rfl rfl rfl rfl rfl rfl rfl rfl rfl rfl rfl rfl rfl rfl rfl

theorem keeps_progEndFn {s : State} (hs : s.sound) : (progEndFn s).1.sound := by
  unfold progEndFn
  try dsimp only
  repeat' first
    | with_reducible assumption | with_reducible apply keeps_modProgSlot | with_reducible exact fun _ w => w | split


theorem keeps_progAbandonFn {s : State} (hs : s.sound) : (progAbandonFn s).1.sound := by
  obtain ⟨⟨h1, h2, h3, h4, h5, h6⟩, h7⟩ := hs
  have key : ∀ x : ProgSlot, Memory.wf x.bytes = true →
      Memory.wf (if x.st = .receiving || x.st = .checking then ProgSlot.init else x).bytes = true := by
    intro x hx
    split
    · rfl
    · exact hx
  exact ⟨⟨h1, h2, h3, key _ h4, key _ h5, h6⟩, h7⟩

theorem keeps_progControlFn {sess v : Nat} {s : State} (hs : s.sound) : (progControlFn sess v s).1.sound := by
  unfold progControlFn
  try dsimp only
  repeat' first
    | with_reducible assumption | with_reducible apply keeps_progOpenFn | with_reducible apply keeps_progEndFn
    | with_reducible apply keeps_progAbandonFn | with_reducible apply keeps_ite_fst


theorem keeps_progWindowFn {sess : Nat} {data : List Byte} {s : State} (hs : s.sound) : (progWindowFn sess data s).1.sound := by
  unfold progWindowFn
  cases progSlotIn s .receiving with
  | none => exact keeps_progLoadReply hs
  | some h =>
    refine keeps_ite_fst (keeps_progLoadReply hs) (keeps_ite_fst hs ?_)
    exact keeps_mk (keeps_modProgSlot (h := h) (f := fun x => { x with bytes := memWriteAll x.bytes s.progLoad.offset data, size := max x.size (s.progLoad.offset + data.length) }) (fun _ q => memWriteAll_wf _ _ q) hs)
      rfl rfl rfl rfl rfl rfl rfl rfl rfl rfl rfl rfl rfl rfl rfl rfl rfl rfl rfl

theorem keeps_refuseProg {h : Half} {code detail : Nat} {s : State} (hs : s.sound) : (refuseProg h code detail s).sound := by
  unfold refuseProg
  try dsimp only
  repeat' first
    | with_reducible assumption | with_reducible apply keeps_modProgSlot | with_reducible apply keeps_raiseRec
    | (fail_if_no_progress with_reducible refine keeps_mk ?_ rfl rfl rfl rfl rfl rfl rfl rfl rfl rfl rfl rfl rfl rfl rfl rfl rfl rfl rfl)
    | with_reducible exact fun _ w => w


theorem keeps_acceptProg {h : Half} {s : State} (hs : s.sound) : (acceptProg h s).sound := by
  unfold acceptProg
  try dsimp only
  repeat' first
    | with_reducible assumption | with_reducible apply keeps_modProgSlot
    | (fail_if_no_progress with_reducible refine keeps_mk ?_ rfl rfl rfl rfl rfl rfl rfl rfl rfl rfl rfl rfl rfl rfl rfl rfl rfl rfl rfl)
    | with_reducible exact fun _ w => w


theorem keeps_progChecked {faulty : Three (Option LoadVerdict)} {s : State} (hs : s.sound) : (progChecked faulty s).sound := by
  unfold progChecked
  try dsimp only
  repeat' first
    | with_reducible assumption | with_reducible apply keeps_acceptProg | with_reducible apply keeps_refuseProg
    | with_reducible apply keeps_excludeLanes | with_reducible apply keeps_ite
    | dsimp only [twoMod, twoPut, twoGet, twoMap] | split


theorem keeps_asSlotSession {n : Nat} {min : Level} {key : Bool} {f : State → State × Nat × List Byte} {s : State} (hf : ∀ s : State, s.sound → (f s).1.sound) (hs : s.sound) : (asSlotSession n min key f s).sound := by
  unfold asSlotSession
  try dsimp only
  repeat' first
    | with_reducible assumption | with_reducible apply keeps_withResult | with_reducible apply hf
    | with_reducible apply keeps_ite


theorem keeps_windowFn {f : List Byte → State → State × Nat × List Byte} {data : List Byte} {s : State}
    (hf : ∀ d s, s.sound → (f d s).1.sound) (hs : s.sound) : (windowFn f data s).1.sound :=
  keeps_ite_fst hs (hf _ _ hs)

theorem keeps_keyCommand {sess v : Nat} {key : List Byte} {s : State} (hs : s.sound) : (keyCommand sess v key s).sound := by
  unfold keyCommand
  try dsimp only
  repeat' first
    | with_reducible assumption | with_reducible apply keeps_asSlotSession | with_reducible apply keeps_keyActionFn
    | with_reducible apply keeps_keyRec3 | with_reducible apply keeps_ite
    | (fail_if_no_progress with_reducible refine keeps_mk ?_ rfl rfl rfl rfl rfl rfl rfl rfl rfl rfl rfl rfl rfl rfl rfl rfl rfl rfl rfl)


end Sys2Proof.Laws
end

