-- ==== Sys2Proof/Laws/KeepsStartup.lean ====
section
/-! SUPPORT. Each operation of Machine/Startup, PowerRows keeps the invariant `State.sound`. -/

namespace Sys2Proof.Laws

open Sys2Proof Sys2Proof.Machine

theorem keeps_busDown {s : State} (hs : s.sound) : (busDown s).sound := by
  unfold busDown
  try dsimp only
  repeat' first
    | with_reducible assumption
    | (fail_if_no_progress with_reducible refine keeps_mk ?_ rfl rfl rfl rfl rfl rfl rfl rfl rfl rfl rfl rfl rfl rfl rfl rfl rfl rfl rfl)


theorem keeps_freshCommons {s : State} (hs : s.sound) : (freshCommons s).sound := by
  obtain ⟨⟨_, h2, h3, h4, h5, _, h7⟩, ⟨_, _, hb, hc⟩, _⟩ := hs
  refine ⟨⟨rfl, h2, h3, h4, h5, ?_, ?_⟩, ⟨?_, by simp [freshCommons], hb, hc⟩, fun _ => ⟨rfl, rfl, rfl⟩,
    fun _ => ⟨rfl, rfl, rfl⟩⟩
  · simp only [freshCommons, freshUpdate]
    split <;> rfl
  · simp only [freshCommons, freshUpdate]
    split
    · rfl
    · exact h7
  · intro q hq
    simp only [freshCommons, freshTime, tabMap, List.mem_map] at hq
    obtain ⟨p, _, rfl⟩ := hq
    simp

theorem keeps_restartModule {cold : Bool} {s : State} (hs : s.sound) : (restartModule cold s).sound := by
  unfold restartModule
  try dsimp only
  repeat' first
    | with_reducible assumption | with_reducible apply keeps_freshCommons
    | (fail_if_no_progress with_reducible refine keeps_mk ?_ rfl rfl rfl rfl rfl rfl rfl rfl rfl rfl rfl rfl rfl rfl rfl rfl rfl rfl rfl)


theorem keeps_dormantBus {s : State} (hs : s.sound) : (dormantBus s).sound := by
  unfold dormantBus
  try dsimp only
  repeat' first
    | with_reducible assumption
    | (fail_if_no_progress with_reducible refine keeps_mk ?_ rfl rfl rfl rfl rfl rfl rfl rfl rfl rfl rfl rfl rfl rfl rfl rfl rfl rfl rfl)


theorem keeps_modeZero {s : State} (hs : s.sound) : (modeZero s).sound := by
  unfold modeZero
  try dsimp only
  repeat' first
    | with_reducible assumption
    | (fail_if_no_progress with_reducible refine keeps_mk ?_ rfl rfl rfl rfl rfl rfl rfl rfl rfl rfl rfl rfl rfl rfl rfl rfl rfl rfl rfl)
    | split


theorem keeps_lanesOff {s : State} (hs : s.sound) : (lanesOff s).sound := by
  unfold lanesOff
  try dsimp only
  repeat' first
    | with_reducible assumption
    | (fail_if_no_progress with_reducible refine keeps_mk ?_ rfl rfl rfl rfl rfl rfl rfl rfl rfl rfl rfl rfl rfl rfl rfl rfl rfl rfl rfl)


theorem keeps_silence {s : State} (hs : s.sound) : (silence s).sound := by
  unfold silence
  try dsimp only
  repeat' first
    | with_reducible assumption | with_reducible exact quiet_empty rfl rfl rfl
    | dsimp only [twoMod, twoPut, twoGet, twoMap]
    | (fail_if_no_progress with_reducible refine keeps_mk2 ?_ rfl rfl rfl rfl rfl rfl rfl rfl rfl rfl rfl ?_ ?_)


theorem keeps_enterFailedWake {s : State} (hs : s.sound) : (enterFailedWake s).sound := by
  unfold enterFailedWake
  try dsimp only
  repeat' first
    | with_reducible assumption | with_reducible apply keeps_silence | with_reducible apply keeps_lanesOff
    | with_reducible apply keeps_raiseEv | with_reducible apply keeps_snapshot | with_reducible apply keeps_chestWrite
    | with_reducible apply keeps_dormantBus | with_reducible apply keeps_busDown
    | (fail_if_no_progress with_reducible refine keeps_mk ?_ rfl rfl rfl rfl rfl rfl rfl rfl rfl rfl rfl rfl rfl rfl rfl rfl rfl rfl rfl)


theorem keeps_stepOne {s : State} (hs : s.sound) : (stepOne s).sound := by
  unfold stepOne
  try dsimp only
  repeat' first
    | with_reducible assumption
    | (fail_if_no_progress with_reducible refine keeps_mk ?_ rfl rfl rfl rfl rfl rfl rfl rfl rfl rfl rfl rfl rfl rfl rfl rfl rfl rfl rfl)


theorem keeps_stepTwo {calendar : Nat} {s : State} (hs : s.sound) : (stepTwo calendar s).sound := by
  unfold stepTwo
  have key : ∀ b : Bool, quietHalf (if b then { HalfSt.init with inServ := true } else { HalfSt.init with reason := 7 }) TxSt.init :=
    fun b _ => ⟨by cases b <;> rfl, by cases b <;> rfl, rfl⟩
  exact keeps_busDown (keeps_mk2 hs rfl rfl rfl rfl rfl rfl rfl rfl rfl rfl rfl (fun _ => key _) (fun _ => key _))

theorem keeps_stepThree {i : StartIn} {h : Half} {s : State} (hs : s.sound) : (stepThree i h s).sound := by
  unfold stepThree
  dsimp only
  refine keeps_ite hs ?_
  have k : ∀ (x : Two HalfSt → Two HalfSt) (y : Two TrestleSt → Two TrestleSt),
      (∀ w, (x w).a.inServ = w.a.inServ ∧ (x w).a.active = w.a.active ∧ (x w).a.next = w.a.next) →
      (∀ w, (x w).b.inServ = w.b.inServ ∧ (x w).b.active = w.b.active ∧ (x w).b.next = w.b.next) →
      State.sound { s with halves := x s.halves, tres := y s.tres } := fun x y e f =>
    keeps_mk hs rfl rfl rfl rfl rfl rfl rfl rfl rfl rfl rfl (e _).1 (e _).2.1 (e _).2.2 (f _).1 (f _).2.1 (f _).2.2 rfl rfl
  have k1 := k (fun w => twoMod w h (fun x => { x with
        injFail := sat 48 (twoGet i.voter h).1, firstFail := if (twoGet i.voter h).1 = 0 then 0 else (twoGet i.voter h).2,
        injPass := (twoGet i.voter h).1 = 0, voter := (twoGet i.voter h).1 = 0, cmpVec := twoGet i.cmp h,
        flagged := !twoGet i.cmp h })) (fun w => twoMod w h (fun t => { t with vecPass := (twoGet i.vec h).isNone }))
    (fun w => by cases h <;> exact ⟨rfl, rfl, rfl⟩) (fun w => by cases h <;> exact ⟨rfl, rfl, rfl⟩)
  have k2 := keeps_ite (c := twoGet i.cmp h = true) k1 (keeps_raiseEv (e := 9) (d := halfNo h) k1)
  have k3 := keeps_ite (c := (twoGet i.voter h).1 = 0) k2
    (keeps_raiseEv (e := 8) (d := halfNo h) (keeps_disableHalf (h := h) (cause := causeVoter) (kind := 2) (detail := be 1 (twoGet i.voter h).2) k2))
  generalize twoGet i.vec h = v at k3 ⊢
  cases v with
  | none => exact k3
  | some w => exact keeps_disableHalf (keeps_mk k3 rfl rfl rfl rfl rfl rfl rfl rfl rfl rfl rfl rfl rfl rfl rfl rfl rfl rfl rfl )

theorem keeps_activatePending {s : State} (hs : s.sound) : (activatePending s).sound := by
  unfold activatePending
  try dsimp only
  repeat' first
    | with_reducible assumption | with_reducible apply keeps_modSlot
    | (fail_if_no_progress with_reducible refine keeps_mk ?_ rfl rfl rfl rfl rfl rfl rfl rfl rfl rfl rfl rfl rfl rfl rfl rfl rfl rfl rfl)
    | with_reducible exact fun _ w => w | split


theorem keeps_bootLane {i : StartIn} {l : Lane} {s : State} (hs : s.sound) : (bootLane i l s).sound := by
  unfold bootLane
  try dsimp only
  repeat' first
    | with_reducible assumption | with_reducible apply keeps_restoreClock | with_reducible apply keeps_dropLane
    | with_reducible apply keeps_ite
    | (fail_if_no_progress with_reducible refine keeps_mk ?_ rfl rfl rfl rfl rfl rfl rfl rfl rfl rfl rfl rfl rfl rfl rfl rfl rfl rfl rfl)


theorem keeps_resetSettings {cls : Nat} {s : State} (hs : s.sound) : (resetSettings cls s).sound := by
  refine keeps_raiseRec ?_
  obtain ⟨h1, ⟨_, h3⟩, h4⟩ := hs
  exact ⟨h1, ⟨fun _ hq => (nomatch hq), h3⟩, h4⟩

theorem keeps_stepFour {i : StartIn} {s : State} (hs : s.sound) : (stepFour i s).sound := by
  unfold stepFour
  try dsimp only
  repeat' first
    | with_reducible assumption | with_reducible apply keeps_bootLane | with_reducible apply keeps_resetSettings
    | with_reducible apply keeps_activatePending | with_reducible apply keeps_raiseEv
    | with_reducible apply keeps_dropLane | with_reducible apply keeps_modeZero
    | with_reducible apply keeps_disableHalf | with_reducible apply keeps_enterRestrictive
    | with_reducible apply keeps_ite | with_reducible refine keeps_foldl_half (fun s0 k0 => ?_) (fun s0 k0 => ?_) _ ?_
    | with_reducible refine keeps_foldl (fun s0 a0 k0 => ?_) _ ?_
    | (fail_if_no_progress with_reducible refine keeps_mk ?_ rfl rfl rfl rfl rfl rfl rfl rfl rfl rfl rfl rfl rfl rfl rfl rfl rfl rfl rfl)


theorem keeps_restartChoice {warm : Bool} {s : State} (hs : s.sound) : (restartChoice warm s).sound := by
  unfold restartChoice
  try dsimp only
  repeat' first
    | with_reducible assumption | with_reducible apply keeps_warmRestart | with_reducible apply keeps_coldRestart
    | with_reducible apply keeps_ite
    | (fail_if_no_progress with_reducible refine keeps_mk ?_ rfl rfl rfl rfl rfl rfl rfl rfl rfl rfl rfl rfl rfl rfl rfl rfl rfl rfl rfl)


theorem keeps_startUpStep {i : StartIn} {s : State} (hs : s.sound) : (startUpStep i s).sound := by
  unfold startUpStep
  try dsimp only
  repeat' first
    | with_reducible assumption | with_reducible apply keeps_stepOne | with_reducible apply keeps_stepTwo
    | with_reducible apply keeps_enterFailedWake | with_reducible apply keeps_dormantBus
    | with_reducible apply keeps_stepThree | with_reducible apply keeps_stepFour
    | with_reducible apply keeps_restartChoice | with_reducible apply keeps_awaitConfirmation
    | with_reducible apply keeps_ite
    | (fail_if_no_progress with_reducible refine keeps_mk ?_ rfl rfl rfl rfl rfl rfl rfl rfl rfl rfl rfl rfl rfl rfl rfl rfl rfl rfl rfl)
    | split


theorem keeps_domainFailed {d : Nat} {s : State} (hs : s.sound) : (domainFailed d s).sound := by
  unfold domainFailed
  try dsimp only
  repeat' first
    | with_reducible assumption | with_reducible apply keeps_enterFailedWake | with_reducible apply keeps_disableHalf
    | with_reducible apply keeps_ite
    | (fail_if_no_progress with_reducible refine keeps_mk ?_ rfl rfl rfl rfl rfl rfl rfl rfl rfl rfl rfl rfl rfl rfl rfl rfl rfl rfl rfl)
    | split


theorem keeps_wakeTimeout {d stp : Nat} {s : State} (hs : s.sound) : (wakeTimeout d stp s).sound := by
  unfold wakeTimeout
  try dsimp only
  repeat' first
    | with_reducible assumption | with_reducible apply keeps_raiseEv | with_reducible apply keeps_domainFailed
    | with_reducible apply keeps_ite
    | (fail_if_no_progress with_reducible refine keeps_mk ?_ rfl rfl rfl rfl rfl rfl rfl rfl rfl rfl rfl rfl rfl rfl rfl rfl rfl rfl rfl)


theorem keeps_newWake {s : State} (hs : s.sound) : (newWake s).sound := by
  unfold newWake
  try dsimp only
  repeat' first
    | with_reducible assumption | with_reducible apply keeps_restartModule | with_reducible apply keeps_ite


theorem keeps_wakeRetryFn {v : Nat} {s : State} (hs : s.sound) : (wakeRetryFn v s).1.sound := by
  unfold wakeRetryFn
  try dsimp only
  repeat' first
    | with_reducible assumption | with_reducible apply keeps_newWake | with_reducible apply keeps_ite_fst


theorem keeps_giveConfirm {src : Nat} {s : State} (hs : s.sound) : (giveConfirm src s).sound := by
  unfold giveConfirm
  try dsimp only
  repeat' first
    | with_reducible assumption
    | (fail_if_no_progress with_reducible refine keeps_mk ?_ rfl rfl rfl rfl rfl rfl rfl rfl rfl rfl rfl rfl rfl rfl rfl rfl rfl rfl rfl)


theorem keeps_confirmFn {v : Nat} {s : State} (hs : s.sound) : (confirmFn v s).1.sound := by
  unfold confirmFn
  try dsimp only
  repeat' first
    | with_reducible assumption | with_reducible apply keeps_giveConfirm | with_reducible apply keeps_ite_fst
    | (fail_if_no_progress with_reducible refine keeps_mk ?_ rfl rfl rfl rfl rfl rfl rfl rfl rfl rfl rfl rfl rfl rfl rfl rfl rfl rfl rfl)


theorem keeps_resetEdge {s : State} (hs : s.sound) : (resetEdge s).sound := by
  unfold resetEdge
  try dsimp only
  repeat' first
    | with_reducible assumption | with_reducible apply keeps_raiseRec | with_reducible apply keeps_record
    | with_reducible apply keeps_giveConfirm | with_reducible apply keeps_restartModule
    | with_reducible apply keeps_ite
    | (fail_if_no_progress with_reducible refine keeps_mk ?_ rfl rfl rfl rfl rfl rfl rfl rfl rfl rfl rfl rfl rfl rfl rfl rfl rfl rfl rfl)


theorem keeps_collapse {s : State} (hs : s.sound) : (collapse s).sound := by
  unfold collapse
  try dsimp only
  repeat' first
    | with_reducible assumption | with_reducible apply keeps_raiseEv | with_reducible apply keeps_ite
    | (fail_if_no_progress with_reducible refine keeps_mk ?_ rfl rfl rfl rfl rfl rfl rfl rfl rfl rfl rfl rfl rfl rfl rfl rfl rfl rfl rfl)


theorem keeps_setVote {i v : Nat} {s : State} (hs : s.sound) : (setVote i v s).sound := by
  unfold setVote
  try dsimp only
  repeat' first
    | with_reducible assumption | with_reducible apply keeps_collapse
    | (fail_if_no_progress with_reducible refine keeps_mk ?_ rfl rfl rfl rfl rfl rfl rfl rfl rfl rfl rfl rfl rfl rfl rfl rfl rfl rfl rfl)


theorem keeps_voteFn {origin : Option Nat} {sub v : Nat} {s : State} (hs : s.sound) : (voteFn origin sub v s).1.sound := by
  unfold voteFn
  try dsimp only
  repeat' first
    | with_reducible assumption | with_reducible apply keeps_setVote | with_reducible apply keeps_ite_fst


theorem keeps_wake {s : State} (hs : s.sound) : (wake s).sound := by
  unfold wake
  try dsimp only
  repeat' first
    | with_reducible assumption | with_reducible apply keeps_raiseEv | with_reducible apply keeps_ite
    | (fail_if_no_progress with_reducible refine keeps_mk ?_ rfl rfl rfl rfl rfl rfl rfl rfl rfl rfl rfl rfl rfl rfl rfl rfl rfl rfl rfl)


theorem keeps_wakeRequest {cal : Option Nat} {s : State} (hs : s.sound) : (wakeRequest cal s).sound := by
  unfold wakeRequest
  try dsimp only
  repeat' first
    | with_reducible assumption | with_reducible apply keeps_wake | with_reducible apply keeps_ite
    | (fail_if_no_progress with_reducible refine keeps_mk ?_ rfl rfl rfl rfl rfl rfl rfl rfl rfl rfl rfl rfl rfl rfl rfl rfl rfl rfl rfl)
    | split


theorem keeps_wakeHoldExpiry {s : State} (hs : s.sound) : (wakeHoldExpiry s).sound := by
  unfold wakeHoldExpiry
  try dsimp only
  repeat' first
    | with_reducible assumption | with_reducible apply keeps_collapse | with_reducible apply keeps_ite
    | (fail_if_no_progress with_reducible refine keeps_mk ?_ rfl rfl rfl rfl rfl rfl rfl rfl rfl rfl rfl rfl rfl rfl rfl rfl rfl rfl rfl)
    | split


theorem keeps_wakeFrame {h : Half} {port : Nat} {f : Frame} {s : State} (hs : s.sound) : (wakeFrame h port f s).sound := by
  unfold wakeFrame
  try dsimp only
  repeat' first
    | with_reducible assumption | with_reducible apply keeps_wake | with_reducible apply keeps_raiseEv
    | with_reducible apply Sys2Proof.Laws.keeps_discard | with_reducible apply keeps_ite


theorem keeps_leaveRun {s : State} (hs : s.sound) : (leaveRun s).sound := by
  unfold leaveRun
  try dsimp only
  repeat' first
    | with_reducible assumption | with_reducible apply keeps_abortModeSwitch | with_reducible apply keeps_abortChange
    | with_reducible exact quiet_noNext rfl rfl rfl | dsimp only [twoMod, twoPut, twoGet, twoMap]
    | (fail_if_no_progress with_reducible refine keeps_mk2 ?_ rfl rfl rfl rfl rfl rfl rfl rfl rfl rfl rfl ?_ ?_)


theorem keeps_leaveActive {s : State} (hs : s.sound) : (leaveActive s).sound := by
  unfold leaveActive
  try dsimp only
  repeat' first
    | with_reducible assumption | with_reducible apply keeps_leaveRun | with_reducible apply keeps_decideHandover
    | with_reducible apply keeps_ite
    | (fail_if_no_progress with_reducible refine keeps_mk ?_ rfl rfl rfl rfl rfl rfl rfl rfl rfl rfl rfl rfl rfl rfl rfl rfl rfl rfl rfl)
    | split


theorem keeps_endQuietTests {s : State} (hs : s.sound) : (endQuietTests s).sound := by
  unfold endQuietTests
  try dsimp only
  repeat' first
    | with_reducible assumption | with_reducible apply keeps_abortTests


theorem keeps_beginMove {toward : PwState} {s : State} (hs : s.sound) : (beginMove toward s).sound := by
  unfold beginMove
  try dsimp only
  repeat' first
    | with_reducible assumption | with_reducible apply keeps_leaveActive | with_reducible apply keeps_restartModule
    | with_reducible apply keeps_restartChoice | with_reducible apply keeps_endQuietTests
    | with_reducible apply keeps_raiseEv | with_reducible apply keeps_modeZero | with_reducible apply keeps_busDown
    | with_reducible apply keeps_ite
    | (fail_if_no_progress with_reducible refine keeps_mk ?_ rfl rfl rfl rfl rfl rfl rfl rfl rfl rfl rfl rfl rfl rfl rfl rfl rfl rfl rfl)
    | split


theorem keeps_moveOn {s : State} (hs : s.sound) : (moveOn s).sound := by
  unfold moveOn
  try dsimp only
  repeat' first
    | with_reducible assumption | with_reducible apply keeps_beginMove | with_reducible apply keeps_ite


theorem keeps_arrive {toward : PwState} {s : State} (hs : s.sound) : (arrive toward s).sound := by
  unfold arrive
  dsimp only
  cases toward with
  | quiet => exact keeps_mk hs rfl rfl rfl rfl rfl rfl rfl rfl rfl rfl rfl rfl rfl rfl rfl rfl rfl rfl rfl 
  | dormant =>
    have k := keeps_ite (c := s.power.st = .standby) hs (keeps_lanesOff (keeps_silence hs))
    generalize (if s.power.st = .standby then s else lanesOff (silence s)) = u at k ⊢
    exact keeps_mk (keeps_raiseEv (keeps_dormantBus (keeps_busDown (keeps_mk k rfl rfl rfl rfl rfl rfl rfl rfl rfl rfl rfl rfl rfl rfl rfl rfl rfl rfl rfl )))) rfl rfl rfl rfl rfl rfl rfl rfl rfl rfl rfl rfl rfl rfl rfl rfl rfl rfl rfl 
  | standby =>
    have k : (silence { s with
      halves := ⟨HalfSt.init, HalfSt.init⟩, pair := { s.pair with retainedEpoch := 0 }
      power := { s.power with calendar := moduleNs s / secNs, votes := s.power.votes.set 4 0xFF, wakeUntil := none,
                              retained := ⟨none, none, none⟩, coldNext := true } }).sound := by
      obtain ⟨h1, h2, _⟩ := hs
      exact ⟨h1, h2, fun _ => ⟨rfl, rfl, rfl⟩, fun _ => ⟨rfl, rfl, rfl⟩⟩
    exact keeps_mk (keeps_busDown k) rfl rfl rfl rfl rfl rfl rfl rfl rfl rfl rfl rfl rfl rfl rfl rfl rfl rfl rfl 
  | _ => exact keeps_mk hs rfl rfl rfl rfl rfl rfl rfl rfl rfl rfl rfl rfl rfl rfl rfl rfl rfl rfl rfl 

theorem keeps_transitionComplete {s : State} (hs : s.sound) : (transitionComplete s).sound := by
  unfold transitionComplete
  try dsimp only
  repeat' first
    | with_reducible assumption | with_reducible apply keeps_raiseEv | with_reducible apply keeps_arrive
    | with_reducible apply keeps_moveOn | with_reducible apply keeps_ite
    | (fail_if_no_progress with_reducible refine keeps_mk ?_ rfl rfl rfl rfl rfl rfl rfl rfl rfl rfl rfl rfl rfl rfl rfl rfl rfl rfl rfl)
    | split


theorem keeps_modSupply {n : Nat} {f : SupplyIn → SupplyIn} {s : State} (hs : s.sound) : (modSupply n f s).sound := by
  unfold modSupply
  try dsimp only
  repeat' first
    | with_reducible assumption | with_reducible apply keeps_ite
    | (fail_if_no_progress with_reducible refine keeps_mk ?_ rfl rfl rfl rfl rfl rfl rfl rfl rfl rfl rfl rfl rfl rfl rfl rfl rfl rfl rfl)


theorem keeps_supplyFaults {s : State} (hs : s.sound) : (supplyFaults s).sound := by
  unfold supplyFaults
  try dsimp only
  repeat' first
    | with_reducible assumption | with_reducible apply keeps_outputFault | with_reducible apply keeps_ite
    | with_reducible refine keeps_foldl (fun s0 a0 k0 => ?_) _ ?_


theorem keeps_loseSupply {n : Nat} {f : SupplyIn → SupplyIn} {s : State} (hs : s.sound) : (loseSupply n f s).sound := by
  unfold loseSupply
  try dsimp only
  repeat' first
    | with_reducible assumption | with_reducible apply keeps_modSupply | with_reducible apply keeps_supplyFaults
    | with_reducible apply keeps_raiseEv | with_reducible apply keeps_ite


theorem keeps_supplyLostRow {n : Nat} {mv : Int} {s : State} (hs : s.sound) : (supplyLostRow n mv s).sound := by
  unfold supplyLostRow
  try dsimp only
  repeat' first
    | with_reducible assumption | with_reducible apply keeps_loseSupply | with_reducible apply keeps_ite


theorem keeps_losePowerKeepers {s : State} (hs : s.sound) : (losePowerKeepers s).sound := by
  unfold losePowerKeepers
  try dsimp only
  repeat' first
    | with_reducible assumption | with_reducible apply keeps_ite
    | (fail_if_no_progress with_reducible refine keeps_mk ?_ rfl rfl rfl rfl rfl rfl rfl rfl rfl rfl rfl rfl rfl rfl rfl rfl rfl rfl rfl)


theorem keeps_supplyReturnedRow {n : Nat} {mv : Int} {s : State} (hs : s.sound) : (supplyReturnedRow n mv s).sound := by
  unfold supplyReturnedRow
  try dsimp only
  repeat' first
    | with_reducible assumption | with_reducible apply keeps_raiseEv | with_reducible apply keeps_modSupply
    | with_reducible apply keeps_losePowerKeepers | with_reducible apply keeps_restartModule
    | with_reducible apply keeps_wake | with_reducible apply keeps_ite
    | (fail_if_no_progress with_reducible refine keeps_mk ?_ rfl rfl rfl rfl rfl rfl rfl rfl rfl rfl rfl rfl rfl rfl rfl rfl rfl rfl rfl)


theorem keeps_powerFail {mv1 mv2 : Int} {s : State} (hs : s.sound) : (powerFail mv1 mv2 s).sound := by
  unfold powerFail
  try dsimp only
  repeat' first
    | with_reducible assumption | with_reducible apply keeps_silence | with_reducible apply keeps_snapshot
    | with_reducible apply keeps_chestWrite | with_reducible apply keeps_ite
    | (fail_if_no_progress with_reducible refine keeps_mk ?_ rfl rfl rfl rfl rfl rfl rfl rfl rfl rfl rfl rfl rfl rfl rfl rfl rfl rfl rfl)


theorem keeps_powerFailDone {recovered : Bool} {s : State} (hs : s.sound) : (powerFailDone recovered s).sound := by
  unfold powerFailDone
  dsimp only
  refine keeps_ite hs (keeps_ite (keeps_mk (keeps_restartModule hs) rfl rfl rfl rfl rfl rfl rfl rfl rfl rfl rfl rfl rfl rfl rfl rfl rfl rfl rfl ) ?_)
  obtain ⟨h1, ⟨h2, h3, _, h5⟩, h6⟩ := hs
  exact ⟨h1, ⟨h2, h3, Nat.zero_le _, h5⟩, h6⟩

theorem keeps_cellMeasured {mv : Nat} {s : State} (hs : s.sound) : (cellMeasured mv s).sound := by
  unfold cellMeasured
  try dsimp only
  repeat' first
    | with_reducible assumption | with_reducible apply keeps_raiseEv | with_reducible apply keeps_ite
    | (fail_if_no_progress with_reducible refine keeps_mk ?_ rfl rfl rfl rfl rfl rfl rfl rfl rfl rfl rfl rfl rfl rfl rfl rfl rfl rfl rfl)


theorem keeps_thermal {d : Nat} {s : State} (hs : s.sound) : (thermal d s).sound := by
  unfold thermal
  try dsimp only
  repeat' first
    | with_reducible assumption | with_reducible apply keeps_disableHalf | with_reducible apply keeps_excludeLane
    | with_reducible apply keeps_ite | split


end Sys2Proof.Laws
end

