-- ==== Sys2Proof/Laws/KeepsUpdate.lean ====
section
/-! SUPPORT. Each operation of Machine/UpdateRows, RecordRows, TestRows keeps the invariant `State.sound`. -/

namespace Sys2Proof.Laws

open Sys2Proof Sys2Proof.Machine

theorem keeps_updateReply {code : Nat} {refused : Bool} {s : State} (hs : s.sound) : (updateReply code refused s).1.sound := by
  unfold updateReply
  try dsimp only
  repeat' first
    | with_reducible assumption
    | (fail_if_no_progress with_reducible refine keeps_mk ?_ rfl rfl rfl rfl rfl rfl rfl rfl rfl rfl rfl rfl rfl rfl rfl rfl rfl rfl rfl)


theorem keeps_updateOpenFn {s : State} (hs : s.sound) : (updateOpenFn s).1.sound := by
  unfold updateOpenFn
  exact keeps_ite_fst (keeps_updateReply (keeps_raiseEv hs)) (keeps_updateReply (keeps_raiseEv (keeps_upd hs (upd_wf hs).1 rfl)))

theorem keeps_installReply {code : Nat} {s : State} (hs : s.sound) : (installReply code s).1.sound := by
  unfold installReply
  try dsimp only
  repeat' first
    | with_reducible assumption
    | (fail_if_no_progress with_reducible refine keeps_mk ?_ rfl rfl rfl rfl rfl rfl rfl rfl rfl rfl rfl rfl rfl rfl rfl rfl rfl rfl rfl)


theorem keeps_copyFallback {s : State} (hs : s.sound) : (copyFallback s).sound := by
  unfold copyFallback
  try dsimp only
  repeat' first
    | with_reducible assumption
    | (fail_if_no_progress with_reducible refine keeps_mk ?_ rfl rfl rfl rfl rfl rfl rfl rfl rfl rfl rfl rfl rfl rfl rfl rfl rfl rfl rfl)
    | split


theorem keeps_installRollingFn {s : State} (hs : s.sound) : (installRollingFn s).1.sound := by
  unfold installRollingFn
  try dsimp only
  repeat' first
    | with_reducible assumption | with_reducible apply keeps_installReply | with_reducible apply keeps_copyFallback
    | with_reducible apply keeps_loaderWithdraw | with_reducible apply keeps_ite_fst
    | (fail_if_no_progress with_reducible refine keeps_mk ?_ rfl rfl rfl rfl rfl rfl rfl rfl rfl rfl rfl rfl rfl rfl rfl rfl rfl rfl rfl)


theorem keeps_finishImage {h : FwHeader} {s : State} (hs : s.sound) : (finishImage h s).1.sound := by
  unfold finishImage
  have k : ∀ {t : State}, t.sound → (raiseEv 93 0xB00B t).sound := keeps_raiseEv
  refine keeps_ite_fst (keeps_updateReply ?_) (keeps_updateReply (keeps_raiseEv (keeps_upd hs (upd_wf hs).1 rfl)))
  have k1 := k (keeps_upd (u := { s.upd with valid := true, newVersion := h.version }) hs (upd_wf hs).1 (upd_wf hs).2)
  exact keeps_ite (keeps_installRollingFn k1) k1

theorem keeps_blockTaken {h : FwHeader} {n : Nat} {b : List Byte} {s : State} (hs : s.sound) : (blockTaken h n b s).1.sound := by
  have k1 := keeps_upd (u := { s.upd with newArea := memWriteAll s.upd.newArea (n * blockLen) b, nextBlock := n + 1 })
    hs (upd_wf hs).1 (memWriteAll_wf b _ (upd_wf hs).2)
  exact keeps_ite_fst (keeps_finishImage k1) k1

theorem keeps_updateBlockFn {n crc : Nat} {good : Bool} {s : State} (hs : s.sound) : (updateBlockFn n crc good s).1.sound := by
  unfold updateBlockFn
  try dsimp only
  repeat' first
    | with_reducible assumption | with_reducible apply keeps_updateReply | with_reducible apply keeps_raiseEv
    | with_reducible apply keeps_blockTaken | with_reducible apply keeps_ite_fst | split


theorem keeps_updateAbandonFn {s : State} (hs : s.sound) : (updateAbandonFn s).1.sound := by
  unfold updateAbandonFn
  exact keeps_ite_fst (keeps_updateReply hs) (keeps_updateReply (keeps_raiseEv (keeps_upd hs (upd_wf hs).1 rfl)))

theorem keeps_bufferWindowFn {data : List Byte} {s : State} (hs : s.sound) : (bufferWindowFn data s).1.sound := by
  unfold bufferWindowFn
  exact keeps_ite_fst hs (keeps_ite_fst hs (keeps_upd hs (memWriteAll_wf _ _ (upd_wf hs).1) (upd_wf hs).2))

theorem keeps_asUpdate {sess : Nat} {via : Option Level} {f : State → State × Nat × List Byte} {s : State} (hf : ∀ s : State, s.sound → (f s).1.sound) (hs : s.sound) : (asUpdate sess via f s).sound := by
  unfold asUpdate
  try dsimp only
  repeat' first
    | with_reducible assumption | with_reducible apply keeps_asSession | with_reducible apply keeps_asProxy | split


theorem keeps_forwardRow {code : Nat} {s : State} (hs : s.sound) : (forwardRow code s).sound := by
  unfold forwardRow
  try dsimp only
  repeat' first
    | with_reducible assumption | with_reducible apply keeps_raiseEv
    | (fail_if_no_progress with_reducible refine keeps_mk ?_ rfl rfl rfl rfl rfl rfl rfl rfl rfl rfl rfl rfl rfl rfl rfl rfl rfl rfl rfl)
    | split


theorem keeps_installAllFn {s : State} (hs : s.sound) : (installAllFn s).1.sound := by
  unfold installAllFn
  try dsimp only
  repeat' first
    | with_reducible assumption | with_reducible apply keeps_installReply | with_reducible apply keeps_copyFallback
    | with_reducible apply keeps_ite_fst | with_reducible exact quiet_noNext rfl rfl rfl
    | dsimp only [twoMod, twoPut, twoGet, twoMap]
    | (fail_if_no_progress with_reducible refine keeps_mk2 ?_ rfl rfl rfl rfl rfl rfl rfl rfl rfl rfl rfl ?_ ?_)


theorem keeps_installStopFn {s : State} (hs : s.sound) : (installStopFn s).1.sound := by
  unfold installStopFn
  try dsimp only
  repeat' first
    | with_reducible assumption | with_reducible apply keeps_installReply | with_reducible apply keeps_ite_fst
    | (fail_if_no_progress with_reducible refine keeps_mk ?_ rfl rfl rfl rfl rfl rfl rfl rfl rfl rfl rfl rfl rfl rfl rfl rfl rfl rfl rfl)


theorem keeps_installDone {s : State} (hs : s.sound) : (installDone s).sound := by
  unfold installDone
  try dsimp only
  repeat' first
    | with_reducible assumption | with_reducible apply keeps_raiseEv
    | (fail_if_no_progress with_reducible refine keeps_mk ?_ rfl rfl rfl rfl rfl rfl rfl rfl rfl rfl rfl rfl rfl rfl rfl rfl rfl rfl rfl)


theorem keeps_writeAllLane {l : Lane} {s : State} (hs : s.sound) : (writeAllLane l s).sound := by
  unfold writeAllLane
  try dsimp only
  repeat' first
    | with_reducible assumption | with_reducible apply keeps_restartModule | with_reducible apply keeps_installDone
    | with_reducible apply keeps_ite
    | (fail_if_no_progress with_reducible refine keeps_mk ?_ rfl rfl rfl rfl rfl rfl rfl rfl rfl rfl rfl rfl rfl rfl rfl rfl rfl rfl rfl)


theorem keeps_installLaneDone {l : Lane} {s : State} (hs : s.sound) : (installLaneDone l s).sound := by
  unfold installLaneDone
  try dsimp only
  repeat' first
    | with_reducible assumption | with_reducible apply keeps_writeAllLane | with_reducible apply keeps_raiseEv
    | with_reducible apply keeps_rollNext | with_reducible apply keeps_startRollBack
    | with_reducible apply keeps_loaderWithdraw | with_reducible apply keeps_installDone
    | with_reducible apply keeps_ite
    | (fail_if_no_progress with_reducible refine keeps_mk ?_ rfl rfl rfl rfl rfl rfl rfl rfl rfl rfl rfl rfl rfl rfl rfl rfl rfl rfl rfl)
    | split


theorem keeps_bookReadFn {n : Nat} {s : State} (hs : s.sound) : (bookReadFn n s).1.sound := by
  unfold bookReadFn
  try dsimp only
  repeat' first
    | with_reducible assumption | with_reducible apply keeps_modSess | with_reducible apply keeps_ite_fst | split


theorem keeps_setBookCur {n v : Nat} {s : State} (hs : s.sound) : (setBookCur n v s).1.sound := by
  unfold setBookCur
  try dsimp only
  repeat' first
    | with_reducible assumption | with_reducible apply keeps_modSess


theorem keeps_bookCursorFn {n v : Nat} {s : State} (hs : s.sound) : (bookCursorFn n v s).1.sound := by
  unfold bookCursorFn
  try dsimp only
  repeat' first
    | with_reducible assumption | with_reducible apply keeps_setBookCur


theorem keeps_bookSeekFn {n : Nat} {t : Int} {s : State} (hs : s.sound) : (bookSeekFn n t s).1.sound := by
  unfold bookSeekFn
  try dsimp only
  repeat' first
    | with_reducible assumption | with_reducible apply keeps_setBookCur


theorem keeps_chestReadFn {n : Nat} {good : Bool} {s : State} (hs : s.sound) : (chestReadFn n good s).1.sound := by
  unfold chestReadFn
  cases s.chest.recs.find? (fun r => (sessOf s n).chestCur ≤ r.num) with
  | none => exact hs
  | some r =>
    have k1 := keeps_chest hs (c := { s.chest with recs := s.chest.recs.map (fun x => if x.num = r.num then { r with good := r.good && good } else x) })
      (by simpa using hs.2.1.2.2.2)
    exact keeps_modSess (keeps_ite k1 (keeps_raiseEv (keeps_takeFree k1)))

theorem keeps_snapReadFn {n : Nat} {s : State} (hs : s.sound) : (snapReadFn n s).1.sound := by
  unfold snapReadFn
  try dsimp only
  repeat' first
    | with_reducible assumption | with_reducible apply keeps_modSess


theorem keeps_chestClearFn {n v : Nat} {s : State} (hs : s.sound) : (chestClearFn n v s).1.sound := by
  unfold chestClearFn
  exact keeps_ite_fst hs (keeps_raiseEv (keeps_chestWrite (keeps_chest hs (Nat.zero_le _))))

theorem keeps_eventRecordFn {n : Nat} {s : State} (hs : s.sound) : (eventRecordFn n s).1.sound := by
  unfold eventRecordFn
  try dsimp only
  repeat' first
    | with_reducible assumption | with_reducible apply keeps_modSess | split


theorem keeps_forceRecordFn {n : Nat} {s : State} (hs : s.sound) : (forceRecordFn n s).1.sound := by
  unfold forceRecordFn
  try dsimp only
  repeat' first
    | with_reducible assumption | with_reducible apply keeps_modSess | split


theorem keeps_crcSelectFn {n v : Nat} {s : State} (hs : s.sound) : (crcSelectFn n v s).1.sound := by
  unfold crcSelectFn
  try dsimp only
  repeat' first
    | with_reducible assumption | with_reducible apply keeps_modSess | split


theorem keeps_crcDataFn {n : Nat} {d : List Byte} {s : State} (hs : s.sound) : (crcDataFn n d s).1.sound := by
  unfold crcDataFn
  try dsimp only
  repeat' first
    | with_reducible assumption | with_reducible apply keeps_modSess | with_reducible apply keeps_ite_fst


theorem keeps_crcValueFn {n v : Nat} {s : State} (hs : s.sound) : (crcValueFn n v s).1.sound := by
  unfold crcValueFn
  try dsimp only
  repeat' first
    | with_reducible assumption | with_reducible apply keeps_modSess | with_reducible apply keeps_ite_fst


theorem keeps_modTest {k : Nat} {f : TestInst → TestInst} {s : State} (hs : s.sound) : (modTest k f s).sound := by
  unfold modTest
  try dsimp only
  repeat' first
    | with_reducible assumption
    | (fail_if_no_progress with_reducible refine keeps_mk ?_ rfl rfl rfl rfl rfl rfl rfl rfl rfl rfl rfl rfl rfl rfl rfl rfl rfl rfl rfl)


theorem keeps_testOutcome {c : Nat} {s : State} (hs : s.sound) : (testOutcome c s).sound := by
  unfold testOutcome
  try dsimp only
  repeat' first
    | with_reducible assumption
    | (fail_if_no_progress with_reducible refine keeps_mk ?_ rfl rfl rfl rfl rfl rfl rfl rfl rfl rfl rfl rfl rfl rfl rfl rfl rfl rfl rfl)


theorem keeps_testReply {c : Nat} {s : State} (hs : s.sound) : (testReply c s).1.sound := by
  unfold testReply
  try dsimp only
  repeat' first
    | with_reducible assumption | with_reducible apply keeps_testOutcome


theorem keeps_testRunFn {target inst slices : Nat} {s : State} (hs : s.sound) : (testRunFn target inst slices s).1.sound := by
  unfold testRunFn
  try dsimp only
  repeat' first
    | with_reducible assumption | with_reducible apply keeps_testReply | with_reducible apply keeps_raiseEv
    | with_reducible apply keeps_modTest | with_reducible apply keeps_ite_fst | split


theorem keeps_endTest {k : Nat} {ts : TestState} {code : Nat} {s : State} (hs : s.sound) : (endTest k ts code s).sound := by
  unfold endTest
  try dsimp only
  repeat' first
    | with_reducible assumption | with_reducible apply keeps_raiseEv | with_reducible apply keeps_testOutcome
    | with_reducible apply keeps_modTest


theorem keeps_testStopFn {inst : Nat} {s : State} (hs : s.sound) : (testStopFn inst s).1.sound := by
  unfold testStopFn
  try dsimp only
  repeat' first
    | with_reducible assumption | with_reducible apply keeps_testReply | with_reducible apply keeps_endTest
    | with_reducible apply keeps_modTest | with_reducible apply keeps_ite_fst | split


theorem keeps_destroy {target k : Nat} {s : State} (hs : s.sound) : (destroy target k s).sound := by
  unfold destroy
  try dsimp only
  repeat' first
    | with_reducible assumption | with_reducible apply keeps_linkDown | with_reducible apply keeps_takeFreeInt
    | with_reducible apply keeps_ite | with_reducible refine keeps_foldl (fun s0 a0 k0 => ?_) _ ?_
    | (fail_if_no_progress with_reducible refine keeps_mk ?_ rfl rfl rfl rfl rfl rfl rfl rfl rfl rfl rfl rfl rfl rfl rfl rfl rfl rfl rfl)
    | dsimp only [twoMod, twoPut, twoGet, twoMap] | split


theorem keeps_testFailed {k slice detail : Nat} {s : State} (hs : s.sound) : (testFailed k slice detail s).sound := by
  unfold testFailed
  try dsimp only
  repeat' first
    | with_reducible assumption | with_reducible apply keeps_modTest | with_reducible apply keeps_raiseEv
    | with_reducible apply keeps_chestWrite | with_reducible apply keeps_testOutcome
    | with_reducible apply keeps_disableHalf
    | (fail_if_no_progress with_reducible refine keeps_mk ?_ rfl rfl rfl rfl rfl rfl rfl rfl rfl rfl rfl rfl rfl rfl rfl rfl rfl rfl rfl)
    | split


theorem keeps_testSlice {inst : Nat} {fail : Option Nat} {s : State} (hs : s.sound) : (testSlice inst fail s).sound := by
  unfold testSlice
  try dsimp only
  repeat' first
    | with_reducible assumption | with_reducible apply keeps_destroy | with_reducible apply keeps_testFailed
    | with_reducible apply keeps_modTest | with_reducible apply keeps_endTest | with_reducible apply keeps_ite | split


theorem keeps_takeOutFn {inst : Nat} {s : State} (hs : s.sound) : (takeOutFn inst s).1.sound := by
  unfold takeOutFn
  cases instHalf? inst with
  | none => exact keeps_testReply hs
  | some h =>
    exact keeps_ite_fst (keeps_testReply hs) (keeps_ite_fst (keeps_testReply hs)
      (keeps_testReply (keeps_raiseEv (keeps_mk (keeps_disableHalf (h := h) (cause := 10) (kind := halfDisabled) (detail := []) hs) rfl rfl rfl rfl rfl rfl rfl rfl rfl rfl rfl rfl rfl rfl rfl rfl rfl rfl rfl ))))

theorem keeps_restartHalf {h : Half} {i : StartIn} {s : State} (hs : s.sound) : (restartHalf h i s).sound := by
  cases h
  all_goals unfold restartHalf
  all_goals try dsimp only
  repeat' first
    | with_reducible assumption | with_reducible apply keeps_abortTests | with_reducible apply keeps_stepThree
    | with_reducible apply keeps_disableHalf | with_reducible apply keeps_ite
    | (fail_if_no_progress with_reducible refine keeps_mk ?_ rfl rfl rfl rfl rfl rfl rfl rfl rfl rfl rfl rfl rfl rfl rfl rfl rfl rfl rfl)
    | with_reducible exact quiet_id | with_reducible exact quiet_empty rfl rfl rfl
    | dsimp only [twoMod, twoPut, twoGet, twoMap]
    | (fail_if_no_progress with_reducible refine keeps_mk2 ?_ rfl rfl rfl rfl rfl rfl rfl rfl rfl rfl rfl ?_ ?_)


theorem keeps_restartHalfFn {inst : Nat} {i : StartIn} {s : State} (hs : s.sound) : (restartHalfFn inst i s).1.sound := by
  unfold restartHalfFn
  cases instHalf? inst with
  | none => exact keeps_testReply hs
  | some h => exact keeps_ite_fst (keeps_testReply hs) (keeps_testReply (keeps_raiseEv (keeps_restartHalf hs)))

theorem keeps_rotationSlow {l : Lane} {s : State} (hs : s.sound) : (rotationSlow l s).sound := by
  unfold rotationSlow
  try dsimp only
  repeat' first
    | with_reducible assumption | with_reducible apply keeps_raiseEv | with_reducible apply keeps_ite
    | (fail_if_no_progress with_reducible refine keeps_mk ?_ rfl rfl rfl rfl rfl rfl rfl rfl rfl rfl rfl rfl rfl rfl rfl rfl rfl rfl rfl)


theorem keeps_modAge {key : Nat} {f : AgeItem → AgeItem} {s : State} (hs : s.sound) : (modAge key f s).sound := by
  unfold modAge
  try dsimp only
  repeat' first
    | with_reducible assumption
    | (fail_if_no_progress with_reducible refine keeps_mk ?_ rfl rfl rfl rfl rfl rfl rfl rfl rfl rfl rfl rfl rfl rfl rfl rfl rfl rfl rfl)


theorem keeps_ageing {index sub margin : Nat} {s : State} (hs : s.sound) : (ageing index sub margin s).sound := by
  unfold ageing
  try dsimp only
  repeat' first
    | with_reducible assumption | with_reducible apply keeps_modAge | with_reducible apply keeps_raiseEv
    | with_reducible apply keeps_ite
    | (fail_if_no_progress with_reducible refine keeps_mk ?_ rfl rfl rfl rfl rfl rfl rfl rfl rfl rfl rfl rfl rfl rfl rfl rfl rfl rfl rfl)


theorem keeps_clockStep {l : Lane} {inTime : Bool} {s : State} (hs : s.sound) : (clockStep l inTime s).sound := by
  unfold clockStep
  try dsimp only
  repeat' first
    | with_reducible assumption | with_reducible apply keeps_raiseEv | with_reducible apply keeps_ite
    | (fail_if_no_progress with_reducible refine keeps_mk ?_ rfl rfl rfl rfl rfl rfl rfl rfl rfl rfl rfl rfl rfl rfl rfl rfl rfl rfl rfl)


theorem keeps_norRefresh {l : Lane} {good : Bool} {s : State} (hs : s.sound) : (norRefresh l good s).sound := by
  unfold norRefresh
  try dsimp only
  repeat' first
    | with_reducible assumption | with_reducible apply keeps_raiseEv | with_reducible apply keeps_excludeLane
    | with_reducible apply keeps_ite


theorem keeps_clockRestoreFn {v : Nat} {s : State} (hs : s.sound) : (clockRestoreFn v s).1.sound := by
  unfold clockRestoreFn
  try dsimp only
  repeat' first
    | with_reducible assumption
    | (fail_if_no_progress with_reducible refine keeps_mk ?_ rfl rfl rfl rfl rfl rfl rfl rfl rfl rfl rfl rfl rfl rfl rfl rfl rfl rfl rfl)
    | split


theorem keeps_forecastDay {s : State} (hs : s.sound) : (forecastDay s).sound := by
  unfold forecastDay
  try dsimp only
  repeat' first
    | with_reducible assumption
    | (fail_if_no_progress with_reducible refine keeps_mk ?_ rfl rfl rfl rfl rfl rfl rfl rfl rfl rfl rfl rfl rfl rfl rfl rfl rfl rfl rfl)


end Sys2Proof.Laws
end

