-- ==== Sys2Proof/Laws/KeepsObjects.lean ====
section
/-! SUPPORT. Each operation of Machine/ObjRead, ObjWrite keeps the invariant `State.sound`. -/

namespace Sys2Proof.Laws

open Sys2Proof Sys2Proof.Machine

theorem keeps_wrote {v : List Byte} {s : State} (hs : s.sound) : (wrote v s).1.sound := by
  unfold wrote
  try dsimp only
  repeat' first
    | with_reducible assumption


theorem keeps_ranged {lo hi : Nat} {v : List Byte} {f : Nat → State} {s : State} (hf : ∀ x, (f x).sound) (hs : s.sound) :
    (ranged lo hi v f s).1.sound :=
  keeps_ite_fst (hf _) hs

theorem keeps_boolean {v : List Byte} {f : Bool → State} {s : State} (hf : ∀ x, (f x).sound) (hs : s.sound) : (boolean v f s).1.sound := by
  unfold boolean
  try dsimp only
  repeat' first
    | with_reducible assumption | with_reducible apply keeps_ranged | with_reducible apply hf
    | with_reducible intro n0


theorem keeps_reserved {n : Nat} {v : List Byte} {f : Nat → State} {s : State} (hf : ∀ x, (f x).sound) (hs : s.sound) :
    (reserved n v f s).1.sound :=
  keeps_ite_fst (hf _) hs

theorem keeps_address {v : List Byte} {f : Nat → State} {s : State} (hf : ∀ x, (f x).sound) (hs : s.sound) :
    (address v f s).1.sound :=
  keeps_ite_fst (hf _) (keeps_reserved hf hs)

theorem keeps_command_none {s : State} (hs : s.sound) : (command none s).1.sound := hs

theorem keeps_command_some {f : State → State × Nat × List Byte} {s : State} (hf : ∀ s, s.sound → (f s).1.sound) (hs : s.sound) :
    (command (some f) s).1.sound := hf s hs

theorem keeps_command_map {α : Type} {o : Option α} {f : α → State → State × Nat × List Byte} {s : State}
    (hf : ∀ a s, s.sound → (f a s).1.sound) (hs : s.sound) : (command (o.map f) s).1.sound := by
  cases o with
  | none => exact hs
  | some a => exact hf a s hs

theorem keeps_command_ite {c : Prop} [Decidable c] {f g : Option (State → State × Nat × List Byte)} {s : State}
    (hf : (command f s).1.sound) (hg : (command g s).1.sound) : (command (if c then f else g) s).1.sound := by
  split <;> assumption

theorem keeps_putNet {v : List Byte} {f : NetSettings → NetSettings} {s : State} (hs : s.sound) : (putNet v f s).1.sound := by
  unfold putNet
  try dsimp only
  repeat' first
    | with_reducible assumption | with_reducible apply keeps_wrote
    | (fail_if_no_progress with_reducible refine keeps_mk ?_ rfl rfl rfl rfl rfl rfl rfl rfl rfl rfl rfl rfl rfl rfl rfl rfl rfl rfl rfl)


theorem keeps_writeNet {sub : Nat} {v : List Byte} {s : State} (hs : s.sound) : (writeNet sub v s).1.sound := by
  unfold writeNet
  try dsimp only
  repeat' first
    | with_reducible assumption | with_reducible apply keeps_putNet | with_reducible apply keeps_ite_fst


theorem keeps_writeCredential {sub : Nat} {v : List Byte} {s : State} (hs : s.sound) : (writeCredential sub v s).1.sound := by
  unfold writeCredential
  try dsimp only
  repeat' first
    | with_reducible assumption | with_reducible apply keeps_wrote
    | (fail_if_no_progress with_reducible refine keeps_mk ?_ rfl rfl rfl rfl rfl rfl rfl rfl rfl rfl rfl rfl rfl rfl rfl rfl rfl rfl rfl)


theorem keeps_clearPending {sub : Nat} {v : List Byte} {s : State} (hs : s.sound) : (clearPending sub v s).1.sound := by
  unfold clearPending
  try dsimp only
  repeat' first
    | with_reducible assumption | with_reducible apply keeps_wrote
    | (fail_if_no_progress with_reducible refine keeps_mk ?_ rfl rfl rfl rfl rfl rfl rfl rfl rfl rfl rfl rfl rfl rfl rfl rfl rfl rfl rfl)


theorem keeps_writeIdent {n index sub : Nat} {v : List Byte} {s : State} (hs : s.sound) : (writeIdent n index sub v s).1.sound := by
  unfold writeIdent
  try dsimp only
  repeat' first
    | with_reducible assumption | with_reducible apply keeps_address | with_reducible apply keeps_writeNet
    | with_reducible apply keeps_ranged | with_reducible apply keeps_boolean | with_reducible apply keeps_wrote
    | with_reducible apply keeps_modSess | with_reducible apply keeps_writeCredential
    | with_reducible apply keeps_clearPending | with_reducible apply keeps_ite_fst
    | (fail_if_no_progress with_reducible refine keeps_mk ?_ rfl rfl rfl rfl rfl rfl rfl rfl rfl rfl rfl rfl rfl rfl rfl rfl rfl rfl rfl)
    | with_reducible intro n0


theorem keeps_laterSetting {sub lo hi : Nat} {v : List Byte} {s : State} (hs : s.sound) : (laterSetting sub lo hi v s).1.sound := by
  unfold laterSetting
  try dsimp only
  repeat' first
    | with_reducible assumption | with_reducible apply keeps_ranged
    | (fail_if_no_progress with_reducible refine keeps_mk ?_ rfl rfl rfl rfl rfl rfl rfl rfl rfl rfl rfl rfl rfl rfl rfl rfl rfl rfl rfl)
    | with_reducible intro n0


theorem keeps_writeVote {index sub : Nat} {v : List Byte} {s : State} (hs : s.sound) : (writeVote index sub v s).1.sound := by
  unfold writeVote
  try dsimp only
  repeat' first
    | with_reducible assumption | with_reducible refine keeps_command_ite ?_ ?_
    | with_reducible apply keeps_command_some | with_reducible apply keeps_command_map
    | with_reducible apply keeps_command_none | with_reducible apply keeps_laterSetting
    | with_reducible apply keeps_reserved | with_reducible apply keeps_ranged | with_reducible apply keeps_wrote
    | with_reducible apply keeps_cancelFn | with_reducible apply keeps_withdrawFn
    | with_reducible apply keeps_returnFn | with_reducible apply keeps_enterFn | with_reducible apply keeps_leaveFn
    | with_reducible apply keeps_ite_fst
    | (fail_if_no_progress with_reducible refine keeps_mk ?_ rfl rfl rfl rfl rfl rfl rfl rfl rfl rfl rfl rfl rfl rfl rfl rfl rfl rfl rfl)
    | with_reducible intro n0


theorem keeps_writeSlots {n index sub : Nat} {v : List Byte} {s : State} (hs : s.sound) : (writeSlots n index sub v s).1.sound := by
  unfold writeSlots
  try dsimp only
  repeat' first
    | with_reducible assumption | with_reducible apply keeps_loadControlFn | with_reducible apply keeps_wrote
    | with_reducible apply keeps_windowFn | with_reducible apply keeps_loadWindowFn
    | with_reducible apply keeps_activateFn | with_reducible apply keeps_boolean
    | with_reducible apply keeps_keyActionFn | with_reducible apply keeps_progControlFn
    | with_reducible apply keeps_progWindowFn | with_reducible apply keeps_ite_fst
    | (fail_if_no_progress with_reducible refine keeps_mk ?_ rfl rfl rfl rfl rfl rfl rfl rfl rfl rfl rfl rfl rfl rfl rfl rfl rfl rfl rfl)
    | with_reducible intro n0


theorem keeps_writeBus {n index sub : Nat} {v : List Byte} {s : State} (hs : s.sound) : (writeBus n index sub v s).1.sound := by
  unfold writeBus
  try dsimp only
  repeat' first
    | with_reducible assumption | with_reducible apply keeps_wrote | with_reducible apply keeps_modSess
    | with_reducible apply keeps_modeRequestFn | with_reducible apply keeps_portCommand
    | with_reducible apply keeps_ranged | with_reducible apply keeps_ackPairsFn
    | with_reducible apply keeps_ackOutputsFn | with_reducible apply keeps_ackKeyFn
    | with_reducible apply keeps_ite_fst
    | (fail_if_no_progress with_reducible refine keeps_mk ?_ rfl rfl rfl rfl rfl rfl rfl rfl rfl rfl rfl rfl rfl rfl rfl rfl rfl rfl rfl)
    | with_reducible intro n0


theorem keeps_reselect {s : State} (hs : s.sound) : (reselect s).sound := by
  unfold reselect
  try dsimp only
  repeat' first
    | with_reducible assumption | with_reducible apply keeps_loseSource | with_reducible apply keeps_ite


theorem keeps_writeLeap {sub : Nat} {v : List Byte} {s : State} (hs : s.sound) : (writeLeap sub v s).1.sound := by
  unfold writeLeap
  try dsimp only
  repeat' first
    | with_reducible assumption | with_reducible apply keeps_wrote | with_reducible apply keeps_setLeap
    | with_reducible apply keeps_ite_fst


theorem keeps_writeTime {index sub : Nat} {v : List Byte} {s : State} (hs : s.sound) : (writeTime index sub v s).1.sound := by
  unfold writeTime
  try dsimp only
  repeat' first
    | with_reducible assumption | with_reducible apply keeps_corrReply | with_reducible apply keeps_offsetInc
    | with_reducible apply keeps_rateInc | with_reducible apply keeps_ranged | with_reducible apply keeps_stepTime
    | with_reducible apply keeps_ackRefusalFn | with_reducible apply keeps_wrote | with_reducible apply keeps_reselect
    | with_reducible apply keeps_modPtp | with_reducible apply keeps_writeLeap | with_reducible apply keeps_reserved
    | with_reducible exact keeps_stampQ hs (stampQ_length hs) | with_reducible apply keeps_ite_fst
    | (fail_if_no_progress with_reducible refine keeps_mk ?_ rfl rfl rfl rfl rfl rfl rfl rfl rfl rfl rfl rfl rfl rfl rfl rfl rfl rfl rfl)
    | with_reducible intro n0


theorem keeps_writePair {n index sub : Nat} {v : List Byte} {s : State} (hs : s.sound) : (writePair n index sub v s).1.sound := by
  unfold writePair
  try dsimp only
  repeat' first
    | with_reducible assumption | with_reducible refine keeps_command_ite ?_ ?_
    | with_reducible apply keeps_command_some | with_reducible apply keeps_command_none
    | with_reducible apply keeps_address | with_reducible apply keeps_boolean | with_reducible apply keeps_ranged
    | with_reducible apply keeps_wrote | with_reducible apply keeps_modSess | with_reducible apply keeps_handOverFn
    | with_reducible apply keeps_coldHandOverFn | with_reducible apply keeps_resyncFn
    | with_reducible apply keeps_ite_fst
    | (fail_if_no_progress with_reducible refine keeps_mk ?_ rfl rfl rfl rfl rfl rfl rfl rfl rfl rfl rfl rfl rfl rfl rfl rfl rfl rfl rfl)
    | with_reducible intro n0


theorem keeps_writeTest {v : List Byte} {s : State} (hs : s.sound) : (writeTest v s).1.sound := by
  unfold writeTest
  try dsimp only
  repeat' first
    | with_reducible assumption | with_reducible refine keeps_command_ite ?_ ?_
    | with_reducible apply keeps_command_some | with_reducible apply keeps_command_none
    | with_reducible apply keeps_testRunFn | with_reducible apply keeps_testStopFn
    | with_reducible apply keeps_takeOutFn | with_reducible apply keeps_ite_fst


theorem keeps_writeCare {n index sub : Nat} {v : List Byte} {s : State} (hs : s.sound) : (writeCare n index sub v s).1.sound := by
  unfold writeCare
  try dsimp only
  repeat' first
    | with_reducible assumption | with_reducible apply keeps_writeTest | with_reducible apply keeps_ranged
    | with_reducible apply keeps_clockRestoreFn | with_reducible apply keeps_crcSelectFn
    | with_reducible apply keeps_crcValueFn | with_reducible apply keeps_crcDataFn
    | with_reducible apply keeps_bookCursorFn | with_reducible apply keeps_bookSeekFn
    | with_reducible apply keeps_wrote | with_reducible apply keeps_modSess | with_reducible apply keeps_chestClearFn
    | with_reducible apply keeps_ite_fst
    | (fail_if_no_progress with_reducible refine keeps_mk ?_ rfl rfl rfl rfl rfl rfl rfl rfl rfl rfl rfl rfl rfl rfl rfl rfl rfl rfl rfl)
    | with_reducible intro n0


theorem keeps_writeUpdate {v : List Byte} {s : State} (hs : s.sound) : (writeUpdate v s).1.sound := by
  unfold writeUpdate
  try dsimp only
  repeat' first
    | with_reducible assumption | with_reducible refine keeps_command_ite ?_ ?_
    | with_reducible apply keeps_command_some | with_reducible apply keeps_command_none
    | with_reducible apply keeps_updateOpenFn | with_reducible apply keeps_updateAbandonFn
    | with_reducible apply keeps_ite_fst


theorem keeps_writePower {origin : Option Nat} {index sub : Nat} {v : List Byte} {s : State} (hs : s.sound) : (writePower origin index sub v s).1.sound := by
  unfold writePower
  try dsimp only
  repeat' first
    | with_reducible assumption | with_reducible refine keeps_command_ite ?_ ?_
    | with_reducible apply keeps_command_some | with_reducible apply keeps_command_none
    | with_reducible apply keeps_voteFn | with_reducible apply keeps_ranged | with_reducible apply keeps_wrote
    | with_reducible apply keeps_wakeRetryFn | with_reducible apply keeps_confirmFn
    | with_reducible apply keeps_boolean | with_reducible apply keeps_writeUpdate
    | with_reducible apply keeps_bufferWindowFn | with_reducible apply keeps_installRollingFn
    | with_reducible apply keeps_installAllFn | with_reducible apply keeps_installStopFn
    | with_reducible apply keeps_ite | with_reducible apply keeps_ite_fst
    | (fail_if_no_progress with_reducible refine keeps_mk ?_ rfl rfl rfl rfl rfl rfl rfl rfl rfl rfl rfl rfl rfl rfl rfl rfl rfl rfl rfl)
    | with_reducible intro n0


theorem keeps_writeSelect {n index : Nat} {v : List Byte} {s : State} (hs : s.sound) : (writeSelect n index v s).1.sound := by
  unfold writeSelect
  try dsimp only
  repeat' first
    | with_reducible assumption | with_reducible apply keeps_wrote | with_reducible apply keeps_modSess
    | with_reducible apply keeps_ite_fst


theorem keeps_writeMailbox {n : Nat} {level : Level} {port : Nat} {v : List Byte} {s : State} (hs : s.sound) : (writeMailbox n level port v s).1.sound := by
  unfold writeMailbox
  try dsimp only
  repeat' first
    | with_reducible assumption | with_reducible apply keeps_noteDepth | with_reducible apply keeps_ingressStamp
    | with_reducible apply keeps_enqueue | with_reducible apply keeps_ite_fst


theorem keeps_writePart {n : Nat} {origin : Option Nat} {level : Level} {index sub : Nat} {v : List Byte} {s : State} (hs : s.sound) : (writePart n origin level index sub v s).1.sound := by
  unfold writePart
  try dsimp only
  repeat' first
    | with_reducible assumption | with_reducible apply keeps_writeMailbox | with_reducible apply keeps_writeSelect
    | with_reducible apply keeps_writeIdent | with_reducible apply keeps_writeVote
    | with_reducible apply keeps_writeSlots | with_reducible apply keeps_writeBus
    | with_reducible apply keeps_writeTime | with_reducible apply keeps_writePair
    | with_reducible apply keeps_writeCare | with_reducible apply keeps_writePower
    | with_reducible apply keeps_ite_fst


theorem length_drop_le {α : Type} (n : Nat) (l : List α) : (l.drop n).length ≤ l.length := by
  rw [List.length_drop]
  exact Nat.sub_le _ _

theorem keeps_clearQueue {q : Nat} {s : State} (hs : s.sound) : (clearQueue q s).sound :=
  keeps_mk hs rfl rfl rfl rfl rfl rfl rfl rfl rfl rfl rfl rfl rfl rfl rfl rfl rfl rfl rfl 

theorem keeps_clearPart {n index sub : Nat} {s : State} (hs : s.sound) : (clearPart n index sub s).sound := by
  unfold clearPart
  try dsimp only
  repeat' first
    | with_reducible assumption | with_reducible apply keeps_clearQueue | with_reducible apply keeps_modChan
    | with_reducible apply keeps_modPort | with_reducible apply keeps_modPtp | with_reducible apply keeps_modSess
    | with_reducible exact keeps_stampQ hs (stampQ_length hs)
    | with_reducible exact keeps_stampQ hs (le_trans (length_drop_le _ _) (stampQ_length hs))
    | with_reducible apply keeps_ite
    | (fail_if_no_progress with_reducible refine keeps_mk ?_ rfl rfl rfl rfl rfl rfl rfl rfl rfl rfl rfl rfl rfl rfl rfl rfl rfl rfl rfl)
    | split


end Sys2Proof.Laws
end

