-- ==== Sys2Proof/Laws/KeepsDict.lean ====
section
/-! SUPPORT. Each operation of Machine/DictRows keeps the invariant `State.sound`. -/

namespace Sys2Proof.Laws

open Sys2Proof Sys2Proof.Machine

theorem keeps_dropDgram {s : State} (hs : s.sound) : (dropDgram s).sound := by
  unfold dropDgram
  try dsimp only
  repeat' first
    | with_reducible assumption
    | (fail_if_no_progress with_reducible refine keeps_mk ?_ rfl rfl rfl rfl rfl rfl rfl rfl rfl rfl rfl rfl rfl rfl rfl rfl rfl rfl rfl)


theorem keeps_receiveStamp {src : Source} {d : Dgram} {s : State} (hs : s.sound) : (receiveStamp src d s).sound := by
  unfold receiveStamp
  try dsimp only
  repeat' first
    | with_reducible assumption | with_reducible apply keeps_stamp | split


theorem keeps_acceptReq {n : Nat} {ch : Option Half} {d : Dgram} {s : State} (hs : s.sound) : (acceptReq n ch d s).sound := by
  unfold acceptReq
  try dsimp only
  repeat' first
    | with_reducible assumption | with_reducible apply keeps_noteDepth | with_reducible apply keeps_modSess


theorem keeps_admitReq {src : Source} {ch : Option Half} {d : Dgram} {f : State → State} {s : State} (hf : ∀ s : State, s.sound → (f s).sound) (hs : s.sound) : (admitReq src ch d f s).sound := by
  unfold admitReq
  try dsimp only
  repeat' first
    | with_reducible assumption | with_reducible apply keeps_emit | with_reducible apply keeps_dropDgram
    | with_reducible apply keeps_noteDepth | with_reducible apply keeps_acceptReq | with_reducible apply hf
    | with_reducible apply keeps_ite | split


theorem keeps_answer {src : Source} {d : Dgram} {result : Nat} {data : List Byte} {s : State} (hs : s.sound) : (answer src d result data s).sound := by
  unfold answer
  try dsimp only
  repeat' first
    | with_reducible assumption | with_reducible apply keeps_sendLoose | with_reducible apply keeps_sendReply | split


theorem keeps_inAnySession {src : Source} {ch : Option Half} {d : Dgram} {f : State → State} {s : State} (hf : ∀ s : State, s.sound → (f s).sound) (hs : s.sound) : (inAnySession src ch d f s).sound := by
  unfold inAnySession
  try dsimp only
  repeat' first
    | with_reducible assumption | with_reducible apply keeps_admitReq | with_reducible apply keeps_sendLoose
    | with_reducible apply hf | with_reducible apply keeps_ite | split


theorem keeps_withRequest {own : Dgram → Bool} {f : Dgram → State → State} {src : Source} {b : List Byte} {s : State}
    (hf : ∀ d s, s.sound → (f d s).sound) (hs : s.sound) : (withRequest own f src b s).sound := by
  unfold withRequest
  have k := keeps_receiveStamp (src := src) (d := readDgram b) hs
  exact keeps_ite hs (keeps_ite (keeps_dropDgram hs)
    (keeps_ite (keeps_ite (keeps_sendLoose k) (keeps_sendLoose k)) (keeps_ite (hf _ _ k) hs)))

theorem keeps_putFail {x : OpenFail} {s : State} (hs : s.sound) : (putFail x s).sound := by
  unfold putFail
  try dsimp only
  repeat' first
    | with_reducible assumption
    | (fail_if_no_progress with_reducible refine keeps_mk ?_ rfl rfl rfl rfl rfl rfl rfl rfl rfl rfl rfl rfl rfl rfl rfl rfl rfl rfl rfl)


theorem keeps_noteRefused {src : Source} {s : State} (hs : s.sound) : (noteRefused src s).sound := by
  unfold noteRefused
  try dsimp only
  repeat' first
    | with_reducible assumption | with_reducible apply keeps_raiseEv | with_reducible apply keeps_putFail
    | with_reducible apply keeps_ite


theorem keeps_newStamp {last : Nat} {s : State} (hs : s.sound) : (newStamp last s).2.sound := by
  unfold newStamp
  try dsimp only
  repeat' first
    | with_reducible assumption | with_reducible apply keeps_takeFree


theorem keeps_openAt {n level : Nat} {src : Source} {ch : Option Half} {d : Dgram} {s : State} (hs : s.sound) : (openAt n level src ch d s).sound := by
  unfold openAt
  try dsimp only
  repeat' first
    | with_reducible assumption | with_reducible apply keeps_raiseEv | with_reducible apply keeps_newStamp
    | with_reducible apply keeps_sendReply
    | (fail_if_no_progress with_reducible refine keeps_mk ?_ rfl rfl rfl rfl rfl rfl rfl rfl rfl rfl rfl rfl rfl rfl rfl rfl rfl rfl rfl)


theorem keeps_openReq {src : Source} {ch : Option Half} {d : Dgram} {s : State} (hs : s.sound) : (openReq src ch d s).sound := by
  unfold openReq
  try dsimp only
  repeat' first
    | with_reducible assumption | with_reducible apply keeps_sendLoose | with_reducible apply keeps_noteRefused
    | with_reducible apply keeps_openAt | with_reducible apply keeps_ite | split


theorem keeps_closeReq {src : Source} {d : Dgram} {s : State} (hs : s.sound) : (closeReq src d s).sound := by
  unfold closeReq
  try dsimp only
  repeat' first
    | with_reducible assumption | with_reducible apply keeps_closeWhere | with_reducible apply keeps_answer


theorem keeps_statusService {src : Source} {d : Dgram} {s : State} (hs : s.sound) : (statusService src d s).sound := by
  unfold statusService
  try dsimp only
  repeat' first
    | with_reducible assumption | with_reducible apply keeps_answer


theorem keeps_describeReq {src : Source} {d : Dgram} {s : State} (hs : s.sound) : (describeReq src d s).sound := by
  unfold describeReq
  try dsimp only
  repeat' first
    | with_reducible assumption | with_reducible apply keeps_answer | split


theorem keeps_queueReq {src : Source} {d : Dgram} {write : Bool} {s : State} (hs : s.sound) : (queueReq src d write s).sound := by
  unfold queueReq
  try dsimp only
  repeat' first
    | with_reducible assumption | with_reducible apply keeps_modSess
    | (fail_if_no_progress with_reducible refine keeps_mk ?_ rfl rfl rfl rfl rfl rfl rfl rfl rfl rfl rfl rfl rfl rfl rfl rfl rfl rfl rfl)
    | split


theorem keeps_some_ite {c : Prop} [Decidable c] {x : State × Nat × List Byte} {o : Option (State × Nat × List Byte)}
    (hx : x.1.sound) (ho : ∀ w, o = some w → w.1.sound) : ∀ w, (if c then some x else o) = some w → w.1.sound := by
  intro w e
  split at e
  · cases e
    exact hx
  · exact ho w e

theorem keeps_readWindow {n index sub : Nat} {s : State} (hs : s.sound) :
    ∀ w, readWindow s n index sub = some w → w.1.sound := by
  unfold readWindow
  exact keeps_some_ite (keeps_bookReadFn hs) (keeps_some_ite (keeps_chestReadFn hs) (keeps_some_ite (keeps_snapReadFn hs)
    (keeps_some_ite (keeps_eventRecordFn hs) (keeps_some_ite (keeps_forceRecordFn hs) (fun _ e => nomatch e)))))

theorem keeps_readReq {src : Source} {d : Dgram} {s : State} (hs : s.sound) : (readReq src d s).sound := by
  unfold readReq
  cases findObj s d.index d.sub with
  | inr c => exact keeps_answer hs
  | inl r =>
    have k := keeps_readWindow (n := sessNo src d) (index := d.index) (sub := d.sub) hs
    dsimp only
    generalize readWindow s (sessNo src d) d.index d.sub = o at k ⊢
    cases o with
    | none => exact keeps_answer hs
    | some w => exact keeps_answer (k w rfl)

theorem keeps_clearReq {src : Source} {d : Dgram} {s : State} (hs : s.sound) : (clearReq src d s).sound := by
  unfold clearReq
  try dsimp only
  repeat' first
    | with_reducible assumption | with_reducible apply keeps_answer | with_reducible apply keeps_queueReq
    | with_reducible apply keeps_clearPart | with_reducible apply keeps_ite | split


theorem keeps_writeReq {src : Source} {d : Dgram} {s : State} (hs : s.sound) : (writeReq src d s).sound := by
  unfold writeReq
  try dsimp only
  repeat' first
    | with_reducible assumption | with_reducible apply keeps_answer | with_reducible apply keeps_queueReq
    | with_reducible apply keeps_writePart | with_reducible apply keeps_ite | split


theorem keeps_eventsReq {src : Source} {d : Dgram} {s : State} (hs : s.sound) : (eventsReq src d s).sound := by
  unfold eventsReq
  try dsimp only
  repeat' first
    | with_reducible assumption | with_reducible apply keeps_answer | with_reducible apply keeps_modSess
    | with_reducible apply keeps_ite


theorem keeps_proxyService {src : Source} {d : Dgram} {far : ProxyIn} {s : State} (hs : s.sound) : (proxyService src d far s).sound := by
  unfold proxyService
  try dsimp only
  repeat' first
    | with_reducible assumption | with_reducible apply keeps_answer | with_reducible apply keeps_bridgeFail
    | with_reducible apply keeps_ite


theorem keeps_openRow {src : Source} {ch : Option Half} {b : List Byte} {s : State} (hs : s.sound) : (openRow src ch b s).sound := by
  unfold openRow
  try dsimp only
  repeat' first
    | with_reducible assumption | with_reducible apply keeps_withRequest | with_reducible apply keeps_openReq


theorem keeps_closeRow {src : Source} {ch : Option Half} {b : List Byte} {s : State} (hs : s.sound) : (closeRow src ch b s).sound := by
  unfold closeRow
  try dsimp only
  repeat' first
    | with_reducible assumption | with_reducible apply keeps_withRequest | with_reducible apply keeps_inAnySession
    | with_reducible apply keeps_closeReq | with_reducible intro s0 k0


theorem keeps_statusRow {src : Source} {ch : Option Half} {b : List Byte} {s : State} (hs : s.sound) : (statusRow src ch b s).sound := by
  unfold statusRow
  try dsimp only
  repeat' first
    | with_reducible assumption | with_reducible apply keeps_withRequest | with_reducible apply keeps_inAnySession
    | with_reducible apply keeps_statusService | with_reducible intro s0 k0


theorem keeps_readRow {src : Source} {ch : Option Half} {b : List Byte} {s : State} (hs : s.sound) : (readRow src ch b s).sound := by
  unfold readRow
  try dsimp only
  repeat' first
    | with_reducible assumption | with_reducible apply keeps_withRequest | with_reducible apply keeps_inAnySession
    | with_reducible apply keeps_readReq | with_reducible intro s0 k0


theorem keeps_writeRow {src : Source} {ch : Option Half} {b : List Byte} {s : State} (hs : s.sound) : (writeRow src ch b s).sound := by
  unfold writeRow
  try dsimp only
  repeat' first
    | with_reducible assumption | with_reducible apply keeps_withRequest | with_reducible apply keeps_inAnySession
    | with_reducible apply keeps_writeReq | with_reducible intro s0 k0


theorem keeps_clearRow {src : Source} {ch : Option Half} {b : List Byte} {s : State} (hs : s.sound) : (clearRow src ch b s).sound := by
  unfold clearRow
  try dsimp only
  repeat' first
    | with_reducible assumption | with_reducible apply keeps_withRequest | with_reducible apply keeps_inAnySession
    | with_reducible apply keeps_clearReq | with_reducible intro s0 k0


theorem keeps_describeRow {src : Source} {ch : Option Half} {b : List Byte} {s : State} (hs : s.sound) : (describeRow src ch b s).sound := by
  unfold describeRow
  try dsimp only
  repeat' first
    | with_reducible assumption | with_reducible apply keeps_withRequest | with_reducible apply keeps_inAnySession
    | with_reducible apply keeps_describeReq | with_reducible intro s0 k0


theorem keeps_eventsRow {src : Source} {ch : Option Half} {b : List Byte} {s : State} (hs : s.sound) : (eventsRow src ch b s).sound := by
  unfold eventsRow
  try dsimp only
  repeat' first
    | with_reducible assumption | with_reducible apply keeps_withRequest | with_reducible apply keeps_inAnySession
    | with_reducible apply keeps_eventsReq | with_reducible intro s0 k0


theorem keeps_proxyRow {src : Source} {ch : Option Half} {b : List Byte} {far : ProxyIn} {s : State} (hs : s.sound) : (proxyRow src ch b far s).sound := by
  unfold proxyRow
  try dsimp only
  repeat' first
    | with_reducible assumption | with_reducible apply keeps_withRequest | with_reducible apply keeps_inAnySession
    | with_reducible apply keeps_proxyService | with_reducible intro s0 k0


theorem keeps_pendingRow {src : Source} {ch : Option Half} {b : List Byte} {s : State} (hs : s.sound) : (pendingRow src ch b s).sound := by
  unfold pendingRow
  try dsimp only
  repeat' first
    | with_reducible assumption | with_reducible apply keeps_withRequest | with_reducible apply keeps_inAnySession
    | with_reducible apply keeps_writeReq | with_reducible intro s0 k0


theorem keeps_serve {src : Source} {ch : Option Half} {b : List Byte} {far : ProxyIn} {s : State} (hs : s.sound) : (serve src ch b far s).sound := by
  unfold serve
  try dsimp only
  repeat' first
    | with_reducible assumption | with_reducible apply keeps_openRow | with_reducible apply keeps_closeRow
    | with_reducible apply keeps_clearRow | with_reducible apply keeps_readRow | with_reducible apply keeps_pendingRow
    | with_reducible apply keeps_writeRow | with_reducible apply keeps_describeRow
    | with_reducible apply keeps_eventsRow | with_reducible apply keeps_proxyRow
    | with_reducible apply keeps_statusRow | with_reducible apply keeps_ite


theorem keeps_serviceRow {h : Half} {port : Nat} {f : Frame} {far : ProxyIn} {s : State} (hs : s.sound) : (serviceRow h port f far s).sound := by
  unfold serviceRow
  try dsimp only
  repeat' first
    | with_reducible assumption | with_reducible apply Sys2Proof.Laws.keeps_discard | with_reducible apply keeps_serve
    | with_reducible apply keeps_stamp | with_reducible apply keeps_ite | split


theorem keeps_sessionTimeout {n : Nat} {s : State} (hs : s.sound) : (sessionTimeout n s).sound := by
  unfold sessionTimeout
  try dsimp only
  repeat' first
    | with_reducible assumption | with_reducible apply keeps_closeWhere


theorem keeps_lockoutEnd {src : Source} {s : State} (hs : s.sound) : (lockoutEnd src s).sound := by
  unfold lockoutEnd
  try dsimp only
  repeat' first
    | with_reducible assumption | with_reducible apply keeps_putFail | with_reducible apply keeps_ite | split


theorem keeps_networkApply {s : State} (hs : s.sound) : (networkApply s).sound := by
  unfold networkApply
  try dsimp only
  repeat' first
    | with_reducible assumption | with_reducible apply keeps_ite
    | (fail_if_no_progress with_reducible refine keeps_mk ?_ rfl rfl rfl rfl rfl rfl rfl rfl rfl rfl rfl rfl rfl rfl rfl rfl rfl rfl rfl)
    | split


theorem keeps_maintenanceDown {s : State} (hs : s.sound) : (maintenanceDown s).sound := by
  unfold maintenanceDown
  try dsimp only
  repeat' first
    | with_reducible assumption | with_reducible apply keeps_closeWhere


theorem keeps_toLanes {n : Nat} {q : AtTick} {r : Reply} {given : Option (Nat × List Byte)} {s : State} (hs : s.sound) :
    (toLanes n q r given s).sound := by
  unfold toLanes
  try dsimp only
  repeat' first
    | with_reducible assumption | with_reducible apply keeps_modSess | with_reducible apply keeps_ite
    | (fail_if_no_progress with_reducible refine keeps_mk ?_ rfl rfl rfl rfl rfl rfl rfl rfl rfl rfl rfl rfl rfl rfl rfl rfl rfl rfl rfl)


theorem keeps_sendTick {n : Nat} {q : AtTick} {result : Nat} {data : List Byte} {s : State} (hs : s.sound) : (sendTick n q result data s).sound := by
  unfold sendTick
  try dsimp only
  repeat' first
    | with_reducible assumption | with_reducible apply keeps_sendLoose | with_reducible apply keeps_sendReply
    | with_reducible apply keeps_ite


theorem keeps_applyAtTick {n : Nat} {q : AtTick} {s : State} (hs : s.sound) : (applyAtTick n q s).sound := by
  unfold applyAtTick
  try dsimp only
  repeat' first
    | with_reducible assumption | with_reducible apply keeps_sendTick | with_reducible apply keeps_toLanes
    | with_reducible apply keeps_writePart | with_reducible apply keeps_ite | split


theorem keeps_applyRequests {s : State} (hs : s.sound) : (applyRequests s).sound := by
  unfold applyRequests
  try dsimp only
  repeat' first
    | with_reducible assumption | with_reducible apply keeps_applyAtTick
    | with_reducible refine keeps_foldl (fun s0 a0 k0 => ?_) _ ?_
    | (fail_if_no_progress with_reducible refine keeps_mk ?_ rfl rfl rfl rfl rfl rfl rfl rfl rfl rfl rfl rfl rfl rfl rfl rfl rfl rfl rfl)


end Sys2Proof.Laws
end

