-- ==== Sys2Proof/Laws/KeepsHead.lean ====
section
/-! SUPPORT. Each operation of Machine/Head keeps the invariant `State.sound`. -/

namespace Sys2Proof.Laws

open Sys2Proof Sys2Proof.Machine

theorem keeps_retireBlocks {n : Nat} {s : State} (hs : s.sound) : (retireBlocks n s).sound := by
  unfold retireBlocks
  try dsimp only
  repeat' first
    | with_reducible assumption | with_reducible apply keeps_raiseEv | with_reducible apply keeps_chestWrite
    | with_reducible apply keeps_ite | with_reducible refine keeps_foldl (fun s0 a0 k0 => ?_) _ ?_
    | (fail_if_no_progress with_reducible refine keeps_mk ?_ rfl rfl rfl rfl rfl rfl rfl rfl rfl rfl rfl rfl rfl rfl rfl rfl rfl rfl rfl)


theorem keeps_book {b : Book} {s : State} (hs : s.sound) (h : b.buf.length ≤ bookBuffer) : State.sound { s with book := b } :=
  ⟨hs.1, ⟨hs.2.1.1, hs.2.1.2.1, h, hs.2.1.2.2.2⟩, hs.2.2⟩

theorem keeps_storeRecord {s : State} (hs : s.sound) : (storeRecord s).sound := by
  unfold storeRecord
  split
  · exact hs
  · rename_i r l e
    have h := hs.2.1.2.2.1
    rw [e, List.length_cons] at h
    exact keeps_book (keeps_ite (keeps_raiseEv hs) hs) (by show l.length ≤ bookBuffer; omega)

theorem keeps_recordStorage {i : HeadIn} {s : State} (hs : s.sound) : (recordStorage i s).sound := by
  unfold recordStorage
  try dsimp only
  repeat' first
    | with_reducible assumption | with_reducible apply keeps_retireBlocks | with_reducible apply keeps_storeRecord
    | with_reducible apply keeps_raiseRec | with_reducible apply keeps_ite
    | with_reducible refine keeps_foldl (fun s0 a0 k0 => ?_) _ ?_
    | (fail_if_no_progress with_reducible refine keeps_mk ?_ rfl rfl rfl rfl rfl rfl rfl rfl rfl rfl rfl rfl rfl rfl rfl rfl rfl rfl rfl)


theorem keeps_passTime {i : HeadIn} {s : State} (hs : s.sound) : (passTime i s).sound := by
  unfold passTime
  try dsimp only
  repeat' first
    | with_reducible assumption
    | (fail_if_no_progress with_reducible refine keeps_mk ?_ rfl rfl rfl rfl rfl rfl rfl rfl rfl rfl rfl rfl rfl rfl rfl rfl rfl rfl rfl)


theorem keeps_endOverrun {s : State} (hs : s.sound) : (endOverrun s).sound := by
  unfold endOverrun
  try dsimp only
  repeat' first
    | with_reducible assumption | with_reducible apply keeps_disableHalf | with_reducible apply keeps_ite
    | with_reducible refine keeps_foldl_half (fun s0 k0 => ?_) (fun s0 k0 => ?_) _ ?_
    | (fail_if_no_progress with_reducible refine keeps_mk ?_ rfl rfl rfl rfl rfl rfl rfl rfl rfl rfl rfl rfl rfl rfl rfl rfl rfl rfl rfl)


theorem keeps_nextCycle {s : State} (hs : s.sound) : (nextCycle s).sound := by
  unfold nextCycle
  dsimp only
  refine keeps_foldl (fun s0 h k0 => ?_) _ (keeps_mk hs rfl rfl rfl rfl rfl rfl rfl rfl rfl rfl rfl rfl rfl rfl rfl rfl rfl rfl rfl )
  refine keeps_ite k0 ?_
  cases (twoGet s0.bus.chans h).st <;>
    first
    | exact k0
    | exact keeps_ite (keeps_modChan k0) k0
    | exact keeps_ite (keeps_raiseEv (keeps_modChan k0)) (keeps_modChan k0)

theorem keeps_latchAnchors {s : State} (hs : s.sound) : (latchAnchors s).sound := by
  unfold latchAnchors
  try dsimp only
  repeat' first
    | with_reducible assumption
    | (fail_if_no_progress with_reducible refine keeps_mk ?_ rfl rfl rfl rfl rfl rfl rfl rfl rfl rfl rfl rfl rfl rfl rfl rfl rfl rfl rfl)


theorem keeps_swapBuffers {s : State} (hs : s.sound) : (swapBuffers s).sound := by
  unfold swapBuffers
  try dsimp only
  repeat' first
    | with_reducible assumption | with_reducible exact quiet_swap rfl rfl rfl
    | dsimp only [twoMod, twoPut, twoGet, twoMap] | split
    | (fail_if_no_progress with_reducible refine keeps_mk2 ?_ rfl rfl rfl rfl rfl rfl rfl rfl rfl rfl rfl ?_ ?_)


theorem keeps_inputPhase {s : State} (hs : s.sound) : (inputPhase s).sound := by
  unfold inputPhase
  try dsimp only
  repeat' first
    | with_reducible assumption | with_reducible apply keeps_raiseEv
    | with_reducible refine keeps_foldl_half (fun s0 k0 => ?_) (fun s0 k0 => ?_) _ ?_
    | with_reducible refine keeps_foldl (fun s0 a0 k0 => ?_) _ ?_
    | (fail_if_no_progress with_reducible refine keeps_mk ?_ rfl rfl rfl rfl rfl rfl rfl rfl rfl rfl rfl rfl rfl rfl rfl rfl rfl rfl rfl)


theorem keeps_runVector {h : Half} {f : Option (Nat × Nat × Bool)} {s : State} (hs : s.sound) : (runVector h f s).sound := by
  unfold runVector
  try dsimp only
  repeat' first
    | with_reducible assumption | with_reducible apply keeps_disableHalf
    | (fail_if_no_progress with_reducible refine keeps_mk ?_ rfl rfl rfl rfl rfl rfl rfl rfl rfl rfl rfl rfl rfl rfl rfl rfl rfl rfl rfl)
    | dsimp only [twoMod, twoPut, twoGet, twoMap] | split


theorem keeps_noPermits {h : Half} {s : State} (hs : s.sound) : (noPermits h s).sound := keeps_txOf hs (fun _ => rfl)

theorem trestleOn_inServ {s : State} {h : Half} (e : trestleOn s h = true) : (twoGet s.halves h).inServ = true := by
  simp only [trestleOn, Bool.and_eq_true] at e
  exact e.1

theorem keeps_evaluationPhase {i : HeadIn} {s : State} (hs : s.sound) : (evaluationPhase i s).sound := by
  unfold evaluationPhase
  refine keeps_foldl (fun s0 h k0 => ?_) _ hs
  dsimp only
  refine keeps_ite (keeps_noPermits k0) (keeps_ite (keeps_disableHalf (keeps_mk k0 rfl rfl rfl rfl rfl rfl rfl rfl rfl rfl rfl rfl rfl rfl rfl rfl rfl rfl rfl )) ?_)
  have k1 := keeps_runVector (h := h) (f := (halfIn i h).vector) k0
  generalize runVector h (halfIn i h).vector s0 = t at k1 ⊢
  split
  · exact k1
  · rename_i e
    have k2 := keeps_evaluate (clear := clearBit t) (trestleOn_inServ (by simpa using e)) k1
    exact keeps_ite (keeps_disableHalf k2) (keeps_ite k2 (keeps_noPermits k2))

theorem foldl_keeps {α : Type} {P : State → Prop} {f : State → α → State} (hf : ∀ s a, P s → P (f s a)) (l : List α) :
    ∀ {s : State}, P s → P (l.foldl f s) := by
  induction l with
  | nil => intro s h; exact h
  | cons a t ih => intro s h; exact ih (hf s a h)

theorem txStamp_halves {h : Half} {sel slot : Nat} {t : Int} {s : State} : (txStamp h sel slot t s).halves = s.halves := by
  unfold txStamp stamp
  dsimp only
  split
  · rfl
  · split
    · rfl
    · split <;> rfl

/-- Sound, with a half in service. -/
def soundOn (h : Half) (s : State) : Prop := s.sound ∧ (twoGet s.halves h).inServ = true

theorem soundOn_txStamp {h : Half} {sel slot : Nat} {t : Int} {s : State} (k : soundOn h s) : soundOn h (txStamp h sel slot t s) :=
  ⟨keeps_txStamp k.1, by rw [txStamp_halves]; exact k.2⟩

theorem soundOn_tx {h : Half} {g : TxSt → TxSt} {s : State} (k : soundOn h s) : soundOn h { s with tx := twoMod s.tx h g } :=
  ⟨keeps_txOf k.1 (fun e => absurd (k.2.symm.trans e) (by decide)), k.2⟩

theorem soundOn_sendTables {h : Half} {port : Nat} {s : State} (hs : soundOn h s) : soundOn h (sendTables h port s) := by
  unfold sendTables
  refine foldl_keeps (fun t r k => ?_) _ hs
  split
  · exact k
  · exact soundOn_txStamp (soundOn_tx (g := fun t => _) ⟨keeps_modPort k.1, k.2⟩)

theorem keeps_sendHalf {acks : List (Nat × List Nat)} {h : Half} {s : State} (hs : s.sound) : (sendHalf acks h s).sound := by
  unfold sendHalf
  dsimp only
  split
  · exact keeps_txOf (g := fun t => { t with cmds := [], sync := none, tables := [], acks := [], delayReqs := [] }) hs (fun _ => rfl)
  · rename_i e
    have e1 : (twoGet s.halves h).inServ = true := by
      cases q : (twoGet s.halves h).inServ <;> simp_all
    have k : ∀ x, soundOn h { s with tx := twoPut s.tx h x } := fun x => soundOn_tx (g := fun _ => x) ⟨hs, e1⟩
    refine (foldl_keeps (P := soundOn h) (fun t r k => ?_) _ (foldl_keeps (P := soundOn h) (fun t r k => soundOn_txStamp k) _
      (foldl_keeps (P := soundOn h) (fun t r k => soundOn_txStamp k) _ (foldl_keeps (P := soundOn h) (fun t r k => soundOn_txStamp k) _
        (soundOn_txStamp (k _)))))).1
    split
    · exact soundOn_sendTables k
    · exact k

theorem keeps_sendClear {h : Half} {neighbour toward : Nat} {s : State} (hs : s.sound) : (sendClear h neighbour toward s).sound := by
  unfold sendClear
  try dsimp only
  repeat' first
    | with_reducible assumption | with_reducible apply keeps_nextSeq | with_reducible apply keeps_sendEnvelope


theorem keeps_clearAheadPhase {s : State} (hs : s.sound) : (clearAheadPhase s).sound := by
  unfold clearAheadPhase
  refine keeps_foldl (fun s0 h k0 => ?_) _ hs
  dsimp only
  split
  · exact k0
  · rename_i e
    have e1 : trestleOn s0 h = true := by
      cases q : trestleOn s0 h <;> simp_all
    refine keeps_foldl (fun s1 n k1 => keeps_foldl (fun s2 m k2 => keeps_sendClear k2) _ k1) _ ?_
    exact keeps_txOf k0 (fun c => absurd ((trestleOn_inServ e1).symm.trans c) (by decide))

theorem keeps_sendReserve {pair : Nat} {m : ReserveMsg} {s : State} (hs : s.sound) : (sendReserve pair m s).sound := by
  unfold sendReserve
  try dsimp only
  repeat' first
    | with_reducible assumption | with_reducible apply keeps_sendLane | with_reducible apply keeps_ite
    | with_reducible refine keeps_foldl (fun s0 a0 k0 => ?_) _ ?_


theorem keeps_sendCancels {pair : Nat} {s : State} (hs : s.sound) : (sendCancels pair s).sound := by
  unfold sendCancels
  try dsimp only
  repeat' first
    | with_reducible assumption | with_reducible apply keeps_sendLane
    | with_reducible refine keeps_foldl (fun s0 a0 k0 => ?_) _ ?_
    | (fail_if_no_progress with_reducible refine keeps_mk ?_ rfl rfl rfl rfl rfl rfl rfl rfl rfl rfl rfl rfl rfl rfl rfl rfl rfl rfl rfl)


theorem keeps_heartbeatPhase {v : VotedImage} {b : CascBlock} {pair : Nat} {s : State} (hs : s.sound) : (heartbeatPhase v b pair s).sound := by
  unfold heartbeatPhase
  try dsimp only
  repeat' first
    | with_reducible assumption | with_reducible apply keeps_txStamp | with_reducible apply keeps_sendLane
    | with_reducible apply keeps_ite | with_reducible refine keeps_foldl_half (fun s0 k0 => ?_) (fun s0 k0 => ?_) _ ?_
    | with_reducible refine keeps_foldl (fun s0 a0 k0 => ?_) _ ?_


theorem keeps_reservePhase {v : VotedImage} {b : CascBlock} {pair : Nat} {s : State} (hs : s.sound) : (reservePhase v b pair s).sound := by
  unfold reservePhase
  refine keeps_ite hs ?_
  have k : (b.reserves.foldl (fun s m => sendReserve pair m s) (sendCancels pair s)).sound :=
    keeps_foldl (fun s0 m k0 => keeps_sendReserve k0) _ (keeps_sendCancels hs)
  generalize b.reserves.foldl (fun s m => sendReserve pair m s) (sendCancels pair s) = t at k ⊢
  dsimp only
  refine keeps_ite ?_ k
  cases ownBenchmark t v.num with
  | none => exact k
  | some d => exact keeps_sendLane k

theorem keeps_cascadePhase {s : State} (hs : s.sound) : (cascadePhase s).sound := by
  unfold cascadePhase
  try dsimp only
  repeat' first
    | with_reducible assumption | with_reducible apply keeps_reservePhase | with_reducible apply keeps_heartbeatPhase
    | split


theorem keeps_recordHeartbeats {s : State} (hs : s.sound) : (recordHeartbeats s).sound := by
  unfold recordHeartbeats
  try dsimp only
  repeat' first
    | with_reducible assumption | with_reducible apply keeps_modPairLink | with_reducible apply keeps_ite


theorem keeps_offsetCorrection {h : Half} {s : State} (hs : s.sound) : (offsetCorrection h s).sound := by
  unfold offsetCorrection
  try dsimp only
  repeat' first
    | with_reducible assumption | with_reducible apply keeps_modChan | with_reducible apply keeps_disableHalf
    | with_reducible apply keeps_ite


theorem keeps_frameCuts {h : Half} {cuts : List Nat} {s : State} (hs : s.sound) : (frameCuts h cuts s).sound := by
  unfold frameCuts
  try dsimp only
  repeat' first
    | with_reducible assumption | with_reducible apply keeps_modPort | with_reducible apply keeps_raiseEv
    | with_reducible apply keeps_ite | with_reducible refine keeps_foldl (fun s0 a0 k0 => ?_) _ ?_


theorem keeps_samplePins {i : HeadIn} {s : State} (hs : s.sound) : (samplePins i s).sound := by
  unfold samplePins
  try dsimp only
  repeat' first
    | with_reducible assumption | with_reducible apply keeps_sampleHalf | with_reducible apply keeps_sampleReset
    | with_reducible apply keeps_sampleNi | with_reducible apply keeps_ite
    | with_reducible refine keeps_foldl_half (fun s0 k0 => ?_) (fun s0 k0 => ?_) _ ?_
    | (fail_if_no_progress with_reducible refine keeps_mk ?_ rfl rfl rfl rfl rfl rfl rfl rfl rfl rfl rfl rfl rfl rfl rfl rfl rfl rfl rfl)


theorem keeps_clearCycle {s : State} (hs : s.sound) : (clearCycle s).sound := by
  unfold clearCycle
  try dsimp only
  repeat' first
    | with_reducible assumption
    | (fail_if_no_progress with_reducible refine keeps_mk ?_ rfl rfl rfl rfl rfl rfl rfl rfl rfl rfl rfl rfl rfl rfl rfl rfl rfl rfl rfl)


theorem keeps_afterHead {i : HeadIn} {s : State} (hs : s.sound) : (afterHead i s).sound := by
  unfold afterHead
  try dsimp only
  repeat' first
    | with_reducible assumption | with_reducible apply keeps_driveNo | with_reducible apply keeps_localDecision
    | with_reducible apply keeps_compareHalves | with_reducible apply keeps_applyDue
    | with_reducible apply keeps_launchTimed | with_reducible apply keeps_ite


theorem keeps_silentHead {i : HeadIn} {s : State} (hs : s.sound) : (silentHead i s).sound := by
  refine keeps_afterHead (keeps_mk2 hs rfl rfl rfl rfl rfl rfl rfl rfl rfl rfl rfl (fun q e => ⟨(q e).1, (q e).2.1, ?_⟩) (fun q e => ⟨(q e).1, (q e).2.1, ?_⟩))
  · show { s.tx.a with cmds := [], permits := [], localPermit := [], sync := none, tables := [], acks := [], delayReqs := [], clearAhead := [] } = TxSt.init
    rw [(q e).2.2]
    rfl
  · show { s.tx.b with cmds := [], permits := [], localPermit := [], sync := none, tables := [], acks := [], delayReqs := [], clearAhead := [] } = TxSt.init
    rw [(q e).2.2]
    rfl

theorem keeps_newBoundaryCycle {s : State} (hs : s.sound) : (newBoundaryCycle s).sound := by
  unfold newBoundaryCycle
  exact keeps_ite (keeps_mk hs rfl rfl rfl rfl rfl rfl rfl rfl rfl rfl rfl rfl rfl rfl rfl rfl rfl rfl rfl) hs

theorem keeps_vitalHead {i : HeadIn} {s : State} (hs : s.sound) : (vitalHead i s).sound := by
  unfold vitalHead
  try dsimp only
  repeat' first
    | with_reducible assumption | with_reducible apply keeps_latchAnchors | with_reducible apply keeps_nextCycle
    | with_reducible apply keeps_serveClaims | with_reducible apply keeps_swapBuffers
    | with_reducible apply keeps_inputPhase | with_reducible apply keeps_evaluationPhase
    | with_reducible apply keeps_newBoundaryCycle
    | with_reducible apply keeps_sendHalf | with_reducible apply keeps_clearAheadPhase
    | with_reducible apply keeps_cascadePhase | with_reducible apply keeps_recordHeartbeats
    | with_reducible apply keeps_frameCuts | with_reducible apply keeps_offsetCorrection
    | with_reducible apply keeps_afterHead | with_reducible apply keeps_ite
    | with_reducible refine keeps_foldl_half (fun s0 k0 => ?_) (fun s0 k0 => ?_) _ ?_
    | (fail_if_no_progress with_reducible refine keeps_mk ?_ rfl rfl rfl rfl rfl rfl rfl rfl rfl rfl rfl rfl rfl rfl rfl rfl rfl rfl rfl)


theorem keeps_busCycleStart {i : HeadIn} {s : State} (hs : s.sound) : (busCycleStart i s).sound := by
  unfold busCycleStart
  try dsimp only
  repeat' first
    | with_reducible assumption | with_reducible apply keeps_passTime | with_reducible apply keeps_recordStorage
    | with_reducible apply keeps_endOverrun | with_reducible apply keeps_samplePins
    | with_reducible apply keeps_clearCycle | with_reducible apply keeps_vitalHead
    | with_reducible apply keeps_silentHead | with_reducible apply keeps_ite


end Sys2Proof.Laws
end

