-- ==== Sys2Proof/Laws/KeepsTick.lean ====
section
/-! SUPPORT. Each operation of Machine/Tick keeps the invariant `State.sound`. -/

namespace Sys2Proof.Laws

open Sys2Proof Sys2Proof.Machine

theorem keeps_countShadows {s : State} (hs : s.sound) : (countShadows s).sound := by
  unfold countShadows
  try dsimp only
  repeat' first
    | with_reducible assumption
    | (fail_if_no_progress with_reducible refine keeps_mk ?_ rfl rfl rfl rfl rfl rfl rfl rfl rfl rfl rfl rfl rfl rfl rfl rfl rfl rfl rfl)


theorem keeps_newProgramCycle {s : State} (hs : s.sound) : (newProgramCycle s).sound := by
  obtain ⟨h1, ⟨h2, h3⟩, h4⟩ := hs
  refine ⟨h1, ⟨fun q hq => ?_, h3⟩, h4⟩
  simp only [newProgramCycle, tabMap, List.mem_map] at hq
  obtain ⟨p, hp, rfl⟩ := hq
  exact h2 p hp

theorem keeps_latchImage {t : TickIn} {s : State} (hs : s.sound) : (latchImage t s).sound := by
  obtain ⟨h1, ⟨h2, h3, h4⟩, h5⟩ := hs
  refine ⟨h1, ⟨h2, fun q hq => ?_, h4⟩, h5⟩
  simp only [latchImage, leftQueues, tabMap, List.mem_map] at hq
  obtain ⟨p, hp, rfl⟩ := hq
  exact le_trans (List.length_filter_le _ _) (h3 p hp)

theorem keeps_reportControllers {s : State} (hs : s.sound) : (reportControllers s).sound := by
  unfold reportControllers
  try dsimp only
  repeat' first
    | with_reducible assumption | with_reducible apply keeps_envEvent | with_reducible apply keeps_ite
    | with_reducible refine keeps_foldl (fun s0 a0 k0 => ?_) _ ?_
    | (fail_if_no_progress with_reducible refine keeps_mk ?_ rfl rfl rfl rfl rfl rfl rfl rfl rfl rfl rfl rfl rfl rfl rfl rfl rfl rfl rfl)


theorem keeps_judgeHeartbeats {s : State} (hs : s.sound) : (judgeHeartbeats s).sound := by
  unfold judgeHeartbeats
  try dsimp only
  repeat' first
    | with_reducible assumption | with_reducible apply keeps_modPairLink | with_reducible apply keeps_raiseEv
    | with_reducible apply keeps_ite


theorem keeps_judgeEpochs {s : State} (hs : s.sound) : (judgeEpochs s).sound := by
  unfold judgeEpochs
  try dsimp only
  repeat' first
    | with_reducible assumption | with_reducible apply keeps_modPairLink | with_reducible apply keeps_depose
    | with_reducible apply keeps_ite


theorem keeps_startEpoch {s : State} (hs : s.sound) : (startEpoch s).sound := by
  unfold startEpoch
  try dsimp only
  repeat' first
    | with_reducible assumption | with_reducible apply keeps_modPairLink | with_reducible apply keeps_ite
    | (fail_if_no_progress with_reducible refine keeps_mk ?_ rfl rfl rfl rfl rfl rfl rfl rfl rfl rfl rfl rfl rfl rfl rfl rfl rfl rfl rfl)


theorem keeps_standbyTick {s : State} (hs : s.sound) : (standbyTick s).sound := by
  unfold standbyTick
  try dsimp only
  repeat' first
    | with_reducible assumption | with_reducible apply keeps_noteReady | with_reducible apply keeps_startResync
    | with_reducible apply keeps_ite
    | (fail_if_no_progress with_reducible refine keeps_mk ?_ rfl rfl rfl rfl rfl rfl rfl rfl rfl rfl rfl rfl rfl rfl rfl rfl rfl rfl rfl)


theorem keeps_confirmTick {given : Bool} {s : State} (hs : s.sound) : (confirmTick given s).sound := by
  unfold confirmTick
  try dsimp only
  repeat' first
    | with_reducible assumption | with_reducible apply keeps_raiseRec | with_reducible apply keeps_ite
    | (fail_if_no_progress with_reducible refine keeps_mk ?_ rfl rfl rfl rfl rfl rfl rfl rfl rfl rfl rfl rfl rfl rfl rfl rfl rfl rfl rfl)


theorem keeps_commissionTick {s : State} (hs : s.sound) : (commissionTick s).sound := by
  unfold commissionTick
  try dsimp only
  repeat' first
    | with_reducible assumption | with_reducible apply keeps_decideHandover | with_reducible apply keeps_raiseAt
    | with_reducible apply keeps_ite
    | (fail_if_no_progress with_reducible refine keeps_mk ?_ rfl rfl rfl rfl rfl rfl rfl rfl rfl rfl rfl rfl rfl rfl rfl rfl rfl rfl rfl)


theorem keeps_runTick {t : TickIn} {s : State} (hs : s.sound) : (runTick t s).sound := by
  unfold runTick
  try dsimp only
  repeat' first
    | with_reducible assumption | with_reducible apply keeps_runLanes | with_reducible apply keeps_ite


theorem keeps_imageTick {t : TickIn} {s : State} (hs : s.sound) : (imageTick t s).sound := by
  unfold imageTick
  try dsimp only
  repeat' first
    | with_reducible assumption | with_reducible apply keeps_newProgramCycle | with_reducible apply keeps_countShadows
    | with_reducible apply keeps_modPairLink | with_reducible apply keeps_latchImage
    | with_reducible apply keeps_applyRequests | with_reducible apply keeps_judgeEpochs
    | with_reducible apply keeps_judgeHeartbeats | with_reducible apply keeps_reportControllers
    | with_reducible apply keeps_startEpoch | with_reducible apply keeps_runTick
    | with_reducible apply keeps_commissionTick | with_reducible apply keeps_confirmTick
    | with_reducible apply keeps_applyDue | with_reducible apply keeps_standbyTick
    | (fail_if_no_progress with_reducible refine keeps_mk ?_ rfl rfl rfl rfl rfl rfl rfl rfl rfl rfl rfl rfl rfl rfl rfl rfl rfl rfl rfl)


theorem keeps_programCycleTick {t : TickIn} {s : State} (hs : s.sound) : (programCycleTick t s).sound := by
  unfold programCycleTick
  try dsimp only
  repeat' first
    | with_reducible assumption | with_reducible apply keeps_imageTick | with_reducible apply keeps_applyDue
    | with_reducible apply keeps_applyRequests | with_reducible apply keeps_ite
    | (fail_if_no_progress with_reducible refine keeps_mk ?_ rfl rfl rfl rfl rfl rfl rfl rfl rfl rfl rfl rfl rfl rfl rfl rfl rfl rfl rfl)


end Sys2Proof.Laws
end

