-- ==== Sys2Proof/Laws/KeepsRows.lean ====
section
/-! SUPPORT. Each command keeps the invariant `State.sound`. -/

namespace Sys2Proof.Laws

open Sys2Proof Sys2Proof.Machine

theorem keeps_execSetRoute {q : Req} {s : State} (hs : s.sound) : soundAfter (execSetRoute q s) := by
  unfold execSetRoute
  try dsimp only
  repeat' first
    | with_reducible apply soundAfter_next | with_reducible assumption | with_reducible apply keeps_laneRow


theorem keeps_execCancelRoute {q : Req} {s : State} (hs : s.sound) : soundAfter (execCancelRoute q s) := by
  unfold execCancelRoute
  try dsimp only
  repeat' first
    | with_reducible apply soundAfter_next | with_reducible assumption | with_reducible apply keeps_laneRow


theorem keeps_execEmergencyCancel {q : Req} {s : State} (hs : s.sound) : soundAfter (execEmergencyCancel q s) := by
  unfold execEmergencyCancel
  try dsimp only
  repeat' first
    | with_reducible apply soundAfter_next | with_reducible assumption | with_reducible apply keeps_laneRow


theorem keeps_execPointMove {q : Req} {s : State} (hs : s.sound) : soundAfter (execPointMove q s) := by
  unfold execPointMove
  try dsimp only
  repeat' first
    | with_reducible apply soundAfter_next | with_reducible assumption | with_reducible apply keeps_laneRow


theorem keeps_execHoldExpired {port tag : Nat} {s : State} (hs : s.sound) : soundAfter (execHoldExpired port tag s) := by
  unfold execHoldExpired
  try dsimp only
  repeat' first
    | with_reducible apply soundAfter_next | with_reducible assumption | with_reducible apply keeps_laneRow


theorem keeps_execThrowTimeout {point : Nat} {s : State} (hs : s.sound) : soundAfter (execThrowTimeout point s) := by
  unfold execThrowTimeout
  try dsimp only
  repeat' first
    | with_reducible apply soundAfter_next | with_reducible assumption | with_reducible apply keeps_laneRow


theorem keeps_execLostCleared {point : Nat} {s : State} (hs : s.sound) : soundAfter (execLostCleared point s) := by
  unfold execLostCleared
  try dsimp only
  repeat' first
    | with_reducible apply soundAfter_next | with_reducible assumption | with_reducible apply keeps_laneRow


theorem keeps_execBoundaryConfirmationTimeout {route : Nat} {s : State} (hs : s.sound) : soundAfter (execBoundaryConfirmationTimeout route s) := by
  unfold execBoundaryConfirmationTimeout
  try dsimp only
  repeat' first
    | with_reducible apply soundAfter_next | with_reducible assumption | with_reducible apply keeps_laneRow


theorem keeps_execSignalNotProven {signal : Nat} {s : State} (hs : s.sound) : soundAfter (execSignalNotProven signal s) := by
  unfold execSignalNotProven
  try dsimp only
  repeat' first
    | with_reducible apply soundAfter_next | with_reducible assumption | with_reducible apply keeps_laneRow


theorem keeps_execSequenceRelease {route : Nat} {s : State} (hs : s.sound) : soundAfter (execSequenceRelease route s) := by
  unfold execSequenceRelease
  try dsimp only
  repeat' first
    | with_reducible apply soundAfter_next | with_reducible assumption | with_reducible apply keeps_laneRow


theorem keeps_execClearFor {route : Nat} {s : State} (hs : s.sound) : soundAfter (execClearFor route s) := by
  unfold execClearFor
  try dsimp only
  repeat' first
    | with_reducible apply soundAfter_next | with_reducible assumption | with_reducible apply keeps_laneRow


theorem keeps_execElapsedEvent {app : Bool} {owner : Nat} {s : State} (hs : s.sound) : soundAfter (execElapsedEvent app owner s) := by
  unfold execElapsedEvent
  try dsimp only
  repeat' first
    | with_reducible apply soundAfter_next | with_reducible assumption | with_reducible apply keeps_laneRow


theorem keeps_execReleaseByDistance {route : Nat} {s : State} (hs : s.sound) : soundAfter (execReleaseByDistance route s) := by
  unfold execReleaseByDistance
  try dsimp only
  repeat' first
    | with_reducible apply soundAfter_next | with_reducible assumption | with_reducible apply keeps_laneRow


theorem keeps_execGhostTimeout {sec : Nat} {s : State} (hs : s.sound) : soundAfter (execGhostTimeout sec s) := by
  unfold execGhostTimeout
  try dsimp only
  repeat' first
    | with_reducible apply soundAfter_next | with_reducible assumption | with_reducible apply keeps_laneRow


theorem keeps_execCrossingClosingTimeout {crossing : Nat} {s : State} (hs : s.sound) : soundAfter (execCrossingClosingTimeout crossing s) := by
  unfold execCrossingClosingTimeout
  try dsimp only
  repeat' first
    | with_reducible apply soundAfter_next | with_reducible assumption | with_reducible apply keeps_laneRow


theorem keeps_execCrossingOpenSlow {crossing : Nat} {s : State} (hs : s.sound) : soundAfter (execCrossingOpenSlow crossing s) := by
  unfold execCrossingOpenSlow
  try dsimp only
  repeat' first
    | with_reducible apply soundAfter_next | with_reducible assumption | with_reducible apply keeps_laneRow


theorem keeps_execCrossingRecovered {crossing : Nat} {s : State} (hs : s.sound) : soundAfter (execCrossingRecovered crossing s) := by
  unfold execCrossingRecovered
  try dsimp only
  repeat' first
    | with_reducible apply soundAfter_next | with_reducible assumption | with_reducible apply keeps_laneRow


theorem keeps_execKeyTimerExpiry {key : Bool} {num : Nat} {s : State} (hs : s.sound) : soundAfter (execKeyTimerExpiry key num s) := by
  unfold execKeyTimerExpiry
  try dsimp only
  repeat' first
    | with_reducible apply soundAfter_next | with_reducible assumption | with_reducible apply keeps_laneRow


theorem keeps_execEmergencyRelease {sess route : Nat} {s : State} (hs : s.sound) : soundAfter (execEmergencyRelease sess route s) := by
  unfold execEmergencyRelease
  try dsimp only
  repeat' first
    | with_reducible apply soundAfter_next | with_reducible assumption | with_reducible apply keeps_asLaneSession


theorem keeps_execEmergencyReleaseEndAll {sess : Nat} {s : State} (hs : s.sound) : soundAfter (execEmergencyReleaseEndAll sess s) := by
  unfold execEmergencyReleaseEndAll
  try dsimp only
  repeat' first
    | with_reducible apply soundAfter_next | with_reducible assumption | with_reducible apply keeps_asLaneSession


theorem keeps_execCarrierConfirmed {carrier : Nat} {s : State} (hs : s.sound) : soundAfter (execCarrierConfirmed carrier s) := by
  unfold execCarrierConfirmed
  try dsimp only
  repeat' first
    | with_reducible apply soundAfter_next | with_reducible assumption | with_reducible apply keeps_laneRow


theorem keeps_execCarrierVanished {carrier : Nat} {s : State} (hs : s.sound) : soundAfter (execCarrierVanished carrier s) := by
  unfold execCarrierVanished
  try dsimp only
  repeat' first
    | with_reducible apply soundAfter_next | with_reducible assumption | with_reducible apply keeps_laneRow


theorem keeps_execCarrierContradict {carrier : Nat} {s : State} (hs : s.sound) : soundAfter (execCarrierContradict carrier s) := by
  unfold execCarrierContradict
  try dsimp only
  repeat' first
    | with_reducible apply soundAfter_next | with_reducible assumption | with_reducible apply keeps_laneRow


theorem keeps_execLostSpanCleared {carrier : Nat} {s : State} (hs : s.sound) : soundAfter (execLostSpanCleared carrier s) := by
  unfold execLostSpanCleared
  try dsimp only
  repeat' first
    | with_reducible apply soundAfter_next | with_reducible assumption | with_reducible apply keeps_laneRow


theorem keeps_execStuckInput {port point : Nat} {s : State} (hs : s.sound) : soundAfter (execStuckInput port point s) := by
  unfold execStuckInput
  try dsimp only
  repeat' first
    | with_reducible apply soundAfter_next | with_reducible assumption | with_reducible apply keeps_laneRow


theorem keeps_execProgArm {sess : Nat} {s : State} (hs : s.sound) : soundAfter (execProgArm sess s) := by
  unfold execProgArm
  try dsimp only
  repeat' first
    | with_reducible apply soundAfter_next | with_reducible assumption | with_reducible apply keeps_progCommand


theorem keeps_execProgAbort {sess : Nat} {s : State} (hs : s.sound) : soundAfter (execProgAbort sess s) := by
  unfold execProgAbort
  try dsimp only
  repeat' first
    | with_reducible apply soundAfter_next | with_reducible assumption | with_reducible apply keeps_progCommand


theorem keeps_execProgStop {sess : Nat} {s : State} (hs : s.sound) : soundAfter (execProgStop sess s) := by
  unfold execProgStop
  try dsimp only
  repeat' first
    | with_reducible apply soundAfter_next | with_reducible assumption | with_reducible apply keeps_progCommand


theorem keeps_execProgStart {sess : Nat} {s : State} (hs : s.sound) : soundAfter (execProgStart sess s) := by
  unfold execProgStart
  try dsimp only
  repeat' first
    | with_reducible apply soundAfter_next | with_reducible assumption | with_reducible apply keeps_progCommand


theorem keeps_execVlTimerExpiry {ref : Nat} {s : State} (hs : s.sound) : soundAfter (execVlTimerExpiry ref s) := by
  unfold execVlTimerExpiry
  try dsimp only
  repeat' first
    | with_reducible apply soundAfter_next | with_reducible assumption | with_reducible apply keeps_laneRow


theorem keeps_execProgramFaulted {s : State} (hs : s.sound) : soundAfter (execProgramFaulted s) := by
  unfold execProgramFaulted
  try dsimp only
  repeat' first
    | with_reducible apply soundAfter_next | with_reducible assumption | with_reducible apply keeps_laneRow


theorem keeps_execOnlineChangeSwitch {s : State} (hs : s.sound) : soundAfter (execOnlineChangeSwitch s) := by
  unfold execOnlineChangeSwitch
  try dsimp only
  repeat' first
    | with_reducible apply soundAfter_next | with_reducible assumption | with_reducible apply keeps_onlineSwitch


theorem keeps_execVariableWrite {sess inst fld : Nat} {value : List Byte} {s : State} (hs : s.sound) : soundAfter (execVariableWrite sess inst fld value s) := by
  unfold execVariableWrite
  try dsimp only
  repeat' first
    | with_reducible apply soundAfter_next | with_reducible assumption | with_reducible apply keeps_asLaneSession
    | with_reducible apply keeps_withResult | with_reducible apply keeps_ite


theorem keeps_execForceSet {sess inst fld : Nat} {value : List Byte} {s : State} (hs : s.sound) : soundAfter (execForceSet sess inst fld value s) := by
  unfold execForceSet
  try dsimp only
  repeat' first
    | with_reducible apply soundAfter_next | with_reducible assumption | with_reducible apply keeps_asLaneSession


theorem keeps_execForceRemove {sess inst fld : Nat} {s : State} (hs : s.sound) : soundAfter (execForceRemove sess inst fld s) := by
  unfold execForceRemove
  try dsimp only
  repeat' first
    | with_reducible apply soundAfter_next | with_reducible assumption | with_reducible apply keeps_asLaneSession


theorem keeps_execForceRemoveAll {sess : Nat} {s : State} (hs : s.sound) : soundAfter (execForceRemoveAll sess s) := by
  unfold execForceRemoveAll
  try dsimp only
  repeat' first
    | with_reducible apply soundAfter_next | with_reducible assumption | with_reducible apply keeps_asLaneSession


theorem keeps_execOutputImage {l : Lane} {h : Half} {img : Option OutputImage} {s : State} (hs : s.sound) : soundAfter (execOutputImage l h img s) := by
  unfold execOutputImage
  try dsimp only
  repeat' first
    | with_reducible apply soundAfter_next | with_reducible assumption | with_reducible apply keeps_outputArrives


theorem keeps_execBenchmarkMsg {l : Lane} {h : Half} {dig : Option (List Byte)} {s : State} (hs : s.sound) : soundAfter (execBenchmarkMsg l h dig s) := by
  unfold execBenchmarkMsg
  try dsimp only
  repeat' first
    | with_reducible apply soundAfter_next | with_reducible assumption | with_reducible apply keeps_benchArrives


theorem keeps_execComparatorLinkMessage {passA passB : Bool} {s : State} (hs : s.sound) : soundAfter (execComparatorLinkMessage passA passB s) := by
  unfold execComparatorLinkMessage
  try dsimp only
  repeat' first
    | with_reducible apply soundAfter_next | with_reducible assumption | with_reducible apply keeps_linkMessage


theorem keeps_execVoteDeadline {h : Half} {s : State} (hs : s.sound) : soundAfter (execVoteDeadline h s) := by
  unfold execVoteDeadline
  try dsimp only
  repeat' first
    | with_reducible apply soundAfter_next | with_reducible assumption | with_reducible apply keeps_settleBench
    | with_reducible apply keeps_decideBench | with_reducible apply keeps_voteHalf


theorem keeps_execLateExclusion {l : Lane} {s : State} (hs : s.sound) : soundAfter (execLateExclusion l s) := by
  unfold execLateExclusion
  try dsimp only
  repeat' first
    | with_reducible apply soundAfter_next | with_reducible assumption | with_reducible apply keeps_lateExclusion


theorem keeps_execMemoryError {l : Lane} {addr : Nat} {s : State} (hs : s.sound) : soundAfter (execMemoryError l addr s) := by
  unfold execMemoryError
  try dsimp only
  repeat' first
    | with_reducible apply soundAfter_next | with_reducible assumption | with_reducible apply keeps_excludeLane


theorem keeps_execLaneClockFault {l : Lane} {s : State} (hs : s.sound) : soundAfter (execLaneClockFault l s) := by
  unfold execLaneClockFault
  try dsimp only
  repeat' first
    | with_reducible apply soundAfter_next | with_reducible assumption | with_reducible apply keeps_excludeLane


theorem keeps_execLaneSupplyFault {l : Lane} {s : State} (hs : s.sound) : soundAfter (execLaneSupplyFault l s) := by
  unfold execLaneSupplyFault
  try dsimp only
  repeat' first
    | with_reducible apply soundAfter_next | with_reducible assumption | with_reducible apply keeps_excludeLane


theorem keeps_execRejoinStart {l : Lane} {s : State} (hs : s.sound) : soundAfter (execRejoinStart l s) := by
  unfold execRejoinStart
  try dsimp only
  repeat' first
    | with_reducible apply soundAfter_next | with_reducible assumption | with_reducible apply keeps_rejoinStart


theorem keeps_execBootingDone {l : Lane} {fw data mem : Bool} {s : State} (hs : s.sound) : soundAfter (execBootingDone l fw data mem s) := by
  unfold execBootingDone
  try dsimp only
  repeat' first
    | with_reducible apply soundAfter_next | with_reducible assumption | with_reducible apply keeps_bootingDone


theorem keeps_execCopyRoundEnd {l : Lane} {pages : Nat} {canStream : Bool} {s : State} (hs : s.sound) : soundAfter (execCopyRoundEnd l pages canStream s) := by
  unfold execCopyRoundEnd
  try dsimp only
  repeat' first
    | with_reducible apply soundAfter_next | with_reducible assumption | with_reducible apply keeps_copyRoundEnd


theorem keeps_execFinalRoundReceived {l : Lane} {s : State} (hs : s.sound) : soundAfter (execFinalRoundReceived l s) := by
  unfold execFinalRoundReceived
  try dsimp only
  repeat' first
    | with_reducible apply soundAfter_next | with_reducible assumption | with_reducible apply keeps_finalRound


theorem keeps_execLaneEntersVote {l : Lane} {s : State} (hs : s.sound) : soundAfter (execLaneEntersVote l s) := by
  unfold execLaneEntersVote
  try dsimp only
  repeat' first
    | with_reducible apply soundAfter_next | with_reducible assumption | with_reducible apply keeps_laneEnters


theorem keeps_execRejoinTimeout {l : Lane} {s : State} (hs : s.sound) : soundAfter (execRejoinTimeout l s) := by
  unfold execRejoinTimeout
  try dsimp only
  repeat' first
    | with_reducible apply soundAfter_next | with_reducible assumption | with_reducible apply keeps_failRejoin
    | with_reducible apply keeps_ite


theorem keeps_execWithdrawLane {sess : Nat} {l : Lane} {s : State} (hs : s.sound) : soundAfter (execWithdrawLane sess l s) := by
  unfold execWithdrawLane
  try dsimp only
  repeat' first
    | with_reducible apply soundAfter_next | with_reducible assumption | with_reducible apply keeps_asSession
    | with_reducible apply keeps_withdrawFn


theorem keeps_execReturnLane {sess : Nat} {l : Lane} {s : State} (hs : s.sound) : soundAfter (execReturnLane sess l s) := by
  unfold execReturnLane
  try dsimp only
  repeat' first
    | with_reducible apply soundAfter_next | with_reducible assumption | with_reducible apply keeps_asSession
    | with_reducible apply keeps_returnFn


theorem keeps_execCancelWithdrawal {sess : Nat} {s : State} (hs : s.sound) : soundAfter (execCancelWithdrawal sess s) := by
  unfold execCancelWithdrawal
  try dsimp only
  repeat' first
    | with_reducible apply soundAfter_next | with_reducible assumption | with_reducible apply keeps_asSession
    | with_reducible apply keeps_cancelFn


theorem keeps_execWithdrawalTakesEffect {s : State} (hs : s.sound) : soundAfter (execWithdrawalTakesEffect s) := by
  unfold execWithdrawalTakesEffect
  try dsimp only
  repeat' first
    | with_reducible apply soundAfter_next | with_reducible assumption | with_reducible apply keeps_withdrawalEffect


theorem keeps_execEnterCommissioning {sess : Nat} {s : State} (hs : s.sound) : soundAfter (execEnterCommissioning sess s) := by
  unfold execEnterCommissioning
  try dsimp only
  repeat' first
    | with_reducible apply soundAfter_next | with_reducible assumption | with_reducible apply keeps_asSession
    | with_reducible apply keeps_enterFn


theorem keeps_execLeaveCommissioning {sess : Nat} {s : State} (hs : s.sound) : soundAfter (execLeaveCommissioning sess s) := by
  unfold execLeaveCommissioning
  try dsimp only
  repeat' first
    | with_reducible apply soundAfter_next | with_reducible assumption | with_reducible apply keeps_asSession
    | with_reducible apply keeps_leaveFn


theorem keeps_execDebugHalt {core : Nat} {s : State} (hs : s.sound) : soundAfter (execDebugHalt core s) := by
  unfold execDebugHalt
  try dsimp only
  repeat' first
    | with_reducible apply soundAfter_next | with_reducible assumption | with_reducible apply keeps_debugAct
    | with_reducible apply keeps_journal | with_reducible intro s0 k0


theorem keeps_execBreakpointHit {core count : Nat} {s : State} (hs : s.sound) : soundAfter (execBreakpointHit core count s) := by
  unfold execBreakpointHit
  try dsimp only
  repeat' first
    | with_reducible apply soundAfter_next | with_reducible assumption | with_reducible apply keeps_debugAct
    | with_reducible apply keeps_journal | with_reducible intro s0 k0


theorem keeps_execDebugResume {core : Nat} {s : State} (hs : s.sound) : soundAfter (execDebugResume core s) := by
  unfold execDebugResume
  try dsimp only
  repeat' first
    | with_reducible apply soundAfter_next | with_reducible assumption | with_reducible apply keeps_debugAct
    | with_reducible apply keeps_journal | with_reducible intro s0 k0


theorem keeps_execDebugSingleStep {core : Nat} {s : State} (hs : s.sound) : soundAfter (execDebugSingleStep core s) := by
  unfold execDebugSingleStep
  try dsimp only
  repeat' first
    | with_reducible apply soundAfter_next | with_reducible assumption | with_reducible apply keeps_debugAct
    | with_reducible apply keeps_journal
    | (fail_if_no_progress with_reducible refine keeps_mk ?_ rfl rfl rfl rfl rfl rfl rfl rfl rfl rfl rfl rfl rfl rfl rfl rfl rfl rfl rfl)
    | with_reducible intro s0 k0


theorem keeps_execDebugMemoryWrite {core addr : Nat} {data : List Byte} {s : State} (hs : s.sound) : soundAfter (execDebugMemoryWrite core addr data s) := by
  unfold execDebugMemoryWrite
  try dsimp only
  repeat' first
    | with_reducible apply soundAfter_next | with_reducible assumption | with_reducible apply keeps_debugAct
    | with_reducible apply keeps_journal | with_reducible apply keeps_ite | with_reducible intro s0 k0


theorem keeps_execDebugRegisterWrite {core reg : Nat} {data : List Byte} {s : State} (hs : s.sound) : soundAfter (execDebugRegisterWrite core reg data s) := by
  unfold execDebugRegisterWrite
  try dsimp only
  repeat' first
    | with_reducible apply soundAfter_next | with_reducible assumption | with_reducible apply keeps_debugAct
    | with_reducible apply keeps_journal | with_reducible apply keeps_ite | with_reducible intro s0 k0


theorem keeps_execInstructionCountPublish {counts : List Nat} {s : State} (hs : s.sound) : soundAfter (execInstructionCountPublish counts s) := by
  unfold execInstructionCountPublish
  try dsimp only
  repeat' first
    | with_reducible apply soundAfter_next | with_reducible assumption | with_reducible apply keeps_ite
    | (fail_if_no_progress with_reducible refine keeps_mk ?_ rfl rfl rfl rfl rfl rfl rfl rfl rfl rfl rfl rfl rfl rfl rfl rfl rfl rfl rfl)


theorem keeps_execJournalEntryApply {l : Lane} {core : Nat} {s : State} (hs : s.sound) : soundAfter (execJournalEntryApply l core s) := by
  unfold execJournalEntryApply
  try dsimp only
  repeat' first
    | with_reducible apply soundAfter_next | with_reducible assumption | with_reducible apply keeps_journalApply


theorem keeps_execCommissioningKeyInactive {s : State} (hs : s.sound) : soundAfter (execCommissioningKeyInactive s) := by
  unfold execCommissioningKeyInactive
  try dsimp only
  repeat' first
    | with_reducible apply soundAfter_next | with_reducible assumption | with_reducible apply keeps_keyInactive


theorem keeps_execEvaluationOverrun {h : Half} {key : Nat} {s : State} (hs : s.sound) : soundAfter (execEvaluationOverrun h key s) := by
  unfold execEvaluationOverrun
  try dsimp only
  repeat' first
    | with_reducible apply soundAfter_next | with_reducible assumption | with_reducible apply keeps_evaluationOverrun


theorem keeps_execGraphScrub {h : Half} {mismatch : Bool} {s : State} (hs : s.sound) : soundAfter (execGraphScrub h mismatch s) := by
  unfold execGraphScrub
  try dsimp only
  repeat' first
    | with_reducible apply soundAfter_next | with_reducible assumption | with_reducible apply keeps_disableHalf
    | with_reducible apply keeps_ite


theorem keeps_execOutputWithheldLCycles {h : Half} {key : Nat} {s : State} (hs : s.sound) : soundAfter (execOutputWithheldLCycles h key s) := by
  unfold execOutputWithheldLCycles
  try dsimp only
  repeat' first
    | with_reducible apply soundAfter_next | with_reducible assumption | with_reducible apply keeps_withheldL


theorem keeps_execInputFrame {h : Half} {port : Nat} {f : Frame} {s : State} (hs : s.sound) : soundAfter (execInputFrame h port f s) := by
  unfold execInputFrame
  try dsimp only
  repeat' first
    | with_reducible apply soundAfter_next | with_reducible assumption | with_reducible apply keeps_inputFrame


theorem keeps_execIntegrateFrame {h : Half} {port : Nat} {f : Frame} {s : State} (hs : s.sound) : soundAfter (execIntegrateFrame h port f s) := by
  unfold execIntegrateFrame
  try dsimp only
  repeat' first
    | with_reducible apply soundAfter_next | with_reducible assumption | with_reducible apply keeps_integrateFrame


theorem keeps_execSyncFrame {h : Half} {port : Nat} {f : Frame} {at_ : Int} {s : State} (hs : s.sound) : soundAfter (execSyncFrame h port f at_ s) := by
  unfold execSyncFrame
  try dsimp only
  repeat' first
    | with_reducible apply soundAfter_next | with_reducible assumption | with_reducible apply keeps_syncFrame


theorem keeps_execColdStart {h : Half} {port : Nat} {f : Frame} {at_ : Int} {coll : Option Nat} {s : State} (hs : s.sound) : soundAfter (execColdStart h port f at_ coll s) := by
  unfold execColdStart
  try dsimp only
  repeat' first
    | with_reducible apply soundAfter_next | with_reducible assumption | with_reducible apply keeps_coldStart


theorem keeps_execListenTimeout {h : Half} {s : State} (hs : s.sound) : soundAfter (execListenTimeout h s) := by
  unfold execListenTimeout
  try dsimp only
  repeat' first
    | with_reducible apply soundAfter_next | with_reducible assumption | with_reducible apply keeps_listenTimeout


theorem keeps_execBackOffEnd {h : Half} {s : State} (hs : s.sound) : soundAfter (execBackOffEnd h s) := by
  unfold execBackOffEnd
  try dsimp only
  repeat' first
    | with_reducible apply soundAfter_next | with_reducible assumption | with_reducible apply keeps_backOffEnd


theorem keeps_execRateCorrection {h : Half} {s : State} (hs : s.sound) : soundAfter (execRateCorrection h s) := by
  unfold execRateCorrection
  try dsimp only
  repeat' first
    | with_reducible apply soundAfter_next | with_reducible assumption | with_reducible apply keeps_rateCorrection


theorem keeps_execWeakSynchronisation {h : Half} {s : State} (hs : s.sound) : soundAfter (execWeakSynchronisation h s) := by
  unfold execWeakSynchronisation
  try dsimp only
  repeat' first
    | with_reducible apply soundAfter_next | with_reducible assumption | with_reducible apply keeps_weakSync


theorem keeps_execCounterRecordWrite {h : Half} {s : State} (hs : s.sound) : soundAfter (execCounterRecordWrite h s) := by
  unfold execCounterRecordWrite
  try dsimp only
  repeat' first
    | with_reducible apply soundAfter_next | with_reducible assumption | with_reducible apply keeps_counterRecord


theorem keeps_execLinkUp {h : Half} {port : Nat} {s : State} (hs : s.sound) : soundAfter (execLinkUp h port s) := by
  unfold execLinkUp
  try dsimp only
  repeat' first
    | with_reducible apply soundAfter_next | with_reducible assumption | with_reducible apply keeps_linkUp


theorem keeps_execLinkDown {h : Half} {port : Nat} {s : State} (hs : s.sound) : soundAfter (execLinkDown h port s) := by
  unfold execLinkDown
  try dsimp only
  repeat' first
    | with_reducible apply soundAfter_next | with_reducible assumption | with_reducible apply keeps_linkDown


theorem keeps_execDelayResp {h : Half} {port : Nat} {f : Frame} {roundTrip : Nat} {s : State} (hs : s.sound) : soundAfter (execDelayResp h port f roundTrip s) := by
  unfold execDelayResp
  try dsimp only
  repeat' first
    | with_reducible apply soundAfter_next | with_reducible assumption | with_reducible apply keeps_delayResp


theorem keeps_execLinkDelayRemeasure {h : Half} {port : Nat} {s : State} (hs : s.sound) : soundAfter (execLinkDelayRemeasure h port s) := by
  unfold execLinkDelayRemeasure
  try dsimp only
  repeat' first
    | with_reducible apply soundAfter_next | with_reducible assumption | with_reducible apply keeps_remeasure
    | with_reducible apply keeps_ite


theorem keeps_execPortClose {sess : Nat} {h : Half} {port : Nat} {s : State} (hs : s.sound) : soundAfter (execPortClose sess h port s) := by
  unfold execPortClose
  try dsimp only
  repeat' first
    | with_reducible apply soundAfter_next | with_reducible assumption | with_reducible apply keeps_asSession
    | with_reducible apply keeps_portCommand


theorem keeps_execPortRelease {sess : Nat} {h : Half} {port : Nat} {s : State} (hs : s.sound) : soundAfter (execPortRelease sess h port s) := by
  unfold execPortRelease
  try dsimp only
  repeat' first
    | with_reducible apply soundAfter_next | with_reducible assumption | with_reducible apply keeps_asSession
    | with_reducible apply keeps_portCommand


theorem keeps_execMeasureLinkDelay {sess : Nat} {h : Half} {port : Nat} {s : State} (hs : s.sound) : soundAfter (execMeasureLinkDelay sess h port s) := by
  unfold execMeasureLinkDelay
  try dsimp only
  repeat' first
    | with_reducible apply soundAfter_next | with_reducible assumption | with_reducible apply keeps_asSession
    | with_reducible apply keeps_portCommand


theorem keeps_execPortClosedByCuts {h : Half} {port : Nat} {s : State} (hs : s.sound) : soundAfter (execPortClosedByCuts h port s) := by
  unfold execPortClosedByCuts
  try dsimp only
  repeat' first
    | with_reducible apply soundAfter_next | with_reducible assumption | with_reducible apply keeps_closedByCuts


theorem keeps_execPortTableResend {h : Half} {port : Nat} {s : State} (hs : s.sound) : soundAfter (execPortTableResend h port s) := by
  unfold execPortTableResend
  try dsimp only
  repeat' first
    | with_reducible apply soundAfter_next | with_reducible assumption | with_reducible apply keeps_portTableResend


theorem keeps_execClaimFrame {h : Half} {port : Nat} {f : Frame} {s : State} (hs : s.sound) : soundAfter (execClaimFrame h port f s) := by
  unfold execClaimFrame
  try dsimp only
  repeat' first
    | with_reducible apply soundAfter_next | with_reducible assumption | with_reducible apply keeps_claimFrame


theorem keeps_execModeRequest {sess n : Nat} {s : State} (hs : s.sound) : soundAfter (execModeRequest sess n s) := by
  unfold execModeRequest
  try dsimp only
  repeat' first
    | with_reducible apply soundAfter_next | with_reducible assumption | with_reducible apply keeps_withImage
    | with_reducible apply keeps_asSession | with_reducible apply keeps_modeRequestFn | with_reducible intro s0 k0
    | split


theorem keeps_execModeAbort {sess : Nat} {s : State} (hs : s.sound) : soundAfter (execModeAbort sess s) := by
  unfold execModeAbort
  try dsimp only
  repeat' first
    | with_reducible apply soundAfter_next | with_reducible assumption | with_reducible apply keeps_withImage
    | with_reducible apply keeps_asSession | with_reducible apply keeps_modeRequestFn | with_reducible intro s0 k0


theorem keeps_execCheckpointReached {s : State} (hs : s.sound) : soundAfter (execCheckpointReached s) := by
  unfold execCheckpointReached
  try dsimp only
  repeat' first
    | with_reducible apply soundAfter_next | with_reducible assumption | with_reducible apply keeps_checkpoint


theorem keeps_execModeSwitch {s : State} (hs : s.sound) : soundAfter (execModeSwitch s) := by
  unfold execModeSwitch
  try dsimp only
  repeat' first
    | with_reducible apply soundAfter_next | with_reducible assumption | with_reducible apply keeps_modeSwitch


theorem keeps_execInputSupervisionFault {h : Half} {n : Nat} {code : FCode} {tp cause : Nat} {s : State} (hs : s.sound) : soundAfter (execInputSupervisionFault h n code tp cause s) := by
  unfold execInputSupervisionFault
  try dsimp only
  repeat' first
    | with_reducible apply soundAfter_next | with_reducible assumption | with_reducible apply keeps_supervisionFault


theorem keeps_execDiscrepancy {h : Half} {n : Nat} {s : State} (hs : s.sound) : soundAfter (execDiscrepancy h n s) := by
  unfold execDiscrepancy
  try dsimp only
  repeat' first
    | with_reducible apply soundAfter_next | with_reducible assumption | with_reducible apply keeps_discrepancyRow


theorem keeps_execChattering {h : Half} {n : Nat} {s : State} (hs : s.sound) : soundAfter (execChattering h n s) := by
  unfold execChattering
  try dsimp only
  repeat' first
    | with_reducible apply soundAfter_next | with_reducible assumption | with_reducible apply keeps_chatteringRow


theorem keeps_execAcknowledgePairs {sess mask : Nat} {s : State} (hs : s.sound) : soundAfter (execAcknowledgePairs sess mask s) := by
  unfold execAcknowledgePairs
  try dsimp only
  repeat' first
    | with_reducible apply soundAfter_next | with_reducible assumption | with_reducible apply keeps_asSession
    | with_reducible apply keeps_ackPairsFn


theorem keeps_execAcknowledgeKey {sess : Nat} {s : State} (hs : s.sound) : soundAfter (execAcknowledgeKey sess s) := by
  unfold execAcknowledgeKey
  try dsimp only
  repeat' first
    | with_reducible apply soundAfter_next | with_reducible assumption | with_reducible apply keeps_asSession
    | with_reducible apply keeps_ackKeyFn


theorem keeps_execSwitchTest {n : Nat} {midU outU midL outL : Bool} {s : State} (hs : s.sound) : soundAfter (execSwitchTest n midU outU midL outL s) := by
  unfold execSwitchTest
  try dsimp only
  repeat' first
    | with_reducible apply soundAfter_next | with_reducible assumption | with_reducible apply keeps_switchTest


theorem keeps_execDarkTest {n : Nat} {low : Bool} {s : State} (hs : s.sound) : soundAfter (execDarkTest n low s) := by
  unfold execDarkTest
  try dsimp only
  repeat' first
    | with_reducible apply soundAfter_next | with_reducible assumption | with_reducible apply keeps_darkTest


theorem keeps_execOvercurrent {n : Nat} {s : State} (hs : s.sound) : soundAfter (execOvercurrent n s) := by
  unfold execOvercurrent
  try dsimp only
  repeat' first
    | with_reducible apply soundAfter_next | with_reducible assumption | with_reducible apply keeps_outputFault
    | with_reducible apply keeps_ite


theorem keeps_execStuckOn {n : Nat} {s : State} (hs : s.sound) : soundAfter (execStuckOn n s) := by
  unfold execStuckOn
  try dsimp only
  repeat' first
    | with_reducible apply soundAfter_next | with_reducible assumption | with_reducible apply keeps_outputFault
    | with_reducible apply keeps_ite


theorem keeps_execAcknowledgeOutputs {sess mask : Nat} {s : State} (hs : s.sound) : soundAfter (execAcknowledgeOutputs sess mask s) := by
  unfold execAcknowledgeOutputs
  try dsimp only
  repeat' first
    | with_reducible apply soundAfter_next | with_reducible assumption | with_reducible apply keeps_asSession
    | with_reducible apply keeps_ackOutputsFn


theorem keeps_execResetStuck {s : State} (hs : s.sound) : soundAfter (execResetStuck s) := by
  unfold execResetStuck
  try dsimp only
  repeat' first
    | with_reducible apply soundAfter_next | with_reducible assumption | with_reducible apply keeps_resetStuck


theorem keeps_execRstuckClear {s : State} (hs : s.sound) : soundAfter (execRstuckClear s) := by
  unfold execRstuckClear
  try dsimp only
  repeat' first
    | with_reducible apply soundAfter_next | with_reducible assumption | with_reducible apply keeps_rstuckClear


theorem keeps_execOffsetIncrement {sess : Nat} {o : Int} {s : State} (hs : s.sound) : soundAfter (execOffsetIncrement sess o s) := by
  unfold execOffsetIncrement
  try dsimp only
  repeat' first
    | with_reducible apply soundAfter_next | with_reducible assumption | with_reducible apply keeps_asSession
    | with_reducible apply keeps_corrReply | with_reducible apply keeps_offsetInc | with_reducible intro s0 k0


theorem keeps_execRateIncrement {sess : Nat} {r : Int} {s : State} (hs : s.sound) : soundAfter (execRateIncrement sess r s) := by
  unfold execRateIncrement
  try dsimp only
  repeat' first
    | with_reducible apply soundAfter_next | with_reducible assumption | with_reducible apply keeps_asSession
    | with_reducible apply keeps_corrReply | with_reducible apply keeps_rateInc | with_reducible intro s0 k0


theorem keeps_execTimeStep {sess : Nat} {ns : Int} {s : State} (hs : s.sound) : soundAfter (execTimeStep sess ns s) := by
  unfold execTimeStep
  try dsimp only
  repeat' first
    | with_reducible apply soundAfter_next | with_reducible assumption | with_reducible apply keeps_asSession
    | with_reducible apply keeps_corrReply | with_reducible apply keeps_stepTime | with_reducible intro s0 k0


theorem keeps_execAcknowledgeRefusal {sess : Nat} {s : State} (hs : s.sound) : soundAfter (execAcknowledgeRefusal sess s) := by
  unfold execAcknowledgeRefusal
  try dsimp only
  repeat' first
    | with_reducible apply soundAfter_next | with_reducible assumption | with_reducible apply keeps_asSession
    | with_reducible apply keeps_ackRefusalFn


theorem keeps_execTimeSourceLost {s : State} (hs : s.sound) : soundAfter (execTimeSourceLost s) := by
  unfold execTimeSourceLost
  try dsimp only
  repeat' first
    | with_reducible apply soundAfter_next | with_reducible assumption | with_reducible apply keeps_timeSourceLost


theorem keeps_execLeapSecond {s : State} (hs : s.sound) : soundAfter (execLeapSecond s) := by
  unfold execLeapSecond
  try dsimp only
  repeat' first
    | with_reducible apply soundAfter_next | with_reducible assumption | with_reducible apply keeps_leapRow


theorem keeps_execAnnounceMsg {domain : Nat} {m : Master} {s : State} (hs : s.sound) : soundAfter (execAnnounceMsg domain m s) := by
  unfold execAnnounceMsg
  try dsimp only
  repeat' first
    | with_reducible apply soundAfter_next | with_reducible assumption | with_reducible apply keeps_announce


theorem keeps_execAnnounceTimeout {sender : Nat} {s : State} (hs : s.sound) : soundAfter (execAnnounceTimeout sender s) := by
  unfold execAnnounceTimeout
  try dsimp only
  repeat' first
    | with_reducible apply soundAfter_next | with_reducible assumption | with_reducible apply keeps_announceTimeout


theorem keeps_execPtpSync {m : PtpMsg} {dt : Nat} {s : State} (hs : s.sound) : soundAfter (execPtpSync m dt s) := by
  unfold execPtpSync
  try dsimp only
  repeat' first
    | with_reducible apply soundAfter_next | with_reducible assumption | with_reducible apply keeps_ptpSync


theorem keeps_execFollowUp {m : PtpMsg} {s : State} (hs : s.sound) : soundAfter (execFollowUp m s) := by
  unfold execFollowUp
  try dsimp only
  repeat' first
    | with_reducible apply soundAfter_next | with_reducible assumption | with_reducible apply keeps_followUp


theorem keeps_execPtpDelayReq {launch : Int} {s : State} (hs : s.sound) : soundAfter (execPtpDelayReq launch s) := by
  unfold execPtpDelayReq
  try dsimp only
  repeat' first
    | with_reducible apply soundAfter_next | with_reducible assumption | with_reducible apply keeps_ptpDelayReq


theorem keeps_execPtpDelayResp {sender seq : Nat} {received : Int} {s : State} (hs : s.sound) : soundAfter (execPtpDelayResp sender seq received s) := by
  unfold execPtpDelayResp
  try dsimp only
  repeat' first
    | with_reducible apply soundAfter_next | with_reducible assumption | with_reducible apply keeps_ptpDelayResp


theorem keeps_execTimedFrameLate {s : State} (hs : s.sound) : soundAfter (execTimedFrameLate s) := by
  unfold execTimedFrameLate
  try dsimp only
  repeat' first
    | with_reducible apply soundAfter_next | with_reducible assumption | with_reducible apply keeps_timedLate


theorem keeps_execLaunchMissed {h : Half} {slot port : Nat} {s : State} (hs : s.sound) : soundAfter (execLaunchMissed h slot port s) := by
  unfold execLaunchMissed
  try dsimp only
  repeat' first
    | with_reducible apply soundAfter_next | with_reducible assumption | with_reducible apply keeps_launchMissed


theorem keeps_execPathFault {n : Nat} {s : State} (hs : s.sound) : soundAfter (execPathFault n s) := by
  unfold execPathFault
  try dsimp only
  repeat' first
    | with_reducible apply soundAfter_next | with_reducible assumption | with_reducible apply keeps_pathFault


theorem keeps_execReferencePairUpdate {kind peer num : Nat} {s : State} (hs : s.sound) : soundAfter (execReferencePairUpdate kind peer num s) := by
  unfold execReferencePairUpdate
  try dsimp only
  repeat' first
    | with_reducible apply soundAfter_next | with_reducible assumption | with_reducible apply keeps_referenceUpdate


theorem keeps_execClearAhead {f : CascFrame} {s : State} (hs : s.sound) : soundAfter (execClearAhead f s) := by
  unfold execClearAhead
  try dsimp only
  repeat' first
    | with_reducible apply soundAfter_next | with_reducible assumption | with_reducible apply keeps_clearAheadRow


theorem keeps_execReserveMsg {f : CascFrame} {s : State} (hs : s.sound) : soundAfter (execReserveMsg f s) := by
  unfold execReserveMsg
  try dsimp only
  repeat' first
    | with_reducible apply soundAfter_next | with_reducible assumption | with_reducible apply keeps_cascReceive
    | with_reducible apply keeps_takeReserve | with_reducible intro s0 k0


theorem keeps_execReserveReply {f : CascFrame} {s : State} (hs : s.sound) : soundAfter (execReserveReply f s) := by
  unfold execReserveReply
  try dsimp only
  repeat' first
    | with_reducible apply soundAfter_next | with_reducible assumption | with_reducible apply keeps_cascReceive
    | with_reducible apply keeps_takeReply | with_reducible intro s0 k0


theorem keeps_execAnchorSend {peer num : Nat} {s : State} (hs : s.sound) : soundAfter (execAnchorSend peer num s) := by
  unfold execAnchorSend
  try dsimp only
  repeat' first
    | with_reducible apply soundAfter_next | with_reducible assumption | with_reducible apply keeps_anchorSend


theorem keeps_execBoardLinkUp {side pos : Nat} {addrs : List Nat} {ring : Bool} {s : State} (hs : s.sound) : soundAfter (execBoardLinkUp side pos addrs ring s) := by
  unfold execBoardLinkUp
  try dsimp only
  repeat' first
    | with_reducible apply soundAfter_next | with_reducible assumption | with_reducible apply keeps_boardLinkUp


theorem keeps_execBoardLinkBreak {down1 down2 : Bool} {pos : Nat} {addrs : List Nat} {s : State} (hs : s.sound) : soundAfter (execBoardLinkBreak down1 down2 pos addrs s) := by
  unfold execBoardLinkBreak
  try dsimp only
  repeat' first
    | with_reducible apply soundAfter_next | with_reducible assumption | with_reducible apply keeps_boardLinkBreak


theorem keeps_execHeartbeatMsg {path : Path} {f : Frame} {s : State} (hs : s.sound) : soundAfter (execHeartbeatMsg path f s) := by
  unfold execHeartbeatMsg
  try dsimp only
  repeat' first
    | with_reducible apply soundAfter_next | with_reducible assumption | with_reducible apply keeps_heartbeatRow


theorem keeps_execAnchorMsg {f : CascFrame} {s : State} (hs : s.sound) : soundAfter (execAnchorMsg f s) := by
  unfold execAnchorMsg
  try dsimp only
  repeat' first
    | with_reducible apply soundAfter_next | with_reducible assumption | with_reducible apply keeps_cascReceive
    | with_reducible apply keeps_takeAnchor | with_reducible intro s0 k0


theorem keeps_execBenchmarkEnvelope {f : CascFrame} {s : State} (hs : s.sound) : soundAfter (execBenchmarkEnvelope f s) := by
  unfold execBenchmarkEnvelope
  try dsimp only
  repeat' first
    | with_reducible apply soundAfter_next | with_reducible assumption | with_reducible apply keeps_cascReceive
    | with_reducible apply keeps_takeBenchmark | with_reducible apply keeps_ite | with_reducible intro s0 k0


theorem keeps_execCascadeEnvelope {f : CascFrame} {s : State} (hs : s.sound) : soundAfter (execCascadeEnvelope f s) := by
  unfold execCascadeEnvelope
  try dsimp only
  repeat' first
    | with_reducible apply soundAfter_next | with_reducible assumption | with_reducible apply keeps_cascReceive
    | with_reducible apply keeps_takeClear | with_reducible apply keeps_takeAnchor
    | with_reducible apply keeps_takeReply | with_reducible apply keeps_takeReserve
    | with_reducible apply keeps_takeBenchmark | with_reducible apply keeps_ite | with_reducible intro s0 k0


theorem keeps_execPartnerLost {s : State} (hs : s.sound) : soundAfter (execPartnerLost s) := by
  unfold execPartnerLost
  try dsimp only
  repeat' first
    | with_reducible apply soundAfter_next | with_reducible assumption | with_reducible apply keeps_partnerLost


theorem keeps_execShadowImage {h : Half} {img : CycleImage} {good : Bool} {t : TickIn} {s : State} (hs : s.sound) : soundAfter (execShadowImage h img good t s) := by
  unfold execShadowImage
  try dsimp only
  repeat' first
    | with_reducible apply soundAfter_next | with_reducible assumption | with_reducible apply keeps_shadowImage


theorem keeps_execShadowMissed {t : TickIn} {s : State} (hs : s.sound) : soundAfter (execShadowMissed t s) := by
  unfold execShadowMissed
  try dsimp only
  repeat' first
    | with_reducible apply soundAfter_next | with_reducible assumption | with_reducible apply keeps_shadowMissed


theorem keeps_execResynchronise {sess : Nat} {s : State} (hs : s.sound) : soundAfter (execResynchronise sess s) := by
  unfold execResynchronise
  try dsimp only
  repeat' first
    | with_reducible apply soundAfter_next | with_reducible assumption | with_reducible apply keeps_asSession
    | with_reducible apply keeps_resyncFn


theorem keeps_execResyncComplete {k : Kernel} {s : State} (hs : s.sound) : soundAfter (execResyncComplete k s) := by
  unfold execResyncComplete
  try dsimp only
  repeat' first
    | with_reducible apply soundAfter_next | with_reducible assumption | with_reducible apply keeps_resyncComplete


theorem keeps_execHandOver {sess : Nat} {s : State} (hs : s.sound) : soundAfter (execHandOver sess s) := by
  unfold execHandOver
  try dsimp only
  repeat' first
    | with_reducible apply soundAfter_next | with_reducible assumption | with_reducible apply keeps_asSession
    | with_reducible apply keeps_handOverFn


theorem keeps_execColdHandOver {sess : Nat} {s : State} (hs : s.sound) : soundAfter (execColdHandOver sess s) := by
  unfold execColdHandOver
  try dsimp only
  repeat' first
    | with_reducible apply soundAfter_next | with_reducible assumption | with_reducible apply keeps_asSession
    | with_reducible apply keeps_coldHandOverFn


theorem keeps_execTakeback {s : State} (hs : s.sound) : soundAfter (execTakeback s) := by
  unfold execTakeback
  try dsimp only
  repeat' first
    | with_reducible apply soundAfter_next | with_reducible assumption | with_reducible apply keeps_takeback


theorem keeps_execHandOverImage {s : State} (hs : s.sound) : soundAfter (execHandOverImage s) := by
  unfold execHandOverImage
  try dsimp only
  repeat' first
    | with_reducible apply soundAfter_next | with_reducible assumption | with_reducible apply keeps_handOverImage


theorem keeps_execReadReq {op : BridgeOp} {s : State} (hs : s.sound) : soundAfter (execReadReq op s) := by
  unfold execReadReq
  try dsimp only
  repeat' first
    | with_reducible apply soundAfter_next | with_reducible assumption | with_reducible apply keeps_askRead
    | with_reducible apply keeps_bridgeFrame | with_reducible apply keeps_farRequest | split


theorem keeps_execBridgeWrite {op : BridgeOp} {s : State} (hs : s.sound) : soundAfter (execBridgeWrite op s) := by
  unfold execBridgeWrite
  try dsimp only
  repeat' first
    | with_reducible apply soundAfter_next | with_reducible assumption | with_reducible apply keeps_askWrite
    | with_reducible apply keeps_bridgeFrame | with_reducible apply keeps_farRequest | split


theorem keeps_execReadData {f : CascFrame} {s : State} (hs : s.sound) : soundAfter (execReadData f s) := by
  unfold execReadData
  try dsimp only
  repeat' first
    | with_reducible apply soundAfter_next | with_reducible assumption | with_reducible apply keeps_bridgeFrame
    | with_reducible apply keeps_completion | with_reducible apply keeps_modOut | with_reducible apply keeps_ite
    | with_reducible intro s0 k0 | split


theorem keeps_execWriteDone {f : CascFrame} {s : State} (hs : s.sound) : soundAfter (execWriteDone f s) := by
  unfold execWriteDone
  try dsimp only
  repeat' first
    | with_reducible apply soundAfter_next | with_reducible assumption | with_reducible apply keeps_bridgeFrame
    | with_reducible apply keeps_completion | with_reducible apply keeps_dropTag | with_reducible intro s0 k0 | split


theorem keeps_execBridgeError {f : CascFrame} {s : State} (hs : s.sound) : soundAfter (execBridgeError f s) := by
  unfold execBridgeError
  try dsimp only
  repeat' first
    | with_reducible apply soundAfter_next | with_reducible assumption | with_reducible apply keeps_bridgeFrame
    | with_reducible apply keeps_completion | with_reducible apply keeps_modOut | with_reducible apply keeps_endError
    | with_reducible apply keeps_ite | with_reducible intro s0 k0 | split


theorem keeps_execBridgeTimeout {tag : Nat} {s : State} (hs : s.sound) : soundAfter (execBridgeTimeout tag s) := by
  unfold execBridgeTimeout
  try dsimp only
  repeat' first
    | with_reducible apply soundAfter_next | with_reducible assumption | with_reducible apply keeps_bridgeTimeoutRow


theorem keeps_execReadDataDiscard {tag : Nat} {s : State} (hs : s.sound) : soundAfter (execReadDataDiscard tag s) := by
  unfold execReadDataDiscard
  try dsimp only
  repeat' first
    | with_reducible apply soundAfter_next | with_reducible assumption | with_reducible apply keeps_readDataDiscard


theorem keeps_execTimeFrame {path : Nat} {f : TimeFrame} {dt : Nat} {s : State} (hs : s.sound) : soundAfter (execTimeFrame path f dt s) := by
  unfold execTimeFrame
  try dsimp only
  repeat' first
    | with_reducible apply soundAfter_next | with_reducible assumption | with_reducible apply keeps_timeFrameRow


theorem keeps_execTimeFrameSend {launch : Int} {s : State} (hs : s.sound) : soundAfter (execTimeFrameSend launch s) := by
  unfold execTimeFrameSend
  try dsimp only
  repeat' first
    | with_reducible apply soundAfter_next | with_reducible assumption | with_reducible apply keeps_timeFrameSend


theorem keeps_execDatumDelayRequest {launch : Int} {s : State} (hs : s.sound) : soundAfter (execDatumDelayRequest launch s) := by
  unfold execDatumDelayRequest
  try dsimp only
  repeat' first
    | with_reducible apply soundAfter_next | with_reducible assumption | with_reducible apply keeps_datumDelayRequest


theorem keeps_execDelayRequest {src seq dt : Nat} {s : State} (hs : s.sound) : soundAfter (execDelayRequest src seq dt s) := by
  unfold execDelayRequest
  try dsimp only
  repeat' first
    | with_reducible apply soundAfter_next | with_reducible assumption | with_reducible apply keeps_delayRequestRow


theorem keeps_execDelayResponse {path seq : Nat} {received : Int} {s : State} (hs : s.sound) : soundAfter (execDelayResponse path seq received s) := by
  unfold execDelayResponse
  try dsimp only
  repeat' first
    | with_reducible apply soundAfter_next | with_reducible assumption | with_reducible apply keeps_delayResponseRow


theorem keeps_execCycleReportSend {s : State} (hs : s.sound) : soundAfter (execCycleReportSend s) := by
  unfold execCycleReportSend
  try dsimp only
  repeat' first
    | with_reducible apply soundAfter_next | with_reducible assumption | with_reducible apply keeps_cycleReportSend


theorem keeps_execCycleReport {f : CascFrame} {s : State} (hs : s.sound) : soundAfter (execCycleReport f s) := by
  unfold execCycleReport
  try dsimp only
  repeat' first
    | with_reducible apply soundAfter_next | with_reducible assumption | with_reducible apply keeps_cycleReportRow


theorem keeps_execSyncPulse {s : State} (hs : s.sound) : soundAfter (execSyncPulse s) := by
  unfold execSyncPulse
  try dsimp only
  repeat' first
    | with_reducible apply soundAfter_next | with_reducible assumption | with_reducible apply keeps_syncPulse


theorem keeps_execSyncEdge {dt : Nat} {s : State} (hs : s.sound) : soundAfter (execSyncEdge dt s) := by
  unfold execSyncEdge
  try dsimp only
  repeat' first
    | with_reducible apply soundAfter_next | with_reducible assumption | with_reducible apply keeps_syncEdge


theorem keeps_execLoadOpen {sess : Nat} {s : State} (hs : s.sound) : soundAfter (execLoadOpen sess s) := by
  unfold execLoadOpen
  try dsimp only
  repeat' first
    | with_reducible apply soundAfter_next | with_reducible assumption | with_reducible apply keeps_asSlotSession
    | with_reducible apply keeps_loadOpenFn


theorem keeps_execLoadWindow {sess : Nat} {data : List Byte} {s : State} (hs : s.sound) : soundAfter (execLoadWindow sess data s) := by
  unfold execLoadWindow
  try dsimp only
  repeat' first
    | with_reducible apply soundAfter_next | with_reducible assumption | with_reducible apply keeps_asSlotSession
    | with_reducible apply keeps_windowFn | with_reducible apply keeps_loadWindowFn | with_reducible intro s0 k0


theorem keeps_execLoadEnd {sess : Nat} {s : State} (hs : s.sound) : soundAfter (execLoadEnd sess s) := by
  unfold execLoadEnd
  try dsimp only
  repeat' first
    | with_reducible apply soundAfter_next | with_reducible assumption | with_reducible apply keeps_asSlotSession
    | with_reducible apply keeps_loadEndFn


theorem keeps_execLoadAbandon {sess : Nat} {s : State} (hs : s.sound) : soundAfter (execLoadAbandon sess s) := by
  unfold execLoadAbandon
  try dsimp only
  repeat' first
    | with_reducible apply soundAfter_next | with_reducible assumption | with_reducible apply keeps_asSlotSession
    | with_reducible apply keeps_loadAbandonFn


theorem keeps_execLoadChecked {faulty : Three (Option LoadVerdict)} {s : State} (hs : s.sound) : soundAfter (execLoadChecked faulty s) := by
  unfold execLoadChecked
  try dsimp only
  repeat' first
    | with_reducible apply soundAfter_next | with_reducible assumption | with_reducible apply keeps_loadChecked


theorem keeps_execActivateData {sess : Nat} {s : State} (hs : s.sound) : soundAfter (execActivateData sess s) := by
  unfold execActivateData
  try dsimp only
  repeat' first
    | with_reducible apply soundAfter_next | with_reducible assumption | with_reducible apply keeps_asSlotSession
    | with_reducible apply keeps_activateFn


theorem keeps_execWithdrawActivation {sess : Nat} {s : State} (hs : s.sound) : soundAfter (execWithdrawActivation sess s) := by
  unfold execWithdrawActivation
  try dsimp only
  repeat' first
    | with_reducible apply soundAfter_next | with_reducible assumption | with_reducible apply keeps_asSlotSession
    | with_reducible apply keeps_activateFn


theorem keeps_execRegisterComposeKey {sess : Nat} {key : List Byte} {s : State} (hs : s.sound) : soundAfter (execRegisterComposeKey sess key s) := by
  unfold execRegisterComposeKey
  try dsimp only
  repeat' first
    | with_reducible apply soundAfter_next | with_reducible assumption | with_reducible apply keeps_keyCommand


theorem keeps_execRegisterVerifyKey {sess : Nat} {key : List Byte} {s : State} (hs : s.sound) : soundAfter (execRegisterVerifyKey sess key s) := by
  unfold execRegisterVerifyKey
  try dsimp only
  repeat' first
    | with_reducible apply soundAfter_next | with_reducible assumption | with_reducible apply keeps_keyCommand


theorem keeps_execRemoveKey {sess : Nat} {finger : List Byte} {s : State} (hs : s.sound) : soundAfter (execRemoveKey sess finger s) := by
  unfold execRemoveKey
  try dsimp only
  repeat' first
    | with_reducible apply soundAfter_next | with_reducible assumption | with_reducible apply keeps_keyCommand


theorem keeps_execProgramLoadOpen {sess : Nat} {s : State} (hs : s.sound) : soundAfter (execProgramLoadOpen sess s) := by
  unfold execProgramLoadOpen
  try dsimp only
  repeat' first
    | with_reducible apply soundAfter_next | with_reducible assumption | with_reducible apply keeps_asSlotSession
    | with_reducible apply keeps_progOpenFn


theorem keeps_execProgramLoadWindow {sess : Nat} {data : List Byte} {s : State} (hs : s.sound) : soundAfter (execProgramLoadWindow sess data s) := by
  unfold execProgramLoadWindow
  try dsimp only
  repeat' first
    | with_reducible apply soundAfter_next | with_reducible assumption | with_reducible apply keeps_asSlotSession
    | with_reducible apply keeps_windowFn | with_reducible apply keeps_progWindowFn | with_reducible intro s0 k0


theorem keeps_execProgramLoadEnd {sess : Nat} {s : State} (hs : s.sound) : soundAfter (execProgramLoadEnd sess s) := by
  unfold execProgramLoadEnd
  try dsimp only
  repeat' first
    | with_reducible apply soundAfter_next | with_reducible assumption | with_reducible apply keeps_asSlotSession
    | with_reducible apply keeps_progEndFn


theorem keeps_execProgramLoadAbandon {sess : Nat} {s : State} (hs : s.sound) : soundAfter (execProgramLoadAbandon sess s) := by
  unfold execProgramLoadAbandon
  try dsimp only
  repeat' first
    | with_reducible apply soundAfter_next | with_reducible assumption | with_reducible apply keeps_asSlotSession
    | with_reducible apply keeps_progAbandonFn


theorem keeps_execProgramLoadChecked {faulty : Three (Option LoadVerdict)} {s : State} (hs : s.sound) : soundAfter (execProgramLoadChecked faulty s) := by
  unfold execProgramLoadChecked
  try dsimp only
  repeat' first
    | with_reducible apply soundAfter_next | with_reducible assumption | with_reducible apply keeps_progChecked


theorem keeps_execStartUpStep {i : StartIn} {s : State} (hs : s.sound) : soundAfter (execStartUpStep i s) := by
  unfold execStartUpStep
  try dsimp only
  repeat' first
    | with_reducible apply soundAfter_next | with_reducible assumption | with_reducible apply keeps_startUpStep


theorem keeps_execWakeStepTimeout {d stp : Nat} {s : State} (hs : s.sound) : soundAfter (execWakeStepTimeout d stp s) := by
  unfold execWakeStepTimeout
  try dsimp only
  repeat' first
    | with_reducible apply soundAfter_next | with_reducible assumption | with_reducible apply keeps_wakeTimeout


theorem keeps_execWakeRetry {sess v : Nat} {s : State} (hs : s.sound) : soundAfter (execWakeRetry sess v s) := by
  unfold execWakeRetry
  try dsimp only
  repeat' first
    | with_reducible apply soundAfter_next | with_reducible assumption | with_reducible apply keeps_asSession
    | with_reducible apply keeps_wakeRetryFn


theorem keeps_execStartUpConfirmation {sess v : Nat} {s : State} (hs : s.sound) : soundAfter (execStartUpConfirmation sess v s) := by
  unfold execStartUpConfirmation
  try dsimp only
  repeat' first
    | with_reducible apply soundAfter_next | with_reducible assumption | with_reducible apply keeps_asSession
    | with_reducible apply keeps_confirmFn


theorem keeps_execResetEdge {s : State} (hs : s.sound) : soundAfter (execResetEdge s) := by
  unfold execResetEdge
  try dsimp only
  repeat' first
    | with_reducible apply soundAfter_next | with_reducible assumption | with_reducible apply keeps_resetEdge


theorem keeps_execPowerVote {sess : Nat} {origin : Option (Nat × Level)} {sub v : Nat} {s : State} (hs : s.sound) : soundAfter (execPowerVote sess origin sub v s) := by
  unfold execPowerVote
  try dsimp only
  repeat' first
    | with_reducible apply soundAfter_next | with_reducible assumption | with_reducible apply keeps_asSession
    | with_reducible apply keeps_voteFn | with_reducible apply keeps_asProxy | split


theorem keeps_execWakeRequest {cal : Option Nat} {s : State} (hs : s.sound) : soundAfter (execWakeRequest cal s) := by
  unfold execWakeRequest
  try dsimp only
  repeat' first
    | with_reducible apply soundAfter_next | with_reducible assumption | with_reducible apply keeps_wakeRequest


theorem keeps_execWakeHoldExpiry {s : State} (hs : s.sound) : soundAfter (execWakeHoldExpiry s) := by
  unfold execWakeHoldExpiry
  try dsimp only
  repeat' first
    | with_reducible apply soundAfter_next | with_reducible assumption | with_reducible apply keeps_wakeHoldExpiry


theorem keeps_execWakeFrame {h : Half} {port : Nat} {f : Frame} {s : State} (hs : s.sound) : soundAfter (execWakeFrame h port f s) := by
  unfold execWakeFrame
  try dsimp only
  repeat' first
    | with_reducible apply soundAfter_next | with_reducible assumption | with_reducible apply keeps_wakeFrame


theorem keeps_execTransitionStart {s : State} (hs : s.sound) : soundAfter (execTransitionStart s) := by
  unfold execTransitionStart
  try dsimp only
  repeat' first
    | with_reducible apply soundAfter_next | with_reducible assumption | with_reducible apply keeps_moveOn


theorem keeps_execTransitionComplete {s : State} (hs : s.sound) : soundAfter (execTransitionComplete s) := by
  unfold execTransitionComplete
  try dsimp only
  repeat' first
    | with_reducible apply soundAfter_next | with_reducible assumption | with_reducible apply keeps_transitionComplete


theorem keeps_execSupplyLost {n : Nat} {mv : Int} {s : State} (hs : s.sound) : soundAfter (execSupplyLost n mv s) := by
  unfold execSupplyLost
  try dsimp only
  repeat' first
    | with_reducible apply soundAfter_next | with_reducible assumption | with_reducible apply keeps_supplyLostRow


theorem keeps_execSupplyOvervoltage {n : Nat} {mv : Int} {s : State} (hs : s.sound) : soundAfter (execSupplyOvervoltage n mv s) := by
  unfold execSupplyOvervoltage
  try dsimp only
  repeat' first
    | with_reducible apply soundAfter_next | with_reducible assumption | with_reducible apply keeps_loseSupply
    | with_reducible apply keeps_ite


theorem keeps_execSupplyEnters32VBand {n : Nat} {mv : Int} {s : State} (hs : s.sound) : soundAfter (execSupplyEnters32VBand n mv s) := by
  unfold execSupplyEnters32VBand
  try dsimp only
  repeat' first
    | with_reducible apply soundAfter_next | with_reducible assumption | with_reducible apply keeps_raiseEv
    | with_reducible apply keeps_modSupply | with_reducible apply keeps_ite


theorem keeps_execSupplyReturned {n : Nat} {mv : Int} {s : State} (hs : s.sound) : soundAfter (execSupplyReturned n mv s) := by
  unfold execSupplyReturned
  try dsimp only
  repeat' first
    | with_reducible apply soundAfter_next | with_reducible assumption | with_reducible apply keeps_supplyReturnedRow


theorem keeps_execHoldUpBankCharged {s : State} (hs : s.sound) : soundAfter (execHoldUpBankCharged s) := by
  unfold execHoldUpBankCharged
  try dsimp only
  repeat' first
    | with_reducible apply soundAfter_next | with_reducible assumption | with_reducible apply keeps_ite
    | (fail_if_no_progress with_reducible refine keeps_mk ?_ rfl rfl rfl rfl rfl rfl rfl rfl rfl rfl rfl rfl rfl rfl rfl rfl rfl rfl rfl)


theorem keeps_execPowerFail {mv1 mv2 : Int} {s : State} (hs : s.sound) : soundAfter (execPowerFail mv1 mv2 s) := by
  unfold execPowerFail
  try dsimp only
  repeat' first
    | with_reducible apply soundAfter_next | with_reducible assumption | with_reducible apply keeps_powerFail


theorem keeps_execPowerFailWriteDone {recovered : Bool} {s : State} (hs : s.sound) : soundAfter (execPowerFailWriteDone recovered s) := by
  unfold execPowerFailWriteDone
  try dsimp only
  repeat' first
    | with_reducible apply soundAfter_next | with_reducible assumption | with_reducible apply keeps_powerFailDone


theorem keeps_execBackupCellMeasurement {mv : Nat} {s : State} (hs : s.sound) : soundAfter (execBackupCellMeasurement mv s) := by
  unfold execBackupCellMeasurement
  try dsimp only
  repeat' first
    | with_reducible apply soundAfter_next | with_reducible assumption | with_reducible apply keeps_cellMeasured


theorem keeps_execThermalShutdown {d : Nat} {s : State} (hs : s.sound) : soundAfter (execThermalShutdown d s) := by
  unfold execThermalShutdown
  try dsimp only
  repeat' first
    | with_reducible apply soundAfter_next | with_reducible assumption | with_reducible apply keeps_thermal


theorem keeps_execHalfSupplyOrClock {h : Half} {s : State} (hs : s.sound) : soundAfter (execHalfSupplyOrClock h s) := by
  unfold execHalfSupplyOrClock
  try dsimp only
  repeat' first
    | with_reducible apply soundAfter_next | with_reducible assumption | with_reducible apply keeps_disableHalf
    | with_reducible apply keeps_ite


theorem keeps_execCompatibilityClassRead {cls ord n : Nat} {s : State} (hs : s.sound) : soundAfter (execCompatibilityClassRead cls ord n s) := by
  unfold execCompatibilityClassRead
  try dsimp only
  repeat' first
    | with_reducible apply soundAfter_next | with_reducible assumption | with_reducible apply keeps_settlePair
    | with_reducible apply keeps_modPairLink | with_reducible apply keeps_ite


theorem keeps_execUpdateOpen {sess : Nat} {via : Option Level} {s : State} (hs : s.sound) : soundAfter (execUpdateOpen sess via s) := by
  unfold execUpdateOpen
  try dsimp only
  repeat' first
    | with_reducible apply soundAfter_next | with_reducible assumption | with_reducible apply keeps_asUpdate
    | with_reducible apply keeps_updateOpenFn


theorem keeps_execUpdateBlock {sess : Nat} {via : Option Level} {n crc : Nat} {good : Bool} {s : State} (hs : s.sound) : soundAfter (execUpdateBlock sess via n crc good s) := by
  unfold execUpdateBlock
  try dsimp only
  repeat' first
    | with_reducible apply soundAfter_next | with_reducible assumption | with_reducible apply keeps_asUpdate
    | with_reducible apply keeps_updateBlockFn


theorem keeps_execUpdateAbandon {sess : Nat} {via : Option Level} {s : State} (hs : s.sound) : soundAfter (execUpdateAbandon sess via s) := by
  unfold execUpdateAbandon
  try dsimp only
  repeat' first
    | with_reducible apply soundAfter_next | with_reducible assumption | with_reducible apply keeps_asUpdate
    | with_reducible apply keeps_updateAbandonFn


theorem keeps_execBufferWindow {sess : Nat} {data : List Byte} {s : State} (hs : s.sound) : soundAfter (execBufferWindow sess data s) := by
  unfold execBufferWindow
  try dsimp only
  repeat' first
    | with_reducible apply soundAfter_next | with_reducible assumption | with_reducible apply keeps_asSession
    | with_reducible apply keeps_bufferWindowFn


theorem keeps_execForwardImage {code : Nat} {s : State} (hs : s.sound) : soundAfter (execForwardImage code s) := by
  unfold execForwardImage
  try dsimp only
  repeat' first
    | with_reducible apply soundAfter_next | with_reducible assumption | with_reducible apply keeps_forwardRow


theorem keeps_execInstallRolling {sess : Nat} {s : State} (hs : s.sound) : soundAfter (execInstallRolling sess s) := by
  unfold execInstallRolling
  try dsimp only
  repeat' first
    | with_reducible apply soundAfter_next | with_reducible assumption | with_reducible apply keeps_asSession
    | with_reducible apply keeps_installRollingFn


theorem keeps_execInstallAllLanes {sess : Nat} {s : State} (hs : s.sound) : soundAfter (execInstallAllLanes sess s) := by
  unfold execInstallAllLanes
  try dsimp only
  repeat' first
    | with_reducible apply soundAfter_next | with_reducible assumption | with_reducible apply keeps_asSession
    | with_reducible apply keeps_installAllFn


theorem keeps_execInstallStop {sess : Nat} {s : State} (hs : s.sound) : soundAfter (execInstallStop sess s) := by
  unfold execInstallStop
  try dsimp only
  repeat' first
    | with_reducible apply soundAfter_next | with_reducible assumption | with_reducible apply keeps_asSession
    | with_reducible apply keeps_installStopFn


theorem keeps_execInstallLaneDone {l : Lane} {s : State} (hs : s.sound) : soundAfter (execInstallLaneDone l s) := by
  unfold execInstallLaneDone
  try dsimp only
  repeat' first
    | with_reducible apply soundAfter_next | with_reducible assumption | with_reducible apply keeps_installLaneDone


theorem keeps_execFieldBookRead {sess : Nat} {s : State} (hs : s.sound) : soundAfter (execFieldBookRead sess s) := by
  unfold execFieldBookRead
  try dsimp only
  repeat' first
    | with_reducible apply soundAfter_next | with_reducible assumption | with_reducible apply keeps_asSession
    | with_reducible apply keeps_bookReadFn


theorem keeps_execFieldBookCursor {sess v : Nat} {s : State} (hs : s.sound) : soundAfter (execFieldBookCursor sess v s) := by
  unfold execFieldBookCursor
  try dsimp only
  repeat' first
    | with_reducible apply soundAfter_next | with_reducible exact soundAfter_fault
    | with_reducible apply soundAfter_ite | with_reducible assumption | with_reducible apply keeps_asSession
    | with_reducible apply keeps_bookCursorFn


theorem keeps_execFieldBookSeek {sess t : Nat} {s : State} (hs : s.sound) : soundAfter (execFieldBookSeek sess t s) := by
  unfold execFieldBookSeek
  try dsimp only
  repeat' first
    | with_reducible apply soundAfter_next | with_reducible assumption | with_reducible apply keeps_asSession
    | with_reducible apply keeps_bookSeekFn


theorem keeps_execRecordsLostMarker {s : State} (hs : s.sound) : soundAfter (execRecordsLostMarker s) := by
  unfold execRecordsLostMarker
  try dsimp only
  repeat' first
    | with_reducible apply soundAfter_next | with_reducible assumption | with_reducible apply keeps_bookMarker


theorem keeps_execChestRead {sess : Nat} {good : Bool} {s : State} (hs : s.sound) : soundAfter (execChestRead sess good s) := by
  unfold execChestRead
  try dsimp only
  repeat' first
    | with_reducible apply soundAfter_next | with_reducible assumption | with_reducible apply keeps_asSession
    | with_reducible apply keeps_chestReadFn


theorem keeps_execSnapshotRead {sess : Nat} {s : State} (hs : s.sound) : soundAfter (execSnapshotRead sess s) := by
  unfold execSnapshotRead
  try dsimp only
  repeat' first
    | with_reducible apply soundAfter_next | with_reducible assumption | with_reducible apply keeps_asSession
    | with_reducible apply keeps_snapReadFn


theorem keeps_execChestClear {sess v : Nat} {s : State} (hs : s.sound) : soundAfter (execChestClear sess v s) := by
  unfold execChestClear
  try dsimp only
  repeat' first
    | with_reducible apply soundAfter_next | with_reducible assumption | with_reducible apply keeps_asSession
    | with_reducible apply keeps_chestClearFn


theorem keeps_execEventRecordRead {sess : Nat} {s : State} (hs : s.sound) : soundAfter (execEventRecordRead sess s) := by
  unfold execEventRecordRead
  try dsimp only
  repeat' first
    | with_reducible apply soundAfter_next | with_reducible assumption | with_reducible apply keeps_asSession
    | with_reducible apply keeps_eventRecordFn


theorem keeps_execForceRecordRead {sess : Nat} {s : State} (hs : s.sound) : soundAfter (execForceRecordRead sess s) := by
  unfold execForceRecordRead
  try dsimp only
  repeat' first
    | with_reducible apply soundAfter_next | with_reducible assumption | with_reducible apply keeps_asSession
    | with_reducible apply keeps_forceRecordFn


theorem keeps_execCheckAlgorithmSelect {sess v : Nat} {s : State} (hs : s.sound) : soundAfter (execCheckAlgorithmSelect sess v s) := by
  unfold execCheckAlgorithmSelect
  try dsimp only
  repeat' first
    | with_reducible apply soundAfter_next | with_reducible assumption | with_reducible apply keeps_asSession
    | with_reducible apply keeps_crcSelectFn


theorem keeps_execCheckData {sess : Nat} {data : List Byte} {s : State} (hs : s.sound) : soundAfter (execCheckData sess data s) := by
  unfold execCheckData
  try dsimp only
  repeat' first
    | with_reducible apply soundAfter_next | with_reducible assumption | with_reducible apply keeps_asSession
    | with_reducible apply keeps_crcDataFn


theorem keeps_execCheckRunningValue {sess v : Nat} {s : State} (hs : s.sound) : soundAfter (execCheckRunningValue sess v s) := by
  unfold execCheckRunningValue
  try dsimp only
  repeat' first
    | with_reducible apply soundAfter_next | with_reducible assumption | with_reducible apply keeps_asSession
    | with_reducible apply keeps_crcValueFn


theorem keeps_execSelfTestRun {sess target inst slices : Nat} {s : State} (hs : s.sound) : soundAfter (execSelfTestRun sess target inst slices s) := by
  unfold execSelfTestRun
  try dsimp only
  repeat' first
    | with_reducible apply soundAfter_next | with_reducible assumption | with_reducible apply keeps_asSession
    | with_reducible apply keeps_testRunFn


theorem keeps_execSelfTestStop {sess inst : Nat} {s : State} (hs : s.sound) : soundAfter (execSelfTestStop sess inst s) := by
  unfold execSelfTestStop
  try dsimp only
  repeat' first
    | with_reducible apply soundAfter_next | with_reducible assumption | with_reducible apply keeps_asSession
    | with_reducible apply keeps_testStopFn


theorem keeps_execSelfTestSlice {inst : Nat} {fail : Option Nat} {s : State} (hs : s.sound) : soundAfter (execSelfTestSlice inst fail s) := by
  unfold execSelfTestSlice
  try dsimp only
  repeat' first
    | with_reducible apply soundAfter_next | with_reducible assumption | with_reducible apply keeps_testSlice


theorem keeps_execTakeHalfOut {sess inst : Nat} {s : State} (hs : s.sound) : soundAfter (execTakeHalfOut sess inst s) := by
  unfold execTakeHalfOut
  try dsimp only
  repeat' first
    | with_reducible apply soundAfter_next | with_reducible assumption | with_reducible apply keeps_asSession
    | with_reducible apply keeps_takeOutFn


theorem keeps_execRestartHalf {sess inst : Nat} {i : StartIn} {s : State} (hs : s.sound) : soundAfter (execRestartHalf sess inst i s) := by
  unfold execRestartHalf
  try dsimp only
  repeat' first
    | with_reducible apply soundAfter_next | with_reducible assumption | with_reducible apply keeps_asSession
    | with_reducible apply keeps_restartHalfFn


theorem keeps_execRotationSlow {l : Lane} {s : State} (hs : s.sound) : soundAfter (execRotationSlow l s) := by
  unfold execRotationSlow
  try dsimp only
  repeat' first
    | with_reducible apply soundAfter_next | with_reducible assumption | with_reducible apply keeps_rotationSlow


theorem keeps_execAgeingMeasurement {index sub margin : Nat} {s : State} (hs : s.sound) : soundAfter (execAgeingMeasurement index sub margin s) := by
  unfold execAgeingMeasurement
  try dsimp only
  repeat' first
    | with_reducible apply soundAfter_next | with_reducible exact soundAfter_fault
    | with_reducible apply soundAfter_ite | with_reducible assumption | with_reducible apply keeps_ageing


theorem keeps_execClockStep {l : Lane} {inTime : Bool} {s : State} (hs : s.sound) : soundAfter (execClockStep l inTime s) := by
  unfold execClockStep
  try dsimp only
  repeat' first
    | with_reducible apply soundAfter_next | with_reducible assumption | with_reducible apply keeps_clockStep


theorem keeps_execNorRefresh {l : Lane} {good : Bool} {s : State} (hs : s.sound) : soundAfter (execNorRefresh l good s) := by
  unfold execNorRefresh
  try dsimp only
  repeat' first
    | with_reducible apply soundAfter_next | with_reducible assumption | with_reducible apply keeps_norRefresh


theorem keeps_execClockRestore {sess v : Nat} {s : State} (hs : s.sound) : soundAfter (execClockRestore sess v s) := by
  unfold execClockRestore
  try dsimp only
  repeat' first
    | with_reducible apply soundAfter_next | with_reducible assumption | with_reducible apply keeps_asSession
    | with_reducible apply keeps_clockRestoreFn


theorem keeps_execForecastDay {s : State} (hs : s.sound) : soundAfter (execForecastDay s) := by
  unfold execForecastDay
  try dsimp only
  repeat' first
    | with_reducible apply soundAfter_next | with_reducible assumption | with_reducible apply keeps_forecastDay


theorem keeps_execOpenSess {src : Source} {ch : Option Half} {b : List Byte} {s : State} (hs : s.sound) : soundAfter (execOpenSess src ch b s) := by
  unfold execOpenSess
  try dsimp only
  repeat' first
    | with_reducible apply soundAfter_next | with_reducible assumption | with_reducible apply keeps_openRow


theorem keeps_execCloseSess {src : Source} {ch : Option Half} {b : List Byte} {s : State} (hs : s.sound) : soundAfter (execCloseSess src ch b s) := by
  unfold execCloseSess
  try dsimp only
  repeat' first
    | with_reducible apply soundAfter_next | with_reducible assumption | with_reducible apply keeps_closeRow


theorem keeps_execStatusReq {src : Source} {ch : Option Half} {b : List Byte} {s : State} (hs : s.sound) : soundAfter (execStatusReq src ch b s) := by
  unfold execStatusReq
  try dsimp only
  repeat' first
    | with_reducible apply soundAfter_next | with_reducible assumption | with_reducible apply keeps_statusRow


theorem keeps_execReadObj {src : Source} {ch : Option Half} {b : List Byte} {s : State} (hs : s.sound) : soundAfter (execReadObj src ch b s) := by
  unfold execReadObj
  try dsimp only
  repeat' first
    | with_reducible apply soundAfter_next | with_reducible assumption | with_reducible apply keeps_readRow


theorem keeps_execWriteObj {src : Source} {ch : Option Half} {b : List Byte} {s : State} (hs : s.sound) : soundAfter (execWriteObj src ch b s) := by
  unfold execWriteObj
  try dsimp only
  repeat' first
    | with_reducible apply soundAfter_next | with_reducible assumption | with_reducible apply keeps_writeRow


theorem keeps_execReadClear {src : Source} {ch : Option Half} {b : List Byte} {s : State} (hs : s.sound) : soundAfter (execReadClear src ch b s) := by
  unfold execReadClear
  try dsimp only
  repeat' first
    | with_reducible apply soundAfter_next | with_reducible assumption | with_reducible apply keeps_clearRow


theorem keeps_execDescribeObj {src : Source} {ch : Option Half} {b : List Byte} {s : State} (hs : s.sound) : soundAfter (execDescribeObj src ch b s) := by
  unfold execDescribeObj
  try dsimp only
  repeat' first
    | with_reducible apply soundAfter_next | with_reducible assumption | with_reducible apply keeps_describeRow


theorem keeps_execEventRead {src : Source} {ch : Option Half} {b : List Byte} {s : State} (hs : s.sound) : soundAfter (execEventRead src ch b s) := by
  unfold execEventRead
  try dsimp only
  repeat' first
    | with_reducible apply soundAfter_next | with_reducible assumption | with_reducible apply keeps_eventsRow


theorem keeps_execProxyReq {src : Source} {ch : Option Half} {b : List Byte} {far : ProxyIn} {s : State} (hs : s.sound) : soundAfter (execProxyReq src ch b far s) := by
  unfold execProxyReq
  try dsimp only
  repeat' first
    | with_reducible apply soundAfter_next | with_reducible assumption | with_reducible apply keeps_proxyRow


theorem keeps_execEventPendingClear {src : Source} {ch : Option Half} {b : List Byte} {s : State} (hs : s.sound) : soundAfter (execEventPendingClear src ch b s) := by
  unfold execEventPendingClear
  try dsimp only
  repeat' first
    | with_reducible apply soundAfter_next | with_reducible assumption | with_reducible apply keeps_pendingRow


theorem keeps_execServiceFrame {h : Half} {port : Nat} {f : Frame} {far : ProxyIn} {s : State} (hs : s.sound) : soundAfter (execServiceFrame h port f far s) := by
  unfold execServiceFrame
  try dsimp only
  repeat' first
    | with_reducible apply soundAfter_next | with_reducible assumption | with_reducible apply keeps_serviceRow


theorem keeps_execSessionTimeout {n : Nat} {s : State} (hs : s.sound) : soundAfter (execSessionTimeout n s) := by
  unfold execSessionTimeout
  try dsimp only
  repeat' first
    | with_reducible apply soundAfter_next | with_reducible assumption | with_reducible apply keeps_sessionTimeout


theorem keeps_execLockoutEnd {src : Source} {s : State} (hs : s.sound) : soundAfter (execLockoutEnd src s) := by
  unfold execLockoutEnd
  try dsimp only
  repeat' first
    | with_reducible apply soundAfter_next | with_reducible assumption | with_reducible apply keeps_lockoutEnd


theorem keeps_execNetworkSettingsApply {s : State} (hs : s.sound) : soundAfter (execNetworkSettingsApply s) := by
  unfold execNetworkSettingsApply
  try dsimp only
  repeat' first
    | with_reducible apply soundAfter_next | with_reducible assumption | with_reducible apply keeps_networkApply


theorem keeps_execMaintenancePortLinkDown {s : State} (hs : s.sound) : soundAfter (execMaintenancePortLinkDown s) := by
  unfold execMaintenancePortLinkDown
  try dsimp only
  repeat' first
    | with_reducible apply soundAfter_next | with_reducible assumption | with_reducible apply keeps_maintenanceDown


theorem keeps_execBusCycleStart {i : HeadIn} {s : State} (hs : s.sound) : soundAfter (execBusCycleStart i s) := by
  unfold execBusCycleStart
  try dsimp only
  repeat' first
    | with_reducible apply soundAfter_next | with_reducible assumption | with_reducible apply keeps_busCycleStart


theorem keeps_execProgramCycleTick {t : TickIn} {s : State} (hs : s.sound) : soundAfter (execProgramCycleTick t s) := by
  unfold execProgramCycleTick
  try dsimp only
  repeat' first
    | with_reducible apply soundAfter_next | with_reducible assumption | with_reducible apply keeps_programCycleTick


end Sys2Proof.Laws
end

