-- ==== Sys2Proof/Laws/Tables.lean ====
section
/-! SUPPORT. The plain containers: reading after a write, and what a write leaves alone. -/

namespace Sys2Proof.Laws

open Sys2Proof Sys2Proof.Machine

variable {α β : Type}

@[simp] theorem tabFind_put (t : Tab α) (n : Nat) (v : α) : tabFind (tabPut t n v) n = some v := by
  induction t with
  | nil => simp [tabPut, tabFind]
  | cons p t ih =>
    obtain ⟨k, w⟩ := p
    simp only [tabPut]
    split
    · simp [tabFind]
    · split
      · simp [tabFind]
      · rename_i h
        simp [tabFind, Ne.symm h, ih]

theorem tabFind_put_other (t : Tab α) {n m : Nat} (v : α) (h : m ≠ n) : tabFind (tabPut t n v) m = tabFind t m := by
  induction t with
  | nil => simp [tabPut, tabFind, Ne.symm h]
  | cons p t ih =>
    obtain ⟨k, w⟩ := p
    simp only [tabPut]
    split
    · simp [tabFind, Ne.symm h]
    · split
      · rename_i e
        subst e
        simp [tabFind, Ne.symm h]
      · simp [tabFind, ih]

@[simp] theorem tabGet_put (t : Tab α) (n : Nat) (v d : α) : tabGet (tabPut t n v) n d = v := by simp [tabGet]

theorem tabGet_put_other (t : Tab α) {n m : Nat} (v d : α) (h : m ≠ n) : tabGet (tabPut t n v) m d = tabGet t m d := by
  simp [tabGet, tabFind_put_other t v h]

@[simp] theorem tabGet_mod (t : Tab α) (n : Nat) (d : α) (f : α → α) : tabGet (tabMod t n d f) n d = f (tabGet t n d) := by
  simp [tabMod]

theorem tabGet_mod_other (t : Tab α) {n m : Nat} (d d' : α) (f : α → α) (h : m ≠ n) :
    tabGet (tabMod t n d f) m d' = tabGet t m d' := by
  simp [tabMod, tabGet_put_other _ _ _ h]

theorem tabFind_map (t : Tab α) (f : Nat → α → β) (n : Nat) : tabFind (tabMap t f) n = (tabFind t n).map (f n) := by
  induction t with
  | nil => rfl
  | cons p t ih =>
    obtain ⟨k, w⟩ := p
    simp only [tabMap, List.map_cons, tabFind]
    split
    · rename_i e
      subst e
      rfl
    · exact ih

/-- A table changed throughout by a function that keeps the default. -/
theorem tabGet_map (t : Tab α) (f : Nat → α → β) (n : Nat) (d : α) (e : β) (h : e = f n d) :
    tabGet (tabMap t f) n e = f n (tabGet t n d) := by
  subst h
  simp only [tabGet, tabFind_map]
  cases tabFind t n <;> rfl

@[simp] theorem twoGet_put (t : Two α) (h : Half) (v : α) : twoGet (twoPut t h v) h = v := by cases h <;> rfl

theorem twoGet_put_other (t : Two α) {h k : Half} (v : α) (e : k ≠ h) : twoGet (twoPut t h v) k = twoGet t k := by
  cases h <;> cases k <;> first | rfl | exact absurd rfl e

@[simp] theorem twoGet_mod (t : Two α) (h : Half) (f : α → α) : twoGet (twoMod t h f) h = f (twoGet t h) := by
  cases h <;> rfl

theorem twoGet_mod_other (t : Two α) {h k : Half} (f : α → α) (e : k ≠ h) : twoGet (twoMod t h f) k = twoGet t k :=
  twoGet_put_other t _ e

@[simp] theorem twoGet_map (t : Two α) (f : Half → α → β) (h : Half) : twoGet (twoMap t f) h = f h (twoGet t h) := by
  cases h <;> rfl

@[simp] theorem twoPut_get (t : Two α) (h : Half) : twoPut t h (twoGet t h) = t := by cases h <;> rfl

@[simp] theorem twoPut_put (t : Two α) (h : Half) (v w : α) : twoPut (twoPut t h v) h w = twoPut t h w := by cases h <;> rfl

theorem twoMod_eq_put (t : Two α) (h : Half) (f : α → α) : twoMod t h f = twoPut t h (f (twoGet t h)) := rfl

@[simp] theorem triGet_put (t : Three α) (l : Lane) (v : α) : triGet (triPut t l v) l = v := by cases l <;> rfl

theorem triGet_put_other (t : Three α) {l k : Lane} (v : α) (e : k ≠ l) : triGet (triPut t l v) k = triGet t k := by
  cases l <;> cases k <;> first | rfl | exact absurd rfl e

@[simp] theorem triGet_mod (t : Three α) (l : Lane) (f : α → α) : triGet (triMod t l f) l = f (triGet t l) := by
  cases l <;> rfl

theorem triGet_mod_other (t : Three α) {l k : Lane} (f : α → α) (e : k ≠ l) : triGet (triMod t l f) k = triGet t k :=
  triGet_put_other t _ e

@[simp] theorem triGet_map (t : Three α) (f : Lane → α → β) (l : Lane) : triGet (triMap t f) l = f l (triGet t l) := by
  cases l <;> rfl

@[simp] theorem triPut_get (t : Three α) (l : Lane) : triPut t l (triGet t l) = t := by cases l <;> rfl

theorem keepLast_of_le (n : Nat) (l : List α) (h : l.length ≤ n) : keepLast n l = l := by
  simp [keepLast, Nat.sub_eq_zero_of_le h]

end Sys2Proof.Laws
end

