-- ==== Sys2Proof/Laws/Kernel.lean ====
section
/-! SUPPORT. What the small changes of a kernel run do: elements, results, records, events (R97, R98, R566). -/

namespace Sys2Proof.Machine

open Sys2Proof.Laws

@[simp] theorem onK_k (f : Kernel → Kernel) (x : KRun) : (onK f x).k = f x.k := rfl
@[simp] theorem onK_recs (f : Kernel → Kernel) (x : KRun) : (onK f x).recs = x.recs := rfl
@[simp] theorem onK_evs (f : Kernel → Kernel) (x : KRun) : (onK f x).evs = x.evs := rfl
@[simp] theorem onK_reserves (f : Kernel → Kernel) (x : KRun) : (onK f x).reserves = x.reserves := rfl

@[simp] theorem modRoute_recs (n : Nat) (f : RouteSt → RouteSt) (x : KRun) : (modRoute n f x).recs = x.recs := rfl
@[simp] theorem modRoute_evs (n : Nat) (f : RouteSt → RouteSt) (x : KRun) : (modRoute n f x).evs = x.evs := rfl
@[simp] theorem modRoute_reserves (n : Nat) (f : RouteSt → RouteSt) (x : KRun) : (modRoute n f x).reserves = x.reserves := rfl
@[simp] theorem modPoint_recs (n : Nat) (f : PointSt → PointSt) (x : KRun) : (modPoint n f x).recs = x.recs := rfl
@[simp] theorem modPoint_evs (n : Nat) (f : PointSt → PointSt) (x : KRun) : (modPoint n f x).evs = x.evs := rfl
@[simp] theorem modPoint_reserves (n : Nat) (f : PointSt → PointSt) (x : KRun) : (modPoint n f x).reserves = x.reserves := rfl

theorem modRoute_k (n : Nat) (f : RouteSt → RouteSt) (x : KRun) :
    (modRoute n f x).k = { x.k with routes := tabMod x.k.routes n RouteSt.init f } := rfl
theorem modPoint_k (n : Nat) (f : PointSt → PointSt) (x : KRun) :
    (modPoint n f x).k = { x.k with points := tabMod x.k.points n PointSt.init f } := rfl
theorem modSignal_k (n : Nat) (f : SignalSt → SignalSt) (x : KRun) :
    (modSignal n f x).k = { x.k with signals := tabMod x.k.signals n SignalSt.init f } := rfl
theorem modCross_k (n : Nat) (f : CrossSt → CrossSt) (x : KRun) :
    (modCross n f x).k = { x.k with crossings := tabMod x.k.crossings n CrossSt.init f } := rfl

@[simp] theorem kResult_recs (p t c kd g co d : Nat) (x : KRun) : (kResult p t c kd g co d x).recs = x.recs := rfl
@[simp] theorem kResult_evs (p t c kd g co d : Nat) (x : KRun) : (kResult p t c kd g co d x).evs = x.evs := rfl
@[simp] theorem kResult_reserves (p t c kd g co d : Nat) (x : KRun) : (kResult p t c kd g co d x).reserves = x.reserves := rfl
theorem kResult_k (p t c kd g co d : Nat) (x : KRun) :
    (kResult p t c kd g co d x).k = { x.k with results := (kResult p t c kd g co d x).k.results } := rfl

@[simp] theorem kEv_k (e d : Nat) (x : KRun) : (kEv e d x).k = x.k := rfl
@[simp] theorem kEv_recs (e d : Nat) (x : KRun) : (kEv e d x).recs = x.recs := rfl
@[simp] theorem kEv_reserves (e d : Nat) (x : KRun) : (kEv e d x).reserves = x.reserves := rfl
@[simp] theorem kEv_evs (e d : Nat) (x : KRun) : (kEv e d x).evs = x.evs ++ [⟨e, d⟩] := rfl
@[simp] theorem kRec_k (ty e c w : Nat) (l : List Byte) (x : KRun) : (kRec ty e c w l x).k = x.k := rfl
@[simp] theorem kRec_evs (ty e c w : Nat) (l : List Byte) (x : KRun) : (kRec ty e c w l x).evs = x.evs := rfl
@[simp] theorem kRec_reserves (ty e c w : Nat) (l : List Byte) (x : KRun) : (kRec ty e c w l x).reserves = x.reserves := rfl

/-- The newest record of a port's ring after a result (R97, R98). -/
@[simp] theorem lastResult_kResult (p t c kd g co d : Nat) (x : KRun) :
    lastResult (kResult p t c kd g co d x).k p =
      some ⟨t, c, kd, g, co, d, x.k.image.num⟩ := by
  unfold lastResult kResult
  simp only [onK_k, tabGet_put]
  split <;> simp

/-- A result leaves the other ports' rings alone. -/
theorem results_kResult_other (p t c kd g co d q : Nat) (x : KRun) (h : q ≠ p) (r : Ring) :
    tabGet (kResult p t c kd g co d x).k.results q r = tabGet x.k.results q r := by
  unfold kResult
  simp only [onK_k]
  exact tabGet_put_other _ _ _ h

/-- A row of the kernel before the image's vote. -/
theorem kernelRow_laneRow (f : KEnv → KRun → KRun) (s : State) (h : imageVoted s = false) : kernelRow f s (laneRow f s) := by
  unfold laneRow
  rw [if_neg (by simp [h])]
  refine ⟨rfl, fun l => ⟨fun o ho hn hr => ?_, fun hno => ?_⟩⟩
  · refine ⟨_, rfl, ?_⟩
    simp [laneAgain, ho, hn, hr]
  · simp only [triGet_map, laneAgain]
    split
    · rename_i o ho
      rw [if_neg (by have := hno o ho; simp; exact this)]
    · rfl

end Sys2Proof.Machine
end

