-- ==== Sys2Proof/Laws/State.lean ====
section
/-! SUPPORT. What each named update of the state leaves alone: one lemma per update and field. -/

namespace Sys2Proof.Laws

open Sys2Proof Sys2Proof.Machine

variable {s : State}

@[simp] theorem raiseAt_pending {img e d : Nat} : (raiseAt img e d s).pending = s.pending := rfl
@[simp] theorem raiseAt_free {img e d : Nat} : (raiseAt img e d s).free = s.free := rfl
@[simp] theorem raiseAt_ns {img e d : Nat} : (raiseAt img e d s).ns = s.ns := rfl
@[simp] theorem raiseAt_cfg {img e d : Nat} : (raiseAt img e d s).cfg = s.cfg := rfl
@[simp] theorem raiseAt_ident {img e d : Nat} : (raiseAt img e d s).ident = s.ident := rfl
@[simp] theorem raiseAt_imageNo {img e d : Nat} : (raiseAt img e d s).imageNo = s.imageNo := rfl
@[simp] theorem raiseAt_image {img e d : Nat} : (raiseAt img e d s).image = s.image := rfl
@[simp] theorem raiseAt_lanes {img e d : Nat} : (raiseAt img e d s).lanes = s.lanes := rfl
@[simp] theorem raiseAt_view {img e d : Nat} : (raiseAt img e d s).view = s.view := rfl
@[simp] theorem raiseAt_vote {img e d : Nat} : (raiseAt img e d s).vote = s.vote := rfl
@[simp] theorem raiseAt_halves {img e d : Nat} : (raiseAt img e d s).halves = s.halves := rfl
@[simp] theorem raiseAt_comm {img e d : Nat} : (raiseAt img e d s).comm = s.comm := rfl
@[simp] theorem raiseAt_bus {img e d : Nat} : (raiseAt img e d s).bus = s.bus := rfl
@[simp] theorem raiseAt_busImg {img e d : Nat} : (raiseAt img e d s).busImg = s.busImg := rfl
@[simp] theorem raiseAt_env {img e d : Nat} : (raiseAt img e d s).env = s.env := rfl
@[simp] theorem raiseAt_tres {img e d : Nat} : (raiseAt img e d s).tres = s.tres := rfl
@[simp] theorem raiseAt_tx {img e d : Nat} : (raiseAt img e d s).tx = s.tx := rfl
@[simp] theorem raiseAt_lio {img e d : Nat} : (raiseAt img e d s).lio = s.lio := rfl
@[simp] theorem raiseAt_time {img e d : Nat} : (raiseAt img e d s).time = s.time := rfl
@[simp] theorem raiseAt_casc {img e d : Nat} : (raiseAt img e d s).casc = s.casc := rfl
@[simp] theorem raiseAt_pair {img e d : Nat} : (raiseAt img e d s).pair = s.pair := rfl
@[simp] theorem raiseAt_bridge {img e d : Nat} : (raiseAt img e d s).bridge = s.bridge := rfl
@[simp] theorem raiseAt_datum {img e d : Nat} : (raiseAt img e d s).datum = s.datum := rfl
@[simp] theorem raiseAt_book {img e d : Nat} : (raiseAt img e d s).book = s.book := rfl
@[simp] theorem raiseAt_chest {img e d : Nat} : (raiseAt img e d s).chest = s.chest := rfl
@[simp] theorem raiseAt_test {img e d : Nat} : (raiseAt img e d s).test = s.test := rfl
@[simp] theorem raiseAt_age {img e d : Nat} : (raiseAt img e d s).age = s.age := rfl
@[simp] theorem raiseAt_power {img e d : Nat} : (raiseAt img e d s).power = s.power := rfl
@[simp] theorem raiseAt_supply {img e d : Nat} : (raiseAt img e d s).supply = s.supply := rfl
@[simp] theorem raiseAt_load {img e d : Nat} : (raiseAt img e d s).load = s.load := rfl
@[simp] theorem raiseAt_progLoad {img e d : Nat} : (raiseAt img e d s).progLoad = s.progLoad := rfl
@[simp] theorem raiseAt_upd {img e d : Nat} : (raiseAt img e d s).upd = s.upd := rfl
@[simp] theorem raiseAt_set {img e d : Nat} : (raiseAt img e d s).set = s.set := rfl
@[simp] theorem raiseAt_queues {img e d : Nat} : (raiseAt img e d s).queues = s.queues := rfl

@[simp] theorem raiseEv_pending {e d : Nat} : (raiseEv e d s).pending = s.pending := rfl
@[simp] theorem raiseEv_free {e d : Nat} : (raiseEv e d s).free = s.free := rfl
@[simp] theorem raiseEv_ns {e d : Nat} : (raiseEv e d s).ns = s.ns := rfl
@[simp] theorem raiseEv_cfg {e d : Nat} : (raiseEv e d s).cfg = s.cfg := rfl
@[simp] theorem raiseEv_ident {e d : Nat} : (raiseEv e d s).ident = s.ident := rfl
@[simp] theorem raiseEv_imageNo {e d : Nat} : (raiseEv e d s).imageNo = s.imageNo := rfl
@[simp] theorem raiseEv_image {e d : Nat} : (raiseEv e d s).image = s.image := rfl
@[simp] theorem raiseEv_lanes {e d : Nat} : (raiseEv e d s).lanes = s.lanes := rfl
@[simp] theorem raiseEv_view {e d : Nat} : (raiseEv e d s).view = s.view := rfl
@[simp] theorem raiseEv_vote {e d : Nat} : (raiseEv e d s).vote = s.vote := rfl
@[simp] theorem raiseEv_halves {e d : Nat} : (raiseEv e d s).halves = s.halves := rfl
@[simp] theorem raiseEv_comm {e d : Nat} : (raiseEv e d s).comm = s.comm := rfl
@[simp] theorem raiseEv_bus {e d : Nat} : (raiseEv e d s).bus = s.bus := rfl
@[simp] theorem raiseEv_busImg {e d : Nat} : (raiseEv e d s).busImg = s.busImg := rfl
@[simp] theorem raiseEv_env {e d : Nat} : (raiseEv e d s).env = s.env := rfl
@[simp] theorem raiseEv_tres {e d : Nat} : (raiseEv e d s).tres = s.tres := rfl
@[simp] theorem raiseEv_tx {e d : Nat} : (raiseEv e d s).tx = s.tx := rfl
@[simp] theorem raiseEv_lio {e d : Nat} : (raiseEv e d s).lio = s.lio := rfl
@[simp] theorem raiseEv_time {e d : Nat} : (raiseEv e d s).time = s.time := rfl
@[simp] theorem raiseEv_casc {e d : Nat} : (raiseEv e d s).casc = s.casc := rfl
@[simp] theorem raiseEv_pair {e d : Nat} : (raiseEv e d s).pair = s.pair := rfl
@[simp] theorem raiseEv_bridge {e d : Nat} : (raiseEv e d s).bridge = s.bridge := rfl
@[simp] theorem raiseEv_datum {e d : Nat} : (raiseEv e d s).datum = s.datum := rfl
@[simp] theorem raiseEv_book {e d : Nat} : (raiseEv e d s).book = s.book := rfl
@[simp] theorem raiseEv_chest {e d : Nat} : (raiseEv e d s).chest = s.chest := rfl
@[simp] theorem raiseEv_test {e d : Nat} : (raiseEv e d s).test = s.test := rfl
@[simp] theorem raiseEv_age {e d : Nat} : (raiseEv e d s).age = s.age := rfl
@[simp] theorem raiseEv_power {e d : Nat} : (raiseEv e d s).power = s.power := rfl
@[simp] theorem raiseEv_supply {e d : Nat} : (raiseEv e d s).supply = s.supply := rfl
@[simp] theorem raiseEv_load {e d : Nat} : (raiseEv e d s).load = s.load := rfl
@[simp] theorem raiseEv_progLoad {e d : Nat} : (raiseEv e d s).progLoad = s.progLoad := rfl
@[simp] theorem raiseEv_upd {e d : Nat} : (raiseEv e d s).upd = s.upd := rfl
@[simp] theorem raiseEv_set {e d : Nat} : (raiseEv e d s).set = s.set := rfl
@[simp] theorem raiseEv_queues {e d : Nat} : (raiseEv e d s).queues = s.queues := rfl

@[simp] theorem noteDepth_pending {q d : Nat} {b : Bool} : (noteDepth q d b s).pending = s.pending := rfl
@[simp] theorem noteDepth_free {q d : Nat} {b : Bool} : (noteDepth q d b s).free = s.free := rfl
@[simp] theorem noteDepth_ns {q d : Nat} {b : Bool} : (noteDepth q d b s).ns = s.ns := rfl
@[simp] theorem noteDepth_cfg {q d : Nat} {b : Bool} : (noteDepth q d b s).cfg = s.cfg := rfl
@[simp] theorem noteDepth_ident {q d : Nat} {b : Bool} : (noteDepth q d b s).ident = s.ident := rfl
@[simp] theorem noteDepth_imageNo {q d : Nat} {b : Bool} : (noteDepth q d b s).imageNo = s.imageNo := rfl
@[simp] theorem noteDepth_image {q d : Nat} {b : Bool} : (noteDepth q d b s).image = s.image := rfl
@[simp] theorem noteDepth_lanes {q d : Nat} {b : Bool} : (noteDepth q d b s).lanes = s.lanes := rfl
@[simp] theorem noteDepth_view {q d : Nat} {b : Bool} : (noteDepth q d b s).view = s.view := rfl
@[simp] theorem noteDepth_vote {q d : Nat} {b : Bool} : (noteDepth q d b s).vote = s.vote := rfl
@[simp] theorem noteDepth_halves {q d : Nat} {b : Bool} : (noteDepth q d b s).halves = s.halves := rfl
@[simp] theorem noteDepth_comm {q d : Nat} {b : Bool} : (noteDepth q d b s).comm = s.comm := rfl
@[simp] theorem noteDepth_bus {q d : Nat} {b : Bool} : (noteDepth q d b s).bus = s.bus := rfl
@[simp] theorem noteDepth_busImg {q d : Nat} {b : Bool} : (noteDepth q d b s).busImg = s.busImg := rfl
@[simp] theorem noteDepth_env {q d : Nat} {b : Bool} : (noteDepth q d b s).env = s.env := rfl
@[simp] theorem noteDepth_tres {q d : Nat} {b : Bool} : (noteDepth q d b s).tres = s.tres := rfl
@[simp] theorem noteDepth_tx {q d : Nat} {b : Bool} : (noteDepth q d b s).tx = s.tx := rfl
@[simp] theorem noteDepth_lio {q d : Nat} {b : Bool} : (noteDepth q d b s).lio = s.lio := rfl
@[simp] theorem noteDepth_time {q d : Nat} {b : Bool} : (noteDepth q d b s).time = s.time := rfl
@[simp] theorem noteDepth_casc {q d : Nat} {b : Bool} : (noteDepth q d b s).casc = s.casc := rfl
@[simp] theorem noteDepth_pair {q d : Nat} {b : Bool} : (noteDepth q d b s).pair = s.pair := rfl
@[simp] theorem noteDepth_bridge {q d : Nat} {b : Bool} : (noteDepth q d b s).bridge = s.bridge := rfl
@[simp] theorem noteDepth_datum {q d : Nat} {b : Bool} : (noteDepth q d b s).datum = s.datum := rfl
@[simp] theorem noteDepth_ev {q d : Nat} {b : Bool} : (noteDepth q d b s).ev = s.ev := rfl
@[simp] theorem noteDepth_book {q d : Nat} {b : Bool} : (noteDepth q d b s).book = s.book := rfl
@[simp] theorem noteDepth_chest {q d : Nat} {b : Bool} : (noteDepth q d b s).chest = s.chest := rfl
@[simp] theorem noteDepth_test {q d : Nat} {b : Bool} : (noteDepth q d b s).test = s.test := rfl
@[simp] theorem noteDepth_age {q d : Nat} {b : Bool} : (noteDepth q d b s).age = s.age := rfl
@[simp] theorem noteDepth_power {q d : Nat} {b : Bool} : (noteDepth q d b s).power = s.power := rfl
@[simp] theorem noteDepth_supply {q d : Nat} {b : Bool} : (noteDepth q d b s).supply = s.supply := rfl
@[simp] theorem noteDepth_load {q d : Nat} {b : Bool} : (noteDepth q d b s).load = s.load := rfl
@[simp] theorem noteDepth_progLoad {q d : Nat} {b : Bool} : (noteDepth q d b s).progLoad = s.progLoad := rfl
@[simp] theorem noteDepth_upd {q d : Nat} {b : Bool} : (noteDepth q d b s).upd = s.upd := rfl
@[simp] theorem noteDepth_set {q d : Nat} {b : Bool} : (noteDepth q d b s).set = s.set := rfl
@[simp] theorem noteDepth_queues {q d : Nat} {b : Bool} : (noteDepth q d b s).queues = s.queues := rfl

@[simp] theorem takeFree_pending : (takeFree s).2.pending = s.pending := rfl
@[simp] theorem takeFree_ns : (takeFree s).2.ns = s.ns := rfl
@[simp] theorem takeFree_cfg : (takeFree s).2.cfg = s.cfg := rfl
@[simp] theorem takeFree_ident : (takeFree s).2.ident = s.ident := rfl
@[simp] theorem takeFree_imageNo : (takeFree s).2.imageNo = s.imageNo := rfl
@[simp] theorem takeFree_image : (takeFree s).2.image = s.image := rfl
@[simp] theorem takeFree_lanes : (takeFree s).2.lanes = s.lanes := rfl
@[simp] theorem takeFree_view : (takeFree s).2.view = s.view := rfl
@[simp] theorem takeFree_vote : (takeFree s).2.vote = s.vote := rfl
@[simp] theorem takeFree_halves : (takeFree s).2.halves = s.halves := rfl
@[simp] theorem takeFree_comm : (takeFree s).2.comm = s.comm := rfl
@[simp] theorem takeFree_bus : (takeFree s).2.bus = s.bus := rfl
@[simp] theorem takeFree_busImg : (takeFree s).2.busImg = s.busImg := rfl
@[simp] theorem takeFree_env : (takeFree s).2.env = s.env := rfl
@[simp] theorem takeFree_tres : (takeFree s).2.tres = s.tres := rfl
@[simp] theorem takeFree_tx : (takeFree s).2.tx = s.tx := rfl
@[simp] theorem takeFree_lio : (takeFree s).2.lio = s.lio := rfl
@[simp] theorem takeFree_time : (takeFree s).2.time = s.time := rfl
@[simp] theorem takeFree_casc : (takeFree s).2.casc = s.casc := rfl
@[simp] theorem takeFree_pair : (takeFree s).2.pair = s.pair := rfl
@[simp] theorem takeFree_bridge : (takeFree s).2.bridge = s.bridge := rfl
@[simp] theorem takeFree_datum : (takeFree s).2.datum = s.datum := rfl
@[simp] theorem takeFree_dict : (takeFree s).2.dict = s.dict := rfl
@[simp] theorem takeFree_ev : (takeFree s).2.ev = s.ev := rfl
@[simp] theorem takeFree_book : (takeFree s).2.book = s.book := rfl
@[simp] theorem takeFree_chest : (takeFree s).2.chest = s.chest := rfl
@[simp] theorem takeFree_test : (takeFree s).2.test = s.test := rfl
@[simp] theorem takeFree_age : (takeFree s).2.age = s.age := rfl
@[simp] theorem takeFree_power : (takeFree s).2.power = s.power := rfl
@[simp] theorem takeFree_supply : (takeFree s).2.supply = s.supply := rfl
@[simp] theorem takeFree_load : (takeFree s).2.load = s.load := rfl
@[simp] theorem takeFree_progLoad : (takeFree s).2.progLoad = s.progLoad := rfl
@[simp] theorem takeFree_upd : (takeFree s).2.upd = s.upd := rfl
@[simp] theorem takeFree_set : (takeFree s).2.set = s.set := rfl
@[simp] theorem takeFree_queues : (takeFree s).2.queues = s.queues := rfl

@[simp] theorem modSess_pending {n : Nat} {f : Session → Session} : (modSess n f s).pending = s.pending := rfl
@[simp] theorem modSess_free {n : Nat} {f : Session → Session} : (modSess n f s).free = s.free := rfl
@[simp] theorem modSess_ns {n : Nat} {f : Session → Session} : (modSess n f s).ns = s.ns := rfl
@[simp] theorem modSess_cfg {n : Nat} {f : Session → Session} : (modSess n f s).cfg = s.cfg := rfl
@[simp] theorem modSess_ident {n : Nat} {f : Session → Session} : (modSess n f s).ident = s.ident := rfl
@[simp] theorem modSess_imageNo {n : Nat} {f : Session → Session} : (modSess n f s).imageNo = s.imageNo := rfl
@[simp] theorem modSess_image {n : Nat} {f : Session → Session} : (modSess n f s).image = s.image := rfl
@[simp] theorem modSess_lanes {n : Nat} {f : Session → Session} : (modSess n f s).lanes = s.lanes := rfl
@[simp] theorem modSess_view {n : Nat} {f : Session → Session} : (modSess n f s).view = s.view := rfl
@[simp] theorem modSess_vote {n : Nat} {f : Session → Session} : (modSess n f s).vote = s.vote := rfl
@[simp] theorem modSess_halves {n : Nat} {f : Session → Session} : (modSess n f s).halves = s.halves := rfl
@[simp] theorem modSess_comm {n : Nat} {f : Session → Session} : (modSess n f s).comm = s.comm := rfl
@[simp] theorem modSess_bus {n : Nat} {f : Session → Session} : (modSess n f s).bus = s.bus := rfl
@[simp] theorem modSess_busImg {n : Nat} {f : Session → Session} : (modSess n f s).busImg = s.busImg := rfl
@[simp] theorem modSess_env {n : Nat} {f : Session → Session} : (modSess n f s).env = s.env := rfl
@[simp] theorem modSess_tres {n : Nat} {f : Session → Session} : (modSess n f s).tres = s.tres := rfl
@[simp] theorem modSess_tx {n : Nat} {f : Session → Session} : (modSess n f s).tx = s.tx := rfl
@[simp] theorem modSess_lio {n : Nat} {f : Session → Session} : (modSess n f s).lio = s.lio := rfl
@[simp] theorem modSess_time {n : Nat} {f : Session → Session} : (modSess n f s).time = s.time := rfl
@[simp] theorem modSess_casc {n : Nat} {f : Session → Session} : (modSess n f s).casc = s.casc := rfl
@[simp] theorem modSess_pair {n : Nat} {f : Session → Session} : (modSess n f s).pair = s.pair := rfl
@[simp] theorem modSess_bridge {n : Nat} {f : Session → Session} : (modSess n f s).bridge = s.bridge := rfl
@[simp] theorem modSess_datum {n : Nat} {f : Session → Session} : (modSess n f s).datum = s.datum := rfl
@[simp] theorem modSess_ev {n : Nat} {f : Session → Session} : (modSess n f s).ev = s.ev := rfl
@[simp] theorem modSess_book {n : Nat} {f : Session → Session} : (modSess n f s).book = s.book := rfl
@[simp] theorem modSess_chest {n : Nat} {f : Session → Session} : (modSess n f s).chest = s.chest := rfl
@[simp] theorem modSess_test {n : Nat} {f : Session → Session} : (modSess n f s).test = s.test := rfl
@[simp] theorem modSess_age {n : Nat} {f : Session → Session} : (modSess n f s).age = s.age := rfl
@[simp] theorem modSess_power {n : Nat} {f : Session → Session} : (modSess n f s).power = s.power := rfl
@[simp] theorem modSess_supply {n : Nat} {f : Session → Session} : (modSess n f s).supply = s.supply := rfl
@[simp] theorem modSess_load {n : Nat} {f : Session → Session} : (modSess n f s).load = s.load := rfl
@[simp] theorem modSess_progLoad {n : Nat} {f : Session → Session} : (modSess n f s).progLoad = s.progLoad := rfl
@[simp] theorem modSess_upd {n : Nat} {f : Session → Session} : (modSess n f s).upd = s.upd := rfl
@[simp] theorem modSess_set {n : Nat} {f : Session → Session} : (modSess n f s).set = s.set := rfl
@[simp] theorem modSess_queues {n : Nat} {f : Session → Session} : (modSess n f s).queues = s.queues := rfl

@[simp] theorem withResult_pending {r : Nat × List Byte} : (withResult r s).pending = s.pending := rfl
@[simp] theorem withResult_free {r : Nat × List Byte} : (withResult r s).free = s.free := rfl
@[simp] theorem withResult_ns {r : Nat × List Byte} : (withResult r s).ns = s.ns := rfl
@[simp] theorem withResult_cfg {r : Nat × List Byte} : (withResult r s).cfg = s.cfg := rfl
@[simp] theorem withResult_ident {r : Nat × List Byte} : (withResult r s).ident = s.ident := rfl
@[simp] theorem withResult_imageNo {r : Nat × List Byte} : (withResult r s).imageNo = s.imageNo := rfl
@[simp] theorem withResult_image {r : Nat × List Byte} : (withResult r s).image = s.image := rfl
@[simp] theorem withResult_lanes {r : Nat × List Byte} : (withResult r s).lanes = s.lanes := rfl
@[simp] theorem withResult_view {r : Nat × List Byte} : (withResult r s).view = s.view := rfl
@[simp] theorem withResult_vote {r : Nat × List Byte} : (withResult r s).vote = s.vote := rfl
@[simp] theorem withResult_halves {r : Nat × List Byte} : (withResult r s).halves = s.halves := rfl
@[simp] theorem withResult_comm {r : Nat × List Byte} : (withResult r s).comm = s.comm := rfl
@[simp] theorem withResult_bus {r : Nat × List Byte} : (withResult r s).bus = s.bus := rfl
@[simp] theorem withResult_busImg {r : Nat × List Byte} : (withResult r s).busImg = s.busImg := rfl
@[simp] theorem withResult_env {r : Nat × List Byte} : (withResult r s).env = s.env := rfl
@[simp] theorem withResult_tres {r : Nat × List Byte} : (withResult r s).tres = s.tres := rfl
@[simp] theorem withResult_tx {r : Nat × List Byte} : (withResult r s).tx = s.tx := rfl
@[simp] theorem withResult_lio {r : Nat × List Byte} : (withResult r s).lio = s.lio := rfl
@[simp] theorem withResult_time {r : Nat × List Byte} : (withResult r s).time = s.time := rfl
@[simp] theorem withResult_casc {r : Nat × List Byte} : (withResult r s).casc = s.casc := rfl
@[simp] theorem withResult_pair {r : Nat × List Byte} : (withResult r s).pair = s.pair := rfl
@[simp] theorem withResult_bridge {r : Nat × List Byte} : (withResult r s).bridge = s.bridge := rfl
@[simp] theorem withResult_datum {r : Nat × List Byte} : (withResult r s).datum = s.datum := rfl
@[simp] theorem withResult_ev {r : Nat × List Byte} : (withResult r s).ev = s.ev := rfl
@[simp] theorem withResult_book {r : Nat × List Byte} : (withResult r s).book = s.book := rfl
@[simp] theorem withResult_chest {r : Nat × List Byte} : (withResult r s).chest = s.chest := rfl
@[simp] theorem withResult_test {r : Nat × List Byte} : (withResult r s).test = s.test := rfl
@[simp] theorem withResult_age {r : Nat × List Byte} : (withResult r s).age = s.age := rfl
@[simp] theorem withResult_power {r : Nat × List Byte} : (withResult r s).power = s.power := rfl
@[simp] theorem withResult_supply {r : Nat × List Byte} : (withResult r s).supply = s.supply := rfl
@[simp] theorem withResult_load {r : Nat × List Byte} : (withResult r s).load = s.load := rfl
@[simp] theorem withResult_progLoad {r : Nat × List Byte} : (withResult r s).progLoad = s.progLoad := rfl
@[simp] theorem withResult_upd {r : Nat × List Byte} : (withResult r s).upd = s.upd := rfl
@[simp] theorem withResult_set {r : Nat × List Byte} : (withResult r s).set = s.set := rfl
@[simp] theorem withResult_queues {r : Nat × List Byte} : (withResult r s).queues = s.queues := rfl

@[simp] theorem modPort_pending {h : Half} {p : Nat} {f : PortSt → PortSt} : (modPort h p f s).pending = s.pending := rfl
@[simp] theorem modPort_free {h : Half} {p : Nat} {f : PortSt → PortSt} : (modPort h p f s).free = s.free := rfl
@[simp] theorem modPort_ns {h : Half} {p : Nat} {f : PortSt → PortSt} : (modPort h p f s).ns = s.ns := rfl
@[simp] theorem modPort_cfg {h : Half} {p : Nat} {f : PortSt → PortSt} : (modPort h p f s).cfg = s.cfg := rfl
@[simp] theorem modPort_ident {h : Half} {p : Nat} {f : PortSt → PortSt} : (modPort h p f s).ident = s.ident := rfl
@[simp] theorem modPort_imageNo {h : Half} {p : Nat} {f : PortSt → PortSt} : (modPort h p f s).imageNo = s.imageNo := rfl
@[simp] theorem modPort_image {h : Half} {p : Nat} {f : PortSt → PortSt} : (modPort h p f s).image = s.image := rfl
@[simp] theorem modPort_lanes {h : Half} {p : Nat} {f : PortSt → PortSt} : (modPort h p f s).lanes = s.lanes := rfl
@[simp] theorem modPort_view {h : Half} {p : Nat} {f : PortSt → PortSt} : (modPort h p f s).view = s.view := rfl
@[simp] theorem modPort_vote {h : Half} {p : Nat} {f : PortSt → PortSt} : (modPort h p f s).vote = s.vote := rfl
@[simp] theorem modPort_halves {h : Half} {p : Nat} {f : PortSt → PortSt} : (modPort h p f s).halves = s.halves := rfl
@[simp] theorem modPort_comm {h : Half} {p : Nat} {f : PortSt → PortSt} : (modPort h p f s).comm = s.comm := rfl
@[simp] theorem modPort_busImg {h : Half} {p : Nat} {f : PortSt → PortSt} : (modPort h p f s).busImg = s.busImg := rfl
@[simp] theorem modPort_env {h : Half} {p : Nat} {f : PortSt → PortSt} : (modPort h p f s).env = s.env := rfl
@[simp] theorem modPort_tres {h : Half} {p : Nat} {f : PortSt → PortSt} : (modPort h p f s).tres = s.tres := rfl
@[simp] theorem modPort_tx {h : Half} {p : Nat} {f : PortSt → PortSt} : (modPort h p f s).tx = s.tx := rfl
@[simp] theorem modPort_lio {h : Half} {p : Nat} {f : PortSt → PortSt} : (modPort h p f s).lio = s.lio := rfl
@[simp] theorem modPort_time {h : Half} {p : Nat} {f : PortSt → PortSt} : (modPort h p f s).time = s.time := rfl
@[simp] theorem modPort_casc {h : Half} {p : Nat} {f : PortSt → PortSt} : (modPort h p f s).casc = s.casc := rfl
@[simp] theorem modPort_pair {h : Half} {p : Nat} {f : PortSt → PortSt} : (modPort h p f s).pair = s.pair := rfl
@[simp] theorem modPort_bridge {h : Half} {p : Nat} {f : PortSt → PortSt} : (modPort h p f s).bridge = s.bridge := rfl
@[simp] theorem modPort_datum {h : Half} {p : Nat} {f : PortSt → PortSt} : (modPort h p f s).datum = s.datum := rfl
@[simp] theorem modPort_dict {h : Half} {p : Nat} {f : PortSt → PortSt} : (modPort h p f s).dict = s.dict := rfl
@[simp] theorem modPort_ev {h : Half} {p : Nat} {f : PortSt → PortSt} : (modPort h p f s).ev = s.ev := rfl
@[simp] theorem modPort_book {h : Half} {p : Nat} {f : PortSt → PortSt} : (modPort h p f s).book = s.book := rfl
@[simp] theorem modPort_chest {h : Half} {p : Nat} {f : PortSt → PortSt} : (modPort h p f s).chest = s.chest := rfl
@[simp] theorem modPort_test {h : Half} {p : Nat} {f : PortSt → PortSt} : (modPort h p f s).test = s.test := rfl
@[simp] theorem modPort_age {h : Half} {p : Nat} {f : PortSt → PortSt} : (modPort h p f s).age = s.age := rfl
@[simp] theorem modPort_power {h : Half} {p : Nat} {f : PortSt → PortSt} : (modPort h p f s).power = s.power := rfl
@[simp] theorem modPort_supply {h : Half} {p : Nat} {f : PortSt → PortSt} : (modPort h p f s).supply = s.supply := rfl
@[simp] theorem modPort_load {h : Half} {p : Nat} {f : PortSt → PortSt} : (modPort h p f s).load = s.load := rfl
@[simp] theorem modPort_progLoad {h : Half} {p : Nat} {f : PortSt → PortSt} : (modPort h p f s).progLoad = s.progLoad := rfl
@[simp] theorem modPort_upd {h : Half} {p : Nat} {f : PortSt → PortSt} : (modPort h p f s).upd = s.upd := rfl
@[simp] theorem modPort_set {h : Half} {p : Nat} {f : PortSt → PortSt} : (modPort h p f s).set = s.set := rfl
@[simp] theorem modPort_queues {h : Half} {p : Nat} {f : PortSt → PortSt} : (modPort h p f s).queues = s.queues := rfl

@[simp] theorem modChan_pending {h : Half} {f : ChanSt → ChanSt} : (modChan h f s).pending = s.pending := rfl
@[simp] theorem modChan_free {h : Half} {f : ChanSt → ChanSt} : (modChan h f s).free = s.free := rfl
@[simp] theorem modChan_ns {h : Half} {f : ChanSt → ChanSt} : (modChan h f s).ns = s.ns := rfl
@[simp] theorem modChan_cfg {h : Half} {f : ChanSt → ChanSt} : (modChan h f s).cfg = s.cfg := rfl
@[simp] theorem modChan_ident {h : Half} {f : ChanSt → ChanSt} : (modChan h f s).ident = s.ident := rfl
@[simp] theorem modChan_imageNo {h : Half} {f : ChanSt → ChanSt} : (modChan h f s).imageNo = s.imageNo := rfl
@[simp] theorem modChan_image {h : Half} {f : ChanSt → ChanSt} : (modChan h f s).image = s.image := rfl
@[simp] theorem modChan_lanes {h : Half} {f : ChanSt → ChanSt} : (modChan h f s).lanes = s.lanes := rfl
@[simp] theorem modChan_view {h : Half} {f : ChanSt → ChanSt} : (modChan h f s).view = s.view := rfl
@[simp] theorem modChan_vote {h : Half} {f : ChanSt → ChanSt} : (modChan h f s).vote = s.vote := rfl
@[simp] theorem modChan_halves {h : Half} {f : ChanSt → ChanSt} : (modChan h f s).halves = s.halves := rfl
@[simp] theorem modChan_comm {h : Half} {f : ChanSt → ChanSt} : (modChan h f s).comm = s.comm := rfl
@[simp] theorem modChan_busImg {h : Half} {f : ChanSt → ChanSt} : (modChan h f s).busImg = s.busImg := rfl
@[simp] theorem modChan_env {h : Half} {f : ChanSt → ChanSt} : (modChan h f s).env = s.env := rfl
@[simp] theorem modChan_tres {h : Half} {f : ChanSt → ChanSt} : (modChan h f s).tres = s.tres := rfl
@[simp] theorem modChan_tx {h : Half} {f : ChanSt → ChanSt} : (modChan h f s).tx = s.tx := rfl
@[simp] theorem modChan_lio {h : Half} {f : ChanSt → ChanSt} : (modChan h f s).lio = s.lio := rfl
@[simp] theorem modChan_time {h : Half} {f : ChanSt → ChanSt} : (modChan h f s).time = s.time := rfl
@[simp] theorem modChan_casc {h : Half} {f : ChanSt → ChanSt} : (modChan h f s).casc = s.casc := rfl
@[simp] theorem modChan_pair {h : Half} {f : ChanSt → ChanSt} : (modChan h f s).pair = s.pair := rfl
@[simp] theorem modChan_bridge {h : Half} {f : ChanSt → ChanSt} : (modChan h f s).bridge = s.bridge := rfl
@[simp] theorem modChan_datum {h : Half} {f : ChanSt → ChanSt} : (modChan h f s).datum = s.datum := rfl
@[simp] theorem modChan_dict {h : Half} {f : ChanSt → ChanSt} : (modChan h f s).dict = s.dict := rfl
@[simp] theorem modChan_ev {h : Half} {f : ChanSt → ChanSt} : (modChan h f s).ev = s.ev := rfl
@[simp] theorem modChan_book {h : Half} {f : ChanSt → ChanSt} : (modChan h f s).book = s.book := rfl
@[simp] theorem modChan_chest {h : Half} {f : ChanSt → ChanSt} : (modChan h f s).chest = s.chest := rfl
@[simp] theorem modChan_test {h : Half} {f : ChanSt → ChanSt} : (modChan h f s).test = s.test := rfl
@[simp] theorem modChan_age {h : Half} {f : ChanSt → ChanSt} : (modChan h f s).age = s.age := rfl
@[simp] theorem modChan_power {h : Half} {f : ChanSt → ChanSt} : (modChan h f s).power = s.power := rfl
@[simp] theorem modChan_supply {h : Half} {f : ChanSt → ChanSt} : (modChan h f s).supply = s.supply := rfl
@[simp] theorem modChan_load {h : Half} {f : ChanSt → ChanSt} : (modChan h f s).load = s.load := rfl
@[simp] theorem modChan_progLoad {h : Half} {f : ChanSt → ChanSt} : (modChan h f s).progLoad = s.progLoad := rfl
@[simp] theorem modChan_upd {h : Half} {f : ChanSt → ChanSt} : (modChan h f s).upd = s.upd := rfl
@[simp] theorem modChan_set {h : Half} {f : ChanSt → ChanSt} : (modChan h f s).set = s.set := rfl
@[simp] theorem modChan_queues {h : Half} {f : ChanSt → ChanSt} : (modChan h f s).queues = s.queues := rfl

@[simp] theorem modPtp_pending {f : PtpSt → PtpSt} : (modPtp f s).pending = s.pending := rfl
@[simp] theorem modPtp_free {f : PtpSt → PtpSt} : (modPtp f s).free = s.free := rfl
@[simp] theorem modPtp_ns {f : PtpSt → PtpSt} : (modPtp f s).ns = s.ns := rfl
@[simp] theorem modPtp_cfg {f : PtpSt → PtpSt} : (modPtp f s).cfg = s.cfg := rfl
@[simp] theorem modPtp_ident {f : PtpSt → PtpSt} : (modPtp f s).ident = s.ident := rfl
@[simp] theorem modPtp_imageNo {f : PtpSt → PtpSt} : (modPtp f s).imageNo = s.imageNo := rfl
@[simp] theorem modPtp_image {f : PtpSt → PtpSt} : (modPtp f s).image = s.image := rfl
@[simp] theorem modPtp_lanes {f : PtpSt → PtpSt} : (modPtp f s).lanes = s.lanes := rfl
@[simp] theorem modPtp_view {f : PtpSt → PtpSt} : (modPtp f s).view = s.view := rfl
@[simp] theorem modPtp_vote {f : PtpSt → PtpSt} : (modPtp f s).vote = s.vote := rfl
@[simp] theorem modPtp_halves {f : PtpSt → PtpSt} : (modPtp f s).halves = s.halves := rfl
@[simp] theorem modPtp_comm {f : PtpSt → PtpSt} : (modPtp f s).comm = s.comm := rfl
@[simp] theorem modPtp_bus {f : PtpSt → PtpSt} : (modPtp f s).bus = s.bus := rfl
@[simp] theorem modPtp_busImg {f : PtpSt → PtpSt} : (modPtp f s).busImg = s.busImg := rfl
@[simp] theorem modPtp_env {f : PtpSt → PtpSt} : (modPtp f s).env = s.env := rfl
@[simp] theorem modPtp_tres {f : PtpSt → PtpSt} : (modPtp f s).tres = s.tres := rfl
@[simp] theorem modPtp_tx {f : PtpSt → PtpSt} : (modPtp f s).tx = s.tx := rfl
@[simp] theorem modPtp_lio {f : PtpSt → PtpSt} : (modPtp f s).lio = s.lio := rfl
@[simp] theorem modPtp_casc {f : PtpSt → PtpSt} : (modPtp f s).casc = s.casc := rfl
@[simp] theorem modPtp_pair {f : PtpSt → PtpSt} : (modPtp f s).pair = s.pair := rfl
@[simp] theorem modPtp_bridge {f : PtpSt → PtpSt} : (modPtp f s).bridge = s.bridge := rfl
@[simp] theorem modPtp_datum {f : PtpSt → PtpSt} : (modPtp f s).datum = s.datum := rfl
@[simp] theorem modPtp_dict {f : PtpSt → PtpSt} : (modPtp f s).dict = s.dict := rfl
@[simp] theorem modPtp_ev {f : PtpSt → PtpSt} : (modPtp f s).ev = s.ev := rfl
@[simp] theorem modPtp_book {f : PtpSt → PtpSt} : (modPtp f s).book = s.book := rfl
@[simp] theorem modPtp_chest {f : PtpSt → PtpSt} : (modPtp f s).chest = s.chest := rfl
@[simp] theorem modPtp_test {f : PtpSt → PtpSt} : (modPtp f s).test = s.test := rfl
@[simp] theorem modPtp_age {f : PtpSt → PtpSt} : (modPtp f s).age = s.age := rfl
@[simp] theorem modPtp_power {f : PtpSt → PtpSt} : (modPtp f s).power = s.power := rfl
@[simp] theorem modPtp_supply {f : PtpSt → PtpSt} : (modPtp f s).supply = s.supply := rfl
@[simp] theorem modPtp_load {f : PtpSt → PtpSt} : (modPtp f s).load = s.load := rfl
@[simp] theorem modPtp_progLoad {f : PtpSt → PtpSt} : (modPtp f s).progLoad = s.progLoad := rfl
@[simp] theorem modPtp_upd {f : PtpSt → PtpSt} : (modPtp f s).upd = s.upd := rfl
@[simp] theorem modPtp_set {f : PtpSt → PtpSt} : (modPtp f s).set = s.set := rfl
@[simp] theorem modPtp_queues {f : PtpSt → PtpSt} : (modPtp f s).queues = s.queues := rfl

@[simp] theorem modBridge_pending {f : BridgeSt → BridgeSt} : (modBridge f s).pending = s.pending := rfl
@[simp] theorem modBridge_free {f : BridgeSt → BridgeSt} : (modBridge f s).free = s.free := rfl
@[simp] theorem modBridge_ns {f : BridgeSt → BridgeSt} : (modBridge f s).ns = s.ns := rfl
@[simp] theorem modBridge_cfg {f : BridgeSt → BridgeSt} : (modBridge f s).cfg = s.cfg := rfl
@[simp] theorem modBridge_ident {f : BridgeSt → BridgeSt} : (modBridge f s).ident = s.ident := rfl
@[simp] theorem modBridge_imageNo {f : BridgeSt → BridgeSt} : (modBridge f s).imageNo = s.imageNo := rfl
@[simp] theorem modBridge_image {f : BridgeSt → BridgeSt} : (modBridge f s).image = s.image := rfl
@[simp] theorem modBridge_lanes {f : BridgeSt → BridgeSt} : (modBridge f s).lanes = s.lanes := rfl
@[simp] theorem modBridge_view {f : BridgeSt → BridgeSt} : (modBridge f s).view = s.view := rfl
@[simp] theorem modBridge_vote {f : BridgeSt → BridgeSt} : (modBridge f s).vote = s.vote := rfl
@[simp] theorem modBridge_halves {f : BridgeSt → BridgeSt} : (modBridge f s).halves = s.halves := rfl
@[simp] theorem modBridge_comm {f : BridgeSt → BridgeSt} : (modBridge f s).comm = s.comm := rfl
@[simp] theorem modBridge_bus {f : BridgeSt → BridgeSt} : (modBridge f s).bus = s.bus := rfl
@[simp] theorem modBridge_busImg {f : BridgeSt → BridgeSt} : (modBridge f s).busImg = s.busImg := rfl
@[simp] theorem modBridge_env {f : BridgeSt → BridgeSt} : (modBridge f s).env = s.env := rfl
@[simp] theorem modBridge_tres {f : BridgeSt → BridgeSt} : (modBridge f s).tres = s.tres := rfl
@[simp] theorem modBridge_tx {f : BridgeSt → BridgeSt} : (modBridge f s).tx = s.tx := rfl
@[simp] theorem modBridge_lio {f : BridgeSt → BridgeSt} : (modBridge f s).lio = s.lio := rfl
@[simp] theorem modBridge_time {f : BridgeSt → BridgeSt} : (modBridge f s).time = s.time := rfl
@[simp] theorem modBridge_casc {f : BridgeSt → BridgeSt} : (modBridge f s).casc = s.casc := rfl
@[simp] theorem modBridge_pair {f : BridgeSt → BridgeSt} : (modBridge f s).pair = s.pair := rfl
@[simp] theorem modBridge_datum {f : BridgeSt → BridgeSt} : (modBridge f s).datum = s.datum := rfl
@[simp] theorem modBridge_dict {f : BridgeSt → BridgeSt} : (modBridge f s).dict = s.dict := rfl
@[simp] theorem modBridge_ev {f : BridgeSt → BridgeSt} : (modBridge f s).ev = s.ev := rfl
@[simp] theorem modBridge_book {f : BridgeSt → BridgeSt} : (modBridge f s).book = s.book := rfl
@[simp] theorem modBridge_chest {f : BridgeSt → BridgeSt} : (modBridge f s).chest = s.chest := rfl
@[simp] theorem modBridge_test {f : BridgeSt → BridgeSt} : (modBridge f s).test = s.test := rfl
@[simp] theorem modBridge_age {f : BridgeSt → BridgeSt} : (modBridge f s).age = s.age := rfl
@[simp] theorem modBridge_power {f : BridgeSt → BridgeSt} : (modBridge f s).power = s.power := rfl
@[simp] theorem modBridge_supply {f : BridgeSt → BridgeSt} : (modBridge f s).supply = s.supply := rfl
@[simp] theorem modBridge_load {f : BridgeSt → BridgeSt} : (modBridge f s).load = s.load := rfl
@[simp] theorem modBridge_progLoad {f : BridgeSt → BridgeSt} : (modBridge f s).progLoad = s.progLoad := rfl
@[simp] theorem modBridge_upd {f : BridgeSt → BridgeSt} : (modBridge f s).upd = s.upd := rfl
@[simp] theorem modBridge_set {f : BridgeSt → BridgeSt} : (modBridge f s).set = s.set := rfl
@[simp] theorem modBridge_queues {f : BridgeSt → BridgeSt} : (modBridge f s).queues = s.queues := rfl

@[simp] theorem modPairLink_pending {f : PairLinkSt → PairLinkSt} : (modPairLink f s).pending = s.pending := rfl
@[simp] theorem modPairLink_free {f : PairLinkSt → PairLinkSt} : (modPairLink f s).free = s.free := rfl
@[simp] theorem modPairLink_ns {f : PairLinkSt → PairLinkSt} : (modPairLink f s).ns = s.ns := rfl
@[simp] theorem modPairLink_cfg {f : PairLinkSt → PairLinkSt} : (modPairLink f s).cfg = s.cfg := rfl
@[simp] theorem modPairLink_ident {f : PairLinkSt → PairLinkSt} : (modPairLink f s).ident = s.ident := rfl
@[simp] theorem modPairLink_imageNo {f : PairLinkSt → PairLinkSt} : (modPairLink f s).imageNo = s.imageNo := rfl
@[simp] theorem modPairLink_image {f : PairLinkSt → PairLinkSt} : (modPairLink f s).image = s.image := rfl
@[simp] theorem modPairLink_lanes {f : PairLinkSt → PairLinkSt} : (modPairLink f s).lanes = s.lanes := rfl
@[simp] theorem modPairLink_view {f : PairLinkSt → PairLinkSt} : (modPairLink f s).view = s.view := rfl
@[simp] theorem modPairLink_vote {f : PairLinkSt → PairLinkSt} : (modPairLink f s).vote = s.vote := rfl
@[simp] theorem modPairLink_halves {f : PairLinkSt → PairLinkSt} : (modPairLink f s).halves = s.halves := rfl
@[simp] theorem modPairLink_comm {f : PairLinkSt → PairLinkSt} : (modPairLink f s).comm = s.comm := rfl
@[simp] theorem modPairLink_bus {f : PairLinkSt → PairLinkSt} : (modPairLink f s).bus = s.bus := rfl
@[simp] theorem modPairLink_busImg {f : PairLinkSt → PairLinkSt} : (modPairLink f s).busImg = s.busImg := rfl
@[simp] theorem modPairLink_env {f : PairLinkSt → PairLinkSt} : (modPairLink f s).env = s.env := rfl
@[simp] theorem modPairLink_tres {f : PairLinkSt → PairLinkSt} : (modPairLink f s).tres = s.tres := rfl
@[simp] theorem modPairLink_tx {f : PairLinkSt → PairLinkSt} : (modPairLink f s).tx = s.tx := rfl
@[simp] theorem modPairLink_lio {f : PairLinkSt → PairLinkSt} : (modPairLink f s).lio = s.lio := rfl
@[simp] theorem modPairLink_time {f : PairLinkSt → PairLinkSt} : (modPairLink f s).time = s.time := rfl
@[simp] theorem modPairLink_casc {f : PairLinkSt → PairLinkSt} : (modPairLink f s).casc = s.casc := rfl
@[simp] theorem modPairLink_bridge {f : PairLinkSt → PairLinkSt} : (modPairLink f s).bridge = s.bridge := rfl
@[simp] theorem modPairLink_datum {f : PairLinkSt → PairLinkSt} : (modPairLink f s).datum = s.datum := rfl
@[simp] theorem modPairLink_dict {f : PairLinkSt → PairLinkSt} : (modPairLink f s).dict = s.dict := rfl
@[simp] theorem modPairLink_ev {f : PairLinkSt → PairLinkSt} : (modPairLink f s).ev = s.ev := rfl
@[simp] theorem modPairLink_book {f : PairLinkSt → PairLinkSt} : (modPairLink f s).book = s.book := rfl
@[simp] theorem modPairLink_chest {f : PairLinkSt → PairLinkSt} : (modPairLink f s).chest = s.chest := rfl
@[simp] theorem modPairLink_test {f : PairLinkSt → PairLinkSt} : (modPairLink f s).test = s.test := rfl
@[simp] theorem modPairLink_age {f : PairLinkSt → PairLinkSt} : (modPairLink f s).age = s.age := rfl
@[simp] theorem modPairLink_power {f : PairLinkSt → PairLinkSt} : (modPairLink f s).power = s.power := rfl
@[simp] theorem modPairLink_supply {f : PairLinkSt → PairLinkSt} : (modPairLink f s).supply = s.supply := rfl
@[simp] theorem modPairLink_load {f : PairLinkSt → PairLinkSt} : (modPairLink f s).load = s.load := rfl
@[simp] theorem modPairLink_progLoad {f : PairLinkSt → PairLinkSt} : (modPairLink f s).progLoad = s.progLoad := rfl
@[simp] theorem modPairLink_upd {f : PairLinkSt → PairLinkSt} : (modPairLink f s).upd = s.upd := rfl
@[simp] theorem modPairLink_set {f : PairLinkSt → PairLinkSt} : (modPairLink f s).set = s.set := rfl
@[simp] theorem modPairLink_queues {f : PairLinkSt → PairLinkSt} : (modPairLink f s).queues = s.queues := rfl

@[simp] theorem modDatum_pending {f : DatumSt → DatumSt} : (modDatum f s).pending = s.pending := rfl
@[simp] theorem modDatum_free {f : DatumSt → DatumSt} : (modDatum f s).free = s.free := rfl
@[simp] theorem modDatum_ns {f : DatumSt → DatumSt} : (modDatum f s).ns = s.ns := rfl
@[simp] theorem modDatum_cfg {f : DatumSt → DatumSt} : (modDatum f s).cfg = s.cfg := rfl
@[simp] theorem modDatum_ident {f : DatumSt → DatumSt} : (modDatum f s).ident = s.ident := rfl
@[simp] theorem modDatum_imageNo {f : DatumSt → DatumSt} : (modDatum f s).imageNo = s.imageNo := rfl
@[simp] theorem modDatum_image {f : DatumSt → DatumSt} : (modDatum f s).image = s.image := rfl
@[simp] theorem modDatum_lanes {f : DatumSt → DatumSt} : (modDatum f s).lanes = s.lanes := rfl
@[simp] theorem modDatum_view {f : DatumSt → DatumSt} : (modDatum f s).view = s.view := rfl
@[simp] theorem modDatum_vote {f : DatumSt → DatumSt} : (modDatum f s).vote = s.vote := rfl
@[simp] theorem modDatum_halves {f : DatumSt → DatumSt} : (modDatum f s).halves = s.halves := rfl
@[simp] theorem modDatum_comm {f : DatumSt → DatumSt} : (modDatum f s).comm = s.comm := rfl
@[simp] theorem modDatum_bus {f : DatumSt → DatumSt} : (modDatum f s).bus = s.bus := rfl
@[simp] theorem modDatum_busImg {f : DatumSt → DatumSt} : (modDatum f s).busImg = s.busImg := rfl
@[simp] theorem modDatum_env {f : DatumSt → DatumSt} : (modDatum f s).env = s.env := rfl
@[simp] theorem modDatum_tres {f : DatumSt → DatumSt} : (modDatum f s).tres = s.tres := rfl
@[simp] theorem modDatum_tx {f : DatumSt → DatumSt} : (modDatum f s).tx = s.tx := rfl
@[simp] theorem modDatum_lio {f : DatumSt → DatumSt} : (modDatum f s).lio = s.lio := rfl
@[simp] theorem modDatum_time {f : DatumSt → DatumSt} : (modDatum f s).time = s.time := rfl
@[simp] theorem modDatum_casc {f : DatumSt → DatumSt} : (modDatum f s).casc = s.casc := rfl
@[simp] theorem modDatum_pair {f : DatumSt → DatumSt} : (modDatum f s).pair = s.pair := rfl
@[simp] theorem modDatum_bridge {f : DatumSt → DatumSt} : (modDatum f s).bridge = s.bridge := rfl
@[simp] theorem modDatum_dict {f : DatumSt → DatumSt} : (modDatum f s).dict = s.dict := rfl
@[simp] theorem modDatum_ev {f : DatumSt → DatumSt} : (modDatum f s).ev = s.ev := rfl
@[simp] theorem modDatum_book {f : DatumSt → DatumSt} : (modDatum f s).book = s.book := rfl
@[simp] theorem modDatum_chest {f : DatumSt → DatumSt} : (modDatum f s).chest = s.chest := rfl
@[simp] theorem modDatum_test {f : DatumSt → DatumSt} : (modDatum f s).test = s.test := rfl
@[simp] theorem modDatum_age {f : DatumSt → DatumSt} : (modDatum f s).age = s.age := rfl
@[simp] theorem modDatum_power {f : DatumSt → DatumSt} : (modDatum f s).power = s.power := rfl
@[simp] theorem modDatum_supply {f : DatumSt → DatumSt} : (modDatum f s).supply = s.supply := rfl
@[simp] theorem modDatum_load {f : DatumSt → DatumSt} : (modDatum f s).load = s.load := rfl
@[simp] theorem modDatum_progLoad {f : DatumSt → DatumSt} : (modDatum f s).progLoad = s.progLoad := rfl
@[simp] theorem modDatum_upd {f : DatumSt → DatumSt} : (modDatum f s).upd = s.upd := rfl
@[simp] theorem modDatum_set {f : DatumSt → DatumSt} : (modDatum f s).set = s.set := rfl
@[simp] theorem modDatum_queues {f : DatumSt → DatumSt} : (modDatum f s).queues = s.queues := rfl

@[simp] theorem modSlot_pending {h : Half} {f : DataSlot → DataSlot} : (modSlot h f s).pending = s.pending := rfl
@[simp] theorem modSlot_free {h : Half} {f : DataSlot → DataSlot} : (modSlot h f s).free = s.free := rfl
@[simp] theorem modSlot_ns {h : Half} {f : DataSlot → DataSlot} : (modSlot h f s).ns = s.ns := rfl
@[simp] theorem modSlot_cfg {h : Half} {f : DataSlot → DataSlot} : (modSlot h f s).cfg = s.cfg := rfl
@[simp] theorem modSlot_ident {h : Half} {f : DataSlot → DataSlot} : (modSlot h f s).ident = s.ident := rfl
@[simp] theorem modSlot_imageNo {h : Half} {f : DataSlot → DataSlot} : (modSlot h f s).imageNo = s.imageNo := rfl
@[simp] theorem modSlot_image {h : Half} {f : DataSlot → DataSlot} : (modSlot h f s).image = s.image := rfl
@[simp] theorem modSlot_lanes {h : Half} {f : DataSlot → DataSlot} : (modSlot h f s).lanes = s.lanes := rfl
@[simp] theorem modSlot_view {h : Half} {f : DataSlot → DataSlot} : (modSlot h f s).view = s.view := rfl
@[simp] theorem modSlot_vote {h : Half} {f : DataSlot → DataSlot} : (modSlot h f s).vote = s.vote := rfl
@[simp] theorem modSlot_halves {h : Half} {f : DataSlot → DataSlot} : (modSlot h f s).halves = s.halves := rfl
@[simp] theorem modSlot_comm {h : Half} {f : DataSlot → DataSlot} : (modSlot h f s).comm = s.comm := rfl
@[simp] theorem modSlot_bus {h : Half} {f : DataSlot → DataSlot} : (modSlot h f s).bus = s.bus := rfl
@[simp] theorem modSlot_busImg {h : Half} {f : DataSlot → DataSlot} : (modSlot h f s).busImg = s.busImg := rfl
@[simp] theorem modSlot_env {h : Half} {f : DataSlot → DataSlot} : (modSlot h f s).env = s.env := rfl
@[simp] theorem modSlot_tres {h : Half} {f : DataSlot → DataSlot} : (modSlot h f s).tres = s.tres := rfl
@[simp] theorem modSlot_tx {h : Half} {f : DataSlot → DataSlot} : (modSlot h f s).tx = s.tx := rfl
@[simp] theorem modSlot_lio {h : Half} {f : DataSlot → DataSlot} : (modSlot h f s).lio = s.lio := rfl
@[simp] theorem modSlot_time {h : Half} {f : DataSlot → DataSlot} : (modSlot h f s).time = s.time := rfl
@[simp] theorem modSlot_casc {h : Half} {f : DataSlot → DataSlot} : (modSlot h f s).casc = s.casc := rfl
@[simp] theorem modSlot_pair {h : Half} {f : DataSlot → DataSlot} : (modSlot h f s).pair = s.pair := rfl
@[simp] theorem modSlot_bridge {h : Half} {f : DataSlot → DataSlot} : (modSlot h f s).bridge = s.bridge := rfl
@[simp] theorem modSlot_datum {h : Half} {f : DataSlot → DataSlot} : (modSlot h f s).datum = s.datum := rfl
@[simp] theorem modSlot_dict {h : Half} {f : DataSlot → DataSlot} : (modSlot h f s).dict = s.dict := rfl
@[simp] theorem modSlot_ev {h : Half} {f : DataSlot → DataSlot} : (modSlot h f s).ev = s.ev := rfl
@[simp] theorem modSlot_book {h : Half} {f : DataSlot → DataSlot} : (modSlot h f s).book = s.book := rfl
@[simp] theorem modSlot_chest {h : Half} {f : DataSlot → DataSlot} : (modSlot h f s).chest = s.chest := rfl
@[simp] theorem modSlot_test {h : Half} {f : DataSlot → DataSlot} : (modSlot h f s).test = s.test := rfl
@[simp] theorem modSlot_age {h : Half} {f : DataSlot → DataSlot} : (modSlot h f s).age = s.age := rfl
@[simp] theorem modSlot_power {h : Half} {f : DataSlot → DataSlot} : (modSlot h f s).power = s.power := rfl
@[simp] theorem modSlot_supply {h : Half} {f : DataSlot → DataSlot} : (modSlot h f s).supply = s.supply := rfl
@[simp] theorem modSlot_progLoad {h : Half} {f : DataSlot → DataSlot} : (modSlot h f s).progLoad = s.progLoad := rfl
@[simp] theorem modSlot_upd {h : Half} {f : DataSlot → DataSlot} : (modSlot h f s).upd = s.upd := rfl
@[simp] theorem modSlot_set {h : Half} {f : DataSlot → DataSlot} : (modSlot h f s).set = s.set := rfl
@[simp] theorem modSlot_queues {h : Half} {f : DataSlot → DataSlot} : (modSlot h f s).queues = s.queues := rfl

@[simp] theorem modProgSlot_pending {h : Half} {f : ProgSlot → ProgSlot} : (modProgSlot h f s).pending = s.pending := rfl
@[simp] theorem modProgSlot_free {h : Half} {f : ProgSlot → ProgSlot} : (modProgSlot h f s).free = s.free := rfl
@[simp] theorem modProgSlot_ns {h : Half} {f : ProgSlot → ProgSlot} : (modProgSlot h f s).ns = s.ns := rfl
@[simp] theorem modProgSlot_cfg {h : Half} {f : ProgSlot → ProgSlot} : (modProgSlot h f s).cfg = s.cfg := rfl
@[simp] theorem modProgSlot_ident {h : Half} {f : ProgSlot → ProgSlot} : (modProgSlot h f s).ident = s.ident := rfl
@[simp] theorem modProgSlot_imageNo {h : Half} {f : ProgSlot → ProgSlot} : (modProgSlot h f s).imageNo = s.imageNo := rfl
@[simp] theorem modProgSlot_image {h : Half} {f : ProgSlot → ProgSlot} : (modProgSlot h f s).image = s.image := rfl
@[simp] theorem modProgSlot_lanes {h : Half} {f : ProgSlot → ProgSlot} : (modProgSlot h f s).lanes = s.lanes := rfl
@[simp] theorem modProgSlot_view {h : Half} {f : ProgSlot → ProgSlot} : (modProgSlot h f s).view = s.view := rfl
@[simp] theorem modProgSlot_vote {h : Half} {f : ProgSlot → ProgSlot} : (modProgSlot h f s).vote = s.vote := rfl
@[simp] theorem modProgSlot_halves {h : Half} {f : ProgSlot → ProgSlot} : (modProgSlot h f s).halves = s.halves := rfl
@[simp] theorem modProgSlot_comm {h : Half} {f : ProgSlot → ProgSlot} : (modProgSlot h f s).comm = s.comm := rfl
@[simp] theorem modProgSlot_bus {h : Half} {f : ProgSlot → ProgSlot} : (modProgSlot h f s).bus = s.bus := rfl
@[simp] theorem modProgSlot_busImg {h : Half} {f : ProgSlot → ProgSlot} : (modProgSlot h f s).busImg = s.busImg := rfl
@[simp] theorem modProgSlot_env {h : Half} {f : ProgSlot → ProgSlot} : (modProgSlot h f s).env = s.env := rfl
@[simp] theorem modProgSlot_tres {h : Half} {f : ProgSlot → ProgSlot} : (modProgSlot h f s).tres = s.tres := rfl
@[simp] theorem modProgSlot_tx {h : Half} {f : ProgSlot → ProgSlot} : (modProgSlot h f s).tx = s.tx := rfl
@[simp] theorem modProgSlot_lio {h : Half} {f : ProgSlot → ProgSlot} : (modProgSlot h f s).lio = s.lio := rfl
@[simp] theorem modProgSlot_time {h : Half} {f : ProgSlot → ProgSlot} : (modProgSlot h f s).time = s.time := rfl
@[simp] theorem modProgSlot_casc {h : Half} {f : ProgSlot → ProgSlot} : (modProgSlot h f s).casc = s.casc := rfl
@[simp] theorem modProgSlot_pair {h : Half} {f : ProgSlot → ProgSlot} : (modProgSlot h f s).pair = s.pair := rfl
@[simp] theorem modProgSlot_bridge {h : Half} {f : ProgSlot → ProgSlot} : (modProgSlot h f s).bridge = s.bridge := rfl
@[simp] theorem modProgSlot_datum {h : Half} {f : ProgSlot → ProgSlot} : (modProgSlot h f s).datum = s.datum := rfl
@[simp] theorem modProgSlot_dict {h : Half} {f : ProgSlot → ProgSlot} : (modProgSlot h f s).dict = s.dict := rfl
@[simp] theorem modProgSlot_ev {h : Half} {f : ProgSlot → ProgSlot} : (modProgSlot h f s).ev = s.ev := rfl
@[simp] theorem modProgSlot_book {h : Half} {f : ProgSlot → ProgSlot} : (modProgSlot h f s).book = s.book := rfl
@[simp] theorem modProgSlot_chest {h : Half} {f : ProgSlot → ProgSlot} : (modProgSlot h f s).chest = s.chest := rfl
@[simp] theorem modProgSlot_test {h : Half} {f : ProgSlot → ProgSlot} : (modProgSlot h f s).test = s.test := rfl
@[simp] theorem modProgSlot_age {h : Half} {f : ProgSlot → ProgSlot} : (modProgSlot h f s).age = s.age := rfl
@[simp] theorem modProgSlot_power {h : Half} {f : ProgSlot → ProgSlot} : (modProgSlot h f s).power = s.power := rfl
@[simp] theorem modProgSlot_supply {h : Half} {f : ProgSlot → ProgSlot} : (modProgSlot h f s).supply = s.supply := rfl
@[simp] theorem modProgSlot_load {h : Half} {f : ProgSlot → ProgSlot} : (modProgSlot h f s).load = s.load := rfl
@[simp] theorem modProgSlot_upd {h : Half} {f : ProgSlot → ProgSlot} : (modProgSlot h f s).upd = s.upd := rfl
@[simp] theorem modProgSlot_set {h : Half} {f : ProgSlot → ProgSlot} : (modProgSlot h f s).set = s.set := rfl
@[simp] theorem modProgSlot_queues {h : Half} {f : ProgSlot → ProgSlot} : (modProgSlot h f s).queues = s.queues := rfl

@[simp] theorem modVo_pending {n : Nat} {f : VoSt → VoSt} : (modVo n f s).pending = s.pending := rfl
@[simp] theorem modVo_free {n : Nat} {f : VoSt → VoSt} : (modVo n f s).free = s.free := rfl
@[simp] theorem modVo_ns {n : Nat} {f : VoSt → VoSt} : (modVo n f s).ns = s.ns := rfl
@[simp] theorem modVo_cfg {n : Nat} {f : VoSt → VoSt} : (modVo n f s).cfg = s.cfg := rfl
@[simp] theorem modVo_ident {n : Nat} {f : VoSt → VoSt} : (modVo n f s).ident = s.ident := rfl
@[simp] theorem modVo_imageNo {n : Nat} {f : VoSt → VoSt} : (modVo n f s).imageNo = s.imageNo := rfl
@[simp] theorem modVo_image {n : Nat} {f : VoSt → VoSt} : (modVo n f s).image = s.image := rfl
@[simp] theorem modVo_lanes {n : Nat} {f : VoSt → VoSt} : (modVo n f s).lanes = s.lanes := rfl
@[simp] theorem modVo_view {n : Nat} {f : VoSt → VoSt} : (modVo n f s).view = s.view := rfl
@[simp] theorem modVo_vote {n : Nat} {f : VoSt → VoSt} : (modVo n f s).vote = s.vote := rfl
@[simp] theorem modVo_halves {n : Nat} {f : VoSt → VoSt} : (modVo n f s).halves = s.halves := rfl
@[simp] theorem modVo_comm {n : Nat} {f : VoSt → VoSt} : (modVo n f s).comm = s.comm := rfl
@[simp] theorem modVo_bus {n : Nat} {f : VoSt → VoSt} : (modVo n f s).bus = s.bus := rfl
@[simp] theorem modVo_busImg {n : Nat} {f : VoSt → VoSt} : (modVo n f s).busImg = s.busImg := rfl
@[simp] theorem modVo_env {n : Nat} {f : VoSt → VoSt} : (modVo n f s).env = s.env := rfl
@[simp] theorem modVo_tres {n : Nat} {f : VoSt → VoSt} : (modVo n f s).tres = s.tres := rfl
@[simp] theorem modVo_tx {n : Nat} {f : VoSt → VoSt} : (modVo n f s).tx = s.tx := rfl
@[simp] theorem modVo_time {n : Nat} {f : VoSt → VoSt} : (modVo n f s).time = s.time := rfl
@[simp] theorem modVo_casc {n : Nat} {f : VoSt → VoSt} : (modVo n f s).casc = s.casc := rfl
@[simp] theorem modVo_pair {n : Nat} {f : VoSt → VoSt} : (modVo n f s).pair = s.pair := rfl
@[simp] theorem modVo_bridge {n : Nat} {f : VoSt → VoSt} : (modVo n f s).bridge = s.bridge := rfl
@[simp] theorem modVo_datum {n : Nat} {f : VoSt → VoSt} : (modVo n f s).datum = s.datum := rfl
@[simp] theorem modVo_dict {n : Nat} {f : VoSt → VoSt} : (modVo n f s).dict = s.dict := rfl
@[simp] theorem modVo_ev {n : Nat} {f : VoSt → VoSt} : (modVo n f s).ev = s.ev := rfl
@[simp] theorem modVo_book {n : Nat} {f : VoSt → VoSt} : (modVo n f s).book = s.book := rfl
@[simp] theorem modVo_chest {n : Nat} {f : VoSt → VoSt} : (modVo n f s).chest = s.chest := rfl
@[simp] theorem modVo_test {n : Nat} {f : VoSt → VoSt} : (modVo n f s).test = s.test := rfl
@[simp] theorem modVo_age {n : Nat} {f : VoSt → VoSt} : (modVo n f s).age = s.age := rfl
@[simp] theorem modVo_power {n : Nat} {f : VoSt → VoSt} : (modVo n f s).power = s.power := rfl
@[simp] theorem modVo_supply {n : Nat} {f : VoSt → VoSt} : (modVo n f s).supply = s.supply := rfl
@[simp] theorem modVo_load {n : Nat} {f : VoSt → VoSt} : (modVo n f s).load = s.load := rfl
@[simp] theorem modVo_progLoad {n : Nat} {f : VoSt → VoSt} : (modVo n f s).progLoad = s.progLoad := rfl
@[simp] theorem modVo_upd {n : Nat} {f : VoSt → VoSt} : (modVo n f s).upd = s.upd := rfl
@[simp] theorem modVo_set {n : Nat} {f : VoSt → VoSt} : (modVo n f s).set = s.set := rfl
@[simp] theorem modVo_queues {n : Nat} {f : VoSt → VoSt} : (modVo n f s).queues = s.queues := rfl

@[simp] theorem modTest_pending {k : Nat} {f : TestInst → TestInst} : (modTest k f s).pending = s.pending := rfl
@[simp] theorem modTest_free {k : Nat} {f : TestInst → TestInst} : (modTest k f s).free = s.free := rfl
@[simp] theorem modTest_ns {k : Nat} {f : TestInst → TestInst} : (modTest k f s).ns = s.ns := rfl
@[simp] theorem modTest_cfg {k : Nat} {f : TestInst → TestInst} : (modTest k f s).cfg = s.cfg := rfl
@[simp] theorem modTest_ident {k : Nat} {f : TestInst → TestInst} : (modTest k f s).ident = s.ident := rfl
@[simp] theorem modTest_imageNo {k : Nat} {f : TestInst → TestInst} : (modTest k f s).imageNo = s.imageNo := rfl
@[simp] theorem modTest_image {k : Nat} {f : TestInst → TestInst} : (modTest k f s).image = s.image := rfl
@[simp] theorem modTest_lanes {k : Nat} {f : TestInst → TestInst} : (modTest k f s).lanes = s.lanes := rfl
@[simp] theorem modTest_view {k : Nat} {f : TestInst → TestInst} : (modTest k f s).view = s.view := rfl
@[simp] theorem modTest_vote {k : Nat} {f : TestInst → TestInst} : (modTest k f s).vote = s.vote := rfl
@[simp] theorem modTest_halves {k : Nat} {f : TestInst → TestInst} : (modTest k f s).halves = s.halves := rfl
@[simp] theorem modTest_comm {k : Nat} {f : TestInst → TestInst} : (modTest k f s).comm = s.comm := rfl
@[simp] theorem modTest_bus {k : Nat} {f : TestInst → TestInst} : (modTest k f s).bus = s.bus := rfl
@[simp] theorem modTest_busImg {k : Nat} {f : TestInst → TestInst} : (modTest k f s).busImg = s.busImg := rfl
@[simp] theorem modTest_env {k : Nat} {f : TestInst → TestInst} : (modTest k f s).env = s.env := rfl
@[simp] theorem modTest_tres {k : Nat} {f : TestInst → TestInst} : (modTest k f s).tres = s.tres := rfl
@[simp] theorem modTest_tx {k : Nat} {f : TestInst → TestInst} : (modTest k f s).tx = s.tx := rfl
@[simp] theorem modTest_lio {k : Nat} {f : TestInst → TestInst} : (modTest k f s).lio = s.lio := rfl
@[simp] theorem modTest_time {k : Nat} {f : TestInst → TestInst} : (modTest k f s).time = s.time := rfl
@[simp] theorem modTest_casc {k : Nat} {f : TestInst → TestInst} : (modTest k f s).casc = s.casc := rfl
@[simp] theorem modTest_pair {k : Nat} {f : TestInst → TestInst} : (modTest k f s).pair = s.pair := rfl
@[simp] theorem modTest_bridge {k : Nat} {f : TestInst → TestInst} : (modTest k f s).bridge = s.bridge := rfl
@[simp] theorem modTest_datum {k : Nat} {f : TestInst → TestInst} : (modTest k f s).datum = s.datum := rfl
@[simp] theorem modTest_dict {k : Nat} {f : TestInst → TestInst} : (modTest k f s).dict = s.dict := rfl
@[simp] theorem modTest_ev {k : Nat} {f : TestInst → TestInst} : (modTest k f s).ev = s.ev := rfl
@[simp] theorem modTest_book {k : Nat} {f : TestInst → TestInst} : (modTest k f s).book = s.book := rfl
@[simp] theorem modTest_chest {k : Nat} {f : TestInst → TestInst} : (modTest k f s).chest = s.chest := rfl
@[simp] theorem modTest_age {k : Nat} {f : TestInst → TestInst} : (modTest k f s).age = s.age := rfl
@[simp] theorem modTest_power {k : Nat} {f : TestInst → TestInst} : (modTest k f s).power = s.power := rfl
@[simp] theorem modTest_supply {k : Nat} {f : TestInst → TestInst} : (modTest k f s).supply = s.supply := rfl
@[simp] theorem modTest_load {k : Nat} {f : TestInst → TestInst} : (modTest k f s).load = s.load := rfl
@[simp] theorem modTest_progLoad {k : Nat} {f : TestInst → TestInst} : (modTest k f s).progLoad = s.progLoad := rfl
@[simp] theorem modTest_upd {k : Nat} {f : TestInst → TestInst} : (modTest k f s).upd = s.upd := rfl
@[simp] theorem modTest_set {k : Nat} {f : TestInst → TestInst} : (modTest k f s).set = s.set := rfl
@[simp] theorem modTest_queues {k : Nat} {f : TestInst → TestInst} : (modTest k f s).queues = s.queues := rfl

@[simp] theorem testOutcome_pending {c : Nat} : (testOutcome c s).pending = s.pending := rfl
@[simp] theorem testOutcome_free {c : Nat} : (testOutcome c s).free = s.free := rfl
@[simp] theorem testOutcome_ns {c : Nat} : (testOutcome c s).ns = s.ns := rfl
@[simp] theorem testOutcome_cfg {c : Nat} : (testOutcome c s).cfg = s.cfg := rfl
@[simp] theorem testOutcome_ident {c : Nat} : (testOutcome c s).ident = s.ident := rfl
@[simp] theorem testOutcome_imageNo {c : Nat} : (testOutcome c s).imageNo = s.imageNo := rfl
@[simp] theorem testOutcome_image {c : Nat} : (testOutcome c s).image = s.image := rfl
@[simp] theorem testOutcome_lanes {c : Nat} : (testOutcome c s).lanes = s.lanes := rfl
@[simp] theorem testOutcome_view {c : Nat} : (testOutcome c s).view = s.view := rfl
@[simp] theorem testOutcome_vote {c : Nat} : (testOutcome c s).vote = s.vote := rfl
@[simp] theorem testOutcome_halves {c : Nat} : (testOutcome c s).halves = s.halves := rfl
@[simp] theorem testOutcome_comm {c : Nat} : (testOutcome c s).comm = s.comm := rfl
@[simp] theorem testOutcome_bus {c : Nat} : (testOutcome c s).bus = s.bus := rfl
@[simp] theorem testOutcome_busImg {c : Nat} : (testOutcome c s).busImg = s.busImg := rfl
@[simp] theorem testOutcome_env {c : Nat} : (testOutcome c s).env = s.env := rfl
@[simp] theorem testOutcome_tres {c : Nat} : (testOutcome c s).tres = s.tres := rfl
@[simp] theorem testOutcome_tx {c : Nat} : (testOutcome c s).tx = s.tx := rfl
@[simp] theorem testOutcome_lio {c : Nat} : (testOutcome c s).lio = s.lio := rfl
@[simp] theorem testOutcome_time {c : Nat} : (testOutcome c s).time = s.time := rfl
@[simp] theorem testOutcome_casc {c : Nat} : (testOutcome c s).casc = s.casc := rfl
@[simp] theorem testOutcome_pair {c : Nat} : (testOutcome c s).pair = s.pair := rfl
@[simp] theorem testOutcome_bridge {c : Nat} : (testOutcome c s).bridge = s.bridge := rfl
@[simp] theorem testOutcome_datum {c : Nat} : (testOutcome c s).datum = s.datum := rfl
@[simp] theorem testOutcome_dict {c : Nat} : (testOutcome c s).dict = s.dict := rfl
@[simp] theorem testOutcome_ev {c : Nat} : (testOutcome c s).ev = s.ev := rfl
@[simp] theorem testOutcome_book {c : Nat} : (testOutcome c s).book = s.book := rfl
@[simp] theorem testOutcome_chest {c : Nat} : (testOutcome c s).chest = s.chest := rfl
@[simp] theorem testOutcome_age {c : Nat} : (testOutcome c s).age = s.age := rfl
@[simp] theorem testOutcome_power {c : Nat} : (testOutcome c s).power = s.power := rfl
@[simp] theorem testOutcome_supply {c : Nat} : (testOutcome c s).supply = s.supply := rfl
@[simp] theorem testOutcome_load {c : Nat} : (testOutcome c s).load = s.load := rfl
@[simp] theorem testOutcome_progLoad {c : Nat} : (testOutcome c s).progLoad = s.progLoad := rfl
@[simp] theorem testOutcome_upd {c : Nat} : (testOutcome c s).upd = s.upd := rfl
@[simp] theorem testOutcome_set {c : Nat} : (testOutcome c s).set = s.set := rfl
@[simp] theorem testOutcome_queues {c : Nat} : (testOutcome c s).queues = s.queues := rfl

@[simp] theorem modPath_pending {n : Nat} {f : PathSt → PathSt} : (modPath n f s).pending = s.pending := rfl
@[simp] theorem modPath_free {n : Nat} {f : PathSt → PathSt} : (modPath n f s).free = s.free := rfl
@[simp] theorem modPath_ns {n : Nat} {f : PathSt → PathSt} : (modPath n f s).ns = s.ns := rfl
@[simp] theorem modPath_cfg {n : Nat} {f : PathSt → PathSt} : (modPath n f s).cfg = s.cfg := rfl
@[simp] theorem modPath_ident {n : Nat} {f : PathSt → PathSt} : (modPath n f s).ident = s.ident := rfl
@[simp] theorem modPath_imageNo {n : Nat} {f : PathSt → PathSt} : (modPath n f s).imageNo = s.imageNo := rfl
@[simp] theorem modPath_image {n : Nat} {f : PathSt → PathSt} : (modPath n f s).image = s.image := rfl
@[simp] theorem modPath_lanes {n : Nat} {f : PathSt → PathSt} : (modPath n f s).lanes = s.lanes := rfl
@[simp] theorem modPath_view {n : Nat} {f : PathSt → PathSt} : (modPath n f s).view = s.view := rfl
@[simp] theorem modPath_vote {n : Nat} {f : PathSt → PathSt} : (modPath n f s).vote = s.vote := rfl
@[simp] theorem modPath_halves {n : Nat} {f : PathSt → PathSt} : (modPath n f s).halves = s.halves := rfl
@[simp] theorem modPath_comm {n : Nat} {f : PathSt → PathSt} : (modPath n f s).comm = s.comm := rfl
@[simp] theorem modPath_bus {n : Nat} {f : PathSt → PathSt} : (modPath n f s).bus = s.bus := rfl
@[simp] theorem modPath_busImg {n : Nat} {f : PathSt → PathSt} : (modPath n f s).busImg = s.busImg := rfl
@[simp] theorem modPath_env {n : Nat} {f : PathSt → PathSt} : (modPath n f s).env = s.env := rfl
@[simp] theorem modPath_tres {n : Nat} {f : PathSt → PathSt} : (modPath n f s).tres = s.tres := rfl
@[simp] theorem modPath_tx {n : Nat} {f : PathSt → PathSt} : (modPath n f s).tx = s.tx := rfl
@[simp] theorem modPath_lio {n : Nat} {f : PathSt → PathSt} : (modPath n f s).lio = s.lio := rfl
@[simp] theorem modPath_time {n : Nat} {f : PathSt → PathSt} : (modPath n f s).time = s.time := rfl
@[simp] theorem modPath_pair {n : Nat} {f : PathSt → PathSt} : (modPath n f s).pair = s.pair := rfl
@[simp] theorem modPath_bridge {n : Nat} {f : PathSt → PathSt} : (modPath n f s).bridge = s.bridge := rfl
@[simp] theorem modPath_datum {n : Nat} {f : PathSt → PathSt} : (modPath n f s).datum = s.datum := rfl
@[simp] theorem modPath_dict {n : Nat} {f : PathSt → PathSt} : (modPath n f s).dict = s.dict := rfl
@[simp] theorem modPath_ev {n : Nat} {f : PathSt → PathSt} : (modPath n f s).ev = s.ev := rfl
@[simp] theorem modPath_book {n : Nat} {f : PathSt → PathSt} : (modPath n f s).book = s.book := rfl
@[simp] theorem modPath_chest {n : Nat} {f : PathSt → PathSt} : (modPath n f s).chest = s.chest := rfl
@[simp] theorem modPath_test {n : Nat} {f : PathSt → PathSt} : (modPath n f s).test = s.test := rfl
@[simp] theorem modPath_age {n : Nat} {f : PathSt → PathSt} : (modPath n f s).age = s.age := rfl
@[simp] theorem modPath_power {n : Nat} {f : PathSt → PathSt} : (modPath n f s).power = s.power := rfl
@[simp] theorem modPath_supply {n : Nat} {f : PathSt → PathSt} : (modPath n f s).supply = s.supply := rfl
@[simp] theorem modPath_load {n : Nat} {f : PathSt → PathSt} : (modPath n f s).load = s.load := rfl
@[simp] theorem modPath_progLoad {n : Nat} {f : PathSt → PathSt} : (modPath n f s).progLoad = s.progLoad := rfl
@[simp] theorem modPath_upd {n : Nat} {f : PathSt → PathSt} : (modPath n f s).upd = s.upd := rfl
@[simp] theorem modPath_set {n : Nat} {f : PathSt → PathSt} : (modPath n f s).set = s.set := rfl
@[simp] theorem modPath_queues {n : Nat} {f : PathSt → PathSt} : (modPath n f s).queues = s.queues := rfl

@[simp] theorem putConn_pending {c : ConnSt} : (putConn c s).pending = s.pending := rfl
@[simp] theorem putConn_free {c : ConnSt} : (putConn c s).free = s.free := rfl
@[simp] theorem putConn_ns {c : ConnSt} : (putConn c s).ns = s.ns := rfl
@[simp] theorem putConn_cfg {c : ConnSt} : (putConn c s).cfg = s.cfg := rfl
@[simp] theorem putConn_ident {c : ConnSt} : (putConn c s).ident = s.ident := rfl
@[simp] theorem putConn_imageNo {c : ConnSt} : (putConn c s).imageNo = s.imageNo := rfl
@[simp] theorem putConn_image {c : ConnSt} : (putConn c s).image = s.image := rfl
@[simp] theorem putConn_lanes {c : ConnSt} : (putConn c s).lanes = s.lanes := rfl
@[simp] theorem putConn_view {c : ConnSt} : (putConn c s).view = s.view := rfl
@[simp] theorem putConn_vote {c : ConnSt} : (putConn c s).vote = s.vote := rfl
@[simp] theorem putConn_halves {c : ConnSt} : (putConn c s).halves = s.halves := rfl
@[simp] theorem putConn_comm {c : ConnSt} : (putConn c s).comm = s.comm := rfl
@[simp] theorem putConn_bus {c : ConnSt} : (putConn c s).bus = s.bus := rfl
@[simp] theorem putConn_busImg {c : ConnSt} : (putConn c s).busImg = s.busImg := rfl
@[simp] theorem putConn_env {c : ConnSt} : (putConn c s).env = s.env := rfl
@[simp] theorem putConn_tres {c : ConnSt} : (putConn c s).tres = s.tres := rfl
@[simp] theorem putConn_tx {c : ConnSt} : (putConn c s).tx = s.tx := rfl
@[simp] theorem putConn_lio {c : ConnSt} : (putConn c s).lio = s.lio := rfl
@[simp] theorem putConn_time {c : ConnSt} : (putConn c s).time = s.time := rfl
@[simp] theorem putConn_pair {c : ConnSt} : (putConn c s).pair = s.pair := rfl
@[simp] theorem putConn_bridge {c : ConnSt} : (putConn c s).bridge = s.bridge := rfl
@[simp] theorem putConn_datum {c : ConnSt} : (putConn c s).datum = s.datum := rfl
@[simp] theorem putConn_dict {c : ConnSt} : (putConn c s).dict = s.dict := rfl
@[simp] theorem putConn_ev {c : ConnSt} : (putConn c s).ev = s.ev := rfl
@[simp] theorem putConn_book {c : ConnSt} : (putConn c s).book = s.book := rfl
@[simp] theorem putConn_chest {c : ConnSt} : (putConn c s).chest = s.chest := rfl
@[simp] theorem putConn_test {c : ConnSt} : (putConn c s).test = s.test := rfl
@[simp] theorem putConn_age {c : ConnSt} : (putConn c s).age = s.age := rfl
@[simp] theorem putConn_power {c : ConnSt} : (putConn c s).power = s.power := rfl
@[simp] theorem putConn_supply {c : ConnSt} : (putConn c s).supply = s.supply := rfl
@[simp] theorem putConn_load {c : ConnSt} : (putConn c s).load = s.load := rfl
@[simp] theorem putConn_progLoad {c : ConnSt} : (putConn c s).progLoad = s.progLoad := rfl
@[simp] theorem putConn_upd {c : ConnSt} : (putConn c s).upd = s.upd := rfl
@[simp] theorem putConn_set {c : ConnSt} : (putConn c s).set = s.set := rfl
@[simp] theorem putConn_queues {c : ConnSt} : (putConn c s).queues = s.queues := rfl

@[simp] theorem modClocks_pending {f : HalfClock → HalfClock} : (modClocks f s).pending = s.pending := rfl
@[simp] theorem modClocks_free {f : HalfClock → HalfClock} : (modClocks f s).free = s.free := rfl
@[simp] theorem modClocks_ns {f : HalfClock → HalfClock} : (modClocks f s).ns = s.ns := rfl
@[simp] theorem modClocks_cfg {f : HalfClock → HalfClock} : (modClocks f s).cfg = s.cfg := rfl
@[simp] theorem modClocks_ident {f : HalfClock → HalfClock} : (modClocks f s).ident = s.ident := rfl
@[simp] theorem modClocks_imageNo {f : HalfClock → HalfClock} : (modClocks f s).imageNo = s.imageNo := rfl
@[simp] theorem modClocks_image {f : HalfClock → HalfClock} : (modClocks f s).image = s.image := rfl
@[simp] theorem modClocks_lanes {f : HalfClock → HalfClock} : (modClocks f s).lanes = s.lanes := rfl
@[simp] theorem modClocks_view {f : HalfClock → HalfClock} : (modClocks f s).view = s.view := rfl
@[simp] theorem modClocks_vote {f : HalfClock → HalfClock} : (modClocks f s).vote = s.vote := rfl
@[simp] theorem modClocks_halves {f : HalfClock → HalfClock} : (modClocks f s).halves = s.halves := rfl
@[simp] theorem modClocks_comm {f : HalfClock → HalfClock} : (modClocks f s).comm = s.comm := rfl
@[simp] theorem modClocks_bus {f : HalfClock → HalfClock} : (modClocks f s).bus = s.bus := rfl
@[simp] theorem modClocks_busImg {f : HalfClock → HalfClock} : (modClocks f s).busImg = s.busImg := rfl
@[simp] theorem modClocks_env {f : HalfClock → HalfClock} : (modClocks f s).env = s.env := rfl
@[simp] theorem modClocks_tres {f : HalfClock → HalfClock} : (modClocks f s).tres = s.tres := rfl
@[simp] theorem modClocks_tx {f : HalfClock → HalfClock} : (modClocks f s).tx = s.tx := rfl
@[simp] theorem modClocks_lio {f : HalfClock → HalfClock} : (modClocks f s).lio = s.lio := rfl
@[simp] theorem modClocks_casc {f : HalfClock → HalfClock} : (modClocks f s).casc = s.casc := rfl
@[simp] theorem modClocks_pair {f : HalfClock → HalfClock} : (modClocks f s).pair = s.pair := rfl
@[simp] theorem modClocks_bridge {f : HalfClock → HalfClock} : (modClocks f s).bridge = s.bridge := rfl
@[simp] theorem modClocks_datum {f : HalfClock → HalfClock} : (modClocks f s).datum = s.datum := rfl
@[simp] theorem modClocks_dict {f : HalfClock → HalfClock} : (modClocks f s).dict = s.dict := rfl
@[simp] theorem modClocks_ev {f : HalfClock → HalfClock} : (modClocks f s).ev = s.ev := rfl
@[simp] theorem modClocks_book {f : HalfClock → HalfClock} : (modClocks f s).book = s.book := rfl
@[simp] theorem modClocks_chest {f : HalfClock → HalfClock} : (modClocks f s).chest = s.chest := rfl
@[simp] theorem modClocks_test {f : HalfClock → HalfClock} : (modClocks f s).test = s.test := rfl
@[simp] theorem modClocks_age {f : HalfClock → HalfClock} : (modClocks f s).age = s.age := rfl
@[simp] theorem modClocks_power {f : HalfClock → HalfClock} : (modClocks f s).power = s.power := rfl
@[simp] theorem modClocks_supply {f : HalfClock → HalfClock} : (modClocks f s).supply = s.supply := rfl
@[simp] theorem modClocks_load {f : HalfClock → HalfClock} : (modClocks f s).load = s.load := rfl
@[simp] theorem modClocks_progLoad {f : HalfClock → HalfClock} : (modClocks f s).progLoad = s.progLoad := rfl
@[simp] theorem modClocks_upd {f : HalfClock → HalfClock} : (modClocks f s).upd = s.upd := rfl
@[simp] theorem modClocks_set {f : HalfClock → HalfClock} : (modClocks f s).set = s.set := rfl
@[simp] theorem modClocks_queues {f : HalfClock → HalfClock} : (modClocks f s).queues = s.queues := rfl

@[simp] theorem modPair_pending {h : Half} {n : Nat} {f : PairSt → PairSt} : (modPair h n f s).pending = s.pending := rfl
@[simp] theorem modPair_free {h : Half} {n : Nat} {f : PairSt → PairSt} : (modPair h n f s).free = s.free := rfl
@[simp] theorem modPair_ns {h : Half} {n : Nat} {f : PairSt → PairSt} : (modPair h n f s).ns = s.ns := rfl
@[simp] theorem modPair_cfg {h : Half} {n : Nat} {f : PairSt → PairSt} : (modPair h n f s).cfg = s.cfg := rfl
@[simp] theorem modPair_ident {h : Half} {n : Nat} {f : PairSt → PairSt} : (modPair h n f s).ident = s.ident := rfl
@[simp] theorem modPair_imageNo {h : Half} {n : Nat} {f : PairSt → PairSt} : (modPair h n f s).imageNo = s.imageNo := rfl
@[simp] theorem modPair_image {h : Half} {n : Nat} {f : PairSt → PairSt} : (modPair h n f s).image = s.image := rfl
@[simp] theorem modPair_lanes {h : Half} {n : Nat} {f : PairSt → PairSt} : (modPair h n f s).lanes = s.lanes := rfl
@[simp] theorem modPair_view {h : Half} {n : Nat} {f : PairSt → PairSt} : (modPair h n f s).view = s.view := rfl
@[simp] theorem modPair_vote {h : Half} {n : Nat} {f : PairSt → PairSt} : (modPair h n f s).vote = s.vote := rfl
@[simp] theorem modPair_halves {h : Half} {n : Nat} {f : PairSt → PairSt} : (modPair h n f s).halves = s.halves := rfl
@[simp] theorem modPair_comm {h : Half} {n : Nat} {f : PairSt → PairSt} : (modPair h n f s).comm = s.comm := rfl
@[simp] theorem modPair_bus {h : Half} {n : Nat} {f : PairSt → PairSt} : (modPair h n f s).bus = s.bus := rfl
@[simp] theorem modPair_busImg {h : Half} {n : Nat} {f : PairSt → PairSt} : (modPair h n f s).busImg = s.busImg := rfl
@[simp] theorem modPair_env {h : Half} {n : Nat} {f : PairSt → PairSt} : (modPair h n f s).env = s.env := rfl
@[simp] theorem modPair_tres {h : Half} {n : Nat} {f : PairSt → PairSt} : (modPair h n f s).tres = s.tres := rfl
@[simp] theorem modPair_tx {h : Half} {n : Nat} {f : PairSt → PairSt} : (modPair h n f s).tx = s.tx := rfl
@[simp] theorem modPair_time {h : Half} {n : Nat} {f : PairSt → PairSt} : (modPair h n f s).time = s.time := rfl
@[simp] theorem modPair_casc {h : Half} {n : Nat} {f : PairSt → PairSt} : (modPair h n f s).casc = s.casc := rfl
@[simp] theorem modPair_pair {h : Half} {n : Nat} {f : PairSt → PairSt} : (modPair h n f s).pair = s.pair := rfl
@[simp] theorem modPair_bridge {h : Half} {n : Nat} {f : PairSt → PairSt} : (modPair h n f s).bridge = s.bridge := rfl
@[simp] theorem modPair_datum {h : Half} {n : Nat} {f : PairSt → PairSt} : (modPair h n f s).datum = s.datum := rfl
@[simp] theorem modPair_dict {h : Half} {n : Nat} {f : PairSt → PairSt} : (modPair h n f s).dict = s.dict := rfl
@[simp] theorem modPair_ev {h : Half} {n : Nat} {f : PairSt → PairSt} : (modPair h n f s).ev = s.ev := rfl
@[simp] theorem modPair_book {h : Half} {n : Nat} {f : PairSt → PairSt} : (modPair h n f s).book = s.book := rfl
@[simp] theorem modPair_chest {h : Half} {n : Nat} {f : PairSt → PairSt} : (modPair h n f s).chest = s.chest := rfl
@[simp] theorem modPair_test {h : Half} {n : Nat} {f : PairSt → PairSt} : (modPair h n f s).test = s.test := rfl
@[simp] theorem modPair_age {h : Half} {n : Nat} {f : PairSt → PairSt} : (modPair h n f s).age = s.age := rfl
@[simp] theorem modPair_power {h : Half} {n : Nat} {f : PairSt → PairSt} : (modPair h n f s).power = s.power := rfl
@[simp] theorem modPair_supply {h : Half} {n : Nat} {f : PairSt → PairSt} : (modPair h n f s).supply = s.supply := rfl
@[simp] theorem modPair_load {h : Half} {n : Nat} {f : PairSt → PairSt} : (modPair h n f s).load = s.load := rfl
@[simp] theorem modPair_progLoad {h : Half} {n : Nat} {f : PairSt → PairSt} : (modPair h n f s).progLoad = s.progLoad := rfl
@[simp] theorem modPair_upd {h : Half} {n : Nat} {f : PairSt → PairSt} : (modPair h n f s).upd = s.upd := rfl
@[simp] theorem modPair_set {h : Half} {n : Nat} {f : PairSt → PairSt} : (modPair h n f s).set = s.set := rfl
@[simp] theorem modPair_queues {h : Half} {n : Nat} {f : PairSt → PairSt} : (modPair h n f s).queues = s.queues := rfl

@[simp] theorem modAge_pending {k : Nat} {f : AgeItem → AgeItem} : (modAge k f s).pending = s.pending := rfl
@[simp] theorem modAge_free {k : Nat} {f : AgeItem → AgeItem} : (modAge k f s).free = s.free := rfl
@[simp] theorem modAge_ns {k : Nat} {f : AgeItem → AgeItem} : (modAge k f s).ns = s.ns := rfl
@[simp] theorem modAge_cfg {k : Nat} {f : AgeItem → AgeItem} : (modAge k f s).cfg = s.cfg := rfl
@[simp] theorem modAge_ident {k : Nat} {f : AgeItem → AgeItem} : (modAge k f s).ident = s.ident := rfl
@[simp] theorem modAge_imageNo {k : Nat} {f : AgeItem → AgeItem} : (modAge k f s).imageNo = s.imageNo := rfl
@[simp] theorem modAge_image {k : Nat} {f : AgeItem → AgeItem} : (modAge k f s).image = s.image := rfl
@[simp] theorem modAge_lanes {k : Nat} {f : AgeItem → AgeItem} : (modAge k f s).lanes = s.lanes := rfl
@[simp] theorem modAge_view {k : Nat} {f : AgeItem → AgeItem} : (modAge k f s).view = s.view := rfl
@[simp] theorem modAge_vote {k : Nat} {f : AgeItem → AgeItem} : (modAge k f s).vote = s.vote := rfl
@[simp] theorem modAge_halves {k : Nat} {f : AgeItem → AgeItem} : (modAge k f s).halves = s.halves := rfl
@[simp] theorem modAge_comm {k : Nat} {f : AgeItem → AgeItem} : (modAge k f s).comm = s.comm := rfl
@[simp] theorem modAge_bus {k : Nat} {f : AgeItem → AgeItem} : (modAge k f s).bus = s.bus := rfl
@[simp] theorem modAge_busImg {k : Nat} {f : AgeItem → AgeItem} : (modAge k f s).busImg = s.busImg := rfl
@[simp] theorem modAge_env {k : Nat} {f : AgeItem → AgeItem} : (modAge k f s).env = s.env := rfl
@[simp] theorem modAge_tres {k : Nat} {f : AgeItem → AgeItem} : (modAge k f s).tres = s.tres := rfl
@[simp] theorem modAge_tx {k : Nat} {f : AgeItem → AgeItem} : (modAge k f s).tx = s.tx := rfl
@[simp] theorem modAge_lio {k : Nat} {f : AgeItem → AgeItem} : (modAge k f s).lio = s.lio := rfl
@[simp] theorem modAge_time {k : Nat} {f : AgeItem → AgeItem} : (modAge k f s).time = s.time := rfl
@[simp] theorem modAge_casc {k : Nat} {f : AgeItem → AgeItem} : (modAge k f s).casc = s.casc := rfl
@[simp] theorem modAge_pair {k : Nat} {f : AgeItem → AgeItem} : (modAge k f s).pair = s.pair := rfl
@[simp] theorem modAge_bridge {k : Nat} {f : AgeItem → AgeItem} : (modAge k f s).bridge = s.bridge := rfl
@[simp] theorem modAge_datum {k : Nat} {f : AgeItem → AgeItem} : (modAge k f s).datum = s.datum := rfl
@[simp] theorem modAge_dict {k : Nat} {f : AgeItem → AgeItem} : (modAge k f s).dict = s.dict := rfl
@[simp] theorem modAge_ev {k : Nat} {f : AgeItem → AgeItem} : (modAge k f s).ev = s.ev := rfl
@[simp] theorem modAge_book {k : Nat} {f : AgeItem → AgeItem} : (modAge k f s).book = s.book := rfl
@[simp] theorem modAge_chest {k : Nat} {f : AgeItem → AgeItem} : (modAge k f s).chest = s.chest := rfl
@[simp] theorem modAge_test {k : Nat} {f : AgeItem → AgeItem} : (modAge k f s).test = s.test := rfl
@[simp] theorem modAge_power {k : Nat} {f : AgeItem → AgeItem} : (modAge k f s).power = s.power := rfl
@[simp] theorem modAge_supply {k : Nat} {f : AgeItem → AgeItem} : (modAge k f s).supply = s.supply := rfl
@[simp] theorem modAge_load {k : Nat} {f : AgeItem → AgeItem} : (modAge k f s).load = s.load := rfl
@[simp] theorem modAge_progLoad {k : Nat} {f : AgeItem → AgeItem} : (modAge k f s).progLoad = s.progLoad := rfl
@[simp] theorem modAge_upd {k : Nat} {f : AgeItem → AgeItem} : (modAge k f s).upd = s.upd := rfl
@[simp] theorem modAge_set {k : Nat} {f : AgeItem → AgeItem} : (modAge k f s).set = s.set := rfl
@[simp] theorem modAge_queues {k : Nat} {f : AgeItem → AgeItem} : (modAge k f s).queues = s.queues := rfl

@[simp] theorem mapKernels_pending {f : Kernel → Kernel} : (mapKernels f s).pending = s.pending := rfl
@[simp] theorem mapKernels_free {f : Kernel → Kernel} : (mapKernels f s).free = s.free := rfl
@[simp] theorem mapKernels_ns {f : Kernel → Kernel} : (mapKernels f s).ns = s.ns := rfl
@[simp] theorem mapKernels_cfg {f : Kernel → Kernel} : (mapKernels f s).cfg = s.cfg := rfl
@[simp] theorem mapKernels_ident {f : Kernel → Kernel} : (mapKernels f s).ident = s.ident := rfl
@[simp] theorem mapKernels_imageNo {f : Kernel → Kernel} : (mapKernels f s).imageNo = s.imageNo := rfl
@[simp] theorem mapKernels_image {f : Kernel → Kernel} : (mapKernels f s).image = s.image := rfl
@[simp] theorem mapKernels_vote {f : Kernel → Kernel} : (mapKernels f s).vote = s.vote := rfl
@[simp] theorem mapKernels_halves {f : Kernel → Kernel} : (mapKernels f s).halves = s.halves := rfl
@[simp] theorem mapKernels_comm {f : Kernel → Kernel} : (mapKernels f s).comm = s.comm := rfl
@[simp] theorem mapKernels_bus {f : Kernel → Kernel} : (mapKernels f s).bus = s.bus := rfl
@[simp] theorem mapKernels_busImg {f : Kernel → Kernel} : (mapKernels f s).busImg = s.busImg := rfl
@[simp] theorem mapKernels_env {f : Kernel → Kernel} : (mapKernels f s).env = s.env := rfl
@[simp] theorem mapKernels_tres {f : Kernel → Kernel} : (mapKernels f s).tres = s.tres := rfl
@[simp] theorem mapKernels_tx {f : Kernel → Kernel} : (mapKernels f s).tx = s.tx := rfl
@[simp] theorem mapKernels_lio {f : Kernel → Kernel} : (mapKernels f s).lio = s.lio := rfl
@[simp] theorem mapKernels_time {f : Kernel → Kernel} : (mapKernels f s).time = s.time := rfl
@[simp] theorem mapKernels_casc {f : Kernel → Kernel} : (mapKernels f s).casc = s.casc := rfl
@[simp] theorem mapKernels_pair {f : Kernel → Kernel} : (mapKernels f s).pair = s.pair := rfl
@[simp] theorem mapKernels_bridge {f : Kernel → Kernel} : (mapKernels f s).bridge = s.bridge := rfl
@[simp] theorem mapKernels_datum {f : Kernel → Kernel} : (mapKernels f s).datum = s.datum := rfl
@[simp] theorem mapKernels_dict {f : Kernel → Kernel} : (mapKernels f s).dict = s.dict := rfl
@[simp] theorem mapKernels_ev {f : Kernel → Kernel} : (mapKernels f s).ev = s.ev := rfl
@[simp] theorem mapKernels_book {f : Kernel → Kernel} : (mapKernels f s).book = s.book := rfl
@[simp] theorem mapKernels_chest {f : Kernel → Kernel} : (mapKernels f s).chest = s.chest := rfl
@[simp] theorem mapKernels_test {f : Kernel → Kernel} : (mapKernels f s).test = s.test := rfl
@[simp] theorem mapKernels_age {f : Kernel → Kernel} : (mapKernels f s).age = s.age := rfl
@[simp] theorem mapKernels_power {f : Kernel → Kernel} : (mapKernels f s).power = s.power := rfl
@[simp] theorem mapKernels_supply {f : Kernel → Kernel} : (mapKernels f s).supply = s.supply := rfl
@[simp] theorem mapKernels_load {f : Kernel → Kernel} : (mapKernels f s).load = s.load := rfl
@[simp] theorem mapKernels_progLoad {f : Kernel → Kernel} : (mapKernels f s).progLoad = s.progLoad := rfl
@[simp] theorem mapKernels_upd {f : Kernel → Kernel} : (mapKernels f s).upd = s.upd := rfl
@[simp] theorem mapKernels_set {f : Kernel → Kernel} : (mapKernels f s).set = s.set := rfl
@[simp] theorem mapKernels_queues {f : Kernel → Kernel} : (mapKernels f s).queues = s.queues := rfl

@[simp] theorem modOut_pending {n : Nat} {f : OutTrans → OutTrans} : (modOut n f s).pending = s.pending := rfl
@[simp] theorem modOut_free {n : Nat} {f : OutTrans → OutTrans} : (modOut n f s).free = s.free := rfl
@[simp] theorem modOut_ns {n : Nat} {f : OutTrans → OutTrans} : (modOut n f s).ns = s.ns := rfl
@[simp] theorem modOut_cfg {n : Nat} {f : OutTrans → OutTrans} : (modOut n f s).cfg = s.cfg := rfl
@[simp] theorem modOut_ident {n : Nat} {f : OutTrans → OutTrans} : (modOut n f s).ident = s.ident := rfl
@[simp] theorem modOut_imageNo {n : Nat} {f : OutTrans → OutTrans} : (modOut n f s).imageNo = s.imageNo := rfl
@[simp] theorem modOut_image {n : Nat} {f : OutTrans → OutTrans} : (modOut n f s).image = s.image := rfl
@[simp] theorem modOut_lanes {n : Nat} {f : OutTrans → OutTrans} : (modOut n f s).lanes = s.lanes := rfl
@[simp] theorem modOut_view {n : Nat} {f : OutTrans → OutTrans} : (modOut n f s).view = s.view := rfl
@[simp] theorem modOut_vote {n : Nat} {f : OutTrans → OutTrans} : (modOut n f s).vote = s.vote := rfl
@[simp] theorem modOut_halves {n : Nat} {f : OutTrans → OutTrans} : (modOut n f s).halves = s.halves := rfl
@[simp] theorem modOut_comm {n : Nat} {f : OutTrans → OutTrans} : (modOut n f s).comm = s.comm := rfl
@[simp] theorem modOut_bus {n : Nat} {f : OutTrans → OutTrans} : (modOut n f s).bus = s.bus := rfl
@[simp] theorem modOut_busImg {n : Nat} {f : OutTrans → OutTrans} : (modOut n f s).busImg = s.busImg := rfl
@[simp] theorem modOut_env {n : Nat} {f : OutTrans → OutTrans} : (modOut n f s).env = s.env := rfl
@[simp] theorem modOut_tres {n : Nat} {f : OutTrans → OutTrans} : (modOut n f s).tres = s.tres := rfl
@[simp] theorem modOut_tx {n : Nat} {f : OutTrans → OutTrans} : (modOut n f s).tx = s.tx := rfl
@[simp] theorem modOut_lio {n : Nat} {f : OutTrans → OutTrans} : (modOut n f s).lio = s.lio := rfl
@[simp] theorem modOut_time {n : Nat} {f : OutTrans → OutTrans} : (modOut n f s).time = s.time := rfl
@[simp] theorem modOut_casc {n : Nat} {f : OutTrans → OutTrans} : (modOut n f s).casc = s.casc := rfl
@[simp] theorem modOut_pair {n : Nat} {f : OutTrans → OutTrans} : (modOut n f s).pair = s.pair := rfl
@[simp] theorem modOut_datum {n : Nat} {f : OutTrans → OutTrans} : (modOut n f s).datum = s.datum := rfl
@[simp] theorem modOut_dict {n : Nat} {f : OutTrans → OutTrans} : (modOut n f s).dict = s.dict := rfl
@[simp] theorem modOut_ev {n : Nat} {f : OutTrans → OutTrans} : (modOut n f s).ev = s.ev := rfl
@[simp] theorem modOut_book {n : Nat} {f : OutTrans → OutTrans} : (modOut n f s).book = s.book := rfl
@[simp] theorem modOut_chest {n : Nat} {f : OutTrans → OutTrans} : (modOut n f s).chest = s.chest := rfl
@[simp] theorem modOut_test {n : Nat} {f : OutTrans → OutTrans} : (modOut n f s).test = s.test := rfl
@[simp] theorem modOut_age {n : Nat} {f : OutTrans → OutTrans} : (modOut n f s).age = s.age := rfl
@[simp] theorem modOut_power {n : Nat} {f : OutTrans → OutTrans} : (modOut n f s).power = s.power := rfl
@[simp] theorem modOut_supply {n : Nat} {f : OutTrans → OutTrans} : (modOut n f s).supply = s.supply := rfl
@[simp] theorem modOut_load {n : Nat} {f : OutTrans → OutTrans} : (modOut n f s).load = s.load := rfl
@[simp] theorem modOut_progLoad {n : Nat} {f : OutTrans → OutTrans} : (modOut n f s).progLoad = s.progLoad := rfl
@[simp] theorem modOut_upd {n : Nat} {f : OutTrans → OutTrans} : (modOut n f s).upd = s.upd := rfl
@[simp] theorem modOut_set {n : Nat} {f : OutTrans → OutTrans} : (modOut n f s).set = s.set := rfl
@[simp] theorem modOut_queues {n : Nat} {f : OutTrans → OutTrans} : (modOut n f s).queues = s.queues := rfl

end Sys2Proof.Laws
end

