-- ==== Sys2Proof/Laws/Told.lean ====
section
/-! SUPPORT. Everything that raising an event, ending a write and stamping a frame can do: the event pends, other events stay,
and only what `told` names changes. -/

namespace Sys2Proof.Laws

open Sys2Proof Sys2Proof.Machine

theorem told_refl (s : State) : told s s := ⟨rfl, rfl, fun _ => rfl⟩

theorem told_trans {s t u : State} (h : told s t) (k : told t u) : told s u := by
  refine ⟨k.1.trans h.1, ?_, fun n => ?_⟩
  · have e := k.2.1
    rw [h.2.1] at e
    rw [e]
  · have e := k.2.2 n
    rw [h.2.2 n] at e
    rw [e]

/-- A state whose sources, dictionary and sessions are those of another. -/
theorem told_of_eq {s t : State} (h1 : t.ev = s.ev) (h2 : t.dict = s.dict) : told s t := by
  refine ⟨by rw [h1], by rw [h2], fun n => ?_⟩
  rw [sessOf, h2]
  rfl

/-- What `told` says depends on the sources and the dictionary alone. -/
theorem told_congr {s s' t t' : State} (h : told s t) (h1 : s'.ev = s.ev) (h2 : s'.dict = s.dict) (k1 : t'.ev = t.ev)
    (k2 : t'.dict = t.dict) : told s' t' :=
  told_trans (told_of_eq h1.symm h2.symm) (told_trans h (told_of_eq k1 k2))

theorem offerSession_closed (img e d time : Nat) : offerSession img e d time Session.closed = Session.closed := rfl

theorem offerSession_events (img e d time : Nat) (x : Session) :
    offerSession img e d time x = { x with events := (offerSession img e d time x).events } := by
  unfold offerSession
  split <;> rfl

theorem sessOf_raiseAt (img e d : Nat) (s : State) (n : Nat) :
    sessOf (raiseAt img e d s) n = offerSession img e d (moduleNs s) (sessOf s n) :=
  tabGet_map s.dict.sessions (fun _ x => offerSession img e d (moduleNs s) x) n _ _ rfl

theorem told_raiseAt (img e d : Nat) (s : State) : told s (raiseAt img e d s) := by
  refine ⟨rfl, rfl, fun n => ?_⟩
  rw [sessOf_raiseAt]
  exact offerSession_events img e d (moduleNs s) (sessOf s n)

theorem told_raiseEv (e d : Nat) (s : State) : told s (raiseEv e d s) := told_raiseAt 0 e d s

/-- Raising an event changes event sources and the sessions' event queues. -/
theorem raiseAt_eq (img e d : Nat) (s : State) :
    raiseAt img e d s = { s with ev := (raiseAt img e d s).ev, dict := (raiseAt img e d s).dict } := rfl

theorem raiseEv_eq (e d : Nat) (s : State) :
    raiseEv e d s = { s with ev := (raiseEv e d s).ev, dict := (raiseEv e d s).dict } := rfl

theorem told_noteDepth (q d : Nat) (b : Bool) (s : State) : told s (noteDepth q d b s) := ⟨rfl, rfl, fun _ => rfl⟩

theorem told_withResult (r : Nat × List Byte) (s : State) : told s (withResult r s) := ⟨rfl, rfl, fun _ => rfl⟩

theorem raised_raiseAt {img e d : Nat} {s : State} (h : e < 96) : (raiseAt img e d s).raised e := by
  show (s.ev.pend ||| (1#96 <<< e)).getLsbD e = true
  simp [h]

theorem raised_raiseEv {e d : Nat} {s : State} (h : e < 96) : (raiseEv e d s).raised e := raised_raiseAt h

theorem raised_mono {img e k d : Nat} {s : State} (h : s.raised k) : (raiseAt img e d s).raised k := by
  show (s.ev.pend ||| (1#96 <<< e)).getLsbD k = true
  have h' : s.ev.pend.getLsbD k = true := h
  simp [BitVec.getLsbD_or, h']

/-- Raising an event leaves every other source as it is. -/
theorem raised_other {img e k d : Nat} {s : State} (h : k ≠ e) : (raiseAt img e d s).raised k ↔ s.raised k := by
  constructor
  · intro p
    have p' : (s.ev.pend ||| (1#96 <<< e)).getLsbD k = true := p
    simp only [BitVec.getLsbD_or, Bool.or_eq_true] at p'
    rcases p' with q | q
    · exact q
    · exfalso
      simp only [BitVec.getLsbD_shiftLeft, Bool.and_eq_true, Bool.not_eq_true', decide_eq_true_eq, decide_eq_false_iff_not] at q
      have : k - e = 0 := by
        by_contra hne
        have : (1#96).getLsbD (k - e) = false := by
          rw [BitVec.getLsbD_one]
          simp [hne]
        rw [this] at q
        exact absurd q.2 (by decide)
      omega
  · exact raised_mono

/-- A write a session may make has its effect with its result. -/
theorem asSession_allowed {s : State} {n : Nat} {min : Level} {key : Bool} {f : State → State × Nat × List Byte}
    (h : s.allows n min key) : asSession n min key f s = withResult ((f s).2.1, (f s).2.2) (f s).1 := by
  obtain ⟨h1, h2, h3⟩ := h
  have e : sessRefusal s n min key = rOk := by
    simp only [sessRefusal, h1, Bool.not_true, Bool.false_eq_true, if_false, Nat.not_lt.mpr h2]
    cases key
    · rfl
    · simp [h3 rfl]
  simp [asSession, e]

theorem asSlotSession_allowed {s : State} {n : Nat} {min : Level} {key : Bool} {f : State → State × Nat × List Byte}
    (h : s.allows n min key) (hr : imagesRun s = true) :
    asSlotSession n min key f s = withResult ((f s).2.1, (f s).2.2) (f s).1 := by
  obtain ⟨h1, h2, h3⟩ := h
  have e : sessRefusal s n min key = rOk := by
    simp only [sessRefusal, h1, Bool.not_true, Bool.false_eq_true, if_false, Nat.not_lt.mpr h2]
    cases key
    · rfl
    · simp [h3 rfl]
  have e' : laneRefusal s true = rOk := by simp [laneRefusal, hr]
  simp [asSlotSession, e, e']

@[simp] theorem portOf_modPort (h : Half) (p : Nat) (f : PortSt → PortSt) (s : State) :
    portOf (modPort h p f s) h p = f (portOf s h p) := by
  simp [portOf, modPort]

theorem portOf_modPort_other {h k : Half} {p q : Nat} (f : PortSt → PortSt) (s : State) (e : ¬(k = h ∧ q = p)) :
    portOf (modPort h p f s) k q = portOf s k q := by
  unfold portOf modPort
  by_cases hk : k = h
  · subst hk
    have hq : q ≠ p := fun c => e ⟨rfl, c⟩
    simp [tabGet_mod_other _ _ _ _ hq]
  · simp [twoGet_mod_other _ _ hk]

theorem portsKept_modPort (h : Half) (p : Nat) (f : PortSt → PortSt) (s : State) : portsKept h p s (modPort h p f s) :=
  fun _ _ e => portOf_modPort_other f s e

theorem portsKept_trans {h : Half} {p : Nat} {s t u : State} (a : portsKept h p s t) (b : portsKept h p t u) :
    portsKept h p s u := fun k q e => (b k q e).trans (a k q e)

theorem portsKept_of_bus {h : Half} {p : Nat} {s t : State} (e : t.bus = s.bus) : portsKept h p s t :=
  fun _ _ _ => by simp [portOf, e]

end Sys2Proof.Laws
end

