-- ==== Sys2Proof/Laws/Ops.lean ====
section
/-! SUPPORT. What each shared operation of the commons can do, said once: stamping, closing sessions, releasing spare slots,
dropping a node's integration. -/

namespace Sys2Proof.Laws

open Sys2Proof Sys2Proof.Machine

theorem foldl_frame {α : Type} {P : State → Prop} {f : State → α → State} (hf : ∀ s a, P s → P (f s a)) (l : List α) :
    ∀ {s : State}, P s → P (l.foldl f s) := by
  induction l with
  | nil => intro s h; exact h
  | cons a t ih => intro s h; exact ih (hf s a h)

/-- A stamp changes timestamp queues, event sources and the queues' highest depths. -/
theorem stamp_eq (q sel : Nat) (e : StampEntry) (s : State) :
    stamp q sel e s = { s with time := (stamp q sel e s).time, ev := (stamp q sel e s).ev, dict := (stamp q sel e s).dict } := by
  unfold stamp
  dsimp only
  split
  · rfl
  · split
    · rfl
    · split <;> rfl

theorem told_stamp (q sel : Nat) (e : StampEntry) (s : State) : told s (stamp q sel e s) := by
  unfold stamp
  dsimp only
  split
  · exact told_refl s
  · split
    · exact told_trans (told_of_eq rfl rfl) (told_noteDepth _ _ _ _)
    · split
      · exact told_trans (told_of_eq rfl rfl) (told_noteDepth _ _ _ _)
      · exact told_trans (told_trans (told_of_eq rfl rfl) (told_noteDepth _ _ _ _)) (told_raiseEv _ _ _)

theorem stamp_raised {q sel k : Nat} {e : StampEntry} {s : State} (h : s.raised k) : (stamp q sel e s).raised k := by
  unfold stamp
  dsimp only
  split
  · exact h
  · split
    · exact h
    · split
      · exact h
      · exact raised_mono h

@[simp] theorem stamp_bus {q sel : Nat} {e : StampEntry} {s : State} : (stamp q sel e s).bus = s.bus := by rw [stamp_eq]
@[simp] theorem stamp_tx {q sel : Nat} {e : StampEntry} {s : State} : (stamp q sel e s).tx = s.tx := by rw [stamp_eq]
@[simp] theorem stamp_halves {q sel : Nat} {e : StampEntry} {s : State} : (stamp q sel e s).halves = s.halves := by rw [stamp_eq]
@[simp] theorem stamp_ident {q sel : Nat} {e : StampEntry} {s : State} : (stamp q sel e s).ident = s.ident := by rw [stamp_eq]
@[simp] theorem stamp_cfg {q sel : Nat} {e : StampEntry} {s : State} : (stamp q sel e s).cfg = s.cfg := by rw [stamp_eq]

/-- Closing sessions changes sessions and raises event 86. -/
theorem closeWhere_eq (p : Nat → Session → Bool) (s : State) :
    closeWhere p s = { s with ev := (closeWhere p s).ev, dict := (closeWhere p s).dict } := by
  unfold closeWhere
  exact foldl_frame (P := fun t => t = { s with ev := t.ev, dict := t.dict }) (fun t a h => by rw [h]; rfl) _ rfl

theorem closeIfGone_eq (p : Nat) (s : State) :
    closeIfGone p s = { s with ev := (closeIfGone p s).ev, dict := (closeIfGone p s).dict } := by
  unfold closeIfGone
  split
  · rfl
  · exact closeWhere_eq _ _

/-- A node dropped: its port is no longer integrated, its Welong sessions close when no channel holds it. -/
theorem dropInteg_eq (h : Half) (p : Nat) (s : State) :
    dropInteg h p s = { modPort h p (fun p => { p with
      integ := false, table := false, ready := false, readyMode := 0, readyLog := [], rx := none, tablesDue := [],
      tableClear := 0 }) s with ev := (dropInteg h p s).ev, dict := (dropInteg h p s).dict } := by
  unfold dropInteg
  exact closeIfGone_eq _ _

@[simp] theorem dropInteg_bus (h : Half) (p : Nat) (s : State) :
    (dropInteg h p s).bus = (modPort h p (fun p => { p with
      integ := false, table := false, ready := false, readyMode := 0, readyLog := [], rx := none, tablesDue := [],
      tableClear := 0 }) s).bus := by
  rw [dropInteg_eq]

@[simp] theorem setSpare_bus (t : Tab Nat) (n : Nat) (s : State) : (setSpare t n s).bus = { s.bus with spare := t } := by
  unfold setSpare
  split
  · rename_i e
    rw [e]
  · rfl

theorem setSpare_eq (t : Tab Nat) (n : Nat) (s : State) :
    setSpare t n s = { s with bus := { s.bus with spare := t }, ev := (setSpare t n s).ev, dict := (setSpare t n s).dict } := by
  unfold setSpare
  split
  · rename_i e
    rw [e]
  · rfl

theorem told_setSpare (t : Tab Nat) (n : Nat) (s : State) : told s (setSpare t n s) := by
  unfold setSpare
  split
  · exact told_refl s
  · exact told_trans (told_of_eq rfl rfl) (told_raiseEv _ _ _)

theorem releaseNode_eq (n : Nat) (s : State) :
    releaseNode n s = { s with bus := { s.bus with spare := s.bus.spare.filter (fun p => p.2 ≠ n) },
                               ev := (releaseNode n s).ev, dict := (releaseNode n s).dict } := setSpare_eq _ _ _

@[simp] theorem releaseNode_bus (n : Nat) (s : State) :
    (releaseNode n s).bus = { s.bus with spare := s.bus.spare.filter (fun p => p.2 ≠ n) } := setSpare_bus _ _ _

theorem portOf_bus {s t : State} (h : Half) (p : Nat) (e : t.bus = s.bus) : portOf t h p = portOf s h p := by
  unfold portOf
  rw [e]

theorem portOf_spare (b : BusSt) (l : Tab Nat) (s t : State) (h : Half) (p : Nat) (e1 : t.bus = { b with spare := l })
    (e2 : s.bus = b) : portOf t h p = portOf s h p := by
  unfold portOf
  rw [e1, e2]

theorem portsKept_dropInteg (h : Half) (p : Nat) (s : State) : portsKept h p s (dropInteg h p s) :=
  portsKept_trans (portsKept_modPort h p _ s) (portsKept_of_bus (dropInteg_bus h p s))

theorem portsKept_releaseNode (h : Half) (p n : Nat) (s : State) : portsKept h p s (releaseNode n s) :=
  fun _ _ _ => portOf_spare s.bus _ s _ _ _ (releaseNode_bus n s) rfl

/-- A discarded frame counts at its port; event 28 once per program cycle. -/
theorem discard_port (h : Half) (p : Nat) (s : State) : portOf (Machine.discard h p s) h p = { portOf s h p with discarded := sat 0xFFFFFFFF ((portOf s h p).discarded + 1), discEvt := true } := by
  unfold Machine.discard
  dsimp only
  split
  · simp [portOf]
  · rw [portOf_bus h p raiseEv_bus]; simp [portOf]
theorem discard_eq (h : Half) (p : Nat) (s : State) : discard h p s = { s with bus := (Machine.discard h p s).bus, ev := (Machine.discard h p s).ev, dict := (Machine.discard h p s).dict } := by
  unfold Machine.discard
  dsimp only
  split <;> rfl
theorem told_discard (h : Half) (p : Nat) (s : State) : told s (Machine.discard h p s) := by
  unfold Machine.discard
  dsimp only
  split
  · exact told_of_eq rfl rfl
  · exact told_trans (told_of_eq rfl rfl) (told_raiseEv _ _ _)
theorem portsKept_discard (h : Half) (p : Nat) (s : State) : portsKept h p s (Machine.discard h p s) := by
  have : (Machine.discard h p s).bus = (modPort h p (fun x => { x with discarded := sat 0xFFFFFFFF (x.discarded + 1), discEvt := true }) s).bus := by
    unfold Machine.discard
    dsimp only
    split <;> rfl
  exact portsKept_trans (portsKept_modPort h p _ s) (portsKept_of_bus this)

/-! ## Reporting -/

theorem reported_refl (s : State) : reported s s := ⟨told_refl s, rfl⟩

theorem reported_trans {s t u : State} (h : reported s t) (k : reported t u) : reported s u := by
  refine ⟨told_trans h.1 k.1, ?_⟩
  have e := k.2
  rw [h.2] at e
  exact e

theorem reported_raiseAt (img e d : Nat) (s : State) : reported s (raiseAt img e d s) := ⟨told_raiseAt _ _ _ _, by unfold raiseAt; rfl⟩

theorem reported_raiseEv (e d : Nat) (s : State) : reported s (raiseEv e d s) := reported_raiseAt _ _ _ _

theorem reported_withResult (r : Nat × List Byte) (s : State) : reported s (withResult r s) := ⟨told_withResult _ _, rfl⟩

theorem reported_noteDepth (q d : Nat) (b : Bool) (s : State) : reported s (noteDepth q d b s) := ⟨told_noteDepth _ _ _ _, rfl⟩

theorem reported_takeFree (s : State) : reported s (takeFree s).2 := ⟨told_of_eq rfl rfl, rfl⟩

theorem reported_bookMarker (s : State) : reported s (bookMarker s) := by
  unfold bookMarker
  split
  · exact reported_refl s
  · exact ⟨told_trans (told_of_eq rfl rfl) (told_raiseEv _ _ _), rfl⟩

theorem reported_bookPut (r : FbRec) (s : State) : reported s (bookPut r s) := by
  unfold bookPut
  dsimp only
  generalize hm : (if s.book.buf.length + (bookGroup r).length < bookBuffer then bookMarker s else s) = u
  have hu : reported s u := by
    rw [← hm]
    split
    · exact reported_bookMarker s
    · exact reported_refl s
  split
  · exact reported_trans hu ⟨told_of_eq rfl rfl, rfl⟩
  · exact reported_trans hu ⟨told_of_eq rfl rfl, rfl⟩

theorem reported_record (a b c d e : Nat) (l : List Byte) (s : State) : reported s (record a b c d e l s) :=
  reported_bookPut _ _

theorem reported_raiseRec (a b c d e : Nat) (l : List Byte) (s : State) : reported s (raiseRec a b c d e l s) :=
  reported_trans (reported_raiseEv _ _ _) (reported_record _ _ _ _ _ _ _)

theorem reported_chestWrite (k c d : Nat) (l : List Byte) (s : State) : reported s (chestWrite k c d l s) := by
  unfold chestWrite
  split
  · exact reported_refl s
  · refine reported_trans (t := { s with chest := _ }) ?_ (reported_raiseEv _ _ _)
    exact ⟨told_of_eq rfl rfl, rfl⟩

theorem reported_snapshot (s : State) : reported s (snapshot s) := by
  unfold snapshot
  split
  · exact reported_refl s
  · exact ⟨told_of_eq rfl rfl, rfl⟩

/-- A pending source still pends after a record. -/
theorem raised_bookPut {r : FbRec} {s : State} {k : Nat} (h : s.raised k) : (bookPut r s).raised k := by
  have hm : (bookMarker s).raised k := by
    unfold bookMarker
    split
    · exact h
    · exact raised_mono h
  unfold bookPut
  dsimp only
  split <;> split <;> first | exact hm | exact h

theorem raised_raiseRec {e d c f w : Nat} {l : List Byte} {s : State} (h : e < 96) : (raiseRec e d c f w l s).raised e :=
  raised_bookPut (raised_raiseEv h)

theorem raised_chestWrite {a b c : Nat} {l : List Byte} {s : State} {k : Nat} (h : s.raised k) : (chestWrite a b c l s).raised k := by
  unfold chestWrite
  split
  · exact h
  · exact raised_mono h

/-- A lane taken out: its state, the deliveries it made, the last exclusion; reports. -/
theorem dropLane_eq (l : Lane) (reason block : Nat) (detail : List Byte) (s : State) :
    reported { s with
      lanes := triPut s.lanes l { triGet s.lanes l with
        ls := if s.vote.autoRejoin then .excluded else .held, reason := reason, line := ⟨false, false⟩, out := none,
        progress := 0xFF, keptImgs := [], copyPoint := none, outOk := none, benchOk := none, shadowOk := 0,
        returned := false, started := false }
      halves := twoMap s.halves (fun _ h => { h with ingress := triPut h.ingress l none, bench := triPut h.bench l none })
      vote := { s.vote with lastExcl := lastExclBytes s l reason block } } (dropLane l reason block detail s) := by
  unfold dropLane
  simp only
  split
  · exact reported_trans (reported_chestWrite _ _ _ _ _) (reported_raiseRec _ _ _ _ _ _ _)
  · exact reported_trans (reported_trans (reported_chestWrite _ _ _ _ _) (reported_raiseRec _ _ _ _ _ _ _)) (reported_raiseEv _ _ _)

end Sys2Proof.Laws
end

