-- ==== Sys2Proof/Laws/Requests.lean ====
section
/-! SUPPORT. What the shared operations of the Traverse pass do: a held request dropped, a route released (R109, R126, R135,
R660). -/

namespace Sys2Proof.Machine

open Sys2Proof.Laws

/-- A held request dropped (R109). -/
theorem unhold_spec (q : Req) (x : KRun) :
    (∀ n, n ≠ q.target → rst (unhold q x).k n = rst x.k n) ∧
    unhold q x = { x with k := { x.k with
      routes := (unhold q x).k.routes, held := x.k.held.filter (fun h => !sameReq h.req q) } } ∧
    (rst (unhold q x).k q.target).clearedImg = (rst x.k q.target).clearedImg ∧
    ((rst x.k q.target).state ≠ .requested → (unhold q x).k.routes = x.k.routes) ∧
    (q.cls ≠ 2 → (unhold q x).k.routes = x.k.routes) ∧
    (q.cls = 2 → (rst x.k q.target).state = .requested →
      (∀ g ∈ x.k.held, sameReq g.req q = false → ¬(g.req.cls = 2 ∧ g.req.target = q.target)) →
      rst (unhold q x).k q.target = { rst x.k q.target with state := .released }) := by
  unfold unhold
  simp only
  split
  · rename_i h
    simp at h
    refine ⟨?_, rfl, ?_, ?_, ?_, ?_⟩
    · intro n hn; simp [rst, modRoute_k, tabGet_mod_other _ _ _ _ hn]
    · simp [rst, modRoute_k, RouteSt.init]
    · intro hh; exact absurd (of_decide_eq_true h.1.2) hh
    · intro hh; exact absurd h.1.1 hh
    · intro _ _ _; simp [rst, modRoute_k]
  · rename_i h
    refine ⟨fun _ _ => rfl, rfl, rfl, fun _ => rfl, fun _ => rfl, fun hc hs hg => ?_⟩
    exfalso; apply h; simp [hc]; exact ⟨decide_eq_true hs, fun g hm h1 h2 h3 => hg g hm h1 ⟨h2, h3⟩⟩

/-- A result changes the result rings alone. -/
theorem kResult_eq (p t c kd g co d : Nat) (x : KRun) :
    kResult p t c kd g co d x = { x with k := { x.k with results := (kResult p t c kd g co d x).k.results } } := rfl

@[simp] theorem rst_kResult (p t c kd g co d n : Nat) (x : KRun) : rst (kResult p t c kd g co d x).k n = rst x.k n := rfl
@[simp] theorem gst_kResult (p t c kd g co d n : Nat) (x : KRun) : gst (kResult p t c kd g co d x).k n = gst x.k n := rfl
@[simp] theorem pst_kResult (p t c kd g co d n : Nat) (x : KRun) : pst (kResult p t c kd g co d x).k n = pst x.k n := rfl
@[simp] theorem rst_modRoute (n : Nat) (f : RouteSt → RouteSt) (x : KRun) : rst (modRoute n f x).k n = f (rst x.k n) := by
  simp [rst, modRoute_k]
theorem rst_modRoute_other {n m : Nat} (f : RouteSt → RouteSt) (x : KRun) (h : m ≠ n) :
    rst (modRoute n f x).k m = rst x.k m := by
  simp only [rst, modRoute_k]; exact tabGet_mod_other _ _ _ _ h
@[simp] theorem rst_modPoint (n m : Nat) (f : PointSt → PointSt) (x : KRun) : rst (modPoint n f x).k m = rst x.k m := rfl
@[simp] theorem pst_modPoint (n : Nat) (f : PointSt → PointSt) (x : KRun) : pst (modPoint n f x).k n = f (pst x.k n) := by
  simp [pst, modPoint_k]
theorem pst_modPoint_other {n m : Nat} (f : PointSt → PointSt) (x : KRun) (h : m ≠ n) :
    pst (modPoint n f x).k m = pst x.k m := by
  simp only [pst, modPoint_k]; exact tabGet_mod_other _ _ _ _ h

/-- The entry signal of a route at stop (R134). -/
theorem signalStop_spec (e : KEnv) (n : Nat) (x : KRun) :
    signalStop e n x = { x with k := { x.k with signals := (signalStop e n x).k.signals } } ∧
    (∀ r, routeRec e.st n = some r →
      gst (signalStop e n x).k r.entry = (if (gst x.k r.entry).route = some n then ⟨0, none, 0⟩ else gst x.k r.entry) ∧
      ∀ m, m ≠ r.entry → gst (signalStop e n x).k m = gst x.k m) := by
  unfold signalStop
  split
  · rename_i h
    exact ⟨rfl, fun r hr => by rw [h] at hr; cases hr⟩
  · rename_i r h
    split
    · rename_i hg
      refine ⟨rfl, fun r' hr => ?_⟩
      rw [h] at hr; cases hr
      rw [if_pos hg]
      refine ⟨by simp [gst, modSignal_k], fun m hm => ?_⟩
      simp only [gst, modSignal_k]; exact tabGet_mod_other _ _ _ _ hm
    · rename_i hg
      refine ⟨rfl, fun r' hr => ?_⟩
      rw [h] at hr; cases hr
      rw [if_neg hg]
      exact ⟨rfl, fun _ _ => rfl⟩

/-- RELEASED to the setting port and to a canceller at another port (R126). -/
theorem releasedResults_spec (n code detail : Nat) (x : KRun) :
    releasedResults n code detail x = { x with k := { x.k with results := (releasedResults n code detail x).k.results } } ∧
    lastResult (releasedResults n code detail x).k (rst x.k n).port =
      some ⟨(rst x.k n).tag, (rst x.k n).cls, 0x15, n, code, detail, x.k.image.num⟩ ∧
    (∀ p, (rst x.k n).canceller = some p → p ≠ (rst x.k n).port → lastResult (releasedResults n code detail x).k p =
      some ⟨(rst x.k n).cancelTag, (rst x.k n).cancelCls, 0x15, n, code, detail, x.k.image.num⟩) := by
  unfold releasedResults
  simp only
  split
  · rename_i p hp
    split
    · rename_i h
      refine ⟨rfl, by rw [routeResult]; exact lastResult_kResult _ _ _ _ _ _ _ _, fun q hq hn => ?_⟩
      rw [hp] at hq; cases hq; exact absurd h hn
    · rename_i h
      refine ⟨rfl, ?_, fun q hq hn => ?_⟩
      · unfold lastResult
        rw [results_kResult_other _ _ _ _ _ _ _ _ _ (Ne.symm h)]
        exact lastResult_kResult _ _ _ _ _ _ _ _
      · rw [hp] at hq; cases hq
        rw [lastResult_kResult]; rfl
  · rename_i hp
    refine ⟨rfl, by rw [routeResult]; exact lastResult_kResult _ _ _ _ _ _ _ _, fun q hq _ => ?_⟩
    rw [hp] at hq; cases hq

/-- A route goes to released (R126, R135, R156): what becomes of it, and what stays. -/
theorem toReleased_spec (e : KEnv) (n code detail : Nat) (freeze : Bool) (x : KRun) :
    ∃ y, y = toReleased e n code detail freeze x ∧
      rst y.k n = { RouteSt.init with
        code := if code = 0 then (rst x.k n).code else code, emrg := (rst x.k n).emrg, port := (rst x.k n).port,
        tag := (rst x.k n).tag, cls := (rst x.k n).cls } ∧
      (∀ m, m ≠ n → rst y.k m = rst x.k m) ∧
      (∀ w ∈ y.k.events, w.app = true ∨ w.owner ≠ n) ∧
      (∀ r, routeRec e.st n = some r →
        gst y.k r.entry = (if (gst x.k r.entry).route = some n then ⟨0, none, 0⟩ else gst x.k r.entry) ∧
        (∀ m, m ≠ r.entry → gst y.k m = gst x.k m) ∧
        y.reserves = (kSend (reserveMsg e r 2 x.k.image.num) x).reserves) ∧
      lastResult y.k (rst x.k n).port =
        some ⟨(rst x.k n).tag, (rst x.k n).cls, 0x15, n, code, detail, x.k.image.num⟩ ∧
      (∀ p, (rst x.k n).canceller = some p → p ≠ (rst x.k n).port → lastResult y.k p =
        some ⟨(rst x.k n).cancelTag, (rst x.k n).cancelCls, 0x15, n, code, detail, x.k.image.num⟩) ∧
      y.evs = x.evs ∧ y.recs = x.recs ∧
      y.k = { x.k with
        routes := y.k.routes, signals := y.k.signals, results := y.k.results, events := y.k.events, frozen := y.k.frozen } := by
  refine ⟨_, rfl, ?_⟩
  unfold toReleased
  simp only
  obtain ⟨a1, a2⟩ := signalStop_spec e n x
  generalize signalStop e n x = u at *
  have hr : rst u.k n = rst x.k n := by rw [a1]; rfl
  have hi : u.k.image = x.k.image := by rw [a1]
  obtain ⟨b1, b2, b3⟩ := releasedResults_spec n code detail u
  rw [hr, hi] at b2 b3
  generalize releasedResults n code detail u = w at *
  have hr' : rst w.k n = rst x.k n := by rw [b1]; exact hr
  have hi' : w.k.image = x.k.image := by rw [b1]; exact hi
  have key : ∀ (z : KRun), z = modRoute n (fun s => { RouteSt.init with
        code := if code = 0 then s.code else code, emrg := s.emrg, port := s.port, tag := s.tag, cls := s.cls })
      (onK (fun k => dropEvents n { k with frozen := if freeze = true then k.frozen ++ [(n, rst x.k n)] else k.frozen }) w) →
      rst z.k n = { RouteSt.init with
        code := if code = 0 then (rst x.k n).code else code, emrg := (rst x.k n).emrg, port := (rst x.k n).port,
        tag := (rst x.k n).tag, cls := (rst x.k n).cls } ∧
      (∀ m, m ≠ n → rst z.k m = rst x.k m) ∧ (∀ v ∈ z.k.events, v.app = true ∨ v.owner ≠ n) ∧
      z.k.signals = u.k.signals ∧ z.k.results = w.k.results ∧ z.evs = x.evs ∧ z.recs = x.recs ∧ z.reserves = x.reserves ∧
      z.k.image = x.k.image ∧
      z.k = { x.k with
        routes := z.k.routes, signals := z.k.signals, results := z.k.results, events := z.k.events, frozen := z.k.frozen } := by
    intro z hz
    subst hz
    refine ⟨?_, ?_, ?_, ?_, rfl, ?_, ?_, ?_, ?_, ?_⟩
    · rw [rst_modRoute]
      rw [show rst (onK (fun k => dropEvents n { k with frozen := if freeze = true then k.frozen ++ [(n, rst x.k n)] else k.frozen }) w).k n = rst w.k n from rfl, hr']
    · intro m hm
      rw [rst_modRoute_other _ _ hm]
      show rst w.k m = _
      rw [b1]; show rst u.k m = _
      rw [a1]; rfl
    · intro v hv
      simp [modRoute_k, dropEvents] at hv
      tauto
    · rw [modRoute_k, onK_k, dropEvents]; simp only; rw [b1]
    · rw [modRoute_evs, onK_evs, b1]; simp only; rw [a1]
    · rw [modRoute_recs, onK_recs, b1]; simp only; rw [a1]
    · rw [modRoute_reserves, onK_reserves, b1]; simp only; rw [a1]
    · rw [modRoute_k, onK_k, dropEvents]; exact hi'
    · rw [modRoute_k, onK_k, dropEvents, b1]; simp only; rw [a1]
  split
  · rename_i r h
    obtain ⟨c1, c2, c3, c4, c5, c6, c7, c8, c9, c10⟩ := key _ rfl
    generalize modRoute n _ _ = z at *
    have hk : (kSend (reserveMsg e r 2 z.k.image.num) z).k = z.k := by unfold kSend; split <;> rfl
    have he : (kSend (reserveMsg e r 2 z.k.image.num) z).evs = z.evs := by unfold kSend; split <;> rfl
    have hq : (kSend (reserveMsg e r 2 z.k.image.num) z).recs = z.recs := by unfold kSend; split <;> rfl
    have hs : (kSend (reserveMsg e r 2 x.k.image.num) z).reserves = (kSend (reserveMsg e r 2 x.k.image.num) x).reserves := by
      unfold kSend; split <;> simp only [c8]
    rw [c9] at hk he hq ⊢
    rw [hk, he, hq, hs]
    refine ⟨c1, c2, c3, ?_, ?_, ?_, c6, c7, c10⟩
    · intro r' hr2
      rw [h] at hr2; cases hr2
      have := a2 r h
      unfold gst at *
      rw [c4]
      exact ⟨this.1, this.2, rfl⟩
    · unfold lastResult at *; rw [c5]; exact b2
    · intro p h1 h2; unfold lastResult at *; rw [c5]; exact b3 p h1 h2
  · rename_i h
    obtain ⟨c1, c2, c3, c4, c5, c6, c7, c8, c9, c10⟩ := key _ rfl
    generalize modRoute n _ _ = z at *
    refine ⟨c1, c2, c3, ?_, ?_, ?_, c6, c7, c10⟩
    · intro r' hr2; rw [h] at hr2; cases hr2
    · unfold lastResult at *; rw [c5]; exact b2
    · intro p h1 h2; unfold lastResult at *; rw [c5]; exact b3 p h1 h2

/-- R660 touches the movements of points alone. -/
theorem keepMoves_spec (e : KEnv) (n : Nat) (x : KRun) :
    keepMoves e n x = { x with k := { x.k with points := (keepMoves e n x).k.points } } ∧
    (∀ p, (pst (keepMoves e n x).k p).failed = (pst x.k p).failed) ∧
    (∀ p, (pst x.k p).mv = none → (pst (keepMoves e n x).k p).mv = none) := by
  unfold keepMoves
  split
  · exact ⟨rfl, fun _ => rfl, fun _ h => h⟩
  · simp only
    generalize List.filterMap _ _ ++ _ = l
    generalize hh : List.filter _ _ = others
    clear hh
    generalize rst x.k n = s
    induction l generalizing x with
    | nil => exact ⟨rfl, fun _ => rfl, fun _ h => h⟩
    | cons a l ih =>
      rw [List.foldl_cons]
      have step : ∀ u : KRun, (u = { x with k := { x.k with points := u.k.points } }) →
          (∀ p, (pst u.k p).failed = (pst x.k p).failed) → (∀ p, (pst x.k p).mv = none → (pst u.k p).mv = none) →
          _ := fun u h1 h2 h3 => by
        obtain ⟨i1, i2, i3⟩ := ih u
        exact (⟨by rw [i1]; generalize (List.foldl _ u l).k.points = z; rw [h1],
          fun p => (i2 p).trans (h2 p), fun p h => i3 p (h3 p h)⟩ :
          (List.foldl _ u l = { x with k := { x.k with points := (List.foldl _ u l).k.points } }) ∧
          (∀ p, (pst (List.foldl _ u l).k p).failed = (pst x.k p).failed) ∧
          (∀ p, (pst x.k p).mv = none → (pst (List.foldl _ u l).k p).mv = none))
      apply step
      · split
        · split
          · rfl
          · split <;> rfl
        · rfl
      · intro p
        split
        · split
          · rfl
          · split
            · by_cases hp : p = a.1
              · subst hp; rw [pst_modPoint]
              · rw [pst_modPoint_other _ _ hp]
            · by_cases hp : p = a.1
              · subst hp; rw [pst_modPoint]
              · rw [pst_modPoint_other _ _ hp]
        · rfl
      · intro p hm
        split
        · rename_i m hmv
          have hp : p ≠ a.1 := by rintro rfl; rw [hm] at hmv; cases hmv
          split
          · exact hm
          · split <;> rw [pst_modPoint_other _ _ hp] <;> exact hm
        · exact hm

/-- Transition 10 of a route that it applies to (R660, Table 3.6). -/
theorem transition10_eq (e : KEnv) (n code detail : Nat) (x : KRun)
    (h : (rst x.k n).state = .reserved ∨ (rst x.k n).state = .moving) :
    transition10 e n code detail x =
      toReleased e n code detail true (keepMoves e n (if code = cBndRefused then kEv 63 n x else x)) := by
  unfold transition10
  simp only
  rw [if_pos (by simp [h])]

/-- Transition 10 does nothing to a route in another state. -/
theorem transition10_none (e : KEnv) (n code detail : Nat) (x : KRun)
    (h : ¬((rst x.k n).state = .reserved ∨ (rst x.k n).state = .moving)) : transition10 e n code detail x = x := by
  unfold transition10
  simp only
  rw [if_neg (by simpa using h)]

end Sys2Proof.Machine
end

