-- ==== Sys2Proof/Tests/Slice0.lean ====
section
/-! SUPPORT. The model's own tests: ill-formed commands that the checks refuse, worked examples and table values of the
spec, and for every statement that has hypotheses a state and operands that meet them, clause by clause. -/

namespace Sys2Proof.Tests

open Sys2Proof Sys2Proof.Machine

/-! ## A small station and a module in service -/

/-- A controller point whose restrictive level is inactive. -/
def cp (point : Nat) : Binding := { port := 0, point := point, rval := false, fclass := 0 }

/-- Three sections in a row with a point, its second leg, a signal, a crossing, a key and a boundary. -/
def demo : Station :=
  { Station.none with
    modAddr := 0x14, site := 7, portReq := 16
    sections := [
      { num := 1, line := 1, start := 0, fin := 100000, occ := cp 0, point := none, low := .stop, high := .sec 2, maxOcc := 10 },
      { num := 2, line := 1, start := 100000, fin := 200000, occ := cp 1, point := some 10, low := .sec 1, high := .sec 3, maxOcc := 0 },
      { num := 3, line := 1, start := 200000, fin := 300000, occ := cp 2, point := none, low := .sec 2, high := .bnd 50, maxOcc := 0 },
      { num := 4, line := 1, start := 300000, fin := 400000, occ := cp 7, point := none, low := .sec 2, high := .stop, maxOcc := 0 }]
    points := [{ num := 10, sec := 2, toe := 150000, toeDir := .falling, legs := [(3, 200000), (4, 300000)], det := [cp 3, cp 4],
                 drive := [cp 10, cp 11], throwS := 6, trailable := false }]
    signals := [{ num := 20, sec := 1, high := true, chain := 100000, facing := .rising, start := 2, overlapMm := 0,
                  aspects := [.restrictive, .permissive], outs := [cp 12], proving := [cp 8, cp 9, cp 8, cp 9] }]
    crossings := [{ num := 30, kind := 0, prot := [3], closed := cp 5, openOut := cp 13, closeS := 10, openS := 10 }]
    boundaries := [{ num := 50, sec := 3, high := true, neighMod := 0x15, neighElt := 51, inverted := false }]
    keys := [{ num := 40, input := .ctl (cp 6), scope := [1], kind := 0 }]
    routes := [{ num := 1, entry := 20, exit := 50, dir := .rising, elems := [.sec 2, .pt 10 0, .sec 3, .xing 30], overlaps := [],
                 flank := [], prio := 0, aspect := 1, approach := 0, opS := 60 }]
    lines := [1]
    modes := [{ num := 0, busNs := 500000, lCyc := 20, prec := 500, guardNs := 500, syncNodes := [1, 2], coldNodes := [1],
                claimMask := 0xFFFF, slots := [], keepsHead := true },
              { num := 1, busNs := 1000000, lCyc := 40, prec := 500, guardNs := 500, syncNodes := [1, 2], coldNodes := [1],
                claimMask := 0, slots := [], keepsHead := true }]
    filters := List.replicate 8 { minMs := 10, maxS := 60, winMs := 1000, limit := 3, recMs := 10 }
    pairs := [{ num := 1, antivalent := true, discMs := 500, fclass := 0, rval := false }]
    localOuts := [{ num := 1, kind := .drive 0, elem := 10, bit := 0, dark := true }, { num := 2, kind := .drive 1, elem := 10, bit := 0, dark := true },
                  { num := 3, kind := .signal, elem := 20, bit := 0, dark := false }] }

/-- Inputs of the station: every section clear, the point in its first position, the crossing closed. -/
def clearInputs : BusImage :=
  { BusImage.init with levels := [(0, true), (1, true), (2, true), (3, true), (5, true), (7, true)] }

/-- The kernel of an image in the Run state. -/
def kern : Kernel := { Kernel.init with image := { CycleImage.init with num := 100, run := true, bus := clearInputs } }

/-- A kernel run of that image. -/
def krun : KRun := ⟨kern, [], [], []⟩

/-- A lane in vote that ran image 100. -/
def laneUp : LaneSt := { LaneSt.init with ls := .inVote, line := ⟨true, true⟩, kernel := kern, ran := 100 }

/-- A half in service. -/
def halfUp : HalfSt := { HalfSt.init with inServ := true, voter := true }

/-- A star port with link, integrated. -/
def portUp : PortSt := { PortSt.init with linkDly := 100, link := true, integ := true, table := true }

/-- A channel that keeps the schedule. -/
def chanOn : ChanSt := { ChanSt.init with st := .synchronised, ports := [(0, portUp), (1, portUp)] }

/-- An open session of a Commissioner over UDP. -/
def sessUp : Session := { Session.closed with opened := true, level := .commissioner, src := .udp 1 2, stamp := 7, newest := 5 }

/-- A module in Run with the station above, session 0 open, the commissioning key active, 10 s after power-up. -/
def up : State :=
  { State.reset with
    ns := 10000000000, cfg := demo, imageNo := 100, image := kern.image
    lanes := ⟨laneUp, laneUp, laneUp⟩, halves := ⟨halfUp, halfUp⟩, view := kern
    bus := { BusSt.init with counter := 2000, chans := ⟨chanOn, chanOn⟩ }
    lio := { LioSt.init with key := true }
    dict := { DictSt.init with modAddr := 0x14, sessions := [(0, sessUp)] }
    power := { PowerSt.init with step := 0, confirmed := true, unconfigured := false, bankCharged := true, coldNext := false }
    tres := ⟨{ TrestleSt.init with lock := true }, { TrestleSt.init with lock := true }⟩ }

/-- The lanes' environment of that module. -/
def env0 : KEnv := kenv up

/-- A set request for route 1 from port 2. -/
def req0 : Req :=
  { cls := 2, hold := false, opt := 0, all := false, resv := false, target := 1, tag := 9, stamp := 5, port := 2, level := .maintainer,
    epoch := 0, session := 0 }

/-- An empty frame of node 1 for the present bus cycle. -/
def frame0 : Frame :=
  { fcsOk := true, tagged := false, etherType := 0x88B5, destOk := true, version := 1, kind := 0x20, mode := 0, flags := 0,
    counter := 2000, slot := 8, src := 1, bodyLen := 0, body := [] }

/-- A cascade frame from module 0x15 on C1. -/
def cascFrame (kind : Nat) (body : List Byte) : CascFrame :=
  { fcsOk := true, etherType := 0x88B5, version := 2, kind := kind, src := 0x15, dst := 0x14, path := 1, hops := 4, resv := 0,
    bodyLen := body.length, side := 0, body := body }

/-- A datagram with its check (Table 14.1). -/
def dgram (service session seq index sub stamp : Nat) (data : List Byte) : List Byte :=
  let b := be 1 1 ++ be 1 service ++ be 1 session ++ be 1 0 ++ be 4 seq ++ be 2 index ++ be 1 sub ++ be 1 0 ++ be 2 data.length ++
    be 2 stamp ++ be 2 0 ++ be 2 0 ++ data
  b ++ be 4 (crcOf crc32c b)

/-- What the circuits report in a quiet bus cycle. -/
def head0 : HeadIn :=
  let h : HalfIn := { dt := 500000, pins := List.replicate 17 (false, true), cuts := [], codeFault := false, vector := none, readBack := false }
  { a := h, b := h, ni := 0, reset := false, vos := [], stored := 0, retired := 0, chestFault := false }

/-- What the hardware reports of an ordinary tick. -/
def tick0 : TickIn :=
  { copies := ⟨(true, true), (true, true), (true, true)⟩, times := ⟨PassTimes.zero, PassTimes.zero, PassTimes.zero⟩,
    ist := ⟨⟨0, 0, false, none⟩, ⟨0, 0, false, none⟩, ⟨0, 0, false, none⟩⟩, diverged := [] }

/-- What circuits and loaders report of a start-up step without a fault. -/
def start0 : StartIn :=
  { calendar := 1000000000, voter := ⟨(0, 0), (0, 0)⟩, cmp := ⟨true, true⟩, vec := ⟨none, none⟩, graph := ⟨true, true⟩,
    fw := ⟨true, true, true⟩, data := ⟨true, true, true⟩, banks := ⟨true, true, true⟩ }

/-- A Field book record of the given number and time. -/
def book0 (seq : Nat) (time : Int) : FbRec :=
  { seq := seq, time := time, image := 0, type := 1, event := 0, code := 0, source := 3, flags := 0, who := 0xFFFF, data := [] }

/-- A Chest record of the given number. -/
def chest0 (num : Nat) : ChestRec :=
  { num := num, kind := 1, source := 0, code := 0, time := 0, mtime := 0, image := 0, startCount := 0, status := 0, epoch := 0, summary := 0,
    detail := [], good := true }

/-! ## Records of the tests -/

def sec1 : SectionRec := demo.sections[0]
def sec2 : SectionRec := demo.sections[1]
def pt10 : PointRec := demo.points[0]
def sig20 : SignalRec := demo.signals[0]
def xing30 : CrossingRec := demo.crossings[0]
def key40 : KeyRec := demo.keys[0]
def route1 : RouteRec := demo.routes[0]
def mode1 : ModeRec := demo.modes[1]

/-- A read of 4 bytes of window 1 of module 0x15. -/
def trans0 : Trans :=
  { type := 1, tag := 0, init := 0, window := 1, offset := 0, length := 4, code := 0, epoch := 0, data := [], peer := 0x15 }

/-- That read under way. -/
def out0 : OutTrans :=
  { t := trans0, path := 1, sentNs := 0, arrived := none, arrivedNs := 0, error := none, resends := 0, polled := false }

/-- A PTP master. -/
def master0 : Master :=
  { prio1 := 1, clockClass := 6, accuracy := 0x20, variance := 0, prio2 := 1, gm := 3, steps := 0, sender := 3, timescale := true,
    utcValid := true, utcOffset := 37, leap59 := false, leap61 := false, interval := 1000000000, delayInt := 1000000000, heard := 0 }

/-- A Sync message of that master. -/
def ptp0 : PtpMsg := { sender := 3, domain := 0, seq := 1, twoStep := false, logInt := -3, origin := 0 }

/-- A lane envelope of module 0x15 on connection 1. -/
def env1 : Envelope :=
  { tag := 0x4015, seq := 1, stamp := 0, epoch := 0, kind := 0x94, flags := 0, payload := [], pair := 1, cv1 := 0, cv2 := 0 }

/-- A cascade connection with module 0x15. -/
def conn0 : ConnSt :=
  { kind := 6, peer := 0x15, num := 1, lastSeq := some 0, startCount := 0, ref := none, best := none, refAt := 0, busNs := 500000,
    lCyc := 20, partner := 0xFFFF, preferred := false, maxAge := 3 }

/-- A program of one instance and one variable. -/
def prog0 : Program :=
  { id := 1, version := 1, modAddr := 0x14, site := 7, needDigest := [], insts := [⟨1, 1, 1, false, 0⟩],
    vars := [⟨⟨1, 1⟩, 1, false, false, true, [0#8], [0#8]⟩], blocks := [], scope := ⟨[20], [10], [30], false⟩, bounds := [100, 100, 100, 100],
    instrBounds := [1, 1, 1, 1], exports := [], library := [], refs := [], routeRefs := [], writesBad := false, dataBytes := 1,
    nonVitalDflt := [], noDflt := 0 }

def var0 : VarSt := ⟨⟨1, 1⟩, 1, false, false, true, [0#8], [0#8]⟩

/-- A timer of route 1. -/
def sev0 : SEvent :=
  { kind := .elapsed, app := false, carrier := 0, target := 1, line := 1, threshold := 0, amount := 10, image := 90, owner := 1, dir := .rising }

/-- A tracked carrier in section 1. -/
def car0 : Carrier :=
  { id := 0x2C41, ts := .tracked, lreason := 0, dir := .rising, cls := 0, limit := 0, line := 1, front := 50000, len := 10000, fu := 10,
    ru := 10, span := [1], far := [], rear := [], hitBnd := false, confirm := 0, contra := 0, miss := 0, wasLost := false, clearRun := 0,
    lastValid := 99, port := 0, slot := none, eLine := 1, eChain := 0, dist := 0, sSec := 1, eSec := 1 }

/-- A report of that carrier. -/
def rep0 : Report :=
  { carrier := 0x2C41, cls := 0, dir := 1, line := 1, front := 50000, len := 10000, frontUnc := 10, rearUnc := 10, resv := false, port := 0, pos := 0 }

/-- A debug journal entry not applied yet. -/
def jent0 : JEntry := ⟨1, 0, .memWrite, 0, 0, 100, [1#8], false, false⟩

/-- What a lane delivers for image 100. -/
def oimg0 : OutputImage :=
  { num := 100, checkOk := true, cmds := [], locals := ⟨[], 0⟩,
    module := { excl := [], halfOff := [], powerVote := 0xFF, switchImg := 0, modeSwitch := 0, handover := 0, graphCheck := 0,
                appReqs := [], answers := [], view := kern },
    records := [], events := [], casc := ⟨1, true, 0, []⟩ }

/-- A firmware header of two blocks. -/
def fw0 : FwHeader :=
  { cclass := 1, version := 2, length := 131072, blocks := 2, settings := 1, formats := [1], minLoader := 0, digest := [] }

/-- A cascade envelope in its frame. -/
def envFrame (e : Envelope) : CascFrame := cascFrame 1 (cascadeBytes e ++ be 1 e.pair ++ be 3 0 ++ be 4 e.cv1 ++ be 4 e.cv2)

/-- A lane envelope of module 0x15 with good check values. -/
def laneEnv (num kind seq : Nat) (payload : List Byte) : Envelope :=
  laneEnvelope (cascadeId 6 0x15 0x14 num) 3 0x4015 seq 2000 0 kind payload

/-- An ANCHOR payload that opens a connection. -/
def anchorData : List Byte := be 4 1 ++ be 4 500000 ++ be 1 20 ++ be 1 1 ++ be 2 0xFFFF ++ be 1 0 ++ be 3 0

/-- A clear-ahead envelope of half A of module 0x15 with a good check value. -/
def clearEnv : Envelope :=
  let e : Envelope := { tag := 0x5015, seq := 1, stamp := 2000, epoch := 0, kind := 0x95, flags := 0,
                        payload := be 4 1 ++ be 4 500000 ++ be 2 0 ++ be 2 0, pair := 0, cv1 := 0, cv2 := 0 }
  { e with cv1 := envCheck (cascadeId 7 0x15 0x14 0 ^^^ trestleSeed .a) 0 (cascadeBytes e) }

/-- That envelope in its frame. -/
def clearFrame : CascFrame := cascFrame 1 (cascadeBytes clearEnv ++ be 4 clearEnv.cv1)

/-- A heartbeat of an active partner (Table 13.5). -/
def hbData : List Byte := be 1 1 ++ be 1 1 ++ be 2 0 ++ be 24 0 ++ be 4 0

/-- The module with 0x15 as its partner. -/
def paired : State := { up with pair := { up.pair with partnerAddr := 0x15, role := .active, formed := true } }

/-- The module with connection `num` of module 0x15 open. -/
def linked (num : Nat) : State :=
  { up with casc := { up.casc with conns := [{ conn0 with num := num, ref := some (2000, 2000), maxAge := 3 }] } }

/-- A transaction in its frame. -/
def bridgeFrame (t : Trans) : CascFrame := cascFrame 2 (transBytes t)

/-- A kernel run with route 1 in a state. -/
def kroute (v : RouteSt) : KRun := ⟨{ kern with routes := [(1, v)] }, [], [], []⟩

/-- A kernel run with one tracking entry. -/
def kcar (c : Carrier) : KRun := ⟨{ kern with carriers := [(0, c)] }, [], [], []⟩

/-- The head of a sync frame of the coming bus cycle. -/
def syncF (kind slot counter : Nat) : Frame :=
  { frame0 with kind := kind, slot := slot, counter := counter, bodyLen := 24, body := be 1 slot ++ List.replicate 23 0#8 }

/-- An input envelope of controller 0 for the coming bus cycle, with its check value. -/
def inputBody (cv : Nat) : List Byte :=
  let b := envHeader 0x1000 1 2001 0 0x20 0 8 ++ be 8 0
  b ++ be 4 (envCheck (welongId 1 0x14 0 7) 0 b ^^^ cv)

def inputF (cv : Nat) : Frame := { frame0 with counter := 2001, bodyLen := 28, body := inputBody cv }

/-- Where a carrier of section 1 stands. -/
def loc0 : Located := { sec := 1, span := [1], far := [⟨1, 50010⟩], rear := [⟨1, 39990⟩], bnd := false, stretch := [1] }

/-- A voted output image with a cascade block. -/
def vimg0 : VotedImage := { num := 100, cmds := [], locals := none, module := none, casc := some (⟨1, true, 0, []⟩, 1) }

/-- A session over the WELONG whose newest request came on channel A two bus cycles ago. -/
def sessWel : Session := { sessUp with src := .welong 3, newest := 6, seenChan := some .a, seenAt := 1998 }

/-- The module with its cascade paths at fault. -/
def noPaths : State :=
  let bad : PathSt := { PathSt.init with fault := true }
  { up with casc := { up.casc with paths := ⟨bad, bad, bad⟩ } }

/-- A heartbeat of the partner. -/
def hbEnv : Envelope := laneEnvelope (cascadeId 6 0x15 0x14 0) 3 0x4015 6 2000 0 0x90 hbData

/-- That heartbeat as a frame of the pair link. -/
def hbFrame (e : Envelope) : Frame := { frame0 with body := cascadeBytes e ++ be 1 e.pair ++ be 3 0 ++ be 4 e.cv1 ++ be 4 e.cv2 }

/-- The pair formed with heartbeat 6 of the partner accepted last. -/
def heardTo (seq : Nat) : State :=
  { paired with casc := { up.casc with conns := [{ conn0 with num := 0, lastSeq := some seq }] } }

/-- A walk of a signal that passed every element over one section. -/
def walk0 (dir : Dir) : Walk := { Walk.none with secs := [(1, dir)], len := 1 }

/-- An output of point 10 in its first position. -/
def drive0 (cmd : Bool) : TOut := { key := outKey 2 0 10, order := 10, points := [10], kind := .drive 10 0, cmd := cmd }

/-- A crossing's opening output. -/
def opening0 : TOut := { key := outKey 3 0 30, order := 13, points := [13], kind := .crossing 30, cmd := true }

/-- A module with an image received and valid for installing. -/
def updValid : State := { up with upd := { up.upd with valid := true, newVersion := 9 } }

/-- A point move under way. -/
def move0 : Move := { pos := 1, port := 2, tag := 9, cls := 3, commanded := true, deadline := 90, since := 80, order := 0, own := false, maint := false }

/-- A set request for point 10. -/
def reqP : Req := { req0 with cls := 3, target := 10 }

/-- An update buffer that holds a header of two blocks without a signature. -/
def fwBuffer : Mem :=
  let h := be 4 0x5A465733 ++ be 2 128 ++ be 2 1 ++ be 4 2 ++ be 4 131072 ++ be 2 2 ++ be 2 1 ++ be 16 1 ++ be 4 0 ++ be 12 0 ++ be 8 77 ++
    be 32 0 ++ be 32 0
  memWriteAll [] 0 (h ++ be 4 (crcOf crc32c h))

/-- The module with that buffer and the vendor key it names. -/
def updOpening : State :=
  { up with upd := { up.upd with buffer := fwBuffer, rollback := true }
            ident := { up.ident with vendorKeys := [(77, [1#8])] } }

/-- The module receiving block `next` of an image of two blocks. -/
def updReceiving (next : Nat) : State :=
  { up with upd := { up.upd with header := some fw0, upd := true, nextBlock := next } }

/-- That with the image digest given. -/
def updLast (digest : List Byte) : State :=
  { up with upd := { up.upd with header := some { fw0 with digest := digest }, upd := true, nextBlock := 1 } }

/-- What the digest of the image received is taken over. -/
def lastMem : Mem := memWriteAll up.upd.newArea (1 * 65536) (memReadAll up.upd.buffer 0 65536)

/-- A section of route 1 left behind and clear. -/
def clearOne : SecSt := { SecSt.init with clearRun := 1, occ := false }

/-- A PTP master current. -/
def slaved : State := { up with time := { up.time with ptp := { up.time.ptp with masters := [master0], current := some 3 } } }

/-- A module that starts up. -/
def starting (step : Nat) : State := { up with power := { up.power with step := step } }

/-- The module with refused OPENs of the test's source, locked until `t`. -/
def failing (t : Nat) : State :=
  { up with dict := { up.dict with fails := [{ src := .udp 1 2, times := [], lockedTo := some t }] } }

/-- A kernel run with section 2 occupied. -/
def krunOcc : KRun :=
  ⟨{ kern with image := { kern.image with bus := { clearInputs with levels := [(0, true), (2, true), (3, true), (5, true), (7, true)] } } }, [], [], []⟩

/-- The module checking station data of the given bytes. -/
def checkingData (m : Mem) (size : Nat) : State :=
  { up with load := { up.load with slots := ⟨DataSlot.init, { DataSlot.init with st := .checking, bytes := m, size := size }⟩ } }

/-- The module checking a program of the given bytes. -/
def checkingProg (m : Mem) (size : Nat) : State :=
  { up with progLoad := { up.progLoad with slots := ⟨ProgSlot.init, { ProgSlot.init with st := .checking, bytes := m, size := size }⟩ } }

/-- The station without an obstacle to route 1. -/
def tenv0 : TEnv := ⟨demo, clearInputs, fun _ => true⟩

/-- The module with signing keys registered. -/
def keyed (compose verify : List Nat) : State := { up with load := { up.load with compose := compose, verify := verify } }

set_option maxRecDepth 20000

/-! ## Ill-formed terms, one for each check of WellFormed -/

theorem test_frame_refused :
    ([{ frame0 with etherType := 65536 }, { frame0 with version := 256 }, { frame0 with kind := 256 }, { frame0 with mode := 256 },
      { frame0 with flags := 256 }, { frame0 with counter := 2 ^ 48 }, { frame0 with slot := 65536 }, { frame0 with src := 256 },
      { frame0 with bodyLen := 65536 }, { frame0 with body := List.replicate 1829 0#8 }].all (fun f => !f.wf)) = true := by decide

theorem test_cascade_frame_refused :
    let f := cascFrame 1 []
    ([{ f with etherType := 65536 }, { f with version := 256 }, { f with kind := 256 }, { f with src := 65536 }, { f with dst := 65536 },
      { f with path := 256 }, { f with hops := 256 }, { f with bodyLen := 65536 }, { f with side := 3 },
      { f with body := List.replicate 1501 0#8 }].all (fun f => !f.wf)) = true := by decide

theorem test_request_refused :
    ([{ req0 with cls := 256 }, { req0 with opt := 8 }, { req0 with target := 65536 }, { req0 with tag := 2 ^ 32 }, { req0 with stamp := 2 ^ 64 },
      { req0 with port := 16 }, { req0 with epoch := 65536 }].all (fun q => !q.wf)) = true := by decide

theorem test_source_refused :
    ([Source.udp (2 ^ 128) 0, .udp 0 65536, .welong 16, .proxy 65536 .observer].all (fun s => !s.wf)) = true := by decide

theorem test_bridge_refused :
    ([BridgeOp.ask 256 0 0 0 0 [], .ask 0 65536 0 0 0 [], .ask 0 0 16 0 0 [], .ask 0 0 0 65536 0 [], .ask 0 0 0 0 65536 [],
      .ask 0 0 0 0 0 (List.replicate 1501 0#8), .frame { cascFrame 1 [] with side := 3 }].all (fun o => !o.wf)) = true := by decide

theorem test_inputs_refused :
    let h := head0.a
    ([{ h with dt := 0 }, { h with pins := [] }, { h with cuts := [16] }, { h with vector := some (0, 0, false) },
      { h with vector := some (129, 0, false) }, { h with vector := some (1, 16, false) }].all (fun x => !x.wf)) = true ∧
    ([{ head0 with a := { h with dt := 0 } }, { head0 with b := { h with dt := 0 } }, { head0 with ni := 256 },
      { head0 with vos := [(17, false, false)] }].all (fun x => !x.wf)) = true := by decide

theorem test_tick_refused :
    ([{ tick0 with ist := ⟨⟨0, 101, false, none⟩, ⟨0, 0, false, none⟩, ⟨0, 0, false, none⟩⟩ },
      { tick0 with ist := ⟨⟨0, 0, false, none⟩, ⟨0, 101, false, none⟩, ⟨0, 0, false, none⟩⟩ },
      { tick0 with ist := ⟨⟨0, 0, false, none⟩, ⟨0, 0, false, none⟩, ⟨0, 0, false, some (true, 2 ^ 64)⟩⟩ },
      { tick0 with diverged := [(16, 0)] }, { tick0 with diverged := [(0, 2 ^ 32)] }].all (fun x => !x.wf)) = true ∧
    ([{ start0 with calendar := 2 ^ 64 }, { start0 with voter := ⟨(49, 0), (0, 0)⟩ },
      { start0 with voter := ⟨(0, 0), (49, 0)⟩ }].all (fun x => !x.wf)) = true := by decide

theorem test_time_refused :
    ([{ ptp0 with domain := 256 }, { ptp0 with seq := 65536 }].all (fun x => !x.wf)) = true ∧
    ([{ master0 with prio1 := 256 }, { master0 with clockClass := 256 }, { master0 with accuracy := 256 }, { master0 with variance := 65536 },
      { master0 with prio2 := 256 }, { master0 with gm := 2 ^ 64 }, { master0 with steps := 65536 }].all (fun x => !x.wf)) = true ∧
    ([(⟨65536, 0, 0, 0, 0, 0⟩ : TimeFrame), ⟨0, 0, 0, 0, 2 ^ 32, 0⟩, ⟨0, 0, 0, 0, 0, 65536⟩].all (fun x => !x.wf)) = true ∧
    ([(⟨65536, false, []⟩ : ProxyIn), ⟨0, false, List.replicate 1501 0#8⟩].all (fun x => !x.wf)) = true := by decide

theorem test_bus_commands_refused :
    ([Instr.busCycleStart { head0 with ni := 256 }, .evaluationOverrun .a (2 ^ 32), .syncFrame .a 16 frame0 0,
      .syncFrame .a 0 { frame0 with src := 256 } 0, .coldStart .a 16 frame0 0 none, .coldStart .a 0 { frame0 with src := 256 } 0 none,
      .coldStart .a 0 frame0 0 (some 16), .inputFrame .a 16 frame0, .integrateFrame .a 16 frame0, .portClosedByCuts .a 16, .linkUp .a 16,
      .linkDown .a 16, .delayResp .a 16 frame0 0, .linkDelayRemeasure .a 16, .portClose 16 .a 0, .portClose 0 .a 256, .portRelease 16 .a 0,
      .portRelease 0 .a 256, .measureLinkDelay 16 .a 0, .measureLinkDelay 0 .a 256, .portTableResend .a 16, .claimFrame .a 16 frame0,
      .serviceFrame .a 16 frame0 ⟨0, false, []⟩, .serviceFrame .a 0 frame0 ⟨65536, false, []⟩, .wakeFrame .a 16 frame0, .modeRequest 16 0,
      .modeRequest 0 8, .modeAbort 16].all (fun c => !c.wf)) = true ∧
    (let f : Frame := { frame0 with src := 256 }
     [Instr.inputFrame .a 0 f, .integrateFrame .a 0 f, .delayResp .a 0 f 0, .claimFrame .a 0 f, .serviceFrame .a 0 f ⟨0, false, []⟩,
      .wakeFrame .a 0 f].all (fun c => !c.wf)) = true := by decide

theorem test_lane_commands_refused :
    ([Instr.programCycleTick { tick0 with diverged := [(16, 0)] }, .outputImage .a .a (some { oimg0 with num := 2 ^ 32 }),
      .benchmarkMsg .a .a (some []), .memoryError .a (2 ^ 64), .withdrawLane 16 .a, .returnLane 16 .a, .cancelWithdrawal 16,
      .enterCommissioning 16, .leaveCommissioning 16, .debugHalt 4, .breakpointHit 4 0, .debugResume 4, .debugSingleStep 4,
      .debugMemoryWrite 4 0 [], .debugMemoryWrite 0 (2 ^ 64) [], .debugMemoryWrite 0 0 (List.replicate 33 0#8), .debugRegisterWrite 4 0 [],
      .debugRegisterWrite 0 65536 [], .debugRegisterWrite 0 0 (List.replicate 33 0#8), .instructionCountPublish [], .journalEntryApply .a 4,
      .outputWithheldLCycles .a (2 ^ 32), .clearAhead { cascFrame 1 [] with side := 3 }].all (fun c => !c.wf)) = true := by decide

theorem test_kernel_commands_refused :
    ([Instr.setRoute { req0 with cls := 1 }, .cancelRoute { req0 with cls := 2 }, .emergencyCancel { req0 with cls := 1 },
      .pointMove { req0 with cls := 2 }, .holdExpired 16 0, .holdExpired 0 (2 ^ 32), .throwTimeout 65536, .lostCleared 65536,
      .boundaryConfirmationTimeout 65536, .signalNotProven 65536, .sequenceRelease 65536, .clearFor 65536, .elapsedEvent false 65536,
      .releaseByDistance 65536, .ghostTimeout 65536, .crossingClosingTimeout 65536, .crossingOpenSlow 65536, .crossingRecovered 65536,
      .keyTimerExpiry true 65536, .emergencyRelease 16 0, .emergencyRelease 0 65536, .emergencyReleaseEndAll 16, .carrierConfirmed 65536,
      .carrierVanished 65536, .carrierContradict 65536, .lostSpanCleared 65536, .vlTimerExpiry (2 ^ 32)].all (fun c => !c.wf)) = true := by
  decide

theorem test_program_and_data_commands_refused :
    ([Instr.progArm 16, .progAbort 16, .progStop 16, .progStart 16, .variableWrite 16 0 0 [], .variableWrite 0 65536 0 [],
      .variableWrite 0 0 65536 [], .variableWrite 0 0 0 (List.replicate 257 0#8), .forceSet 16 0 0 [], .forceSet 0 65536 0 [],
      .forceSet 0 0 65536 [], .forceSet 0 0 0 (List.replicate 257 0#8), .forceRemove 16 0 0, .forceRemove 0 65536 0, .forceRemove 0 0 65536,
      .forceRemoveAll 16, .programLoadOpen 16, .programLoadWindow 16 [0#8], .programLoadWindow 0 [],
      .programLoadWindow 0 (List.replicate 1025 0#8), .programLoadEnd 16, .programLoadAbandon 16, .loadOpen 16, .loadWindow 16 [0#8],
      .loadWindow 0 [], .loadWindow 0 (List.replicate 1025 0#8), .loadEnd 16, .loadAbandon 16, .activateData 16, .withdrawActivation 16,
      .registerComposeKey 16 [], .registerComposeKey 0 (List.replicate 4097 0#8), .registerVerifyKey 16 [],
      .registerVerifyKey 0 (List.replicate 4097 0#8), .removeKey 16 [], .removeKey 0 (List.replicate 33 0#8)].all (fun c => !c.wf)) = true := by
  decide

theorem test_input_and_time_commands_refused :
    ([Instr.inputSupervisionFault .a 18 .pulseA 0 0, .inputSupervisionFault .a 0 .pulseA 5 0, .inputSupervisionFault .a 0 .pulseA 0 4,
      .discrepancy .a 0, .discrepancy .a 18, .chattering .a 0, .chattering .a 17, .stuckInput 17 0, .stuckInput 0 1024, .acknowledgePairs 16 0,
      .acknowledgePairs 0 65536, .acknowledgeOutputs 16 0, .acknowledgeOutputs 0 65536, .acknowledgeKey 16,
      .switchTest 0 false false false false, .switchTest 17 false false false false, .darkTest 0 false, .darkTest 17 false, .overcurrent 0,
      .overcurrent 17, .stuckOn 0, .stuckOn 17, .offsetIncrement 16 0, .rateIncrement 16 0, .timeStep 16 0, .acknowledgeRefusal 16,
      .ptpSync { ptp0 with seq := 65536 } 0, .announceMsg 256 master0, .announceMsg 0 { master0 with gm := 2 ^ 64 }, .launchMissed .a 1024 0,
      .launchMissed .a 0 16, .followUp { ptp0 with seq := 65536 }, .ptpDelayResp 0 65536 0].all (fun c => !c.wf)) = true := by decide

theorem test_cascade_commands_refused :
    let f : CascFrame := { cascFrame 1 [] with side := 3 }
    ([Instr.cascadeEnvelope f, .anchorMsg f, .anchorSend 4096 0, .anchorSend 0 3, .referencePairUpdate 5 0 0, .referencePairUpdate 6 4096 0,
      .referencePairUpdate 6 0 3, .pathFault 0, .pathFault 4, .boardLinkUp 0 0 [1] false, .boardLinkUp 3 0 [1] false, .boardLinkUp 1 1 [1] false,
      .boardLinkUp 1 0 (List.replicate 9 1) false, .heartbeatMsg .pairLink { frame0 with src := 256 },
      .shadowImage .a { CycleImage.init with num := 2 ^ 32 } true tick0, .shadowImage .a CycleImage.init true { tick0 with diverged := [(16, 0)] },
      .shadowMissed { tick0 with diverged := [(16, 0)] }, .benchmarkEnvelope f, .resynchronise 16, .handOver 16, .coldHandOver 16, .reserveMsg f,
      .reserveReply f, .timeFrame 0 ⟨0, 0, 0, 0, 0, 0⟩ 0, .timeFrame 4 ⟨0, 0, 0, 0, 0, 0⟩ 0, .timeFrame 1 ⟨65536, 0, 0, 0, 0, 0⟩ 0, .cycleReport f,
      .readReq (.frame f), .readData f, .readDataDiscard 256, .bridgeWrite (.frame f), .writeDone f, .bridgeError f, .bridgeTimeout 256,
      .delayRequest 65536 0 0, .delayRequest 0 (2 ^ 32) 0, .delayResponse 0 0 0, .delayResponse 4 0 0, .delayResponse 1 (2 ^ 32) 0,
      .boardLinkBreak true true 0 (List.replicate 9 1), .boardLinkBreak true true 1 []].all (fun c => !c.wf)) = true := by decide

theorem test_dictionary_commands_refused :
    let b := List.replicate 1501 0#8
    let s := Source.welong 16
    ([Instr.openSess s none [], .openSess (.udp 0 0) none b, .closeSess s none [], .closeSess (.udp 0 0) none b, .statusReq s none [],
      .readObj s none [], .writeObj s none [], .readClear s none [], .describeObj s none [], .eventRead s none [], .eventPendingClear s none [],
      .proxyReq s none [] ⟨0, false, []⟩, .proxyReq (.udp 0 0) none [] ⟨65536, false, []⟩, .sessionTimeout 16, .lockoutEnd s, .fieldBookRead 16,
      .fieldBookCursor 16 0, .fieldBookCursor 0 (2 ^ 64), .fieldBookSeek 16 0, .fieldBookSeek 0 (2 ^ 96), .chestRead 16 true, .snapshotRead 16,
      .eventRecordRead 16, .forceRecordRead 16, .chestClear 16 0, .chestClear 0 256, .checkAlgorithmSelect 16 0, .checkAlgorithmSelect 0 256,
      .checkData 16 [], .checkData 0 (List.replicate 1025 0#8), .checkRunningValue 16 0, .checkRunningValue 0 (2 ^ 64)].all
      (fun c => !c.wf)) = true := by decide

theorem test_test_and_power_commands_refused :
    let i : StartIn := { start0 with calendar := 2 ^ 64 }
    ([Instr.selfTestRun 16 0 0 0, .selfTestRun 0 256 0 0, .selfTestRun 0 0 256 0, .selfTestRun 0 0 0 (2 ^ 32), .selfTestStop 16 0, .selfTestStop 0 256,
      .takeHalfOut 16 0, .takeHalfOut 0 256, .restartHalf 16 0 start0, .restartHalf 0 256 start0, .restartHalf 0 0 i, .selfTestSlice 256 none,
      .ageingMeasurement 0x35FF 1 0, .ageingMeasurement 0x3606 1 0, .ageingMeasurement 0x3600 0 0, .ageingMeasurement 0x3600 4 0,
      .ageingMeasurement 0x3600 1 101, .clockRestore 16 0, .clockRestore 0 256, .powerVote 16 none 0 0, .powerVote 0 none 256 0,
      .powerVote 0 none 0 256, .wakeStepTimeout 6 0, .wakeStepTimeout 0 256, .wakeRetry 16 0, .wakeRetry 0 256, .startUpStep i,
      .startUpConfirmation 16 0, .startUpConfirmation 0 256, .supplyLost 0 0, .supplyLost 3 0, .supplyReturned 3 0, .supplyOvervoltage 3 0,
      .supplyEnters32VBand 3 0, .thermalShutdown 6, .updateOpen 16 none, .bufferWindow 16 [0#8], .bufferWindow 0 [],
      .bufferWindow 0 (List.replicate 1025 0#8), .updateBlock 16 none 0 0 true, .updateBlock 0 none 65536 0 true,
      .updateBlock 0 none 0 (2 ^ 32) true, .updateAbandon 16 none, .forwardImage 65536, .installRolling 16, .installAllLanes 16, .installStop 16,
      .compatibilityClassRead 256 0 0, .compatibilityClassRead 0 256 0, .compatibilityClassRead 0 0 256].all (fun c => !c.wf)) = true := by decide

/-! ## Worked examples and tables of the spec -/

/-- The check values of "123456789" (Table 15.8). -/
theorem test_check_algorithms :
    let b : List Byte := [0x31, 0x32, 0x33, 0x34, 0x35, 0x36, 0x37, 0x38, 0x39]
    crcOf crc16 b = 0x29B1 ∧ crcOf crc32 b = 0xCBF43926 ∧ crcOf crc32c b = 0xE3069283 ∧ crcOf crc64 b = 0x6C40DF5F0B497347 := by decide

/-- Identities and seeds of the star port 2 controller of Dunmere Hub (R377, Tables 6.1 and 10.1; Vital envelope, Worked example). -/
theorem test_connection_seeds :
    let site := 0x1C3A7E0590D24B68
    siteFold site = 0x985 ∧ welongId 1 0x14 2 site = 0x10142985 ∧ welongId 2 0x14 2 site ^^^ laneSeed .a = 0x1A4826A4 ∧
    welongId 2 0x14 2 site ^^^ laneSeed .b = 0xE4F59E1F ∧ welongId 2 0x14 2 site ^^^ laneSeed .c = 0x4D3BA2D1 ∧
    welongId 3 0x14 2 site ^^^ trestleSeed .a = 0xAB0A64B2 ∧ welongId 3 0x14 2 site ^^^ trestleSeed .b = 0x17E48F46 ∧
    welongId 2 0x15 2 site ^^^ laneSeed .a = 0x1A4926A4 ∧ welongId 3 0x15 2 site ^^^ trestleSeed .b = 0x17E58F46 := by decide

/-- Header of the command envelope of bus cycle 11,260, and its sequence (R382, Table 10.2). -/
theorem test_command_header :
    (11260 + 0xFFFFDF31) % 2 ^ 32 = 0xB2D ∧
    envHeader 0x4014 0xB2D 11260 7 0x30 0 12 =
      [0x40, 0x14, 0x00, 0x00, 0x0B, 0x2D, 0x00, 0x00, 0x2B, 0xFC, 0x00, 0x07, 0x30, 0x00, 0x00, 0x0C] ∧
    baseOf 0xB2D 11260 = 0xFFFFDF31 := by decide

/-- The switch counter of the mode request at 7,200,000 (R366; The Welong bus, Worked example). -/
theorem test_switch_counter : switchCounter 7200000 20 40 = 7200120 := by decide

/-- The midpoint of the deviations of R353's example. -/
theorem test_midpoint : midpoint [0, 120, -80, 40, -30] = 5 := by decide

/-- Route 0x0040 after image k + 262 and route 0x0041 with its expired hold (Table 3.8; Route setting, Worked example). -/
theorem test_route_words :
    let r : RouteSt := { RouteSt.init with state := .cleared, port := 3, ovl := 1, appr := true }
    let q : RouteSt := { RouteSt.init with code := 0x1102 }
    routeWord { kern with routes := [(0x40, r), (0x41, q)] } 0x40 = 0x00002836 ∧
    routeWord { kern with routes := [(0x40, r), (0x41, q)] } 0x41 = 0x11020000 := by decide

/-- A map word with cells 8 to 11 in an even and in an odd bus cycle, and point 48's word 3 (R272; Trestle, Worked example). -/
theorem test_map_words :
    permitWord (fun p => p = 8 || p = 9 || p = 10 || p = 11) 11260 0 = 0x00550000 ∧
    permitWord (fun p => p = 8 || p = 9 || p = 10 || p = 11) 11261 0 = 0x00AA0000 ∧
    permitWord (fun p => p = 48) 11260 3 = 0x00000001 := by decide

/-- Half A's decision on S0101 while P0211 is not detected (Table 7.10). -/
theorem test_decision_word : decisionWord { culprit := 0x0211, reason := 3, cmd := true, permit := false } = 0x02110380 := by decide

/-- Object 0x3400 of module 0x015 after it took over (Table 13.18). -/
theorem test_pair_word :
    pairWord { up with pair := { up.pair with epoch := 8, role := .active, partnerAddr := 0x14 } } = 0x00084080 := by decide

/-- The host's request and the header of its reply (Table 14.1; The object dictionary, Worked example). -/
theorem test_datagram :
    let b : List Byte := [0x01, 0x11, 0x03, 0x00, 0x00, 0x00, 0x00, 0x2A, 0x60, 0x13, 0x01, 0x00, 0x00, 0x08, 0x4E, 0x71, 0x00, 0x00, 0x00, 0x00,
      0x02, 0x00, 0x00, 0x40, 0x00, 0x00, 0x01, 0xA7]
    let d := readDgram (b ++ be 4 (crcOf crc32c b))
    dgramOk (b ++ be 4 (crcOf crc32c b)) = true ∧ badRequest d = false ∧ d.service = svWrite ∧ d.session = 3 ∧ d.seq = 0x2A ∧
    d.index = 0x6013 ∧ d.sub = 1 ∧ d.stamp = 0x4E71 ∧ d.data = [0x02, 0x00, 0x00, 0x40, 0x00, 0x00, 0x01, 0xA7] := by decide

/-- The status field of that reply and with an event record waiting (Table 14.7). -/
theorem test_status_field :
    statusWith false { up with ev := { up.ev with aseq := 5 } } = 0x0C05 ∧
    statusWith true { up with ev := { up.ev with aseq := 6 } } = 0x8C06 := by decide

/-- Object 0x3501 sub 2 after the failed test of Lane B's memory (Table 15.10). -/
theorem test_self_test_word :
    testWord { up with test := { up.test with insts := [(1, { TestInst.init with target := 1, ts := .failed, done := 19, total := 32 })] } } 1 =
      0x01304C20 := by decide

/-- The install state while block 0 of Lane C is written (Table 16.12). -/
theorem test_install_word :
    installWord { up with upd := { up.upd with action := 1, phase := .writing, lane := 2 } } = 0x01380000 := by decide

/-! ## Hypotheses met: one state with operands per clause -/

/-- `IdleOnEmpty`. -/
theorem witness_IdleOnEmpty :
    (∃ s : State, s.pending = []) :=
  ⟨(fun s => { s with pending := [] }) (up), by decide⟩

/-- `StepKeepsSound`. -/
theorem witness_StepKeepsSound :
    (∃ s : State, ∃ t : State, s.sound ∧ step s = .next t) :=
  ⟨(fun s => { s with pending := [] }) (up), { up with pending := [] },
    by refine ⟨⟨⟨by decide, by decide, by decide, by decide, by decide, by decide, by decide⟩, ⟨by decide, by decide, by decide, by decide⟩, ?_, ?_⟩, rfl⟩ <;> (intro h; cases h)⟩

/-- `BusCyclesAndTicks`. -/
theorem witness_BusCyclesAndTicks :
    (∃ s : State, (s.power.pfail ≠ 0 ∨ s.power.st = .standby ∨ s.power.st = .off)) ∧
    (∃ s : State, s.power.pfail = 0 ∧ s.power.st ≠ .standby ∧ s.power.st ≠ .off ∧ s.tres.a.overran = false ∧ s.tres.b.overran = false) ∧
    (∃ s : State, (s.bus.tick = false ∨ s.power.pfail ≠ 0)) ∧
    (∃ s : State, s.bus.tick = true ∧ s.power.pfail = 0) :=
  ⟨⟨(fun s => { s with power := { s.power with pfail := (0 + 1) } }) (up), by decide⟩,
   ⟨(fun s => { s with tres := { s.tres with b := { s.tres.b with overran := false } } }) ((fun s => { s with tres := { s.tres with a := { s.tres.a with overran := false } } }) ((fun s => { s with power := { s.power with pfail := 0 } }) (up))),
     by decide⟩,
   ⟨(fun s => { s with bus := { s.bus with tick := false } }) (up), by decide⟩,
   ⟨(fun s => { s with power := { s.power with pfail := 0 } }) ((fun s => { s with bus := { s.bus with tick := true } }) (up)), by decide⟩⟩

/-- `ChannelUpkeep`. -/
theorem witness_ChannelUpkeep :
    (∃ s : State, ∃ h : Half, (twoGet s.bus.chans h).corrs.length = 16) ∧
    (∃ s : State, ∃ h : Half, 8 ≤ (twoGet s.bus.chans h).weakRun) ∧
    (∃ s : State, ∃ h : Half, (twoGet s.halves h).inServ = true ∧ chanUp s h = true ∧ twoGet s.chest.counters h + 65536 ≤ s.bus.counter) ∧
    (∃ s : State, ∃ h : Half, (twoGet s.bus.chans h).st = .backingOff ∧ (twoGet s.bus.chans h).since + 8 * busNs0 s ≤ s.ns) ∧
    (∃ s : State, ∃ h : Half, (twoGet s.bus.chans h).st = .listening ∧ (twoGet s.halves h).inServ = true ∧
      (twoGet s.bus.chans h).since + 3 * busNs0 s ≤ s.ns ∧ chanUp s (otherHalf h) = false) :=
  ⟨⟨(fun s => { s with bus := { s.bus with chans := { s.bus.chans with a := { s.bus.chans.a with corrs := List.replicate 16 0 } } } }) (up), .a,
    by decide⟩,
   ⟨(fun s => { s with bus := { s.bus with chans := twoMod s.bus.chans .a (fun y => { y with weakRun := 8 }) } }) (up), .a, by decide⟩,
   ⟨(fun s => { s with bus := { s.bus with counter := (twoGet s.chest.counters .a + 65536) } }) ((fun s => { s with halves := twoMod s.halves .a (fun y => { y with inServ := true }) }) (up)),
     .a, by decide⟩,
   ⟨(fun s => { s with ns := ((twoGet s.bus.chans .a).since + 8 * busNs0 s) }) ((fun s => { s with bus := { s.bus with chans := twoMod s.bus.chans .a (fun y => { y with st := .backingOff }) } }) (up)),
     .a, by decide⟩,
   ⟨(fun s => { s with bus := { s.bus with chans := { s.bus.chans with b := { s.bus.chans.b with st := .listening } } } }) ((fun s => { s with bus := { s.bus with chans := { s.bus.chans with a := { s.bus.chans.a with st := .listening } } } }) (up)),
     .a, by decide⟩⟩

/-- `PortsAndLinks`. -/
theorem witness_PortsAndLinks :
    (∃ s : State, ∃ h : Half, ∃ p : Nat, p < s.ident.ports ∧ (twoGet s.halves h).inServ = true ∧ (portOf s h p).link = false ∧
      s.bus.dormant = false) ∧
    (∃ s : State, ∃ h : Half, ∃ p : Nat, (portOf s h p).link = true) ∧
    (∃ s : State, ∃ h : Half, ∃ p : Nat, ∃ f : Frame, (portOf s h p).link = true ∧ (portOf s h p).measOpen = true ∧ (portOf s h p).measRounds = [] ∧
      (portOf s h p).linkDly ≠ 0xFFFF ∧ frameForm s p f 0x14 8 (f.flags < 2) = true ∧ f.body.length = 8) ∧
    (∃ s : State, ∃ h : Half, ∃ p : Nat, s.bus.counter % 65536 = 0 ∧ chanUp s h = true ∧ portLive s h p = true) ∧
    (∃ s : State, ∃ h : Half, ∃ p : Nat, (portOf s h p).closed = false ∧
      (3 ≤ ((portOf s h p).cutAt.filter (fun c => s.bus.counter < c + 8)).length)) ∧
    (∃ s : State, ∃ h : Half, ∃ p : Nat, (portOf s h p).integ = true ∧ 8 ≤ (portOf s h p).tableClear ∧ (portOf s h p).tablesDue = []) :=
  ⟨⟨(fun s => { s with bus := { s.bus with dormant := false } }) ((fun s => modPort .a 0 (fun y => { y with link := false }) s) ((fun s => { s with halves := twoMod s.halves .a (fun y => { y with inServ := true }) }) ((fun s => { s with ident := { s.ident with ports := (0 + 1) } }) (up)))),
    .a, 0, by decide⟩,
   ⟨(fun s => modPort .a 0 (fun y => { y with link := true }) s) (up), .a, 0, by decide⟩,
   ⟨(fun s => { s with bus := { s.bus with chans := { s.bus.chans with a := { s.bus.chans.a with ports := [(0, { portUp with measOpen := true })] } } } }) (up),
     .a, 0, { frame0 with kind := 0x14, bodyLen := 8, body := be 8 0 }, by decide⟩,
   ⟨(fun s => { s with bus := { s.bus with counter := 65536 } }) (up), .a, 0, by decide⟩,
   ⟨(fun s => { s with bus := { s.bus with chans := { s.bus.chans with a := { s.bus.chans.a with ports := [(0, { portUp with cutAt := [1993, 1994, 1999] })] } } } }) (up),
     .a, 0, by decide⟩,
   ⟨(fun s => modPort .a 0 (fun y => { y with tablesDue := [] }) s) ((fun s => modPort .a 0 (fun y => { y with tableClear := 8 }) s) ((fun s => modPort .a 0 (fun y => { y with integ := true }) s) (up))),
     .a, 0, by decide⟩⟩

/-- `FramesTakenIn`. -/
theorem witness_FramesTakenIn :
    (∃ s : State, ∃ h : Half, ∃ p : Nat, ∃ f : Frame, chanUp s h = true ∧ s.bus.dormant = false ∧ portLive s h p = true ∧
      (portOf s h p).closed = false ∧ frameOk s p f 0x20 8 (nextCounter s) 924 (f.flags < 64) = true ∧ inputChecks s p (nextCounter s) f.body = true ∧
      (portOf s h p).integ = true ∧ (portOf s h p).base.base = some (baseOf (field f.body 2 4) (field f.body 6 4))) ∧
    (∃ s : State, ∃ h : Half, ∃ p : Nat, ∃ f : Frame, chanUp s h = true ∧ s.bus.dormant = false ∧ portLive s h p = true ∧
      (portOf s h p).closed = false ∧ frameOk s p f 0x20 8 (nextCounter s) 924 (f.flags < 64) = true ∧
      inputChecks s p (nextCounter s) f.body = false) ∧
    (∃ s : State, ∃ h : Half, ∃ p : Nat, ∃ f : Frame, chanUp s h = true ∧ s.bus.dormant = false ∧ portLive s h p = true ∧
      (portOf s h p).closed = false ∧ frameOk s p f 0x20 8 (nextCounter s) 924 (f.flags < 64) = false) ∧
    (∃ s : State, ∃ h : Half, ∃ p : Nat, chanUp s h = true ∧ s.bus.dormant = false ∧ portLive s h p = true ∧ (portOf s h p).closed = true) ∧
    (∃ s : State, ∃ h : Half, ∃ p : Nat, ∃ f : Frame, chanUp s h = true ∧ portLive s h p = true ∧ (portOf s h p).closed = true ∧
      (portOf s h p).cmdClosed = false ∧ (portOf s h p).integrateAt + 1 = nextCounter s ∧ 3 ≤ (portOf s h p).reopenRun ∧
      frameOk s p f 0x12 8 (nextCounter s) 4 (f.flags < 2 && field f.body 0 4 = 0) = true) ∧
    (∃ s : State, ∃ h : Half, ∃ p : Nat, ∃ f : Frame, chanUp s h = true ∧ portLive s h p = true ∧ (portOf s h p).closed = true ∧
      ((portOf s h p).cmdClosed = true ∨ (portOf s h p).integrateAt + 1 ≠ nextCounter s ∨ (portOf s h p).reopenRun < 3) ∧
      frameOk s p f 0x12 8 (nextCounter s) 4 (f.flags < 2 && field f.body 0 4 = 0) = true) :=
  ⟨⟨(fun s => { s with bus := { s.bus with chans := { s.bus.chans with a := { s.bus.chans.a with ports := [(0, { portUp with base := { portUp.base with base := some 4294965296 } })] } } } }) (up),
    .a, 0, inputF 0, by decide⟩,
   ⟨up, .a, 0, inputF 1, by decide⟩,
   ⟨(fun s => modPort .a 0 (fun y => { y with closed := false }) s) ((fun s => { s with bus := { s.bus with dormant := false } }) (up)), .a, 0,
     frame0, by decide⟩,
   ⟨(fun s => modPort .a 0 (fun y => { y with closed := true }) s) ((fun s => { s with bus := { s.bus with dormant := false } }) (up)), .a, 0,
     by decide⟩,
   ⟨(fun s => { s with bus := { s.bus with chans := { s.bus.chans with a := { s.bus.chans.a with ports := [(0, { portUp with closed := true, cmdClosed := false, integrateAt := 2000, reopenRun := 3 })] } } } }) (up),
     .a, 0, { frame0 with kind := 0x12, slot := 8, counter := 2001, bodyLen := 4, body := be 4 0 }, by decide⟩,
   ⟨(fun s => { s with bus := { s.bus with chans := { s.bus.chans with a := { s.bus.chans.a with ports := [(0, { portUp with closed := true, cmdClosed := true, integrateAt := 2000, reopenRun := 3 })] } } } }) (up),
     .a, 0, { frame0 with kind := 0x12, slot := 8, counter := 2001, bodyLen := 4, body := be 4 0 }, by decide⟩⟩

/-- `BusStartAndSync`. -/
theorem witness_BusStartAndSync :
    (∃ s : State, ∃ h : Half, ∃ p : Nat, ∃ k : Nat, ∃ f : Frame, portLive s h p = true ∧ (portOf s h p).closed = false ∧
      (twoGet s.bus.chans h).st = .synchronised ∧ (twoGet s.bus.chans h).starter = false ∧ s.bus.dormant = false ∧
      frameForm s p f 0x10 24 (f.flags < 2) = true ∧ f.body.length = 24 ∧ field f.body 0 1 = k ∧ k ≤ 7 ∧ f.slot = k ∧ f.counter = nextCounter s ∧
      syncNode s k = some (p + 1)) ∧
    (∃ s : State, ∃ h : Half, ∃ p : Nat, ∃ f : Frame, portLive s h p = true ∧ (twoGet s.bus.chans h).blocked = [] ∧
      (twoGet s.bus.chans h).st = .listening ∧ frameForm s p f 0x11 24 (f.flags < 2) = true ∧ f.body.length = 24 ∧ field f.body 0 1 ≤ 7 ∧
      max s.chest.counters.a s.chest.counters.b + 65537 ≤ f.counter ∧ f.counter < 2 ^ 48 ∧ chanUp s (otherHalf h) = false ∧ s.bus.dormant = false) ∧
    (∃ s : State, ∃ h : Half, ∃ p : Nat, ∃ q : Nat, portLive s h p = true ∧ (twoGet s.bus.chans h).blocked = [] ∧
      (twoGet s.bus.chans h).st = .listening ∧ q < p) :=
  ⟨⟨up, .a, 0, 1, syncF 0x10 1 2001, by decide⟩,
   ⟨(fun s => { s with bus := { s.bus with chans := { s.bus.chans with b := { s.bus.chans.b with st := .listening } } } }) ((fun s => { s with bus := { s.bus with chans := { s.bus.chans with a := { s.bus.chans.a with st := .listening } } } }) (up)),
     .a, 0, syncF 0x11 0 65537, by decide⟩,
   ⟨(fun s => { s with bus := { s.bus with chans := { s.bus.chans with a := { s.bus.chans.a with st := .listening } } } }) (up), .a, 1, 0, by decide⟩⟩

/-- `PortCommands`. -/
theorem witness_PortCommands :
    (∃ s : State, ∃ n : Nat, ∃ h : Half, ∃ p : Nat, s.allows n .maintainer false ∧ p < s.ident.ports ∧ (portOf s h p).link = true) ∧
    (∃ s : State, ∃ n : Nat, ∃ h : Half, ∃ p : Nat, s.allows n .maintainer false ∧ chanUp s h = true ∧ portLive s h p = true) ∧
    (∃ s : State, ∃ n : Nat, ∃ p : Nat, s.allows n .maintainer false ∧ s.ident.ports ≤ p) ∧
    (∃ s : State, ∃ n : Nat, ∃ h : Half, ∃ p : Nat, s.allows n .maintainer false ∧ p < s.ident.ports ∧ (portOf s h p).link = false) ∧
    (∃ s : State, ∃ n : Nat, (sessOf s n).opened = true ∧ levelRank (sessOf s n).level < 2) :=
  ⟨⟨(fun s => modPort .a 0 (fun y => { y with link := true }) s) ((fun s => { s with ident := { s.ident with ports := (0 + 1) } }) (up)), 0, .a, 0,
    by decide⟩,
   ⟨up, 0, .a, 0, by decide⟩,
   ⟨up, 0, 64, by decide⟩,
   ⟨(fun s => modPort .a 0 (fun y => { y with link := false }) s) ((fun s => { s with ident := { s.ident with ports := (0 + 1) } }) (up)), 0, .a, 0,
     by decide⟩,
   ⟨(fun s => { s with dict := { s.dict with sessions := [(0, { sessUp with level := .operator })] } }) (up), 0, by decide⟩⟩

/-- `ClaimsAndModes`. -/
theorem witness_ClaimsAndModes :
    (∃ s : State, ∃ h : Half, ∃ p : Nat, ∃ c : Nat, ∃ f : Frame, chanUp s h = true ∧ s.bus.dormant = false ∧ portLive s h p = true ∧
      (portOf s h p).integ = true ∧ (portOf s h p).closed = false ∧ frameOk s p f 0x80 11 s.bus.counter 4 (f.flags < 2) = true ∧ f.body.length = 4 ∧
      field f.body 0 1 = c ∧ c ≤ 4 ∧ field f.body 1 3 = 0 ∧ bit (((modeNow s).map (·.claimMask)).getD 0) p = true ∧ (∀ x ∈ s.bus.claims,
      x.1 ≠ p + 1)) ∧
    (∃ s : State, ∃ m : ModeRec, modeRec s m.num = some m ∧ m.num ≤ 7 ∧ m.num ≠ s.bus.mode ∧ s.bus.pend = none ∧ modeOf s = 0 ∧
      budgetBad s m = false ∧ 0 < s.bus.lCyc ∧ 0 < m.lCyc) ∧
    (∃ s : State, ∃ n : Nat, ∃ q : SwitchSt, s.allows n .maintainer false ∧ s.bus.pend = some q ∧ q.confirmed = false) ∧
    (∃ s : State, ∃ q : SwitchSt, s.bus.pend = some q ∧ q.confirmed = false ∧ q.s ≤ s.bus.counter + 2 * s.bus.lCyc ∧ q.announced = true ∧
      notReadyNodes s q.mode = []) ∧
    (∃ s : State, ∃ q : SwitchSt, ∃ k : Nat, ∃ l : List Nat, s.bus.pend = some q ∧ q.confirmed = false ∧ q.s ≤ s.bus.counter + 2 * s.bus.lCyc ∧
      notReadyNodes s q.mode = k :: l) ∧
    (∃ s : State, ∃ q : SwitchSt, ∃ m : ModeRec, s.bus.pend = some q ∧ modeRec s q.mode = some m ∧ q.confirmed = true ∧ q.s ≤ nextCounter s) :=
  ⟨⟨(fun s => { s with bus := { s.bus with mode := 0 } }) (up), .a, 1, 2,
    { frame0 with kind := 0x80, slot := 11, src := 2, mode := 1, flags := 1, bodyLen := 4, body := be 1 2 ++ be 3 0 }, by decide⟩,
   ⟨(fun s => { s with bus := { s.bus with lCyc := 20 } }) (up), mode1, by decide⟩,
   ⟨(fun s => { s with bus := { s.bus with pend := some ⟨1, 9000, true, false⟩ } }) (up), 0, ⟨1, 9000, true, false⟩, by decide⟩,
   ⟨(fun s => { s with bus := { s.bus with chans := { s.bus.chans with b := { s.bus.chans.b with ports := [] } } } }) ((fun s => { s with bus := { s.bus with chans := { s.bus.chans with a := { s.bus.chans.a with ports := [] } } } }) ((fun s => { s with bus := { s.bus with lCyc := 20 } }) ((fun s => { s with bus := { s.bus with pend := some ⟨1, 2040, true, false⟩ } }) (up)))),
     ⟨1, 2040, true, false⟩, by decide⟩,
   ⟨(fun s => { s with bus := { s.bus with lCyc := 20 } }) ((fun s => { s with bus := { s.bus with pend := some ⟨1, 2040, true, false⟩ } }) (up)), ⟨1,
     2040, true, false⟩, 1, [2], by decide⟩,
   ⟨(fun s => { s with bus := { s.bus with pend := some ⟨1, 2001, true, true⟩ } }) (up), ⟨1, 2001, true, true⟩, mode1, by decide⟩⟩

/-- `VoteKeepsAgreeing`. -/
theorem witness_VoteKeepsAgreeing :
    (∃ ps : List (Lane × OutputImage), ∃ p : Lane × OutputImage, ∃ q : Lane × OutputImage, ∃ i : Nat, (ps.map (·.1)).Nodup ∧ 2 ≤ ps.length ∧
      (voteOf ps).differs = false ∧ (voteOf ps).named.length ≤ 1 ∧ (p ∈ ps.filter (fun p => !(voteOf ps).named.contains p.1)) ∧
      (q ∈ ps.filter (fun p => !(voteOf ps).named.contains p.1)) ∧ i < 20) ∧
    (∃ ps : List (Lane × OutputImage), ∃ p : Lane × OutputImage, ∃ q : Lane × OutputImage, (ps.map (·.1)).Nodup ∧ 2 ≤ ps.length ∧
      (voteOf ps).differs = false ∧ (voteOf ps).named.length ≤ 1 ∧ p ∈ ps ∧ q ∈ ps ∧ (voteOf ps).named = [p.1] ∧ q.1 ≠ p.1) :=
  ⟨⟨[(.a, oimg0), (.b, oimg0), (.c, { oimg0 with locals := ⟨[true], 0⟩ })], (.a, oimg0), (.b, oimg0), 19, by decide⟩,
   ⟨[(.a, oimg0), (.b, oimg0), (.c, { oimg0 with locals := ⟨[true], 0⟩ })], (.c, { oimg0 with locals := ⟨[true], 0⟩ }), (.b, oimg0), by decide⟩⟩

/-- `BenchmarkVerdicts`. -/
theorem witness_BenchmarkVerdicts :
    (∃ ps : List (Lane × List Byte), 2 ≤ ps.length ∧ ps.length ≤ 3) ∧
    (∃ x : Lane × List Byte, ∃ y : Lane × List Byte, ∃ z : Lane × List Byte, ∃ l : List (Lane × List Byte), l ∈ [[z, x, y], [x, z, y], [x, y, z]] ∧
      x.2 = y.2 ∧ z.2 ≠ x.2) ∧
    (∃ x : Lane × List Byte, ∃ y : Lane × List Byte, ∃ z : Lane × List Byte, x.2 ≠ y.2 ∧ x.2 ≠ z.2 ∧ y.2 ≠ z.2) ∧
    (∃ x : Lane × List Byte, ∃ y : Lane × List Byte, x.2 ≠ y.2) ∧
    (∃ ps : List (Lane × List Byte), ps.length < 2) :=
  ⟨⟨[(.a, []), (.b, [])], by decide⟩,
   ⟨(.a, [1#8]), (.b, [1#8]), (.c, [2#8]), [(.c, [2#8]), (.a, [1#8]), (.b, [1#8])], by decide⟩,
   ⟨(.a, [1#8]), (.b, [2#8]), (.c, [3#8]), by decide⟩,
   ⟨(.a, [1#8]), (.b, [2#8]), by decide⟩,
   ⟨[(.a, [1#8])], by decide⟩⟩

/-- `HalfVotes`. -/
theorem witness_HalfVotes :
    (∃ s : State, ∃ l : Lane, ∃ k : Lane, ∃ h : Half, ∃ o : OutputImage, (twoGet s.halves h).inServ = true ∧ delivers s h l = true ∧
      o.num = s.imageNo ∧ (twoGet s.halves h).votedImg ≠ some s.imageNo ∧ k ≠ l ∧ inVoteAt s h k = true ∧ presentAt s h k = none) ∧
    (∃ s : State, ∃ h : Half, ∃ p : Lane × OutputImage, ∃ ps : List (Lane × OutputImage), (twoGet s.halves h).inServ = true ∧
      (twoGet s.halves h).voter = true ∧ (twoGet s.halves h).votedImg ≠ some s.imageNo ∧ imageVoted s = true ∧ presentImages s h = p :: ps ∧ ps ≠ [] ∧
      (∀ q ∈ ps, ∀ i, i < 20 → blockEq i p.2 q.2 = true) ∧ ps.length + 1 = (lanesAt s h).length ∧ activeNext s = true ∧ (∀ l,
      (triGet s.lanes l).ls ≠ .catchingUp ∧ (triGet s.lanes l).ls ≠ .shadow) ∧ benchDue s = false ∧ (∀ k, decidedNow s k = none)) ∧
    (∃ s : State, ∃ h : Half, (twoGet s.halves h).inServ = true ∧ (twoGet s.halves h).voter = true ∧ (twoGet s.halves h).votedImg ≠ some s.imageNo ∧
      lanesAt s h ≠ [] ∧ (presentImages s h).length < 2 ∧ imageVoted s = true ∧ benchDue s = false ∧ (∀ k, decidedNow s k = none)) ∧
    (∃ s : State, ∃ l : Lane, ∃ k : Lane, ∃ h : Half, ∃ d : List Byte, (twoGet s.halves h).inServ = true ∧ delivers s h l = true ∧
      (triGet s.lanes l).ran = s.imageNo ∧ benchDue s = true ∧ d.length = 32 ∧ k ≠ l ∧ inVoteAt s h k = true ∧ benchOf s h k = none) ∧
    (∃ s : State, ∃ v : VerdictMsg, ∃ w : VerdictMsg, cmpUp s .a = true ∧ cmpUp s .b = true ∧ verdictDone s = false ∧ decidedNow s .a = some v ∧
      decidedNow s .b = some w ∧ v ≠ w ∧ v.verdict = .match_ ∧ s.vote.pendLane = none ∧ leavingNow s = false ∧ (∀ l,
      (triGet s.lanes l).ls ≠ .catchingUp ∧ (triGet s.lanes l).ls ≠ .shadow)) :=
  ⟨⟨up, .a, .b, .a, oimg0, by decide⟩,
   ⟨(fun s => { s with vote := { s.vote with n := 7 } }) ((fun s => { s with vote := { s.vote with lastVoted := 100 } }) ((fun s => { s with vote := { s.vote with everVoted := true } }) ((fun s => { s with halves := { s.halves with a := { halfUp with ingress := ⟨some oimg0, some oimg0, some oimg0⟩ } } }) (up)))),
     .a, (.a, oimg0), [(.b, oimg0), (.c, oimg0)],
     by and_intros <;> first | decide | rfl | (intro k; cases k <;> decide) | (intro q hq i _; rcases List.mem_pair.1 hq with rfl | rfl <;> (revert i; decide))⟩,
   ⟨(fun s => { s with vote := { s.vote with n := 7 } }) ((fun s => { s with vote := { s.vote with lastVoted := 100 } }) ((fun s => { s with vote := { s.vote with everVoted := true } }) ((fun s => { s with halves := { s.halves with a := { halfUp with ingress := ⟨some oimg0, none, none⟩ } } }) (up)))),
     .a,
     by and_intros <;> first | decide | rfl | (intro k; cases k <;> decide) | (intro q hq i _; rcases List.mem_pair.1 hq with rfl | rfl <;> (revert i; decide))⟩,
   ⟨(fun s => { s with vote := { s.vote with n := 1 } }) (up), .a, .b, .a, be 32 0, by decide⟩,
   ⟨(fun s => { s with vote := { s.vote with benchImage := 99 } }) ((fun s => { s with halves := { s.halves with b := { s.halves.b with decided := some ⟨100, .none, ⟨[], [], []⟩⟩ } } }) ((fun s => { s with halves := { s.halves with a := { s.halves.a with decided := some ⟨100, .match_, ⟨[], [], []⟩⟩ } } }) (up))),
     ⟨100, .match_, ⟨[], [], []⟩⟩, ⟨100, .none, ⟨[], [], []⟩⟩,
     by and_intros <;> first | decide | rfl | (intro k; cases k <;> decide) | (intro q hq i _; rcases List.mem_pair.1 hq with rfl | rfl <;> (revert i; decide))⟩⟩

/-- `LaneExclusions`. -/
theorem witness_LaneExclusions :
    (∃ s : State, ∃ l : Lane, ∃ addr : Nat, ∃ c : Instr, ∃ r : Nat, (lanesInVote s).length = 3 ∧ (c = .memoryError l addr ∧
      r = 5 ∨ c = .laneClockFault l ∧ r = 7 ∨ c = .laneSupplyFault l ∧ r = 8 ∨ c = .lateExclusion l ∧ r = 3 ∧ s.comm.mode = false ∧
      (3 ≤ (triGet s.lanes l).late.a ∨ 3 ≤ (triGet s.lanes l).late.b))) ∧
    (∃ s : State, (lanesInVote s).length = 3) ∧
    (∃ s : State, s.comm.mode = true) ∧
    (∃ s : State, ∃ l : Lane, ((triGet s.lanes l).ls = .booting ∨ (triGet s.lanes l).ls = .copying) ∧ (triGet s.lanes l).dueNs < s.ns ∧
      s.vote.autoRejoin = true ∧ s.upd.phase = .idle) :=
  ⟨⟨(fun s => { s with lanes := triMod s.lanes .a (fun y => { y with late := { y.late with a := 3 } }) }) ((fun s => { s with comm := { s.comm with mode := false } }) (up)),
    .a, 0, .memoryError .a 0, 5, by decide⟩,
   ⟨up, by decide⟩,
   ⟨(fun s => { s with comm := { s.comm with mode := true } }) (up), by decide⟩,
   ⟨(fun s => { s with upd := { s.upd with phase := .idle } }) ((fun s => { s with vote := { s.vote with autoRejoin := true } }) ((fun s => { s with ns := ((triGet s.lanes .a).dueNs + 1) }) ((fun s => { s with lanes := triMod s.lanes .a (fun y => { y with ls := .booting }) }) (up)))),
     .a, by decide⟩⟩

/-- `LaneRejoin`. -/
theorem witness_LaneRejoin :
    (∃ s : State, ∃ l : Lane, (triGet s.lanes l).ls = .excluded ∧ s.vote.autoRejoin = true ∧ s.upd.phase = .idle ∧ s.view.prog.ps ≠ .armed ∧
      s.vote.restrictive = false ∧ s.power.st = .run ∧ triGet s.age.restore l = false) ∧
    (∃ s : State, ∃ l : Lane, (triGet s.lanes l).ls = .booting) ∧
    (∃ s : State, ∃ l : Lane, ∃ fw : Bool, ∃ data : Bool, ∃ mem : Bool, (triGet s.lanes l).ls = .booting ∧ (fw && data && mem) = false) ∧
    (∃ s : State, ∃ l : Lane, ∃ n : Nat, (triGet s.lanes l).ls = .copying ∧ (triGet s.lanes l).copyPoint = none ∧ imageVoted s = true ∧ n ≤ 1024) ∧
    (∃ s : State, ∃ l : Lane, ∃ n : Nat, (triGet s.lanes l).ls = .copying ∧ (triGet s.lanes l).copyPoint = none ∧ imageVoted s = true ∧ 1024 < n ∧
      (triGet s.lanes l).rounds < 19) ∧
    (∃ s : State, ∃ l : Lane, ∃ n : Nat, (triGet s.lanes l).ls = .copying ∧ (triGet s.lanes l).copyPoint = none ∧ imageVoted s = true ∧ 1024 < n ∧
      19 ≤ (triGet s.lanes l).rounds) ∧
    (∃ s : State, ∃ l : Lane, ∃ j : Nat, (triGet s.lanes l).ls = .copying ∧ (triGet s.lanes l).copyPoint = some j) ∧
    (∃ s : State, ∃ l : Lane, (triGet s.lanes l).ls = .shadow ∧ (triGet s.lanes l).outOk = some s.imageNo ∧
      (triGet s.lanes l).benchOk = some s.imageNo ∧ 1 ≤ (triGet s.lanes l).shadowOk) :=
  ⟨⟨(fun s => { s with power := { s.power with st := .run } }) ((fun s => { s with vote := { s.vote with restrictive := false } }) ((fun s => { s with upd := { s.upd with phase := .idle } }) ((fun s => { s with vote := { s.vote with autoRejoin := true } }) ((fun s => { s with lanes := triMod s.lanes .a (fun y => { y with ls := .excluded }) }) (up))))),
    .a, by decide⟩,
   ⟨(fun s => { s with lanes := triMod s.lanes .a (fun y => { y with ls := .booting }) }) (up), .a, by decide⟩,
   ⟨(fun s => { s with lanes := { s.lanes with a := { s.lanes.a with ls := .booting } } }) (up), .a, true, true, false, by decide⟩,
   ⟨(fun s => { s with vote := { s.vote with lastVoted := 100 } }) ((fun s => { s with vote := { s.vote with everVoted := true } }) ((fun s => { s with lanes := { s.lanes with a := { s.lanes.a with copyPoint := none } } }) ((fun s => { s with lanes := { s.lanes with a := { s.lanes.a with ls := .copying } } }) (up)))),
     .a, 1024, by decide⟩,
   ⟨(fun s => { s with lanes := { s.lanes with a := { s.lanes.a with rounds := 18 } } }) ((fun s => { s with vote := { s.vote with lastVoted := 100 } }) ((fun s => { s with vote := { s.vote with everVoted := true } }) ((fun s => { s with lanes := { s.lanes with a := { s.lanes.a with copyPoint := none } } }) ((fun s => { s with lanes := { s.lanes with a := { s.lanes.a with ls := .copying } } }) (up))))),
     .a, 1025, by decide⟩,
   ⟨(fun s => { s with lanes := { s.lanes with a := { s.lanes.a with rounds := 19 } } }) ((fun s => { s with vote := { s.vote with lastVoted := 100 } }) ((fun s => { s with vote := { s.vote with everVoted := true } }) ((fun s => { s with lanes := { s.lanes with a := { s.lanes.a with copyPoint := none } } }) ((fun s => { s with lanes := { s.lanes with a := { s.lanes.a with ls := .copying } } }) (up))))),
     .a, 1025, by decide⟩,
   ⟨(fun s => { s with lanes := triMod s.lanes .a (fun y => { y with copyPoint := (some 0) }) }) ((fun s => { s with lanes := triMod s.lanes .a (fun y => { y with ls := .copying }) }) (up)),
     .a, 0, by decide⟩,
   ⟨(fun s => { s with lanes := triMod s.lanes .a (fun y => { y with shadowOk := 1 }) }) ((fun s => { s with lanes := triMod s.lanes .a (fun y => { y with benchOk := (some s.imageNo) }) }) ((fun s => { s with lanes := triMod s.lanes .a (fun y => { y with outOk := (some s.imageNo) }) }) ((fun s => { s with lanes := triMod s.lanes .a (fun y => { y with ls := .shadow }) }) (up)))),
     .a, by decide⟩⟩

/-- `WithdrawalAndCommissioning`. -/
theorem witness_WithdrawalAndCommissioning :
    (∃ s : State, ∃ n : Nat, s.allows n .maintainer false ∧ (lanesInVote s).length = 3 ∧ s.vote.pendLane = none ∧ s.view.prog.ps ≠ .armed ∧
      loadChecking s = false ∧ s.upd.updating = false ∧ s.upd.phase = .idle ∧ modeOf s ≤ 1) ∧
    (∃ s : State, ∃ n : Nat, s.allows n .maintainer false ∧ (lanesInVote s).length < 3) ∧
    (∃ s : State, ∃ l : Lane, s.vote.pendLane = some l ∧ s.vote.pendFrom ≤ s.imageNo ∧ s.imageNo % s.vote.n = 0 ∧ s.vote.matched = some s.imageNo ∧
      s.upd.phase = .idle) ∧
    (∃ s : State, ∃ n : Nat, ∃ l : Lane, s.allows n .maintainer false ∧ s.vote.pendLane = some l ∧ s.upd.phase = .idle) ∧
    (∃ s : State, ∃ n : Nat, s.allows n .maintainer false ∧ s.vote.pendLane = none) ∧
    (∃ s : State, ∃ n : Nat, ∃ l : Lane, s.allows n .maintainer false ∧ ((triGet s.lanes l).ls = .withdrawn ∨ (triGet s.lanes l).ls = .held)) ∧
    (∃ s : State, ∃ n : Nat, s.allows n .commissioner true ∧ s.comm.mode = true) ∧
    (∃ s : State, ∃ n : Nat, s.allows n .commissioner false ∧ s.lio.key = false) ∧
    (∃ s : State, s.comm.debugOpen = true ∧ s.lio.key = false) :=
  ⟨⟨(fun s => { s with upd := { s.upd with phase := .idle } }) ((fun s => { s with upd := { s.upd with updating := false } }) ((fun s => { s with vote := { s.vote with pendLane := none } }) (up))),
    0, by decide⟩,
   ⟨(fun s => { s with lanes := { s.lanes with c := { s.lanes.c with ls := .withdrawn } } }) (up), 0, by decide⟩,
   ⟨(fun s => { s with upd := { s.upd with phase := .idle } }) ((fun s => { s with vote := { s.vote with matched := (some s.imageNo) } }) ((fun s => { s with imageNo := s.vote.pendFrom }) ((fun s => { s with vote := { s.vote with pendLane := (some .a) } }) (up)))),
     .a, by decide⟩,
   ⟨(fun s => { s with upd := { s.upd with phase := .idle } }) ((fun s => { s with vote := { s.vote with pendLane := (some .a) } }) (up)), 0, .a,
     by decide⟩,
   ⟨(fun s => { s with vote := { s.vote with pendLane := none } }) (up), 0, by decide⟩,
   ⟨(fun s => { s with lanes := triMod s.lanes .a (fun y => { y with ls := .withdrawn }) }) (up), 0, .a, by decide⟩,
   ⟨(fun s => { s with comm := { s.comm with mode := true } }) (up), 0, by decide⟩,
   ⟨(fun s => { s with lio := { s.lio with key := false } }) (up), 0, by decide⟩,
   ⟨(fun s => { s with lio := { s.lio with key := false } }) ((fun s => { s with comm := { s.comm with debugOpen := true } }) (up)), by decide⟩⟩

/-- `DebugJournal`. -/
theorem witness_DebugJournal :
    (∃ s : State, ∃ core : Nat, ∃ n : Nat, debugReady s = true ∧ core ≤ 3 ∧ s.comm.journal.length < 1024 ∧ coreCount s.lanes.a core ≤ n) ∧
    (∃ s : State, ∃ core : Nat, ∃ data : List Byte, debugReady s = true ∧ core ≤ 3 ∧ s.comm.journal.length < 1024 ∧ data.length ≤ 256) ∧
    (∃ s : State, ∃ core : Nat, debugReady s = true ∧ core ≤ 3 ∧ s.comm.journal.length < 1023) ∧
    (∃ s : State, ∃ core : Nat, ∃ addr : Nat, ∃ data : List Byte, ∃ c : Instr, debugReady s = true ∧ core ≤ 3 ∧ s.comm.journal.length = 1024 ∧
      data.length ≤ 256 ∧ c ∈ [Instr.debugHalt core, .breakpointHit core addr, .debugResume core, .debugSingleStep core,
      .debugMemoryWrite core addr data, .debugRegisterWrite core addr data]) ∧
    (∃ s : State, s.comm.mode = true) ∧
    (∃ s : State, ∃ j : JEntry, ∃ r : List JEntry, s.comm.journal = j :: r ∧ (∀ k ∈ r, k.seq ≠ j.seq) ∧ j.doneB = false ∧ inVote s .b = true ∧
      inVote s .c = true ∧ j.action = .memWrite ∧ j.count ≤ coreCount s.lanes.b j.core ∧ (∀ k ∈ r, (k.doneB && k.doneC) = false)) :=
  ⟨⟨(fun s => { s with comm := { s.comm with debugOpen := true } }) ((fun s => { s with comm := { s.comm with mode := true } }) (up)), 3, 0,
    by decide⟩,
   ⟨(fun s => { s with comm := { s.comm with debugOpen := true } }) ((fun s => { s with comm := { s.comm with mode := true } }) (up)), 3,
     List.replicate 256 0#8, by decide⟩,
   ⟨(fun s => { s with comm := { s.comm with journal := List.replicate 1022 jent0 } }) ((fun s => { s with comm := { s.comm with debugOpen := true } }) ((fun s => { s with comm := { s.comm with mode := true } }) (up))),
     3, by decide⟩,
   ⟨(fun s => { s with comm := { s.comm with journal := List.replicate 1024 jent0 } }) ((fun s => { s with comm := { s.comm with debugOpen := true } }) ((fun s => { s with comm := { s.comm with mode := true } }) (up))),
     3, 0, List.replicate 256 0#8, .debugHalt 3, by decide⟩,
   ⟨(fun s => { s with comm := { s.comm with mode := true } }) (up), by decide⟩,
   ⟨(fun s => { s with comm := { s.comm with journal := [jent0, { jent0 with seq := 2 }] } }) (up), jent0, [{ jent0 with seq := 2 }], by decide⟩⟩

/-- `WalkElementsPass`. -/
theorem witness_WalkElementsPass :
    (∃ t : TEnv, ∃ g : SignalRec, ∃ p : Nat × Dir, (signalWalk t g).fail = none ∧ p ∈ (signalWalk t g).secs) ∧
    (∃ t : TEnv, ∃ g : SignalRec, ∃ p : Nat, (signalWalk t g).fail = none ∧ p ∈ (signalWalk t g).pts) ∧
    (∃ t : TEnv, ∃ sSec : Nat, ∃ eSec : Nat, ∃ d : Dir, ∃ p : Nat × Dir, (authWalkT t sSec eSec d).fail = none ∧
      p ∈ (authWalkT t sSec eSec d).secs.tail) ∧
    (∃ t : TEnv, ∃ sSec : Nat, ∃ eSec : Nat, ∃ d : Dir, ∃ p : Nat × Dir, (authWalkT t sSec eSec d).fail = none ∧ p ∈ (authWalkT t sSec eSec d).secs) ∧
    (∃ t : TEnv, ∃ sSec : Nat, ∃ eSec : Nat, ∃ d : Dir, ∃ p : Nat, (authWalkT t sSec eSec d).fail = none ∧ p ∈ (authWalkT t sSec eSec d).pts) :=
  ⟨⟨tenv0, sig20, (3, .rising), by decide⟩,
   ⟨tenv0, sig20, 10, by decide⟩,
   ⟨tenv0, 1, 3, .rising, (3, .rising), by decide⟩,
   ⟨tenv0, 1, 3, .rising, (1, .rising), by decide⟩,
   ⟨tenv0, 1, 3, .rising, 10, by decide⟩⟩

/-- `PermitsWithheld`. -/
theorem witness_PermitsWithheld :
    (∃ st : Station, ∃ ws : List (Walker × Walk), ∃ x : Walker × Walk, ∃ y : Walker × Walk, ∃ p : Nat × Dir, ∃ q : Nat × Dir, x ∈ ws ∧ y ∈ ws ∧
      x.1 ≠ y.1 ∧ x.2.fail = none ∧ y.2.fail = none ∧ conflictOf st ws x = none ∧ p ∈ x.2.secs ∧ q ∈ y.2.secs ∧ p.1 = q.1) ∧
    (∃ t : TEnv, ∃ ws : List (Walker × Walk), ∃ outs : List TOut, ∃ o : TOut, ∃ p : Nat, ∃ pos : Nat, ∃ w : Walker × Walk, o.kind = .drive p pos ∧
      withheldFor t ws outs o = none ∧ w ∈ ws) ∧
    (∃ t : TEnv, ∃ ws : List (Walker × Walk), ∃ outs : List TOut, ∃ o : TOut, ∃ p : Nat, ∃ pos : Nat, ∃ q : TOut, ∃ k : Nat, o.kind = .drive p pos ∧
      withheldFor t ws outs o = none ∧ q ∈ outs ∧ q.kind = .drive p k ∧ q.cmd = true) ∧
    (∃ t : TEnv, ∃ ws : List (Walker × Walk), ∃ outs : List TOut, ∃ o : TOut, ∃ x : Nat, o.kind = .crossing x ∧ withheldFor t ws outs o = none) ∧
    (∃ (s : State) (h : Half) (clear : Nat → Bool), s.comm.mode = true ∧
      ((tabFind (twoGet (evaluate h clear s).tx h).permits 0).any (fun w => !w.words.isEmpty)) = true) :=
  ⟨⟨{ demo with relations := [(20, 21)] }, [(.signal 20, walk0 .rising), (.signal 21, walk0 .rising)], (.signal 20, walk0 .rising), (.signal 21,
    walk0 .rising), (1, .rising), (1, .rising), by decide⟩,
   ⟨⟨demo, clearInputs, fun _ => true⟩, [(.signal 21, walk0 .rising)], [], drive0 true, 10, 0, (.signal 21, walk0 .rising),
     by and_intros <;> first | decide | rfl⟩,
   ⟨⟨demo, clearInputs, fun _ => true⟩, [], [drive0 true], drive0 true, 10, 0, drive0 true, 0, by and_intros <;> first | decide | rfl | simp⟩,
   ⟨⟨demo, clearInputs, fun _ => true⟩, [], [], opening0, 30, by and_intros <;> first | decide | rfl⟩,
   ⟨{ up with comm := { up.comm with mode := true } }, .a, fun _ => true, by decide⟩⟩

/-- `TrestleRows`. -/
theorem witness_TrestleRows :
    (∃ s : State, ∃ h : Half, ∃ key : Nat, ∃ d : Decision, (twoGet s.halves h).inServ = true ∧ tabFind (twoGet s.tres h).decisions key = some d) ∧
    (∃ s : State, ∃ h : Half, ∃ c : Instr, ∃ r : Nat, (twoGet s.halves h).inServ = true ∧ (c = .graphScrub h true ∧ r = 5 ∨ c = .halfSupplyOrClock h ∧
      r = 7)) ∧
    (∃ s : State, ∃ h : Half, (twoGet s.halves h).inServ = true) ∧
    (∃ s : State, ∃ h : Half, ∃ key : Nat, ∃ n : Nat, ∃ d : Decision, tabFind (twoGet s.tres h).withheldRun key = some n ∧ s.bus.lCyc ≤ n ∧
      tabFind (twoGet s.tres h).decisions key = some d ∧ d.cmd = true ∧ d.permit = false) :=
  ⟨⟨(fun s => { s with tres := twoMod s.tres .a (fun y => { y with decisions := [(0, ⟨0xFFFF, 1, false, false⟩)] }) }) ((fun s => { s with halves := twoMod s.halves .a (fun y => { y with inServ := true }) }) (up)),
    .a, 0, ⟨0xFFFF, 1, false, false⟩, by decide⟩,
   ⟨(fun s => { s with halves := twoMod s.halves .a (fun y => { y with inServ := true }) }) (up), .a, .graphScrub .a true, 5, by decide⟩,
   ⟨(fun s => { s with halves := twoMod s.halves .a (fun y => { y with inServ := true }) }) (up), .a, by decide⟩,
   ⟨(fun s => { s with bus := { s.bus with lCyc := 20 } }) ((fun s => { s with tres := { s.tres with a := { s.tres.a with decisions := [(5, ⟨0xFFFF, 1, true, false⟩)] } } }) ((fun s => { s with tres := { s.tres with a := { s.tres.a with withheldRun := [(5, 20)] } } }) (up))),
     .a, 5, 20, ⟨0xFFFF, 1, true, false⟩, by decide⟩⟩

/-- `SetRequests`. -/
theorem witness_SetRequests :
    (∃ s : State, imageVoted s = false) ∧
    (∃ e : KEnv, ∃ x : KRun, ∃ q : Req, ∃ r : RouteRec, ∃ ovl : Nat, q.cls = 2 ∧ q.port ≠ 1 ∧ validity e x.k q = none ∧
      routeRec e.st q.target = some r ∧ q.opt ≤ r.overlaps.length ∧ x.k.newRes.contains q.target = false ∧ (∀ h ∈ x.k.held,
      h.req.cls = 2 → h.req.target = q.target → sameReq h.req q = true) ∧ holding (rst x.k q.target).state = false ∧
      checkRoute e x.k r q.opt = .inl ovl ∧ conflict e x.k r ovl = none) ∧
    (∃ e : KEnv, ∃ x : KRun, ∃ q : Req, q.cls = 2 ∧ q.port ≠ 1 ∧ validity e x.k q = none ∧ routeRec e.st q.target = none ∧ heldOf x.k q = none) ∧
    (∃ e : KEnv, ∃ x : KRun, ∃ q : Req, ∃ r : RouteRec, q.cls = 2 ∧ q.port ≠ 1 ∧ validity e x.k q = none ∧ routeRec e.st q.target = some r ∧
      q.opt ≤ r.overlaps.length ∧ x.k.newRes.contains q.target = false ∧ (∀ h ∈ x.k.held, ¬(h.req.cls = 2 ∧ h.req.target = q.target)) ∧
      heldOf x.k q = none ∧ holding (rst x.k q.target).state = true ∧ ¬((rst x.k q.target).state = .locked ∧ (rst x.k q.target).repl = true)) ∧
    (∃ e : KEnv, ∃ x : KRun, ∃ q : Req, ∃ r : RouteRec, ∃ code : Nat, ∃ elt : Nat, q.cls = 2 ∧ q.port ≠ 1 ∧ validity e x.k q = none ∧
      routeRec e.st q.target = some r ∧ q.opt ≤ r.overlaps.length ∧ x.k.newRes.contains q.target = false ∧ (∀ h ∈ x.k.held, ¬(h.req.cls = 2 ∧
      h.req.target = q.target)) ∧ heldOf x.k q = none ∧ (rst x.k q.target).state = .released ∧ checkRoute e x.k r q.opt = .inr (code, elt) ∧
      0x1101 ≤ code ∧ code ≤ 0x110A) ∧
    (∃ s : State, imageVoted s = false) ∧
    (∃ x : KRun, ∃ port : Nat, ∃ tag : Nat, ∃ h : Held, (x.k.held.find? (fun h => h.req.port = port && h.req.tag = tag && 64 ≤ h.tries) = some h)) :=
  ⟨⟨up, by decide⟩,
   ⟨env0, krun, (fun s => { s with port := (1 + 1) }) ((fun s => { s with cls := 2 }) (req0)), route1, 0, by decide⟩,
   ⟨env0, krun, { req0 with target := 99 }, by decide⟩,
   ⟨env0, kroute { RouteSt.init with state := .cleared }, req0, route1, by decide⟩,
   ⟨env0, krunOcc, req0, route1, 0x1103, 2, by decide⟩,
   ⟨up, by decide⟩,
   ⟨⟨{ kern with held := [⟨req0, 64, 0x1101, 0⟩] }, [], [], []⟩, 2, 9, ⟨req0, 64, 0x1101, 0⟩, by decide⟩⟩

/-- `CancelRequests`. -/
theorem witness_CancelRequests :
    (∃ s : State, imageVoted s = false) ∧
    (∃ e : KEnv, ∃ x : KRun, ∃ q : Req, ∃ c : Nat, q.cls ≤ 1 ∧ q.port ≠ 1 ∧ q.all = false ∧ validity e x.k q = none ∧ (routeRec e.st q.target = none ∧
      c = 0x1001 ∨ (routeRec e.st q.target).isSome = true ∧ (rst x.k q.target).state = .released ∧
      c = 0x1008 ∨ (routeRec e.st q.target).isSome = true ∧ ((rst x.k q.target).state = .occupied ∨ (rst x.k q.target).state = .releasing) ∧
      c = 0x1009)) ∧
    (∃ e : KEnv, ∃ x : KRun, ∃ q : Req, ∃ r : RouteRec, ∃ v : RouteSt, ∃ c : Nat, (q.cls = 1 ∧ c = 0x2009 ∨ q.cls = 0 ∧ c = 0x200A) ∧ q.port ≠ 1 ∧
      q.all = false ∧ validity e x.k q = none ∧ routeRec e.st q.target = some r ∧ v = rst x.k q.target ∧
      (v.state = .reserved ∨ v.state = .moving ∨ (v.state = .locked ∨ v.state = .cleared) ∧ v.appr = false)) ∧
    (∃ e : KEnv, ∃ x : KRun, ∃ q : Req, ∃ r : RouteRec, ∃ v : RouteSt, ∃ c : Nat, (q.cls = 1 ∧ c = 0x2009 ∨ q.cls = 0 ∧ c = 0x200A) ∧ q.port ≠ 1 ∧
      q.all = false ∧ validity e x.k q = none ∧ routeRec e.st q.target = some r ∧ v = rst x.k q.target ∧ (v.state = .locked ∨ v.state = .cleared) ∧
      v.appr = true ∧ x.k.events.length < 16384) ∧
    (∃ e : KEnv, ∃ x : KRun, ∃ q : Req, ∃ n : Nat, q.cls = 0 ∧ q.port ≠ 1 ∧ q.all = true ∧ validity e x.k q = none ∧
      ((rst x.k n).state = .reserved ∨ (rst x.k n).state = .moving)) :=
  ⟨⟨up, by decide⟩,
   ⟨env0, krun, { req0 with cls := 1, target := 99 }, 0x1001, by decide⟩,
   ⟨env0, kroute { RouteSt.init with state := .reserved }, { req0 with cls := 1 }, route1, { RouteSt.init with state := .reserved }, 0x2009,
     by decide⟩,
   ⟨env0, kroute { RouteSt.init with state := .locked, appr := true }, { req0 with cls := 1 }, route1,
     { RouteSt.init with state := .locked, appr := true }, 0x2009, by decide⟩,
   ⟨env0, (fun s => onK (fun k => { k with routes := tabMod k.routes 0 RouteSt.init (fun y => { y with state := .reserved }) }) s) (krun),
     (fun s => { s with all := true }) ((fun s => { s with port := (1 + 1) }) ((fun s => { s with cls := 0 }) (req0))), 0, by decide⟩⟩

/-- `PointMoves`. -/
theorem witness_PointMoves :
    (∃ s : State, imageVoted s = false) ∧
    (∃ s : State, imageVoted s = false) ∧
    (∃ e : KEnv, ∃ x : KRun, ∃ q : Req, ∃ p : PointRec, q.cls = 3 ∧ q.port ≠ 1 ∧ validity e x.k q = none ∧ ptRec e.st q.target = some p ∧
      q.opt < p.legs.length ∧ heldOf x.k q = none ∧ q.hold = false) ∧
    (∃ e : KEnv, ∃ x : KRun, ∃ q : Req, q.cls = 3 ∧ q.port ≠ 1 ∧ validity e x.k q = none ∧ heldOf x.k q = none ∧ (∀ p,
      ptRec e.st q.target = some p → p.legs.length ≤ q.opt)) ∧
    (∃ e : KEnv, ∃ x : KRun, ∃ p : Nat, ∃ m : Move, (pst x.k p).mv = some m ∧ m.commanded = true ∧ imgReached x.k.image.num m.deadline = true ∧
      detOf e.st (bimg x.k) p ≠ some m.pos) ∧
    (∃ e : KEnv, ∃ x : KRun, ∃ p : Nat, ∃ r : PointRec, ptRec e.st p = some r ∧ (pst x.k p).lost = true ∧ 0 < (pst x.k p).detRun ∧ (∀ b ∈ r.det,
      e.images ((filterRec e.st b.fclass).recMs * 1000000) ≤ (pst x.k p).detRun)) :=
  ⟨⟨up, by decide⟩,
   ⟨up, by decide⟩,
   ⟨env0, krun, reqP, pt10, by decide⟩,
   ⟨env0, krun, (fun s => { s with port := (1 + 1) }) ((fun s => { s with cls := 3 }) (req0)), by decide⟩,
   ⟨env0, ⟨{ kern with points := [(10, { PointSt.init with mv := some move0 })] }, [], [], []⟩, 10, move0, by decide⟩,
   ⟨env0, ⟨{ kern with points := [(10, { PointSt.init with lost := true, detRun := 1 })] }, [], [], []⟩, 10, pt10, by decide⟩⟩

/-- `CrossingsAndFaults`. -/
theorem witness_CrossingsAndFaults :
    (∃ s : State, imageVoted s = false) ∧
    (∃ e : KEnv, ∃ x : KRun, ∃ n : Nat, ∃ c : CrossingRec, xingRec e.st n = some c ∧ (xst x.k n).cs = .closing) ∧
    (∃ e : KEnv, ∃ x : KRun, ∃ n : Nat, ∃ c : CrossingRec, xingRec e.st n = some c ∧ (xst x.k n).cs = .opening ∧ (xst x.k n).slow = false ∧
      imgReached x.k.image.num (imgAdd (xst x.k n).since (e.images (c.openS * 1000000000))) = true) ∧
    (∃ e : KEnv, ∃ x : KRun, ∃ n : Nat, ∃ c : CrossingRec, xingRec e.st n = some c ∧ (xst x.k n).cs = .forcedOpen) ∧
    (∃ e : KEnv, ∃ x : KRun, ∃ n : Nat, ∃ r : RouteRec, routeRec e.st n = some r ∧ (bndRec e.st r.exit).isSome = true ∧
      (rst x.k n).state = .reserved ∧ (rst x.k n).confirmed = false ∧ imgReached x.k.image.num (imgAdd (rst x.k n).reservedImg 10) = true) ∧
    (∃ e : KEnv, ∃ x : KRun, ∃ n : Nat, ∃ r : RouteRec, routeRec e.st n = some r ∧ (bndRec e.st r.exit).isSome = true ∧
      (rst x.k n).state = .reserved ∧ (rst x.k n).confirmed = true) ∧
    (∃ e : KEnv, ∃ x : KRun, ∃ n : Nat, ∃ r : Nat, ∃ g : SignalRec, ∃ rr : RouteRec, sigRec e.st n = some g ∧ (gst x.k n).route = some r ∧
      g.proving.length = 4 ∧ routeRec e.st r = some rr ∧ rr.entry = n ∧ (rst x.k r).state = .cleared) :=
  ⟨⟨up, by decide⟩,
   ⟨env0, ⟨{ kern with crossings := [(30, { CrossSt.init with cs := .closing })] }, [], [], []⟩, 30, xing30, by decide⟩,
   ⟨env0, ⟨{ kern with crossings := [(30, { CrossSt.init with cs := .opening, since := 4294965000, slow := false })] }, [], [], []⟩, 30, xing30,
     by decide⟩,
   ⟨env0, ⟨{ kern with crossings := [(30, { CrossSt.init with cs := .forcedOpen })] }, [], [], []⟩, 30, xing30, by decide⟩,
   ⟨env0, kroute { RouteSt.init with state := .reserved, reservedImg := 90 }, 1, route1, by decide⟩,
   ⟨env0, kroute { RouteSt.init with state := .reserved, confirmed := true }, 1, route1, by decide⟩,
   ⟨env0, ⟨{ kern with routes := [(1, { RouteSt.init with state := .cleared })], signals := [(20, { SignalSt.init with route := some 1 })] }, [], [],
     []⟩, 20, 1, sig20, route1, by decide⟩⟩

/-- `SectionalRelease`. -/
theorem witness_SectionalRelease :
    (∃ s : State, imageVoted s = false) ∧
    (∃ e : KEnv, ∃ x : KRun, ∃ n : Nat, ∃ r : RouteRec, ∃ p : PathSec, routeRec e.st n = some r ∧ sectional (rst x.k n) = true ∧
      (rst x.k n).mode = .sequence ∧ nextList e.st r (rst x.k n) = some p ∧ (rst x.k n).wasOcc.contains p.pos = true ∧
      (rst x.k n).seqOk.contains p.pos = true ∧ 0 < (tabGet x.k.sections p.sec SecSt.init).clearRun ∧
      (e.images (((secRec e.st p.sec).map (fun y => (filterRec e.st y.occ.fclass).recMs)).getD 0 * 1000000) ≤ (tabGet x.k.sections p.sec SecSt.init).clearRun)) ∧
    (∃ e : KEnv, ∃ x : KRun, ∃ n : Nat, ∃ r : RouteRec, ∃ p : PathSec, ∃ v : SEvent, routeRec e.st n = some r ∧ sectional (rst x.k n) = true ∧
      (rst x.k n).mode = .detection ∧ nextList e.st r (rst x.k n) = some p ∧
      (x.k.events.find? (fun v => !v.app && v.owner = n && v.kind = .clearFor) = some v) ∧ v.target = p.sec ∧
      v.amount ≤ (tabGet x.k.sections p.sec SecSt.init).clearRun ∧ imgReached (imgAdd x.k.image.num 1) (imgAdd v.image v.amount) = true) ∧
    (∃ x : KRun, ∃ n : Nat, ∃ v : SEvent, (rst x.k n).state = .releasing ∧ (rst x.k n).approachRel = true ∧ (rst x.k n).passed = false ∧
      (rst x.k n).relCode ≠ 0 ∧
      (x.k.events.find? (fun v => v.app = false && v.owner = n && v.kind = .elapsed && imgReached x.k.image.num (imgAdd v.image v.amount)) = some v)) ∧
    (∃ x : KRun, ∃ n : Nat, ∃ v : SEvent,
      (x.k.events.find? (fun v => v.app = true && v.owner = n && v.kind = .elapsed && imgReached x.k.image.num (imgAdd v.image v.amount)) = some v)) ∧
    (∃ x : KRun, ∃ n : Nat, (rst x.k n).state = .releasing ∧ (rst x.k n).approachRel = true ∧ (rst x.k n).passed = false ∧ 3 ≤ (rst x.k n).distRun ∧
      (rst x.k n).relCode ≠ 0) ∧
    (∃ x : KRun, ∃ n : Nat, (rst x.k n).state = .releasing ∧ (rst x.k n).approachRel = true ∧ (rst x.k n).passed = false ∧ (rst x.k n).distRun < 3) ∧
    (∃ x : KRun, ∃ n : Nat, ∃ m : Nat, (rst x.k n).state = .releasing ∧ (rst x.k n).approachRel = true ∧ (rst x.k n).passed = false ∧ m ≠ n) ∧
    (∃ e : KEnv, ∃ x : KRun, ∃ n : Nat, ∃ c : SectionRec, secRec e.st n = some c ∧ c.maxOcc ≠ 0 ∧
      (tabGet x.k.sections n SecSt.init).ghostRep = false) :=
  ⟨⟨up, by decide⟩,
   ⟨env0,
     ⟨{ kern with routes := [(1, { RouteSt.init with state := .occupied, mode := .sequence, wasOcc := [0], seqOk := [0] })], sections := [(2, clearOne)] },
     [], [], []⟩, 1, route1, (routeSecs demo route1).head (by decide), by decide⟩,
   ⟨env0,
     ⟨{ kern with routes := [(1, { RouteSt.init with state := .occupied, mode := .detection })], sections := [(2, { clearOne with clearRun := 10 })], events := [{ sev0 with kind := .clearFor, target := 2 }] },
     [], [], []⟩, 1, route1, (routeSecs demo route1).head (by decide), { sev0 with kind := .clearFor, target := 2 }, by decide⟩,
   ⟨⟨{ kern with routes := [(1, { RouteSt.init with state := .releasing, approachRel := true, relCode := 0x1201 })], events := [sev0] }, [], [], []⟩,
     1, sev0, by decide⟩,
   ⟨⟨{ kern with routes := [(1, { RouteSt.init with state := .releasing })], events := [{ sev0 with app := true }] }, [], [], []⟩, 1,
     { sev0 with app := true }, by decide⟩,
   ⟨(fun s => onK (fun k => { k with routes := tabMod k.routes 0 RouteSt.init (fun y => { y with relCode := (0 + 1) }) }) s) ((fun s => onK (fun k => { k with routes := tabMod k.routes 0 RouteSt.init (fun y => { y with distRun := 3 }) }) s) ((fun s => onK (fun k => { k with routes := tabMod k.routes 0 RouteSt.init (fun y => { y with passed := false }) }) s) ((fun s => onK (fun k => { k with routes := tabMod k.routes 0 RouteSt.init (fun y => { y with approachRel := true }) }) s) ((fun s => onK (fun k => { k with routes := tabMod k.routes 0 RouteSt.init (fun y => { y with state := .releasing }) }) s) (krun))))),
     0, by decide⟩,
   ⟨(fun s => onK (fun k => { k with routes := tabMod k.routes 0 RouteSt.init (fun y => { y with passed := false }) }) s) ((fun s => onK (fun k => { k with routes := tabMod k.routes 0 RouteSt.init (fun y => { y with approachRel := true }) }) s) ((fun s => onK (fun k => { k with routes := tabMod k.routes 0 RouteSt.init (fun y => { y with state := .releasing }) }) s) (krun))),
     0, by decide⟩,
   ⟨⟨{ kern with routes := [(1, { RouteSt.init with state := .releasing, approachRel := true })], events := [] }, [], [], []⟩, 1, 2, by decide⟩,
   ⟨env0, krun, 1, sec1, by decide⟩⟩

/-- `KeyAndEmergencyReleases`. -/
theorem witness_KeyAndEmergencyReleases :
    (∃ s : State, imageVoted s = false) ∧
    (∃ e : KEnv, ∃ x : KRun, ∃ n : Nat, ∃ y : KeyRec, keyRec e.st n = some y ∧ (tabGet x.k.keys n KeySt.init).timing = true ∧
      (tabGet x.k.keys n KeySt.init).remain = 0) ∧
    (∃ x : KRun, ∃ n : Nat, (tabGet x.k.keys n KeySt.init).timing = false) ∧
    (∃ s : State, ∃ n : Nat, s.allows n .maintainer false ∧ s.pair.role ≠ .standby ∧ imagesRun s = true ∧ imageVoted s = false) ∧
    (∃ s : State, ∃ n : Nat, (sessOf s n).opened = false) ∧
    (∃ s : State, ∃ n : Nat, (sessOf s n).opened = true ∧ levelRank (sessOf s n).level < levelRank .maintainer) :=
  ⟨⟨up, by decide⟩,
   ⟨env0, ⟨{ kern with keys := [(40, { KeySt.init with timing := true })] }, [], [], []⟩, 40, key40, by decide⟩,
   ⟨(fun s => onK (fun k => { k with keys := tabMod k.keys 0 KeySt.init (fun y => { y with timing := false }) }) s) (krun), 0, by decide⟩,
   ⟨up, 0, by decide⟩,
   ⟨(fun s => modSess 0 (fun y => { y with opened := false }) s) (up), 0, by decide⟩,
   ⟨(fun s => { s with dict := { s.dict with sessions := [(0, { sessUp with level := .operator })] } }) (up), 0, by decide⟩⟩

/-- `CarriersAndStuckInputs`. -/
theorem witness_CarriersAndStuckInputs :
    (∃ s : State, imageVoted s = false) ∧
    (∃ e : KEnv, ∃ x : KRun, ∃ id : Nat, ∃ n : Nat, ∃ c : Carrier, ∃ r : Report, ∃ l : Located, entryNo x.k id = some n ∧
      tabFind x.k.carriers n = some c ∧ reportOf e.st (bimg x.k) id = some r ∧ locate e.st (bimg x.k) r = some l ∧ c.ts = .candidate ∧
      e.set.confirmC ≤ c.confirm ∧ reportValid e.st (some c.cls) r = true ∧ c.slot = none) ∧
    (∃ e : KEnv, ∃ x : KRun, ∃ id : Nat, ∃ n : Nat, ∃ c : Carrier, entryNo x.k id = some n ∧ tabFind x.k.carriers n = some c ∧
      e.set.confirmC > c.confirm) ∧
    (∃ e : KEnv, ∃ x : KRun, ∃ id : Nat, ∃ n : Nat, ∃ c : Carrier, ∃ y, ∃ reason, ∃ m, entryNo x.k id = some n ∧ tabFind x.k.carriers n = some c ∧
      c.ts = .tracked ∧ (y = vanishCarrier e id x ∧ (classRec e.st c.cls).maxAge ≤ c.miss ∧ reason = 1 ∨ y = contradictCarrier e id x ∧ 3 ≤ c.contra ∧
      reason = 4) ∧ m ≠ n) ∧
    (∃ e : KEnv, ∃ x : KRun, ∃ id : Nat, ∃ n : Nat, ∃ c : Carrier, entryNo x.k id = some n ∧ tabFind x.k.carriers n = some c ∧
      c.miss < (classRec e.st c.cls).maxAge) ∧
    (∃ x : KRun, ∃ id : Nat, ∃ n : Nat, ∃ c : Carrier, entryNo x.k id = some n ∧ tabFind x.k.carriers n = some c ∧ c.contra < 3) ∧
    (∃ e : KEnv, ∃ x : KRun, ∃ id : Nat, ∃ n : Nat, ∃ c : Carrier, entryNo x.k id = some n ∧ tabFind x.k.carriers n = some c ∧
      c.clearRun < e.set.clearE) ∧
    (∃ e : KEnv, ∃ x : KRun, ∃ id : Nat, ∃ n : Nat, ∃ c : Carrier, entryNo x.k id = some n ∧ tabFind x.k.carriers n = some c ∧ c.ts = .lost ∧
      e.set.clearE ≤ c.clearRun) ∧
    (∃ e : KEnv, ∃ x : KRun, ∃ key : Nat, ∃ c : Nat, stuckClass e.st key = some c ∧ stuckLimit e c ≠ 0 ∧ stuckLimit e c ≤ tabGet x.k.stuck key 0 ∧
      x.k.stuckNow.contains key = true) ∧
    (∃ e : KEnv, ∃ x : KRun, ∃ key : Nat, ∃ c : Nat, stuckClass e.st key = some c ∧ stuckLimit e c ≠ 0 ∧ stuckLimit e c ≤ tabGet x.k.stuck key 0 ∧
      x.k.stuckNow.contains key = false) ∧
    (∃ e : KEnv, ∃ x : KRun, ∃ key : Nat, ∃ c : Nat, stuckClass e.st key = some c ∧ tabGet x.k.stuck key 0 < stuckLimit e c) :=
  ⟨⟨up, by decide⟩,
   ⟨env0,
     ⟨{ kern with image := { kern.image with bus := { clearInputs with reports := [rep0] } }, carriers := [(0, { car0 with ts := .candidate, confirm := 2 })] },
     [], [], []⟩, 0x2C41, 0, { car0 with ts := .candidate, confirm := 2 }, rep0, loc0, by decide⟩,
   ⟨env0, kcar { car0 with confirm := 1 }, 0x2C41, 0, { car0 with confirm := 1 }, by decide⟩,
   ⟨env0, kcar { car0 with miss := 5 }, 0x2C41, 0, { car0 with miss := 5 }, vanishCarrier env0 0x2C41 (kcar { car0 with miss := 5 }), 1, 1,
     by decide⟩,
   ⟨env0, kcar { car0 with miss := 4 }, 0x2C41, 0, { car0 with miss := 4 }, by decide⟩,
   ⟨kcar { car0 with contra := 2 }, 0x2C41, 0, { car0 with contra := 2 }, by decide⟩,
   ⟨env0, kcar { car0 with clearRun := 2 }, 0x2C41, 0, { car0 with clearRun := 2 }, by decide⟩,
   ⟨env0, kcar { car0 with ts := .lost, clearRun := 3 }, 0x2C41, 0, { car0 with ts := .lost, clearRun := 3 }, by decide⟩,
   ⟨env0, ⟨{ kern with stuck := [(0, 6000)], stuckNow := [0] }, [], [], []⟩, 0, 0, by decide⟩,
   ⟨env0, (fun s => onK (fun k => { k with stuck := tabPut k.stuck 0 ((stuckLimit env0 0)) }) s) (krun), 0, 0, by decide⟩,
   ⟨env0, krun, 0, 0, by decide⟩⟩

/-- `ProgramCommands`. -/
theorem witness_ProgramCommands :
    (∃ s : State, ∃ n : Nat, s.allows n .maintainer false ∧ imagesRun s = true ∧ imageVoted s = false ∧ s.pair.role ≠ .standby) ∧
    (∃ s : State, ∃ n : Nat, s.allows n .maintainer false ∧ imagesRun s = true ∧ imageVoted s = false ∧ s.pair.role = .standby) ∧
    (∃ s : State, imageVoted s = false) ∧
    (∃ s : State, 1 < modeOf s) ∧
    (∃ s : State, modeOf s ≤ 1 ∧ (rejoinUnderWay s = true ∨ s.vote.pendLane.isSome = true ∨ loadChecking s = true ∨ s.upd.upd = true)) ∧
    (∃ s : State, modeOf s ≤ 1 ∧ rejoinUnderWay s = false ∧ s.vote.pendLane = none ∧ loadChecking s = false ∧ s.upd.upd = false ∧
      validProgram s = none) ∧
    (∃ s : State, ∃ p : Program, modeOf s ≤ 1 ∧ rejoinUnderWay s = false ∧ s.vote.pendLane = none ∧ loadChecking s = false ∧ s.upd.upd = false ∧
      validProgram s = some p ∧ (∀ b ∈ p.bounds, b + 400 ≤ allotment s) ∧ 400 ≤ allotment s) ∧
    (∃ s : State, ∃ p : Program, ∃ b : Nat, modeOf s ≤ 1 ∧ rejoinUnderWay s = false ∧ s.vote.pendLane = none ∧ loadChecking s = false ∧
      s.upd.upd = false ∧ validProgram s = some p ∧ b ∈ p.bounds ∧ allotment s < b + 400) ∧
    (∃ x : KRun, x.k.prog.ps = .armed) ∧
    (∃ x : KRun, ∃ aux : Nat, x.k.prog.ps ≠ .armed ∧ aux ≠ 0) ∧
    (∃ x : KRun, ∃ aux : Nat, x.k.prog.ps ≠ .armed ∧ aux = 0) ∧
    (∃ x : KRun, ∃ p : Program, ∃ n : Nat, x.k.prog.prog = some p ∧ x.k.prog.ps = .running ∧ n ∈ p.scope.points) ∧
    (∃ x : KRun, (x.k.prog.ps = .stopped ∨ x.k.prog.ps = .faulted) ∧ unfit x.k.prog = true) ∧
    (∃ x : KRun, (x.k.prog.ps = .stopped ∨ x.k.prog.ps = .faulted) ∧ unfit x.k.prog = false) ∧
    (∃ e : KEnv, ∃ x : KRun, ∃ p : Program, x.k.prog.prog = some p ∧ x.k.prog.ps = .running ∧ e.faultStop ≤ x.k.prog.faultRun) ∧
    (∃ e : KEnv, ∃ x : KRun, ∃ p : Program, x.k.prog.prog = some p ∧ x.k.prog.ps = .running ∧ x.k.prog.faultRun < e.faultStop) ∧
    (∃ x : KRun, ∃ p : Program, ∃ b : VlBlock, x.k.prog.prog = some p ∧ (x.k.prog.blocks.find? (fun c => c.ref = b.ref) = some b) ∧
      x.k.prog.ps = .running ∧ b.running = true ∧ b.preset ≤ b.elapsed ∧ x.k.prog.faultRun = 0 ∧ (b.kind = .ton ∨ b.kind = .tof ∨ b.kind = .tp)) ∧
    (∃ x : KRun, ∃ p : Program, ∃ b : VlBlock, x.k.prog.prog = some p ∧ (x.k.prog.blocks.find? (fun c => c.ref = b.ref) = some b) ∧
      x.k.prog.ps = .running ∧ (b.running = false ∨ b.elapsed < b.preset)) :=
  ⟨⟨up, 0, by decide⟩,
   ⟨(fun s => { s with pair := { s.pair with role := .standby } }) (up), 0, by decide⟩,
   ⟨up, by decide⟩,
   ⟨(fun s => { s with upd := { s.upd with updating := true } }) (up), by decide⟩,
   ⟨(fun s => { s with upd := { s.upd with upd := true } }) (up), by decide⟩,
   ⟨(fun s => { s with upd := { s.upd with upd := false } }) ((fun s => { s with vote := { s.vote with pendLane := none } }) (up)), by decide⟩,
   ⟨(fun s => { s with bus := { s.bus with lCyc := 20 } }) ((fun s => { s with progLoad := { s.progLoad with slots := { s.progLoad.slots with a := { s.progLoad.slots.a with parsed := some prog0 } } } }) ((fun s => { s with progLoad := { s.progLoad with slots := { s.progLoad.slots with a := { s.progLoad.slots.a with st := .valid } } } }) (up))),
     prog0, by decide⟩,
   ⟨(fun s => { s with bus := { s.bus with lCyc := 20 } }) ((fun s => { s with progLoad := { s.progLoad with slots := { s.progLoad.slots with a := { s.progLoad.slots.a with parsed := some { prog0 with bounds := [100000] } } } } }) ((fun s => { s with progLoad := { s.progLoad with slots := { s.progLoad.slots with a := { s.progLoad.slots.a with st := .valid } } } }) (up))),
     { prog0 with bounds := [100000] }, 100000, by decide⟩,
   ⟨(fun s => { s with k := { s.k with prog := { s.k.prog with ps := .armed } } }) (krun), by decide⟩,
   ⟨⟨{ kern with prog := { kern.prog with ps := .running } }, [], [], []⟩, 1, by decide⟩,
   ⟨krun, 0, by decide⟩,
   ⟨⟨{ kern with prog := { kern.prog with ps := .running, prog := some prog0 } }, [], [], []⟩, prog0, 10, by decide⟩,
   ⟨⟨{ kern with prog := { kern.prog with ps := .stopped, lastFault := 0x5205 } }, [], [], []⟩, by decide⟩,
   ⟨(fun s => { s with k := { s.k with prog := { s.k.prog with ps := .stopped } } }) (krun), by decide⟩,
   ⟨env0,
     (fun s => { s with k := { s.k with prog := { s.k.prog with faultRun := env0.faultStop } } }) ((fun s => { s with k := { s.k with prog := { s.k.prog with ps := .running } } }) ((fun s => { s with k := { s.k with prog := { s.k.prog with prog := (some prog0) } } }) (krun))),
     prog0, by decide⟩,
   ⟨{ env0 with faultStop := 1 }, ⟨{ kern with prog := { kern.prog with ps := .running, prog := some prog0 } }, [], [], []⟩, prog0, by decide⟩,
   ⟨⟨{ kern with prog := { kern.prog with ps := .running, prog := some prog0, blocks := [⟨1, .ton, true, false, true, 5, 5, false⟩] } }, [], [], []⟩,
     prog0, ⟨1, .ton, true, false, true, 5, 5, false⟩, by decide⟩,
   ⟨⟨{ kern with prog := { kern.prog with ps := .running, prog := some prog0, blocks := [⟨1, .ton, true, false, true, 4, 5, false⟩] } }, [], [], []⟩,
     prog0, ⟨1, .ton, true, false, true, 4, 5, false⟩, by decide⟩⟩

/-- `VariablesAndForces`. -/
theorem witness_VariablesAndForces :
    (∃ s : State, ∃ p : Program, ∃ h : Half, validProgram s = some p ∧ validProgSlot s = some h ∧ (leadKernel s).prog.ps = .armed ∧
      imgReached (imgAdd s.imageNo 1) (leadKernel s).prog.switchImg = true ∧ 2 ≤ (lanesInVote s).length) ∧
    (∃ s : State, (validProgram s = none ∨ (leadKernel s).prog.ps ≠ .armed ∨ (lanesInVote s).length < 2)) ∧
    (∃ old : Program, ∃ x : KRun, x.k.prog.prog = some old) ∧
    (∃ old : Program, ∃ new : Program, ∃ vs : List VarSt, ∃ v : VarSt, ∃ w : VarSt, ∃ i : InstRec, ∃ j : InstRec, instOf old v.ref.inst = some i ∧
      instOf new v.ref.inst = some j ∧ i.type = j.type ∧ varOf vs v.ref = some w ∧ (i.ver = j.ver ∨ w.type = v.type)) ∧
    (∃ old : Program, ∃ new : Program, ∃ vs : List VarSt, ∃ v : VarSt, ∃ w : VarSt, ∃ i : InstRec, ∃ j : InstRec, instOf old v.ref.inst = some i ∧
      instOf new v.ref.inst = some j ∧ i.type = j.type ∧ varOf vs v.ref = some w ∧ i.ver ≠ j.ver ∧ w.type ≠ v.type) ∧
    (∃ s : State, ∃ n : Nat, s.allows n .operator false ∧ s.pair.role ≠ .standby ∧ imagesRun s = true ∧ imageVoted s = false) ∧
    (∃ r : VarRef, ∃ val : List Byte, ∃ x : KRun, ∃ v : VarSt, varOf x.k.prog.vars r = some v ∧ v.hostw = true ∧ val.length = v.value.length) ∧
    (∃ s : State, ∃ n : Nat, s.allows n .maintainer false ∧ s.pair.role ≠ .standby ∧ imagesRun s = true ∧ imageVoted s = false) ∧
    (∃ r : VarRef, ∃ x : KRun, (∀ g ∈ x.k.prog.forces, g.ref ≠ r)) ∧
    (∃ r : VarRef, ∃ x : KRun, ∃ g : Force, g ∈ x.k.prog.forces ∧ g.ref = r) :=
  ⟨⟨(fun s => { s with lanes := { s.lanes with a := { s.lanes.a with kernel := { s.lanes.a.kernel with prog := { s.lanes.a.kernel.prog with switchImg := 101 } } } } }) ((fun s => { s with lanes := { s.lanes with a := { s.lanes.a with kernel := { s.lanes.a.kernel with prog := { s.lanes.a.kernel.prog with ps := .armed } } } } }) ((fun s => { s with progLoad := { s.progLoad with slots := { s.progLoad.slots with a := { s.progLoad.slots.a with parsed := some prog0 } } } }) ((fun s => { s with progLoad := { s.progLoad with slots := { s.progLoad.slots with a := { s.progLoad.slots.a with st := .valid } } } }) (up)))),
    prog0, .a, by decide⟩,
   ⟨up, by decide⟩,
   ⟨prog0, (fun s => { s with k := { s.k with prog := { s.k.prog with prog := (some prog0) } } }) (krun), by decide⟩,
   ⟨prog0, prog0, [var0], var0, var0, ⟨1, 1, 1, false, 0⟩, ⟨1, 1, 1, false, 0⟩, by decide⟩,
   ⟨prog0, { prog0 with insts := [⟨1, 1, 2, false, 0⟩] }, [var0], { var0 with type := 2 }, var0, ⟨1, 1, 1, false, 0⟩, ⟨1, 1, 2, false, 0⟩, by decide⟩,
   ⟨up, 0, by decide⟩,
   ⟨⟨1, 1⟩, [9#8], ⟨{ kern with prog := { kern.prog with vars := [var0] } }, [], [], []⟩, var0, by decide⟩,
   ⟨up, 0, by decide⟩,
   ⟨⟨1, 1⟩, krun, by decide⟩,
   ⟨⟨1, 1⟩, ⟨{ kern with prog := { kern.prog with forces := [⟨⟨1, 1⟩, [1#8], 0⟩] } }, [], [], []⟩, ⟨⟨1, 1⟩, [1#8], 0⟩, by decide⟩⟩

/-- `DataAndProgramLoads`. -/
theorem witness_DataAndProgramLoads :
    (∃ s : State, ∃ n : Nat, s.allows n .maintainer false ∧ imagesRun s = true ∧ loadBusy s = false ∧ slotIn s .pending = none ∧ s.upd.upd = false) ∧
    (∃ s : State, ∃ n : Nat, s.allows n .maintainer false ∧ imagesRun s = true ∧
      (loadBusy s = true ∨ (slotIn s .pending).isSome = true ∨ s.upd.upd = true)) ∧
    (∃ s : State, ∃ n : Nat, s.allows n .maintainer false ∧ imagesRun s = true ∧
      ((progSlotIn s .receiving).isSome = true ∨ (progSlotIn s .checking).isSome = true ∨ s.upd.upd = true)) ∧
    (∃ s : State, ∃ n : Nat, s.allows n .maintainer false ∧ imagesRun s = true ∧ progSlotIn s .receiving = none ∧ progSlotIn s .checking = none ∧
      s.upd.upd = false ∧ s.view.prog.ps ≠ .armed) ∧
    (∃ s : State, ∃ n : Nat, ∃ h : Half, ∃ d : List Byte, s.allows n .maintainer false ∧ imagesRun s = true ∧ 1 ≤ d.length ∧ d.length ≤ 1024 ∧
      slotIn s .receiving = some h ∧ s.load.session = n ∧ s.load.offset + d.length ≤ 0x1000000) ∧
    (∃ s : State, ∃ n : Nat, ∃ h : Half, ∃ d : List Byte, s.allows n .maintainer false ∧ imagesRun s = true ∧ 1 ≤ d.length ∧ d.length ≤ 1024 ∧
      slotIn s .receiving = some h ∧ s.load.session = n ∧ 0x1000000 < s.load.offset + d.length) ∧
    (∃ s : State, ∃ n : Nat, ∃ h : Half, ∃ d : List Byte, s.allows n .maintainer false ∧ imagesRun s = true ∧ 1 ≤ d.length ∧ d.length ≤ 1024 ∧
      slotIn s .receiving = some h ∧ s.load.session ≠ n) ∧
    (∃ s : State, ∃ n : Nat, ∃ h : Half, ∃ d : List Byte, s.allows n .maintainer false ∧ imagesRun s = true ∧ 1 ≤ d.length ∧ d.length ≤ 1024 ∧
      progSlotIn s .receiving = some h ∧ s.progLoad.session = n ∧ s.progLoad.offset + d.length ≤ 0x1000000) ∧
    (∃ s : State, ∃ n : Nat, ∃ h : Half, ∃ d : List Byte, s.allows n .maintainer false ∧ imagesRun s = true ∧ 1 ≤ d.length ∧ d.length ≤ 1024 ∧
      progSlotIn s .receiving = some h ∧ s.progLoad.session ≠ n) ∧
    (∃ s : State, ∃ n : Nat, ∃ d : List Byte, s.allows n .maintainer false ∧ imagesRun s = true ∧ (d = [] ∨ 1024 < d.length)) ∧
    (∃ s : State, ∃ n : Nat, ∃ h : Half, s.allows n .maintainer false ∧ imagesRun s = true ∧ slotIn s .receiving = some h) ∧
    (∃ s : State, ∃ n : Nat, ∃ h : Half, s.allows n .maintainer false ∧ imagesRun s = true ∧ progSlotIn s .receiving = some h) ∧
    (∃ s : State, ∃ n : Nat, ∃ h : Half, s.allows n .maintainer false ∧ imagesRun s = true ∧ slotIn s .valid = some h ∧ slotIn s .checking = none) ∧
    (∃ s : State, ∃ n : Nat, s.allows n .maintainer false ∧ imagesRun s = true ∧ slotIn s .valid = none) ∧
    (∃ s : State, ∃ n : Nat, ∃ h : Half, s.allows n .maintainer false ∧ imagesRun s = true ∧ slotIn s .pending = some h) ∧
    (∃ s : State, ∃ n : Nat, ∃ d : List Byte, ∃ c : Instr, s.allows n .maintainer false ∧ imagesRun s = false ∧ c ∈ [Instr.loadOpen n,
      .loadWindow n d, .loadEnd n, .loadAbandon n, .activateData n, .withdrawActivation n, .programLoadOpen n, .programLoadWindow n d,
      .programLoadEnd n, .programLoadAbandon n]) :=
  ⟨⟨(fun s => { s with upd := { s.upd with upd := false } }) (up), 0, by decide⟩,
   ⟨(fun s => { s with load := { s.load with slots := { s.load.slots with b := { s.load.slots.b with st := .receiving } } } }) (up), 0, by decide⟩,
   ⟨(fun s => { s with progLoad := { s.progLoad with slots := { s.progLoad.slots with b := { s.progLoad.slots.b with st := .receiving } } } }) (up),
     0, by decide⟩,
   ⟨(fun s => { s with upd := { s.upd with upd := false } }) (up), 0, by decide⟩,
   ⟨(fun s => { s with load := { s.load with offset := 16776192 } }) ((fun s => { s with load := { s.load with session := 0 } }) ((fun s => { s with load := { s.load with slots := { s.load.slots with b := { s.load.slots.b with st := .receiving } } } }) (up))),
     0, .b, List.replicate 1024 0#8, by decide⟩,
   ⟨(fun s => { s with load := { s.load with offset := 16776193 } }) ((fun s => { s with load := { s.load with session := 0 } }) ((fun s => { s with load := { s.load with slots := { s.load.slots with b := { s.load.slots.b with st := .receiving } } } }) (up))),
     0, .b, List.replicate 1024 0#8, by decide⟩,
   ⟨(fun s => { s with load := { s.load with session := 1 } }) ((fun s => { s with load := { s.load with slots := { s.load.slots with b := { s.load.slots.b with st := .receiving } } } }) (up)),
     0, .b, [1#8], by decide⟩,
   ⟨(fun s => { s with progLoad := { s.progLoad with offset := 16776192 } }) ((fun s => { s with progLoad := { s.progLoad with session := 0 } }) ((fun s => { s with progLoad := { s.progLoad with slots := { s.progLoad.slots with b := { s.progLoad.slots.b with st := .receiving } } } }) (up))),
     0, .b, List.replicate 1024 0#8, by decide⟩,
   ⟨(fun s => { s with progLoad := { s.progLoad with session := 1 } }) ((fun s => { s with progLoad := { s.progLoad with slots := { s.progLoad.slots with b := { s.progLoad.slots.b with st := .receiving } } } }) (up)),
     0, .b, [1#8], by decide⟩,
   ⟨up, 0, [], by decide⟩,
   ⟨(fun s => { s with load := { s.load with slots := { s.load.slots with b := { s.load.slots.b with st := .receiving } } } }) (up), 0, .b,
     by decide⟩,
   ⟨(fun s => { s with progLoad := { s.progLoad with slots := { s.progLoad.slots with b := { s.progLoad.slots.b with st := .receiving } } } }) (up),
     0, .b, by decide⟩,
   ⟨(fun s => { s with load := { s.load with slots := { s.load.slots with b := { s.load.slots.b with st := .valid } } } }) (up), 0, .b, by decide⟩,
   ⟨up, 0, by decide⟩,
   ⟨(fun s => { s with load := { s.load with slots := { s.load.slots with b := { s.load.slots.b with st := .pending } } } }) (up), 0, .b, by decide⟩,
   ⟨(fun s => { s with power := { s.power with step := 4 } }) (up), 0, [], .loadOpen 0, by decide⟩⟩

/-- `VerdictsAndKeys`. -/
theorem witness_VerdictsAndKeys :
    (∀ m size, (stationVerdict (checkingData m size) m size).code = 0 → slotIn (checkingData m size) .checking = some .b ∧
      lanesInVote (checkingData m size) = [.a, .b, .c] ∧ ∃ x, twoGet (checkingData m size).load.slots .b = x ∧
      (stationVerdict (checkingData m size) x.bytes x.size).code = 0) ∧
    (∃ s : State, ∃ h : Half, ∃ x : DataSlot, slotIn s .checking = some h ∧ twoGet s.load.slots h = x ∧ lanesInVote s ≠ [] ∧
      (lanesInVote s).length ≤ 3 ∧ (stationVerdict s x.bytes x.size).code ≠ 0) ∧
    (∀ m size, (progVerdict (checkingProg m size) m size).code = 0 → progSlotIn (checkingProg m size) .checking = some .b ∧
      lanesInVote (checkingProg m size) = [.a, .b, .c] ∧ ∃ x, twoGet (checkingProg m size).progLoad.slots .b = x ∧
      (progVerdict (checkingProg m size) x.bytes x.size).code = 0) ∧
    (∃ s : State, ∃ h : Half, ∃ x : ProgSlot, progSlotIn s .checking = some h ∧ twoGet s.progLoad.slots h = x ∧ lanesInVote s ≠ [] ∧
      (lanesInVote s).length ≤ 3 ∧ (progVerdict s x.bytes x.size).code ≠ 0) ∧
    (∃ s : State, ∃ h : Half, ∃ u : LoadVerdict, ∃ v : LoadVerdict, ∃ w : LoadVerdict, slotIn s .checking = some h ∧ (lanesInVote s).length = 3 ∧
      u ≠ v ∧ u ≠ w ∧ v ≠ w) ∧
    (∃ s : State, slotIn s .checking = none) ∧
    (∃ s : State, progSlotIn s .checking = none) ∧
    (∃ a : LoadVerdict, ∃ b : LoadVerdict, a ≠ b) ∧
    (fingerprint [1#8] ≠ 0 → (keyed ([]) ([fingerprint [1#8]])).allows 0 .commissioner true ∧ imagesRun (keyed ([]) ([fingerprint [1#8]])) = true ∧
      keyIn (keyed ([]) ([fingerprint [1#8]])).load (3 - 1) (fingerprint [1#8]) = true) ∧
    (fingerprint [1#8] ≠ 0 → (keyed ([0]) ([0])).allows 0 .commissioner true ∧ imagesRun (keyed ([0]) ([0])) = true ∧
      keyIn (keyed ([0]) ([0])).load (3 - 1) (fingerprint [1#8]) = false ∧ keyIn (keyed ([0]) ([0])).load 1 (fingerprint [1#8]) = false ∧
      (keyed ([0]) ([0])).load.compose.findIdx? (fun x => x = 0) = some 0) ∧
    (fingerprint [1#8] ≠ 0 → (keyed ([fingerprint [1#8] + 1]) ([0])).allows 0 .commissioner true ∧
      imagesRun (keyed ([fingerprint [1#8] + 1]) ([0])) = true ∧
      keyIn (keyed ([fingerprint [1#8] + 1]) ([0])).load (3 - 1) (fingerprint [1#8]) = false ∧
      keyIn (keyed ([fingerprint [1#8] + 1]) ([0])).load 1 (fingerprint [1#8]) = false ∧
      (keyed ([fingerprint [1#8] + 1]) ([0])).load.compose.findIdx? (fun x => x = 0) = none) ∧
    (∃ s : State, ∃ n : Nat, ∃ d : List Byte, s.allows n .commissioner true ∧ imagesRun s = true ∧ d.length = 8 ∧
      (keyIn s.load 1 (ofBe d) = true ∨ keyIn s.load 2 (ofBe d) = true)) ∧
    (∃ s : State, ∃ n : Nat, ∃ key : List Byte, ∃ c : Instr, (sessOf s n).opened = true ∧ (sessOf s n).level ≠ .commissioner ∧
      c ∈ [Instr.registerComposeKey n key, .registerVerifyKey n key, .removeKey n key]) :=
  ⟨(fun _ _ h => ⟨rfl, rfl, _, rfl, h⟩),
   ⟨checkingData [] 0, .b, { DataSlot.init with st := .checking }, by refine ⟨by decide, rfl, by decide, by decide, by decide⟩⟩,
   (fun _ _ h => ⟨rfl, rfl, _, rfl, h⟩),
   ⟨checkingProg [] 0, .b, { ProgSlot.init with st := .checking }, by refine ⟨by decide, rfl, by decide, by decide, by decide⟩⟩,
   ⟨checkingData [] 0, .b, ⟨1, 0, []⟩, ⟨2, 0, []⟩, ⟨3, 0, []⟩, by decide⟩,
   ⟨up, by decide⟩,
   ⟨up, by decide⟩,
   ⟨⟨1, 0, []⟩, ⟨2, 0, []⟩, by decide⟩,
   (fun h => ⟨⟨rfl, by decide, fun _ => rfl⟩, rfl, by simp [keyIn, keyed, h]⟩),
   (fun h => ⟨⟨rfl, by decide, fun _ => rfl⟩, rfl, by simp [keyIn, keyed, h], by simp [keyIn, keyed, h], rfl⟩),
   (fun h => ⟨⟨rfl, by decide, fun _ => rfl⟩, rfl, by simp [keyIn, keyed, h], by simp [keyIn, keyed, h], by simp [keyed]⟩),
   ⟨keyed [5] [], 0, be 8 5, by decide⟩,
   ⟨{ up with dict := { up.dict with sessions := [(0, { sessUp with level := .maintainer })] } }, 0, [1#8], .removeKey 0 [1#8],
     by refine ⟨by decide, by decide, by simp⟩⟩⟩

/-- `InputPairs`. -/
theorem witness_InputPairs :
    (∃ s : State, ∃ h : Half, ∃ n : Nat, ∃ code : FCode, (twoGet s.halves h).inServ = true ∧ 1 ≤ n ∧ n ≤ 17 ∧
      (code = .pulseA ∨ code = .pulseB ∨ code = .foreign)) ∧
    (∃ s : State, ∃ h : Half, ∃ tp : Nat, ∃ cause : Nat, (twoGet s.halves h).inServ = true ∧ 1 ≤ tp ∧ tp ≤ 4 ∧ 1 ≤ cause ∧ cause ≤ 3) ∧
    (∃ s : State, ∃ h : Half, ∃ n : Nat, ∃ r : PairRec, ∃ t0 : Nat, (twoGet s.halves h).inServ = true ∧ pairRec s.cfg n = some r ∧
      (pairOf s h n).discFrom = some t0 ∧ (pairOf s h n).fcode = .none ∧ t0 + r.discMs * 1000000 < s.ns) ∧
    (∃ s : State, ∃ h : Half, ∃ n : Nat, ∃ r : PairRec, ∃ t0 : Nat, (twoGet s.halves h).inServ = true ∧ pairRec s.cfg n = some r ∧
      (pairOf s h n).discFrom = some t0 ∧ (pairOf s h n).fcode = .none ∧ s.ns ≤ t0 + r.discMs * 1000000) ∧
    (∃ s : State, ∃ h : Half, ∃ n : Nat, ∃ r : PairRec, (twoGet s.halves h).inServ = true ∧ pairRec s.cfg n = some r ∧ (pairOf s h n).chat = false ∧
      (pairFilter s.cfg r).limit < changesNow s (pairFilter s.cfg r) (pairOf s h n)) ∧
    (∃ s : State, ∃ h : Half, ∃ n : Nat, ∃ r : PairRec, (twoGet s.halves h).inServ = true ∧ pairRec s.cfg n = some r ∧ (pairOf s h n).chat = false ∧
      changesNow s (pairFilter s.cfg r) (pairOf s h n) ≤ (pairFilter s.cfg r).limit) ∧
    (∃ s : State, ∃ n : Nat, s.allows n .maintainer false) ∧
    (∃ s : State, ∃ n : Nat, s.allows n .maintainer false) ∧
    (∃ s : State, s.lio.resetLevel = true ∧ s.lio.rstuck = false ∧ s.lio.resetSince + 10000000000 < s.ns) ∧
    (∃ s : State, s.lio.resetLevel = true ∧ s.lio.rstuck = false ∧ s.ns ≤ s.lio.resetSince + 10000000000) ∧
    (∃ s : State, s.lio.resetLevel = false ∧ s.lio.resetSince + 1000000000 ≤ s.ns) ∧
    (∃ s : State, s.lio.resetLevel = false ∧ s.ns < s.lio.resetSince + 1000000000) :=
  ⟨⟨up, .a, 17, .pulseA, by decide⟩,
   ⟨up, .a, 4, 3, by decide⟩,
   ⟨(fun s => { s with lio := { s.lio with pairs := { s.lio.pairs with a := [(1, { PairSt.init with discFrom := some 9499999999 })] } } }) (up), .a,
     1, demo.pairs[0], 9499999999, by decide⟩,
   ⟨(fun s => { s with lio := { s.lio with pairs := { s.lio.pairs with a := [(1, { PairSt.init with discFrom := some 9500000000 })] } } }) (up), .a,
     1, demo.pairs[0], 9500000000, by decide⟩,
   ⟨(fun s => { s with lio := { s.lio with pairs := { s.lio.pairs with a := [(1, { PairSt.init with changes := [9999999996, 9999999997, 9999999998, 9999999999] })] } } }) (up),
     .a, 1, demo.pairs[0], by decide⟩,
   ⟨(fun s => { s with lio := { s.lio with pairs := { s.lio.pairs with a := [(1, { PairSt.init with changes := [9999999997, 9999999998, 9999999999] })] } } }) (up),
     .a, 1, demo.pairs[0], by decide⟩,
   ⟨up, 0, by decide⟩,
   ⟨up, 0, by decide⟩,
   ⟨(fun s => { s with ns := (s.lio.resetSince + 10000000000 + 1) }) ((fun s => { s with lio := { s.lio with rstuck := false } }) ((fun s => { s with lio := { s.lio with resetLevel := true } }) (up))),
     by decide⟩,
   ⟨(fun s => { s with lio := { s.lio with rstuck := false } }) ((fun s => { s with lio := { s.lio with resetLevel := true } }) (up)), by decide⟩,
   ⟨(fun s => { s with ns := (s.lio.resetSince + 1000000000) }) ((fun s => { s with lio := { s.lio with resetLevel := false } }) (up)), by decide⟩,
   ⟨(fun s => { s with lio := { s.lio with resetSince := 9000000001 } }) (up), by decide⟩⟩

/-- `VitalOutputFaults`. -/
theorem witness_VitalOutputFaults :
    (∃ s : State, ∃ n : Nat, ∃ c : Instr, ∃ code : OCode, 1 ≤ n ∧ n ≤ 16 ∧ (c = .overcurrent n ∧ (voOf s n).on = true ∧
      code = .overcurrent ∨ c = .stuckOn n ∧ (voOf s n).on = false ∧ code = .stuckOn ∨ (∃ mu ou ml ol, c = .switchTest n mu ou ml ol ∧
      (voOf s n).on = false ∧ (voOf s n).lastTest + 2000000000 ≤ s.ns ∧ ((ou || ml || ol) = true ∧ code = .stuckOn ∨ mu = false ∧
      (ou || ml || ol) = false ∧ code = .stuckOff)) ∨ (c = .darkTest n false ∧ (voOf s n).on = true ∧ (∀ o, outRec s.cfg n = some o → o.dark = true) ∧
      (voOf s n).lastDark + 60000000000 ≤ s.ns ∧ code = .darkTest))) ∧
    (∃ s : State, ∃ n : Nat, 1 ≤ n ∧ n ≤ 16 ∧ (voOf s n).on = false ∧ (voOf s n).lastTest + 2000000000 ≤ s.ns) ∧
    (∃ s : State, ∃ n : Nat, 1 ≤ n ∧ n ≤ 16 ∧ (voOf s n).on = true ∧ (∀ o, outRec s.cfg n = some o → o.dark = true) ∧
      (voOf s n).lastDark + 60000000000 ≤ s.ns) ∧
    (∃ s : State, ∃ n : Nat, ∃ o : LocalOutRec, 1 ≤ n ∧ n ≤ 16 ∧ outRec s.cfg n = some o ∧ o.dark = false) ∧
    (∃ s : State, ∃ n : Nat, s.allows n .maintainer false) ∧
    (∃ s : State, ∃ n : Nat, ∃ m : Nat, m ∈ groupOf s.cfg n ∧ (voOf s m).ocode ≠ .none) ∧
    (∃ s : State, ∃ n : Nat, ∃ m : Nat, ∃ k : Nat, ∃ o : LocalOutRec, ∃ pos : Nat, outRec s.cfg n = some o ∧ o.kind = .drive pos ∧
      m ∈ groupOf s.cfg n ∧ k ∈ groupOf s.cfg n ∧ m ≠ k ∧ localCmd s m = true ∧ localCmd s k = true) ∧
    (∃ s : State, ∃ n : Nat, (s.lio.locals = none ∨ commands s = false ∨ localPermit s n = false)) :=
  ⟨⟨(fun s => { s with lio := { s.lio with vos := [(16, { VoSt.init with on := true })] } }) (up), 16, .overcurrent 16, .overcurrent,
    by refine ⟨by decide, by decide, .inl (by decide)⟩⟩,
   ⟨(fun s => { s with lio := { s.lio with vos := [(16, { VoSt.init with lastTest := 8000000000 })] } }) (up), 16, by decide⟩,
   ⟨{ up with ns := 70000000000, lio := { up.lio with vos := [(16, { VoSt.init with on := true, lastDark := 10000000000 })] } }, 16,
     by refine ⟨by decide, by decide, by decide, fun o h => ?_, by decide⟩; exact absurd h (by rw [show outRec _ 16 = none by decide]; simp)⟩,
   ⟨up, 3, demo.localOuts[2], by decide⟩,
   ⟨up, 0, by decide⟩,
   ⟨(fun s => { s with lio := { s.lio with vos := [(2, { VoSt.init with ocode := .stuckOn })] } }) (up), 1, 2, by decide⟩,
   ⟨(fun s => { s with lio := { s.lio with locals := some ⟨[true, true], 0⟩ } }) (up), 1, 1, 2, demo.localOuts[0], 0, by decide⟩,
   ⟨(fun s => { s with lio := { s.lio with locals := none } }) (up), 0, by decide⟩⟩

/-- `TimeCorrections`. -/
theorem witness_TimeCorrections :
    (∃ s : State, ∃ n : Nat, ∃ o : Int, s.allows n .maintainer false ∧ o.natAbs ≤ s.time.jump * 65536) ∧
    (∃ s : State, ∃ n : Nat, ∃ o : Int, s.allows n .maintainer false ∧ s.time.jump * 65536 < o.natAbs) ∧
    (∃ s : State, ∃ n : Nat, ∃ r : Int, s.allows n .maintainer false ∧ r.natAbs ≤ 10000 * 65536 ∧ (rateNow s + r).natAbs ≤ 200000 * 65536) ∧
    (∃ s : State, ∃ n : Nat, ∃ r : Int, s.allows n .maintainer false ∧ (10000 * 65536 < r.natAbs ∨ 200000 * 65536 < (rateNow s + r).natAbs)) ∧
    (∃ s : State, ∃ n : Nat, ∃ ns : Int, s.allows n .maintainer false ∧ ns ≠ 0) ∧
    (∃ s : State, s.time.leapAnn ≠ 0 ∧ ((((s.time.leapDay : Int) + 1) * 86400 - (if s.time.leapAnn < 0 then 1 else 0)) * 1000000000 ≤ utcNs s)) ∧
    (∃ s : State, s.time.leapAnn ≠ 0 ∧ (utcNs s < (((s.time.leapDay : Int) + 1) * 86400 - (if s.time.leapAnn < 0 then 1 else 0)) * 1000000000)) ∧
    (∃ s : State, s.time.src = 2 ∧ s.time.servo ≠ .freeRun) ∧
    (∃ s : State, s.time.src ≠ 2) ∧
    (∃ s : State, ∃ f : TimedFrame, ∃ l : List TimedFrame, s.time.timed = f :: l ∧ f.launch + 1000 * 65536 < moduleTime s) ∧
    (∃ s : State, ∃ f : TimedFrame, ∃ l : List TimedFrame, s.time.timed = f :: l ∧ moduleTime s ≤ f.launch + 1000 * 65536) ∧
    (∃ s : State, ∃ h : Half, chanUp s h = true) ∧
    (∃ s : State, ∃ h : Half, chanUp s h = false) :=
  ⟨⟨up, 0, 0, by decide⟩,
   ⟨up, 0, up.time.jump * 65536 + 1, by decide⟩,
   ⟨up, 0, 0, by decide⟩,
   ⟨up, 0, 655360001, by decide⟩,
   ⟨up, 0, -1, by decide⟩,
   ⟨(fun s => { s with time := { s.time with halves := { s.time.halves with b := { s.time.halves.b with o := 86436 * 1000000000 * 65536 } } } }) ((fun s => { s with time := { s.time with halves := { s.time.halves with a := { s.time.halves.a with o := 86436 * 1000000000 * 65536 } } } }) ((fun s => { s with time := { s.time with leapDay := 0 } }) ((fun s => { s with time := { s.time with leapAnn := -1 } }) (up)))),
     by decide⟩,
   ⟨(fun s => { s with time := { s.time with leapAnn := (0 + 1) } }) (up), by decide⟩,
   ⟨(fun s => { s with time := { s.time with servo := .locked } }) ((fun s => { s with time := { s.time with src := 2 } }) (up)), by decide⟩,
   ⟨(fun s => { s with time := { s.time with src := (2 + 1) } }) (up), by decide⟩,
   ⟨(fun s => { s with time := { s.time with timed := [⟨-65536001, 0⟩] } }) (up), ⟨-65536001, 0⟩, [], by decide⟩,
   ⟨(fun s => { s with time := { s.time with timed := [⟨-65536000, 0⟩] } }) (up), ⟨-65536000, 0⟩, [], by decide⟩,
   ⟨up, .a, by decide⟩,
   ⟨(fun s => { s with bus := { s.bus with chans := { s.bus.chans with a := { s.bus.chans.a with st := .listening } } } }) (up), .a, by decide⟩⟩

/-- `PtpSlave`. -/
theorem witness_PtpSlave :
    (∃ s : State, ∃ domain : Nat, domain ≠ s.time.ptp.domain) ∧
    (∃ s : State, ∃ domain : Nat, domain = s.time.ptp.domain) ∧
    (∃ s : State, ∃ sender : Nat, ∃ m : Master, (s.time.ptp.masters.find? (fun x => x.sender = sender) = some m) ∧
      m.heard + s.time.ptp.timeout * m.interval ≤ s.ns) ∧
    (∃ s : State, ∃ sender : Nat, ∃ m : Master, (s.time.ptp.masters.find? (fun x => x.sender = sender) = some m) ∧
      s.ns < m.heard + s.time.ptp.timeout * m.interval) ∧
    (∃ s : State, ∃ c : Master, ∃ m : PtpMsg, currentMaster s = some c ∧ m.domain = s.time.ptp.domain ∧ m.sender = c.sender ∧ c.timescale = true ∧
      -7 ≤ m.logInt ∧ m.logInt ≤ 1 ∧ m.twoStep = false ∧ ptpUsed s = true) ∧
    (∃ s : State, ∃ c : Master, ∃ m : PtpMsg, currentMaster s = some c ∧ m.domain = s.time.ptp.domain ∧ m.sender = c.sender ∧ c.timescale = true ∧
      -7 ≤ m.logInt ∧ m.logInt ≤ 1 ∧ m.twoStep = true) ∧
    (∃ s : State, ∃ c : Master, ∃ m : PtpMsg, currentMaster s = some c ∧ m.domain = s.time.ptp.domain ∧ m.sender = c.sender ∧
      (c.timescale = false ∨ m.logInt < -7 ∨ 1 < m.logInt)) ∧
    (∃ s : State, ∃ c : Master, ∃ m : PtpMsg, currentMaster s = some c ∧ (m.domain ≠ s.time.ptp.domain ∨ m.sender ≠ c.sender)) ∧
    (∃ s : State, ∃ c : Master, ∃ m : PtpMsg, ∃ rx : Int, currentMaster s = some c ∧ s.time.ptp.awaiting = some (m.seq, rx) ∧
      m.domain = s.time.ptp.domain ∧ m.sender = c.sender ∧ ptpUsed s = true) ∧
    (∃ s : State, ∃ c : Master, currentMaster s = some c ∧ s.time.ptp.awaiting = none) ∧
    (∃ s : State, ∃ c : Master, ∃ launch : Int, currentMaster s = some c ∧ (s.time.ptp.lastReq = 0 ∨ s.time.ptp.lastReq + c.delayInt ≤ s.ns) ∧
      launch ≤ moduleTime s + 1000000000 * 65536 ∧ s.time.timed.length < 8) ∧
    (∃ s : State, ∃ c : Master, currentMaster s = some c ∧ s.time.ptp.lastReq ≠ 0 ∧ s.ns < s.time.ptp.lastReq + c.delayInt) ∧
    (∃ s : State, ∃ c : Master, currentMaster s = some c ∧ 8 ≤ s.time.timed.length) ∧
    (∃ s : State, ∃ c : Master, ∃ seq : Nat, ∃ launch : Int, ∃ o : Int, ∃ rx : Int, ∃ q : Nat, currentMaster s = some c ∧
      s.time.ptp.delayReq = some (seq, launch) ∧ s.time.ptp.lastSync = some (o, rx) ∧ q ≠ seq) :=
  ⟨⟨up, 255, by decide⟩,
   ⟨up, up.time.ptp.domain, by decide⟩,
   ⟨slaved, 3, master0, by decide⟩,
   ⟨(fun s => { s with time := { s.time with ptp := { s.time.ptp with masters := [{ master0 with heard := 9900000000 }] } } }) (up), 3,
     { master0 with heard := 9900000000 }, by decide⟩,
   ⟨slaved, master0, { ptp0 with domain := up.time.ptp.domain }, by decide⟩,
   ⟨slaved, master0, { ptp0 with domain := up.time.ptp.domain, twoStep := true, logInt := -7 }, by decide⟩,
   ⟨slaved, master0, { ptp0 with domain := up.time.ptp.domain, logInt := 2 }, by decide⟩,
   ⟨slaved, master0, { ptp0 with domain := up.time.ptp.domain, sender := 4 }, by decide⟩,
   ⟨(fun s => { s with time := { s.time with ptp := { s.time.ptp with awaiting := some (1, 5) } } }) (slaved), master0,
     { ptp0 with domain := up.time.ptp.domain }, 5, by decide⟩,
   ⟨slaved, master0, by decide⟩,
   ⟨slaved, master0, 0, by decide⟩,
   ⟨(fun s => { s with time := { s.time with ptp := { s.time.ptp with lastReq := 9000000001 } } }) (slaved), master0, by decide⟩,
   ⟨(fun s => { s with time := { s.time with timed := List.replicate 8 ⟨0, 0⟩ } }) (slaved), master0, by decide⟩,
   ⟨(fun s => { s with time := { s.time with ptp := { s.time.ptp with lastSync := some (0, 0) } } }) ((fun s => { s with time := { s.time with ptp := { s.time.ptp with delayReq := some (1, 0) } } }) (slaved)),
     master0, 1, 0, 0, 0, 2, by decide⟩⟩

/-- `CascadeEnvelopes`. -/
theorem witness_CascadeEnvelopes :
    (∃ s : State, ∃ f : CascFrame, ∃ c, c ∈ [Instr.cascadeEnvelope f, .anchorMsg f, .reserveMsg f, .reserveReply f, .clearAhead f,
      .benchmarkEnvelope f] ∧ dueOf s f 1 = .discard) ∧
    (∃ s : State, ∃ f : CascFrame, ∃ c, c ∈ [Instr.cascadeEnvelope f, .anchorMsg f, .reserveMsg f, .reserveReply f, .clearAhead f,
      .benchmarkEnvelope f] ∧ dueOf s f 1 = .forward ∧ 2 ≤ f.hops ∧ ((if otherSide f.side = 1 then s.casc.bl1 else s.casc.bl2) = true)) ∧
    (∃ s : State, ∃ f : CascFrame, ∃ c, c ∈ [Instr.cascadeEnvelope f, .anchorMsg f, .reserveMsg f, .reserveReply f, .clearAhead f,
      .benchmarkEnvelope f] ∧ dueOf s f 1 = .forward ∧ (f.hops ≤ 1 ∨ (if otherSide f.side = 1 then s.casc.bl1 else s.casc.bl2) = false)) ∧
    (∃ s : State, ∃ f : CascFrame, ∃ c, c ∈ [Instr.cascadeEnvelope f, .anchorMsg f, .reserveMsg f, .reserveReply f, .clearAhead f,
      .benchmarkEnvelope f] ∧ dueOf s f 1 = .mine ∧ readEnvelope f.body = none) ∧
    (∃ s : State, ∃ f : CascFrame, ∃ e : Envelope, dueOf s f 1 = .mine ∧ readEnvelope f.body = some e ∧ e.kind ≠ 0x95) ∧
    (∃ s : State, ∃ f : CascFrame, ∃ e : Envelope, dueOf s f 1 = .mine ∧ readEnvelope f.body = some e ∧ e.kind ≠ 0x92) ∧
    (∃ s : State, ∃ f : CascFrame, ∃ e : Envelope, dueOf s f 1 = .mine ∧ readEnvelope f.body = some e ∧ e.kind ≠ 0x93) ∧
    (∃ s : State, ∃ f : CascFrame, ∃ e : Envelope, dueOf s f 1 = .mine ∧ readEnvelope f.body = some e ∧ e.kind ≠ 0x94) ∧
    (∃ s : State, ∃ f : CascFrame, ∃ e : Envelope, dueOf s f 1 = .mine ∧ readEnvelope f.body = some e ∧ e.kind ≠ 0x91) ∧
    (∃ s : State, ∃ e : Envelope, connMatch s e = none) ∧
    (∃ s : State, ∃ u : State, ∃ p : Nat, ∃ e : Envelope, ∃ k : Nat × Nat × Nat, ∃ k', takeEnvelope p e s = (u, some k) ∧ k' ≠ k) ∧
    (∃ s : State, ∃ u : State, ∃ f : CascFrame, ∃ e : Envelope, ∃ k : Nat × Nat × Nat, dueOf s f 1 = .mine ∧ readEnvelope f.body = some e ∧
      takeEnvelope f.path e s = (u, some k) ∧ e.kind = 0x95) ∧
    (∃ s : State, ∃ u : State, ∃ f : CascFrame, ∃ e : Envelope, ∃ k : Nat × Nat × Nat, dueOf s f 1 = .mine ∧ readEnvelope f.body = some e ∧
      takeEnvelope f.path e s = (u, some k) ∧ e.kind = 0x92) ∧
    (∃ s : State, ∃ u : State, ∃ f : CascFrame, ∃ e : Envelope, ∃ k : Nat × Nat × Nat, dueOf s f 1 = .mine ∧ readEnvelope f.body = some e ∧
      takeEnvelope f.path e s = (u, some k) ∧ e.kind = 0x93 ∧ field e.payload 6 2 = s.pair.epoch) ∧
    (∃ s : State, ∃ u : State, ∃ f : CascFrame, ∃ e : Envelope, ∃ k : Nat × Nat × Nat, dueOf s f 1 = .mine ∧ readEnvelope f.body = some e ∧
      takeEnvelope f.path e s = (u, some k) ∧ e.kind = 0x93 ∧ field e.payload 6 2 ≠ s.pair.epoch) ∧
    (∃ s : State, ∃ u : State, ∃ f : CascFrame, ∃ e : Envelope, ∃ k : Nat × Nat × Nat, dueOf s f 1 = .mine ∧ readEnvelope f.body = some e ∧
      takeEnvelope f.path e s = (u, some k) ∧ e.kind = 0x94 ∧ k.2.1 ≠ s.pair.partnerAddr) ∧
    (∃ s : State, ∃ u : State, ∃ f : CascFrame, ∃ e : Envelope, ∃ k : Nat × Nat × Nat, dueOf s f 1 = .mine ∧ readEnvelope f.body = some e ∧
      takeEnvelope f.path e s = (u, some k) ∧ e.kind = 0x94 ∧ k.2.1 = s.pair.partnerAddr) ∧
    (∃ s : State, ∃ u : State, ∃ f : CascFrame, ∃ e : Envelope, ∃ k : Nat × Nat × Nat, ∃ d, dueOf s f 1 = .mine ∧ readEnvelope f.body = some e ∧
      takeEnvelope f.path e s = (u, some k) ∧ e.kind = 0x91 ∧ k.2.1 = s.pair.partnerAddr ∧ ownBenchmark s (field e.payload 0 4) = some d ∧
      s.pair.role = .standby ∧ s.pair.resync = false) :=
  ⟨⟨up, { cascFrame 1 [] with fcsOk := false }, Instr.cascadeEnvelope ({ cascFrame 1 [] with fcsOk := false }), by decide⟩,
   ⟨(fun s => { s with casc := { s.casc with bl2 := true } }) (up), { cascFrame 1 [] with path := 3, dst := 0x16, hops := 2, side := 1 },
     Instr.cascadeEnvelope ({ cascFrame 1 [] with path := 3, dst := 0x16, hops := 2, side := 1 }), by decide⟩,
   ⟨up, { cascFrame 1 [] with path := 3, dst := 0x16, hops := 1, side := 1 },
     Instr.cascadeEnvelope ({ cascFrame 1 [] with path := 3, dst := 0x16, hops := 1, side := 1 }), by decide⟩,
   ⟨up, (cascFrame 1 []), Instr.cascadeEnvelope (cascFrame 1 []), by decide⟩,
   ⟨up, envFrame { env1 with kind := 148 }, { env1 with kind := 148 }, by decide⟩,
   ⟨up, envFrame { env1 with kind := 148 }, { env1 with kind := 148 }, by decide⟩,
   ⟨up, envFrame { env1 with kind := 148 }, { env1 with kind := 148 }, by decide⟩,
   ⟨up, envFrame { env1 with kind := 145 }, { env1 with kind := 145 }, by decide⟩,
   ⟨up, envFrame { env1 with kind := 148 }, { env1 with kind := 148 }, by decide⟩,
   ⟨up, env1, by decide⟩,
   ⟨up, (takeEnvelope 1 (laneEnv 2 0x94 1 anchorData) (up)).1, 1, laneEnv 2 0x94 1 anchorData, (6, 0x15, 2), (6, 0x15, 1),
     by and_intros <;> first | decide | rfl | (intro k; cases k <;> decide) | (intro m l h; cases h) | (intro p h; cases h)⟩,
   ⟨up, (takeEnvelope 1 (clearEnv) (up)).1, clearFrame, clearEnv, (7, 0x15, 0),
     by and_intros <;> first | decide | rfl | (intro k; cases k <;> decide) | (intro m l h; cases h) | (intro p h; cases h)⟩,
   ⟨linked 2, (takeEnvelope 1 (laneEnv 2 0x92 1 (be 2 51 ++ be 1 1 ++ be 1 0 ++ be 2 7 ++ be 6 0)) (linked 2)).1,
     envFrame (laneEnv 2 0x92 1 (be 2 51 ++ be 1 1 ++ be 1 0 ++ be 2 7 ++ be 6 0)),
     laneEnv 2 0x92 1 (be 2 51 ++ be 1 1 ++ be 1 0 ++ be 2 7 ++ be 6 0), (6, 0x15, 2),
     by and_intros <;> first | decide | rfl | (intro k; cases k <;> decide) | (intro m l h; cases h) | (intro p h; cases h)⟩,
   ⟨linked 2, (takeEnvelope 1 (laneEnv 2 0x93 1 (be 2 51 ++ be 1 1 ++ be 1 0 ++ be 2 7 ++ be 2 0 ++ be 4 0)) (linked 2)).1,
     envFrame (laneEnv 2 0x93 1 (be 2 51 ++ be 1 1 ++ be 1 0 ++ be 2 7 ++ be 2 0 ++ be 4 0)),
     laneEnv 2 0x93 1 (be 2 51 ++ be 1 1 ++ be 1 0 ++ be 2 7 ++ be 2 0 ++ be 4 0), (6, 0x15, 2),
     by and_intros <;> first | decide | rfl | (intro k; cases k <;> decide) | (intro m l h; cases h) | (intro p h; cases h)⟩,
   ⟨linked 2, (takeEnvelope 1 (laneEnv 2 0x93 1 (be 2 51 ++ be 1 1 ++ be 1 0 ++ be 2 7 ++ be 2 1 ++ be 4 0)) (linked 2)).1,
     envFrame (laneEnv 2 0x93 1 (be 2 51 ++ be 1 1 ++ be 1 0 ++ be 2 7 ++ be 2 1 ++ be 4 0)),
     laneEnv 2 0x93 1 (be 2 51 ++ be 1 1 ++ be 1 0 ++ be 2 7 ++ be 2 1 ++ be 4 0), (6, 0x15, 2),
     by and_intros <;> first | decide | rfl | (intro k; cases k <;> decide) | (intro m l h; cases h) | (intro p h; cases h)⟩,
   ⟨up, (takeEnvelope 1 (laneEnv 2 0x94 1 anchorData) (up)).1, envFrame (laneEnv 2 0x94 1 anchorData), laneEnv 2 0x94 1 anchorData, (6, 0x15, 2),
     by and_intros <;> first | decide | rfl | (intro k; cases k <;> decide) | (intro m l h; cases h) | (intro p h; cases h)⟩,
   ⟨paired, (takeEnvelope 1 (laneEnv 2 0x94 1 anchorData) (paired)).1, envFrame (laneEnv 2 0x94 1 anchorData), laneEnv 2 0x94 1 anchorData, (6, 0x15,
     2),
     by and_intros <;> first | decide | rfl | (intro k; cases k <;> decide) | (intro m l h; cases h) | (intro p h; cases h)⟩,
   ⟨{ linked 1 with pair := { up.pair with partnerAddr := 0x15, role := .standby }, halves := ⟨{ halfUp with bench := ⟨some (100, [7#8]), none, none⟩ }, halfUp⟩ },
     (takeEnvelope 1 (laneEnv 1 0x91 1 (be 4 100 ++ be 32 0)) ({ linked 1 with pair := { up.pair with partnerAddr := 0x15, role := .standby }, halves := ⟨{ halfUp with bench := ⟨some (100, [7#8]), none, none⟩ }, halfUp⟩ })).1,
     envFrame (laneEnv 1 0x91 1 (be 4 100 ++ be 32 0)), laneEnv 1 0x91 1 (be 4 100 ++ be 32 0), (6, 0x15, 1), [7#8],
     by and_intros <;> first | decide | rfl | (intro k; cases k <;> decide) | (intro m l h; cases h) | (intro p h; cases h)⟩⟩

/-- `CascadePathsAndAnchors`. -/
theorem witness_CascadePathsAndAnchors :
    (∃ s : State, ∃ n : Nat, 1 ≤ n ∧ n ≤ 3 ∧ (pathSt s n).fault = false ∧ (pathSt s n).lastAt + 1000000000 ≤ s.ns ∧ (∃ m, 1 ≤ m ∧ m ≤ 3 ∧ m ≠ n ∧
      ∃ x ∈ (pathSt s m).copies, s.ns < x + 1000000000)) ∧
    (∃ s : State, ∃ n : Nat, 1 ≤ n ∧ n ≤ 3 ∧ (pathSt s n).fault = false ∧ s.ns < (pathSt s n).lastAt + 1000000000) ∧
    (∃ side : Nat, ∃ pos : Nat, ∃ addrs : List Nat, 1 ≤ side ∧ side ≤ 2 ∧ addrs.length ≤ 8 ∧ pos < addrs.length) ∧
    (∃ s : State, (s.casc.bl1 || s.casc.bl2) = true) ∧
    (∃ s : State, (s.casc.bl1 || s.casc.bl2) = false) ∧
    (∃ s : State, ∃ peer : Nat, ∃ num : Nat, ∃ b : CascBlock × Nat, cascNow s = some b ∧ (producedConns s).contains (peer, num) = true) ∧
    (∃ s : State, ∃ peer : Nat, ∃ num : Nat, ∃ b : CascBlock × Nat, cascNow s = some b ∧ (producedConns s).contains (peer, num) = false) ∧
    (∃ s : State, ∃ kind : Nat, ∃ peer : Nat, ∃ num : Nat, ∃ c : ConnSt, findConn s kind peer num = some c ∧ c.refAt + 1024 ≤ s.bus.counter) ∧
    (∃ s : State, ∃ kind : Nat, ∃ peer : Nat, ∃ num : Nat, ∃ c : ConnSt, findConn s kind peer num = some c ∧ s.bus.counter < c.refAt + 1024) :=
  ⟨⟨(fun s => { s with casc := { s.casc with paths := { s.casc.paths with b := { s.casc.paths.b with copies := [9500000000] } } } }) (up), 1,
    by refine ⟨by decide, by decide, by decide, by decide, 2, by decide, by decide, by decide, 9500000000, by decide, by decide⟩⟩,
   ⟨(fun s => { s with casc := { s.casc with paths := { s.casc.paths with a := { s.casc.paths.a with lastAt := 9000000001 } } } }) (up), 1,
     by decide⟩,
   ⟨1, 1, [0x14, 0x15], by decide⟩,
   ⟨(fun s => { s with casc := { s.casc with bl1 := true } }) (up), by decide⟩,
   ⟨up, by decide⟩,
   ⟨(fun s => { s with halves := { s.halves with a := { s.halves.a with active := some vimg0 } } }) (up), 0x15, 2, (⟨1, true, 0, []⟩, 1), by decide⟩,
   ⟨(fun s => { s with halves := { s.halves with a := { s.halves.a with active := some vimg0 } } }) (up), 0x15, 0, (⟨1, true, 0, []⟩, 1), by decide⟩,
   ⟨(fun s => { s with casc := { s.casc with conns := [conn0] } }) (up), 6, 0x15, 1, conn0, by decide⟩,
   ⟨(fun s => { s with casc := { s.casc with conns := [{ conn0 with refAt := 1000 }] } }) (up), 6, 0x15, 1, { conn0 with refAt := 1000 }, by decide⟩⟩

/-- `BridgeTransactions`. -/
theorem witness_BridgeTransactions :
    (∃ s : State, ∃ i : Nat, ∃ w : Nat, ∃ o : Nat, ∃ n : Nat, ∃ tgt : Nat, s.bridge.out.find? (sameRead i tgt w o n) = none ∧ rangeOk o n = false) ∧
    (∃ s : State, ∃ i : Nat, ∃ w : Nat, ∃ o : Nat, ∃ n : Nat, ∃ tgt : Nat, s.bridge.out.find? (sameRead i tgt w o n) = none ∧ rangeOk o n = true ∧
      bridgePath s tgt = none) ∧
    (∃ s : State, ∃ i : Nat, ∃ w : Nat, ∃ o : Nat, ∃ n : Nat, ∃ tgt : Nat, ∃ p, s.bridge.out.find? (sameRead i tgt w o n) = none ∧
      rangeOk o n = true ∧ bridgePath s tgt = some p ∧ s.bridge.out.length < 256) ∧
    (∃ s : State, ∃ i : Nat, ∃ w : Nat, ∃ o : Nat, ∃ n : Nat, ∃ tgt : Nat, ∃ x, ∃ v, s.bridge.out.find? (sameRead i tgt w o n) = some x ∧
      x.arrived = some v) ∧
    (∃ s : State, ∃ i : Nat, ∃ w : Nat, ∃ o : Nat, ∃ n : Nat, ∃ tgt : Nat, ∃ x, ∃ c, s.bridge.out.find? (sameRead i tgt w o n) = some x ∧
      x.arrived = none ∧ x.error = some c) ∧
    (∃ s : State, ∃ i : Nat, ∃ w : Nat, ∃ o : Nat, ∃ n : Nat, ∃ tgt : Nat, ∃ x, s.bridge.out.find? (sameRead i tgt w o n) = some x ∧
      x.arrived = none ∧ x.error = none) ∧
    (∃ s : State, ∃ o : Nat, ∃ tgt : Nat, ∃ d : List Byte, ∃ p, s.bridge.out.length < 256 ∧ rangeOk o d.length = true ∧ bridgePath s tgt = some p) ∧
    (∃ s : State, ∃ o : Nat, ∃ tgt : Nat, ∃ d : List Byte, ∃ c, s.bridge.out.length < 256 ∧ (rangeOk o d.length = false ∧
      c = 0x8003 ∨ rangeOk o d.length = true ∧ bridgePath s tgt = none ∧ c = 0x8005) ∧ s.bridge.failures.length < 64) ∧
    (∃ s : State, ∃ f : CascFrame, ∃ x : Trans, ∃ c : Instr, dueOf s f 2 = .mine ∧ readTrans f.src f.body = some x ∧ (c = .readReq (.frame f) ∧
      x.type = 1 ∨ c = .bridgeWrite (.frame f) ∧ x.type = 3) ∧ 256 ≤ s.bridge.inbound.length) ∧
    (∃ s : State, ∃ f : CascFrame, ∃ x : Trans, ∃ c : Instr, ∃ code, dueOf s f 2 = .mine ∧ readTrans f.src f.body = some x ∧
      (c = .readReq (.frame f) ∧ x.type = 1 ∨ c = .bridgeWrite (.frame f) ∧ x.type = 3) ∧ s.bridge.inbound.length < 256 ∧ (transCheck f.body = false ∧
      code = 0x8006 ∨ transCheck f.body = true ∧ rangeOk x.offset x.length = false ∧ code = 0x8003 ∨ transCheck f.body = true ∧
      rangeOk x.offset x.length = true ∧ s.bridge.access.getD x.window 0 = 0 ∧ code = 0x8001 ∨ transCheck f.body = true ∧
      rangeOk x.offset x.length = true ∧ s.bridge.access.getD x.window 0 = 1 ∧ x.type = 3 ∧ code = 0x8002)) ∧
    (∃ s : State, ∃ f : CascFrame, ∃ x : Trans, ∃ c : Instr, dueOf s f 2 = .mine ∧ readTrans f.src f.body = some x ∧ (c = .readReq (.frame f) ∧
      x.type = 1 ∨ c = .bridgeWrite (.frame f) ∧ x.type = 3) ∧ s.bridge.inbound.length < 256 ∧ transCheck f.body = true ∧
      rangeOk x.offset x.length = true ∧ 2 ≤ s.bridge.access.getD x.window 0) ∧
    (∃ s : State, ∃ f : CascFrame, ∃ x : Trans, ∃ c : Instr, dueOf s f 2 = .mine ∧ readTrans f.src f.body = some x ∧ (c = .readData f ∧
      x.type = 2 ∨ c = .writeDone f ∧ x.type = 4 ∨ c = .bridgeError f ∧ x.type = 5) ∧ transCheck f.body = false) ∧
    (∃ s : State, ∃ f : CascFrame, ∃ x : Trans, ∃ c : Instr, dueOf s f 2 = .mine ∧ readTrans f.src f.body = some x ∧ (c = .readData f ∧
      x.type = 2 ∨ c = .writeDone f ∧ x.type = 4 ∨ c = .bridgeError f ∧ x.type = 5) ∧ transCheck f.body = true ∧ x.epoch ≠ s.pair.epoch) ∧
    (∃ s : State, ∃ f : CascFrame, ∃ x : Trans, ∃ o : OutTrans, dueOf s f 2 = .mine ∧ readTrans f.src f.body = some x ∧ transCheck f.body = true ∧
      x.epoch = s.pair.epoch ∧ x.type = 2 ∧ openTrans s 1 x = some o ∧ x.length = o.t.length) ∧
    (∃ s : State, ∃ f : CascFrame, ∃ x : Trans, ∃ o : OutTrans, dueOf s f 2 = .mine ∧ readTrans f.src f.body = some x ∧ transCheck f.body = true ∧
      x.epoch = s.pair.epoch ∧ x.type = 4 ∧ openTrans s 3 x = some o) ∧
    (∃ s : State, ∃ f : CascFrame, ∃ x : Trans, ∃ o : OutTrans, dueOf s f 2 = .mine ∧ readTrans f.src f.body = some x ∧ transCheck f.body = true ∧
      x.epoch = s.pair.epoch ∧ x.type = 5 ∧ openTrans s 1 x = none ∧ openTrans s 3 x = some o ∧ x.code = 0x8007 ∧ o.resends < 8) ∧
    (∃ s : State, ∃ f : CascFrame, ∃ x : Trans, ∃ o : OutTrans, dueOf s f 2 = .mine ∧ readTrans f.src f.body = some x ∧ transCheck f.body = true ∧
      x.epoch = s.pair.epoch ∧ x.type = 5 ∧ openTrans s 1 x = none ∧ openTrans s 3 x = some o ∧ (x.code ≠ 0x8007 ∨ 8 ≤ o.resends) ∧
      s.bridge.failures.length < 64 ∧ o.t.type = 3) ∧
    (∃ s : State, ∃ tag : Nat, ∃ o : OutTrans, (s.bridge.out.find? (fun x => x.t.tag = tag) = some o) ∧ o.arrived = none ∧ o.error = none ∧
      o.sentNs + 100000000 ≤ s.ns ∧ (o.t.type ≠ 1 ∨ o.polled = false) ∧ s.bridge.failures.length < 64) ∧
    (∃ s : State, ∃ tag : Nat, ∃ o : OutTrans, (s.bridge.out.find? (fun x => x.t.tag = tag) = some o) ∧ s.ns < o.sentNs + 100000000) ∧
    (∃ s : State, ∃ tag : Nat, ∃ o : OutTrans, (s.bridge.out.find? (fun x => x.t.tag = tag) = some o) ∧ o.arrived.isSome = true ∧ o.error = none ∧
      o.arrivedNs + 10000000 ≤ s.ns) ∧
    (∃ s : State, ∃ tag : Nat, ∃ o : OutTrans, (s.bridge.out.find? (fun x => x.t.tag = tag) = some o) ∧ s.ns < o.arrivedNs + 10000000) :=
  ⟨⟨up, 0, 0, 0, 0, 0, by decide⟩,
   ⟨(fun s => { s with casc := { s.casc with paths := { s.casc.paths with b := { s.casc.paths.b with fault := true } } } }) ((fun s => { s with casc := { s.casc with paths := { s.casc.paths with a := { s.casc.paths.a with fault := true } } } }) (up)),
     0, 0, 0, 4, 0x15, by decide⟩,
   ⟨up, 0, 0, 65280, 256, 0x15, 1, by decide⟩,
   ⟨(fun s => { s with bridge := { s.bridge with out := [{ out0 with arrived := some [1#8, 2#8, 3#8, 4#8] }] } }) (up), 0, 1, 0, 4, 0x15,
     { out0 with arrived := some [1#8, 2#8, 3#8, 4#8] }, [1#8, 2#8, 3#8, 4#8], by decide⟩,
   ⟨(fun s => { s with bridge := { s.bridge with out := [{ out0 with error := some 0x8001 }] } }) (up), 0, 1, 0, 4, 0x15,
     { out0 with error := some 0x8001 }, 0x8001, by decide⟩,
   ⟨(fun s => { s with bridge := { s.bridge with out := [{ out0 with polled := true }] } }) (up), 0, 1, 0, 4, 0x15, { out0 with polled := true },
     by decide⟩,
   ⟨up, 65532, 0x15, [1#8, 2#8, 3#8, 4#8], 1, by decide⟩,
   ⟨up, 0, 0, [], 0x8003, by decide⟩,
   ⟨(fun s => { s with bridge := { s.bridge with inbound := List.replicate 256 trans0 } }) (up), bridgeFrame { trans0 with type := 1 },
     { trans0 with type := 1 }, .readReq (.frame (bridgeFrame { trans0 with type := 1 })), by decide⟩,
   ⟨(fun s => { s with bridge := { s.bridge with access := s.bridge.access.set 1 1 } }) (up),
     bridgeFrame { trans0 with type := 3, length := 4, data := [1#8, 2#8, 3#8, 4#8] },
     { trans0 with type := 3, length := 4, data := [1#8, 2#8, 3#8, 4#8] },
     .bridgeWrite (.frame (bridgeFrame { trans0 with type := 3, length := 4, data := [1#8, 2#8, 3#8, 4#8] })), 0x8002, by decide⟩,
   ⟨(fun s => { s with bridge := { s.bridge with access := s.bridge.access.set 1 2 } }) (up),
     bridgeFrame { trans0 with type := 3, length := 4, data := [1#8, 2#8, 3#8, 4#8] },
     { trans0 with type := 3, length := 4, data := [1#8, 2#8, 3#8, 4#8] },
     .bridgeWrite (.frame (bridgeFrame { trans0 with type := 3, length := 4, data := [1#8, 2#8, 3#8, 4#8] })), by decide⟩,
   ⟨up, cascFrame 2 (transBody { trans0 with type := 4 } ++ be 4 0), { trans0 with type := 4 },
     .writeDone (cascFrame 2 (transBody { trans0 with type := 4 } ++ be 4 0)), by decide⟩,
   ⟨up, bridgeFrame { trans0 with type := 4, epoch := 1 }, { trans0 with type := 4, epoch := 1 },
     .writeDone (bridgeFrame { trans0 with type := 4, epoch := 1 }), by decide⟩,
   ⟨(fun s => { s with bridge := { s.bridge with out := [out0] } }) (up), bridgeFrame { trans0 with type := 2, data := [1#8, 2#8, 3#8, 4#8] },
     { trans0 with type := 2, data := [1#8, 2#8, 3#8, 4#8] }, out0, by decide⟩,
   ⟨(fun s => { s with bridge := { s.bridge with out := [{ out0 with t := { trans0 with type := 3 }, resends := 0 }] } }) (up),
     bridgeFrame { trans0 with type := 4 }, { trans0 with type := 4 }, { out0 with t := { trans0 with type := 3 }, resends := 0 }, by decide⟩,
   ⟨(fun s => { s with bridge := { s.bridge with out := [{ out0 with t := { trans0 with type := 3 }, resends := 7 }] } }) (up),
     bridgeFrame { trans0 with type := 5, code := 0x8007 }, { trans0 with type := 5, code := 0x8007 },
     { out0 with t := { trans0 with type := 3 }, resends := 7 }, by decide⟩,
   ⟨(fun s => { s with bridge := { s.bridge with out := [{ out0 with t := { trans0 with type := 3 }, resends := 0 }] } }) (up),
     bridgeFrame { trans0 with type := 5, code := 0x8001 }, { trans0 with type := 5, code := 0x8001 },
     { out0 with t := { trans0 with type := 3 }, resends := 0 }, by decide⟩,
   ⟨(fun s => { s with bridge := { s.bridge with out := [out0] } }) (up), 0, out0, by decide⟩,
   ⟨(fun s => { s with bridge := { s.bridge with out := [{ out0 with sentNs := 9900000001 }] } }) (up), 0, { out0 with sentNs := 9900000001 },
     by decide⟩,
   ⟨(fun s => { s with bridge := { s.bridge with out := [{ out0 with arrived := some [], arrivedNs := 9990000000 }] } }) (up), 0,
     { out0 with arrived := some [], arrivedNs := 9990000000 }, by decide⟩,
   ⟨(fun s => { s with bridge := { s.bridge with out := [{ out0 with arrived := some [], arrivedNs := 9990000001 }] } }) (up), 0,
     { out0 with arrived := some [], arrivedNs := 9990000001 }, by decide⟩⟩

/-- `HeartbeatsAndRoles`. -/
theorem witness_HeartbeatsAndRoles :
    (∃ s : State, ∃ p : Path, ∃ f : Frame, (p = .pairLink ∧ f.fcsOk = false ∨ p = .chanA ∧ heartbeatFrameOk s .a f = false ∨ p = .chanB ∧
      heartbeatFrameOk s .b f = false ∨ p ≠ .pairLink ∧ p ≠ .chanA ∧ p ≠ .chanB)) ∧
    (∃ s : State, ∃ p : Path, ∃ f : Frame, (p = .pairLink ∧ f.fcsOk = true ∨ p = .chanA ∧ heartbeatFrameOk s .a f = true ∨ p = .chanB ∧
      heartbeatFrameOk s .b f = true) ∧ readEnvelope f.body = none) ∧
    (∃ s : State, ∃ p : Path, ∃ f : Frame, ∃ e : Envelope, (p = .pairLink ∧ f.fcsOk = true ∨ p = .chanA ∧
      heartbeatFrameOk s .a f = true ∨ p = .chanB ∧ heartbeatFrameOk s .b f = true) ∧ readEnvelope f.body = some e ∧
      (e.kind ≠ 0x90 ∨ s.pair.partnerAddr = 0xFFFF ∨ laneEnvelopeOk (cascadeId 6 s.pair.partnerAddr s.dict.modAddr 0) [0x90] e = false ∨ payloadOk e = false ∨ e.stamp ≠ s.bus.counter % 2 ^ 32)) ∧
    (∃ s : State, ∃ p : Path, ∃ f : Frame, ∃ e : Envelope, ∃ c : ConnSt, ∃ l : Nat, (p = .pairLink ∧ f.fcsOk = true ∨ p = .chanA ∧
      heartbeatFrameOk s .a f = true ∨ p = .chanB ∧ heartbeatFrameOk s .b f = true) ∧ readEnvelope f.body = some e ∧ e.kind = 0x90 ∧
      s.pair.partnerAddr ≠ 0xFFFF ∧ laneEnvelopeOk (cascadeId 6 s.pair.partnerAddr s.dict.modAddr 0) [0x90] e = true ∧ payloadOk e = true ∧
      e.stamp = s.bus.counter % 2 ^ 32 ∧ findConn s 6 s.pair.partnerAddr 0 = some c ∧ c.lastSeq = some l ∧ newerSeq e.seq l = false ∧ e.seq ≠ l) ∧
    (∃ s : State, ∃ p : Path, ∃ f : Frame, ∃ e : Envelope, ∃ c : ConnSt, ∃ l : Nat, (p = .pairLink ∧ f.fcsOk = true ∨ p = .chanA ∧
      heartbeatFrameOk s .a f = true ∨ p = .chanB ∧ heartbeatFrameOk s .b f = true) ∧ readEnvelope f.body = some e ∧ e.kind = 0x90 ∧
      s.pair.partnerAddr ≠ 0xFFFF ∧ laneEnvelopeOk (cascadeId 6 s.pair.partnerAddr s.dict.modAddr 0) [0x90] e = true ∧ payloadOk e = true ∧
      e.stamp = s.bus.counter % 2 ^ 32 ∧ findConn s 6 s.pair.partnerAddr 0 = some c ∧ c.lastSeq = some l ∧ newerSeq e.seq l = false ∧ e.seq = l) ∧
    (∃ s : State, ∃ p : Path, ∃ f : Frame, ∃ e : Envelope, ∃ q : PartnerSt, (p = .pairLink ∧ f.fcsOk = true ∨ p = .chanA ∧
      heartbeatFrameOk s .a f = true ∨ p = .chanB ∧ heartbeatFrameOk s .b f = true) ∧ readEnvelope f.body = some e ∧ e.kind = 0x90 ∧
      s.pair.partnerAddr ≠ 0xFFFF ∧ laneEnvelopeOk (cascadeId 6 s.pair.partnerAddr s.dict.modAddr 0) [0x90] e = true ∧ payloadOk e = true ∧
      e.stamp = s.bus.counter % 2 ^ 32 ∧ (∀ c, findConn s 6 s.pair.partnerAddr 0 = some c → ∀ l, c.lastSeq = some l → newerSeq e.seq l = true) ∧
      q = readHeartbeat e s.pair.partner) :=
  ⟨⟨up, .pairLink, (fun s => { s with fcsOk := false }) (frame0), by decide⟩,
   ⟨up, .pairLink, (fun s => { s with fcsOk := true }) (frame0), by decide⟩,
   ⟨up, .pairLink, hbFrame env1, env1, by decide⟩,
   ⟨heardTo 7, .pairLink, hbFrame hbEnv, hbEnv, { conn0 with num := 0, lastSeq := some 7 }, 7, by decide⟩,
   ⟨heardTo 6, .pairLink, hbFrame hbEnv, hbEnv, { conn0 with num := 0, lastSeq := some 6 }, 6, by decide⟩,
   ⟨paired, .pairLink, hbFrame hbEnv, hbEnv, readHeartbeat hbEnv paired.pair.partner, by and_intros <;> first | decide | rfl | (intro c h; cases h)⟩⟩

/-- `PartnerLossAndShadows`. -/
theorem witness_PartnerLossAndShadows :
    (∃ s : State, (s.pair.formed = false ∨ s.pair.partner.heard = false ∨ s.pair.lost = false)) ∧
    (∃ s : State, s.pair.formed = true ∧ s.pair.partner.heard = true ∧ s.pair.lost = true ∧ s.pair.role ≠ .standby) ∧
    (∃ s : State, s.pair.formed = true ∧ s.pair.partner.heard = true ∧ s.pair.lost = true ∧ s.pair.role = .standby) ∧
    (∃ s : State, ∃ good : Bool, (s.pair.role ≠ .standby ∨ good = false ∨ s.pair.ownRun = some s.imageNo)) ∧
    (∃ s : State, ∃ good : Bool, s.pair.role = .standby ∧ good = true ∧ s.pair.ownRun ≠ some s.imageNo ∧ s.pair.shadows = []) ∧
    (∃ s : State, ∃ h : Half, ∃ img : CycleImage, ∃ good : Bool, ∃ other : CycleImage, ∃ m : CycleImage, s.pair.role = .standby ∧ good = true ∧
      s.pair.ownRun ≠ some s.imageNo ∧ s.pair.shadows = [(otherHalf h, other)] ∧ imagesRun s = true ∧
      (chooseCopy s.cfg (some (addOwn s.image (if h = .a then img else other))) (some (addOwn s.image (if h = .a then other else img))) = some m)) ∧
    (∃ s : State, (s.pair.role ≠ .standby ∨ s.pair.ownRun = some s.imageNo ∨ imagesRun s = false)) ∧
    (∃ s : State, ∃ c : TickIn, s.pair.role = .standby ∧ s.pair.ownRun ≠ some s.imageNo ∧ imagesRun s = true ∧ s.pair.shadows = [] ∧ (∀ l,
      (triGet s.lanes l).ls = .inVote ∧ (triGet c.ist l).failed = none ∧ triGet c.copies l = (true, true)) ∧ debugHeld s = false ∧
      s.halves.a.inServ = true ∧ s.halves.b.inServ = true) :=
  ⟨⟨(fun s => { s with pair := { s.pair with formed := false } }) (up), by decide⟩,
   ⟨(fun s => { s with pair := { s.pair with lost := true } }) ((fun s => { s with pair := { s.pair with partner := { s.pair.partner with heard := true } } }) ((fun s => { s with pair := { s.pair with formed := true } }) (up))),
     by decide⟩,
   ⟨(fun s => { s with pair := { s.pair with role := .standby } }) ((fun s => { s with pair := { s.pair with lost := true } }) ((fun s => { s with pair := { s.pair with partner := { s.pair.partner with heard := true } } }) ((fun s => { s with pair := { s.pair with formed := true } }) (up)))),
     by decide⟩,
   ⟨up, true, by decide⟩,
   ⟨(fun s => { s with pair := { s.pair with shadows := [] } }) ((fun s => { s with pair := { s.pair with role := .standby } }) (up)), true,
     by decide⟩,
   ⟨(fun s => { s with pair := { s.pair with shadows := [(.b, { CycleImage.init with num := 100, run := true })] } }) ((fun s => { s with pair := { s.pair with role := .standby } }) (up)),
     .a, { CycleImage.init with num := 100, run := true }, true, { CycleImage.init with num := 100, run := true },
     mergeImages demo (addOwn up.image ({ CycleImage.init with num := 100, run := true })) (addOwn up.image ({ CycleImage.init with num := 100, run := true })),
     by and_intros <;> first | decide | rfl⟩,
   ⟨up, by decide⟩,
   ⟨(fun s => { s with pair := { s.pair with role := .standby } }) (up), tick0,
     by and_intros <;> first | decide | rfl | (intro k; cases k <;> decide)⟩⟩

/-- `HandOversAndResync`. -/
theorem witness_HandOversAndResync :
    (∃ s : State, ∃ n : Nat, ∃ c, s.allows n .maintainer false ∧ (s.pair.formed = false ∧ c = 0x9001 ∨ s.pair.formed = true ∧ s.pair.role ≠ .active ∧
      c = 0x9003 ∨ s.pair.formed = true ∧ s.pair.role = .active ∧ modeOf s ≠ 0 ∧ c = 0x9006 ∨ s.pair.formed = true ∧ s.pair.role = .active ∧
      modeOf s = 0 ∧ handoverBusy s = true ∧ c = 0x9005)) ∧
    (∃ s : State, ∃ n : Nat, s.allows n .maintainer false ∧ s.pair.formed = true ∧ s.pair.role = .active ∧ modeOf s = 0 ∧ handoverBusy s = false ∧
      (s.pair.partner.heard = false ∨ s.pair.partner.ready = false)) ∧
    (∃ s : State, ∃ n : Nat, s.allows n .maintainer false ∧ s.pair.formed = true ∧ s.pair.role = .active ∧ modeOf s = 0 ∧ handoverBusy s = false ∧
      s.pair.partner.heard = true ∧ s.pair.partner.ready = true) ∧
    (∃ s : State, ∃ n : Nat, s.allows n .maintainer false ∧ s.pair.formed = true ∧ s.pair.role = .active ∧ modeOf s = 0 ∧ handoverBusy s = false ∧
      routesReleased s = false) ∧
    (∃ s : State, ∃ n : Nat, s.allows n .maintainer false ∧ s.pair.formed = true ∧ s.pair.role = .active ∧ modeOf s = 0 ∧ handoverBusy s = false ∧
      routesReleased s = true ∧ (s.pair.partner.heard = false ∨ s.pair.partner.role ≠ 2 ∨ s.pair.partner.reason ≠ 1 ∧ s.pair.partner.reason ≠ 2)) ∧
    (∃ s : State, ∃ n : Nat, s.allows n .maintainer false ∧ s.pair.formed = true ∧ s.pair.role = .active ∧ modeOf s = 0 ∧ handoverBusy s = false ∧
      routesReleased s = true ∧ s.pair.partner.heard = true ∧ s.pair.partner.role = 2 ∧ (s.pair.partner.reason = 1 ∨ s.pair.partner.reason = 2)) ∧
    (∃ s : State,
      (s.pair.formed = false ∨ s.pair.role ≠ .active ∨ s.pair.preferred = true ∨ s.pair.takeback = false ∨ s.pair.partner.heard = false ∨ s.pair.partner.ready = false ∨ s.pair.partner.readyTime < s.pair.stabilityS ∨ handoverBusy s = true ∨ modeOf s ≠ 0)) ∧
    (∃ s : State, s.pair.formed = true ∧ s.pair.role = .active ∧ s.pair.preferred = false ∧ s.pair.takeback = true ∧ s.pair.partner.heard = true ∧
      s.pair.partner.ready = true ∧ s.pair.stabilityS ≤ s.pair.partner.readyTime ∧ handoverBusy s = false ∧ modeOf s = 0) ∧
    (∃ s : State, s.pair.h = none) ∧
    (∃ s : State, ∃ h, s.pair.h = some h ∧ (h ≠ imgAdd s.imageNo 1 ∨ nextCounter s % s.bus.lCyc ≠ 0)) ∧
    (∃ s : State, s.pair.h = some (imgAdd s.imageNo 1) ∧ nextCounter s % s.bus.lCyc = 0 ∧ s.pair.role = .active) ∧
    (∃ s : State, s.pair.h = some (imgAdd s.imageNo 1) ∧ nextCounter s % s.bus.lCyc = 0 ∧ s.pair.role = .standby) ∧
    (∃ s : State, ∃ n : Nat, ∃ c, s.allows n .maintainer false ∧ (s.pair.formed = false ∧ c = 0x9001 ∨ s.pair.formed = true ∧ s.pair.role ≠ .standby ∧
      c = 0x9003 ∨ s.pair.formed = true ∧ s.pair.role = .standby ∧ (modeOf s ≠ 0 ∨ resyncBarred s = true) ∧ c = 0x9006 ∨ s.pair.formed = true ∧
      s.pair.role = .standby ∧ modeOf s = 0 ∧ resyncBarred s = false ∧ s.pair.resync = true ∧ c = 0x9005)) ∧
    (∃ s : State, ∃ n : Nat, s.allows n .maintainer false ∧ s.pair.formed = true ∧ s.pair.role = .standby ∧ modeOf s = 0 ∧ resyncBarred s = false ∧
      s.pair.resync = false) ∧
    (∃ s : State, (s.pair.role ≠ .standby ∨ s.pair.resync = false ∨ resyncBarred s = true)) ∧
    (∃ s : State, s.pair.role = .standby ∧ s.pair.resync = true ∧ resyncBarred s = false) :=
  ⟨⟨(fun s => { s with pair := { s.pair with role := .active } }) ((fun s => { s with pair := { s.pair with role := .active } }) ((fun s => { s with pair := { s.pair with formed := false } }) (up))),
    0, 0x9001, by decide⟩,
   ⟨(fun s => { s with pair := { s.pair with partner := { s.pair.partner with heard := false } } }) ((fun s => { s with pair := { s.pair with role := .active } }) ((fun s => { s with pair := { s.pair with formed := true } }) (up))),
     0, by decide⟩,
   ⟨(fun s => { s with pair := { s.pair with partner := { s.pair.partner with ready := true } } }) ((fun s => { s with pair := { s.pair with partner := { s.pair.partner with heard := true } } }) ((fun s => { s with pair := { s.pair with role := .active } }) ((fun s => { s with pair := { s.pair with formed := true } }) (up)))),
     0, by decide⟩,
   ⟨(fun s => { s with lanes := { s.lanes with a := { s.lanes.a with kernel := { s.lanes.a.kernel with routes := [(1, { RouteSt.init with state := .cleared })] } } } }) ((fun s => { s with pair := { s.pair with role := .active } }) ((fun s => { s with pair := { s.pair with formed := true } }) (up))),
     0, by decide⟩,
   ⟨(fun s => { s with pair := { s.pair with partner := { s.pair.partner with reason := (2 + 1) } } }) ((fun s => { s with pair := { s.pair with partner := { s.pair.partner with heard := false } } }) ((fun s => { s with pair := { s.pair with role := .active } }) ((fun s => { s with pair := { s.pair with formed := true } }) (up)))),
     0, by decide⟩,
   ⟨(fun s => { s with pair := { s.pair with partner := { s.pair.partner with reason := 1 } } }) ((fun s => { s with pair := { s.pair with partner := { s.pair.partner with role := 2 } } }) ((fun s => { s with pair := { s.pair with partner := { s.pair.partner with heard := true } } }) ((fun s => { s with pair := { s.pair with role := .active } }) ((fun s => { s with pair := { s.pair with formed := true } }) (up))))),
     0, by decide⟩,
   ⟨(fun s => { s with pair := { s.pair with formed := false } }) (up), by decide⟩,
   ⟨(fun s => { s with pair := { s.pair with partner := { s.pair.partner with readyTime := s.pair.stabilityS } } }) ((fun s => { s with pair := { s.pair with partner := { s.pair.partner with ready := true } } }) ((fun s => { s with pair := { s.pair with partner := { s.pair.partner with heard := true } } }) ((fun s => { s with pair := { s.pair with takeback := true } }) ((fun s => { s with pair := { s.pair with preferred := false } }) ((fun s => { s with pair := { s.pair with role := .active } }) ((fun s => { s with pair := { s.pair with formed := true } }) (up))))))),
     by decide⟩,
   ⟨(fun s => { s with pair := { s.pair with h := none } }) (up), by decide⟩,
   ⟨(fun s => { s with pair := { s.pair with h := (some 0) } }) (up), 0, by decide⟩,
   ⟨(fun s => { s with pair := { s.pair with role := .active } }) ((fun s => { s with bus := { s.bus with lCyc := 1 } }) ((fun s => { s with pair := { s.pair with h := some 101 } }) (up))),
     by decide⟩,
   ⟨(fun s => { s with pair := { s.pair with role := .standby } }) ((fun s => { s with bus := { s.bus with lCyc := 1 } }) ((fun s => { s with pair := { s.pair with h := some 101 } }) (up))),
     by decide⟩,
   ⟨(fun s => { s with pair := { s.pair with resync := true } }) ((fun s => { s with pair := { s.pair with role := .standby } }) ((fun s => { s with pair := { s.pair with role := .standby } }) ((fun s => { s with pair := { s.pair with formed := false } }) (up)))),
     0, 0x9001, by decide⟩,
   ⟨(fun s => { s with pair := { s.pair with resync := false } }) ((fun s => { s with pair := { s.pair with role := .standby } }) ((fun s => { s with pair := { s.pair with formed := true } }) (up))),
     0, by decide⟩,
   ⟨up, by decide⟩,
   ⟨(fun s => { s with pair := { s.pair with resync := true } }) ((fun s => { s with pair := { s.pair with role := .standby } }) (up)), by decide⟩⟩

/-- `DatumAndSync`. -/
theorem witness_DatumAndSync :
    (∃ s : State, ∃ u : State, u = { s with time := { s.time with datumHere := isDatum s } } ∧ (isDatum s = true ∨ s.datum.addr = 0xFFFF)) ∧
    (∃ s : State, ∃ u : State, ∃ f : TimeFrame, u = { s with time := { s.time with datumHere := isDatum s } } ∧ isDatum s = false ∧
      s.datum.addr ≠ 0xFFFF ∧ f.addr ≠ s.datum.addr ∧ s.datum.mismatch = true) ∧
    (∃ s : State, ∃ u : State, ∃ f : TimeFrame, u = { s with time := { s.time with datumHere := isDatum s } } ∧ isDatum s = false ∧
      s.datum.addr ≠ 0xFFFF ∧ f.addr ≠ s.datum.addr ∧ s.datum.mismatch = false) ∧
    (∃ s : State, ∃ u : State, ∃ p : Nat, ∃ f : TimeFrame, u = { s with time := { s.time with datumHere := isDatum s } } ∧ isDatum s = false ∧
      f.addr = s.datum.addr ∧ s.datum.addr ≠ 0xFFFF ∧ (p ≠ datumPath s ∨ ∃ e, s.datum.newestEpoch = some e ∧ newerEpoch e f.epoch = true)) ∧
    (∃ s : State, ∃ u : State, ∃ p : Nat, ∃ f : TimeFrame, u = { s with time := { s.time with datumHere := isDatum s } } ∧ isDatum s = false ∧
      f.addr = s.datum.addr ∧ s.datum.addr ≠ 0xFFFF ∧ p = datumPath s ∧ (∀ e, s.datum.newestEpoch = some e → newerEpoch e f.epoch = false)) ∧
    (∃ s : State, ∃ l : Int, (isDatum s = false ∨ l < s.datum.sentAt + 125000000 * 65536)) ∧
    (∃ s : State, ∃ l : Int, isDatum s = true ∧ s.datum.sentAt + 125000000 * 65536 ≤ l) ∧
    (∃ s : State, (isDatum s = true ∨ s.datum.addr = 0xFFFF ∨ s.datum.delaySeq ≠ 0 ∧ s.ns < s.datum.delayAt + 1000000000)) ∧
    (∃ s : State, isDatum s = false ∧ s.datum.addr ≠ 0xFFFF ∧ (s.datum.delaySeq = 0 ∨ s.datum.delayAt + 1000000000 ≤ s.ns)) ∧
    (∃ s : State, isDatum s = true) ∧
    (∃ s : State, isDatum s = false) ∧
    (∃ s : State, ∃ p : Nat, ∃ seq : Nat, ∃ l : Int, ∃ f : Int × Int, s.datum.delayReq = some (seq, l) ∧ s.datum.lastFrame = some f ∧
      p = s.datum.pathUsed) ∧
    (∃ s : State, ∃ p : Nat, ∃ seq : Nat, (s.datum.lastFrame = none ∨ p ≠ s.datum.pathUsed ∨ ∀ l, s.datum.delayReq ≠ some (seq, l))) ∧
    (∃ s : State, (s.datum.addr = 0xFFFF ∨ s.imageNo % 64 ≠ s.dict.modAddr % 64)) ∧
    (∃ s : State, s.datum.addr ≠ 0xFFFF ∧ s.imageNo % 64 = s.dict.modAddr % 64) ∧
    (∃ s : State, ∃ f : CascFrame, dueOf s f 4 = .discard) ∧
    (∃ s : State, ∃ f : CascFrame, dueOf s f 4 = .forward ∧ 2 ≤ f.hops ∧ ((if otherSide f.side = 1 then s.casc.bl1 else s.casc.bl2) = true)) ∧
    (∃ s : State, ∃ f : CascFrame, dueOf s f 4 = .forward ∧ (f.hops ≤ 1 ∨ (if otherSide f.side = 1 then s.casc.bl1 else s.casc.bl2) = false)) ∧
    (∃ s : State, ∃ f : CascFrame, dueOf s f 4 = .mine ∧ (isDatum s = false ∨ f.body.length ≠ 32 ∨ field f.body 28 4 ≠ 0)) ∧
    (∃ s : State, ∃ f : CascFrame, dueOf s f 4 = .mine ∧ isDatum s = true ∧ f.body.length = 32 ∧ field f.body 28 4 = 0) ∧
    (∃ s : State, s.datum.syncDriver = true ∧ s.datum.syncAt < moduleNs s / 1000000000) ∧
    (∃ s : State, (s.datum.syncDriver = false ∨ moduleNs s / 1000000000 ≤ s.datum.syncAt)) ∧
    (∃ s : State, s.datum.syncDriver = false) :=
  ⟨⟨{ up with datum := { up.datum with addr := 0x14 } },
    { ({ up with datum := { up.datum with addr := 0x14 } }) with time := { ({ up with datum := { up.datum with addr := 0x14 } }).time with datumHere := isDatum ({ up with datum := { up.datum with addr := 0x14 } }) } },
    by and_intros <;> first | decide | rfl⟩,
   ⟨{ up with datum := { up.datum with addr := 0x15, mismatch := true } },
     { ({ up with datum := { up.datum with addr := 0x15, mismatch := true } }) with time := { ({ up with datum := { up.datum with addr := 0x15, mismatch := true } }).time with datumHere := isDatum ({ up with datum := { up.datum with addr := 0x15, mismatch := true } }) } },
     ⟨0x20, 0, 37, 0, 1, 5⟩,
     by and_intros <;> first | decide | rfl⟩,
   ⟨{ up with datum := { up.datum with addr := 0x15, mismatch := false } },
     { ({ up with datum := { up.datum with addr := 0x15, mismatch := false } }) with time := { ({ up with datum := { up.datum with addr := 0x15, mismatch := false } }).time with datumHere := isDatum ({ up with datum := { up.datum with addr := 0x15, mismatch := false } }) } },
     ⟨0x20, 0, 37, 0, 1, 5⟩,
     by and_intros <;> first | decide | rfl⟩,
   ⟨{ up with datum := { up.datum with addr := 0x15 } },
     { ({ up with datum := { up.datum with addr := 0x15 } }) with time := { ({ up with datum := { up.datum with addr := 0x15 } }).time with datumHere := isDatum ({ up with datum := { up.datum with addr := 0x15 } }) } },
     2, ⟨0x15, 0, 37, 0, 1, 5⟩,
     by and_intros <;> first | decide | rfl | exact .inl (by decide)⟩,
   ⟨{ up with datum := { up.datum with addr := 0x15, newestEpoch := some 1 } },
     { ({ up with datum := { up.datum with addr := 0x15, newestEpoch := some 1 } }) with time := { ({ up with datum := { up.datum with addr := 0x15, newestEpoch := some 1 } }).time with datumHere := isDatum ({ up with datum := { up.datum with addr := 0x15, newestEpoch := some 1 } }) } },
     1, ⟨0x15, 0, 37, 0, 1, 5⟩,
     by and_intros <;> first | decide | rfl | (intro e h; cases h; decide)⟩,
   ⟨up, 0, by decide⟩,
   ⟨(fun s => { s with datum := { s.datum with addr := 0x14 } }) (up), 8192000000000, by decide⟩,
   ⟨up, by decide⟩,
   ⟨(fun s => { s with datum := { s.datum with delaySeq := 0 } }) ((fun s => { s with datum := { s.datum with addr := 1 } }) (up)), by decide⟩,
   ⟨(fun s => { s with datum := { s.datum with addr := 0x14 } }) (up), by decide⟩,
   ⟨up, by decide⟩,
   ⟨{ up with datum := { up.datum with addr := 0x15, lastFrame := some (0, 0), delayReq := some (3, 9), pathUsed := 1 } }, 1, 3, 9, (0, 0),
     by decide⟩,
   ⟨up, 1, 3, by exact .inl (by decide)⟩,
   ⟨(fun s => { s with datum := { s.datum with addr := 0xFFFF } }) (up), by decide⟩,
   ⟨(fun s => { s with dict := { s.dict with modAddr := 36 } }) ((fun s => { s with datum := { s.datum with addr := 0x20 } }) (up)), by decide⟩,
   ⟨up, (cascFrame 1 []), by decide⟩,
   ⟨(fun s => { s with casc := { s.casc with bl2 := true } }) (up), { cascFrame 4 [] with path := 3, dst := 0x16, hops := 2, side := 1 }, by decide⟩,
   ⟨up, { cascFrame 4 [] with path := 3, dst := 0x16, hops := 2, side := 1 }, by decide⟩,
   ⟨(fun s => { s with datum := { s.datum with addr := 0x14 } }) (up), cascFrame 4 [], by decide⟩,
   ⟨(fun s => { s with datum := { s.datum with addr := 0x14 } }) (up), cascFrame 4 (be 32 0), by decide⟩,
   ⟨(fun s => { s with time := { s.time with halves := { s.time.halves with b := { s.time.halves.b with o := 2000000000 * 65536 } } } }) ((fun s => { s with time := { s.time with halves := { s.time.halves with a := { s.time.halves.a with o := 2000000000 * 65536 } } } }) ((fun s => { s with datum := { s.datum with syncDriver := true } }) (up))),
     by decide⟩,
   ⟨(fun s => { s with datum := { s.datum with syncDriver := false } }) (up), by decide⟩,
   ⟨(fun s => { s with datum := { s.datum with syncDriver := false } }) (up), by decide⟩⟩

/-- `DatagramChecks`. -/
theorem witness_DatagramChecks :
    (∃ s : State, ∃ src : Source, ∃ ch : Option Half, ∃ b : List Byte, ∃ far : ProxyIn, ∃ c : Instr, c ∈ [Instr.openSess src ch b,
      .closeSess src ch b, .statusReq src ch b, .readObj src ch b, .writeObj src ch b, .readClear src ch b, .describeObj src ch b,
      .eventRead src ch b, .eventPendingClear src ch b, .proxyReq src ch b far] ∧ dictAlive s = false) ∧
    (∃ s : State, ∃ src : Source, ∃ ch : Option Half, ∃ b : List Byte, ∃ far : ProxyIn, ∃ c, c ∈ [Instr.openSess src ch b, .closeSess src ch b,
      .statusReq src ch b, .readObj src ch b, .writeObj src ch b, .readClear src ch b, .describeObj src ch b, .eventRead src ch b,
      .eventPendingClear src ch b, .proxyReq src ch b far] ∧ dictAlive s = true ∧ dgramOk b = false) ∧
    (∃ s : State, ∃ src : Source, ∃ ch : Option Half, ∃ b : List Byte, ∃ far : ProxyIn, ∃ c : Instr, c ∈ [Instr.openSess src ch b,
      .closeSess src ch b, .statusReq src ch b, .readObj src ch b, .writeObj src ch b, .readClear src ch b, .describeObj src ch b,
      .eventRead src ch b, .eventPendingClear src ch b, .proxyReq src ch b far] ∧ dictAlive s = true ∧ dgramOk b = true ∧
      badRequest (readDgram b) = true) ∧
    (∃ s : State, ∃ src : Source, ∃ ch : Option Half, ∃ b : List Byte, ∃ far : ProxyIn, ∃ c : Instr, ∃ d : Dgram, ∃ x : Session,
      (c = .closeSess src ch b ∧ d.service = 0x02 ∨ c = .statusReq src ch b ∧ d.service = 0x03 ∨ c = .readObj src ch b ∧ d.service = 0x10 ∧
      readsClear s d = false ∨ c = .readClear src ch b ∧ d.service = 0x10 ∧ readsClear s d = true ∨ c = .writeObj src ch b ∧ d.service = 0x11 ∧
      d.index ≠ 0x3001 ∨ c = .eventPendingClear src ch b ∧ d.service = 0x11 ∧ d.index = 0x3001 ∨ c = .describeObj src ch b ∧
      d.service = 0x12 ∨ c = .eventRead src ch b ∧ d.service = 0x20 ∨ c = .proxyReq src ch b far ∧ d.service = 0x30) ∧ dictAlive s = true ∧
      dgramOk b = true ∧ badRequest d = false ∧ d = readDgram b ∧ x = sessOf s d.session ∧ (∀ m l, src ≠ .proxy m l) ∧ inSession s src d = false) ∧
    (∃ s : State, ∃ src : Source, ∃ ch : Option Half, ∃ b : List Byte, ∃ far : ProxyIn, ∃ c : Instr, ∃ d : Dgram, ∃ x : Session,
      (c = .closeSess src ch b ∧ d.service = 0x02 ∨ c = .statusReq src ch b ∧ d.service = 0x03 ∨ c = .readObj src ch b ∧ d.service = 0x10 ∧
      readsClear s d = false ∨ c = .readClear src ch b ∧ d.service = 0x10 ∧ readsClear s d = true ∨ c = .writeObj src ch b ∧ d.service = 0x11 ∧
      d.index ≠ 0x3001 ∨ c = .eventPendingClear src ch b ∧ d.service = 0x11 ∧ d.index = 0x3001 ∨ c = .describeObj src ch b ∧
      d.service = 0x12 ∨ c = .eventRead src ch b ∧ d.service = 0x20 ∨ c = .proxyReq src ch b far ∧ d.service = 0x30) ∧ dictAlive s = true ∧
      dgramOk b = true ∧ badRequest d = false ∧ d = readDgram b ∧ x = sessOf s d.session ∧ (∀ m l, src ≠ .proxy m l) ∧ inSession s src d = true ∧
      otherCopy s x ch d = true) ∧
    (∃ s : State, ∃ src : Source, ∃ ch : Option Half, ∃ b : List Byte, ∃ far : ProxyIn, ∃ c : Instr, ∃ d : Dgram, ∃ x : Session, ∃ k,
      (c = .closeSess src ch b ∧ d.service = 0x02 ∨ c = .statusReq src ch b ∧ d.service = 0x03 ∨ c = .readObj src ch b ∧ d.service = 0x10 ∧
      readsClear s d = false ∨ c = .readClear src ch b ∧ d.service = 0x10 ∧ readsClear s d = true ∨ c = .writeObj src ch b ∧ d.service = 0x11 ∧
      d.index ≠ 0x3001 ∨ c = .eventPendingClear src ch b ∧ d.service = 0x11 ∧ d.index = 0x3001 ∨ c = .describeObj src ch b ∧
      d.service = 0x12 ∨ c = .eventRead src ch b ∧ d.service = 0x20 ∨ c = .proxyReq src ch b far ∧ d.service = 0x30) ∧ dictAlive s = true ∧
      dgramOk b = true ∧ badRequest d = false ∧ d = readDgram b ∧ x = sessOf s d.session ∧ (∀ m l, src ≠ .proxy m l) ∧ inSession s src d = true ∧
      otherCopy s x ch d = false ∧ (x.kept.find? (fun r => r.seq = d.seq) = some k)) ∧
    (∃ s : State, ∃ src : Source, ∃ ch : Option Half, ∃ b : List Byte, ∃ far : ProxyIn, ∃ c : Instr, ∃ d : Dgram, ∃ x : Session,
      (c = .closeSess src ch b ∧ d.service = 0x02 ∨ c = .statusReq src ch b ∧ d.service = 0x03 ∨ c = .readObj src ch b ∧ d.service = 0x10 ∧
      readsClear s d = false ∨ c = .readClear src ch b ∧ d.service = 0x10 ∧ readsClear s d = true ∨ c = .writeObj src ch b ∧ d.service = 0x11 ∧
      d.index ≠ 0x3001 ∨ c = .eventPendingClear src ch b ∧ d.service = 0x11 ∧ d.index = 0x3001 ∨ c = .describeObj src ch b ∧
      d.service = 0x12 ∨ c = .eventRead src ch b ∧ d.service = 0x20 ∨ c = .proxyReq src ch b far ∧ d.service = 0x30) ∧ dictAlive s = true ∧
      dgramOk b = true ∧ badRequest d = false ∧ d = readDgram b ∧ x = sessOf s d.session ∧ (∀ m l, src ≠ .proxy m l) ∧ inSession s src d = true ∧
      otherCopy s x ch d = false ∧ (x.kept.find? (fun r => r.seq = d.seq) = none) ∧ laterSeq d.seq x.newest = false) ∧
    (∃ s : State, ∃ src : Source, ∃ ch : Option Half, ∃ b : List Byte, ∃ far : ProxyIn, ∃ c : Instr, ∃ d : Dgram, ∃ x : Session,
      (c = .closeSess src ch b ∧ d.service = 0x02 ∨ c = .statusReq src ch b ∧ d.service = 0x03 ∨ c = .readObj src ch b ∧ d.service = 0x10 ∧
      readsClear s d = false ∨ c = .readClear src ch b ∧ d.service = 0x10 ∧ readsClear s d = true ∨ c = .writeObj src ch b ∧ d.service = 0x11 ∧
      d.index ≠ 0x3001 ∨ c = .eventPendingClear src ch b ∧ d.service = 0x11 ∧ d.index = 0x3001 ∨ c = .describeObj src ch b ∧
      d.service = 0x12 ∨ c = .eventRead src ch b ∧ d.service = 0x20 ∨ c = .proxyReq src ch b far ∧ d.service = 0x30) ∧ dictAlive s = true ∧
      dgramOk b = true ∧ badRequest d = false ∧ d = readDgram b ∧ x = sessOf s d.session ∧ (∀ m l, src ≠ .proxy m l) ∧ inSession s src d = true ∧
      otherCopy s x ch d = false ∧ (x.kept.find? (fun r => r.seq = d.seq) = none) ∧ laterSeq d.seq x.newest = true ∧ 8 ≤ unanswered x) :=
  ⟨⟨(fun s => { s with power := { s.power with pfail := 1 } }) (up), .udp 1 2, none, dgram 2 0 6 0 0 7 [], ⟨0, false, []⟩,
    .closeSess (.udp 1 2) none (dgram 2 0 6 0 0 7 []), by decide⟩,
   ⟨up, .udp 1 2, none, [], ⟨0, false, []⟩, Instr.openSess (.udp 1 2) none [], by decide⟩,
   ⟨up, .udp 1 2, none, dgram 1 0 6 0 0 7 [], ⟨0, false, []⟩, .closeSess (.udp 1 2) none (dgram 1 0 6 0 0 7 []), by decide⟩,
   ⟨up, .udp 1 2, none, dgram 2 0 6 0 0 8 [], ⟨0, false, []⟩, .closeSess (.udp 1 2) none (dgram 2 0 6 0 0 8 []), readDgram (dgram 2 0 6 0 0 8 []),
     sessUp,
     by and_intros <;> first | decide | rfl | (intro k; cases k <;> decide) | (intro m l h; cases h) | (intro p h; cases h)⟩,
   ⟨(fun s => { s with dict := { s.dict with welong := true } }) ((fun s => { s with dict := { s.dict with sessions := [(0, sessWel)] } }) (up)),
     .welong 3, (some .b), dgram 2 0 6 0 0 7 [], ⟨0, false, []⟩, .closeSess (.welong 3) (some .b) (dgram 2 0 6 0 0 7 []),
     readDgram (dgram 2 0 6 0 0 7 []), sessWel,
     by and_intros <;> first | decide | rfl | (intro k; cases k <;> decide) | (intro m l h; cases h) | (intro p h; cases h)⟩,
   ⟨(fun s => { s with dict := { s.dict with sessions := [(0, { sessUp with kept := [{ dest := .udp 1 2, service := 0x82, session := 0, resent := false, seq := 6, index := 0, sub := 0, stamp := 7, status := 0, result := 0, data := [] }] })] } }) (up),
     .udp 1 2, none, dgram 2 0 6 0 0 7 [], ⟨0, false, []⟩, .closeSess (.udp 1 2) none (dgram 2 0 6 0 0 7 []), readDgram (dgram 2 0 6 0 0 7 []),
     { sessUp with kept := [{ dest := .udp 1 2, service := 0x82, session := 0, resent := false, seq := 6, index := 0, sub := 0, stamp := 7, status := 0, result := 0, data := [] }] },
     { dest := .udp 1 2, service := 0x82, session := 0, resent := false, seq := 6, index := 0, sub := 0, stamp := 7, status := 0, result := 0, data := [] },
     by and_intros <;> first | decide | rfl | (intro k; cases k <;> decide) | (intro m l h; cases h) | (intro p h; cases h)⟩,
   ⟨up, .udp 1 2, none, dgram 2 0 5 0 0 7 [], ⟨0, false, []⟩, .closeSess (.udp 1 2) none (dgram 2 0 5 0 0 7 []), readDgram (dgram 2 0 5 0 0 7 []),
     sessUp,
     by and_intros <;> first | decide | rfl | (intro k; cases k <;> decide) | (intro m l h; cases h) | (intro p h; cases h)⟩,
   ⟨(fun s => { s with dict := { s.dict with sessions := [(0, { sessUp with due := List.replicate 8 ({ dest := .udp 1 2, service := 0x82, session := 0, resent := false, seq := 6, index := 0, sub := 0, stamp := 7, status := 0, result := 0, data := [] }) })] } }) (up),
     .udp 1 2, none, dgram 2 0 6 0 0 7 [], ⟨0, false, []⟩, .closeSess (.udp 1 2) none (dgram 2 0 6 0 0 7 []), readDgram (dgram 2 0 6 0 0 7 []),
     { sessUp with due := List.replicate 8 ({ dest := .udp 1 2, service := 0x82, session := 0, resent := false, seq := 6, index := 0, sub := 0, stamp := 7, status := 0, result := 0, data := [] }) },
     by and_intros <;> first | decide | rfl | (intro k; cases k <;> decide) | (intro m l h; cases h) | (intro p h; cases h)⟩⟩

/-- `SessionLife`. -/
theorem witness_SessionLife :
    (∃ s : State, ∃ src : Source, ∃ ch : Option Half, ∃ b : List Byte, ∃ d : Dgram, ∃ code : Nat, dictAlive s = true ∧ dgramOk b = true ∧
      badRequest d = false ∧ d = readDgram b ∧ d.service = 0x01 ∧ (∀ m l, src ≠ .proxy m l) ∧ openCopy s src ch d = false ∧ (∀ p,
      src = .welong p → s.dict.welong = true) ∧ (lockedOut s src = true ∧ code = rLockedOut ∨ lockedOut s src = false ∧ freeSession s = none ∧
      code = rSessionFull ∨ lockedOut s src = false ∧ freeSession s ≠ none ∧ field d.data 0 1 = 3 ∧ s.lio.key = false ∧ code = rKey)) ∧
    (∃ s : State, ∃ src : Source, ∃ ch : Option Half, ∃ b : List Byte, ∃ d : Dgram, ∃ n : Nat, dictAlive s = true ∧ dgramOk b = true ∧
      badRequest d = false ∧ d = readDgram b ∧ d.service = 0x01 ∧ (∀ m l, src ≠ .proxy m l) ∧ openCopy s src ch d = false ∧ (∀ p,
      src = .welong p → s.dict.welong = true) ∧ lockedOut s src = false ∧ freeSession s = some n ∧ (field d.data 0 1 = 3 → s.lio.key = true) ∧
      credentialOk s (field d.data 0 1) (d.data.drop 4) = false) ∧
    (∃ s : State, ∃ src : Source, ∃ ch : Option Half, ∃ b : List Byte, ∃ d : Dgram, ∃ n : Nat, dictAlive s = true ∧ dgramOk b = true ∧
      badRequest d = false ∧ d = readDgram b ∧ d.service = 0x01 ∧ (∀ m l, src ≠ .proxy m l) ∧ openCopy s src ch d = false ∧ (∀ p,
      src = .welong p → s.dict.welong = true) ∧ lockedOut s src = false ∧ freeSession s = some n ∧ (field d.data 0 1 = 3 → s.lio.key = true) ∧
      credentialOk s (field d.data 0 1) (d.data.drop 4) = true) ∧
    (∃ s : State, ∃ src : Source, ∃ ch : Option Half, ∃ b : List Byte, ∃ d : Dgram, ∃ x : Session, dictAlive s = true ∧ dgramOk b = true ∧
      badRequest d = false ∧ d = readDgram b ∧ x = sessOf s d.session ∧ (∀ m l, src ≠ .proxy m l) ∧ inSession s src d = true ∧
      otherCopy s x ch d = false ∧ (x.kept.find? (fun r => r.seq = d.seq) = none) ∧ laterSeq d.seq x.newest = true ∧ unanswered x < 8 ∧
      d.service = 0x02) ∧
    (∃ s : State, ∃ n : Nat, (sessOf s n).opened = true ∧ (sessOf s n).last + s.dict.timeoutS * 1000000000 ≤ s.ns) ∧
    (∃ s : State, ∃ n : Nat, (∀ p ∈ s.dict.sessions, p.1 = n → p.2.opened = true → s.ns < p.2.last + s.dict.timeoutS * 1000000000)) ∧
    (∃ s : State, (tabKeys s.dict.sessions).Nodup) ∧
    (∃ s : State, ∃ src : Source, ∃ l : Nat, (failOf s src).lockedTo = some l ∧ l ≤ s.ns) ∧
    (∃ s : State, ∃ src : Source, ∃ l : Nat, (failOf s src).lockedTo = some l ∧ s.ns < l) ∧
    (∃ s : State, ∃ src : Source, (failOf s src).lockedTo = none) ∧
    (∃ s : State, ∃ p, s.dict.netNew = some p ∧ p.2 ≤ s.ns) ∧
    (∃ s : State, ∃ p, s.dict.netNew = some p ∧ s.ns < p.2) ∧
    (∃ s : State, s.dict.netNew = none) :=
  ⟨⟨failing 10000000001, .udp 1 2, none, dgram 1 0xFF 6 0 0 0 (be 1 1 ++ be 1 0 ++ be 1 0 ++ be 1 0),
    readDgram (dgram 1 0xFF 6 0 0 0 (be 1 1 ++ be 1 0 ++ be 1 0 ++ be 1 0)), rLockedOut,
    by and_intros <;> first | decide | rfl | (intro k; cases k <;> decide) | (intro m l h; cases h) | (intro p h; cases h) | (intro h; decide)⟩,
   ⟨failing 10000000000, .udp 1 2, none, dgram 1 0xFF 6 0 0 0 (be 1 1 ++ be 1 0 ++ be 1 1 ++ be 1 0 ++ be 1 7),
     readDgram (dgram 1 0xFF 6 0 0 0 (be 1 1 ++ be 1 0 ++ be 1 1 ++ be 1 0 ++ be 1 7)), 1,
     by and_intros <;> first | decide | rfl | (intro k; cases k <;> decide) | (intro m l h; cases h) | (intro p h; cases h) | (intro h; decide)⟩,
   ⟨up, .udp 1 2, none, dgram 1 0xFF 6 0 0 0 (be 1 3 ++ be 1 0 ++ be 1 0 ++ be 1 0),
     readDgram (dgram 1 0xFF 6 0 0 0 (be 1 3 ++ be 1 0 ++ be 1 0 ++ be 1 0)), 1,
     by and_intros <;> first | decide | rfl | (intro k; cases k <;> decide) | (intro m l h; cases h) | (intro p h; cases h) | (intro h; decide)⟩,
   ⟨up, .udp 1 2, none, dgram 2 0 6 0 0 7 [], readDgram (dgram 2 0 6 0 0 7 []), sessUp,
     by and_intros <;> first | decide | rfl | (intro k; cases k <;> decide) | (intro m l h; cases h) | (intro p h; cases h)⟩,
   ⟨(fun s => { s with ns := ((sessOf s 0).last + s.dict.timeoutS * 1000000000) }) ((fun s => modSess 0 (fun y => { y with opened := true }) s) (up)),
     0, by decide⟩,
   ⟨up, 0, by decide⟩,
   ⟨up, by decide⟩,
   ⟨failing 10000000000, .udp 1 2, 10000000000, by decide⟩,
   ⟨failing 10000000001, .udp 1 2, 10000000001, by decide⟩,
   ⟨up, .udp 1 2, by decide⟩,
   ⟨(fun s => { s with dict := { s.dict with netNew := some (up.dict.net, 10000000000) } }) (up), ((up.dict.net, 10000000000)), by decide⟩,
   ⟨(fun s => { s with dict := { s.dict with netNew := some (up.dict.net, 10000000001) } }) (up), ((up.dict.net, 10000000001)), by decide⟩,
   ⟨(fun s => { s with dict := { s.dict with netNew := none } }) (up), by decide⟩⟩

/-- `DictionaryServices`. -/
theorem witness_DictionaryServices :
    (∃ s : State, ∃ src : Source, ∃ ch : Option Half, ∃ b : List Byte, ∃ d : Dgram, ∃ x : Session, dictAlive s = true ∧ dgramOk b = true ∧
      badRequest d = false ∧ d = readDgram b ∧ x = sessOf s d.session ∧ (∀ m l, src ≠ .proxy m l) ∧ inSession s src d = true ∧
      otherCopy s x ch d = false ∧ (x.kept.find? (fun r => r.seq = d.seq) = none) ∧ laterSeq d.seq x.newest = true ∧ unanswered x < 8 ∧
      d.service = 0x03) ∧
    (∃ s : State, ∃ src : Source, ∃ ch : Option Half, ∃ b : List Byte, ∃ d : Dgram, ∃ x : Session, dictAlive s = true ∧ dgramOk b = true ∧
      badRequest d = false ∧ d = readDgram b ∧ x = sessOf s d.session ∧ (∀ m l, src ≠ .proxy m l) ∧ inSession s src d = true ∧
      otherCopy s x ch d = false ∧ (x.kept.find? (fun r => r.seq = d.seq) = none) ∧ laterSeq d.seq x.newest = true ∧ unanswered x < 8 ∧
      d.service = 0x12) ∧
    (∃ s : State, ∃ src : Source, ∃ ch : Option Half, ∃ b : List Byte, ∃ d : Dgram, ∃ x : Session, dictAlive s = true ∧ dgramOk b = true ∧
      badRequest d = false ∧ d = readDgram b ∧ x = sessOf s d.session ∧ (∀ m l, src ≠ .proxy m l) ∧ inSession s src d = true ∧
      otherCopy s x ch d = false ∧ (x.kept.find? (fun r => r.seq = d.seq) = none) ∧ laterSeq d.seq x.newest = true ∧ unanswered x < 8 ∧
      d.service = 0x10 ∧ readsClear s d = false) ∧
    (∃ s : State, ∃ src : Source, ∃ ch : Option Half, ∃ b : List Byte, ∃ d : Dgram, ∃ x : Session, ∃ c : Nat, dictAlive s = true ∧ dgramOk b = true ∧
      badRequest d = false ∧ d = readDgram b ∧ x = sessOf s d.session ∧ (∀ m l, src ≠ .proxy m l) ∧ inSession s src d = true ∧
      otherCopy s x ch d = false ∧ (x.kept.find? (fun r => r.seq = d.seq) = none) ∧ laterSeq d.seq x.newest = true ∧ unanswered x < 8 ∧
      d.service = 0x11 ∧ d.index ≠ 0x3001 ∧ findObj s d.index d.sub = .inr c) ∧
    (∃ s : State, ∃ src : Source, ∃ ch : Option Half, ∃ b : List Byte, ∃ d : Dgram, ∃ x : Session, ∃ o : ObjRow, dictAlive s = true ∧
      dgramOk b = true ∧ badRequest d = false ∧ d = readDgram b ∧ x = sessOf s d.session ∧ (∀ m l, src ≠ .proxy m l) ∧ inSession s src d = true ∧
      otherCopy s x ch d = false ∧ (x.kept.find? (fun r => r.seq = d.seq) = none) ∧ laterSeq d.seq x.newest = true ∧ unanswered x < 8 ∧
      d.service = 0x11 ∧ d.index ≠ 0x3001 ∧ findObj s d.index d.sub = .inl o ∧ writeRefusal s x.level o d.index d.sub d.data ≠ rOk) ∧
    (∃ s : State, ∃ src : Source, ∃ ch : Option Half, ∃ b : List Byte, ∃ d : Dgram, ∃ x : Session, ∃ o : ObjRow, dictAlive s = true ∧
      dgramOk b = true ∧ badRequest d = false ∧ d = readDgram b ∧ x = sessOf s d.session ∧ (∀ m l, src ≠ .proxy m l) ∧ inSession s src d = true ∧
      otherCopy s x ch d = false ∧ (x.kept.find? (fun r => r.seq = d.seq) = none) ∧ laterSeq d.seq x.newest = true ∧ unanswered x < 8 ∧
      d.service = 0x11 ∧ d.index ≠ 0x3001 ∧ findObj s d.index d.sub = .inl o ∧ writeRefusal s x.level o d.index d.sub d.data = rOk ∧
      o.atTick = true) ∧
    (∃ s : State, ∃ src : Source, ∃ ch : Option Half, ∃ b : List Byte, ∃ d : Dgram, ∃ x : Session, ∃ o : ObjRow, dictAlive s = true ∧
      dgramOk b = true ∧ badRequest d = false ∧ d = readDgram b ∧ x = sessOf s d.session ∧ (∀ m l, src ≠ .proxy m l) ∧ inSession s src d = true ∧
      otherCopy s x ch d = false ∧ (x.kept.find? (fun r => r.seq = d.seq) = none) ∧ laterSeq d.seq x.newest = true ∧ unanswered x < 8 ∧
      d.service = 0x11 ∧ d.index ≠ 0x3001 ∧ findObj s d.index d.sub = .inl o ∧ writeRefusal s x.level o d.index d.sub d.data = rOk ∧
      o.atTick = false) ∧
    (∃ s : State, ∃ src : Source, ∃ ch : Option Half, ∃ b : List Byte, ∃ d : Dgram, ∃ x : Session, ∃ o : ObjRow, dictAlive s = true ∧
      dgramOk b = true ∧ badRequest d = false ∧ d = readDgram b ∧ x = sessOf s d.session ∧ (∀ m l, src ≠ .proxy m l) ∧ inSession s src d = true ∧
      otherCopy s x ch d = false ∧ (x.kept.find? (fun r => r.seq = d.seq) = none) ∧ laterSeq d.seq x.newest = true ∧ unanswered x < 8 ∧
      d.service = 0x10 ∧ readsClear s d = true ∧ findObj s d.index d.sub = .inl o ∧ o.lane = false) ∧
    (∃ s : State, ∃ src : Source, ∃ ch : Option Half, ∃ b : List Byte, ∃ d : Dgram, ∃ x : Session, ∃ o : ObjRow, dictAlive s = true ∧
      dgramOk b = true ∧ badRequest d = false ∧ d = readDgram b ∧ x = sessOf s d.session ∧ (∀ m l, src ≠ .proxy m l) ∧ inSession s src d = true ∧
      otherCopy s x ch d = false ∧ (x.kept.find? (fun r => r.seq = d.seq) = none) ∧ laterSeq d.seq x.newest = true ∧ unanswered x < 8 ∧
      d.service = 0x10 ∧ readsClear s d = true ∧ findObj s d.index d.sub = .inl o ∧ o.lane = true ∧ laneRefusal s false ≠ rOk) ∧
    (∃ s : State, ∃ src : Source, ∃ ch : Option Half, ∃ b : List Byte, ∃ d : Dgram, ∃ x : Session, ∃ o : ObjRow, dictAlive s = true ∧
      dgramOk b = true ∧ badRequest d = false ∧ d = readDgram b ∧ x = sessOf s d.session ∧ (∀ m l, src ≠ .proxy m l) ∧ inSession s src d = true ∧
      otherCopy s x ch d = false ∧ (x.kept.find? (fun r => r.seq = d.seq) = none) ∧ laterSeq d.seq x.newest = true ∧ unanswered x < 8 ∧
      d.service = 0x10 ∧ readsClear s d = true ∧ findObj s d.index d.sub = .inl o ∧ o.lane = true ∧ laneRefusal s false = rOk) ∧
    (∃ s : State, ∃ src : Source, ∃ ch : Option Half, ∃ b : List Byte, ∃ d : Dgram, ∃ x : Session, dictAlive s = true ∧ dgramOk b = true ∧
      badRequest d = false ∧ d = readDgram b ∧ x = sessOf s d.session ∧ (∀ m l, src ≠ .proxy m l) ∧ inSession s src d = true ∧
      otherCopy s x ch d = false ∧ (x.kept.find? (fun r => r.seq = d.seq) = none) ∧ laterSeq d.seq x.newest = true ∧ unanswered x < 8 ∧
      d.service = 0x20 ∧ (field d.data 0 1 = 0 ∨ 16 < field d.data 0 1 ∨ field d.data 1 3 ≠ 0)) ∧
    (∃ s : State, ∃ src : Source, ∃ ch : Option Half, ∃ b : List Byte, ∃ d : Dgram, ∃ x : Session, dictAlive s = true ∧ dgramOk b = true ∧
      badRequest d = false ∧ d = readDgram b ∧ x = sessOf s d.session ∧ (∀ m l, src ≠ .proxy m l) ∧ inSession s src d = true ∧
      otherCopy s x ch d = false ∧ (x.kept.find? (fun r => r.seq = d.seq) = none) ∧ laterSeq d.seq x.newest = true ∧ unanswered x < 8 ∧
      d.service = 0x20 ∧ 1 ≤ field d.data 0 1 ∧ field d.data 0 1 ≤ 16 ∧ field d.data 1 3 = 0) ∧
    (∃ s : State, ∃ src : Source, ∃ ch : Option Half, ∃ b : List Byte, ∃ d : Dgram, ∃ x : Session, ∃ o : ObjRow, dictAlive s = true ∧
      dgramOk b = true ∧ badRequest d = false ∧ d = readDgram b ∧ x = sessOf s d.session ∧ (∀ m l, src ≠ .proxy m l) ∧ inSession s src d = true ∧
      otherCopy s x ch d = false ∧ (x.kept.find? (fun r => r.seq = d.seq) = none) ∧ laterSeq d.seq x.newest = true ∧ unanswered x < 8 ∧
      d.service = 0x11 ∧ d.index = 0x3001 ∧ findObj s d.index d.sub = .inl o ∧ writeRefusal s x.level o d.index d.sub d.data ≠ rOk) ∧
    (∃ s : State, ∃ src : Source, ∃ ch : Option Half, ∃ b : List Byte, ∃ d : Dgram, ∃ x : Session, ∃ o : ObjRow, dictAlive s = true ∧
      dgramOk b = true ∧ badRequest d = false ∧ d = readDgram b ∧ x = sessOf s d.session ∧ (∀ m l, src ≠ .proxy m l) ∧ inSession s src d = true ∧
      otherCopy s x ch d = false ∧ (x.kept.find? (fun r => r.seq = d.seq) = none) ∧ laterSeq d.seq x.newest = true ∧ unanswered x < 8 ∧
      d.service = 0x11 ∧ d.index = 0x3001 ∧ findObj s d.index d.sub = .inl o ∧ writeRefusal s x.level o d.index d.sub d.data = rOk) ∧
    (∃ s : State, ∃ src : Source, ∃ ch : Option Half, ∃ b : List Byte, ∃ d : Dgram, ∃ x : Session, dictAlive s = true ∧ dgramOk b = true ∧
      badRequest d = false ∧ d = readDgram b ∧ x = sessOf s d.session ∧ (∀ m l, src ≠ .proxy m l) ∧ inSession s src d = true ∧
      otherCopy s x ch d = false ∧ (x.kept.find? (fun r => r.seq = d.seq) = none) ∧ laterSeq d.seq x.newest = true ∧ unanswered x < 8 ∧
      d.service = 0x30 ∧ (field d.data 0 2 = s.dict.modAddr ∨ field (d.data.drop 4) 1 1 ∈ [0x01, 0x02, 0x20, 0x30])) ∧
    (∃ s : State, ∃ src : Source, ∃ ch : Option Half, ∃ b : List Byte, ∃ d : Dgram, ∃ x : Session, ∃ far : ProxyIn, dictAlive s = true ∧
      dgramOk b = true ∧ badRequest d = false ∧ d = readDgram b ∧ x = sessOf s d.session ∧ (∀ m l, src ≠ .proxy m l) ∧ inSession s src d = true ∧
      otherCopy s x ch d = false ∧ (x.kept.find? (fun r => r.seq = d.seq) = none) ∧ laterSeq d.seq x.newest = true ∧ unanswered x < 8 ∧
      d.service = 0x30 ∧ field d.data 0 2 ≠ s.dict.modAddr ∧ field (d.data.drop 4) 1 1 ∉ [0x01, 0x02, 0x20, 0x30] ∧
      bridgePath s (field d.data 0 2) ≠ none ∧ far.code = 0) ∧
    (∃ s : State, ∃ src : Source, ∃ ch : Option Half, ∃ b : List Byte, ∃ d : Dgram, ∃ x : Session, ∃ far : ProxyIn, dictAlive s = true ∧
      dgramOk b = true ∧ badRequest d = false ∧ d = readDgram b ∧ x = sessOf s d.session ∧ (∀ m l, src ≠ .proxy m l) ∧ inSession s src d = true ∧
      otherCopy s x ch d = false ∧ (x.kept.find? (fun r => r.seq = d.seq) = none) ∧ laterSeq d.seq x.newest = true ∧ unanswered x < 8 ∧
      d.service = 0x30 ∧ field d.data 0 2 ≠ s.dict.modAddr ∧ field (d.data.drop 4) 1 1 ∉ [0x01, 0x02, 0x20, 0x30] ∧
      bridgePath s (field d.data 0 2) ≠ none ∧ far.code ≠ 0 ∧ far.posted = false) ∧
    (∃ s : State, ∃ src : Source, ∃ ch : Option Half, ∃ b : List Byte, ∃ d : Dgram, ∃ x : Session, dictAlive s = true ∧ dgramOk b = true ∧
      badRequest d = false ∧ d = readDgram b ∧ x = sessOf s d.session ∧ (∀ m l, src ≠ .proxy m l) ∧ inSession s src d = true ∧
      otherCopy s x ch d = false ∧ (x.kept.find? (fun r => r.seq = d.seq) = none) ∧ laterSeq d.seq x.newest = true ∧ unanswered x < 8 ∧
      d.service = 0x30 ∧ field d.data 0 2 ≠ s.dict.modAddr ∧ field (d.data.drop 4) 1 1 ∉ [0x01, 0x02, 0x20, 0x30] ∧
      bridgePath s (field d.data 0 2) = none ∧ s.bridge.failures.length < 64) ∧
    (∃ s : State, ∃ h : Half, ∃ port : Nat,
      (chanUp s h = false ∨ portLive s h port = false ∨ (portOf s h port).integ = false ∨ (portOf s h port).closed = true)) ∧
    (∃ s : State, ∃ h : Half, ∃ port : Nat, ∃ f : Frame, chanUp s h = true ∧ portLive s h port = true ∧ (portOf s h port).integ = true ∧
      (portOf s h port).closed = false ∧
      (serviceFrom s h port f.slot = none ∨ frameForm s port f 0x60 1500 (f.flags < 2) = false ∨ f.counter ≠ s.bus.counter)) ∧
    (∃ s : State, ∃ h : Half, ∃ port : Nat, ∃ f : Frame, ∃ r : Nat, chanUp s h = true ∧ portLive s h port = true ∧ (portOf s h port).integ = true ∧
      (portOf s h port).closed = false ∧ serviceFrom s h port f.slot = some r ∧ frameForm s port f 0x60 1500 (f.flags < 2) = true ∧
      f.counter = s.bus.counter) :=
  ⟨⟨up, .udp 1 2, none, dgram 3 0 6 0 0 7 [], readDgram (dgram 3 0 6 0 0 7 []), sessUp,
    by and_intros <;> first | decide | rfl | (intro k; cases k <;> decide) | (intro m l h; cases h) | (intro p h; cases h)⟩,
   ⟨up, .udp 1 2, none, dgram 0x12 0 6 0 0 7 [], readDgram (dgram 0x12 0 6 0 0 7 []), sessUp,
     by and_intros <;> first | decide | rfl | (intro k; cases k <;> decide) | (intro m l h; cases h) | (intro p h; cases h)⟩,
   ⟨up, .udp 1 2, none, dgram 0x10 0 6 0x3000 1 7 [], readDgram (dgram 0x10 0 6 0x3000 1 7 []), sessUp,
     by and_intros <;> first | decide | rfl | (intro k; cases k <;> decide) | (intro m l h; cases h) | (intro p h; cases h)⟩,
   ⟨up, .udp 1 2, none, dgram 0x11 0 6 0x0001 1 7 [], readDgram (dgram 0x11 0 6 0x0001 1 7 []), sessUp, 6,
     by and_intros <;> first | decide | rfl | (intro k; cases k <;> decide) | (intro m l h; cases h) | (intro p h; cases h)⟩,
   ⟨up, .udp 1 2, none, dgram 0x11 0 6 0x1110 1 7 [], readDgram (dgram 0x11 0 6 0x1110 1 7 []), sessUp, (⟨0x1110, 0x1110, 1, 1, 3, 1, 2, false, false,
     0⟩ : ObjRow),
     by and_intros <;> first | decide | rfl | (intro k; cases k <;> decide) | (intro m l h; cases h) | (intro p h; cases h)⟩,
   ⟨up, .udp 1 2, none, dgram 0x11 0 6 0x1110 1 7 (be 2 1), readDgram (dgram 0x11 0 6 0x1110 1 7 (be 2 1)), sessUp, (⟨0x1110, 0x1110, 1, 1, 3, 1, 2,
     false, false, 0⟩ : ObjRow),
     by and_intros <;> first | decide | rfl | (intro k; cases k <;> decide) | (intro m l h; cases h) | (intro p h; cases h)⟩,
   ⟨up, .udp 1 2, none, dgram 0x11 0 6 0x1202 1 7 (be 4 1), readDgram (dgram 0x11 0 6 0x1202 1 7 (be 4 1)), sessUp, (⟨0x1202, 0x1202, 1, 3, 4, 1, 0,
     true, true, 0⟩ : ObjRow),
     by and_intros <;> first | decide | rfl | (intro k; cases k <;> decide) | (intro m l h; cases h) | (intro p h; cases h)⟩,
   ⟨up, .udp 1 2, none, dgram 0x10 0 6 0x3000 6 7 [], readDgram (dgram 0x10 0 6 0x3000 6 7 []), sessUp, (⟨0x3000, 0x3000, 6, 6, 4, 4, 0xFF, false,
     false, 0⟩ : ObjRow),
     by and_intros <;> first | decide | rfl | (intro k; cases k <;> decide) | (intro m l h; cases h) | (intro p h; cases h)⟩,
   ⟨(fun s => { s with pair := { s.pair with role := .standby } }) (up), .udp 1 2, none, dgram 0x10 0 6 0x6002 3 7 [],
     readDgram (dgram 0x10 0 6 0x6002 3 7 []), sessUp, (⟨0x6002, 0x6002, 3, 3, 3, 4, 0xFF, false, false, 0⟩ : ObjRow),
     by and_intros <;> first | decide | rfl | (intro k; cases k <;> decide) | (intro m l h; cases h) | (intro p h; cases h)⟩,
   ⟨up, .udp 1 2, none, dgram 0x10 0 6 0x6002 3 7 [], readDgram (dgram 0x10 0 6 0x6002 3 7 []), sessUp, (⟨0x6002, 0x6002, 3, 3, 3, 4, 0xFF, false,
     false, 0⟩ : ObjRow),
     by and_intros <;> first | decide | rfl | (intro k; cases k <;> decide) | (intro m l h; cases h) | (intro p h; cases h)⟩,
   ⟨up, .udp 1 2, none, dgram 0x20 0 6 0 0 7 (be 1 17 ++ be 3 0), readDgram (dgram 0x20 0 6 0 0 7 (be 1 17 ++ be 3 0)), sessUp,
     by and_intros <;> first | decide | rfl | (intro k; cases k <;> decide) | (intro m l h; cases h) | (intro p h; cases h)⟩,
   ⟨up, .udp 1 2, none, dgram 0x20 0 6 0 0 7 (be 1 16 ++ be 3 0), readDgram (dgram 0x20 0 6 0 0 7 (be 1 16 ++ be 3 0)), sessUp,
     by and_intros <;> first | decide | rfl | (intro k; cases k <;> decide) | (intro m l h; cases h) | (intro p h; cases h)⟩,
   ⟨up, .udp 1 2, none, dgram 0x11 0 6 0x3001 1 7 (be 1 0), readDgram (dgram 0x11 0 6 0x3001 1 7 (be 1 0)), sessUp, (⟨0x3001, 0x3001, 1, 3, 4, 3, 1,
     false, true, 0⟩ : ObjRow),
     by and_intros <;> first | decide | rfl | (intro k; cases k <;> decide) | (intro m l h; cases h) | (intro p h; cases h)⟩,
   ⟨up, .udp 1 2, none, dgram 0x11 0 6 0x3001 1 7 (be 4 1), readDgram (dgram 0x11 0 6 0x3001 1 7 (be 4 1)), sessUp, (⟨0x3001, 0x3001, 1, 3, 4, 3, 1,
     false, true, 0⟩ : ObjRow),
     by and_intros <;> first | decide | rfl | (intro k; cases k <;> decide) | (intro m l h; cases h) | (intro p h; cases h)⟩,
   ⟨up, .udp 1 2, none, dgram 0x30 0 6 0 0 7 (be 2 0x14 ++ be 2 0 ++ be 1 1 ++ be 1 0x10 ++ be 22 0),
     readDgram (dgram 0x30 0 6 0 0 7 (be 2 0x14 ++ be 2 0 ++ be 1 1 ++ be 1 0x10 ++ be 22 0)), sessUp,
     by and_intros <;> first | decide | rfl | (intro k; cases k <;> decide) | (intro m l h; cases h) | (intro p h; cases h)⟩,
   ⟨up, .udp 1 2, none, dgram 0x30 0 6 0 0 7 (be 2 0x15 ++ be 2 0 ++ be 1 1 ++ be 1 0x10 ++ be 22 0),
     readDgram (dgram 0x30 0 6 0 0 7 (be 2 0x15 ++ be 2 0 ++ be 1 1 ++ be 1 0x10 ++ be 22 0)), sessUp, ⟨0, false, []⟩,
     by and_intros <;> first | decide | rfl | (intro k; cases k <;> decide) | (intro m l h; cases h) | (intro p h; cases h)⟩,
   ⟨up, .udp 1 2, none, dgram 0x30 0 6 0 0 7 (be 2 0x15 ++ be 2 0 ++ be 1 1 ++ be 1 0x10 ++ be 22 0),
     readDgram (dgram 0x30 0 6 0 0 7 (be 2 0x15 ++ be 2 0 ++ be 1 1 ++ be 1 0x10 ++ be 22 0)), sessUp, ⟨1, false, []⟩,
     by and_intros <;> first | decide | rfl | (intro k; cases k <;> decide) | (intro m l h; cases h) | (intro p h; cases h)⟩,
   ⟨noPaths, .udp 1 2, none, dgram 0x30 0 6 0 0 7 (be 2 0x15 ++ be 2 0 ++ be 1 1 ++ be 1 0x10 ++ be 22 0),
     readDgram (dgram 0x30 0 6 0 0 7 (be 2 0x15 ++ be 2 0 ++ be 1 1 ++ be 1 0x10 ++ be 22 0)), sessUp,
     by and_intros <;> first | decide | rfl | (intro k; cases k <;> decide) | (intro m l h; cases h) | (intro p h; cases h)⟩,
   ⟨(fun s => { s with bus := { s.bus with chans := { s.bus.chans with a := { s.bus.chans.a with st := .listening } } } }) (up), .a, 0, by decide⟩,
   ⟨(fun s => modPort .a 0 (fun y => { y with closed := false }) s) ((fun s => modPort .a 0 (fun y => { y with integ := true }) s) (up)), .a, 0,
     frame0, by decide⟩,
   ⟨(fun s => { s with bus := { s.bus with dormant := true } }) (up), .a, 0, { frame0 with kind := 0x60, slot := 18, counter := 2000 }, 500000,
     by decide⟩⟩

/-- `FunctionsNeedTheirSession`. -/
theorem witness_FunctionsNeedTheirSession :
    (∃ s : State, ∃ n : Nat, ∃ v : Nat, ∃ w : Nat, ∃ x : Int, ∃ l : Lane, ∃ d : List Byte, ∃ i : StartIn, ∃ c : Instr, ∃ min : Level, ∃ key : Bool,
      (c, min, key) ∈ [(Instr.fieldBookRead n, Level.observer, false), (.fieldBookSeek n v, .observer, false), (.chestRead n true, .observer, false),
      (.chestRead n false, .observer, false), (.snapshotRead n, .observer, false), (.eventRecordRead n, .observer, false), (.forceRecordRead n,
      .observer, false), (.checkAlgorithmSelect n v, .observer, false), (.checkData n d, .observer, false), (.checkRunningValue n v, .observer,
      false), (.chestClear n v, .commissioner, true), (.offsetIncrement n x, .maintainer, false), (.rateIncrement n x, .maintainer, false),
      (.timeStep n x, .maintainer, false), (.acknowledgeRefusal n, .maintainer, false), (.withdrawLane n l, .maintainer, false), (.returnLane n l,
      .maintainer, false), (.resynchronise n, .maintainer, false), (.handOver n, .maintainer, false), (.coldHandOver n, .maintainer, false),
      (.powerVote n none v w, .operator, false), (.selfTestStop n v, .maintainer, false), (.takeHalfOut n v, .maintainer, false), (.restartHalf n v i,
      .maintainer, false), (.clockRestore n v, .maintainer, false), (.wakeRetry n v, .maintainer, false), (.startUpConfirmation n v, .maintainer,
      false), (.updateOpen n none, .operator, false), (.updateAbandon n none, .operator, false), (.bufferWindow n d, .maintainer, false),
      (.installRolling n, .maintainer, false), (.installAllLanes n, .maintainer, false), (.installStop n, .maintainer, false)] ∧
      (sessOf s n).opened = false) ∧
    (∃ s : State, ∃ n : Nat, ∃ v : Nat, ∃ w : Nat, ∃ x : Int, ∃ l : Lane, ∃ d : List Byte, ∃ i : StartIn, ∃ c : Instr, ∃ min : Level, ∃ key : Bool,
      (c, min, key) ∈ [(Instr.fieldBookRead n, Level.observer, false), (.fieldBookSeek n v, .observer, false), (.chestRead n true, .observer, false),
      (.chestRead n false, .observer, false), (.snapshotRead n, .observer, false), (.eventRecordRead n, .observer, false), (.forceRecordRead n,
      .observer, false), (.checkAlgorithmSelect n v, .observer, false), (.checkData n d, .observer, false), (.checkRunningValue n v, .observer,
      false), (.chestClear n v, .commissioner, true), (.offsetIncrement n x, .maintainer, false), (.rateIncrement n x, .maintainer, false),
      (.timeStep n x, .maintainer, false), (.acknowledgeRefusal n, .maintainer, false), (.withdrawLane n l, .maintainer, false), (.returnLane n l,
      .maintainer, false), (.resynchronise n, .maintainer, false), (.handOver n, .maintainer, false), (.coldHandOver n, .maintainer, false),
      (.powerVote n none v w, .operator, false), (.selfTestStop n v, .maintainer, false), (.takeHalfOut n v, .maintainer, false), (.restartHalf n v i,
      .maintainer, false), (.clockRestore n v, .maintainer, false), (.wakeRetry n v, .maintainer, false), (.startUpConfirmation n v, .maintainer,
      false), (.updateOpen n none, .operator, false), (.updateAbandon n none, .operator, false), (.bufferWindow n d, .maintainer, false),
      (.installRolling n, .maintainer, false), (.installAllLanes n, .maintainer, false), (.installStop n, .maintainer, false)] ∧
      (sessOf s n).opened = true ∧ levelRank (sessOf s n).level < levelRank min) ∧
    (∃ s : State, ∃ n : Nat, ∃ v : Nat, ∃ w : Nat, ∃ x : Int, ∃ l : Lane, ∃ d : List Byte, ∃ i : StartIn, ∃ c : Instr, ∃ min : Level, ∃ key : Bool,
      (c, min, key) ∈ [(Instr.fieldBookRead n, Level.observer, false), (.fieldBookSeek n v, .observer, false), (.chestRead n true, .observer, false),
      (.chestRead n false, .observer, false), (.snapshotRead n, .observer, false), (.eventRecordRead n, .observer, false), (.forceRecordRead n,
      .observer, false), (.checkAlgorithmSelect n v, .observer, false), (.checkData n d, .observer, false), (.checkRunningValue n v, .observer,
      false), (.chestClear n v, .commissioner, true), (.offsetIncrement n x, .maintainer, false), (.rateIncrement n x, .maintainer, false),
      (.timeStep n x, .maintainer, false), (.acknowledgeRefusal n, .maintainer, false), (.withdrawLane n l, .maintainer, false), (.returnLane n l,
      .maintainer, false), (.resynchronise n, .maintainer, false), (.handOver n, .maintainer, false), (.coldHandOver n, .maintainer, false),
      (.powerVote n none v w, .operator, false), (.selfTestStop n v, .maintainer, false), (.takeHalfOut n v, .maintainer, false), (.restartHalf n v i,
      .maintainer, false), (.clockRestore n v, .maintainer, false), (.wakeRetry n v, .maintainer, false), (.startUpConfirmation n v, .maintainer,
      false), (.updateOpen n none, .operator, false), (.updateAbandon n none, .operator, false), (.bufferWindow n d, .maintainer, false),
      (.installRolling n, .maintainer, false), (.installAllLanes n, .maintainer, false), (.installStop n, .maintainer, false)] ∧
      (sessOf s n).opened = true ∧ levelRank min ≤ levelRank (sessOf s n).level ∧ key = true ∧ s.lio.key = false) :=
  ⟨⟨(fun s => { s with dict := { s.dict with sessions := [] } }) (up), 0, 0, 0, 0, .a, [], start0, .chestClear 0 0, .commissioner, true,
    by refine ⟨by simp, ?_⟩; decide⟩,
   ⟨(fun s => { s with dict := { s.dict with sessions := [(0, { sessUp with level := .maintainer })] } }) (up), 0, 0, 0, 0, .a, [], start0,
     .chestClear 0 0, .commissioner, true,
     by refine ⟨by simp, ?_⟩; decide⟩,
   ⟨{ up with lio := LioSt.init }, 0, 0, 0, 0, .a, [], start0, .chestClear 0 0, .commissioner, true, by refine ⟨by simp, ?_⟩; decide⟩⟩

/-- `FieldBookCursor`. -/
theorem witness_FieldBookCursor :
    (∃ s : State, ∃ n : Nat, ∃ r, ∃ l, s.allows n .observer false ∧ s.book.recs = r :: l) ∧
    (∃ s : State, ∃ n : Nat, ∃ v : Nat, s.allows n .observer false ∧ 0 < v ∧ v < 0xFFFFFFFFFFFFFFFF) ∧
    (∃ s : State, ∃ n : Nat, ∃ t : Nat, ∃ a : List FbRec, ∃ r : FbRec, ∃ b : List FbRec, s.allows n .observer false ∧ s.book.recs = a ++ r :: b ∧
      (∀ x ∈ a, x.time < t) ∧ (t : Int) ≤ r.time) ∧
    (∃ s : State, ∃ n : Nat, ∃ t : Nat, s.allows n .observer false ∧ (∀ x ∈ s.book.recs, x.time < t)) :=
  ⟨⟨(fun s => { s with book := { s.book with recs := [book0 1 5] } }) (up), 0, book0 1 5, [], by decide⟩,
   ⟨up, 0, 0xFFFFFFFFFFFFFFFE, by decide⟩,
   ⟨(fun s => { s with book := { s.book with recs := [book0 1 9, book0 2 10, book0 3 8] } }) (up), 0, 10, [book0 1 9], book0 2 10, [book0 3 8],
     by decide⟩,
   ⟨up, 0, 0, by decide⟩⟩

/-- `RecordReading`. -/
theorem witness_RecordReading :
    (∃ s : State, ∃ n : Nat, s.allows n .observer false ∧ s.book.newest ≤ (sessOf s n).bookCur) ∧
    (∃ s : State, ∃ n : Nat, ∃ a : List FbRec, ∃ r : FbRec, ∃ b : List FbRec, s.allows n .observer false ∧ (sessOf s n).bookCur < s.book.newest ∧
      s.book.recs = a ++ r :: b ∧ (∀ x ∈ a, x.seq < (sessOf s n).bookCur) ∧ (sessOf s n).bookCur ≤ r.seq) ∧
    (∃ s : State, ∃ n : Nat, s.allows n .observer false ∧ (∀ x ∈ s.chest.recs, x.num < (sessOf s n).chestCur)) ∧
    (∃ s : State, ∃ n : Nat, ∃ a : List ChestRec, ∃ r : ChestRec, ∃ b : List ChestRec, s.allows n .observer false ∧ s.chest.recs = a ++ r :: b ∧
      (∀ x ∈ a, x.num < (sessOf s n).chestCur) ∧ (sessOf s n).chestCur ≤ r.num) ∧
    (∃ s : State, ∃ n : Nat, ∃ v : SEvent, s.allows n .observer false ∧ s.view.events[(sessOf s n).eventCur]? = some v) ∧
    (∃ s : State, ∃ n : Nat, s.allows n .observer false ∧ s.view.events.length ≤ (sessOf s n).eventCur) ∧
    (∃ s : State, ∃ n : Nat, ∃ f : Force, s.allows n .observer false ∧ s.view.prog.forces[(sessOf s n).forceCur]? = some f) ∧
    (∃ s : State, ∃ n : Nat, s.allows n .observer false ∧ s.view.prog.forces.length ≤ (sessOf s n).forceCur) ∧
    (∃ s : State, ∃ n : Nat, ∃ v : Nat, ∃ a : CrcAlg, s.allows n .observer false ∧ crcOf? v = some a) ∧
    (∃ s : State, ∃ n : Nat, ∃ v, s.allows n .observer false ∧ crcOf? v = none) ∧
    (∃ s : State, ∃ n : Nat, ∃ d : List Byte, s.allows n .observer false ∧ 1 ≤ d.length ∧ d.length ≤ 1024) ∧
    (∃ s : State, ∃ n : Nat, ∃ d : List Byte, s.allows n .observer false ∧ (d = [] ∨ 1024 < d.length)) ∧
    (∃ s : State, ∃ n : Nat, ∃ v, s.allows n .observer false ∧ v < 2 ^ (unitAlg (sessOf s n)).width) ∧
    (∃ s : State, ∃ n : Nat, ∃ v : Nat, s.allows n .observer false ∧ 2 ^ (unitAlg (sessOf s n)).width ≤ v) ∧
    (∃ s : State, ∃ n : Nat, ∃ v : Nat, s.allows n .commissioner true ∧ v ≠ 0xC1) ∧
    (∃ s : State, ∃ n : Nat, s.allows n .commissioner true ∧ s.chest.faulty = false) ∧
    (∃ s : State, (s.book.lostNew = 0 ∨ 4096 ≤ s.book.buf.length)) ∧
    (∃ s : State, 0 < s.book.lostNew ∧ s.book.buf.length < 4096) :=
  ⟨⟨(fun s => modSess 0 (fun y => { y with bookCur := s.book.newest }) s) (up), 0, by decide⟩,
   ⟨(fun s => { s with dict := { s.dict with sessions := [(0, { sessUp with bookCur := 2 })] } }) ((fun s => { s with book := { s.book with newest := 3 } }) ((fun s => { s with book := { s.book with recs := [book0 1 5, book0 2 5] } }) (up))),
     0, [book0 1 5], book0 2 5, [], by decide⟩,
   ⟨up, 0, by decide⟩,
   ⟨(fun s => { s with dict := { s.dict with sessions := [(0, { sessUp with chestCur := 2 })] } }) ((fun s => { s with chest := { s.chest with recs := [chest0 1, chest0 2] } }) (up)),
     0, [chest0 1], chest0 2, [], by decide⟩,
   ⟨(fun s => { s with view := { s.view with events := [sev0] } }) (up), 0, sev0, by decide⟩,
   ⟨(fun s => modSess 0 (fun y => { y with eventCur := s.view.events.length }) s) (up), 0, by decide⟩,
   ⟨(fun s => { s with view := { s.view with prog := { s.view.prog with forces := [⟨⟨1, 1⟩, [1#8], 0⟩] } } }) (up), 0, ⟨⟨1, 1⟩, [1#8], 0⟩, by decide⟩,
   ⟨(fun s => modSess 0 (fun y => { y with forceCur := s.view.prog.forces.length }) s) (up), 0, by decide⟩,
   ⟨up, 0, 4, crc64, by refine ⟨by decide, rfl⟩⟩,
   ⟨up, 0, 0, by decide⟩,
   ⟨up, 0, List.replicate 1024 0#8, by decide⟩,
   ⟨up, 0, [], by decide⟩,
   ⟨up, 0, 0, by decide⟩,
   ⟨up, 0, 2 ^ 64, by decide⟩,
   ⟨up, 0, 0, by decide⟩,
   ⟨(fun s => { s with chest := { s.chest with faulty := false } }) (up), 0, by decide⟩,
   ⟨(fun s => { s with book := { s.book with lostNew := 0 } }) (up), by decide⟩,
   ⟨(fun s => { s with book := { s.book with lostNew := (0 + 1) } }) (up), by decide⟩⟩

/-- `TestsAndAgeing`. -/
theorem witness_TestsAndAgeing :
    (∃ s : State, ∃ n : Nat, ∃ inst : Nat, s.allows n .maintainer false ∧ instKey? inst = none) ∧
    (∃ s : State, ∃ n : Nat, ∃ inst : Nat, ∃ target : Nat, ∃ k : Nat, ∃ c : Nat, s.allows n .maintainer false ∧ instKey? inst = some k ∧
      ((targetFits target k = false ∨ isolated s k = false) ∧ c = 0xA002 ∨ targetFits target k = true ∧ isolated s k = true ∧
      (testOf s k).ts = .running ∧ c = 0xA006 ∨ targetFits target k = true ∧ isolated s k = true ∧ (testOf s k).ts ≠ .running ∧
      s.test.budget < fixedSlice target ∧ c = 0xA003)) ∧
    (∃ s : State, ∃ n : Nat, ∃ inst : Nat, ∃ target : Nat, ∃ k : Nat, s.allows n .maintainer false ∧ instKey? inst = some k ∧
      targetFits target k = true ∧ isolated s k = true ∧ (testOf s k).ts ≠ .running ∧ fixedSlice target ≤ s.test.budget) ∧
    (∃ s : State, ∃ n : Nat, ∃ inst : Nat, s.allows n .maintainer false ∧ instKey? inst = none) ∧
    (∃ s : State, ∃ n : Nat, ∃ inst : Nat, ∃ k, s.allows n .maintainer false ∧ instKey? inst = some k ∧ (testOf s k).ts ≠ .running) ∧
    (∃ s : State, ∃ n : Nat, ∃ inst : Nat, ∃ k, s.allows n .maintainer false ∧ instKey? inst = some k ∧ (testOf s k).ts = .running ∧
      s.ns < (testOf s k).due) ∧
    (∃ s : State, ∃ n : Nat, ∃ inst : Nat, ∃ k, s.allows n .maintainer false ∧ instKey? inst = some k ∧ (testOf s k).ts = .running ∧
      (testOf s k).due ≤ s.ns) ∧
    (∃ s : State, ∃ n : Nat, ∃ inst : Nat, ∃ h : Half, s.allows n .maintainer false ∧ instHalf? inst = some h ∧
      (testOf s (3 + halfNo h)).ts = .running) ∧
    (∃ s : State, ∃ n : Nat, ∃ inst : Nat, ∃ h : Half, s.allows n .maintainer false ∧ instHalf? inst = some h ∧
      (testOf s (3 + halfNo h)).ts ≠ .running ∧ ((twoGet s.halves (otherHalf h)).inServ = false ∨ modeOf s ≠ 0 ∧ modeOf s ≠ 1)) ∧
    (∃ s : State, ∃ n : Nat, ∃ inst : Nat, ∃ h : Half, s.allows n .maintainer false ∧ instHalf? inst = some h ∧
      (testOf s (3 + halfNo h)).ts ≠ .running ∧ (twoGet s.halves (otherHalf h)).inServ = true ∧ (modeOf s = 0 ∨ modeOf s = 1)) ∧
    (∃ s : State, ∃ n : Nat, ∃ inst : Nat, ∃ h : Half, s.allows n .maintainer false ∧ instHalf? inst = some h ∧ (twoGet s.halves h).inServ = true) ∧
    (∃ s : State, ∃ n : Nat, ∃ inst : Nat, ∃ h : Half, s.allows n .maintainer false ∧ instHalf? inst = some h ∧ (twoGet s.halves h).inServ = false) ∧
    (∃ s : State, ∃ n : Nat, ∃ inst : Nat, s.allows n .maintainer false ∧ instHalf? inst = none) ∧
    (∃ inst : Nat, instKey? inst = none) ∧
    (∃ s : State, ∃ inst : Nat, ∃ k, instKey? inst = some k ∧ ((testOf s k).ts ≠ .running ∨ s.ns < (testOf s k).due)) ∧
    (∃ s : State, ∃ inst : Nat, ∃ k, instKey? inst = some k ∧ (testOf s k).ts = .running ∧ (testOf s k).due ≤ s.ns) ∧
    (∃ index : Nat, ∃ sub : Nat, ∃ margin : Nat, ageItemOk index sub = true ∧ margin ≤ 100) ∧
    (∃ s : State, ∃ l : Lane, timingMargin s l ≤ 10 ∧ (triGet s.lanes l).redclk = false) ∧
    (∃ s : State, ∃ l : Lane, (10 < timingMargin s l ∨ (triGet s.lanes l).redclk = true)) ∧
    (∃ s : State, ∃ l : Lane, 40 < (ageItemOf s (ageKey 0x3602 (laneNo l + 1))).margin) ∧
    (∃ s : State, ∃ l : Lane, (ageItemOf s (ageKey 0x3602 (laneNo l + 1))).margin ≤ 40 ∧ inVote s l = true) ∧
    (∃ s : State, ∃ l : Lane, slowImages < (triGet s.test.ist l).images ∧ (triGet s.test.ist l).slow = false) ∧
    (∃ s : State, ∃ l : Lane, ((triGet s.test.ist l).images ≤ slowImages ∨ (triGet s.test.ist l).slow = true)) ∧
    (∃ s : State, ∃ n : Nat, ∃ v : Nat, ∃ l : Lane, s.allows n .maintainer false ∧ laneOf? v = some l) ∧
    (∃ s : State, ∃ n : Nat, ∃ v : Nat, s.allows n .maintainer false ∧ laneOf? v = none) :=
  ⟨⟨up, 0, 99, by decide⟩,
   ⟨up, 0, 0, 0x10, 0, 0xA002, by decide⟩,
   ⟨(fun s => { s with lanes := { s.lanes with a := { s.lanes.a with ls := .withdrawn } } }) (up), 0, 0, 4, 0, by decide⟩,
   ⟨up, 0, 99, by decide⟩,
   ⟨up, 0, 0, 0, by decide⟩,
   ⟨(fun s => modTest 0 (fun y => { y with due := (s.ns + 1) }) s) ((fun s => modTest 0 (fun y => { y with ts := .running }) s) (up)), 0, 0, 0,
     by decide⟩,
   ⟨(fun s => { s with ns := ((testOf s 0).due) }) ((fun s => modTest 0 (fun y => { y with ts := .running }) s) (up)), 0, 0, 0, by decide⟩,
   ⟨(fun s => { s with test := { s.test with insts := [(3, { TestInst.init with ts := .running })] } }) (up), 0, 0x10, .a, by decide⟩,
   ⟨(fun s => { s with halves := { s.halves with b := { s.halves.b with inServ := false } } }) (up), 0, 0x10, .a, by decide⟩,
   ⟨up, 0, 0x10, .a, by decide⟩,
   ⟨up, 0, 0x10, .a, by decide⟩,
   ⟨(fun s => { s with halves := { s.halves with b := { s.halves.b with inServ := false } } }) (up), 0, 0x11, .b, by decide⟩,
   ⟨up, 0, 0, by decide⟩,
   ⟨99, by decide⟩,
   ⟨up, 0, 0, by decide⟩,
   ⟨(fun s => { s with ns := ((testOf s 0).due) }) ((fun s => modTest 0 (fun y => { y with ts := .running }) s) (up)), 0, 0, by decide⟩,
   ⟨0x3605, 1, 100, by decide⟩,
   ⟨(fun s => { s with age := { s.age with items := [(ageKey 0x3600 1, { AgeItem.fresh with margin := 10 })] } }) (up), .a, by decide⟩,
   ⟨(fun s => { s with age := { s.age with items := [(ageKey 0x3600 1, { AgeItem.fresh with margin := 11 })] } }) (up), .a, by decide⟩,
   ⟨(fun s => { s with age := { s.age with items := [(ageKey 0x3602 1, { AgeItem.fresh with margin := 41 })] } }) (up), .a, by decide⟩,
   ⟨(fun s => { s with age := { s.age with items := [(ageKey 0x3602 1, { AgeItem.fresh with margin := 40 })] } }) (up), .a, by decide⟩,
   ⟨(fun s => { s with test := { s.test with ist := triMod s.test.ist .a (fun y => { y with slow := false }) } }) ((fun s => { s with test := { s.test with ist := triMod s.test.ist .a (fun y => { y with images := (slowImages + 1) }) } }) (up)),
     .a, by decide⟩,
   ⟨up, .a, by decide⟩,
   ⟨up, 0, 2, .c, by decide⟩,
   ⟨up, 0, 3, by decide⟩⟩

/-- `VotesAndWakes`. -/
theorem witness_VotesAndWakes :
    (∃ s : State, ∃ n : Nat, ∃ v : Nat, s.allows n .operator false ∧ (v ≤ 3 ∨ v = 0xFF) ∧ s.power.moving = none) ∧
    (∃ s : State, ∃ n : Nat, ∃ v : Nat, s.allows n .operator false ∧ (v ≤ 3 ∨ v = 0xFF) ∧ s.power.moving.isSome = true) ∧
    (∃ s : State, ∃ n : Nat, ∃ sub, s.allows n .operator false ∧ (sub = 2 ∨ sub = 3)) ∧
    (∃ s : State, ∃ n : Nat, ∃ sub, s.allows n .operator false ∧ (sub = 4 ∨ sub = 5)) ∧
    (∃ s : State, ∃ n : Nat, ∃ v : Nat, s.allows n .operator false ∧ 3 < v ∧ v ≠ 0xFF) ∧
    (∃ s : State, ∃ v : Nat, ∃ sub : Nat, ∃ m : Nat, ∃ l : Level, 1 ≤ levelRank l ∧ (v ≤ 3 ∨ v = 0xFF) ∧ (sub = 2 ∧ m = s.datum.addr ∨ sub = 3 ∧
      m = s.pair.partnerAddr) ∧ m ≠ 0xFFFF ∧ s.power.moving = none) ∧
    (∃ s : State, (s.power.st = .off ∨ s.power.pfail ≠ 0 ∨ s.power.st = .failedWake)) ∧
    (∃ s : State, s.ns < s.power.wakeDrive) ∧
    (∃ s : State, ∃ c, (s.power.wakeTime = 0 ∨ c < s.power.wakeTime)) ∧
    (∃ s : State, s.power.st ≠ .off ∧ s.power.st ≠ .failedWake ∧ s.power.pfail = 0 ∧ s.power.wakeDrive ≤ s.ns ∧ s.power.moving = none) ∧
    (∃ s : State, ∃ m : PwState, s.power.st ≠ .off ∧ s.power.st ≠ .failedWake ∧ s.power.pfail = 0 ∧ s.power.wakeDrive ≤ s.ns ∧
      s.power.moving = some m ∧ pwCode s.power.st < pwCode m ∧ (s.power.step = 0 ∨ s.power.step = 7)) ∧
    (∃ s : State, ∃ c : Nat, s.power.st ≠ .off ∧ s.power.st ≠ .failedWake ∧ s.power.pfail = 0 ∧ s.power.wakeTime ≠ 0 ∧ s.power.wakeTime ≤ c ∧
      s.power.moving = none) ∧
    (∃ s : State, s.power.wakeUntil = none) ∧
    (∃ s : State, ∃ e : Nat, s.power.wakeUntil = some e ∧ s.ns < e) ∧
    (∃ s : State, ∃ e, s.power.wakeUntil = some e ∧ e ≤ s.ns ∧ s.power.moving = none) ∧
    (∃ s : State, ∃ e : Nat, s.power.wakeUntil = some e ∧ e ≤ s.ns ∧ s.power.moving.isSome = true) ∧
    (∃ s : State, ∃ h : Half, ∃ port : Nat,
      (s.bus.dormant = false ∨ s.power.st ≠ .dormant ∨ 2 ≤ port ∨ chanUp s h = false ∨ portLive s h port = false)) ∧
    (∃ s : State, ∃ h : Half, ∃ port : Nat, ∃ f : Frame, s.bus.dormant = true ∧ s.power.st = .dormant ∧ port < 2 ∧ chanUp s h = true ∧
      portLive s h port = true ∧ frameOk s port f 0x15 11 s.bus.counter 4 (f.flags < 2) = true ∧ f.body = [0#8, 0#8, 0#8, 0#8] ∧
      s.power.moving = none) ∧
    (∃ s : State, ∃ h : Half, ∃ port : Nat, ∃ f : Frame, s.bus.dormant = true ∧ s.power.st = .dormant ∧ port < 2 ∧ chanUp s h = true ∧
      portLive s h port = true ∧ (frameOk s port f 0x15 11 s.bus.counter 4 (f.flags < 2) = false ∨ f.body.length ≠ 4)) :=
  ⟨⟨(fun s => { s with power := { s.power with moving := none } }) (up), 0, 0, by decide⟩,
   ⟨(fun s => { s with power := { s.power with moving := some .quiet } }) (up), 0, 3, by decide⟩,
   ⟨up, 0, 2, by decide⟩,
   ⟨up, 0, 4, by decide⟩,
   ⟨up, 0, 4, by decide⟩,
   ⟨paired, 0, 3, 0x15, .operator, by decide⟩,
   ⟨(fun s => { s with power := { s.power with pfail := 1 } }) (up), by decide⟩,
   ⟨(fun s => { s with power := { s.power with wakeDrive := (s.ns + 1) } }) (up), by decide⟩,
   ⟨(fun s => { s with power := { s.power with wakeTime := 0 } }) (up), 0, by decide⟩,
   ⟨(fun s => { s with power := { s.power with moving := none } }) ((fun s => { s with ns := s.power.wakeDrive }) ((fun s => { s with power := { s.power with pfail := 0 } }) (up))),
     by decide⟩,
   ⟨(fun s => { s with power := { s.power with moving := some .dormant } }) (up), .dormant, by decide⟩,
   ⟨(fun s => { s with power := { s.power with wakeTime := 1000 } }) (up), 1000, by decide⟩,
   ⟨(fun s => { s with power := { s.power with wakeUntil := none } }) (up), by decide⟩,
   ⟨(fun s => { s with power := { s.power with wakeUntil := some 10000000001 } }) (up), 10000000001, by decide⟩,
   ⟨(fun s => { s with power := { s.power with moving := none } }) ((fun s => { s with ns := 0 }) ((fun s => { s with power := { s.power with wakeUntil := (some 0) } }) (up))),
     0, by decide⟩,
   ⟨(fun s => { s with power := { s.power with moving := some .run } }) ((fun s => { s with power := { s.power with wakeUntil := some 10000000000 } }) (up)),
     10000000000, by decide⟩,
   ⟨(fun s => { s with bus := { s.bus with dormant := false } }) (up), .a, 0, by decide⟩,
   ⟨(fun s => { s with power := { s.power with st := .dormant } }) ((fun s => { s with bus := { s.bus with dormant := true } }) (up)), .a, 1,
     { frame0 with kind := 0x15, slot := 11, src := 2, bodyLen := 4, body := [0#8, 0#8, 0#8, 0#8] }, by decide⟩,
   ⟨(fun s => { s with power := { s.power with st := .dormant } }) ((fun s => { s with bus := { s.bus with dormant := true } }) (up)), .a, 0, frame0,
     by decide⟩⟩

/-- `PowerTransitions`. -/
theorem witness_PowerTransitions :
    (∃ s : State, (s.power.moving.isSome = true ∨ s.power.pfail ≠ 0 ∨ s.power.st = .off ∨ s.power.st = .failedWake ∨ (s.power.step ≠ 0 ∧
      s.power.step ≠ 7) ∨ powerTarget s.power.votes = pwCode s.power.st ∨ s.upd.updating = true)) ∧
    (∃ s : State, s.power.moving = none ∧ s.power.pfail = 0 ∧ (s.power.step = 0 ∨ s.power.step = 7) ∧ s.upd.updating = false ∧ s.power.st = .run ∧
      1 ≤ powerTarget s.power.votes ∧ s.pair.role ≠ .active ∧ s.power.leavingFor = none) ∧
    (∃ s : State, s.power.moving = none ∧ s.power.pfail = 0 ∧ (s.power.step = 0 ∨ s.power.step = 7) ∧ s.upd.updating = false ∧ s.power.st = .quiet ∧
      2 ≤ powerTarget s.power.votes) ∧
    (∃ s : State, s.power.moving = none ∧ s.power.pfail = 0 ∧ (s.power.step = 0 ∨ s.power.step = 7) ∧ s.upd.updating = false ∧ s.power.st = .quiet ∧
      powerTarget s.power.votes = 0 ∧ s.vote.restrictive = false) ∧
    (∃ s : State, s.power.moving = none ∧ s.power.pfail = 0 ∧ (s.power.step = 0 ∨ s.power.step = 7) ∧ s.upd.updating = false ∧ s.power.st = .dormant ∧
      powerTarget s.power.votes ≤ 1) ∧
    (∃ s : State, s.power.moving = none ∧ s.power.pfail = 0 ∧ (s.power.step = 0 ∨ s.power.step = 7) ∧ s.upd.updating = false ∧ s.power.st = .dormant ∧
      powerTarget s.power.votes = 3) ∧
    (∃ s : State, s.power.moving = none ∧ s.power.pfail = 0 ∧ (s.power.step = 0 ∨ s.power.step = 7) ∧ s.upd.updating = false ∧ s.power.st = .standby ∧
      powerTarget s.power.votes ≤ 2) ∧
    (∃ s : State, ∃ w : PwState, s.power.moving = some w ∧ (moveDone s = false ∨ s.power.pfail ≠ 0)) ∧
    (∃ s : State, ∃ w, s.power.moving = some w ∧ moveDone s = true ∧ s.power.pfail = 0 ∧ (w = .run ∨ w = .quiet ∨ w = .dormant) ∧
      powerTarget s.power.votes = pwCode w) ∧
    (∃ s : State, s.power.moving = some .standby ∧ s.power.pfail = 0 ∧ powerTarget (s.power.votes.set 4 0xFF) = 3) :=
  ⟨⟨up, by decide⟩,
   ⟨(fun s => { s with power := { s.power with step := 7 } }) ((fun s => { s with power := { s.power with votes := [1, 0xFF, 0xFF, 0xFF, 0xFF] } }) (up)),
     by decide⟩,
   ⟨(fun s => { s with power := { s.power with votes := [2, 0xFF, 0xFF, 0xFF, 0xFF] } }) ((fun s => { s with power := { s.power with st := .quiet } }) (up)),
     by decide⟩,
   ⟨(fun s => { s with vote := { s.vote with restrictive := false } }) ((fun s => { s with power := { s.power with st := .quiet } }) ((fun s => { s with upd := { s.upd with updating := false } }) ((fun s => { s with power := { s.power with step := 0 } }) ((fun s => { s with power := { s.power with pfail := 0 } }) ((fun s => { s with power := { s.power with moving := none } }) (up)))))),
     by decide⟩,
   ⟨(fun s => { s with power := { s.power with st := .dormant } }) ((fun s => { s with upd := { s.upd with updating := false } }) ((fun s => { s with power := { s.power with step := 0 } }) ((fun s => { s with power := { s.power with pfail := 0 } }) ((fun s => { s with power := { s.power with moving := none } }) (up))))),
     by decide⟩,
   ⟨(fun s => { s with power := { s.power with votes := [3, 0xFF, 0xFF, 0xFF, 0xFF] } }) ((fun s => { s with power := { s.power with st := .dormant } }) (up)),
     by decide⟩,
   ⟨(fun s => { s with power := { s.power with st := .standby } }) ((fun s => { s with upd := { s.upd with updating := false } }) ((fun s => { s with power := { s.power with step := 0 } }) ((fun s => { s with power := { s.power with pfail := 0 } }) ((fun s => { s with power := { s.power with moving := none } }) (up))))),
     by decide⟩,
   ⟨(fun s => { s with power := { s.power with pfail := 1 } }) ((fun s => { s with power := { s.power with moving := some .quiet } }) (up)), .quiet,
     by decide⟩,
   ⟨(fun s => { s with power := { s.power with pfail := 0 } }) ((fun s => { s with power := { s.power with moving := (some .run) } }) (up)), .run,
     by decide⟩,
   ⟨(fun s => { s with power := { s.power with votes := [3, 0xFF, 0xFF, 0xFF, 0xFF] } }) ((fun s => { s with power := { s.power with moving := some .standby } }) (up)),
     by decide⟩⟩

/-- `SuppliesAndCell`. -/
theorem witness_SuppliesAndCell :
    (∃ n : Nat, ∃ mv : Int, (n = 0 ∨ 2 < n ∨ 16800 ≤ mv)) ∧
    (∃ n : Nat, ∃ mv : Int, (n = 0 ∨ 2 < n ∨ mv ≤ 34000)) ∧
    (∃ n : Nat, ∃ mv : Int, ∃ c : Instr, 1 ≤ n ∧ n ≤ 2 ∧ (c = .supplyLost n mv ∧ mv < 16800 ∨ c = .supplyOvervoltage n mv ∧ 34000 < mv)) ∧
    (∃ s : State, ∃ n : Nat, ∃ mv : Int, (n = 0 ∨ 2 < n ∨ mv ≤ 32000 ∨ 34000 < mv ∨ (supplyOf s n).over32 = true)) ∧
    (∃ s : State, ∃ n : Nat, ∃ mv : Int, 1 ≤ n ∧ n ≤ 2 ∧ 32000 < mv ∧ mv ≤ 34000 ∧ (supplyOf s n).over32 = false) ∧
    (∃ s : State, ∃ n : Nat, ∃ mv : Int, (n = 0 ∨ 2 < n ∨ mv < 16800 ∨ 33000 < mv ∨ (supplyOf s n).lost = false)) ∧
    (∃ s : State, ∃ n : Nat, ∃ mv : Int, 1 ≤ n ∧ n ≤ 2 ∧ 16800 ≤ mv ∧ mv ≤ 33000 ∧ (supplyOf s n).lost = true) ∧
    (∃ s : State, s.supply.pwr1.lost = true ∧ s.supply.pwr2.lost = true) ∧
    (∃ s : State, (s.supply.pwr1.lost = false ∨ s.supply.pwr2.lost = false)) ∧
    (∃ s : State, ∃ v : Int, ∃ w : Int, (s.power.pfail ≠ 0 ∨ s.power.st = .off ∨ (s.age.threshold : Int) ≤ v ∨ (s.age.threshold : Int) ≤ w)) ∧
    (∃ s : State, ∃ v : Int, ∃ w : Int, s.power.pfail = 0 ∧ s.power.st ≠ .off ∧ v < s.age.threshold ∧ w < s.age.threshold) ∧
    (∃ s : State, s.power.pfail ≠ 1) ∧
    (∃ s : State, s.power.pfail = 1) ∧
    (∃ s : State, (s.power.st = .off ∨ s.supply.pwr1.lost = true ∧ s.supply.pwr2.lost = true)) ∧
    (∃ s : State, s.power.st ≠ .off ∧ (s.supply.pwr1.lost = false ∨ s.supply.pwr2.lost = false)) ∧
    (∃ d : Nat, (d = 0 ∨ 5 < d)) ∧
    (∃ s : State, ∃ d : Nat, ∃ h, (d = 1 ∧ h = .a ∨ d = 2 ∧ h = .b) ∧ (twoGet s.halves h).inServ = true) ∧
    (∃ s : State, ∃ d : Nat, ∃ l : Lane, 3 ≤ d ∧ laneOf? (d - 3) = some l ∧ inVote s l = true) ∧
    (∃ s : State, s.pair.partnerAddr = 0xFFFF) ∧
    (∃ s : State, s.pair.partnerAddr ≠ 0xFFFF) :=
  ⟨⟨0, 0, by decide⟩,
   ⟨0, 0, by decide⟩,
   ⟨2, 16799, .supplyLost 2 16799, by decide⟩,
   ⟨up, 0, 0, by decide⟩,
   ⟨up, 2, 34000, by decide⟩,
   ⟨up, 0, 0, by decide⟩,
   ⟨(fun s => { s with supply := { s.supply with pwr2 := { s.supply.pwr2 with lost := true } } }) (up), 2, 16800, by decide⟩,
   ⟨(fun s => { s with supply := { s.supply with pwr2 := { s.supply.pwr2 with lost := true } } }) ((fun s => { s with supply := { s.supply with pwr1 := { s.supply.pwr1 with lost := true } } }) (up)),
     by decide⟩,
   ⟨(fun s => { s with supply := { s.supply with pwr1 := { s.supply.pwr1 with lost := false } } }) (up), by decide⟩,
   ⟨(fun s => { s with power := { s.power with pfail := (0 + 1) } }) (up), 0, 0, by decide⟩,
   ⟨(fun s => { s with age := { s.age with threshold := (0 + 1) } }) ((fun s => { s with age := { s.age with threshold := (0 + 1) } }) ((fun s => { s with power := { s.power with pfail := 0 } }) (up))),
     0, 0, by decide⟩,
   ⟨up, by decide⟩,
   ⟨(fun s => { s with power := { s.power with pfail := 1 } }) (up), by decide⟩,
   ⟨(fun s => { s with supply := { s.supply with pwr2 := { s.supply.pwr2 with lost := true } } }) ((fun s => { s with power := { s.power with st := .off } }) (up)),
     by decide⟩,
   ⟨(fun s => { s with supply := { s.supply with pwr1 := { s.supply.pwr1 with lost := false } } }) (up), by decide⟩,
   ⟨0, by decide⟩,
   ⟨(fun s => { s with halves := twoMod s.halves .a (fun y => { y with inServ := true }) }) (up), 1, .a, by decide⟩,
   ⟨up, 5, .c, by decide⟩,
   ⟨(fun s => { s with pair := { s.pair with partnerAddr := 0xFFFF } }) (up), by decide⟩,
   ⟨(fun s => { s with pair := { s.pair with partnerAddr := 1 } }) (up), by decide⟩⟩

/-- `StartUp`. -/
theorem witness_StartUp :
    (∃ s : State,
      (s.power.pfail ≠ 0 ∨ s.power.st = .failedWake ∨ s.power.st = .off ∨ s.vote.restrictive = true ∨ s.power.step = 0 ∨ s.power.step = 7 ∨ s.power.step = 1 ∧
      s.power.bankCharged = false ∨ (s.power.step = 5 ∨ s.power.step = 6) ∧ s.vote.matchAny = none)) ∧
    (∃ s : State, s.power.pfail = 0 ∧ s.power.st ≠ .failedWake ∧ s.power.st ≠ .off ∧ s.vote.restrictive = false ∧ s.power.step = 1 ∧
      s.power.bankCharged = true) ∧
    (∃ s : State, s.power.pfail = 0 ∧ s.power.st ≠ .failedWake ∧ s.power.st ≠ .off ∧ s.vote.restrictive = false ∧ s.power.step = 2 ∧
      (domainOf s 1).failed = true ∧ (domainOf s 2).failed = true) ∧
    (∃ s : State, ∃ h : Half, s.power.pfail = 0 ∧ s.power.st ≠ .failedWake ∧ s.power.st ≠ .off ∧ s.vote.restrictive = false ∧ s.power.step = 2 ∧
      (domainOf s (halfNo h + 1)).failed = false) ∧
    (∃ s : State, ∃ i : StartIn, ∃ h : Half, s.power.pfail = 0 ∧ s.power.st ≠ .failedWake ∧ s.power.st ≠ .off ∧ s.vote.restrictive = false ∧
      s.power.step = 3 ∧ (twoGet s.halves h).inServ = true ∧ (twoGet i.voter h).1 = 0 ∧ (twoGet i.vec h).isNone = true) ∧
    (∃ s : State, s.power.pfail = 0 ∧ s.power.st ≠ .failedWake ∧ s.power.st ≠ .off ∧ s.vote.restrictive = false ∧ s.power.step = 4) ∧
    (∃ s : State, s.power.pfail = 0 ∧ s.power.st ≠ .failedWake ∧ s.power.st ≠ .off ∧ s.vote.restrictive = false ∧ s.power.step = 5 ∧
      s.vote.matchAny.isSome = true) ∧
    (∃ s : State, s.power.pfail = 0 ∧ s.power.st ≠ .failedWake ∧ s.power.st ≠ .off ∧ s.vote.restrictive = false ∧ s.power.step = 6 ∧
      s.vote.matchAny.isSome = true ∧ s.power.moving = some .quiet) ∧
    (∃ s : State, s.power.pfail = 0 ∧ s.power.st ≠ .failedWake ∧ s.power.st ≠ .off ∧ s.vote.restrictive = false ∧ s.power.step = 6 ∧
      s.vote.matchAny.isSome = true ∧ s.power.moving ≠ some .quiet) ∧
    (∃ s : State, ∃ n : Nat, ∃ v : Nat, s.allows n .maintainer false ∧ v ≠ 0xA5) ∧
    (∃ s : State, ∃ n : Nat, s.allows n .maintainer false ∧ (s.power.step ≠ 7 ∨ s.power.st ≠ .run)) ∧
    (∃ s : State, ∃ n : Nat, s.allows n .maintainer false ∧ s.power.step = 7 ∧ s.power.st = .run) ∧
    (∃ s : State, ∃ n : Nat, ∃ v : Nat, s.allows n .maintainer false ∧ v ≠ 1) ∧
    (∃ s : State, ∃ n : Nat, s.allows n .maintainer false ∧ s.power.st ≠ .failedWake) ∧
    (∃ s : State, ∃ n : Nat, s.allows n .maintainer false ∧ s.power.st = .failedWake) ∧
    (∃ s : State, ∃ d : Nat, ∃ stp : Nat, (domainWaking s d = false ∨ (domainOf s d).failed = true ∨ stp = 0 ∨ 2 < stp)) ∧
    (∃ s : State, ∃ d : Nat, ∃ stp : Nat, domainWaking s d = true ∧ (domainOf s d).failed = false ∧ 1 ≤ stp ∧ stp ≤ 2 ∧ (domainOf s d).attempts < 3) ∧
    (∃ s : State, ∃ d : Nat, ∃ stp : Nat, domainWaking s d = true ∧ (domainOf s d).failed = false ∧ 1 ≤ stp ∧ stp ≤ 2 ∧ 3 ≤ (domainOf s d).attempts) ∧
    (∃ s : State, (s.lio.resetLevel = false ∨ s.ns < s.lio.resetSince + 20000000 ∨ s.lio.resetLowNs < 100000000)) ∧
    (∃ s : State, s.lio.resetLevel = true ∧ s.lio.resetSince + 20000000 ≤ s.ns ∧ 100000000 ≤ s.lio.resetLowNs) :=
  ⟨⟨(fun s => { s with vote := { s.vote with matchAny := none } }) ((fun s => { s with power := { s.power with bankCharged := false } }) ((fun s => { s with power := { s.power with pfail := (0 + 1) } }) (up))),
    by decide⟩,
   ⟨(fun s => { s with power := { s.power with bankCharged := true } }) ((fun s => { s with power := { s.power with step := 1 } }) ((fun s => { s with vote := { s.vote with restrictive := false } }) ((fun s => { s with power := { s.power with pfail := 0 } }) (up)))),
     by decide⟩,
   ⟨(fun s => { s with power := { s.power with domains := [(1, { step := 0, attempts := 3, alternate := false, failed := true }), (2, { step := 0, attempts := 3, alternate := false, failed := true })] } }) (starting 2),
     by decide⟩,
   ⟨starting 2, .a, by decide⟩,
   ⟨starting 3, start0, .a, by decide⟩,
   ⟨(fun s => { s with power := { s.power with step := 4 } }) ((fun s => { s with vote := { s.vote with restrictive := false } }) ((fun s => { s with power := { s.power with pfail := 0 } }) (up))),
     by decide⟩,
   ⟨(fun s => { s with vote := { s.vote with matchAny := some 100 } }) (starting 5), by decide⟩,
   ⟨(fun s => { s with power := { s.power with moving := some .quiet } }) ((fun s => { s with vote := { s.vote with matchAny := some 100 } }) (starting 6)),
     by decide⟩,
   ⟨(fun s => { s with vote := { s.vote with matchAny := some 100 } }) (starting 6), by decide⟩,
   ⟨up, 0, 0, by decide⟩,
   ⟨(fun s => { s with power := { s.power with step := (7 + 1) } }) (up), 0, by decide⟩,
   ⟨(fun s => { s with power := { s.power with st := .run } }) ((fun s => { s with power := { s.power with step := 7 } }) (up)), 0, by decide⟩,
   ⟨up, 0, 0, by decide⟩,
   ⟨up, 0, by decide⟩,
   ⟨(fun s => { s with power := { s.power with st := .failedWake } }) (up), 0, by decide⟩,
   ⟨up, 0, 0, by decide⟩,
   ⟨(fun s => { s with power := { s.power with domains := [(5, { step := 0, attempts := 2, alternate := false, failed := false })] } }) (starting 4),
     5, 2, by decide⟩,
   ⟨(fun s => { s with power := { s.power with domains := [(5, { step := 0, attempts := 3, alternate := false, failed := false })] } }) (starting 4),
     5, 1, by decide⟩,
   ⟨(fun s => { s with lio := { s.lio with resetLevel := false } }) (up), by decide⟩,
   ⟨(fun s => { s with lio := { s.lio with resetLowNs := 100000000 } }) ((fun s => { s with ns := (s.lio.resetSince + 20000000) }) ((fun s => { s with lio := { s.lio with resetLevel := true } }) (up))),
     by decide⟩⟩

/-- `ReceivingFirmware`. -/
theorem witness_ReceivingFirmware :
    (∃ s : State, ∃ n : Nat, ∃ d : List Byte, s.allows n .maintainer false ∧ (d = [] ∨ 1024 < d.length)) ∧
    (∃ s : State, ∃ n : Nat, ∃ d : List Byte, s.allows n .maintainer false ∧ d ≠ [] ∧ d.length ≤ 1024 ∧ 65536 < s.upd.bufOffset + d.length) ∧
    (∃ s : State, ∃ n : Nat, ∃ d : List Byte, s.allows n .maintainer false ∧ d ≠ [] ∧ d.length ≤ 1024 ∧ s.upd.bufOffset + d.length ≤ 65536) ∧
    (∃ s : State, ∃ n : Nat, ∃ via : Option Level, ∃ c, (via = none ∧ s.allows n .operator false ∨ ∃ l, via = some l ∧ 1 ≤ levelRank l) ∧
      (s.upd.accept = false ∧ c = 0xB012 ∨ s.upd.accept = true ∧ updateBusy s = true ∧ c = 0xB007 ∨ s.upd.accept = true ∧ updateBusy s = false ∧
      fwHeaderOk s.upd.buffer = false ∧ c = 0xB002 ∨ s.upd.accept = true ∧ updateBusy s = false ∧ fwHeaderOk s.upd.buffer = true ∧
      s.ident.loader < memNat s.upd.buffer 36 4 ∧ c = 0xB003 ∨ s.upd.accept = true ∧ updateBusy s = false ∧ fwHeaderOk s.upd.buffer = true ∧
      memNat s.upd.buffer 36 4 ≤ s.ident.loader ∧ vendorKey s s.upd.buffer = none ∧ c = 0xB004)) ∧
    (∃ s : State, ∃ n : Nat, ∃ via : Option Level, ∃ k : List Byte, ∃ c : Nat, (via = none ∧ s.allows n .operator false ∨ ∃ l, via = some l ∧
      1 ≤ levelRank l) ∧ s.upd.accept = true ∧ updateBusy s = false ∧ fwHeaderOk s.upd.buffer = true ∧ memNat s.upd.buffer 36 4 ≤ s.ident.loader ∧
      vendorKey s s.upd.buffer = some k ∧ (fwSigned k s.upd.buffer = false ∧ c = 0xB005 ∨ fwSigned k s.upd.buffer = true ∧
      memNat s.upd.buffer 8 4 < runningVersion s ∧ s.upd.rollback = false ∧ c = 0xB006)) ∧
    (fwSigned [1#8] updOpening.upd.buffer = true → (updOpening.allows 0 .operator false ∧ updOpening.upd.accept = true ∧
      updateBusy updOpening = false ∧ fwHeaderOk updOpening.upd.buffer = true ∧ memNat updOpening.upd.buffer 36 4 ≤ updOpening.ident.loader ∧
      vendorKey updOpening updOpening.upd.buffer = some [1#8] ∧ updOpening.upd.rollback = true)) ∧
    (∃ s : State, ∃ n : Nat, ∃ via : Option Level, ∃ i : Nat, ∃ crc : Nat, ∃ good : Bool, ∃ c : Nat, (via = none ∧ s.allows n .operator false ∨ ∃ l,
      via = some l ∧ 1 ≤ levelRank l) ∧ (s.upd.accept = false ∧ c = 0xB012 ∨ s.upd.accept = true ∧ s.upd.header = none ∧ c = 0xB008 ∨ (∃ h,
      s.upd.accept = true ∧ s.upd.header = some h ∧ (s.upd.upd = false ∨ s.upd.valid = true ∨ i ≠ s.upd.nextBlock ∨ h.blocks ≤ i)) ∧
      c = 0xB008 ∨ (∃ h, s.upd.accept = true ∧ s.upd.header = some h ∧ s.upd.upd = true ∧ s.upd.valid = false ∧ i = s.upd.nextBlock ∧ i < h.blocks ∧
      (crcOf crc32c (memReadAll s.upd.buffer 0 65536) ≠ crc ∨ good = false)) ∧ c = 0xB009)) ∧
    (∃ s : State, ∃ n : Nat, ∃ via : Option Level, ∃ i : Nat, ∃ h : FwHeader, (via = none ∧ s.allows n .operator false ∨ ∃ l, via = some l ∧
      1 ≤ levelRank l) ∧ s.upd.accept = true ∧ s.upd.header = some h ∧ s.upd.upd = true ∧ s.upd.valid = false ∧ i = s.upd.nextBlock ∧ i < h.blocks ∧
      i + 1 < h.blocks) ∧
    (∃ s : State, ∃ n : Nat, ∃ via : Option Level, ∃ i : Nat, ∃ h : FwHeader, ∃ m : Mem, (via = none ∧ s.allows n .operator false ∨ ∃ l,
      via = some l ∧ 1 ≤ levelRank l) ∧ s.upd.accept = true ∧ s.upd.header = some h ∧ s.upd.upd = true ∧ s.upd.valid = false ∧ i = s.upd.nextBlock ∧
      i < h.blocks ∧ i + 1 = h.blocks ∧ m = memWriteAll s.upd.newArea (i * 65536) (memReadAll s.upd.buffer 0 65536) ∧
      Config.shakeMem m h.length = h.digest ∧ (s.upd.auto = false ∨ h.version = runningVersion s)) ∧
    (∃ s : State, ∃ n : Nat, ∃ via : Option Level, ∃ i : Nat, ∃ h : FwHeader, ∃ m : Mem, (via = none ∧ s.allows n .operator false ∨ ∃ l,
      via = some l ∧ 1 ≤ levelRank l) ∧ s.upd.accept = true ∧ s.upd.header = some h ∧ s.upd.upd = true ∧ s.upd.valid = false ∧ i = s.upd.nextBlock ∧
      i < h.blocks ∧ i + 1 = h.blocks ∧ m = memWriteAll s.upd.newArea (i * 65536) (memReadAll s.upd.buffer 0 65536) ∧
      Config.shakeMem m h.length ≠ h.digest) ∧
    (∃ s : State, ∃ n : Nat, ∃ via : Option Level, (via = none ∧ s.allows n .operator false ∨ ∃ l, via = some l ∧ 1 ≤ levelRank l) ∧
      s.upd.accept = false) ∧
    (∃ s : State, ∃ n : Nat, ∃ via : Option Level, (via = none ∧ s.allows n .operator false ∨ ∃ l, via = some l ∧ 1 ≤ levelRank l) ∧
      s.upd.accept = true) ∧
    (∃ s : State, (s.upd.valid = false ∨ nextDown s = none)) ∧
    (∃ s : State, ∃ i : Nat, s.upd.valid = true ∧ nextDown s = some i) :=
  ⟨⟨up, 0, [], by decide⟩,
   ⟨(fun s => { s with upd := { s.upd with bufOffset := 64513 } }) (up), 0, List.replicate 1024 0#8, by decide⟩,
   ⟨(fun s => { s with upd := { s.upd with bufOffset := 64512 } }) (up), 0, List.replicate 1024 0#8, by decide⟩,
   ⟨(fun s => { s with ident := { s.ident with loader := (memNat s.upd.buffer 36 4) } }) ((fun s => { s with upd := { s.upd with accept := false } }) (up)),
     0, none, 0xB012, by decide⟩,
   ⟨updOpening, 0, none, [1#8], 0xB005, by and_intros <;> first | exact .inl (by decide) | decide | rfl⟩,
   (fun _ => by decide),
   ⟨up, 0, some .operator, 0, 0, true, 0xB008, by refine ⟨.inr ⟨.operator, rfl, by decide⟩, .inr (.inl (by decide))⟩⟩,
   ⟨updReceiving 0, 0, none, 0, fw0, by and_intros <;> first | exact .inl (by decide) | decide | rfl⟩,
   ⟨updLast (Config.shakeMem lastMem 131072), 0, none, 1, { fw0 with digest := Config.shakeMem lastMem 131072 }, lastMem,
     by and_intros <;> first | exact .inl rfl | exact .inl (by decide) | rfl | decide⟩,
   ⟨updLast (0#8 :: Config.shakeMem lastMem 131072), 0, none, 1, { fw0 with digest := 0#8 :: Config.shakeMem lastMem 131072 }, lastMem,
     by and_intros <;> first | exact .inl (by decide) | rfl | decide | exact (List.cons_ne_self _ _).symm⟩,
   ⟨(fun s => { s with upd := { s.upd with accept := false } }) (up), 0, none, by decide⟩,
   ⟨(fun s => { s with upd := { s.upd with accept := true } }) (up), 0, none, by decide⟩,
   ⟨(fun s => { s with upd := { s.upd with valid := false } }) (up), by decide⟩,
   ⟨(fun s => { s with datum := { s.datum with downstream := [0x15] } }) ((fun s => { s with upd := { s.upd with valid := true } }) (up)), 0,
     by decide⟩⟩

/-- `InstallingFirmware`. -/
theorem witness_InstallingFirmware :
    (∃ s : State, ∃ n : Nat, s.allows n .maintainer false ∧ rollingRefusal s ≠ 0) ∧
    (∃ s : State, ∃ n : Nat, s.allows n .maintainer false ∧ s.upd.valid = false) ∧
    (∃ s : State, ∃ n : Nat, s.allows n .maintainer false ∧ s.upd.valid = true ∧ s.upd.phase = .idle ∧ s.upd.updating = false ∧
      s.upd.newVersion = runningVersion s) ∧
    (∃ s : State, ∃ n : Nat, s.allows n .maintainer false ∧ s.upd.valid = true ∧ (s.upd.phase ≠ .idle ∨ s.upd.updating = true)) ∧
    (∃ s : State, ∃ n : Nat, s.allows n .maintainer false ∧ rollingRefusal s = 0) ∧
    (∃ s : State, ∃ n : Nat, s.allows n .maintainer false ∧ allLanesRefusal s ≠ 0) ∧
    (∃ s : State, ∃ n : Nat, s.allows n .maintainer false ∧ s.upd.valid = true ∧ s.upd.phase = .idle ∧ s.upd.updating = false ∧
      s.upd.newVersion ≠ runningVersion s ∧ s.pair.role ≠ .standby ∧ s.pair.formed = true ∧ s.pair.partner.heard = true ∧
      s.pair.partner.ready = true) ∧
    (∃ s : State, ∃ n : Nat, s.allows n .maintainer false ∧ s.upd.valid = true ∧ s.upd.phase = .idle ∧ s.upd.updating = false ∧
      s.upd.newVersion ≠ runningVersion s ∧ s.pair.role ≠ .standby ∧ s.pair.formed = false ∧ routesReleased s = false) ∧
    (∃ s : State, ∃ n : Nat, s.allows n .maintainer false ∧ allLanesRefusal s = 0) ∧
    (∃ s : State, ∃ n : Nat, s.allows n .maintainer false ∧ s.upd.action = 1 ∧ s.upd.phase ≠ .idle ∧ s.upd.phase ≠ .rollingBack) ∧
    (∃ s : State, ∃ n : Nat, s.allows n .maintainer false ∧ (s.upd.action ≠ 1 ∨ s.upd.phase = .idle ∨ s.upd.phase = .rollingBack)) ∧
    (∃ s : State, ∃ l : Lane, s.upd.updating = false ∧ (s.upd.lane ≠ laneNo l ∨ inVote s l = false)) ∧
    (∃ s : State, ∃ l : Lane, s.upd.updating = false ∧ s.upd.lane = laneNo l ∧ inVote s l = true ∧ s.upd.phase = .rejoining ∧
      s.upd.stopAsked = false) ∧
    (∃ s : State, ∃ l : Lane, s.upd.updating = true ∧ bit s.upd.doneL (laneNo l) = true) ∧
    (∃ s : State, ∃ l : Lane, s.upd.updating = true ∧ bit s.upd.doneL (laneNo l) = false ∧ s.upd.doneL ||| 2 ^ laneNo l ≠ 7) ∧
    (∃ s : State, ∃ l : Lane, s.upd.updating = true ∧ bit s.upd.doneL (laneNo l) = false ∧ s.upd.doneL ||| 2 ^ laneNo l = 7) :=
  ⟨⟨up, 0, by decide⟩,
   ⟨(fun s => { s with upd := { s.upd with valid := false } }) (up), 0, by decide⟩,
   ⟨(fun s => { s with upd := { s.upd with newVersion := (runningVersion s) } }) ((fun s => { s with upd := { s.upd with updating := false } }) ((fun s => { s with upd := { s.upd with phase := .idle } }) ((fun s => { s with upd := { s.upd with valid := true } }) (up)))),
     0, by decide⟩,
   ⟨(fun s => { s with upd := { s.upd with phase := .writing } }) ((fun s => { s with upd := { s.upd with valid := true } }) (up)), 0, by decide⟩,
   ⟨(fun s => { s with upd := { s.upd with header := some { fw0 with cclass := s.lanes.a.fwClass } } }) (updValid), 0, by decide⟩,
   ⟨up, 0, by decide⟩,
   ⟨(fun s => { s with pair := { s.pair with partner := { s.pair.partner with ready := true } } }) ((fun s => { s with pair := { s.pair with partner := { s.pair.partner with heard := true } } }) ((fun s => { s with pair := { s.pair with role := .active } }) ((fun s => { s with pair := { s.pair with formed := true } }) (updValid)))),
     0, by decide⟩,
   ⟨(fun s => { s with lanes := { s.lanes with a := { s.lanes.a with kernel := { s.lanes.a.kernel with routes := [(1, { RouteSt.init with state := .cleared })] } } } }) (updValid),
     0, by decide⟩,
   ⟨updValid, 0, by decide⟩,
   ⟨(fun s => { s with upd := { s.upd with phase := .writing } }) ((fun s => { s with upd := { s.upd with action := 1 } }) (up)), 0, by decide⟩,
   ⟨(fun s => { s with upd := { s.upd with action := (1 + 1) } }) (up), 0, by decide⟩,
   ⟨up, .b, by decide⟩,
   ⟨(fun s => { s with upd := { s.upd with stopAsked := false } }) ((fun s => { s with upd := { s.upd with phase := .rejoining } }) ((fun s => { s with upd := { s.upd with lane := (laneNo .a) } }) ((fun s => { s with upd := { s.upd with updating := false } }) (up)))),
     .a, by decide⟩,
   ⟨(fun s => { s with upd := { s.upd with doneL := 2 } }) ((fun s => { s with upd := { s.upd with updating := true } }) (up)), .b, by decide⟩,
   ⟨(fun s => { s with upd := { s.upd with updating := true } }) (up), .a, by decide⟩,
   ⟨(fun s => { s with upd := { s.upd with doneL := 5 } }) ((fun s => { s with upd := { s.upd with updating := true } }) (up)), .b, by decide⟩⟩

/-- `EventRaising`. -/
theorem witness_EventRaising :
    (∃ e : Nat, e < 96) :=
  ⟨0, by decide⟩

/-- `EveryCommandCompletes`. -/
theorem witness_EveryCommandCompletes :
    (∃ c : Instr, c.wf = true) :=
  ⟨.fieldBookSeek 0 1, by decide⟩

/-- `EnvelopesRoundTrip`. -/
theorem witness_EnvelopesRoundTrip :
    (∃ e : Envelope, ∃ r : Nat, e.tag < 2 ^ 16 ∧ e.seq < 2 ^ 32 ∧ e.stamp < 2 ^ 32 ∧ e.epoch < 2 ^ 16 ∧ e.kind < 2 ^ 8 ∧ e.payload.length < 2 ^ 16 ∧
      e.pair < 2 ^ 8 ∧ e.cv1 < 2 ^ 32 ∧ e.cv2 < 2 ^ 32 ∧ e.kind ≠ 0x95 ∧ e.flags = 0 ∧ 0 < r ∧ r < 2 ^ 24) ∧
    (∃ e : Envelope, e.tag < 2 ^ 16 ∧ e.seq < 2 ^ 32 ∧ e.stamp < 2 ^ 32 ∧ e.epoch < 2 ^ 16 ∧ e.kind < 2 ^ 8 ∧ e.payload.length < 2 ^ 16 ∧
      e.pair < 2 ^ 8 ∧ e.cv1 < 2 ^ 32 ∧ e.cv2 < 2 ^ 32 ∧ e.kind = 0x95 ∧ e.flags = 0 ∧ e.pair = 0 ∧ e.cv2 = 0) ∧
    (∃ e : Envelope, e.tag < 2 ^ 16 ∧ e.seq < 2 ^ 32 ∧ e.stamp < 2 ^ 32 ∧ e.epoch < 2 ^ 16 ∧ e.kind < 2 ^ 8 ∧ e.payload.length < 2 ^ 16 ∧
      e.pair < 2 ^ 8 ∧ e.cv1 < 2 ^ 32 ∧ e.cv2 < 2 ^ 32 ∧ 0 < e.flags ∧ e.flags < 2 ^ 8) ∧
    (∃ e : Envelope, ∃ tail : List Byte, e.tag < 2 ^ 16 ∧ e.seq < 2 ^ 32 ∧ e.stamp < 2 ^ 32 ∧ e.epoch < 2 ^ 16 ∧ e.kind < 2 ^ 8 ∧
      e.payload.length < 2 ^ 16 ∧ e.pair < 2 ^ 8 ∧ e.cv1 < 2 ^ 32 ∧ e.cv2 < 2 ^ 32 ∧ (tail.length ≠ (if e.kind = 0x95 then 4 else 12))) ∧
    (∃ t : Trans, 1 ≤ t.type ∧ t.type ≤ 5 ∧ t.tag < 2 ^ 8 ∧ t.init < 4 ∧ t.window < 16 ∧ t.offset < 2 ^ 16 ∧ t.length < 2 ^ 16 ∧ t.code < 2 ^ 16 ∧
      t.epoch < 2 ^ 16 ∧ (t.type ≠ 5 → t.code = 0) ∧ t.data.length = transData t.type t.length) :=
  ⟨⟨env1, 1, by decide⟩,
   ⟨(fun s => { s with cv2 := 0 }) ((fun s => { s with pair := 0 }) ((fun s => { s with flags := 0 }) ((fun s => { s with kind := 0x95 }) (env1)))),
     by decide⟩,
   ⟨(fun s => { s with flags := (0 + 1) }) (env1), by decide⟩,
   ⟨env1, [], by decide⟩,
   ⟨(fun s => { s with type := 1 }) (trans0), by decide⟩⟩

end Sys2Proof.Tests
end

section
/-! PROOFS. The invariant of the module: the state after reset has it, and every command keeps it (R22, R24, R42). -/

namespace Sys2Proof.Proofs

open Sys2Proof Sys2Proof.Machine Sys2Proof.Laws

/-- Every command, run from a sound state, answers a sound one when it answers a next state: one arm per command, by the rule
of its meaning. -/
theorem soundAfter_exec {s : State} (hs : s.sound) : ∀ c : Instr, soundAfter (exec c s)
  | .busCycleStart _ => keeps_execBusCycleStart hs
  | .evaluationOverrun _ _ => keeps_execEvaluationOverrun hs
  | .rateCorrection _ => keeps_execRateCorrection hs
  | .weakSynchronisation _ => keeps_execWeakSynchronisation hs
  | .syncFrame _ _ _ _ => keeps_execSyncFrame hs
  | .backOffEnd _ => keeps_execBackOffEnd hs
  | .coldStart _ _ _ _ _ => keeps_execColdStart hs
  | .listenTimeout _ => keeps_execListenTimeout hs
  | .counterRecordWrite _ => keeps_execCounterRecordWrite hs
  | .inputFrame _ _ _ => keeps_execInputFrame hs
  | .integrateFrame _ _ _ => keeps_execIntegrateFrame hs
  | .portClosedByCuts _ _ => keeps_execPortClosedByCuts hs
  | .linkUp _ _ => keeps_execLinkUp hs
  | .linkDown _ _ => keeps_execLinkDown hs
  | .delayResp _ _ _ _ => keeps_execDelayResp hs
  | .linkDelayRemeasure _ _ => keeps_execLinkDelayRemeasure hs
  | .portClose _ _ _ => keeps_execPortClose hs
  | .portRelease _ _ _ => keeps_execPortRelease hs
  | .measureLinkDelay _ _ _ => keeps_execMeasureLinkDelay hs
  | .portTableResend _ _ => keeps_execPortTableResend hs
  | .claimFrame _ _ _ => keeps_execClaimFrame hs
  | .serviceFrame _ _ _ _ => keeps_execServiceFrame hs
  | .wakeFrame _ _ _ => keeps_execWakeFrame hs
  | .modeRequest _ _ => keeps_execModeRequest hs
  | .modeAbort _ => keeps_execModeAbort hs
  | .checkpointReached => keeps_execCheckpointReached hs
  | .modeSwitch => keeps_execModeSwitch hs
  | .programCycleTick _ => keeps_execProgramCycleTick hs
  | .outputImage _ _ _ => keeps_execOutputImage hs
  | .voteDeadline _ => keeps_execVoteDeadline hs
  | .lateExclusion _ => keeps_execLateExclusion hs
  | .benchmarkMsg _ _ _ => keeps_execBenchmarkMsg hs
  | .comparatorLinkMessage _ _ => keeps_execComparatorLinkMessage hs
  | .memoryError _ _ => keeps_execMemoryError hs
  | .laneClockFault _ => keeps_execLaneClockFault hs
  | .laneSupplyFault _ => keeps_execLaneSupplyFault hs
  | .rejoinStart _ => keeps_execRejoinStart hs
  | .bootingDone _ _ _ _ => keeps_execBootingDone hs
  | .copyRoundEnd _ _ _ => keeps_execCopyRoundEnd hs
  | .finalRoundReceived _ => keeps_execFinalRoundReceived hs
  | .laneEntersVote _ => keeps_execLaneEntersVote hs
  | .rejoinTimeout _ => keeps_execRejoinTimeout hs
  | .withdrawLane _ _ => keeps_execWithdrawLane hs
  | .returnLane _ _ => keeps_execReturnLane hs
  | .cancelWithdrawal _ => keeps_execCancelWithdrawal hs
  | .withdrawalTakesEffect => keeps_execWithdrawalTakesEffect hs
  | .enterCommissioning _ => keeps_execEnterCommissioning hs
  | .leaveCommissioning _ => keeps_execLeaveCommissioning hs
  | .commissioningKeyInactive => keeps_execCommissioningKeyInactive hs
  | .debugHalt _ => keeps_execDebugHalt hs
  | .breakpointHit _ _ => keeps_execBreakpointHit hs
  | .debugResume _ => keeps_execDebugResume hs
  | .debugSingleStep _ => keeps_execDebugSingleStep hs
  | .debugMemoryWrite _ _ _ => keeps_execDebugMemoryWrite hs
  | .debugRegisterWrite _ _ _ => keeps_execDebugRegisterWrite hs
  | .instructionCountPublish _ => keeps_execInstructionCountPublish hs
  | .journalEntryApply _ _ => keeps_execJournalEntryApply hs
  | .graphScrub _ _ => keeps_execGraphScrub hs
  | .outputWithheldLCycles _ _ => keeps_execOutputWithheldLCycles hs
  | .clearAhead _ => keeps_execClearAhead hs
  | .setRoute _ => keeps_execSetRoute hs
  | .cancelRoute _ => keeps_execCancelRoute hs
  | .emergencyCancel _ => keeps_execEmergencyCancel hs
  | .pointMove _ => keeps_execPointMove hs
  | .holdExpired _ _ => keeps_execHoldExpired hs
  | .throwTimeout _ => keeps_execThrowTimeout hs
  | .lostCleared _ => keeps_execLostCleared hs
  | .boundaryConfirmationTimeout _ => keeps_execBoundaryConfirmationTimeout hs
  | .signalNotProven _ => keeps_execSignalNotProven hs
  | .sequenceRelease _ => keeps_execSequenceRelease hs
  | .clearFor _ => keeps_execClearFor hs
  | .elapsedEvent _ _ => keeps_execElapsedEvent hs
  | .releaseByDistance _ => keeps_execReleaseByDistance hs
  | .ghostTimeout _ => keeps_execGhostTimeout hs
  | .crossingClosingTimeout _ => keeps_execCrossingClosingTimeout hs
  | .crossingOpenSlow _ => keeps_execCrossingOpenSlow hs
  | .crossingRecovered _ => keeps_execCrossingRecovered hs
  | .keyTimerExpiry _ _ => keeps_execKeyTimerExpiry hs
  | .emergencyRelease _ _ => keeps_execEmergencyRelease hs
  | .emergencyReleaseEndAll _ => keeps_execEmergencyReleaseEndAll hs
  | .carrierConfirmed _ => keeps_execCarrierConfirmed hs
  | .carrierVanished _ => keeps_execCarrierVanished hs
  | .carrierContradict _ => keeps_execCarrierContradict hs
  | .lostSpanCleared _ => keeps_execLostSpanCleared hs
  | .vlTimerExpiry _ => keeps_execVlTimerExpiry hs
  | .programFaulted => keeps_execProgramFaulted hs
  | .progArm _ => keeps_execProgArm hs
  | .progAbort _ => keeps_execProgAbort hs
  | .progStop _ => keeps_execProgStop hs
  | .progStart _ => keeps_execProgStart hs
  | .onlineChangeSwitch => keeps_execOnlineChangeSwitch hs
  | .variableWrite _ _ _ _ => keeps_execVariableWrite hs
  | .forceSet _ _ _ _ => keeps_execForceSet hs
  | .forceRemove _ _ _ => keeps_execForceRemove hs
  | .forceRemoveAll _ => keeps_execForceRemoveAll hs
  | .programLoadOpen _ => keeps_execProgramLoadOpen hs
  | .programLoadWindow _ _ => keeps_execProgramLoadWindow hs
  | .programLoadEnd _ => keeps_execProgramLoadEnd hs
  | .programLoadAbandon _ => keeps_execProgramLoadAbandon hs
  | .programLoadChecked _ => keeps_execProgramLoadChecked hs
  | .loadOpen _ => keeps_execLoadOpen hs
  | .loadWindow _ _ => keeps_execLoadWindow hs
  | .loadEnd _ => keeps_execLoadEnd hs
  | .loadAbandon _ => keeps_execLoadAbandon hs
  | .loadChecked _ => keeps_execLoadChecked hs
  | .activateData _ => keeps_execActivateData hs
  | .withdrawActivation _ => keeps_execWithdrawActivation hs
  | .registerComposeKey _ _ => keeps_execRegisterComposeKey hs
  | .registerVerifyKey _ _ => keeps_execRegisterVerifyKey hs
  | .removeKey _ _ => keeps_execRemoveKey hs
  | .inputSupervisionFault _ _ _ _ _ => keeps_execInputSupervisionFault hs
  | .discrepancy _ _ => keeps_execDiscrepancy hs
  | .chattering _ _ => keeps_execChattering hs
  | .stuckInput _ _ => keeps_execStuckInput hs
  | .acknowledgePairs _ _ => keeps_execAcknowledgePairs hs
  | .acknowledgeOutputs _ _ => keeps_execAcknowledgeOutputs hs
  | .acknowledgeKey _ => keeps_execAcknowledgeKey hs
  | .switchTest _ _ _ _ _ => keeps_execSwitchTest hs
  | .darkTest _ _ => keeps_execDarkTest hs
  | .resetEdge => keeps_execResetEdge hs
  | .resetStuck => keeps_execResetStuck hs
  | .offsetIncrement _ _ => keeps_execOffsetIncrement hs
  | .rateIncrement _ _ => keeps_execRateIncrement hs
  | .timeStep _ _ => keeps_execTimeStep hs
  | .acknowledgeRefusal _ => keeps_execAcknowledgeRefusal hs
  | .ptpSync _ _ => keeps_execPtpSync hs
  | .announceMsg _ _ => keeps_execAnnounceMsg hs
  | .announceTimeout _ => keeps_execAnnounceTimeout hs
  | .leapSecond => keeps_execLeapSecond hs
  | .timedFrameLate => keeps_execTimedFrameLate hs
  | .launchMissed _ _ _ => keeps_execLaunchMissed hs
  | .cascadeEnvelope _ => keeps_execCascadeEnvelope hs
  | .anchorMsg _ => keeps_execAnchorMsg hs
  | .anchorSend _ _ => keeps_execAnchorSend hs
  | .referencePairUpdate _ _ _ => keeps_execReferencePairUpdate hs
  | .pathFault _ => keeps_execPathFault hs
  | .boardLinkUp _ _ _ _ => keeps_execBoardLinkUp hs
  | .heartbeatMsg _ _ => keeps_execHeartbeatMsg hs
  | .partnerLost => keeps_execPartnerLost hs
  | .shadowImage _ _ _ _ => keeps_execShadowImage hs
  | .shadowMissed _ => keeps_execShadowMissed hs
  | .benchmarkEnvelope _ => keeps_execBenchmarkEnvelope hs
  | .resynchronise _ => keeps_execResynchronise hs
  | .resyncComplete _ => keeps_execResyncComplete hs
  | .handOver _ => keeps_execHandOver hs
  | .coldHandOver _ => keeps_execColdHandOver hs
  | .handOverImage => keeps_execHandOverImage hs
  | .takeback => keeps_execTakeback hs
  | .reserveMsg _ => keeps_execReserveMsg hs
  | .reserveReply _ => keeps_execReserveReply hs
  | .timeFrame _ _ _ => keeps_execTimeFrame hs
  | .timeFrameSend _ => keeps_execTimeFrameSend hs
  | .datumDelayRequest _ => keeps_execDatumDelayRequest hs
  | .cycleReportSend => keeps_execCycleReportSend hs
  | .cycleReport _ => keeps_execCycleReport hs
  | .syncPulse => keeps_execSyncPulse hs
  | .syncEdge _ => keeps_execSyncEdge hs
  | .readReq _ => keeps_execReadReq hs
  | .readData _ => keeps_execReadData hs
  | .readDataDiscard _ => keeps_execReadDataDiscard hs
  | .bridgeWrite _ => keeps_execBridgeWrite hs
  | .writeDone _ => keeps_execWriteDone hs
  | .bridgeError _ => keeps_execBridgeError hs
  | .bridgeTimeout _ => keeps_execBridgeTimeout hs
  | .openSess _ _ _ => keeps_execOpenSess hs
  | .closeSess _ _ _ => keeps_execCloseSess hs
  | .statusReq _ _ _ => keeps_execStatusReq hs
  | .readObj _ _ _ => keeps_execReadObj hs
  | .writeObj _ _ _ => keeps_execWriteObj hs
  | .readClear _ _ _ => keeps_execReadClear hs
  | .describeObj _ _ _ => keeps_execDescribeObj hs
  | .eventRead _ _ _ => keeps_execEventRead hs
  | .proxyReq _ _ _ _ => keeps_execProxyReq hs
  | .eventPendingClear _ _ _ => keeps_execEventPendingClear hs
  | .sessionTimeout _ => keeps_execSessionTimeout hs
  | .lockoutEnd _ => keeps_execLockoutEnd hs
  | .networkSettingsApply => keeps_execNetworkSettingsApply hs
  | .fieldBookRead _ => keeps_execFieldBookRead hs
  | .fieldBookCursor _ _ => keeps_execFieldBookCursor hs
  | .fieldBookSeek _ _ => keeps_execFieldBookSeek hs
  | .recordsLostMarker => keeps_execRecordsLostMarker hs
  | .chestRead _ _ => keeps_execChestRead hs
  | .snapshotRead _ => keeps_execSnapshotRead hs
  | .eventRecordRead _ => keeps_execEventRecordRead hs
  | .forceRecordRead _ => keeps_execForceRecordRead hs
  | .chestClear _ _ => keeps_execChestClear hs
  | .checkAlgorithmSelect _ _ => keeps_execCheckAlgorithmSelect hs
  | .checkData _ _ => keeps_execCheckData hs
  | .checkRunningValue _ _ => keeps_execCheckRunningValue hs
  | .powerFail _ _ => keeps_execPowerFail hs
  | .powerFailWriteDone _ => keeps_execPowerFailWriteDone hs
  | .selfTestRun _ _ _ _ => keeps_execSelfTestRun hs
  | .selfTestStop _ _ => keeps_execSelfTestStop hs
  | .takeHalfOut _ _ => keeps_execTakeHalfOut hs
  | .restartHalf _ _ _ => keeps_execRestartHalf hs
  | .selfTestSlice _ _ => keeps_execSelfTestSlice hs
  | .rotationSlow _ => keeps_execRotationSlow hs
  | .ageingMeasurement _ _ _ => keeps_execAgeingMeasurement hs
  | .clockStep _ _ => keeps_execClockStep hs
  | .norRefresh _ _ => keeps_execNorRefresh hs
  | .clockRestore _ _ => keeps_execClockRestore hs
  | .forecastDay => keeps_execForecastDay hs
  | .powerVote _ _ _ _ => keeps_execPowerVote hs
  | .wakeRequest _ => keeps_execWakeRequest hs
  | .wakeHoldExpiry => keeps_execWakeHoldExpiry hs
  | .transitionStart => keeps_execTransitionStart hs
  | .transitionComplete => keeps_execTransitionComplete hs
  | .wakeStepTimeout _ _ => keeps_execWakeStepTimeout hs
  | .wakeRetry _ _ => keeps_execWakeRetry hs
  | .startUpStep _ => keeps_execStartUpStep hs
  | .startUpConfirmation _ _ => keeps_execStartUpConfirmation hs
  | .supplyLost _ _ => keeps_execSupplyLost hs
  | .supplyReturned _ _ => keeps_execSupplyReturned hs
  | .supplyOvervoltage _ _ => keeps_execSupplyOvervoltage hs
  | .backupCellMeasurement _ => keeps_execBackupCellMeasurement hs
  | .thermalShutdown _ => keeps_execThermalShutdown hs
  | .updateOpen _ _ => keeps_execUpdateOpen hs
  | .bufferWindow _ _ => keeps_execBufferWindow hs
  | .updateBlock _ _ _ _ _ => keeps_execUpdateBlock hs
  | .updateAbandon _ _ => keeps_execUpdateAbandon hs
  | .forwardImage _ => keeps_execForwardImage hs
  | .installRolling _ => keeps_execInstallRolling hs
  | .installAllLanes _ => keeps_execInstallAllLanes hs
  | .installStop _ => keeps_execInstallStop hs
  | .installLaneDone _ => keeps_execInstallLaneDone hs
  | .halfSupplyOrClock _ => keeps_execHalfSupplyOrClock hs
  | .maintenancePortLinkDown => keeps_execMaintenancePortLinkDown hs
  | .boardLinkBreak _ _ _ _ => keeps_execBoardLinkBreak hs
  | .rstuckClear => keeps_execRstuckClear hs
  | .overcurrent _ => keeps_execOvercurrent hs
  | .stuckOn _ => keeps_execStuckOn hs
  | .delayRequest _ _ _ => keeps_execDelayRequest hs
  | .delayResponse _ _ _ => keeps_execDelayResponse hs
  | .ptpDelayReq _ => keeps_execPtpDelayReq hs
  | .ptpDelayResp _ _ _ => keeps_execPtpDelayResp hs
  | .followUp _ => keeps_execFollowUp hs
  | .timeSourceLost => keeps_execTimeSourceLost hs
  | .compatibilityClassRead _ _ _ => keeps_execCompatibilityClassRead hs
  | .holdUpBankCharged => keeps_execHoldUpBankCharged hs
  | .supplyEnters32VBand _ _ => keeps_execSupplyEnters32VBand hs

/-- The invariant does not speak of the queue of commands. -/
theorem sound_withPending {s : State} (hs : s.sound) (q : List Instr) : State.sound { s with pending := q } := hs

/-- A step is the command at the front of the queue, or nothing. -/
theorem soundAfter_step {s : State} (hs : s.sound) : soundAfter (step s) := by
  unfold step
  cases s.pending with
  | nil => exact soundAfter_next hs
  | cons c rest => exact soundAfter_exec (sound_withPending hs rest) c

/-- A half as it is before its start-up tests is quiet (R42). -/
theorem quietHalf_init : quietHalf HalfSt.init TxSt.init := fun _ => ⟨rfl, rfl, rfl⟩

theorem memoriesWf_reset : State.reset.memoriesWf := ⟨rfl, rfl, rfl, rfl, rfl, rfl, rfl⟩

/-- At reset every queue and ring is empty. -/
theorem withinCapacity_reset : State.reset.withinCapacity :=
  ⟨fun _ h => absurd h List.not_mem_nil, fun _ h => absurd h List.not_mem_nil, Nat.zero_le _, Nat.zero_le _⟩

/-- Settles O3: memories and buffers are empty after reset, and both halves are as before their start-up tests. -/
theorem resetSound : Obligations.ResetSound :=
  ⟨memoriesWf_reset, withinCapacity_reset, quietHalf_init, quietHalf_init⟩

/-- Settles O4, command by command: each meaning keeps the invariant. -/
theorem stepKeepsSound : Obligations.StepKeepsSound :=
  fun _ t hs h => soundAfter_step hs t h

end Sys2Proof.Proofs
end

section
/-! PROOFS. The rows of Trestle: the permit word's cells, an evaluation that overruns, a half disabled, an output withheld
for L bus cycles (R25, R42, R259, R272, R281). -/

namespace Sys2Proof.Proofs

open Sys2Proof Sys2Proof.Machine Sys2Proof.Laws

/-! ## The cells of a permit word -/

/-- A number written with `n` base-4 digits, lowest first. -/
def quaternary (d : Nat → Nat) (n : Nat) : Nat := (List.range n).foldl (fun a i => a + d i * 4 ^ i) 0

theorem quaternary_succ (d : Nat → Nat) (n : Nat) : quaternary d (n + 1) = quaternary d n + d n * 4 ^ n := by
  simp [quaternary, List.range_succ]

theorem quaternary_lt {d : Nat → Nat} (hd : ∀ i, d i < 4) (n : Nat) : quaternary d n < 4 ^ n := by
  induction n with
  | zero => simp [quaternary]
  | succ n ih =>
    have h : d n * 4 ^ n ≤ 3 * 4 ^ n := Nat.mul_le_mul_right _ (by have := hd n; omega)
    rw [quaternary_succ, Nat.pow_succ]
    omega

/-- Each digit reads back. -/
theorem quaternary_digit {d : Nat → Nat} (hd : ∀ i, d i < 4) {n i : Nat} (hi : i < n) : quaternary d n / 4 ^ i % 4 = d i := by
  induction n with
  | zero => exact absurd hi (Nat.not_lt_zero i)
  | succ n ih =>
    rw [quaternary_succ]
    rcases Nat.lt_succ_iff_lt_or_eq.mp hi with h | rfl
    · have e : d n * 4 ^ n = 4 ^ i * (4 * (d n * 4 ^ (n - i - 1))) := by
        rw [show n = i + 1 + (n - i - 1) by omega, Nat.pow_add, Nat.pow_succ]
        simp only [show i + 1 + (n - i - 1) - i - 1 = n - i - 1 by omega]
        ring
      rw [e, Nat.add_mul_div_left _ _ (by positivity), Nat.add_mul_mod_self_left]
      exact ih h
    · rw [Nat.add_mul_div_right _ _ (by positivity), Nat.div_eq_of_lt (quaternary_lt hd i), Nat.zero_add,
        Nat.mod_eq_of_lt (hd i)]

/-- The value of one cell (R272): the phase value where permitted. -/
def cellValue (on : Nat → Bool) (counter w i : Nat) : Nat := if on (w * 16 + i) then (if counter % 2 = 0 then 1 else 2) else 0

theorem cellValue_lt (on : Nat → Bool) (counter w i : Nat) : cellValue on counter w i < 4 := by
  unfold cellValue
  split
  · split <;> decide
  · decide

theorem permitWord_eq (on : Nat → Bool) (counter w : Nat) :
    permitWord on counter w = quaternary (cellValue on counter w) 16 := by
  unfold permitWord quaternary cellValue
  congr 1
  funext a i
  split <;> simp

/-- A cell of a permit word holds nothing where its point is not permitted. -/
theorem permitWord_cell_off {on : Nat → Bool} {counter n : Nat} (h : on n = false) :
    permitWord on counter (n / 16) / 4 ^ (n % 16) % 4 = 0 := by
  rw [permitWord_eq, quaternary_digit (cellValue_lt on counter _) (Nat.mod_lt n (by decide)), cellValue,
    show n / 16 * 16 + n % 16 = n by omega, h]
  rfl

/-! ## An evaluation that overruns -/

/-- The outputs a half evaluates in the present bus cycle. -/
def halfOutputs (s : State) (h : Half) : List TOut :=
  trestleOutputs s.cfg (twoGet s.halves h).active ((twoGet s.halves h).active.bind (·.locals)) s.bus.counter

/-- The controller points of the outputs of one key. -/
def keyPoints (s : State) (h : Half) (key : Nat) : List Nat :=
  ((halfOutputs s h).filter (fun o => o.key = key)).flatMap (·.points)

/-- A permit word's cells with those of some points taken out. -/
def clearedWords (pts : List Nat) (port : Nat) (p : PermitWord) : List Nat :=
  (List.range p.words.length).map (fun w =>
    permitWord (fun i => bits (p.words.getD (i / 16) 0) (2 * (i % 16) + 1) (2 * (i % 16)) ≠ 0 && !pts.contains (port * 1024 + i))
      p.stamp w)

/-- A permit word with the cells of some points taken out. -/
def clearedWord (s : State) (h : Half) (pts : List Nat) (port : Nat) (p : PermitWord) : PermitWord :=
  { p with words := clearedWords pts port p, bytes := permitBytes s h port { p with words := clearedWords pts port p } }

/-- What an overrun leaves behind (R25, R259). -/
theorem evaluationOverrun_eq {s : State} {h : Half} {key : Nat} {d : Decision} (hin : (twoGet s.halves h).inServ = true)
    (hd : tabFind (twoGet s.tres h).decisions key = some d) :
    evaluationOverrun h key s = raiseEv 33 (halfNo h) { s with
      tres := twoMod s.tres h (fun y => { y with
        overran := true, decisions := tabPut y.decisions key ⟨0xFFFF, 0x10, true, false⟩ })
      tx := twoMod s.tx h (fun x => { x with
        permits := tabMap x.permits (clearedWord s h (keyPoints s h key))
        localPermit := if key / 2 ^ 24 = 5 then x.localPermit.set (key % 65536 - 1) false else x.localPermit }) } := by
  unfold evaluationOverrun
  rw [if_neg (by simp [hin, hd])]
  unfold clearedWord clearedWords keyPoints halfOutputs twoMod
  cases (twoGet s.halves h).active <;> rfl

/-- A cell of a point that was taken out holds nothing. -/
theorem clearedWords_cell {pts : List Nat} {x : Nat} (hx : x ∈ pts) (p : PermitWord)
    (hl : x % 1024 / 16 < (clearedWords pts (x / 1024) p).length) :
    (clearedWords pts (x / 1024) p).getD (x % 1024 / 16) 0 / 4 ^ (x % 16) % 4 = 0 := by
  rw [List.getD_eq_getElem _ _ hl]
  simp only [clearedWords, List.getElem_map, List.getElem_range]
  rw [show x % 16 = x % 1024 % 16 by omega]
  refine permitWord_cell_off ?_
  have e : x / 1024 * 1024 + x % 1024 = x := by omega
  simp [e, hx]

theorem mem_keyPoints {s : State} {h : Half} {o : TOut} (ho : o ∈ halfOutputs s h) {x : Nat} (hx : x ∈ o.points) :
    x ∈ keyPoints s h o.key :=
  List.mem_flatMap.mpr ⟨o, List.mem_filter.mpr ⟨ho, by simp⟩, hx⟩

/-! ## A half disabled -/

/-- A half in service that is disabled for one of the first eight causes (R42, Table 1.8): out of service, with nothing to
send, its channel silent; reports. -/
theorem disableHalf_reported {s : State} {h : Half} {cause : Nat} (kind : Nat) (detail : List Byte)
    (hin : (twoGet s.halves h).inServ = true) (hc : cause ≤ 8) :
    reported { s with
      halves := twoMod s.halves h (fun x => { x with
        inServ := false, reason := cause, voter := false, ingress := ⟨none, none, none⟩, bench := ⟨none, none, none⟩,
        active := none, next := none, decided := none })
      tres := twoMod s.tres h (fun y => { y with disReason := cause, decisions := [] })
      tx := twoPut s.tx h TxSt.init
      bus := { s.bus with chans := twoMod s.bus.chans h (fun c => { c with st := .off, starter := false, devs := [], k := 0, weakRun := 0 }) } }
      (disableHalf h cause kind detail s) := by
  unfold disableHalf
  rw [if_neg (by simp [hin])]
  simp only [if_pos hc]
  exact reported_trans (reported_chestWrite _ _ _ _ _) (reported_raiseRec _ _ _ _ _ _ _)

theorem disableHalf_raised {s : State} {h : Half} {cause : Nat} (kind : Nat) (detail : List Byte)
    (hin : (twoGet s.halves h).inServ = true) : (disableHalf h cause kind detail s).raised 32 := by
  unfold disableHalf
  rw [if_neg (by simp [hin])]
  exact raised_raiseRec (by decide)

/-- Reports leave the halves as they are. -/
theorem reported_halves {s t : State} (r : reported s t) : t.halves = s.halves := by rw [r.2]

/-! ## An output withheld for L bus cycles -/

theorem withheldLong_eq {s : State} {h : Half} {key n : Nat} {d : Decision}
    (hn : tabFind (twoGet s.tres h).withheldRun key = some n) (hl : s.bus.lCyc ≤ n)
    (hd : tabFind (twoGet s.tres h).decisions key = some d) (hc : d.cmd = true) (hp : d.permit = false) :
    withheldLong s h key = !(twoGet s.tres h).withheldTold.contains key := by
  simp [withheldLong, hn, hl, hd, hc, hp]

/-! ## The rows -/

/-- Settles O21, row by row. -/
theorem trestleRows : Obligations.TrestleRows := by
  refine ⟨fun s h key d hin hd => ?_, fun s h c r hin hc => ?_, fun _ _ => rfl, fun s h hin => ?_,
    fun s h key n d hn hl hd hc hp => ?_⟩
  · refine ⟨_, congrArg Host.Outcome.next (evaluationOverrun_eq hin hd), raised_raiseEv (by decide), ?_, ?_, ?_, ?_⟩
    · rw [raiseEv_tres, twoGet_mod]
    · intro o ho hk x hx w hw hlen
      simp only [raiseEv_tx, twoGet_mod, tabFind_map, Option.map_eq_some_iff] at hw
      obtain ⟨p, -, rfl⟩ := hw
      exact clearedWords_cell (hk ▸ mem_keyPoints ho hx) p hlen
    · exact told_trans (told_of_eq rfl rfl) (told_raiseEv _ _ _)
    · simp only [raiseEv_tres, raiseEv_tx, twoGet_mod]
      exact raiseEv_eq _ _ _
  · rcases hc with ⟨rfl, rfl⟩ | ⟨rfl, rfl⟩
    · refine ⟨disableHalf h 5 halfDisabled [] s, ?_, disableHalf_raised _ _ hin, disableHalf_reported _ _ hin (by decide)⟩
      simp [exec, execGraphScrub, hin]
    · refine ⟨disableHalf h 7 halfDisabled [] s, ?_, disableHalf_raised _ _ hin, disableHalf_reported _ _ hin (by decide)⟩
      simp [exec, execHalfSupplyOrClock, hin]
  · refine ⟨disableHalf h 7 halfDisabled [] s, ?_, ?_⟩
    · simp [exec, execHalfSupplyOrClock, hin]
    · rw [reported_halves (disableHalf_reported halfDisabled [] hin (by decide))]
      simp
  · simp only [exec, execOutputWithheldLCycles, withheldL, withheldLong_eq hn hl hd hc hp]
    cases (twoGet s.tres h).withheldTold.contains key <;> rfl

end Sys2Proof.Proofs
end

section
/-! PROOFS. Frames at a star port: INPUT and INTEGRATE (R24, R338, R350, R384, R387). -/

namespace Sys2Proof.Proofs

open Sys2Proof Sys2Proof.Machine Sys2Proof.Laws

/-! ## What a stamp and an event leave alone -/

theorem told_dict_modAddr {s t : State} (h : told s t) : t.dict.modAddr = s.dict.modAddr := by rw [h.2.1]

theorem inputChecks_congr {s t : State} (hc : t.cfg = s.cfg) (hd : told s t) (p c : Nat) (b : List Byte) :
    inputChecks t p c b = inputChecks s p c b := by
  unfold inputChecks inputCounts
  rw [hc, told_dict_modAddr hd]

/-- Event 38 of a controller changes its mark, event sources and session queues. -/
theorem envEvent_spec (p : Nat) (s : State) :
    envEvent p s = { s with env := (envEvent p s).env, ev := (envEvent p s).ev, dict := (envEvent p s).dict } ∧
      told s (envEvent p s) ∧ (envOf (envEvent p s) p).evtDone = true ∧
      ((envOf s p).evtDone = false → (envEvent p s).raised 38) := by
  unfold envEvent
  dsimp only
  split
  · rename_i h
    exact ⟨rfl, told_refl s, h, fun e => absurd h (by simp [e])⟩
  · exact ⟨raiseEv_eq _ _ _, told_trans (told_of_eq rfl rfl) (told_raiseEv _ _ _), by simp [envOf],
      fun _ => raised_raiseEv (by decide)⟩

@[simp] theorem envEvent_bus (p : Nat) (s : State) : (envEvent p s).bus = s.bus := by rw [(envEvent_spec p s).1]

theorem told_modPort (h : Half) (p : Nat) (f : PortSt → PortSt) (s : State) : told s (modPort h p f s) := told_of_eq rfl rfl

/-! ## INPUT -/

/-- The state once an INPUT frame is stamped. -/
def inputStamped (h : Half) (p : Nat) (s : State) : State :=
  stamp (txQueue h + 1) 1 (welongStamp s h (nextCounter s) 8 p true (s.bus.busNs + inputArrival)) s

theorem inputStamped_eq (h : Half) (p : Nat) (s : State) : inputStamped h p s = { s with
    time := (inputStamped h p s).time, ev := (inputStamped h p s).ev, dict := (inputStamped h p s).dict } := stamp_eq _ _ _ _

theorem told_inputStamped (h : Half) (p : Nat) (s : State) : told s (inputStamped h p s) := told_stamp _ _ _ _

@[simp] theorem inputStamped_bus (h : Half) (p : Nat) (s : State) : (inputStamped h p s).bus = s.bus := stamp_bus

@[simp] theorem inputStamped_cfg (h : Half) (p : Nat) (s : State) : (inputStamped h p s).cfg = s.cfg := stamp_cfg

@[simp] theorem portOf_inputStamped (h k : Half) (p q : Nat) (s : State) : portOf (inputStamped h p s) k q = portOf s k q :=
  portOf_bus _ _ (inputStamped_bus h p s)

/-- A port that shows the flags of an INPUT frame; a node that was not integrated is now, with its tables due and its
connection's base open. -/
def shownPort (modes : List Nat) (f : Frame) (x : PortSt) : PortSt := { x with
  integ := true, table := bit f.flags 1, ready := bit f.flags 2, readyMode := bits f.flags 5 3, rxFlags := f.flags
  tablesDue := if !x.integ then modes else x.tablesDue
  base := if !x.integ then { base := none, cand := 0, run := 0, candAt := 0 } else x.base }

section
variable {s : State} {h : Half} {p : Nat} {f : Frame}

/-- At a closed port a frame is cut (R349). -/
theorem inputFrame_closed (hu : chanUp s h = true) (hd : s.bus.dormant = false) (hl : portLive s h p = true)
    (hc : (portOf s h p).closed = true) :
    inputFrame h p f s = modPort h p (fun x => { x with cuts := sat 0xFFFFFFFF (x.cuts + 1) }) s := by
  unfold inputFrame
  rw [if_neg (by simp [hu, hd, hl]), if_pos hc]

/-- A frame that fails the form is discarded (R338). -/
theorem inputFrame_badForm (hu : chanUp s h = true) (hd : s.bus.dormant = false) (hl : portLive s h p = true)
    (hc : (portOf s h p).closed = false) (hf : frameOk s p f 0x20 8 (nextCounter s) 924 (f.flags < 64) = false) :
    inputFrame h p f s = Machine.discard h p s := by
  unfold inputFrame
  rw [if_neg (by simp [hu, hd, hl]), if_neg (by simp [hc])]
  simp only [hf, Bool.not_false, if_true]

/-- An INPUT frame of the right form is stamped; what follows depends on the checks of its envelope. -/
theorem inputFrame_form (hu : chanUp s h = true) (hd : s.bus.dormant = false) (hl : portLive s h p = true)
    (hc : (portOf s h p).closed = false) (hf : frameOk s p f 0x20 8 (nextCounter s) 924 (f.flags < 64) = true) :
    inputFrame h p f s =
      (let x := shownPort (allModes s) f (portOf s h p)
       let fail (y : PortSt) : State :=
         envEvent p (modPort h p (fun _ => { y with envFail := sat 0xFFFFFFFF (y.envFail + 1) }) (inputStamped h p s))
       if !inputChecks s p (nextCounter s) f.body then fail x
       else
         let b := baseCheck x.base (baseOf (field f.body 2 4) (field f.body 6 4)) (nextCounter s)
         if !b.1 then fail { x with base := b.2 }
         else modPort h p (fun _ => { x with
           base := b.2, rx := some (inputEnv p f.body), valid := sat 0xFFFFFFFF (x.valid + 1) }) (inputStamped h p s)) := by
  unfold inputFrame
  rw [if_neg (by simp [hu, hd, hl]), if_neg (by simp [hc])]
  simp only [hf, Bool.not_true, Bool.false_eq_true, if_false]
  rw [← inputChecks_congr (inputStamped_cfg h p s) (told_inputStamped h p s), ← portOf_inputStamped h h p p s,
    show allModes s = allModes (inputStamped h p s) by simp [allModes, modeRec]]
  rfl

/-- An envelope that passes every check is kept for the coming head (R384, R387). -/
theorem inputFrame_accepted (hu : chanUp s h = true) (hd : s.bus.dormant = false) (hl : portLive s h p = true)
    (hc : (portOf s h p).closed = false) (hf : frameOk s p f 0x20 8 (nextCounter s) 924 (f.flags < 64) = true)
    (hi : inputChecks s p (nextCounter s) f.body = true) (hg : (portOf s h p).integ = true)
    (hb : (portOf s h p).base.base = some (baseOf (field f.body 2 4) (field f.body 6 4))) :
    inputFrame h p f s = modPort h p (fun _ => { shownPort (allModes s) f (portOf s h p) with
      base := { (portOf s h p).base with run := 0 }
      rx := some (inputEnv p f.body), valid := sat 0xFFFFFFFF ((portOf s h p).valid + 1) }) (inputStamped h p s) := by
  have e : (shownPort (allModes s) f (portOf s h p)).base = (portOf s h p).base := by simp [shownPort, hg]
  rw [inputFrame_form hu hd hl hc hf]
  simp only [hi, e, baseCheck, hb, Bool.not_true, Bool.false_eq_true, if_false, if_true]
  rfl

/-- An envelope that fails its checks counts, with event 38 (R418). -/
theorem inputFrame_failed (hu : chanUp s h = true) (hd : s.bus.dormant = false) (hl : portLive s h p = true)
    (hc : (portOf s h p).closed = false) (hf : frameOk s p f 0x20 8 (nextCounter s) 924 (f.flags < 64) = true)
    (hi : inputChecks s p (nextCounter s) f.body = false) :
    inputFrame h p f s = envEvent p (modPort h p (fun _ => { shownPort (allModes s) f (portOf s h p) with
      envFail := sat 0xFFFFFFFF ((portOf s h p).envFail + 1) }) (inputStamped h p s)) := by
  rw [inputFrame_form hu hd hl hc hf]
  simp only [hi, Bool.not_false, if_true]
  rfl

end

/-! ## INTEGRATE -/

/-- The count of consecutive INTEGRATE frames with the present one (R350). -/
def integrateRun (s : State) (h : Half) (p : Nat) : Nat :=
  if (portOf s h p).integrateAt + 1 = nextCounter s then (portOf s h p).reopenRun + 1 else 1

section
variable {s : State} {h : Half} {p : Nat} {f : Frame}

theorem kind_of_frameOk {kind slot c m : Nat} {b : Bool} (hf : frameOk s p f kind slot c m b = true) : f.kind = kind := by
  simp only [frameOk, frameForm, Bool.and_eq_true, decide_eq_true_eq] at hf
  tauto

/-- An INTEGRATE frame at a closed port counts; the fourth in a row reopens the port unless a command holds it. -/
theorem integrateFrame_counts (hu : chanUp s h = true) (hl : portLive s h p = true) (hc : (portOf s h p).closed = true)
    (hf : frameOk s p f 0x12 8 (nextCounter s) 4 (f.flags < 2 && field f.body 0 4 = 0) = true) :
    integrateFrame h p f s =
      (let t := modPort h p (fun x => { x with reopenRun := integrateRun s h p, integrateAt := nextCounter s }) s
       if 4 ≤ integrateRun s h p && !(portOf s h p).cmdClosed then
         raiseEv (19 + halfNo h) p (modPort h p (fun x => { x with closed := false, reopenRun := 0, cutAt := [] }) t)
       else t) := by
  have hr : (if (portOf s h p).integrateAt + 1 = nextCounter s && (portOf s h p).reopenRun ≠ 0 then
      (portOf s h p).reopenRun + 1 else 1) = integrateRun s h p := by
    unfold integrateRun
    by_cases e : (portOf s h p).reopenRun = 0 <;> simp [e]
  unfold integrateFrame
  simp only [hf, hr]
  rw [if_neg (by simp [hu, hl, hc, kind_of_frameOk hf]), if_neg (by simp)]
  rfl

theorem integrateFrame_reopens (hu : chanUp s h = true) (hl : portLive s h p = true) (hc : (portOf s h p).closed = true)
    (hm : (portOf s h p).cmdClosed = false) (hr : 4 ≤ integrateRun s h p)
    (hf : frameOk s p f 0x12 8 (nextCounter s) 4 (f.flags < 2 && field f.body 0 4 = 0) = true) :
    integrateFrame h p f s = raiseEv (19 + halfNo h) p
      (modPort h p (fun x => { x with closed := false, reopenRun := 0, cutAt := [] })
        (modPort h p (fun x => { x with reopenRun := integrateRun s h p, integrateAt := nextCounter s }) s)) := by
  rw [integrateFrame_counts hu hl hc hf]
  exact if_pos (by simp [hr, hm])

theorem integrateFrame_waits (hu : chanUp s h = true) (hl : portLive s h p = true) (hc : (portOf s h p).closed = true)
    (hr : (portOf s h p).cmdClosed = true ∨ integrateRun s h p < 4)
    (hf : frameOk s p f 0x12 8 (nextCounter s) 4 (f.flags < 2 && field f.body 0 4 = 0) = true) :
    integrateFrame h p f s =
      modPort h p (fun x => { x with reopenRun := integrateRun s h p, integrateAt := nextCounter s }) s := by
  rw [integrateFrame_counts hu hl hc hf]
  refine if_neg ?_
  rcases hr with e | e
  · simp [e]
  · simp [Nat.not_le.mpr e]

end

theorem portEvent_lt (h : Half) : 19 + halfNo h < 96 := by cases h <;> decide

theorem portsKept_stamped {h : Half} {p : Nat} {f : PortSt → PortSt} {s t : State}
    (e : t.bus = (modPort h p f (inputStamped h p s)).bus) : portsKept h p s t :=
  portsKept_trans (portsKept_of_bus (inputStamped_bus h p s)) (portsKept_trans (portsKept_modPort h p f _) (portsKept_of_bus e))

/-- A port of a state whose bus is that of a state with one port replaced. -/
theorem portOf_replaced {h : Half} {p : Nat} {x : PortSt} {s t : State} (e : t.bus = (modPort h p (fun _ => x) s).bus) :
    portOf t h p = x := by
  rw [portOf_bus h p e, portOf_modPort]

/-- Settles O8: the branches of INPUT and INTEGRATE, each read off at the port and beside it. -/
theorem framesTakenIn : Obligations.FramesTakenIn := by
  refine ⟨fun s h p f hu hd hl hc hf hi hg hb => ?_, fun s h p f hu hd hl hc hf hi => ?_, fun s h p f hu hd hl hc hf => ?_,
    fun s h p f hu hd hl hc => ?_, fun s h p f hu hl hc hm ha hr hf => ?_, fun s h p f hu hl hc hr hf => ?_⟩
  · refine ⟨_, congrArg Host.Outcome.next (inputFrame_accepted hu hd hl hc hf hi hg hb), ?_⟩
    rw [portOf_modPort]
    refine ⟨rfl, rfl, rfl, rfl, rfl, rfl, rfl, by simp [shownPort, hg], ?_, portsKept_stamped rfl, ?_⟩
    · exact told_trans (told_inputStamped h p s) (told_modPort _ _ _ _)
    · rw [inputStamped_eq h p s]; rfl
  · obtain ⟨he, ht, hdone, hrise⟩ := envEvent_spec p (modPort h p (fun _ => { shownPort (allModes s) f (portOf s h p) with
      envFail := sat 0xFFFFFFFF ((portOf s h p).envFail + 1) }) (inputStamped h p s))
    refine ⟨_, congrArg Host.Outcome.next (inputFrame_failed hu hd hl hc hf hi), ?_⟩
    rw [portOf_replaced (envEvent_bus _ _)]
    refine ⟨rfl, rfl, rfl, rfl, fun hg => by simp [shownPort, hg, allModes], fun e => hrise ?_, hdone, ?_,
      portsKept_stamped (envEvent_bus _ _), ?_⟩
    · rw [← e, envOf, modPort_env, inputStamped_eq]; rfl
    · exact told_trans (told_trans (told_inputStamped h p s) (told_modPort _ _ _ _)) ht
    · rw [he, inputStamped_eq h p s]; rfl
  · refine ⟨_, congrArg Host.Outcome.next (inputFrame_badForm hu hd hl hc hf), discard_port h p s, fun e => ?_,
      told_discard h p s, portsKept_discard h p s, discard_eq h p s⟩
    simp only [Machine.discard, e, Bool.false_eq_true, if_false]
    exact raised_raiseEv (by decide)
  · exact ⟨_, congrArg Host.Outcome.next (inputFrame_closed hu hd hl hc), portOf_modPort h p _ s,
      portsKept_modPort h p _ s, rfl⟩
  · have hrun : 4 ≤ integrateRun s h p := by rw [integrateRun, if_pos ha]; omega
    refine ⟨_, congrArg Host.Outcome.next (integrateFrame_reopens hu hl hc hm hrun hf), ?_⟩
    rw [portOf_bus h p raiseEv_bus, portOf_modPort]
    refine ⟨rfl, rfl, raised_raiseEv (portEvent_lt h), told_trans (told_of_eq rfl rfl) (told_raiseEv _ _ _), ?_, rfl⟩
    exact portsKept_trans (portsKept_modPort _ _ _ _) (portsKept_trans (portsKept_modPort _ _ _ _) (portsKept_of_bus rfl))
  · have hrun : (portOf s h p).cmdClosed = true ∨ integrateRun s h p < 4 := by
      rcases hr with e | e | e
      · exact .inl e
      · exact .inr (by rw [integrateRun, if_neg e]; decide)
      · exact .inr (by unfold integrateRun; split <;> omega)
    exact ⟨_, congrArg Host.Outcome.next (integrateFrame_waits hu hl hc hrun hf), portOf_modPort h p _ s,
      portsKept_modPort h p _ s, rfl⟩

end Sys2Proof.Proofs
end

section
/-! PROOFS. Output images and benchmarks arriving, a half's vote at the deadline, the comparators' dispute (R32, R34, R209 to
R220). -/

namespace Sys2Proof.Proofs

open Sys2Proof Sys2Proof.Machine Sys2Proof.Laws

/-! ## Late deliveries -/

/-- A lane's late count at a half once its image is there or not (R214). -/
def lateLane (h : Half) (ps : List (Lane × OutputImage)) (l : Lane) (x : LaneSt) : LaneSt := { x with
  late := twoPut x.late h (if ps.any (fun p => p.1 = l) then 0 else sat 3 (twoGet x.lateWas h + 1)) }

/-- One lane's delivery counted. -/
def lateStep (h : Half) (ps : List (Lane × OutputImage)) (s : State) (l : Lane) : State :=
  if ps.any (fun p => p.1 = l) then { s with lanes := triMod s.lanes l (lateLane h ps l) }
  else raiseAt s.imageNo 4 (laneNo l) { s with lanes := triMod s.lanes l (lateLane h ps l) }

theorem countLate_eq_foldl (h : Half) (ps : List (Lane × OutputImage)) (s : State) :
    countLate h ps s = (lanesAt s h).foldl (lateStep h ps) s := rfl

theorem lateLane_idem (h : Half) (ps : List (Lane × OutputImage)) (l : Lane) (x : LaneSt) :
    lateLane h ps l (lateLane h ps l x) = lateLane h ps l x := by
  simp [lateLane]

@[simp] theorem lateStep_lanes (h : Half) (ps : List (Lane × OutputImage)) (s : State) (l : Lane) :
    (lateStep h ps s l).lanes = triMod s.lanes l (lateLane h ps l) := by
  unfold lateStep
  split <;> rfl

theorem lateStep_frame (h : Half) (ps : List (Lane × OutputImage)) (s : State) (l : Lane) :
    told s (lateStep h ps s l) ∧ lateStep h ps s l = { s with
      lanes := (lateStep h ps s l).lanes, ev := (lateStep h ps s l).ev, dict := (lateStep h ps s l).dict } := by
  unfold lateStep
  split
  · exact ⟨told_of_eq rfl rfl, rfl⟩
  · exact ⟨told_trans (told_of_eq rfl rfl) (told_raiseAt _ _ _ _), rfl⟩

theorem lateStep_raised {h : Half} {ps : List (Lane × OutputImage)} {s : State} {l : Lane} {e : Nat} (hr : s.raised e) :
    (lateStep h ps s l).raised e := by
  unfold lateStep
  split
  · exact hr
  · exact raised_mono hr

theorem lateFold_lanes (h : Half) (ps : List (Lane × OutputImage)) (ls : List Lane) : ∀ (s : State) (l : Lane),
    triGet (ls.foldl (lateStep h ps) s).lanes l =
      if l ∈ ls then lateLane h ps l (triGet s.lanes l) else triGet s.lanes l := by
  induction ls with
  | nil => intro s l; simp
  | cons k ls ih =>
    intro s l
    rw [List.foldl_cons, ih, lateStep_lanes]
    by_cases e : l = k
    · subst e
      simp [lateLane_idem]
    · rw [triGet_mod_other _ _ e]
      simp [e]

/-- A late delivery raises event 4. -/
theorem lateFold_raised {h : Half} {ps : List (Lane × OutputImage)} {l : Lane} (ha : ps.any (fun p => p.1 = l) = false)
    (ls : List Lane) : ∀ {s : State}, l ∈ ls → (ls.foldl (lateStep h ps) s).raised 4 := by
  induction ls with
  | nil => intro s hl; exact absurd hl List.not_mem_nil
  | cons k ls ih =>
    intro s hl
    rcases List.mem_cons.mp hl with rfl | hl
    · refine foldl_frame (P := fun t => t.raised 4) (fun _ _ hr => lateStep_raised hr) ls ?_
      simp only [lateStep, ha, Bool.false_eq_true, if_false]
      exact raised_raiseAt (by decide)
    · exact ih hl

/-- With every lane's image there nothing is raised. -/
theorem lateFold_allHere {h : Half} {ps : List (Lane × OutputImage)} (ls : List Lane) : ∀ {s : State},
    (∀ l ∈ ls, ps.any (fun p => p.1 = l) = true) →
    ls.foldl (lateStep h ps) s = { s with lanes := (ls.foldl (lateStep h ps) s).lanes } := by
  induction ls with
  | nil => intro s _; rfl
  | cons k ls ih =>
    intro s ha
    rw [List.foldl_cons, ih (fun l hl => ha l (List.mem_cons_of_mem _ hl))]
    simp only [lateStep, ha k List.mem_cons_self, if_true]

theorem countLate_lanes (h : Half) (ps : List (Lane × OutputImage)) (s : State) (l : Lane) :
    triGet (countLate h ps s).lanes l =
      if l ∈ lanesAt s h then lateLane h ps l (triGet s.lanes l) else triGet s.lanes l :=
  lateFold_lanes h ps _ s l

/-- Counting late deliveries leaves each lane's state as it is. -/
theorem countLate_ls (h : Half) (ps : List (Lane × OutputImage)) (s : State) (l : Lane) :
    (triGet (countLate h ps s).lanes l).ls = (triGet s.lanes l).ls := by
  rw [countLate_lanes]
  split <;> rfl

theorem countLate_frame (h : Half) (ps : List (Lane × OutputImage)) (s : State) :
    told s (countLate h ps s) ∧ countLate h ps s = { s with
      lanes := (countLate h ps s).lanes, ev := (countLate h ps s).ev, dict := (countLate h ps s).dict } := by
  rw [countLate_eq_foldl]
  refine foldl_frame (P := fun t => told s t ∧ t = { s with lanes := t.lanes, ev := t.ev, dict := t.dict })
    (fun t l ht => ?_) (lanesAt s h) ⟨told_refl s, rfl⟩
  obtain ⟨hs, he⟩ := lateStep_frame h ps t l
  refine ⟨told_trans ht.1 hs, ?_⟩
  rw [he, ht.2]

/-! ## What the decisions read -/

theorem rejoinUnderWay_congr {s t : State} (hl : ∀ l, (triGet t.lanes l).ls = (triGet s.lanes l).ls) :
    rejoinUnderWay t = rejoinUnderWay s := by
  simp [rejoinUnderWay, rejoining, hl]

theorem benchDue_congr {s t : State} (hl : ∀ l, (triGet t.lanes l).ls = (triGet s.lanes l).ls) (hi : t.imageNo = s.imageNo)
    (hv : t.vote = s.vote) (hp : t.power = s.power) (hc : t.comm = s.comm) : benchDue t = benchDue s := by
  simp [benchDue, matching, leavingNow, rejoinUnderWay_congr hl, hi, hv, hp, hc]

/-- Where no benchmark is due the comparators do nothing (R218). -/
theorem decideBench_notDue {s : State} {h : Half} (hb : benchDue s = false) : decideBench h s = s := by
  unfold decideBench
  exact if_pos (by simp [hb])

/-- With no verdict of the present image nothing is settled (R220). -/
theorem settleBench_undecided {s : State} (hd : ∀ k, decidedNow s k = none) : settleBench s = s := by
  unfold settleBench
  rw [hd .a, hd .b]
  split
  · rfl
  · cases cmpUp s .a <;> cases cmpUp s .b <;> rfl

/-- No lane is compared with the voted image (R235). -/
def noShadows (s : State) : Prop := ∀ l, (triGet s.lanes l).ls ≠ .catchingUp ∧ (triGet s.lanes l).ls ≠ .shadow

/-- The lanes' step of a comparison does nothing where no lane is compared. -/
theorem foldl_noShadows {s : State} (hs : noShadows s) (f : State → Lane → State) (ls : List Lane) :
    ls.foldl (fun s l => if (triGet s.lanes l).ls = .catchingUp || (triGet s.lanes l).ls = .shadow then f s l else s) s = s := by
  induction ls with
  | nil => rfl
  | cons k ls ih =>
    rw [List.foldl_cons, if_neg (by simp [hs k])]
    exact ih

theorem shadowCheck_noShadows {s : State} (hs : noShadows s) (h : Half) (o : OutputImage) : shadowCheck h o s = s :=
  foldl_noShadows hs _ _

theorem shadowBench_noShadows {s : State} (hs : noShadows s) : shadowBench s = s := by
  unfold shadowBench
  cases matchedDigest s with
  | none => rfl
  | some d => exact foldl_noShadows hs _ _

/-! ## The vote of a half -/

theorem lanesAt_length_le (s : State) (h : Half) : (lanesAt s h).length ≤ 3 := List.length_filter_le _ _

/-- A block in which the images agree with the first one. -/
theorem blockVerdict_agree {i : Nat} {p : Lane × OutputImage} {ps : List (Lane × OutputImage)}
    (hp : ∀ q ∈ ps, blockEq i p.2 q.2 = true) (hl : ps.length ≤ 2) : blockVerdict i (p :: ps) = .agree := by
  rcases ps with _ | ⟨q, _ | ⟨r, _ | ⟨_, _⟩⟩⟩
  · simp [blockVerdict]
  · simp [blockVerdict, hp q (by simp)]
  · simp [blockVerdict, hp q (by simp), hp r (by simp)]
  · simp at hl

/-- Where every block agrees no lane is named and no block differs. -/
theorem verdicts_agree {vs : List BlockVerdict} (hv : ∀ v ∈ vs, v = .agree) :
    allLanes.filter (fun l => vs.contains (.minority l)) = [] ∧ vs.contains .differ = false := by
  have hno : ∀ v, v ≠ .agree → vs.contains v = false := fun v hne =>
    Bool.eq_false_iff.mpr (fun hc => hne (hv v (List.contains_iff_mem.mp hc)))
  refine ⟨List.filter_eq_nil_iff.mpr (fun l _ => ?_), hno _ (by simp)⟩
  rw [hno _ (by simp)]
  decide

/-- Images that agree in every block name no lane and do not differ (R211). -/
theorem voteOf_agree {p : Lane × OutputImage} {ps : List (Lane × OutputImage)}
    (hp : ∀ q ∈ ps, ∀ i, i < 20 → blockEq i p.2 q.2 = true) (hl : ps.length ≤ 2) :
    (voteOf (p :: ps)).named = [] ∧ (voteOf (p :: ps)).differs = false := by
  refine verdicts_agree (fun v hv => ?_)
  obtain ⟨i, hi, rfl⟩ := List.mem_map.mp hv
  exact blockVerdict_agree (fun q hq => hp q hq i (List.mem_range.mp hi)) hl

/-- Where as many images are present as lanes are counted, every lane's is. -/
theorem present_of_all {s : State} {h : Half} (hl : (presentImages s h).length = (lanesAt s h).length) :
    ∀ l ∈ lanesAt s h, (presentImages s h).any (fun p => p.1 = l) = true := by
  intro l hm
  have hs := List.filterMap_length_eq_length.mp hl l hm
  obtain ⟨x, hx⟩ := Option.isSome_iff_exists.mp hs
  refine List.any_eq_true.mpr ⟨x, List.mem_filterMap.mpr ⟨l, hm, hx⟩, ?_⟩
  obtain ⟨o, -, rfl⟩ := Option.map_eq_some_iff.mp hx
  simp

/-- The state of a half's vote once deliveries are counted and the image is marked as voted. -/
def voteMarked (h : Half) (s : State) : State :=
  { countLate h (presentImages s h) s with
    halves := twoMod s.halves h (fun y => { y with votedImg := some s.imageNo, next := none }) }

theorem countLate_halves (h : Half) (ps : List (Lane × OutputImage)) (s : State) : (countLate h ps s).halves = s.halves := by
  rw [(countLate_frame h ps s).2]

theorem countLate_imageNo (h : Half) (ps : List (Lane × OutputImage)) (s : State) :
    (countLate h ps s).imageNo = s.imageNo := by
  rw [(countLate_frame h ps s).2]

section
variable {s : State} {h : Half}

/-- With fewer than two images present, in an image voted before, a half loads nothing (R213). -/
theorem voteHalf_short (hin : (twoGet s.halves h).inServ = true) (hv : (twoGet s.halves h).voter = true)
    (hn : (twoGet s.halves h).votedImg ≠ some s.imageNo) (hl : lanesAt s h ≠ []) (hi : imageVoted s = true)
    (hp : (presentImages s h).length < 2) : voteHalf h s = voteMarked h s := by
  unfold voteHalf voteMarked
  simp only [hi, Bool.not_true, Bool.false_and, Bool.false_eq_true, if_false, hp, if_true]
  rw [if_neg (by simp [hin, hv, hn, hl]), countLate_halves, countLate_imageNo]

/-- Images that agree, in an image voted before, are loaded (R34). -/
theorem voteHalf_agree {p : Lane × OutputImage} {ps : List (Lane × OutputImage)} (hin : (twoGet s.halves h).inServ = true)
    (hv : (twoGet s.halves h).voter = true) (hn : (twoGet s.halves h).votedImg ≠ some s.imageNo) (hi : imageVoted s = true)
    (he : presentImages s h = p :: ps) (hne : ps ≠ []) (hl : ps.length ≤ 2) (hls : lanesAt s h ≠ [])
    (hp : ∀ q ∈ ps, ∀ i, i < 20 → blockEq i p.2 q.2 = true) :
    voteHalf h s = shadowCheck h p.2 (loadNext h (votedFrom (p :: ps) s.imageNo) (voteMarked h s)) := by
  obtain ⟨hnamed, hdiff⟩ := voteOf_agree hp hl
  have h2 : 2 ≤ (p :: ps).length := by
    have := List.length_pos_iff.mpr hne
    simp only [List.length_cons]
    omega
  unfold voteHalf voteMarked
  rw [if_neg (by simp [hin, hv, hn, hls])]
  simp only [hi, he, hnamed, hdiff, h2, Bool.not_true, Bool.false_and, Bool.false_eq_true, if_false, Nat.not_lt.mpr h2,
    List.contains_nil, Bool.not_false, List.filter_true, List.length_nil, Nat.zero_le, decide_true, Bool.and_self,
    List.foldl_nil, countLate_halves, countLate_imageNo]

end

/-! ## What the vote's mark and the load leave alone -/

theorem voteMarked_frame (h : Half) (s : State) : told s (voteMarked h s) ∧ voteMarked h s = { s with
    halves := (voteMarked h s).halves, lanes := (voteMarked h s).lanes, ev := (voteMarked h s).ev,
    dict := (voteMarked h s).dict } := by
  obtain ⟨ht, he⟩ := countLate_frame h (presentImages s h) s
  exact ⟨told_congr ht rfl rfl rfl rfl, by rw [voteMarked, he]⟩

/-- With every lane's image there the mark raises nothing. -/
theorem voteMarked_allHere {s : State} {h : Half} (hl : (presentImages s h).length = (lanesAt s h).length) :
    voteMarked h s = { s with
      halves := twoMod s.halves h (fun y => { y with votedImg := some s.imageNo, next := none })
      lanes := (voteMarked h s).lanes } := by
  have e := lateFold_allHere (h := h) (s := s) _ (present_of_all hl)
  rw [← countLate_eq_foldl] at e
  rw [voteMarked, e]

theorem voteMarked_lanes (h : Half) (s : State) (l : Lane) : triGet (voteMarked h s).lanes l =
    if l ∈ lanesAt s h then lateLane h (presentImages s h) l (triGet s.lanes l) else triGet s.lanes l :=
  countLate_lanes h (presentImages s h) s l

theorem voteMarked_ls (h : Half) (s : State) (l : Lane) : (triGet (voteMarked h s).lanes l).ls = (triGet s.lanes l).ls :=
  countLate_ls h (presentImages s h) s l

/-- The states of the lanes, the verdicts and what says when a benchmark is due are as before. -/
structure SameDecisions (s t : State) : Prop where
  ls : ∀ l, (triGet t.lanes l).ls = (triGet s.lanes l).ls
  decided : ∀ k, (twoGet t.halves k).decided = (twoGet s.halves k).decided
  imageNo : t.imageNo = s.imageNo
  vote : t.vote = s.vote
  power : t.power = s.power
  comm : t.comm = s.comm

/-- The comparators do nothing where no benchmark is due and nothing is decided (R218, R220). -/
theorem comparators_idle {s t : State} (k : SameDecisions s t) (hb : benchDue s = false) (hd : ∀ k, decidedNow s k = none)
    (h : Half) : settleBench (decideBench h t) = t := by
  have hd' : ∀ j, decidedNow t j = none := by
    intro j
    have e := hd j
    unfold decidedNow at e ⊢
    rw [k.decided j, k.imageNo]
    exact e
  rw [decideBench_notDue ((benchDue_congr k.ls k.imageNo k.vote k.power k.comm).trans hb), settleBench_undecided hd']

theorem decided_twoMod {t : Two HalfSt} {h : Half} {f : HalfSt → HalfSt} (hf : ∀ y, (f y).decided = y.decided) (k : Half) :
    (twoGet (twoMod t h f) k).decided = (twoGet t k).decided := by
  by_cases e : k = h
  · subst e
    rw [twoGet_mod, hf]
  · rw [twoGet_mod_other _ _ e]

theorem voteMarked_sameDecisions (h : Half) (s : State) : SameDecisions s (voteMarked h s) where
  ls := voteMarked_ls h s
  decided := decided_twoMod (fun _ => rfl)
  imageNo := by rw [(voteMarked_frame h s).2]
  vote := by rw [(voteMarked_frame h s).2]
  power := by rw [(voteMarked_frame h s).2]
  comm := by rw [(voteMarked_frame h s).2]

/-- An image loaded by a module in control in the next program cycle (R34, R386). -/
theorem loadNext_active {s : State} {h : Half} {v : VotedImage} (ha : activeNext s = true) :
    loadNext h v s = { s with
      halves := twoMod s.halves h (fun x => { x with next := some v }), lio := { s.lio with localNext := v.locals }
      env := v.cmds.foldl (fun t c => tabMod t c.1 EnvPort.init (fun x =>
        { x with cmdBase := some c.2.block.base, cmdEpoch := c.2.block.epoch })) s.env } := by
  unfold loadNext
  rw [if_pos ha]
  rfl

theorem activeNext_voteMarked (h : Half) (s : State) : activeNext (voteMarked h s) = activeNext s := by
  rw [(voteMarked_frame h s).2]
  rfl

/-! ## Tables changed key by key -/

theorem tabGet_foldl_mod_absent {α β : Type} (g : β → α → α) (d : α) {n : Nat} (l : Tab β) :
    ∀ t : Tab α, n ∉ l.map (·.1) → tabGet (l.foldl (fun t c => tabMod t c.1 d (g c.2)) t) n d = tabGet t n d := by
  induction l with
  | nil => intro t _; rfl
  | cons c l ih =>
    intro t hn
    simp only [List.map_cons, List.mem_cons, not_or] at hn
    rw [List.foldl_cons, ih _ hn.2, tabGet_mod_other _ _ _ _ hn.1]

/-- Where the keys are distinct each key's value is changed once. -/
theorem tabGet_foldl_mod {α β : Type} (g : β → α → α) (d : α) {c : Nat × β} (l : Tab β) :
    ∀ t : Tab α, (l.map (·.1)).Nodup → c ∈ l →
      tabGet (l.foldl (fun t c => tabMod t c.1 d (g c.2)) t) c.1 d = g c.2 (tabGet t c.1 d) := by
  induction l with
  | nil => intro t _ hc; exact absurd hc List.not_mem_nil
  | cons e l ih =>
    intro t hn hc
    simp only [List.map_cons, List.nodup_cons] at hn
    rw [List.foldl_cons]
    rcases List.mem_cons.mp hc with rfl | hm
    · rw [tabGet_foldl_mod_absent g d l _ hn.1, tabGet_mod]
    · have hne : c.1 ≠ e.1 := fun h => hn.1 (h ▸ List.mem_map_of_mem hm)
      rw [ih _ hn.2 hm, tabGet_mod_other _ _ _ _ hne]

/-! ## Deliveries -/

section
variable {s : State} {l k : Lane} {h : Half}

/-- A lane's image in a half's ingress buffer. -/
def withIngress (l : Lane) (h : Half) (o : OutputImage) (s : State) : State := { s with
  halves := twoMod s.halves h (fun y => { y with ingress := triPut y.ingress l (some o) })
  vote := { s.vote with longest := max s.vote.longest ((s.ns - s.vote.tickNs) / 1000) } }

theorem allPresent_false (hk : inVoteAt s h k = true) (hp : presentAt s h k = none) : allPresent s h = false := by
  have hm : k ∈ lanesAt s h := List.mem_filter.mpr ⟨by cases k <;> simp [allLanes], hk⟩
  refine Bool.eq_false_iff.mpr (fun hc => ?_)
  simp only [allPresent, Bool.and_eq_true, List.all_eq_true] at hc
  have := hc.2 k hm
  rw [hp] at this
  exact absurd this (by decide)

theorem presentAt_withIngress (hkl : k ≠ l) (o : OutputImage) : presentAt (withIngress l h o s) h k = presentAt s h k := by
  have e : triGet (twoGet (withIngress l h o s).halves h).ingress k = triGet (twoGet s.halves h).ingress k := by
    simp [withIngress, triGet_put_other _ _ hkl]
  unfold presentAt
  rw [e]
  rfl

/-- A delivery is kept while another lane in vote is awaited (R209). -/
theorem outputArrives_awaiting {o : OutputImage} (hin : (twoGet s.halves h).inServ = true) (hd : delivers s h l = true)
    (ho : o.num = s.imageNo) (hv : (twoGet s.halves h).votedImg ≠ some s.imageNo) (hkl : k ≠ l)
    (hk : inVoteAt s h k = true) (hp : presentAt s h k = none) :
    outputArrives l h (some o) s = withIngress l h o s := by
  have hno : allPresent (withIngress l h o s) h = false :=
    allPresent_false (k := k) hk ((presentAt_withIngress hkl o).trans hp)
  unfold outputArrives
  dsimp only
  rw [if_neg (by simp [hin, hd, ho, hv])]
  exact if_neg (by rw [show State.mk .. = withIngress l h o s from rfl, hno]; decide)

/-- A lane's benchmark at a half. -/
def withBench (l : Lane) (h : Half) (d : List Byte) (s : State) : State :=
  { s with halves := twoMod s.halves h (fun y => { y with bench := triPut y.bench l (some (s.imageNo, d)) }) }

theorem benchOf_withBench (hkl : k ≠ l) (d : List Byte) : benchOf (withBench l h d s) h k = benchOf s h k := by
  have e : triGet (twoGet (withBench l h d s).halves h).bench k = triGet (twoGet s.halves h).bench k := by
    simp [withBench, triGet_put_other _ _ hkl]
  unfold benchOf
  rw [e]
  rfl

/-- A benchmark is kept while another lane's is awaited (R218). -/
theorem benchArrives_awaiting {d : List Byte} (hin : (twoGet s.halves h).inServ = true) (hd : delivers s h l = true)
    (hr : (triGet s.lanes l).ran = s.imageNo) (hb : benchDue s = true) (hl : d.length = 32) (hkl : k ≠ l)
    (hk : inVoteAt s h k = true) (hp : benchOf s h k = none) : benchArrives l h (some d) s = withBench l h d s := by
  have hm : k ∈ lanesAt (withBench l h d s) h := List.mem_filter.mpr ⟨by cases k <;> simp [allLanes], hk⟩
  have hno : (lanesAt (withBench l h d s) h).all (fun l' => (benchOf (withBench l h d s) h l').isSome) = false := by
    refine List.all_eq_false.mpr ⟨k, hm, ?_⟩
    rw [benchOf_withBench hkl, hp]
    decide
  unfold benchArrives
  rw [if_neg (by simp [hin, hd, hr, hb])]
  simp only [List.take_left' hl]
  exact if_neg (by rw [show State.mk .. = withBench l h d s from rfl, hno]; simp)

end

/-! ## The comparators' dispute -/

theorem decidedNow_image {s : State} {k : Half} {v : VerdictMsg} (hv : decidedNow s k = some v) : v.image = s.imageNo := by
  unfold decidedNow at hv
  split at hv
  · split at hv
    · rename_i e
      cases hv
      exact e
    · cases hv
  · cases hv

/-- A match applied where no withdrawal waits, commissioning mode is not being left and no lane is compared. -/
theorem applyVerdict_match {s : State} {v : VerdictMsg} (hv : v.verdict = .match_) (hp : s.vote.pendLane = none)
    (hl : leavingNow s = false) (hn : noShadows s) :
    ∃ m, applyVerdict v s = { s with vote := { s.vote with
      benchImage := v.image, lastVerdict := 0, prefixes := v.prefixes, matched := m, matchAny := some v.image } } := by
  unfold applyVerdict checkWithdrawal
  simp only [hv, hp, Option.isSome_none, Bool.false_and, Bool.false_eq_true, if_false]
  rw [shadowBench_noShadows, leaveDone]
  · exact ⟨_, if_neg (by simpa [leavingNow] using hl)⟩
  · exact hn

/-- The state of a dispute in which half B's comparator fails its stored vectors (R220). -/
def disputedB (s : State) : State := raiseAt s.imageNo 9 1 { s with
  halves := twoMod s.halves .b (fun y => { y with flagged := true, cmpVec := false })
  vote := { s.vote with disagree := sat 0xFFFFFFFF (s.vote.disagree + 1) } }

theorem linkMessage_disputedB {s : State} {v w : VerdictMsg} (ha : cmpUp s .a = true) (hb : cmpUp s .b = true)
    (hd : verdictDone s = false) (hv : decidedNow s .a = some v) (hw : decidedNow s .b = some w) (hne : v ≠ w) :
    linkMessage true false s = applyVerdict v (disputedB s) := by
  unfold linkMessage
  simp only [ha, hb, hd, hv, hw, Bool.not_false, Bool.and_self]
  rw [if_neg hne]
  rfl

/-! ## The rows -/

theorem execVoteDeadline_eq {s t : State} {h : Half} (hv : voteHalf h s = t) (k : SameDecisions s t)
    (hb : benchDue s = false) (hd : ∀ j, decidedNow s j = none) : exec (.voteDeadline h) s = .next t := by
  refine congrArg Host.Outcome.next ?_
  rw [hv, comparators_idle k hb hd]

/-- The state of a half that has loaded what its present images agree on (R34, R386). -/
def voteLoaded (h : Half) (v : VotedImage) (s : State) : State := { s with
  halves := twoMod s.halves h (fun y => { y with votedImg := some s.imageNo, next := some v })
  lanes := (voteMarked h s).lanes
  lio := { s.lio with localNext := v.locals }
  env := v.cmds.foldl (fun t c => tabMod t c.1 EnvPort.init (fun x =>
    { x with cmdBase := some c.2.block.base, cmdEpoch := c.2.block.epoch })) s.env }

theorem voteLoaded_sameDecisions (h : Half) (v : VotedImage) (s : State) : SameDecisions s (voteLoaded h v s) where
  ls := voteMarked_ls h s
  decided := decided_twoMod (fun _ => rfl)
  imageNo := rfl
  vote := rfl
  power := rfl
  comm := rfl

/-- With every lane's image there, a marked vote that loads leaves the loaded state. -/
theorem loadNext_voteMarked {s : State} {h : Half} (hl : (presentImages s h).length = (lanesAt s h).length)
    (ha : activeNext s = true) (v : VotedImage) : loadNext h v (voteMarked h s) = voteLoaded h v s := by
  rw [loadNext_active ((activeNext_voteMarked h s).trans ha), voteMarked_allHere hl]
  simp only [voteLoaded, twoMod_eq_put, twoGet_put, twoPut_put]

/-- The command connections of a voted image after its load (R386). -/
theorem cmdBase_voteLoaded {s : State} {h : Half} {p : Lane × OutputImage} {ps : List (Lane × OutputImage)} {n : Nat}
    (hn : (p.2.cmds.map (·.1)).Nodup) {c : Nat × CmdBlock} (hc : c ∈ p.2.cmds) :
    (envOf (voteLoaded h (votedFrom (p :: ps) n) s) c.1).cmdBase = some c.2.base := by
  have hm : (c.1, (⟨c.2, pairCode (p :: ps)⟩ : VotedCmd)) ∈ (votedFrom (p :: ps) n).cmds :=
    List.mem_map.mpr ⟨c, hc, rfl⟩
  have hk : ((votedFrom (p :: ps) n).cmds.map (·.1)).Nodup := by
    simpa [votedFrom, tabMap, Function.comp_def] using hn
  unfold envOf voteLoaded
  rw [tabGet_foldl_mod (fun (b : VotedCmd) (x : EnvPort) => { x with cmdBase := some b.block.base, cmdEpoch := b.block.epoch })
    EnvPort.init _ _ hk hm]

/-- Settles O14, row by row. -/
theorem halfVotes : Obligations.HalfVotes := by
  refine ⟨fun s l k h o hin hd ho hv hkl hk hp => ?_, fun s h p ps hin hv hn hi he hne hp hl ha hs hb hd => ?_,
    fun s h hin hv hn hl hp hi hb hd => ?_, fun s l k h d hin hd hr hb hl hkl hk hp => ?_,
    fun s v w ha hb hd hv hw hne hm hp hl hs => ?_⟩
  · exact congrArg Host.Outcome.next (outputArrives_awaiting hin hd ho hv hkl hk hp)
  · have hall : (presentImages s h).length = (lanesAt s h).length := by rw [he, ← hl]; rfl
    have hlen : ps.length ≤ 2 := by have := lanesAt_length_le s h; omega
    have hls : lanesAt s h ≠ [] := List.ne_nil_of_length_pos (by omega)
    have hvote : voteHalf h s = voteLoaded h (votedFrom (p :: ps) s.imageNo) s := by
      rw [voteHalf_agree hin hv hn hi he hne hlen hls hp, loadNext_voteMarked hall ha,
        shadowCheck_noShadows (fun l => by rw [(voteLoaded_sameDecisions h _ s).ls l]; exact hs l)]
    refine ⟨_, execVoteDeadline_eq hvote (voteLoaded_sameDecisions h _ s) hb hd, by simp [voteLoaded], rfl,
      fun l hm => ?_, fun l hm => ?_, by simp [voteLoaded], fun c hc hk => cmdBase_voteLoaded hk hc, rfl⟩
    · rw [voteLoaded, voteMarked_lanes, if_pos hm, lateLane, present_of_all hall l hm]
      rfl
    · rw [voteLoaded, voteMarked_lanes, if_neg hm]
  · obtain ⟨ht, hf⟩ := voteMarked_frame h s
    refine ⟨_, execVoteDeadline_eq (voteHalf_short hin hv hn hl hi hp) (voteMarked_sameDecisions h s) hb hd, rfl,
      fun l hm ha => ?_, ht, hf⟩
    have hno : (presentImages s h).any (fun p => p.1 = l) = false :=
      List.any_eq_false.mpr (fun p hp => by simpa using ha p hp)
    refine ⟨?_, lateFold_raised (s := s) hno _ hm⟩
    rw [voteMarked_lanes, if_pos hm, lateLane, hno]
    simp [sat]
  · exact congrArg Host.Outcome.next (benchArrives_awaiting hin hd hr hb hl hkl hk hp)
  · obtain ⟨m, e⟩ := applyVerdict_match (s := disputedB s) hm hp hl hs
    have himg := decidedNow_image hv
    refine ⟨_, congrArg Host.Outcome.next ((linkMessage_disputedB ha hb hd hv hw hne).trans e), ?_, rfl, rfl, rfl, himg,
      congrArg some himg, ?_, rfl⟩
    · exact raised_raiseAt (img := s.imageNo) (d := 1) (by decide)
    · exact told_trans (told_of_eq rfl rfl) (told_raiseAt s.imageNo 9 1 _)

end Sys2Proof.Proofs
end

section
/-! PROOFS. The refutation of O5: a tick that applies a wake retry restarts the module, and the image of that tick is gone. -/

namespace Sys2Proof.Proofs
open Sys2Proof.Machine

/-! ## A tick in Failed-wake that applies a wake retry -/

/-- Object 0x8004 sub 1 written with 1 (R609), waiting for the tick (R546). -/
def retryRequest : AtTick := { src := .udp 1 2, seq := 0, write := true, index := 0x8004, sub := 1, value := [1#8] }

/-- A module in Failed-wake with a tick due, half A in service with its channel synchronised, and one maintenance session whose
wake retry waits for that tick. -/
def failedWakeTick : State :=
  { State.reset with
    bus := { BusSt.init with tick := true, chans := ⟨{ ChanSt.init with st := .synchronised }, ChanSt.init⟩ }
    halves := ⟨{ HalfSt.init with inServ := true }, HalfSt.init⟩
    power := { PowerSt.init with st := .failedWake }
    dict := { DictSt.init with sessions := [(0, { Session.closed with opened := true, level := .maintainer, queue := [retryRequest] })] } }

/-- A tick of which the hardware reports nothing. -/
def quietTick : TickIn :=
  { copies := ⟨(false, false), (false, false), (false, false)⟩, times := ⟨PassTimes.zero, PassTimes.zero, PassTimes.zero⟩,
    ist := ⟨⟨0, 0, false, none⟩, ⟨0, 0, false, none⟩, ⟨0, 0, false, none⟩⟩, diverged := [] }

/-- The image number advances with the tick. -/
theorem imageNo_programCycleTick_failedWake : (programCycleTick quietTick failedWakeTick).imageNo = 1 := by decide

/-- The restart that the wake retry starts puts the empty image in the place of the one just latched. -/
theorem imageNum_programCycleTick_failedWake : (programCycleTick quietTick failedWakeTick).image.num = 0 := by decide

/-- Refutes O5: in the clause of a tick with an image. A wake retry applied at the tick (R546, R609) restarts the module in the
same tick, so the image at its end is the empty one and not the image of the new number. -/
theorem not_busCyclesAndTicks : ¬ Obligations.BusCyclesAndTicks := by
  unfold Obligations.BusCyclesAndTicks
  rintro ⟨-, -, -, tick⟩
  obtain ⟨t, ht, -, -, -, -, -, withImage⟩ := tick failedWakeTick quietTick rfl rfl
  obtain rfl : programCycleTick quietTick failedWakeTick = t := Host.Outcome.next.inj ht
  obtain ⟨-, hnum, -⟩ := withImage ⟨.a, by decide, by decide⟩ (by decide)
  rw [imageNum_programCycleTick_failedWake, imageNo_programCycleTick_failedWake] at hnum
  exact absurd hnum (by decide)

end Sys2Proof.Proofs
end

section
/-! PROOFS. The supplies: the inputs and their faults, the hold-up bank, a power fail and its write, the backup cell, a
regulator that shuts down, what the partner answers (R575, R576, R623, R631 to R636, R654). -/

namespace Sys2Proof.Proofs

open Sys2Proof Sys2Proof.Machine Sys2Proof.Laws

/-! ## The supply inputs -/

theorem supplyOf_modSupply {n : Nat} (hn : n = 1 ∨ n = 2) (f : SupplyIn → SupplyIn) (s : State) :
    supplyOf (modSupply n f s) n = f (supplyOf s n) := by
  rcases hn with rfl | rfl <;> rfl

theorem supplyOf_modSupply_other {n : Nat} (hn : n = 1 ∨ n = 2) (f : SupplyIn → SupplyIn) (s : State) :
    supplyOf (modSupply n f s) (3 - n) = supplyOf s (3 - n) := by
  rcases hn with rfl | rfl <;> rfl

/-- An input changed changes the supplies alone. -/
theorem modSupply_eq (n : Nat) (f : SupplyIn → SupplyIn) (s : State) :
    modSupply n f s = { s with supply := (modSupply n f s).supply } := by
  unfold modSupply
  split
  · rfl
  · split <;> rfl

theorem modSupply_power (n : Nat) (f : SupplyIn → SupplyIn) (s : State) : (modSupply n f s).power = s.power := by
  rw [modSupply_eq]

theorem modSupply_cfg (n : Nat) (f : SupplyIn → SupplyIn) (s : State) : (modSupply n f s).cfg = s.cfg := by
  rw [modSupply_eq]

theorem modSupply_lio (n : Nat) (f : SupplyIn → SupplyIn) (s : State) : (modSupply n f s).lio = s.lio := by
  rw [modSupply_eq]

theorem supplyOf_congr {s t : State} (h : t.supply = s.supply) (n : Nat) : supplyOf t n = supplyOf s n := by
  unfold supplyOf
  rw [h]

theorem supply_number {n : Nat} (h : 1 ≤ n) (h' : n ≤ 2) : n = 1 ∨ n = 2 := by omega

/-! ## A fault of a vital output -/

/-- The vital outputs of the station have changed, and reports. -/
def outputsReported (s t : State) : Prop := reported { s with lio := { s.lio with vos := t.lio.vos } } t

theorem outputsReported_refl (s : State) : outputsReported s s := reported_refl s

theorem outputsReported_trans {s t u : State} (h : outputsReported s t) (k : outputsReported t u) : outputsReported s u := by
  refine ⟨told_trans (told_congr h.1 rfl rfl rfl rfl) (told_congr k.1 rfl rfl rfl rfl), ?_⟩
  have e := k.2
  rw [h.2] at e
  exact e

theorem outputsReported_of_reported {s t : State} (h : reported s t) : outputsReported s t := by
  have e : t.lio = s.lio := by rw [h.2]
  unfold outputsReported
  rw [e]
  exact h

theorem outputsReported_modVo (n : Nat) (f : VoSt → VoSt) (s : State) : outputsReported s (modVo n f s) :=
  ⟨told_of_eq rfl rfl, rfl⟩

theorem outputsReported_supply {s t : State} (h : outputsReported s t) : t.supply = s.supply := by rw [h.2]

theorem outputsReported_cfg {s t : State} (h : outputsReported s t) : t.cfg = s.cfg := by rw [h.2]

theorem voOf_modVo (n m : Nat) (f : VoSt → VoSt) (s : State) :
    voOf (modVo n f s) m = if m = n then f (voOf s n) else voOf s m := by
  split
  · next e => rw [e]; exact tabGet_mod _ _ _ _
  · next e => exact tabGet_mod_other _ _ _ _ e

theorem voOf_reported {s t : State} (h : reported s t) (n : Nat) : voOf t n = voOf s n := by
  unfold voOf
  rw [h.2]

/-- Outputs switched off keep their faults, and what pends stays. -/
structure FaultsKept (s t : State) : Prop where
  outputs : outputsReported s t
  code : ∀ m, (voOf s m).ocode ≠ .none → (voOf t m).ocode ≠ .none
  pend : ∀ e, s.raised e → t.raised e

theorem FaultsKept.refl (s : State) : FaultsKept s s := ⟨outputsReported_refl s, fun _ h => h, fun _ h => h⟩

theorem FaultsKept.trans {s t u : State} (h : FaultsKept s t) (k : FaultsKept t u) : FaultsKept s u :=
  ⟨outputsReported_trans h.outputs k.outputs, fun m c => k.code m (h.code m c), fun e c => k.pend e (h.pend e c)⟩

theorem faultsKept_modVo {n : Nat} {f : VoSt → VoSt} {s : State} (hf : (voOf s n).ocode ≠ .none → (f (voOf s n)).ocode ≠ .none) :
    FaultsKept s (modVo n f s) := by
  refine ⟨outputsReported_modVo n f s, fun m h => ?_, fun _ h => h⟩
  rw [voOf_modVo]
  split
  · next e => exact hf (e ▸ h)
  · exact h

theorem faultsKept_raiseRec (e d c f w : Nat) (l : List Byte) (s : State) : FaultsKept s (raiseRec e d c f w l s) := by
  have r := reported_raiseRec e d c f w l s
  refine ⟨outputsReported_of_reported r, fun m h => ?_, fun k h => raised_bookPut (raised_mono h)⟩
  rw [voOf_reported r]
  exact h

/-- A fault entered leaves the faults of the outputs, and gives the output one (Table 11.6). -/
theorem outputFault_spec {code : OCode} (hc : code ≠ .none) (n : Nat) (s : State) :
    FaultsKept s (outputFault n code s) ∧ (voOf (outputFault n code s) n).ocode ≠ .none := by
  unfold outputFault
  extract_lets s1 was s2
  have k1 : FaultsKept s s1 :=
    foldl_frame (P := FaultsKept s) (fun _ _ h => h.trans (faultsKept_modVo (fun c => c))) _ (FaultsKept.refl s)
  have code2 : (voOf s2 n).ocode ≠ .none := by
    rw [voOf_modVo, if_pos rfl]
    dsimp only
    split <;> assumption
  have k2 : FaultsKept s s2 := k1.trans (faultsKept_modVo (fun c => by rw [voOf_modVo, if_pos rfl] at code2; exact code2))
  split
  · have k3 := faultsKept_raiseRec 39 n (ocodeNo code) 3 0xFFFF (be 1 n ++ be 1 (ocodeNo code)) s2
    exact ⟨k2.trans k3, k3.code n code2⟩
  · exact ⟨k2, code2⟩

/-- The SUPPLY fault at one output that does not have it yet. -/
def supplyFault (s : State) (n : Nat) : State := if (voOf s n).ocode = .supply then s else outputFault n .supply s

theorem supplyFault_spec (s : State) (n : Nat) : FaultsKept s (supplyFault s n) ∧ (voOf (supplyFault s n) n).ocode ≠ .none := by
  unfold supplyFault
  split
  · next e => exact ⟨FaultsKept.refl s, by rw [e]; decide⟩
  · exact outputFault_spec (by decide) n s

theorem supplyFault_foldl (l : List Nat) : ∀ s : State,
    FaultsKept s (l.foldl supplyFault s) ∧ ∀ n ∈ l, (voOf (l.foldl supplyFault s) n).ocode ≠ .none := by
  induction l with
  | nil => exact fun s => ⟨FaultsKept.refl s, fun n h => absurd h (List.not_mem_nil)⟩
  | cons m l ih =>
    intro s
    obtain ⟨k, c⟩ := supplyFault_spec s m
    obtain ⟨k', c'⟩ := ih (supplyFault s m)
    refine ⟨k.trans k', fun n h => ?_⟩
    rcases List.mem_cons.mp h with rfl | h
    · exact k'.code n c
    · exact c' n h

/-- Both inputs are below the minimum (Table 11.6). -/
def bothLow (s : State) : Bool := supplyLow s.supply.pwr1 && supplyLow s.supply.pwr2

theorem supplyFaults_eq (s : State) :
    supplyFaults s = if bothLow s then (s.cfg.localOuts.map (·.num)).foldl supplyFault s else s := rfl

theorem faultsKept_supplyFaults (s : State) : FaultsKept s (supplyFaults s) := by
  rw [supplyFaults_eq]
  split
  · exact (supplyFault_foldl _ s).1
  · exact FaultsKept.refl s

theorem supplyFaults_code {s : State} (h : bothLow s = true) {o : LocalOutRec} (ho : o ∈ s.cfg.localOuts) :
    (voOf (supplyFaults s) o.num).ocode ≠ .none := by
  rw [supplyFaults_eq, if_pos h]
  exact (supplyFault_foldl _ s).2 _ (List.mem_map.mpr ⟨o, ho, rfl⟩)

theorem supplyFaults_of_not_bothLow {s : State} (h : bothLow s = false) : supplyFaults s = s := by
  rw [supplyFaults_eq, if_neg (by simp [h])]


/-! ## An input lost, in the band above 32 V, returned -/

/-- The input as lost, with its event if that is new (R632). -/
def countLost (n : Nat) (f : SupplyIn → SupplyIn) (s : State) : State :=
  let t := modSupply n (fun x => { f x with lost := true, over32 := false }) s
  if (supplyOf s n).lost then t else raiseEv 67 n t

theorem loseSupply_eq (n : Nat) (f : SupplyIn → SupplyIn) (s : State) : loseSupply n f s = supplyFaults (countLost n f s) := rfl

theorem countLost_supply (n : Nat) (f : SupplyIn → SupplyIn) (s : State) :
    (countLost n f s).supply = (modSupply n (fun x => { f x with lost := true, over32 := false }) s).supply := by
  unfold countLost
  split <;> rfl

theorem reported_countLost (n : Nat) (f : SupplyIn → SupplyIn) (s : State) :
    reported { s with supply := (countLost n f s).supply } (countLost n f s) := by
  rw [countLost_supply, ← modSupply_eq]
  unfold countLost
  split
  · exact reported_refl _
  · exact reported_raiseEv _ _ _

theorem raised_countLost {n : Nat} {f : SupplyIn → SupplyIn} {s : State} (h : (supplyOf s n).lost = false) :
    (countLost n f s).raised 67 := by
  unfold countLost
  rw [if_neg (by simp [h])]
  exact raised_raiseEv (by decide)

/-- What an input that is lost, or disconnected, leaves behind (R631, R632, Table 11.6). -/
theorem loseSupply_spec {n : Nat} (hn : n = 1 ∨ n = 2) (f : SupplyIn → SupplyIn) (s : State) :
    supplyOf (loseSupply n f s) n = { f (supplyOf s n) with lost := true, over32 := false } ∧
    supplyOf (loseSupply n f s) (3 - n) = supplyOf s (3 - n) ∧
    ((supplyOf s n).lost = false → (loseSupply n f s).raised 67) ∧
    (bothLow (loseSupply n f s) = true → ∀ o ∈ s.cfg.localOuts, (voOf (loseSupply n f s) o.num).ocode ≠ .none) ∧
    (bothLow (loseSupply n f s) = false → (loseSupply n f s).lio = s.lio) ∧
    reported { s with
      supply := (loseSupply n f s).supply, lio := { s.lio with vos := (loseSupply n f s).lio.vos } } (loseSupply n f s) := by
  rw [loseSupply_eq]
  have counted := reported_countLost n f s
  have kept := faultsKept_supplyFaults (countLost n f s)
  have same := outputsReported_supply kept.outputs
  have both : bothLow (supplyFaults (countLost n f s)) = bothLow (countLost n f s) := by unfold bothLow; rw [same]
  have cfg : (countLost n f s).cfg = s.cfg := by rw [counted.2]
  have lio : (countLost n f s).lio = s.lio := by rw [counted.2]
  refine ⟨?_, ?_, fun h => kept.pend 67 (raised_countLost h), fun h o ho => ?_, fun h => ?_, ?_⟩
  · rw [supplyOf_congr same, supplyOf_congr (countLost_supply n f s), supplyOf_modSupply hn]
  · rw [supplyOf_congr same, supplyOf_congr (countLost_supply n f s), supplyOf_modSupply_other hn]
  · exact supplyFaults_code (both ▸ h) (cfg.symm ▸ ho)
  · rw [supplyFaults_of_not_bothLow (both ▸ h), lio]
  · rw [same]
    have r := outputsReported_trans (outputsReported_of_reported counted) kept.outputs
    exact r

/-- What a lost or disconnected input owes (R631, R632). -/
theorem supplyLoss {s : State} {n : Nat} {mv : Int} {c : Instr} (hn : n = 1 ∨ n = 2)
    (hc : c = .supplyLost n mv ∧ mv < 16800 ∨ c = .supplyOvervoltage n mv ∧ 34000 < mv) :
    ∃ f : SupplyIn → SupplyIn, exec c s = .next (loseSupply n f s) ∧ (∀ x, (f x).millivolt = mv) ∧
      (34000 < mv → ∀ x, (f x).disconnected = true) := by
  have range : (n = 0 || decide (2 < n)) = false := by rcases hn with rfl | rfl <;> rfl
  rcases hc with ⟨rfl, h⟩ | ⟨rfl, h⟩
  · refine ⟨fun x => { x with millivolt := mv, disconnected := x.disconnected || mv < -500 }, ?_, fun _ => rfl,
      fun h' => absurd h' (by omega)⟩
    have off : ¬ supplyMin ≤ mv := by unfold supplyMin; omega
    simp only [exec, execSupplyLost, supplyLostRow, range, off, decide_false, Bool.or_self, Bool.false_eq_true, if_false]
  · refine ⟨fun x => { x with millivolt := mv, disconnected := true }, ?_, fun _ => rfl, fun _ _ => rfl⟩
    have off : ¬ mv ≤ 34000 := by omega
    simp only [exec, execSupplyOvervoltage, range, off, decide_false, Bool.or_self, Bool.false_eq_true, if_false]

/-- The wake request that a returning supply makes (R600). -/
theorem wake_eq {s : State} (h : s.power.moving = none) :
    wake s = { s with power := { s.power with votes := s.power.votes.set 4 0, wakeUntil := some (s.ns + s.power.holdS * secNs) } } := by
  unfold wake
  simp [h]

/-- A supply that returned (R632, R634). -/
def returned (n : Nat) (mv : Int) (s : State) : State :=
  modSupply n (fun x => { x with millivolt := mv, lost := false, disconnected := false, over32 := decide (32000 < mv) }) s

/-- What the return of a supply starts (R600, R609, R632). -/
def afterReturn (both : Bool) (s : State) : State :=
  if s.power.st = .off then
    let s := losePowerKeepers (restartModule true s)
    wake { s with power := { s.power with bankCharged := false, retained := ⟨none, none, none⟩ } }
  else if s.power.pfail = 2 then
    let t := restartModule true s
    { t with power := { t.power with bankCharged := false, retained := ⟨none, none, none⟩ } }
  else if s.power.st = .failedWake && both then
    let t := restartModule true s
    { t with power := { t.power with bankCharged := false } }
  else s

theorem supplyReturned_eq {n : Nat} {mv : Int} {s : State} (hn : n = 1 ∨ n = 2) (lo : 16800 ≤ mv) (hi : mv ≤ 33000)
    (lost : (supplyOf s n).lost = true) :
    supplyReturnedRow n mv s = raiseEv 67 n (afterReturn (s.supply.pwr1.lost && s.supply.pwr2.lost) (returned n mv s)) := by
  have off : (n = 0 || decide (2 < n) || decide (mv < supplyMin) || decide (33000 < mv) || !(supplyOf s n).lost) = false := by
    have below : ¬ mv < supplyMin := by unfold supplyMin; omega
    have above : ¬ 33000 < mv := by omega
    rcases hn with rfl | rfl <;> simp [below, above, lost]
  unfold supplyReturnedRow
  rw [off]
  rfl

theorem losePowerKeepers_supply (s : State) : (losePowerKeepers s).supply = s.supply := by
  unfold losePowerKeepers
  split <;> rfl

/-- Start-up lies before the module, with an empty bank and no lane's bank (R576, R610). -/
def startUpDue (t : State) : Prop :=
  t.power.step = 1 ∧ t.power.pfail = 0 ∧ t.power.bankCharged = false ∧ t.power.retained = ⟨none, none, none⟩ ∧
  t.power.confirmed = false ∧ t.halves.a.inServ = false ∧ t.halves.b.inServ = false

theorem afterReturn_supply (both : Bool) (s : State) : (afterReturn both s).supply = s.supply := by
  unfold afterReturn
  split
  · rw [wake_eq (by unfold losePowerKeepers; split <;> rfl)]
    exact losePowerKeepers_supply _
  · split
    · rfl
    · split <;> rfl

theorem afterReturn_startUpDue {both : Bool} {s : State} (h : s.power.st = .off ∨ s.power.pfail = 2) :
    startUpDue (afterReturn both s) := by
  unfold afterReturn
  split
  · rw [wake_eq (by unfold losePowerKeepers; split <;> rfl)]
    unfold losePowerKeepers
    split <;> exact ⟨rfl, rfl, rfl, rfl, rfl, rfl, rfl⟩
  · next on =>
    rw [if_pos (h.resolve_left on)]
    exact ⟨rfl, rfl, rfl, rfl, rfl, rfl, rfl⟩

/-- Out of Off the WAKE vote is Run (R600). -/
theorem afterReturn_vote {both : Bool} {s : State} (h : s.power.st = .off) (len : s.power.votes.length = 5) :
    (afterReturn both s).power.votes.getD 4 0xFF = 0 := by
  unfold afterReturn
  rw [if_pos h, wake_eq (by unfold losePowerKeepers; split <;> rfl)]
  unfold losePowerKeepers
  have e : (restartModule true s).power.votes = s.power.votes := rfl
  split
  · rfl
  · dsimp only
    rw [e]
    simp [List.getD_eq_getElem?_getD, len]

theorem afterReturn_running {both : Bool} {s : State} (on : s.power.st ≠ .off) (up : s.power.pfail ≠ 2) (woken : s.power.st ≠ .failedWake) :
    afterReturn both s = s := by
  unfold afterReturn
  rw [if_neg on, if_neg up, if_neg (by simp [woken])]

/-! ## A power fail -/

theorem raiseEv_sessions_length (e d : Nat) (s : State) :
    (raiseEv e d s).dict.sessions.length = s.dict.sessions.length := List.length_map _

theorem chestWrite_sessions_length (kind source code : Nat) (detail : List Byte) (s : State) :
    (chestWrite kind source code detail s).dict.sessions.length = s.dict.sessions.length := by
  unfold chestWrite
  split
  · rfl
  · exact raiseEv_sessions_length _ _ _

/-- A Chest that works takes the record into its ring (R573). -/
theorem chestWrite_chest {kind source code : Nat} {detail : List Byte} {s : State} (h : s.chest.faulty = false) :
    ∃ ring, (chestWrite kind source code detail s).chest = { s.chest with recs := ring, newest := s.chest.newest + 1 } := by
  unfold chestWrite
  rw [if_neg (by simp [h])]
  exact ⟨_, rfl⟩

theorem chestWrite_raised {kind source code : Nat} {detail : List Byte} {s : State} (h : s.chest.faulty = false) :
    (chestWrite kind source code detail s).raised 76 := by
  unfold chestWrite
  rw [if_neg (by simp [h])]
  exact raised_raiseEv (by decide)

theorem chestWrite_counters (kind source code : Nat) (detail : List Byte) (s : State) :
    (chestWrite kind source code detail s).chest.counters = s.chest.counters := by
  cases h : s.chest.faulty with
  | true =>
    unfold chestWrite
    rw [if_pos h]
  | false =>
    obtain ⟨ring, e⟩ := chestWrite_chest (kind := kind) (source := source) (code := code) (detail := detail) h
    rw [e]

/-- A snapshot changes the Chest's snapshots alone. -/
theorem snapshot_eq (s : State) : snapshot s = { s with chest := { s.chest with snaps := (snapshot s).chest.snaps } } := by
  unfold snapshot
  split <;> rfl

/-- A vital output silenced. -/
def silenced (v : VoSt) : VoSt := { v with cmd := false, permit := false, on := false, mid := false }

theorem voOf_silence (s : State) (n : Nat) : voOf (silence s) n = silenced (voOf s n) :=
  tabGet_map s.lio.vos (fun _ => silenced) n VoSt.init VoSt.init rfl

/-- The module silent, what it keeps set aside (R575). -/
def failing (v w : Int) (s : State) : State :=
  let s := silence { s with supply := { s.supply with
    pwr1 := { s.supply.pwr1 with millivolt := v }, pwr2 := { s.supply.pwr2 with millivolt := w } } }
  { s with
    power := { s.power with pfail := 1, retained := if s.power.st = .run then retainedNow s else s.power.retained }
    chest := { s.chest with counters := twoMap s.chest.counters (fun h c =>
      if chanUp s h && (twoGet s.halves h).inServ then max c s.bus.counter else c) } }

theorem powerFail_eq {v w : Int} {s : State} (up : s.power.pfail = 0) (on : s.power.st ≠ .off) (hv : v < s.age.threshold)
    (hw : w < s.age.threshold) : powerFail v w s = snapshot (chestWrite 8 0x20 0 [] (failing v w s)) := by
  unfold powerFail
  dsimp only
  rw [if_neg (by simp [up, on, hv, hw])]
  rfl

theorem voOf_failing (v w : Int) (s : State) (n : Nat) :
    (voOf (failing v w s) n).on = false ∧ (voOf (failing v w s) n).permit = false := by
  have e : voOf (failing v w s) n = voOf (silence s) n := rfl
  rw [e, voOf_silence]
  exact ⟨rfl, rfl⟩

theorem failing_counters (v w : Int) (s : State) (h : Half) :
    twoGet s.chest.counters h ≤ twoGet (failing v w s).chest.counters h := by
  unfold failing
  simp only [twoGet_map]
  split
  · exact Nat.le_max_left _ _
  · exact Nat.le_refl _

theorem failing_halves (v w : Int) (s : State) (h : Half) :
    (twoGet (failing v w s).halves h).active = none ∧ (twoGet (failing v w s).halves h).next = none := by
  unfold failing silence
  simp

/-! ## A regulator that shuts down -/

/-- A lane out of vote for a reason, its event pending (R225, Table 6.6). -/
structure LaneOut (l : Lane) (reason : Nat) (s : State) : Prop where
  state : (triGet s.lanes l).ls = .excluded ∨ (triGet s.lanes l).ls = .held
  reason : (triGet s.lanes l).reason = reason
  pend : s.raised (laneNo l)

theorem LaneOut.not_inVote {l : Lane} {r : Nat} {s : State} (h : LaneOut l r s) : inVote s l = false := by
  unfold inVote inVoteAt
  rcases h.state with e | e <;> simp [e]

theorem LaneOut.not_rejoining {l : Lane} {r : Nat} {s : State} (h : LaneOut l r s) : rejoining (triGet s.lanes l) = false := by
  unfold rejoining
  rcases h.state with e | e <;> simp [e]

/-- What leaves the lane's state, its reason and what pends as they are keeps it out. -/
theorem LaneOut.of_kept {l : Lane} {r : Nat} {s t : State} (h : LaneOut l r s) (ls : (triGet t.lanes l).ls = (triGet s.lanes l).ls)
    (reason : (triGet t.lanes l).reason = (triGet s.lanes l).reason) (pend : s.raised (laneNo l) → t.raised (laneNo l)) :
    LaneOut l r t :=
  ⟨by rw [ls]; exact h.state, by rw [reason]; exact h.reason, pend h.pend⟩

theorem LaneOut.raiseEv {l : Lane} {r : Nat} {s : State} (h : LaneOut l r s) (e d : Nat) : LaneOut l r (raiseEv e d s) :=
  h.of_kept rfl rfl raised_mono

theorem LaneOut.of_reported {l : Lane} {r : Nat} {s t : State} (h : LaneOut l r s) (k : reported s t)
    (pend : s.raised (laneNo l) → t.raised (laneNo l)) : LaneOut l r t :=
  have e : t.lanes = s.lanes := by rw [k.2]
  h.of_kept (by rw [e]) (by rw [e]) pend

theorem laneNo_lt (l : Lane) : laneNo l < 96 := by cases l <;> decide

/-- What pends still does after a lane is dropped. -/
theorem raised_dropLane_mono {l : Lane} {reason block e : Nat} {detail : List Byte} {s : State} (h : s.raised e) :
    (dropLane l reason block detail s).raised e := by
  unfold dropLane
  dsimp only
  split
  · exact raised_bookPut (raised_mono (raised_chestWrite h))
  · exact raised_mono (raised_bookPut (raised_mono (raised_chestWrite h)))

theorem raised_dropLane (l : Lane) (reason block : Nat) (detail : List Byte) (s : State) :
    (dropLane l reason block detail s).raised (laneNo l) := by
  unfold dropLane
  dsimp only
  split
  · exact raised_raiseRec (laneNo_lt l)
  · exact raised_mono (raised_raiseRec (laneNo_lt l))

theorem dropLane_lane (l : Lane) (reason block : Nat) (detail : List Byte) (s : State) :
    LaneOut l reason (dropLane l reason block detail s) := by
  have e := (dropLane_eq l reason block detail s).2
  refine ⟨?_, ?_, raised_dropLane l reason block detail s⟩
  · rw [e]
    simp only [triGet_put]
    split
    · exact .inl rfl
    · exact .inr rfl
  · rw [e]
    simp only [triGet_put]

theorem LaneOut.dropLane_other {l k : Lane} {r : Nat} {s : State} (h : LaneOut l r s) (hk : l ≠ k) (reason block : Nat)
    (detail : List Byte) : LaneOut l r (dropLane k reason block detail s) := by
  have e := (dropLane_eq k reason block detail s).2
  refine h.of_kept ?_ ?_ raised_dropLane_mono
  · rw [e]
    simp only [triGet_put_other _ _ hk]
  · rw [e]
    simp only [triGet_put_other _ _ hk]

theorem LaneOut.foldl_dropLane {l : Lane} {r reason block : Nat} {detail : List Byte} (ks : List Lane) (hl : l ∉ ks) :
    ∀ {s : State}, LaneOut l r s → LaneOut l r (ks.foldl (fun s k => dropLane k reason block detail s) s) := by
  induction ks with
  | nil => exact fun h => h
  | cons k ks ih =>
    intro s h
    obtain ⟨hk, hks⟩ := List.ne_and_not_mem_of_not_mem_cons hl
    exact ih hks (h.dropLane_other hk reason block detail)

theorem LaneOut.not_mem_lanesInVote {l : Lane} {r : Nat} {s : State} (h : LaneOut l r s) : l ∉ lanesInVote s := by
  intro m
  have v := (List.mem_filter.mp m).2
  rw [h.not_inVote] at v
  exact absurd v (by decide)

theorem LaneOut.dropPending {l : Lane} {r : Nat} {s : State} (h : LaneOut l r s) : LaneOut l r (dropPending s) := by
  unfold Machine.dropPending
  split
  · apply LaneOut.raiseEv
    exact h.of_kept rfl rfl id
  · exact h

theorem LaneOut.abortChange {l : Lane} {r : Nat} {s : State} (h : LaneOut l r s) (code : Nat) : LaneOut l r (abortChange code s) := by
  unfold Machine.abortChange
  split
  · apply LaneOut.raiseEv
    refine h.of_kept ?_ ?_ id
    · simp only [mapKernels, triGet_map]
    · simp only [mapKernels, triGet_map]
  · exact h

theorem LaneOut.abortModeSwitch {l : Lane} {r : Nat} {s : State} (h : LaneOut l r s) : LaneOut l r (abortModeSwitch s) := by
  unfold Machine.abortModeSwitch
  split
  · split
    · exact h
    · apply LaneOut.raiseEv
      exact h.of_kept rfl rfl id
  · exact h

/-- The restrictive state does not exclude a lane that is out already (R244). -/
theorem LaneOut.enterRestrictive {l : Lane} {r : Nat} {s : State} (h : LaneOut l r s) : LaneOut l r (enterRestrictive s) := by
  unfold Machine.enterRestrictive
  split
  · exact h
  · extract_lets s1 s2 s3 vote lio pair s4
    have h1 : LaneOut l r s1 := h.dropPending
    have h2 : LaneOut l r s2 := h1.foldl_dropLane _ h1.not_mem_lanesInVote
    have h3 : LaneOut l r s3 := (h2.abortChange _).abortModeSwitch
    have h4 : LaneOut l r s4 := h3.of_kept rfl rfl id
    have h5 := h4.of_reported (reported_chestWrite 6 0x30 0 [] s4) raised_chestWrite
    have pend : (snapshot (chestWrite 6 0x30 0 [] s4)).raised (laneNo l) := by rw [snapshot_eq]; exact h5.pend
    have h6 := h5.of_reported (reported_snapshot _) (fun _ => pend)
    exact h6.of_reported (reported_raiseRec 6 noDetail 0 3 0xFFFF [] _) (fun p => raised_bookPut (raised_mono p))

theorem restoreClock_eq (k : Lane) (s : State) :
    ∃ f : LaneSt → LaneSt, ∃ age, restoreClock k s = { s with lanes := triMod s.lanes k f, age := age } := by
  have same : triMod s.lanes k id = s.lanes := triPut_get _ _
  unfold restoreClock
  split
  · exact ⟨id, s.age, by rw [same]⟩
  · extract_lets s1
    split
    · exact ⟨_, _, rfl⟩
    · exact ⟨id, _, by rw [same]⟩

/-- Another lane's start leaves a lane that is out as it is. -/
theorem LaneOut.startBooting_other {l k : Lane} {r : Nat} {s : State} (h : LaneOut l r s) (hk : l ≠ k) : LaneOut l r (startBooting k s) := by
  obtain ⟨f, age, e⟩ := restoreClock_eq k s
  unfold startBooting
  rw [e]
  refine h.of_kept ?_ ?_ id
  · simp only [triGet_mod_other _ _ hk]
  · simp only [triGet_mod_other _ _ hk]

theorem LaneOut.restartRejoins {l : Lane} {r : Nat} {s : State} (h : LaneOut l r s) : LaneOut l r (restartRejoins s) := by
  unfold Machine.restartRejoins
  refine foldl_frame (P := LaneOut l r) (fun u k hu => ?_) _ h
  split
  · next rejoins =>
    refine hu.startBooting_other (fun e => ?_)
    rw [← e, hu.not_rejoining] at rejoins
    exact absurd rejoins (by decide)
  · exact hu

/-- A lane in vote that is excluded is out of vote for that reason (R225). -/
theorem excludeLane_laneOut {l : Lane} {s : State} (h : inVote s l = true) (reason : Nat) (detail : List Byte) :
    LaneOut l reason (excludeLane l reason detail s) := by
  unfold excludeLane excludeLanes
  rw [if_pos h, if_neg (List.cons_ne_nil _ _)]
  have out : LaneOut l reason (dropLane l reason 0xFF detail s) := dropLane_lane l reason 0xFF detail s
  dsimp only [List.foldl_cons, List.foldl_nil]
  split
  · exact out.enterRestrictive
  · exact out.restartRejoins

theorem thermal_of_lane {d : Nat} {l : Lane} (hd : 3 ≤ d) (hl : laneOf? (d - 3) = some l) (s : State) :
    thermal d s = excludeLane l 0x08 [] s := by
  unfold thermal
  rw [if_neg (by omega), if_neg (by omega), if_neg (by omega), hl]

theorem thermal_of_none {d : Nat} (hd : d = 0 ∨ 5 < d) (s : State) : thermal d s = s := by
  unfold thermal
  rcases hd with rfl | hd
  · rfl
  · have none_ : laneOf? (d - 3) = none := by
      unfold laneOf?
      rw [if_neg (by omega), if_neg (by omega), if_neg (by omega)]
    rw [if_neg (by omega), if_neg (by omega), if_neg (by omega), none_]

/-! ## What the partner answers -/

/-- The pair, event sources and the sessions' event queues have changed; the partner and the epoch have not. -/
def pairSettled (s t : State) : Prop :=
  told s t ∧ t = { s with pair := t.pair, ev := t.ev, dict := t.dict } ∧ t.pair.partner = s.pair.partner ∧ t.pair.epoch = s.pair.epoch

theorem pairSettled_refl (s : State) : pairSettled s s := ⟨told_refl s, rfl, rfl, rfl⟩

theorem pairSettled_trans {s t u : State} (h : pairSettled s t) (k : pairSettled t u) : pairSettled s u := by
  obtain ⟨ht, he, hp, hq⟩ := h
  obtain ⟨kt, ke, kp, kq⟩ := k
  rw [he] at ke
  exact ⟨told_trans ht kt, ke, kp.trans hp, kq.trans hq⟩

theorem pairSettled_raiseEv (e d : Nat) (s : State) : pairSettled s (raiseEv e d s) := ⟨told_raiseEv e d s, rfl, rfl, rfl⟩

theorem pairSettled_modPairLink {f : PairLinkSt → PairLinkSt} {s : State} (hp : (f s.pair).partner = s.pair.partner)
    (hq : (f s.pair).epoch = s.pair.epoch) : pairSettled s (modPairLink f s) := ⟨told_of_eq rfl rfl, rfl, hp, hq⟩

theorem pairSettled_noteReady (s : State) : pairSettled s (noteReady s) := by
  unfold noteReady
  split
  · exact pairSettled_trans (pairSettled_modPairLink rfl rfl) (pairSettled_raiseEv _ _ _)
  · exact pairSettled_trans (pairSettled_modPairLink rfl rfl) (pairSettled_raiseEv _ _ _)
  · exact pairSettled_refl s

/-- A module that is not ready notes no time of readiness (R497). -/
theorem noteReady_readySince {s : State} (h : nrReason s ≠ 0) : (noteReady s).pair.readySince = none := by
  have not_ready : pairReady s = false := by unfold pairReady; simp [h]
  unfold noteReady
  rw [not_ready]
  cases e : s.pair.readySince with
  | none => exact e
  | some n => rfl

/-- With a partner of another compatibility class the module is not ready (R623). -/
theorem nrReason_ne_zero_of_class {s : State} (h0 : s.pair.partner.compatClass ≠ 0)
    (h : s.pair.partner.compatClass ≠ s.lanes.a.fwClass) : nrReason s ≠ 0 := by
  unfold nrReason
  dsimp only
  split
  · decide
  · split
    · decide
    · rw [if_pos (by simp [h0, h])]
      decide

theorem pairSettled_settlePair (s : State) : pairSettled s (settlePair s) := by
  unfold settlePair
  extract_lets p s1 role fresh
  have unfit : pairSettled s s1 := pairSettled_trans (pairSettled_modPairLink rfl rfl) (pairSettled_noteReady _)
  split
  · split
    · exact pairSettled_trans (pairSettled_modPairLink rfl rfl) (pairSettled_noteReady _)
    · exact pairSettled_refl s
  · split
    · exact pairSettled_refl s
    · split
      · split
        · exact unfit
        · exact pairSettled_trans unfit (pairSettled_raiseEv _ _ _)
      · exact pairSettled_trans (pairSettled_modPairLink rfl rfl) (pairSettled_noteReady _)

theorem settlePair_readySince {s : State} (addr : s.pair.partnerAddr ≠ 0xFFFF) (heard : s.pair.partner.heard = true)
    (h0 : s.pair.partner.compatClass ≠ 0) (h : s.pair.partner.compatClass ≠ s.lanes.a.fwClass) :
    (settlePair s).pair.readySince = none := by
  unfold settlePair
  extract_lets p s1 role fresh
  have unfit : s1.pair.readySince = none := noteReady_readySince (nrReason_ne_zero_of_class h0 h)
  rw [if_neg addr, if_neg (by simp [p, heard])]
  split
  · split
    · exact unfit
    · exact unfit
  · exact noteReady_readySince (nrReason_ne_zero_of_class h0 h)

/-! ## The rows -/

/-- Nothing of a module whose power fails is sent any more; the Chest has its record (R575). -/
theorem powerFail_spec (v w : Int) (s : State) :
    ∃ t, snapshot (chestWrite 8 0x20 0 [] (failing v w s)) = t ∧ t.power.pfail = 1 ∧ t.tx = ⟨TxSt.init, TxSt.init⟩ ∧
      (∀ h, (twoGet t.halves h).active = none ∧ (twoGet t.halves h).next = none) ∧ t.lio.locals = none ∧ t.lio.localNext = none ∧
      (∀ n, (voOf t n).on = false ∧ (voOf t n).permit = false) ∧ t.lanes = s.lanes ∧
      t.dict.sessions.length = s.dict.sessions.length ∧
      (s.chest.faulty = false → t.chest.newest = s.chest.newest + 1 ∧ t.raised 76) ∧
      (∀ h, twoGet s.chest.counters h ≤ twoGet t.chest.counters h) ∧ t.bus = s.bus := by
  have r := reported_trans (reported_chestWrite 8 0x20 0 [] (failing v w s)) (reported_snapshot _)
  refine ⟨_, rfl, by rw [r.2]; rfl, by rw [r.2]; rfl, fun h => ?_, by rw [r.2]; rfl, by rw [r.2]; rfl, fun n => ?_,
    by rw [r.2]; rfl, ?_, fun works => ⟨?_, ?_⟩, fun h => ?_, by rw [r.2]; rfl⟩
  · rw [r.2]
    exact failing_halves v w s h
  · rw [voOf_reported r]
    exact voOf_failing v w s n
  · rw [snapshot_eq]
    exact chestWrite_sessions_length 8 0x20 0 [] (failing v w s)
  · obtain ⟨ring, e⟩ := chestWrite_chest (kind := 8) (source := 0x20) (code := 0) (detail := []) (s := failing v w s) works
    rw [snapshot_eq, e]
    rfl
  · rw [snapshot_eq]
    exact chestWrite_raised (s := failing v w s) works
  · rw [snapshot_eq]
    dsimp only
    rw [chestWrite_counters]
    exact failing_counters v w s h

/-- The run of measurements of 2.3 V or more (R636). -/
def goodRun (mv : Nat) (x : SupplySt) : Nat := if 2300 ≤ mv then x.cellGood + 1 else 0

/-- The cell judged: two good measurements clear, one of 2.2 V or 1.8 V notes (R636). -/
def judgeCell (mv : Nat) (x : SupplySt) : SupplySt :=
  if 2 ≤ goodRun mv x then { x with cellMv := mv, cellGood := 2, cellLow := false, cellMissing := false }
  else { x with
    cellMv := mv, cellGood := goodRun mv x, cellLow := x.cellLow || mv < 2200, cellMissing := x.cellMissing || mv < 1800 }

theorem judgeCell_eq (mv : Nat) (x : SupplySt) : judgeCell mv x = { x with
    cellMv := mv, cellGood := (judgeCell mv x).cellGood, cellLow := (judgeCell mv x).cellLow,
    cellMissing := (judgeCell mv x).cellMissing } := by
  unfold judgeCell
  split <;> rfl

theorem judgeCell_good {mv : Nat} {x : SupplySt} (h : 2300 ≤ mv) (again : 1 ≤ x.cellGood) :
    (judgeCell mv x).cellLow = false ∧ (judgeCell mv x).cellMissing = false := by
  have run : goodRun mv x = x.cellGood + 1 := if_pos h
  unfold judgeCell
  rw [if_pos (by omega)]
  exact ⟨rfl, rfl⟩

theorem judgeCell_first_good {mv : Nat} {x : SupplySt} (h : 2300 ≤ mv) (first : x.cellGood = 0) :
    (judgeCell mv x).cellGood = 1 ∧ (judgeCell mv x).cellLow = x.cellLow ∧ (judgeCell mv x).cellMissing = x.cellMissing := by
  have run : goodRun mv x = 1 := (if_pos h).trans (by rw [first])
  have noLow : decide (mv < 2200) = false := decide_eq_false (by omega)
  have noMissing : decide (mv < 1800) = false := decide_eq_false (by omega)
  unfold judgeCell
  rw [if_neg (by omega), noLow, noMissing]
  exact ⟨run, Bool.or_false _, Bool.or_false _⟩

theorem judgeCell_weak {mv : Nat} {x : SupplySt} (h : mv < 2300) :
    (judgeCell mv x).cellGood = 0 ∧ (judgeCell mv x).cellLow = (x.cellLow || decide (mv < 2200)) ∧
      (judgeCell mv x).cellMissing = (x.cellMissing || decide (mv < 1800)) := by
  have run : goodRun mv x = 0 := if_neg (by omega)
  unfold judgeCell
  rw [if_neg (by omega)]
  exact ⟨run, rfl, rfl⟩

/-- The cell's state as it is kept, and its event at a change (R636). -/
def noteCell (mv : Nat) (s : State) : State :=
  let t := { s with supply := judgeCell mv s.supply }
  if t.supply.cellLow ≠ s.supply.cellLow || t.supply.cellMissing ≠ s.supply.cellMissing then raiseEv 67 0 t else t

theorem cellMeasured_eq (mv : Nat) (s : State) :
    cellMeasured mv s = if s.power.st = .off || (s.supply.pwr1.lost && s.supply.pwr2.lost) then s else noteCell mv s := rfl

theorem noteCell_supply (mv : Nat) (s : State) : (noteCell mv s).supply = judgeCell mv s.supply := by
  unfold noteCell
  dsimp only
  split <;> rfl

theorem reported_noteCell (mv : Nat) (s : State) : reported { s with supply := judgeCell mv s.supply } (noteCell mv s) := by
  unfold noteCell
  dsimp only
  split
  · exact reported_raiseEv _ _ _
  · exact reported_refl _

theorem noteCell_raised {mv : Nat} {s : State}
    (h : (judgeCell mv s.supply).cellLow ≠ s.supply.cellLow ∨ (judgeCell mv s.supply).cellMissing ≠ s.supply.cellMissing) :
    (noteCell mv s).raised 67 := by
  unfold noteCell
  dsimp only
  rw [if_pos (by simpa using h)]
  exact raised_raiseEv (by decide)

/-- The input rows (R631, R632). -/
theorem supplyRows (s : State) (n : Nat) (mv : Int) :
    (∀ c, 1 ≤ n → n ≤ 2 → (c = .supplyLost n mv ∧ mv < 16800 ∨ c = .supplyOvervoltage n mv ∧ 34000 < mv) →
      ∃ t, exec c s = .next t ∧ (supplyOf t n).lost = true ∧ (supplyOf t n).millivolt = mv ∧
        (34000 < mv → (supplyOf t n).disconnected = true) ∧ supplyOf t (3 - n) = supplyOf s (3 - n) ∧
        ((supplyOf s n).lost = false → t.raised 67) ∧
        (bothLow t = true → ∀ o ∈ s.cfg.localOuts, (voOf t o.num).ocode ≠ .none) ∧ (bothLow t = false → t.lio = s.lio) ∧
        reported { s with supply := t.supply, lio := { s.lio with vos := t.lio.vos } } t) ∧
    (1 ≤ n → n ≤ 2 → 32000 < mv → mv ≤ 34000 → (supplyOf s n).over32 = false →
      ∃ t, exec (.supplyEnters32VBand n mv) s = .next t ∧ t.raised 67 ∧
        supplyOf t n = { supplyOf s n with millivolt := mv, over32 := true } ∧ supplyOf t (3 - n) = supplyOf s (3 - n) ∧
        reported { s with supply := t.supply } t) ∧
    (1 ≤ n → n ≤ 2 → 16800 ≤ mv → mv ≤ 33000 → (supplyOf s n).lost = true →
      ∃ t, exec (.supplyReturned n mv) s = .next t ∧ t.raised 67 ∧ (supplyOf t n).lost = false ∧
        (supplyOf t n).disconnected = false ∧ supplyOf t (3 - n) = supplyOf s (3 - n) ∧
        (s.power.st ≠ .off → s.power.pfail ≠ 2 → s.power.st ≠ .failedWake → reported { s with supply := t.supply } t) ∧
        ((s.power.st = .off ∨ s.power.pfail = 2) → startUpDue t) ∧
        (s.power.st = .off → s.power.votes.length = 5 → t.power.votes.getD 4 0xFF = 0)) := by
  refine ⟨fun c lo hi hc => ?_, fun lo hi above within new => ?_, fun lo hi above below lost => ?_⟩
  · have hn := supply_number lo hi
    obtain ⟨f, he, hmv, hover⟩ := supplyLoss hn hc
    obtain ⟨own, other, event, faults, kept, rep⟩ := loseSupply_spec hn f s
    exact ⟨_, he, by rw [own], by rw [own]; exact hmv _, fun h => by rw [own]; exact hover h _, other, event, faults, kept, rep⟩
  · have hn := supply_number lo hi
    refine ⟨raiseEv 67 n (modSupply n (fun x => { x with millivolt := mv, over32 := true }) s), ?_, raised_raiseEv (by decide),
      supplyOf_modSupply hn _ _, supplyOf_modSupply_other hn _ _, ?_⟩
    · have off : (n = 0 || decide (2 < n) || decide (mv ≤ 32000) || decide (34000 < mv) || (supplyOf s n).over32) = false := by
        have past : ¬ mv ≤ 32000 := by omega
        have below : ¬ 34000 < mv := by omega
        rcases hn with rfl | rfl <;> simp [past, below, new]
      simp only [exec, execSupplyEnters32VBand, off, Bool.false_eq_true, if_false]
    · rw [raiseEv_supply, ← modSupply_eq]
      exact reported_raiseEv _ _ _
  · have hn := supply_number lo hi
    have own : supplyOf (returned n mv s) n = _ := supplyOf_modSupply hn _ s
    have other : supplyOf (returned n mv s) (3 - n) = _ := supplyOf_modSupply_other hn _ s
    have power : (returned n mv s).power = s.power := modSupply_power n _ s
    refine ⟨_, congrArg Host.Outcome.next (supplyReturned_eq hn above below lost), raised_raiseEv (by decide), ?_, ?_, ?_,
      fun on up woken => ?_, fun h => ?_, fun off len => ?_⟩
    · rw [supplyOf_congr ((raiseEv_supply).trans (afterReturn_supply _ _)), own]
    · rw [supplyOf_congr ((raiseEv_supply).trans (afterReturn_supply _ _)), own]
    · rw [supplyOf_congr ((raiseEv_supply).trans (afterReturn_supply _ _)), other]
    · rw [afterReturn_running (by rwa [power]) (by rwa [power]) (by rwa [power]), raiseEv_supply]
      have e : { s with supply := (returned n mv s).supply } = returned n mv s := (modSupply_eq n _ s).symm
      rw [e]
      exact reported_raiseEv _ _ _
    · exact afterReturn_startUpDue (by rwa [power])
    · exact afterReturn_vote (by rwa [power]) (by rwa [power])

/-- Settles O53, row by row. -/
theorem suppliesAndCell : Obligations.SuppliesAndCell := by
  refine ⟨fun s n mv => ?_, fun s => ⟨fun h1 h2 => ?_, fun h => ?_⟩, fun s v w => ⟨fun h => ?_, fun up on hv hw => ?_⟩,
    fun s => ⟨fun h done => ?_, fun h => ⟨?_, ?_⟩⟩, fun s mv => ⟨fun h => ?_, fun on h => ?_⟩,
    fun s d => ⟨fun h => ?_, fun h hd hin => ?_, fun l hd hl hv => ?_⟩, fun s c o n => ⟨fun h => ?_, fun h => ?_⟩⟩
  · obtain ⟨lost, band, back⟩ := supplyRows s n mv
    refine ⟨fun h => ?_, fun h => ?_, lost, fun h => ?_, band, fun h => ?_, back⟩
    · have off : (n = 0 || decide (2 < n) || decide (supplyMin ≤ mv)) = true := by unfold supplyMin; simpa [or_assoc] using h
      simp only [exec, execSupplyLost, supplyLostRow, off, if_true]
    · have off : (n = 0 || decide (2 < n) || decide (mv ≤ 34000)) = true := by simpa [or_assoc] using h
      simp only [exec, execSupplyOvervoltage, off, if_true]
    · have off : (n = 0 || decide (2 < n) || decide (mv ≤ 32000) || decide (34000 < mv) || (supplyOf s n).over32) = true := by
        simpa [or_assoc] using h
      simp only [exec, execSupplyEnters32VBand, off, if_true]
    · have off : (n = 0 || decide (2 < n) || decide (mv < supplyMin) || decide (33000 < mv) || !(supplyOf s n).lost) = true := by
        unfold supplyMin; simpa [or_assoc] using h
      simp only [exec, execSupplyReturned, supplyReturnedRow, off, if_true]
  · simp [exec, execHoldUpBankCharged, h1, h2]
  · have one : (s.supply.pwr1.lost && s.supply.pwr2.lost) = false := Bool.and_eq_false_iff.mpr h
    simp [exec, execHoldUpBankCharged, one]
  · have off : (s.power.pfail ≠ 0 || s.power.st = .off || !decide (v < s.age.threshold) || !decide (w < s.age.threshold)) = true := by
      simpa [or_assoc] using h
    simp only [exec, execPowerFail, powerFail, off, if_true]
  · obtain ⟨t, ht, spec⟩ := powerFail_spec v w s
    exact ⟨t, congrArg Host.Outcome.next ((powerFail_eq up on hv hw).trans ht), spec⟩
  · simp [exec, execPowerFailWriteDone, powerFailDone, h]
  · refine ⟨_, congrArg Host.Outcome.next (if_neg (not_not.mpr h)), rfl, rfl, rfl, rfl, ?_, rfl, rfl⟩
    exact Bool.or_false _
  · refine ⟨_, congrArg Host.Outcome.next (if_neg (not_not.mpr h)), rfl, rfl, rfl, rfl, rfl, rfl, fun m => ?_, fun m => ?_, rfl, rfl⟩
    · exact if_pos m
    · exact if_neg (by simp [m])
  · have off : (s.power.st = .off || (s.supply.pwr1.lost && s.supply.pwr2.lost)) = true := by simpa using h
    exact congrArg Host.Outcome.next ((cellMeasured_eq mv s).trans (if_pos off))
  · have one : (s.supply.pwr1.lost && s.supply.pwr2.lost) = false := Bool.and_eq_false_iff.mpr h
    have e : cellMeasured mv s = noteCell mv s := (cellMeasured_eq mv s).trans (if_neg (by simp [on, one]))
    have cell := judgeCell_eq mv s.supply
    refine ⟨_, congrArg Host.Outcome.next e, ?_⟩
    rw [noteCell_supply, ← cell]
    exact ⟨by rw [cell], judgeCell_good, judgeCell_first_good, judgeCell_weak, noteCell_raised, reported_noteCell mv s⟩
  · exact congrArg Host.Outcome.next (thermal_of_none h s)
  · have e : thermal d s = disableHalf h 7 halfDisabled [] s := by rcases hd with ⟨rfl, rfl⟩ | ⟨rfl, rfl⟩ <;> rfl
    have r := disableHalf_reported halfDisabled [] hin (cause := 7) (by decide)
    have other : otherHalf h ≠ h := by cases h <;> decide
    refine ⟨_, congrArg Host.Outcome.next e, ?_, disableHalf_raised _ _ hin, ?_, ?_, ?_⟩
    · rw [reported_halves r, twoGet_mod]
    · rw [r.2]
      exact twoGet_put _ _ _
    · rw [reported_halves r]
      exact twoGet_mod_other _ _ other
    · rw [r.2]
  · have out := excludeLane_laneOut hv 0x08 []
    exact ⟨_, congrArg Host.Outcome.next (thermal_of_lane hd hl s), out.not_inVote, out.reason, out.pend⟩
  · exact congrArg Host.Outcome.next (if_pos h)
  · refine ⟨_, congrArg Host.Outcome.next (if_neg h), ?_⟩
    obtain ⟨ht, he, hp, hq⟩ := pairSettled_settlePair (modPairLink (fun p => { p with partner := { p.partner with
      compatClass := c, orderCode := o, settingsN := n } }) s)
    exact ⟨hp, hq, fun heard h0 hc => settlePair_readySince h heard h0 hc, told_congr ht rfl rfl rfl rfl, he⟩

end Sys2Proof.Proofs
end

section
/-! PROOFS. Load control and windows of station data and programs, activation and its withdrawal (R77, R78, R82, R83, R303,
R310, R499, R549, R550). -/

namespace Sys2Proof.Proofs

open Sys2Proof Sys2Proof.Machine Sys2Proof.Laws

/-! ## A setting of the lanes written by a session -/

theorem sessRefusal_allowed {s : State} {n : Nat} {min : Level} {key : Bool} (h : s.allows n min key) :
    sessRefusal s n min key = rOk := by
  obtain ⟨opened, level, keyed⟩ := h
  cases key
  · simp [sessRefusal, opened, Nat.not_lt.mpr level]
  · simp [sessRefusal, opened, Nat.not_lt.mpr level, keyed rfl]

/-- A function that answers `r` with the state `t`, asked for by a session that may, while the lanes run images. -/
theorem next_asSlotSession {s t : State} {n : Nat} {min : Level} {key : Bool} {f : State → State × Nat × List Byte}
    {r : Nat × List Byte} (ha : s.allows n min key) (hr : imagesRun s = true) (hf : f s = (t, r)) :
    (.next (asSlotSession n min key f s) : Host.Outcome State Fault Refusal) = .next (withResult r t) := by
  rw [asSlotSession_allowed ha hr, hf]

/-- MODULE-STATE while the lanes run no images (R550), whatever is asked for. -/
theorem asSlotSession_noImages {s : State} {n : Nat} {min : Level} {key : Bool} (f : State → State × Nat × List Byte)
    (ha : s.allows n min key) (hr : imagesRun s = false) :
    asSlotSession n min key f s = withResult (rModuleState, []) s := by
  simp [asSlotSession, sessRefusal_allowed ha, laneRefusal, hr, rModuleState, rOk]

/-! ## Loads of station data -/

section
variable {s : State} {n : Nat} {h : Half} {d : List Byte}

/-- A code kept and answered as a failed function. -/
theorem loadReply_of_ne {code : Nat} (hc : code ≠ 0) (detail : Nat) (s : State) :
    loadReply code detail s = ({ s with load := { s.load with code := code, detail := detail } }, rFunction, be 2 code) := by
  simp [loadReply, functionReply, hc]

theorem loadOpenFn_free (hb : loadBusy s = false) (hp : slotIn s .pending = none) (hu : s.upd.upd = false) :
    loadOpenFn n s = ({ s with load := { s.load with
      slots := twoPut s.load.slots (loadSlot s) { DataSlot.init with st := .receiving }, offset := 0, session := n } }, 0, []) := by
  simp [loadOpenFn, modSlot, twoMod, rOk, hb, hp, hu]

theorem loadOpenFn_busy (hb : loadBusy s = true ∨ (slotIn s .pending).isSome = true ∨ s.upd.upd = true) :
    loadOpenFn n s = loadReply 0x0402 noElement s :=
  if_pos (by simpa [or_assoc] using hb)

theorem windowFn_fits {f : List Byte → State → State × Nat × List Byte} (h1 : 1 ≤ d.length) (h2 : d.length ≤ 1024) :
    windowFn f d s = f d s := by
  have hd : d ≠ [] := List.ne_nil_of_length_pos h1
  simp [windowFn, hd, Nat.not_lt.mpr h2]

theorem windowFn_badLength {f : List Byte → State → State × Nat × List Byte} (hd : d = [] ∨ 1024 < d.length) :
    windowFn f d s = (s, rLength, []) :=
  if_pos (by simpa using hd)

theorem loadWindowFn_written (hs : slotIn s .receiving = some h) (hn : s.load.session = n)
    (hl : s.load.offset + d.length ≤ 0x1000000) :
    loadWindowFn n d s = ({ s with load := { s.load with
      slots := twoMod s.load.slots h (fun x => { x with
        bytes := memWriteAll x.bytes s.load.offset d, size := max x.size (s.load.offset + d.length) }),
      offset := s.load.offset + d.length } }, 0, []) := by
  have hl : ¬ maxContainer < s.load.offset + d.length := Nat.not_lt.mpr hl
  simp [loadWindowFn, modSlot, rOk, hs, hn, hl]

theorem loadWindowFn_tooLarge (hs : slotIn s .receiving = some h) (hn : s.load.session = n)
    (hl : 0x1000000 < s.load.offset + d.length) : loadWindowFn n d s = (s, rRange, []) := by
  have hl : maxContainer < s.load.offset + d.length := hl
  simp [loadWindowFn, hs, hn, hl]

theorem loadWindowFn_foreign (hs : slotIn s .receiving = some h) (hn : s.load.session ≠ n) :
    loadWindowFn n d s = loadReply 0x0403 noElement s := by
  simp [loadWindowFn, hs, hn]

theorem loadEndFn_receiving (hs : slotIn s .receiving = some h) :
    loadEndFn s = (modSlot h (fun x => { x with st := .checking }) s, 0, []) := by
  simp [loadEndFn, hs, rOk]

theorem activateFn_valid (hv : slotIn s .valid = some h) (hc : slotIn s .checking = none) :
    activateFn 1 s = (modSlot h (fun x => { x with st := .pending }) s, 0, []) := by
  simp [activateFn, hv, hc, rOk]

theorem activateFn_noneValid (hv : slotIn s .valid = none) : activateFn 1 s = loadReply 0x0402 noElement s := by
  simp [activateFn, hv]

theorem activateFn_withdraws (hp : slotIn s .pending = some h) :
    activateFn 0 s = (modSlot h (fun x => { x with st := .valid }) s, 0, []) := by
  simp [activateFn, hp, rOk]

/-! ## Loads of programs -/

theorem progLoadReply_of_ne {code : Nat} (hc : code ≠ 0) (detail : Nat) (s : State) :
    progLoadReply code detail s =
      ({ s with progLoad := { s.progLoad with code := code, detail := detail } }, rFunction, be 2 code) := by
  simp [progLoadReply, functionReply, hc]

theorem abortChange_of_not_armed {code : Nat} (hs : s.view.prog.ps ≠ .armed) : abortChange code s = s := if_neg hs

theorem progOpenFn_free (hr : progSlotIn s .receiving = none) (hc : progSlotIn s .checking = none) (hu : s.upd.upd = false)
    (ha : s.view.prog.ps ≠ .armed) :
    progOpenFn n s = ({ s with progLoad := { s.progLoad with
      slots := twoPut s.progLoad.slots (progLoadSlot s) { ProgSlot.init with st := .receiving },
      offset := 0, session := n } }, 0, []) := by
  simp [progOpenFn, abortChange_of_not_armed ha, modProgSlot, twoMod, rOk, hr, hc, hu]

theorem progOpenFn_busy
    (hb : (progSlotIn s .receiving).isSome = true ∨ (progSlotIn s .checking).isSome = true ∨ s.upd.upd = true) :
    progOpenFn n s = progLoadReply 0x500E noElement s :=
  if_pos (by simpa [or_assoc] using hb)

theorem progWindowFn_written (hs : progSlotIn s .receiving = some h) (hn : s.progLoad.session = n)
    (hl : s.progLoad.offset + d.length ≤ 0x1000000) :
    progWindowFn n d s = ({ s with progLoad := { s.progLoad with
      slots := twoMod s.progLoad.slots h (fun x => { x with
        bytes := memWriteAll x.bytes s.progLoad.offset d, size := max x.size (s.progLoad.offset + d.length) }),
      offset := s.progLoad.offset + d.length } }, 0, []) := by
  have hl : ¬ maxContainer < s.progLoad.offset + d.length := Nat.not_lt.mpr hl
  simp [progWindowFn, modProgSlot, rOk, hs, hn, hl]

theorem progWindowFn_foreign (hs : progSlotIn s .receiving = some h) (hn : s.progLoad.session ≠ n) :
    progWindowFn n d s = progLoadReply 0x500F noElement s := by
  simp [progWindowFn, hs, hn]

theorem progEndFn_receiving (hs : progSlotIn s .receiving = some h) :
    progEndFn s = (modProgSlot h (fun x => { x with st := .checking }) s, 0, []) := by
  simp [progEndFn, hs, rOk]

end

/-! ## The rows -/

/-- Settles O31, row by row: each row is its load function, asked for by a session that may. -/
theorem dataAndProgramLoads : Obligations.DataAndProgramLoads := by
  refine ⟨fun s n ha hr => ⟨fun hb hp hu => ?_, fun hb => ?_, fun hb => ?_, fun h1 h2 hu hp => ?_⟩,
    fun s n h d ha hr h1 h2 hs => ⟨fun hn hl => ?_, fun hn hl => ?_, fun hn => ?_⟩,
    fun s n h d ha hr h1 h2 hs => ⟨fun hn hl => ?_, fun hn => ?_⟩,
    fun s n d ha hr hd => ⟨?_, ?_⟩,
    fun s n h ha hr => ⟨fun hs => ?_, fun hs => ?_, fun hv hc => ?_, fun hv => ?_, fun hp => ?_⟩,
    fun s n ha hr => ⟨?_, ?_⟩, fun s n d ha hr c hc => ?_⟩
  · exact next_asSlotSession ha hr (loadOpenFn_free hb hp hu)
  · exact next_asSlotSession ha hr ((loadOpenFn_busy hb).trans (loadReply_of_ne (by decide) _ _))
  · exact next_asSlotSession ha hr ((progOpenFn_busy hb).trans (progLoadReply_of_ne (by decide) _ _))
  · exact next_asSlotSession ha hr (progOpenFn_free h1 h2 hu hp)
  · exact next_asSlotSession ha hr ((windowFn_fits h1 h2).trans (loadWindowFn_written hs hn hl))
  · exact next_asSlotSession ha hr ((windowFn_fits h1 h2).trans (loadWindowFn_tooLarge hs hn hl))
  · exact next_asSlotSession ha hr
      ((windowFn_fits h1 h2).trans ((loadWindowFn_foreign hs hn).trans (loadReply_of_ne (by decide) _ _)))
  · exact next_asSlotSession ha hr ((windowFn_fits h1 h2).trans (progWindowFn_written hs hn hl))
  · exact next_asSlotSession ha hr
      ((windowFn_fits h1 h2).trans ((progWindowFn_foreign hs hn).trans (progLoadReply_of_ne (by decide) _ _)))
  · exact next_asSlotSession ha hr (windowFn_badLength hd)
  · exact next_asSlotSession ha hr (windowFn_badLength hd)
  · exact next_asSlotSession ha hr (loadEndFn_receiving hs)
  · exact next_asSlotSession ha hr (progEndFn_receiving hs)
  · exact next_asSlotSession ha hr (activateFn_valid hv hc)
  · exact next_asSlotSession ha hr ((activateFn_noneValid hv).trans (loadReply_of_ne (by decide) _ _))
  · exact next_asSlotSession ha hr (activateFn_withdraws hp)
  · refine ⟨_, next_asSlotSession ha hr rfl, rfl, fun h => ?_, rfl⟩
    simp
  · refine ⟨_, next_asSlotSession ha hr rfl, rfl, fun h => ?_, rfl⟩
    simp
  · simp only [List.mem_cons, List.not_mem_nil, or_false] at hc
    rcases hc with rfl | rfl | rfl | rfl | rfl | rfl | rfl | rfl | rfl | rfl <;>
      exact congrArg Host.Outcome.next (asSlotSession_noImages _ ha hr)

end Sys2Proof.Proofs
end

section
/-! PROOFS. The lanes' verdicts on a load and the signing keys (R73 to R76, R79, R80, R85, R303). -/

namespace Sys2Proof.Proofs

open Sys2Proof Sys2Proof.Machine Sys2Proof.Laws

/-! ## The vote on the verdicts -/

/-- One to three equal verdicts are adopted, and no lane is excluded. -/
theorem agreeVerdicts_same {v : LoadVerdict} : ∀ {l : List (Lane × LoadVerdict)}, l ≠ [] → l.length ≤ 3 → (∀ p ∈ l, p.2 = v) →
    agreeVerdicts l = (some v, none)
  | [], h, _, _ => absurd rfl h
  | [_], _, _, hv => by simp [agreeVerdicts, hv]
  | [_, _], _, _, hv => by simp [agreeVerdicts, hv]
  | [_, _, _], _, _, hv => by simp [agreeVerdicts, hv]
  | _ :: _ :: _ :: _ :: _, _, h, _ => absurd h (by simp)

theorem agreeVerdicts_distinct {l1 l2 l3 : Lane} {u v w : LoadVerdict} (huv : u ≠ v) (huw : u ≠ w) (hvw : v ≠ w) :
    agreeVerdicts [(l1, u), (l2, v), (l3, w)] = (none, none) := by
  simp [agreeVerdicts, huv, huw, hvw]

/-- Lanes without a fault report the verdict of their common copy. -/
theorem agreeVerdicts_unfaulted {s : State} (v : LoadVerdict) (hne : lanesInVote s ≠ []) (hl : (lanesInVote s).length ≤ 3) :
    agreeVerdicts (laneVerdicts s v ⟨none, none, none⟩) = (some v, none) := by
  refine agreeVerdicts_same (by simpa [laneVerdicts] using hne) (by simpa [laneVerdicts] using hl) fun p hp => ?_
  obtain ⟨l, -, rfl⟩ := List.mem_map.mp hp
  cases l <;> rfl

theorem lanesInVote_all {s : State} (h : (lanesInVote s).length = 3) : lanesInVote s = [.a, .b, .c] :=
  List.filter_sublist.eq_of_length h

section
variable {s : State} {h : Half} {f : Three (Option LoadVerdict)} {v : LoadVerdict}

/-! ## Station data accepted or refused -/

theorem loadChecked_adopts (hs : slotIn s .checking = some h)
    (ha : agreeVerdicts (laneVerdicts s (stationVerdict s (twoGet s.load.slots h).bytes (twoGet s.load.slots h).size) f) =
      (some v, none)) :
    loadChecked f s = if v.code = 0 then acceptLoad h s else refuseLoad h v.code v.detail s := by
  simp [loadChecked, hs, ha]

theorem loadChecked_disagreement (hs : slotIn s .checking = some h)
    (ha : agreeVerdicts (laneVerdicts s (stationVerdict s (twoGet s.load.slots h).bytes (twoGet s.load.slots h).size) f) =
      (none, none)) :
    loadChecked f s = refuseLoad h 0x0401 noElement s := by
  simp [loadChecked, hs, ha]

theorem loadChecked_idle (hs : slotIn s .checking = none) : loadChecked f s = s := by
  simp [loadChecked, hs]

/-- A load refused: event 88, and but for the report only the slot, the code with its detail and the session. -/
theorem refuseLoad_spec (h : Half) (code detail : Nat) (s : State) :
    (refuseLoad h code detail s).raised 88 ∧
    reported { s with load := { s.load with
      slots := twoMod s.load.slots h (fun y => { y with st := .refused }),
      code := code, detail := detail, session := 0xFF } } (refuseLoad h code detail s) :=
  ⟨raised_raiseRec (by decide), reported_raiseRec _ _ _ _ _ _ _⟩

theorem otherHalf_ne (h : Half) : otherHalf h ≠ h := by cases h <;> decide

/-- A load accepted: its slot is valid with the header's version, which is the highest, and the other slot is as before. -/
theorem acceptLoad_spec (h : Half) (s : State) : ∃ t, acceptLoad h s = t ∧ (twoGet t.load.slots h).st = .valid ∧
    (twoGet t.load.slots h).version = (readHead (twoGet s.load.slots h).bytes).version ∧
    (twoGet t.load.slots h).bytes = (twoGet s.load.slots h).bytes ∧ t.load.code = 0 ∧ t.load.session = 0xFF ∧
    t.load.highest = (readHead (twoGet s.load.slots h).bytes).version ∧ t.load.rollback = false ∧
    (s.load.site ≠ 0 → t.load.site = s.load.site) ∧
    twoGet t.load.slots (otherHalf h) = twoGet s.load.slots (otherHalf h) ∧ t = { s with load := t.load } := by
  refine ⟨_, rfl, ?_, ?_, ?_, rfl, rfl, rfl, rfl, fun hs => if_neg hs, ?_, rfl⟩
  · simp [acceptLoad, modSlot]
  · simp [acceptLoad, modSlot]
  · simp [acceptLoad, modSlot]
  · exact twoGet_mod_other _ _ (otherHalf_ne h)

/-! ## Programs accepted or refused -/

theorem progChecked_adopts (hs : progSlotIn s .checking = some h)
    (ha : agreeVerdicts (laneVerdicts s (progVerdict s (twoGet s.progLoad.slots h).bytes (twoGet s.progLoad.slots h).size) f) =
      (some v, none)) :
    progChecked f s = if v.code = 0 then acceptProg h s else refuseProg h v.code v.detail s := by
  simp [progChecked, hs, ha]

theorem progChecked_idle (hs : progSlotIn s .checking = none) : progChecked f s = s := by
  simp [progChecked, hs]

theorem refuseProg_spec (h : Half) (code detail : Nat) (s : State) :
    (refuseProg h code detail s).raised 85 ∧
    reported { s with progLoad := { s.progLoad with
      slots := twoMod s.progLoad.slots h (fun y => { y with st := .refused }),
      code := code, detail := detail, session := 0xFF } } (refuseProg h code detail s) :=
  ⟨raised_raiseRec (by decide), reported_raiseRec _ _ _ _ _ _ _⟩

theorem acceptProg_spec (h : Half) (s : State) : ∃ t, acceptProg h s = t ∧ (twoGet t.progLoad.slots h).st = .valid ∧
    (twoGet t.progLoad.slots h).parsed.isSome =
      (Config.parseProgram (twoGet s.progLoad.slots h).bytes (twoGet s.progLoad.slots h).size).isSome ∧
    t.progLoad.code = 0 ∧ t.progLoad.session = 0xFF ∧
    twoGet t.progLoad.slots (otherHalf h) = twoGet s.progLoad.slots (otherHalf h) ∧ t = { s with progLoad := t.progLoad } := by
  refine ⟨_, rfl, ?_, ?_, rfl, rfl, ?_, rfl⟩
  · simp [acceptProg, modProgSlot]
  · simp [acceptProg, modProgSlot]
  · exact twoGet_mod_other _ _ (otherHalf_ne h)

end

/-! ## Key actions -/

theorem reported_load {s t : State} (r : reported s t) : t.load = s.load := by rw [r.2]

/-- A key action's record takes the written key away and keeps the outcome. -/
theorem keyRec3_reported (code role finger n : Nat) (s : State) :
    reported { s with load := { s.load with keyWindow := [], keyOutcome := code } } (keyRec3 code role finger n s) :=
  reported_record _ _ _ _ _ _ _

/-- The state in which the key action takes what was written (log 21). -/
def keyWritten (key : List Byte) (s : State) : State := { s with load := { s.load with keyWindow := key } }

/-- A key action that a session may ask for, while the lanes run images, answers as its function. -/
theorem keyCommand_allowed {s : State} {n : Nat} (v : Nat) (key : List Byte) (ha : s.allows n .commissioner true)
    (hr : imagesRun s = true) : keyCommand n v key s =
      withResult ((keyActionFn n v (keyWritten key s)).2.1, (keyActionFn n v (keyWritten key s)).2.2)
        (keyActionFn n v (keyWritten key s)).1 := by
  have ha' : (keyWritten key s).allows n .commissioner true := ha
  have hr' : imagesRun (keyWritten key s) = true := hr
  exact (if_pos (sessRefusal_allowed ha')).trans (asSlotSession_allowed ha' hr')

/-- A key action that ends with a record: its answer, its outcome and what it leaves but for the report. -/
theorem keyCommand_records {s : State} {n v code role finger : Nat} {key : List Byte} {r : Nat × List Byte} {l : LoadSt}
    (ha : s.allows n .commissioner true) (hr : imagesRun s = true)
    (hf : keyActionFn n v (keyWritten key s) = (keyRec3 code role finger n { s with load := l }, r)) :
    ∃ t, keyCommand n v key s = t ∧ t.dict.result = r.1 ∧ t.dict.value = r.2 ∧
      t.load = { l with keyWindow := [], keyOutcome := code } ∧
      reported { s with load := { l with keyWindow := [], keyOutcome := code } } t := by
  have rep : reported { s with load := { l with keyWindow := [], keyOutcome := code } }
      (withResult r (keyRec3 code role finger n { s with load := l })) :=
    reported_trans (keyRec3_reported _ _ _ _ _) (reported_withResult _ _)
  refine ⟨_, ?_, rfl, rfl, reported_load rep, rep⟩
  rw [keyCommand_allowed v key ha hr, hf]

/-! ## Registering a key -/

/-- The places of a role (R73). -/
def roleKeys (l : LoadSt) (role : Nat) : List Nat := if role = 1 then l.compose else l.verify

theorem keyIn_eq (l : LoadSt) (role finger : Nat) :
    keyIn l role finger = (decide (finger ≠ 0) && (roleKeys l role).contains finger) := rfl

/-- A fingerprint, with its key, put into a place of a role. -/
def placeKey (role i finger : Nat) (key : List Byte) (l : LoadSt) : LoadSt := { l with
  compose := if role = 1 then l.compose.set i finger else l.compose,
  verify := if role = 1 then l.verify else l.verify.set i finger,
  pubKeys := l.pubKeys ++ [(finger, key)] }

theorem roleKeys_placeKey (role i finger : Nat) (key : List Byte) (l : LoadSt) :
    roleKeys (placeKey role i finger key l) role = (roleKeys l role).set i finger := by
  by_cases h : role = 1 <;> simp [roleKeys, placeKey, h]

/-- A key put into a place that there is stands in its role. -/
theorem keyIn_placeKey {role i finger : Nat} {key : List Byte} {l : LoadSt} (hf : finger ≠ 0) (hi : i < (roleKeys l role).length) :
    keyIn (placeKey role i finger key l) role finger = true := by
  have mem : finger ∈ (roleKeys l role).set i finger := List.mem_set hi finger
  simp [keyIn_eq, roleKeys_placeKey, hf, mem]

section
variable {s : State} {n role : Nat}

theorem keyActionFn_register (hrole : role = 1 ∨ role = 2) : keyActionFn n role s = registerFn role n s :=
  if_pos (by simpa using hrole)

section
variable (hk : s.load.keyWindow ≠ []) (hf : fingerprint s.load.keyWindow ≠ 0)
include hk hf

/-- A fingerprint that the other role holds is refused. -/
theorem registerFn_otherRole (ho : keyIn s.load (3 - role) (fingerprint s.load.keyWindow) = true) :
    registerFn role n s = (keyRec3 0x0202 role (fingerprint s.load.keyWindow) n s, rFunction, be 2 0x0202) :=
  (if_neg (by simp [hk, hf])).trans (if_pos ho)

variable (ho : keyIn s.load (3 - role) (fingerprint s.load.keyWindow) = false)
  (hm : keyIn s.load role (fingerprint s.load.keyWindow) = false)
include ho hm

/-- A fifth key is refused. -/
theorem registerFn_full (hi : (roleKeys s.load role).findIdx? (fun x => x = 0) = none) :
    registerFn role n s = (keyRec3 0x0301 role (fingerprint s.load.keyWindow) n s, rFunction, be 2 0x0301) := by
  have new : (roleKeys s.load role).contains (fingerprint s.load.keyWindow) = false := by simpa [keyIn_eq, hf] using hm
  unfold roleKeys at hi new
  simp only [registerFn, hi, new]
  rw [if_neg (by simp [hk, hf]), if_neg (by simp [ho]), if_neg (by simp)]

/-- A new fingerprint goes into the first free place of its role. -/
theorem registerFn_placed {i : Nat} (hi : (roleKeys s.load role).findIdx? (fun x => x = 0) = some i) :
    registerFn role n s = (keyRec3 0 role (fingerprint s.load.keyWindow) n
      { s with load := placeKey role i (fingerprint s.load.keyWindow) s.load.keyWindow s.load }, rOk, []) := by
  have new : (roleKeys s.load role).contains (fingerprint s.load.keyWindow) = false := by simpa [keyIn_eq, hf] using hm
  unfold roleKeys at hi new
  simp only [registerFn, hi, new]
  rw [if_neg (by simp [hk, hf]), if_neg (by simp [ho]), if_neg (by simp)]
  by_cases h : role = 1 <;> simp [placeKey, h]

end

/-! The two registrations by a Commissioner session with the key (R74). -/

section
variable {key : List Byte} (ha : s.allows n .commissioner true) (hr : imagesRun s = true) (hrole : role = 1 ∨ role = 2)
  (hk : key ≠ []) (hf : fingerprint key ≠ 0)
include ha hr hrole hk hf

theorem keyCommand_otherRole (ho : keyIn s.load (3 - role) (fingerprint key) = true) :
    ∃ t, keyCommand n role key s = t ∧ t.dict.result = rFunction ∧ t.dict.value = [0x02#8, 0x02#8] ∧
      t.load.keyOutcome = 0x0202 ∧ reported { s with load := { s.load with keyWindow := [], keyOutcome := 0x0202 } } t := by
  obtain ⟨t, ht, result, value, load, rep⟩ := keyCommand_records ha hr
    ((keyActionFn_register hrole).trans (registerFn_otherRole (s := keyWritten key s) hk hf ho))
  exact ⟨t, ht, result, value, by rw [load], rep⟩

theorem keyCommand_placed {i : Nat} (ho : keyIn s.load (3 - role) (fingerprint key) = false)
    (hm : keyIn s.load role (fingerprint key) = false) (hi : (roleKeys s.load role).findIdx? (fun x => x = 0) = some i) :
    ∃ t, keyCommand n role key s = t ∧ t.dict.result = 0 ∧ keyIn t.load role (fingerprint key) = true ∧
      reported { s with load := { placeKey role i (fingerprint key) key s.load with keyWindow := [], keyOutcome := 0 } } t := by
  obtain ⟨t, ht, result, -, load, rep⟩ := keyCommand_records ha hr
    ((keyActionFn_register hrole).trans (registerFn_placed (s := keyWritten key s) hk hf ho hm hi))
  refine ⟨t, ht, result, ?_, rep⟩
  rw [load]
  exact keyIn_placeKey (l := s.load) (key := key) hf (List.findIdx?_eq_some_iff_getElem.mp hi).1

theorem keyCommand_full (ho : keyIn s.load (3 - role) (fingerprint key) = false)
    (hm : keyIn s.load role (fingerprint key) = false) (hi : (roleKeys s.load role).findIdx? (fun x => x = 0) = none) :
    ∃ t, keyCommand n role key s = t ∧ t.dict.result = rFunction ∧ t.load.keyOutcome = 0x0301 ∧
      reported { s with load := { s.load with keyWindow := [], keyOutcome := 0x0301 } } t := by
  obtain ⟨t, ht, result, -, load, rep⟩ := keyCommand_records ha hr
    ((keyActionFn_register hrole).trans (registerFn_full (s := keyWritten key s) hk hf ho hm hi))
  exact ⟨t, ht, result, by rw [load], rep⟩

end
end

/-! ## Removing a key -/


/-- The places of a role with a fingerprint taken out. -/
def clearKey (finger : Nat) (k : List Nat) : List Nat := k.map (fun x => if x = finger then 0 else x)

theorem contains_clearKey_same {finger : Nat} (hf : finger ≠ 0) (k : List Nat) : (clearKey finger k).contains finger = false := by
  simp only [clearKey, List.contains_eq_mem, decide_eq_false_iff_not, List.mem_map, not_exists, not_and]
  intro x _ e
  split at e
  · exact hf e.symm
  · contradiction

theorem contains_clearKey_other {finger g : Nat} (hg : g ≠ finger) (h0 : g ≠ 0) (k : List Nat) :
    (clearKey finger k).contains g = k.contains g := by
  induction k with
  | nil => rfl
  | cons x k ih =>
    have head : (g == if x = finger then 0 else x) = (g == x) := by
      split
      · next e => simp [e, hg, h0]
      · rfl
    simp only [clearKey, List.map_cons, List.contains_cons] at ih ⊢
    rw [ih, head]

/-- A fingerprint taken out of both roles, with its key. -/
def dropKey (finger : Nat) (l : LoadSt) : LoadSt := { l with
  compose := clearKey finger l.compose, verify := clearKey finger l.verify, pubKeys := l.pubKeys.filter (fun k => k.1 ≠ finger) }

theorem roleKeys_dropKey (finger role : Nat) (l : LoadSt) : roleKeys (dropKey finger l) role = clearKey finger (roleKeys l role) := by
  by_cases h : role = 1 <;> simp [roleKeys, dropKey, h]

theorem keyIn_dropKey_same (finger role : Nat) (l : LoadSt) : keyIn (dropKey finger l) role finger = false := by
  by_cases hf : finger = 0
  · simp [keyIn_eq, hf]
  · rw [keyIn_eq, roleKeys_dropKey, contains_clearKey_same hf, Bool.and_false]

theorem keyIn_dropKey_other {finger g : Nat} (hg : g ≠ finger) (role : Nat) (l : LoadSt) :
    keyIn (dropKey finger l) role g = keyIn l role g := by
  by_cases h0 : g = 0
  · simp [keyIn_eq, h0]
  · rw [keyIn_eq, roleKeys_dropKey, contains_clearKey_other hg h0, keyIn_eq]

/-- A registered fingerprint of 8 bytes is taken out, with a record for its role. -/
theorem removeFn_registered {s : State} {n : Nat} (hd : s.load.keyWindow.length = 8)
    (hk : keyIn s.load 1 (ofBe s.load.keyWindow) = true ∨ keyIn s.load 2 (ofBe s.load.keyWindow) = true) :
    ∃ role, removeFn n s =
      (keyRec3 0 role (ofBe s.load.keyWindow) n { s with load := dropKey (ofBe s.load.keyWindow) s.load }, rOk, []) := by
  have role : (if keyIn s.load 1 (ofBe s.load.keyWindow) = true then 1
      else if keyIn s.load 2 (ofBe s.load.keyWindow) = true then 2 else 0) ≠ 0 := by
    split
    · decide
    · next h1 => rw [if_pos (hk.resolve_left h1)]; decide
  exact ⟨_, if_neg (by simp [hd, role])⟩

/-! ## A session without the level -/

theorem levelRank_lt_commissioner {l : Level} (h : l ≠ .commissioner) : levelRank l < levelRank .commissioner := by
  cases l with
  | observer | operator | maintainer => decide
  | commissioner => exact absurd rfl h

/-- LEVEL is answered before the key is looked at (R550). -/
theorem sessRefusal_low {s : State} {n : Nat} {min : Level} (key : Bool) (ho : (sessOf s n).opened = true)
    (hl : levelRank (sessOf s n).level < levelRank min) : sessRefusal s n min key = rLevel := by
  simp [sessRefusal, ho, hl]

theorem asSlotSession_refused {s : State} {n : Nat} {min : Level} {key : Bool} (f : State → State × Nat × List Byte)
    (h : sessRefusal s n min key ≠ rOk) : asSlotSession n min key f s = withResult (sessRefusal s n min key, []) s :=
  if_pos h

/-- A key action that the session may not ask for is recorded before it is answered. -/
theorem keyCommand_refused {s : State} {n : Nat} (v : Nat) (key : List Byte)
    (h : sessRefusal (keyWritten key s) n .commissioner true ≠ rOk) : keyCommand n v key s =
      asSlotSession n .commissioner true (keyActionFn n v) (keyRec3 0x0403 v (fingerprint key) n (keyWritten key s)) :=
  if_neg h

/-- A key action below Commissioner is refused with LEVEL, and recorded (R76). -/
theorem keyCommand_low {s : State} {n : Nat} (v : Nat) (key : List Byte) (ho : (sessOf s n).opened = true)
    (hl : (sessOf s n).level ≠ .commissioner) :
    ∃ t, keyCommand n v key s = t ∧ t.dict.result = rLevel ∧ t.load.keyOutcome = 0x0403 ∧
      reported { s with load := { s.load with keyWindow := [], keyOutcome := 0x0403 } } t := by
  have low := levelRank_lt_commissioner hl
  have recorded : reported { s with load := { s.load with keyWindow := [], keyOutcome := 0x0403 } }
      (keyRec3 0x0403 v (fingerprint key) n (keyWritten key s)) := keyRec3_reported _ _ _ _ _
  have kept := recorded.1.2.2 n
  have before : sessRefusal (keyWritten key s) n .commissioner true = rLevel := sessRefusal_low true ho low
  have after : sessRefusal (keyRec3 0x0403 v (fingerprint key) n (keyWritten key s)) n .commissioner true = rLevel :=
    sessRefusal_low true (by rw [kept]; exact ho) (by rw [kept]; exact low)
  have answer : keyCommand n v key s = withResult (rLevel, []) (keyRec3 0x0403 v (fingerprint key) n (keyWritten key s)) := by
    rw [keyCommand_refused v key (by rw [before]; decide), asSlotSession_refused _ (by rw [after]; decide), after]
  have rep := reported_trans recorded (reported_withResult (rLevel, []) _)
  exact ⟨_, answer, rfl, by rw [reported_load rep], rep⟩

/-! ## The rows -/

/-- Settles O32, row by row: the vote on the verdicts with what it adopts or refuses, then the key actions. -/
theorem verdictsAndKeys : Obligations.VerdictsAndKeys := by
  refine ⟨fun s h x hs hx hne hl => ⟨fun hc => ?_, fun hc => ?_⟩, fun s h x hs hx hne hl => ⟨fun hc => ?_, fun hc => ?_⟩,
    fun s h u v w hs hl huv huw hvw => ?_, fun s f hs => congrArg Host.Outcome.next (loadChecked_idle hs),
    fun s f hs => congrArg Host.Outcome.next (progChecked_idle hs), fun l1 l2 l3 a b hab => ?_,
    fun s n key c role ha hr hk hf hc => ?_, fun s n d ha hr hd hk => ?_, fun s n key ho hl c hc => ?_⟩
  · subst hx
    obtain ⟨t, ht, spec⟩ := acceptLoad_spec h s
    have e := loadChecked_adopts hs (agreeVerdicts_unfaulted _ hne hl)
    exact ⟨t, congrArg Host.Outcome.next ((e.trans (if_pos hc)).trans ht), spec⟩
  · subst hx
    have e := loadChecked_adopts hs (agreeVerdicts_unfaulted _ hne hl)
    exact ⟨_, congrArg Host.Outcome.next (e.trans (if_neg hc)), refuseLoad_spec _ _ _ _⟩
  · subst hx
    obtain ⟨t, ht, spec⟩ := acceptProg_spec h s
    have e := progChecked_adopts hs (agreeVerdicts_unfaulted _ hne hl)
    exact ⟨t, congrArg Host.Outcome.next ((e.trans (if_pos hc)).trans ht), spec⟩
  · subst hx
    have e := progChecked_adopts hs (agreeVerdicts_unfaulted _ hne hl)
    exact ⟨_, congrArg Host.Outcome.next (e.trans (if_neg hc)), refuseProg_spec _ _ _ _⟩
  · have apart (v0 : LoadVerdict) : agreeVerdicts (laneVerdicts s v0 ⟨some u, some v, some w⟩) = (none, none) := by
      rw [laneVerdicts, lanesInVote_all hl]
      exact agreeVerdicts_distinct huv huw hvw
    exact ⟨_, congrArg Host.Outcome.next (loadChecked_disagreement hs (apart _)), refuseLoad_spec _ _ _ _⟩
  · simp [agreeVerdicts, hab, hab.symm]
  · have hrole : role = 1 ∨ role = 2 := hc.imp And.right And.right
    have e : exec c s = .next (keyCommand n role key s) := by rcases hc with ⟨rfl, rfl⟩ | ⟨rfl, rfl⟩ <;> rfl
    rw [e]
    refine ⟨fun other => ?_, fun other mine => ⟨fun i hi => ?_, fun hi => ?_⟩⟩
    · obtain ⟨t, ht, spec⟩ := keyCommand_otherRole ha hr hrole hk hf other
      exact ⟨t, congrArg _ ht, spec⟩
    · obtain ⟨t, ht, spec⟩ := keyCommand_placed ha hr hrole hk hf other mine hi
      exact ⟨t, congrArg _ ht, spec⟩
    · obtain ⟨t, ht, spec⟩ := keyCommand_full ha hr hrole hk hf other mine hi
      exact ⟨t, congrArg _ ht, spec⟩
  · obtain ⟨role, remove⟩ := removeFn_registered (s := keyWritten d s) (n := n) hd hk
    obtain ⟨t, ht, result, -, load, rep⟩ := keyCommand_records (v := 3) ha hr remove
    refine ⟨t, congrArg Host.Outcome.next ht, result, ?_, ?_, fun g hg r => ?_, ?_⟩
    · rw [load]; exact keyIn_dropKey_same _ _ _
    · rw [load]; exact keyIn_dropKey_same _ _ _
    · rw [load]; exact keyIn_dropKey_other (l := s.load) hg r
    · rw [load]; exact rep
  · simp only [List.mem_cons, List.not_mem_nil, or_false] at hc
    obtain ⟨v, e⟩ : ∃ v, exec c s = .next (keyCommand n v key s) := by
      rcases hc with rfl | rfl | rfl
      exacts [⟨1, rfl⟩, ⟨2, rfl⟩, ⟨3, rfl⟩]
    obtain ⟨t, ht, spec⟩ := keyCommand_low v key ho hl
    exact ⟨t, e.trans (congrArg _ ht), spec⟩

end Sys2Proof.Proofs
end

section
/-! PROOFS. The refutation of O22: HOLD-FULL names no element (R110, Table 3.2). -/

namespace Sys2Proof.Proofs

open Sys2Proof Sys2Proof.Machine

/-! ## A request that would be held while 256 others are -/

/-- A route over section 2. -/
def routeOverTwo : RouteRec :=
  { num := 1, entry := 20, exit := 21, dir := .rising, elems := [.sec 2], overlaps := [], flank := [], prio := 0, aspect := 1,
    approach := 0, opS := 60 }

/-- A station of section 2 and that route. -/
def oneRouteStation : Station := { Station.none with
  sections := [{ num := 2, line := 1, start := 0, fin := 100000, occ := ⟨0, 0, false, 0⟩, point := none, low := .stop,
                 high := .stop, maxOcc := 0 }]
  routes := [routeOverTwo] }

/-- The surroundings of the kernel after reset, with that station. -/
def oneRouteEnv : KEnv := { kenv State.reset with st := oneRouteStation }

/-- A set request for route 1 from port 2 with HOLD. -/
def holdRequest : Req :=
  { cls := 2, hold := true, opt := 0, all := false, resv := false, target := 1, tag := 9, stamp := 5, port := 2, level := .operator,
    epoch := 0, session := 0 }

/-- A held set request for route 7 from port 3. -/
def otherHeld : Held := { req := { holdRequest with target := 7, port := 3 }, tries := 0, code := cSecOccupied, detail := 2 }

/-- A kernel in the Run state in which no input is active, section 2 is occupied, and 256 requests are held (R110). -/
def fullKernel : Kernel :=
  { Kernel.init with image := { CycleImage.init with num := 100, run := true }, held := List.replicate 256 otherHeld }

/-- A run of that kernel. -/
def fullRun : KRun := ⟨fullKernel, [], [], []⟩

theorem checkRoute_fullRun : checkRoute oneRouteEnv fullRun.k routeOverTwo holdRequest.opt = .inr (0x1103, 2) := by decide

theorem not_same_of_mem_fullRun {h : Held} (hm : h ∈ fullRun.k.held) :
    ¬(h.req.cls = 2 ∧ h.req.target = holdRequest.target) := by
  rw [List.eq_of_mem_replicate hm]
  decide

theorem heldOf_fullRun : heldOf fullRun.k holdRequest = none :=
  List.find?_eq_none.mpr fun h hm => by rw [List.eq_of_mem_replicate hm]; decide

/-- A set request that fails the checks of R101 is refused with the code and the element of the failure. -/
theorem applyReq_checkFailed {e : KEnv} {x : KRun} {q : Req} {r : RouteRec} {code elt : Nat} (hc : q.cls = 2) (hp : q.port ≠ 1)
    (hv : validity e x.k q = none) (hr : routeRec e.st q.target = some r) (ho : q.opt ≤ r.overlaps.length)
    (hn : x.k.newRes.contains q.target = false) (hh : ∀ h ∈ x.k.held, ¬(h.req.cls = 2 ∧ h.req.target = q.target))
    (hs : (rst x.k q.target).state = .released) (hf : checkRoute e x.k r q.opt = .inr (code, elt)) :
    applyReq e q x = refuse e q code elt x := by
  have alone : x.k.held.any (fun h => h.req.cls = 2 && h.req.target = q.target && !sameReq h.req q) = false := by
    simp only [List.any_eq_false, Bool.and_eq_true, decide_eq_true_eq]
    exact fun h hm same => hh h hm same.1
  simp only [applyReq, applySet, hv, hp, hc, hr, hs, hn, alone, hf, holding, rstateCode, Nat.not_lt.mpr ho]
  simp

/-- A request that would be held while 256 are held is refused with HOLD-FULL, whose detail is no element (R110). -/
theorem lastResult_refuse_full {e : KEnv} {x : KRun} {q : Req} {code : Nat} (elt : Nat) (hq : q.hold = true)
    (hc : holdable code = true) (hn : heldOf x.k q = none) (full : 256 ≤ x.k.held.length) :
    lastResult (refuse e q code elt x).k q.port = some ⟨q.tag, q.cls, 3, q.target, 0x100B, 0xFFFF, x.k.image.num⟩ := by
  have heldSame (c : Nat) (y : KRun) : (noteCode e q c y).k.held = y.k.held := by unfold noteCode; split <;> rfl
  have imageSame (c : Nat) (y : KRun) : (noteCode e q c y).k.image = y.k.image := by unfold noteCode; split <;> rfl
  have notHeld : heldOf (noteCode e q code x).k q = none := by rw [heldOf, heldSame]; exact hn
  simp only [refuse, notHeld, hq, hc, Bool.and_self, if_true, heldSame, heldCap, if_pos full, reqResult, lastResult_kResult,
    imageSame]
  rfl

/-- Refutes O22: in the clause of a request that fails a check while 256 are held. The code of its refusal is then HOLD-FULL, a
code about no element, so the detail is 0xFFFF (R110) and not the element of the failed check. -/
theorem not_setRequests : ¬ Obligations.SetRequests := by
  unfold Obligations.SetRequests
  rintro ⟨-, -, -, -, refused, -⟩
  obtain ⟨y, hy, -, -, full, -⟩ := refused oneRouteEnv fullRun holdRequest routeOverTwo 0x1103 2 rfl (by decide) (by decide) rfl
    (by decide) rfl (fun _ => not_same_of_mem_fullRun) heldOf_fullRun rfl checkRoute_fullRun (by decide) (by decide)
  have many : 256 ≤ fullRun.k.held.length := (List.length_replicate ..).ge
  have detail := (full rfl many).1
  rw [hy, applyReq_checkFailed rfl (by decide) (by decide) rfl (by decide) rfl (fun _ => not_same_of_mem_fullRun) rfl
    checkRoute_fullRun, lastResult_refuse_full 2 rfl (by decide) heldOf_fullRun many] at detail
  exact absurd detail (by decide)

end Sys2Proof.Proofs
end

section
/-! PROOFS. Routes that go to released (R126, R135, R660, Table 3.6): what transition 10 makes of a run, for one route and for
several, one after another. -/

namespace Sys2Proof.Proofs

open Sys2Proof Sys2Proof.Machine Sys2Proof.Laws

/-! ## Rows of the kernel -/

theorem exists_kernelRow {c : Instr} {s : State} {f : KEnv → KRun → KRun} (hv : imageVoted s = false)
    (hc : exec c s = .next (laneRow f s)) : ∃ t, exec c s = .next t ∧ kernelRow f s t :=
  ⟨_, hc, kernelRow_laneRow f s hv⟩

/-! ## Messages to the neighbour -/

theorem mem_reserves_kSend (m : Option ReserveMsg) (x : KRun) (v : ReserveMsg) :
    v ∈ (kSend m x).reserves ↔ v ∈ x.reserves ∨ m = some v := by
  cases m with
  | none => simp [kSend]
  | some w =>
    by_cases hw : w ∈ x.reserves
    · simp only [kSend, List.contains_iff_mem, hw, if_true, Option.some.injEq]
      exact ⟨.inl, fun h => h.elim id (fun e => e ▸ hw)⟩
    · simp [kSend, hw, eq_comm]

/-! ## What R660 and a signal at stop leave alone -/

section
variable (e : KEnv) (n m : Nat) (x : KRun)

@[simp] theorem rst_keepMoves : rst (keepMoves e n x).k m = rst x.k m := by rw [(keepMoves_spec e n x).1]; rfl
@[simp] theorem gst_keepMoves : gst (keepMoves e n x).k m = gst x.k m := by rw [(keepMoves_spec e n x).1]; rfl
@[simp] theorem image_keepMoves : (keepMoves e n x).k.image = x.k.image := by rw [(keepMoves_spec e n x).1]
@[simp] theorem evs_keepMoves : (keepMoves e n x).evs = x.evs := by rw [(keepMoves_spec e n x).1]
@[simp] theorem recs_keepMoves : (keepMoves e n x).recs = x.recs := by rw [(keepMoves_spec e n x).1]

theorem reserves_keepMoves : (keepMoves e n x).reserves = x.reserves := by rw [(keepMoves_spec e n x).1]

theorem rst_signalStop : rst (signalStop e n x).k m = rst x.k m := by rw [(signalStop_spec e n x).1]; rfl

end

/-! ## A route released -/

/-- What a run becomes when a route goes to released with a code (R126, R135): its status keeps the code, the emergency mark and
its request, its entry signal stands at stop, its kernel events are gone, its setting port and a canceller at another port have
RELEASED, the neighbour of its boundary gets the cancel, and every other route stays. -/
structure RouteReleased (e : KEnv) (n code detail : Nat) (x y : KRun) : Prop where
  route : rst y.k n = { RouteSt.init with
    code := code, emrg := (rst x.k n).emrg, port := (rst x.k n).port, tag := (rst x.k n).tag, cls := (rst x.k n).cls }
  others : ∀ m, m ≠ n → rst y.k m = rst x.k m
  events : ∀ w ∈ y.k.events, w.app = true ∨ w.owner ≠ n
  entry : ∀ r, routeRec e.st n = some r →
    gst y.k r.entry = if (gst x.k r.entry).route = some n then ⟨0, none, 0⟩ else gst x.k r.entry
  signals : ∀ r, routeRec e.st n = some r → ∀ m, m ≠ r.entry → gst y.k m = gst x.k m
  reserves : ∀ r, routeRec e.st n = some r →
    ∀ v, v ∈ y.reserves ↔ v ∈ x.reserves ∨ reserveMsg e r 2 x.k.image.num = some v
  result : lastResult y.k (rst x.k n).port =
    some ⟨(rst x.k n).tag, (rst x.k n).cls, 0x15, n, code, detail, x.k.image.num⟩
  canceller : ∀ p, (rst x.k n).canceller = some p → p ≠ (rst x.k n).port → lastResult y.k p =
    some ⟨(rst x.k n).cancelTag, (rst x.k n).cancelCls, 0x15, n, code, detail, x.k.image.num⟩
  recs : y.recs = x.recs
  kernel : y.k = { x.k with
    routes := y.k.routes, points := y.k.points, signals := y.k.signals, results := y.k.results, events := y.k.events,
    frozen := y.k.frozen }

section
variable {e : KEnv} {n code detail : Nat} {x : KRun}

theorem routeReleased_toReleased (hc : code ≠ 0) (freeze : Bool) :
    RouteReleased e n code detail x (toReleased e n code detail freeze x) := by
  obtain ⟨y, rfl, route, others, events, signals, result, canceller, -, recs, kernel⟩ :=
    toReleased_spec e n code detail freeze x
  exact {
    route := by rw [route, if_neg hc]
    others, events, result, canceller, recs
    entry := fun r hr => (signals r hr).1
    signals := fun r hr => (signals r hr).2.1
    reserves := fun r hr v => by rw [(signals r hr).2.2]; exact mem_reserves_kSend _ _ _
    kernel := by rw [kernel] }

theorem evs_toReleased (freeze : Bool) : (toReleased e n code detail freeze x).evs = x.evs := by
  obtain ⟨y, rfl, -, -, -, -, -, -, evs, -⟩ := toReleased_spec e n code detail freeze x
  exact evs

theorem points_toReleased (freeze : Bool) : (toReleased e n code detail freeze x).k.points = x.k.points := by
  obtain ⟨y, rfl, -, -, -, -, -, -, -, -, kernel⟩ := toReleased_spec e n code detail freeze x
  rw [kernel]

/-- R660 touches nothing that the release itself speaks of. -/
theorem RouteReleased.of_keepMoves {y : KRun} (h : RouteReleased e n code detail (keepMoves e n x) y) :
    RouteReleased e n code detail x y := by
  obtain ⟨route, others, events, entry, signals, reserves, result, canceller, recs, kernel⟩ := h
  simp only [rst_keepMoves, gst_keepMoves, image_keepMoves, recs_keepMoves, reserves_keepMoves] at *
  refine ⟨route, others, events, entry, signals, reserves, result, canceller, recs, kernel.trans ?_⟩
  rw [(keepMoves_spec e n x).1]

/-! ## Transition 10 of one route -/

/-- The run in which transition 10 releases the route: with event 63 where the boundary is at fault (Table 13.21). -/
def boundaryNoted (n code : Nat) (x : KRun) : KRun := if code = cBndRefused then kEv 63 n x else x

@[simp] theorem boundaryNoted_k : (boundaryNoted n code x).k = x.k := by unfold boundaryNoted; split <;> rfl
@[simp] theorem boundaryNoted_recs : (boundaryNoted n code x).recs = x.recs := by unfold boundaryNoted; split <;> rfl
@[simp] theorem boundaryNoted_reserves : (boundaryNoted n code x).reserves = x.reserves := by unfold boundaryNoted; split <;> rfl

theorem boundaryNoted_of_ne (hc : code ≠ cBndRefused) : boundaryNoted n code x = x := if_neg hc

theorem transition10_eq_toReleased (hs : (rst x.k n).state = .reserved ∨ (rst x.k n).state = .moving) :
    transition10 e n code detail x = toReleased e n code detail true (keepMoves e n (boundaryNoted n code x)) :=
  transition10_eq e n code detail x hs

theorem routeReleased_transition10 (hc : code ≠ 0) (hs : (rst x.k n).state = .reserved ∨ (rst x.k n).state = .moving) :
    RouteReleased e n code detail x (transition10 e n code detail x) := by
  rw [transition10_eq_toReleased hs]
  obtain ⟨route, others, events, entry, signals, reserves, result, canceller, recs, kernel⟩ :=
    RouteReleased.of_keepMoves (routeReleased_toReleased (e := e) (detail := detail)
      (x := keepMoves e n (boundaryNoted n code x)) hc true)
  simp only [boundaryNoted_k, boundaryNoted_recs, boundaryNoted_reserves] at *
  exact ⟨route, others, events, entry, signals, reserves, result, canceller, recs, kernel⟩

theorem evs_transition10 (hs : (rst x.k n).state = .reserved ∨ (rst x.k n).state = .moving) :
    (transition10 e n code detail x).evs = (boundaryNoted n code x).evs := by
  rw [transition10_eq_toReleased hs, evs_toReleased, evs_keepMoves]

theorem evs_transition10_of_ne (hc : code ≠ cBndRefused) : (transition10 e n code detail x).evs = x.evs := by
  by_cases hs : (rst x.k n).state = .reserved ∨ (rst x.k n).state = .moving
  · rw [evs_transition10 hs, boundaryNoted_of_ne hc]
  · rw [transition10_none e n code detail x hs]

theorem rst_transition10_other (hc : code ≠ 0) {m : Nat} (hm : m ≠ n) :
    rst (transition10 e n code detail x).k m = rst x.k m := by
  by_cases hs : (rst x.k n).state = .reserved ∨ (rst x.k n).state = .moving
  · exact (routeReleased_transition10 hc hs).others m hm
  · rw [transition10_none e n code detail x hs]

theorem crossings_transition10 (hc : code ≠ 0) : (transition10 e n code detail x).k.crossings = x.k.crossings := by
  by_cases hs : (rst x.k n).state = .reserved ∨ (rst x.k n).state = .moving
  · rw [(routeReleased_transition10 hc hs).kernel]
  · rw [transition10_none e n code detail x hs]

/-- Transition 10 starts no movement and clears no failure of a point (R660). -/
theorem pst_transition10 (p : Nat) :
    (pst (transition10 e n code detail x).k p).failed = (pst x.k p).failed ∧
    ((pst x.k p).mv = none → (pst (transition10 e n code detail x).k p).mv = none) := by
  by_cases hs : (rst x.k n).state = .reserved ∨ (rst x.k n).state = .moving
  · obtain ⟨-, failed, mv⟩ := keepMoves_spec e n (boundaryNoted n code x)
    rw [boundaryNoted_k] at failed mv
    rw [transition10_eq_toReleased hs, pst, points_toReleased]
    exact ⟨failed p, mv p⟩
  · rw [transition10_none e n code detail x hs]
    exact ⟨rfl, id⟩

end

/-! ## Transition 10 of several routes -/

/-- A route that a run over a list of routes takes from one condition to a lasting other one, when no other route's turn
touches it. -/
theorem foldl_settles {f : KRun → Nat → KRun} {P Q : RouteSt → Prop} {n : Nat}
    (other : ∀ x m, m ≠ n → rst (f x m).k n = rst x.k n) (settle : ∀ x, P (rst x.k n) → Q (rst (f x n).k n))
    (stay : ∀ x, Q (rst x.k n) → Q (rst (f x n).k n))
    {l : List Nat} {x : KRun} (hn : n ∈ l) (hp : P (rst x.k n)) : Q (rst (l.foldl f x).k n) := by
  have lasts (l : List Nat) (y : KRun) (hq : Q (rst y.k n)) : Q (rst (l.foldl f y).k n) := by
    refine List.foldlRecOn (motive := fun z : KRun => Q (rst z.k n)) l f hq (fun z hz a _ => ?_)
    by_cases ha : a = n
    · exact ha ▸ stay z hz
    · rw [other z a ha]
      exact hz
  induction l generalizing x with
  | nil => exact absurd hn List.not_mem_nil
  | cons m l ih =>
    rw [List.foldl_cons]
    by_cases hm : m = n
    · exact lasts l _ (hm ▸ settle x hp)
    · exact ih ((List.mem_cons.mp hn).resolve_left (Ne.symm hm)) (by rw [other x m hm]; exact hp)

/-- Transition 10 of several routes, one after another. -/
def releaseAll (e : KEnv) (code detail : Nat) (l : List Nat) (x : KRun) : KRun :=
  l.foldl (fun x n => transition10 e n code detail x) x

section
variable {e : KEnv} {code detail : Nat} {l : List Nat} {x : KRun}

theorem rst_releaseAll (hc : code ≠ 0) {n : Nat} (hn : n ∈ l)
    (hs : (rst x.k n).state = .reserved ∨ (rst x.k n).state = .moving) :
    (rst (releaseAll e code detail l x).k n).state = .released ∧ (rst (releaseAll e code detail l x).k n).code = code := by
  refine foldl_settles (P := fun s => s.state = .reserved ∨ s.state = .moving)
    (Q := fun s => s.state = .released ∧ s.code = code) (fun x m hm => rst_transition10_other hc (Ne.symm hm))
    (fun x hp => ?_) (fun x hq => ?_) hn hs
  · rw [(routeReleased_transition10 hc hp).route]
    exact ⟨rfl, rfl⟩
  · rw [transition10_none e n code detail x (by rw [hq.1]; decide)]
    exact hq

theorem evs_releaseAll (hc : code ≠ cBndRefused) : (releaseAll e code detail l x).evs = x.evs :=
  List.foldlRecOn (motive := fun y : KRun => y.evs = x.evs) l _ rfl (fun _ hy _ _ => (evs_transition10_of_ne hc).trans hy)

theorem crossings_releaseAll (hc : code ≠ 0) : (releaseAll e code detail l x).k.crossings = x.k.crossings :=
  List.foldlRecOn (motive := fun y : KRun => y.k.crossings = x.k.crossings) l _ rfl
    (fun _ hy _ _ => (crossings_transition10 hc).trans hy)

theorem failed_releaseAll (p : Nat) : (pst (releaseAll e code detail l x).k p).failed = (pst x.k p).failed :=
  List.foldlRecOn (motive := fun y : KRun => (pst y.k p).failed = (pst x.k p).failed) l _ rfl
    (fun _ hy _ _ => (pst_transition10 p).1.trans hy)

theorem mv_releaseAll {p : Nat} (hp : (pst x.k p).mv = none) : (pst (releaseAll e code detail l x).k p).mv = none :=
  List.foldlRecOn (motive := fun y : KRun => (pst y.k p).mv = none) l _ hp (fun _ hy _ _ => (pst_transition10 p).2 hy)

end

end Sys2Proof.Proofs
end

section
/-! PROOFS. Cancels and emergency cancels: a refusal, a route released at once, one that is approached, and all routes at a time
(R108, R124 to R126, R146). -/

namespace Sys2Proof.Proofs

open Sys2Proof Sys2Proof.Machine Sys2Proof.Laws

/-! ## A cancel on its way to the route -/

/-- The record that an emergency cancel leaves (R125). -/
def emergencyRecorded (q : Req) (x : KRun) : KRun :=
  if q.cls = 0 then
    kRec 2 0xFF 0 q.port (be 1 q.port ++ be 2 q.session ++ be 4 q.tag ++ be 2 (if q.all then 0xFFFF else q.target)) x
  else x

/-- A cancel accepted. -/
def cancelAccepted (q : Req) (x : KRun) : KRun := reqResult q 1 0 noElem (emergencyRecorded q x)

/-- The code of a cancel (Table 3.7). -/
def cancelCode (q : Req) : Nat := if q.cls = 0 then cEmergency else cCancel

theorem cancelCode_cases (q : Req) : cancelCode q ≠ 0 ∧ cancelCode q ≠ cBndRefused := by unfold cancelCode; split <;> decide

theorem cancelCode_eq {q : Req} {c : Nat} (hc : q.cls = 1 ∧ c = 0x2009 ∨ q.cls = 0 ∧ c = 0x200A) : cancelCode q = c := by
  obtain ⟨hq, rfl⟩ | ⟨hq, rfl⟩ := hc <;> simp [cancelCode, hq, cCancel, cEmergency]

/-- A route's status with who cancels it (R124, R125). -/
def withCanceller (q : Req) (s : RouteSt) : RouteSt :=
  { s with emrg := s.emrg || q.cls = 0, canceller := some q.port, cancelTag := q.tag, cancelCls := q.cls }

/-- A run with an emergency cancel's mark on the route (R125). -/
def markEmergency (q : Req) (n : Nat) (x : KRun) : KRun :=
  if q.cls = 0 then modRoute n (fun s => { s with emrg := true }) x else x

/-- A run with who cancels it marked on the route. -/
def markCancel (q : Req) (n : Nat) (x : KRun) : KRun :=
  modRoute n (fun s => { s with canceller := some q.port, cancelTag := q.tag, cancelCls := q.cls }) (markEmergency q n x)

section
variable {e : KEnv} {q : Req} {x : KRun} {n : Nat}

@[simp] theorem emergencyRecorded_k : (emergencyRecorded q x).k = x.k := by unfold emergencyRecorded; split <;> rfl
@[simp] theorem emergencyRecorded_evs : (emergencyRecorded q x).evs = x.evs := by unfold emergencyRecorded; split <;> rfl
@[simp] theorem emergencyRecorded_reserves : (emergencyRecorded q x).reserves = x.reserves := by
  unfold emergencyRecorded; split <;> rfl

theorem emergencyRecorded_recs (hq : q.cls = 1) : (emergencyRecorded q x).recs = x.recs := by
  rw [emergencyRecorded, if_neg (by rw [hq]; decide)]

theorem cancelAccepted_k : (cancelAccepted q x).k = { x.k with results := (cancelAccepted q x).k.results } := by
  rw [cancelAccepted, reqResult, kResult_k, emergencyRecorded_k]

@[simp] theorem rst_cancelAccepted (m : Nat) : rst (cancelAccepted q x).k m = rst x.k m := by rw [cancelAccepted_k]; rfl
@[simp] theorem gst_cancelAccepted (m : Nat) : gst (cancelAccepted q x).k m = gst x.k m := by rw [cancelAccepted_k]; rfl
@[simp] theorem image_cancelAccepted : (cancelAccepted q x).k.image = x.k.image := by rw [cancelAccepted_k]
@[simp] theorem cancelAccepted_evs : (cancelAccepted q x).evs = x.evs := emergencyRecorded_evs
@[simp] theorem cancelAccepted_reserves : (cancelAccepted q x).reserves = x.reserves := emergencyRecorded_reserves

theorem lastResult_cancelAccepted :
    lastResult (cancelAccepted q x).k q.port = some ⟨q.tag, q.cls, 1, q.target, 0, 0xFFFF, x.k.image.num⟩ := by
  rw [cancelAccepted, reqResult, lastResult_kResult, emergencyRecorded_k]; rfl

theorem rst_markEmergency_other {m : Nat} (hm : m ≠ n) : rst (markEmergency q n x).k m = rst x.k m := by
  unfold markEmergency
  split
  · exact rst_modRoute_other _ _ hm
  · rfl

theorem markCancel_eq : markCancel q n x = { x with k := { x.k with routes := (markCancel q n x).k.routes } } := by
  unfold markCancel markEmergency; split <;> rfl

theorem rst_markCancel : rst (markCancel q n x).k n = withCanceller q (rst x.k n) := by
  rw [markCancel, rst_modRoute, markEmergency]
  split
  · rename_i hq
    simp [withCanceller, rst_modRoute, hq]
  · rename_i hq
    simp [withCanceller, hq]

theorem rst_markCancel_other {m : Nat} (hm : m ≠ n) : rst (markCancel q n x).k m = rst x.k m := by
  rw [markCancel, rst_modRoute_other _ _ hm, rst_markEmergency_other hm]

@[simp] theorem gst_markCancel (m : Nat) : gst (markCancel q n x).k m = gst x.k m := by rw [markCancel_eq]; rfl
@[simp] theorem image_markCancel : (markCancel q n x).k.image = x.k.image := by rw [markCancel_eq]
@[simp] theorem evs_markCancel : (markCancel q n x).evs = x.evs := by rw [markCancel_eq]
theorem reserves_markCancel : (markCancel q n x).reserves = x.reserves := by rw [markCancel_eq]
theorem points_markCancel : (markCancel q n x).k.points = x.k.points := by rw [markCancel_eq]
theorem events_markCancel : (markCancel q n x).k.events = x.k.events := by rw [markCancel_eq]

/-! ## What a cancel makes of one route -/

theorem cancelRoute1_transition10 (hs : (rst x.k n).state = .reserved ∨ (rst x.k n).state = .moving) :
    cancelRoute1 e q n x = transition10 e n (cancelCode q) noElem (markCancel q n x) := by
  obtain hs | hs := hs <;> simp [cancelRoute1, hs, markCancel, markEmergency, cancelCode]

theorem cancelRoute1_toReleased (hs : (rst x.k n).state = .locked ∨ (rst x.k n).state = .cleared)
    (ha : (rst x.k n).appr = false) :
    cancelRoute1 e q n x = toReleased e n (cancelCode q) noElem true (markCancel q n x) := by
  obtain hs | hs := hs <;> simp [cancelRoute1, hs, ha, markCancel, markEmergency, cancelCode]

theorem cancelRoute1_released (hs : (rst x.k n).state = .released) : cancelRoute1 e q n x = x := by
  simp [cancelRoute1, hs]

/-- The status of an approached route that a cancel takes to releasing (R146). -/
def releasingBy (code : Nat) (s : RouteSt) : RouteSt :=
  { s with state := .releasing, approachRel := true, passed := false, code := code, relCode := code, repl := false, distRun := 0 }

/-- An approached route's cancel, but for its time of operation (R146). -/
def approachedReleasing (e : KEnv) (q : Req) (n : Nat) (x : KRun) : KRun :=
  onK (dropEvent n .frontWithin) (modRoute n (releasingBy (cancelCode q)) (signalStop e n (markCancel q n x)))

/-- The time of operation of an approached route (R146). -/
def operationTime (e : KEnv) (n : Nat) (r : RouteRec) (img : Nat) : SEvent :=
  { kind := .elapsed, app := false, carrier := 0xFFFF, target := startSec e.st r, line := 0xFFFF, threshold := 0,
    amount := e.images (r.opS * secNs), image := img, owner := n, dir := r.dir }

theorem cancelRoute1_approached (hs : (rst x.k n).state = .locked ∨ (rst x.k n).state = .cleared) (ha : (rst x.k n).appr = true) :
    cancelRoute1 e q n x = (routeRec e.st n).elim (approachedReleasing e q n x)
      (fun r => arm e (operationTime e n r (approachedReleasing e q n x).k.image.num) (approachedReleasing e q n x)) := by
  cases hr : routeRec e.st n <;> obtain hs | hs := hs <;>
    simp [cancelRoute1, hs, ha, hr, approachedReleasing, markCancel, markEmergency, cancelCode, operationTime] <;> rfl

/-! ## A route released at once -/

theorem routeReleased_cancelRoute1
    (hs : (rst x.k n).state = .reserved ∨ (rst x.k n).state = .moving ∨
      ((rst x.k n).state = .locked ∨ (rst x.k n).state = .cleared) ∧ (rst x.k n).appr = false) :
    RouteReleased e n (cancelCode q) noElem (markCancel q n x) (cancelRoute1 e q n x) ∧
    (cancelRoute1 e q n x).evs = x.evs ∧
    ((rst x.k n).state = .locked ∨ (rst x.k n).state = .cleared → (cancelRoute1 e q n x).k.points = x.k.points) := by
  obtain ⟨hc, hb⟩ := cancelCode_cases q
  rcases or_assoc.mpr hs with hs | ⟨hs, ha⟩
  · have hm : (rst (markCancel q n x).k n).state = .reserved ∨ (rst (markCancel q n x).k n).state = .moving := by
      rw [rst_markCancel]; exact hs
    rw [cancelRoute1_transition10 hs]
    refine ⟨routeReleased_transition10 hc hm, (evs_transition10_of_ne hb).trans evs_markCancel, fun h => ?_⟩
    rcases hs with hs | hs <;> simp [hs] at h
  · rw [cancelRoute1_toReleased hs ha]
    exact ⟨routeReleased_toReleased hc true, (evs_toReleased true).trans evs_markCancel,
      fun _ => (points_toReleased true).trans points_markCancel⟩

/-! ## A route that is approached -/

theorem mem_evInsert (v : SEvent) : ∀ l, v ∈ evInsert v l
  | [] => List.mem_cons_self
  | w :: l => by
    rw [evInsert]
    split
    · exact List.mem_cons_self
    · exact List.mem_cons_of_mem _ (mem_evInsert v l)

/-- An event of the kernel armed while the scheduler has room (R136). -/
theorem arm_of_room {v : SEvent} (hv : v.app = false) (room : x.k.events.length < 16384) :
    v ∈ (arm e v x).k.events ∧ arm e v x = { x with k := { x.k with
      events := (arm e v x).k.events, pendHigh := (arm e v x).k.pendHigh } } := by
  have armed : arm e v x = onK (fun k =>
      { k with events := evInsert v k.events, pendHigh := max k.pendHigh (evInsert v k.events).length }) x := by
    simp [arm, hv, schedCap, room]
  rw [armed]
  exact ⟨mem_evInsert v _, rfl⟩

/-- A time armed, or refused for want of room, touches no route. -/
theorem rst_arm_elapsed {v : SEvent} (hv : v.kind = .elapsed) (m : Nat) : rst (arm e v x).k m = rst x.k m := by
  unfold arm
  simp only [hv, reduceCtorEq, if_false]
  split_ifs <;> rfl

theorem rst_approachedReleasing :
    rst (approachedReleasing e q n x).k n = releasingBy (cancelCode q) (withCanceller q (rst x.k n)) := by
  rw [approachedReleasing, onK_k]
  show rst (modRoute n _ _).k n = _
  rw [rst_modRoute, rst_signalStop, rst_markCancel]

theorem rst_approachedReleasing_other {m : Nat} (hm : m ≠ n) : rst (approachedReleasing e q n x).k m = rst x.k m := by
  rw [approachedReleasing, onK_k]
  show rst (modRoute n _ _).k m = _
  rw [rst_modRoute_other _ _ hm, rst_signalStop, rst_markCancel_other hm]

theorem approachedReleasing_eq : approachedReleasing e q n x = { x with k := { x.k with
    routes := (approachedReleasing e q n x).k.routes, signals := (approachedReleasing e q n x).k.signals,
    events := (approachedReleasing e q n x).k.events } } := by
  unfold approachedReleasing
  rw [(signalStop_spec e n _).1, markCancel_eq]
  rfl

theorem gst_approachedReleasing {r : RouteRec} (hr : routeRec e.st n = some r) :
    gst (approachedReleasing e q n x).k r.entry =
      if (gst x.k r.entry).route = some n then ⟨0, none, 0⟩ else gst x.k r.entry := by
  have stop := ((signalStop_spec e n (markCancel q n x)).2 r hr).1
  rw [gst_markCancel] at stop
  exact stop

theorem events_approachedReleasing_le : (approachedReleasing e q n x).k.events.length ≤ x.k.events.length := by
  have same : (signalStop e n (markCancel q n x)).k.events = x.k.events := by
    rw [(signalStop_spec e n _).1, events_markCancel]
  rw [← same]
  exact List.length_filter_le _ _

/-- An approached route's cancel: the route releasing, its entry signal at stop, its time of operation armed (R146). -/
theorem cancelRoute1_approached_spec {r : RouteRec} (hr : routeRec e.st n = some r)
    (hs : (rst x.k n).state = .locked ∨ (rst x.k n).state = .cleared) (ha : (rst x.k n).appr = true)
    (room : x.k.events.length < 16384) :
    ∃ y, y = cancelRoute1 e q n x ∧ rst y.k n = releasingBy (cancelCode q) (withCanceller q (rst x.k n)) ∧
      gst y.k r.entry = (if (gst x.k r.entry).route = some n then ⟨0, none, 0⟩ else gst x.k r.entry) ∧
      operationTime e n r x.k.image.num ∈ y.k.events ∧ (∀ m, m ≠ n → rst y.k m = rst x.k m) ∧
      y = { x with k := { x.k with
        routes := y.k.routes, signals := y.k.signals, events := y.k.events, pendHigh := y.k.pendHigh } } := by
  have route := rst_approachedReleasing (e := e) (q := q) (n := n) (x := x)
  have entry := gst_approachedReleasing (q := q) (x := x) hr
  have others (m : Nat) (hm : m ≠ n) := rst_approachedReleasing_other (e := e) (q := q) (x := x) hm
  have room' := (events_approachedReleasing_le (e := e) (q := q) (n := n) (x := x)).trans_lt room
  have frame := approachedReleasing_eq (e := e) (q := q) (n := n) (x := x)
  have image : (approachedReleasing e q n x).k.image = x.k.image := by rw [frame]
  refine ⟨_, rfl, ?_⟩
  rw [cancelRoute1_approached hs ha, hr, Option.elim_some, image]
  generalize approachedReleasing e q n x = z at *
  obtain ⟨armed, after⟩ := arm_of_room (e := e) (v := operationTime e n r x.k.image.num) rfl room'
  refine ⟨(rst_arm_elapsed rfl n).trans route, ?_, armed, fun m hm => (rst_arm_elapsed rfl m).trans (others m hm), ?_⟩
  · rw [after]; exact entry
  · rw [after, frame]

/-! ## A cancel and the other routes -/

theorem rst_unhold_other {m : Nat} (hm : m ≠ q.target) : rst (unhold q x).k m = rst x.k m := (unhold_spec q x).1 m hm

theorem rst_noteCode_other {m : Nat} (hm : m ≠ q.target) (code : Nat) : rst (noteCode e q code x).k m = rst x.k m := by
  unfold noteCode
  split
  · exact rst_modRoute_other _ _ hm
  · rfl

/-- The requests held for a route, cancelled (R124): the state of another route stays. -/
theorem rst_cancelHeld_other {m : Nat} (hm : m ≠ n) {hs : List Held} (ht : ∀ h ∈ hs, h.req.target = n) (y : KRun) :
    rst (hs.foldl (fun x h => reqResult h.req 3 cCancelled noElem (noteCode e h.req cCancelled (unhold h.req x))) y).k m =
      rst y.k m := by
  refine List.foldlRecOn (motive := fun z : KRun => rst z.k m = rst y.k m) hs _ rfl (fun z hz h hh => ?_)
  have other : m ≠ h.req.target := ht h hh ▸ hm
  rw [reqResult, rst_kResult, rst_noteCode_other other, rst_unhold_other other, hz]

theorem rst_cancelRoute1_other {m : Nat} (hm : m ≠ n) : rst (cancelRoute1 e q n x).k m = rst x.k m := by
  obtain ⟨hc, -⟩ := cancelCode_cases q
  cases hs : (rst x.k n).state with
  | released => rw [cancelRoute1_released hs]
  | requested =>
    have cancelled : cancelRoute1 e q n x =
        ((markEmergency q n x).k.held.filter (fun h => h.req.cls = 2 && h.req.target = n)).foldl
          (fun x h => reqResult h.req 3 cCancelled noElem (noteCode e h.req cCancelled (unhold h.req x))) (markEmergency q n x) := by
      simp [cancelRoute1, hs, markEmergency]
    rw [cancelled, rst_cancelHeld_other hm (fun h hh => ?_), rst_markEmergency_other hm]
    have kept := (List.mem_filter.mp hh).2
    simp only [Bool.and_eq_true, decide_eq_true_eq] at kept
    exact kept.2
  | reserved | moving =>
    rw [cancelRoute1_transition10 (by simp [hs]), rst_transition10_other hc hm, rst_markCancel_other hm]
  | locked | cleared =>
    by_cases ha : (rst x.k n).appr = true
    · rw [cancelRoute1_approached (by simp [hs]) ha]
      cases routeRec e.st n with
      | none => exact rst_approachedReleasing_other hm
      | some r => exact (rst_arm_elapsed rfl m).trans (rst_approachedReleasing_other hm)
    · rw [(routeReleased_cancelRoute1 (by simp [hs, ha])).1.others m hm, rst_markCancel_other hm]
  | checked =>
    have marked : cancelRoute1 e q n x = markEmergency q n x := by simp [cancelRoute1, hs, markEmergency]
    rw [marked, rst_markEmergency_other hm]
  | occupied | releasing => simp [cancelRoute1, hs]

/-! ## The request -/

theorem applyReq_cancel (hq : q.cls ≤ 1) (hp : q.port ≠ 1) (hv : validity e x.k q = none) : applyReq e q x = applyCancel e q x := by
  have hc : q.cls = 0 ∨ q.cls = 1 := by omega
  rcases hc with hc | hc <;> simp [applyReq, hv, hp, hc]

section
variable (ha : q.all = false)
include ha

theorem applyCancel_unknown (hr : routeRec e.st q.target = none) :
    applyCancel e q x = reqResult q 3 cUnknown noElem (emergencyRecorded q x) := by
  rw [applyCancel, ← emergencyRecorded]
  simp [ha, hr]

theorem applyCancel_notSet (hr : (routeRec e.st q.target).isSome = true) (hs : (rst x.k q.target).state = .released) :
    applyCancel e q x = reqResult q 3 cNotSet noElem (emergencyRecorded q x) := by
  obtain ⟨r, hr⟩ := Option.isSome_iff_exists.mp hr
  rw [applyCancel, ← emergencyRecorded]
  simp [ha, hr, hs]

theorem applyCancel_occupied (hr : (routeRec e.st q.target).isSome = true)
    (hs : (rst x.k q.target).state = .occupied ∨ (rst x.k q.target).state = .releasing) :
    applyCancel e q x = reqResult q 3 cOccupied noElem (emergencyRecorded q x) := by
  obtain ⟨r, hr⟩ := Option.isSome_iff_exists.mp hr
  rw [applyCancel, ← emergencyRecorded]
  rcases hs with hs | hs <;> simp [ha, hr, hs]

theorem applyCancel_cancels {r : RouteRec} (hr : routeRec e.st q.target = some r)
    (hs : (rst x.k q.target).state = .reserved ∨ (rst x.k q.target).state = .moving ∨
      (rst x.k q.target).state = .locked ∨ (rst x.k q.target).state = .cleared) :
    applyCancel e q x = cancelRoute1 e q q.target (cancelAccepted q x) := by
  rw [applyCancel, ← emergencyRecorded, cancelAccepted]
  rcases hs with hs | hs | hs | hs <;> simp [ha, hr, hs]

end

/-- The routes that an emergency cancel of all speaks of: from requested to cleared (R125). -/
def cancellable (k : Kernel) : List Nat :=
  (tabKeys k.routes).filter (fun n => 1 ≤ rstateCode (rst k n).state && rstateCode (rst k n).state ≤ 6)

theorem applyCancel_all (ha : q.all = true) :
    applyCancel e q x = (cancellable x.k).foldl (fun x n => cancelRoute1 e q n x) (cancelAccepted q x) := by
  rw [applyCancel, ← emergencyRecorded, cancelAccepted, cancellable]
  simp [ha]

theorem mem_tabKeys_of_tabFind {α : Type} {v : α} : ∀ {t : Tab α}, tabFind t n = some v → n ∈ tabKeys t
  | (m, w) :: t, h => by
    rw [tabFind] at h
    split at h
    · rename_i hm
      exact hm ▸ List.mem_cons_self
    · exact List.mem_cons_of_mem _ (mem_tabKeys_of_tabFind h)

theorem mem_cancellable {k : Kernel} (hs : (rst k n).state = .reserved ∨ (rst k n).state = .moving) : n ∈ cancellable k := by
  have stored : n ∈ tabKeys k.routes := by
    cases hf : tabFind k.routes n with
    | none => simp [rst, tabGet, hf, RouteSt.init] at hs
    | some v => exact mem_tabKeys_of_tabFind hf
  exact List.mem_filter.mpr ⟨stored, by rcases hs with hs | hs <;> rw [hs] <;> decide⟩

/-- An emergency cancel of all takes every reserved and moving route to released (R125). -/
theorem rst_applyCancel_all (ha : q.all = true) (hs : (rst x.k n).state = .reserved ∨ (rst x.k n).state = .moving) :
    (rst (applyCancel e q x).k n).state = .released ∧ (rst (applyCancel e q x).k n).code = cancelCode q := by
  rw [applyCancel_all ha]
  refine foldl_settles (P := fun s => s.state = .reserved ∨ s.state = .moving)
    (Q := fun s => s.state = .released ∧ s.code = cancelCode q) (fun x m hm => rst_cancelRoute1_other (Ne.symm hm))
    (fun x hp => ?_) (fun x hq => ?_) (mem_cancellable hs) (by rw [rst_cancelAccepted]; exact hs)
  · rw [(routeReleased_cancelRoute1 (or_assoc.mp (.inl hp))).1.route]
    exact ⟨rfl, rfl⟩
  · rw [cancelRoute1_released hq.1]
    exact hq

/-! ## The rows -/

/-- A refused cancel changes the results alone, beside the record of an emergency cancel. -/
theorem refusedCancel_spec {c : Nat} :
    lastResult (reqResult q 3 c noElem (emergencyRecorded q x)).k q.port = some ⟨q.tag, q.cls, 3, q.target, c, 0xFFFF, x.k.image.num⟩ ∧
    (q.cls = 1 → (reqResult q 3 c noElem (emergencyRecorded q x)).recs = x.recs) ∧
    reqResult q 3 c noElem (emergencyRecorded q x) = { x with
      k := { x.k with results := (reqResult q 3 c noElem (emergencyRecorded q x)).k.results },
      recs := (reqResult q 3 c noElem (emergencyRecorded q x)).recs } := by
  refine ⟨?_, emergencyRecorded_recs, ?_⟩
  · rw [reqResult, lastResult_kResult, emergencyRecorded_k]; rfl
  · unfold emergencyRecorded; split <;> rfl

end

/-- Settles O23: each cancel is the step of its route, whose outcome is that of transition 10, of a release at once, or of a
release by time. -/
theorem cancelRequests : Obligations.CancelRequests := by
  refine ⟨fun s q hv => ⟨exists_kernelRow hv rfl, exists_kernelRow hv rfl⟩, fun e x q c hq hp ha hv hc => ?_,
    fun e x q r v c hc hp ha hv hr hx hs => ?_, fun e x q r v c hc hp ha hv hr hx hs happr room => ?_,
    fun e x q n hq hp ha hv hs => ?_⟩
  · refine ⟨_, rfl, ?_⟩
    rw [applyReq_cancel hq hp hv]
    rcases hc with ⟨hr, rfl⟩ | ⟨hr, hs, rfl⟩ | ⟨hr, hs, rfl⟩
    · rw [applyCancel_unknown ha hr]
      exact refusedCancel_spec
    · rw [applyCancel_notSet ha hr hs]
      exact refusedCancel_spec
    · rw [applyCancel_occupied ha hr hs]
      exact refusedCancel_spec
  · subst hx
    have hq : q.cls ≤ 1 := by omega
    have states := hs.imp_right (Or.imp_right And.left)
    refine ⟨_, rfl, ?_⟩
    rw [applyReq_cancel hq hp hv, applyCancel_cancels ha hr states]
    obtain ⟨released, evs, points⟩ := routeReleased_cancelRoute1 (e := e) (q := q) (n := q.target) (x := cancelAccepted q x)
      (by rw [rst_cancelAccepted]; exact hs)
    obtain ⟨route, others, events, entry, signals, reserves, result, canceller, -, kernel⟩ := released
    simp only [rst_markCancel, gst_markCancel, image_markCancel, reserves_markCancel, rst_cancelAccepted, gst_cancelAccepted,
      image_cancelAccepted, cancelAccepted_reserves, cancelAccepted_evs, cancelCode_eq hc] at *
    refine ⟨route, entry r hr, events, result, fun hv => canceller q.port rfl hv, fun n hn => ?_, signals r hr, reserves r hr, evs,
      fun h => ?_, ?_⟩
    · rw [others n hn, rst_markCancel_other hn, rst_cancelAccepted]
    · rw [points h, cancelAccepted_k]
    · rw [kernel, markCancel_eq, cancelAccepted_k]
  · subst hx
    have hq : q.cls ≤ 1 := by omega
    refine ⟨_, rfl, ?_⟩
    rw [applyReq_cancel hq hp hv, applyCancel_cancels ha hr (.inr (.inr hs))]
    obtain ⟨y, rfl, route, entry, armed, others, frame⟩ := cancelRoute1_approached_spec (q := q) (x := cancelAccepted q x) hr
      (by rw [rst_cancelAccepted]; exact hs) (by rw [rst_cancelAccepted]; exact happr) (by rw [cancelAccepted_k]; exact room)
    simp only [rst_cancelAccepted, gst_cancelAccepted, image_cancelAccepted, cancelCode_eq hc] at route entry armed others
    rw [route]
    refine ⟨rfl, rfl, rfl, rfl, rfl, rfl, entry, ⟨_, armed, rfl, rfl, rfl, rfl, rfl⟩, ?_, others, ?_, ?_, ?_⟩
    · rw [frame]; exact lastResult_cancelAccepted
    · rw [frame]; exact cancelAccepted_reserves
    · rw [frame]; exact cancelAccepted_evs
    · rw [frame, cancelAccepted_k]
  · rw [applyReq_cancel (by omega) hp hv]
    have settled := rst_applyCancel_all (e := e) (q := q) ha hs
    rw [cancelCode_eq (.inr ⟨hq, rfl⟩)] at settled
    exact settled

end Sys2Proof.Proofs
end

section
/-! PROOFS. Individual point moves, the throw limit, a throw that takes too long, and a LOST point found again (R117 to R123,
R660). -/

namespace Sys2Proof.Proofs

open Sys2Proof Sys2Proof.Machine Sys2Proof.Laws

/-! ## An individual move -/

section
variable {e : KEnv} {q : Req} {x : KRun}

theorem applyReq_move (hq : q.cls = 3) (hp : q.port ≠ 1) (hv : validity e x.k q = none) : applyReq e q x = applyMove e q x := by
  simp [applyReq, hv, hp, hq]

/-- A move that is not held is refused with the code and the element (R110, R121). -/
theorem refuse_move {code : Nat} (hq : q.cls = 3) (hn : heldOf x.k q = none) (hh : (q.hold && holdable code) = false) (elt : Nat) :
    refuse e q code elt x = reqResult q 3 code elt x := by
  simp [refuse, noteCode, hq, hn, hh]

theorem refusedMove_spec (hq : q.cls = 3) (code elt : Nat) :
    lastResult (reqResult q 3 code elt x).k q.port = some ⟨q.tag, 3, 3, q.target, code, elt, x.k.image.num⟩ ∧
    reqResult q 3 code elt x = { x with k := { x.k with results := (reqResult q 3 code elt x).k.results } } := by
  rw [reqResult, lastResult_kResult, hq]
  exact ⟨rfl, rfl⟩

theorem num_of_ptRec {st : Station} {n : Nat} {p : PointRec} (h : ptRec st n = some p) : p.num = n := by
  simpa using List.find?_some h

theorem applyMove_unknown (h : ∀ p, ptRec e.st q.target = some p → p.legs.length ≤ q.opt) :
    applyMove e q x = refuse e q cPointUnknown q.target x := by
  have refused : (ptRec e.st q.target).filter (fun p => q.opt < p.legs.length) = none := by
    rw [Option.filter_eq_none_iff]
    exact fun p hp => by simpa using h p hp
  rw [applyMove, refused]

section
variable {p : PointRec} (hp : ptRec e.st q.target = some p) (ho : q.opt < p.legs.length)
include hp ho

theorem filter_ptRec : (ptRec e.st q.target).filter (fun p => q.opt < p.legs.length) = some p := by
  simp [hp, Option.filter, ho]

theorem applyMove_locked (h : ptHolds e.st (against e.st x.k false) q.target ≠ []) :
    applyMove e q x = refuse e q cLocked q.target x := by
  simp [applyMove, filter_ptRec hp ho, num_of_ptRec hp, h]

theorem applyMove_moving (h : ptHolds e.st (against e.st x.k false) q.target = []) (hm : moveAgainst x.k q.target false ≠ none) :
    applyMove e q x = refuse e q cMoving q.target x := by
  simp [applyMove, filter_ptRec hp ho, num_of_ptRec hp, h, Option.isSome_iff_ne_none, hm]

theorem applyMove_notMovable (h : ptHolds e.st (against e.st x.k false) q.target = [])
    (hm : moveAgainst x.k q.target false = none) (hs : occupied e.st (bimg x.k) p.sec = true) :
    applyMove e q x = refuse e q cNotMovable q.target x := by
  simp [applyMove, filter_ptRec hp ho, num_of_ptRec hp, h, hm, hs]

/-- The individual movement that a request starts (R121). -/
def individualMove (q : Req) (k : Kernel) : Move :=
  { pos := q.opt, port := q.port, tag := q.tag, cls := q.cls, commanded := false, deadline := 0, since := k.image.num,
    order := (k.newRes.length + 1) * 256, own := true, maint := (pst k q.target).failed }

/-- The run in which that movement waits. -/
def startMove (q : Req) (x : KRun) : KRun :=
  onK (fun k => { k with newRes := k.newRes ++ [0x10000 + q.target] })
    (modPoint q.target (fun y => { y with mv := some (individualMove q x.k) }) (unhold q x))

theorem applyMove_waits (h : ptHolds e.st (against e.st x.k false) q.target = []) (hm : moveAgainst x.k q.target false = none)
    (hs : occupied e.st (bimg x.k) p.sec = false) (h' : ptHolds e.st (against e.st x.k true) q.target = [])
    (hm' : moveAgainst x.k q.target true = none) :
    applyMove e q x = startMove q x := by
  simp [applyMove, filter_ptRec hp ho, num_of_ptRec hp, h, hm, hs, h', hm', startMove, individualMove]

end

/-- A point move, taken from the holding list, touches no route. -/
theorem unhold_move (hq : q.cls = 3) : unhold q x = { x with k := { x.k with held := (unhold q x).k.held } } := by
  obtain ⟨-, frame, -, -, routes, -⟩ := unhold_spec q x
  rw [frame, routes (by rw [hq]; decide)]

theorem startMove_spec (hq : q.cls = 3) :
    pst (startMove q x).k q.target = { pst x.k q.target with mv := some (individualMove q x.k) } ∧
    (∀ n, n ≠ q.target → pst (startMove q x).k n = pst x.k n) ∧
    startMove q x = { x with k := { x.k with
      points := (startMove q x).k.points, newRes := (startMove q x).k.newRes, held := (startMove q x).k.held } } := by
  have kept (n : Nat) : pst (unhold q x).k n = pst x.k n := by rw [unhold_move hq]; rfl
  have moved (n : Nat) : pst (startMove q x).k n =
    pst (modPoint q.target (fun y => { y with mv := some (individualMove q x.k) }) (unhold q x)).k n := rfl
  refine ⟨?_, fun n hn => ?_, ?_⟩
  · rw [moved, pst_modPoint, kept]
  · rw [moved, pst_modPoint_other _ _ hn, kept]
  · rw [startMove, unhold_move hq]; rfl

end

/-! ## The throw limit -/

/-- Points that are commanded. -/
def commandedPoints (k : Kernel) : Nat := (k.points.filter (fun p => p.2.mv.any (·.commanded))).length

theorem length_filter_tabPut_le {α : Type} (f : Nat × α → Bool) (n : Nat) (v : α) :
    ∀ t : Tab α, ((tabPut t n v).filter f).length ≤ (t.filter f).length + 1
  | [] => List.length_filter_le f [(n, v)]
  | (m, w) :: t => by
    have ih := length_filter_tabPut_le f n v t
    rw [tabPut]
    have one : (if f (n, v) = true then 1 else 0) ≤ 1 := by split <;> decide
    simp only [← List.countP_eq_length_filter] at ih ⊢
    split_ifs <;> simp only [List.countP_cons] <;> omega

/-- The throw limit holds at each waiting point's turn: a point more is commanded only below it (R117). -/
theorem commandedPoints_commandPoints_le (e : KEnv) (x : KRun) :
    commandedPoints (commandPoints e x).k ≤ max e.set.simThrows (commandedPoints x.k) := by
  refine List.foldlRecOn
    (motive := fun y : KRun => commandedPoints y.k ≤ max e.set.simThrows (commandedPoints x.k)) _ _ (le_max_right _ _) ?_
  intro y hy w _
  show commandedPoints (if e.set.simThrows ≤ commandedPoints y.k then y else _).k ≤ _
  split_ifs with full
  · exact hy
  · have room : commandedPoints y.k < e.set.simThrows := Nat.not_le.mp full
    refine (?_ : _ ≤ commandedPoints y.k + 1).trans (le_max_of_le_left room)
    dsimp only
    split_ifs <;> exact length_filter_tabPut_le _ _ _ _

/-! ## A throw that takes too long -/

/-- The point FAILED with its movement ended, event 40, and the result of an individual movement (R119, R120). -/
def throwFailed (p : Nat) (m : Move) (x : KRun) : KRun :=
  let y := kEv 40 p (modPoint p (fun y => { y with mv := none, failed := true }) x)
  if m.own then kResult m.port m.tag m.cls 0x16 p cThrow p y else y

/-- The routes that a failed point releases (R660). -/
def routesMoving (st : Station) (k : Kernel) (p : Nat) : List Nat :=
  ((ptHolds st (holders st k) p).filter (fun h => h.state = .reserved || h.state = .moving)).map (·.route)

section
variable {e : KEnv} {x : KRun} {p : Nat} {m : Move}

theorem throwFailed_spec : pst (throwFailed p m x).k p = { pst x.k p with mv := none, failed := true } ∧
    (∀ n, n ≠ p → pst (throwFailed p m x).k n = pst x.k n) ∧ (throwFailed p m x).evs = x.evs ++ [⟨40, p⟩] ∧
    throwFailed p m x = { x with k := { x.k with
      points := (throwFailed p m x).k.points, results := (throwFailed p m x).k.results }, evs := (throwFailed p m x).evs } := by
  have other (n : Nat) (hn : n ≠ p) := pst_modPoint_other (fun y => { y with mv := none, failed := true }) x hn
  have same := pst_modPoint p (fun y => { y with mv := none, failed := true }) x
  unfold throwFailed
  split
  · exact ⟨same, other, rfl, rfl⟩
  · exact ⟨same, other, rfl, rfl⟩

theorem throwFailed_results : (m.own = true → lastResult (throwFailed p m x).k m.port =
      some ⟨m.tag, m.cls, 0x16, p, 0x2001, p, x.k.image.num⟩) ∧
    (m.own = false → (throwFailed p m x).k.results = x.k.results) := by
  unfold throwFailed
  refine ⟨fun h => ?_, fun h => ?_⟩
  · rw [if_pos h, lastResult_kResult]; rfl
  · rw [if_neg (by rw [h]; decide)]; rfl

theorem throwTimeout_eq (hm : (pst x.k p).mv = some m) (hc : m.commanded = true) (hi : imgReached x.k.image.num m.deadline = true)
    (hd : detOf e.st (bimg x.k) p ≠ some m.pos) :
    throwTimeout e p x = releaseAll e cThrow p (routesMoving e.st x.k p) (throwFailed p m x) := by
  have held : holders e.st (throwFailed p m x).k = holders e.st x.k := by rw [throwFailed_spec.2.2.2]; rfl
  rw [releaseAll, routesMoving, ← held, List.foldl_map]
  simp [throwTimeout, hm, hc, hi, hd, throwFailed]

end

/-! ## A LOST point found again -/

theorem images_zero (e : KEnv) : e.images 0 = 0 := by
  unfold KEnv.images
  split
  · rfl
  · exact Nat.div_eq_of_lt (by omega)

/-- The longest recovery time of some inputs is that of one of them, or none. -/
theorem images_foldl_max_le (e : KEnv) {k : Nat} (l : List Nat) (h : ∀ a ∈ l, e.images (a * 1000000) ≤ k) :
    e.images (l.foldl max 0 * 1000000) ≤ k :=
  List.foldlRecOn (motive := fun a => e.images (a * 1000000) ≤ k) l max (by simp [images_zero])
    (fun a ha b hb => by rcases max_choice a b with hc | hc <;> rw [hc] <;> [exact ha; exact h b hb])

theorem lostCleared_eq {e : KEnv} {x : KRun} {p : Nat} {r : PointRec} (hr : ptRec e.st p = some r) (hl : (pst x.k p).lost = true)
    (hd : 0 < (pst x.k p).detRun) (hb : ∀ b ∈ r.det, e.images ((filterRec e.st b.fclass).recMs * 1000000) ≤ (pst x.k p).detRun) :
    lostCleared e p x = modPoint p (fun y => { y with lost := false }) x := by
  have recovered : e.images ((r.det.map (fun b => (filterRec e.st b.fclass).recMs)).foldl max 0 * 1000000) ≤ (pst x.k p).detRun :=
    images_foldl_max_le e _ (by simpa using hb)
  simp [lostCleared, hr, hl, hd, recovered]

/-! ## The rows -/

/-- Settles O24: the requests by the branches of R121, the throw limit by one command at a time, the timeout by the failed point and
the routes that need it. -/
theorem pointMoves : Obligations.PointMoves := by
  refine ⟨fun s hv => ⟨fun q => exists_kernelRow hv rfl, fun p => exists_kernelRow hv rfl, fun p => exists_kernelRow hv rfl⟩,
    fun e x q p hq hp hv hr ho hn hh => ?_, fun e x q hq hp hv hn hu => ?_, commandedPoints_commandPoints_le,
    fun e x p m hm hc hi hd => ?_, fun e x p r hr hl hd hb => ?_⟩
  · refine ⟨_, rfl, fun h hm hs h' hm' => ?_, fun c hc => ?_⟩
    · rw [applyReq_move hq hp hv, applyMove_waits hr ho h hm hs h' hm']
      have moved := startMove_spec (x := x) hq
      rw [individualMove, hq] at moved
      exact moved
    · have refused (code : Nat) : refuse e q code q.target x = reqResult q 3 code q.target x :=
        refuse_move hq hn (by rw [hh, Bool.false_and]) _
      rw [applyReq_move hq hp hv]
      rcases hc with ⟨h, rfl⟩ | ⟨h, hm, rfl⟩ | ⟨h, hm, hs, rfl⟩
      · rw [applyMove_locked hr ho h, refused]
        exact refusedMove_spec hq _ _
      · rw [applyMove_moving hr ho h hm, refused]
        exact refusedMove_spec hq _ _
      · rw [applyMove_notMovable hr ho h hm hs, refused]
        exact refusedMove_spec hq _ _
  · refine ⟨_, rfl, ?_⟩
    rw [applyReq_move hq hp hv, applyMove_unknown hu, refuse_move hq hn (Bool.and_false _)]
    exact refusedMove_spec hq _ _
  · obtain ⟨same, other, evs, frame⟩ := throwFailed_spec (x := x) (p := p) (m := m)
    obtain ⟨own, notOwn⟩ := throwFailed_results (x := x) (p := p) (m := m)
    refine ⟨_, rfl, ?_⟩
    rw [throwTimeout_eq hm hc hi hd]
    refine ⟨mv_releaseAll (by rw [same]), by rw [failed_releaseAll, same], ?_, fun h hh hs he => ?_, fun hs => ?_⟩
    · rw [evs_releaseAll (by decide), evs]
      exact List.mem_append_right _ List.mem_cons_self
    · refine rst_releaseAll (by decide) (List.mem_map_of_mem (List.mem_filter.mpr ⟨hh, by simpa using hs⟩)) ?_
      rw [frame]
      exact he ▸ hs
    · have noRoutes : routesMoving e.st x.k p = [] := by
        rw [routesMoving, List.map_eq_nil_iff, List.filter_eq_nil_iff]
        exact fun h hh => by simpa using hs h hh
      rw [noRoutes]
      exact ⟨own, notOwn, other, evs, frame⟩
  · refine ⟨_, rfl, ?_⟩
    rw [lostCleared_eq hr hl hd hb]
    exact ⟨pst_modPoint _ _ _, fun n hn => pst_modPoint_other _ _ hn, rfl⟩

end Sys2Proof.Proofs
end

section
/-! PROOFS. Crossings that close too long, open slowly or are closed again, boundaries left unconfirmed, and signals whose proof
fails (R112, R115, R116, R157 to R160). -/

namespace Sys2Proof.Proofs

open Sys2Proof Sys2Proof.Machine Sys2Proof.Laws

/-! ## The states of crossings -/

section
variable (n : Nat) (f : CrossSt → CrossSt) (x : KRun)

theorem xst_modCross : xst (modCross n f x).k n = f (xst x.k n) := by
  simp [xst, modCross_k]

theorem xst_modCross_other {m : Nat} (hm : m ≠ n) : xst (modCross n f x).k m = xst x.k m := by
  simp only [xst, modCross_k]
  exact tabGet_mod_other _ _ _ _ hm

end

section
variable {e : KEnv} {x : KRun} {n : Nat} {c : CrossingRec}

/-! ## A crossing that closes too long -/

/-- The crossing's closing failed, with event 41 (R157). -/
def closingFailed (n : Nat) (x : KRun) : KRun :=
  kEv 41 n (modCross n (fun y => { y with cs := .closingFailed, since := x.k.image.num }) x)

/-- A crossing has been closing for its closing time. -/
def closingOver (e : KEnv) (x : KRun) (n : Nat) (c : CrossingRec) : Bool :=
  imgReached x.k.image.num (imgAdd (xst x.k n).since (e.images (c.closeS * 1000000000)))

theorem crossingTimeout_over (hc : xingRec e.st n = some c) (hs : (xst x.k n).cs = .closing) (ho : closingOver e x n c = true) :
    crossingTimeout e n x = releaseAll e cXTimeout n (xingRoutes e.st x.k n) (closingFailed n x) := by
  rw [closingOver, ← secNs] at ho
  simp only [crossingTimeout, hc, hs, ho, decide_true, Bool.and_self, if_true]
  rfl

theorem crossingTimeout_early (hc : xingRec e.st n = some c) (ho : closingOver e x n c = false) : crossingTimeout e n x = x := by
  rw [closingOver, ← secNs] at ho
  simp only [crossingTimeout, hc, ho, Bool.and_false, Bool.false_eq_true, if_false]

/-! ## A crossing that opens slowly -/

theorem crossingSlow_over (hc : xingRec e.st n = some c) (hs : (xst x.k n).cs = .opening) (hl : (xst x.k n).slow = false)
    (ho : imgReached x.k.image.num (imgAdd (xst x.k n).since (e.images (c.openS * 1000000000))) = true) :
    crossingSlow e n x =
      kRec 1 41 cOpenSlow 0xFFFF (be 2 n) (kEv 41 n (modCross n (fun y => { y with slow := true }) x)) := by
  rw [← secNs] at ho
  simp only [crossingSlow, hc, hs, hl, ho, decide_true, Bool.not_false, Bool.and_self, if_true]

theorem crossingSlow_told (hl : (xst x.k n).slow = true) : crossingSlow e n x = x := by
  unfold crossingSlow
  split
  · rfl
  · simp [hl]

/-! ## A crossing closed again -/

theorem crossingRecovered_closes (hc : xingRec e.st n = some c) (hs : (xst x.k n).cs = .forcedOpen) (hr : 0 < (xst x.k n).run)
    (hi : e.images ((filterRec e.st c.closed.fclass).recMs * 1000000) ≤ (xst x.k n).run) :
    crossingRecovered e n x = modCross n (fun y => { y with cs := .closed, since := x.k.image.num }) x := by
  simp only [crossingRecovered, hc, hs, hr, hi, decide_true, Bool.and_self, if_true]

theorem crossingRecovered_waits (hc : xingRec e.st n = some c)
    (hi : (xst x.k n).run < e.images ((filterRec e.st c.closed.fclass).recMs * 1000000)) : crossingRecovered e n x = x := by
  simp only [crossingRecovered, hc, Nat.not_le.mpr hi, decide_false, Bool.and_false, Bool.false_eq_true, if_false]

theorem crossingRecovered_frame (e : KEnv) (n : Nat) (x : KRun) :
    crossingRecovered e n x = { x with k := { x.k with crossings := (crossingRecovered e n x).k.crossings } } := by
  unfold crossingRecovered
  split
  · rfl
  · dsimp only
    split <;> rfl

/-! ## A boundary left unconfirmed -/

theorem boundaryTimeout_releases {r : RouteRec} (hr : routeRec e.st n = some r) (hb : (bndRec e.st r.exit).isSome = true)
    (hs : (rst x.k n).state = .reserved) (hc : (rst x.k n).confirmed = false)
    (hi : imgReached x.k.image.num (imgAdd (rst x.k n).reservedImg 10) = true) :
    boundaryTimeout e n x = transition10 e n cBndRefused r.exit x := by
  simp only [boundaryTimeout, hr, hb, hs, hc, hi, decide_true, Bool.not_false, Bool.and_self, if_true]

theorem boundaryTimeout_confirmed (hc : (rst x.k n).confirmed = true) : boundaryTimeout e n x = x := by
  unfold boundaryTimeout
  split
  · rfl
  · simp [hc]

/-! ## A signal whose proof fails -/

section
variable {g : SignalRec} {r : Nat}

theorem signalNotProven_falls (hg : sigRec e.st n = some g) (hr : (gst x.k n).route = some r) (hp : g.proving.length = 4)
    (hs : (rst x.k r).state = .cleared) (hi : x.k.image.num = imgAdd (gst x.k n).first 3)
    (ha : proven (bimg x.k) g ≠ some (gst x.k n).aspect) (ho : startOcc e x.k r = false) :
    signalNotProven e n x = replaceRoute e r cNotProven n x := by
  simp [signalNotProven, hg, hr, hp, hs, ← hi, ha, ho]

theorem signalNotProven_proven (hg : sigRec e.st n = some g) (ha : proven (bimg x.k) g = some (gst x.k n).aspect) :
    signalNotProven e n x = x := by
  simp only [signalNotProven, hg, ha, ne_eq, not_true, decide_false, Bool.and_false, Bool.false_and, Bool.false_eq_true, if_false]
  split <;> rfl

/-- A cleared route that falls back (R115): its status, its signal, the result at its setting port, and what stays. -/
theorem replaceRoute_spec {rr : RouteRec} (hr : routeRec e.st r = some rr) (hg : (gst x.k rr.entry).route = some r)
    (code detail : Nat) :
    ∃ y, y = replaceRoute e r code detail x ∧ rst y.k r = { rst x.k r with state := .locked, repl := true, code := code } ∧
      gst y.k rr.entry = ⟨0, none, 0⟩ ∧
      lastResult y.k (rst x.k r).port = some ⟨(rst x.k r).tag, (rst x.k r).cls, 0x13, r, code, detail, x.k.image.num⟩ ∧
      (∀ m, m ≠ r → rst y.k m = rst x.k m) ∧ (∀ m, m ≠ rr.entry → gst y.k m = gst x.k m) := by
  obtain ⟨entry, signals⟩ := (signalStop_spec e r x).2 rr hr
  have image : (signalStop e r x).k.image = x.k.image := by rw [(signalStop_spec e r x).1]
  have route : rst (modRoute r (fun s => { s with state := .locked, repl := true, code := code })
      (onK (dropEvent r .frontWithin) (signalStop e r x))).k r = { rst x.k r with state := .locked, repl := true, code := code } := by
    rw [rst_modRoute, ← rst_signalStop e r r x]
    rfl
  refine ⟨_, rfl, route, entry.trans (if_pos hg), ?_, fun m hm => ?_, signals⟩
  · have result := lastResult_kResult (rst x.k r).port (rst x.k r).tag (rst x.k r).cls 0x13 r code detail
      (modRoute r (fun s => { s with state := .locked, repl := true, code := code })
        (onK (dropEvent r .frontWithin) (signalStop e r x)))
    rw [modRoute_k, onK_k, dropEvent, image] at result
    rw [replaceRoute, routeResult, route]
    exact result
  · rw [replaceRoute, routeResult, rst_kResult, rst_modRoute_other _ _ hm]
    exact rst_signalStop e r m x

end

theorem replaceRoute_frame (e : KEnv) (r code detail : Nat) (x : KRun) :
    replaceRoute e r code detail x = { x with k := { x.k with
      routes := (replaceRoute e r code detail x).k.routes, signals := (replaceRoute e r code detail x).k.signals,
      results := (replaceRoute e r code detail x).k.results, events := (replaceRoute e r code detail x).k.events } } := by
  unfold replaceRoute
  rw [(signalStop_spec e r x).1]
  rfl

theorem signalNotProven_frame (e : KEnv) (n : Nat) (x : KRun) :
    signalNotProven e n x = { x with k := { x.k with
      routes := (signalNotProven e n x).k.routes, signals := (signalNotProven e n x).k.signals,
      results := (signalNotProven e n x).k.results, events := (signalNotProven e n x).k.events } } := by
  unfold signalNotProven
  dsimp only
  split
  · rfl
  · split
    · split
      · exact replaceRoute_frame _ _ _ _ _
      · rfl
    · rfl

end

/-! ## The rows -/

/-- Settles O25: each timed row is the one change its condition asks for, with transition 10 of the routes concerned. -/
theorem crossingsAndFaults : Obligations.CrossingsAndFaults := by
  refine ⟨fun s n hv => ⟨exists_kernelRow hv rfl, exists_kernelRow hv rfl, exists_kernelRow hv rfl, exists_kernelRow hv rfl,
      exists_kernelRow hv rfl⟩,
    fun e x n c hc hs => ?_, fun e x n c hc hs hl ho => ?_, fun e x n c hc hs => ?_, fun e x n r hr hb hs => ⟨fun hc hi => ?_, ?_⟩,
    fun e x n r g rr hg hr hp hrr he hs => ?_⟩
  · refine ⟨_, rfl, fun ho => ?_, crossingTimeout_early hc⟩
    rw [crossingTimeout_over hc hs ho]
    have crossings := crossings_releaseAll (e := e) (code := cXTimeout) (detail := n) (l := xingRoutes e.st x.k n)
      (x := closingFailed n x) (by decide)
    refine ⟨?_, ?_, fun m hm => ?_, fun r hr hs => rst_releaseAll (by decide) hr hs, fun hn => ?_⟩
    · rw [xst, crossings]
      exact xst_modCross _ _ _
    · rw [evs_releaseAll (by decide)]
      exact List.mem_append_right _ List.mem_cons_self
    · rw [xst, crossings]
      exact xst_modCross_other _ _ _ hm
    · rw [hn]
      rfl
  · refine ⟨_, rfl, ?_⟩
    rw [crossingSlow_over hc hs hl ho]
    have slow := xst_modCross n (fun y => { y with slow := true }) x
    refine ⟨slow, fun m hm => xst_modCross_other _ _ _ hm, rfl, ?_, crossingSlow_told ?_, rfl⟩
    · exact List.map_append
    · exact congrArg CrossSt.slow slow
  · refine ⟨_, rfl, fun hr hi => ?_, crossingRecovered_waits hc, crossingRecovered_frame e n x⟩
    rw [crossingRecovered_closes hc hs hr hi]
    exact ⟨xst_modCross _ _ _, fun m hm => xst_modCross_other _ _ _ hm⟩
  · refine ⟨_, rfl, ?_⟩
    rw [boundaryTimeout_releases hr hb hs hc hi]
    have released := routeReleased_transition10 (e := e) (code := cBndRefused) (detail := r.exit) (by decide) (.inl hs)
    rw [released.route]
    exact ⟨rfl, rfl, evs_transition10 (.inl hs), released.others, released.result⟩
  · exact boundaryTimeout_confirmed
  · refine ⟨_, rfl, fun hi ha ho => ?_, signalNotProven_proven hg, signalNotProven_frame e n x⟩
    rw [signalNotProven_falls hg hr hp hs hi ha ho]
    subst he
    obtain ⟨y, rfl, spec⟩ := replaceRoute_spec hrr hr cNotProven rr.entry
    exact spec

end Sys2Proof.Proofs
end

section
/-! PROOFS. Sectional release and the timers of routes (R146 to R153, R155, R163), ghosts (R166): what a section released and the
evaluation that follows it make of one route. -/

namespace Sys2Proof.Proofs

open Sys2Proof Sys2Proof.Machine Sys2Proof.Laws

/-! ## One route goes on while its state and its released sections stay -/

/-- A run that has gone on with one route: the other routes and the records stay, and of that route the state and what its list
has released. -/
structure RouteKept (n : Nat) (x y : KRun) : Prop where
  others : ∀ m, m ≠ n → rst y.k m = rst x.k m
  recs : y.recs = x.recs
  state : (rst y.k n).state = (rst x.k n).state
  rel : (rst y.k n).rel = (rst x.k n).rel

section
variable {e : KEnv} {n : Nat} {x y z : KRun}

theorem RouteKept.refl : RouteKept n x x := ⟨fun _ _ => rfl, rfl, rfl, rfl⟩

theorem RouteKept.trans (h : RouteKept n x y) (k : RouteKept n y z) : RouteKept n x z :=
  ⟨fun m hm => (k.others m hm).trans (h.others m hm), k.recs.trans h.recs, k.state.trans h.state, k.rel.trans h.rel⟩

theorem routeKept_of_eq (hr : ∀ m, rst y.k m = rst x.k m) (hs : y.recs = x.recs) : RouteKept n x y :=
  ⟨fun m _ => hr m, hs, by rw [hr], by rw [hr]⟩

theorem routeKept_modRoute {f : RouteSt → RouteSt} (hs : ∀ s, (f s).state = s.state) (hr : ∀ s, (f s).rel = s.rel) :
    RouteKept n x (modRoute n f x) :=
  ⟨fun _ hm => rst_modRoute_other _ _ hm, rfl, by rw [rst_modRoute, hs], by rw [rst_modRoute, hr]⟩

/-! ## Events armed -/

/-- An event armed, or refused for want of room, touches no route unless it is a FRONT-WITHIN (R141). -/
theorem rst_arm {v : SEvent} (hv : v.kind ≠ .frontWithin) (m : Nat) : rst (arm e v x).k m = rst x.k m := by
  unfold arm
  simp only [if_neg hv]
  split_ifs <;> rfl

theorem recs_arm {v : SEvent} : (arm e v x).recs = x.recs := by
  unfold arm
  dsimp only
  split_ifs <;> rfl

theorem routeKept_arm {v : SEvent} (hv : v.kind ≠ .frontWithin) : RouteKept n x (arm e v x) :=
  routeKept_of_eq (rst_arm hv) recs_arm

/-- A route's release event, which it should hold: none of another kind is armed, and none is where it holds one (R150, R163). -/
theorem ensureArmed_cases (e : KEnv) (n : Nat) (x : KRun) :
    ensureArmed e n x = x ∨
      ∃ v : SEvent, (v.kind = .rearPass ∨ v.kind = .clearFor) ∧ v.app = false ∧ ensureArmed e n x = arm e v x := by
  unfold ensureArmed rearEvent
  dsimp only
  split
  · exact .inl rfl
  split
  · exact .inl rfl
  split
  · exact .inl rfl
  split
  · split
    · exact .inl rfl
    · split
      · split
        · rename_i hv
          obtain ⟨c, -, rfl⟩ := Option.map_eq_some_iff.mp hv
          exact .inr ⟨_, .inl rfl, rfl, rfl⟩
        · exact .inl rfl
      · exact .inl rfl
  · split
    · exact .inl rfl
    · exact .inr ⟨_, .inr rfl, rfl, rfl⟩
  · exact .inl rfl

theorem rst_ensureArmed (m l : Nat) : rst (ensureArmed e m x).k l = rst x.k l := by
  obtain h | ⟨v, hv, -, h⟩ := ensureArmed_cases e m x
  · rw [h]
  · rw [h, rst_arm (by rcases hv with hv | hv <;> rw [hv] <;> decide)]

theorem recs_ensureArmed (m : Nat) : (ensureArmed e m x).recs = x.recs := by
  obtain h | ⟨v, -, -, h⟩ := ensureArmed_cases e m x
  · rw [h]
  · rw [h, recs_arm]

/-! ## What goes on while a route is occupied -/

theorem routeKept_watchSequence : RouteKept n x (watchSequence e n x) := by
  unfold watchSequence
  split
  · exact .refl
  · exact routeKept_modRoute (fun _ => rfl) (fun _ => rfl)

theorem routeKept_tryOverlap : RouteKept n x (tryOverlap e n x) := by
  unfold tryOverlap
  dsimp only
  split
  · exact .refl
  split
  · split
    · split
      · exact routeKept_modRoute (fun _ => rfl) (fun _ => rfl)
      · exact .refl
    · exact .refl
  · exact .refl

theorem routeKept_armOverlap : RouteKept n x (armOverlap e n x) := by
  unfold armOverlap
  dsimp only
  split
  · exact .refl
  split
  · split
    · split
      · refine .trans ?_ routeKept_tryOverlap
        exact routeKept_modRoute (fun _ => rfl) (fun _ => rfl)
      · refine .trans ?_ (routeKept_arm (by simp))
        exact routeKept_modRoute (fun _ => rfl) (fun _ => rfl)
    · exact .refl
  · exact .refl

/-! ## The evaluation after a section is released -/

/-- A run in which a route's list has released a section: the route is releasing with that section gone, or released, and the other
routes and the records stay (R153, Table 3.6). -/
structure ReleasedFrom (n pos : Nat) (x y : KRun) : Prop where
  route : (rst y.k n).state = .releasing ∧ pos ∈ (rst y.k n).rel ∨ (rst y.k n).state = .released
  others : ∀ m, m ≠ n → rst y.k m = rst x.k m
  recs : y.recs = x.recs

theorem ReleasedFrom.of_kept {pos : Nat} (h : RouteKept n x y) (k : ReleasedFrom n pos y z) : ReleasedFrom n pos x z :=
  ⟨k.route, fun m hm => (k.others m hm).trans (h.others m hm), k.recs.trans h.recs⟩

/-- A route that is releasing ends with its last section, or goes on releasing (R153). -/
theorem releasedFrom_finishRoute {pos : Nat} (hs : (rst x.k n).state = .releasing) (hp : pos ∈ (rst x.k n).rel) :
    ReleasedFrom n pos x (finishRoute e n x) := by
  have waits : ReleasedFrom n pos x x := ⟨.inl ⟨hs, hp⟩, fun _ _ => rfl, rfl⟩
  unfold finishRoute
  split
  · exact waits
  · dsimp only
    split
    · obtain ⟨y, rfl, route, others, -, -, -, -, -, recs, -⟩ := toReleased_spec e n (rst x.k n).relCode noElem false x
      exact ⟨.inr (by rw [route]; rfl), others, recs⟩
    · exact waits

/-- The evaluation of a route whose list has released a section: occupied, it is releasing from then on (Table 3.6). -/
theorem releasedFrom_seqOccupied {pos : Nat} (hr : (routeRec e.st n).isSome = true) (hs : sectional (rst x.k n) = true)
    (hp : pos ∈ (rst x.k n).rel) : ReleasedFrom n pos x (seqOccupied e n x) := by
  obtain ⟨r, hr⟩ := Option.isSome_iff_exists.mp hr
  have kept : RouteKept n x (armOverlap e n (watchSequence e n x)) := routeKept_watchSequence.trans routeKept_armOverlap
  simp only [seqOccupied, hr, hs, if_true]
  generalize armOverlap e n (watchSequence e n x) = y at kept ⊢
  refine .of_kept kept ?_
  rw [← kept.rel] at hp
  have begun : firstReleased e.st r (rst y.k n) = true := by
    rw [firstReleased, List.isEmpty_eq_false_iff.mpr (List.ne_nil_of_mem hp)]
    rfl
  by_cases ho : (rst y.k n).state = .occupied
  · simp only [ho, begun, decide_true, Bool.and_self, if_true]
    obtain ⟨route, others, recs⟩ := releasedFrom_finishRoute (e := e) (n := n) (pos := pos)
      (x := modRoute n (fun s => { s with state := .releasing }) y) (by rw [rst_modRoute]) (by rw [rst_modRoute]; exact hp)
    exact ⟨route, fun m hm => (others m hm).trans (rst_modRoute_other _ _ hm), recs⟩
  · have releasing : (rst y.k n).state = .releasing := by
      rw [kept.state] at ho ⊢
      simp only [sectional, ho, decide_false, Bool.false_or, Bool.and_eq_true, decide_eq_true_eq] at hs
      exact hs.1
    simp only [ho, decide_false, Bool.false_and, Bool.false_eq_true, if_false]
    exact releasedFrom_finishRoute releasing hp

/-! ## A section released -/

theorem mem_releasedWith (st : Station) (r : RouteRec) (rel : List Nat) (pos : Nat) : pos ∈ releasedWith st r rel pos :=
  List.mem_append_left _ (List.mem_append_right _ List.mem_cons_self)

/-- The status of a route whose list has released the section at a position (R150, R151). -/
def sectionReleased (st : Station) (r : RouteRec) (pos : Nat) (s : RouteSt) : RouteSt :=
  { s with rel := releasedWith st r s.rel pos, rearFired := false }

section
variable {r : RouteRec} {p : PathSec} (hr : routeRec e.st n = some r)
include hr

theorem releaseSection_list : releaseSection e n p false x =
    modRoute n (sectionReleased e.st r p.pos) (onK (dropEvent n .clearFor) (onK (dropEvent n .rearPass) x)) := by
  simp only [releaseSection, hr]
  rfl

theorem rst_releaseSection_list : rst (releaseSection e n p false x).k n = sectionReleased e.st r p.pos (rst x.k n) := by
  rw [releaseSection_list hr, rst_modRoute]
  rfl

theorem rst_releaseSection_other {m : Nat} (hm : m ≠ n) : rst (releaseSection e n p false x).k m = rst x.k m := by
  rw [releaseSection_list hr, rst_modRoute_other _ _ hm]
  rfl

/-- A section of the list released with what is done before the route is evaluated again. -/
theorem releasedFrom_of_releaseSection (hk : RouteKept n (releaseSection e n p false x) y)
    (hy : sectional (rst y.k n) = true) : ReleasedFrom n p.pos x (seqOccupied e n y) := by
  have gone : p.pos ∈ (rst y.k n).rel := by
    rw [hk.rel, rst_releaseSection_list hr]
    exact mem_releasedWith _ _ _ _
  obtain ⟨route, others, recs⟩ := releasedFrom_seqOccupied (Option.isSome_of_eq_some hr) hy gone
  refine ⟨route, fun m hm => ?_, ?_⟩
  · rw [others m hm, hk.others m hm, rst_releaseSection_other hr hm]
  · rw [recs, hk.recs, releaseSection_list hr]
    rfl

end

/-! ## Sequence, detection, and the timers of approach release -/

section
variable {r : RouteRec} {p : PathSec}

theorem nextSec_list {s : RouteSt} (hp : nextList e.st r s = some p) : nextSec e.st x.k r s = some (p, false) := by
  simp only [nextSec, hp]

theorem sectional_sectionReleased (st : Station) (pos : Nat) (s : RouteSt) :
    sectional (sectionReleased st r pos s) = sectional s := rfl

theorem sequenceRelease_releases (hr : routeRec e.st n = some r) (hs : sectional (rst x.k n) = true)
    (hm : (rst x.k n).mode = .sequence) (hp : nextList e.st r (rst x.k n) = some p) (ho : (rst x.k n).wasOcc.contains p.pos = true)
    (hf : (rst x.k n).seqOk.contains p.pos = true) (hc : 0 < (tabGet x.k.sections p.sec SecSt.init).clearRun)
    (hi : e.images (((secRec e.st p.sec).map (fun y => (filterRec e.st y.occ.fclass).recMs)).getD 0 * 1000000) ≤
      (tabGet x.k.sections p.sec SecSt.init).clearRun) :
    sequenceRelease e n x = seqOccupied e n (releaseSection e n p false x) := by
  simp only [sequenceRelease, hr, hs, hm, nextSec_list hp, ho, hf, hc, hi, ne_eq, not_true, decide_true, decide_false, Bool.not_true,
    Bool.or_self, Bool.and_self, Bool.false_eq_true, if_false, if_true]

section
variable {v : SEvent} (hr : routeRec e.st n = some r) (hp : nextList e.st r (rst x.k n) = some p)
  (hv : x.k.events.find? (fun v => !v.app && v.owner = n && v.kind = .clearFor) = some v)
include hr hp hv

theorem clearFor_releases (hm : (rst x.k n).mode = .detection) (ht : v.target = p.sec)
    (ha : v.amount ≤ (tabGet x.k.sections p.sec SecSt.init).clearRun)
    (hi : imgReached (imgAdd x.k.image.num 1) (imgAdd v.image v.amount) = true) (hf : trackedOn x.k p.sec = []) :
    clearFor e n x = seqOccupied e n (ensureArmed e n (releaseSection e n p false x)) := by
  simp only [clearFor, hr, hv, nextSec_list hp, hm, ht, ha, hi, hf, decide_true, Bool.and_self, List.isEmpty_nil, if_true]

theorem clearFor_tracked (hf : trackedOn x.k p.sec ≠ []) : clearFor e n x = x := by
  simp only [clearFor, hr, hv, nextSec_list hp, List.isEmpty_eq_false_iff.mpr hf, Bool.and_false, Bool.false_eq_true, if_false]

end

/-- A run whose scheduler has taken an event out. -/
def eventTaken (v : SEvent) (x : KRun) : KRun := onK (fun k => { k with events := k.events.filter (fun w => w ≠ v) }) x

section
variable {v : SEvent} (hs : (rst x.k n).state = .releasing) (ha : (rst x.k n).approachRel = true) (hp : (rst x.k n).passed = false)
include hs ha hp

theorem elapsedFires_approach
    (hv : x.k.events.find? (fun v => v.app = false && v.owner = n && v.kind = .elapsed &&
      imgReached x.k.image.num (imgAdd v.image v.amount)) = some v) :
    elapsedFires e false n x = if startOcc e x.k n then eventTaken v x
      else toReleased e n (rst x.k n).relCode noElem false (eventTaken v x) := by
  have same : rst (eventTaken v x).k n = rst x.k n := rfl
  have start : startOcc e (eventTaken v x).k n = startOcc e x.k n := rfl
  rw [eventTaken] at same start ⊢
  simp only [elapsedFires, hv, same, start, hs, ha, hp, decide_true, Bool.not_false, Bool.and_self, if_true, Bool.false_eq_true,
    if_false]

theorem releaseByDistance_eq : releaseByDistance e n x =
    if 3 ≤ (rst x.k n).distRun then toReleased e n (rst x.k n).relCode noElem false x else x := by
  simp only [releaseByDistance, hs, ha, hp, decide_true, Bool.not_false, Bool.and_self, Bool.true_and, decide_eq_true_eq]

end

end

/-! ## Ghosts -/

section
variable {c : SectionRec} (hc : secRec e.st n = some c)
include hc

/-- A section whose ghost is told, once (R166). -/
theorem ghostTimeout_tells (hm : c.maxOcc ≠ 0) (hg : (tabGet x.k.sections n SecSt.init).ghostRep = false)
    (ho : c.maxOcc * 1000000000 < (tabGet x.k.sections n SecSt.init).ghostRun * e.cycle) :
    ghostTimeout e n x = kRec 1 42 0 0xFFFF (be 2 n) (kEv 42 n
      (onK (fun k => { k with sections := tabMod k.sections n SecSt.init (fun t => { t with ghostRep := true }) }) x)) := by
  rw [← secNs] at ho
  simp only [ghostTimeout, hc, hm, hg, ho, ne_eq, not_false_eq_true, decide_true, Bool.not_false, Bool.and_self, if_true]

theorem ghostTimeout_within (hi : (tabGet x.k.sections n SecSt.init).ghostRun * e.cycle ≤ c.maxOcc * 1000000000) :
    ghostTimeout e n x = x := by
  rw [← secNs] at hi
  simp only [ghostTimeout, hc, Nat.not_lt.mpr hi, decide_false, Bool.and_false, Bool.false_eq_true, if_false]

theorem ghostTimeout_told (hg : (tabGet x.k.sections n SecSt.init).ghostRep = true) : ghostTimeout e n x = x := by
  simp only [ghostTimeout, hc, hg, Bool.not_true, Bool.and_false, Bool.false_and, Bool.false_eq_true, if_false]

end

theorem ghostTimeout_frame (e : KEnv) (n : Nat) (x : KRun) : ghostTimeout e n x = { x with
    k := { x.k with sections := (ghostTimeout e n x).k.sections }, evs := (ghostTimeout e n x).evs,
    recs := (ghostTimeout e n x).recs } := by
  unfold ghostTimeout
  dsimp only
  split
  · rfl
  · split <;> rfl

end

/-! ## The rows -/

/-- Settles O26: a section released and the evaluation after it, the release of a route whose timer or distance is over, a ghost told
once. -/
theorem sectionalRelease : Obligations.SectionalRelease := by
  refine ⟨fun s n hv => ⟨exists_kernelRow hv rfl, exists_kernelRow hv rfl, fun app => exists_kernelRow hv rfl,
      exists_kernelRow hv rfl, exists_kernelRow hv rfl⟩,
    fun e x n r p hr hs hm hp ho hf hc hi => ?_, fun e x n r p v hr hs hm hp hv ht ha hi => ?_,
    fun e x n v hs ha hp hc hv => ?_, fun e x n v hv => ?_, fun e x n hs ha hp => ?_, fun e x n c hc hm hg => ?_⟩
  · refine ⟨_, rfl, ?_⟩
    rw [sequenceRelease_releases hr hs hm hp ho hf hc hi]
    obtain ⟨route, others, recs⟩ := releasedFrom_of_releaseSection (e := e) (p := p) hr .refl
      (by rw [rst_releaseSection_list hr, sectional_sectionReleased]; exact hs)
    exact ⟨route, others, recs⟩
  · refine ⟨_, rfl, ?_⟩
    by_cases hf : trackedOn x.k p.sec = []
    · rw [clearFor_releases hr hp hv hm ht ha hi hf]
      obtain ⟨route, others, recs⟩ := releasedFrom_of_releaseSection (e := e) (p := p) hr
        (routeKept_of_eq (rst_ensureArmed (e := e) n) (recs_ensureArmed n))
        (by rw [rst_ensureArmed, rst_releaseSection_list hr, sectional_sectionReleased]; exact hs)
      exact ⟨fun _ => route, fun h => absurd hf h, others, recs⟩
    · rw [clearFor_tracked hr hp hv hf]
      exact ⟨fun h => absurd h hf, fun _ => rfl, fun _ _ => rfl, rfl⟩
  · refine ⟨_, rfl, ?_⟩
    rw [elapsedFires_approach hs ha hp hv]
    cases startOcc e x.k n with
    | true => exact ⟨nofun, fun _ => rfl, fun _ _ => rfl, rfl, rfl⟩
    | false =>
      rw [if_neg Bool.false_ne_true]
      have released := routeReleased_toReleased (e := e) (n := n) (detail := noElem) (x := eventTaken v x) hc false
      exact ⟨fun _ => ⟨congrArg RouteSt.state released.route, congrArg RouteSt.code released.route, released.result⟩, nofun,
        released.others, released.recs, evs_toReleased false⟩
  · simp only [elapsedFires, hv, if_true]
    rfl
  · rw [releaseByDistance_eq hs ha hp]
    split
    · rename_i hd
      refine ⟨fun _ hc => ?_, fun h => absurd h (Nat.not_lt.mpr hd), fun m hm => ?_⟩
      · rw [(routeReleased_toReleased hc false).route]
        exact ⟨rfl, rfl⟩
      · obtain ⟨y, rfl, -, others, -⟩ := toReleased_spec e n (rst x.k n).relCode noElem false x
        exact others m hm
    · rename_i hd
      exact ⟨fun h => absurd h hd, fun _ => rfl, fun _ _ => rfl⟩
  · refine ⟨_, rfl, fun ho => ?_, ghostTimeout_within hc, ghostTimeout_frame e n x⟩
    have told : (tabGet (ghostTimeout e n x).k.sections n SecSt.init) =
        { tabGet x.k.sections n SecSt.init with ghostRep := true } := by
      rw [ghostTimeout_tells hc hm hg ho]
      simp only [kRec_k, kEv_k, onK_k, tabGet_mod]
    refine ⟨told, ?_, ?_, ghostTimeout_told hc (by rw [told])⟩
    · rw [ghostTimeout_tells hc hm hg ho]
      rfl
    · rw [ghostTimeout_tells hc hm hg ho]
      exact List.length_append

end Sys2Proof.Proofs
end

section
/-! PROOFS. What the work on routes leaves alone, release keys and emergency releases (R150, R167 to R173, R549 to R551). -/

namespace Sys2Proof.Proofs

open Sys2Proof Sys2Proof.Machine Sys2Proof.Laws

/-! ## Work on routes -/

/-- A run that goes on from another one with work on routes: only the routes and the scheduler's events of the kernel may differ, and
the records and the events raised before are still there. -/
structure RouteWork (x y : KRun) : Prop where
  frame : y = { x with
    k := { x.k with routes := y.k.routes, events := y.k.events, pendHigh := y.k.pendHigh, refusedArms := y.k.refusedArms },
    recs := y.recs, evs := y.evs }
  recs : x.recs.Sublist y.recs
  evs : x.evs.Sublist y.evs

section
variable {e : KEnv} {n src : Nat} {x y z : KRun}

theorem RouteWork.refl : RouteWork x x := ⟨rfl, .refl _, .refl _⟩

theorem RouteWork.trans (h : RouteWork x y) (k : RouteWork y z) : RouteWork x z := by
  refine ⟨?_, h.recs.trans k.recs, h.evs.trans k.evs⟩
  have frame := k.frame
  rw [h.frame] at frame
  exact frame

theorem RouteWork.foldl {α : Type} {f : KRun → α → KRun} {l : List α} (hf : ∀ x, ∀ a ∈ l, RouteWork x (f x a)) :
    RouteWork x (l.foldl f x) :=
  List.foldlRecOn (motive := RouteWork x) l f .refl (fun _ h a ha => h.trans (hf _ a ha))

theorem routeWork_modRoute (f : RouteSt → RouteSt) : RouteWork x (modRoute n f x) := ⟨rfl, .refl _, .refl _⟩

theorem routeWork_dropEvent (kd : EvKind) : RouteWork x (onK (dropEvent n kd) x) := ⟨rfl, .refl _, .refl _⟩

theorem routeWork_kRec (type event code who : Nat) (data : List Byte) : RouteWork x (kRec type event code who data x) :=
  ⟨rfl, List.sublist_append_left _ _, .refl _⟩

theorem routeWork_kEv (event detail : Nat) : RouteWork x (kEv event detail x) := ⟨rfl, .refl _, List.sublist_append_left _ _⟩

/-- An event of the kernel armed, or refused with event 44 (R136, R141). -/
theorem routeWork_arm {v : SEvent} (hv : v.app = false) : RouteWork x (arm e v x) := by
  unfold arm
  simp only [hv, Bool.false_eq_true, if_false]
  split_ifs
  · exact ⟨rfl, .refl _, .refl _⟩
  all_goals exact ⟨rfl, .refl _, List.sublist_append_left _ _⟩

theorem routeWork_ensureArmed : RouteWork x (ensureArmed e n x) := by
  obtain h | ⟨v, -, hv, h⟩ := ensureArmed_cases e n x
  · rw [h]; exact .refl
  · rw [h]; exact routeWork_arm hv

theorem routeWork_releaseSection (p : PathSec) (ovl : Bool) : RouteWork x (releaseSection e n p ovl x) := by
  unfold releaseSection
  split
  · exact .refl
  · exact ((routeWork_dropEvent _).trans (routeWork_dropEvent _)).trans (routeWork_modRoute _)

/-! ## The records of a key -/

theorem routeWork_keyRecord (route elt code : Nat) : RouteWork x (keyRecord src route elt code x) :=
  (routeWork_kEv _ _).trans (routeWork_kRec _ _ _ _ _)

@[simp] theorem keyRecord_k (route elt code : Nat) : (keyRecord src route elt code x).k = x.k := rfl
@[simp] theorem keyRecord_evs (route elt code : Nat) : (keyRecord src route elt code x).evs = x.evs ++ [⟨43, src⟩] := rfl

@[simp] theorem length_recs_keyRecord (route elt code : Nat) :
    (keyRecord src route elt code x).recs.length = x.recs.length + 1 := List.length_append

theorem routeWork_withSection (whole : Nat) (old : List Elem) : RouteWork x (withSection e src whole n old x) :=
  RouteWork.foldl (fun _ _ _ => routeWork_keyRecord _ _ _)

/-! ## Sections of a scope released -/

/-- A section of a route's list released, where the list holds it. -/
def listPartReleased (e : KEnv) (r : RouteRec) (n sec : Nat) (x : KRun) : KRun :=
  match (routeSecs e.st r).find? (fun q => q.sec = sec && !(rst x.k n).rel.contains q.pos) with
  | some q => releaseSection e n q false x
  | none => x

/-- A section of a route's overlap released, where the overlap has it. -/
def overlapPartReleased (e : KEnv) (r : RouteRec) (n sec : Nat) (x : KRun) : KRun :=
  match (ovlAt e.st r (rst x.k n).ovl).bind (fun o => (ovlSecs e.st r o).find? (fun q => q.sec = sec)) with
  | some q => releaseSection e n q true x
  | none => x

/-- The code of a route all of whose elements are released. -/
def wholeNoted (e : KEnv) (r : RouteRec) (n whole : Nat) (x : KRun) : KRun :=
  if listClear e.st r (rst x.k n) && !(rst x.k n).ovlHeld then modRoute n (fun s => { s with relCode := whole, code := whole }) x else x

/-- One section of a scope at the expiry of a timer (R169): blocked, or released from the list and the overlap of its route. -/
def scopeSection (e : KEnv) (src whole : Nat) (x : KRun) (p : Nat × Nat) : KRun :=
  if occupied e.st (bimg x.k) p.2 then keyRecord src p.1 p.2 cBlkOccupied x
  else if !(trackedOn x.k p.2).isEmpty then keyRecord src p.1 p.2 cBlkCarrier x
  else
    match routeRec e.st p.1 with
    | none => x
    | some r =>
      ensureArmed e p.1 (withSection e src whole p.1 (heldElems e x.k p.1) (keyRecord src p.1 p.2 whole
        (wholeNoted e r p.1 whole (overlapPartReleased e r p.1 p.2 (listPartReleased e r p.1 p.2 x)))))

theorem keyRelease_eq (whole : Nat) (scope : List Nat) (only : Option Nat) : keyRelease e src whole scope only x =
    ((scopeRoutes e x.k scope).filter (fun p => only.all (fun n => n = p.1))).foldl (scopeSection e src whole) x := rfl

theorem routeWork_partsReleased (r : RouteRec) (sec whole : Nat) :
    RouteWork x (wholeNoted e r n whole (overlapPartReleased e r n sec (listPartReleased e r n sec x))) := by
  have list : RouteWork x (listPartReleased e r n sec x) := by
    unfold listPartReleased
    split
    · exact routeWork_releaseSection _ _
    · exact .refl
  have overlap (y : KRun) : RouteWork y (overlapPartReleased e r n sec y) := by
    unfold overlapPartReleased
    split
    · exact routeWork_releaseSection _ _
    · exact .refl
  have noted (y : KRun) : RouteWork y (wholeNoted e r n whole y) := by
    unfold wholeNoted
    split
    · exact routeWork_modRoute _
    · exact .refl
  exact (list.trans (overlap _)).trans (noted _)

/-- Each section of a scope that a route locks has its record, with work on the route before and after it (R173). -/
theorem scopeSection_records (whole : Nat) {p : Nat × Nat} (hp : (routeRec e.st p.1).isSome = true) :
    ∃ y code, RouteWork x y ∧ RouteWork (keyRecord src p.1 p.2 code y) (scopeSection e src whole x p) := by
  obtain ⟨r, hr⟩ := Option.isSome_iff_exists.mp hp
  unfold scopeSection
  simp only [hr]
  split
  · exact ⟨x, _, .refl, .refl⟩
  split
  · exact ⟨x, _, .refl, .refl⟩
  · exact ⟨_, whole, routeWork_partsReleased r p.2 whole, (routeWork_withSection _ _).trans routeWork_ensureArmed⟩

theorem routeWork_scopeSection (whole : Nat) {p : Nat × Nat} (hp : (routeRec e.st p.1).isSome = true) :
    RouteWork x (scopeSection e src whole x p) := by
  obtain ⟨y, code, before, after⟩ := scopeSection_records (src := src) (x := x) whole hp
  exact (before.trans (routeWork_keyRecord _ _ _)).trans after

theorem length_recs_scopeSection (whole : Nat) {p : Nat × Nat} (hp : (routeRec e.st p.1).isSome = true) :
    x.recs.length + 1 ≤ (scopeSection e src whole x p).recs.length := by
  obtain ⟨y, code, before, after⟩ := scopeSection_records (src := src) (x := x) whole hp
  have told := after.recs.length_le
  rw [length_recs_keyRecord] at told
  exact (Nat.succ_le_succ before.recs.length_le).trans told

theorem num_of_routeRec {st : Station} {r : RouteRec} (hr : routeRec st n = some r) : r.num = n :=
  of_decide_eq_true (List.find?_some (p := fun x : RouteRec => decide (x.num = n)) hr)

/-- The routes of a scope are routes of the station. -/
theorem isSome_routeRec_of_mem_scopeRoutes {k : Kernel} {scope : List Nat} {p : Nat × Nat} (hp : p ∈ scopeRoutes e k scope) :
    (routeRec e.st p.1).isSome = true := by
  obtain ⟨h, hh, hp⟩ := List.mem_flatMap.mp hp
  obtain ⟨d, -, hd⟩ := List.mem_filterMap.mp hp
  have num : p.1 = h.1.num := by
    cases hd' : d.1 <;> simp only [hd', reduceCtorEq] at hd
    split at hd
    · exact (congrArg Prod.fst (Option.some.inj hd)).symm
    · cases hd
  obtain ⟨q, -, hq⟩ := List.mem_filterMap.mp (List.mem_filter.mp hh).1
  split at hq
  · obtain ⟨r, hr, rfl⟩ := Option.map_eq_some_iff.mp hq
    rw [num, num_of_routeRec hr, hr]
    rfl
  · cases hq

theorem length_recs_foldl {α : Type} {f : KRun → α → KRun} :
    ∀ {l : List α} {x : KRun}, (∀ x, ∀ a ∈ l, x.recs.length + 1 ≤ (f x a).recs.length) →
      x.recs.length + l.length ≤ (l.foldl f x).recs.length
  | [], _, _ => le_refl _
  | a :: l, x, h => by
    have one := h x a List.mem_cons_self
    have rest := length_recs_foldl (x := f x a) (fun y b hb => h y b (List.mem_cons_of_mem _ hb))
    rw [List.foldl_cons, List.length_cons]
    omega

theorem keyRelease_all (whole : Nat) (scope : List Nat) :
    keyRelease e src whole scope none x = (scopeRoutes e x.k scope).foldl (scopeSection e src whole) x := by
  rw [keyRelease_eq]
  congr 1
  exact List.filter_eq_self.mpr (fun _ _ => rfl)

theorem routeWork_keyRelease (whole : Nat) (scope : List Nat) : RouteWork x (keyRelease e src whole scope none x) := by
  rw [keyRelease_all]
  exact RouteWork.foldl (fun _ _ hp => routeWork_scopeSection whole (isSome_routeRec_of_mem_scopeRoutes hp))

theorem length_recs_keyRelease (whole : Nat) (scope : List Nat) :
    x.recs.length + (scopeRoutes e x.k scope).length ≤ (keyRelease e src whole scope none x).recs.length := by
  rw [keyRelease_all]
  exact length_recs_foldl (fun _ _ hp => length_recs_scopeSection whole (isSome_routeRec_of_mem_scopeRoutes hp))

/-- Where every section that a route locks is occupied, the release only records that (R169). -/
theorem keyRelease_blocked (whole : Nat) {scope : List Nat}
    (ho : ∀ p ∈ scopeRoutes e x.k scope, occupied e.st (bimg x.k) p.2 = true) : (keyRelease e src whole scope none x).k = x.k := by
  rw [keyRelease_all]
  refine List.foldlRecOn (motive := fun y : KRun => y.k = x.k) _ _ rfl (fun y hy p hp => ?_)
  have blocked := ho p hp
  rw [← hy] at blocked
  rw [scopeSection, if_pos blocked, keyRecord_k, hy]

/-! ## A key whose timer is over -/

/-- A key done, with the record of its request (R168, R173). -/
def keyDone (n : Nat) (x : KRun) : KRun :=
  keyRecord n 0xFFFF 0xFFFF 0 (onK (fun k => { k with
    keys := tabPut k.keys n { tabGet x.k.keys n KeySt.init with timing := false, done := true } }) x)

theorem keyExpiry_over {r : KeyRec} (hr : keyRec e.st n = some r) (ht : (tabGet x.k.keys n KeySt.init).timing = true)
    (hz : (tabGet x.k.keys n KeySt.init).remain = 0) :
    keyExpiry e true n x = sequence e (keyRelease e n cKeyRelease r.scope none (keyDone n x)) := by
  have ended : ((tabGet x.k.keys n KeySt.init).timing && (tabGet x.k.keys n KeySt.init).remain = 0 : Bool) = true := by
    rw [ht, hz]
    rfl
  simp only [keyExpiry, hr, ended, if_true]
  rfl

theorem keyExpiry_idle (ht : (tabGet x.k.keys n KeySt.init).timing = false) : keyExpiry e true n x = x := by
  unfold keyExpiry
  simp only [ht, Bool.false_and, Bool.false_eq_true, if_false, if_true]
  split <;> rfl

/-! ## Emergency releases -/

theorem asLaneSession_refused {s : State} {min : Level} {toStandby : Bool} {f : KEnv → KRun → KRun} {out : Kernel → Nat}
    (h : sessRefusal s n min false ≠ rOk) :
    asLaneSession n min toStandby f out s = withResult (sessRefusal s n min false, []) s := if_pos h

theorem asLaneSession_allowed {s : State} {min : Level} {f : KEnv → KRun → KRun} {out : Kernel → Nat}
    (ha : s.allows n min false) (hp : s.pair.role ≠ .standby) (hr : imagesRun s = true) :
    asLaneSession n min false f out s = withResult (functionReply (out (leadKernel (laneRow f s))) []) (laneRow f s) := by
  have lanes : laneRefusal s false = rOk := by simp [laneRefusal, hp, hr]
  simp only [asLaneSession, sessRefusal_allowed ha, lanes, ne_eq, not_true, if_false]

theorem sessRefusal_closed {s : State} (min : Level) (key : Bool) (ho : (sessOf s n).opened = false) :
    sessRefusal s n min key = rSession := by
  simp [sessRefusal, ho]

/-- What an emergency release answers is recorded with event 43 (R173). -/
theorem emergencyRelease_told (session : Nat) :
    (emergencyRelease e session n x).evs = x.evs ++ [⟨43, session⟩] ∧
    (emergencyRelease e session n x).recs.length = x.recs.length + 1 ∧
    (emergencyRelease e session n x).reserves = x.reserves := by
  unfold emergencyRelease
  dsimp only
  split
  · exact ⟨rfl, length_recs_keyRecord _ _ _, rfl⟩
  · split_ifs <;> exact ⟨rfl, length_recs_keyRecord _ _ _, rfl⟩

section
variable (session : Nat)

theorem emergencyRelease_unknown (hr : routeRec e.st n = none) :
    (emergencyRelease e session n x).k = { x.k with emOutcome := cWrongState } := by
  simp only [emergencyRelease, hr]
  rfl

section
variable {r : RouteRec} (hr : routeRec e.st n = some r)
include hr

theorem emergencyRelease_wrongState (ho : (rst x.k n).state ≠ .occupied) (hs : (rst x.k n).state ≠ .releasing) :
    (emergencyRelease e session n x).k = { x.k with emOutcome := cWrongState } := by
  simp only [emergencyRelease, hr, ne_eq, ho, hs, not_false_eq_true, decide_true, Bool.and_self, if_true]
  rfl

/-- An emergency release of an occupied or releasing route: one that runs already stays, a seventeenth is refused, else it starts. -/
theorem emergencyRelease_eq (hs : (rst x.k n).state = .occupied ∨ (rst x.k n).state = .releasing) :
    (emergencyRelease e session n x).k =
      if x.k.emRels.any (fun m => m.route = n) then { x.k with emOutcome := 0 }
      else if 16 ≤ x.k.emRels.length then { x.k with emOutcome := cEmFull }
      else { x.k with emRels := x.k.emRels ++ [⟨n, e.images (r.opS * secNs), session⟩], emOutcome := 0 } := by
  have state : ((rst x.k n).state ≠ .occupied && (rst x.k n).state ≠ .releasing : Bool) = false := by
    rcases hs with hs | hs <;> rw [hs] <;> decide
  simp only [emergencyRelease, hr, state, Bool.false_eq_true, if_false]
  split_ifs <;> rfl

end

end

/-- A record and event 43 for each of some emergency releases. -/
theorem foldl_keyRecord_told (f : EmRel → Nat) (code : Nat) (l : List EmRel) (x : KRun) :
    ∃ y, y = l.foldl (fun x m => keyRecord src (f m) 0xFFFF code x) x ∧ y.k = x.k ∧ y.recs.length = x.recs.length + l.length ∧
      y.evs.length = x.evs.length + l.length ∧ y.reserves = x.reserves := by
  induction l generalizing x with
  | nil => exact ⟨_, rfl, rfl, rfl, rfl, rfl⟩
  | cons m l ih =>
    obtain ⟨y, rfl, kernel, recs, evs, reserves⟩ := ih (keyRecord src (f m) 0xFFFF code x)
    refine ⟨_, rfl, kernel, recs.trans ?_, evs.trans ?_, reserves⟩
    · rw [length_recs_keyRecord, List.length_cons]
      omega
    · rw [keyRecord_evs, List.length_append, List.length_cons, List.length_cons, List.length_nil]
      omega

end

/-! ## The rows -/

/-- Settles O27: a key's expiry is the record of its request and of each section of its scope, with the release of those not blocked; an
emergency release is answered by the state of its route and the timers that run. -/
theorem keyAndEmergencyReleases : Obligations.KeyAndEmergencyReleases := by
  refine ⟨fun s key n hv => exists_kernelRow hv rfl, fun e x n r hr ht hz => ?_, fun e x n ht => keyExpiry_idle ht,
    fun s n route ha hp hr hv => ?_, fun s n route ho => ?_, fun s n route ho hl => ?_, fun e x session n => ?_, fun x session => ?_⟩
  · have work : RouteWork (keyDone n x) (keyRelease e n cKeyRelease r.scope none (keyDone n x)) := routeWork_keyRelease _ _
    have count := length_recs_keyRelease (e := e) (src := n) (x := keyDone n x) cKeyRelease r.scope
    have blocked := keyRelease_blocked (e := e) (src := n) (x := keyDone n x) cKeyRelease (scope := r.scope)
    have sameScope : scopeRoutes e (keyDone n x).k r.scope = scopeRoutes e x.k r.scope := rfl
    have done : (keyDone n x).recs.length = x.recs.length + 1 := length_recs_keyRecord _ _ _
    rw [sameScope, done] at count
    rw [sameScope] at blocked
    refine ⟨_, keyExpiry_over hr ht hz, ?_, fun m hm => ?_, ?_, count, fun ho => ?_, ?_, ?_, ?_, ?_⟩
    · rw [work.frame]
      exact tabGet_put _ _ _ _
    · rw [work.frame]
      exact tabGet_put_other _ _ _ hm
    · exact work.evs.subset (List.mem_append_right _ List.mem_cons_self)
    · rw [blocked ho]
      rfl
    all_goals
      rw [work.frame]
      rfl
  · have answer (f : KEnv → KRun → KRun) : kernelRow f s (laneRow f s) := kernelRow_laneRow f s hv
    exact ⟨⟨_, _, congrArg Host.Outcome.next (asLaneSession_allowed ha hp hr), answer _, rfl⟩,
      ⟨_, _, congrArg Host.Outcome.next (asLaneSession_allowed ha hp hr), answer _, rfl⟩⟩
  · have refused := sessRefusal_closed .maintainer false ho
    have answer (f : KEnv → KRun → KRun) : asLaneSession n .maintainer false f (·.emOutcome) s = withResult (rSession, []) s := by
      rw [asLaneSession_refused (by rw [refused]; decide), refused]
    exact ⟨congrArg Host.Outcome.next (answer _), congrArg Host.Outcome.next (answer _)⟩
  · have refused := sessRefusal_low false ho hl
    have answer (f : KEnv → KRun → KRun) : asLaneSession n .maintainer false f (·.emOutcome) s = withResult (rLevel, []) s := by
      rw [asLaneSession_refused (by rw [refused]; decide), refused]
    exact ⟨congrArg Host.Outcome.next (answer _), congrArg Host.Outcome.next (answer _)⟩
  · obtain ⟨evs, recs, reserves⟩ := emergencyRelease_told (e := e) (n := n) (x := x) session
    refine ⟨_, rfl, fun r hr => ⟨emergencyRelease_wrongState session hr, fun hs => ?_⟩, emergencyRelease_unknown session, evs,
      recs, reserves⟩
    rw [emergencyRelease_eq session hr hs]
    exact ⟨fun ha => if_pos ha, fun ha hf => by rw [if_neg (by rw [ha]; decide), if_pos hf]; rfl,
      fun ha hf => by rw [if_neg (by rw [ha]; decide), if_neg (Nat.not_le.mpr hf)]; rfl⟩
  · obtain ⟨y, hy, kernel, recs, evs, reserves⟩ := foldl_keyRecord_told (src := session) (·.route) cKeyDropped x.k.emRels
      (onK (fun k => { k with emRels := [], emOutcome := 0 }) x)
    exact ⟨y, hy, kernel, recs, evs, reserves⟩

end Sys2Proof.Proofs
end

section
/-! PROOFS. Carriers confirmed, vanished, contradicted and cleared (R162, R164, R185, R194, Table 5.3), stuck inputs (R427). -/

namespace Sys2Proof.Proofs

open Sys2Proof Sys2Proof.Machine Sys2Proof.Laws

/-! ## Tables of carriers -/

section
variable {α : Type} {t : Tab α} {n m : Nat}

theorem mem_of_tabFind {v : α} : ∀ {t : Tab α}, tabFind t n = some v → (n, v) ∈ t
  | (m, w) :: t, h => by
    rw [tabFind] at h
    split at h
    · rename_i hm
      rw [hm, Option.some.inj h]
      exact List.mem_cons_self
    · exact List.mem_cons_of_mem _ (mem_of_tabFind h)

theorem tabFind_del (t : Tab α) (n : Nat) : tabFind (tabDel t n) n = none := by
  cases h : tabFind (tabDel t n) n with
  | none => rfl
  | some v =>
    have kept := (List.mem_filter.mp (mem_of_tabFind h)).2
    simp at kept

theorem tabFind_del_other (t : Tab α) (hm : m ≠ n) : tabFind (tabDel t n) m = tabFind t m := by
  induction t with
  | nil => rfl
  | cons p t ih =>
    obtain ⟨k, w⟩ := p
    rw [tabDel] at ih ⊢
    by_cases hk : k = n
    · rw [List.filter_cons_of_neg (by simp [hk]), ih, tabFind, if_neg (hk ▸ Ne.symm hm)]
    · rw [List.filter_cons_of_pos (by simp [hk]), tabFind, tabFind, ih]

/-- A table with one value for each of some keys. -/
theorem tabFind_foldl_put (g : Nat → α) (l : List Nat) (t : Tab α) (n : Nat) :
    tabFind (l.foldl (fun t n => tabPut t n (g n)) t) n = if n ∈ l then some (g n) else tabFind t n := by
  induction l generalizing t with
  | nil => rfl
  | cons a l ih =>
    rw [List.foldl_cons, ih]
    by_cases hl : n ∈ l
    · rw [if_pos hl, if_pos (List.mem_cons_of_mem _ hl)]
    · rw [if_neg hl]
      by_cases ha : n = a
      · subst ha
        rw [tabFind_put, if_pos List.mem_cons_self]
      · rw [tabFind_put_other _ _ ha, if_neg (by simp [ha, hl])]

end

/-- A run with a carrier in an entry of the tracking table. -/
def putCarrier (n : Nat) (c : Carrier) (x : KRun) : KRun := onK (fun k => { k with carriers := tabPut k.carriers n c }) x

section
variable {e : KEnv} {st : Station} {id n m : Nat} {x : KRun} {c : Carrier}

@[simp] theorem tabFind_putCarrier : tabFind (putCarrier n c x).k.carriers n = some c := tabFind_put _ _ _

theorem tabFind_putCarrier_other (hm : m ≠ n) : tabFind (putCarrier n c x).k.carriers m = tabFind x.k.carriers m :=
  tabFind_put_other _ _ hm

/-! ## Slots -/

/-- A free slot is one of its controller that no entry holds (R194). -/
theorem freeSlot_spec {k : Kernel} {port v : Nat} (h : freeSlot st k port = some v) :
    (∃ i, v = port * 256 + i ∧ i < (tabGet st.authSlots port []).length) ∧
    ∀ m f, tabFind k.carriers m = some f → f.slot ≠ some v := by
  refine ⟨?_, fun m f hf hv => ?_⟩
  · obtain ⟨i, hi, rfl⟩ := List.mem_map.mp (List.mem_of_find?_eq_some h)
    exact ⟨i, rfl, List.mem_range.mp hi⟩
  · have unused := List.find?_some h
    have used : v ∈ k.carriers.filterMap (fun c => c.2.slot) := List.mem_filterMap.mpr ⟨_, mem_of_tabFind hf, hv⟩
    simp [used] at unused

/-- The slot that an entry of the table may take: the lowest free one of its controller, if any. -/
def slotFor (st : Station) (n : Nat) (c : Carrier) (x : KRun) : Option Nat :=
  freeSlot st (putCarrier n { c with slot := none } x).k c.port

theorem giveSlot_slotless (hc : tabFind x.k.carriers n = some c) (hs : c.slot = none) :
    giveSlot st n x = putCarrier n { c with slot := slotFor st n c x } (putCarrier n { c with slot := none } x) := by
  simp only [giveSlot, hc, hs, Option.any_none, Bool.false_eq_true, if_false]
  rfl

/-! ## Routes that follow their carrier -/

theorem routeWork_carrierBack (sec : Nat) : RouteWork x (carrierBack e c sec x) := by
  refine RouteWork.foldl (fun x m _ => ?_)
  dsimp only
  split
  · split
    · exact ((routeWork_dropEvent _).trans (routeWork_modRoute _)).trans routeWork_ensureArmed
    · exact .refl
  · exact .refl

theorem recs_carrierBack (sec : Nat) : (carrierBack e c sec x).recs = x.recs := by
  refine List.foldlRecOn (motive := fun y : KRun => y.recs = x.recs) _ _ rfl (fun y hy m _ => ?_)
  dsimp only
  split
  · split
    · rw [recs_ensureArmed]
      exact hy
    · exact hy
  · exact hy

theorem routeWork_carrierGone (code : Nat) (which : RouteRec → Bool) : RouteWork x (carrierGone e id code which x) := by
  refine RouteWork.foldl (fun x m _ => ?_)
  dsimp only
  split
  · split
    · exact ((((routeWork_dropEvent _).trans (routeWork_modRoute _)).trans (routeWork_kEv _ _)).trans
        (routeWork_kRec _ _ _ _ _)).trans routeWork_ensureArmed
    · exact .refl
  · exact .refl

theorem RouteWork.carriers {y z : KRun} (h : RouteWork y z) : z.k.carriers = y.k.carriers := by rw [h.frame]

theorem RouteWork.reserves {y z : KRun} (h : RouteWork y z) : z.reserves = y.reserves := by rw [h.frame]

/-! ## A candidate confirmed -/

/-- A candidate that becomes tracked with a report (transition 2). -/
def confirmedBy (r : Report) (l : Located) (img : Nat) (c : Carrier) : Carrier :=
  { putReport r l img c with ts := .tracked, lreason := 0, wasLost := false, confirm := 0 }

theorem confirmCarrier_early (hn : entryNo x.k id = some n) (hc : tabFind x.k.carriers n = some c) (hf : c.confirm < e.set.confirmC) :
    confirmCarrier e id x = x := by
  simp only [confirmCarrier, hn, hc, Nat.not_le.mpr hf, decide_false, Bool.and_false, Bool.false_and, Bool.false_eq_true, if_false]
  split <;> rfl

theorem confirmCarrier_confirms {r : Report} {l : Located} (hn : entryNo x.k id = some n) (hc : tabFind x.k.carriers n = some c)
    (hr : reportOf e.st (bimg x.k) id = some r) (hl : locate e.st (bimg x.k) r = some l) (ht : c.ts = .candidate)
    (hf : e.set.confirmC ≤ c.confirm) (hv : reportValid e.st (some c.cls) r = true) :
    confirmCarrier e id x = carrierBack e (confirmedBy r l x.k.image.num c) l.sec
      (giveSlot e.st n (putCarrier n (confirmedBy r l x.k.image.num c) x)) := by
  simp only [confirmCarrier, hn, hc, hr, hl, ht, hf, hv, Option.bind_some, Option.map_some, decide_true, Bool.and_self, if_true]
  rfl

/-- A candidate without a slot confirmed: its entry is tracked, with the slot that is free for it, and the other entries stay. -/
theorem confirmCarrier_spec {r : Report} {l : Located} (hn : entryNo x.k id = some n) (hc : tabFind x.k.carriers n = some c)
    (hr : reportOf e.st (bimg x.k) id = some r) (hl : locate e.st (bimg x.k) r = some l) (ht : c.ts = .candidate)
    (hf : e.set.confirmC ≤ c.confirm) (hv : reportValid e.st (some c.cls) r = true) (hs : c.slot = none) :
    ∃ y z, y = confirmCarrier e id x ∧ z = putCarrier n (confirmedBy r l x.k.image.num c) x ∧
      tabFind y.k.carriers n = some { confirmedBy r l x.k.image.num c with
        slot := slotFor e.st n (confirmedBy r l x.k.image.num c) z } ∧
      (∀ m, m ≠ n → tabFind y.k.carriers m = tabFind x.k.carriers m) ∧ y.recs = x.recs ∧ y.reserves = x.reserves := by
  have slotless : (confirmedBy r l x.k.image.num c).slot = none := hs
  refine ⟨_, _, rfl, rfl, ?_⟩
  rw [confirmCarrier_confirms hn hc hr hl ht hf hv, giveSlot_slotless tabFind_putCarrier slotless, recs_carrierBack,
    (routeWork_carrierBack _).carriers, (routeWork_carrierBack _).reserves]
  exact ⟨tabFind_putCarrier,
    fun m hm => by rw [tabFind_putCarrier_other hm, tabFind_putCarrier_other hm, tabFind_putCarrier_other hm], rfl, rfl⟩

/-! ## A tracked carrier lost -/

/-- The entry of a carrier that is lost for a reason (R185). -/
def lostFor (reason : Nat) (c : Carrier) : Carrier :=
  { c with ts := .lost, lreason := reason, slot := none, limit := 0, clearRun := 0, confirm := 0, wasLost := true }

/-- A carrier lost, told with event 46 and its record (R185). -/
def lossTold (n reason : Nat) (c : Carrier) (x : KRun) : KRun :=
  kRec 1 46 reason 0xFFFF (be 2 c.id ++ be 1 reason ++ (c.span.map (be 2)).flatten) (kEv 46 c.id (putCarrier n (lostFor reason c) x))

theorem loseCarrier_eq (reason : Nat) (hc : tabFind x.k.carriers n = some c) :
    loseCarrier e n reason x = carrierGone e c.id cLostRelease (fun _ => true) (lossTold n reason c x) := by
  simp only [loseCarrier, hc]
  rfl

/-- A carrier lost: its entry without a slot, the other entries, event 46 and a record. -/
theorem loseCarrier_spec (reason : Nat) (hc : tabFind x.k.carriers n = some c) :
    ∃ y, y = loseCarrier e n reason x ∧ tabFind y.k.carriers n = some (lostFor reason c) ∧
      (∀ m, m ≠ n → tabFind y.k.carriers m = tabFind x.k.carriers m) ∧ ⟨46, c.id⟩ ∈ y.evs ∧ x.recs.length < y.recs.length ∧
      y.reserves = x.reserves := by
  have work := routeWork_carrierGone (e := e) (id := c.id) (x := lossTold n reason c x) cLostRelease (fun _ => true)
  have told : (lossTold n reason c x).recs.length = x.recs.length + 1 := List.length_append
  refine ⟨_, rfl, ?_⟩
  rw [loseCarrier_eq reason hc, work.carriers]
  refine ⟨tabFind_putCarrier, fun m hm => tabFind_putCarrier_other hm, work.evs.subset ?_, ?_, work.reserves⟩
  · exact List.mem_append_right _ List.mem_cons_self
  · have grown := work.recs.length_le
    omega

section
variable (hn : entryNo x.k id = some n) (hc : tabFind x.k.carriers n = some c)
include hn hc

theorem vanishCarrier_eq (ht : c.ts = .tracked) (ha : (classRec e.st c.cls).maxAge ≤ c.miss) :
    vanishCarrier e id x = loseCarrier e n 1 x := by
  simp only [vanishCarrier, hn, hc, ht, ha, decide_true, Bool.and_self, if_true]

theorem vanishCarrier_early (ha : c.miss < (classRec e.st c.cls).maxAge) : vanishCarrier e id x = x := by
  simp only [vanishCarrier, hn, hc, Nat.not_le.mpr ha, decide_false, Bool.and_false, Bool.false_eq_true, if_false]

theorem contradictCarrier_eq (ht : c.ts = .tracked) (ha : 3 ≤ c.contra) : contradictCarrier e id x = loseCarrier e n 4 x := by
  simp only [contradictCarrier, hn, hc, ht, ha, decide_true, Bool.and_self, if_true]

theorem contradictCarrier_early (ha : c.contra < 3) : contradictCarrier e id x = x := by
  simp only [contradictCarrier, hn, hc, Nat.not_le.mpr ha, decide_false, Bool.and_false, Bool.false_eq_true, if_false]

/-! ## A lost span cleared -/

theorem clearLost_clears (ht : c.ts = .lost) (ha : e.set.clearE ≤ c.clearRun) :
    clearLost e id x = kRec 1 0xFF 0 0xFFFF (be 2 c.id ++ (c.span.map (be 2)).flatten)
      (onK (fun k => { k with carriers := tabDel k.carriers n }) x) := by
  simp only [clearLost, hn, hc, ht, ha, decide_true, Bool.and_self, if_true]

theorem clearLost_early (ha : c.clearRun < e.set.clearE) : clearLost e id x = x := by
  simp only [clearLost, hn, hc, Nat.not_le.mpr ha, decide_false, Bool.and_false, Bool.false_eq_true, if_false]

end

/-! ## Stuck inputs -/

/-- A kernel that finds an input stuck from this image on (R427). -/
def withStuck (e : KEnv) (key : Nat) (k : Kernel) : Kernel := substituteStuck e { k with stuckNow := k.stuckNow ++ [key] }

/-- A run in which an input is found stuck: event 39 and a record (R427). -/
def stuckTold (e : KEnv) (key : Nat) (x : KRun) : KRun := kRec 1 39 0 0xFFFF (be 2 key) (kEv 39 key (onK (withStuck e key) x))

section
variable {key cls : Nat} (hk : stuckClass e.st key = some cls)
include hk

theorem stuckInput_found (h0 : stuckLimit e cls ≠ 0) (hl : stuckLimit e cls ≤ tabGet x.k.stuck key 0)
    (hs : x.k.stuckNow.contains key = false) : stuckInput key e x = sequence e (stepKeys e (stuckTold e key x)) := by
  simp only [stuckInput, hk, h0, hl, hs, ne_eq, not_false_eq_true, decide_true, Bool.not_false, Bool.and_self, if_true]
  rfl

theorem stuckInput_known (hs : x.k.stuckNow.contains key = true) : stuckInput key e x = x := by
  simp only [stuckInput, hk, hs, Bool.not_true, Bool.and_false, Bool.false_eq_true, if_false]

theorem stuckInput_early (hl : tabGet x.k.stuck key 0 < stuckLimit e cls) : stuckInput key e x = x := by
  simp only [stuckInput, hk, Nat.not_le.mpr hl, decide_false, Bool.and_false, Bool.false_and, Bool.false_eq_true, if_false]

end

section
variable {key : Nat} {k : Kernel}

/-- A kernel with stuck inputs has them at their restrictive values (R427). -/
theorem withStuck_eq : withStuck e key k = { k with
    stuckNow := k.stuckNow ++ [key]
    image := { k.image with bus := { k.image.bus with
      levels := ((k.stuckNow ++ [key]).filter (· < pairKey 0)).foldl (fun t n => tabPut t n (restrictiveOf e.st n)) k.image.bus.levels
      subst := (k.image.bus.subst ++ (k.stuckNow ++ [key]).filter (· < pairKey 0)).eraseDups
      pairs := (((k.stuckNow ++ [key]).filter (pairKey 0 ≤ ·)).map (· - pairKey 0)).foldl
        (fun t n => tabPut t n (pairRestrictive e.st n)) k.image.bus.pairs
      pairSubst := (k.image.bus.pairSubst ++ ((k.stuckNow ++ [key]).filter (pairKey 0 ≤ ·)).map (· - pairKey 0)).eraseDups } } } := by
  simp only [withStuck, substituteStuck, List.append_ne_nil_of_right_ne_nil _ (List.cons_ne_nil key []), if_false]

theorem withStuck_level (hk : key < pairKey 0) :
    tabGet (withStuck e key k).image.bus.levels key true = restrictiveOf e.st key ∧ key ∈ (withStuck e key k).image.bus.subst := by
  have listed : key ∈ (k.stuckNow ++ [key]).filter (· < pairKey 0) := by simp [hk]
  rw [withStuck_eq]
  exact ⟨by rw [tabGet, tabFind_foldl_put, if_pos listed]; rfl, List.mem_eraseDups.mpr (List.mem_append_right _ listed)⟩

theorem withStuck_pair (hk : pairKey 0 ≤ key) :
    tabGet (withStuck e key k).image.bus.pairs (key - pairKey 0) true = pairRestrictive e.st (key - pairKey 0) ∧
    key - pairKey 0 ∈ (withStuck e key k).image.bus.pairSubst := by
  have listed : key - pairKey 0 ∈ ((k.stuckNow ++ [key]).filter (pairKey 0 ≤ ·)).map (· - pairKey 0) :=
    List.mem_map_of_mem (by simp [hk])
  rw [withStuck_eq]
  exact ⟨by rw [tabGet, tabFind_foldl_put, if_pos listed]; rfl, List.mem_eraseDups.mpr (List.mem_append_right _ listed)⟩

end

end

/-! ## The rows -/

/-- Settles O28: each row is the one change of its entry or its input that its count asks for. -/
theorem carriersAndStuckInputs : Obligations.CarriersAndStuckInputs := by
  refine ⟨fun s id hv => ⟨exists_kernelRow hv rfl, exists_kernelRow hv rfl, exists_kernelRow hv rfl, exists_kernelRow hv rfl,
      fun point => exists_kernelRow hv rfl⟩,
    fun e x id n c r l hn hc hr hl ht hf hv hs => ?_, fun e x id n c => confirmCarrier_early,
    fun e x id n c hn hc ht y reason hy => ?_,
    fun e x id n c hn hc => ⟨vanishCarrier_early hn hc, contradictCarrier_early hn hc, clearLost_early hn hc⟩,
    fun e x id n c hn hc ht ha => ?_, fun e x key c hk h0 hl => ⟨stuckInput_known hk, fun hs => ?_⟩,
    fun e x key c hk hl => stuckInput_early hk hl⟩
  · obtain ⟨y, z, rfl, hz, entry, others, recs, reserves⟩ := confirmCarrier_spec hn hc hr hl ht hf hv hs
    refine ⟨_, _, rfl, entry, rfl, rfl, rfl, rfl, rfl, rfl, rfl, rfl, rfl, rfl, fun v hv => ?_, others, recs, reserves⟩
    obtain ⟨slot, free⟩ := freeSlot_spec (k := (putCarrier n _ z).k) hv
    refine ⟨slot, fun m f hm hf => free m f ?_⟩
    rw [tabFind_putCarrier_other hm, hz, tabFind_putCarrier_other hm, hf]
  · have lost : y = loseCarrier e n reason x := by
      rcases hy with ⟨rfl, ha, rfl⟩ | ⟨rfl, ha, rfl⟩
      · exact vanishCarrier_eq hn hc ht ha
      · exact contradictCarrier_eq hn hc ht ha
    obtain ⟨z, rfl, spec⟩ := loseCarrier_spec (e := e) reason hc
    rw [lost]
    exact spec
  · refine ⟨_, rfl, ?_⟩
    rw [clearLost_clears hn hc ht ha]
    exact ⟨tabFind_del _ _, fun m hm => tabFind_del_other _ hm, List.length_append, rfl⟩
  · refine ⟨_, stuckInput_found hk h0 hl hs, ?_, rfl, List.length_append, withStuck_level, withStuck_pair, ?_⟩
    · rw [stuckTold, kRec_k, kEv_k, onK_k, withStuck_eq]
    · rw [stuckTold, kRec_k, kEv_k, onK_k, withStuck_eq]

end Sys2Proof.Proofs
end

section
/-! PROOFS. Reading the Field book, the Chest, snapshots, scheduler events and forces, clearing the Chest, the check-value unit and the
recorder marker (R176, R326, R565 to R577, R593 to R596). -/

namespace Sys2Proof.Proofs

open Sys2Proof Sys2Proof.Machine Sys2Proof.Laws

/-! ## What a session reads -/

/-- A function of the commons that answers `r` with the state `t`, asked for by a session that may. -/
theorem next_asSession {s t : State} {n : Nat} {min : Level} {key : Bool} {f : State → State × Nat × List Byte}
    {r : Nat × List Byte} (ha : s.allows n min key) (hf : f s = (t, r)) :
    (.next (asSession n min key f s) : Host.Outcome State Fault Refusal) = .next (withResult r t) := by
  rw [asSession_allowed ha, hf]

theorem sessOf_modSess (n : Nat) (f : Session → Session) (s : State) : sessOf (modSess n f s) n = f (sessOf s n) := tabGet_mod _ _ _ _

theorem sessOf_modSess_other {n m : Nat} (f : Session → Session) (s : State) (hm : m ≠ n) :
    sessOf (modSess n f s) m = sessOf s m := tabGet_mod_other _ _ _ _ hm

/-- A session that is as before is so apart from its event queue. -/
theorem apartFromEvents {x y : Session} (h : y = x) : y = { x with events := y.events } := by rw [h]

theorem length_be : ∀ n v : Nat, (be n v).length = n
  | 0, _ => rfl
  | n + 1, v => congrArg Nat.succ (length_be n v)

/-- The first entry at or after a cursor. -/
theorem find?_cursor {α : Type} {number : α → Nat} {cur : Nat} {l a b : List α} {r : α} (hl : l = a ++ r :: b)
    (ha : ∀ x ∈ a, number x < cur) (hr : cur ≤ number r) : l.find? (fun x => cur ≤ number x) = some r :=
  List.find?_eq_some_iff_append.mpr ⟨decide_eq_true hr, a, b, hl, fun x hx => by simp [ha x hx]⟩

section
variable {s : State} {n : Nat}

/-! ## The Field book -/

theorem bookReadFn_atEnd (h : s.book.newest ≤ (sessOf s n).bookCur) : bookReadFn n s = (s, rOk, List.replicate 64 0#8) := if_pos h

theorem bookReadFn_record {r : FbRec} (h : (sessOf s n).bookCur < s.book.newest)
    (hr : s.book.recs.find? (fun r => (sessOf s n).bookCur ≤ r.seq) = some r) :
    bookReadFn n s = (modSess n (fun y => { y with
      bookCur := r.seq + 1,
      passed := sat 0xFFFFFFFF (y.passed + (if (sessOf s n).bookCur = 0 then 0 else r.seq - (sessOf s n).bookCur)) }) s, rOk,
      bookBytes r) := by
  simp only [bookReadFn, Nat.not_le.mpr h, hr, if_false]

/-! ## The Chest -/

theorem chestReadFn_pastEnd (good : Bool) (h : ∀ x ∈ s.chest.recs, x.num < (sessOf s n).chestCur) :
    chestReadFn n good s = (s, rOk, List.replicate 256 0#8) := by
  have none : s.chest.recs.find? (fun r => (sessOf s n).chestCur ≤ r.num) = none :=
    List.find?_eq_none.mpr fun x hx => by simp [h x hx]
  simp only [chestReadFn, none]

/-- A module whose Chest keeps what a reading found of a record's check. -/
def chestChecked (good : Bool) (r : ChestRec) (s : State) : State :=
  { s with chest := { s.chest with
    recs := s.chest.recs.map (fun x => if x.num = r.num then { r with good := r.good && good } else x) } }

/-- A session whose Chest cursor has passed a record. -/
def chestPassed (r : ChestRec) (x : Session) : Session := { x with chestCur := r.num + 1 }

section
variable {good : Bool} {r : ChestRec} (hr : s.chest.recs.find? (fun r => (sessOf s n).chestCur ≤ r.num) = some r)
include hr

theorem chestReadFn_good (hg : (r.good && good) = true) :
    chestReadFn n good s = (modSess n (chestPassed r) (chestChecked good r s), rOk,
      chestBody r.kind r ++ be 8 (crcOf crc64 (chestBody r.kind r))) := by
  simp only [chestReadFn, hr, chestChecked, chestBytes, hg, if_true]
  rfl

/-- A record whose check fails is told with event 77 and shown with Kind 0xFF (R573). -/
theorem chestReadFn_bad (hg : (r.good && good) = false) :
    chestReadFn n good s = (modSess n (chestPassed r) (raiseEv 77 r.num (takeFree (chestChecked good r s)).2), rOk,
      chestBody 0xFF r ++ be 8 (takeFree (chestChecked good r s)).1) := by
  simp only [chestReadFn, hr, chestChecked, chestBytes, hg, Bool.false_eq_true, if_false]
  rfl

end

theorem length_chestBody (kind : Nat) (r : ChestRec) : (chestBody kind r).length = 248 := by
  have detail : (r.detail.take 200).length ≤ 200 := List.length_take_le _ _
  simp only [chestBody, time96, List.length_append, length_be, List.length_replicate]
  omega

/-! ## The scheduler's events and the forces -/

theorem eventRecordFn_event {v : SEvent} (h : s.view.events[(sessOf s n).eventCur]? = some v) :
    eventRecordFn n s = (modSess n (fun y => { y with eventCur := y.eventCur + 1 }) s, rOk, eventBytes v) := by
  simp only [eventRecordFn, h]

theorem eventRecordFn_pastEnd (h : s.view.events.length ≤ (sessOf s n).eventCur) :
    eventRecordFn n s = (s, rOk, List.replicate 24 0#8) := by
  simp only [eventRecordFn, List.getElem?_eq_none h]

theorem forceRecordFn_force {f : Force} (h : s.view.prog.forces[(sessOf s n).forceCur]? = some f) :
    forceRecordFn n s = (modSess n (fun y => { y with forceCur := y.forceCur + 1 }) s, rOk, forceBytes f) := by
  simp only [forceRecordFn, h]

theorem forceRecordFn_pastEnd (h : s.view.prog.forces.length ≤ (sessOf s n).forceCur) :
    forceRecordFn n s = (s, rOk, List.replicate 16 0#8) := by
  simp only [forceRecordFn, List.getElem?_eq_none h]

/-! ## The check-value unit -/

theorem crcSelectFn_known {v : Nat} {a : CrcAlg} (h : crcOf? v = some a) :
    crcSelectFn n v s = (modSess n (fun y => { y with crcAlg := v, crcReg := a.init }) s, rOk, be 1 v) := by
  simp only [crcSelectFn, h]

theorem crcSelectFn_unknown {v : Nat} (h : crcOf? v = none) : crcSelectFn n v s = (s, rRange, []) := by
  simp only [crcSelectFn, h]

theorem crcDataFn_fed {d : List Byte} (h1 : 1 ≤ d.length) (h2 : d.length ≤ 1024) :
    crcDataFn n d s = (modSess n (fun y => { y with crcReg := crcFeed (unitAlg y) y.crcReg d }) s, rOk, []) := by
  have some : d.isEmpty = false := List.isEmpty_eq_false_iff.mpr (List.ne_nil_of_length_pos h1)
  simp only [crcDataFn, some, Nat.not_lt.mpr h2, decide_false, Bool.or_self, Bool.false_eq_true, if_false]

theorem crcDataFn_length {d : List Byte} (h : d = [] ∨ 1024 < d.length) : crcDataFn n d s = (s, rLength, []) := by
  have unfit : (d.isEmpty || 1024 < d.length : Bool) = true := by
    rcases h with rfl | h
    · rfl
    · simp [h]
  exact if_pos unfit

theorem crcValueFn_fits {v : Nat} (h : v < 2 ^ (unitAlg (sessOf s n)).width) :
    crcValueFn n v s = (modSess n (fun y => { y with crcReg := v }) s, rOk, be 8 v) := if_pos h

theorem crcValueFn_wide {v : Nat} (h : 2 ^ (unitAlg (sessOf s n)).width ≤ v) : crcValueFn n v s = (s, rRange, []) :=
  if_neg (Nat.not_lt.mpr h)

/-! ## The Chest cleared -/

/-- A Chest with no record and no snapshot. -/
def chestEmptied (s : State) : State :=
  { s with chest := { s.chest with recs := [], newest := 0, snaps := ⟨Snapshot.init, Snapshot.init⟩ } }

/-- The record that tells of a clear (R577). -/
def clearRecorded (n : Nat) (s : State) : State := chestWrite 0x0C 0x30 0 (be 1 n ++ be 4 s.chest.newest) (chestEmptied s)

theorem chestClearFn_clears : chestClearFn n 0xC1 s = (raiseEv 78 n (clearRecorded n s), rOk, []) := rfl

theorem chestClearFn_range {v : Nat} (h : v ≠ 0xC1) : chestClearFn n v s = (s, rRange, []) := if_pos h

/-- An empty Chest that works holds one record after a write (R573). -/
theorem chestWrite_first {kind source code : Nat} {detail : List Byte} (h : s.chest.faulty = false) (he : s.chest.recs = [])
    (hd : detail.length ≤ 200) :
    ∃ r, (chestWrite kind source code detail s).chest = { s.chest with recs := [r], newest := s.chest.newest + 1 } ∧
      r.num = s.chest.newest + 1 ∧ r.kind = kind ∧ r.detail = detail := by
  unfold chestWrite
  rw [if_neg (by simp [h]), he, raiseEv_chest, List.nil_append, keepLast_of_le chestRing _ (by simp [chestRing])]
  exact ⟨_, rfl, rfl, rfl, List.take_of_length_le hd⟩

theorem reported_clear : reported s (withResult (rOk, []) (raiseEv 78 n (clearRecorded n s))) :=
  reported_trans (reported_trans (reported_trans (t := chestEmptied s) ⟨told_of_eq rfl rfl, rfl⟩ (reported_chestWrite _ _ _ _ _))
    (reported_raiseEv _ _ _)) (reported_withResult _ _)

/-! ## The recorder marker -/

/-- The record of the losses since the last marker (R567). -/
def lossMarker (s : State) : FbRec :=
  { seq := 0, time := utcNs s, image := 0, type := 5, event := 0xFF, code := (takeFree s).1 % 65536, source := 3, flags := timeq s,
    who := 0xFFFF, data := (be 4 s.book.lostNew).map BitVec.toNat }

theorem bookMarker_writes (hl : 0 < s.book.lostNew) (hb : s.book.buf.length < 4096) :
    bookMarker s = raiseEv 89 noDetail { (takeFree s).2 with
      book := { s.book with buf := s.book.buf ++ [lossMarker s], lostNew := 0 } } := by
  have room : ¬ bookBuffer ≤ s.book.buf.length := Nat.not_le.mpr hb
  simp only [bookMarker, Nat.ne_of_gt hl, room, decide_false, Bool.or_self, Bool.false_eq_true, if_false]
  rfl

theorem bookMarker_waits (h : s.book.lostNew = 0 ∨ 4096 ≤ s.book.buf.length) : bookMarker s = s :=
  if_pos (by rw [Bool.or_eq_true, decide_eq_true_eq, decide_eq_true_eq]; exact h)

end

/-! ## The rows -/

/-- Settles O49: each read answers with the entry at its cursor or with zeros, the clear leaves its own record, the unit takes what fits
it, the marker is written when there is space. -/
theorem recordReading : Obligations.RecordReading := by
  refine ⟨fun s n ha => ⟨fun h => ?_, fun a r b h hl hx hr => ?_, fun good h => ?_, fun good a r b hl hx hr => ?_, ?_, fun v h => ?_,
      fun h => ?_, fun f h => ?_, fun h => ?_, fun v a h => ?_, fun v h => ?_, fun d h1 h2 => ?_, fun d h => ?_, fun v h => ?_,
      fun v h => ?_⟩,
    fun s n v ha => ⟨fun h => next_asSession ha (chestClearFn_range h), fun h => ?_⟩, fun s => ⟨fun h => ?_, fun hl hb => ?_⟩⟩
  · exact next_asSession ha (bookReadFn_atEnd h)
  · exact next_asSession ha (bookReadFn_record h (find?_cursor hl hx hr))
  · exact next_asSession ha (chestReadFn_pastEnd good h)
  · have found := find?_cursor hl hx hr
    cases hg : r.good && good with
    | true =>
      refine ⟨_, next_asSession ha (chestReadFn_good found hg), rfl, ?_, rfl, rfl, List.length_map _, fun _ => ⟨rfl, rfl⟩, nofun,
        fun m hm => ?_, rfl⟩
      · exact congrArg Session.chestCur (sessOf_modSess n (chestPassed r) _)
      · exact apartFromEvents (sessOf_modSess_other (chestPassed r) (chestChecked good r s) hm)
    | false =>
      refine ⟨_, next_asSession ha (chestReadFn_bad found hg), rfl, ?_, rfl, rfl, List.length_map _, nofun, fun _ => ⟨?_, ?_⟩,
        fun m hm => ?_, rfl⟩
      · exact congrArg Session.chestCur (sessOf_modSess n (chestPassed r) _)
      · exact List.take_append_of_le_length (length_chestBody _ _).ge
      · exact raised_raiseEv (e := 77) (d := r.num) (by decide)
      · have same := sessOf_modSess_other (chestPassed r) (raiseEv 77 r.num (takeFree (chestChecked good r s)).2) hm
        have told := (told_raiseEv 77 r.num (takeFree (chestChecked good r s)).2).2.2 m
        rw [← same] at told
        exact told
  · exact next_asSession ha rfl
  · exact next_asSession ha (eventRecordFn_event h)
  · exact next_asSession ha (eventRecordFn_pastEnd h)
  · exact next_asSession ha (forceRecordFn_force h)
  · exact next_asSession ha (forceRecordFn_pastEnd h)
  · exact next_asSession ha (crcSelectFn_known h)
  · exact next_asSession ha (crcSelectFn_unknown h)
  · exact next_asSession ha (crcDataFn_fed h1 h2)
  · exact next_asSession ha (crcDataFn_length h)
  · exact next_asSession ha (crcValueFn_fits h)
  · exact next_asSession ha (crcValueFn_wide h)
  · obtain ⟨r, chest, num, kind, detail⟩ := chestWrite_first (kind := 0x0C) (source := 0x30) (code := 0)
      (detail := be 1 n ++ be 4 s.chest.newest) (s := chestEmptied s) h rfl (by simp [length_be])
    have after : (withResult (rOk, []) (raiseEv 78 n (clearRecorded n s))).chest =
        { (chestEmptied s).chest with recs := [r], newest := 1 } := chest
    exact ⟨_, r, next_asSession ha chestClearFn_clears, rfl, raised_raiseEv (e := 78) (d := n) (by decide),
      congrArg Chest.recs after, congrArg Chest.newest after, num, kind, detail, congrArg Chest.snaps after, (by rw [after]; rfl),
      reported_clear⟩
  · exact congrArg Host.Outcome.next (bookMarker_waits h)
  · refine ⟨_, lossMarker s, congrArg Host.Outcome.next (bookMarker_writes hl hb), raised_raiseEv (by decide), rfl, rfl, rfl, rfl,
      rfl, rfl, ?_⟩
    rw [← bookMarker_writes hl hb]
    exact reported_bookMarker s

end Sys2Proof.Proofs
end

section
/-! PROOFS. The vote over the present images and the verdict of a comparator (R206, R210 to R212, R219). -/

namespace Sys2Proof.Proofs

open Sys2Proof Sys2Proof.Machine Sys2Proof.Laws

/-! ## Equal blocks -/

theorem blockEq_refl (i : Nat) (a : OutputImage) : blockEq i a a = true := by
  unfold blockEq
  split_ifs <;> simp

theorem blockEq_comm (i : Nat) (a b : OutputImage) : blockEq i a b = blockEq i b a := by
  unfold blockEq
  split_ifs <;> simp only [eq_comm]

theorem blockEq_trans {i : Nat} {a b c : OutputImage} (h : blockEq i a b = true) (k : blockEq i b c = true) :
    blockEq i a c = true := by
  unfold blockEq at h k ⊢
  split_ifs at h k ⊢ <;> simp_all

/-! ## The verdict of one block -/

section
variable {i : Nat} {ps : List (Lane × OutputImage)} {l : Lane}

/-- The present images but that of lane `l` are equal in a block, and that of `l` differs from them (R211). -/
structure OddLane (i : Nat) (ps : List (Lane × OutputImage)) (l : Lane) : Prop where
  three : ps.length = 3
  equal : ∀ p ∈ ps, ∀ q ∈ ps, p.1 ≠ l → q.1 ≠ l → blockEq i p.2 q.2 = true
  differs : ∀ p ∈ ps, ∀ q ∈ ps, p.1 = l → q.1 ≠ l → blockEq i q.2 p.2 = false

/-- Two equal images and a third one that differs from them, in any order. -/
theorem oddLane_of_perm {x y z : Lane × OutputImage} (hp : ps.Perm [x, y, z]) (hn : (ps.map (·.1)).Nodup)
    (he : blockEq i x.2 y.2 = true) (hz : blockEq i x.2 z.2 = false) : OddLane i ps z.1 := by
  have hz' : blockEq i y.2 z.2 = false :=
    Bool.eq_false_iff.mpr fun e => Bool.eq_false_iff.mp hz (blockEq_trans he e)
  have member : ∀ p ∈ ps, p = x ∨ p = y ∨ p = z := fun p hm => by simpa using hp.mem_iff.mp hm
  have names : [x.1, y.1, z.1].Nodup := (hp.map Prod.fst).nodup hn
  have hxz : x.1 ≠ z.1 := by
    simp only [List.nodup_cons, List.mem_cons, not_or] at names
    exact names.1.2.1
  have hyz : y.1 ≠ z.1 := by
    simp only [List.nodup_cons, List.mem_cons, not_or] at names
    exact names.2.1.1
  have others : ∀ p ∈ ps, p.1 ≠ z.1 → p = x ∨ p = y := fun p hm np =>
    (member p hm).imp_right fun h => h.resolve_right fun e => np (congrArg Prod.fst e)
  have odd : ∀ p ∈ ps, p.1 = z.1 → p = z := fun p hm ep => by
    rcases member p hm with rfl | rfl | rfl
    · exact absurd ep hxz
    · exact absurd ep hyz
    · rfl
  refine ⟨hp.length_eq, fun p hp q hq np nq => ?_, fun p hp q hq ep nq => ?_⟩
  · rcases others p hp np with rfl | rfl <;> rcases others q hq nq with rfl | rfl
    · exact blockEq_refl i _
    · exact he
    · exact (blockEq_comm i _ _).trans he
    · exact blockEq_refl i _
  · obtain rfl := odd p hp ep
    rcases others q hq nq with rfl | rfl
    · exact hz
    · exact hz'

theorem blockVerdict_pair (i : Nat) (x y : Lane × OutputImage) :
    blockVerdict i [x, y] = if blockEq i x.2 y.2 then .agree else .differ := rfl

theorem blockVerdict_triple (i : Nat) (x y z : Lane × OutputImage) :
    blockVerdict i [x, y, z] =
      if blockEq i x.2 y.2 then (if blockEq i x.2 z.2 then .agree else .minority z.1)
      else if blockEq i x.2 z.2 then .minority y.1
      else if blockEq i y.2 z.2 then .minority x.1
      else .differ := rfl

/-- A minority verdict names the odd lane of three (R211). -/
theorem blockVerdict_minority (hn : (ps.map (·.1)).Nodup) (hv : blockVerdict i ps = .minority l) : OddLane i ps l := by
  rcases ps with _ | ⟨x, _ | ⟨y, _ | ⟨z, _ | ⟨w, ws⟩⟩⟩⟩
  case cons.cons.nil =>
    rw [blockVerdict_pair] at hv
    split at hv <;> cases hv
  case cons.cons.cons.nil =>
    rw [blockVerdict_triple] at hv
    split_ifs at hv with hxy hxz hxz hyz
    · cases hv
      exact oddLane_of_perm (.refl _) hn hxy (Bool.eq_false_iff.mpr hxz)
    · cases hv
      exact oddLane_of_perm ((List.Perm.swap z y []).cons x) hn hxz (Bool.eq_false_iff.mpr hxy)
    · cases hv
      refine oddLane_of_perm (x := y) (y := z) (List.perm_append_comm (l₁ := [x])) hn hyz ?_
      exact (blockEq_comm i _ _).trans (Bool.eq_false_iff.mpr hxy)
  all_goals cases hv

/-- Up to three images with the verdict of agreement are equal to the first in the block. -/
theorem blockVerdict_agree_first {x : Lane × OutputImage} (hl : (x :: ps).length ≤ 3) (hv : blockVerdict i (x :: ps) = .agree) :
    ∀ p ∈ ps, blockEq i x.2 p.2 = true := by
  rcases ps with _ | ⟨y, _ | ⟨z, _ | ⟨w, ws⟩⟩⟩
  · exact fun _ hp => absurd hp List.not_mem_nil
  · rw [blockVerdict_pair] at hv
    split_ifs at hv with hxy
    simpa using hxy
  · rw [blockVerdict_triple] at hv
    split_ifs at hv with hxy hxz
    simp [hxy, hxz]
  · exact absurd hl (by simp)

/-- Up to three images with the verdict of agreement are equal in the block. -/
theorem blockVerdict_agreed (hl : ps.length ≤ 3) (hv : blockVerdict i ps = .agree) :
    ∀ p ∈ ps, ∀ q ∈ ps, blockEq i p.2 q.2 = true := by
  cases ps with
  | nil => exact fun _ hp => absurd hp List.not_mem_nil
  | cons x ps =>
    have first : ∀ p ∈ x :: ps, blockEq i x.2 p.2 = true :=
      List.forall_mem_cons.mpr ⟨blockEq_refl i _, blockVerdict_agree_first hl hv⟩
    exact fun p hp q hq => blockEq_trans ((blockEq_comm i _ _).trans (first p hp)) (first q hq)

/-! ## The vote -/

/-- The vote names the lanes in the minority in some block (R212). -/
theorem mem_named : l ∈ (voteOf ps).named ↔ ∃ i < 20, blockVerdict i ps = .minority l := by
  have all : l ∈ allLanes := by cases l <;> decide
  simp [voteOf, all, blockCount]

theorem blockVerdict_ne_differ (hd : (voteOf ps).differs = false) (hi : i < 20) : blockVerdict i ps ≠ .differ := by
  intro h
  have listed : (voteOf ps).verdicts.contains .differ = true :=
    List.contains_iff_mem.mpr (List.mem_map.mpr ⟨i, List.mem_range.mpr hi, h⟩)
  exact absurd (hd.symm.trans listed) (by decide)

/-- The images a half keeps: those of the lanes that no block names (R212). -/
abbrev keptImages (ps : List (Lane × OutputImage)) : List (Lane × OutputImage) :=
  ps.filter (fun p => !(voteOf ps).named.contains p.1)

theorem not_named_of_kept {p : Lane × OutputImage} (hp : p ∈ keptImages ps) : p ∈ ps ∧ p.1 ∉ (voteOf ps).named := by
  simpa using List.mem_filter.mp hp

theorem length_le_three_of_nodup (hn : (ps.map (·.1)).Nodup) : ps.length ≤ 3 := by
  have sub : ps.map (·.1) ⊆ allLanes := fun l _ => by cases l <;> decide
  simpa [allLanes] using (hn.subperm sub).length_le

/-- The images kept are equal in every block. -/
theorem kept_equal (hn : (ps.map (·.1)).Nodup) (hd : (voteOf ps).differs = false) {p q : Lane × OutputImage}
    (hp : p ∈ keptImages ps) (hq : q ∈ keptImages ps) (hi : i < 20) : blockEq i p.2 q.2 = true := by
  obtain ⟨mp, np⟩ := not_named_of_kept hp
  obtain ⟨mq, nq⟩ := not_named_of_kept hq
  cases hv : blockVerdict i ps with
  | agree => exact blockVerdict_agreed (length_le_three_of_nodup hn) hv p mp q mq
  | minority l =>
    have named : l ∈ (voteOf ps).named := mem_named.mpr ⟨i, hi, hv⟩
    exact (blockVerdict_minority hn hv).equal p mp q mq (fun e => np (e ▸ named)) (fun e => nq (e ▸ named))
  | differ => exact absurd hv (blockVerdict_ne_differ hd hi)

/-- At least two images are kept where at most one lane is named. -/
theorem two_le_kept (hn : (ps.map (·.1)).Nodup) (h2 : 2 ≤ ps.length) (h1 : (voteOf ps).named.length ≤ 1) :
    2 ≤ (keptImages ps).length := by
  match hm : (voteOf ps).named, h1 with
  | [], _ => simpa [keptImages, hm] using h2
  | [l], _ =>
    obtain ⟨i, -, hv⟩ := mem_named.mp (hm ▸ List.mem_singleton_self l)
    have three := (blockVerdict_minority hn hv).three
    have names : (keptImages ps).map (·.1) = (ps.map (·.1)).erase l := by
      rw [hn.erase_eq_filter, List.filter_map]
      simp only [keptImages, hm]
      congr 2
      funext p
      simp [bne, beq_eq_decide]
    have := List.le_length_erase (l := ps.map (·.1)) (a := l)
    rw [← names, List.length_map, List.length_map] at this
    omega

/-- The pair code of two images or more is that of the first two lanes (R206). -/
theorem pairCode_first_two (hn : (ps.map (·.1)).Nodup) (h2 : 2 ≤ ps.length) :
    ∃ l k, l ≠ k ∧ pairCode ps = pairBit l + pairBit k := by
  match ps, hn, h2 with
  | p :: q :: _, hn, _ =>
    simp only [List.map_cons, List.nodup_cons, List.mem_cons, not_or] at hn
    exact ⟨p.1, q.1, hn.1.1, rfl⟩

end

/-- Settles O12, from the verdict of each block. -/
theorem voteKeepsAgreeing : Obligations.VoteKeepsAgreeing := by
  intro ps hn h2 hd h1
  have kept := two_le_kept hn h2 h1
  refine ⟨kept, fun p hp q hq i hi => kept_equal hn hd hp hq hi, fun p hp q hq hm hne => ?_, ?_⟩
  · obtain ⟨i, hi, hv⟩ := mem_named.mp (hm ▸ List.mem_singleton_self p.1)
    exact ⟨i, hi, (blockVerdict_minority hn hv).differs p hp q hq rfl hne⟩
  · exact pairCode_first_two (hn.sublist (List.filter_sublist.map _)) kept

/-! ## The verdict of a comparator -/

theorem verdictOf_pair (x y : Lane × List Byte) : verdictOf [x, y] = if x.2 = y.2 then .match_ else .noMajority := rfl

theorem verdictOf_triple (x y z : Lane × List Byte) :
    verdictOf [x, y, z] =
      if x.2 = y.2 then (if x.2 = z.2 then .match_ else .minority z.1)
      else if x.2 = z.2 then .minority y.1
      else if y.2 = z.2 then .minority x.1
      else .noMajority := rfl

/-- All benchmarks are equal when all equal the first. -/
theorem allEqual_cons_iff (x : Lane × List Byte) (ps : List (Lane × List Byte)) :
    (∀ p ∈ x :: ps, ∀ q ∈ x :: ps, p.2 = q.2) ↔ ∀ q ∈ ps, x.2 = q.2 := by
  refine ⟨fun h q hq => h x List.mem_cons_self q (List.mem_cons_of_mem x hq), fun h => ?_⟩
  have first : ∀ p ∈ x :: ps, x.2 = p.2 := List.forall_mem_cons.mpr ⟨rfl, h⟩
  exact fun p hp q hq => (first p hp).symm.trans (first q hq)

theorem verdictOf_match_iff {ps : List (Lane × List Byte)} (h2 : 2 ≤ ps.length) (h3 : ps.length ≤ 3) :
    verdictOf ps = .match_ ↔ ∀ p ∈ ps, ∀ q ∈ ps, p.2 = q.2 := by
  rcases ps with _ | ⟨x, _ | ⟨y, _ | ⟨z, _ | ⟨w, ws⟩⟩⟩⟩
  case cons.cons.nil =>
    rw [allEqual_cons_iff, verdictOf_pair]
    by_cases e : x.2 = y.2 <;> simp [e]
  case cons.cons.cons.nil =>
    rw [allEqual_cons_iff, verdictOf_triple]
    split_ifs <;> simp_all
  case cons.cons.cons.cons => exact absurd h3 (by simp)
  all_goals exact absurd h2 (by simp)

/-- The odd benchmark of three, at whichever place it stands. -/
theorem verdictOf_minority {x y z : Lane × List Byte} (e : x.2 = y.2) (k : z.2 ≠ x.2) :
    verdictOf [z, x, y] = .minority z.1 ∧ verdictOf [x, z, y] = .minority z.1 ∧ verdictOf [x, y, z] = .minority z.1 := by
  simp [verdictOf, ← e, k, k.symm]

/-- Settles O13, by the number of benchmarks present. -/
theorem benchmarkVerdicts : Obligations.BenchmarkVerdicts := by
  refine ⟨fun ps h2 h3 => verdictOf_match_iff h2 h3, fun x y z l hl e k => ?_, fun x y z hxy hxz hyz => ?_,
    fun x y h => if_neg h, fun ps h => ?_⟩
  · obtain ⟨first, second, third⟩ := verdictOf_minority e k
    simp only [List.mem_cons, List.not_mem_nil, or_false] at hl
    rcases hl with rfl | rfl | rfl
    · exact first
    · exact second
    · exact third
  · simp [verdictOf, hxy, hxz, hyz]
  · match ps, h with
    | [], _ => rfl
    | [_], _ => rfl

end Sys2Proof.Proofs
end

section
/-! PROOFS. A lane excluded by its lateness, its memory, its clock or its supply; the phases of a rejoin and how it fails (R214, R225 to
R227, R230 to R237, R247). -/

namespace Sys2Proof.Proofs

open Sys2Proof Sys2Proof.Machine Sys2Proof.Laws

/-! ## The newest Chest record -/

theorem getLast?_keepLast_append {α : Type} {n : Nat} (hn : 0 < n) (l : List α) (x : α) : (keepLast n (l ++ [x])).getLast? = some x := by
  have room : ¬ (l ++ [x]).length ≤ (l ++ [x]).length - n := by
    rw [List.length_append, List.length_singleton]
    omega
  rw [keepLast, List.getLast?_drop, if_neg room, List.getLast?_concat]

/-- What a Chest that works took last (R573). -/
theorem chestWrite_last {kind source code : Nat} {detail : List Byte} {s : State} (h : s.chest.faulty = false) :
    (chestWrite kind source code detail s).chest.recs.getLast?.map (fun x => (x.kind, x.source, x.code)) =
      some (kind, source, code) := by
  unfold chestWrite
  rw [if_neg (by simp [h]), raiseEv_chest]
  dsimp only
  rw [getLast?_keepLast_append (by decide)]
  rfl

theorem bookPut_chest (r : FbRec) (s : State) : (bookPut r s).chest = s.chest := by
  have marker : (bookMarker s).chest = s.chest := by
    unfold bookMarker
    split <;> rfl
  unfold bookPut
  dsimp only
  split
  · split
    · exact marker
    · exact marker
  · split
    · rfl
    · rfl

theorem raiseRec_chest (e d c f w : Nat) (l : List Byte) (s : State) : (raiseRec e d c f w l s).chest = s.chest := bookPut_chest _ _

/-- The record of a lane taken out is the newest of the Chest (R226). -/
theorem dropLane_last {l : Lane} {reason block : Nat} {detail : List Byte} {s : State} (h : s.chest.faulty = false) :
    (dropLane l reason block detail s).chest.recs.getLast?.map (fun x => (x.kind, x.source, x.code)) = some (1, laneNo l, reason) := by
  unfold dropLane
  dsimp only
  split
  · rw [raiseRec_chest]
    exact chestWrite_last h
  · rw [raiseEv_chest, raiseRec_chest]
    exact chestWrite_last h

/-! ## A lane excluded while three are in vote -/

theorem inVote_congr {s t : State} {l : Lane} (h : triGet t.lanes l = triGet s.lanes l) : inVote t l = inVote s l := by
  simp only [inVote, inVoteAt, h]

theorem inVote_of_three {s : State} (h : (lanesInVote s).length = 3) (l : Lane) : inVote s l = true := by
  have listed : l ∈ lanesInVote s := by
    rw [lanesInVote_all h]
    cases l <;> decide
  exact (List.mem_filter.mp listed).2

/-- A lane in vote is not rejoining. -/
theorem not_rejoining_of_inVote {s : State} {l : Lane} (h : inVote s l = true) : rejoining (triGet s.lanes l) = false := by
  have state : (triGet s.lanes l).ls = .inVote := by
    simp only [inVote, inVoteAt, Bool.or_eq_true, Bool.and_eq_true, decide_eq_true_eq] at h
    exact h.elim And.left And.left
  simp [rejoining, state]

theorem dropLane_other {l k : Lane} (hk : k ≠ l) (reason block : Nat) (detail : List Byte) (s : State) :
    triGet (dropLane l reason block detail s).lanes k = triGet s.lanes k := by
  rw [(dropLane_eq l reason block detail s).2]
  exact triGet_put_other _ _ hk

theorem restartRejoins_none {s : State} (h : ∀ l, rejoining (triGet s.lanes l) = false) : restartRejoins s = s := by
  simp only [restartRejoins, allLanes, List.foldl_cons, List.foldl_nil, h, Bool.false_eq_true, if_false]

/-- Two lanes in vote besides `l`, whatever `l` is. -/
theorem two_inVote {s : State} {l : Lane} (h : ∀ k, k ≠ l → inVote s k = true) : 2 ≤ (lanesInVote s).length := by
  have sub : (allLanes.filter (· ≠ l)).Sublist (lanesInVote s) :=
    List.monotone_filter_right allLanes fun k hk => h k (by simpa using hk)
  have two : (allLanes.filter (· ≠ l)).length = 2 := by cases l <;> rfl
  exact two ▸ sub.length_le

/-- With three lanes in vote an exclusion takes the lane out and leaves it at that: two remain in vote and none rejoins (R228, R238). -/
theorem excludeLanes_of_three {s : State} (h : (lanesInVote s).length = 3) (l : Lane) (reason : Nat) (detail : List Byte) :
    excludeLanes [l] reason 0xFF detail s = dropLane l reason 0xFF detail s := by
  have kept : ∀ k, k ≠ l → inVote (dropLane l reason 0xFF detail s) k = true := fun k hk =>
    (inVote_congr (dropLane_other hk reason 0xFF detail s)).trans (inVote_of_three h k)
  have none_ : ∀ k, rejoining (triGet (dropLane l reason 0xFF detail s).lanes k) = false := by
    intro k
    by_cases e : k = l
    · subst e
      exact (dropLane_lane k reason 0xFF detail s).not_rejoining
    · exact not_rejoining_of_inVote (kept k e)
  unfold excludeLanes
  rw [if_neg (List.cons_ne_nil _ _)]
  dsimp only [List.foldl_cons, List.foldl_nil]
  rw [if_neg (Nat.not_lt.mpr (two_inVote kept)), restartRejoins_none none_]

theorem excludeLane_of_three {s : State} (h : (lanesInVote s).length = 3) (l : Lane) (reason : Nat) (detail : List Byte) :
    excludeLane l reason detail s = dropLane l reason 0xFF detail s := by
  rw [excludeLane, if_pos (inVote_of_three h l), excludeLanes_of_three h]

theorem lateExclusion_of_three {s : State} {l : Lane} (h : (lanesInVote s).length = 3) (hm : s.comm.mode = false)
    (hl : 3 ≤ (triGet s.lanes l).late.a ∨ 3 ≤ (triGet s.lanes l).late.b) :
    lateExclusion l s = dropLane l 0x03 0xFF [] s := by
  unfold lateExclusion
  rw [if_pos (by simp [inVote_of_three h l, hm, hl]), excludeLanes_of_three h]

/-! ## A rejoin that fails -/

/-- The failures of a lane within 3,600 s, with the present one (R237). -/
def rejoinFailures (l : Lane) (s : State) : List Nat :=
  s.ns :: (triGet s.lanes l).fails.filter (fun t => s.ns < t + 3600 * secNs)

/-- A failed rejoin holds its lane (R237). -/
def rejoinHolds (l : Lane) (s : State) : Bool :=
  s.vote.rejoinMax ≤ (rejoinFailures l s).length || !s.vote.autoRejoin || (s.upd.phase = .rollingBack && s.upd.lane = laneNo l)

/-- A lane whose rejoin failed. -/
def rejoinFailedLane (l : Lane) (reason : Nat) (s : State) : LaneSt := { triGet s.lanes l with
  ls := if rejoinHolds l s then .held else .excluded, reason := reason, fails := rejoinFailures l s, out := none,
  progress := 0xFF, keptImgs := [], copyPoint := none, outOk := none, benchOk := none, shadowOk := 0,
  line := ⟨false, false⟩, started := false }

/-- A failed rejoin before what an install makes of it: the lane's record and events (R237). -/
def rejoinFailed (l : Lane) (reason : Nat) (s : State) : State :=
  let t := raiseEv 10 (laneNo l) (chestWrite 4 (laneNo l) reason (be 1 reason)
    { s with lanes := triPut s.lanes l (rejoinFailedLane l reason s) })
  if rejoinHolds l s then raiseEv 11 (laneNo l) t else t

theorem failRejoin_eq (l : Lane) (reason : Nat) (s : State) : failRejoin l reason s =
    if s.upd.phase = .rejoining && s.upd.lane = laneNo l then startRollBack (rejoinFailed l reason s) else rejoinFailed l reason s := rfl

theorem rejoinFailed_reported (l : Lane) (reason : Nat) (s : State) :
    reported { s with lanes := triPut s.lanes l (rejoinFailedLane l reason s) } (rejoinFailed l reason s) := by
  have written := reported_trans (reported_chestWrite 4 (laneNo l) reason (be 1 reason)
    { s with lanes := triPut s.lanes l (rejoinFailedLane l reason s) }) (reported_raiseEv 10 (laneNo l) _)
  unfold rejoinFailed
  dsimp only
  split
  · exact reported_trans written (reported_raiseEv _ _ _)
  · exact written

theorem rejoinFailed_lanes (l : Lane) (reason : Nat) (s : State) :
    (rejoinFailed l reason s).lanes = triPut s.lanes l (rejoinFailedLane l reason s) := by
  rw [(rejoinFailed_reported l reason s).2]

theorem rejoinFailed_raised (l : Lane) (reason : Nat) (s : State) : (rejoinFailed l reason s).raised 10 := by
  unfold rejoinFailed
  dsimp only
  split
  · exact raised_mono (raised_raiseEv (by decide))
  · exact raised_raiseEv (by decide)

theorem rejoinFailed_held {l : Lane} {reason : Nat} {s : State} (h : rejoinHolds l s = true) : (rejoinFailed l reason s).raised 11 := by
  unfold rejoinFailed
  dsimp only
  rw [if_pos h]
  exact raised_raiseEv (by decide)

/-- A lane back in reset for a reason, event 10 pending (R237). -/
structure RejoinOver (l : Lane) (reason : Nat) (s : State) : Prop where
  pend : s.raised 10
  reason : (triGet s.lanes l).reason = reason
  state : (triGet s.lanes l).ls = .excluded ∨ (triGet s.lanes l).ls = .held

theorem rejoinFailed_over (l : Lane) (reason : Nat) (s : State) : RejoinOver l reason (rejoinFailed l reason s) := by
  have lane : triGet (rejoinFailed l reason s).lanes l = rejoinFailedLane l reason s := by rw [rejoinFailed_lanes, triGet_put]
  refine ⟨rejoinFailed_raised l reason s, by rw [lane]; rfl, ?_⟩
  rw [lane, rejoinFailedLane]
  dsimp only
  split
  · exact .inr rfl
  · exact .inl rfl

/-- A roll-back returns at most one held lane for its rewrite (R622). -/
theorem startRollBack_lane (l : Lane) (s : State) :
    ∃ r, triGet (startRollBack s).lanes l = { triGet s.lanes l with returned := r } := by
  unfold startRollBack
  split
  · exact ⟨_, rfl⟩
  · dsimp only
    cases laneOf? s.upd.lane with
    | none => exact ⟨_, rfl⟩
    | some k =>
      dsimp only
      by_cases e : l = k
      · subst e
        rw [triGet_mod]
        split <;> exact ⟨_, rfl⟩
      · rw [triGet_mod_other _ _ e]
        exact ⟨_, rfl⟩

theorem RejoinOver.startRollBack {l : Lane} {reason : Nat} {s : State} (h : RejoinOver l reason s) :
    RejoinOver l reason (startRollBack s) := by
  obtain ⟨r, e⟩ := startRollBack_lane l s
  have ev : (Machine.startRollBack s).ev = s.ev := by
    unfold Machine.startRollBack
    split <;> rfl
  refine ⟨by rw [State.raised, ev]; exact h.pend, by rw [e]; exact h.reason, by rw [e]; exact h.state⟩

/-- However a rejoin fails, also in an install, its lane is back in reset for the reason. -/
theorem failRejoin_over (l : Lane) (reason : Nat) (s : State) : RejoinOver l reason (failRejoin l reason s) := by
  rw [failRejoin_eq]
  split
  · exact (rejoinFailed_over l reason s).startRollBack
  · exact rejoinFailed_over l reason s

/-- Outside an install nothing else comes of it. -/
theorem failRejoin_idle {l : Lane} {reason : Nat} {s : State} (h : s.upd.phase = .idle) :
    failRejoin l reason s = rejoinFailed l reason s := by
  rw [failRejoin_eq, if_neg (by simp [h])]

theorem rejoinHolds_idle {l : Lane} {s : State} (ha : s.vote.autoRejoin = true) (h : s.upd.phase = .idle) :
    rejoinHolds l s = decide (s.vote.rejoinMax ≤ (rejoinFailures l s).length) := by
  simp [rejoinHolds, ha, h]

theorem rejoinOver_timed {s : State} {x : LaneSt} (h : x.ls = .booting ∨ x.ls = .copying) (hd : x.dueNs < s.ns) :
    rejoinOver s x = true := by
  unfold rejoinOver
  rcases h with e | e <;> simp [e, hd]

/-- Settles O15, by what an exclusion leaves with two lanes in vote and by how a rejoin fails. -/
theorem laneExclusions : Obligations.LaneExclusions := by
  refine ⟨fun s l addr c r h3 hc => ?_, fun s l h3 => ⟨fun addr => ?_, ?_, ?_⟩, fun s l hm => ?_, fun s l hl hd ha hi => ?_⟩
  · obtain ⟨detail, he⟩ : ∃ detail, exec c s = .next (dropLane l r 0xFF detail s) := by
      rcases hc with ⟨rfl, rfl⟩ | ⟨rfl, rfl⟩ | ⟨rfl, rfl⟩ | ⟨rfl, rfl, hm, hl⟩
      · exact ⟨_, congrArg Host.Outcome.next (excludeLane_of_three h3 l 5 _)⟩
      · exact ⟨_, congrArg Host.Outcome.next (excludeLane_of_three h3 l 7 _)⟩
      · exact ⟨_, congrArg Host.Outcome.next (excludeLane_of_three h3 l 8 _)⟩
      · exact ⟨_, congrArg Host.Outcome.next (lateExclusion_of_three h3 hm hl)⟩
    exact ⟨_, he, raised_dropLane l r 0xFF detail s, dropLane_last, dropLane_eq l r 0xFF detail s⟩
  · exact ⟨_, rfl, (excludeLane_laneOut (inVote_of_three h3 l) 5 _).reason⟩
  · exact ⟨_, rfl, (excludeLane_laneOut (inVote_of_three h3 l) 7 _).reason⟩
  · exact ⟨_, rfl, (excludeLane_laneOut (inVote_of_three h3 l) 8 _).reason⟩
  · exact congrArg Host.Outcome.next (if_neg (by simp [hm]))
  · have step : exec (.rejoinTimeout l) s = .next (rejoinFailed l 0x0F s) := by
      rw [← failRejoin_idle hi]
      exact congrArg Host.Outcome.next (if_pos (rejoinOver_timed hl hd))
    have lane : triGet (rejoinFailed l 0x0F s).lanes l = rejoinFailedLane l 0x0F s := by rw [rejoinFailed_lanes, triGet_put]
    have holds := rejoinHolds_idle (l := l) ha hi
    refine ⟨_, step, rejoinFailed_raised l 0x0F s, by rw [lane]; rfl, by rw [lane]; rfl, ?_, fun hmax => ?_, fun k hk => ?_, ?_⟩
    · rw [lane, rejoinFailedLane, holds]
      simp only [decide_eq_true_eq]
    · rw [lane] at hmax
      exact rejoinFailed_held (holds.trans (decide_eq_true hmax))
    · rw [rejoinFailed_lanes]
      exact triGet_put_other _ _ hk
    · rw [rejoinFailed_lanes]
      exact rejoinFailed_reported l 0x0F s

/-! ## The phases of a rejoin -/

section
variable {s : State} {l : Lane}

theorem startBooting_noRestore (h : triGet s.age.restore l = false) :
    startBooting l s = { s with lanes := triMod s.lanes l (fun x => { x with
      ls := .booting, dueNs := s.ns + bootBudget, rounds := 0, copyPoint := none, keptImgs := [], outOk := none, benchOk := none,
      shadowOk := 0, progress := 0, returned := false, started := false }) } := by
  have clock : restoreClock l s = s := if_pos (by simp [h])
  rw [startBooting, clock]

/-- Outside an install an excluded lane's rejoin begins by itself (R230). -/
theorem rejoinStart_excluded (hx : (triGet s.lanes l).ls = .excluded) (ha : s.vote.autoRejoin = true) (hi : s.upd.phase = .idle)
    (hp : s.view.prog.ps ≠ .armed) (hr : s.vote.restrictive = false) (hs : s.power.st = .run) :
    rejoinStart l s = startBooting l s := by
  simp [rejoinStart, hx, ha, hi, hp, hr, hs]

/-- A booted lane needs no further run of its test. -/
def rerunCleared (l : Lane) (s : State) : State := { s with test := { s.test with
  insts := s.test.insts.map (fun p => if p.1 = laneNo l then (p.1, { p.2 with rerun := none }) else p) } }

theorem bootingDone_passed (h : (triGet s.lanes l).ls = .booting) :
    bootingDone l true true true s = { rerunCleared l s with lanes := triMod s.lanes l (fun x => { x with
      ls := .copying, rounds := 0, copyPoint := none, keptImgs := [], dueNs := s.ns + copyBudget, progress := 34 }) } :=
  if_neg (not_not.mpr h)

/-- The reason of the first check that failed while booting (R231). -/
def bootFault (fw data : Bool) : Nat := if !fw then 0x0A else if !data then 0x0B else 0x05

theorem bootingDone_failed {fw data mem : Bool} (h : (triGet s.lanes l).ls = .booting) (hf : (fw && data && mem) = false) :
    bootingDone l fw data mem s = failRejoin l (bootFault fw data) (rerunCleared l s) := by
  unfold bootingDone
  dsimp only
  rw [if_neg (not_not.mpr h)]
  cases fw with
  | false => rfl
  | true =>
    cases data with
    | false => rfl
    | true =>
      cases mem with
      | false => rfl
      | true => exact absurd hf (by decide)

section
variable {n : Nat} (hc : (triGet s.lanes l).ls = .copying) (hp : (triGet s.lanes l).copyPoint = none) (hv : imageVoted s = true)
include hc hp hv

/-- A round with few enough pages makes its image the copy point (R233). -/
theorem copyRoundEnd_final (hn : n ≤ 1024) :
    copyRoundEnd l n true s = { s with lanes := triMod s.lanes l (fun x => { x with
      rounds := x.rounds + 1, copyPoint := some s.imageNo, kernel := leadKernel s, keptImgs := [], progress := 80 }) } := by
  unfold copyRoundEnd
  dsimp only
  rw [if_neg (by simp [hc, hp, hv]), if_neg (by decide), if_pos (show n ≤ finalPages from hn)]
  rfl

/-- A further round is copied, or the last one allowed has passed (R233). -/
theorem copyRoundEnd_pages (hn : 1024 < n) :
    copyRoundEnd l n true s = if 20 ≤ (triGet s.lanes l).rounds + 1 then failRejoin l 0x0E s
      else { s with lanes := triMod s.lanes l (fun x => { x with rounds := x.rounds + 1 }) } := by
  unfold copyRoundEnd
  dsimp only
  rw [if_neg (by simp [hc, hp, hv]), if_neg (by decide), if_neg (show ¬ n ≤ finalPages from Nat.not_le.mpr hn)]
  rfl

end

/-- A lane that has run the images it kept and catches up (R234). -/
def caughtUp (l : Lane) (s : State) : LaneSt :=
  { (triGet s.lanes l).keptImgs.foldl (fun v img => laneRun s PassTimes.zero img v) (triGet s.lanes l) with
    ls := .catchingUp, keptImgs := [], copyPoint := none, progress := 90, dueImg := imgAdd s.imageNo 60 }

theorem finalRound_caughtUp {j : Nat} (hc : (triGet s.lanes l).ls = .copying) (hp : (triGet s.lanes l).copyPoint = some j) :
    finalRound l s = { s with lanes := triPut s.lanes l (caughtUp l s) } :=
  if_neg (by simp [hc, hp])

/-- A lane in vote, counted by the halves in service (R236). -/
def entered (s : State) (x : LaneSt) : LaneSt := { x with
  ls := .inVote, line := ⟨s.halves.a.inServ, s.halves.b.inServ⟩, late := ⟨0, 0⟩, lateWas := ⟨0, 0⟩, progress := 0xFF, outOk := none,
  benchOk := none, shadowOk := 0 }

theorem laneEnters_shadow (hl : (triGet s.lanes l).ls = .shadow) (ho : (triGet s.lanes l).outOk = some s.imageNo)
    (hb : (triGet s.lanes l).benchOk = some s.imageNo) (hs : 1 ≤ (triGet s.lanes l).shadowOk) :
    laneEnters l s = raiseEv 3 (laneNo l) { s with lanes := triMod s.lanes l (entered s) } :=
  if_pos (by simp [hl, shadowGood, ho, hb, hs])

end

/-- Settles O16, phase by phase. -/
theorem laneRejoin : Obligations.LaneRejoin := by
  refine ⟨fun s l hx ha hi hp hr hs hc => ?_, fun s l hb => ?_, fun s l fw data mem hb hf => ?_, fun s l n hc hp hv hn => ?_,
    fun s l n hc hp hv hn => ⟨fun h => ?_, fun h => ?_⟩, fun s l j hc hp => ?_, fun s l hl ho hb hs => ?_⟩
  · exact congrArg Host.Outcome.next ((rejoinStart_excluded hx ha hi hp hr hs).trans (startBooting_noRestore hc))
  · exact ⟨_, congrArg Host.Outcome.next (bootingDone_passed hb), rfl, rfl, rfl⟩
  · have failed := failRejoin_over l (bootFault fw data) (rerunCleared l s)
    exact ⟨_, congrArg Host.Outcome.next (bootingDone_failed hb hf), failed.pend, failed.reason, failed.state⟩
  · exact congrArg Host.Outcome.next (copyRoundEnd_final hc hp hv hn)
  · exact congrArg Host.Outcome.next ((copyRoundEnd_pages hc hp hv hn).trans (if_neg (by omega)))
  · have failed := failRejoin_over l 0x0E s
    exact ⟨_, congrArg Host.Outcome.next ((copyRoundEnd_pages hc hp hv hn).trans (if_pos (by omega))), failed.reason, failed.pend⟩
  · have lane : triGet (triPut s.lanes l (caughtUp l s)) l = caughtUp l s := triGet_put _ _ _
    exact ⟨_, congrArg Host.Outcome.next (finalRound_caughtUp hc hp), by rw [lane]; rfl, by rw [lane]; rfl, by rw [lane]; rfl,
      by rw [lane]; rfl, fun k hk => triGet_put_other _ _ hk, rfl⟩
  · exact ⟨_, congrArg Host.Outcome.next (laneEnters_shadow hl ho hb hs), raised_raiseEv (by decide),
      told_trans (told_of_eq rfl rfl) (told_raiseEv _ _ _), rfl, rfl⟩

end Sys2Proof.Proofs
end

section
/-! PROOFS. A planned withdrawal and its cancel, a lane returned, commissioning mode, the debug access and its journal (R239 to R242,
R246 to R252). -/

namespace Sys2Proof.Proofs

open Sys2Proof Sys2Proof.Machine Sys2Proof.Laws

/-! ## A planned withdrawal -/

section
variable {s : State} {l : Lane}

/-- With three lanes in vote no rejoin is under way. -/
theorem rejoinUnderWay_of_three (h : (lanesInVote s).length = 3) : rejoinUnderWay s = false := by
  have none_ : ∀ k, rejoining (triGet s.lanes k) = false := fun k => not_rejoining_of_inVote (inVote_of_three h k)
  simp [rejoinUnderWay, none_]

theorem withdrawFn_pending (h3 : (lanesInVote s).length = 3) (hp : s.vote.pendLane = none) (ha : s.view.prog.ps ≠ .armed)
    (hc : loadChecking s = false) (hu : s.upd.updating = false) (hi : s.upd.phase = .idle) (hm : modeOf s ≤ 1) :
    withdrawFn l s = ({ s with vote := { s.vote with pendLane := some l, pendFrom := s.imageNo, cmdOutcome := 0x4001 } }, rOk, []) := by
  have run : ¬ (modeOf s ≠ 0 && modeOf s ≠ 1) = true := by
    simp only [Bool.and_eq_true, decide_eq_true_eq]
    omega
  unfold withdrawFn
  rw [if_neg (by simp [h3, rejoinUnderWay_of_three h3]), if_neg (by simp [hp, ha, hc, hu, hi]), if_neg run]
  rfl

theorem withdrawFn_fewLanes (h : (lanesInVote s).length < 3) :
    withdrawFn l s = ({ s with vote := { s.vote with cmdOutcome := 0x4002 } }, rFunction, [0x40#8, 0x02#8]) :=
  if_pos (by simp [h])

/-- A lane withdrawn as planned, its deliveries dropped (R239). -/
def withdrawn (l : Lane) (s : State) : State := { s with
  lanes := triMod s.lanes l (fun x => { x with ls := .withdrawn, reason := 0x10, line := ⟨false, false⟩, out := none, returned := false })
  halves := twoMap s.halves (fun _ h => { h with ingress := triPut h.ingress l none, bench := triPut h.bench l none })
  vote := { s.vote with pendLane := none, cmdOutcome := 0 } }

theorem leavePlanned_idle (h : s.upd.phase = .idle) : leavePlanned l s = raiseEv 12 (laneNo l) (withdrawn l s) := by
  unfold leavePlanned
  rw [if_neg (by simp [h])]
  rfl

theorem withdrawalEffect_due (hp : s.vote.pendLane = some l) (hf : s.vote.pendFrom ≤ s.imageNo) (hb : s.imageNo % s.vote.n = 0)
    (hm : s.vote.matched = some s.imageNo) : withdrawalEffect s = leavePlanned l s := by
  unfold withdrawalEffect
  rw [hp]
  exact if_pos (by simp [hf, hb, hm])

theorem cancelFn_pending (hp : s.vote.pendLane = some l) (hi : s.upd.phase = .idle) :
    cancelFn s = (laneOutcome 0x4006 (raiseEv 12 0x4006 { s with vote := { s.vote with pendLane := none } }), rOk, []) := by
  unfold cancelFn
  rw [if_pos (by simp [hp])]
  dsimp only
  rw [if_neg (by simp [raiseEv, raiseAt, hi])]
  rfl

theorem cancelFn_none (hp : s.vote.pendLane = none) :
    cancelFn s = ({ s with vote := { s.vote with cmdOutcome := 0x4009 } }, rFunction, [0x40#8, 0x09#8]) :=
  if_neg (by simp [hp])

/-! ## A lane returned -/

/-- A lane noted for its rejoin. -/
def returnNoted (l : Lane) (s : State) : State := { s with lanes := triMod s.lanes l (fun x => { x with returned := true }) }

theorem returnFn_out (h : (triGet s.lanes l).ls = .withdrawn ∨ (triGet s.lanes l).ls = .held) :
    returnFn l s = (laneOutcome 0 (abortTests (· = laneNo l) (returnNoted l s)), rOk, []) := by
  unfold returnFn
  dsimp only
  rw [if_pos (by simpa using h)]
  rfl

/-- A running test ended with ABORTED, event 73 (R582). -/
def testAborted (s : State) (x : Nat × TestInst) : State := raiseEv 73 (instNo x.1) { s with test := { s.test with
  outcome := 0xA009, insts := tabPut s.test.insts x.1 { x.2 with ts := .aborted, last := 0xA009 } } }

theorem abortTests_eq_foldl (p : Nat → Bool) (s : State) :
    abortTests p s = (s.test.insts.filter (fun x => p x.1 && x.2.ts = .running)).foldl testAborted s := rfl

/-- Tests that end change the tests and raise events. -/
theorem abortTests_frame (p : Nat → Bool) (s : State) : told s (abortTests p s) ∧ abortTests p s = { s with
    test := (abortTests p s).test, ev := (abortTests p s).ev, dict := (abortTests p s).dict } := by
  rw [abortTests_eq_foldl]
  refine foldl_frame (P := fun t => told s t ∧ t = { s with test := t.test, ev := t.ev, dict := t.dict }) (fun t x ht => ?_) _
    ⟨told_refl s, rfl⟩
  obtain ⟨told_, frame⟩ := ht
  refine ⟨told_trans told_ (told_trans (told_of_eq rfl rfl) (told_raiseEv _ _ _)), ?_⟩
  rw [frame]
  rfl

theorem abortTests_none {p : Nat → Bool} (h : ∀ x ∈ s.test.insts, p x.1 = true → x.2.ts ≠ .running) : abortTests p s = s := by
  have none_ : s.test.insts.filter (fun x => p x.1 && x.2.ts = .running) = [] :=
    List.filter_eq_nil_iff.mpr fun x hx => by simpa using h x hx
  rw [abortTests, none_, List.foldl_nil]

/-! ## Commissioning mode -/

/-- Without the commissioning key a session that may otherwise write is answered KEY. -/
theorem asSession_keyInactive {n : Nat} {min : Level} {f : State → State × Nat × List Byte} (ha : s.allows n min false)
    (hk : s.lio.key = false) : asSession n min true f s = withResult (rKey, []) s := by
  obtain ⟨opened, level, -⟩ := ha
  have refusal : sessRefusal s n min true = rKey := by
    simp only [sessRefusal, opened, Bool.not_true, Bool.false_eq_true, if_false, Nat.not_lt.mpr level, hk, Bool.not_false, Bool.and_self,
      if_true]
  rw [asSession, refusal]
  exact if_pos (by decide)

theorem leaveFn_mode (h : s.comm.mode = true) :
    leaveFn s = ({ s with comm := { s.comm with leaving := true, leaveImgs := 0 } }, rOk, []) := by
  rw [leaveFn, if_pos h]

/-- The entry that an action journals (R249). -/
def journalEntry (a : JAction) (core count addr : Nat) (data : List Byte) (s : State) : JEntry :=
  { seq := s.comm.seq + 1, core := core, action := a, count := count, addr := addr, image := s.imageNo, data := data, doneB := false,
    doneC := false }

/-- An entry in the debug journal, with the number it takes. -/
def withEntry (j : JEntry) (s : State) : State :=
  { s with comm := { s.comm with journal := s.comm.journal ++ [j], seq := s.comm.seq + 1 } }

theorem journal_eq (a : JAction) (core count addr : Nat) (data : List Byte) (s : State) :
    journal a core count addr data s = actOn .a a core addr data (withEntry (journalEntry a core count addr data s) s) := rfl

/-- A resume journaled for a core at its count. -/
def resumeCore (s : State) (c : Nat) : State := journal .resume c (coreCount s.lanes.a c) 0 [] s

/-- Cores run again, their resumes journaled with a number each. -/
def resumed (js : List JEntry) (cs : List Nat) (s : State) : State := { s with
  lanes := { s.lanes with a := { s.lanes.a with halted := s.lanes.a.halted.filter (· ∉ cs) } }
  comm := { s.comm with journal := s.comm.journal ++ js, seq := s.comm.seq + cs.length } }

theorem resumeCore_eq (s : State) (c : Nat) :
    resumeCore s c = resumed [journalEntry .resume c (coreCount s.lanes.a c) 0 [] s] [c] s := by
  simp only [resumeCore, journal_eq, actOn, resumed, List.mem_singleton]
  rfl

theorem resumed_resumed (js ks : List JEntry) (cs ds : List Nat) (s : State) :
    resumed ks ds (resumed js cs s) = resumed (js ++ ks) (cs ++ ds) s := by
  simp [resumed, List.filter_filter, Nat.add_assoc, Bool.and_comm]

theorem foldl_resumeCore (cs : List Nat) : ∀ s : State, ∃ js : List JEntry, js.length = cs.length ∧
    cs.foldl resumeCore s = resumed js cs s := by
  induction cs with
  | nil => exact fun s => ⟨[], rfl, by simp [resumed]⟩
  | cons c cs ih =>
    intro s
    obtain ⟨js, hl, he⟩ := ih (resumeCore s c)
    refine ⟨journalEntry .resume c (coreCount s.lanes.a c) 0 [] s :: js, congrArg Nat.succ hl, ?_⟩
    rw [List.foldl_cons, he, resumeCore_eq, resumed_resumed]
    rfl

/-- The debug access closed (R251). -/
def debugClosed (s : State) : State := { s with comm := { s.comm with debugOpen := false } }

theorem keyInactive_closes (ho : s.comm.debugOpen = true) (hk : s.lio.key = false) :
    keyInactive s = debugClosed (s.lanes.a.halted.foldl resumeCore s) :=
  if_pos (by simp [ho, hk])

end

/-- Settles O17, row by row. -/
theorem withdrawalAndCommissioning : Obligations.WithdrawalAndCommissioning := by
  refine ⟨fun s n l ha h3 hp hv hc hu hi hm => ?_, fun s n l ha h => ?_, fun s l hp hf hb hm hi => ?_, fun s n l ha hp hi => ?_,
    fun s n ha hp => ?_, fun s n l ha hl => ?_, fun s n ha => ?_, fun s n ha hm => ?_, fun s n ha hk => ⟨?_, ?_⟩, fun s ho hk => ?_⟩
  · exact next_asSession ha (withdrawFn_pending h3 hp hv hc hu hi hm)
  · exact next_asSession ha (withdrawFn_fewLanes h)
  · exact congrArg Host.Outcome.next ((withdrawalEffect_due hp hf hb hm).trans (leavePlanned_idle hi))
  · exact next_asSession ha (cancelFn_pending hp hi)
  · exact next_asSession ha (cancelFn_none hp)
  · obtain ⟨ht, hf⟩ := abortTests_frame (· = laneNo l) (returnNoted l s)
    refine ⟨_, next_asSession ha (returnFn_out hl), (by rw [hf]; rfl), (by rw [hf]; rfl), rfl, fun idle => ?_, ?_, by rw [hf]; rfl⟩
    · have same := abortTests_none (s := returnNoted l s) (p := (· = laneNo l)) fun x hx e => idle x hx (by simpa using e)
      show (abortTests (· = laneNo l) (returnNoted l s)).test = s.test
      rw [same]
      rfl
    · exact told_trans (told_of_eq rfl rfl) (told_trans ht (told_trans (told_of_eq rfl rfl) (told_withResult _ _)))
  · exact next_asSession ha rfl
  · exact next_asSession ha (leaveFn_mode hm)
  · exact congrArg Host.Outcome.next (asSession_keyInactive ha hk)
  · exact congrArg Host.Outcome.next (asSession_keyInactive ha hk)
  · obtain ⟨js, hl, he⟩ := foldl_resumeCore s.lanes.a.halted s
    refine ⟨debugClosed (resumed js s.lanes.a.halted s), congrArg Host.Outcome.next ((keyInactive_closes ho hk).trans (by rw [he])),
      rfl, rfl, ?_, rfl, fun _ => ?_, rfl, rfl, rfl⟩
    · exact List.length_append.trans (congrArg _ hl)
    · exact List.filter_eq_nil_iff.mpr fun c hc => by simpa using hc

/-! ## The debug journal -/

section
variable {s : State} {core : Nat}

/-- An action of the debug access with room for its entries (R250). -/
theorem debugAct_room {n : Nat} (f : State → State) (hr : debugReady s = true) (hc : core ≤ 3) (hn : s.comm.journal.length + n ≤ 1024) :
    debugAct n core f s = f s := by
  unfold debugAct
  rw [if_neg (by simp [hr, Nat.not_lt.mpr hc]), if_neg (show ¬ journalCap < _ from Nat.not_lt.mpr hn)]

/-- Without room nothing but event 15 comes of it (R250). -/
theorem debugAct_full {n : Nat} (f : State → State) (hr : debugReady s = true) (hc : core ≤ 3) (hn : 1024 < s.comm.journal.length + n) :
    debugAct n core f s = raiseEv 15 core s := by
  unfold debugAct
  rw [if_neg (by simp [hr, Nat.not_lt.mpr hc]), if_pos (show journalCap < _ from hn)]

/-- A core of Lane A that ran one instruction of a single step. -/
def stepped (core : Nat) (s : State) : State :=
  { s with lanes := { s.lanes with a := { s.lanes.a with cores := s.lanes.a.cores.set core (coreCount s.lanes.a core + 1) } } }

/-- A single step: a resume, one instruction, a halt at the count after it (R249). -/
def singleStep (core : Nat) (s : State) : State :=
  journal .halt core (coreCount s.lanes.a core + 1) 0 [] (stepped core (resumeCore s core))

theorem singleStep_journal : (singleStep core s).comm.journal = s.comm.journal ++
    [journalEntry .resume core (coreCount s.lanes.a core) 0 [] s,
      { journalEntry .halt core (coreCount s.lanes.a core + 1) 0 [] s with seq := s.comm.seq + 2 }] := by
  simp only [singleStep, journal_eq, resumeCore_eq, actOn, withEntry, stepped, resumed, List.append_assoc]
  rfl

/-- A single step's two entries and their numbers, Lane A's counts and its halted cores are all it changes. -/
theorem singleStep_frame : singleStep core s = { s with
    comm := { s.comm with seq := (singleStep core s).comm.seq, journal := (singleStep core s).comm.journal }
    lanes := { s.lanes with a := { s.lanes.a with
      cores := (singleStep core s).lanes.a.cores, halted := (singleStep core s).lanes.a.halted } } } := by
  simp only [singleStep, journal_eq, resumeCore_eq, actOn, withEntry, stepped, resumed, triMod, triPut, triGet]

theorem singleStep_halted : core ∈ (singleStep core s).lanes.a.halted := by
  simp [singleStep, journal_eq, actOn, withEntry, triMod, triPut]

/-! ## Counts published -/

/-- Lane A's counts after a publication, none of which falls (R248). -/
def raisedCounts (counts : List Nat) (v : LaneSt) : List Nat := (List.range 4).map (fun i => max (v.cores.getD i 0) (counts.getD i 0))

/-- The counts of a lane that follows Lane A, core by core (R248). -/
def followedCounts (a : List Nat) (v : LaneSt) : List Nat :=
  (List.range 4).map (fun i => if v.halted.contains i then v.cores.getD i 0 else a.getD i 0)

theorem execInstructionCountPublish_mode (counts : List Nat) (h : s.comm.mode = true) :
    exec (.instructionCountPublish counts) s = .next { s with
      comm := { s.comm with published := raisedCounts counts s.lanes.a }
      lanes := ⟨{ s.lanes.a with cores := raisedCounts counts s.lanes.a },
        { s.lanes.b with cores := followedCounts (raisedCounts counts s.lanes.a) s.lanes.b },
        { s.lanes.c with cores := followedCounts (raisedCounts counts s.lanes.a) s.lanes.c }⟩ } :=
  congrArg Host.Outcome.next (if_pos h)

theorem getD_map_range {f : Nat → Nat} {i n : Nat} (h : i < n) : ((List.range n).map f).getD i 0 = f i := by
  simp [List.getD, h]

/-! ## Entries applied by Lanes B and C -/

/-- Of two lanes in vote both must have applied an entry for it to be freed (R250). -/
theorem freeEntries_bothInVote (hb : inVote s .b = true) (hc : inVote s .c = true) :
    freeEntries s = { s with comm := { s.comm with journal := s.comm.journal.filter (fun j => !(j.doneB && j.doneC)) } } := by
  simp only [freeEntries, hb, hc, Bool.not_true, Bool.or_false]

/-- An entry applied by Lane B, freed once Lane C has applied it too, in front of entries not yet freed. -/
theorem filter_doneB {j : JEntry} {r : List JEntry} (hr : ∀ k ∈ r, (k.doneB && k.doneC) = false) :
    ({ j with doneB := true } :: r).filter (fun j => !(j.doneB && j.doneC)) = if j.doneC then r else { j with doneB := true } :: r := by
  have rest : r.filter (fun j => !(j.doneB && j.doneC)) = r := List.filter_eq_self.mpr fun k hk => by simp [hr k hk]
  rw [List.filter_cons, rest, Bool.true_and]
  cases j.doneC <;> rfl

/-- Lane B applies a memory write whose count its core has reached (R249). -/
theorem journalApply_memWrite {j : JEntry} {r : List JEntry} (hj : s.comm.journal = j :: r) (hs : ∀ k ∈ r, k.seq ≠ j.seq)
    (hd : j.doneB = false) (ha : j.action = .memWrite) (hc : j.count ≤ coreCount s.lanes.b j.core) :
    journalApply .b j.core s = freeEntries (actOn .b .memWrite j.core j.addr j.data
      { s with comm := { s.comm with journal := { j with doneB := true } :: r } }) := by
  have marked : (j :: r).map (fun k => if k.seq ≠ j.seq then k else { k with doneB := true }) = { j with doneB := true } :: r := by
    rw [List.map_cons, if_neg (not_not.mpr rfl)]
    exact congrArg _ ((List.map_congr_left fun k hk => if_pos (hs k hk)).trans (List.map_id r))
  have reached : j.count ≤ max (coreCount (triGet s.lanes .b) j.core) (s.comm.published.getD j.core 0) := le_max_of_le_left hc
  unfold journalApply
  rw [hj, List.find?_cons_of_pos (by simp [notDone, hd])]
  dsimp only
  rw [if_pos reached, ← marked, ha]

end

/-- Settles O18, row by row. -/
theorem debugJournal : Obligations.DebugJournal := by
  refine ⟨fun s core hr hc hn => ⟨?_, fun n hle => ?_, ?_, fun addr data hd => ⟨?_, ?_⟩⟩, fun s core hr hc hn => ?_,
    fun s core addr data hr hc hn hd c hm => ?_, fun s counts hm => ?_, fun s j r hj hs hd hb hc ha hle hr => ?_⟩
  · exact congrArg Host.Outcome.next (debugAct_room _ hr hc hn)
  · refine congrArg Host.Outcome.next ((debugAct_room _ hr hc hn).trans ?_)
    rw [max_eq_left hle]
    rfl
  · exact congrArg Host.Outcome.next (debugAct_room _ hr hc hn)
  · exact congrArg Host.Outcome.next ((if_pos hd).trans (debugAct_room _ hr hc hn))
  · exact congrArg Host.Outcome.next ((if_pos hd).trans (debugAct_room _ hr hc hn))
  · exact ⟨singleStep core s, congrArg Host.Outcome.next (debugAct_room _ hr hc (by omega)), rfl, singleStep_journal, singleStep_halted,
      rfl, singleStep_frame⟩
  · have full : ∀ n f, 0 < n → debugAct n core f s = raiseEv 15 core s := fun n f hp => debugAct_full f hr hc (by omega)
    simp only [List.mem_cons, List.not_mem_nil, or_false] at hm
    rcases hm with rfl | rfl | rfl | rfl | rfl | rfl
    · exact congrArg Host.Outcome.next (full 1 _ (by decide))
    · exact congrArg Host.Outcome.next (full 1 _ (by decide))
    · exact congrArg Host.Outcome.next (full 1 _ (by decide))
    · exact congrArg Host.Outcome.next (full 2 _ (by decide))
    · exact congrArg Host.Outcome.next ((if_pos hd).trans (full 1 _ (by decide)))
    · exact congrArg Host.Outcome.next ((if_pos hd).trans (full 1 _ (by decide)))
  · exact ⟨_, execInstructionCountPublish_mode counts hm,
      fun i hi => ⟨getD_map_range hi, rfl, getD_map_range hi, getD_map_range hi⟩, rfl⟩
  · have applied := (journalApply_memWrite hj hs hd ha hle).trans (freeEntries_bothInVote hb hc)
    exact ⟨_, congrArg Host.Outcome.next applied, rfl, filter_doneB hr, rfl⟩

end Sys2Proof.Proofs
end

section
/-! PROOFS. What a walk of Trestle that passes has seen (R261, R262, R266): each section clear, no crossing open, each point detected. -/

namespace Sys2Proof.Proofs

open Sys2Proof Sys2Proof.Machine Sys2Proof.Laws

/-! ## What a passed walk rests on -/

/-- The sections of a walk that must be clear: of an authority's walk all but the first (R266), of any other walk every one. -/
def clearNeeded (g : Goal) (l : List (Nat × Dir)) : List (Nat × Dir) :=
  match g with
  | .auth _ => l.tail
  | _ => l

theorem mem_clearNeeded {g : Goal} {l : List (Nat × Dir)} {p : Nat × Dir} (h : p ∈ clearNeeded g l) : p ∈ l := by
  cases g with
  | auth e => exact List.mem_of_mem_tail h
  | signal n => exact h
  | inward => exact h

/-- A section that follows is exempt only as the first of an authority's walk. -/
theorem mem_clearNeeded_append {g : Goal} {l : List (Nat × Dir)} {a p : Nat × Dir} {first : Bool} (hf : first = true → l = [])
    (h : p ∈ clearNeeded g (l ++ [a])) : p ∈ clearNeeded g l ∨ p = a ∧ startFree g first = false := by
  cases g with
  | signal n => simpa [clearNeeded, startFree] using h
  | inward => simpa [clearNeeded, startFree] using h
  | auth e =>
    cases l with
    | nil => simp [clearNeeded] at h
    | cons b l =>
      have later : first = false := by
        cases first with
        | false => rfl
        | true => exact absurd (hf rfl) (List.cons_ne_nil _ _)
      simpa [clearNeeded, startFree, later] using h

/-- Every element that a walk has reached is in its condition (Table 7.3). -/
structure ElementsPass (t : TEnv) (g : Goal) (w : Walk) : Prop where
  clear : ∀ p ∈ clearNeeded g w.secs, occupied t.st t.img p.1 = false
  closed : ∀ p ∈ w.secs, openCrossing t p.1 = none
  detected : ∀ p ∈ w.pts, (detOf t.st t.img p).isSome = true

/-- Two walks agree in what they rest on: sections, points, failure. -/
structure SameElements (v w : Walk) : Prop where
  secs : v.secs = w.secs
  pts : v.pts = w.pts
  fail : v.fail = w.fail

theorem SameElements.refl (w : Walk) : SameElements w w := ⟨rfl, rfl, rfl⟩

section
variable {t : TEnv} {g : Goal} {w v : Walk}

theorem ElementsPass.same (h : ElementsPass t g w) (e : SameElements v w) : ElementsPass t g v := by
  obtain ⟨secs, pts, -⟩ := e
  exact ⟨by rw [secs]; exact h.clear, by rw [secs]; exact h.closed, by rw [pts]; exact h.detected⟩

theorem elementsPass_none : ElementsPass t g Walk.none := by
  refine ⟨fun p hp => ?_, fun p hp => absurd hp List.not_mem_nil, fun p hp => absurd hp List.not_mem_nil⟩
  exact absurd (mem_clearNeeded hp) List.not_mem_nil

theorem failed_fail_ne_none (culprit reason : Nat) : (w.failed culprit reason).fail ≠ none := Option.some_ne_none _

/-! ## One section -/

/-- A section that leaves a way out has passed its checks, and so has the point in it. -/
theorem walkSection_exit {first : Bool} {x : SectionRec} {c : Int} {d : Dir} {prev : Option Nat} {ex : Exit}
    (h : walkSection t g first x c d prev w = (v, some ex)) :
    (startFree g first = false → occupied t.st t.img x.num = false) ∧ openCrossing t x.num = none ∧
      v.secs = w.secs ++ [(x.num, d)] ∧ v.fail = w.fail ∧
      (v.pts = w.pts ∨ ∃ p, v.pts = w.pts ++ [p] ∧ (detOf t.st t.img p).isSome = true) := by
  unfold walkSection at h
  extract_lets w1 at h
  split at h
  · simp at h
  next clear =>
  have clear' : startFree g first = false → occupied t.st t.img x.num = false := by simpa using clear
  split at h
  · simp at h
  next closed =>
  suffices rest : v.secs = w1.secs ∧ v.fail = w1.fail ∧
      (v.pts = w1.pts ∨ ∃ p, v.pts = w1.pts ++ [p] ∧ (detOf t.st t.img p).isSome = true) from ⟨clear', closed, rest⟩
  split at h
  · next p _ =>
    extract_lets w2 at h
    split at h
    · simp at h
    · next k det =>
      obtain ⟨rfl, -⟩ := Prod.mk.inj h
      exact ⟨rfl, rfl, .inr ⟨p.num, rfl, by rw [det]; rfl⟩⟩
  · split at h
    · next p _ =>
      extract_lets w2 at h
      split at h
      · simp at h
      · next k det =>
        split at h
        · obtain ⟨rfl, -⟩ := Prod.mk.inj h
          exact ⟨rfl, rfl, .inr ⟨p.num, rfl, by rw [det]; rfl⟩⟩
        · simp at h
    · obtain ⟨rfl, -⟩ := Prod.mk.inj h
      exact ⟨rfl, rfl, .inl rfl⟩

/-- A section that leaves a way out keeps every element in its condition. -/
theorem ElementsPass.walkSection {first : Bool} {x : SectionRec} {c : Int} {d : Dir} {prev : Option Nat} {ex : Exit}
    (hw : ElementsPass t g w) (hf : first = true → w.secs = []) (h : walkSection t g first x c d prev w = (v, some ex)) :
    ElementsPass t g v := by
  obtain ⟨clear, closed, secs, -, pts⟩ := walkSection_exit h
  refine ⟨fun p hp => ?_, fun p hp => ?_, fun p hp => ?_⟩
  · rw [secs] at hp
    rcases mem_clearNeeded_append hf hp with old | ⟨rfl, judged⟩
    · exact hw.clear p old
    · exact clear judged
  · rw [secs, List.mem_append, List.mem_singleton] at hp
    rcases hp with old | rfl
    · exact hw.closed p old
    · exact closed
  · rcases pts with pts | ⟨q, pts, det⟩
    · exact hw.detected p (pts ▸ hp)
    · rw [pts, List.mem_append, List.mem_singleton] at hp
      rcases hp with old | rfl
      · exact hw.detected p old
      · exact det

/-! ## The walk -/

/-- Where a walk goes from a section that leaves a way out: it ends, fails, or enters the next section. -/
def walkOn (t : TEnv) (g : Goal) (fuel n : Nat) (ex : Exit) (o : Option Int) (u : Walk) : Walk :=
  match ex.nxt with
  | .stop => match g with | .auth _ => u.failed n tEnd | _ => u
  | .bnd b =>
    match g with
    | .auth _ => u.failed b tEnd
    | _ => if t.clear b then { u with len := u.len + 1 } else u.failed b tBoundary
  | .sec m c d => walkFrom t g fuel false m c d (some n) o u

/-- How a walk that does not fail goes on from a section: it ends there, an authority's at its end section only, or it goes
on into the next section. -/
def GoesOn (t : TEnv) (g : Goal) (fuel n : Nat) (v r : Walk) : Prop :=
  SameElements r v ∧ (∀ e, g = .auth e → n = e) ∨
  ∃ m c d o u, SameElements u v ∧ walkFrom t g fuel false m c d (some n) o u = r

theorem GoesOn.ends {fuel n : Nat} {r : Walk} (hr : SameElements r v) (hg : ∀ e, g ≠ .auth e) : GoesOn t g fuel n v r :=
  .inl ⟨hr, fun e he => absurd he (hg e)⟩

theorem walkOn_goesOn {fuel n : Nat} {ex : Exit} {o : Option Int} {u r : Walk} (hu : SameElements u v)
    (hr : walkOn t g fuel n ex o u = r) (h : r.fail = none) : GoesOn t g fuel n v r := by
  unfold walkOn at hr
  split at hr
  · split at hr
    · exact absurd (hr ▸ h) (failed_fail_ne_none _ _)
    · next other => exact .ends (hr ▸ hu) other
  · split at hr
    · exact absurd (hr ▸ h) (failed_fail_ne_none _ _)
    · next other =>
      split at hr
      · exact .ends (hr ▸ ⟨hu.secs, hu.pts, hu.fail⟩) other
      · exact absurd (hr ▸ h) (failed_fail_ne_none _ _)
  · next m c d _ => exact .inr ⟨m, c, d, o, u, hu, hr⟩

/-- One section of a walk that does not fail. -/
theorem walkFrom_succ {fuel n : Nat} {first : Bool} {c : Int} {d : Dir} {prev : Option Nat} {beyond : Option Int} {r : Walk}
    (hr : walkFrom t g (fuel + 1) first n c d prev beyond w = r) (h : r.fail = none) :
    ∃ x v ex, secRec t.st n = some x ∧ walkSection t g first x c d prev w = (v, some ex) ∧ GoesOn t g fuel n v r := by
  unfold walkFrom at hr
  split at hr
  · exact absurd (hr ▸ h) (failed_fail_ne_none _ _)
  next x hx =>
  split at hr
  · exact absurd (hr ▸ h) (failed_fail_ne_none _ _)
  split at hr
  · split at hr
    · next failed => exact absurd failed (by simp [hr, h])
    · exact absurd (hr ▸ h) (failed_fail_ne_none _ _)
  next v ex hs =>
  refine ⟨x, v, ex, hx, hs, ?_⟩
  extract_lets sig rest passed onward at hr
  clear_value sig rest
  have passedSame : SameElements passed v := by
    simp only [passed]
    cases sig with
    | some y => exact ⟨rfl, rfl, rfl⟩
    | none => exact SameElements.refl v
  have goes : ∀ (o : Option Int) (u : Walk), SameElements u v → onward o u = r → GoesOn t g fuel n v r :=
    fun o u hu hn => walkOn_goesOn (ex := ex) (o := o) hu hn h
  have ends : v = r → (∀ e, g ≠ .auth e) → GoesOn t g fuel n v r := fun hv other => .ends (hv ▸ SameElements.refl v) other
  clear_value onward passed
  cases g with
  | auth e =>
    dsimp only at hr
    split at hr
    · next there => exact .inl ⟨hr ▸ SameElements.refl v, fun e' he => by rw [there]; injection he⟩
    · exact goes _ _ passedSame hr
  | inward =>
    dsimp only at hr
    split at hr
    · exact ends hr (by simp)
    · exact goes _ _ (SameElements.refl v) hr
  | signal s =>
    dsimp only at hr
    split at hr
    · split at hr
      · exact ends hr (by simp)
      · exact goes _ _ (SameElements.refl v) hr
    · split at hr
      · split at hr
        · exact ends hr (by simp)
        · exact goes _ _ passedSame hr
      · exact goes _ _ (SameElements.refl v) hr

/-- A walk that does not fail keeps every element in its condition; an authority's ends in its end section (R266). -/
theorem walkFrom_passes (fuel : Nat) {n : Nat} {first : Bool} {c : Int} {d : Dir} {prev : Option Nat} {beyond : Option Int}
    {w r : Walk} (hr : walkFrom t g fuel first n c d prev beyond w = r) (h : r.fail = none) (hw : ElementsPass t g w)
    (hf : first = true → w.secs = []) :
    ElementsPass t g r ∧ ∀ e, g = .auth e → r.secs.getLast?.map (·.1) = some e := by
  induction fuel generalizing n first c d prev beyond w with
  | zero => exact absurd (hr ▸ h) (failed_fail_ne_none _ _)
  | succ fuel ih =>
    obtain ⟨x, v, ex, hx, hs, on⟩ := walkFrom_succ hr h
    have hv : ElementsPass t g v := hw.walkSection hf hs
    rcases on with ⟨same, there⟩ | ⟨m, c', d', o, u, same, on⟩
    · refine ⟨hv.same same, fun e he => ?_⟩
      have num : x.num = n := by simpa using List.find?_some hx
      obtain ⟨-, -, secs, -, -⟩ := walkSection_exit hs
      rw [same.secs, secs, List.getLast?_concat, Option.map_some, num, there e he]
    · exact ih on (hv.same same) (by simp)

end

/-- Settles O19: along each walk, section by section. -/
theorem walkElementsPass : Obligations.WalkElementsPass := by
  refine ⟨fun t g h => ?_, fun t sSec eSec d h => ?_⟩
  · unfold signalWalk at h ⊢
    split at h
    · obtain ⟨⟨clear, closed, detected⟩, -⟩ := walkFrom_passes _ rfl h elementsPass_none (fun _ => rfl)
      exact ⟨fun p hp => ⟨clear p hp, closed p hp⟩, detected⟩
    · exact absurd h (failed_fail_ne_none _ _)
  · unfold authWalkT at h ⊢
    split at h
    · exact absurd h (failed_fail_ne_none _ _)
    next known =>
    rw [if_neg known]
    split at h
    · obtain ⟨⟨clear, closed, detected⟩, last⟩ := walkFrom_passes _ rfl h elementsPass_none (fun _ => rfl)
      refine ⟨fun empty => ?_, clear, closed, detected, last eSec rfl⟩
      have there := last eSec rfl
      rw [empty] at there
      exact absurd there (by simp)
    · exact absurd h (failed_fail_ne_none _ _)

end Sys2Proof.Proofs
end

section
/-! PROOFS. What Trestle withholds: claims that conflict, drives, crossings, and every permit by mode (R267 to R269, R272, R275). -/

namespace Sys2Proof.Proofs

open Sys2Proof Sys2Proof.Machine Sys2Proof.Laws

/-! ## Claims -/

section
variable {st : Station} {ws : List (Walker × Walk)} {x y : Walker × Walk}

theorem claims_of_passed {w : Walk} (h : w.fail = none) : claims w = w.secs := by simp [claims, h]

/-- Another walk's claim to a section, where no conflict stands against a walk's, has its direction and is related (R267). -/
theorem claim_of_no_conflict (hc : conflictOf st ws x = none) (hy : y ∈ ws) (hn : y.1 ≠ x.1) {p q : Nat × Dir}
    (hp : p ∈ claims x.2) (hq : q ∈ claims y.2) (e : q.1 = p.1) : q.2 = p.2 ∧ related st x y = true := by
  have none_at_p := List.findSome?_eq_none_iff.mp hc p hp
  extract_lets others at none_at_p
  have other : y ∈ others := List.mem_filter.mpr ⟨hy, by simpa [hn] using ⟨q.2, e ▸ hq⟩⟩
  split at none_at_p
  · cases none_at_p
  next same =>
  split at none_at_p
  · cases none_at_p
  next rel =>
  refine ⟨?_, ?_⟩
  · by_contra differs
    exact same (List.any_eq_true.mpr ⟨y, other, List.any_eq_true.mpr ⟨q, hq, by simp [e, differs]⟩⟩)
  · by_contra unrelated
    exact rel (List.any_eq_true.mpr ⟨y, other, by simpa using unrelated⟩)

end

/-! ## Drives and crossings -/

section
variable {t : TEnv} {ws : List (Walker × Walk)} {outs : List TOut} {o : TOut}

/-- A drive output that is not withheld (R268). -/
theorem withheldFor_drive {p pos : Nat} (hk : o.kind = .drive p pos) (h : withheldFor t ws outs o = none) :
    occupied t.st t.img (((ptRec t.st p).map (·.sec)).getD 0xFFFF) = false ∧ (∀ w ∈ ws, p ∉ w.2.pts) ∧
      ∀ q ∈ outs, ∀ k, q.kind = .drive p k → q.cmd = true → k = pos := by
  unfold withheldFor at h
  rw [hk] at h
  dsimp only at h
  split at h
  · cases h
  next clear =>
  split at h
  · cases h
  next free =>
  split at h
  · cases h
  next single =>
  refine ⟨by simpa using clear, fun w hw reached => ?_, fun q hq k hqk cmd => ?_⟩
  · exact free (List.any_eq_true.mpr ⟨w, hw, List.contains_iff_mem.mpr reached⟩)
  · by_contra differs
    exact single (List.any_eq_true.mpr ⟨q, hq, by simp [hqk, cmd, differs]⟩)

/-- A crossing's open output that is not withheld (R269). -/
theorem withheldFor_crossing {x : Nat} (hk : o.kind = .crossing x) (h : withheldFor t ws outs o = none) :
    ∃ c, xingRec t.st x = some c ∧ ∀ n ∈ c.prot, occupied t.st t.img n = false ∧ ∀ w ∈ ws, ∀ q ∈ w.2.secs, q.1 ≠ n := by
  unfold withheldFor at h
  rw [hk] at h
  dsimp only at h
  split at h
  · next c hc =>
    refine ⟨c, hc, fun n hn => ?_⟩
    have passed := List.find?_eq_none.mp (Option.map_eq_none_iff.mp h) n hn
    simp only [Bool.or_eq_true, not_or, Bool.not_eq_true] at passed
    obtain ⟨clear, unreached⟩ := passed
    refine ⟨clear, fun w hw q hq e => ?_⟩
    have reached : ws.any (fun w => w.2.secs.any (fun s => s.1 = n)) = true :=
      List.any_eq_true.mpr ⟨w, hw, List.any_eq_true.mpr ⟨q, hq, by simp [e]⟩⟩
    rw [reached] at unreached
    cases unreached
  · cases h

end

/-! ## Permit words of an inhibited half -/

section
variable {s : State} {h : Half}

/-- A half withholds every cell (R275). -/
def withholdsAll (s : State) (h : Half) : Bool := inhibited s || !(twoGet s.tres h).lock

theorem withholdsAll_iff : withholdsAll s h = true ↔
    s.comm.mode = true ∨ s.power.unconfigured = true ∨ s.power.confirmed = false ∨ (twoGet s.tres h).lock = false := by
  simp [withholdsAll, inhibited, or_assoc]

theorem raiseEv_foldl_tx (e : Nat) (l : List Nat) (s : State) : (l.foldl (fun s b => raiseEv e b s) s).tx = s.tx :=
  foldl_frame (P := fun t => t.tx = s.tx) (f := fun s b => raiseEv e b s) (fun _ _ ht => ht) l rfl

/-- The permit words of an evaluation, one for each port that has outputs (R271). -/
theorem evaluate_permits (h : Half) (clear : Nat → Bool) (s : State) : ∃ on : Nat → Bool,
    (twoGet (evaluate h clear s).tx h).permits =
      (boundPorts s.cfg).foldl (fun m p => tabPut m p (permitFor s h p (withholdsAll s h) on)) [] := by
  unfold evaluate
  extract_lets x t locals outs ws inh ds permitted cells conflicts bad missing y run y' tx ports tx' s1 s2 s3
  have assembled : s3.tx = twoPut s.tx h tx' := by
    refine (raiseEv_foldl_tx 35 missing s2).trans ?_
    simp only [s2]
    split <;> rfl
  refine ⟨cells.contains, ?_⟩
  split
  · rw [raiseEv_tx, assembled, twoGet_put]
    rfl
  · rw [assembled, twoGet_put]
    rfl

theorem permitWord_none (counter w : Nat) : permitWord (fun _ => false) counter w = 0 := by simp [permitWord]

/-- An inhibited permit word has every cell 0 (R272). -/
theorem permitFor_inhibited (s : State) (h : Half) (port : Nat) (on : Nat → Bool) :
    (permitFor s h port true on).inhibit = true ∧ ∀ v ∈ (permitFor s h port true on).words, v = 0 := by
  refine ⟨rfl, fun v hv => ?_⟩
  obtain ⟨w, -, rfl⟩ := List.mem_map.mp hv
  exact permitWord_none _ w

end

/-- Settles O20: claims by the conflict rule, drives and crossings by what withholds them, the words by the mode. -/
theorem permitsWithheld : Obligations.PermitsWithheld := by
  refine ⟨fun st ws x hx y hy hne px py hc p hp q hq e => ?_, fun t ws outs o p pos hk h => withheldFor_drive hk h,
    fun t ws outs o x hk h => withheldFor_crossing hk h, fun s h clear mode p w hw => ?_⟩
  · obtain ⟨dir, rel⟩ := claim_of_no_conflict hc hy hne.symm ((claims_of_passed px).symm ▸ hp) ((claims_of_passed py).symm ▸ hq) e.symm
    exact ⟨dir.symm, rel⟩
  · obtain ⟨on, permits⟩ := evaluate_permits h clear s
    rw [permits, tabFind_foldl_put, withholdsAll_iff.mpr mode] at hw
    split at hw
    · obtain rfl := Option.some.inj hw
      exact permitFor_inhibited s h p on
    · cases hw

end Sys2Proof.Proofs
end

section
/-! PROOFS. Cascade frames received, envelopes accepted on their connection, and what each kind of envelope does (R263, R474, R479, R485,
R496, R511, R514). -/

namespace Sys2Proof.Proofs

open Sys2Proof Sys2Proof.Machine Sys2Proof.Laws

/-! ## Connections -/

section
variable {s : State} {c d : ConnSt} {kind peer num : Nat}

theorem findConn_congr {t : State} (h : t.casc.conns = s.casc.conns) (kind peer num : Nat) :
    findConn t kind peer num = findConn s kind peer num := by
  unfold findConn
  rw [h]

theorem findConn_ident (h : findConn s kind peer num = some c) : (c.kind, c.peer, c.num) = (kind, peer, num) := by
  have found := List.find?_some h
  simp only [Bool.and_eq_true, decide_eq_true_eq] at found
  obtain ⟨⟨rfl, rfl⟩, rfl⟩ := found
  rfl

/-- A connection stored is found. -/
theorem findConn_putConn : findConn (putConn c s) c.kind c.peer c.num = some c := by
  unfold findConn putConn
  rw [List.find?_append, List.find?_eq_none.mpr]
  · simp
  · intro d hd
    simpa [or_assoc, imp_iff_not_or] using (List.mem_filter.mp hd).2

/-- A connection stored leaves every other as it is. -/
theorem findConn_putConn_other (h : (kind, peer, num) ≠ (c.kind, c.peer, c.num)) :
    findConn (putConn c s) kind peer num = findConn s kind peer num := by
  have apart : ∀ d : ConnSt, (d.kind = kind && d.peer = peer && d.num = num) = true →
      (d.kind = c.kind && d.peer = c.peer && d.num = c.num) = false := by
    intro d hd
    by_contra same
    simp only [Bool.and_eq_true, decide_eq_true_eq, Bool.not_eq_false] at hd same
    obtain ⟨⟨rfl, rfl⟩, rfl⟩ := hd
    obtain ⟨⟨e1, e2⟩, e3⟩ := same
    exact h (by rw [e1, e2, e3])
  have self : [c].find? (fun d => d.kind = kind && d.peer = peer && d.num = num) = none :=
    List.find?_eq_none.mpr fun d hd wanted => by
      obtain rfl := List.mem_singleton.mp hd
      simpa using apart d wanted
  unfold findConn putConn
  rw [List.find?_append, self, Option.or_none, List.find?_filter]
  congr 1
  funext d
  cases wanted : (decide (d.kind = kind) && decide (d.peer = peer) && decide (d.num = num)) with
  | false => simp
  | true => rw [apart d wanted]; rfl

/-- A connection as it was, or before its first envelope. -/
def heldConn (s : State) (k : Nat × Nat × Nat) : ConnSt := (findConn s k.1 k.2.1 k.2.2).getD (ConnSt.init k.1 k.2.1 k.2.2)

theorem heldConn_ident (s : State) (k : Nat × Nat × Nat) : ((heldConn s k).kind, (heldConn s k).peer, (heldConn s k).num) = k := by
  unfold heldConn
  cases h : findConn s k.1 k.2.1 k.2.2 with
  | none => rfl
  | some c => exact findConn_ident h

/-- An accepted envelope keeps its connection's identity and sets the last sequence (R479). -/
theorem afterEnvelope_ident (s : State) (c : ConnSt) (e : Envelope) (opened : Bool) :
    (afterEnvelope s c e opened).kind = c.kind ∧ (afterEnvelope s c e opened).peer = c.peer ∧
      (afterEnvelope s c e opened).num = c.num ∧ (afterEnvelope s c e opened).lastSeq = some e.seq := by
  unfold afterEnvelope
  extract_lets now c1 len renewed c2 c3
  have h3 : c3.kind = c.kind ∧ c3.peer = c.peer ∧ c3.num = c.num ∧ c3.lastSeq = some e.seq := by
    simp only [c3]
    split <;> exact ⟨rfl, rfl, rfl, rfl⟩
  clear_value c3
  split
  · exact h3
  · split <;> exact h3

end

/-! ## Envelopes taken -/

/-- A state after a copy on a cascade path was counted; path 0 is none. -/
def copyCounted (path : Nat) (s : State) : State := if path = 0 then s else countCopy path s

/-- Counting a copy changes the paths and reports. -/
theorem copyCounted_frame (path : Nat) (s : State) : told s (copyCounted path s) ∧
    copyCounted path s = { s with
      casc := { s.casc with paths := (copyCounted path s).casc.paths }, ev := (copyCounted path s).ev, dict := (copyCounted path s).dict } := by
  unfold copyCounted
  split
  · exact ⟨told_refl s, rfl⟩
  · unfold countCopy
    extract_lets was s1
    split
    · exact ⟨told_trans (told_of_eq rfl rfl) (told_raiseEv _ _ _), rfl⟩
    · exact ⟨told_of_eq rfl rfl, rfl⟩

theorem carriesStart_of_mayOpen {e : Envelope} (h : mayOpen e = true) : carriesStart e = true := by
  simp only [mayOpen, carriesStart, Bool.or_eq_true, Bool.and_eq_true] at h ⊢
  exact h.imp_left And.left

theorem takeEnvelope_unmatched {p : Nat} {e : Envelope} {s : State} (h : connMatch s e = none) :
    takeEnvelope p e s = (refuseEnv s, none) := by
  unfold takeEnvelope
  rw [h]

/-- An envelope accepted (R479): its connection matches, its payload is in order, it is newer or opens the connection afresh,
and the connection is stored with its sequence. -/
theorem takeEnvelope_accepted {s u : State} {p : Nat} {e : Envelope} {k : Nat × Nat × Nat} (h : takeEnvelope p e s = (u, some k)) :
    connMatch s e = some k ∧ payloadOk e = true ∧
      (∀ l, (heldConn s k).lastSeq = some l → newerSeq e.seq l = true ∨
        (carriesStart e = true ∧ (heldConn s k).startCount < field e.payload 0 4)) ∧
      ∃ c, (c.kind, c.peer, c.num) = k ∧ c.lastSeq = some e.seq ∧ u = putConn c (copyCounted p s) := by
  unfold takeEnvelope at h
  split at h
  · simp at h
  next k' match_ =>
  extract_lets s1 old count opened newer c at h
  split at h
  · simp at h
  next passed =>
  split at h
  · split at h <;> simp at h
  next fresh =>
  obtain ⟨rfl, hk⟩ := Prod.mk.inj h
  obtain rfl := Option.some.inj hk
  have conns : s1.casc.conns = s.casc.conns := by
    have frame := (copyCounted_frame p s).2
    show (copyCounted p s).casc.conns = s.casc.conns
    rw [frame]
  have held : old = heldConn s k' := by
    simp only [old, heldConn, findConn_congr conns]
  have ident : (c.kind, c.peer, c.num) = k' := by
    rw [← heldConn_ident s k', ← held]
    simp only [c]
    split <;> rfl
  obtain ⟨hk, hp, hn, seq⟩ := afterEnvelope_ident s1 c e opened
  refine ⟨match_, ?_, fun l hl => ?_, afterEnvelope s1 c e opened, ?_, seq, rfl⟩
  · by_contra bad
    exact passed (by simp [bad])
  · rw [← held] at hl ⊢
    have newer_eq : newer = newerSeq e.seq l := by simp only [newer, hl]
    have opened_iff : opened = true ↔ mayOpen e = true ∧ old.startCount < field e.payload 0 4 := by simp [opened, hl, count]
    rw [← newer_eq]
    cases hn : newer with
    | true => exact .inl rfl
    | false =>
      obtain ⟨opens, more⟩ := opened_iff.mp (by simpa [hn] using fresh)
      exact .inr ⟨carriesStart_of_mayOpen opens, more⟩
  · rw [hk, hp, hn, ident]

/-- An accepted envelope changes its connection, the paths, and reports. -/
theorem takeEnvelope_frame {s u : State} {p : Nat} {e : Envelope} {k : Nat × Nat × Nat} (h : takeEnvelope p e s = (u, some k)) :
    told s u ∧ u = { s with casc := { s.casc with conns := u.casc.conns, paths := u.casc.paths }, ev := u.ev, dict := u.dict } := by
  obtain ⟨-, -, -, c, -, -, hu⟩ := takeEnvelope_accepted h
  obtain ⟨told, frame⟩ := copyCounted_frame p s
  refine ⟨told_congr told rfl rfl (by rw [hu]; rfl) (by rw [hu]; rfl), ?_⟩
  rw [hu]
  unfold putConn
  rw [frame]

/-- What an accepted envelope leaves of the connections (R479). -/
theorem takeEnvelope_conns {s u : State} {p : Nat} {e : Envelope} {k : Nat × Nat × Nat} (h : takeEnvelope p e s = (u, some k)) :
    (∃ c, findConn u k.1 k.2.1 k.2.2 = some c ∧ c.lastSeq = some e.seq) ∧
      ∀ k', k' ≠ k → findConn u k'.1 k'.2.1 k'.2.2 = findConn s k'.1 k'.2.1 k'.2.2 := by
  obtain ⟨-, -, -, c, rfl, seq, rfl⟩ := takeEnvelope_accepted h
  have conns : (copyCounted p s).casc.conns = s.casc.conns := by rw [(copyCounted_frame p s).2]
  exact ⟨⟨c, findConn_putConn, seq⟩, fun k' hk => (findConn_putConn_other hk).trans (findConn_congr conns _ _ _)⟩

/-! ## Frames received -/

section
variable {kinds : List Nat} {f : CascFrame} {act : Nat × Nat × Nat → Envelope → State → State} {s u : State} {e : Envelope}
  {k : Nat × Nat × Nat}

theorem cascReceive_discard (h : dueOf s f 1 = .discard) : cascReceive kinds f act s = s := by
  unfold cascReceive
  rw [h]

theorem cascReceive_forward (h : dueOf s f 1 = .forward) : cascReceive kinds f act s = forwardFrame f s := by
  unfold cascReceive
  rw [h]

theorem cascReceive_unreadable (h : dueOf s f 1 = .mine) (hr : readEnvelope f.body = none) :
    cascReceive kinds f act s = refuseEnv s := by
  unfold cascReceive
  rw [h, hr]

theorem cascReceive_otherKind (h : dueOf s f 1 = .mine) (hr : readEnvelope f.body = some e) (hk : e.kind ∉ kinds) :
    cascReceive kinds f act s = s := by
  unfold cascReceive
  rw [h, hr]
  exact if_pos (by simpa using hk)

theorem cascReceive_accepted (h : dueOf s f 1 = .mine) (hr : readEnvelope f.body = some e)
    (ht : takeEnvelope f.path e s = (u, some k)) (hk : e.kind ∈ kinds) : cascReceive kinds f act s = act k e u := by
  unfold cascReceive
  rw [h, hr]
  dsimp only
  rw [if_neg (by simpa using hk), ht]

/-- A frame with hops left goes out on the other side when it is up (R485). -/
theorem forwardFrame_passes (hh : 2 ≤ f.hops) (up : (if otherSide f.side = 1 then s.casc.bl1 else s.casc.bl2) = true) :
    forwardFrame f s = { s with casc := { s.casc with forwarded := [(otherSide f.side, { f with hops := f.hops - 1 })] } } := by
  unfold forwardFrame
  rw [up]
  exact if_neg (by simp; omega)

/-- A frame without hops, or with the other side down, goes nowhere (R485). -/
theorem forwardFrame_ends (h : f.hops ≤ 1 ∨ (if otherSide f.side = 1 then s.casc.bl1 else s.casc.bl2) = false) :
    forwardFrame f s = s := by
  unfold forwardFrame
  refine if_pos ?_
  rcases h with hops | down
  · simp [hops]
  · simp [down]

/-- Each of the rows that take a cascade frame takes it by `cascReceive`. -/
theorem cascadeRow_receives {c : Instr} (hc : c ∈ [Instr.cascadeEnvelope f, .anchorMsg f, .reserveMsg f, .reserveReply f,
    .clearAhead f, .benchmarkEnvelope f]) : ∃ kinds act, ∀ s, exec c s = .next (cascReceive kinds f act s) := by
  simp only [List.mem_cons, List.not_mem_nil, or_false] at hc
  rcases hc with rfl | rfl | rfl | rfl | rfl | rfl <;> exact ⟨_, _, fun _ => rfl⟩

/-- What an accepted envelope of a kind does, in CASCADE_ENVELOPE (R479). -/
def envelopeEffect (k : Nat × Nat × Nat) (e : Envelope) (s : State) : State :=
  if e.kind = 0x95 then takeClear k.2.1 k.2.2 e s
  else if e.kind = 0x94 then takeAnchor k.2.1 e s
  else if e.kind = 0x93 then takeReply k.2.1 e s
  else if e.kind = 0x92 then takeReserve k.2.1 e s
  else if e.kind = 0x91 && k.2.1 = s.pair.partnerAddr then takeBenchmark e s
  else s

theorem execCascadeEnvelope_accepted (h : dueOf s f 1 = .mine) (hr : readEnvelope f.body = some e)
    (ht : takeEnvelope f.path e s = (u, some k)) (hk : e.kind ∈ [0x90, 0x91, 0x92, 0x93, 0x94, 0x95]) :
    exec (.cascadeEnvelope f) s = .next (envelopeEffect k e u) :=
  congrArg Host.Outcome.next (cascReceive_accepted h hr ht hk)

end

/-! ## Clear-ahead bits -/

theorem mem_takeClear {peer num i : Nat} {e : Envelope} {s : State} (hi : i < field e.payload 8 2) :
    ⟨field e.payload (12 + 4 * i) 2, peer, num, e.stamp, bit (field e.payload (12 + 4 * i + 2) 1) 0⟩ ∈
      (takeClear peer num e s).casc.clearIn := by
  refine List.mem_append_right _ (List.mem_map.mpr ⟨(_, _), List.mem_map.mpr ⟨i, List.mem_range.mpr hi, rfl⟩, rfl⟩)

theorem takeClear_keeps {peer num : Nat} {e : Envelope} {s : State} {x : ClearIn} (hx : x ∈ s.casc.clearIn)
    (h : x.peer ≠ peer ∨ x.num ≠ num) : x ∈ (takeClear peer num e s).casc.clearIn := by
  refine List.mem_append_left _ (List.mem_filter.mpr ⟨hx, ?_⟩)
  rcases h with h | h
  · simp [h]
  · simp [h]

/-! ## Requests of a neighbour -/

section
variable {q : Req} {s : State}

theorem enqueue_frame (q : Req) (s : State) : told s (enqueue q s) ∧
    enqueue q s = { s with queues := (enqueue q s).queues, dict := (enqueue q s).dict } := by
  unfold enqueue
  extract_lets l
  split
  · exact ⟨told_trans (told_of_eq rfl rfl) (told_noteDepth _ _ _ _), rfl⟩
  · exact ⟨told_noteDepth _ _ _ _, rfl⟩

/-- A queue with room takes the request (R90). -/
theorem enqueue_room (h : (tabGet s.queues q.port []).length < 64) :
    tabGet (enqueue q s).queues q.port [] = tabGet s.queues q.port [] ++ [q] := by
  unfold enqueue
  rw [if_pos (show _ < queueCap from h), noteDepth_queues, tabGet_put]

/-- A full queue refuses the request (R90). -/
theorem enqueue_full (h : 64 ≤ (tabGet s.queues q.port []).length) : (enqueue q s).queues = s.queues := by
  unfold enqueue
  rw [if_neg (show ¬ _ < queueCap from Nat.not_lt.mpr h), noteDepth_queues]

theorem enqueue_other {p : Nat} (h : p ≠ q.port) : tabGet (enqueue q s).queues p [] = tabGet s.queues p [] := by
  unfold enqueue
  extract_lets l
  split
  · rw [noteDepth_queues, tabGet_put_other _ _ _ h]
  · rw [noteDepth_queues]

end

/-- The request that a RESERVE puts on requester port 1 (R511). -/
def reserveReq (peer : Nat) (e : Envelope) (s : State) : Req :=
  { cls := if field e.payload 2 1 = 1 then 2 else 1, hold := false, opt := 0, all := false, resv := false
    target := if field e.payload 2 1 = 3 then 0xFFFF else field e.payload 0 2, tag := peer * 2 ^ 20 + field e.payload 4 2
    stamp := (ingressStamp 1 s).1, port := 1, level := .operator, epoch := e.epoch, session := 0xFFFF }

theorem takeReserve_eq (peer : Nat) (e : Envelope) (s : State) :
    takeReserve peer e s = enqueue (reserveReq peer e s) (ingressStamp 1 s).2 := rfl

theorem takeReserve_frame (peer : Nat) (e : Envelope) (s : State) : told s (takeReserve peer e s) ∧
    takeReserve peer e s = { s with
      queues := (takeReserve peer e s).queues, time := { s.time with ingress := (takeReserve peer e s).time.ingress },
      dict := (takeReserve peer e s).dict } := by
  obtain ⟨told, frame⟩ := enqueue_frame (reserveReq peer e s) (ingressStamp 1 s).2
  rw [takeReserve_eq]
  refine ⟨told_congr told rfl rfl rfl rfl, ?_⟩
  rw [frame]
  rfl

/-! ## Replies to reservations -/

/-- A RESERVE-REPLY of the current epoch waits for the next image (R514). -/
theorem takeReply_current {peer : Nat} {e : Envelope} {s : State} (h : field e.payload 6 2 = s.pair.epoch) :
    takeReply peer e s = { s with casc := { s.casc with
      replies := s.casc.replies ++ [(field e.payload 4 2, decide (field e.payload 2 1 = 1))] } } := if_neg (not_not.mpr h)

/-- A RESERVE-REPLY of another epoch is discarded with event 63 (R508). -/
theorem takeReply_stale {peer : Nat} {e : Envelope} {s : State} (h : field e.payload 6 2 ≠ s.pair.epoch) :
    (takeReply peer e s).raised 63 ∧ reported s (takeReply peer e s) := by
  unfold takeReply
  rw [if_pos h]
  exact ⟨raised_raiseRec (by decide), reported_raiseRec _ _ _ _ _ _ _⟩

/-! ## Anchors and benchmarks of the partner -/

/-- An ANCHOR of the partner says whom it names and whether it is preferred (R486). -/
theorem takeAnchor_partner {peer : Nat} {e : Envelope} {s : State} (h : peer = s.pair.partnerAddr) :
    (takeAnchor peer e s).pair.partner = { s.pair.partner with
        namesUs := decide (field e.payload 10 2 = s.dict.modAddr), pref := decide (field e.payload 12 1 = 1) } ∧
      (takeAnchor peer e s).pair.epoch = s.pair.epoch ∧ told s (takeAnchor peer e s) ∧
      takeAnchor peer e s = { s with
        pair := (takeAnchor peer e s).pair, ev := (takeAnchor peer e s).ev, dict := (takeAnchor peer e s).dict } := by
  unfold takeAnchor
  rw [if_neg (not_not.mpr h)]
  obtain ⟨told, frame, partner, epoch⟩ := pairSettled_settlePair (modPairLink (fun p => { p with partner := { p.partner with
    namesUs := field e.payload 10 2 = s.dict.modAddr, pref := field e.payload 12 1 = 1 } }) s)
  exact ⟨partner, epoch, told_congr told rfl rfl rfl rfl, frame⟩

theorem noteReady_nr4 (s : State) : (noteReady s).pair.nr4 = s.pair.nr4 := by
  unfold noteReady
  split <;> rfl

theorem ownBenchmark_congr {s t : State} (hh : t.halves = s.halves) (hl : t.lanes = s.lanes) (img : Nat) :
    ownBenchmark t img = ownBenchmark s img := by
  unfold ownBenchmark lanesAt inVoteAt
  rw [hh, hl]

section
variable {e : Envelope} {s : State} {d : List Byte}

theorem takeBenchmark_own (h : ownBenchmark s (field e.payload 0 4) = some d) : takeBenchmark e s =
    if s.pair.role = .standby && !s.pair.resync && d ≠ e.payload.drop 4 then
      noteReady (modPairLink (fun p => { p with nr4 := true }) s) else s := by
  unfold takeBenchmark
  dsimp only
  rw [h]

/-- A BENCHMARK that differs from the own of its image makes a standby not ready (R496). -/
theorem takeBenchmark_differs (h : ownBenchmark s (field e.payload 0 4) = some d) (role : s.pair.role = .standby)
    (idle : s.pair.resync = false) (hd : d ≠ e.payload.drop 4) :
    (takeBenchmark e s).pair.nr4 = true ∧ told s (takeBenchmark e s) ∧ takeBenchmark e s = { s with
      pair := (takeBenchmark e s).pair, ev := (takeBenchmark e s).ev, dict := (takeBenchmark e s).dict } := by
  rw [takeBenchmark_own h, if_pos (by simp [role, idle, hd])]
  obtain ⟨told, frame, -, -⟩ := pairSettled_noteReady (modPairLink (fun p => { p with nr4 := true }) s)
  exact ⟨noteReady_nr4 _, told_congr told rfl rfl rfl rfl, frame⟩

theorem takeBenchmark_equal (h : ownBenchmark s (field e.payload 0 4) = some d) (hd : d = e.payload.drop 4) :
    takeBenchmark e s = s :=
  (takeBenchmark_own h).trans (if_neg (by simp [hd]))

end

/-! ## The rows -/

section
variable {s u : State} {f : CascFrame} {e : Envelope} {k : Nat × Nat × Nat} {own : Instr} {kind : Nat}
  {act : Nat × Nat × Nat → Envelope → State → State}

/-- A row of one kind leaves an envelope of another kind alone. -/
theorem row_otherKind (due : dueOf s f 1 = .mine) (read : readEnvelope f.body = some e) (hk : e.kind ≠ kind)
    (ho : exec own s = .next (cascReceive [kind] f act s)) : exec own s = .next s := by
  rw [ho, cascReceive_otherKind due read (by simpa using hk)]

variable (due : dueOf s f 1 = .mine) (read : readEnvelope f.body = some e) (taken : takeEnvelope f.path e s = (u, some k))
include due read taken

/-- An accepted envelope has the effect of its kind in the row of its kind and in CASCADE_ENVELOPE alike. -/
theorem row_accepted (hk : e.kind = kind) (hm : kind ∈ [0x90, 0x91, 0x92, 0x93, 0x94, 0x95])
    (ho : exec own s = .next (cascReceive [kind] f act s)) (ha : envelopeEffect k e u = act k e u) :
    exec own s = .next (act k e u) ∧ exec (.cascadeEnvelope f) s = .next (act k e u) := by
  refine ⟨?_, ?_⟩
  · rw [ho, cascReceive_accepted due read taken (by simp [hk])]
  · rw [execCascadeEnvelope_accepted due read taken (hk ▸ hm), ha]

theorem clearAhead_accepted (hk : e.kind = 0x95) : exec (.clearAhead f) s = .next (takeClear k.2.1 k.2.2 e u) ∧
    exec (.cascadeEnvelope f) s = .next (takeClear k.2.1 k.2.2 e u) :=
  row_accepted (act := fun k e s => takeClear k.2.1 k.2.2 e s) due read taken hk (by decide) rfl (by simp [envelopeEffect, hk])

theorem reserveMsg_accepted (hk : e.kind = 0x92) : exec (.reserveMsg f) s = .next (takeReserve k.2.1 e u) ∧
    exec (.cascadeEnvelope f) s = .next (takeReserve k.2.1 e u) :=
  row_accepted (act := fun k e s => takeReserve k.2.1 e s) due read taken hk (by decide) rfl (by simp [envelopeEffect, hk])

theorem reserveReply_accepted (hk : e.kind = 0x93) : exec (.reserveReply f) s = .next (takeReply k.2.1 e u) ∧
    exec (.cascadeEnvelope f) s = .next (takeReply k.2.1 e u) :=
  row_accepted (act := fun k e s => takeReply k.2.1 e s) due read taken hk (by decide) rfl (by simp [envelopeEffect, hk])

theorem anchorMsg_accepted (hk : e.kind = 0x94) : exec (.anchorMsg f) s = .next (takeAnchor k.2.1 e u) ∧
    exec (.cascadeEnvelope f) s = .next (takeAnchor k.2.1 e u) :=
  row_accepted (act := fun k e s => takeAnchor k.2.1 e s) due read taken hk (by decide) rfl (by simp [envelopeEffect, hk])

theorem benchmarkEnvelope_accepted (hk : e.kind = 0x91) (partner : k.2.1 = u.pair.partnerAddr) :
    exec (.benchmarkEnvelope f) s = .next (takeBenchmark e u) ∧ exec (.cascadeEnvelope f) s = .next (takeBenchmark e u) := by
  have rows := row_accepted (own := .benchmarkEnvelope f) (act := fun k e s => if k.2.1 = s.pair.partnerAddr then takeBenchmark e s else s)
    due read taken hk (by decide) rfl (by simp [envelopeEffect, hk])
  rwa [if_pos partner] at rows

end

/-- Settles O37: the frames by where they are due, the envelopes by what accepting one can do, then kind by kind. -/
theorem cascadeEnvelopes : Obligations.CascadeEnvelopes := by
  refine ⟨fun s f c hc => ?_, fun s f e due read => ⟨fun hk => row_otherKind due read hk rfl, fun hk => row_otherKind due read hk rfl,
    fun hk => row_otherKind due read hk rfl, fun hk => row_otherKind due read hk rfl, fun hk => row_otherKind due read hk rfl⟩,
    fun s p e h => takeEnvelope_unmatched h, fun s u p e k taken => ?_, fun s u f e k due read taken => ?_⟩
  · obtain ⟨kinds, act, row⟩ := cascadeRow_receives hc
    simp only [row]
    refine ⟨fun h => ?_, fun h hops up => ?_, fun h ends => ?_, fun h unread => ?_⟩
    · rw [cascReceive_discard h]
    · rw [cascReceive_forward h, forwardFrame_passes hops up]
    · rw [cascReceive_forward h, forwardFrame_ends ends]
    · rw [cascReceive_unreadable h unread]
      rfl
  · obtain ⟨matched, payload, newer, -⟩ := takeEnvelope_accepted taken
    obtain ⟨⟨c, found, seq⟩, others⟩ := takeEnvelope_conns taken
    obtain ⟨told, frame⟩ := takeEnvelope_frame taken
    refine ⟨matched, payload, ⟨c, found, seq, fun d hd l hl => ?_⟩, others, by rw [frame], told, frame⟩
    have held : heldConn s k = d := by rw [heldConn, hd]; rfl
    rw [held] at newer
    exact newer l hl
  · obtain ⟨told, frame⟩ := takeEnvelope_frame taken
    have pair : u.pair = s.pair := by rw [frame]
    refine ⟨fun hk => ?_, fun hk => ?_, fun hk epoch => ?_, fun hk epoch => ?_, fun hk other => ?_, fun hk partner => ?_,
      fun hk d partner own role idle => ?_⟩
    · obtain ⟨row, all⟩ := clearAhead_accepted due read taken hk
      exact ⟨_, row, all, fun i hi => mem_takeClear hi, fun x hx h => takeClear_keeps hx h, rfl⟩
    · obtain ⟨row, all⟩ := reserveMsg_accepted due read taken hk
      obtain ⟨told', frame'⟩ := takeReserve_frame k.2.1 e u
      exact ⟨_, reserveReq k.2.1 e u, row, all, rfl, rfl, rfl, rfl, rfl, rfl, fun room => enqueue_room (q := reserveReq k.2.1 e u) room,
        fun full => enqueue_full (q := reserveReq k.2.1 e u) full, fun p hp => enqueue_other (q := reserveReq k.2.1 e u) hp, told', frame'⟩
    · obtain ⟨row, all⟩ := reserveReply_accepted due read taken hk
      exact ⟨_, row, all, takeReply_current (by rw [pair, epoch])⟩
    · obtain ⟨row, all⟩ := reserveReply_accepted due read taken hk
      exact ⟨_, row, all, takeReply_stale (by rwa [pair])⟩
    · have unchanged : takeAnchor k.2.1 e u = u := if_pos (by rwa [pair])
      have rows := anchorMsg_accepted due read taken hk
      rwa [unchanged] at rows
    · obtain ⟨row, all⟩ := anchorMsg_accepted due read taken hk
      obtain ⟨said, epoch, told', frame'⟩ := takeAnchor_partner (e := e) (partner.trans (congrArg PairLinkSt.partnerAddr pair.symm))
      rw [told_dict_modAddr told] at said
      exact ⟨_, row, all, said, epoch, told', frame'⟩
    · obtain ⟨row, all⟩ := benchmarkEnvelope_accepted due read taken hk (by rw [pair, partner])
      have own' : ownBenchmark u (field e.payload 0 4) = some d :=
        (ownBenchmark_congr (by rw [frame]) (by rw [frame]) _).trans own
      exact ⟨_, row, all, takeBenchmark_differs own' (by rwa [pair]) (by rwa [pair]), takeBenchmark_equal own'⟩

end Sys2Proof.Proofs
end

section
/-! PROOFS. Commands of the application program: what a session's program function does in the lanes, arm and abort, stop and start, a
program that faults, a timer that expires (R295, R299, R301, R305, R306, R308, R310, R499). -/

namespace Sys2Proof.Proofs

open Sys2Proof Sys2Proof.Machine Sys2Proof.Laws

/-! ## A function of the lanes asked for by a session -/

section
variable {s : State} {n : Nat} {min : Level} {toStandby : Bool} {f : KEnv → KRun → KRun} {out : Kernel → Nat}

theorem laneRefusal_toStandby (hr : imagesRun s = true) : laneRefusal s true = rOk := by simp [laneRefusal, hr]

theorem laneRefusal_active (hp : s.pair.role ≠ .standby) (hr : imagesRun s = true) : laneRefusal s false = rOk := by
  simp [laneRefusal, hp, hr]

/-- A function that reaches the lanes has its effect in the image under way and answers its outcome (R546, R548). -/
theorem exists_laneSession {c : Instr} (ha : s.allows n min false) (hl : laneRefusal s toStandby = rOk) (hv : imageVoted s = false)
    (hc : exec c s = .next (asLaneSession n min toStandby f out s)) :
    ∃ t u, exec c s = .next t ∧ kernelRow f s u ∧ t = withResult (functionReply (out (leadKernel u)) []) u := by
  refine ⟨_, laneRow f s, hc, kernelRow_laneRow f s hv, ?_⟩
  simp only [asLaneSession, sessRefusal_allowed ha, hl, ne_eq, not_true, if_false]

theorem exists_progCommand {c : Instr} (cmd : Nat) (ha : s.allows n .maintainer false) (hl : laneRefusal s (cmd ≤ 2) = rOk)
    (hv : imageVoted s = false) (hc : exec c s = .next (progCommand n cmd s)) :
    ∃ t u, exec c s = .next t ∧ kernelRow (fun _ x => progObj cmd (armRefusal s) s.progLoad.switchLead x) s u ∧
      t = withResult (functionReply (progRefusal cmd (leadKernel u).prog.outcome) []) u :=
  exists_laneSession (out := fun k => progRefusal cmd k.prog.outcome) ha hl hv hc

/-- A standby answers STANDBY (R499). -/
theorem asLaneSession_standby (ha : s.allows n min false) (hp : s.pair.role = .standby) :
    asLaneSession n min false f out s = withResult (rStandby, []) s := by
  have refused : laneRefusal s false = rStandby := by simp [laneRefusal, hp]
  rw [asLaneSession, sessRefusal_allowed ha, refused]
  exact if_neg (by decide)

end

/-! ## What bars an arm -/

section
variable {s : State}

/-- A bound fits the largest partition bound of a program when it fits each of them. -/
theorem largestBound_le {p : Program} {m : Nat} : largestBound p ≤ m ↔ ∀ b ∈ p.bounds, b ≤ m := by
  have fold : ∀ (l : List Nat) (a : Nat), l.foldl max a ≤ m ↔ a ≤ m ∧ ∀ b ∈ l, b ≤ m := by
    intro l
    induction l with
    | nil => simp
    | cons b l ih => simp [ih, and_assoc]
  simp [largestBound, fold]

theorem armRefusal_mode (hm : 1 < modeOf s) : armRefusal s = 0x5106 := by
  have modes : (modeOf s ≠ 0 && modeOf s ≠ 1 : Bool) = true := by simp; omega
  simp only [armRefusal, modes, if_true]

section
variable (hm : modeOf s ≤ 1)
include hm

theorem modeOf_run_or_quiet : (modeOf s ≠ 0 && modeOf s ≠ 1 : Bool) = false := by simp; omega

theorem armRefusal_busy (hb : rejoinUnderWay s = true ∨ s.vote.pendLane.isSome = true ∨ loadChecking s = true ∨ s.upd.upd = true) :
    armRefusal s = 0x500E := by
  have busy : (rejoinUnderWay s || s.vote.pendLane.isSome || loadChecking s || s.upd.upd) = true := by
    simpa only [Bool.or_eq_true, or_assoc] using hb
  simp only [armRefusal, modeOf_run_or_quiet hm, busy, Bool.false_eq_true, if_false, if_true]

section
variable (hr : rejoinUnderWay s = false) (hw : s.vote.pendLane = none) (hl : loadChecking s = false) (hu : s.upd.upd = false)
include hr hw hl hu

theorem armRefusal_noProgram (hp : validProgram s = none) : armRefusal s = 0x5102 := by
  simp only [armRefusal, modeOf_run_or_quiet hm, hr, hw, hl, hu, hp, Option.isSome_none, Bool.or_self, Bool.false_eq_true, if_false]

theorem armRefusal_program {p : Program} (hp : validProgram s = some p) :
    armRefusal s = if allotment s < largestBound p + 400 then 0x500C else 0 := by
  simp only [armRefusal, modeOf_run_or_quiet hm, hr, hw, hl, hu, hp, Option.isSome_none, Bool.or_self, Bool.false_eq_true, if_false]

end

end

end

/-! ## The program's state -/

section
variable {x : KRun} {p : Program}

theorem progRuns_unarmed {q : ProgSt} (h : q.ps ≠ .armed) : progRuns q = q.ps := if_neg h

theorem progRuns_running {q : ProgSt} (h : q.ps = .running) : progRuns q = .running := by
  rw [progRuns_unarmed (by rw [h]; decide), h]

theorem progObj_arm_armed (aux lead : Nat) (h : x.k.prog.ps = .armed) :
    progObj 1 aux lead x = onProg (fun q => { q with outcome := 0x500E }) x := if_pos h

section
variable (h : x.k.prog.ps ≠ .armed)
include h

theorem progObj_arm_refused {aux : Nat} (lead : Nat) (ha : aux ≠ 0) :
    progObj 1 aux lead x = onProg (fun q => { q with outcome := aux }) x := (if_neg h).trans (if_pos ha)

theorem progObj_arm_arms (lead : Nat) : progObj 1 0 lead x = progArmed lead x := (if_neg h).trans (if_neg (not_not.mpr rfl))

end

/-- A running program under no armed change is stopped with the fault substitution (R299, R301). -/
theorem progStop_running (hp : x.k.prog.prog = some p) (hr : x.k.prog.ps = .running) :
    progStop x = kEv 81 3 (onProg (fun q => { q with ps := .stopped, out := substitution x.k p, outcome := 0 }) x) := by
  simp only [progStop, hp, progRuns_running hr, if_true]
  simp only [onProg, onK, hr, reduceCtorEq, if_false]

/-- A start of a program that stands: one that does not fit stays and says why, any other runs again (R301). -/
theorem progStart_standing (hs : x.k.prog.ps = .stopped ∨ x.k.prog.ps = .faulted) :
    progStart x = if unfit x.k.prog then onProg (fun q => { q with outcome := q.lastFault }) x
      else kEv 81 1 (onProg (fun q => { q with ps := .running, faultRun := 0, outcome := 0 }) x) := by
  have unarmed : x.k.prog.ps ≠ .armed := by rcases hs with h | h <;> rw [h] <;> decide
  have stands : (progRuns x.k.prog = .stopped || progRuns x.k.prog = .faulted : Bool) = true := by
    simpa [progRuns_unarmed unarmed] using hs
  simp only [progStart, stands, if_true]
  simp only [onProg, onK, unarmed, if_false]

/-- As many faulted steps in a row as the setting make the program faulted (R301). -/
theorem progFaulted_faults {e : KEnv} (hp : x.k.prog.prog = some p) (hr : x.k.prog.ps = .running)
    (hf : e.faultStop ≤ x.k.prog.faultRun) :
    progFaulted e x = kEv 81 4 (onProg (fun q => { q with ps := .faulted, out := substitution x.k p }) x) := by
  simp only [progFaulted, hp, progRuns_running hr, hf, decide_true, Bool.and_self, if_true]
  simp only [onProg, onK, hr, reduceCtorEq, if_false]

theorem progFaulted_goesOn {e : KEnv} (hp : x.k.prog.prog = some p) (hf : x.k.prog.faultRun < e.faultStop) : progFaulted e x = x := by
  simp only [progFaulted, hp, Nat.not_le.mpr hf, decide_false, Bool.and_false, Bool.false_eq_true, if_false]

end

/-! ## Timers -/

section
variable {e : KEnv} {x : KRun} {p : Program} {b : VlBlock}

@[simp] theorem arm_prog (v : SEvent) : (arm e v x).k.prog = x.k.prog := by
  unfold arm
  dsimp only
  split_ifs <;> rfl

theorem armApp_prog (l : List SEvent) : (armApp e l x).k.prog = x.k.prog := by
  unfold armApp
  refine foldl_proj (p := fun y : KRun => y.k.prog) (fun y v => ?_) l x
  rw [arm_prog]
  rfl

/-- An application step leaves the timers alone once they have been stepped (R294). -/
theorem runInstances_blocks (vs : List VarSt) : (runInstances e p vs x).k.prog.blocks = x.k.prog.blocks := by
  unfold runInstances
  dsimp only
  split
  · rw [armApp_prog]
    rfl
  · rfl

section
variable (hp : x.k.prog.prog = some p) (hb : x.k.prog.blocks.find? (fun c => c.ref = b.ref) = some b)
include hp hb

theorem timerExpiry_early (h : b.running = false ∨ b.elapsed < b.preset) : timerExpiry e b.ref x = x := by
  have waits : (b.running && decide (b.preset ≤ b.elapsed)) = false := by
    rcases h with h | h
    · rw [h, Bool.false_and]
    · rw [decide_eq_false (Nat.not_le.mpr h), Bool.and_false]
  simp only [timerExpiry, hp, hb, waits, Bool.false_and, Bool.not_false, if_true]

/-- A timer of the running program that has run its time: an on-delay is set, an off-delay and a pulse are reset (R308). -/
theorem timerExpiry_blocks (hr : x.k.prog.ps = .running) (hb' : b.running = true) (ht : b.preset ≤ b.elapsed)
    (hf : x.k.prog.faultRun = 0) (hk : b.kind = .ton ∨ b.kind = .tof ∨ b.kind = .tp) :
    (timerExpiry e b.ref x).k.prog.blocks =
      x.k.prog.blocks.map (fun c => if c.ref = b.ref then { b with out := decide (b.kind = .ton), running := false } else c) := by
  simp only [timerExpiry, hp, hb, hb', ht, progRuns_running hr, hf, decide_true, Bool.and_self, Bool.not_true, Bool.false_eq_true, if_false]
  rcases hk with hk | hk | hk
  all_goals
    simp only [hk, runInstances_blocks]
    rfl

end

end

/-! ## The rows -/

/-- Settles O29: arm, abort, stop and start act in the lanes and answer their outcome, an arm by what the commons find; a running program
that is stopped or faulted gets the fault substitution, and a timer that has run its time changes its output. -/
theorem programCommands : Obligations.ProgramCommands := by
  refine ⟨fun s n ha hr hv => ⟨exists_progCommand 1 ha (laneRefusal_toStandby hr) hv rfl,
      exists_progCommand 2 ha (laneRefusal_toStandby hr) hv rfl,
      fun hp => ⟨exists_progCommand 3 ha (laneRefusal_active hp hr) hv rfl, exists_progCommand 4 ha (laneRefusal_active hp hr) hv rfl⟩,
      fun hp => ⟨congrArg Host.Outcome.next (asLaneSession_standby ha hp), congrArg Host.Outcome.next (asLaneSession_standby ha hp)⟩⟩,
    fun s hv => ⟨exists_kernelRow hv rfl, fun ref => exists_kernelRow hv rfl⟩,
    fun s => ⟨armRefusal_mode, armRefusal_busy, fun hm hr hw hl hu => ⟨armRefusal_noProgram hm hr hw hl hu, fun p hp => ?_⟩⟩,
    fun x aux lead => ⟨progObj_arm_armed aux lead, fun h ha => progObj_arm_refused h lead ha,
      fun h ha => ha ▸ progObj_arm_arms h lead, fun h => if_pos h, fun h => if_neg h⟩,
    fun x p hp hr => ⟨progStop_running hp hr, rfl, rfl, fun n hn => List.mem_map.mpr ⟨n, hn, rfl⟩, rfl⟩,
    fun x hs => ⟨fun hu => ?_, fun hu => ?_⟩, fun e x p hp hr => ⟨progFaulted_faults hp hr, progFaulted_goesOn hp⟩,
    fun e x p b hp hb hr => ⟨timerExpiry_blocks hp hb hr, timerExpiry_early hp hb⟩⟩
  · rw [armRefusal_program hm hr hw hl hu hp]
    refine ⟨fun fits room => if_neg ?_, fun b hb tooLong => if_pos ?_⟩
    · have largest : largestBound p ≤ allotment s - 400 := largestBound_le.mpr fun b hb => Nat.le_sub_of_add_le (fits b hb)
      omega
    · have largest : b ≤ largestBound p := largestBound_le.mp le_rfl b hb
      omega
  · rw [progStart_standing hs, hu]
    rfl
  · rw [progStart_standing hs, hu]
    rfl

end Sys2Proof.Proofs
end

section
/-! PROOFS. Online change, variables and forces: what the switch makes of the program state and of the module, host writes, forces set
and removed (R307, R313 to R315, R317 to R319, R321). -/

namespace Sys2Proof.Proofs

open Sys2Proof Sys2Proof.Machine Sys2Proof.Laws

/-! ## The program state after an online change -/

section
variable {new old : Program} {x : KRun} {f : Force} {vs : List VarSt}

/-- A force is kept where its variable exists, is not vital and has its type (R321). -/
theorem forceFate_eq_none : forceFate new vs f = none ↔
    ∃ v, varOf new.vars f.ref = some v ∧ v.vital = false ∧ ∀ w, varOf vs f.ref = some w → w.type = v.type := by
  unfold forceFate
  cases hv : varOf new.vars f.ref with
  | none => simp
  | some v =>
    cases hs : v.vital with
    | true => simp [hs]
    | false => cases varOf vs f.ref <;> simp [hs]

/-- The records and events of an online change leave the kernel as the new program state makes it (R307). -/
theorem switchProgram_k (new : Program) (x : KRun) : ∃ q : ProgSt, (switchProgram new x).k = { x.k with prog := q } ∧
    q.prog = some new ∧ q.ps = .running ∧ q.origin = 2 ∧
    (∀ old, x.k.prog.prog = some old → q.vars = new.vars.map (carryVar old new x.k.prog.vars)) ∧
    q.forces = x.k.prog.forces.filter (fun f => (forceFate new x.k.prog.vars f).isNone) := by
  unfold switchProgram
  dsimp only
  rw [kEv_k, foldl_proj (p := KRun.k) (fun y a => ?fate), foldl_proj (p := KRun.k) (fun y b => ?record)]
  case fate => split <;> rfl
  case record => rfl
  refine ⟨_, rfl, rfl, rfl, rfl, fun old h => ?_, ?_⟩
  · dsimp only
    rw [h]
  · simp [List.filter_map, Function.comp_def]

theorem switchProgram_reserves (new : Program) (x : KRun) : (switchProgram new x).reserves = x.reserves := by
  unfold switchProgram
  dsimp only
  rw [kEv_reserves, foldl_proj (p := KRun.reserves) (fun y a => ?fate), foldl_proj (p := KRun.reserves) (fun y b => ?record)]
  case fate => split <;> rfl
  case record => rfl
  rfl

/-- A force stays through an online change exactly when its variable lets it (R321). -/
theorem mem_forces_switchProgram (hf : f ∈ x.k.prog.forces) : f ∈ (switchProgram new x).k.prog.forces ↔
    ∃ v, varOf new.vars f.ref = some v ∧ v.vital = false ∧ ∀ w, varOf x.k.prog.vars f.ref = some w → w.type = v.type := by
  obtain ⟨q, hk, -, -, -, -, forces⟩ := switchProgram_k new x
  rw [hk, ← forceFate_eq_none, forces, List.mem_filter, Option.isNone_iff_eq_none]
  exact and_iff_right hf

/-- A variable whose block keeps its type keeps its value with the block's version or its own type (Table 8.4). -/
theorem carryVar_sameBlockType {v w : VarSt} {i j : InstRec} (hi : instOf old v.ref.inst = some i) (hj : instOf new v.ref.inst = some j)
    (ht : i.type = j.type) (hw : varOf vs v.ref = some w) :
    carryVar old new vs v = if i.ver = j.ver ∨ w.type = v.type then { v with value := w.value } else { v with value := v.dflt } := by
  simp [carryVar, hi, hj, ht, hw]

end

/-! ## The switch in the module -/

section
variable {p : Program} {h : Half} {s : State}

/-- The lanes and the slots as an online change leaves them (R307). -/
def switched (p : Program) (h : Half) (s : State) : State :=
  { s with
    lanes := triMap s.lanes (fun _ v => { v with kernel := switchIn p v.kernel }),
    progLoad := { s.progLoad with
      slots := twoMod (twoMod s.progLoad.slots h (fun x => { x with st := .active })) (otherHalf h)
        (fun x => { x with st := if x.parsed.isSome then .valid else .empty }),
      active := some h } }

/-- After the lanes and the slots, a switch only reports, event 82 among it. -/
theorem switchNow_spec (p : Program) (h : Half) (s : State) :
    reported (switched p h s) (switchNow p h s) ∧ (switchNow p h s).raised 82 := by
  refine ⟨foldl_frame (fun _ _ told => reported_trans told (reported_bookPut _ _)) _
    (foldl_frame (fun _ _ told => reported_trans told (reported_raiseAt _ _ _ _)) _ (reported_refl _)), ?_⟩
  refine foldl_frame (P := (State.raised · 82)) (fun _ _ pends => raised_bookPut pends) _ ?_
  unfold switchProgram
  dsimp only
  rw [kEv_evs, List.foldl_append]
  exact raised_raiseAt (by decide)

@[simp] theorem switched_slot (p : Program) (h : Half) (s : State) : (twoGet (switched p h s).progLoad.slots h).st = .active :=
  congrArg ProgSlot.st ((twoGet_mod_other _ _ (otherHalf_ne h).symm).trans (twoGet_mod _ _ _))

@[simp] theorem switched_otherSlot (p : Program) (h : Half) (s : State) : (twoGet (switched p h s).progLoad.slots (otherHalf h)).st =
    if (twoGet s.progLoad.slots (otherHalf h)).parsed.isSome then .valid else .empty := by
  simp only [switched, twoGet_mod, twoGet_mod_other _ _ (otherHalf_ne h)]

@[simp] theorem switched_kernel (p : Program) (h : Half) (s : State) (l : Lane) :
    (triGet (switched p h s).lanes l).kernel = switchIn p (triGet s.lanes l).kernel := by
  simp only [switched, triGet_map]

/-- Every lane runs the new program, taken over by an online change (R307). -/
theorem switchIn_runs (p : Program) (k : Kernel) :
    (switchIn p k).prog.prog = some p ∧ (switchIn p k).prog.ps = .running ∧ (switchIn p k).prog.origin = 2 := by
  obtain ⟨q, hk, prog, ps, origin, -⟩ := switchProgram_k p ⟨k, [], [], []⟩
  rw [switchIn, hk]
  exact ⟨prog, ps, origin⟩

theorem onlineSwitch_switches (hp : validProgram s = some p) (hh : validProgSlot s = some h) (ha : (leadKernel s).prog.ps = .armed)
    (hi : imgReached (imgAdd s.imageNo 1) (leadKernel s).prog.switchImg = true) (hl : 2 ≤ (lanesInVote s).length) :
    onlineSwitch s = switchNow p h s := by
  simp only [onlineSwitch, hp, hh, ha, hi, hl, decide_true, Bool.and_self, if_true]

theorem onlineSwitch_waits (hw : validProgram s = none ∨ (leadKernel s).prog.ps ≠ .armed ∨ (lanesInVote s).length < 2) :
    onlineSwitch s = s := by
  unfold onlineSwitch
  split
  · rename_i p h hp hh
    refine if_neg fun now => ?_
    simp only [Bool.and_eq_true, decide_eq_true_eq] at now
    obtain ⟨⟨armed, -⟩, two⟩ := now
    rcases hw with none_ | unarmed | few
    · rw [none_] at hp
      exact absurd hp nofun
    · exact unarmed armed
    · omega
  · rfl

end

/-! ## Variables -/

section
variable {r : VarRef} {val : List Byte} {x : KRun} {v : VarSt}

theorem forceAll_refs (fs : List Force) (vs : List VarSt) : (forceAll fs vs).map (·.ref) = vs.map (·.ref) := by
  simp only [forceAll, List.map_map, List.map_inj_left, Function.comp]
  intro v _
  split <;> rfl

/-- A forced variable holds its forced value, any other its own (R319). -/
theorem value_of_mem_forceAll {fs : List Force} {vs : List VarSt} {w : VarSt} (h : w ∈ forceAll fs vs) :
    ∃ v ∈ vs, w.ref = v.ref ∧ w.value = ((fs.find? (fun f => f.ref = w.ref)).map (·.value)).getD v.value := by
  obtain ⟨v, hv, rfl⟩ := List.mem_map.mp h
  refine ⟨v, hv, ?_⟩
  cases hf : fs.find? (fun f => f.ref = v.ref) <;> simp [hf]

theorem varWrite_unknown (hv : varOf x.k.prog.vars r = none) : varWrite r val x = (x, 0x5302) := by
  simp only [varWrite, hv]

section
variable (hv : varOf x.k.prog.vars r = some v)
include hv

theorem varWrite_notWritable (hw : v.hostw = false) : varWrite r val x = (x, 0x5305) := by
  simp only [varWrite, hv, hw, Bool.not_false, if_true]

section
variable (hw : v.hostw = true)
include hw

theorem varWrite_wrongLength (hl : val.length ≠ v.value.length) : varWrite r val x = (x, 0x5304) := by
  simp only [varWrite, hv, hw, Bool.not_true, Bool.false_eq_true, if_false, hl, ne_eq, not_false_eq_true, if_true]

theorem varWrite_takes (hl : val.length = v.value.length) : varWrite r val x = (onProg (fun q => { q with
    vars := forceAll x.k.prog.forces (x.k.prog.vars.map (fun w => if w.ref = r then { w with value := val } else w)) }) x, 0) := by
  simp only [varWrite, hv, hw, Bool.not_true, Bool.false_eq_true, if_false, hl, ne_eq, not_true]

end

end

/-- A variable of the written reference holds its forced value, or the written one (R315, R319). -/
theorem value_of_written {fs : List Force} {vs : List VarSt} {w : VarSt}
    (h : w ∈ forceAll fs (vs.map (fun w => if w.ref = r then { w with value := val } else w))) (hr : w.ref = r) :
    w.value = ((fs.find? (fun f => f.ref = r)).map (·.value)).getD val := by
  obtain ⟨u, hu, ref, value⟩ := value_of_mem_forceAll h
  obtain ⟨v, -, rfl⟩ := List.mem_map.mp hu
  rw [hr] at ref value
  rw [value]
  split
  · rfl
  · rename_i other
    rw [if_neg other] at ref
    exact absurd ref.symm other

theorem refs_written (fs : List Force) (vs : List VarSt) :
    (forceAll fs (vs.map (fun w => if w.ref = r then { w with value := val } else w))).map (·.ref) = vs.map (·.ref) := by
  simp only [forceAll_refs, List.map_map, List.map_inj_left, Function.comp]
  intro v _
  split <;> rfl

end

theorem functionReply_failed {c code : Nat} {value : List Byte} (hc : c = code) (h0 : code ≠ 0) :
    functionReply c value = (rFunction, be 2 code) := by
  rw [hc]
  exact if_neg h0

/-- A variable write that reaches the lanes answers the value held after it, or why it is refused (R313 to R315). -/
theorem variableWrite_answers {s u : State} {n i f code : Nat} {val : List Byte} (ha : s.allows n .operator false)
    (hp : s.pair.role ≠ .standby) (hr : imagesRun s = true) (hc : (varWrite ⟨i, f⟩ val ⟨leadKernel s, [], [], []⟩).2 = code)
    (hu : laneRow (fun _ x => (varWrite ⟨i, f⟩ val x).1) s = u) :
    exec (.variableWrite n i f val) s = .next (withResult (functionReply code (varValue (leadKernel u) ⟨i, f⟩)) u) := by
  show execVariableWrite n i f val s = _
  unfold execVariableWrite
  dsimp only
  rw [hc, asLaneSession_allowed ha hp hr, hu]
  by_cases h0 : code = 0
  · rw [h0]
    rfl
  · rw [functionReply_failed rfl h0, functionReply_failed rfl h0]
    rfl

/-! ## Forces -/

section
variable {n : Nat} {r : VarRef} {val : List Byte} {x : KRun} {v : VarSt}

theorem mem_forcePut (f : Force) (l : List Force) : f ∈ forcePut f l := by
  induction l with
  | nil => exact List.mem_singleton_self f
  | cons g l ih =>
    unfold forcePut
    split_ifs
    · exact List.mem_cons_self
    · exact List.mem_cons_self
    · exact List.mem_cons_of_mem g ih

@[simp] theorem forceRecord_evs (n : Nat) (r : VarRef) (val : List Byte) (x : KRun) :
    (forceRecord n r val x).evs = x.evs ++ [⟨83, n⟩] := rfl
@[simp] theorem length_recs_forceRecord (n : Nat) (r : VarRef) (val : List Byte) (x : KRun) :
    (forceRecord n r val x).recs.length = x.recs.length + 1 := List.length_append

theorem forceSet_unknown (hv : varOf x.k.prog.vars r = none) : forceSet n r val x = forceOut 0x5302 x := by
  simp only [forceSet, hv]

section
variable (hv : varOf x.k.prog.vars r = some v)
include hv

theorem forceSet_vital (hs : v.vital = true) : forceSet n r val x = forceOut 0x5301 x := by
  simp only [forceSet, hv, hs, if_true]

section
variable (hs : v.vital = false)
include hs

theorem forceSet_wrongLength (hl : val.length ≠ v.value.length) : forceSet n r val x = forceOut 0x5304 x := by
  simp [forceSet, hv, hs, hl]

section
variable (hl : val.length = v.value.length) (hm : val.length ≤ 64)
include hl hm

theorem forceSet_full (hn : ∀ g ∈ x.k.prog.forces, g.ref ≠ r) (hf : 256 ≤ x.k.prog.forces.length) :
    forceSet n r val x = forceOut 0x5303 x := by
  have fits : ¬ 64 < v.value.length := by omega
  have unforced : x.k.prog.forces.any (fun g => g.ref = r) = false := by simpa using hn
  simp [forceSet, hv, hs, hl, fits, unforced, forceMax, hf]

theorem forceSet_takes (hf : x.k.prog.forces.length < 256) : forceSet n r val x =
    forceRecord n r val (forceOut 0 (onProg (fun q => { q with
      forces := forcePut ⟨r, val, x.k.image.num⟩ q.forces,
      vars := forceAll (forcePut ⟨r, val, x.k.image.num⟩ q.forces) q.vars }) x)) := by
  have fits : ¬ 64 < v.value.length := by omega
  simp [forceSet, hv, hs, hl, fits, forceMax, Nat.not_le.mpr hf]

end

end

end

theorem forceRemove_none (hn : ∀ g ∈ x.k.prog.forces, g.ref ≠ r) : forceRemove n r x = forceOut 0x5306 x := by
  have unforced : x.k.prog.forces.find? (fun f => f.ref = r) = none := by simpa using hn
  simp only [forceRemove, unforced]

/-- A force removed is gone from the table, with its record (R317). -/
theorem forceRemove_removes {g : Force} (hg : g ∈ x.k.prog.forces) (hr : g.ref = r) : ∃ value, forceRemove n r x =
    forceRecord n r value (forceOut 0 (onProg (fun q => { q with forces := q.forces.filter (fun f => f.ref ≠ r) }) x)) := by
  have forced : (x.k.prog.forces.find? (fun f => f.ref = r)).isSome = true := List.find?_isSome.mpr ⟨g, hg, decide_eq_true hr⟩
  obtain ⟨f, hf⟩ := Option.isSome_iff_exists.mp forced
  exact ⟨f.value, by simp only [forceRemove, hf]⟩

/-- A record and event 83 for each of some forces. -/
theorem foldl_forceRecord_told (l : List Force) (x : KRun) :
    ∃ y, y = l.foldl (fun x f => forceRecord n f.ref f.value x) x ∧ y.k = x.k ∧ y.recs.length = x.recs.length + l.length ∧
      y.evs.length = x.evs.length + l.length := by
  induction l generalizing x with
  | nil => exact ⟨_, rfl, rfl, rfl, rfl⟩
  | cons f l ih =>
    obtain ⟨y, rfl, kernel, recs, evs⟩ := ih (forceRecord n f.ref f.value x)
    refine ⟨_, rfl, kernel, recs.trans ?_, evs.trans ?_⟩
    · rw [length_recs_forceRecord, List.length_cons]
      omega
    · rw [forceRecord_evs, List.length_append, List.length_cons, List.length_cons, List.length_nil]
      omega

end

/-! ## The rows -/

/-- Settles O30: the switch of an online change, the values and forces it carries over, host writes and forces with their answers and
records. -/
theorem variablesAndForces : Obligations.VariablesAndForces := by
  refine ⟨fun s p h hp hh ha hi hl => ?_, fun s hw => congrArg Host.Outcome.next (onlineSwitch_waits hw), fun new old x hp => ?_,
    fun old new vs v w i j hi hj ht hw => ?_, fun s n i f val ha hp hr hv => ?_, fun r val x v hv hw hl => ?_,
    fun s n i f val ha hp hr hv => ?_, fun n r val x => ?_, fun n r x => ?_⟩
  · obtain ⟨reports, raised⟩ := switchNow_spec p h s
    have lanes : (switchNow p h s).lanes = (switched p h s).lanes := by rw [reports.2]
    have progLoad : (switchNow p h s).progLoad = (switched p h s).progLoad := by rw [reports.2]
    refine ⟨_, congrArg Host.Outcome.next (onlineSwitch_switches hp hh ha hi hl), raised, ?_⟩
    rw [lanes, progLoad]
    refine ⟨rfl, switched_slot p h s, switched_otherSlot p h s, fun l => ?_, reports⟩
    rw [switched_kernel]
    exact ⟨rfl, switchIn_runs p _⟩
  · obtain ⟨q, hk, -, -, -, vars, -⟩ := switchProgram_k new x
    refine ⟨_, rfl, ?_, fun f hf => mem_forces_switchProgram hf, ?_, switchProgram_reserves new x⟩
    · rw [hk]
      exact vars old hp
    · rw [hk]
  · rw [carryVar_sameBlockType hi hj ht hw]
    exact ⟨fun h => if_pos h, fun hi hw => if_neg (not_or.mpr ⟨hi, hw⟩)⟩
  · refine ⟨_, _, variableWrite_answers ha hp hr rfl rfl, kernelRow_laneRow _ s hv, fun v known writable fits => ?_, fun unknown => ?_,
      fun v known readOnly => ?_, fun v known writable misfits => ?_⟩
    · rw [varWrite_takes (x := ⟨leadKernel s, [], [], []⟩) known writable fits]
      rfl
    · rw [functionReply_failed (code := 0x5302) (congrArg Prod.snd (varWrite_unknown unknown)) (by decide)]
      rfl
    · rw [functionReply_failed (code := 0x5305) (congrArg Prod.snd (varWrite_notWritable known readOnly)) (by decide)]
      rfl
    · rw [functionReply_failed (code := 0x5304) (congrArg Prod.snd (varWrite_wrongLength known writable misfits)) (by decide)]
      rfl
  · rw [varWrite_takes hv hw hl]
    refine ⟨_, rfl, rfl, rfl, refs_written _ _, fun hn w hm hr => ?_, fun g hg w hm hr => ?_⟩
    · have unforced : x.k.prog.forces.find? (fun f => f.ref = r) = none := by simpa using hn
      rw [value_of_written hm hr, unforced]
      rfl
    · rw [value_of_written hm hr, hg]
      rfl
  · have lanes := laneRefusal_active hp hr
    exact ⟨exists_laneSession (out := (·.prog.forceOutcome)) ha lanes hv rfl,
      exists_laneSession (out := (·.prog.forceOutcome)) ha lanes hv rfl,
      exists_laneSession (out := (·.prog.forceOutcome)) ha lanes hv rfl⟩
  · refine ⟨_, rfl, forceSet_unknown, fun v hv => ⟨forceSet_vital hv, forceSet_wrongLength hv,
      fun hs hl hm hn hf => forceSet_full hv hs hl hm hn hf, fun hs hl hm hf => ?_⟩⟩
    rw [forceSet_takes hv hs hl hm hf]
    exact ⟨rfl, rfl, mem_forcePut _ _, rfl, length_recs_forceRecord _ _ _ _, rfl⟩
  · refine ⟨forceRemove_none, fun g hg hr => ?_, ?_⟩
    · obtain ⟨value, removed⟩ := forceRemove_removes (n := n) hg hr
      rw [removed]
      exact ⟨_, rfl, rfl, rfl, length_recs_forceRecord _ _ _ _, rfl⟩
    · obtain ⟨y, hy, kernel, recs, evs⟩ := foldl_forceRecord_told (n := n) x.k.prog.forces
        (forceOut 0 (onProg (fun q => { q with forces := [] }) x))
      exact ⟨y, hy, kernel, recs, evs⟩

end Sys2Proof.Proofs
end

section
/-! PROOFS. A Welong channel: rate correction, counter records, back-off, listening and the bus start, SYNC and COLD-START frames (R351 to
R361). -/

namespace Sys2Proof.Proofs

open Sys2Proof Sys2Proof.Machine Sys2Proof.Laws

/-! ## What an operation on the bus leaves alone -/

/-- The bus, event sources and the dictionary aside, two states are the same. -/
def onlyBus (s t : State) : Prop := t = { s with bus := t.bus, ev := t.ev, dict := t.dict }

theorem onlyBus_trans {s t u : State} (h : onlyBus s t) (k : onlyBus t u) : onlyBus s u := by
  unfold onlyBus at *
  rw [h] at k
  exact k

theorem onlyBus_raiseEv (e d : Nat) (s : State) : onlyBus s (raiseEv e d s) := rfl
theorem onlyBus_modChan (h : Half) (f : ChanSt → ChanSt) (s : State) : onlyBus s (modChan h f s) := rfl
theorem onlyBus_modPort (h : Half) (p : Nat) (f : PortSt → PortSt) (s : State) : onlyBus s (modPort h p f s) := rfl

/-! ## A channel changed -/

theorem told_modChan (h : Half) (f : ChanSt → ChanSt) (s : State) : told s (modChan h f s) := told_of_eq rfl rfl

/-- A change of a channel depends on what it does to that channel alone. -/
theorem modChan_congr {h : Half} {f g : ChanSt → ChanSt} {s : State} (e : f (twoGet s.bus.chans h) = g (twoGet s.bus.chans h)) :
    modChan h f s = modChan h g s := by
  unfold modChan
  rw [twoMod_eq_put, e, ← twoMod_eq_put]

@[simp] theorem twoGet_modChan (h : Half) (f : ChanSt → ChanSt) (s : State) :
    twoGet (modChan h f s).bus.chans h = f (twoGet s.bus.chans h) := twoGet_mod _ _ _

/-- The ports of a channel that changes in other respects are as before, on both channels. -/
theorem portOf_twoMod {s t : State} {h : Half} {f : ChanSt → ChanSt} (e : t.bus.chans = twoMod s.bus.chans h f)
    (hf : ∀ c, (f c).ports = c.ports) (k : Half) (q : Nat) : portOf t k q = portOf s k q := by
  unfold portOf
  rw [e]
  by_cases hk : k = h
  · rw [hk, twoGet_mod, hf]
  · rw [twoGet_mod_other _ _ hk]

section
variable {s : State} {h : Half}

/-! ## Upkeep -/

/-- The rate of a channel after 16 offset corrections, in 2⁻¹⁶ ppm, within ±200 ppm (R354). -/
def correctedRate (s : State) (h : Half) : Int :=
  max (-13107200) (min 13107200 ((twoGet s.bus.chans h).rate + (twoGet s.bus.chans h).corrs.sum * 1000000 * 65536 / (256 * s.bus.busNs)))

theorem rateCorrection_due (hc : (twoGet s.bus.chans h).corrs.length = 16) :
    rateCorrection h s = modChan h (fun c => { c with rate := correctedRate s h, corrs := [] }) s := by
  refine modChan_congr ?_
  dsimp only
  rw [if_neg (by omega), correctedRate, List.sum_eq_foldl]
  rfl

theorem weakSync_due (hw : 8 ≤ (twoGet s.bus.chans h).weakRun) :
    weakSync h s = raiseEv 22 (halfNo h) (modChan h (fun c => { c with weakRun := 0 }) s) := if_pos hw

theorem counterRecord_due (hi : (twoGet s.halves h).inServ = true) (hu : chanUp s h = true)
    (hc : twoGet s.chest.counters h + 65536 ≤ s.bus.counter) :
    counterRecord h s = { s with chest := { s.chest with counters := twoPut s.chest.counters h s.bus.counter } } :=
  if_pos (by simp [hi, hu, hc])

theorem backOffEnd_due (hb : (twoGet s.bus.chans h).st = .backingOff) (hn : (twoGet s.bus.chans h).since + 8 * busNs0 s ≤ s.ns) :
    backOffEnd h s = modChan h (fun c => { c with st := .listening, since := s.ns }) s := if_pos (by simp [hb, hn])

/-! ## The bus start -/

/-- The counter before the first bus cycle of a half that starts the bus alone (R357, R358). -/
def countBeforeStart (s : State) : Nat := max (moduleNs s / 250000) (counterFloor s) - 1

/-- A half that has sent its first COLD-START frame, no other half keeping the schedule. -/
def busStarted (h : Half) (s : State) : State :=
  modChan h (fun c => { c with
    st := .coldStarting, starter := true, startedAt := (countBeforeStart s + 1) % 2 ^ 48, devs := [], k := 0, checks := 0 })
    { s with bus := { s.bus with counter := countBeforeStart s % 2 ^ 48, etherType := s.bus.etherSet } }

theorem startBus_alone (ho : chanUp s (otherHalf h) = false) : startBus h s = raiseEv 23 (halfNo h) (busStarted h s) := by
  unfold startBus
  simp only [ho, Bool.false_and, Bool.false_eq_true, if_false]
  rfl

theorem listenTimeout_due (hl : (twoGet s.bus.chans h).st = .listening) (hi : (twoGet s.halves h).inServ = true)
    (hn : (twoGet s.bus.chans h).since + 3 * busNs0 s ≤ s.ns) : listenTimeout h s = startBus h s := if_pos (by simp [hl, hi, hn])

end

/-- Settles O6: each row of the upkeep under its condition, with the starter's counter read off `busStarted`. -/
theorem channelUpkeep : Obligations.ChannelUpkeep := by
  refine ⟨fun s h hc => ?_, fun s h hw => ?_, fun s h hi hu hc => ?_, fun s h hb hn => ?_, fun s h hl hi hn ho => ?_⟩
  · refine ⟨_, congrArg Host.Outcome.next (rateCorrection_due hc), ?_⟩
    rw [twoGet_modChan]
    exact ⟨rfl, rfl⟩
  · exact ⟨_, congrArg Host.Outcome.next (weakSync_due hw), raised_raiseEv (by decide), told_trans (told_modChan _ _ _) (told_raiseEv _ _ _),
      rfl⟩
  · exact ⟨_, congrArg Host.Outcome.next (counterRecord_due hi hu hc), rfl⟩
  · exact ⟨_, congrArg Host.Outcome.next (backOffEnd_due hb hn), rfl⟩
  · refine ⟨_, congrArg Host.Outcome.next ((listenTimeout_due hl hi hn).trans (startBus_alone ho)), ?_⟩
    have started : (twoGet (busStarted h s).bus.chans h).st = .coldStarting ∧ (twoGet (busStarted h s).bus.chans h).starter = true := by
      rw [busStarted, twoGet_modChan]
      exact ⟨rfl, rfl⟩
    exact ⟨started.1, started.2, raised_raiseEv (by decide), told_trans (told_of_eq rfl rfl) (told_raiseEv _ _ _), rfl,
      twoGet_mod_other _ _ (otherHalf_ne h), rfl⟩

/-! ## SYNC and COLD-START frames taken -/

/-- The state once a SYNC or COLD-START frame is stamped. -/
def syncStamped (h : Half) (p : Nat) (f : Frame) (at_ : Int) (s : State) : State :=
  stamp (txQueue h + 1) 0 (welongStamp s h f.counter (field f.body 0 1) p true (s.bus.busNs + at_ / 16)) s

theorem syncStamped_eq (h : Half) (p : Nat) (f : Frame) (at_ : Int) (s : State) : syncStamped h p f at_ s = { s with
    time := (syncStamped h p f at_ s).time, ev := (syncStamped h p f at_ s).ev, dict := (syncStamped h p f at_ s).dict } := stamp_eq _ _ _ _

theorem told_syncStamped (h : Half) (p : Nat) (f : Frame) (at_ : Int) (s : State) : told s (syncStamped h p f at_ s) := told_stamp _ _ _ _

@[simp] theorem syncStamped_bus (h : Half) (p : Nat) (f : Frame) (at_ : Int) (s : State) : (syncStamped h p f at_ s).bus = s.bus := stamp_bus

theorem chanUp_syncStamped (h k : Half) (p : Nat) (f : Frame) (at_ : Int) (s : State) : chanUp (syncStamped h p f at_ s) k = chanUp s k := by
  rw [chanUp, syncStamped_bus]
  rfl

section
variable {s : State} {h : Half} {p : Nat} {f : Frame} {at_ : Int}

/-- The deviation of a SYNC frame in the main schedule: its arrival less the nominal arrival of slot k and the transit (R351). -/
theorem syncDev_main (hd : s.bus.dormant = false) :
    syncDev s f at_ = at_ - ((2000 * (field f.body 0 1 : Int) + 100) * 16) - (field f.body 20 4 : Int) := by
  simp [syncDev, syncArrival, hd]

theorem sync_form {kind : Nat} (hf : frameForm s p f kind 24 (f.flags < 2) = true) (hb : f.body.length = 24) (hk : field f.body 0 1 ≤ 7) :
    (frameForm s p f kind 24 (syncFlagsOk f) && syncBodyOk f) = true := by
  rw [syncFlagsOk, hf]
  simp [syncBodyOk, hb, hk]

/-! ## SYNC -/

theorem takeDev_kept {k : Nat} {d : Int} (hd : d.natAbs ≤ 16 * s.bus.prec) :
    takeDev h k p d s = modChan h (fun c => { c with devs := tabPut c.devs k d }) s := if_neg (Nat.not_lt.mpr hd)

theorem takeDev_implausible {k : Nat} {d : Int} (hd : 16 * s.bus.prec < d.natAbs) : takeDev h k p d s = raiseEv 22 p s := if_pos hd

theorem takeDev_frame (h : Half) (k p : Nat) (d : Int) (s : State) : told s (takeDev h k p d s) ∧ onlyBus s (takeDev h k p d s) := by
  unfold takeDev
  split
  · exact ⟨told_raiseEv _ _ _, onlyBus_raiseEv _ _ _⟩
  · exact ⟨told_modChan _ _ _, onlyBus_modChan _ _ _⟩

theorem takeDev_dormant (h : Half) (k p : Nat) (d : Int) (s : State) : (takeDev h k p d s).bus.dormant = s.bus.dormant := by
  unfold takeDev
  split <;> rfl

theorem dormantInteg_main (hd : s.bus.dormant = false) : dormantInteg h p s = s := if_neg (by simp [hd])

/-- At a half that keeps the schedule a SYNC frame of its slot's node gives its deviation (R351). -/
theorem syncFrame_kept (hl : portLive s h p = true) (hc : (portOf s h p).closed = false)
    (hs : (twoGet s.bus.chans h).st = .synchronised) (hr : (twoGet s.bus.chans h).starter = false) (hd : s.bus.dormant = false)
    (hf : frameForm s p f 0x10 24 (f.flags < 2) = true) (hb : f.body.length = 24) (hk : field f.body 0 1 ≤ 7)
    (hslot : f.slot = field f.body 0 1) (hctr : f.counter = nextCounter s) (hn : syncNode s (field f.body 0 1) = some (p + 1)) :
    syncFrame h p f at_ s = takeDev h (field f.body 0 1) p (syncDev s f at_) (syncStamped h p f at_ s) := by
  unfold syncFrame
  rw [if_neg (by simp [hl, hc])]
  simp only [hs, sync_form hf hb hk, startChecking, hr, Bool.false_and, Bool.false_eq_true, if_false]
  rw [if_pos (by simp [hslot, hctr, hn])]
  exact dormantInteg_main (by rw [takeDev_dormant, stamp_bus, hd])

/-! ## COLD-START -/

/-- A half that takes over the bus it hears, while the other half keeps no schedule (R360). -/
def busHeard (h : Half) (f : Frame) (s : State) : State := { s with bus := { s.bus with
  chans := twoMod s.bus.chans h (fun c => { c with st := .integrating, starter := false, checks := 0, devs := [] })
  counter := (f.counter + (2 ^ 48 - 1)) % 2 ^ 48, busNs := field f.body 8 4, mode := f.mode % 8
  lCyc := ((modeRec s (f.mode % 8)).map (·.lCyc)).getD s.bus.lCyc, prec := ((modeRec s (f.mode % 8)).map (·.prec)).getD s.bus.prec
  guardNs := ((modeRec s (f.mode % 8)).map (·.guardNs)).getD s.bus.guardNs } }

theorem busHeard_chans (h : Half) (f : Frame) (s : State) : (busHeard h f s).bus.chans =
    twoMod s.bus.chans h (fun c => { c with st := .integrating, starter := false, checks := 0, devs := [] }) := rfl

theorem told_busHeard (h : Half) (f : Frame) (s : State) : told s (busHeard h f s) := by
  unfold busHeard
  exact told_of_eq rfl rfl

theorem chanUp_modChan_other (g : ChanSt → ChanSt) : chanUp (modChan h g s) (otherHalf h) = chanUp s (otherHalf h) := by
  unfold chanUp modChan
  rw [twoGet_mod_other _ _ (otherHalf_ne h)]

theorem startIntegrating_alone (ho : chanUp s (otherHalf h) = false) (hd : s.bus.dormant = false) :
    startIntegrating h f s = busHeard h f s := by
  unfold startIntegrating
  dsimp only
  rw [if_neg (by simp [chanUp_modChan_other, ho]), if_neg (by simp [modChan, hd])]
  rfl

theorem nextCounter_busHeard (hc : f.counter < 2 ^ 48) (s : State) : nextCounter (busHeard h f s) = f.counter := by
  show ((f.counter + (2 ^ 48 - 1)) % 2 ^ 48 + 1) % 2 ^ 48 = f.counter
  omega

/-- A port that is live, on a channel that listens and has no port blocked, takes its COLD-START frame. -/
theorem coldStart_listening (hl : portLive s h p = true) (hb : (twoGet s.bus.chans h).blocked = [])
    (hs : (twoGet s.bus.chans h).st = .listening) : coldStart h p f at_ none s = coldFrame h p f at_ s := by
  unfold coldStart
  dsimp only
  exact if_neg (by simp [hs, hl, blocked, hb])

/-- A listening half that hears a COLD-START frame at or above the counter floor integrates to it (R358, R360). -/
theorem coldFrame_listening (hs : (twoGet s.bus.chans h).st = .listening) (hf : frameForm s p f 0x11 24 (f.flags < 2) = true)
    (hb : f.body.length = 24) (hk : field f.body 0 1 ≤ 7) (hc : counterFloor s ≤ f.counter) (ho : chanUp s (otherHalf h) = false) :
    coldFrame h p f at_ s = startIntegrating h f (syncStamped h p f at_ s) := by
  have floor : counterFloor (syncStamped h p f at_ s) = counterFloor s := by rw [syncStamped_eq]; rfl
  have other : chanUp (syncStamped h p f at_ s) (otherHalf h) = false := by rw [chanUp_syncStamped, ho]
  unfold coldFrame
  simp only [sync_form hf hb hk, hs, Bool.not_true, Bool.false_eq_true, if_false]
  show hearBus h f (syncStamped h p f at_ s) = _
  rw [hearBus, if_neg (by omega), if_neg (by simp [other])]

/-- Of two starters heard at once the star blocks the higher port, and forwards the lower one's frame (R359). -/
theorem coldStart_collision {q : Nat} (hl : portLive s h p = true) (hb : (twoGet s.bus.chans h).blocked = [])
    (hs : (twoGet s.bus.chans h).st = .listening) (hq : q < p) :
    coldStart h p f at_ (some q) s = raiseEv 24 p (modChan h (fun c => { c with blocked := [(p, s.ns + busNs0 s)] }) s) := by
  unfold coldStart
  dsimp only
  rw [if_neg (by simp [hs, hl, blocked, hb]), if_neg (by simp [hs, Nat.ne_of_lt hq]), if_neg (by omega), Nat.max_eq_right hq.le]
  exact congrArg (raiseEv 24 p) (modChan_congr (by simp [hb]))

end

/-- Settles O9: the deviation taken or discarded, the bus heard taken over, the higher of two starters blocked. -/
theorem busStartAndSync : Obligations.BusStartAndSync := by
  refine ⟨fun s h p k f at_ hl hc hs hr hd hf hb hk hk7 hslot hctr hn => ?_, fun s h p f at_ hl hb hs hf hlen hk hfloor hlt ho hd => ?_,
    fun s h p q f at_ hl hb hs hq => ?_⟩
  · subst hk
    rw [← syncDev_main hd]
    refine ⟨_, congrArg Host.Outcome.next (syncFrame_kept hl hc hs hr hd hf hb hk7 hslot hctr hn), fun near => ?_, fun far => ?_, ?_⟩
    · rw [takeDev_kept (by rwa [syncStamped_bus]), syncStamped_eq]
      rfl
    · rw [takeDev_implausible (by rwa [syncStamped_bus])]
      exact ⟨syncStamped_bus _ _ _ _ _, raised_raiseEv (by decide)⟩
    · obtain ⟨toldDev, alone⟩ := takeDev_frame h (field f.body 0 1) p (syncDev s f at_) (syncStamped h p f at_ s)
      refine ⟨told_trans (told_syncStamped h p f at_ s) toldDev, ?_⟩
      rw [alone, syncStamped_eq]
  · have other : chanUp (syncStamped h p f at_ s) (otherHalf h) = false := by rw [chanUp_syncStamped, ho]
    have taken : coldStart h p f at_ none s = busHeard h f (syncStamped h p f at_ s) := by
      rw [coldStart_listening hl hb hs, coldFrame_listening hs hf hlen hk hfloor ho, startIntegrating_alone other (by simp [hd])]
    have chans : (busHeard h f (syncStamped h p f at_ s)).bus.chans =
        twoMod s.bus.chans h (fun c => { c with st := .integrating, starter := false, checks := 0, devs := [] }) := by
      rw [busHeard_chans, syncStamped_bus]
    refine ⟨_, congrArg Host.Outcome.next taken, ?_, ?_, nextCounter_busHeard hlt _, rfl, rfl,
      portOf_twoMod chans (fun _ => rfl) h, ?_, told_trans (told_syncStamped h p f at_ s) (told_busHeard h f _), ?_⟩
    · rw [chans, twoGet_mod]
    · rw [chans, twoGet_mod]
    · rw [chans, twoGet_mod_other _ _ (otherHalf_ne h)]
    · rw [syncStamped_eq]
      rfl
  · refine ⟨_, congrArg Host.Outcome.next (coldStart_collision hl hb hs hq), raised_raiseEv (by decide),
      told_trans (told_modChan _ _ _) (told_raiseEv _ _ _), ?_, ?_⟩
    · rw [raiseEv_bus, twoGet_modChan]
      rfl
    · rw [raiseEv_bus, twoGet_modChan]
      rfl

end Sys2Proof.Proofs
end

section
/-! PROOFS. Links and star ports: link up and down, link delays, closing by cuts, port tables, the port commands of a Maintainer session
(R332, R345, R349, R350, R364). -/

namespace Sys2Proof.Proofs

open Sys2Proof Sys2Proof.Machine Sys2Proof.Laws

/-! ## A port that loses its node -/

theorem onlyBus_dropInteg (h : Half) (p : Nat) (s : State) : onlyBus s (dropInteg h p s) := by
  rw [dropInteg_eq]
  rfl

theorem onlyBus_releaseNode (n : Nat) (s : State) : onlyBus s (releaseNode n s) := by
  rw [releaseNode_eq]
  rfl

theorem portsKept_raiseEv (h : Half) (p e d : Nat) (s : State) : portsKept h p s (raiseEv e d s) := portsKept_of_bus rfl

/-- A port whose node is no longer integrated. -/
def unheard (x : PortSt) : PortSt := { x with
  integ := false, table := false, ready := false, readyMode := 0, readyLog := [], rx := none, tablesDue := [], tableClear := 0 }

theorem portOf_dropInteg (h : Half) (p : Nat) (s : State) : portOf (dropInteg h p s) h p = unheard (portOf s h p) := by
  rw [portOf_bus h p (dropInteg_bus h p s), portOf_modPort]
  rfl

/-- A port that loses its node: the node dropped, the port changed, the node's spare slots released, an event raised (R349, R364). -/
def nodeLost (h : Half) (p e : Nat) (f : PortSt → PortSt) (s : State) : State :=
  raiseEv e p (releaseNode (p + 1) (modPort h p f (dropInteg h p s)))

theorem portOf_nodeLost (h : Half) (p e : Nat) (f : PortSt → PortSt) (s : State) :
    portOf (nodeLost h p e f s) h p = f (unheard (portOf s h p)) := by
  rw [nodeLost, portOf_bus h p raiseEv_bus, portOf_spare _ _ _ _ h p (releaseNode_bus _ _) rfl, portOf_modPort, portOf_dropInteg]

theorem spare_nodeLost (h : Half) (p e : Nat) (f : PortSt → PortSt) (s : State) : ∀ c ∈ (nodeLost h p e f s).bus.spare, c.2 ≠ p + 1 := by
  intro c hc
  rw [nodeLost, raiseEv_bus, releaseNode_bus] at hc
  exact of_decide_eq_true (List.mem_filter.mp hc).2

theorem portsKept_lost (h : Half) (p : Nat) (f : PortSt → PortSt) (s : State) : portsKept h p s (modPort h p f (dropInteg h p s)) :=
  portsKept_trans (portsKept_dropInteg h p s) (portsKept_modPort h p f _)

theorem portsKept_nodeLost (h : Half) (p e : Nat) (f : PortSt → PortSt) (s : State) : portsKept h p s (nodeLost h p e f s) :=
  portsKept_trans (portsKept_lost h p f s) (portsKept_trans (portsKept_releaseNode h p _ _) (portsKept_raiseEv h p _ _ _))

theorem onlyBus_lost (h : Half) (p : Nat) (f : PortSt → PortSt) (s : State) : onlyBus s (modPort h p f (dropInteg h p s)) :=
  onlyBus_trans (onlyBus_dropInteg h p s) (onlyBus_modPort h p f _)

theorem onlyBus_nodeLost (h : Half) (p e : Nat) (f : PortSt → PortSt) (s : State) : onlyBus s (nodeLost h p e f s) :=
  onlyBus_trans (onlyBus_lost h p f s) (onlyBus_trans (onlyBus_releaseNode _ _) (onlyBus_raiseEv _ _ _))

section
variable {s : State} {h : Half} {p : Nat}

/-! ## DELAY-REQ frames -/

/-- A port that awaits the answers to `n` more DELAY-REQ frames. -/
def asked (n : Nat) (x : PortSt) : PortSt := { x with delaySeq := x.delaySeq + n, measOpen := true, measRounds := [] }

theorem sendDelayReq_bus (n : Nat) : (sendDelayReq h p n s).bus = (modPort h p (asked n) s).bus := rfl

theorem sendDelayReq_eq (n : Nat) :
    sendDelayReq h p n s = { s with bus := (sendDelayReq h p n s).bus, tx := (sendDelayReq h p n s).tx } := rfl

theorem portOf_sendDelayReq (n : Nat) : portOf (sendDelayReq h p n s) h p = asked n (portOf s h p) := by
  rw [portOf_bus h p (sendDelayReq_bus n), portOf_modPort]

theorem portsKept_sendDelayReq (n : Nat) : portsKept h p s (sendDelayReq h p n s) :=
  portsKept_trans (portsKept_modPort h p _ s) (portsKept_of_bus rfl)

theorem delayReqs_sendDelayReq (n : Nat) : (twoGet (sendDelayReq h p n s).tx h).delayReqs =
    (twoGet s.tx h).delayReqs ++ (List.range n).map (fun i => (p, (portOf s h p).delaySeq + i + 1)) := by
  rw [sendDelayReq, twoGet_mod]
  rfl

theorem told_sendDelayReq (n : Nat) : told s (sendDelayReq h p n s) := told_of_eq rfl rfl

/-! ## Links -/

/-- A link that comes up at a port in the main schedule: its delay is measured in 8 rounds (R332). -/
theorem linkUp_fresh (hp : p < s.ident.ports) (hi : (twoGet s.halves h).inServ = true) (hl : (portOf s h p).link = false)
    (hd : s.bus.dormant = false) :
    linkUp h p s = raiseEv (17 + halfNo h) p (sendDelayReq h p 8
      (modPort h p (fun x => { x with link := true, speed100 := s.bus.dormant, linkDly := 0xFFFF }) s)) := by
  unfold linkUp
  rw [if_neg (by simp [hp, hi, hl]), if_neg (by simp [hd])]
  rfl

/-- A port without link. -/
def unlinked (x : PortSt) : PortSt :=
  { x with link := false, speed100 := false, linkDly := 0xFFFF, measOpen := false, measRounds := [], reopenRun := 0 }

theorem linkDown_linked (hl : (portOf s h p).link = true) : linkDown h p s = nodeLost h p (17 + halfNo h) unlinked s := if_neg (by simp [hl])

theorem linkEvent_lt (h : Half) : 17 + halfNo h < 96 := by cases h <;> decide

/-! ## Link delays -/

/-- The state once a frame of the claim slot is stamped. -/
def claimStamped (h : Half) (p : Nat) (f : Frame) (s : State) : State :=
  stamp (txQueue h + 1) 6 (welongStamp s h f.counter 11 p true 170500) s

theorem claimStamped_eq (h : Half) (p : Nat) (f : Frame) (s : State) : claimStamped h p f s = { s with
    time := (claimStamped h p f s).time, ev := (claimStamped h p f s).ev, dict := (claimStamped h p f s).dict } := stamp_eq _ _ _ _

theorem told_claimStamped (h : Half) (p : Nat) (f : Frame) (s : State) : told s (claimStamped h p f s) := told_stamp _ _ _ _

@[simp] theorem claimStamped_bus (h : Half) (p : Nat) (f : Frame) (s : State) : (claimStamped h p f s).bus = s.bus := stamp_bus

theorem portOf_claimStamped (f : Frame) : portOf (claimStamped h p f s) h p = portOf s h p := portOf_bus h p (claimStamped_bus h p f s)

/-- A port with a link delay measured, in ns; beyond 5,000 ns it is not admitted (R332). -/
def measured (ns : Nat) (x : PortSt) : PortSt :=
  { x with linkDly := if 5000 < ns then 0xFFFF else ns, measOpen := false, measRounds := [] }

/-- A link delay measured changes its port; event 27 when it is beyond 5,000 ns or moved by more than 100 ns. -/
theorem setDelay_cases (h : Half) (p ns : Nat) (s : State) :
    setDelay h p ns s = modPort h p (measured ns) s ∧ ¬ 5000 < ns ∧
      ¬ ((portOf s h p).linkDly ≠ 0xFFFF ∧ ((portOf s h p).linkDly + 100 < ns ∨ ns + 100 < (portOf s h p).linkDly)) ∨
    setDelay h p ns s = raiseEv 27 p (modPort h p (measured ns) s) := by
  unfold setDelay
  dsimp only
  split
  · exact .inr rfl
  · rename_i quiet
    exact .inl ⟨rfl, by simpa using quiet⟩

theorem portOf_setDelay (ns : Nat) : portOf (setDelay h p ns s) h p = measured ns (portOf s h p) := by
  rcases setDelay_cases h p ns s with ⟨e, -⟩ | e
  · rw [e, portOf_modPort]
  · rw [e, portOf_bus h p raiseEv_bus, portOf_modPort]

theorem raised_setDelay {ns : Nat} (hr : 5000 < ns ∨
    (portOf s h p).linkDly ≠ 0xFFFF ∧ ((portOf s h p).linkDly + 100 < ns ∨ ns + 100 < (portOf s h p).linkDly)) :
    (setDelay h p ns s).raised 27 := by
  rcases setDelay_cases h p ns s with ⟨-, near, still⟩ | e
  · exact absurd hr (not_or.mpr ⟨near, still⟩)
  · rw [e]
    exact raised_raiseEv (by decide)

theorem setDelay_frame (h : Half) (p ns : Nat) (s : State) :
    told s (setDelay h p ns s) ∧ portsKept h p s (setDelay h p ns s) ∧ onlyBus s (setDelay h p ns s) := by
  rcases setDelay_cases h p ns s with ⟨e, -⟩ | e
  · rw [e]
    exact ⟨told_modPort _ _ _ _, portsKept_modPort _ _ _ _, rfl⟩
  · rw [e]
    exact ⟨told_trans (told_modPort _ _ _ _) (told_raiseEv _ _ _),
      portsKept_trans (portsKept_modPort _ _ _ _) (portsKept_raiseEv _ _ _ _ _), rfl⟩

theorem median_singleton (v : Nat) : median [v] = v := by
  simp [median, insertSorted]
  omega

/-- The one-way delay of a DELAY-RESP, in ns (R332). -/
def oneWay (f : Frame) (rt : Nat) : Nat := (rt - field f.body 4 4) / 2 / 16

/-- A star that awaits no answer of a port any more. -/
def answered (h : Half) (p : Nat) (s : State) : State :=
  { s with tx := twoMod s.tx h (fun t => { t with delayReqs := t.delayReqs.filter (fun r => r.1 ≠ p) }) }

theorem told_answered (h : Half) (p : Nat) (s : State) : told s (answered h p s) := told_of_eq rfl rfl

theorem answered_bus (h : Half) (p : Nat) (s : State) : (answered h p s).bus = s.bus := rfl

/-- A DELAY-RESP that ends a re-measurement. -/
theorem delayResp_remeasured {f : Frame} {rt : Nat} (hl : (portOf s h p).link = true) (ho : (portOf s h p).measOpen = true)
    (hm : (portOf s h p).measRounds = []) (hd : (portOf s h p).linkDly ≠ 0xFFFF) (hf : frameForm s p f 0x14 8 (f.flags < 2) = true)
    (hb : f.body.length = 8) :
    delayResp h p f rt s = answered h p (setDelay h p (oneWay f rt) (claimStamped h p f s)) := by
  unfold delayResp
  dsimp only
  rw [if_neg (by simp [hl, ho]), hf, if_neg (by simp [hb]), if_neg (by simp [hd]), if_neg (by simp [hd]), hm, List.nil_append,
    median_singleton]
  rfl

/-- A link delay measured again: one DELAY-REQ on a live port, stamped (R332). -/
theorem remeasure_live (hu : chanUp s h = true) (hl : portLive s h p = true) :
    remeasure h p s = txStamp h 6 11 170500 (sendDelayReq h p 1 s) := if_pos (by simp [hu, hl])

theorem remeasure_spec (hu : chanUp s h = true) (hl : portLive s h p = true) :
    (twoGet (remeasure h p s).tx h).delayReqs = (twoGet s.tx h).delayReqs ++ [(p, (portOf s h p).delaySeq + 1)] ∧
    (portOf (remeasure h p s) h p).measOpen = true ∧ told s (remeasure h p s) ∧ portsKept h p s (remeasure h p s) ∧
    remeasure h p s = { s with
      bus := (remeasure h p s).bus, tx := (remeasure h p s).tx, time := (remeasure h p s).time, ev := (remeasure h p s).ev,
      dict := (remeasure h p s).dict } := by
  rw [remeasure_live hu hl, txStamp]
  refine ⟨?_, ?_, told_trans (told_sendDelayReq 1) (told_stamp _ _ _ _),
    portsKept_trans (portsKept_sendDelayReq 1) (portsKept_of_bus stamp_bus), ?_⟩
  · rw [stamp_tx, delayReqs_sendDelayReq]
    rfl
  · rw [portOf_bus h p stamp_bus, portOf_sendDelayReq]
    rfl
  · rw [stamp_eq]
    rfl

/-! ## Ports closed, tables resent -/

/-- A port as its closing leaves it (R349, R350). -/
def closedPort (byCmd : Bool) (x : PortSt) : PortSt := { x with closed := true, cmdClosed := x.cmdClosed || byCmd, reopenRun := 0 }

theorem closePort_open {byCmd : Bool} (hc : (portOf s h p).closed = false) :
    closePort h p byCmd s = nodeLost h p (19 + halfNo h) (closedPort byCmd) s := if_neg (by simp [hc])

theorem closePort_closed {byCmd : Bool} (hc : (portOf s h p).closed = true) :
    closePort h p byCmd s = modPort h p (closedPort byCmd) (dropInteg h p s) := if_pos hc

theorem portOf_closePort (byCmd : Bool) : portOf (closePort h p byCmd s) h p = closedPort byCmd (unheard (portOf s h p)) := by
  cases hc : (portOf s h p).closed with
  | false => rw [closePort_open hc, portOf_nodeLost]
  | true => rw [closePort_closed hc, portOf_modPort, portOf_dropInteg]

theorem portsKept_closePort (byCmd : Bool) : portsKept h p s (closePort h p byCmd s) := by
  cases hc : (portOf s h p).closed with
  | false =>
    rw [closePort_open hc]
    exact portsKept_nodeLost _ _ _ _ _
  | true =>
    rw [closePort_closed hc]
    exact portsKept_lost _ _ _ _

theorem onlyBus_closePort (byCmd : Bool) : onlyBus s (closePort h p byCmd s) := by
  cases hc : (portOf s h p).closed with
  | false =>
    rw [closePort_open hc]
    exact onlyBus_nodeLost _ _ _ _ _
  | true =>
    rw [closePort_closed hc]
    exact onlyBus_lost _ _ _ _

theorem raised_closePort {byCmd : Bool} (hc : (portOf s h p).closed = false) : (closePort h p byCmd s).raised (19 + halfNo h) := by
  rw [closePort_open hc]
  exact raised_raiseEv (portEvent_lt h)

theorem closedByCuts_due (hc : (portOf s h p).closed = false)
    (hn : 3 ≤ ((portOf s h p).cutAt.filter (fun c => s.bus.counter < c + 8)).length) : closedByCuts h p s = closePort h p false s :=
  if_pos (by
    have cuts : 3 ≤ cutsNow s (portOf s h p) := hn
    simp [hc, cuts])

theorem portTableResend_due (hi : (portOf s h p).integ = true) (hc : 8 ≤ (portOf s h p).tableClear) (hd : (portOf s h p).tablesDue = []) :
    portTableResend h p s = modPort h p (fun x => { x with tablesDue := allModes s, tableClear := 0 }) s := if_pos (by simp [hi, hc, hd])

end

/-- Settles O7: each row at its port, and what it leaves alone beside it. -/
theorem portsAndLinks : Obligations.PortsAndLinks := by
  refine ⟨fun s h p hp hi hl hd => ?_, fun s h p hl => ?_, fun s h p rt f hl ho hm hd hf hb => ?_, fun s h p hc hu hl => ?_,
    fun s h p hc hn => ?_, fun s h p hi hc hd => ?_⟩
  · refine ⟨_, congrArg Host.Outcome.next (linkUp_fresh hp hi hl hd), ?_⟩
    rw [portOf_bus h p raiseEv_bus, portOf_sendDelayReq, portOf_modPort, raiseEv_tx, delayReqs_sendDelayReq, portOf_modPort]
    refine ⟨rfl, rfl, rfl, raised_raiseEv (linkEvent_lt h), ?_, ?_, ?_⟩
    · exact told_trans (told_modPort _ _ _ _) (told_trans (told_sendDelayReq 8) (told_raiseEv _ _ _))
    · exact portsKept_trans (portsKept_modPort _ _ _ _) (portsKept_trans (portsKept_sendDelayReq 8) (portsKept_raiseEv _ _ _ _ _))
    · rw [raiseEv_eq, sendDelayReq_eq]
      rfl
  · refine ⟨_, congrArg Host.Outcome.next (linkDown_linked hl), ?_⟩
    rw [portOf_nodeLost]
    exact ⟨rfl, rfl, spare_nodeLost _ _ _ _ _, raised_raiseEv (linkEvent_lt h), portsKept_nodeLost _ _ _ _ _, onlyBus_nodeLost _ _ _ _ _⟩
  · refine ⟨_, congrArg Host.Outcome.next (delayResp_remeasured hl ho hm hd hf hb), ?_⟩
    have same := portOf_claimStamped (s := s) (h := h) (p := p) f
    obtain ⟨toldDelay, kept, alone⟩ := setDelay_frame h p (oneWay f rt) (claimStamped h p f s)
    refine ⟨?_, fun beyond => raised_setDelay (.inl beyond), fun moved => raised_setDelay (.inr ?_), ?_, ?_, ?_⟩
    · rw [portOf_bus h p (answered_bus h p _), portOf_setDelay]
      rfl
    · rw [same]
      exact ⟨hd, moved⟩
    · exact told_trans (told_claimStamped h p f s) (told_trans toldDelay (told_answered h p _))
    · exact portsKept_trans (portsKept_of_bus (claimStamped_bus h p f s)) (portsKept_trans kept (portsKept_of_bus (answered_bus h p _)))
    · rw [alone, claimStamped_eq]
      rfl
  · have due : exec (.linkDelayRemeasure h p) s = .next (remeasure h p s) := congrArg Host.Outcome.next (if_pos hc)
    exact ⟨_, due, remeasure_spec hu hl⟩
  · refine ⟨_, congrArg Host.Outcome.next (closedByCuts_due hc hn), ?_⟩
    rw [portOf_closePort]
    refine ⟨rfl, rfl, Bool.or_false _, ?_, raised_closePort hc, portsKept_closePort _, onlyBus_closePort _⟩
    rw [closePort_open hc]
    exact spare_nodeLost _ _ _ _ _
  · refine ⟨_, congrArg Host.Outcome.next (portTableResend_due hi hc hd), ?_⟩
    rw [portOf_modPort]
    exact ⟨rfl, rfl, portsKept_modPort _ _ _ _, rfl⟩

end Sys2Proof.Proofs
end

section
/-! PROOFS. The port commands of a Maintainer session, and what a session below the level is answered (R332, R350, R551). -/

namespace Sys2Proof.Proofs

open Sys2Proof Sys2Proof.Machine Sys2Proof.Laws

/-- A function of the commons that a session may not ask for changes the result alone. -/
theorem asSession_refused {s : State} {n : Nat} {min : Level} {key : Bool} (f : State → State × Nat × List Byte)
    (h : sessRefusal s n min key ≠ rOk) : asSession n min key f s = withResult (sessRefusal s n min key, []) s := if_pos h

/-- LEVEL, whatever is asked for. -/
theorem asSession_low {s : State} {n : Nat} {min : Level} (key : Bool) (f : State → State × Nat × List Byte)
    (ho : (sessOf s n).opened = true) (hl : levelRank (sessOf s n).level < levelRank min) :
    asSession n min key f s = withResult (rLevel, []) s := by
  have low := sessRefusal_low key ho hl
  rw [asSession_refused f (by rw [low]; decide), low]

/-- The answer of a port command (Table 9.16). -/
def portAnswered (code : Nat) (s : State) : State :=
  withResult (functionReply code []) { s with bus := { s.bus with portOutcome := code } }

theorem told_portAnswered (code : Nat) (s : State) : told s (portAnswered code s) :=
  told_trans (told_of_eq rfl rfl) (told_withResult _ _)

theorem portAnswered_bus (code : Nat) (s : State) : (portAnswered code s).bus = { s.bus with portOutcome := code } := rfl

theorem portOf_portAnswered (code : Nat) (s : State) (h : Half) (p : Nat) : portOf (portAnswered code s) h p = portOf s h p := rfl

theorem onlyBus_portAnswered (code : Nat) (s : State) : onlyBus s (portAnswered code s) := rfl

section
variable {s : State} {n : Nat} {h : Half} {p : Nat}

/-- A port command of a session that may ends with a code. -/
theorem asSession_portCommand {act code : Nat} {t : State} (ha : s.allows n .maintainer false) (hc : portCommand act h p s = portReply code t) :
    (.next (asSession n .maintainer false (portCommand act h p) s) : Host.Outcome State Fault Refusal) = .next (portAnswered code t) :=
  next_asSession ha hc

theorem portCommand_absent (act : Nat) (hp : s.ident.ports ≤ p) : portCommand act h p s = portReply 0x6101 s := if_pos hp

theorem portCommand_unlinked {act : Nat} (hp : p < s.ident.ports) (hact : act ≠ 1) (hl : (portOf s h p).link = false) :
    portCommand act h p s = portReply 0x6102 s := by
  rw [portCommand, if_neg (Nat.not_le.mpr hp), if_pos (by simp [hact, hl])]

theorem portCommand_close (hp : p < s.ident.ports) : portCommand 1 h p s = portReply 0 (closePort h p true s) := by
  rw [portCommand, if_neg (Nat.not_le.mpr hp), if_neg (by simp), if_pos rfl]

theorem portCommand_release (hp : p < s.ident.ports) (hl : (portOf s h p).link = true) :
    portCommand 2 h p s = portReply 0 (modPort h p (fun x => { x with cmdClosed := false, reopenRun := 0 }) s) := by
  rw [portCommand, if_neg (Nat.not_le.mpr hp), if_neg (by simp [hl]), if_neg (by decide), if_pos rfl]

theorem portCommand_measure (hp : p < s.ident.ports) (hl : (portOf s h p).link = true) :
    portCommand 3 h p s = portReply 0 (remeasure h p s) := by
  rw [portCommand, if_neg (Nat.not_le.mpr hp), if_neg (by simp [hl]), if_neg (by decide), if_neg (by decide)]

/-- A live port is one of the module's, with link. -/
theorem portLive_iff : portLive s h p = true ↔
    p < s.ident.ports ∧ (twoGet s.halves h).inServ = true ∧ (portOf s h p).link = true ∧ (portOf s h p).linkDly ≠ 0xFFFF := by
  simp [portLive, and_assoc]

end

/-- Settles O10: each command of a session that may, with its outcome, and LEVEL for a session that may not. -/
theorem portCommands : Obligations.PortCommands := by
  refine ⟨fun s n h p ha hp => ?_, fun s n h p ha hp hl => ?_, fun s n h p ha hu hl => ?_, fun s n h p ha hp => ?_,
    fun s n h p ha hp hl => ?_, fun s n h p ho hl => ?_⟩
  · refine ⟨_, asSession_portCommand ha (portCommand_close hp), ?_⟩
    rw [portOf_portAnswered, portOf_closePort]
    exact ⟨rfl, Bool.or_true _, rfl, raised_closePort, rfl, rfl,
      portsKept_trans (portsKept_closePort true) (fun _ _ _ => portOf_portAnswered _ _ _ _),
      onlyBus_trans (onlyBus_closePort true) (onlyBus_portAnswered _ _)⟩
  · refine ⟨_, asSession_portCommand ha (portCommand_release hp hl), ?_⟩
    rw [portOf_portAnswered, portOf_modPort]
    exact ⟨rfl, rfl, rfl, told_trans (told_modPort _ _ _ _) (told_portAnswered _ _),
      portsKept_trans (portsKept_modPort _ _ _ _) (fun _ _ _ => portOf_portAnswered _ _ _ _), rfl⟩
  · obtain ⟨hp, -, link, -⟩ := portLive_iff.mp hl
    obtain ⟨reqs, awaiting, toldMeasure, kept, alone⟩ := remeasure_spec hu hl
    refine ⟨_, asSession_portCommand ha (portCommand_measure hp link), reqs, awaiting, rfl, rfl,
      told_trans toldMeasure (told_portAnswered _ _), portsKept_trans kept (fun _ _ _ => portOf_portAnswered _ _ _ _), ?_⟩
    rw [alone]
    rfl
  · have absent : ∀ act, portCommand act h p s = portReply 0x6101 s := fun act => portCommand_absent act hp
    exact ⟨_, asSession_portCommand ha (absent 1), asSession_portCommand ha (absent 2), asSession_portCommand ha (absent 3), rfl,
      told_portAnswered _ _, rfl⟩
  · have noLink : ∀ act, act ≠ 1 → portCommand act h p s = portReply 0x6102 s := fun act ne => portCommand_unlinked hp ne hl
    exact ⟨_, asSession_portCommand ha (noLink 2 (by decide)), asSession_portCommand ha (noLink 3 (by decide)), rfl,
      told_portAnswered _ _, rfl⟩
  · have low : ∀ f, (.next (asSession n .maintainer false f s) : Host.Outcome State Fault Refusal) = .next (withResult (rLevel, []) s) :=
      fun f => congrArg Host.Outcome.next (asSession_low false f ho hl)
    exact ⟨_, low _, low _, low _, rfl⟩

end Sys2Proof.Proofs
end

section
/-! PROOFS. Claims of spare slots; mode requests, their abort, checkpoint and switch (R363 to R369). -/

namespace Sys2Proof.Proofs

open Sys2Proof Sys2Proof.Machine Sys2Proof.Laws

section
variable {s : State}

/-! ## Claims -/

theorem claimFrame_taken {h : Half} {p : Nat} {f : Frame} (hu : chanUp s h = true) (hd : s.bus.dormant = false) (hl : portLive s h p = true)
    (hi : (portOf s h p).integ = true) (hc : (portOf s h p).closed = false)
    (hf : frameOk s p f 0x80 11 s.bus.counter 4 (f.flags < 2) = true) (hb : f.body.length = 4) (hn : field f.body 0 1 ≤ 4)
    (hz : field f.body 1 3 = 0) (hm : bit (((modeNow s).map (·.claimMask)).getD 0) p = true) (hone : ∀ x ∈ s.bus.claims, x.1 ≠ p + 1) :
    claimFrame h p f s = { claimStamped h p f s with bus := { s.bus with claims := s.bus.claims ++ [(p + 1, field f.body 0 1)] } } := by
  have first : s.bus.claims.any (fun x => x.1 = p + 1) = false := by simpa using hone
  unfold claimFrame
  dsimp only
  rw [if_neg (by simp [hu, hd, hl, hi, hc]), hf, if_neg (by simp [hb, hn, hz, hm]), stamp_bus, first]
  rfl

/-! ## The switch counter -/

/-- The switch counter is the least common multiple of both cycle lengths at or above c_a + 4 × L + 16 (R365). -/
theorem switchCounter_eq (ca lOld lNew : Nat) :
    switchCounter ca lOld lNew = Nat.lcm lOld lNew * ((ca + 4 * lOld + 16) ⌈/⌉ Nat.lcm lOld lNew) := Nat.mul_comm _ _

theorem le_switchCounter (ca : Nat) {lOld lNew : Nat} (ho : 0 < lOld) (hn : 0 < lNew) : ca + 4 * lOld + 16 ≤ switchCounter ca lOld lNew := by
  rw [switchCounter_eq]
  exact le_smul_ceilDiv (Nat.lcm_pos ho hn)

theorem switchCounter_le {ca lOld lNew c : Nat} (ho : 0 < lOld) (hn : 0 < lNew) (hco : lOld ∣ c) (hcn : lNew ∣ c)
    (hc : ca + 4 * lOld + 16 ≤ c) : switchCounter ca lOld lNew ≤ c := by
  obtain ⟨k, rfl⟩ := Nat.lcm_dvd hco hcn
  rw [switchCounter_eq]
  exact Nat.mul_le_mul_left _ ((ceilDiv_le_iff_le_smul (Nat.lcm_pos ho hn)).mpr hc)

theorem dvd_switchCounter_old (ca lOld lNew : Nat) : lOld ∣ switchCounter ca lOld lNew := by
  rw [switchCounter_eq]
  exact (Nat.dvd_lcm_left _ _).mul_right _

theorem dvd_switchCounter_new (ca lOld lNew : Nat) : lNew ∣ switchCounter ca lOld lNew := by
  rw [switchCounter_eq]
  exact (Nat.dvd_lcm_right _ _).mul_right _

/-! ## Requests -/

/-- The switch that a mode request announces. -/
def announcedSwitch (m : ModeRec) (s : State) : SwitchSt :=
  { mode := m.num, s := switchCounter s.image.counter s.bus.lCyc m.lCyc, announced := false, confirmed := false }

/-- A mode request accepted (R365). -/
def modeAsked (m : ModeRec) (s : State) : State :=
  { s with bus := { s.bus with pend := some (announcedSwitch m s), askedImg := s.imageNo, notReady := 0xFF, outcome := 0x6001 } }

theorem modeRequestFn_accepted {m : ModeRec} (hm : modeRec s m.num = some m) (h7 : m.num ≤ 7) (hnew : m.num ≠ s.bus.mode)
    (hp : s.bus.pend = none) (hrun : modeOf s = 0) (hbudget : budgetBad s m = false) :
    modeRequestFn m.num s = (modeAsked m s, 0, []) := by
  unfold modeRequestFn
  rw [if_neg (by omega), hm]
  simp only [hnew, hp, hrun, hbudget, Option.isSome_none, Bool.false_eq_true, ne_eq, not_true, if_false]
  rfl

theorem modeRequestFn_abort {q : SwitchSt} (hp : s.bus.pend = some q) (hc : q.confirmed = false) :
    modeRequestFn 0xFF s = (raiseEv 26 q.mode { s with bus := { s.bus with pend := none, outcome := 0x6006 } }, 0, []) := by
  unfold modeRequestFn
  rw [if_pos rfl, hp]
  simp only [hc, Bool.false_eq_true, if_false]
  rfl

/-! ## Checkpoint -/

theorem checkpoint_confirms {q : SwitchSt} (hp : s.bus.pend = some q) (hc : q.confirmed = false)
    (hs : q.s ≤ s.bus.counter + 2 * s.bus.lCyc) (ha : q.announced = true) (hr : notReadyNodes s q.mode = []) :
    checkpoint s = { s with bus := { s.bus with pend := some { q with confirmed := true } } } := by
  unfold checkpoint
  simp only [hp, hc, Nat.not_lt.mpr hs, decide_false, Bool.or_self, Bool.false_eq_true, if_false, ha, hr]

/-- A switch for which a node is not ready is dropped at the checkpoint; the lowest such node is told (R367). -/
theorem checkpoint_drops {q : SwitchSt} {k : Nat} {l : List Nat} (hp : s.bus.pend = some q) (hc : q.confirmed = false)
    (hs : q.s ≤ s.bus.counter + 2 * s.bus.lCyc) (hr : notReadyNodes s q.mode = k :: l) :
    checkpoint s = raiseEv 26 q.mode { s with bus := { s.bus with pend := none, outcome := 0x6005, notReady := k } } := by
  unfold checkpoint
  simp only [hp, hc, Nat.not_lt.mpr hs, decide_false, Bool.or_self, Bool.false_eq_true, if_false, hr]
  cases q.announced <;> rfl

/-! ## Switch -/

theorem mem_insertSorted {v x : Nat} {l : List Nat} : x ∈ insertSorted v l ↔ x = v ∨ x ∈ l := by
  induction l with
  | nil => simp [insertSorted]
  | cons y l ih =>
    rw [insertSorted]
    split
    · simp
    · simp only [List.mem_cons, ih]
      tauto

theorem mem_foldl_insertSorted {x : Nat} {l : List Nat} : ∀ {a : List Nat},
    x ∈ l.foldl (fun a v => insertSorted v a) a ↔ x ∈ l ∨ x ∈ a := by
  induction l with
  | nil => simp
  | cons y l ih =>
    intro a
    rw [List.foldl_cons, ih, mem_insertSorted, List.mem_cons]
    tauto

/-- The spare slots are those of the mode in force (R364). -/
theorem contains_spareSlots {m : ModeRec} (hm : modeNow s = some m) (n : Nat) :
    (spareSlots s).contains n = m.slots.any (fun r => r.kind = 4 && r.slot = n) := by
  rw [Bool.eq_iff_iff, List.contains_iff_mem, spareSlots, mem_foldl_insertSorted, hm]
  simp [and_assoc]

theorem modeRec_num {n : Nat} {m : ModeRec} (h : modeRec s n = some m) : m.num = n := by
  simpa using List.find?_some h

/-- The figures of an agreed mode, in force. -/
def modeInForce (m : ModeRec) (s : State) : State := { s with bus := putMode m { s.bus with pend := none, outcome := 0 } }

theorem told_modeInForce (m : ModeRec) (s : State) : told s (modeInForce m s) := told_of_eq rfl rfl

theorem modeNow_modeInForce {n : Nat} {m : ModeRec} (h : modeRec s n = some m) : modeNow (modeInForce m s) = some m := by
  rw [← modeRec_num h] at h
  exact h

/-- The claims that hold a spare slot of a mode. -/
def claimsKept (m : ModeRec) (s : State) : Tab Nat := s.bus.spare.filter (fun c => m.slots.any (fun r => r.kind = 4 && r.slot = c.1))

/-- An agreed switch whose bus cycle comes next: the mode in force, claims without a slot gone, event 26 (R364, R368). -/
theorem modeSwitch_agreed {q : SwitchSt} {m : ModeRec} (hp : s.bus.pend = some q) (hm : modeRec s q.mode = some m)
    (hc : q.confirmed = true) (hs : q.s ≤ nextCounter s) :
    ∃ lost, modeSwitch s = raiseEv 26 m.num (setSpare (claimsKept m s) lost (modeInForce m s)) := by
  have keep : (modeInForce m s).bus.spare.filter (fun c => (spareSlots (modeInForce m s)).contains c.1) = claimsKept m s :=
    List.filter_congr fun c _ => contains_spareSlots (modeNow_modeInForce hm) c.1
  rw [← keep]
  unfold modeSwitch
  simp only [hp, hm, hc, hs, decide_true, Bool.and_self, if_true]
  exact ⟨_, rfl⟩

end

/-- Settles O11: a claim kept, a mode request with its switch counter, its abort, the checkpoint both ways, the switch. -/
theorem claimsAndModes : Obligations.ClaimsAndModes := by
  refine ⟨fun s h p c f hu hd hl hi hc hf hb hk hn hz hm hone => ?_, fun s m hm h7 hnew hp hrun hbudget hold hlen => ?_,
    fun s n q ha hp hc => ?_, fun s q hp hc hs ha hr => ?_, fun s q k l hp hc hs hr => ?_, fun s q m hp hm hc hs => ?_⟩
  · subst hk
    refine ⟨_, congrArg Host.Outcome.next (claimFrame_taken hu hd hl hi hc hf hb hn hz hm hone), rfl,
      told_trans (told_claimStamped h p f s) (told_of_eq rfl rfl), ?_⟩
    rw [claimStamped_eq]
  · have accepted := modeRequestFn_accepted hm h7 hnew hp hrun hbudget
    refine ⟨modeAsked m s, announcedSwitch m s, accepted, rfl, rfl, rfl, rfl, Nat.mod_eq_zero_of_dvd (dvd_switchCounter_old _ _ _),
      Nat.mod_eq_zero_of_dvd (dvd_switchCounter_new _ _ _), le_switchCounter _ hold hlen, fun c hco hcn hc =>
        switchCounter_le hold hlen (Nat.dvd_of_mod_eq_zero hco) (Nat.dvd_of_mod_eq_zero hcn) hc, rfl, fun n ha => ?_⟩
    show (.next (withImage (asSession n .maintainer false (if m.num ≤ 7 then modeRequestFn m.num else fun s => (s, rRange, []))) s) :
      Host.Outcome State Fault Refusal) = _
    rw [if_pos h7, withImage, asSession_allowed ha, accepted]
  · show (.next (withImage (asSession n .maintainer false (modeRequestFn 0xFF)) s) : Host.Outcome State Fault Refusal) = _
    rw [withImage, asSession_allowed ha, modeRequestFn_abort hp hc]
  · exact congrArg Host.Outcome.next (checkpoint_confirms hp hc hs ha hr)
  · exact ⟨_, congrArg Host.Outcome.next (checkpoint_drops hp hc hs hr), raised_raiseEv (by decide),
      told_trans (told_of_eq rfl rfl) (told_raiseEv _ _ _), rfl⟩
  · obtain ⟨lost, agreed⟩ := modeSwitch_agreed hp hm hc hs
    refine ⟨_, congrArg Host.Outcome.next agreed, raised_raiseEv (by decide),
      told_trans (told_modeInForce m s) (told_trans (told_setSpare _ _ _) (told_raiseEv _ _ _)), ?_, ?_, ?_⟩
    · rw [raiseEv_bus, setSpare_bus]
      rfl
    · rw [raiseEv_bus, setSpare_bus]
      rfl
    · rw [raiseEv_eq, setSpare_eq]
      rfl

end Sys2Proof.Proofs
end

section
/-! PROOFS. Power votes of clients, wake requests with their hold time, WAKE frames (R373, R599, R600, R604, R649). -/

namespace Sys2Proof.Proofs

open Sys2Proof Sys2Proof.Machine Sys2Proof.Laws

section
variable {s : State}

/-! ## Votes -/

theorem collapse_still (hm : s.power.moving = none) : collapse s = s := if_neg (by simp [hm])

/-- A request while a transition runs is counted, with event 65 (R604). -/
theorem collapse_moving (hm : s.power.moving.isSome = true) :
    collapse s = raiseEv 65 noDetail { s with power := { s.power with collapsed := min 255 (s.power.collapsed + 1) } } := if_pos hm

/-- The votes with one replaced. -/
def voted (i v : Nat) (s : State) : State := { s with power := { s.power with votes := s.power.votes.set i v } }

theorem setVote_still (i v : Nat) (hm : s.power.moving = none) : setVote i v s = voted i v s := collapse_still (s := voted i v s) hm

theorem setVote_moving (i v : Nat) (hm : s.power.moving.isSome = true) :
    setVote i v s = raiseEv 65 noDetail { s with power := { s.power with
      votes := s.power.votes.set i v, collapsed := min 255 (s.power.collapsed + 1) } } := collapse_moving (s := voted i v s) hm

theorem not_outOfRange {v : Nat} (hv : v ≤ 3 ∨ v = 0xFF) : ¬ (3 < v ∧ v ≠ 0xFF) := by omega

/-- Sub 1 is a client's own vote (R599). -/
theorem voteFn_own {origin : Option Nat} {v : Nat} (hv : v ≤ 3 ∨ v = 0xFF) : voteFn origin 1 v s = (setVote 0 v s, rOk, be 1 v) := by
  simp [voteFn, not_outOfRange hv]

theorem voteFn_own_range {origin : Option Nat} {v : Nat} (h3 : 3 < v) (hff : v ≠ 0xFF) : voteFn origin 1 v s = (s, rRange, []) := by
  simp [voteFn, h3, hff]

/-- Subs 2 and 3 belong to the modules named; a session of this module may not write them. -/
theorem voteFn_foreign {sub v : Nat} (hsub : sub = 2 ∨ sub = 3) : voteFn none sub v s = (s, rLevel, []) := by
  rcases hsub with rfl | rfl <;> simp [voteFn]

theorem voteFn_readOnly {origin : Option Nat} {sub v : Nat} (hsub : sub = 4 ∨ sub = 5) : voteFn origin sub v s = (s, rAccess, []) := by
  rcases hsub with rfl | rfl <;> simp [voteFn]

theorem voteFn_named {sub v m : Nat} (hv : v ≤ 3 ∨ v = 0xFF)
    (hm : sub = 2 ∧ m = s.datum.addr ∨ sub = 3 ∧ m = s.pair.partnerAddr) (hne : m ≠ 0xFFFF) :
    voteFn (some m) sub v s = (setVote (sub - 1) v s, rOk, be 1 v) := by
  rcases hm with ⟨rfl, rfl⟩ | ⟨rfl, rfl⟩ <;> simp [voteFn, hne, not_outOfRange hv]

/-- A function asked for through a PROXY request by a session of Operator or above. -/
theorem asProxy_operator {l : Level} {f : State → State × Nat × List Byte} (hl : 1 ≤ levelRank l) :
    asProxy l .operator false f s = withResult ((f s).2.1, (f s).2.2) (f s).1 := by
  have level : levelRank .operator ≤ Nat.min 1 (levelRank l) := Nat.le_min.mpr ⟨le_rfl, hl⟩
  exact if_pos (by simp [level])

/-! ## Wake requests -/

/-- The WAKE vote at Run until the hold time has run (R600). -/
def wakeVoted (s : State) : State := { s with power := { s.power with
  votes := s.power.votes.set 4 0, wakeUntil := some (s.ns + s.power.holdS * 1000000000) } }

theorem wake_still (hm : s.power.moving = none) : wake s = wakeVoted s := wake_eq hm

/-- On the way to a deeper state a wake request is remembered, with event 65 (R604). -/
theorem wake_deeper {m : PwState} (hm : s.power.moving = some m) (hd : pwCode s.power.st < pwCode m)
    (hs : s.power.step = 0 ∨ s.power.step = 7) :
    wake s = raiseEv 65 noDetail { s with power := { s.power with
      votes := s.power.votes.set 4 0, wakeUntil := some (s.ns + s.power.holdS * 1000000000), wakeQ := true } } := by
  have idle : (s.power.step ≠ 0 && s.power.step ≠ 7) = false := by rcases hs with e | e <;> simp [e]
  simp only [wake, hm, hd, idle, decide_true, Bool.not_false, Bool.and_self, Bool.or_true, if_true]
  rfl

theorem wakeRequest_deaf (h : s.power.st = .off ∨ s.power.pfail ≠ 0 ∨ s.power.st = .failedWake) (c : Option Nat) : wakeRequest c s = s :=
  if_pos (by simpa [or_assoc] using h)

/-- A falling edge on WAKE# wakes a supplied module that does not drive the wire itself (R600). -/
theorem wakeRequest_wire (ho : s.power.st ≠ .off) (hf : s.power.st ≠ .failedWake) (hp : s.power.pfail = 0) (hd : s.power.wakeDrive ≤ s.ns) :
    wakeRequest none s = wake s := by
  unfold wakeRequest
  rw [if_neg (by simp [ho, hf, hp])]
  exact if_neg (Nat.not_lt.mpr hd)

/-- The calendar that reaches the wake time wakes a supplied module (R600). -/
theorem wakeRequest_calendar {c : Nat} (ho : s.power.st ≠ .off) (hf : s.power.st ≠ .failedWake) (hp : s.power.pfail = 0)
    (ht : s.power.wakeTime ≠ 0) (hc : s.power.wakeTime ≤ c) :
    wakeRequest (some c) s = wake { s with power := { s.power with calendar := max s.power.calendar c, wakeTime := 0 } } := by
  unfold wakeRequest
  rw [if_neg (by simp [ho, hf, hp])]
  exact if_pos (by simp [ht, hc])

/-- The module ignores the wire while it drives it (R649). -/
theorem wakeRequest_driving (hn : s.ns < s.power.wakeDrive) : wakeRequest none s = s := by
  unfold wakeRequest
  split
  · rfl
  · rfl

/-- The calendar asks for nothing before the wake time (R600). -/
theorem wakeRequest_early {c : Nat} (hc : s.power.wakeTime = 0 ∨ c < s.power.wakeTime) : wakeRequest (some c) s = s := by
  unfold wakeRequest
  split
  · rfl
  · refine if_neg ?_
    rcases hc with e | e
    · simp [e]
    · simp [Nat.not_le.mpr e]

/-! ## The hold time -/

/-- The WAKE vote withdrawn (R599). -/
def wakeWithdrawn (s : State) : State := { s with power := { s.power with wakeUntil := none, votes := s.power.votes.set 4 0xFF } }

theorem wakeHoldExpiry_none (hw : s.power.wakeUntil = none) : wakeHoldExpiry s = s := by
  unfold wakeHoldExpiry
  rw [hw]

theorem wakeHoldExpiry_early {e : Nat} (hw : s.power.wakeUntil = some e) (hn : s.ns < e) : wakeHoldExpiry s = s := by
  unfold wakeHoldExpiry
  rw [hw]
  exact if_neg (Nat.not_le.mpr hn)

theorem wakeHoldExpiry_due {e : Nat} (hw : s.power.wakeUntil = some e) (hn : e ≤ s.ns) :
    wakeHoldExpiry s = collapse (wakeWithdrawn s) := by
  unfold wakeHoldExpiry
  rw [hw]
  exact if_pos hn

/-! ## WAKE frames -/

theorem wakeFrame_elsewhere {h : Half} {p : Nat} {f : Frame}
    (hw : s.bus.dormant = false ∨ s.power.st ≠ .dormant ∨ 2 ≤ p ∨ chanUp s h = false ∨ portLive s h p = false) :
    wakeFrame h p f s = s := by
  refine if_pos ?_
  rcases hw with e | e | e | e | e <;> simp [e]

/-- In Dormant a WAKE frame of node 1 or 2 wakes, with event 29; another is discarded (R373). -/
theorem wakeFrame_dormant {h : Half} {p : Nat} {f : Frame} (hd : s.bus.dormant = true) (hst : s.power.st = .dormant) (hp : p < 2)
    (hu : chanUp s h = true) (hl : portLive s h p = true) :
    wakeFrame h p f s = if frameOk s p f 0x15 11 s.bus.counter 4 (f.flags < 2) && f.body.length = 4 && field f.body 0 4 = 0 then
      wake (raiseEv 29 p s) else Machine.discard h p s := if_neg (by simp [hd, hst, hp, hu, hl])

/-- Discarding a frame changes its port's count, beside reports. -/
theorem discard_chans (h : Half) (p : Nat) (s : State) : Machine.discard h p s = { s with
    bus := { s.bus with chans := (Machine.discard h p s).bus.chans }, ev := (Machine.discard h p s).ev,
    dict := (Machine.discard h p s).dict } := by
  unfold Machine.discard
  dsimp only
  split <;> rfl

end

/-- Settles O51: each client's vote with the refusals, wake requests and their hold time, WAKE frames. -/
theorem votesAndWakes : Obligations.VotesAndWakes := by
  refine ⟨fun s n v ha hv => ⟨fun hm => ?_, fun hm => ?_⟩, fun s n v ha => ⟨fun sub hsub => ?_, fun sub hsub => ?_, fun h3 hff => ?_⟩,
    fun s n v sub m l hl hv hm hne hstill => ?_,
    fun s => ⟨fun h c => ?_, fun hn => ?_, fun c hc => ?_, fun ho hf hp hdrive => ⟨fun hm => ?_, fun m hm hd hs => ?_⟩,
      fun c ho hf hp ht hc hm => ?_⟩,
    fun s => ⟨fun hw => ?_, fun e hw hn => ?_, fun e hw hn => ⟨fun hm => ?_, fun hm => ?_⟩⟩,
    fun s h port f => ⟨fun hw => congrArg Host.Outcome.next (wakeFrame_elsewhere hw),
      fun hd hst hp hu hl => ⟨fun hok hbody hm => ?_, fun hbad => ?_⟩⟩⟩
  · exact next_asSession ha (by rw [voteFn_own hv, setVote_still 0 v hm]; rfl)
  · refine ⟨_, next_asSession ha (by rw [voteFn_own hv, setVote_moving 0 v hm]), ?_⟩
    exact ⟨raised_raiseEv (d := noDetail) (by decide), rfl, reported_trans (reported_raiseEv _ _ _) (reported_withResult _ _)⟩
  · exact next_asSession ha (voteFn_foreign hsub)
  · exact next_asSession ha (voteFn_readOnly hsub)
  · exact next_asSession ha (voteFn_own_range h3 hff)
  · refine congrArg Host.Outcome.next ((asProxy_operator hl).trans ?_)
    rw [voteFn_named hv hm hne, setVote_still _ v hstill]
    rfl
  · exact congrArg Host.Outcome.next (wakeRequest_deaf h c)
  · exact congrArg Host.Outcome.next (wakeRequest_driving hn)
  · exact congrArg Host.Outcome.next (wakeRequest_early hc)
  · exact congrArg Host.Outcome.next ((wakeRequest_wire ho hf hp hdrive).trans (wake_still hm))
  · exact ⟨_, congrArg Host.Outcome.next ((wakeRequest_wire ho hf hp hdrive).trans (wake_deeper hm hd hs)), raised_raiseEv (by decide),
      reported_raiseEv _ _ _⟩
  · exact congrArg Host.Outcome.next ((wakeRequest_calendar ho hf hp ht hc).trans (wake_still hm))
  · exact congrArg Host.Outcome.next (wakeHoldExpiry_none hw)
  · exact congrArg Host.Outcome.next (wakeHoldExpiry_early hw hn)
  · exact congrArg Host.Outcome.next ((wakeHoldExpiry_due hw hn).trans (collapse_still hm))
  · exact ⟨_, congrArg Host.Outcome.next ((wakeHoldExpiry_due hw hn).trans (collapse_moving hm)), raised_raiseEv (by decide),
      reported_raiseEv _ _ _⟩
  · have good : (frameOk s port f 0x15 11 s.bus.counter 4 (f.flags < 2) && f.body.length = 4 && field f.body 0 4 = 0) = true := by
      rw [hok, hbody]
      decide
    refine ⟨_, congrArg Host.Outcome.next (((wakeFrame_dormant hd hst hp hu hl).trans (if_pos good)).trans (wake_still hm)),
      raised_raiseEv (s := s) (d := port) (by decide), ?_⟩
    exact ⟨told_congr (told_raiseEv 29 port s) rfl rfl rfl rfl, rfl⟩
  · have bad : ¬ (frameOk s port f 0x15 11 s.bus.counter 4 (f.flags < 2) && f.body.length = 4 && field f.body 0 4 = 0) = true := by
      rcases hbad with e | e
      · rw [e]
        exact Bool.false_ne_true
      · simp [e]
    exact ⟨_, congrArg Host.Outcome.next ((wakeFrame_dormant hd hst hp hu hl).trans (if_neg bad)), discard_port h port s,
      told_discard h port s, portsKept_discard h port s, discard_chans h port s⟩

end Sys2Proof.Proofs
end

section
/-! PROOFS. Vital outputs (R410, R411, R428 to R431): what a fault makes of an output and its group, the switch tests and the dark
test, acknowledgement, and when an output is driven. -/

namespace Sys2Proof.Proofs

open Sys2Proof Sys2Proof.Machine Sys2Proof.Laws

section
variable {s t : State} {n m : Nat} {code : OCode}

/-! ## Outputs changed one after another -/

/-- Changing each output of a list, by a change that has its whole effect the first time. -/
theorem voOf_foldl {g : State → Nat → State} {f : Nat → VoSt → VoSt}
    (hg : ∀ s k m, voOf (g s k) m = if m = k then f k (voOf s k) else voOf s m) (hf : ∀ k v, f k (f k v) = f k v) (l : List Nat) :
    ∀ (s : State) (m : Nat), voOf (l.foldl g s) m = if m ∈ l then f m (voOf s m) else voOf s m := by
  induction l with
  | nil => exact fun s m => (if_neg List.not_mem_nil).symm
  | cons k l ih =>
    intro s m
    rw [List.foldl_cons, ih, hg]
    by_cases hk : m = k
    · subst hk
      simp [hf]
    · simp [hk]

theorem mem_groupOf_self (st : Station) (n : Nat) : n ∈ groupOf st n := by
  unfold groupOf
  cases found : outRec st n with
  | none => exact List.mem_singleton_self n
  | some o =>
    have num : o.num = n := by simpa using List.find?_some found
    have self : sameGroup o o = true := by
      unfold sameGroup
      split <;> simp
    exact List.mem_map.mpr ⟨o, List.mem_filter.mpr ⟨List.mem_of_find?_eq_some found, self⟩, num⟩

/-! ## A fault -/

/-- An output with both switches off. -/
def switchedOff (v : VoSt) : VoSt := { v with on := false, mid := false }

/-- The outputs of a group switched off. -/
def groupOff (l : List Nat) (s : State) : State := l.foldl (fun s m => modVo m switchedOff s) s

theorem voOf_groupOff (l : List Nat) (s : State) (m : Nat) :
    voOf (groupOff l s) m = if m ∈ l then switchedOff (voOf s m) else voOf s m :=
  voOf_foldl (f := fun _ => switchedOff) (fun s k m => voOf_modVo k m _ s) (fun _ _ => rfl) l s m

theorem ocode_groupOff (l : List Nat) (s : State) (m : Nat) : (voOf (groupOff l s) m).ocode = (voOf s m).ocode := by
  rw [voOf_groupOff]
  split <;> rfl

/-- An output after a fault of its own, the first cause staying (R431). -/
def faulted (code : OCode) (v : VoSt) : VoSt := { v with ocode := if v.ocode = .none then code else v.ocode, passed := 0 }

/-- The fault entered at its output, the group being off. -/
def faultEntered (n : Nat) (code : OCode) (s : State) : State := modVo n (faulted code) (groupOff (groupOf s.cfg n) s)

theorem outputFault_eq (n : Nat) (code : OCode) (s : State) :
    outputFault n code s = if (voOf s n).ocode = .none then
      raiseRec 39 n (ocodeNo code) 3 0xFFFF (be 1 n ++ be 1 (ocodeNo code)) (faultEntered n code s)
    else faultEntered n code s := by
  rw [← ocode_groupOff (groupOf s.cfg n) s n]
  rfl

theorem voOf_faultEntered : voOf (faultEntered n code s) m =
    if m = n then faulted code (switchedOff (voOf s n)) else if m ∈ groupOf s.cfg n then switchedOff (voOf s m) else voOf s m := by
  unfold faultEntered
  rw [voOf_modVo, voOf_groupOff, voOf_groupOff, if_pos (mem_groupOf_self s.cfg n)]

theorem voOf_outputFault : voOf (outputFault n code s) m = voOf (faultEntered n code s) m := by
  rw [outputFault_eq]
  split
  · exact voOf_reported (reported_raiseRec _ _ _ _ _ _ _) m
  · rfl

/-- A fault of an output has come: it is latched, the group is off, the passed tests start again, and a new one is reported (R431). -/
structure FaultLatched (n : Nat) (code : OCode) (s t : State) : Prop where
  ocode : (voOf t n).ocode = if (voOf s n).ocode = .none then code else (voOf s n).ocode
  passed : (voOf t n).passed = 0
  raised : (voOf s n).ocode = .none → t.raised 39
  group : ∀ m ∈ groupOf s.cfg n, (voOf t m).on = false ∧ (voOf t m).mid = false
  others : ∀ m, m ∉ groupOf s.cfg n → m ≠ n → voOf t m = voOf s m
  frame : outputsReported s t

theorem faultLatched_outputFault (hc : code ≠ .none) : FaultLatched n code s (outputFault n code s) where
  ocode := by
    rw [voOf_outputFault, voOf_faultEntered, if_pos rfl]
    rfl
  passed := by
    rw [voOf_outputFault, voOf_faultEntered, if_pos rfl]
    rfl
  raised new := by
    rw [outputFault_eq, if_pos new]
    exact raised_raiseRec (by decide)
  group m hm := by
    rw [voOf_outputFault, voOf_faultEntered]
    split
    · exact ⟨rfl, rfl⟩
    · exact ⟨rfl, rfl⟩
  others m hm hne := by rw [voOf_outputFault, voOf_faultEntered, if_neg hne, if_neg hm]
  frame := (outputFault_spec hc n s).1.outputs

/-- A fault found by a test is one of the output as it was before the test. -/
theorem FaultLatched.of_modVo {f : VoSt → VoSt} (h : FaultLatched n code (modVo n f s) t)
    (hf : (f (voOf s n)).ocode = (voOf s n).ocode) : FaultLatched n code s t := by
  have same : (voOf (modVo n f s) n).ocode = (voOf s n).ocode := by rw [voOf_modVo, if_pos rfl, hf]
  exact {
    ocode := same ▸ h.ocode
    passed := h.passed
    raised := fun new => h.raised (same.trans new)
    group := h.group
    others := fun m hm hne => by rw [h.others m hm hne, voOf_modVo, if_neg hne]
    frame := outputsReported_trans (outputsReported_modVo n f s) h.frame }

theorem FaultLatched.ne_none (h : FaultLatched n code s t) (hc : code ≠ .none) : (voOf t n).ocode ≠ .none := by
  rw [h.ocode]
  split <;> assumption

/-! ## Faults found without a test -/

theorem exec_overcurrent (h1 : 1 ≤ n) (h16 : n ≤ 16) (hon : (voOf s n).on = true) :
    exec (.overcurrent n) s = .next (outputFault n .overcurrent s) :=
  congrArg Host.Outcome.next (if_pos (by simp [h1, h16, hon]))

theorem exec_stuckOn (h1 : 1 ≤ n) (h16 : n ≤ 16) (hoff : (voOf s n).on = false) :
    exec (.stuckOn n) s = .next (outputFault n .stuckOn s) :=
  congrArg Host.Outcome.next (if_pos (by simp [h1, h16, hoff]))

/-! ## Tests -/

/-- The switch test of an output has run now. -/
def switchTested (n : Nat) (s : State) : State := modVo n (fun v => { v with lastTest := s.ns }) s

/-- The dark test of an output has run now. -/
def darkTested (n : Nat) (s : State) : State := modVo n (fun v => { v with lastDark := s.ns }) s

/-- A switch test of an output that is off, 2 s after the last (R430). -/
theorem exec_switchTest {mu ou ml ol : Bool} (h1 : 1 ≤ n) (h16 : n ≤ 16) (hoff : (voOf s n).on = false)
    (hdue : (voOf s n).lastTest + 2000000000 ≤ s.ns) :
    exec (.switchTest n mu ou ml ol) s = .next (if (ou || ml || ol) = true then outputFault n .stuckOn (switchTested n s)
      else if (!mu) = true then outputFault n .stuckOff (switchTested n s)
      else modVo n (fun v => { v with passed := v.passed + 1 }) (switchTested n s)) := by
  have due : ¬ s.ns < (voOf s n).lastTest + switchNs := Nat.not_lt.mpr hdue
  have named : n ≠ 0 ∧ ¬ 16 < n := by omega
  exact congrArg Host.Outcome.next (if_neg (by simp [named, hoff, due]))

/-- A dark test of an output that is on, 60 s after the last (R430). -/
theorem exec_darkTest {low : Bool} (hon : (voOf s n).on = true) (hdark : ∀ o, outRec s.cfg n = some o → o.dark = true)
    (hdue : (voOf s n).lastDark + 60000000000 ≤ s.ns) :
    exec (.darkTest n low) s = .next (if low = true then darkTested n s else outputFault n .darkTest (darkTested n s)) := by
  have due : ¬ s.ns < (voOf s n).lastDark + darkNs := Nat.not_lt.mpr hdue
  have tested : (outRec s.cfg n).any (fun o => !o.dark) = false := by
    cases found : outRec s.cfg n with
    | none => rfl
    | some o => simp [hdark o found]
  exact congrArg Host.Outcome.next (if_neg (by simp [hon, tested, due]))

/-- An output bound as not tested dark is not tested (R430). -/
theorem exec_darkTest_unbound {o : LocalOutRec} (ho : outRec s.cfg n = some o) (hd : o.dark = false) (low : Bool) :
    exec (.darkTest n low) s = .next s :=
  congrArg Host.Outcome.next (if_pos (by simp [ho, hd]))

/-- A switch test that fails, by what it read (Table 11.6). -/
theorem exec_switchTest_fault {mu ou ml ol : Bool} (h1 : 1 ≤ n) (h16 : n ≤ 16) (hoff : (voOf s n).on = false)
    (hdue : (voOf s n).lastTest + 2000000000 ≤ s.ns)
    (hread : (ou || ml || ol) = true ∧ code = .stuckOn ∨ mu = false ∧ (ou || ml || ol) = false ∧ code = .stuckOff) :
    ∃ t, exec (.switchTest n mu ou ml ol) s = .next t ∧ FaultLatched n code s t := by
  refine ⟨_, exec_switchTest h1 h16 hoff hdue, ?_⟩
  rcases hread with ⟨high, rfl⟩ | ⟨rfl, low, rfl⟩
  · rw [if_pos high]
    exact (faultLatched_outputFault (by decide)).of_modVo rfl
  · rw [low]
    exact (faultLatched_outputFault (by decide)).of_modVo rfl

/-! ## Acknowledgement -/

/-- An output as an acknowledgement that names it leaves it (R431). -/
def acknowledged (mask n : Nat) (v : VoSt) : VoSt :=
  if bit mask (n - 1) = true ∧ 3 ≤ v.passed then { v with ocode := .none } else v

/-- One output acknowledged. -/
def ackOutput (mask : Nat) (s : State) (n : Nat) : State :=
  if bit mask (n - 1) && 3 ≤ (voOf s n).passed then modVo n (fun v => { v with ocode := .none }) s else s

theorem voOf_ackOutput (mask : Nat) (s : State) (k m : Nat) :
    voOf (ackOutput mask s k) m = if m = k then acknowledged mask k (voOf s k) else voOf s m := by
  unfold ackOutput acknowledged
  simp only [Bool.and_eq_true, decide_eq_true_eq]
  split
  · exact voOf_modVo _ _ _ _
  · split
    · next e => rw [e]
    · rfl

theorem acknowledged_idem (mask k : Nat) (v : VoSt) : acknowledged mask k (acknowledged mask k v) = acknowledged mask k v := by
  unfold acknowledged
  split <;> rfl

/-- The outputs acknowledged. -/
def outputsAcked (mask : Nat) (s : State) : State := ((List.range 16).map (· + 1)).foldl (ackOutput mask) s

theorem ackOutputsFn_eq (mask : Nat) (s : State) : ackOutputsFn mask s = (outputsAcked mask s, rOk, []) := by
  unfold outputsAcked
  rw [List.foldl_map]
  rfl

theorem voOf_outputsAcked (mask : Nat) (s : State) {i : Nat} (hi : i < 16) :
    voOf (outputsAcked mask s) (i + 1) = acknowledged mask (i + 1) (voOf s (i + 1)) :=
  (voOf_foldl (voOf_ackOutput mask) (acknowledged_idem mask) _ s _).trans
    (if_pos (List.mem_map_of_mem (List.mem_range.mpr hi)))

theorem outputsAcked_eq (mask : Nat) (s : State) :
    outputsAcked mask s = { s with lio := { s.lio with vos := (outputsAcked mask s).lio.vos } } := by
  refine foldl_frame (P := fun t => t = { s with lio := { s.lio with vos := t.lio.vos } }) (fun t k ht => ?_) _ rfl
  unfold ackOutput
  split
  · rw [ht]
    rfl
  · exact ht

/-! ## Driving -/

/-- What an output that is driven has: a command, a permit, no fault in its group, and, as a drive, no other drive of its point
commanded (R410, R411, R428, R429). -/
theorem driveOn_requires (h : driveOn s n = true) : localCmd s n = true ∧ localPermit s n = true ∧
    (∀ m ∈ groupOf s.cfg n, (voOf s m).ocode = .none) ∧
    ∀ o pos, outRec s.cfg n = some o → o.kind = .drive pos → ((groupOf s.cfg n).filter (localCmd s)).length ≤ 1 := by
  unfold driveOn at h
  extract_lets g held base at h
  have based : base = true := by
    split at h
    · split at h
      · exact (Bool.and_eq_true_iff.mp h).1
      · exact (Bool.and_eq_true_iff.mp h).1
      · exact h
    · exact h
  obtain ⟨⟨cmd, permit⟩, sound⟩ : (localCmd s n = true ∧ localPermit s n = true) ∧ held = false := by simpa [base] using based
  refine ⟨cmd, permit, by simpa [held] using sound, fun o pos ho hk => ?_⟩
  rw [ho] at h
  simp only [hk] at h
  exact of_decide_eq_true (Bool.and_eq_true_iff.mp h).2

theorem localCmd_undelivered (h : s.lio.locals = none ∨ commands s = false) : localCmd s n = false := by
  rcases h with h | h <;> simp [localCmd, h]

/-- Two different elements of a list that pass leave no single one. -/
theorem one_lt_length_filter {l : List Nat} {p : Nat → Bool} {m k : Nat} (hm : m ∈ l) (hk : k ∈ l) (hne : m ≠ k) (pm : p m = true)
    (pk : p k = true) : 1 < (l.filter p).length := by
  have sub : [m, k] ⊆ l.filter p := by simp [List.cons_subset, hm, hk, pm, pk]
  exact ((List.nodup_cons.mpr ⟨by simpa using hne, List.nodup_singleton k⟩).subperm sub).length_le

end

/-- Settles O34: faults of outputs, their tests and acknowledgement, and what is not driven. -/
theorem vitalOutputFaults : Obligations.VitalOutputFaults := by
  refine ⟨fun s n c code h1 h16 hc => ?_,
    fun s n h1 h16 => ⟨fun hon => ?_, fun hoff => ?_, fun hoff hdue => ?_, fun hon hdark hdue => ?_,
      fun o ho hd low => exec_darkTest_unbound ho hd low⟩,
    fun s n mask ha => ?_, fun s n m hm hf => ?_,
    fun s n m k o pos ho hkind hm hk hne cm ck => ?_, fun s n hno => ?_⟩
  · obtain ⟨t, ht, fault⟩ : ∃ t, exec c s = .next t ∧ FaultLatched n code s t := by
      rcases hc with ⟨rfl, hon, rfl⟩ | ⟨rfl, hoff, rfl⟩ | ⟨mu, ou, ml, ol, rfl, hoff, hdue, hread⟩ |
        ⟨rfl, hon, hdark, hdue, rfl⟩
      · exact ⟨_, exec_overcurrent h1 h16 hon, faultLatched_outputFault (by decide)⟩
      · exact ⟨_, exec_stuckOn h1 h16 hoff, faultLatched_outputFault (by decide)⟩
      · exact exec_switchTest_fault h1 h16 hoff hdue hread
      · exact ⟨_, exec_darkTest hon hdark hdue, (faultLatched_outputFault (by decide)).of_modVo rfl⟩
    exact ⟨t, ht, fault.ocode, fault.passed, fault.raised, fault.group, fault.others, fault.frame⟩
  · exact ⟨_, exec_overcurrent h1 h16 hon, (faultLatched_outputFault (by decide)).ne_none (by decide)⟩
  · exact ⟨_, exec_stuckOn h1 h16 hoff, (faultLatched_outputFault (by decide)).ne_none (by decide)⟩
  · refine ⟨_, exec_switchTest h1 h16 hoff hdue, ?_, fun m hm => ?_, rfl⟩
    · simp [switchTested, voOf_modVo]
    · simp [switchTested, voOf_modVo, hm]
  · refine ⟨_, exec_darkTest hon hdark hdue, ?_, fun m hm => ?_, rfl⟩
    · simp [darkTested, voOf_modVo]
    · simp [darkTested, voOf_modVo, hm]
  · exact ⟨_, next_asSession ha (ackOutputsFn_eq mask s), fun i hi => voOf_outputsAcked mask s hi,
      congrArg (withResult (0, [])) (outputsAcked_eq mask s)⟩
  · by_contra driven
    obtain ⟨-, -, sound, -⟩ := driveOn_requires (Bool.eq_true_of_not_eq_false driven)
    exact hf (sound m hm)
  · by_contra driven
    obtain ⟨-, -, -, alone⟩ := driveOn_requires (Bool.eq_true_of_not_eq_false driven)
    exact absurd (alone o pos ho hkind) (Nat.not_le.mpr (one_lt_length_filter hm hk hne cm ck))
  · by_contra driven
    obtain ⟨cmd, permit, -, -⟩ := driveOn_requires (Bool.eq_true_of_not_eq_false driven)
    rcases hno with h | h | h
    · simp [localCmd_undelivered (.inl h)] at cmd
    · simp [localCmd_undelivered (.inr h)] at cmd
    · simp [h] at permit

end Sys2Proof.Proofs
end

section
/-! PROOFS. Paths of the cascade and the board link (R481, R485), anchors (R389, R476, R478), reference pairs (R482). -/

namespace Sys2Proof.Proofs

open Sys2Proof Sys2Proof.Machine Sys2Proof.Laws

section
variable {s t u : State} {n m : Nat}

/-! ## Paths -/

theorem pathSt_modPath (n : Nat) (f : PathSt → PathSt) (s : State) : pathSt (modPath n f s) n = f (pathSt s n) := by
  unfold pathSt modPath
  split
  · rfl
  · split <;> rfl

theorem pathSt_modPath_other (f : PathSt → PathSt) (s : State) (hn : 1 ≤ n ∧ n ≤ 3) (hm : 1 ≤ m ∧ m ≤ 3) (hne : m ≠ n) :
    pathSt (modPath n f s) m = pathSt s m := by
  obtain rfl | rfl | rfl : n = 1 ∨ n = 2 ∨ n = 3 := by omega
  · obtain rfl | rfl : m = 2 ∨ m = 3 := by omega
    · rfl
    · rfl
  · obtain rfl | rfl : m = 1 ∨ m = 3 := by omega
    · rfl
    · rfl
  · obtain rfl | rfl : m = 1 ∨ m = 2 := by omega
    · rfl
    · rfl

/-- A path marked failed (R481). -/
def pathFailed (n : Nat) (s : State) : State := modPath n (fun p => { p with fault := true }) s

theorem pathSt_pathFailed (n : Nat) (s : State) : pathSt (pathFailed n s) n = { pathSt s n with fault := true } := pathSt_modPath n _ s

theorem pathSt_pathFailed_other (s : State) (hn : 1 ≤ n ∧ n ≤ 3) (hm : 1 ≤ m ∧ m ≤ 3) (hne : m ≠ n) :
    pathSt (pathFailed n s) m = pathSt s m := pathSt_modPath_other _ s hn hm hne

/-- A path without a copy for 1 s while another delivered (R481). -/
theorem pathFault_due (h1 : 1 ≤ n) (h3 : n ≤ 3) (hf : (pathSt s n).fault = false) (hlate : (pathSt s n).lastAt + 1000000000 ≤ s.ns)
    (hother : ∃ m, 1 ≤ m ∧ m ≤ 3 ∧ m ≠ n ∧ ∃ x ∈ (pathSt s m).copies, s.ns < x + 1000000000) :
    pathFault n s = raiseEv 61 n (pathFailed n s) := by
  have delivers : ([1, 2, 3].filter (· ≠ n)).any (fun m => (pathSt s m).copies.any (fun t => s.ns < t + secNs)) = true := by
    obtain ⟨m, m1, m3, hne, x, hx, hlt⟩ := hother
    have listed : m ∈ [1, 2, 3] := by
      simp only [List.mem_cons, List.not_mem_nil, or_false]
      omega
    have copied : (pathSt s m).copies.any (fun t => s.ns < t + secNs) = true := List.any_eq_true.mpr ⟨x, hx, decide_eq_true hlt⟩
    exact List.any_eq_true.mpr ⟨m, List.mem_filter.mpr ⟨listed, decide_eq_true hne⟩, copied⟩
  have late : ¬ s.ns < (pathSt s n).lastAt + secNs := Nat.not_lt.mpr hlate
  have named : n ≠ 0 ∧ ¬ 3 < n := by omega
  refine if_neg ?_
  rw [delivers]
  simp [named, hf, late]

theorem pathFault_early (h : s.ns < (pathSt s n).lastAt + 1000000000) : pathFault n s = s := by
  have early : decide (s.ns < (pathSt s n).lastAt + secNs) = true := decide_eq_true h
  refine if_pos ?_
  rw [early]
  simp

/-! ## The board link -/

/-- A side of the board link has come up, and path 3 works (R485). -/
def boardLinked (side pos : Nat) (addrs : List Nat) (ring : Bool) (s : State) : State :=
  modPath 3 (fun p => { p with link := true, fault := false }) { s with casc := { s.casc with
    bl1 := s.casc.bl1 || side = 1, bl2 := s.casc.bl2 || side = 2, ring := ring, pos := pos, nmod := addrs.length, blAddrs := addrs } }

/-- A path 3 that had failed is reported by event 61. -/
theorem boardLinkUp_eq {side pos : Nat} {addrs : List Nat} (ring : Bool) (h1 : 1 ≤ side) (h2 : side ≤ 2) (h8 : addrs.length ≤ 8)
    (hpos : pos < addrs.length) : boardLinkUp side pos addrs ring s =
      if (pathSt s 3).fault = true then raiseEv 61 3 (boardLinked side pos addrs ring s) else boardLinked side pos addrs ring s :=
  if_neg (by simp only [Bool.or_eq_true, decide_eq_true_eq]; omega)

/-- The board link after a break: the sides still with link, this module's part, and path 3 failed when no side is left (R485). -/
def boardLinkBroken (d1 d2 : Bool) (pos : Nat) (addrs : List Nat) (s : State) : State :=
  let on := (s.casc.bl1 && !d1) || (s.casc.bl2 && !d2)
  modPath 3 (fun p => { p with link := on, fault := !on }) { s with casc := { s.casc with
    bl1 := s.casc.bl1 && !d1, bl2 := s.casc.bl2 && !d2, ring := false, pos := if on then pos % 8 else 0
    nmod := if on then min 8 addrs.length else 1, blAddrs := if on then addrs.take 8 else [] } }

theorem boardLinkBreak_linked {d1 d2 : Bool} {pos : Nat} {addrs : List Nat} (h : (s.casc.bl1 || s.casc.bl2) = true) :
    boardLinkBreak d1 d2 pos addrs s = raiseEv 61 3 (boardLinkBroken d1 d2 pos addrs s) := if_neg (by simp [h])

theorem boardLinkBreak_unlinked {d1 d2 : Bool} {pos : Nat} {addrs : List Nat} (h : (s.casc.bl1 || s.casc.bl2) = false) :
    boardLinkBreak d1 d2 pos addrs s = s := if_pos (by simp [h])

/-! ## Envelopes sent -/

/-- Stamps have been offered to timestamp queues, and reports. -/
def stamped (s t : State) : Prop :=
  told s t ∧ t = { s with time := { s.time with stamps := t.time.stamps }, ev := t.ev, dict := t.dict }

theorem stamped_trans (h : stamped s t) (k : stamped t u) : stamped s u := by
  refine ⟨told_trans h.1 k.1, ?_⟩
  have e := k.2
  rw [h.2] at e
  exact e

theorem stamped_stamp (q sel : Nat) (e : StampEntry) (s : State) : stamped s (stamp q sel e s) := by
  refine ⟨told_stamp q sel e s, ?_⟩
  unfold stamp
  dsimp only
  split
  · rfl
  · split
    · rfl
    · split <;> rfl

/-- An envelope leaves once, on both paths (R478). -/
theorem stamped_sendEnvelope (peer : Nat) (e : Envelope) (s : State) :
    stamped { s with casc := { s.casc with sent := s.casc.sent ++ [(peer, e)] } } (sendEnvelope peer e s) :=
  stamped_trans (stamped_stamp _ _ _ _) (stamped_stamp _ _ _ _)

/-- What a lane-produced envelope sent on a connection is (R389, R477). -/
def laneSent (peer num kind pair epoch : Nat) (payload : List Byte) (s : State) : Envelope :=
  laneEnvelope (cascadeId 6 s.dict.modAddr peer num) pair (0x4000 + s.dict.modAddr % 4096) (nextSeq 6 peer num s).1
    (s.bus.counter % 0x100000000) epoch kind payload

theorem laneSent_fields (peer num kind pair epoch : Nat) (payload : List Byte) (s : State) :
    (laneSent peer num kind pair epoch payload s).kind = kind ∧
      (laneSent peer num kind pair epoch payload s).seq = (nextSeq 6 peer num s).1 ∧
      (laneSent peer num kind pair epoch payload s).stamp = s.bus.counter % 2 ^ 32 ∧
      (laneSent peer num kind pair epoch payload s).epoch = epoch ∧ (laneSent peer num kind pair epoch payload s).pair = pair ∧
      (laneSent peer num kind pair epoch payload s).payload = payload := by
  unfold laneSent laneEnvelope
  dsimp only
  split <;> exact ⟨rfl, rfl, rfl, rfl, rfl, rfl⟩

theorem stamped_sendLane (peer num kind pair epoch : Nat) (payload : List Byte) (s : State) :
    stamped { s with casc := { s.casc with
      txSeq := (nextSeq 6 peer num s).2.casc.txSeq, sent := s.casc.sent ++ [(peer, laneSent peer num kind pair epoch payload s)] } }
      (sendLane peer num kind pair epoch payload s) :=
  stamped_sendEnvelope peer (laneSent peer num kind pair epoch payload s) (nextSeq 6 peer num s).2

/-! ## Anchors -/

/-- An ANCHOR has left on a connection: it is open, and the bus cycle is noted. -/
def anchorNoted (peer num : Nat) (opening : Bool) (s : State) : State := { s with casc := { s.casc with
  anchored := if opening then s.casc.anchored ++ [(peer, num)] else s.casc.anchored
  anchorAt := s.casc.anchorAt.filter (fun x => !(x.1 = peer && x.2.1 = num)) ++ [(peer, num, s.bus.counter)] } }

theorem anchorNoted_anchored (peer num : Nat) (s : State) :
    (anchorNoted peer num (!s.casc.anchored.contains (peer, num)) s).casc.anchored.contains (peer, num) = true := by
  unfold anchorNoted
  cases held : s.casc.anchored.contains (peer, num) with
  | true => exact held
  | false => simp

theorem anchorSend_produced {peer num : Nat} {b : CascBlock × Nat} (hb : cascNow s = some b)
    (hp : (producedConns s).contains (peer, num) = true) : anchorSend peer num s =
      anchorNoted peer num (!s.casc.anchored.contains (peer, num))
        (sendLane peer num 0x94 b.2 s.pair.epoch (anchorPayload s (!s.casc.anchored.contains (peer, num))) s) := by
  unfold anchorSend
  rw [hb]
  exact if_neg (by rw [hp]; decide)

theorem anchorSend_unproduced {peer num : Nat} (hp : (producedConns s).contains (peer, num) = false) : anchorSend peer num s = s := by
  unfold anchorSend
  split
  · rfl
  · exact if_pos (by rw [hp]; rfl)

/-! ## Reference pairs -/

/-- A connection whose reference pair is replaced by the least delayed envelope since (R482). -/
def refRenewed (s : State) (c : ConnSt) : ConnSt :=
  { c with ref := (match c.best with | some b => some b | none => c.ref), best := none, refAt := s.bus.counter }

theorem referenceUpdate_due {kind peer num : Nat} {c : ConnSt} (h : findConn s kind peer num = some c)
    (hdue : c.refAt + 1024 ≤ s.bus.counter) : referenceUpdate kind peer num s = putConn (refRenewed s c) s := by
  unfold referenceUpdate
  rw [h]
  exact if_pos hdue

theorem referenceUpdate_early {kind peer num : Nat} {c : ConnSt} (h : findConn s kind peer num = some c)
    (hearly : s.bus.counter < c.refAt + 1024) : referenceUpdate kind peer num s = s := by
  unfold referenceUpdate
  rw [h]
  exact if_neg (Nat.not_le.mpr hearly)

end

/-- Settles O38: failed paths, the board link up and broken, anchors sent, reference pairs replaced. -/
theorem cascadePathsAndAnchors : Obligations.CascadePathsAndAnchors := by
  refine ⟨fun s n h1 h3 hf => ⟨fun hlate hother => ?_, fun hearly => congrArg Host.Outcome.next (pathFault_early hearly)⟩,
    fun s side pos addrs ring h1 h2 h8 hpos => ?_,
    fun s d1 d2 pos addrs => ⟨fun hl => ?_, fun hl => congrArg Host.Outcome.next (boardLinkBreak_unlinked hl)⟩,
    fun s peer num b hb => ⟨fun hp => ?_, fun hp => congrArg Host.Outcome.next (anchorSend_unproduced hp)⟩,
    fun s kind peer num c hc => ⟨fun hdue => ?_, fun hearly => congrArg Host.Outcome.next (referenceUpdate_early hc hearly)⟩⟩
  · exact ⟨_, congrArg Host.Outcome.next (pathFault_due h1 h3 hf hlate hother), raised_raiseEv (by decide), pathSt_pathFailed n s,
      fun m m1 m3 hne => pathSt_pathFailed_other s ⟨h1, h3⟩ ⟨m1, m3⟩ hne,
      told_congr (told_raiseEv 61 n (pathFailed n s)) rfl rfl rfl rfl, rfl⟩
  · refine ⟨_, congrArg Host.Outcome.next (boardLinkUp_eq ring h1 h2 h8 hpos), ?_⟩
    cases fault : (pathSt s 3).fault with
    | true =>
      exact ⟨rfl, rfl, rfl, rfl, rfl, rfl, rfl, fun _ => raised_raiseEv (by decide), fun h => Bool.noConfusion h,
        told_congr (told_raiseEv 61 3 _) rfl rfl rfl rfl, rfl⟩
    | false =>
      exact ⟨rfl, rfl, rfl, rfl, rfl, rfl, rfl, fun h => Bool.noConfusion h, fun _ => rfl, told_of_eq rfl rfl, rfl⟩
  · exact ⟨_, congrArg Host.Outcome.next (boardLinkBreak_linked hl), raised_raiseEv (by decide), rfl, rfl, rfl, rfl, rfl, rfl, rfl,
      told_congr (told_raiseEv 61 3 _) rfl rfl rfl rfl, rfl⟩
  · obtain ⟨told, frame⟩ :=
      stamped_sendLane peer num 0x94 b.2 s.pair.epoch (anchorPayload s (!s.casc.anchored.contains (peer, num))) s
    obtain ⟨kind, seq, stampV, epoch, pair, payload⟩ := laneSent_fields peer num 0x94 b.2 s.pair.epoch
      (anchorPayload s (!s.casc.anchored.contains (peer, num))) s
    have sends := anchorSend_produced hb hp
    generalize sendLane peer num 0x94 b.2 s.pair.epoch (anchorPayload s (!s.casc.anchored.contains (peer, num))) s = u at told frame sends
    have anchored : u.casc.anchored = s.casc.anchored := by rw [frame]
    have counter : u.bus.counter = s.bus.counter := by rw [frame]
    refine ⟨_, _, congrArg Host.Outcome.next sends, ?_, kind, seq, stampV, epoch, pair, payload, ?_, ?_,
      told_congr told rfl rfl rfl rfl, ?_⟩
    · show u.casc.sent = _
      rw [frame]
    · rw [← anchored]
      exact anchorNoted_anchored peer num u
    · rw [← counter]
      exact List.mem_append_right _ (List.mem_singleton_self _)
    · unfold anchorNoted
      rw [frame]
  · obtain ⟨rfl, rfl, rfl⟩ : c.kind = kind ∧ c.peer = peer ∧ c.num = num := by simpa using findConn_ident hc
    exact ⟨_, congrArg Host.Outcome.next (referenceUpdate_due hc hdue), findConn_putConn (c := refRenewed s c),
      fun k p n hne => findConn_putConn_other (c := refRenewed s c) (by simpa [refRenewed] using hne), rfl⟩

end Sys2Proof.Proofs
end

section
/-! PROOFS. What bars a session from a function of the commons before the function is looked at: SESSION, LEVEL, KEY (R436, R546, R552,
Table 14.6). -/

namespace Sys2Proof.Proofs

open Sys2Proof Sys2Proof.Machine Sys2Proof.Laws

/-- SESSION, whatever is asked for. -/
theorem asSession_closed {s : State} {n : Nat} (min : Level) (key : Bool) (f : State → State × Nat × List Byte)
    (ho : (sessOf s n).opened = false) : asSession n min key f s = withResult (rSession, []) s := by
  have closed := sessRefusal_closed min key ho
  rw [asSession_refused f (by rw [closed]; decide), closed]

/-- A command that a session gives: a function of the commons behind the check of the session. -/
def givenBySession (s : State) (n : Nat) (p : Instr × Level × Bool) : Prop :=
  ∃ f, exec p.1 s = .next (asSession n p.2.1 p.2.2 f s)

/-- What a session below a command's demands is answered, the first demand that fails deciding (Table 14.6). -/
theorem givenBySession_refused {s : State} {n : Nat} {c : Instr} {min : Level} {key : Bool} (h : givenBySession s n (c, min, key)) :
    ((sessOf s n).opened = false → exec c s = .next (withResult (rSession, []) s)) ∧
    ((sessOf s n).opened = true → levelRank (sessOf s n).level < levelRank min → exec c s = .next (withResult (rLevel, []) s)) ∧
    ((sessOf s n).opened = true → levelRank min ≤ levelRank (sessOf s n).level → key = true → s.lio.key = false →
      exec c s = .next (withResult (rKey, []) s)) := by
  obtain ⟨f, runs⟩ := h
  refine ⟨fun closed => ?_, fun opened low => ?_, fun opened level keyed inactive => ?_⟩
  · rw [runs, asSession_closed min key f closed]
  · rw [runs, asSession_low key f opened low]
  · subst keyed
    rw [runs, asSession_keyInactive ⟨opened, level, nofun⟩ inactive]

/-- Settles O47: each of the commands is a function behind the check of the session. -/
theorem functionsNeedTheirSession : Obligations.FunctionsNeedTheirSession := by
  intro s n v w x l d i c min key listed
  refine givenBySession_refused ((?given : ∀ p ∈ _, givenBySession s n p) _ listed)
  simp only [List.forall_mem_cons]
  exact ⟨⟨bookReadFn n, rfl⟩, ⟨bookSeekFn n v, rfl⟩, ⟨chestReadFn n true, rfl⟩, ⟨chestReadFn n false, rfl⟩, ⟨snapReadFn n, rfl⟩,
    ⟨eventRecordFn n, rfl⟩, ⟨forceRecordFn n, rfl⟩, ⟨crcSelectFn n v, rfl⟩, ⟨crcDataFn n d, rfl⟩, ⟨crcValueFn n v, rfl⟩,
    ⟨chestClearFn n v, rfl⟩, ⟨corrReply (offsetInc x), rfl⟩, ⟨corrReply (rateInc x), rfl⟩, ⟨corrReply (stepTime x), rfl⟩,
    ⟨ackRefusalFn, rfl⟩, ⟨withdrawFn l, rfl⟩, ⟨returnFn l, rfl⟩, ⟨resyncFn, rfl⟩, ⟨handOverFn, rfl⟩, ⟨coldHandOverFn, rfl⟩,
    ⟨voteFn none v w, rfl⟩, ⟨testStopFn v, rfl⟩, ⟨takeOutFn v, rfl⟩, ⟨restartHalfFn v i, rfl⟩, ⟨clockRestoreFn v, rfl⟩,
    ⟨wakeRetryFn v, rfl⟩, ⟨confirmFn v, rfl⟩, ⟨updateOpenFn, rfl⟩, ⟨updateAbandonFn, rfl⟩, ⟨bufferWindowFn d, rfl⟩,
    ⟨installRollingFn, rfl⟩, ⟨installAllFn, rfl⟩, ⟨installStopFn, rfl⟩, fun _ none_ => absurd none_ List.not_mem_nil⟩

end Sys2Proof.Proofs
end

section
/-! PROOFS. Input pairs (R421 to R425, R436, R440): faults latched in a half, a supply's pairs, discrepancy and chatter, acknowledgement of
pairs and of the key; RESET stuck (R435). -/

namespace Sys2Proof.Proofs

open Sys2Proof Sys2Proof.Machine Sys2Proof.Laws

section
variable {s t : State} {h k : Half} {n m : Nat} {code : FCode}

/-! ## A pair changed -/

theorem pairOf_modPair (h k : Half) (n m : Nat) (f : PairSt → PairSt) (s : State) :
    pairOf (modPair h n f s) k m = if k = h ∧ m = n then f (pairOf s h n) else pairOf s k m := by
  unfold pairOf modPair
  by_cases hk : k = h
  · subst hk
    by_cases hm : m = n
    · subst hm
      simp
    · simp [hm, tabGet_mod_other]
  · simp [hk, twoGet_mod_other]

theorem modPair_otherHalf (h : Half) (n : Nat) (f : PairSt → PairSt) (s : State) :
    twoGet (modPair h n f s).lio.pairs (otherHalf h) = twoGet s.lio.pairs (otherHalf h) :=
  twoGet_mod_other _ _ (otherHalf_ne h)

theorem reported_lio (r : reported s t) : t.lio = s.lio := by rw [r.2]

theorem pairOf_congr (e : t.lio.pairs = s.lio.pairs) (k : Half) (m : Nat) : pairOf t k m = pairOf s k m := by
  unfold pairOf
  rw [e]

/-- Changing each pair of a list, by a change that has its whole effect the first time, while the time stands still. -/
theorem pairOf_foldl {g : State → Nat → State} {f : Half → Nat → Nat → PairSt → PairSt} (hns : ∀ s n, (g s n).ns = s.ns)
    (hg : ∀ s n k m, pairOf (g s n) k m = if m = n then f k s.ns n (pairOf s k n) else pairOf s k m)
    (hf : ∀ k ns n p, f k ns n (f k ns n p) = f k ns n p) (k : Half) (m : Nat) (l : List Nat) :
    ∀ s : State, pairOf (l.foldl g s) k m = if m ∈ l then f k s.ns m (pairOf s k m) else pairOf s k m := by
  induction l with
  | nil => exact fun s => (if_neg List.not_mem_nil).symm
  | cons n l ih =>
    intro s
    rw [List.foldl_cons, ih, hg, hns]
    by_cases hm : m = n
    · subst hm
      simp [hf]
    · simp [hm]

/-! ## A fault latched -/

/-- A pair after a supervision fault of its own, the first cause staying (R422). -/
def latched (code : FCode) (ns : Nat) (p : PairSt) : PairSt :=
  { p with fcode := if p.fcode = .none then code else p.fcode, cleanFrom := ns }

theorem latched_fcode_ne_none (hc : code ≠ .none) (ns : Nat) (p : PairSt) : (latched code ns p).fcode ≠ .none := by
  unfold latched
  dsimp only
  split <;> assumption

/-- A faulty pair reads its restrictive value, as substituted (Table 11.5). -/
theorem pairValue_of_fault {p : PairSt} (hp : p.fcode ≠ .none) (r : PairRec) : pairValue r p = (r.rval, true) := if_pos (by simp [hp])

/-- The fault entered at its pair, a fault of the key with KFAULT (R436). -/
def faultAt (h : Half) (n : Nat) (code : FCode) (s : State) : State :=
  let t := modPair h n (latched code s.ns) s
  if n = keyPair then { t with lio := { t.lio with kfault := true, key := false } } else t

theorem latchPair_eq (h : Half) (n : Nat) (code : FCode) (s : State) :
    latchPair h n code s = raiseRec 39 n (fcodeNo code) (bookHalf h) 0xFFFF (be 1 n ++ be 1 (fcodeNo code)) (faultAt h n code s) := rfl

theorem latchPair_lio (h : Half) (n : Nat) (code : FCode) (s : State) : (latchPair h n code s).lio = (faultAt h n code s).lio :=
  reported_lio (reported_raiseRec _ _ _ _ _ _ _)

/-- The pairs have changed, with KFAULT and the key, and reports. -/
def pairsReported (s t : State) : Prop :=
  reported { s with lio := { s.lio with pairs := t.lio.pairs, kfault := t.lio.kfault, key := t.lio.key } } t

theorem pairsReported_refl (s : State) : pairsReported s s := reported_refl s

theorem pairsReported_trans {u : State} (a : pairsReported s t) (b : pairsReported t u) : pairsReported s u := by
  refine ⟨told_trans (told_congr a.1 rfl rfl rfl rfl) (told_congr b.1 rfl rfl rfl rfl), ?_⟩
  have e := b.2
  rw [a.2] at e
  exact e

/-- What latching faults in a half keeps: the other half, the rest of the module, what pends; and KFAULT does not fall. -/
structure LatchKept (h : Half) (s t : State) : Prop where
  half : twoGet t.lio.pairs (otherHalf h) = twoGet s.lio.pairs (otherHalf h)
  kfault : s.lio.kfault = true ∧ s.lio.key = false → t.lio.kfault = true ∧ t.lio.key = false
  pend : s.raised 39 → t.raised 39
  frame : pairsReported s t

theorem LatchKept.refl (h : Half) (s : State) : LatchKept h s s := ⟨rfl, id, id, pairsReported_refl s⟩

theorem LatchKept.trans {u : State} (a : LatchKept h s t) (b : LatchKept h t u) : LatchKept h s u :=
  ⟨b.half.trans a.half, b.kfault ∘ a.kfault, b.pend ∘ a.pend, pairsReported_trans a.frame b.frame⟩

theorem pairOf_latchPair (h : Half) (code : FCode) (s : State) (n : Nat) (k : Half) (m : Nat) :
    pairOf (latchPair h n code s) k m =
      if m = n then (if k = h then latched code s.ns (pairOf s k n) else pairOf s k n) else pairOf s k m := by
  have entered : pairOf (latchPair h n code s) k m = pairOf (modPair h n (latched code s.ns) s) k m := by
    unfold pairOf
    rw [latchPair_lio]
    unfold faultAt
    split <;> rfl
  rw [entered, pairOf_modPair]
  by_cases hm : m = n
  · subst hm
    by_cases hk : k = h
    · simp [hk]
    · simp [hk]
  · simp [hm]

theorem latchPair_raised (h : Half) (n : Nat) (code : FCode) (s : State) : (latchPair h n code s).raised 39 := raised_raiseRec (by decide)

theorem latchPair_key (h : Half) (code : FCode) (s : State) :
    (latchPair h keyPair code s).lio.kfault = true ∧ (latchPair h keyPair code s).lio.key = false := by
  rw [latchPair_lio]
  exact ⟨rfl, rfl⟩

theorem latchPair_notKey (hn : n ≠ keyPair) (h : Half) (code : FCode) (s : State) :
    (latchPair h n code s).lio.kfault = s.lio.kfault ∧ (latchPair h n code s).lio.key = s.lio.key := by
  rw [latchPair_lio, faultAt, if_neg hn]
  exact ⟨rfl, rfl⟩

theorem latchKept_latchPair (h : Half) (n : Nat) (code : FCode) (s : State) : LatchKept h s (latchPair h n code s) where
  half := by
    rw [latchPair_lio]
    unfold faultAt
    split
    · exact modPair_otherHalf h n _ s
    · exact modPair_otherHalf h n _ s
  kfault before := by
    by_cases hn : n = keyPair
    · subst hn
      exact latchPair_key h code s
    · obtain ⟨kfault, key⟩ := latchPair_notKey hn h code s
      rw [kfault, key]
      exact before
  pend _ := latchPair_raised h n code s
  frame := by
    unfold pairsReported
    rw [latchPair_lio, latchPair_eq]
    have entered : { s with lio := { s.lio with
        pairs := (faultAt h n code s).lio.pairs, kfault := (faultAt h n code s).lio.kfault, key := (faultAt h n code s).lio.key } } =
        faultAt h n code s := by
      unfold faultAt
      split <;> rfl
    rw [entered]
    exact reported_raiseRec _ _ _ _ _ _ _

theorem latchPair_ns (h : Half) (n : Nat) (code : FCode) (s : State) : (latchPair h n code s).ns = s.ns := by
  rw [(latchKept_latchPair h n code s).frame.2]

/-! ## A fault of a supply -/

/-- A fault latched in every pair of a list. -/
def latchAll (h : Half) (code : FCode) (l : List Nat) (s : State) : State := l.foldl (fun s n => latchPair h n code s) s

theorem latched_latched (code : FCode) (ns : Nat) (p : PairSt) : latched code ns (latched code ns p) = latched code ns p := by
  unfold latched
  by_cases hp : p.fcode = .none
  · simp [hp]
  · simp [hp]

theorem pairOf_latchAll (h : Half) (code : FCode) (l : List Nat) (s : State) (m : Nat) :
    pairOf (latchAll h code l s) h m = if m ∈ l then latched code s.ns (pairOf s h m) else pairOf s h m := by
  have each := pairOf_foldl (g := fun s n => latchPair h n code s) (f := fun k ns _ p => if k = h then latched code ns p else p)
    (fun s n => latchPair_ns h n code s) (pairOf_latchPair h code) (fun k ns _ p => by split <;> simp [latched_latched]) h m l s
  rw [latchAll, each, if_pos rfl]

theorem latchKept_latchAll (h : Half) (code : FCode) (l : List Nat) (s : State) : LatchKept h s (latchAll h code l s) :=
  foldl_frame (P := LatchKept h s) (fun u n kept => kept.trans (latchKept_latchPair h n code u)) l (LatchKept.refl h s)

theorem latchAll_raised {l : List Nat} (hm : m ∈ l) (h : Half) (code : FCode) (s : State) : (latchAll h code l s).raised 39 := by
  obtain ⟨before, after, rfl⟩ := List.append_of_mem hm
  unfold latchAll
  rw [List.foldl_append, List.foldl_cons]
  exact (latchKept_latchAll h code after _).pend (latchPair_raised h m code _)

/-- A list with the key in it sets KFAULT (R436). -/
theorem latchAll_key {l : List Nat} (hm : keyPair ∈ l) (h : Half) (code : FCode) (s : State) :
    (latchAll h code l s).lio.kfault = true ∧ (latchAll h code l s).lio.key = false := by
  obtain ⟨before, after, rfl⟩ := List.append_of_mem hm
  unfold latchAll
  rw [List.foldl_append, List.foldl_cons]
  exact (latchKept_latchAll h code after _).kfault (latchPair_key h code _)

theorem keyPair_mem_supplyPairs {tp : Nat} (htp : 3 ≤ tp) : keyPair ∈ supplyPairs tp := by
  unfold supplyPairs
  rw [if_neg (by omega)]
  decide

theorem supplyPairs_ne_nil (tp : Nat) : ∃ m, m ∈ supplyPairs tp := by
  unfold supplyPairs
  split
  · exact ⟨1, by decide⟩
  · exact ⟨10, by decide⟩

/-- The cause kept with its supply (object 0x3302). -/
def supplyCause (tp cause : Nat) (s : State) : State :=
  { s with lio := { s.lio with tps := tabMod s.lio.tps tp ⟨true, 0, 0⟩ (fun x => { x with cause := cause }) } }

theorem supplyCause_cause (tp cause : Nat) (s : State) :
    (tabGet (supplyCause tp cause s).lio.tps tp ⟨true, 0, 0⟩).cause = cause := by
  simp [supplyCause]

/-! ## Rows of a half in service -/

theorem exec_pairFault (hin : (twoGet s.halves h).inServ = true) (h1 : 1 ≤ n) (h17 : n ≤ 17)
    (hc : code = .pulseA ∨ code = .pulseB ∨ code = .foreign) :
    exec (.inputSupervisionFault h n code 0 0) s = .next (latchPair h n code s) := by
  have named : n ≠ 0 ∧ ¬ keyPair < n := by unfold keyPair; omega
  rcases hc with rfl | rfl | rfl <;> simp [exec, execInputSupervisionFault, supervisionFault, hin, named]

theorem exec_supplyFault {tp cause : Nat} (hin : (twoGet s.halves h).inServ = true) (h1 : 1 ≤ tp) (h4 : tp ≤ 4) (c1 : 1 ≤ cause)
    (c3 : cause ≤ 3) :
    exec (.inputSupervisionFault h 0 .supply tp cause) s = .next (latchAll h .supply (supplyPairs tp) (supplyCause tp cause s)) := by
  have known : (tp = 0 || 4 < tp || cause = 0 || 3 < cause) = false := by
    have : tp ≠ 0 ∧ ¬ 4 < tp ∧ cause ≠ 0 ∧ ¬ 3 < cause := by omega
    simp [this]
  simp only [exec, execInputSupervisionFault, supervisionFault, hin, known, Bool.not_true, Bool.false_eq_true, if_false]
  rfl

/-- A discrepancy is looked at while no fault is latched (R424). -/
theorem exec_discrepancy {r : PairRec} {t0 : Nat} (hin : (twoGet s.halves h).inServ = true) (hr : pairRec s.cfg n = some r)
    (ht : (pairOf s h n).discFrom = some t0) (hf : (pairOf s h n).fcode = .none) :
    exec (.discrepancy h n) s = .next (if t0 + r.discMs * 1000000 < s.ns then latchPair h n .discrepancy s else s) := by
  simp [exec, execDiscrepancy, discrepancyRow, hr, ht, hin, hf]

/-- A pair that chatters, at its restrictive value (R425). -/
def chatters (h : Half) (n : Nat) (r : PairRec) (s : State) : State := modPair h n (fun p => { p with chat := true, filtered := r.rval }) s

theorem exec_chattering {r : PairRec} (hin : (twoGet s.halves h).inServ = true) (hr : pairRec s.cfg n = some r)
    (hc : (pairOf s h n).chat = false) :
    exec (.chattering h n) s = .next (if (pairFilter s.cfg r).limit < changesNow s (pairFilter s.cfg r) (pairOf s h n) then
      raiseRec 39 n 6 (bookHalf h) 0xFFFF (be 1 n) (chatters h n r s) else s) := by
  simp [exec, execChattering, chatteringRow, hr, hin, hc, tooMany, chatters]

/-! ## Acknowledgement -/

/-- A pair as an acknowledgement leaves it: without its fault once 8 pulse periods have not seen it (R422). -/
def cleared (ns : Nat) (p : PairSt) : PairSt := if p.cleanFrom + 16000000 ≤ ns ∧ p.discFrom = none then { p with fcode := .none } else p

theorem clearPair_eq (s : State) (p : PairSt) : clearPair s p = cleared s.ns p := by
  unfold clearPair cleared cleanNs
  simp

theorem cleared_cleared (ns : Nat) (p : PairSt) : cleared ns (cleared ns p) = cleared ns p := by
  unfold cleared
  by_cases hp : p.cleanFrom + 16000000 ≤ ns ∧ p.discFrom = none
  · simp [hp]
  · rw [if_neg hp, if_neg hp]

/-- A pair cleared in both halves. -/
def clearBoth (n : Nat) (s : State) : State := modPair .b n (clearPair s) (modPair .a n (clearPair s) s)

theorem pairOf_clearBoth (n : Nat) (s : State) (k : Half) (m : Nat) :
    pairOf (clearBoth n s) k m = if m = n then cleared s.ns (pairOf s k n) else pairOf s k m := by
  unfold clearBoth
  rw [pairOf_modPair, pairOf_modPair, pairOf_modPair, ← clearPair_eq]
  by_cases hm : m = n
  · subst hm
    cases k <;> simp
  · simp [hm]

/-- A pair cleared when the mask names it. -/
def ackPair (mask : Nat) (s : State) (n : Nat) : State := if bit mask (n - 1) then clearBoth n s else s

theorem pairOf_ackPair (mask : Nat) (s : State) (n : Nat) (k : Half) (m : Nat) :
    pairOf (ackPair mask s n) k m =
      if m = n then (if bit mask (n - 1) then cleared s.ns (pairOf s k n) else pairOf s k n) else pairOf s k m := by
  unfold ackPair
  split
  · exact pairOf_clearBoth n s k m
  · split
    · next e => rw [e]
    · rfl

theorem ackPair_ns (mask : Nat) (s : State) (n : Nat) : (ackPair mask s n).ns = s.ns := by
  unfold ackPair
  split <;> rfl

/-- The pairs acknowledged. -/
def pairsAcked (mask : Nat) (s : State) : State := ((List.range 16).map (· + 1)).foldl (ackPair mask) s

theorem ackPairsFn_eq (mask : Nat) (s : State) : ackPairsFn mask s = (pairsAcked mask s, rOk, []) := by
  unfold pairsAcked
  rw [List.foldl_map]
  rfl

theorem pairsAcked_eq (mask : Nat) (s : State) :
    pairsAcked mask s = { s with lio := { s.lio with pairs := (pairsAcked mask s).lio.pairs } } := by
  refine foldl_frame (P := fun t => t = { s with lio := { s.lio with pairs := t.lio.pairs } }) (fun t k ht => ?_) _ rfl
  unfold ackPair
  split
  · rw [ht]
    rfl
  · exact ht

theorem pairOf_pairsAcked (mask : Nat) (s : State) (k : Half) (m : Nat) :
    pairOf (pairsAcked mask s) k m = if m ∈ (List.range 16).map (· + 1) then
      (if bit mask (m - 1) then cleared s.ns (pairOf s k m) else pairOf s k m) else pairOf s k m :=
  pairOf_foldl (f := fun _ ns n p => if bit mask (n - 1) then cleared ns p else p) (fun s n => ackPair_ns mask s n) (pairOf_ackPair mask)
    (fun _ ns n p => by split <;> simp [cleared_cleared]) k m _ s

theorem pairOf_pairsAcked_named (mask : Nat) (s : State) (k : Half) {i : Nat} (hi : i < 16) :
    pairOf (pairsAcked mask s) k (i + 1) =
      if bit mask i = true ∧ (pairOf s k (i + 1)).cleanFrom + 16000000 ≤ s.ns ∧ (pairOf s k (i + 1)).discFrom = none
      then { pairOf s k (i + 1) with fcode := .none } else pairOf s k (i + 1) := by
  rw [pairOf_pairsAcked, if_pos (List.mem_map_of_mem (List.mem_range.mpr hi)), Nat.add_sub_cancel, ite_and]
  rfl

theorem pairOf_pairsAcked_other (mask : Nat) (s : State) (k : Half) (hm : m = 0 ∨ 16 < m) :
    pairOf (pairsAcked mask s) k m = pairOf s k m := by
  rw [pairOf_pairsAcked, if_neg]
  simp only [List.mem_map, List.mem_range, not_exists, not_and]
  omega

/-- Some half still holds a fault of the key. -/
def keyFaulty (s : State) : Bool := allHalves.any (fun h => decide ((pairOf s h keyPair).fcode ≠ .none))

theorem keyFaulty_of (hf : (pairOf s h keyPair).fcode ≠ .none) : keyFaulty s = true :=
  List.any_eq_true.mpr ⟨h, by cases h <;> decide, decide_eq_true hf⟩

theorem keyFaulty_none (hf : ∀ h, (pairOf s h keyPair).fcode = .none) : keyFaulty s = false := by simp [keyFaulty, hf]

/-- KFAULT set or not. -/
def kfaultPut (b : Bool) (s : State) : State := { s with lio := { s.lio with kfault := b } }

theorem pairOf_kfaultPut (b : Bool) (s : State) (k : Half) (m : Nat) : pairOf (kfaultPut b s) k m = pairOf s k m := rfl

/-- The key acknowledged: KFAULT stays while a half holds a fault of it (R436). -/
def keyAcked (s : State) : State := kfaultPut (s.lio.kfault && keyFaulty (clearBoth keyPair s)) (clearBoth keyPair s)

theorem ackKeyFn_eq (s : State) : ackKeyFn s = (keyAcked s, rOk, []) := rfl

theorem pairOf_keyAcked (s : State) (k : Half) (m : Nat) :
    pairOf (keyAcked s) k m = if m = keyPair then cleared s.ns (pairOf s k keyPair) else pairOf s k m :=
  (pairOf_kfaultPut _ _ k m).trans (pairOf_clearBoth keyPair s k m)

theorem keyAcked_eq (s : State) :
    keyAcked s = { s with lio := { s.lio with pairs := (keyAcked s).lio.pairs, kfault := (keyAcked s).lio.kfault } } := rfl

theorem keyFaulty_kfaultPut (b : Bool) (s : State) : keyFaulty (kfaultPut b s) = keyFaulty s := rfl

theorem keyAcked_kfault (s : State) : (keyAcked s).lio.kfault = (s.lio.kfault && keyFaulty (keyAcked s)) := by
  rw [keyAcked, keyFaulty_kfaultPut]
  rfl

/-! ## RESET -/

theorem resetStuck_long (hl : s.lio.resetLevel = true) (hr : s.lio.rstuck = false) (long : s.lio.resetSince + 10000000000 < s.ns) :
    resetStuck s = raiseRec 39 noDetail 7 3 0xFFFF [] { s with lio := { s.lio with rstuck := true } } := by
  have due : s.lio.resetSince + 10 * secNs < s.ns := long
  exact if_pos (by simp [hl, hr, due])

theorem resetStuck_short (short : s.ns ≤ s.lio.resetSince + 10000000000) : resetStuck s = s := by
  have early : ¬ s.lio.resetSince + 10 * secNs < s.ns := Nat.not_lt.mpr short
  exact if_neg (by simp [early])

theorem rstuckClear_long (hl : s.lio.resetLevel = false) (long : s.lio.resetSince + 1000000000 ≤ s.ns) :
    rstuckClear s = { s with lio := { s.lio with rstuck := false } } := by
  have due : s.lio.resetSince + secNs ≤ s.ns := long
  exact if_pos (by simp [hl, due])

theorem rstuckClear_short (short : s.ns < s.lio.resetSince + 1000000000) : rstuckClear s = s := by
  have early : ¬ s.lio.resetSince + secNs ≤ s.ns := Nat.not_le.mpr short
  exact if_neg (by simp [early])

end

/-! ## The rows -/

/-- What a latched fault makes of its pair and leaves of the others (R422). -/
theorem latchPair_pairs (h : Half) (n : Nat) (code : FCode) (s : State) :
    pairOf (latchPair h n code s) h n = latched code s.ns (pairOf s h n) ∧
    ∀ m, m ≠ n → pairOf (latchPair h n code s) h m = pairOf s h m :=
  ⟨(pairOf_latchPair h code s n h n).trans (by simp), fun m hm => (pairOf_latchPair h code s n h m).trans (if_neg hm)⟩

/-- Settles O33: faults of pairs and of supplies, discrepancy, chatter, acknowledgement, RESET stuck. -/
theorem inputPairs : Obligations.InputPairs := by
  refine ⟨fun s h n code hin h1 h17 hc => ?_, fun s h tp cause hin h1 h4 c1 c3 => ?_,
    fun s h n r t0 hin hr ht hf => ⟨fun late => ?_, fun early => ?_⟩,
    fun s h n r hin hr hc => ⟨fun many => ?_, fun few => ?_⟩, fun s n mask ha => ?_, fun s n ha => ?_,
    fun s hl hr => ⟨fun long => ?_, fun short => ?_⟩, fun s hl => ⟨fun long => ?_, fun short => ?_⟩⟩
  · obtain ⟨own, others⟩ := latchPair_pairs h n code s
    obtain ⟨half, -, -, frame⟩ := latchKept_latchPair h n code s
    have fault : code ≠ .none := by rcases hc with rfl | rfl | rfl <;> decide
    refine ⟨_, exec_pairFault hin h1 h17 hc, latchPair_raised h n code s, own, fun r => ?_, others, half, ?_,
      fun hn => latchPair_notKey hn h code s, frame⟩
    · rw [own]
      exact pairValue_of_fault (latched_fcode_ne_none fault _ _) r
    · rintro rfl
      exact latchPair_key h code s
  · obtain ⟨half, -, -, frame⟩ := latchKept_latchAll h .supply (supplyPairs tp) (supplyCause tp cause s)
    obtain ⟨m, hm⟩ := supplyPairs_ne_nil tp
    have tps : (latchAll h .supply (supplyPairs tp) (supplyCause tp cause s)).lio.tps = (supplyCause tp cause s).lio.tps := by
      rw [frame.2]
    have pairs := pairOf_latchAll h .supply (supplyPairs tp) (supplyCause tp cause s)
    refine ⟨_, exec_supplyFault hin h1 h4 c1 c3, latchAll_raised hm h _ _, fun n hn => ?_, fun n hn => ?_, half, ?_,
      fun key => latchAll_key (keyPair_mem_supplyPairs key) h _ _, ?_⟩
    · rw [pairs n, if_pos hn]
      rfl
    · rw [pairs n, if_neg hn]
      rfl
    · rw [tps]
      exact supplyCause_cause tp cause s
    · rw [tps]
      exact frame
  · obtain ⟨own, others⟩ := latchPair_pairs h n .discrepancy s
    obtain ⟨half, -, -, frame⟩ := latchKept_latchPair h n .discrepancy s
    refine ⟨_, (exec_discrepancy hin hr ht hf).trans (congrArg Host.Outcome.next (if_pos late)), latchPair_raised h n _ s, ?_, others,
      half, frame⟩
    rw [own, latched, if_pos hf]
  · exact (exec_discrepancy hin hr ht hf).trans (congrArg Host.Outcome.next (if_neg (Nat.not_lt.mpr early)))
  · have told := reported_raiseRec 39 n 6 (bookHalf h) 0xFFFF (be 1 n) (chatters h n r s)
    have lio := reported_lio told
    refine ⟨_, (exec_chattering hin hr hc).trans (congrArg Host.Outcome.next (if_pos many)), raised_raiseRec (by decide), ?_,
      fun m hm => ?_, ?_, ?_⟩
    · rw [pairOf_congr (congrArg LioSt.pairs lio), chatters, pairOf_modPair, if_pos ⟨rfl, rfl⟩]
    · rw [pairOf_congr (congrArg LioSt.pairs lio), chatters, pairOf_modPair, if_neg fun e => hm e.2]
    · rw [lio]
      exact modPair_otherHalf h n _ s
    · rw [lio]
      exact told
  · exact (exec_chattering hin hr hc).trans (congrArg Host.Outcome.next (if_neg (Nat.not_lt.mpr few)))
  · exact ⟨_, next_asSession ha (ackPairsFn_eq mask s), fun h i hi => pairOf_pairsAcked_named mask s h hi,
      fun h m hm => pairOf_pairsAcked_other mask s h hm, congrArg (withResult (0, [])) (pairsAcked_eq mask s)⟩
  · have key : ∀ h, pairOf (keyAcked s) h 17 = cleared s.ns (pairOf s h 17) := fun h => (pairOf_keyAcked s h 17).trans (if_pos rfl)
    refine ⟨_, next_asSession ha (ackKeyFn_eq s), fun clean => ?_, fun h faulty recent => ?_, fun h m hm => ?_,
      congrArg (withResult (0, [])) (keyAcked_eq s)⟩
    · have none_ : ∀ h, (pairOf (keyAcked s) h 17).fcode = .none := fun h => by rw [key, cleared, if_pos (clean h)]
      refine ⟨?_, none_⟩
      rw [withResult_lio, keyAcked_kfault, keyFaulty_none none_, Bool.and_false]
    · have same : pairOf (keyAcked s) h 17 = pairOf s h 17 := by rw [key, cleared, if_neg fun e => absurd e.1 (Nat.not_le.mpr recent)]
      refine ⟨congrArg PairSt.fcode same, ?_⟩
      have still : (pairOf (keyAcked s) h 17).fcode ≠ .none := by rwa [same]
      rw [withResult_lio, keyAcked_kfault, keyFaulty_of still, Bool.and_true]
    · exact (pairOf_keyAcked s h m).trans (if_neg hm)
  · exact ⟨_, congrArg Host.Outcome.next (resetStuck_long hl hr long), raised_raiseRec (by decide), reported_raiseRec _ _ _ _ _ _ _⟩
  · exact congrArg Host.Outcome.next (resetStuck_short short)
  · exact congrArg Host.Outcome.next (rstuckClear_long hl long)
  · exact congrArg Host.Outcome.next (rstuckClear_short short)

end Sys2Proof.Proofs
end

section
/-! PROOFS. What a start-up shares with faults and restarts: a lane dropped, a half disabled and the restrictive state leave the power
state, the MATCH seen and what pends (R42, R226, R244); Failed-wake (R607, R608); the routes of a cold restart (R88). -/

namespace Sys2Proof.Proofs

open Sys2Proof Sys2Proof.Machine Sys2Proof.Laws

section
variable {s t : State} {h k : Half}

/-! ## What exclusions leave of a start-up -/

/-- The power state and the MATCH seen are as before, and what pends still does. -/
structure StartKept (s t : State) : Prop where
  power : t.power = s.power
  matchAny : t.vote.matchAny = s.vote.matchAny
  pend : ∀ e, s.raised e → t.raised e

theorem StartKept.refl (s : State) : StartKept s s := ⟨rfl, rfl, fun _ => id⟩

theorem StartKept.trans {u : State} (a : StartKept s t) (b : StartKept t u) : StartKept s u :=
  ⟨b.power.trans a.power, b.matchAny.trans a.matchAny, fun e => b.pend e ∘ a.pend e⟩

theorem StartKept.of_eq (power : t.power = s.power) (vote : t.vote.matchAny = s.vote.matchAny) (ev : t.ev = s.ev) : StartKept s t :=
  ⟨power, vote, fun e h => by unfold State.raised; rw [ev]; exact h⟩

theorem StartKept.of_reported (r : reported s t) (pend : ∀ e, s.raised e → t.raised e) : StartKept s t :=
  ⟨by rw [r.2], by rw [r.2], pend⟩

theorem StartKept.raiseEv (kept : StartKept s t) (e d : Nat) : StartKept s (raiseEv e d t) :=
  ⟨kept.power, kept.matchAny, fun k h => raised_mono (kept.pend k h)⟩

theorem startKept_raiseRec (e d c f w : Nat) (l : List Byte) (s : State) : StartKept s (raiseRec e d c f w l s) :=
  .of_reported (reported_raiseRec e d c f w l s) fun _ h => raised_bookPut (raised_mono h)

theorem startKept_chestWrite (kind source code : Nat) (detail : List Byte) (s : State) :
    StartKept s (chestWrite kind source code detail s) :=
  .of_reported (reported_chestWrite kind source code detail s) fun _ => raised_chestWrite

theorem startKept_snapshot (s : State) : StartKept s (snapshot s) := by
  rw [snapshot_eq]
  exact .of_eq rfl rfl rfl

theorem startKept_dropLane (l : Lane) (reason block : Nat) (detail : List Byte) (s : State) :
    StartKept s (dropLane l reason block detail s) := by
  have e := (dropLane_eq l reason block detail s).2
  exact ⟨by rw [e], by rw [e], fun _ => raised_dropLane_mono⟩

theorem startKept_dropLanes (ls : List Lane) (reason block : Nat) (detail : List Byte) (s : State) :
    StartKept s (ls.foldl (fun s l => dropLane l reason block detail s) s) :=
  foldl_frame (P := StartKept s) (fun u l kept => kept.trans (startKept_dropLane l reason block detail u)) ls (StartKept.refl s)

theorem startKept_dropPending (s : State) : StartKept s (dropPending s) := by
  unfold dropPending
  split
  · apply StartKept.raiseEv
    exact .of_eq rfl rfl rfl
  · exact .refl s

theorem startKept_abortChange (code : Nat) (s : State) : StartKept s (abortChange code s) := by
  unfold abortChange
  split
  · apply StartKept.raiseEv
    exact .of_eq rfl rfl rfl
  · exact .refl s

theorem startKept_abortModeSwitch (s : State) : StartKept s (abortModeSwitch s) := by
  unfold abortModeSwitch
  split
  · split
    · exact .refl s
    · apply StartKept.raiseEv
      exact .of_eq rfl rfl rfl
  · exact .refl s

theorem startKept_enterRestrictive (s : State) : StartKept s (enterRestrictive s) := by
  unfold enterRestrictive
  split
  · exact .refl s
  · extract_lets s1 s2 s3 vote lio pair s4
    have dropped : StartKept s s2 := (startKept_dropPending s).trans (startKept_dropLanes _ _ _ _ s1)
    have aborted : StartKept s s3 := (dropped.trans (startKept_abortChange _ s2)).trans (startKept_abortModeSwitch _)
    have entered : StartKept s s4 := aborted.trans (.of_eq rfl rfl rfl)
    exact ((entered.trans (startKept_chestWrite _ _ _ _ s4)).trans (startKept_snapshot _)).trans (startKept_raiseRec _ _ _ _ _ _ _)

/-! ## A half disabled -/

/-- The half out of service with its cause, its channel silent (R42). -/
def halfDown (h : Half) (cause : Nat) (s : State) : State :=
  { s with
    halves := twoMod s.halves h (fun x => { x with
      inServ := false, reason := cause, voter := false,
      ingress := ⟨none, none, none⟩, bench := ⟨none, none, none⟩, active := none, next := none, decided := none })
    tres := twoMod s.tres h (fun y => { y with disReason := if cause ≤ 8 then cause else y.disReason, decisions := [] })
    tx := twoPut s.tx h TxSt.init
    bus := { s.bus with chans := twoMod s.bus.chans h chanOff } }

/-- A half that is out already stays as it is; another one goes out, with its reports. -/
theorem disableHalf_cases (h : Half) (cause kind : Nat) (detail : List Byte) (s : State) :
    (disableHalf h cause kind detail s = s ∧ (twoGet s.halves h).inServ = false) ∨
    (reported (halfDown h cause s) (disableHalf h cause kind detail s) ∧
      ∀ e, s.raised e → (disableHalf h cause kind detail s).raised e) := by
  unfold disableHalf
  split
  · next out =>
    obtain ⟨idle, -⟩ : (twoGet s.halves h).inServ = false ∧ (twoGet s.halves h).reason ≠ 0 := by simpa using out
    exact .inl ⟨rfl, idle⟩
  · exact .inr ⟨reported_trans (reported_chestWrite _ _ _ _ _) (reported_raiseRec _ _ _ _ _ _ _),
      fun e pends => raised_bookPut (raised_mono (raised_chestWrite pends))⟩

theorem disableHalf_inServ (h : Half) (cause kind : Nat) (detail : List Byte) (s : State) :
    (twoGet (disableHalf h cause kind detail s).halves h).inServ = false := by
  rcases disableHalf_cases h cause kind detail s with ⟨same, out⟩ | ⟨down, -⟩
  · rw [same, out]
  · rw [reported_halves down, halfDown, twoGet_mod]

theorem disableHalf_other (hk : k ≠ h) (cause kind : Nat) (detail : List Byte) (s : State) :
    twoGet (disableHalf h cause kind detail s).halves k = twoGet s.halves k := by
  rcases disableHalf_cases h cause kind detail s with ⟨same, -⟩ | ⟨down, -⟩
  · rw [same]
  · rw [reported_halves down, halfDown, twoGet_mod_other _ _ hk]

theorem startKept_disableHalf (h : Half) (cause kind : Nat) (detail : List Byte) (s : State) :
    StartKept s (disableHalf h cause kind detail s) := by
  rcases disableHalf_cases h cause kind detail s with ⟨same, -⟩ | ⟨down, pend⟩
  · rw [same]
    exact .refl s
  · exact ⟨by rw [down.2]; rfl, by rw [down.2]; rfl, pend⟩

/-! ## Failed-wake -/

/-- The module silent in Failed-wake, its record not yet written (R607). -/
def wakeFailed (s : State) : State :=
  silence (lanesOff { s with power := { s.power with st := .failedWake, moving := none, step := 0, confirmed := false } })

theorem enterFailedWake_eq (s : State) : enterFailedWake s =
    dormantBus (busDown (raiseEv 66 noDetail (snapshot (chestWrite 7 0x20 0 (wakeDetail (wakeFailed s)) (wakeFailed s))))) := rfl

theorem dormantBus_power (s : State) : (dormantBus s).power = s.power := rfl

theorem busDown_power (s : State) : (busDown s).power = s.power := rfl

theorem enterFailedWake_power (s : State) :
    (enterFailedWake s).power = { s.power with st := .failedWake, moving := none, step := 0, confirmed := false } := by
  have kept := (startKept_chestWrite 7 0x20 0 (wakeDetail (wakeFailed s)) (wakeFailed s)).trans (startKept_snapshot _)
  rw [enterFailedWake_eq, dormantBus_power, busDown_power, raiseEv_power, kept.power]
  rfl

theorem enterFailedWake_raised (s : State) : (enterFailedWake s).raised 66 :=
  raised_raiseEv (d := noDetail) (by decide)

theorem enterFailedWake_dormant (s : State) : (enterFailedWake s).bus.dormant = true := rfl

end

/-! ## A cold restart -/

theorem foldl_k {α : Type} {g : KRun → α → KRun} (hg : ∀ x a, (g x a).k = x.k) (l : List α) : ∀ x, (l.foldl g x).k = x.k := by
  induction l with
  | nil => exact fun _ => rfl
  | cons a l ih => exact fun x => (ih (g x a)).trans (hg x a)

theorem progRestart_routes (warm : Bool) (x : KRun) : (progRestart warm x).k.routes = x.k.routes := by
  unfold progRestart
  dsimp only
  rw [foldl_k fun _ _ => kRec_k _ _ _ _ _ _]
  rfl

theorem fitProgram_routes (s : State) (x : KRun) : (fitProgram s x).k.routes = x.k.routes := by
  unfold fitProgram
  split
  · unfold progUnfit
    split <;> rfl
  · rfl

/-- A cold restart releases every route (R88). -/
theorem coldRun_routes (e : KEnv) (img : Nat) (x : KRun) : (coldRun e img x).k.routes = [] :=
  progRestart_routes false (onK (coldKernel e img) x)

/-- The lanes with their kernels restarted, before the restart is reported. -/
def kernelsRestarted (f : KEnv → Nat → KRun → KRun) (s : State) : State :=
  { s with lanes := triMap s.lanes (fun _ v => { v with
    kernel := (f (kenv s) (imgAdd s.imageNo 1) { k := v.kernel, recs := [], evs := [], reserves := [] }).k }) }

/-- A restart between two images changes the lanes' kernels, and reports (R325). -/
theorem reported_restartKernels (f : KEnv → Nat → KRun → KRun) (s : State) :
    reported (kernelsRestarted f s) (restartKernels f s) := by
  unfold restartKernels
  refine foldl_frame (P := reported (kernelsRestarted f s)) (fun u _ told => reported_trans told (reported_bookPut _ u)) _ ?_
  exact foldl_frame (P := reported (kernelsRestarted f s)) (fun u _ told => reported_trans told (reported_raiseAt _ _ _ u)) _
    (reported_refl _)

theorem coldRestart_released (s : State) (l : Lane) (n : Nat) : (rst (triGet (coldRestart s).lanes l).kernel n).state = .released := by
  have lanes : (coldRestart s).lanes = (kernelsRestarted (fun e n x => fitProgram s (coldRun e n x)) s).lanes := by
    rw [coldRestart, (reported_restartKernels _ s).2]
  rw [lanes, kernelsRestarted, triGet_map, rst, fitProgram_routes, coldRun_routes]
  rfl

end Sys2Proof.Proofs
end

section
/-! PROOFS. The steps of start-up (R446, R480, R606, R610, Table 16.5): what stops a step, the start count, the halves that wake, their
trials and vectors, the lanes' boot, and the restart choice. -/

namespace Sys2Proof.Proofs

open Sys2Proof Sys2Proof.Machine Sys2Proof.Laws

section
variable {s t : State} {i : StartIn} {h k : Half}

/-! ## When a step passes -/

/-- A start-up step may pass: supplied, not in Failed-wake, Off or the restrictive state (R610). -/
structure Sequencing (s : State) : Prop where
  supplied : s.power.pfail = 0
  woken : s.power.st ≠ .failedWake
  on : s.power.st ≠ .off
  free : s.vote.restrictive = false

theorem Sequencing.not_barred (seq : Sequencing s) :
    ¬ (s.power.pfail ≠ 0 || s.power.st = .failedWake || s.power.st = .off || s.vote.restrictive) = true := by
  obtain ⟨supplied, woken, on, free⟩ := seq
  simp [supplied, woken, on, free]

theorem startUpStep_barred (hb : s.power.pfail ≠ 0 ∨ s.power.st = .failedWake ∨ s.power.st = .off ∨ s.vote.restrictive = true) :
    startUpStep i s = s :=
  if_pos (by simpa [or_assoc] using hb)

theorem startUpStep_rest (hs : s.power.step = 0 ∨ s.power.step = 7) : startUpStep i s = s := by
  unfold startUpStep
  rcases hs with hs | hs <;> simp only [hs, ite_self]

theorem startUpStep_one (seq : Sequencing s) (hs : s.power.step = 1) :
    startUpStep i s = if s.power.bankCharged then stepOne s else s := by
  simp only [startUpStep, if_neg seq.not_barred, hs]

theorem startUpStep_two (seq : Sequencing s) (hs : s.power.step = 2) :
    startUpStep i s = if halvesUp (stepTwo i.calendar s) = [] then enterFailedWake (stepTwo i.calendar s)
      else if s.power.moving = some .dormant then
        dormantBus { stepTwo i.calendar s with power := { s.power with step := 0 } }
      else { stepTwo i.calendar s with power := { s.power with step := 3 } } := by
  simp only [startUpStep, if_neg seq.not_barred, hs]
  rfl

/-- The trials of both halves. -/
def bothTried (i : StartIn) (s : State) : State := stepThree i .b (stepThree i .a s)

theorem startUpStep_three (seq : Sequencing s) (hs : s.power.step = 3) :
    startUpStep i s = if halvesUp (bothTried i s) = [] then enterFailedWake (bothTried i s)
      else { bothTried i s with power := { (bothTried i s).power with step := 4 } } := by
  simp only [startUpStep, if_neg seq.not_barred, hs]
  rfl

theorem startUpStep_four (seq : Sequencing s) (hs : s.power.step = 4) : startUpStep i s = stepFour i s := by
  simp only [startUpStep, if_neg seq.not_barred, hs]

theorem startUpStep_five (seq : Sequencing s) (hs : s.power.step = 5) :
    startUpStep i s = if s.vote.matchAny.isSome then restartChoice (!s.power.coldNext) s else s := by
  simp only [startUpStep, if_neg seq.not_barred, hs]

theorem startUpStep_six (seq : Sequencing s) (hs : s.power.step = 6) :
    startUpStep i s = if s.vote.matchAny.isNone then s
      else if s.power.moving = some .quiet then { s with power := { s.power with step := 0 } } else awaitConfirmation s := by
  simp only [startUpStep, if_neg seq.not_barred, hs]

theorem startUpStep_six_matched (seq : Sequencing s) (hs : s.power.step = 6) (matched : s.vote.matchAny.isSome = true) :
    startUpStep i s = if s.power.moving = some .quiet then { s with power := { s.power with step := 0 } } else awaitConfirmation s := by
  rw [startUpStep_six seq hs, if_neg (by simp [Option.ne_none_iff_isSome.mpr matched])]

/-- Steps 1, 5 and 6 wait for the bank and for a MATCH (R610). -/
theorem startUpStep_waits (hw : s.power.step = 1 ∧ s.power.bankCharged = false ∨
    (s.power.step = 5 ∨ s.power.step = 6) ∧ s.vote.matchAny = none) : startUpStep i s = s := by
  by_cases seq : Sequencing s
  · rcases hw with ⟨hs, bank⟩ | ⟨hs | hs, unmatched⟩
    · rw [startUpStep_one seq hs, bank]
      rfl
    · rw [startUpStep_five seq hs, unmatched]
      rfl
    · rw [startUpStep_six seq hs, unmatched]
      rfl
  · refine startUpStep_barred ?_
    by_contra hn
    simp only [not_or, ne_eq, not_not] at hn
    obtain ⟨supplied, woken, on, free⟩ := hn
    exact seq ⟨supplied, woken, on, Bool.eq_false_of_not_eq_true free⟩

/-- Without supply, in Failed-wake, Off or the restrictive state, at rest or waiting, no step passes. -/
theorem startUpStep_idle (h : s.power.pfail ≠ 0 ∨ s.power.st = .failedWake ∨ s.power.st = .off ∨ s.vote.restrictive = true ∨
    s.power.step = 0 ∨ s.power.step = 7 ∨ s.power.step = 1 ∧ s.power.bankCharged = false ∨
    (s.power.step = 5 ∨ s.power.step = 6) ∧ s.vote.matchAny = none) : startUpStep i s = s := by
  rcases h with h | h | h | h | h | h | h
  · exact startUpStep_barred (.inl h)
  · exact startUpStep_barred (.inr (.inl h))
  · exact startUpStep_barred (.inr (.inr (.inl h)))
  · exact startUpStep_barred (.inr (.inr (.inr h)))
  · exact startUpStep_rest (.inl h)
  · exact startUpStep_rest (.inr h)
  · exact startUpStep_waits h

/-! ## Step 1 -/

/-- Step 1 closes every session (R540). -/
theorem stepOne_closed (s : State) (n : Nat) : (sessOf (stepOne s) n).opened = false := by
  have ended : sessOf (stepOne s) n = endSession (sessOf s n) := tabGet_map s.dict.sessions (fun _ => endSession) n _ _ rfl
  rw [ended]
  rfl

/-! ## Step 2 -/

theorem halvesUp_ne_nil (hin : (twoGet s.halves h).inServ = true) : halvesUp s ≠ [] :=
  List.ne_nil_of_mem (List.mem_filter.mpr ⟨by cases h <;> decide, hin⟩)

theorem halvesUp_eq_nil (out : ∀ h, (twoGet s.halves h).inServ = false) : halvesUp s = [] :=
  List.filter_eq_nil_iff.mpr fun h _ => by simp [out h]

/-- The halves whose domain woke are in service (R607). -/
theorem stepTwo_inServ (calendar : Nat) (s : State) (h : Half) :
    (twoGet (stepTwo calendar s).halves h).inServ = !(domainOf s (halfNo h + 1)).failed := by
  have half : twoGet (stepTwo calendar s).halves h =
      if !(domainOf s (halfNo h + 1)).failed then { HalfSt.init with inServ := true } else { HalfSt.init with reason := 7 } := by
    cases h <;> rfl
  rw [half]
  cases (domainOf s (halfNo h + 1)).failed <;> rfl

/-- A half that woke listens for the bus (R356). -/
theorem stepTwo_listens {calendar : Nat} (woke : (domainOf s (halfNo h + 1)).failed = false) :
    (twoGet (stepTwo calendar s).bus.chans h).st = .listening := by
  have inServ := stepTwo_inServ calendar s h
  have chan : twoGet (stepTwo calendar s).bus.chans h =
      chanDown (twoGet (stepTwo calendar s).halves h).inServ s.ns (twoGet s.bus.chans h) := by cases h <;> rfl
  rw [chan, inServ, woke]
  rfl

/-- Each half takes the calendar clock (R446). -/
theorem stepTwo_reading (calendar : Nat) (s : State) (h : Half) :
    halfReading (twoGet (stepTwo calendar s).time.halves h) = (calendar : Int) * 1000000000 * 65536 := by
  have clock : twoGet (stepTwo calendar s).time.halves h = calendarClock calendar := by cases h <;> rfl
  rw [clock]
  simp [halfReading, calendarClock, HalfClock.init, secNs]

/-! ## Step 3 -/

/-- The trials of a half leave the other one as it is. -/
theorem stepThree_other (hk : k ≠ h) (i : StartIn) (s : State) : twoGet (stepThree i h s).halves k = twoGet s.halves k := by
  unfold stepThree
  extract_lets v good s1 s2 s3
  split
  · rfl
  · have h1 : twoGet s1.halves k = twoGet s.halves k := twoGet_mod_other _ _ hk
    have h2 : twoGet s2.halves k = twoGet s.halves k := by
      unfold s2
      split <;> exact h1
    have h3 : twoGet s3.halves k = twoGet s.halves k := by
      unfold s3
      split
      · exact h2
      · rw [raiseEv_halves, disableHalf_other hk, h2]
    split
    · exact h3
    · rw [disableHalf_other hk]
      exact h3

/-- A half with good trials and vectors stays in service (R222, R276). -/
theorem stepThree_good (hin : (twoGet s.halves h).inServ = true) (trials : (twoGet i.voter h).1 = 0)
    (vectors : (twoGet i.vec h).isNone = true) :
    (twoGet (stepThree i h s).halves h).inServ = true ∧ (twoGet (stepThree i h s).halves h).voter = true := by
  unfold stepThree
  extract_lets v good s1 s2 s3
  rw [if_neg (by simp [hin]), Option.isNone_iff_eq_none.mp vectors]
  have tried : s3 = s2 := if_pos trials
  have noted : s2.halves = s1.halves := by
    unfold s2
    split <;> rfl
  have half : twoGet s1.halves h = _ := twoGet_mod _ _ _
  rw [tried, noted, half]
  exact ⟨hin, decide_eq_true trials⟩

/-- A half with a trial that failed is out of service (R222). -/
theorem stepThree_bad (failed : (twoGet i.voter h).1 ≠ 0) : (twoGet (stepThree i h s).halves h).inServ = false := by
  unfold stepThree
  extract_lets v good s1 s2 s3
  split
  · next out => simpa using out
  · have tried : s3 = raiseEv 8 (halfNo h) (disableHalf h causeVoter 2 (be 1 v.2) s2) := if_neg failed
    split
    · rw [tried, raiseEv_halves, disableHalf_inServ]
    · exact disableHalf_inServ _ _ _ _ _

/-- Each half is tried once, as it was. -/
theorem bothTried_half (i : StartIn) (s : State) (h : Half) :
    ∃ u, twoGet u.halves h = twoGet s.halves h ∧ twoGet (bothTried i s).halves h = twoGet (stepThree i h u).halves h := by
  cases h with
  | a => exact ⟨s, rfl, stepThree_other (by decide) i _⟩
  | b => exact ⟨stepThree i .a s, stepThree_other (by decide) i s, rfl⟩

/-! ## Step 4 -/

theorem startKept_modeZero (s : State) : StartKept s (modeZero s) := by
  unfold modeZero
  extract_lets b
  split <;> exact .of_eq rfl rfl rfl

theorem startKept_lanes (lanes : Three LaneSt) (s : State) : StartKept s { s with lanes := lanes } := .of_eq rfl rfl rfl

/-- The Trestle graph loaded and compared at one half (R69, R258). -/
def graphAt (i : StartIn) (crc : Nat) (s : State) (h : Half) : State :=
  if !(twoGet s.halves h).inServ then s
  else
    let s := { s with tres := twoMod s.tres h (fun t => { t with lock := true, graphCheck := crc }) }
    if twoGet i.graph h then s else disableHalf h 5 halfDisabled [] s

theorem startKept_graphAt (i : StartIn) (crc : Nat) (s : State) (h : Half) : StartKept s (graphAt i crc s h) := by
  unfold graphAt
  extract_lets u
  have locked : StartKept s u := .of_eq rfl rfl rfl
  split
  · exact .refl s
  · split
    · exact locked
    · exact locked.trans (startKept_disableHalf h 5 halfDisabled [] u)

/-- The station in force, on schedule mode 0 (R87). -/
def stationTaken (bare : Bool) (st : Station) (s : State) : State :=
  modeZero { s with cfg := st, power := { s.power with unconfigured := bare } }

theorem stationTaken_unconfigured (bare : Bool) (st : Station) (s : State) : (stationTaken bare st s).power.unconfigured = bare :=
  congrArg PowerSt.unconfigured (startKept_modeZero _).power

theorem stationTaken_raised {e : Nat} (bare : Bool) (st : Station) (h : s.raised e) : (stationTaken bare st s).raised e :=
  (startKept_modeZero _).pend e h

/-- Step 5 to come (R610). -/
def awaitMatch (cold : Bool) (s : State) : State :=
  { s with power := { s.power with coldNext := cold, step := 5, startMiss := 0 }, vote := { s.vote with matchAny := none } }

/-- What the steps after the station data leave to step 5. -/
theorem awaitMatch_kept {bare cold : Bool} {u : State} (unconfigured : s.power.unconfigured = bare) (told : bare = true → s.raised 88)
    (loaded : StartKept s u) (checked : StartKept (awaitMatch cold u) t) :
    t.power.step = 5 ∧ t.vote.matchAny = none ∧ (t.power.unconfigured = true → t.raised 88) := by
  refine ⟨congrArg PowerSt.step checked.power, checked.matchAny, fun h => checked.pend 88 (loaded.pend 88 (told ?_))⟩
  rw [checked.power] at h
  rw [← unconfigured, ← loaded.power]
  exact h

/-- Step 4 ends with step 5 to come and no MATCH seen; without usable station data the module is unconfigured, with event 88
(R87, R610). -/
theorem stepFour_spec (i : StartIn) (s : State) :
    (stepFour i s).power.step = 5 ∧ (stepFour i s).vote.matchAny = none ∧
    ((stepFour i s).power.unconfigured = true → (stepFour i s).raised 88) := by
  unfold stepFour
  extract_lets s1 s2 s3 none_ bad s4 st p4 s5 banks warm d s6 s7 v7 p7 s8 crc s9
  have told : none_ = true → s4.raised 88 := fun h => by
    unfold s4
    rw [if_pos h]
    exact raised_raiseEv (by decide)
  have loaded : StartKept s5 s7 := by
    have kernels : StartKept s5 s6 := startKept_lanes _ s5
    unfold s7
    split
    · exact kernels.trans (startKept_dropLanes _ _ _ _ s6)
    · exact kernels
  have graph : StartKept s8 s9 :=
    foldl_frame (f := graphAt i crc) (fun u h kept => kept.trans (startKept_graphAt i crc u h)) _ (.refl s8)
  have checked : StartKept (awaitMatch (!warm) s7) (if (lanesInVote s9).length < 2 then enterRestrictive s9 else s9) := by
    split
    · exact graph.trans (startKept_enterRestrictive s9)
    · exact graph
  exact awaitMatch_kept (stationTaken_unconfigured none_ st s4) (fun h => stationTaken_raised none_ st (told h)) loaded checked

/-! ## Steps 5 and 6 -/

theorem restartChoice_spec (warm : Bool) (s : State) :
    (restartChoice warm s).power.step = 6 ∧ (restartChoice warm s).vote.matchAny = none ∧
    (restartChoice warm s).power.confirmed = false ∧ (restartChoice warm s).dict.warm = warm := ⟨rfl, rfl, rfl, rfl⟩

/-- A cold choice releases every route (R88). -/
theorem restartChoice_released (s : State) (l : Lane) (n : Nat) :
    (rst (triGet (restartChoice false s).lanes l).kernel n).state = .released := coldRestart_released s l n

end

end Sys2Proof.Proofs
end

section
/-! PROOFS. Wake steps that time out, start-up confirmation and wake retry written by a session, the RESET edge, and O54 from them and the
steps of start-up (R434, R606, R607, R609, R611, Table 11.7). -/

namespace Sys2Proof.Proofs

open Sys2Proof Sys2Proof.Machine Sys2Proof.Laws

section
variable {s t : State} {d stp : Nat}

/-! ## Wake steps -/

theorem domainOf_congr (h : t.power.domains = s.power.domains) (e : Nat) : domainOf t e = domainOf s e := by
  unfold domainOf
  rw [h]

/-- A domain after an attempt that timed out (R606). -/
def attempted (stp : Nat) (x : Domain) : Domain :=
  { step := stp, attempts := x.attempts + 1, alternate := x.alternate || decide (x.attempts + 1 < wakeAttempts),
    failed := decide (wakeAttempts ≤ x.attempts + 1) }

/-- The attempt entered at its domain. -/
def attemptNoted (d stp : Nat) (s : State) : State :=
  { s with power := { s.power with domains := tabPut s.power.domains d (attempted stp (domainOf s d)) } }

theorem domainOf_attemptNoted (d stp : Nat) (s : State) : domainOf (attemptNoted d stp s) d = attempted stp (domainOf s d) :=
  tabGet_put _ _ _ _

theorem domainOf_attemptNoted_other {e : Nat} (he : e ≠ d) (stp : Nat) (s : State) : domainOf (attemptNoted d stp s) e = domainOf s e :=
  tabGet_put_other _ _ _ he

theorem wakeTimeout_idle (h : domainWaking s d = false ∨ (domainOf s d).failed = true ∨ stp = 0 ∨ 2 < stp) :
    wakeTimeout d stp s = s :=
  if_pos (by simpa [or_assoc] using h)

theorem wakeTimeout_eq (waking : domainWaking s d = true) (sound : (domainOf s d).failed = false) (h1 : 1 ≤ stp) (h2 : stp ≤ 2) :
    wakeTimeout d stp s = if (domainOf s d).attempts + 1 < wakeAttempts then raiseEv 66 d (attemptNoted d stp s)
      else domainFailed d (attemptNoted d stp s) := by
  have named : stp ≠ 0 ∧ ¬ 2 < stp := by omega
  exact if_neg (by simp [waking, sound, named])

/-- A domain that failed leaves the domains as they are, and is the last wake failure (object 0x8004). -/
theorem domainFailed_power (d : Nat) (s : State) :
    (domainFailed d s).power.domains = s.power.domains ∧ (domainFailed d s).power.lastWake = d * 2 ^ 24 + 4 * 2 ^ 16 := by
  unfold domainFailed
  extract_lets p u halvesFailed lanesFailed
  split
  · rw [enterFailedWake_power]
    exact ⟨rfl, rfl⟩
  · split
    · rw [(startKept_disableHalf _ _ _ _ u).power]
      exact ⟨rfl, rfl⟩
    · split
      · rw [(startKept_disableHalf _ _ _ _ u).power]
        exact ⟨rfl, rfl⟩
      · split <;> exact ⟨rfl, rfl⟩

/-- Without the backup domain the module is in Failed-wake (R607). -/
theorem domainFailed_backup (s : State) : (domainFailed 0 s).power.st = .failedWake ∧ (domainFailed 0 s).raised 66 :=
  ⟨congrArg PowerSt.st (enterFailedWake_power _), enterFailedWake_raised _⟩

theorem laneOf?_laneNo (l : Lane) : laneOf? (laneNo l) = some l := by cases l <;> rfl

theorem laneNo_injective : Function.Injective laneNo := fun l m same =>
  Option.some.inj ((laneOf?_laneNo l).symm.trans ((congrArg laneOf? same).trans (laneOf?_laneNo m)))

theorem eq_laneNo_of_laneOf? {n : Nat} {l : Lane} (hl : laneOf? n = some l) : n = laneNo l := by
  unfold laneOf? at hl
  split_ifs at hl with h0 h1 h2 <;> obtain rfl := Option.some.inj hl
  · exact h0
  · exact h1
  · exact h2

/-- How many lanes' domains failed. -/
def lanesFailed (s : State) : Nat := ((List.range 3).filter (fun n => (domainOf s (n + 3)).failed)).length

theorem lanesFailed_none (sound : ∀ l, (domainOf s (laneNo l + 3)).failed = false) : lanesFailed s = 0 := by
  have a := sound .a
  have b := sound .b
  have c := sound .c
  simp only [laneNo] at a b c
  simp [lanesFailed, List.range_succ, a, b, c]

theorem lanesFailed_le_one (l : Lane) (sound : ∀ m, m ≠ l → (domainOf s (laneNo m + 3)).failed = false) : lanesFailed s ≤ 1 := by
  have alone : (List.range 3).filter (fun n => (domainOf s (n + 3)).failed) ⊆ [laneNo l] := by
    intro n hn
    obtain ⟨hr, failed⟩ := List.mem_filter.mp hn
    obtain ⟨m, rfl⟩ : ∃ m, laneNo m = n := by
      have three : n = 0 ∨ n = 1 ∨ n = 2 := by have := List.mem_range.mp hr; omega
      rcases three with rfl | rfl | rfl
      · exact ⟨.a, rfl⟩
      · exact ⟨.b, rfl⟩
      · exact ⟨.c, rfl⟩
    by_cases hm : m = l
    · rw [hm]
      exact List.mem_singleton_self _
    · rw [sound m hm] at failed
      exact absurd failed Bool.false_ne_true
  exact ((List.nodup_range.filter _).subperm alone).length_le

/-- A domain of a half, the other half and the lanes sound: the half is out of service (R607). -/
theorem domainFailed_half {h : Half} (hd : d = 1 ∧ h = .a ∨ d = 2 ∧ h = .b) (other : (domainOf s (3 - d)).failed = false)
    (lanes : lanesFailed s = 0) : (twoGet (domainFailed d s).halves h).inServ = false := by
  unfold domainFailed
  extract_lets p u halves lanesLost
  have few : ¬ 2 ≤ lanesLost := by
    have same : lanesLost = lanesFailed s := rfl
    omega
  rcases hd with ⟨rfl, rfl⟩ | ⟨rfl, rfl⟩
  · have one : halves = false := Bool.and_eq_false_iff.mpr (.inr other)
    rw [if_neg (by simp [one, few]), if_pos rfl]
    exact disableHalf_inServ _ _ _ _ _
  · have one : halves = false := Bool.and_eq_false_iff.mpr (.inl other)
    rw [if_neg (by simp [one, few]), if_neg (by decide), if_pos rfl]
    exact disableHalf_inServ _ _ _ _ _

/-- A lane's domain, half A and the other lanes sound: the lane is held (R607). -/
theorem domainFailed_lane {l : Lane} (hd : 3 ≤ d) (hl : laneOf? (d - 3) = some l) (half : (domainOf s 1).failed = false)
    (lanes : lanesFailed s ≤ 1) : (triGet (domainFailed d s).lanes l).ls = .held := by
  unfold domainFailed
  extract_lets p u halves lanesLost
  have few : ¬ 2 ≤ lanesLost := by
    have same : lanesLost = lanesFailed s := rfl
    omega
  have one : halves = false := Bool.and_eq_false_iff.mpr (.inl half)
  have backed : d ≠ 0 := by omega
  rw [if_neg (by simp [one, few, backed]), if_neg (by omega), if_neg (by omega), hl]
  exact congrArg LaneSt.ls (triGet_mod _ _ _)

/-- The last attempt of a half's domain costs the half alone while the other domains are sound. -/
theorem lastAttempt_half {h : Half} (hd : d = 1 ∧ h = .a ∨ d = 2 ∧ h = .b) (other : (domainOf s (3 - d)).failed = false)
    (lanes : ∀ l, (domainOf s (laneNo l + 3)).failed = false) :
    (twoGet (domainFailed d (attemptNoted d stp s)).halves h).inServ = false := by
  have own : d = 1 ∨ d = 2 := hd.imp And.left And.left
  refine domainFailed_half hd ?_ (lanesFailed_none fun l => ?_)
  · rw [domainOf_attemptNoted_other (by omega)]
    exact other
  · rw [domainOf_attemptNoted_other (by omega)]
    exact lanes l

/-- The last attempt of a lane's domain costs the lane alone while half A and the other lanes are sound. -/
theorem lastAttempt_lane {l : Lane} (hd : 3 ≤ d) (hl : laneOf? (d - 3) = some l) (half : (domainOf s 1).failed = false)
    (lanes : ∀ m, m ≠ l → (domainOf s (laneNo m + 3)).failed = false) :
    (triGet (domainFailed d (attemptNoted d stp s)).lanes l).ls = .held := by
  have number := eq_laneNo_of_laneOf? hl
  refine domainFailed_lane hd hl ?_ (lanesFailed_le_one l fun m hm => ?_)
  · rw [domainOf_attemptNoted_other (by omega)]
    exact half
  · have apart : laneNo m ≠ laneNo l := fun same => hm (laneNo_injective same)
    rw [domainOf_attemptNoted_other (by omega)]
    exact lanes m hm

/-! ## Confirmation and wake retry -/

section
variable {v : Nat}

theorem confirmFn_range (hv : v ≠ 0xA5) : confirmFn v s = (s, rRange, []) := if_pos hv

theorem confirmFn_notWaiting (h : s.power.step ≠ 7 ∨ s.power.st ≠ .run) :
    confirmFn 0xA5 s = ({ s with power := { s.power with confirmOutcome := 0xB015 } }, rFunction, be 2 0xB015) :=
  if_pos (by simpa using h)

theorem confirmFn_due (h7 : s.power.step = 7) (run : s.power.st = .run) :
    confirmFn 0xA5 s = ({ s with power := { s.power with confirmOutcome := 0, confirmDue := true, confirmSrc := 2 } }, rOk, []) :=
  if_neg (by simp [h7, run])

theorem wakeRetryFn_range (hv : v ≠ 1) : wakeRetryFn v s = (s, rRange, []) := if_pos hv

theorem wakeRetryFn_awake (h : s.power.st ≠ .failedWake) : wakeRetryFn 1 s = (s, rFunction, be 2 0xB016) :=
  (if_neg (by decide)).trans (if_pos h)

theorem wakeRetryFn_failed (h : s.power.st = .failedWake) : wakeRetryFn 1 s = (restartModule true s, rOk, []) := by
  have again : newWake s = restartModule true s := if_pos h
  rw [← again]
  exact (if_neg (by decide)).trans (if_neg (not_not.mpr h))

end

/-- A restart leads to start-up step 1 (R610); a cold one stays cold. -/
theorem restartModule_power (cold : Bool) (s : State) :
    (restartModule cold s).power.st = .run ∧ (restartModule cold s).power.step = 1 ∧
    (restartModule cold s).power.coldNext = (s.power.coldNext || cold) ∧ (restartModule cold s).power.confirmed = false :=
  ⟨rfl, rfl, rfl, rfl⟩

/-! ## The RESET edge -/

theorem resetEdge_short (h : s.lio.resetLevel = false ∨ s.ns < s.lio.resetSince + 20000000 ∨ s.lio.resetLowNs < 100000000) :
    resetEdge s = s := by
  have early : s.lio.resetLevel = false ∨ s.ns < s.lio.resetSince + resetHighMin ∨ s.lio.resetLowNs < resetLowMin := h
  exact if_pos (by simpa [or_assoc] using early)

/-- The edge counted (R434). -/
def edgeTaken (s : State) : State := { s with lio := { s.lio with resetLowNs := 0, rcount := (s.lio.rcount + 1) % 65536 } }

/-- The edge recorded, with event 39 when it has no effect (R434, R440). -/
def edgeTold (s : State) : State :=
  if resetEffect s = 0 then raiseRec 39 noDetail 0 3 0xFFFF (be 1 (modeOf s) ++ be 1 (resetEffect s)) (edgeTaken s)
  else record 2 0xFF (resetEffect s) 3 0xFFFF (be 1 (modeOf s) ++ be 1 (resetEffect s)) (edgeTaken s)

theorem reported_edgeTold (s : State) : reported (edgeTaken s) (edgeTold s) := by
  unfold edgeTold
  split
  · exact reported_raiseRec _ _ _ _ _ _ _
  · exact reported_record _ _ _ _ _ _ _

theorem edgeTold_lio (s : State) : (edgeTold s).lio = { s.lio with resetLowNs := 0, rcount := (s.lio.rcount + 1) % 65536 } :=
  reported_lio (reported_edgeTold s)

theorem resetEdge_eq (high : s.lio.resetLevel = true) (long : s.lio.resetSince + 20000000 ≤ s.ns) (low : 100000000 ≤ s.lio.resetLowNs) :
    resetEdge s = if resetEffect s = 1 then giveConfirm 1 (edgeTold s) else if resetEffect s = 2 then restartModule true (edgeTold s)
      else if resetEffect s = 3 then restartModule true (edgeTold s) else edgeTold s := by
  have held : ¬ s.ns < s.lio.resetSince + resetHighMin := Nat.not_lt.mpr long
  have after : ¬ s.lio.resetLowNs < resetLowMin := Nat.not_lt.mpr low
  exact if_neg (by simp [high, held, after])

theorem reported_giveConfirm (r : reported s t) (src : Nat) : reported (giveConfirm src s) (giveConfirm src t) :=
  ⟨told_congr r.1 rfl rfl rfl rfl, congrArg (giveConfirm src) r.2⟩

theorem resetEffect_le_three (s : State) : resetEffect s ≤ 3 := by
  unfold resetEffect
  extract_lets m
  split_ifs <;> decide

/-- What an accepted edge does: it is counted, and confirms, restarts or nothing more (Table 11.7). -/
theorem resetEdge_spec (high : s.lio.resetLevel = true) (long : s.lio.resetSince + 20000000 ≤ s.ns)
    (low : 100000000 ≤ s.lio.resetLowNs) :
    (resetEdge s).lio.rcount = (s.lio.rcount + 1) % 65536 ∧ (resetEdge s).lio.resetLowNs = 0 ∧
    (resetEffect s = 0 → resetEdge s = edgeTold s) ∧ (resetEffect s = 1 → resetEdge s = giveConfirm 1 (edgeTold s)) ∧
    (2 ≤ resetEffect s → resetEdge s = restartModule true (edgeTold s)) := by
  have lio := edgeTold_lio s
  have three := resetEffect_le_three s
  rw [resetEdge_eq high long low]
  refine ⟨?_, ?_, fun h => ?_, fun h => if_pos h, fun h => ?_⟩
  · split_ifs <;> exact congrArg LioSt.rcount lio
  · split_ifs <;> exact congrArg LioSt.resetLowNs lio
  · rw [if_neg (by omega), if_neg (by omega), if_neg (by omega)]
  · rw [if_neg (by omega)]
    obtain h2 | h3 : resetEffect s = 2 ∨ resetEffect s = 3 := by omega
    · exact if_pos h2
    · rw [if_neg (by omega), if_pos h3]

end

/-! ## The rows -/

/-- What step 2 makes of a half whose domain woke (R356, R446, R607). -/
theorem startUpStep_two_woken {s : State} {i : StartIn} {h : Half} (seq : Sequencing s) (h2 : s.power.step = 2)
    (woke : (domainOf s (halfNo h + 1)).failed = false) :
    ∃ t, startUpStep i s = t ∧ (twoGet t.halves h).inServ = true ∧ t.dict.modAddr = s.dict.modAddrSet ∧
      (twoGet t.bus.chans h).st = .listening ∧ halfReading (twoGet t.time.halves h) = (i.calendar : Int) * 1000000000 * 65536 ∧
      (s.power.moving ≠ some .dormant → t.power.step = 3) ∧
      (s.power.moving = some .dormant → t.power.step = 0 ∧ t.bus.dormant = true) := by
  have inServ : (twoGet (stepTwo i.calendar s).halves h).inServ = true := by rw [stepTwo_inServ, woke]; rfl
  rw [startUpStep_two seq h2, if_neg (halvesUp_ne_nil inServ)]
  by_cases dormant : s.power.moving = some .dormant
  · rw [if_pos dormant]
    exact ⟨_, rfl, inServ, rfl, stepTwo_listens woke, stepTwo_reading _ s h, fun other => absurd dormant other, fun _ => ⟨rfl, rfl⟩⟩
  · rw [if_neg dormant]
    exact ⟨_, rfl, inServ, rfl, stepTwo_listens woke, stepTwo_reading _ s h, fun _ => rfl, fun other => absurd other dormant⟩

/-- With neither half's domain awake step 2 ends in Failed-wake (R607). -/
theorem startUpStep_two_failed {s : State} {i : StartIn} (seq : Sequencing s) (h2 : s.power.step = 2)
    (a : (domainOf s 1).failed = true) (b : (domainOf s 2).failed = true) :
    startUpStep i s = enterFailedWake (stepTwo i.calendar s) := by
  have out : halvesUp (stepTwo i.calendar s) = [] := halvesUp_eq_nil fun h => by
    rw [stepTwo_inServ]
    cases h with
    | a => rw [halfNo, a]; rfl
    | b => rw [halfNo, b]; rfl
  rw [startUpStep_two seq h2, if_pos out]

/-- What step 3 makes of a half with good trials and vectors, and of one with a trial that failed (R222, R276). -/
theorem startUpStep_three_good {s : State} {i : StartIn} {h : Half} (seq : Sequencing s) (h3 : s.power.step = 3)
    (hin : (twoGet s.halves h).inServ = true) (trials : (twoGet i.voter h).1 = 0) (vectors : (twoGet i.vec h).isNone = true) :
    ∃ t, startUpStep i s = t ∧ t.power.step = 4 ∧ (twoGet t.halves h).inServ = true ∧ (twoGet t.halves h).voter = true ∧
      ((twoGet i.voter (otherHalf h)).1 ≠ 0 → (twoGet t.halves (otherHalf h)).inServ = false) := by
  obtain ⟨u, before, after⟩ := bothTried_half i s h
  obtain ⟨inServ, voter⟩ := stepThree_good (before ▸ hin) trials vectors
  rw [← after] at inServ voter
  rw [startUpStep_three seq h3, if_neg (halvesUp_ne_nil inServ)]
  refine ⟨_, rfl, rfl, inServ, voter, fun failed => ?_⟩
  obtain ⟨w, -, other⟩ := bothTried_half i s (otherHalf h)
  show (twoGet (bothTried i s).halves (otherHalf h)).inServ = false
  rw [other]
  exact stepThree_bad failed

/-- Settles O54: the steps of start-up, confirmation and wake retry, wake steps that time out, the RESET edge. -/
theorem startUp : Obligations.StartUp := by
  refine ⟨fun s i => ⟨fun h => congrArg Host.Outcome.next (startUpStep_idle h), fun supplied woken on free => ?_⟩,
    fun s n v ha => ⟨fun hv => next_asSession ha (confirmFn_range hv), fun h => next_asSession ha (confirmFn_notWaiting h),
      fun h7 run => next_asSession ha (confirmFn_due h7 run), fun hv => next_asSession ha (wakeRetryFn_range hv),
      fun awake => next_asSession ha (wakeRetryFn_awake awake), fun failed => ?_⟩,
    fun s d stp => ⟨fun h => congrArg Host.Outcome.next (wakeTimeout_idle h),
      fun waking sound h1 h2 => ⟨fun few => ?_, fun last => ?_⟩⟩,
    fun s => ⟨fun h => congrArg Host.Outcome.next (resetEdge_short h), fun high long low => ?_⟩⟩
  · have seq : Sequencing s := ⟨supplied, woken, on, free⟩
    refine ⟨fun h1 bank => ?_, fun h2 => ⟨fun a b => ?_, fun h woke => ?_⟩, fun h3 h hin trials vectors => ?_, fun h4 => ?_,
      fun h5 matched => ?_, fun h6 matched => ⟨fun quiet => ?_, fun loud => ?_⟩⟩
    · exact ⟨stepOne s, congrArg Host.Outcome.next ((startUpStep_one seq h1).trans (if_pos bank)), rfl, rfl, rfl, rfl,
        stepOne_closed s, rfl, rfl⟩
    · exact ⟨_, congrArg Host.Outcome.next (startUpStep_two_failed seq h2 a b),
        congrArg PowerSt.st (enterFailedWake_power _), enterFailedWake_raised _, enterFailedWake_dormant _⟩
    · obtain ⟨t, passes, made⟩ := startUpStep_two_woken seq h2 woke
      exact ⟨t, congrArg Host.Outcome.next passes, made⟩
    · obtain ⟨t, passes, made⟩ := startUpStep_three_good seq h3 hin trials vectors
      exact ⟨t, congrArg Host.Outcome.next passes, made⟩
    · exact ⟨_, congrArg Host.Outcome.next (startUpStep_four seq h4), stepFour_spec i s⟩
    · have chosen : startUpStep i s = restartChoice (!s.power.coldNext) s := (startUpStep_five seq h5).trans (if_pos matched)
      obtain ⟨step, none_, confirmed, warm⟩ := restartChoice_spec (!s.power.coldNext) s
      refine ⟨_, congrArg Host.Outcome.next chosen, step, none_, confirmed, warm, fun cold l n => ?_⟩
      rw [cold]
      exact restartChoice_released s l n
    · exact congrArg Host.Outcome.next ((startUpStep_six_matched seq h6 matched).trans (if_pos quiet))
    · exact congrArg Host.Outcome.next ((startUpStep_six_matched seq h6 matched).trans (if_neg loud))
  · obtain ⟨st, step, cold, -⟩ := restartModule_power true s
    exact ⟨_, next_asSession ha (wakeRetryFn_failed failed), rfl, st, step, rfl, cold.trans (Bool.or_true _)⟩
  · have again : (domainOf s d).attempts + 1 < wakeAttempts := Nat.succ_lt_succ few
    refine ⟨_, congrArg Host.Outcome.next ((wakeTimeout_eq waking sound h1 h2).trans (if_pos again)), raised_raiseEv (by decide), ?_,
      fun e he => domainOf_attemptNoted_other he stp s, reported_raiseEv _ _ _⟩
    refine (domainOf_attemptNoted d stp s).trans ?_
    simp [attempted, again, Nat.not_le.mpr again]
  · have spent : ¬ (domainOf s d).attempts + 1 < wakeAttempts := Nat.not_lt.mpr (Nat.succ_le_succ last)
    obtain ⟨domains, lastWake⟩ := domainFailed_power d (attemptNoted d stp s)
    refine ⟨_, congrArg Host.Outcome.next ((wakeTimeout_eq waking sound h1 h2).trans (if_neg spent)), ?_, lastWake, ?_,
      fun h hd other lanes => lastAttempt_half hd other lanes, fun l hd hl half lanes => lastAttempt_lane hd hl half lanes⟩
    · rw [domainOf_congr domains, domainOf_attemptNoted]
      exact decide_eq_true (Nat.not_lt.mp spent)
    · rintro rfl
      exact domainFailed_backup _
  · obtain ⟨count, lowNs, plain, confirms, restarts⟩ := resetEdge_spec high long low
    refine ⟨_, rfl, count, lowNs, fun h => ?_, fun h => ?_, fun h => ?_⟩
    · rw [count, plain h]
      exact ⟨by rw [edgeTold, if_pos h]; exact raised_raiseRec (by decide), reported_edgeTold s⟩
    · rw [count, confirms h]
      exact reported_giveConfirm (reported_edgeTold s) 1
    · rw [restarts h]
      obtain ⟨st, step, cold, confirmed⟩ := restartModule_power true (edgeTold s)
      exact ⟨st, step, cold.trans (Bool.or_true _), confirmed⟩

end Sys2Proof.Proofs
end

section
/-! PROOFS. Corrections of module time by increments and steps (R443, R448 to R452), the leap second (R460), a time source lost
(R456), launches missed (R468, R469). -/

namespace Sys2Proof.Proofs

open Sys2Proof Sys2Proof.Machine Sys2Proof.Laws

/-! ## Corrections -/

section
variable {s t : State} {n : Nat} {o r : Int}

theorem reported_time (h : reported s t) : t.time = s.time := by rw [h.2]

/-- A correction written by a session that may answers the outcome that the correction leaves (object 0x4001). -/
theorem next_correction {f : State → State} {code : Nat} (ha : s.allows n .maintainer false) (hf : f s = t)
    (out : t.time.outcome = code) : (.next (asSession n .maintainer false (corrReply f) s) : Host.Outcome State Fault Refusal) =
      .next (withResult (functionReply code []) t) := by
  rw [← out, ← hf]
  exact next_asSession ha rfl

@[simp] theorem halfReading_addOffset (o : Int) (c : HalfClock) : halfReading (addOffset o c) = halfReading c + o :=
  (Int.add_assoc _ _ _).symm

/-- A rate increment sets the reference pair to the present counter, so that the reading stays (R443). -/
@[simp] theorem halfReading_addRate (r : Int) (c : HalfClock) : halfReading (addRate r c) = halfReading c := by
  have fresh : halfReading (addRate r c) =
      halfReading c - c.o + ((c.c : Int) - c.c) * 65536 + ((c.c : Int) - c.c) * (c.r + r) / 1000000000 + c.o := rfl
  rw [fresh, Int.sub_self]
  simp

theorem offsetInc_within (h : o.natAbs ≤ s.time.jump * 65536) : offsetInc o s = corrOutcome 0 (modClocks (addOffset o) s) :=
  if_neg (Nat.not_lt.mpr h)

/-- What the refusal of an offset increment leaves in the time base (R450). -/
def offsetRefused (o : Int) (s : State) : State :=
  { s with time := { s.time with outcome := 0x7001, tjr := true, refused := o / 65536, servo := .holdover } }

theorem offsetInc_beyond (h : s.time.jump * 65536 < o.natAbs) :
    ∃ t, offsetInc o s = t ∧ t.raised 48 ∧ t.time.outcome = 0x7001 ∧ reported (offsetRefused o s) t := by
  have rep := reported_raiseRec 48 noDetail 0 3 0xFFFF (beI 8 (o / 65536)) (offsetRefused o s)
  exact ⟨_, if_pos h, raised_raiseRec (by decide), congrArg TimeSt.outcome (reported_time rep), rep⟩

theorem rateInc_within (step : r.natAbs ≤ 10000 * 65536) (total : (rateNow s + r).natAbs ≤ 200000 * 65536) :
    rateInc r s = corrOutcome 0 (modClocks (addRate r) s) := by
  have small : ¬ rateStepMax < r.natAbs := by rw [rateStepMax]; omega
  have low : ¬ rateMax < (rateNow s + r).natAbs := by rw [rateMax]; omega
  exact if_neg (by rw [decide_eq_false small, decide_eq_false low]; decide)

theorem rateInc_beyond (h : 10000 * 65536 < r.natAbs ∨ 200000 * 65536 < (rateNow s + r).natAbs) :
    rateInc r s = corrOutcome 0x7002 s := by
  have excess : rateStepMax < r.natAbs ∨ rateMax < (rateNow s + r).natAbs := by rw [rateStepMax, rateMax]; omega
  exact if_pos ((Bool.or_eq_true _ _).mpr (excess.imp decide_eq_true decide_eq_true))

/-- A correction due that a step does not discard (R452). -/
def keptByStep : Corr → Bool
  | .servoOffset _ => false
  | _ => true

theorem keptByStep_servoOffset {c : Corr} (h : keptByStep c = true) (o : Int) : c ≠ .servoOffset o := by
  rintro rfl
  exact Bool.false_ne_true h

/-- Both clocks moved by a step of `ns` (R451, R452). -/
def timeStepped (ns : Int) (s : State) : State :=
  corrOutcome 0 (modClocks (addOffset (ns * 65536))
    { s with time := { s.time with tjr := false, due := s.time.due.filter keptByStep } })

/-- A step of other than 0 moves both clocks, with event 49 and its record (R451). -/
theorem stepTime_moves {ns : Int} (h : ns ≠ 0) :
    ∃ t, stepTime ns s = t ∧ t.raised 49 ∧ t.time = (timeStepped ns s).time ∧ reported (timeStepped ns s) t := by
  have kept : (fun c => match c with | .servoOffset _ => false | _ => true) = keptByStep :=
    funext fun | .servoOffset _ => rfl | .servoRate _ => rfl
  have moved : ∃ l, stepTime ns s = raiseRec 49 noDetail 0 3 0xFFFF l (timeStepped ns s) := by
    rw [timeStepped, ← kept, stepTime, if_neg h]
    exact ⟨_, rfl⟩
  obtain ⟨l, moved⟩ := moved
  have rep := reported_raiseRec 49 noDetail 0 3 0xFFFF l (timeStepped ns s)
  exact ⟨_, moved, raised_raiseRec (by decide), reported_time rep, rep⟩

theorem stepTime_zero : stepTime 0 s = corrOutcome 0 { s with time := { s.time with tjr := false } } := by
  rw [stepTime]
  exact if_pos rfl

/-! ## The leap second -/

/-- When the leap second announced takes effect: one second before the end of its day when it is a deleted one (R460). -/
def leapDue (s : State) : Int :=
  (((s.time.leapDay : Int) + 1) * 86400 - (if s.time.leapAnn < 0 then 1 else 0)) * 1000000000

theorem leapRow_eq : leapRow s =
    if (s.time.leapAnn ≠ 0 && leapDue s ≤ utcNs s) = true then setLeap (s.time.leap + s.time.leapAnn) 0 s else s := by
  have due : ((s.time.leapDay : Int) + 1) * 86400 * 1000000000 - (if s.time.leapAnn < 0 then 1000000000 else 0) = leapDue s := by
    unfold leapDue
    split <;> omega
  rw [← due, leapRow]

theorem leapRow_due (announced : s.time.leapAnn ≠ 0) (due : leapDue s ≤ utcNs s) :
    leapRow s = setLeap (s.time.leap + s.time.leapAnn) 0 s := by rw [leapRow_eq, if_pos (by simp [announced, due])]

theorem leapRow_early (early : utcNs s < leapDue s) : leapRow s = s := by
  have notDue : ¬ leapDue s ≤ utcNs s := Int.not_le.mpr early
  rw [leapRow_eq, if_neg (by simp [notDue])]

/-- Leap values taken over, with the day from which an announcement counts. -/
def leapTaken (offset ann : Int) (day : Nat) (s : State) : State :=
  { s with time := { s.time with leap := offset, leapAnn := ann, leapV := true, leapDay := day } }

theorem setLeap_changed {offset ann : Int} (h : ¬ (s.time.leap = offset ∧ s.time.leapAnn = ann)) :
    ∃ day, setLeap offset ann s = raiseEv 53 noDetail (leapTaken offset ann day s) := ⟨_, if_neg (by simpa using h)⟩

/-! ## Launches missed -/

theorem missLaunch_raised (d : Nat) (s : State) : (missLaunch d s).raised 55 := raised_raiseEv (by decide)

theorem missLaunch_tx (d : Nat) (s : State) : (missLaunch d s).tx = s.tx := rfl

theorem reported_missLaunch (d : Nat) (s : State) :
    reported { s with time := { s.time with missed := min 0xFFFFFFFF (s.time.missed + 1) } } (missLaunch d s) :=
  reported_raiseEv _ _ _

/-- The Delay_Req awaiting its answer is forgotten when its frame goes unsent (R468). -/
def forgetRequest (f : TimedFrame) (p : PtpSt) : PtpSt :=
  { p with delayReq := if p.delayReq.any (fun d => d.1 = f.serial) then none else p.delayReq }

theorem timedLate_late {f : TimedFrame} {l : List TimedFrame} (hq : s.time.timed = f :: l)
    (late : f.launch + 1000 * 65536 < moduleTime s) :
    timedLate s = missLaunch 0xFF (modPtp (forgetRequest f) { s with time := { s.time with timed := l } }) := by
  rw [timedLate, hq]
  exact if_pos late

theorem timedLate_inTime {f : TimedFrame} {l : List TimedFrame} (hq : s.time.timed = f :: l)
    (inTime : moduleTime s ≤ f.launch + 1000 * 65536) : timedLate s = s := by
  rw [timedLate, hq]
  exact if_neg (Int.not_lt.mpr inTime)

end

/-- What a half has left to send without the frame of a slot to a port (R469). -/
def unsent (slot port : Nat) (t : TxSt) : TxSt :=
  if slot = 0 then { t with sync := none }
  else if slot = 9 then { t with cmds := tabDel t.cmds port }
  else if slot = 10 then { t with permits := tabDel t.permits port }
  else if slot = 11 then { t with acks := t.acks.filter (fun a => a.1 ≠ port + 1) }
  else { t with tables := t.tables.filter (fun x => x.1 ≠ port) }

section
variable {slot port : Nat} {t : TxSt}

theorem unsent_acks : ∀ a ∈ (unsent 11 port t).acks, a.1 ≠ port + 1 := fun _ ha => of_decide_eq_true (List.mem_filter.mp ha).2

theorem unsent_tables (h0 : slot ≠ 0) (h9 : slot ≠ 9) (h10 : slot ≠ 10) (h11 : slot ≠ 11) :
    ∀ x ∈ (unsent slot port t).tables, x.1 ≠ port := by
  rw [unsent, if_neg h0, if_neg h9, if_neg h10, if_neg h11]
  exact fun _ hx => of_decide_eq_true (List.mem_filter.mp hx).2

/-- Commands and permits of other ports stay. -/
theorem unsent_otherPort {p : Nat} (hp : p ≠ port) : tabFind (unsent slot port t).cmds p = tabFind t.cmds p ∧
    tabFind (unsent slot port t).permits p = tabFind t.permits p := by
  unfold unsent
  split_ifs
  · exact ⟨rfl, rfl⟩
  · exact ⟨tabFind_del_other t.cmds hp, rfl⟩
  · exact ⟨rfl, tabFind_del_other t.permits hp⟩
  · exact ⟨rfl, rfl⟩
  · exact ⟨rfl, rfl⟩

theorem launchMissed_up {s : State} {h : Half} (up : chanUp s h = true) :
    launchMissed h slot port s = missLaunch port { s with tx := twoPut s.tx h (unsent slot port (twoGet s.tx h)) } :=
  if_neg (by simp [up])

theorem launchMissed_down {s : State} {h : Half} (down : chanUp s h = false) : launchMissed h slot port s = s :=
  if_pos (by simp [down])

end

/-! ## The rows -/

/-- Settles O35: corrections by increment and step, the leap second, the source lost, launches missed. -/
theorem timeCorrections : Obligations.TimeCorrections := by
  refine ⟨fun s n o ha => ⟨fun within => ?_, fun beyond => ?_⟩, fun s n r ha => ⟨fun step total => ?_, fun beyond => ?_⟩,
    fun s n ns ha => ⟨fun hn => ?_, next_correction ha stepTime_zero rfl, next_asSession ha rfl⟩,
    fun s announced => ⟨fun due => ?_, fun early => congrArg Host.Outcome.next (leapRow_early early)⟩,
    fun s => ⟨fun datum synced => ?_, fun other => ?_⟩,
    fun s f l hq => ⟨fun late => ?_, fun inTime => congrArg Host.Outcome.next (timedLate_inTime hq inTime)⟩,
    fun s h slot port => ⟨fun up => ?_, fun down => congrArg Host.Outcome.next (launchMissed_down down)⟩⟩
  · refine ⟨_, next_correction ha (offsetInc_within within) rfl, rfl, fun h => ?_, rfl⟩
    exact (congrArg halfReading (twoGet_map s.time.halves _ h)).trans (halfReading_addOffset o _)
  · obtain ⟨t, refuses, raised, out, rep⟩ := offsetInc_beyond beyond
    exact ⟨_, next_correction ha refuses out, raised, rfl, rfl, reported_trans rep (reported_withResult _ t)⟩
  · refine ⟨_, next_correction ha (rateInc_within step total) rfl, rfl, fun h => ?_, rfl⟩
    have changed : twoGet (modClocks (addRate r) s).time.halves h = addRate r (twoGet s.time.halves h) := twoGet_map _ _ h
    exact ⟨(congrArg halfReading changed).trans (halfReading_addRate r _), congrArg HalfClock.r changed⟩
  · exact next_correction ha (code := 0x7002) (rateInc_beyond beyond) rfl
  · obtain ⟨t, steps, raised, time, rep⟩ := stepTime_moves (s := s) hn
    have kept : t.time.due = s.time.due.filter keptByStep := congrArg TimeSt.due time
    refine ⟨_, next_correction (code := 0) ha steps (congrArg TimeSt.outcome time), raised, congrArg TimeSt.tjr time, rfl,
      fun h => ?_, fun c hc => ?_, fun r hr => ?_, ?_⟩
    · have moved : twoGet t.time.halves h = addOffset (ns * 65536) (twoGet s.time.halves h) :=
        (congrArg (twoGet ·.halves h) time).trans (twoGet_map _ _ h)
      exact (congrArg halfReading moved).trans (halfReading_addOffset _ _)
    · obtain ⟨mem, keeps⟩ := List.mem_filter.mp (kept ▸ hc)
      exact ⟨mem, keptByStep_servoOffset keeps⟩
    · exact kept ▸ List.mem_filter.mpr ⟨hr, rfl⟩
    · refine reported_trans ?_ (reported_withResult _ t)
      show reported { s with time := { s.time with halves := t.time.halves, due := t.time.due, tjr := false, outcome := 0 } } t
      rw [time]
      exact rep
  · have changed : ¬ (s.time.leap = s.time.leap + s.time.leapAnn ∧ s.time.leapAnn = 0) := fun same => announced same.2
    obtain ⟨day, taken⟩ := setLeap_changed changed
    exact ⟨_, congrArg Host.Outcome.next ((leapRow_due announced due).trans taken), raised_raiseEv (by decide), rfl, rfl, rfl,
      reported_raiseEv _ _ _⟩
  · exact ⟨loseSource s, congrArg Host.Outcome.next (if_pos (by simp [datum, synced])), raised_raiseEv (by decide),
      reported_raiseEv _ _ _⟩
  · exact congrArg Host.Outcome.next (if_neg (by simp [other]))
  · exact ⟨_, congrArg Host.Outcome.next (timedLate_late hq late), missLaunch_raised _ _, rfl, rfl, reported_missLaunch _ _⟩
  · have sent := twoGet_put s.tx h (unsent slot port (twoGet s.tx h))
    refine ⟨_, congrArg Host.Outcome.next (launchMissed_up up), missLaunch_raised _ _, rfl, ?_, ?_, ?_, ?_, ?_, ?_,
      twoGet_put_other s.tx _ (otherHalf_ne h), reported_missLaunch _ _⟩
    all_goals rw [missLaunch_tx, sent]
    · rintro rfl
      rfl
    · rintro rfl
      exact tabFind_del _ port
    · rintro rfl
      exact tabFind_del _ port
    · rintro rfl
      exact unsent_acks
    · exact unsent_tables
    · exact fun p hp => unsent_otherPort hp

end Sys2Proof.Proofs
end

section
/-! PROOFS. The PTP slave (R455 to R459, R468): masters heard and lost, Sync and Follow_Up measured, Delay_Req and its answer. -/

namespace Sys2Proof.Proofs

open Sys2Proof Sys2Proof.Machine Sys2Proof.Laws

/-! ## Changes of the time base alone -/

/-- Only the time base has changed, and reports. -/
def timeOnly (s t : State) : Prop := told s t ∧ t = { s with time := t.time, ev := t.ev, dict := t.dict }

/-- Only the time base has changed, with free values taken, and reports. -/
def timeMeasured (s t : State) : Prop := told s t ∧ t = { s with time := t.time, free := t.free, ev := t.ev, dict := t.dict }

section
variable {s t u : State} {m c : Master}

theorem timeOnly_of (time : TimeSt) (s : State) : timeOnly s { s with time := time } := ⟨told_of_eq rfl rfl, rfl⟩

theorem timeOnly_trans (h : timeOnly s t) (k : timeOnly t u) : timeOnly s u := by
  refine ⟨told_trans h.1 k.1, ?_⟩
  have e := k.2
  rw [h.2] at e
  exact e

theorem timeOnly_raiseEv (e d : Nat) (s : State) : timeOnly s (raiseEv e d s) := ⟨told_raiseEv e d s, rfl⟩

theorem timeOnly_stamp (q sel : Nat) (e : StampEntry) (s : State) : timeOnly s (stamp q sel e s) :=
  ⟨told_stamp q sel e s, stamp_eq q sel e s⟩

theorem timeOnly_modPtp (f : PtpSt → PtpSt) (s : State) : timeOnly s (modPtp f s) := timeOnly_of _ s

theorem timeMeasured_of_timeOnly (h : timeOnly s t) (k : timeMeasured t u) : timeMeasured s u := by
  refine ⟨told_trans h.1 k.1, ?_⟩
  have e := k.2
  rw [h.2] at e
  exact e

theorem stamp_time (q sel : Nat) (e : StampEntry) (s : State) :
    (stamp q sel e s).time = { s.time with stamps := (stamp q sel e s).time.stamps } :=
  congrArg State.time (stamped_stamp q sel e s).2

/-! ## Masters -/

theorem timeOnly_chooseMaster (s : State) : timeOnly s (chooseMaster s) := by
  unfold chooseMaster
  dsimp only
  split
  · exact timeOnly_modPtp _ s
  · exact timeOnly_trans (timeOnly_of _ s) (timeOnly_raiseEv _ _ _)

/-- The best master heard becomes the current one; what the servo has measured from another may go (R456). -/
theorem chooseMaster_time (s : State) : (chooseMaster s).time = { s.time with
    ptp := { s.time.ptp with current := (bestMaster s.time.ptp.masters).map (·.sender) }
    servo := (chooseMaster s).time.servo, meas := (chooseMaster s).time.meas, goodRun := (chooseMaster s).time.goodRun } := by
  unfold chooseMaster
  dsimp only
  split <;> rfl

theorem timeOnly_setLeap (offset ann : Int) (s : State) : timeOnly s (setLeap offset ann s) := by
  unfold setLeap
  dsimp only
  split
  · exact timeOnly_of _ s
  · exact timeOnly_trans (timeOnly_of _ s) (timeOnly_raiseEv _ _ _)

theorem setLeap_time (offset ann : Int) (s : State) : (setLeap offset ann s).time = { s.time with
    leap := offset, leapAnn := ann, leapV := true, leapDay := (setLeap offset ann s).time.leapDay } := by
  unfold setLeap
  dsimp only
  split <;> rfl

/-- PTP's leap values are taken over or nothing changes (R459). -/
theorem ptpLeap_cases (s : State) : (∃ offset ann, ptpLeap s = setLeap offset ann s) ∨ ptpLeap s = s := by
  unfold ptpLeap
  split
  · split
    · exact .inl ⟨_, _, rfl⟩
    · exact .inr rfl
  · exact .inr rfl

theorem timeOnly_ptpLeap (s : State) : timeOnly s (ptpLeap s) := by
  obtain ⟨offset, ann, taken⟩ | same := ptpLeap_cases s
  · exact taken ▸ timeOnly_setLeap offset ann s
  · exact same.symm ▸ timeOnly_of s.time s

/-- Leap values concern neither PTP's own state nor a clock. -/
theorem ptpLeap_keeps (s : State) : (ptpLeap s).time.ptp = s.time.ptp ∧ (ptpLeap s).time.halves = s.time.halves := by
  obtain ⟨offset, ann, taken⟩ | same := ptpLeap_cases s
  · rw [taken, setLeap_time]
    exact ⟨rfl, rfl⟩
  · rw [same]
    exact ⟨rfl, rfl⟩

/-- The masters after an Announce message: its sender's entry is the newest, and the only one of it (R457). -/
def mastersHeard (m : Master) (s : State) : List Master :=
  s.time.ptp.masters.filter (fun x => x.sender ≠ m.sender) ++ [{ m with heard := s.ns }]

/-- What an Announce message of the domain makes of the masters (R457). -/
theorem announce_spec (m : Master) (s : State) :
    ∃ t, announce s.time.ptp.domain m s = t ∧
      t.time.ptp = { s.time.ptp with masters := mastersHeard m s, current := (bestMaster (mastersHeard m s)).map (·.sender) } ∧
      t.time.halves = s.time.halves ∧ timeOnly s t := by
  have heard : announce s.time.ptp.domain m s =
      ptpLeap (chooseMaster (modPtp (fun p => { p with masters := mastersHeard m s }) s)) := if_neg (not_not.mpr rfl)
  generalize hu : modPtp (fun p => { p with masters := mastersHeard m s }) s = u at heard
  obtain ⟨ptp, halves⟩ := ptpLeap_keeps (chooseMaster u)
  rw [chooseMaster_time] at ptp halves
  refine ⟨_, heard, ?_, ?_, timeOnly_trans ?_ (timeOnly_trans (timeOnly_chooseMaster u) (timeOnly_ptpLeap _))⟩
  · rw [ptp, ← hu]
    rfl
  · rw [halves, ← hu]
    rfl
  · rw [← hu]
    exact timeOnly_modPtp _ s

theorem announce_otherDomain {domain : Nat} (h : domain ≠ s.time.ptp.domain) : announce domain m s = s := if_pos h

theorem bestMaster_pair (x y : Master) : bestMaster [x, y] = if betterMaster y x then some y else some x := rfl

theorem mastersHeard_first (h : s.time.ptp.masters = []) : mastersHeard m s = [{ m with heard := s.ns }] := by
  rw [mastersHeard, h]
  rfl

theorem mastersHeard_second {x : Master} (h : s.time.ptp.masters = [x]) (other : x.sender ≠ m.sender) :
    mastersHeard m s = [x, { m with heard := s.ns }] := by
  rw [mastersHeard, h, List.filter_eq_self.mpr (by simpa using other)]
  rfl

theorem betterMaster_heard (x : Master) (ns : Nat) : betterMaster { m with heard := ns } x = betterMaster m x := rfl

/-- A master that is no longer heard out of the list, and the best of the others current (R455). -/
def masterLost (sender : Nat) (s : State) : State :=
  chooseMaster (modPtp (fun p => { p with masters := p.masters.filter (fun x => x.sender ≠ sender) }) s)

theorem timeOnly_masterLost (sender : Nat) (s : State) : timeOnly s (masterLost sender s) :=
  timeOnly_trans (timeOnly_modPtp _ s) (timeOnly_chooseMaster _)

theorem masterLost_time (sender : Nat) (s : State) :
    (masterLost sender s).time.ptp.masters = s.time.ptp.masters.filter (fun x => x.sender ≠ sender) ∧
    (masterLost sender s).time.ptp.current = (bestMaster (masterLost sender s).time.ptp.masters).map (·.sender) ∧
    (masterLost sender s).time.src = s.time.src ∧ (masterLost sender s).time.halves = s.time.halves := by
  rw [masterLost, chooseMaster_time]
  exact ⟨rfl, rfl, rfl, rfl⟩

theorem announceTimeout_due {sender : Nat} (found : s.time.ptp.masters.find? (fun x => x.sender = sender) = some m)
    (due : m.heard + s.time.ptp.timeout * m.interval ≤ s.ns) : announceTimeout sender s =
      if (masterLost sender s).time.ptp.current.isNone && (masterLost sender s).time.src = 1 then loseSource (masterLost sender s)
      else masterLost sender s := by
  rw [announceTimeout, found]
  exact if_pos due

theorem announceTimeout_early {sender : Nat} (found : s.time.ptp.masters.find? (fun x => x.sender = sender) = some m)
    (early : s.ns < m.heard + s.time.ptp.timeout * m.interval) : announceTimeout sender s = s := by
  rw [announceTimeout, found]
  exact if_neg (Nat.not_le.mpr early)

theorem timeOnly_loseSource (s : State) : timeOnly s (loseSource s) :=
  timeOnly_trans (timeOnly_of _ s) (timeOnly_raiseEv _ _ _)

/-- What the timeout of a master's Announce messages does (R455, R456). -/
theorem announceTimeout_spec {sender : Nat} (found : s.time.ptp.masters.find? (fun x => x.sender = sender) = some m)
    (due : m.heard + s.time.ptp.timeout * m.interval ≤ s.ns) :
    ∃ t, announceTimeout sender s = t ∧ t.time.ptp = (masterLost sender s).time.ptp ∧
      (t.time.ptp.masters = [] → s.time.src = 1 → t.raised 51 ∧ t.time.servo = .holdover ∧ t.time.src = 0) ∧
      t.time.halves = s.time.halves ∧ timeOnly s t := by
  obtain ⟨-, current, src, halves⟩ := masterLost_time sender s
  have kept := timeOnly_masterLost sender s
  rw [announceTimeout_due found due]
  split
  · exact ⟨_, rfl, rfl, fun _ _ => ⟨raised_raiseEv (by decide), rfl, rfl⟩, halves, timeOnly_trans kept (timeOnly_loseSource _)⟩
  · rename_i stays
    refine ⟨_, rfl, rfl, fun last ptp => absurd ?_ stays, halves, kept⟩
    rw [current, last, src, ptp]
    rfl

/-! ## Sync and Follow_Up -/

theorem timeOnly_useSource (src : Nat) (s : State) : timeOnly s (useSource src s) := by
  unfold useSource
  split
  · split
    · exact timeOnly_of _ s
    · exact timeOnly_of s.time s
  · exact timeOnly_trans (timeOnly_of _ s) (timeOnly_raiseEv _ _ _)

/-- The source that is used is the one in use; clocks and PTP's own state stay (R456). -/
theorem useSource_time (src : Nat) (s : State) : (useSource src s).time.src = src ∧
    (useSource src s).time.halves = s.time.halves ∧ (useSource src s).time.ptp = s.time.ptp := by
  unfold useSource
  split
  · rename_i same
    split
    · exact ⟨rfl, rfl, rfl⟩
    · exact ⟨same, rfl, rfl⟩
  · exact ⟨rfl, rfl, rfl⟩

/-- What a measured offset changes: the source in use, the offset, the servo; no reading moves (R447, R455). -/
theorem servoMeasure_spec (src : Nat) (off : Int) (s : State) :
    (servoMeasure src off s).time.lastOffset = off ∧ (servoMeasure src off s).time.src = src ∧
    (servoMeasure src off s).time.halves = s.time.halves ∧ (servoMeasure src off s).time.ptp = s.time.ptp ∧
    timeMeasured s (servoMeasure src off s) := by
  obtain ⟨source, halves, ptp⟩ := useSource_time src s
  exact ⟨rfl, source, halves, ptp, timeMeasured_of_timeOnly (timeOnly_useSource src s) ⟨told_of_eq rfl rfl, rfl⟩⟩

/-- A measurement of a Sync has been made: its origin and arrival are the last ones, the offset from the master is known, PTP is the
source, and no reading has moved (R456, R457). -/
structure SyncMeasured (s : State) (origin rx : Int) (t : State) : Prop where
  lastSync : t.time.ptp.lastSync = some (origin, rx)
  awaiting : t.time.ptp.awaiting = none
  offset : t.time.lastOffset = rx - origin - s.time.ptp.pathDelay * 65536
  source : t.time.src = 1
  halves : t.time.halves = s.time.halves
  kept : timeMeasured s t

/-- A complete Sync is a measurement while PTP serves as source (R454, R457). -/
theorem ptpMeasure_measures (used : ptpUsed s = true) (origin rx : Int) : SyncMeasured s origin rx (ptpMeasure origin rx s) := by
  have measures : ptpMeasure origin rx s = servoMeasure 1 (rx - origin - s.time.ptp.pathDelay * 65536)
      (modPtp (fun p => { p with lastSync := some (origin, rx), awaiting := none }) s) := if_pos used
  obtain ⟨offset, source, halves, ptp, kept⟩ := servoMeasure_spec 1 (rx - origin - s.time.ptp.pathDelay * 65536)
    (modPtp (fun p => { p with lastSync := some (origin, rx), awaiting := none }) s)
  rw [measures]
  exact ⟨congrArg PtpSt.lastSync ptp, congrArg PtpSt.awaiting ptp, offset, source, halves,
    timeMeasured_of_timeOnly (timeOnly_modPtp _ s) kept⟩

/-- A Sync of the current master stamped on its arrival (R463, Table 12.4). -/
def syncArrived (m : PtpMsg) (dt : Nat) (s : State) : State := stamp 69 0 (portStamp 69 m.seq false (timeAfter s dt)) s

theorem timeOnly_syncArrived (m : PtpMsg) (dt : Nat) (s : State) : timeOnly s (syncArrived m dt s) := timeOnly_stamp _ _ _ _

theorem syncArrived_time (m : PtpMsg) (dt : Nat) (s : State) :
    (syncArrived m dt s).time = { s.time with stamps := (syncArrived m dt s).time.stamps } := stamp_time _ _ _ _

theorem ptpUsed_syncArrived (m : PtpMsg) (dt : Nat) (s : State) : ptpUsed (syncArrived m dt s) = ptpUsed s := by
  rw [ptpUsed, syncArrived_time, ptpUsed]

/-- The stamp of its arrival changes nothing that the measurement of a Sync depends on. -/
theorem SyncMeasured.of_syncArrived {m : PtpMsg} {dt : Nat} {origin rx : Int} (h : SyncMeasured (syncArrived m dt s) origin rx t) :
    SyncMeasured s origin rx t where
  lastSync := h.lastSync
  awaiting := h.awaiting
  offset := by rw [h.offset, syncArrived_time]
  source := h.source
  halves := by rw [h.halves, syncArrived_time]
  kept := timeMeasured_of_timeOnly (timeOnly_syncArrived m dt s) h.kept

/-- A two-step Sync that waits for its Follow_Up (R457). -/
def syncWaits (m : PtpMsg) (dt : Nat) (s : State) : State :=
  modPtp (fun p => { p with awaiting := some (m.seq, timeAfter s dt) }) (syncArrived m dt s)

theorem timeOnly_syncWaits (m : PtpMsg) (dt : Nat) (s : State) : timeOnly s (syncWaits m dt s) :=
  timeOnly_trans (timeOnly_syncArrived m dt s) (timeOnly_modPtp _ _)

theorem syncWaits_time (m : PtpMsg) (dt : Nat) (s : State) :
    (syncWaits m dt s).time.ptp.awaiting = some (m.seq, timeAfter s dt) ∧
    (syncWaits m dt s).time.lastOffset = s.time.lastOffset ∧ (syncWaits m dt s).time.due = s.time.due ∧
    (syncWaits m dt s).time.halves = s.time.halves := by
  rw [syncWaits, modPtp, syncArrived_time]
  exact ⟨rfl, rfl, rfl, rfl⟩

section
variable {m : PtpMsg} (dt : Nat) (current : currentMaster s = some c)
include current

theorem ptpSync_other (h : m.domain ≠ s.time.ptp.domain ∨ m.sender ≠ c.sender) : ptpSync m dt s = s := by
  rw [ptpSync, current]
  exact if_pos ((Bool.or_eq_true _ _).mpr (h.imp decide_eq_true fun other => decide_eq_true other.symm))

variable (domain : m.domain = s.time.ptp.domain) (sender : m.sender = c.sender)
include domain sender

theorem ptpSync_discards (invalid : c.timescale = false ∨ m.logInt < -7 ∨ 1 < m.logInt) : ptpSync m dt s = ptpDiscard s := by
  rw [ptpSync, current]
  exact (if_neg (by simp [domain, sender])).trans (if_pos (by simpa [or_assoc] using invalid))

theorem ptpSync_valid (scale : c.timescale = true) (low : -7 ≤ m.logInt) (high : m.logInt ≤ 1) : ptpSync m dt s =
    if m.twoStep then syncWaits m dt s else ptpMeasure m.origin (timeAfter s dt) (syncArrived m dt s) := by
  rw [ptpSync, current]
  exact (if_neg (by simp [domain, sender])).trans (if_neg (by simp [scale, low, high]))

theorem ptpSync_measures (scale : c.timescale = true) (low : -7 ≤ m.logInt) (high : m.logInt ≤ 1) (oneStep : m.twoStep = false)
    (used : ptpUsed s = true) : SyncMeasured s m.origin (timeAfter s dt) (ptpSync m dt s) := by
  rw [ptpSync_valid dt current domain sender scale low high, oneStep]
  exact (ptpMeasure_measures ((ptpUsed_syncArrived m dt s).trans used) _ _).of_syncArrived

omit dt in
theorem followUp_awaited {rx : Int} (awaited : s.time.ptp.awaiting = some (m.seq, rx)) : followUp m s = ptpMeasure m.origin rx s := by
  rw [followUp, current, awaited]
  exact if_pos (by simp [domain, sender])

end

theorem followUp_notAwaited {m : PtpMsg} (h : s.time.ptp.awaiting = none) : followUp m s = s := by
  rw [followUp, h]
  cases currentMaster s <;> rfl

/-! ## Delay_Req and Delay_Resp -/

/-- The timed queue with a frame in its place by launch time (R468). -/
def timedWith (f : TimedFrame) (l : List TimedFrame) : List TimedFrame :=
  l.filter (fun x => x.launch ≤ f.launch) ++ [f] ++ l.filter (fun x => f.launch < x.launch)

theorem mem_timedWith {f g : TimedFrame} {l : List TimedFrame} : g ∈ timedWith f l ↔ g = f ∨ g ∈ l := by
  have side := le_or_gt g.launch f.launch
  simp only [timedWith, List.mem_append, List.mem_filter, List.mem_singleton, decide_eq_true_eq]
  tauto

theorem length_timedWith (f : TimedFrame) (l : List TimedFrame) : (timedWith f l).length = l.length + 1 := by
  have halves := List.length_eq_length_filter_add (l := l) (fun x => decide (x.launch ≤ f.launch))
  have later : (fun x : TimedFrame => !decide (x.launch ≤ f.launch)) = fun x => decide (f.launch < x.launch) := by
    funext x
    rw [← decide_not, decide_eq_decide, Int.not_le]
  rw [later] at halves
  simp only [timedWith, List.length_append, List.length_singleton]
  omega

theorem queueTimed_full {f : TimedFrame} (full : 8 ≤ s.time.timed.length) : queueTimed f s = none :=
  if_pos (by simp [timedCap, full])

theorem queueTimed_room {f : TimedFrame} (near : f.launch ≤ moduleTime s + 1000000000 * 65536) (room : s.time.timed.length < 8) :
    queueTimed f s = some { s with time := { s.time with timed := timedWith f s.time.timed } } := by
  have free : ¬ timedCap ≤ s.time.timed.length := Nat.not_le.mpr room
  exact if_neg (by rw [decide_eq_false (Int.not_lt.mpr near), decide_eq_false free]; decide)

/-- The sequence number of the next Delay_Req. -/
def nextDelaySeq (s : State) : Nat := (s.time.ptp.delaySeq + 1) % 65536

/-- A Delay_Req in the timed queue, outstanding from now on (R457). -/
def delayRequested (launch : Int) (s : State) : State :=
  modPtp (fun p => { p with delaySeq := nextDelaySeq s, delayReq := some (nextDelaySeq s, launch), lastReq := s.ns })
    { s with time := { s.time with timed := timedWith ⟨launch, nextDelaySeq s⟩ s.time.timed } }

/-- The Delay_Req queued, and stamped with its launch time (R463, R468). -/
def delaySent (launch : Int) (s : State) : State :=
  stamp 68 0 (portStamp 68 (nextDelaySeq s) true launch) (delayRequested launch s)

theorem timeOnly_delaySent (launch : Int) (s : State) : timeOnly s (delaySent launch s) :=
  timeOnly_trans (timeOnly_of (delayRequested launch s).time s) (timeOnly_stamp _ _ _ _)

theorem delaySent_time (launch : Int) (s : State) :
    (delaySent launch s).time = { (delayRequested launch s).time with stamps := (delaySent launch s).time.stamps } :=
  stamp_time _ _ _ _

section
variable {launch : Int} (current : currentMaster s = some c)
include current

theorem ptpDelayReq_early (sent : s.time.ptp.lastReq ≠ 0) (early : s.ns < s.time.ptp.lastReq + c.delayInt) :
    ptpDelayReq launch s = s := by
  rw [ptpDelayReq, current]
  exact if_pos (by simp [sent, early])

theorem ptpDelayReq_full (full : 8 ≤ s.time.timed.length) : ptpDelayReq launch s = s := by
  simp only [ptpDelayReq, current, queueTimed_full full, ite_self]

theorem ptpDelayReq_due (due : s.time.ptp.lastReq = 0 ∨ s.time.ptp.lastReq + c.delayInt ≤ s.ns)
    (near : launch ≤ moduleTime s + 1000000000 * 65536) (room : s.time.timed.length < 8) :
    ptpDelayReq launch s = delaySent launch s := by
  have notEarly : ¬ (s.time.ptp.lastReq ≠ 0 && s.ns < s.time.ptp.lastReq + c.delayInt) = true := by
    simpa [or_iff_not_imp_left] using due
  have queued := queueTimed_room (f := ⟨launch, nextDelaySeq s⟩) near room
  rw [nextDelaySeq] at queued
  simp only [ptpDelayReq, current]
  rw [if_neg notEarly, queued]
  rfl

variable {sender seq : Nat} {received o rx : Int} (out : s.time.ptp.delayReq = some (seq, launch))
  (sync : s.time.ptp.lastSync = some (o, rx))
include out sync

theorem ptpDelayResp_answers : ptpDelayResp c.sender seq received s =
    modPtp (fun p => { p with pathDelay := ((rx - o + (received - launch)) / 2 / 65536).toNat, delayReq := none }) s := by
  rw [ptpDelayResp, current, out, sync]
  exact if_pos (by simp)

theorem ptpDelayResp_other {q : Nat} (hq : q ≠ seq) : ptpDelayResp sender q received s = s := by
  rw [ptpDelayResp, current, out, sync]
  exact if_neg (by simp [hq.symm])

end

end

/-! ## The rows -/

/-- Settles O36: the rows of the PTP slave, each as its lemma says. -/
theorem ptpSlave : Obligations.PtpSlave := by
  refine ⟨fun s domain m => ⟨fun other => congrArg Host.Outcome.next (announce_otherDomain other), ?_⟩,
    fun s sender m found => ⟨fun due => ?_, fun early => congrArg Host.Outcome.next (announceTimeout_early found early)⟩,
    fun s c m dt current => ⟨fun domain sender scale low high oneStep used => ?_, fun domain sender scale low high twoStep => ?_,
      fun domain sender invalid => congrArg Host.Outcome.next (ptpSync_discards dt current domain sender invalid),
      fun other => congrArg Host.Outcome.next (ptpSync_other dt current other),
      fun rx awaited domain sender used => ?_, fun idle => congrArg Host.Outcome.next (followUp_notAwaited idle)⟩,
    fun s c launch current => ⟨fun due near room => ?_,
      fun sent early => congrArg Host.Outcome.next (ptpDelayReq_early current sent early),
      fun full => congrArg Host.Outcome.next (ptpDelayReq_full current full)⟩,
    fun s c seq launch o rx received current out sync =>
      ⟨congrArg Host.Outcome.next (ptpDelayResp_answers current out sync),
        fun q hq => congrArg Host.Outcome.next (ptpDelayResp_other current out sync hq)⟩⟩
  · rintro rfl
    obtain ⟨t, hears, ptp, halves, told, kept⟩ := announce_spec m s
    refine ⟨t, congrArg Host.Outcome.next hears, ?_, ?_, fun first => ?_, fun x one other => ?_, halves, ?_, told, kept⟩
    · rw [ptp, mastersHeard]
    · rw [ptp]
    · rw [ptp, mastersHeard_first first]
      rfl
    · rw [ptp, mastersHeard_second one other, bestMaster_pair, betterMaster_heard]
      split <;> rfl
    · rw [ptp]
  · obtain ⟨t, times, ptp, lost, halves, told, kept⟩ := announceTimeout_spec found due
    obtain ⟨masters, best, -, -⟩ := masterLost_time sender s
    exact ⟨t, congrArg Host.Outcome.next times, ptp ▸ masters, ptp ▸ best, lost, halves, told, kept⟩
  · obtain ⟨sync, awaiting, offset, source, halves, told, kept⟩ :=
      ptpSync_measures dt current domain sender scale low high oneStep used
    exact ⟨_, rfl, sync, awaiting, offset, source, halves, told, kept⟩
  · have waits := (ptpSync_valid dt current domain sender scale low high).trans (if_pos twoStep)
    obtain ⟨awaiting, offset, due, halves⟩ := syncWaits_time m dt s
    obtain ⟨told, kept⟩ := timeOnly_syncWaits m dt s
    exact ⟨_, congrArg Host.Outcome.next waits, awaiting, offset, due, halves, told, kept⟩
  · obtain ⟨sync, awaiting, offset, source, halves, told, kept⟩ := ptpMeasure_measures used m.origin rx
    exact ⟨_, congrArg Host.Outcome.next (followUp_awaited current domain sender awaited), sync, awaiting, offset, source, halves,
      told, kept⟩
  · have time := delaySent_time launch s
    have timed : (delaySent launch s).time.timed = timedWith ⟨launch, nextDelaySeq s⟩ s.time.timed := congrArg TimeSt.timed time
    obtain ⟨told, kept⟩ := timeOnly_delaySent launch s
    refine ⟨_, congrArg Host.Outcome.next (ptpDelayReq_due current due near room), congrArg (·.ptp.delaySeq) time,
      congrArg (·.ptp.delayReq) time, congrArg (·.ptp.lastReq) time, ?_, ?_, fun f hf => ?_, told, kept⟩
    · exact timed ▸ mem_timedWith.mpr (.inl rfl)
    · exact (congrArg List.length timed).trans (length_timedWith _ _)
    · exact timed ▸ mem_timedWith.mpr (.inr hf)

end Sys2Proof.Proofs
end

section
/-! PROOFS. Words and byte strings read where they were written; the layouts of envelopes and of bridge transactions (R474, R525,
Tables 10.2, 10.4, 13.13). -/

namespace Sys2Proof.Proofs

open Sys2Proof Sys2Proof.Machine Sys2Proof.Laws

/-! ## Fields of a byte string -/

theorem foldl_be (n : Nat) : ∀ v acc : Nat,
    (be n v).foldl (fun a b => a * 256 + b.toNat) acc = acc * 256 ^ n + v % 256 ^ n := by
  induction n with
  | zero => intro v acc; simp [be, Nat.mod_one]
  | succ n ih =>
    intro v acc
    have digits : v % 256 ^ (n + 1) = v % 256 ^ n + 256 ^ n * (v / 256 ^ n % 256) := Nat.mod_pow_succ
    rw [be, List.foldl_cons, ih, digits, BitVec.toNat_ofNat, Nat.pow_succ]
    ring

/-- Reading a big-endian number of `n` bytes gives what fits in them. -/
theorem ofBe_be (n v : Nat) : ofBe (be n v) = v % 256 ^ n :=
  (foldl_be n v 0).trans (by rw [Nat.zero_mul, Nat.zero_add])

theorem cut_append (a b : List Byte) (off len : Nat) : cut (a ++ b) (a.length + off) len = cut b off len := by
  rw [cut, List.drop_length_add_append, cut]

theorem cut_here (a b : List Byte) : cut (a ++ b) 0 a.length = a := by
  simp [cut]

/-- A field behind a byte string. -/
theorem field_append (a b : List Byte) (off len : Nat) : field (a ++ b) (a.length + off) len = field b off len :=
  congrArg ofBe (cut_append a b off len)

/-- A field behind a number. -/
theorem field_skip {n off : Nat} (h : n ≤ off) (v len : Nat) (l : List Byte) : field (be n v ++ l) off len = field l (off - n) len := by
  have at_ : off = (be n v).length + (off - n) := by rw [length_be]; omega
  rw [at_, field_append]
  congr 1
  rw [length_be]
  omega

/-- The number a byte string begins with, cut to the field's width. -/
theorem field_mod (n v : Nat) (l : List Byte) : field (be n v ++ l) 0 n = v % 256 ^ n := by
  have whole := cut_here (be n v) l
  rw [length_be] at whole
  rw [field, whole, ofBe_be]

theorem field_here {n v : Nat} (h : v < 256 ^ n) (l : List Byte) : field (be n v ++ l) 0 n = v := by
  rw [field_mod, Nat.mod_eq_of_lt h]

theorem field_alone {n v : Nat} (h : v < 256 ^ n) : field (be n v) 0 n = v := by
  simpa using field_here h []

/-! ## Envelopes -/

section
variable (e : Envelope) (tail : List Byte)

theorem length_cascadeBytes : (cascadeBytes e).length = 16 + e.payload.length := by
  simp only [cascadeBytes, envHeader, List.length_append, length_be]

/-- A field of the trailer stands behind header and payload. -/
theorem field_trailer (off n : Nat) : field (cascadeBytes e ++ tail) (16 + e.payload.length + off) n = field tail off n := by
  rw [← length_cascadeBytes, field_append]

theorem cut_payload : cut (cascadeBytes e ++ tail) 16 e.payload.length = e.payload := by
  have header : cascadeBytes e ++ tail =
      envHeader e.tag e.seq e.stamp e.epoch e.kind e.flags e.payload.length ++ (e.payload ++ tail) := List.append_assoc ..
  have size : (envHeader e.tag e.seq e.stamp e.epoch e.kind e.flags e.payload.length).length = 16 := by
    simp only [envHeader, List.length_append, length_be]
  have behind := cut_append (envHeader e.tag e.seq e.stamp e.epoch e.kind e.flags e.payload.length) (e.payload ++ tail) 0 e.payload.length
  rw [size] at behind
  rw [header, behind, cut_here]

/-- The header's fields, each at its place (Table 10.2). -/
theorem fields_cascadeBytes :
    field (cascadeBytes e ++ tail) 0 2 = e.tag % 256 ^ 2 ∧ field (cascadeBytes e ++ tail) 2 4 = e.seq % 256 ^ 4 ∧
    field (cascadeBytes e ++ tail) 6 4 = e.stamp % 256 ^ 4 ∧ field (cascadeBytes e ++ tail) 10 2 = e.epoch % 256 ^ 2 ∧
    field (cascadeBytes e ++ tail) 12 1 = e.kind % 256 ^ 1 ∧ field (cascadeBytes e ++ tail) 13 1 = e.flags % 256 ^ 1 ∧
    field (cascadeBytes e ++ tail) 14 2 = e.payload.length % 256 ^ 2 := by
  simp [cascadeBytes, envHeader, List.append_assoc, field_skip, field_mod]

end

/-- The fields of an envelope are within the widths of Table 10.2. -/
structure EnvelopeFits (e : Envelope) : Prop where
  tag : e.tag < 2 ^ 16
  seq : e.seq < 2 ^ 32
  stamp : e.stamp < 2 ^ 32
  epoch : e.epoch < 2 ^ 16
  kind : e.kind < 2 ^ 8
  payload : e.payload.length < 2 ^ 16

section
variable {e : Envelope} (fits : EnvelopeFits e) (tail : List Byte)
include fits

/-- Reading header, payload and some trailer: length, flags and reserved octets decide whether there is an envelope, and then every
field is the one written. -/
theorem readEnvelope_cascadeBytes : readEnvelope (cascadeBytes e ++ tail) =
    if tail.length ≠ (if e.kind = 0x95 then 4 else 12) ∨ e.flags % 256 ≠ 0 ∨ e.kind ≠ 0x95 ∧ field tail 1 3 ≠ 0 then none
    else some { e with
      flags := 0, pair := if e.kind = 0x95 then 0 else field tail 0 1, cv1 := field tail (if e.kind = 0x95 then 0 else 4) 4,
      cv2 := if e.kind = 0x95 then 0 else field tail 8 4 } := by
  obtain ⟨tag, seq, stamp, epoch, kind, flags, len⟩ := fields_cascadeBytes e tail
  rw [Nat.mod_eq_of_lt (b := 256 ^ 2) fits.tag] at tag
  rw [Nat.mod_eq_of_lt (b := 256 ^ 4) fits.seq] at seq
  rw [Nat.mod_eq_of_lt (b := 256 ^ 4) fits.stamp] at stamp
  rw [Nat.mod_eq_of_lt (b := 256 ^ 2) fits.epoch] at epoch
  rw [Nat.mod_eq_of_lt (b := 256 ^ 1) fits.kind] at kind
  rw [Nat.mod_eq_of_lt (b := 256 ^ 2) fits.payload] at len
  have trailer := field_trailer e tail
  have first (n : Nat) : field (cascadeBytes e ++ tail) (16 + e.payload.length) n = field tail 0 n := field_trailer e tail 0 n
  have size : (cascadeBytes e ++ tail).length = 16 + e.payload.length + tail.length := by
    rw [List.length_append, length_cascadeBytes]
  simp only [readEnvelope, tag, seq, stamp, epoch, kind, flags, len, size, cut_payload]
  by_cases clear : e.kind = 0x95
  · simp [clear, first]
  · simp [clear, first, trailer, or_assoc]

/-- An envelope of two lanes is read back with every field (Table 10.4). -/
theorem readEnvelope_twoLanes (pair : e.pair < 2 ^ 8) (cv1 : e.cv1 < 2 ^ 32) (cv2 : e.cv2 < 2 ^ 32) (kind : e.kind ≠ 0x95)
    (flags : e.flags = 0) :
    readEnvelope (cascadeBytes e ++ (be 1 e.pair ++ be 3 0 ++ be 4 e.cv1 ++ be 4 e.cv2)) = some e := by
  simp only [List.append_assoc]
  generalize trailer : be 1 e.pair ++ (be 3 0 ++ (be 4 e.cv1 ++ be 4 e.cv2)) = tail
  have size : tail.length = 12 := by simp only [← trailer, List.length_append, length_be]
  have code : field tail 0 1 = e.pair := trailer ▸ field_here pair _
  have octets : field tail 1 3 = 0 := by rw [← trailer, field_skip (Nat.le_refl 1), field_here (Nat.zero_lt_succ _)]
  have first : field tail 4 4 = e.cv1 := by
    rw [← trailer, field_skip (by decide), field_skip (by decide), field_here cv1]
  have second : field tail 8 4 = e.cv2 := by
    rw [← trailer, field_skip (by decide), field_skip (by decide), field_skip (by decide), field_alone cv2]
  rw [readEnvelope_cascadeBytes fits, if_neg (by simp [size, kind, flags, octets])]
  simp only [if_neg kind, code, first, second]
  rw [← flags]

/-- A reserved octet of the trailer that is set leaves no envelope. -/
theorem readEnvelope_reserved {r : Nat} (set : 0 < r) (width : r < 2 ^ 24) (kind : e.kind ≠ 0x95) :
    readEnvelope (cascadeBytes e ++ (be 1 e.pair ++ be 3 r ++ be 4 e.cv1 ++ be 4 e.cv2)) = none := by
  have octets : field (be 1 e.pair ++ be 3 r ++ be 4 e.cv1 ++ be 4 e.cv2) 1 3 = r := by
    rw [List.append_assoc, List.append_assoc, field_skip (Nat.le_refl 1), field_here width]
  rw [readEnvelope_cascadeBytes fits]
  exact if_pos (.inr (.inr ⟨kind, fun none => set.ne' (octets.symm.trans none)⟩))

/-- A clear-ahead envelope of a Trestle half has one check value and no pair code (R263). -/
theorem readEnvelope_clearAhead (cv1 : e.cv1 < 2 ^ 32) (kind : e.kind = 0x95) (flags : e.flags = 0) (pair : e.pair = 0)
    (cv2 : e.cv2 = 0) : readEnvelope (cascadeBytes e ++ be 4 e.cv1) = some e := by
  rw [readEnvelope_cascadeBytes fits, if_neg (by simp [kind, flags, length_be])]
  simp only [if_pos kind, field_alone (n := 4) cv1]
  cases e
  cases flags
  cases pair
  cases cv2
  rfl

end

/-! ## Transactions of the bridge -/

theorem bitRev_lt (n : Nat) : ∀ v, bitRev n v < 2 ^ n := by
  induction n with
  | zero => intro v; simp [bitRev]
  | succ n ih =>
    intro v
    have low := ih (v / 2)
    have top : v % 2 * 2 ^ n ≤ 2 ^ n := Nat.mul_le_of_le_div _ _ _ (by
      rw [Nat.div_self (by positivity)]; omega)
    rw [bitRev, Nat.pow_succ]
    omega

/-- A CRC-32C has 32 bits. -/
theorem crc32c_lt (l : List Byte) : crcOf crc32c l < 2 ^ 32 :=
  Nat.xor_lt_two_pow (bitRev_lt 32 _) (by decide)

/-- A byte string with its check field behind it verifies. -/
theorem transCheck_written (l : List Byte) (h : 12 ≤ l.length) : transCheck (l ++ be 4 (crcOf crc32c l)) = true := by
  have size : (l ++ be 4 (crcOf crc32c l)).length = l.length + 4 := by rw [List.length_append, length_be]
  have check : field (l ++ be 4 (crcOf crc32c l)) l.length 4 = crcOf crc32c l := by
    simpa [field_alone (n := 4) (crc32c_lt l)] using field_append l (be 4 (crcOf crc32c l)) 0 4
  simp [transCheck, size, check, h]

section
variable (t : Trans) (tail : List Byte)

/-- A transaction's fields, each at its place (Table 13.13). -/
theorem fields_transBody :
    field (transBody t ++ tail) 0 1 = t.type % 256 ^ 1 ∧ field (transBody t ++ tail) 1 1 = t.tag % 256 ^ 1 ∧
    field (transBody t ++ tail) 2 1 = t.init % 256 ^ 1 ∧ field (transBody t ++ tail) 3 1 = t.window % 256 ^ 1 ∧
    field (transBody t ++ tail) 4 2 = t.offset % 256 ^ 2 ∧ field (transBody t ++ tail) 6 2 = t.length % 256 ^ 2 ∧
    field (transBody t ++ tail) 8 2 = t.code % 256 ^ 2 ∧ field (transBody t ++ tail) 10 2 = t.epoch % 256 ^ 2 := by
  simp [transBody, List.append_assoc, field_skip, field_mod]

theorem length_transBody : (transBody t).length = 12 + t.data.length := by
  simp only [transBody, List.length_append, length_be]

theorem cut_transData : cut (transBody t ++ tail) 12 t.data.length = t.data := by
  have header : transBody t ++ tail = (be 1 t.type ++ be 1 t.tag ++ be 1 t.init ++ be 1 t.window ++ be 2 t.offset ++ be 2 t.length ++
      be 2 t.code ++ be 2 t.epoch) ++ (t.data ++ tail) := List.append_assoc ..
  have behind := cut_append (be 1 t.type ++ be 1 t.tag ++ be 1 t.init ++ be 1 t.window ++ be 2 t.offset ++ be 2 t.length ++
      be 2 t.code ++ be 2 t.epoch) (t.data ++ tail) 0 t.data.length
  simp only [List.length_append, length_be] at behind
  rw [header, behind, cut_here]

/-- A transaction within its widths is read back with every field. -/
theorem readTrans_transBytes {t : Trans} (low : 1 ≤ t.type) (high : t.type ≤ 5) (tag : t.tag < 2 ^ 8) (init : t.init < 4)
    (window : t.window < 16) (offset : t.offset < 2 ^ 16) (length : t.length < 2 ^ 16) (code : t.code < 2 ^ 16)
    (epoch : t.epoch < 2 ^ 16) (noCode : t.type ≠ 5 → t.code = 0) (data : t.data.length = transData t.type t.length) :
    readTrans t.peer (transBytes t) = some t := by
  obtain ⟨ftype, ftag, finit, fwindow, foffset, flength, fcode, fepoch⟩ := fields_transBody t (be 4 (crcOf crc32c (transBody t)))
  rw [Nat.mod_eq_of_lt (by omega)] at ftype finit fwindow
  rw [Nat.mod_eq_of_lt (b := 256 ^ 1) tag] at ftag
  rw [Nat.mod_eq_of_lt (b := 256 ^ 2) offset] at foffset
  rw [Nat.mod_eq_of_lt (b := 256 ^ 2) length] at flength
  rw [Nat.mod_eq_of_lt (b := 256 ^ 2) code] at fcode
  rw [Nat.mod_eq_of_lt (b := 256 ^ 2) epoch] at fepoch
  have payload := cut_transData t (be 4 (crcOf crc32c (transBody t)))
  have size : (transBody t ++ be 4 (crcOf crc32c (transBody t))).length = 16 + t.data.length := by
    rw [List.length_append, length_transBody, length_be]
    omega
  rw [readTrans, transBytes]
  simp only [ftype, ftag, finit, fwindow, foffset, flength, fcode, fepoch, ← data, payload, size]
  rw [if_neg]
  simp only [Bool.or_eq_true, Bool.and_eq_true, decide_eq_true_eq]
  omega

end

/-- Settles O59: each field is read at its place, where the writer put it. -/
theorem envelopesRoundTrip : Obligations.EnvelopesRoundTrip := by
  refine ⟨fun e tag seq stamp epoch kind payload pair cv1 cv2 => ?_,
    fun t low high tag init window offset length code epoch noCode data => ⟨?_, ?_⟩⟩
  · have fits : EnvelopeFits e := ⟨tag, seq, stamp, epoch, kind, payload⟩
    refine ⟨fun two flags => ⟨readEnvelope_twoLanes fits pair cv1 cv2 two flags, fun r set width => readEnvelope_reserved fits set width two⟩,
      readEnvelope_clearAhead fits cv1, fun tail set width => ?_, fun tail size => ?_⟩
    · rw [readEnvelope_cascadeBytes fits]
      exact if_pos (.inr (.inl fun none => set.ne' ((Nat.mod_eq_of_lt width).symm.trans none)))
    · rw [readEnvelope_cascadeBytes fits]
      exact if_pos (.inl size)
  · exact transCheck_written _ (by rw [length_transBody]; omega)
  · exact readTrans_transBytes low high tag init window offset length code epoch noCode data

end Sys2Proof.Proofs
end

section
/-! PROOFS. The queue of commands and their completion (00_scope.md, log 1), an event source raised (R554, R557), the cursor of the
Field book (R571). -/

namespace Sys2Proof.Proofs

open Sys2Proof Sys2Proof.Machine Sys2Proof.Laws

/-! ## The queue of commands -/

/-- Settles O1. -/
theorem stepRunsFront : Obligations.StepRunsFront := fun _ _ _ => rfl

/-- Settles O2. -/
theorem idleOnEmpty : Obligations.IdleOnEmpty := fun s h => by
  rw [step, h]

/-! ## Completion -/

theorem execFieldBookCursor_allowed (n : Nat) {v : Nat} (h : v < 2 ^ 64) (s : State) :
    exec (.fieldBookCursor n v) s = .next (asSession n .observer false (bookCursorFn n v) s) := if_pos h

/-- A well-formed measurement names an item of Table 15.7. -/
theorem ageItemOk_of_wf {index sub margin : Nat} (h : (Instr.ageingMeasurement index sub margin).wf = true) :
    (ageItemOk index sub && decide (margin ≤ 100)) = true := by
  simp only [Instr.wf, Bool.and_eq_true, decide_eq_true_eq] at h
  obtain ⟨⟨range, within⟩, margin⟩ := h
  simpa only [ageItemOk, Bool.and_eq_true, decide_eq_true_eq] using And.intro ⟨range, within⟩ margin

/-- Settles O58: the two commands whose operands are looked at first find them well formed; every other one answers a next state. -/
theorem everyCommandCompletes : Obligations.EveryCommandCompletes := by
  intro c s wf
  cases c
  case fieldBookCursor n v =>
    simp only [Instr.wf, fits, Bool.and_eq_true, decide_eq_true_eq] at wf
    exact ⟨_, execFieldBookCursor_allowed n wf.2 s⟩
  case ageingMeasurement index sub margin => exact ⟨_, if_pos (ageItemOk_of_wf wf)⟩
  all_goals exact ⟨_, rfl⟩

/-! ## An event source raised -/

/-- The count of a source in object 0x3002. -/
theorem readPart_counts (s : State) (e : Nat) : readPart s 0 0x3002 (e + 1) = be 2 (tabGet s.ev.counts e 0) := by
  simp [readPart, readIdent]

section
variable {img e d time : Nat} {q : List EvQ}

/-- A source of which a record is held: the record is counted once more, in its place (R557). -/
theorem offerEvent_held {a b : List EvQ} {r : EvQ} (hr : r.event = e) (alone : ∀ x ∈ a ++ b, x.event ≠ e) :
    offerEvent img e d time (a ++ r :: b) = a ++ { r with count := min 0xFFFF (r.count + 1), image := img } :: b := by
  have kept (l : List EvQ) (hl : ∀ x ∈ l, x.event ≠ e) :
      l.map (fun r => if r.event = e then { r with count := sat 0xFFFF (r.count + 1), image := img } else r) = l :=
    (List.map_congr_left fun x hx => if_neg (hl x hx)).trans (List.map_id _)
  rw [offerEvent, if_pos (by simp [hr]), List.map_append, List.map_cons, if_pos hr,
    kept a fun x hx => alone x (List.mem_append_left b hx), kept b fun x hx => alone x (List.mem_append_right a hx)]
  rfl

/-- A source of which none is held: a new record at the end. -/
theorem offerEvent_new (h : ∀ x ∈ q, x.event ≠ e) : offerEvent img e d time q = q ++ [⟨e, 1, img, time, d⟩] :=
  if_neg (by simpa using h)

/-- The sources of which a queue holds a record, after a raising. -/
theorem events_offerEvent : (offerEvent img e d time q).map (·.event) =
    if ∃ x ∈ q, x.event = e then q.map (·.event) else q.map (·.event) ++ [e] := by
  by_cases held : ∃ x ∈ q, x.event = e
  · rw [offerEvent, if_pos (by simpa using held), if_pos held, List.map_map]
    refine List.map_congr_left fun r _ => ?_
    rw [Function.comp_apply]
    split <;> rfl
  · rw [offerEvent_new fun x hx he => held ⟨x, hx, he⟩, if_neg held, List.map_append]
    rfl

/-- One record per source stays so. -/
theorem nodup_offerEvent (h : (q.map (·.event)).Nodup) : ((offerEvent img e d time q).map (·.event)).Nodup := by
  rw [events_offerEvent]
  split
  · exact h
  next none =>
    refine h.append (List.nodup_singleton e) ?_
    rw [List.disjoint_singleton]
    exact fun mem => none (List.mem_map.mp mem)

theorem lt_offerEvent {bound : Nat} (he : e < bound) (h : ∀ x ∈ q, x.event < bound) :
    ∀ x ∈ offerEvent img e d time q, x.event < bound := by
  have all : ∀ k ∈ (offerEvent img e d time q).map (·.event), k < bound := by
    rw [events_offerEvent]
    split
    · simpa using h
    · simpa [or_imp, forall_and, he] using h
  exact fun x hx => all x.event (List.mem_map_of_mem hx)

end

/-- A queue of at most one record for each of `bound` sources holds at most `bound` records. -/
theorem length_le_of_nodup {q : List EvQ} {bound : Nat} (nodup : (q.map (·.event)).Nodup) (lt : ∀ x ∈ q, x.event < bound) :
    q.length ≤ bound := by
  have among : q.map (·.event) ⊆ List.range bound := fun k hk => by
    obtain ⟨x, hx, rfl⟩ := List.mem_map.mp hk
    exact List.mem_range.mpr (lt x hx)
  simpa using (List.subperm_of_subset nodup among).length_le

section
variable {img e d n : Nat} {s : State}

theorem raiseAt_counts : (raiseAt img e d s).ev.counts = tabMod s.ev.counts e 0 (fun n => sat 0xFFFF (n + 1)) := rfl

theorem sessOf_raiseAt_offered (opened : (sessOf s n).opened = true) (mask : (sessOf s n).mask.getLsbD e = true) :
    sessOf (raiseAt img e d s) n = { sessOf s n with events := offerEvent img e d (moduleNs s) (sessOf s n).events } := by
  rw [sessOf_raiseAt, offerSession]
  exact if_pos (by rw [opened, mask]; rfl)

theorem sessOf_raiseAt_unoffered (h : (sessOf s n).opened = false ∨ (sessOf s n).mask.getLsbD e = false) :
    sessOf (raiseAt img e d s) n = sessOf s n := by
  rw [sessOf_raiseAt, offerSession]
  exact if_neg (by rcases h with h | h <;> simp [h])

/-- A session's queue keeps at most one record per source, of the 96 there are. -/
theorem queue_raiseAt (he : e < 96) (nodup : ((sessOf s n).events.map (·.event)).Nodup) (lt : ∀ x ∈ (sessOf s n).events, x.event < 96) :
    ((sessOf (raiseAt img e d s) n).events.map (·.event)).Nodup ∧ ∀ x ∈ (sessOf (raiseAt img e d s) n).events, x.event < 96 := by
  by_cases offered : (sessOf s n).opened = true ∧ (sessOf s n).mask.getLsbD e = true
  · rw [sessOf_raiseAt_offered offered.1 offered.2]
    exact ⟨nodup_offerEvent nodup, lt_offerEvent he lt⟩
  · rw [sessOf_raiseAt_unoffered (by simpa [imp_iff_not_or] using offered)]
    exact ⟨nodup, lt⟩

end

/-- Settles O57: the pending bit, the count, ASEQ and the queue of each session, as `raiseAt` sets them. -/
theorem eventRaising : Obligations.EventRaising := by
  intro s img e d he
  refine ⟨_, rfl, raised_raiseAt he, fun k hk => raised_other hk, ?_, fun k hk => ?_, fun fresh => ?_, fun pends => ?_,
    fun n opened mask => ⟨fun a r b events hr alone => ?_, fun none => ?_⟩, fun n => sessOf_raiseAt_unoffered, fun n nodup lt => ?_, rfl⟩
  · rw [readPart_counts, raiseAt_counts, tabGet_mod, sat]
  · rw [readPart_counts, readPart_counts, raiseAt_counts, tabGet_mod_other _ _ _ _ hk]
  · exact if_pos (by simpa using fresh)
  · exact if_neg (by simpa using pends)
  · rw [sessOf_raiseAt_offered opened mask, events, offerEvent_held hr alone]
  · rw [sessOf_raiseAt_offered opened mask, offerEvent_new none]
  · obtain ⟨nodup', lt'⟩ := queue_raiseAt (img := img) (d := d) he nodup lt
    exact ⟨nodup', lt', length_le_of_nodup nodup' lt'⟩

/-! ## The cursor of the Field book -/

/-- The cursor written by a session that may. -/
theorem execFieldBookCursor_sets {s : State} {n v cur : Nat} (ha : s.allows n .observer false) (hv : v < 2 ^ 64)
    (hf : bookCursorFn n v s = setBookCur n cur s) :
    exec (.fieldBookCursor n v) s = .next (withResult (0, be 8 cur) (modSess n (fun y => { y with bookCur := cur }) s)) :=
  (execFieldBookCursor_allowed n hv s).trans (next_asSession ha hf)

/-- The seek sets the cursor to the record found, else to the newest + 1 (R571). -/
theorem execFieldBookSeek_sets {s : State} {n t : Nat} (ha : s.allows n .observer false) {found : Option FbRec}
    (hf : s.book.recs.find? (fun r => (t : Int) ≤ r.time) = found) :
    exec (.fieldBookSeek n t) s =
      .next (withResult (0, []) (modSess n (fun y => { y with bookCur := (found.map (·.seq)).getD (s.book.newest + 1) }) s)) := by
  refine next_asSession ha ?_
  rw [bookSeekFn, hf]
  cases found <;> rfl

/-- Settles O48: 0 is the oldest record held, all ones the newest + 1, the seek the first record at or after its time. -/
theorem fieldBookCursor : Obligations.FieldBookCursor := by
  intro s n ha
  refine ⟨fun r l held => execFieldBookCursor_sets ha (by decide) ?_, execFieldBookCursor_sets ha (by decide) rfl,
    fun v low high => execFieldBookCursor_sets ha (by omega) ?_, fun t a r b split before after => ?_, fun t before => ?_⟩
  · simp [bookCursorFn, bookOldest, held]
  · rw [bookCursorFn, if_neg low.ne', if_neg (by omega)]
  · refine execFieldBookSeek_sets ha (found := some r) ?_
    rw [List.find?_eq_some_iff_append]
    exact ⟨decide_eq_true after, a, b, split, fun x hx => by simpa using before x hx⟩
  · refine execFieldBookSeek_sets ha (found := none) ?_
    rw [List.find?_eq_none]
    exact fun x hx => by simpa using before x hx

end Sys2Proof.Proofs
end

section
/-! PROOFS. The bridge (R522 to R528): reads and posted writes of local initiators, requests of other modules, completions, timeouts. -/

namespace Sys2Proof.Proofs

open Sys2Proof Sys2Proof.Machine Sys2Proof.Laws

/-! ## Failures -/

/-- The failure record of a transaction (Table 13.14). -/
def failRec (t : Trans) (code : Nat) (s : State) : FailRec :=
  ⟨t.peer, t.window, t.tag, t.offset, t.length, t.init, t.type, code, s.imageNo⟩

/-- A failure told: event 72, the depth of queue 72. -/
def failTold (depth code : Nat) (s : State) : State := noteDepth 72 depth false (raiseEv 72 code s)

theorem raised_failTold (depth code : Nat) (s : State) : (failTold depth code s).raised 72 := raised_raiseEv (d := code) (by decide)

theorem reported_failTold (depth code : Nat) (s : State) : reported s (failTold depth code s) :=
  reported_trans (reported_raiseEv _ _ _) (reported_noteDepth _ _ _ _)

/-- A failure while the queue has room: its record at the queue's end. -/
theorem bridgeFail_room (t : Trans) (code : Nat) {s : State} (room : s.bridge.failures.length < 64) :
    bridgeFail t code s = failTold (s.bridge.failures.length + 1) code
      { s with bridge := { s.bridge with failures := s.bridge.failures ++ [failRec t code s] } } :=
  if_neg (Nat.not_le.mpr room)

/-! ## Local initiators -/

/-- A transaction as it goes out with the lowest free tag (R524, R527). -/
def sentTrans (t : Trans) (path : Nat) (s : State) : OutTrans :=
  ⟨{ t with tag := freeTag s }, path, s.ns, none, 0, none, 0, false⟩

section
variable {s : State} {i tgt w o n p : Nat} {x : OutTrans}

theorem askRead_outOfRange (new : s.bridge.out.find? (sameRead i tgt w o n) = none) (range : rangeOk o n = false) :
    askRead i tgt w o n s = answerLocal bRange [] s := by
  simp only [askRead, new, range, Bool.not_false, if_true]

theorem askRead_noPath (new : s.bridge.out.find? (sameRead i tgt w o n) = none) (range : rangeOk o n = true)
    (path : bridgePath s tgt = none) : askRead i tgt w o n s = answerLocal bNoPath [] s := by
  simp only [askRead, new, range, path, Bool.not_true, Bool.false_eq_true, if_false]

theorem askRead_sent (new : s.bridge.out.find? (sameRead i tgt w o n) = none) (range : rangeOk o n = true)
    (path : bridgePath s tgt = some p) (room : s.bridge.out.length < 256) :
    askRead i tgt w o n s = noteDepth 73 (s.bridge.out.length + 1) false { s with bridge := { s.bridge with
      answered := 1, ansData := [], out := s.bridge.out ++ [sentTrans ⟨1, 0, i, w, o, n, 0, s.pair.epoch, [], tgt⟩ p s] } } := by
  simp only [askRead, new, range, path, Bool.not_true, Bool.false_eq_true, if_false, tagCap, Nat.not_le.mpr room]
  rfl

section
variable (repeated : s.bridge.out.find? (sameRead i tgt w o n) = some x)
include repeated

theorem askRead_data {v : List Byte} (arrived : x.arrived = some v) :
    askRead i tgt w o n s = answerLocal ansData v (dropTag x.t.tag s) := by
  simp only [askRead, repeated, arrived]

theorem askRead_error {c : Nat} (arrived : x.arrived = none) (error : x.error = some c) :
    askRead i tgt w o n s = answerLocal c [] (dropTag x.t.tag s) := by
  simp only [askRead, repeated, arrived, error]

theorem askRead_waits (arrived : x.arrived = none) (error : x.error = none) :
    askRead i tgt w o n s = answerLocal ansRetry [] (modOut x.t.tag (fun y => { y with polled := true }) s) := by
  simp only [askRead, repeated, arrived, error]
  rfl

end

variable {d : List Byte}

theorem askWrite_sent (room : s.bridge.out.length < 256) (range : rangeOk o d.length = true) (path : bridgePath s tgt = some p) :
    askWrite i tgt w o d s = noteDepth 73 (s.bridge.out.length + 1) false { s with bridge := { s.bridge with
      answered := 0, ansData := [], out := s.bridge.out ++ [sentTrans ⟨3, 0, i, w, o, d.length, 0, s.pair.epoch, d, tgt⟩ p s] } } := by
  simp only [askWrite, range, path, Bool.not_true, Bool.false_eq_true, if_false, tagCap, Nat.not_le.mpr room]
  rfl

/-- A posted write that cannot leave is accepted all the same, and fails (R525, R526). -/
theorem askWrite_fails {c : Nat} (room : s.bridge.out.length < 256) (space : s.bridge.failures.length < 64)
    (why : rangeOk o d.length = false ∧ c = 0x8003 ∨ rangeOk o d.length = true ∧ bridgePath s tgt = none ∧ c = 0x8005) :
    askWrite i tgt w o d s = failTold (s.bridge.failures.length + 1) c { s with bridge := { s.bridge with
      answered := 0, ansData := [], failures := s.bridge.failures ++ [⟨tgt, w, 0, o, d.length, i, 3, c, s.imageNo⟩] } } := by
  rcases why with ⟨range, rfl⟩ | ⟨range, path, rfl⟩
  · simp only [askWrite, range, Bool.not_false, if_true, tagCap, Nat.not_le.mpr room, if_false, bridgeFail_room _ _ space]
    rfl
  · simp only [askWrite, range, path, Bool.not_true, Bool.false_eq_true, if_false, tagCap, Nat.not_le.mpr room,
      bridgeFail_room _ _ space]
    rfl

end

/-! ## Requests of other modules -/

/-- A request taken into the inbound queue and answered, with the windows' bytes after it (R525, R527). -/
def farAnswered (x answer : Trans) (mem : Mem) (upd : UpdateSt) (s : State) : State :=
  noteDepth 75 (s.bridge.answers.length + 1) false (noteDepth 74 (s.bridge.inbound.length + 1) false { s with
    bridge := { s.bridge with inbound := s.bridge.inbound ++ [x], answers := s.bridge.answers ++ [answer], mem := mem }, upd := upd })

theorem reported_farAnswered (x answer : Trans) (mem : Mem) (upd : UpdateSt) (s : State) : reported { s with
    bridge := { s.bridge with inbound := s.bridge.inbound ++ [x], answers := s.bridge.answers ++ [answer], mem := mem }, upd := upd }
    (farAnswered x answer mem upd s) :=
  reported_trans (reported_noteDepth _ _ _ _) (reported_noteDepth _ _ _ _)

section
variable {s : State} {x : Trans} {good : Bool}

/-- With 256 requests inside, one more is FAR-BUSY (R527). -/
theorem farRequest_full (full : 256 ≤ s.bridge.inbound.length) : farRequest x good s =
    noteDepth 75 (s.bridge.answers.length + 1) false (noteDepth 74 256 true { s with bridge := { s.bridge with
      answers := s.bridge.answers ++ [{ x with type := 5, code := 0x8007, data := [] }] } }) := if_pos full

/-- While there is room the rules are looked at in the order of Table 13.15. -/
theorem farRequest_room (room : s.bridge.inbound.length < 256) : farRequest x good s =
    if !good then farAnswered x { x with type := 5, code := 0x8006, data := [] } s.bridge.mem s.upd s
    else if !rangeOk x.offset x.length then farAnswered x { x with type := 5, code := 0x8003, data := [] } s.bridge.mem s.upd s
    else if s.bridge.access.getD x.window 0 = 0 then farAnswered x { x with type := 5, code := 0x8001, data := [] } s.bridge.mem s.upd s
    else if x.type = 1 then
      farAnswered x { x with type := 2, code := 0, data := windowRead s x.window x.offset x.length } s.bridge.mem s.upd s
    else if s.bridge.access.getD x.window 0 = 1 then farAnswered x { x with type := 5, code := 0x8002, data := [] } s.bridge.mem s.upd s
    else complete x 4 0 [] (windowWrite x.window x.offset x.data
      (noteDepth 74 (s.bridge.inbound.length + 1) false (modBridge (fun b => { b with inbound := b.inbound ++ [x] }) s))) :=
  if_neg (show ¬tagCap ≤ _ from Nat.not_le.mpr room)

theorem farRequest_refused {code : Nat} (room : s.bridge.inbound.length < 256)
    (why : good = false ∧ code = 0x8006 ∨ good = true ∧ rangeOk x.offset x.length = false ∧ code = 0x8003 ∨
      good = true ∧ rangeOk x.offset x.length = true ∧ s.bridge.access.getD x.window 0 = 0 ∧ code = 0x8001 ∨
      good = true ∧ rangeOk x.offset x.length = true ∧ s.bridge.access.getD x.window 0 = 1 ∧ x.type = 3 ∧ code = 0x8002) :
    farRequest x good s = farAnswered x { x with type := 5, code := code, data := [] } s.bridge.mem s.upd s := by
  rw [farRequest_room room]
  rcases why with ⟨rfl, rfl⟩ | ⟨rfl, range, rfl⟩ | ⟨rfl, range, closed, rfl⟩ | ⟨rfl, range, readOnly, write, rfl⟩
  · exact if_pos rfl
  · rw [range, Bool.not_true, if_neg Bool.false_ne_true, Bool.not_false, if_pos rfl]
  · rw [range, Bool.not_true, if_neg Bool.false_ne_true, if_neg Bool.false_ne_true, if_pos closed]
  · rw [range, Bool.not_true, if_neg Bool.false_ne_true, if_neg Bool.false_ne_true, if_neg (by omega), if_neg (by omega),
      if_pos readOnly]

section
variable (room : s.bridge.inbound.length < 256) (range : rangeOk x.offset x.length = true)
  (access : 2 ≤ s.bridge.access.getD x.window 0)
include room range access

theorem farRequest_read (type : x.type = 1) : farRequest x true s =
    farAnswered x { x with type := 2, code := 0, data := windowRead s x.window x.offset x.length } s.bridge.mem s.upd s := by
  rw [farRequest_room room, range, Bool.not_true, if_neg Bool.false_ne_true, if_neg Bool.false_ne_true,
    if_neg (by omega), if_pos type]

/-- A write carried out: of window 15 the update buffer takes the bytes, of any other the exchange memory (R522, R616). -/
theorem farRequest_write (type : x.type = 3) : farRequest x true s = farAnswered x { x with type := 4, code := 0, data := [] }
    (if x.window = 15 then s.bridge.mem else memWriteAll s.bridge.mem (x.window * 0x10000 + x.offset) x.data)
    (if x.window = 15 then { s.upd with buffer := memWriteAll s.upd.buffer x.offset x.data } else s.upd) s := by
  rw [farRequest_room room, range, Bool.not_true, if_neg Bool.false_ne_true, if_neg Bool.false_ne_true, if_neg (by omega),
    if_neg (by omega), if_neg (by omega)]
  by_cases loader : x.window = 15
  · rw [windowWrite, if_pos (show x.window = loaderWindow from loader), if_pos loader, if_pos loader]
    rfl
  · rw [windowWrite, if_neg (show ¬x.window = loaderWindow from loader), if_neg loader, if_neg loader]
    rfl

end

end

/-! ## Completions -/

section
variable {s : State} {f : CascFrame} {x : Trans} {o : OutTrans}

theorem bridgeFrame_mine (due : dueOf s f 2 = .mine) (read : readTrans f.src f.body = some x)
    (act : Trans → Bool → State → State) : bridgeFrame x.type f act s = act x (transCheck f.body) s := by
  simp only [bridgeFrame, due, read, if_true]

theorem completion_current (act : State → State) (epoch : x.epoch = s.pair.epoch) : completion x true act s = act s := by
  rw [completion, if_neg (by simp), if_neg (by simpa using epoch)]

theorem completion_oldEpoch (act : State → State) (epoch : x.epoch ≠ s.pair.epoch) : completion x true act s = oldEpoch x s := by
  rw [completion, if_neg (by simp), if_pos epoch]

theorem oldEpoch_told : (oldEpoch x s).raised 63 ∧ reported s (oldEpoch x s) :=
  ⟨raised_raiseRec (by decide), reported_raiseRec _ _ _ _ _ _ _⟩

/-- An outbound transaction changed: that of the tag, no other (R527). -/
theorem mem_modOut {tag : Nat} {g : OutTrans → OutTrans} {y : OutTrans} :
    y ∈ (modOut tag g s).bridge.out ↔ (∃ z ∈ s.bridge.out, z.t.tag = tag ∧ g z = y) ∨ y ∈ s.bridge.out ∧ y.t.tag ≠ tag := by
  show y ∈ s.bridge.out.map (fun o => if o.t.tag = tag then g o else o) ↔ _
  rw [List.mem_map]
  constructor
  · rintro ⟨z, hz, rfl⟩
    split
    next same => exact .inl ⟨z, hz, same, rfl⟩
    next other => exact .inr ⟨hz, other⟩
  · rintro (⟨z, hz, same, rfl⟩ | ⟨hy, other⟩)
    · exact ⟨z, hz, if_pos same⟩
    · exact ⟨y, hy, if_neg other⟩

theorem length_modOut (tag : Nat) (g : OutTrans → OutTrans) : (modOut tag g s).bridge.out.length = s.bridge.out.length :=
  List.length_map _

theorem tag_mem_dropTag {tag : Nat} {y : OutTrans} (h : y ∈ (dropTag tag s).bridge.out) : y.t.tag ≠ tag :=
  of_decide_eq_true (List.mem_filter.mp h).2

/-- A transaction that nobody waits for ends with a failure record, its tag free (R526). -/
theorem endError_fails {code : Nat} (unpolled : o.t.type ≠ 1 ∨ o.polled = false) (room : s.bridge.failures.length < 64) :
    (endError o code s).raised 72 ∧ (∀ y ∈ (endError o code s).bridge.out, y.t.tag ≠ o.t.tag) ∧
      (endError o code s).bridge.failures = s.bridge.failures ++ [failRec o.t code s] ∧
      reported { s with bridge := { s.bridge with
        out := (endError o code s).bridge.out, failures := (endError o code s).bridge.failures } } (endError o code s) := by
  have ends : endError o code s = bridgeFail o.t code (dropTag o.t.tag s) := if_neg (by simpa [imp_iff_not_or] using unpolled)
  rw [ends, bridgeFail_room _ _ (s := dropTag o.t.tag s) room]
  exact ⟨raised_failTold _ _ _, fun y hy => tag_mem_dropTag hy, rfl, reported_failTold _ _ _⟩

end

/-! ## The rows -/

section
variable {s : State} {f : CascFrame} {x : Trans} {c : Instr} (due : dueOf s f 2 = .mine) (read : readTrans f.src f.body = some x)
include due read

/-- A read or write of another module is the far bridge's. -/
theorem exec_farRequest (row : c = .readReq (.frame f) ∧ x.type = 1 ∨ c = .bridgeWrite (.frame f) ∧ x.type = 3) :
    exec c s = .next (farRequest x (transCheck f.body) s) := by
  rcases row with ⟨rfl, type⟩ | ⟨rfl, type⟩ <;> exact congrArg Host.Outcome.next (type ▸ bridgeFrame_mine due read farRequest)

/-- A request that breaks no rule is served. -/
theorem exec_farRequest_served (row : c = .readReq (.frame f) ∧ x.type = 1 ∨ c = .bridgeWrite (.frame f) ∧ x.type = 3)
    (room : s.bridge.inbound.length < 256) (check : transCheck f.body = true) (range : rangeOk x.offset x.length = true)
    (access : 2 ≤ s.bridge.access.getD x.window 0) :
    ∃ a mem upd, exec c s = .next (farAnswered x a mem upd s) ∧
      (x.type = 1 → a = { x with type := 2, code := 0, data := windowRead s x.window x.offset x.length } ∧ mem = s.bridge.mem ∧ upd = s.upd) ∧
      (x.type = 3 → a = { x with type := 4, code := 0, data := [] } ∧
        (x.window ≠ 15 → upd = s.upd ∧ mem = memWriteAll s.bridge.mem (x.window * 0x10000 + x.offset) x.data) ∧
        (x.window = 15 → mem = s.bridge.mem ∧ upd = { s.upd with buffer := memWriteAll s.upd.buffer x.offset x.data })) := by
  have type : x.type = 1 ∨ x.type = 3 := row.imp And.right And.right
  rw [exec_farRequest due read row, check]
  rcases type with type | type
  · rw [farRequest_read room range access type]
    exact ⟨_, _, _, rfl, fun _ => ⟨rfl, rfl, rfl⟩, fun other => by omega⟩
  · rw [farRequest_write room range access type]
    exact ⟨_, _, _, rfl, fun other => by omega, fun _ => ⟨rfl, fun other => ⟨if_neg other, if_neg other⟩,
      fun loader => ⟨if_pos loader, if_pos loader⟩⟩⟩

/-- A completion's row: nothing with a bad check, event 63 with another epoch, otherwise its effect. -/
theorem exec_completion (row : c = .readData f ∧ x.type = 2 ∨ c = .writeDone f ∧ x.type = 4 ∨ c = .bridgeError f ∧ x.type = 5) :
    ∃ act, exec c s = .next (completion x (transCheck f.body) act s) := by
  rcases row with ⟨rfl, type⟩ | ⟨rfl, type⟩ | ⟨rfl, type⟩ <;>
    exact ⟨_, congrArg Host.Outcome.next (type ▸ bridgeFrame_mine due read _)⟩

variable {o : OutTrans} (check : transCheck f.body = true) (epoch : x.epoch = s.pair.epoch)
include check epoch

theorem exec_readData (type : x.type = 2) (open_ : openTrans s 1 x = some o) (length : x.length = o.t.length) :
    exec (.readData f) s = .next (modOut o.t.tag (fun y => { y with arrived := some x.data, arrivedNs := s.ns }) s) := by
  refine congrArg Host.Outcome.next ((type ▸ bridgeFrame_mine due read _).trans ?_)
  rw [check, completion_current _ epoch, open_]
  exact if_pos length

theorem exec_writeDone (type : x.type = 4) (open_ : openTrans s 3 x = some o) : exec (.writeDone f) s = .next (dropTag o.t.tag s) := by
  refine congrArg Host.Outcome.next ((type ▸ bridgeFrame_mine due read _).trans ?_)
  rw [check, completion_current _ epoch, open_]

theorem exec_bridgeError (type : x.type = 5) (noRead : openTrans s 1 x = none) (open_ : openTrans s 3 x = some o) :
    exec (.bridgeError f) s = .next (if x.code = 0x8007 ∧ o.resends < 8
      then modOut o.t.tag (fun y => { y with resends := y.resends + 1 }) s else endError o x.code s) := by
  refine congrArg Host.Outcome.next ((type ▸ bridgeFrame_mine due read _).trans ?_)
  rw [check, completion_current _ epoch, noRead, open_]
  exact if_congr ((Bool.and_eq_true _ _).to_iff.trans (and_congr decide_eq_true_iff decide_eq_true_iff)) rfl rfl

end

section
variable {s : State} {tag : Nat} {o : OutTrans} (found : s.bridge.out.find? (fun x => x.t.tag = tag) = some o)
include found

theorem bridgeTimeoutRow_found : bridgeTimeoutRow tag s =
    if o.arrived.isNone && o.error.isNone && o.sentNs + 100000000 ≤ s.ns then endError o bTimeout s else s := by
  rw [bridgeTimeoutRow, found]

theorem readDataDiscard_data (error : o.error = none) : readDataDiscard tag s =
    if o.arrivedNs + 10000000 ≤ s.ns && o.arrived.isSome then dropTag tag s else s := by
  rw [readDataDiscard, found]
  simp only [error, Option.isSome_none, Bool.or_false]

theorem readDataDiscard_early (early : s.ns < o.arrivedNs + 10000000) : readDataDiscard tag s = s := by
  rw [readDataDiscard, found]
  exact if_neg (by simp [Nat.not_le.mpr early])

end

/-- Settles O39: the local initiator's reads and writes, the far bridge's answers, completions, and what time ends. -/
theorem bridgeTransactions : Obligations.BridgeTransactions := by
  refine ⟨fun s i w o n tgt d => ⟨fun new => ⟨fun range => congrArg Host.Outcome.next (askRead_outOfRange new range),
      fun range path => congrArg Host.Outcome.next (askRead_noPath new range path), fun p range path room => ?_⟩,
      fun x rep => ⟨fun v arrived => congrArg Host.Outcome.next (askRead_data rep arrived),
        fun c arrived error => congrArg Host.Outcome.next (askRead_error rep arrived error), fun arrived error => ?_⟩⟩,
    fun s i w o n tgt d room => ⟨fun p range path => ?_, fun c why space =>
      ⟨_, congrArg Host.Outcome.next (askWrite_fails room space why), raised_failTold _ _ _, rfl, rfl, reported_failTold _ _ _⟩⟩,
    fun s f x c due read row => ⟨fun full => ?_, fun code room why => ?_, fun room check range access => ?_⟩,
    fun s f x c due read row => ⟨fun bad => ?_, fun good epoch => ?_⟩,
    fun s f x o due read check epoch => ⟨fun type open_ length => ?_, fun type open_ => exec_writeDone due read check epoch type open_,
      fun type noRead open_ => ⟨fun busy few => ?_, fun ends room write => ?_⟩⟩,
    fun s tag o found => ⟨fun arrived error late unpolled room => ?_, fun early => ?_, fun arrived error late => ?_,
      fun early => congrArg Host.Outcome.next (readDataDiscard_early found early)⟩⟩
  · exact ⟨_, sentTrans ⟨1, 0, i, w, o, n, 0, s.pair.epoch, [], tgt⟩ p s, congrArg Host.Outcome.next (askRead_sent new range path room),
      rfl, rfl, rfl, rfl, rfl, rfl, reported_noteDepth _ _ _ _⟩
  · exact ⟨_, congrArg Host.Outcome.next (askRead_waits rep arrived error), rfl, length_modOut _ _, rfl⟩
  · exact ⟨_, sentTrans ⟨3, 0, i, w, o, d.length, 0, s.pair.epoch, d, tgt⟩ p s,
      congrArg Host.Outcome.next (askWrite_sent room range path), rfl, rfl, rfl, rfl, rfl, reported_noteDepth _ _ _ _⟩
  · rw [exec_farRequest due read row, farRequest_full full]
    exact ⟨_, rfl, rfl, reported_trans (reported_noteDepth _ _ _ _) (reported_noteDepth _ _ _ _)⟩
  · rw [exec_farRequest due read row, farRequest_refused room why]
    exact ⟨_, rfl, rfl, reported_farAnswered _ _ _ _ _⟩
  · obtain ⟨a, mem, upd, runs, reads, writes⟩ := exec_farRequest_served due read row room check range access
    exact ⟨_, runs, fun type => (reads type).imp_left (congrArg (s.bridge.answers ++ [·])),
      fun type => (writes type).imp_left (congrArg (s.bridge.answers ++ [·])), reported_farAnswered _ _ _ _ _⟩
  · obtain ⟨act, runs⟩ := exec_completion due read row
    rw [runs, bad]
    rfl
  · obtain ⟨act, runs⟩ := exec_completion due read row
    rw [runs, good, completion_oldEpoch _ epoch]
    exact ⟨_, rfl, oldEpoch_told⟩
  · refine ⟨_, exec_readData due read check epoch type open_ length, fun y hy same => ?_, fun y hy other => mem_modOut.mpr (.inr ⟨hy, other⟩),
      length_modOut _ _, rfl⟩
    rcases mem_modOut.mp hy with ⟨z, -, -, rfl⟩ | ⟨-, other⟩
    · exact ⟨rfl, rfl⟩
    · exact absurd same other
  · refine ⟨_, (exec_bridgeError due read check epoch type noRead open_).trans (congrArg Host.Outcome.next (if_pos ⟨busy, few⟩)),
      fun y hy same => ?_, rfl, rfl⟩
    rcases mem_modOut.mp hy with ⟨z, -, -, rfl⟩ | ⟨-, other⟩
    · exact Nat.le_add_left 1 _
    · exact absurd same other
  · have fails := endError_fails (o := o) (code := x.code) (.inl (by omega)) room
    refine ⟨_, (exec_bridgeError due read check epoch type noRead open_).trans (congrArg Host.Outcome.next (if_neg ?_)), ?_⟩
    · omega
    · simpa [failRec, write] using fails
  · have same : o.t.tag = tag := by simpa using List.find?_some found
    have fails := endError_fails (o := o) (code := 0x8004) unpolled room
    refine ⟨_, congrArg Host.Outcome.next ((bridgeTimeoutRow_found found).trans (if_pos ?_)), same ▸ fails⟩
    simp [arrived, error, late]
  · refine congrArg Host.Outcome.next ((bridgeTimeoutRow_found found).trans (if_neg ?_))
    simp [Nat.not_le.mpr early]
  · refine congrArg Host.Outcome.next ((readDataDiscard_data found error).trans (if_pos ?_))
    simp [arrived, late]

end Sys2Proof.Proofs
end

section
/-! PROOFS. Heartbeats, forming a pair and settling its roles, a module deposed (R486, R492, R497, R498, R503, R507). -/

namespace Sys2Proof.Proofs

open Sys2Proof Sys2Proof.Machine Sys2Proof.Laws

/-! ## Readiness -/

/-- Only reporting has happened outside the pair: pending sources still pend, and event 59 tells of a change of readiness (R498). -/
def readyTold (s t : State) : Prop :=
  told s t ∧ (∀ k, s.raised k → t.raised k) ∧ (t.pair.readySince.isSome ≠ s.pair.readySince.isSome → t.raised 59)

theorem readyTold_trans {s t u : State} (h : readyTold s t) (k : readyTold t u) : readyTold s u := by
  obtain ⟨ht, hr, hc⟩ := h
  obtain ⟨kt, kr, kc⟩ := k
  refine ⟨told_trans ht kt, fun e he => kr e (hr e he), fun changed => ?_⟩
  by_cases later : u.pair.readySince.isSome = t.pair.readySince.isSome
  · exact kr 59 (hc (later ▸ changed))
  · exact kc later

/-- A change of the state that reports nothing and leaves the time of readiness. -/
theorem readyTold_of_eq {s t : State} (ev : t.ev = s.ev) (dict : t.dict = s.dict) (ready : t.pair.readySince = s.pair.readySince) :
    readyTold s t :=
  ⟨told_of_eq ev dict, fun k hk => by rw [State.raised, ev]; exact hk, fun changed => absurd (congrArg Option.isSome ready) changed⟩

theorem readyTold_raiseEv (e d : Nat) (s : State) : readyTold s (raiseEv e d s) :=
  ⟨told_raiseEv e d s, fun _ hk => raised_mono hk, fun changed => absurd rfl changed⟩

/-- Noting readiness changes its time and reports. -/
theorem noteReady_eq (s : State) : noteReady s = { s with
    pair := { s.pair with readySince := (noteReady s).pair.readySince }, ev := (noteReady s).ev, dict := (noteReady s).dict } := by
  unfold noteReady
  split <;> rfl

theorem readyTold_noteReady (s : State) : readyTold s (noteReady s) := by
  unfold noteReady
  split
  · exact ⟨told_trans (told_of_eq rfl rfl) (told_raiseEv _ _ _), fun _ hk => raised_mono hk, fun _ => raised_raiseEv (by decide)⟩
  · exact ⟨told_trans (told_of_eq rfl rfl) (told_raiseEv _ _ _), fun _ hk => raised_mono hk, fun _ => raised_raiseEv (by decide)⟩
  · exact readyTold_of_eq rfl rfl rfl

/-- A time of readiness is held just while the module is ready (R496). -/
theorem isSome_noteReady (s : State) : (noteReady s).pair.readySince.isSome = pairReady (noteReady s) := by
  have same : pairReady (noteReady s) = pairReady s := by
    rw [noteReady_eq]
    rfl
  rw [same]
  unfold noteReady
  cases ready : pairReady s <;> cases since : s.pair.readySince <;> simp [since, modPairLink]

/-! ## The pair settled -/

section
variable {s : State} (addr : s.pair.partnerAddr ≠ 0xFFFF) (heard : s.pair.partner.heard = true)
include addr heard

/-- No pair can be formed (R486): the roles fall, event 56 when that is new. -/
theorem settlePair_unfit (unfit : pairFits s = false) : ∃ t, settlePair s = t ∧
    t.pair.formed = false ∧ t.pair.role = .unpaired ∧ t.pair.h = none ∧ (s.pair.unformed = false → t.raised 56) := by
  refine ⟨_, rfl, ?_⟩
  unfold settlePair
  extract_lets p s1 role fresh
  rw [if_neg addr, if_neg (by simp [p, heard]), if_pos (by simp [unfit])]
  have roles : s1.pair.formed = false ∧ s1.pair.role = .unpaired ∧ s1.pair.h = none := by
    simp only [s1]
    rw [noteReady_eq]
    exact ⟨rfl, rfl, rfl⟩
  split
  next told => exact ⟨roles.1, roles.2.1, roles.2.2, fun new => absurd told (by simp [p, new])⟩
  next => exact ⟨roles.1, roles.2.1, roles.2.2, fun _ => raised_raiseEv (by decide)⟩

/-- The pair is formed (R486); a role not settled is settled, and a new standby is not ready for reason 3. -/
theorem settlePair_fits (fits : pairFits s = true) : ∃ t, settlePair s = t ∧ t.pair.formed = true ∧ t.pair.unformed = false ∧
    t.pair.role = (if s.pair.role = .unpaired then settledRole s else s.pair.role) ∧
    t.pair.nr3 = (s.pair.nr3 || (decide (s.pair.role = .unpaired) && decide (t.pair.role = .standby))) := by
  refine ⟨_, rfl, ?_⟩
  unfold settlePair
  extract_lets p s1 role fresh
  rw [if_neg addr, if_neg (by simp [p, heard]), if_neg (by simp [fits]), noteReady_eq]
  exact ⟨rfl, rfl, rfl, rfl⟩

end

/-- The roles of a pair have been settled: fields of the pair have changed that no heartbeat carries, and reports. -/
def rolesSettled (s t : State) : Prop :=
  readyTold s t ∧ t = { s with
    pair := { s.pair with
      formed := t.pair.formed, role := t.pair.role, nr3 := t.pair.nr3, readySince := t.pair.readySince, h := t.pair.h,
      lastH := t.pair.lastH, cold := t.pair.cold, deposeRun := t.pair.deposeRun, unformed := t.pair.unformed }
    ev := t.ev, dict := t.dict }

theorem rolesSettled_trans {s t u : State} (h : rolesSettled s t) (k : rolesSettled t u) : rolesSettled s u := by
  obtain ⟨hr, ht⟩ := h
  obtain ⟨kr, ku⟩ := k
  rw [ht] at ku
  exact ⟨readyTold_trans hr kr, ku⟩

theorem rolesSettled_noteReady (s : State) : rolesSettled s (noteReady s) := by
  refine ⟨readyTold_noteReady s, ?_⟩
  rw [noteReady_eq]

theorem rolesSettled_raiseEv (e d : Nat) (s : State) : rolesSettled s (raiseEv e d s) := ⟨readyTold_raiseEv e d s, rfl⟩

theorem rolesSettled_refl (s : State) : rolesSettled s s := ⟨readyTold_of_eq rfl rfl rfl, rfl⟩

theorem rolesSettled_settlePair (s : State) : rolesSettled s (settlePair s) := by
  unfold settlePair
  extract_lets p s1 role fresh
  have unfit : rolesSettled s s1 := rolesSettled_trans ⟨readyTold_of_eq rfl rfl rfl, rfl⟩ (rolesSettled_noteReady _)
  split
  · split
    · exact rolesSettled_trans ⟨readyTold_of_eq rfl rfl rfl, rfl⟩ (rolesSettled_noteReady _)
    · exact rolesSettled_refl s
  · split
    · exact rolesSettled_refl s
    · split
      · split
        · exact unfit
        · exact rolesSettled_trans unfit (rolesSettled_raiseEv _ _ _)
      · exact rolesSettled_trans ⟨readyTold_of_eq rfl rfl rfl, rfl⟩ (rolesSettled_noteReady _)

theorem rolesSettled_noteHandover (s : State) : rolesSettled s (noteHandover s) := by
  unfold noteHandover
  extract_lets q
  split
  · exact ⟨readyTold_of_eq rfl rfl rfl, rfl⟩
  · split
    · exact ⟨readyTold_of_eq rfl rfl rfl, rfl⟩
    · exact rolesSettled_refl s

/-! ## A hand-over announced, a module deposed -/

/-- A hand-over announced changes the hand-over image, nothing else (R503). -/
theorem noteHandover_eq (s : State) : noteHandover s = { s with pair := { s.pair with
    h := (noteHandover s).pair.h, lastH := (noteHandover s).pair.lastH, cold := (noteHandover s).pair.cold } } := by
  unfold noteHandover
  extract_lets q
  split
  · rfl
  · split <;> rfl

/-- Only a standby notes a hand-over. -/
theorem noteHandover_other {s : State} (role : s.pair.role ≠ .standby) : noteHandover s = s := by
  unfold noteHandover
  simp [role]

/-- Readiness and an announced hand-over leave the roles (R503). -/
theorem noteHandover_roles (s : State) : (noteReady (noteHandover s)).pair.formed = s.pair.formed ∧
    (noteReady (noteHandover s)).pair.unformed = s.pair.unformed ∧ (noteReady (noteHandover s)).pair.role = s.pair.role ∧
    (noteReady (noteHandover s)).pair.nr3 = s.pair.nr3 := by
  rw [noteReady_eq, noteHandover_eq]
  exact ⟨rfl, rfl, rfl, rfl⟩

theorem noteReady_h (s : State) : (noteReady s).pair.h = s.pair.h := by
  rw [noteReady_eq]

/-- A standby keeps the hand-over image its active partner announces (R503). -/
theorem noteHandover_kept {s : State} (role : s.pair.role = .standby) (active : s.pair.partner.role = 1)
    (announced : s.pair.partner.handover = true) (h : s.pair.partner.h ≠ 0) :
    (noteReady (noteHandover s)).pair.h = some s.pair.partner.h ∧ (noteReady (noteHandover s)).pair.cold = s.pair.partner.cold := by
  have noted : noteHandover s = modPairLink (fun p => { p with
      h := some s.pair.partner.h, lastH := s.pair.partner.h, cold := s.pair.partner.cold }) s :=
    if_pos (by simp [role, active, announced, h])
  rw [noteReady_eq, noted]
  exact ⟨rfl, rfl⟩

/-- What being deposed changes at once: the role, and the commands of the next buffers (R507). -/
def stepsDown (s : State) : State :=
  stripNext (modPairLink (fun p => { p with role := .standby, nr3 := true, deposeRun := 0, h := none, cold := false }) s)

/-- The buffers of the next program cycle hold no commands (R507). -/
theorem stepsDown_next (s : State) (h : Half) (v : VotedImage) (next : (twoGet (stepsDown s).halves h).next = some v) :
    v.cmds = [] ∧ v.locals = none := by
  cases h <;> obtain ⟨w, -, rfl⟩ := Option.map_eq_some_iff.mp next <;> exact ⟨rfl, rfl⟩

theorem depose_raised (s : State) : (depose s).raised 60 :=
  (readyTold_noteReady _).2.1 60 (raised_raiseEv (by decide))

/-- A module deposed only steps down, and reports (R507). -/
theorem depose_eq (s : State) : depose s = { stepsDown s with
    pair := { (stepsDown s).pair with readySince := (depose s).pair.readySince }, ev := (depose s).ev, dict := (depose s).dict } :=
  noteReady_eq (raiseEv 60 s.pair.epoch (stepsDown s))

theorem depose_told (s : State) : readyTold s (depose s) := by
  have quiet : readyTold s (stepsDown s) := readyTold_of_eq rfl rfl rfl
  exact readyTold_trans quiet (readyTold_trans (readyTold_raiseEv _ _ _) (readyTold_noteReady _))

/-! ## The roles settled -/

/-- What follows what is known of the partner: the pair, then a deposition or a hand-over noted (R486, R503, R507). -/
def rolesFollow (s : State) : State :=
  if s.pair.role = .active && s.pair.partner.role = 1 && newerEpoch s.pair.partner.epoch s.pair.epoch then depose s
  else noteReady (noteHandover s)

/-- The pair's roles have changed, and the next buffers of a module that stops commanding (R507). -/
def rolesFollowed (s t : State) : Prop :=
  readyTold s t ∧ t = { s with
    pair := { s.pair with
      formed := t.pair.formed, role := t.pair.role, nr3 := t.pair.nr3, readySince := t.pair.readySince, h := t.pair.h
      lastH := t.pair.lastH, cold := t.pair.cold, deposeRun := t.pair.deposeRun, unformed := t.pair.unformed }
    halves := t.halves, lio := { s.lio with localNext := t.lio.localNext }, ev := t.ev, dict := t.dict }

theorem rolesFollowed_of_rolesSettled {s t u : State} (h : rolesSettled s t) (k : rolesFollowed t u) : rolesFollowed s u := by
  obtain ⟨hr, ht⟩ := h
  obtain ⟨kr, ku⟩ := k
  rw [ht] at ku
  exact ⟨readyTold_trans hr kr, ku⟩

/-- The partner commands with a newer epoch, and this module commands too (R507). -/
def outranked (s : State) : Prop :=
  s.pair.role = .active ∧ s.pair.partner.role = 1 ∧ newerEpoch s.pair.partner.epoch s.pair.epoch = true

section
variable {s : State}

theorem rolesFollow_outranked (h : outranked s) : rolesFollow s = depose s := by
  obtain ⟨role, active, newer⟩ := h
  exact if_pos (by simp [role, active, newer])

theorem rolesFollow_stays (h : ¬outranked s) : rolesFollow s = noteReady (noteHandover s) := by
  refine if_neg fun deposed => h ?_
  simpa [outranked, and_assoc] using deposed

theorem rolesFollowed_rolesFollow (s : State) : rolesFollowed s (rolesFollow s) := by
  by_cases h : outranked s
  · rw [rolesFollow_outranked h]
    refine ⟨depose_told s, ?_⟩
    rw [depose_eq]
    rfl
  · rw [rolesFollow_stays h]
    obtain ⟨told, frame⟩ := rolesSettled_trans (rolesSettled_noteHandover s) (rolesSettled_noteReady _)
    exact ⟨told, by rw [frame]⟩

/-- The pair stays formed or unformed. -/
theorem rolesFollow_formed (s : State) : (rolesFollow s).pair.formed = s.pair.formed ∧ (rolesFollow s).pair.unformed = s.pair.unformed := by
  by_cases h : outranked s
  · rw [rolesFollow_outranked h, depose_eq]
    exact ⟨rfl, rfl⟩
  · rw [rolesFollow_stays h]
    exact ⟨(noteHandover_roles s).1, (noteHandover_roles s).2.1⟩

/-- A time of readiness is held just while the module is ready. -/
theorem rolesFollow_ready (s : State) : (rolesFollow s).pair.readySince.isSome = pairReady (rolesFollow s) := by
  by_cases h : outranked s
  · rw [rolesFollow_outranked h]
    exact isSome_noteReady _
  · rw [rolesFollow_stays h]
    exact isSome_noteReady _

/-- A module that nobody outranks keeps its role and its buffers. -/
theorem rolesFollow_kept (h : ¬outranked s) : (rolesFollow s).pair.role = s.pair.role ∧ (rolesFollow s).pair.nr3 = s.pair.nr3 ∧
    (rolesFollow s).halves = s.halves ∧ (rolesFollow s).lio = s.lio := by
  obtain ⟨-, frame⟩ := rolesSettled_trans (rolesSettled_noteHandover s) (rolesSettled_noteReady _)
  obtain ⟨-, -, role, nr3⟩ := noteHandover_roles s
  rw [rolesFollow_stays h]
  exact ⟨role, nr3, by rw [frame], by rw [frame]⟩

/-- A module outranked is standby, not ready for reason 3, its next buffers without commands. -/
theorem rolesFollow_deposed (h : outranked s) : (rolesFollow s).pair.role = .standby ∧ (rolesFollow s).pair.nr3 = true ∧
    (rolesFollow s).raised 60 ∧ (rolesFollow s).lio.localNext = none ∧
    ∀ h v, (twoGet (rolesFollow s).halves h).next = some v → v.cmds = [] ∧ v.locals = none := by
  rw [rolesFollow_outranked h]
  have raised := depose_raised s
  rw [depose_eq] at raised ⊢
  exact ⟨rfl, rfl, raised, rfl, stepsDown_next s⟩

theorem rolesFollow_h (h : s.pair.role ≠ .standby) (stays : ¬outranked s) : (rolesFollow s).pair.h = s.pair.h := by
  rw [rolesFollow_stays stays, noteHandover_other h, noteReady_h]

end

/-! ## A heartbeat used -/

/-- What a newer heartbeat tells is held: its path counts, its connection has its sequence, the partner is what it says (R492). -/
def partnerHeard (p : Path) (e : Envelope) (s : State) : State :=
  { s with
    pair := { s.pair with
      hbNow := if s.pair.hbNow.contains (s.bus.counter, p) then s.pair.hbNow else s.pair.hbNow ++ [(s.bus.counter, p)]
      partner := readHeartbeat e s.pair.partner }
    casc := (putConn { heldConn s (6, s.pair.partnerAddr, 0) with lastSeq := some e.seq } s).casc }

/-- The present bus cycle's heartbeat on a path counts once. -/
theorem mem_marked (l : List (Nat × Path)) (m : Nat × Path) :
    m ∈ (if l.contains m then l else l ++ [m]) ∧ ∀ x ∈ l, x ∈ (if l.contains m then l else l ++ [m]) := by
  split
  next held => exact ⟨by simpa using held, fun _ hx => hx⟩
  · exact ⟨List.mem_append_right l (List.mem_singleton_self m), fun _ hx => List.mem_append_left _ hx⟩

/-- A connection stored is found under its own key. -/
theorem findConn_putConn_key {c : ConnSt} {s : State} {k : Nat × Nat × Nat} (ident : (c.kind, c.peer, c.num) = k) :
    findConn (putConn c s) k.1 k.2.1 k.2.2 = some c := by
  subst ident
  exact findConn_putConn

/-- The connection of heartbeats holds the sequence of the newest (R492). -/
theorem partnerHeard_conn (p : Path) (e : Envelope) (s : State) :
    ∃ c, findConn (partnerHeard p e s) 6 s.pair.partnerAddr 0 = some c ∧ c.lastSeq = some e.seq :=
  ⟨{ heldConn s (6, s.pair.partnerAddr, 0) with lastSeq := some e.seq },
    findConn_putConn_key (s := s) (c := { heldConn s (6, s.pair.partnerAddr, 0) with lastSeq := some e.seq })
      (heldConn_ident s (6, s.pair.partnerAddr, 0)), rfl⟩

/-- The carrier of a heartbeat passes its checks. -/
def carrierOk (s : State) (p : Path) (f : Frame) : Prop :=
  p = .pairLink ∧ f.fcsOk = true ∨ p = .chanA ∧ heartbeatFrameOk s .a f = true ∨ p = .chanB ∧ heartbeatFrameOk s .b f = true

section
variable {s : State} {p : Path} {f : Frame}

theorem heartbeatRow_refused (bad : p = .pairLink ∧ f.fcsOk = false ∨ p = .chanA ∧ heartbeatFrameOk s .a f = false ∨
    p = .chanB ∧ heartbeatFrameOk s .b f = false ∨ p ≠ .pairLink ∧ p ≠ .chanA ∧ p ≠ .chanB) : heartbeatRow p f s = s := by
  cases p <;> simp_all [heartbeatRow]

theorem heartbeatRow_heard (ok : carrierOk s p f) : heartbeatRow p f s = heartbeatOn p f.body s := by
  rcases ok with ⟨rfl, good⟩ | ⟨rfl, good⟩ | ⟨rfl, good⟩ <;> exact if_pos good

variable {e : Envelope} {b : List Byte} (read : readEnvelope b = some e)
include read

theorem heartbeatOn_refused (bad : e.kind ≠ 0x90 ∨ s.pair.partnerAddr = 0xFFFF ∨
    laneEnvelopeOk (cascadeId 6 s.pair.partnerAddr s.dict.modAddr 0) [0x90] e = false ∨ payloadOk e = false ∨
    e.stamp ≠ s.bus.counter % 2 ^ 32) : heartbeatOn p b s = refuseEnv s := by
  rw [heartbeatOn, read]
  refine if_pos ?_
  rw [show 2 ^ 32 = 0x100000000 from rfl] at bad
  simpa only [Bool.or_eq_true, decide_eq_true_eq, Bool.not_eq_true', or_assoc] using bad

variable (kind : e.kind = 0x90) (addr : s.pair.partnerAddr ≠ 0xFFFF)
  (lane : laneEnvelopeOk (cascadeId 6 s.pair.partnerAddr s.dict.modAddr 0) [0x90] e = true) (payload : payloadOk e = true)
  (stamp : e.stamp = s.bus.counter % 2 ^ 32)
include kind addr lane payload stamp

/-- A heartbeat with the rules of R492 met is judged by its sequence. -/
theorem heartbeatOn_good : heartbeatOn p b s =
    let old := heldConn s (6, s.pair.partnerAddr, 0)
    let newer := match old.lastSeq with | some l => newerSeq e.seq l | none => true
    if !newer && !decide (old.lastSeq = some e.seq) then { s with casc := { s.casc with dups := min 0xFFFFFFFF (s.casc.dups + 1) } }
    else if newer then rolesFollow (settlePair (partnerHeard p e s))
    else { s with
      pair := { s.pair with
        hbNow := if s.pair.hbNow.contains (s.bus.counter, p) then s.pair.hbNow else s.pair.hbNow ++ [(s.bus.counter, p)] }
      casc := { s.casc with dups := min 0xFFFFFFFF (s.casc.dups + 1) } } := by
  rw [heartbeatOn, read]
  refine (if_neg ?_).trans ?_
  · simp only [Bool.or_eq_true, decide_eq_true_eq, Bool.not_eq_true', not_or]
    exact ⟨⟨⟨⟨not_not.mpr kind, addr⟩, by simp [lane]⟩, by simp [payload]⟩, not_not.mpr stamp⟩
  · rfl

/-- One newer than the newest is used. -/
theorem heartbeatOn_newer (newer : ∀ c, findConn s 6 s.pair.partnerAddr 0 = some c → ∀ l, c.lastSeq = some l → newerSeq e.seq l = true) :
    heartbeatOn p b s = rolesFollow (settlePair (partnerHeard p e s)) := by
  have new : (match (heldConn s (6, s.pair.partnerAddr, 0)).lastSeq with | some l => newerSeq e.seq l | none => true) = true := by
    split
    next l last =>
      unfold heldConn at last
      cases conn : findConn s 6 s.pair.partnerAddr 0 with
      | none => rw [conn] at last; cases last
      | some c => exact newer c conn l (by rw [conn] at last; exact last)
    · rfl
  rw [heartbeatOn_good read kind addr lane payload stamp]
  simp only [new, Bool.not_true, Bool.false_and, Bool.false_eq_true, if_false, if_true]

variable {c : ConnSt} {l : Nat} (conn : findConn s 6 s.pair.partnerAddr 0 = some c) (last : c.lastSeq = some l)
  (old : newerSeq e.seq l = false)
include conn last old

/-- An older one is a duplicate; so is a copy of the newest, which still counts for its path. -/
theorem heartbeatOn_dup : heartbeatOn p b s = { s with
    pair := if e.seq = l then { s.pair with hbNow := if s.pair.hbNow.contains (s.bus.counter, p) then s.pair.hbNow
      else s.pair.hbNow ++ [(s.bus.counter, p)] } else s.pair
    casc := { s.casc with dups := min 0xFFFFFFFF (s.casc.dups + 1) } } := by
  have held : heldConn s (6, s.pair.partnerAddr, 0) = c := by
    rw [heldConn, conn]
    rfl
  rw [heartbeatOn_good read kind addr lane payload stamp]
  simp only [held, last, old, Bool.not_false, Bool.true_and, Bool.not_eq_true', decide_eq_false_iff_not, Option.some.injEq]
  by_cases same : e.seq = l
  · rw [if_neg (not_not.mpr same.symm), if_pos same]
    rfl
  · rw [if_pos (Ne.symm same), if_neg same]

end

/-! ## The pair settled on what was heard -/

section
variable {s : State} {p : Path} {e : Envelope} (addr : s.pair.partnerAddr ≠ 0xFFFF)
include addr

/-- Where no pair is formed, nothing follows but the fallen roles (R486). -/
theorem heard_unfit (unfit : pairFits (partnerHeard p e s) = false) :
    ∃ t, rolesFollow (settlePair (partnerHeard p e s)) = t ∧ t.pair.formed = false ∧ t.pair.role = .unpaired ∧ t.pair.h = none ∧
      (s.pair.unformed = false → t.raised 56) ∧ t.halves = s.halves ∧ t.lio = s.lio := by
  obtain ⟨u, settled, formed, role, noH, event⟩ := settlePair_unfit (s := partnerHeard p e s) addr rfl unfit
  have same : u.halves = s.halves ∧ u.lio = s.lio := by
    rw [← settled, (rolesSettled_settlePair _).2]
    exact ⟨rfl, rfl⟩
  have stays : ¬outranked u := fun h => absurd h.1 (by rw [role]; decide)
  obtain ⟨keptRole, -, keptHalves, keptLio⟩ := rolesFollow_kept stays
  obtain ⟨-, mono, -⟩ := (rolesFollowed_rolesFollow u).1
  rw [settled]
  exact ⟨_, rfl, (rolesFollow_formed u).1.trans formed, keptRole.trans role, (rolesFollow_h (by rw [role]; decide) stays).trans noH, fun new => mono 56 (event new),
    keptHalves.trans same.1, keptLio.trans same.2⟩

/-- Where the pair is formed, the role is the settled one, and a module outranked steps down (R486, R507). -/
theorem heard_fits (fits : pairFits (partnerHeard p e s) = true) :
    ∃ u, settlePair (partnerHeard p e s) = u ∧ u.pair.partner = readHeartbeat e s.pair.partner ∧ u.pair.epoch = s.pair.epoch ∧
      u.pair.role = (if s.pair.role = .unpaired then settledRole (partnerHeard p e s) else s.pair.role) ∧
      u.pair.nr3 = (s.pair.nr3 || (decide (s.pair.role = .unpaired) && decide (u.pair.role = .standby))) ∧
      u.halves = s.halves ∧ u.lio = s.lio ∧ (rolesFollow u).pair.formed = true ∧ (rolesFollow u).pair.unformed = false := by
  obtain ⟨u, settled, formed, unformed, role, nr3⟩ := settlePair_fits (s := partnerHeard p e s) addr rfl fits
  have frame := (rolesSettled_settlePair (partnerHeard p e s)).2
  rw [settled] at frame
  exact ⟨u, settled, by rw [frame]; rfl, by rw [frame]; rfl, role, nr3, by rw [frame]; rfl, by rw [frame]; rfl,
    (rolesFollow_formed u).1.trans formed, (rolesFollow_formed u).2.trans unformed⟩

end

/-- A newer heartbeat changes what it says, and what follows of it for the pair's roles and its next buffers. -/
theorem heard_followed (p : Path) (e : Envelope) (s : State) :
    rolesFollowed (partnerHeard p e s) (rolesFollow (settlePair (partnerHeard p e s))) :=
  rolesFollowed_of_rolesSettled (rolesSettled_settlePair _) (rolesFollowed_rolesFollow _)

section
variable {s : State} {p : Path} {e : Envelope} (addr : s.pair.partnerAddr ≠ 0xFFFF) (fits : pairFits (partnerHeard p e s) = true)
include addr fits

/-- A module that nobody outranks has the settled role (R503, R507). -/
theorem heard_role (stays : ¬outranked (settlePair (partnerHeard p e s))) : ∃ t, rolesFollow (settlePair (partnerHeard p e s)) = t ∧
    t.pair.role = (if s.pair.role = .unpaired then settledRole (partnerHeard p e s) else s.pair.role) ∧
    (s.pair.role = .unpaired → t.pair.role = .standby → t.pair.nr3 = true) ∧ t.halves = s.halves ∧ t.lio = s.lio := by
  obtain ⟨u, settled, -, -, role, nr3, halves, lio, -, -⟩ := heard_fits addr fits
  rw [settled] at stays ⊢
  obtain ⟨keptRole, keptNr, keptHalves, keptLio⟩ := rolesFollow_kept stays
  refine ⟨_, rfl, keptRole.trans role, fun unsettled standby => ?_, keptHalves.trans halves, keptLio.trans lio⟩
  rw [keptNr, nr3, unsettled, ← keptRole, standby]
  exact Bool.or_true _

/-- A module whose role is not settled outranks or follows an active partner, so nobody outranks it (R503). -/
theorem heard_notOutranked (h : ¬(s.pair.role = .active ∧ (readHeartbeat e s.pair.partner).role = 1 ∧
      newerEpoch (readHeartbeat e s.pair.partner).epoch s.pair.epoch = true)) :
    ¬outranked (settlePair (partnerHeard p e s)) := by
  obtain ⟨u, settled, partner, epoch, role, -, -, -, -, -⟩ := heard_fits addr fits
  rw [settled]
  rintro ⟨active, commands, newer⟩
  rw [partner] at commands newer
  rw [epoch] at newer
  rw [role] at active
  split at active
  next unsettled =>
    have standby : settledRole (partnerHeard p e s) = .standby := by
      have sees : newerEpoch (partnerHeard p e s).pair.partner.epoch (partnerHeard p e s).pair.epoch = true := newer
      have partnerActive : (partnerHeard p e s).pair.partner.role = 1 := commands
      simp only [settledRole, sees, partnerActive, Bool.not_true, Bool.and_false, Bool.false_and, Bool.false_eq_true, if_false, if_true]
    rw [standby] at active
    cases active
  next settledBefore => exact h ⟨active, commands, newer⟩

/-- An active module that hears a newer epoch is outranked (R507). -/
theorem heard_outranked (role : s.pair.role = .active) (active : (readHeartbeat e s.pair.partner).role = 1)
    (newer : newerEpoch (readHeartbeat e s.pair.partner).epoch s.pair.epoch = true) : outranked (settlePair (partnerHeard p e s)) := by
  obtain ⟨u, settled, partner, epoch, keeps, -, -, -, -, -⟩ := heard_fits addr fits
  rw [settled]
  refine ⟨?_, by rw [partner, active], by rw [partner, epoch, newer]⟩
  rw [keeps, role]
  rfl

/-- A standby keeps the hand-over image of its active partner (R503). -/
theorem heard_handover (role : s.pair.role = .standby) (active : (readHeartbeat e s.pair.partner).role = 1)
    (announced : (readHeartbeat e s.pair.partner).handover = true) (h : (readHeartbeat e s.pair.partner).h ≠ 0) :
    ∃ t, rolesFollow (settlePair (partnerHeard p e s)) = t ∧
      t.pair.h = some (readHeartbeat e s.pair.partner).h ∧ t.pair.cold = (readHeartbeat e s.pair.partner).cold := by
  have stays := heard_notOutranked (p := p) addr fits (fun k => by rw [role] at k; cases k.1)
  obtain ⟨u, settled, partner, -, keeps, -, -, -, -, -⟩ := heard_fits addr fits
  rw [settled] at stays ⊢
  rw [rolesFollow_stays stays]
  have kept := noteHandover_kept (s := u) (by rw [keeps, role]; rfl) (by rw [partner]; exact active)
    (by rw [partner]; exact announced) (by rw [partner]; exact h)
  rw [partner] at kept
  exact ⟨_, rfl, kept⟩

end

/-- The role settled where neither module commands with the other (R486). -/
theorem settledRole_alone {s : State} (partner : s.pair.partner.role ≠ 1) :
    settledRole s = if hasControl s || s.pair.preferred then .active else .standby := if_neg partner

/-- A module that does not command follows an active partner (R503). -/
theorem settledRole_follows {s : State} (partner : s.pair.partner.role = 1) (control : hasControl s = false) : settledRole s = .standby := by
  simp [settledRole, partner, control]

theorem hasControl_unsettled {s : State} (role : s.pair.role = .unpaired) : hasControl s = s.power.confirmed := by
  simp [hasControl, role]

/-- The role of a module not settled yet, where a pair is formed (R486, R503). -/
theorem heard_settles {s : State} {p : Path} {e : Envelope} (addr : s.pair.partnerAddr ≠ 0xFFFF)
    (fits : pairFits (partnerHeard p e s) = true) (role : s.pair.role = .unpaired) :
    ∃ t, rolesFollow (settlePair (partnerHeard p e s)) = t ∧ t.pair.role = settledRole (partnerHeard p e s) ∧
      (t.pair.role = .standby → t.pair.nr3 = true) := by
  obtain ⟨t, ht, settles, fresh, -⟩ := heard_role (p := p) addr fits (heard_notOutranked addr fits (fun k => by rw [role] at k; cases k.1))
  exact ⟨t, ht, settles.trans (if_pos role), fresh role⟩

/-- Settles O40: refused and repeated heartbeats, a newer one used, the pair formed and its roles settled. -/
theorem heartbeatsAndRoles : Obligations.HeartbeatsAndRoles := by
  refine ⟨fun s p f bad => congrArg Host.Outcome.next (heartbeatRow_refused bad), fun s p f ok => ⟨fun unread => ?_, fun e read bad => ?_,
    fun e c l read kind addr lane payload stamp conn last old => ⟨fun other => ?_, fun same => ?_⟩⟩,
    fun s p f e q ok read kind addr lane payload stamp newer hq => ?_⟩
  · refine congrArg Host.Outcome.next ((heartbeatRow_heard ok).trans ?_)
    rw [heartbeatOn, unread]
    rfl
  · exact congrArg Host.Outcome.next ((heartbeatRow_heard ok).trans (heartbeatOn_refused read bad))
  · refine congrArg Host.Outcome.next ((heartbeatRow_heard ok).trans ?_)
    rw [heartbeatOn_dup read kind addr lane payload stamp conn last old, if_neg other]
  · have marked := mem_marked s.pair.hbNow (s.bus.counter, p)
    refine ⟨_, congrArg Host.Outcome.next ((heartbeatRow_heard ok).trans
      (heartbeatOn_dup read kind addr lane payload stamp conn last old)), ?_⟩
    rw [if_pos same]
    exact ⟨marked.1, marked.2, rfl⟩
  · subst hq
    have runs : exec (.heartbeatMsg p f) s = .next (rolesFollow (settlePair (partnerHeard p e s))) :=
      congrArg Host.Outcome.next ((heartbeatRow_heard ok).trans (heartbeatOn_newer read kind addr lane payload stamp newer))
    have ready := rolesFollow_ready (settlePair (partnerHeard p e s))
    obtain ⟨⟨told, -, change⟩, frame⟩ := heard_followed p e s
    generalize ht : rolesFollow (settlePair (partnerHeard p e s)) = t at runs ready told change frame
    refine ⟨t, runs, by rw [frame]; rfl, rfl, rfl, rfl, rfl, ?_, by rw [frame]; exact (mem_marked _ _).1, by rw [frame]; rfl, ready, change,
      fun unfit => ?_, fun fits => ⟨?_, ?_, fun role active control => ?_, fun role other commands => ?_, fun role other control pref => ?_,
        fun role active newerE => ?_, fun role => ?_, fun role active announced h => ?_⟩, fun stays => ?_, told, by rw [frame]; rfl⟩
    · have conn := partnerHeard_conn p e s
      rwa [findConn_congr (s := partnerHeard p e s) (t := t) (by rw [frame])]
    · obtain ⟨u, hu, formed, role, noH, event, -⟩ := heard_unfit (p := p) addr unfit
      rw [← ht, hu]
      exact ⟨formed, role, noH, event⟩
    · obtain ⟨u, hu, -, -, -, -, -, -, formed, -⟩ := heard_fits (p := p) addr fits
      rw [← ht, hu, formed]
    · obtain ⟨u, hu, -, -, -, -, -, -, -, unformed⟩ := heard_fits (p := p) addr fits
      rw [← ht, hu, unformed]
    · obtain ⟨u, hu, settles, fresh⟩ := heard_settles (p := p) addr fits role
      have standby := settles.trans (settledRole_follows active ((hasControl_unsettled role).trans control))
      rw [← ht, hu]
      exact ⟨standby, fresh standby⟩
    · obtain ⟨u, hu, settles, -⟩ := heard_settles (p := p) addr fits role
      have control : hasControl (partnerHeard p e s) = s.power.confirmed := hasControl_unsettled role
      rw [← ht, hu, settles, settledRole_alone other]
      exact if_pos (by rw [control, Bool.or_eq_true]; exact commands)
    · obtain ⟨u, hu, settles, fresh⟩ := heard_settles (p := p) addr fits role
      have free : hasControl (partnerHeard p e s) = false := (hasControl_unsettled role).trans control
      have standby := (settles.trans (settledRole_alone other)).trans
        (if_neg (by rw [free, Bool.false_or]; exact ne_true_of_eq_false pref))
      rw [← ht, hu]
      exact ⟨standby, fresh standby⟩
    · rw [← ht]
      exact rolesFollow_deposed (heard_outranked addr fits role active newerE)
    · have stays : ¬(s.pair.role = .active ∧ _ ∧ _) := fun k => role.elim (fun standby => by rw [standby] at k; cases k.1)
        fun active => active.2 k.2
      obtain ⟨u, hu, keeps, -⟩ := heard_role (p := p) addr fits (heard_notOutranked addr fits stays)
      rw [← ht, hu, keeps]
      exact if_neg (by rcases role with role | ⟨role, -⟩ <;> rw [role] <;> decide)
    · obtain ⟨u, hu, kept⟩ := heard_handover (p := p) addr fits role active announced h
      rw [← ht, hu]
      exact kept
    · cases fits : pairFits (partnerHeard p e s)
      case false =>
        obtain ⟨u, hu, -, -, -, -, kept⟩ := heard_unfit addr fits
        rw [← ht, hu]
        exact kept
      case true =>
        obtain ⟨u, hu, -, -, kept⟩ := heard_role addr fits (heard_notOutranked addr fits stays)
        rw [← ht, hu]
        exact kept

end Sys2Proof.Proofs
end

section
/-! PROOFS. Loss of the partner, and the images a standby's lanes run (R493 to R495, R501, R502, R506, R610). -/

namespace Sys2Proof.Proofs

open Sys2Proof Sys2Proof.Machine Sys2Proof.Laws

/-! ## The image under way seen again -/

/-- A change that the lanes write into the module block of the image under way, before and after its vote (log 23). -/
theorem withImage_row (s : State) : (imageVoted s = false → kernelRow (fun _ x => x) s (withImage id s)) ∧
    (imageVoted s = true → withImage id s = s) :=
  ⟨kernelRow_laneRow _ s, fun voted => if_pos voted⟩

/-- What the lanes write reads no event source, so a source raised before or after is the same. -/
theorem raiseEv_withImage (e d : Nat) (s : State) : raiseEv e d (withImage id s) = withImage id (raiseEv e d s) := by
  unfold withImage laneRow
  cases voted : imageVoted s
  · rw [id, if_neg (by simp [voted]), id, if_neg (by rw [show imageVoted (raiseEv e d s) = imageVoted s from rfl, voted]; decide)]
    rfl
  · rw [id, if_pos voted, id, if_pos (show imageVoted (raiseEv e d s) = true from voted)]

/-! ## A cold restart reported -/

theorem restartKernels_chest (f : KEnv → Nat → KRun → KRun) (s : State) : (restartKernels f s).chest = s.chest := by
  unfold restartKernels
  refine foldl_frame (P := fun u => u.chest = s.chest) (fun u r kept => (bookPut_chest _ u).trans kept) _ ?_
  exact foldl_frame (P := fun u => u.chest = s.chest) (fun u (v : EvRaise) (kept : (raiseAt _ v.event v.detail u).chest = _) => kept) _ rfl

/-- Control taken as after a cold restart: start-up confirmation awaited, routes released, and reports (R502, R610). -/
theorem coldControl_eq (s : State) : told s (coldControl s) ∧ coldControl s = { s with
    lanes := (coldControl s).lanes, free := (coldControl s).free, book := (coldControl s).book, ev := (coldControl s).ev
    dict := (coldControl s).dict
    power := { s.power with step := 7, step7At := s.ns, confirmed := false, confirmDue := false, confirmImg := none } } := by
  obtain ⟨told, frame⟩ := reported_restartKernels (fun e n x => fitProgram s (coldRun e n x)) s
  have chest := restartKernels_chest (fun e n x => fitProgram s (coldRun e n x)) s
  refine ⟨told, ?_⟩
  unfold coldControl awaitConfirmation coldRestart
  generalize restartKernels (fun e n x => fitProgram s (coldRun e n x)) s = u at frame chest
  rw [frame, chest]
  rfl

theorem coldControl_released (s : State) (l : Lane) (n : Nat) : (rst (triGet (coldControl s).lanes l).kernel n).state = .released :=
  coldRestart_released s l n

/-! ## Loss of the partner -/

/-- A standby takes control: its roles and epoch, before what the lanes or a restart make of it (R501, R506). -/
def tookControl (s : State) : State := takeControl (takeEpoch s) (forgetPartner s)

section
variable {s : State} (formed : s.pair.formed = true) (heard : s.pair.partner.heard = true) (lost : s.pair.lost = true)
include formed heard lost

theorem partnerLost_forgets (role : s.pair.role ≠ .standby) : partnerLost s = forgetPartner s := by
  rw [partnerLost, if_neg (by simp [formed, heard, lost]), if_pos role]

theorem partnerLost_ready (role : s.pair.role = .standby) (ready : nrReason s = 0) :
    partnerLost s = withImage id (raiseEv 57 0 (tookControl s)) := by
  rw [partnerLost, if_neg (by simp [formed, heard, lost]), if_neg (not_not.mpr role)]
  exact (if_pos ready).trans (raiseEv_withImage 57 0 _)

theorem partnerLost_unready (role : s.pair.role = .standby) (unready : nrReason s ≠ 0) :
    partnerLost s = raiseRec 57 (nrReason s) (nrReason s) 3 0xFFFF (be 1 (nrReason s)) (coldControl (tookControl s)) := by
  rw [partnerLost, if_neg (by simp [formed, heard, lost]), if_neg (not_not.mpr role)]
  exact if_neg unready

end

/-! ## What the lanes' images leave of the commons -/

/-- The image under way, the station data and the bus cycle are as before, whatever becomes of the lanes. -/
structure ImageKept (s t : State) : Prop where
  image : t.image = s.image
  imageNo : t.imageNo = s.imageNo
  ownRun : t.pair.ownRun = s.pair.ownRun
  cfg : t.cfg = s.cfg
  counter : t.bus.counter = s.bus.counter

section
variable {s t u : State}

theorem ImageKept.refl (s : State) : ImageKept s s := ⟨rfl, rfl, rfl, rfl, rfl⟩

theorem ImageKept.trans (h : ImageKept s t) (k : ImageKept t u) : ImageKept s u :=
  ⟨k.image.trans h.image, k.imageNo.trans h.imageNo, k.ownRun.trans h.ownRun, k.cfg.trans h.cfg, k.counter.trans h.counter⟩

theorem ImageKept.of_reported (r : reported s t) : ImageKept s t :=
  ⟨by rw [r.2], by rw [r.2], by rw [r.2], by rw [r.2], by rw [r.2]⟩

theorem imageKept_raiseEv (e d : Nat) (s : State) : ImageKept s (raiseEv e d s) := ⟨rfl, rfl, rfl, rfl, rfl⟩

theorem imageKept_dropLane (l : Lane) (reason block : Nat) (detail : List Byte) (s : State) :
    ImageKept s (dropLane l reason block detail s) := by
  have e := (dropLane_eq l reason block detail s).2
  exact ⟨by rw [e], by rw [e], by rw [e], by rw [e], by rw [e]⟩

theorem imageKept_dropPending (s : State) : ImageKept s (dropPending s) := by
  unfold dropPending
  split <;> exact ⟨rfl, rfl, rfl, rfl, rfl⟩

theorem imageKept_abortChange (code : Nat) (s : State) : ImageKept s (abortChange code s) := by
  unfold abortChange
  split <;> exact ⟨rfl, rfl, rfl, rfl, rfl⟩

theorem imageKept_abortModeSwitch (s : State) : ImageKept s (abortModeSwitch s) := by
  unfold abortModeSwitch
  split
  · split <;> exact ⟨rfl, rfl, rfl, rfl, rfl⟩
  · exact .refl s

theorem imageKept_enterRestrictive (s : State) : ImageKept s (enterRestrictive s) := by
  unfold enterRestrictive
  split
  · exact .refl s
  · extract_lets s1 s2 s3 vote lio pair s4
    have dropped : ImageKept s s2 := (imageKept_dropPending s).trans
      (foldl_frame (P := ImageKept s1) (fun u l kept => kept.trans (imageKept_dropLane _ _ _ _ u)) _ (.refl s1))
    have aborted : ImageKept s s3 := (dropped.trans (imageKept_abortChange _ s2)).trans (imageKept_abortModeSwitch _)
    have entered : ImageKept s s4 := aborted.trans ⟨rfl, rfl, rfl, rfl, rfl⟩
    have written := entered.trans (.of_reported (reported_chestWrite 6 0x30 0 [] s4))
    exact (written.trans (.of_reported (reported_snapshot _))).trans (.of_reported (reported_raiseRec _ _ _ _ _ _ _))

theorem imageKept_startBooting (l : Lane) (s : State) : ImageKept s (startBooting l s) := by
  obtain ⟨f, age, e⟩ := restoreClock_eq l s
  unfold startBooting
  rw [e]
  exact ⟨rfl, rfl, rfl, rfl, rfl⟩

theorem imageKept_restartRejoins (s : State) : ImageKept s (restartRejoins s) := by
  unfold restartRejoins
  refine foldl_frame (P := ImageKept s) (fun u l kept => ?_) _ (.refl s)
  split
  · exact kept.trans (imageKept_startBooting l u)
  · exact kept

theorem imageKept_excludeLanes (ls : List Lane) (reason block : Nat) (detail : List Byte) (s : State) :
    ImageKept s (excludeLanes ls reason block detail s) := by
  unfold excludeLanes
  split
  · exact .refl s
  · extract_lets s1
    have dropped : ImageKept s s1 :=
      foldl_frame (P := ImageKept s) (fun u l kept => kept.trans (imageKept_dropLane _ _ _ _ u)) _ (.refl s)
    split
    · exact dropped.trans (imageKept_enterRestrictive s1)
    · exact dropped.trans (imageKept_restartRejoins s1)

theorem imageKept_startRollBack (s : State) : ImageKept s (startRollBack s) := by
  unfold startRollBack
  split <;> exact ⟨rfl, rfl, rfl, rfl, rfl⟩

theorem imageKept_failRejoin (l : Lane) (reason : Nat) (s : State) : ImageKept s (failRejoin l reason s) := by
  unfold failRejoin
  extract_lets x fails hold x' inHand s1 s2
  have failed : ImageKept s s1 := .trans (t := { s with lanes := triPut s.lanes l x' }) ⟨rfl, rfl, rfl, rfl, rfl⟩
    ((ImageKept.of_reported (reported_chestWrite _ _ _ _ _)).trans (imageKept_raiseEv _ _ _))
  have held : ImageKept s s2 := by
    simp only [s2]
    split
    · exact failed.trans (imageKept_raiseEv _ _ _)
    · exact failed
  split
  · exact held.trans (imageKept_startRollBack s2)
  · exact held

theorem imageKept_deliverTo (l : Lane) (img : Option CycleImage) (p : PassTimes) (s : State) : ImageKept s (deliverTo l img p s) := by
  have put (x : LaneSt) : ImageKept s { s with lanes := triPut s.lanes l x } := ⟨rfl, rfl, rfl, rfl, rfl⟩
  have fails (reason : Nat) : ImageKept s (failRejoin l reason s) := imageKept_failRejoin l reason s
  unfold deliverTo
  extract_lets v
  split
  · split
    · exact .refl s
    · exact put _
  · exact imageKept_excludeLanes _ _ _ _ s
  · exact put _
  · exact put _
  · split
    · exact .refl s
    · split
      · exact fails _
      · exact put _
  · split
    · exact .refl s
    · exact fails _
  · exact fails _
  · exact fails _
  · exact .refl s

theorem imageKept_istLane (l : Lane) (r : IstIn) (s : State) : ImageKept s (istLane l r s) := by
  unfold istLane
  extract_lets x n y test s1
  split
  · exact ⟨rfl, rfl, rfl, rfl, rfl⟩
  · split
    · exact ⟨rfl, rfl, rfl, rfl, rfl⟩
    · have tested : ImageKept s s1 := ⟨rfl, rfl, rfl, rfl, rfl⟩
      exact (tested.trans (.of_reported (reported_chestWrite _ _ _ _ _))).trans (imageKept_excludeLanes _ _ _ _ _)

theorem imageKept_noteBanks (s : State) : ImageKept s (noteBanks s) := ⟨rfl, rfl, rfl, rfl, rfl⟩

/-- Running the image leaves the image under way (R29, R30). -/
theorem imageKept_runLanes (img : Half → Option CycleImage) (two : Bool) (t : TickIn) (s : State) :
    ImageKept s (runLanes img two t s) := by
  have delivered : ImageKept s (deliver img two t s) := by
    unfold deliver
    extract_lets s1 odd s2
    have before : ImageKept s s2 := by
      simp only [s2]
      split <;> exact ⟨rfl, rfl, rfl, rfl, rfl⟩
    exact foldl_frame (P := ImageKept s) (fun u l kept => kept.trans (imageKept_deliverTo _ _ _ u)) _ before
  have tested : ImageKept s (istRun t (deliver img two t s)) := by
    unfold istRun
    refine foldl_frame (P := ImageKept s) (fun u l kept => ?_) _ delivered
    split
    · exact kept.trans (imageKept_istLane _ _ u)
    · exact kept
  exact tested.trans (imageKept_noteBanks _)

end

/-! ## Three lanes that run the image -/

/-- Every lane is in vote and none is held for debugging; only lanes and reports differ. -/
structure LanesRunning (s t : State) : Prop where
  told : told s t
  frame : t = { s with lanes := t.lanes, ev := t.ev, dict := t.dict }
  inVote : ∀ l, (triGet t.lanes l).ls = .inVote
  free : debugHeld t = false

section
variable {s t : State} {i : CycleImage}

theorem debugHeld_congr (comm : t.comm = s.comm) (halted : t.lanes.a.halted = s.lanes.a.halted) : debugHeld t = debugHeld s := by
  rw [debugHeld, debugHeld, comm, halted]

theorem LanesRunning.withLanes (h : LanesRunning s t) {lanes : Three LaneSt} (inVote : ∀ l, (triGet lanes l).ls = .inVote)
    (halted : lanes.a.halted = t.lanes.a.halted) : LanesRunning s { t with lanes := lanes } where
  told := told_trans h.told (told_of_eq rfl rfl)
  frame := congrArg (fun x : State => { x with lanes := lanes }) h.frame
  inVote := inVote
  free := (debugHeld_congr (s := t) (t := { t with lanes := lanes }) rfl halted).trans h.free

theorem deliverTo_runs {l : Lane} (p : PassTimes) (inVote : (triGet s.lanes l).ls = .inVote) (free : debugHeld s = false) :
    deliverTo l (some i) p s = { s with lanes := triPut s.lanes l (laneRun s p i (triGet s.lanes l)) } := by
  simp only [deliverTo, inVote, free, Bool.false_eq_true, if_false]

theorem laneRun_fields (s : State) (p : PassTimes) (i : CycleImage) (v : LaneSt) : (laneRun s p i v).ls = v.ls ∧
    (laneRun s p i v).halted = v.halted ∧ (laneRun s p i v).ran = i.num := by
  dsimp only [laneRun]
  exact ⟨rfl, rfl, rfl⟩

theorem halted_putRun (l : Lane) (p : PassTimes) : (triPut s.lanes l (laneRun s p i (triGet s.lanes l))).a.halted = s.lanes.a.halted := by
  cases l
  · exact (laneRun_fields s p i s.lanes.a).2.1
  · rfl
  · rfl

/-- One lane takes the image from the copies that reach it (R29). -/
def takesImage (img : Half → Option CycleImage) (c : TickIn) (u : State) (l : Lane) : State :=
  deliverTo l (chooseCopy u.cfg (copyFor img (triGet c.copies l)).1 (copyFor img (triGet c.copies l)).2) (triGet c.times l) u

section
variable {img : Half → Option CycleImage} {c : TickIn} (copy : chooseCopy s.cfg (img .a) (img .b) = some i)
include copy

/-- With good transfers a lane runs the copy that the halves give. -/
theorem takesImage_runs (h : LanesRunning s t) {l : Lane} (good : triGet c.copies l = (true, true)) :
    takesImage img c t l = { t with lanes := triPut t.lanes l (laneRun t (triGet c.times l) i (triGet t.lanes l)) } := by
  have same : chooseCopy t.cfg (img .a) (img .b) = some i := by rw [h.frame, ← copy]
  rw [takesImage, good]
  show deliverTo l (chooseCopy t.cfg (img .a) (img .b)) _ t = _
  rw [same]
  exact deliverTo_runs (i := i) (triGet c.times l) (h.inVote l) h.free

variable (good : ∀ l, triGet c.copies l = (true, true))
include good

theorem LanesRunning.takesImage (h : LanesRunning s t) (l : Lane) : LanesRunning s (takesImage img c t l) := by
  rw [takesImage_runs copy h (good l)]
  refine h.withLanes (fun k => ?_) (halted_putRun l _)
  by_cases same : k = l
  · rw [same, triGet_put, (laneRun_fields _ _ _ _).1]
    exact h.inVote l
  · rw [triGet_put_other _ _ same]
    exact h.inVote k

theorem ran_takesImage (h : LanesRunning s t) {l k : Lane} (ran : k = l ∨ (triGet t.lanes k).ran = i.num) :
    (triGet (Proofs.takesImage img c t l).lanes k).ran = i.num := by
  rw [takesImage_runs copy h (good l)]
  by_cases same : k = l
  · rw [same, triGet_put, (laneRun_fields _ _ _ _).2.2]
  · rw [triGet_put_other _ _ same]
    exact ran.resolve_left same

/-- The image delivered to one lane after another. -/
theorem LanesRunning.takeAll (ls : List Lane) : ∀ {t : State}, LanesRunning s t → LanesRunning s (ls.foldl (Proofs.takesImage img c) t) ∧
    ∀ l, (l ∈ ls ∨ (triGet t.lanes l).ran = i.num) → (triGet (ls.foldl (Proofs.takesImage img c) t).lanes l).ran = i.num := by
  induction ls with
  | nil => exact fun h => ⟨h, fun l hl => hl.elim (fun k => absurd k List.not_mem_nil) id⟩
  | cons k ls ih =>
    intro t h
    obtain ⟨runs, ran⟩ := ih (h.takesImage copy good k)
    refine ⟨runs, fun l hl => ran l ?_⟩
    rw [List.mem_cons, or_assoc] at hl
    rcases hl with rfl | hl | hl
    · exact .inr (ran_takesImage copy good h (.inl rfl))
    · exact .inl hl
    · exact .inr (ran_takesImage copy good h (.inr hl))

/-- Lanes in vote with good transfers run the copy that the halves give. -/
theorem deliver_runs (two : Bool) (inVote : ∀ l, (triGet s.lanes l).ls = .inVote) (free : debugHeld s = false) :
    LanesRunning s (deliver img two c s) ∧ ∀ l, (triGet (deliver img two c s).lanes l).ran = i.num := by
  have start : LanesRunning s s := ⟨told_refl s, rfl, inVote, free⟩
  have noted := start.withLanes (lanes := triMap s.lanes (fun _ v => { v with lateWas := v.late }))
    (fun l => (congrArg LaneSt.ls (triGet_map s.lanes _ l)).trans (inVote l)) rfl
  unfold deliver
  extract_lets s1 odd s2
  have before : LanesRunning s s2 := by
    simp only [s2]
    split
    · exact ⟨told_trans noted.told (told_raiseAt _ _ _ _), rfl, noted.inVote, noted.free⟩
    · exact noted
  have all (l : Lane) : l ∈ allLanes := by cases l <;> decide
  obtain ⟨runs, ran⟩ := before.takeAll copy good allLanes
  exact ⟨runs, fun l => ran l (.inl (all l))⟩

end

theorem istLane_passes {l : Lane} {r : IstIn} (passes : r.failed = none) (s : State) :
    istLane l r s = { s with test := (istLane l r s).test } := by
  unfold istLane
  rw [passes]

/-- In-service tests that find nothing count their images, nothing else (R585). -/
theorem istRun_passes {c : TickIn} (passes : ∀ l, (triGet c.ist l).failed = none) (s : State) :
    istRun c s = { s with test := (istRun c s).test } := by
  unfold istRun
  refine foldl_frame (P := fun u => u = { s with test := u.test }) (fun u l kept => ?_) _ rfl
  split
  · exact (istLane_passes (passes l) u).trans (congrArg (fun x : State => { x with test := (istLane l (triGet c.ist l) u).test }) kept)
  · exact kept

/-- Three lanes in vote with good transfers and tests run the image that the halves give; nothing is excluded (R29, R30). -/
theorem runLanes_runs {img : Half → Option CycleImage} {c : TickIn} (two : Bool)
    (good : ∀ l, (triGet s.lanes l).ls = .inVote ∧ triGet c.copies l = (true, true) ∧ (triGet c.ist l).failed = none)
    (free : debugHeld s = false) (copy : chooseCopy s.cfg (img .a) (img .b) = some i) :
    ∃ t, runLanes img two c s = t ∧ (∀ l, (triGet t.lanes l).ls = .inVote ∧ (triGet t.lanes l).ran = i.num) ∧ told s t ∧
      t = { s with
        lanes := t.lanes, test := t.test, progLoad := { s.progLoad with bankImage := t.progLoad.bankImage }, ev := t.ev, dict := t.dict } := by
  obtain ⟨runs, ran⟩ := deliver_runs copy (fun l => (good l).2.1) two (fun l => (good l).1) free
  have tested := istRun_passes (c := c) (fun l => (good l).2.2) (deliver img two c s)
  refine ⟨_, rfl, ?_⟩
  unfold runLanes noteBanks
  generalize deliver img two c s = u at runs ran tested ⊢
  generalize istRun c u = v at tested ⊢
  obtain ⟨told, frame, inVote, -⟩ := runs
  rw [tested]
  refine ⟨fun l => ⟨inVote l, ran l⟩, told_trans told (told_of_eq rfl rfl), ?_⟩
  rw [frame]

end

/-! ## Shadow images -/

/-- The copies of shadow images that have come (R494). -/
def withShadows (l : List (Half × CycleImage)) (s : State) : State := { s with pair := { s.pair with shadows := l } }

/-- The image of the standby is replaced by the shadow image, which its lanes run (R494). -/
def shadowTaken (m : CycleImage) (s : State) : State :=
  { s with image := m, imageNo := m.num, pair := { s.pair with ownRun := some m.num } }

/-- The copy of the shadow image that one half holds, with what the standby's halves add to it (R494). -/
def shadowCopy (s : State) (h : Half) : Option CycleImage := (s.pair.shadows.find? (fun x => x.1 = h)).map (fun x => addOwn s.image x.2)

theorem runShadow_merged {s : State} {m : CycleImage} (c : TickIn) (merge : chooseCopy s.cfg (shadowCopy s .a) (shadowCopy s .b) = some m) :
    runShadow c s = runLanes (shadowCopy s) true c (shadowTaken m s) := by
  unfold runShadow
  extract_lets copy
  rw [show runShadow.mergeOptional s.cfg (copy .a) (copy .b) = some m from merge]
  rfl

/-- Both halves hold a copy, in either order. -/
theorem shadowCopy_both {s : State} {h : Half} {img other : CycleImage} (both : s.pair.shadows = [(otherHalf h, other), (h, img)]) :
    shadowCopy s .a = some (addOwn s.image (if h = .a then img else other)) ∧
    shadowCopy s .b = some (addOwn s.image (if h = .a then other else img)) := by
  unfold shadowCopy
  rw [both]
  cases h <;> exact ⟨rfl, rfl⟩

section
variable {s : State} {h : Half} {img : CycleImage} {c : TickIn}

theorem shadowImage_ignored {good : Bool} (bad : s.pair.role ≠ .standby ∨ good = false ∨ s.pair.ownRun = some s.imageNo) :
    shadowImage h img good c s = s := by
  refine if_pos ?_
  simpa only [Bool.or_eq_true, decide_eq_true_eq, Bool.not_eq_true', or_assoc] using bad

variable (role : s.pair.role = .standby) (ran : s.pair.ownRun ≠ some s.imageNo)
include role ran

theorem shadowImage_first (none : s.pair.shadows = []) :
    shadowImage h img true c s = withShadows [(h, img)] s := by
  rw [shadowImage, if_neg (by simp [role, ran]), none]
  rfl

/-- With both copies the lanes run their merge. -/
theorem shadowImage_second {other m : CycleImage} (one : s.pair.shadows = [(otherHalf h, other)]) (run : imagesRun s = true)
    (merge : chooseCopy s.cfg (some (addOwn s.image (if h = .a then img else other)))
      (some (addOwn s.image (if h = .a then other else img))) = some m) :
    ∃ copy, chooseCopy s.cfg (copy .a) (copy .b) = some m ∧
      shadowImage h img true c s = runLanes copy true c (shadowTaken m (withShadows [(otherHalf h, other), (h, img)] s)) := by
  have kept : s.pair.shadows.filter (fun x => x.1 ≠ h) ++ [(h, img)] = [(otherHalf h, other), (h, img)] := by
    rw [one]
    cases h <;> rfl
  obtain ⟨copyA, copyB⟩ := shadowCopy_both (s := withShadows [(otherHalf h, other), (h, img)] s) rfl
  have merged := (congrArg₂ (chooseCopy s.cfg) copyA copyB).trans merge
  refine ⟨shadowCopy (withShadows [(otherHalf h, other), (h, img)] s), merged, ?_⟩
  rw [shadowImage, if_neg (by simp [role, ran]), kept]
  refine (if_pos ?_).trans (runShadow_merged c merged)
  rw [show imagesRun (modPairLink _ s) = imagesRun s from rfl, run]
  rfl

end

/-! ## A shadow image missed -/

/-- The standby's lanes run their own latched image, without requests and writes (R495). -/
def ownTaken (s : State) : State :=
  { s with image := ownImage s.image, pair := { s.pair with ownRun := some s.image.num, nr3 := s.pair.nr3 || !s.pair.lost } }

theorem chooseCopy_same (st : Station) (i : CycleImage) : chooseCopy st (some i) (some i) = some i := congrArg some (if_pos rfl)

section
variable {s : State} {c : TickIn}

theorem shadowMissed_ignored (bad : s.pair.role ≠ .standby ∨ s.pair.ownRun = some s.imageNo ∨ imagesRun s = false) :
    shadowMissed c s = s := by
  refine if_pos ?_
  simpa only [Bool.or_eq_true, decide_eq_true_eq, Bool.not_eq_true', or_assoc] using bad

theorem shadowMissed_own (role : s.pair.role = .standby) (ran : s.pair.ownRun ≠ some s.imageNo) (run : imagesRun s = true)
    (none : s.pair.shadows = []) (a : s.halves.a.inServ = true) (b : s.halves.b.inServ = true) :
    ∃ copy two, chooseCopy s.cfg (copy .a) (copy .b) = some (ownImage s.image) ∧
      shadowMissed c s = noteReady (runLanes copy two c (ownTaken s)) := by
  refine ⟨fun h => if (twoGet s.halves h).inServ then some (ownImage s.image) else .none, decide ((halvesUp s).length = 2), ?_, ?_⟩
  · exact (congrArg₂ (chooseCopy s.cfg) (if_pos a) (if_pos b)).trans (chooseCopy_same _ _)
  · rw [shadowMissed, if_neg (by simp [role, ran, run]), if_neg (not_not.mpr none)]
    rfl

end

/-- A standby that is not ready for reason 3 has no time of readiness (R496). -/
theorem nrReason_ne_zero_of_nr3 {s : State} (nr3 : s.pair.nr3 = true) : nrReason s ≠ 0 := by
  unfold nrReason
  dsimp only
  split_ifs <;> simp_all

/-- A ready standby that lost its partner commands with its state (R501, R506). -/
theorem partnerLost_takes {s : State} (formed : s.pair.formed = true) (heard : s.pair.partner.heard = true) (lost : s.pair.lost = true)
    (role : s.pair.role = .standby) : (partnerLost s).raised 57 ∧ (partnerLost s).pair = (tookControl s).pair := by
  by_cases ready : nrReason s = 0
  · rw [partnerLost_ready formed heard lost role ready]
    have raised : (raiseEv 57 0 (tookControl s)).raised 57 := raised_raiseEv (by decide)
    cases voted : imageVoted (raiseEv 57 0 (tookControl s))
    · rw [((withImage_row _).1 voted).1]
      exact ⟨raised, rfl⟩
    · rw [(withImage_row _).2 voted]
      exact ⟨raised, rfl⟩
  · rw [partnerLost_unready formed heard lost role ready]
    refine ⟨raised_raiseRec (by decide), ?_⟩
    rw [(reported_raiseRec _ _ _ _ _ _ _).2, (coldControl_eq _).2]

/-- A standby that is not ready commands as after a cold restart (R502). -/
theorem partnerLost_cold {s : State} (formed : s.pair.formed = true) (heard : s.pair.partner.heard = true) (lost : s.pair.lost = true)
    (role : s.pair.role = .standby) (unready : nrReason s ≠ 0) : ∃ t, partnerLost s = t ∧
      (∀ l n, (rst (triGet t.lanes l).kernel n).state = .released) ∧ told s t ∧ t = { s with
        pair := t.pair, lanes := t.lanes, free := t.free, book := t.book, ev := t.ev, dict := t.dict
        power := { s.power with step := 7, step7At := s.ns, confirmed := false, confirmDue := false, confirmImg := none } } := by
  obtain ⟨restarted, frame⟩ := coldControl_eq (tookControl s)
  have released := coldControl_released (tookControl s)
  rw [partnerLost_unready formed heard lost role unready]
  generalize coldControl (tookControl s) = u at restarted frame released
  have recorded := reported_raiseRec 57 (nrReason s) (nrReason s) 3 0xFFFF (be 1 (nrReason s)) u
  have chest := raiseRec_chest 57 (nrReason s) (nrReason s) 3 0xFFFF (be 1 (nrReason s)) u
  generalize raiseRec 57 (nrReason s) (nrReason s) 3 0xFFFF (be 1 (nrReason s)) u = t at recorded chest
  obtain ⟨told, same⟩ := recorded
  rw [chest] at same
  refine ⟨t, rfl, ?_, told_trans (told_trans (told_of_eq rfl rfl) restarted) told, ?_⟩
  · rw [same]
    exact released
  · rw [same, frame]
    rfl

/-- Settles O41: the partner lost by a standby that is ready or not, shadow images taken and missed. -/
theorem partnerLossAndShadows : Obligations.PartnerLossAndShadows := by
  refine ⟨fun s => ⟨fun idle => congrArg Host.Outcome.next (if_pos ?_), fun formed heard lost => ⟨fun role =>
    congrArg Host.Outcome.next (partnerLost_forgets formed heard lost role), fun role => ?_⟩⟩,
    fun s h img good c => ⟨fun bad => congrArg Host.Outcome.next (shadowImage_ignored bad), fun role passed ran => ⟨fun none => ?_,
      fun other m one run merge => ?_⟩⟩,
    fun s c => ⟨fun bad => congrArg Host.Outcome.next (shadowMissed_ignored bad), fun role ran run none good free a b => ?_⟩⟩
  · simpa only [Bool.or_eq_true, Bool.not_eq_true', or_assoc] using idle
  · obtain ⟨raised, pair⟩ := partnerLost_takes formed heard lost role
    refine ⟨_, rfl, raised, by rw [pair]; rfl, by rw [pair]; rfl, by rw [pair]; rfl, by rw [pair]; rfl, by rw [pair]; rfl, by rw [pair]; rfl,
      by rw [pair]; rfl, by rw [pair]; rfl, by rw [pair]; rfl, fun ready => ?_, fun unready => ?_⟩
    · rw [partnerLost_ready formed heard lost role ready]
      obtain ⟨early, late⟩ := withImage_row (raiseEv 57 0 (tookControl s))
      exact ⟨raiseEv 57 0 (tookControl s), early, late, rfl, told_trans (told_of_eq rfl rfl) (told_raiseEv _ _ _), rfl⟩
    · obtain ⟨t, ht, released, told, frame⟩ := partnerLost_cold formed heard lost role unready
      rw [ht]
      exact ⟨by rw [frame], by rw [frame], by rw [frame], released, told, frame⟩
  · exact passed ▸ congrArg Host.Outcome.next (shadowImage_first role ran none)
  · obtain ⟨copy, merged, runs⟩ := shadowImage_second (c := c) role ran one run merge
    have kept := imageKept_runLanes copy true c (shadowTaken m (withShadows [(otherHalf h, other), (h, img)] s))
    subst passed
    refine ⟨_, congrArg Host.Outcome.next runs, kept.image, kept.imageNo, kept.ownRun, kept.cfg, kept.counter, fun good free => ?_⟩
    obtain ⟨t, ht, ran, told, frame⟩ := runLanes_runs (s := shadowTaken m (withShadows [(otherHalf h, other), (h, img)] s)) true good free merged
    rw [ht]
    refine ⟨ran, told_trans (told_of_eq rfl rfl) told, ?_⟩
    rw [frame]
    rfl
  · obtain ⟨copy, two, same, runs⟩ := shadowMissed_own (c := c) role ran run none a b
    obtain ⟨t, ht, ran, told, frame⟩ := runLanes_runs (s := ownTaken s) two
      (fun l => ⟨(good l).1, (good l).2.2, (good l).2.1⟩) free same
    rw [ht] at runs
    obtain ⟨quiet, -, change⟩ := readyTold_noteReady t
    refine ⟨_, congrArg Host.Outcome.next runs, by rw [noteReady_eq, frame]; rfl, by rw [noteReady_eq, frame]; rfl,
      by rw [noteReady_eq, frame]; rfl, by rw [noteReady_eq]; exact ran, fun held found => ?_,
      told_trans (told_trans (told_of_eq rfl rfl) told) quiet, ?_⟩
    · have nr3 : t.pair.nr3 = true := by
        rw [frame]
        exact (congrArg (fun lost => s.pair.nr3 || !lost) found).trans (Bool.or_true _)
      have since : t.pair.readySince = s.pair.readySince := by
        rw [frame]
        rfl
      have ended := noteReady_readySince (nrReason_ne_zero_of_nr3 nr3)
      refine ⟨ended, change ?_⟩
      rw [ended, since, held]
      decide
    · rw [noteReady_eq, frame]
      rfl

end Sys2Proof.Proofs
end

section
/-! PROOFS. Hand-over, cold hand-over, takeback and resynchronisation of a pair (R498, R503 to R506). -/

namespace Sys2Proof.Proofs

open Sys2Proof Sys2Proof.Machine Sys2Proof.Laws

/-! ## Refusals -/

/-- A pair command refused: its outcome, with event 58 (Table 13.20). -/
def handOverRefused (code : Nat) (s : State) : State :=
  withResult (functionReply code []) (modPairLink (fun p => { p with outcome := code }) (raiseEv 58 code s))

theorem handOverRefused_spec {code : Nat} (h9 : 0x9001 ≤ code ∧ code ≤ 0x9007) (s : State) :
    (handOverRefused code s).raised 58 ∧ (handOverRefused code s).dict.result = rFunction ∧
    (handOverRefused code s).dict.value = be 2 code ∧ reported { s with pair := { s.pair with outcome := code } } (handOverRefused code s) := by
  have reply : functionReply code [] = (rFunction, be 2 code) := if_neg (by omega)
  have raised : (raiseEv 58 code s).raised 58 := raised_raiseEv (by decide)
  unfold handOverRefused
  rw [reply]
  exact ⟨raised, rfl, rfl, reported_trans (reported_raiseEv 58 code _) (reported_withResult _ _)⟩

theorem refuseHandover_eq {code : Nat} (h9 : code ≠ 0x9008) (s : State) : refuseHandover code s =
    (modPairLink (fun p => { p with outcome := code }) (raiseEv 58 code s), functionReply code []) := by
  rw [refuseHandover, pairReply, if_neg h9]

section
variable {s : State} {n : Nat} (ha : s.allows n .maintainer false)
include ha

/-- A pair command of a Maintainer that is refused. -/
theorem exists_refused {c : Instr} {f : State → State × Nat × List Byte} {code : Nat} (runs : exec c s = .next (asSession n .maintainer false f s))
    (h9 : 0x9001 ≤ code ∧ code ≤ 0x9007) (refuses : f s = refuseHandover code s) :
    ∃ t, exec c s = .next t ∧ t.raised 58 ∧ t.dict.result = rFunction ∧ t.dict.value = be 2 code ∧
      reported { s with pair := { s.pair with outcome := code } } t := by
  refine ⟨handOverRefused code s, ?_, handOverRefused_spec h9 s⟩
  rw [runs]
  exact next_asSession ha (refuses.trans (refuseHandover_eq (by omega) s))

end

/-! ## The decision -/

/-- A hand-over decided: its image two after the one under way, with event 58 (R503). -/
def handOverNoted (cold : Bool) (s : State) : State :=
  raiseEv 58 0x9008 (modPairLink (fun p => { p with h := some (imgAdd s.imageNo 2), lastH := imgAdd s.imageNo 2, cold := cold }) s)

theorem handOverNoted_spec (cold : Bool) (s : State) : (handOverNoted cold s).raised 58 ∧ reported { s with pair := { s.pair with
    h := some (imgAdd s.imageNo 2), lastH := imgAdd s.imageNo 2, cold := cold } } (handOverNoted cold s) :=
  ⟨raised_raiseEv (by decide), reported_raiseEv _ _ _⟩

section
variable {s : State} {n : Nat}

/-- A pair command of a Maintainer that is accepted, pending until its image (R503). -/
theorem exists_decided {c : Instr} {f : State → State × Nat × List Byte} {cold : Bool} (ha : s.allows n .maintainer false)
    (runs : exec c s = .next (asSession n .maintainer false f s)) (decides : f s = pairReply 0x9008 (decideHandover cold s)) :
    ∃ t u v, exec c s = .next t ∧ u.raised 58 ∧ reported { s with pair := { s.pair with
        h := some (imgAdd s.imageNo 2), lastH := imgAdd s.imageNo 2, cold := cold } } u ∧
      (imageVoted s = false → kernelRow (fun _ x => x) u v) ∧ (imageVoted s = true → v = u) ∧
      t = withResult (0, []) { v with pair := { v.pair with outcome := 0x9008 } } := by
  obtain ⟨raised, told⟩ := handOverNoted_spec cold s
  obtain ⟨early, late⟩ := withImage_row (handOverNoted cold s)
  refine ⟨_, handOverNoted cold s, withImage id (handOverNoted cold s), ?_, raised, told, early, late, rfl⟩
  rw [runs]
  exact next_asSession ha decides

end

/-! ## The functions of the commands -/

section
variable {s : State}

theorem handOverFn_unready {c : Nat} (why : s.pair.formed = false ∧ c = 0x9001 ∨ s.pair.formed = true ∧ s.pair.role ≠ .active ∧ c = 0x9003 ∨
    s.pair.formed = true ∧ s.pair.role = .active ∧ modeOf s ≠ 0 ∧ c = 0x9006 ∨
    s.pair.formed = true ∧ s.pair.role = .active ∧ modeOf s = 0 ∧ handoverBusy s = true ∧ c = 0x9005) :
    handOverFn s = refuseHandover c s ∧ coldHandOverFn s = refuseHandover c s := by
  rcases why with ⟨formed, rfl⟩ | ⟨formed, role, rfl⟩ | ⟨formed, role, mode, rfl⟩ | ⟨formed, role, mode, busy, rfl⟩
  · simp [handOverFn, coldHandOverFn, formed]
  · simp [handOverFn, coldHandOverFn, formed, role]
  · simp [handOverFn, coldHandOverFn, formed, role, mode]
  · simp [handOverFn, coldHandOverFn, formed, role, mode, busy]

section
variable (formed : s.pair.formed = true) (role : s.pair.role = .active) (mode : modeOf s = 0) (idle : handoverBusy s = false)
include formed role mode idle

theorem handOverFn_free : handOverFn s =
    if !s.pair.partner.heard || !s.pair.partner.ready then refuseHandover 0x9002 s else pairReply 0x9008 (decideHandover false s) := by
  simp only [handOverFn, formed, role, mode, idle, Bool.not_true, Bool.false_eq_true, if_false, ne_eq, not_true_eq_false]

theorem coldHandOverFn_free : coldHandOverFn s =
    if !routesReleased s then refuseHandover 0x9004 s
    else if !s.pair.partner.heard || s.pair.partner.role ≠ 2 || (s.pair.partner.reason ≠ 1 && s.pair.partner.reason ≠ 2) then
      refuseHandover 0x9002 s
    else pairReply 0x9008 (decideHandover true s) := by
  simp only [coldHandOverFn, formed, role, mode, idle, Bool.not_true, Bool.false_eq_true, if_false, ne_eq, not_true_eq_false]

end

theorem resyncFn_refused {c : Nat} (why : s.pair.formed = false ∧ c = 0x9001 ∨ s.pair.formed = true ∧ s.pair.role ≠ .standby ∧ c = 0x9003 ∨
    s.pair.formed = true ∧ s.pair.role = .standby ∧ (modeOf s ≠ 0 ∨ resyncBarred s = true) ∧ c = 0x9006 ∨
    s.pair.formed = true ∧ s.pair.role = .standby ∧ modeOf s = 0 ∧ resyncBarred s = false ∧ s.pair.resync = true ∧ c = 0x9005) :
    resyncFn s = pairReply c s := by
  rcases why with ⟨formed, rfl⟩ | ⟨formed, role, rfl⟩ | ⟨formed, role, bars, rfl⟩ | ⟨formed, role, mode, free, busy, rfl⟩
  · simp [resyncFn, formed]
  · simp [resyncFn, formed, role]
  · simp [resyncFn, formed, role, bars]
  · simp [resyncFn, formed, role, mode, free, busy]

theorem resyncFn_starts (formed : s.pair.formed = true) (role : s.pair.role = .standby) (mode : modeOf s = 0) (free : resyncBarred s = false)
    (idle : s.pair.resync = false) : resyncFn s = pairReply 0 (startResync s) := by
  simp [resyncFn, formed, role, mode, free, idle]

/-- A standby whose state is streamed is not ready (R497). -/
theorem nrReason_ne_zero_of_resync (resync : s.pair.resync = true) : nrReason s ≠ 0 := by
  unfold nrReason
  dsimp only
  split_ifs <;> simp_all

end

/-! ## The hand-over image -/

section
variable {s : State} (due : s.pair.h = some (imgAdd s.imageNo 1)) (first : nextCounter s % s.bus.lCyc = 0)
include due first

theorem handOverImage_gives (role : s.pair.role = .active) : handOverImage s = giveControl s := by
  rw [handOverImage, due]
  dsimp only
  rw [if_neg (by simp [first]), role]

theorem handOverImage_takes (role : s.pair.role = .standby) : handOverImage s =
    if s.pair.cold then coldControl (raiseEv 58 0 (takeControl (takeEpoch s) s)) else raiseEv 58 0 (takeControl (takeEpoch s) s) := by
  rw [handOverImage, due]
  dsimp only
  rw [if_neg (by simp [first]), role]

end

/-- Control given, readiness not yet noted (Table 13.7). -/
def controlGiven (s : State) : State :=
  raiseEv 58 0 (modPairLink (fun p => { p with
    role := .standby, h := none, cold := false, outcome := 0, nr3 := s.pair.cold, resync := false }) s)

theorem controlGiven_spec (s : State) : (controlGiven s).raised 58 ∧ told s (controlGiven s) :=
  ⟨raised_raiseEv (by decide), told_trans (told_of_eq rfl rfl) (told_raiseEv _ _ _)⟩

theorem giveControl_eq (s : State) : giveControl s = noteReady (controlGiven s) := rfl

theorem giveControl_pair (s : State) : (giveControl s).pair = { (controlGiven s).pair with
    readySince := (giveControl s).pair.readySince } := by
  rw [giveControl_eq, noteReady_eq]

/-- The outgoing module reports, and only its pair differs. -/
theorem giveControl_reported (s : State) : (giveControl s).raised 58 ∧ reported { s with pair := (giveControl s).pair } (giveControl s) := by
  obtain ⟨raised, told⟩ := controlGiven_spec s
  obtain ⟨quiet, mono, -⟩ := readyTold_noteReady (controlGiven s)
  rw [giveControl_eq]
  refine ⟨mono 58 raised, told_trans (told_trans (told_of_eq rfl rfl) told) quiet, ?_⟩
  rw [noteReady_eq]
  rfl

/-- What pended before a cold restart pends after it. -/
theorem raised_coldControl {s : State} {e : Nat} (raised : s.raised e) : (coldControl s).raised e := by
  have restarted : (coldRestart s).raised e := by
    unfold coldRestart restartKernels
    refine foldl_frame (P := fun u => u.raised e) (fun u r held => raised_bookPut held) _ ?_
    exact foldl_frame (P := fun u => u.raised e) (fun u v held => raised_mono held) _ raised
  exact restarted

/-- The incoming module takes control with the epoch of R506; a cold one restarts its vital state. -/
theorem handOverImage_taken {s : State} (due : s.pair.h = some (imgAdd s.imageNo 1)) (first : nextCounter s % s.bus.lCyc = 0)
    (role : s.pair.role = .standby) : ∃ t, handOverImage s = t ∧ t.raised 58 ∧ t.pair = (takeControl (takeEpoch s) s).pair ∧
      (s.pair.cold = false → reported { s with pair := t.pair } t) ∧
      (s.pair.cold = true → (∀ l n, (rst (triGet t.lanes l).kernel n).state = .released) ∧
        reported { s with
          pair := t.pair, lanes := t.lanes
          power := { s.power with step := 7, step7At := s.ns, confirmed := false, confirmDue := false, confirmImg := none } } t) := by
  have raised : (raiseEv 58 0 (takeControl (takeEpoch s) s)).raised 58 := raised_raiseEv (by decide)
  have told : told s (raiseEv 58 0 (takeControl (takeEpoch s) s)) := told_trans (told_of_eq rfl rfl) (told_raiseEv _ _ _)
  rw [handOverImage_takes due first role]
  cases s.pair.cold with
  | false => exact ⟨_, rfl, raised, rfl, fun _ => ⟨told_trans (told_of_eq rfl rfl) told, rfl⟩, fun cold => absurd cold Bool.false_ne_true⟩
  | true =>
    obtain ⟨restarted, frame⟩ := coldControl_eq (raiseEv 58 0 (takeControl (takeEpoch s) s))
    have mono := raised_coldControl raised
    have released := coldControl_released (raiseEv 58 0 (takeControl (takeEpoch s) s))
    refine ⟨_, rfl, ?_⟩
    rw [if_pos rfl]
    generalize coldControl (raiseEv 58 0 (takeControl (takeEpoch s) s)) = t at restarted frame mono released
    refine ⟨mono, by rw [frame]; rfl, fun cold => absurd cold.symm Bool.false_ne_true,
      fun _ => ⟨released, told_trans (told_trans (told_of_eq rfl rfl) told) restarted, ?_⟩⟩
    rw [frame]
    rfl

/-! ## Resynchronisation -/

/-- The standby's state is being streamed, 30 s to go (R498). -/
def resyncing (s : State) : State := modPairLink (fun p => { p with resync := true, resyncDue := s.ns + 30 * secNs }) s

section
variable {s : State}

/-- A resynchronisation begun ends readiness. -/
theorem startResync_spec (role : s.pair.role = .standby) : ∃ t, startResync s = t ∧ t.pair.resync = true ∧
    t.pair.resyncDue = s.ns + 30000000000 ∧ t.pair.role = .standby ∧ t.pair.readySince = none ∧
    (s.pair.readySince.isSome = true → t.raised 59) ∧ reported { s with pair := t.pair } t := by
  have streams : startResync s = noteReady (resyncing s) := rfl
  have ended : (noteReady (resyncing s)).pair.readySince = none := noteReady_readySince (nrReason_ne_zero_of_resync rfl)
  obtain ⟨quiet, -, change⟩ := readyTold_noteReady (resyncing s)
  rw [streams]
  refine ⟨_, rfl, by rw [noteReady_eq]; rfl, by rw [noteReady_eq]; rfl, by rw [noteReady_eq]; exact role, ended, fun held => change ?_,
    told_trans (told_of_eq rfl rfl) quiet, by rw [noteReady_eq]; rfl⟩
  rw [ended, show (resyncing s).pair.readySince = s.pair.readySince from rfl, held]
  decide

/-- The streamed state taken by every lane in vote (R498). -/
theorem resyncComplete_spec (k : Kernel) (role : s.pair.role = .standby) (resync : s.pair.resync = true) (free : resyncBarred s = false) :
    ∃ u, resyncComplete k s = noteReady u ∧ u = { s with
      lanes := triMap s.lanes (fun l v => if inVote s l then { v with kernel := k } else v)
      pair := { s.pair with resync := false, nr3 := false, nr4 := false } } := by
  refine ⟨_, ?_, rfl⟩
  exact if_neg (by simp [role, resync, free])

end

/-- Settles O42: commands refused and accepted, takeback, the hand-over image, resynchronisation. -/
theorem handOversAndResync : Obligations.HandOversAndResync := by
  refine ⟨fun s n ha => ⟨fun c why => ?_, fun formed role mode idle => ⟨fun partner => ?_, fun heard ready => ?_, fun routes => ?_,
      fun routes partner => ?_, fun routes heard standby reason => ?_⟩⟩,
    fun s => ⟨fun idle => congrArg Host.Outcome.next (if_neg ?_), fun formed role other on heard ready stable idle mode => ?_⟩,
    fun s => ⟨fun none => ?_, fun h due early => ?_, fun due first => ⟨fun role => ?_, fun role => ?_⟩⟩,
    fun s n ha => ⟨fun c why => ?_, fun formed role mode free idle => ?_⟩,
    fun s k => ⟨fun idle => congrArg Host.Outcome.next (if_pos ?_), fun role resync free => ?_⟩⟩
  · have code : 0x9001 ≤ c ∧ c ≤ 0x9007 := by omega
    obtain ⟨warm, cold⟩ := handOverFn_unready why
    exact ⟨exists_refused ha rfl code warm, exists_refused ha rfl code cold⟩
  · refine exists_refused (code := 0x9002) ha rfl (by decide) ((handOverFn_free formed role mode idle).trans (if_pos ?_))
    simpa using partner
  · exact exists_decided ha rfl ((handOverFn_free formed role mode idle).trans (if_neg (by simp [heard, ready])))
  · exact exists_refused (code := 0x9004) ha rfl (by decide) ((coldHandOverFn_free formed role mode idle).trans (if_pos (by simp [routes])))
  · refine exists_refused (code := 0x9002) ha rfl (by decide) ?_
    rw [coldHandOverFn_free formed role mode idle, if_neg (by simp [routes]), if_pos (by simpa [or_assoc] using partner)]
  · refine exists_decided ha rfl ?_
    rw [coldHandOverFn_free formed role mode idle, if_neg (by simp [routes]), if_neg (by simpa [heard, standby, imp_iff_not_or] using reason)]
  · intro all
    simp only [Bool.and_eq_true, Bool.not_eq_true', decide_eq_true_eq, and_assoc] at all
    obtain ⟨formed, role, other, on, heard, ready, stable, free, mode⟩ := all
    simp [formed, role, other, on, heard, ready, free, mode, Nat.not_lt.mpr stable] at idle
  · obtain ⟨raised, told⟩ := handOverNoted_spec false s
    obtain ⟨early, late⟩ := withImage_row (handOverNoted false s)
    refine ⟨handOverNoted false s, withImage id (handOverNoted false s), congrArg Host.Outcome.next (if_pos ?_), raised, told, early, late⟩
    simp [formed, role, other, on, heard, ready, stable, idle, mode]
  · refine congrArg Host.Outcome.next ?_
    rw [handOverImage, none]
  · refine congrArg Host.Outcome.next ?_
    rw [handOverImage, due]
    exact if_pos (by simpa using early)
  · have pair := giveControl_pair s
    obtain ⟨raised, told⟩ := giveControl_reported s
    refine ⟨_, congrArg Host.Outcome.next (handOverImage_gives due first role), raised, ?_, ?_, ?_, ?_, ?_, told⟩
    all_goals
      rw [pair]
      rfl
  · obtain ⟨t, ht, raised, pair, warm, cold⟩ := handOverImage_taken due first role
    refine ⟨t, congrArg Host.Outcome.next ht, raised, by rw [pair]; rfl, by rw [pair]; rfl, by rw [pair]; rfl, by rw [pair]; rfl,
      by rw [pair]; rfl, by rw [pair]; rfl, warm, fun isCold => ?_⟩
    obtain ⟨released, told⟩ := cold isCold
    exact ⟨by rw [told.2], by rw [told.2], released, told⟩
  · refine next_asSession ha ((resyncFn_refused why).trans ?_)
    rw [pairReply, if_neg (by omega), functionReply, if_neg (by omega)]
    rfl
  · obtain ⟨t, ht, resync, due, standby, ended, event, told⟩ := startResync_spec role
    refine ⟨_, next_asSession ha ((resyncFn_starts formed role mode free idle).trans (congrArg (pairReply 0) ht)), rfl, resync, due, rfl,
      standby, ended, event, told_trans (told_trans (told_of_eq rfl rfl) told.1) (told_trans (told_of_eq rfl rfl) (told_withResult _ _)), ?_⟩
    rw [told.2]
    rfl
  · simpa only [Bool.or_eq_true, decide_eq_true_eq, Bool.not_eq_true', or_assoc] using idle
  · obtain ⟨u, runs, hu⟩ := resyncComplete_spec k role resync free
    obtain ⟨quiet, -, change⟩ := readyTold_noteReady u
    have shown := isSome_noteReady u
    have kept (l : Lane) : triGet (noteReady u).lanes l = if inVote s l then { triGet s.lanes l with kernel := k } else triGet s.lanes l := by
      rw [noteReady_eq, hu]
      exact triGet_map s.lanes _ l
    refine ⟨noteReady u, congrArg Host.Outcome.next runs, ?_, ?_, ?_, fun l inVote => (kept l).trans (if_pos inVote),
      fun l out => (kept l).trans (if_neg (by simp [out])), shown, fun differs => change ?_, ?_⟩
    · rw [noteReady_eq, hu]
    · rw [noteReady_eq, hu]
    · rw [noteReady_eq, hu]
    · rwa [show u.pair.readySince = s.pair.readySince by rw [hu]]
    · refine ⟨told_trans (told_of_eq ?_ ?_) quiet, ?_⟩
      · rw [hu]
      · rw [hu]
      · rw [noteReady_eq, hu]

end Sys2Proof.Proofs
end

section
/-! PROOFS. Requests and replies of the dictionary: what a stamp leaves, what a request meets before its service, the reply that
leaves (R533 to R536, R541, R542, R553, Table 14.1). -/

namespace Sys2Proof.Proofs

open Sys2Proof Sys2Proof.Machine Sys2Proof.Laws

/-! ## Stamps and depths -/

/-- A session is as before but for records added to its event queue. -/
def eventsAdded (x y : Session) : Prop :=
  y = { x with events := y.events } ∧ x.events.map (·.event) <+: y.events.map (·.event)

theorem eventsAdded_refl (x : Session) : eventsAdded x x := ⟨rfl, List.prefix_refl _⟩

theorem eventsAdded_trans {x y z : Session} (h : eventsAdded x y) (k : eventsAdded y z) : eventsAdded x z := by
  obtain ⟨hx, hp⟩ := h
  obtain ⟨kx, kp⟩ := k
  rw [hx] at kx
  exact ⟨kx, hp.trans kp⟩

theorem eventsAdded_offerSession (img e d time : Nat) (x : Session) : eventsAdded x (offerSession img e d time x) := by
  refine ⟨offerSession_events img e d time x, ?_⟩
  unfold offerSession
  split
  · show _ <+: (offerEvent img e d time x.events).map (·.event)
    rw [events_offerEvent]
    split
    · exact List.prefix_refl _
    · exact List.prefix_append _ _
  · exact List.prefix_refl _

/-- Only stamps, depths of queues and the source of lost stamps have changed (R463, R466, R560). -/
structure Quiet (s t : State) : Prop where
  enable : t.ev.enable = s.ev.enable
  raised : ∀ e, e ≠ 52 → (t.raised e ↔ s.raised e)
  sess : ∀ n, eventsAdded (sessOf s n) (sessOf t n)
  frame : t = { s with
    time := { s.time with stamps := t.time.stamps }, ev := t.ev
    dict := { s.dict with sessions := t.dict.sessions, qstats := t.dict.qstats } }

section
variable {s t u : State}

theorem Quiet.refl (s : State) : Quiet s s := ⟨rfl, fun _ _ => .rfl, fun _ => eventsAdded_refl _, rfl⟩

theorem Quiet.trans (h : Quiet s t) (k : Quiet t u) : Quiet s u where
  enable := k.enable.trans h.enable
  raised e he := (k.raised e he).trans (h.raised e he)
  sess n := eventsAdded_trans (h.sess n) (k.sess n)
  frame := by
    have frame := k.frame
    rw [h.frame] at frame
    exact frame

/-- A change of the stamps and depths alone. -/
theorem Quiet.of_eq (ev : t.ev = s.ev) (sessions : t.dict.sessions = s.dict.sessions) (frame : t = { s with
    time := { s.time with stamps := t.time.stamps }, ev := t.ev
    dict := { s.dict with sessions := t.dict.sessions, qstats := t.dict.qstats } }) : Quiet s t where
  enable := by rw [ev]
  raised e _ := by rw [State.raised, State.raised, ev]
  sess n := by
    rw [sessOf, sessOf, sessions]
    exact eventsAdded_refl _
  frame := frame

theorem quiet_raiseEv (d : Nat) (s : State) : Quiet s (raiseEv 52 d s) where
  enable := rfl
  raised _ he := raised_other he
  sess n := by
    rw [show sessOf (raiseEv 52 d s) n = _ from sessOf_raiseAt 0 52 d s n]
    exact eventsAdded_offerSession _ _ _ _ _
  frame := rfl

theorem quiet_noteDepth (q d : Nat) (full : Bool) (s : State) : Quiet s (noteDepth q d full s) := .of_eq rfl rfl rfl

theorem quiet_stamp (q sel : Nat) (e : StampEntry) (s : State) : Quiet s (stamp q sel e s) := by
  unfold stamp
  extract_lets x put s1
  have put_stamped (y : StampQ) : Quiet s (put y s) := .of_eq rfl rfl rfl
  split
  · exact .refl s
  · split
    · exact (put_stamped _).trans (quiet_noteDepth _ _ _ _)
    · have full : Quiet s s1 := (put_stamped _).trans (quiet_noteDepth _ _ _ _)
      split
      · exact full
      · exact full.trans (quiet_raiseEv _ _)

theorem quiet_receiveStamp (src : Source) (d : Dgram) (s : State) : Quiet s (receiveStamp src d s) := by
  unfold receiveStamp
  split
  · exact quiet_stamp _ _ _ s
  · exact .refl s

theorem quiet_serviceStamp (port : Nat) (h : Half) (s : State) : Quiet s (serviceStamp port h s) := by
  unfold serviceStamp
  split
  · exact quiet_stamp _ _ _ s
  · exact .refl s

theorem quiet_stampReply (r : Reply) (s : State) : Quiet s (stampReply r s) := by
  unfold stampReply
  split
  · exact quiet_stamp _ _ _ s
  · exact foldl_frame (P := Quiet s) (fun u h k => k.trans (quiet_serviceStamp _ h u)) _ (.refl s)
  · exact .refl s

theorem Quiet.replied (h : Quiet s t) : replied s t := by
  refine ⟨h.enable, ?_⟩
  have reply : t.dict.reply = s.dict.reply := by rw [h.frame]
  rw [reply]
  exact h.frame

theorem Quiet.sessions (h : Quiet s t) (n : Nat) : sessOf t n = { sessOf s n with events := (sessOf t n).events } := (h.sess n).1

theorem Quiet.reply (h : Quiet s t) : t.dict.reply = s.dict.reply := by rw [h.frame]

/-- What the checks of a request read of its session. -/
theorem Quiet.fields (h : Quiet s t) (n : Nat) : (sessOf t n).opened = (sessOf s n).opened ∧ (sessOf t n).stamp = (sessOf s n).stamp ∧
    (sessOf t n).src = (sessOf s n).src ∧ (sessOf t n).newest = (sessOf s n).newest ∧ (sessOf t n).kept = (sessOf s n).kept ∧
    (sessOf t n).level = (sessOf s n).level ∧ (sessOf t n).lastStamp = (sessOf s n).lastStamp := by
  rw [h.sessions n]
  exact ⟨rfl, rfl, rfl, rfl, rfl, rfl, rfl⟩

theorem Quiet.inSession (h : Quiet s t) (src : Source) (d : Dgram) : inSession t src d = Machine.inSession s src d := by
  obtain ⟨opened, stamp, source, -⟩ := h.fields d.session
  have welong : t.dict.welong = s.dict.welong := by rw [h.frame]
  unfold Machine.inSession
  simp only [opened, stamp, source, welong]

theorem Quiet.otherCopy (h : Quiet s t) (n : Nat) (ch : Option Half) (d : Dgram) :
    otherCopy t (sessOf t n) ch d = Machine.otherCopy s (sessOf s n) ch d := by
  have counter : t.bus.counter = s.bus.counter := by rw [h.frame]
  rw [h.sessions n]
  unfold Machine.otherCopy
  rw [counter]

theorem Quiet.unanswered (h : Quiet s t) (n : Nat) : unanswered (sessOf t n) = Machine.unanswered (sessOf s n) := by
  rw [h.sessions n]
  rfl

theorem Quiet.findObj (h : Quiet s t) (index sub : Nat) : findObj t index sub = Machine.findObj s index sub := by
  have view : t.view = s.view := by rw [h.frame]
  have ident : t.ident = s.ident := by rw [h.frame]
  rw [Machine.findObj, Machine.findObj, objRow, objRow, exportRow, exportRow, portAbsent, portAbsent, view, ident]

end

/-! ## Frames that compose -/

section
variable {s t u : State} {n : Nat}

theorem replied_trans (h : replied s t) (k : replied t u) : replied s u := by
  obtain ⟨he, hf⟩ := h
  obtain ⟨ke, kf⟩ := k
  rw [hf] at kf
  exact ⟨ke.trans he, kf⟩

theorem sessionsKept_trans (h : sessionsKept n s t) (k : sessionsKept n t u) : sessionsKept n s u := by
  intro m hm
  have hs := k m hm
  rw [h m hm] at hs
  exact hs

theorem Quiet.sessionsKept (h : Quiet s t) (n : Nat) : sessionsKept n s t := fun m _ => h.sessions m

/-- A session changed, no other. -/
theorem replied_modSess (n : Nat) (f : Session → Session) (s : State) : replied s (modSess n f s) := ⟨rfl, rfl⟩

theorem sessionsKept_modSess (n : Nat) (f : Session → Session) (s : State) : sessionsKept n s (modSess n f s) :=
  fun _ hm => apartFromEvents (sessOf_modSess_other f s hm)

end

/-! ## Replies -/

/-- A reply has left, nothing else but stamps. -/
structure Emitted (r : Reply) (s t : State) : Prop where
  reply : t.dict.reply = some r
  raised : ∀ e, e ≠ 52 → (t.raised e ↔ s.raised e)
  sess : ∀ n, eventsAdded (sessOf s n) (sessOf t n)
  replied : replied s t

section
variable {s t : State} {r : Reply}

theorem emitted_emit (r : Reply) (s : State) : Emitted r s (emit r s) := by
  have stamps := quiet_stampReply r { s with dict := { s.dict with reply := some r } }
  exact ⟨stamps.reply, stamps.raised, stamps.sess, replied_trans ⟨rfl, rfl⟩ stamps.replied⟩

theorem Emitted.sessions (h : Emitted r s t) (n : Nat) : sessOf t n = { sessOf s n with events := (sessOf t n).events } := (h.sess n).1

/-- A reply after a stamp. -/
theorem Emitted.of_quiet {u : State} (k : Emitted r t u) (h : Quiet s t) : Emitted r s u where
  reply := k.reply
  raised e he := (k.raised e he).trans (h.raised e he)
  sess n := eventsAdded_trans (h.sess n) (k.sess n)
  replied := replied_trans h.replied k.replied

end

/-- The reply of a request outside any session, with the status of the moment (R536). -/
def looseReply (src : Source) (d : Dgram) (result : Nat) (s : State) : Reply :=
  { replyTo src d 0xFF 0 result [] with status := statusWith false s }

/-! ## What a datagram meets -/

section
variable {s : State} {src : Source} {b : List Byte} {own : Dgram → Bool} {f : Dgram → State → State}

theorem withRequest_off (h : dictAlive s = false) : withRequest own f src b s = s := if_pos (by simp [h])

variable (alive : dictAlive s = true)
include alive

theorem withRequest_discarded (h : dgramOk b = false) : withRequest own f src b s = dropDgram s := by
  rw [withRequest, if_neg (by simp [alive]), if_pos (by simp [h])]

variable (ok : dgramOk b = true)
include ok

/-- A fault in the header is answered BAD-REQUEST, in a session or outside (R535). -/
theorem withRequest_bad (bad : badRequest (readDgram b) = true) : ∃ t r, withRequest own f src b s = t ∧ r.result = rBadRequest ∧
    r.data = [] ∧ r.seq = field b 4 4 ∧ Emitted r s t := by
  rw [withRequest, if_neg (by simp [alive]), if_neg (by simp [ok])]
  dsimp only
  rw [if_pos (by simp [bad])]
  have stamps := quiet_receiveStamp src (readDgram b) s
  split
  · exact ⟨_, _, rfl, rfl, rfl, rfl, (emitted_emit _ _).of_quiet stamps⟩
  · exact ⟨_, _, rfl, rfl, rfl, rfl, (emitted_emit _ _).of_quiet stamps⟩

/-- A good request of the command's own service goes on. -/
theorem withRequest_own (good : badRequest (readDgram b) = false) (mine : own (readDgram b) = true)
    (local_ : ∀ m l, src ≠ .proxy m l) : withRequest own f src b s = f (readDgram b) (receiveStamp src (readDgram b) s) := by
  have origin : originOf src = none := by
    cases src with
    | proxy m l => exact absurd rfl (local_ m l)
    | _ => rfl
  rw [withRequest, if_neg (by simp [alive]), if_neg (by simp [ok])]
  dsimp only
  rw [if_neg (by simp [good, origin]), if_pos mine]

end

/-! ## Requests in their session -/

section
variable {s : State} {src : Source} {ch : Option Half} {d : Dgram} {f : State → State} (local_ : ∀ m l, src ≠ .proxy m l)
include local_

theorem inAnySession_local : inAnySession src ch d f s =
    if inSession s src d then admitReq src ch d f s else sendLoose (replyTo src d 0xFF 0 rSession []) s := by
  cases src with
  | proxy m l => exact absurd rfl (local_ m l)
  | _ => rfl

/-- A request whose session is not its own is answered SESSION (R536). -/
theorem inAnySession_foreign (foreign : inSession s src d = false) :
    inAnySession src ch d f s = emit (looseReply src d rSession s) s := by
  rw [inAnySession_local local_, if_neg (by simp [foreign])]
  rfl

theorem inAnySession_own (mine : inSession s src d = true) : inAnySession src ch d f s = admitReq src ch d f s := by
  rw [inAnySession_local local_, if_pos mine]

end

section
variable {s : State} {src : Source} {ch : Option Half} {d : Dgram} {f : State → State}

theorem admitReq_copy (copy : otherCopy s (sessOf s d.session) ch d = true) : admitReq src ch d f s = s := if_pos copy

variable (first : otherCopy s (sessOf s d.session) ch d = false)
include first

theorem admitReq_kept {k : Reply} (kept : (sessOf s d.session).kept.find? (fun r => r.seq = d.seq) = some k) :
    admitReq src ch d f s = emit { k with resent := true, status := sessionStatus s d.session } s := by
  rw [admitReq, if_neg (by simp [first]), kept]

variable (new : (sessOf s d.session).kept.find? (fun r => r.seq = d.seq) = none)
include new

theorem admitReq_new : admitReq src ch d f s =
    if !laterSeq d.seq (sessOf s d.session).newest then dropDgram s
    else if 8 ≤ unanswered (sessOf s d.session) then
      emit { replyTo src d d.session d.stamp rBusy [] with status := sessionStatus s d.session } (noteDepth (80 + d.session) 8 true s)
    else f (acceptReq d.session ch d s) := by
  rw [admitReq, if_neg (by simp [first]), new]
  rfl

end

/-! ## Requests accepted -/

/-- A request of session `n` is accepted: its session holds its sequence and time (R541, R542). -/
structure Accepted (d : Dgram) (s t : State) : Prop where
  reply : t.dict.reply = s.dict.reply
  raised : ∀ e, e ≠ 52 → (t.raised e ↔ s.raised e)
  own : ∃ y, eventsAdded (sessOf s d.session) y ∧ ∃ ch seen, sessOf t d.session = { y with
    newest := d.seq, last := s.ns, seenChan := ch, seenAt := seen }
  kept : sessionsKept d.session s t
  replied : replied s t
  frame : t = { s with
    time := { s.time with stamps := t.time.stamps }, ev := t.ev
    dict := { s.dict with sessions := t.dict.sessions, qstats := t.dict.qstats } }

section
variable {s t : State} {d : Dgram}

theorem accepted_acceptReq (ch : Option Half) (h : Quiet s t) : Accepted d s (acceptReq d.session ch d t) := by
  have ns : t.ns = s.ns := by rw [h.frame]
  have moved : Quiet (modSess d.session (fun x => { x with newest := d.seq, last := t.ns, seenChan := ch, seenAt := t.bus.counter }) t)
      (acceptReq d.session ch d t) := quiet_noteDepth _ _ _ _
  refine ⟨moved.reply.trans h.reply, fun e he => (moved.raised e he).trans (h.raised e he),
    ⟨sessOf t d.session, h.sess d.session, ch, t.bus.counter, ?_⟩,
    sessionsKept_trans (h.sessionsKept _) (sessionsKept_trans (sessionsKept_modSess _ _ _) (moved.sessionsKept _)),
    replied_trans h.replied (replied_trans (replied_modSess _ _ _) moved.replied), ?_⟩
  · rw [← ns]
    exact sessOf_modSess d.session (fun x => { x with newest := d.seq, last := t.ns, seenChan := ch, seenAt := t.bus.counter }) t
  · show _ = _
    rw [h.frame]
    rfl

end

/-- A request that passes every check is served by the state that accepted it (R541, R542). -/
theorem withRequest_served {s : State} {src : Source} {ch : Option Half} {b : List Byte} {own : Dgram → Bool}
    {f : Dgram → State → State} (alive : dictAlive s = true) (ok : dgramOk b = true) (good : badRequest (readDgram b) = false)
    (mine : own (readDgram b) = true) (local_ : ∀ m l, src ≠ .proxy m l) (inSess : inSession s src (readDgram b) = true)
    (first : otherCopy s (sessOf s (readDgram b).session) ch (readDgram b) = false)
    (new : (sessOf s (readDgram b).session).kept.find? (fun r => r.seq = (readDgram b).seq) = none)
    (later : laterSeq (readDgram b).seq (sessOf s (readDgram b).session).newest = true)
    (room : unanswered (sessOf s (readDgram b).session) < 8) :
    ∃ t, Accepted (readDgram b) s t ∧ withRequest own (fun d => inAnySession src ch d (f d)) src b s = f (readDgram b) t := by
  have stamps := quiet_receiveStamp src (readDgram b) s
  obtain ⟨-, -, -, newest, kept, -⟩ := stamps.fields (readDgram b).session
  refine ⟨_, accepted_acceptReq ch stamps, ?_⟩
  rw [withRequest_own alive ok good mine local_, inAnySession_own local_ (by rw [stamps.inSession, inSess]),
    admitReq_new (by rw [stamps.otherCopy, first]) (by rw [kept, new]), newest, stamps.unanswered, later,
    if_neg (by decide), if_neg (by omega)]

/-! ## The commands -/

section
variable {s : State} {src : Source} {ch : Option Half} {b : List Byte} {far : ProxyIn} {c : Instr}

/-- Every command of a datagram takes it through the checks of R535. -/
theorem exec_withRequest (row : c ∈ [Instr.openSess src ch b, .closeSess src ch b, .statusReq src ch b, .readObj src ch b, .writeObj src ch b,
    .readClear src ch b, .describeObj src ch b, .eventRead src ch b, .eventPendingClear src ch b, .proxyReq src ch b far]) :
    ∃ own f, exec c s = .next (withRequest own f src b s) := by
  simp only [List.mem_cons, List.not_mem_nil, or_false] at row
  rcases row with rfl | rfl | rfl | rfl | rfl | rfl | rfl | rfl | rfl | rfl <;> exact ⟨_, _, rfl⟩

/-- A command whose service the datagram asks for serves it in a session. -/
theorem exec_service {d : Dgram} (hd : d = readDgram b)
    (row : c = .closeSess src ch b ∧ d.service = 0x02 ∨ c = .statusReq src ch b ∧ d.service = 0x03 ∨
      c = .readObj src ch b ∧ d.service = 0x10 ∧ readsClear s d = false ∨ c = .readClear src ch b ∧ d.service = 0x10 ∧ readsClear s d = true ∨
      c = .writeObj src ch b ∧ d.service = 0x11 ∧ d.index ≠ 0x3001 ∨ c = .eventPendingClear src ch b ∧ d.service = 0x11 ∧ d.index = 0x3001 ∨
      c = .describeObj src ch b ∧ d.service = 0x12 ∨ c = .eventRead src ch b ∧ d.service = 0x20 ∨
      c = .proxyReq src ch b far ∧ d.service = 0x30) :
    ∃ (own : Dgram → Bool) (f : Dgram → State → State), own (readDgram b) = true ∧ exec c s = .next (withRequest own (fun d => inAnySession src ch d (f d)) src b s) := by
  subst hd
  rcases row with ⟨rfl, h⟩ | ⟨rfl, h⟩ | ⟨rfl, h, k⟩ | ⟨rfl, h, k⟩ | ⟨rfl, h, k⟩ | ⟨rfl, h, k⟩ | ⟨rfl, h⟩ | ⟨rfl, h⟩ | ⟨rfl, h⟩
  · exact ⟨_, _, decide_eq_true h, rfl⟩
  · exact ⟨_, _, decide_eq_true h, rfl⟩
  · exact ⟨fun d => d.service = svRead && !readsClear s d, _, by simp [svRead, h, k], rfl⟩
  · exact ⟨fun d => d.service = svRead && readsClear s d, _, by simp [svRead, h, k], rfl⟩
  · exact ⟨fun d => d.service = svWrite && d.index ≠ pendingIndex, _, by simp [svWrite, pendingIndex, h, k], rfl⟩
  · exact ⟨fun d => d.service = svWrite && d.index = pendingIndex, _, by simp [svWrite, pendingIndex, h, k], rfl⟩
  · exact ⟨_, _, decide_eq_true h, rfl⟩
  · exact ⟨_, _, decide_eq_true h, rfl⟩
  · exact ⟨_, _, decide_eq_true h, rfl⟩

end

/-- Settles O44: datagrams refused by the dictionary, by their header, by their session and by their sequence. -/
theorem datagramChecks : Obligations.DatagramChecks := by
  refine ⟨fun s src ch b far c row => ?_, fun s src ch b far c d x row alive ok good hd hx local_ => ?_⟩
  · obtain ⟨own, f, runs⟩ := exec_withRequest row
    rw [runs]
    refine ⟨fun off => congrArg Host.Outcome.next (withRequest_off off), fun alive wrong =>
      congrArg Host.Outcome.next (withRequest_discarded alive wrong), fun alive ok bad => ?_⟩
    obtain ⟨t, r, ht, result, data, seq, sent⟩ := withRequest_bad (own := own) (f := f) (src := src) alive ok bad
    exact ⟨t, r, congrArg Host.Outcome.next ht, sent.reply, result, data, seq, sent.replied, sent.sessions⟩
  · obtain ⟨own, f, mine, runs⟩ := exec_service (s := s) (far := far) hd row
    subst hd hx
    rw [runs, withRequest_own alive ok good mine local_]
    have stamps := quiet_receiveStamp src (readDgram b) s
    generalize receiveStamp src (readDgram b) s = u at stamps
    obtain ⟨-, -, -, newest, kept, -⟩ := stamps.fields (readDgram b).session
    refine ⟨fun foreign => ?_, fun inSess => ?_⟩
    · have sent := emitted_emit (looseReply src (readDgram b) rSession u) u
      rw [inAnySession_foreign local_ (by rw [stamps.inSession, foreign])]
      exact ⟨_, _, rfl, sent.reply, rfl, rfl, rfl, (sent.of_quiet stamps).replied, (sent.of_quiet stamps).sessions⟩
    · rw [inAnySession_own local_ (by rw [stamps.inSession, inSess])]
      refine ⟨fun copy => ?_, fun k first held => ?_, fun first new old => ?_, fun first new later full => ?_⟩
      · rw [admitReq_copy (by rw [stamps.otherCopy, copy])]
        exact ⟨u, rfl, stamps.reply, stamps.replied, stamps.sessions⟩
      · rw [admitReq_kept (by rw [stamps.otherCopy, first]) (by rw [kept, held])]
        have sent := emitted_emit { k with resent := true, status := sessionStatus u (readDgram b).session } u
        exact ⟨_, _, rfl, sent.reply, rfl, (sent.of_quiet stamps).replied, (sent.of_quiet stamps).sessions⟩
      · rw [admitReq_new (by rw [stamps.otherCopy, first]) (by rw [kept, new]), newest, if_pos (by rw [old]; rfl)]
        refine ⟨dropDgram u, rfl, stamps.reply, ?_, ⟨stamps.enable, ?_⟩, stamps.sessions⟩
        · rw [stamps.frame]
          rfl
        · rw [stamps.frame]
          rfl
      · rw [admitReq_new (by rw [stamps.otherCopy, first]) (by rw [kept, new]), newest, if_neg (by rw [later]; decide),
          stamps.unanswered, if_pos full]
        have noted := stamps.trans (quiet_noteDepth (80 + (readDgram b).session) 8 true u)
        have sent := (emitted_emit { replyTo src (readDgram b) (readDgram b).session (readDgram b).stamp rBusy [] with
          status := sessionStatus u (readDgram b).session } (noteDepth (80 + (readDgram b).session) 8 true u)).of_quiet noted
        exact ⟨_, _, rfl, sent.reply, rfl, rfl, sent.replied, sent.sessions⟩

end Sys2Proof.Proofs
end

section
/-! PROOFS. The life of a session: opened, closed, timed out, its source locked out, the port's link lost (R536 to R540, R557, R563). -/

namespace Sys2Proof.Proofs

open Sys2Proof Sys2Proof.Machine Sys2Proof.Laws

/-! ## Sessions closed -/

/-- One session closed, with event 86 (R540). -/
def closeOne (s : State) (x : Nat × Session) : State :=
  raiseEv 86 x.1 { s with dict := { s.dict with sessions := tabPut s.dict.sessions x.1 (endSession x.2) } }

/-- The open sessions that a closing takes. -/
def closing (p : Nat → Session → Bool) (s : State) : Tab Session := s.dict.sessions.filter (fun x => x.2.opened && p x.1 x.2)

theorem closeWhere_foldl (p : Nat → Session → Bool) (s : State) : closeWhere p s = (closing p s).foldl closeOne s := rfl

section
variable {s t : State} {x : Nat × Session} {l : Tab Session} {n e : Nat}

theorem sessOf_closeOne : (sessOf (closeOne s x) x.1).opened = false := by
  have ended : sessOf { s with dict := { s.dict with sessions := tabPut s.dict.sessions x.1 (endSession x.2) } } x.1 = endSession x.2 :=
    tabGet_put _ _ _ _
  rw [closeOne, raiseEv, sessOf_raiseAt_unoffered (by rw [ended]; exact .inl rfl), ended]
  rfl

theorem sessOf_closeOne_other (hn : n ≠ x.1) : eventsAdded (sessOf s n) (sessOf (closeOne s x) n) := by
  have kept : sessOf { s with dict := { s.dict with sessions := tabPut s.dict.sessions x.1 (endSession x.2) } } n = sessOf s n :=
    tabGet_put_other _ _ _ hn
  rw [closeOne, raiseEv, sessOf_raiseAt, kept]
  exact eventsAdded_offerSession _ _ _ _ _

theorem opened_closeOne (closed : (sessOf s n).opened = false) : (sessOf (closeOne s x) n).opened = false := by
  by_cases hn : n = x.1
  · rw [hn]
    exact sessOf_closeOne
  · rw [(sessOf_closeOne_other hn).1]
    exact closed

theorem raised_closeOne : (closeOne s x).raised 86 := raised_raiseEv (by decide)

theorem opened_foldl_closeOne (closed : (sessOf s n).opened = false) : (sessOf (l.foldl closeOne s) n).opened = false :=
  foldl_frame (P := fun u => (sessOf u n).opened = false) (fun _ _ h => opened_closeOne h) l closed

/-- A session among those closed is closed. -/
theorem opened_foldl_closeOne_mem (hx : x ∈ l) : (sessOf (l.foldl closeOne s) x.1).opened = false := by
  induction l generalizing s with
  | nil => cases hx
  | cons y l ih =>
    rcases List.mem_cons.mp hx with rfl | hx
    · exact opened_foldl_closeOne (s := closeOne s x) sessOf_closeOne
    · exact ih hx

/-- A session not among those closed is as before, but for its events. -/
theorem sessOf_foldl_closeOne (hn : ∀ x ∈ l, n ≠ x.1) : eventsAdded (sessOf s n) (sessOf (l.foldl closeOne s) n) := by
  induction l generalizing s with
  | nil => exact eventsAdded_refl _
  | cons y l ih =>
    exact eventsAdded_trans (sessOf_closeOne_other (hn y List.mem_cons_self)) (ih fun x hx => hn x (List.mem_cons_of_mem _ hx))

theorem raised_foldl_closeOne (h : s.raised 86 ∨ l ≠ []) : (l.foldl closeOne s).raised 86 := by
  cases l with
  | nil => exact h.resolve_right (fun k => k rfl)
  | cons y l => exact foldl_frame (P := fun u => u.raised 86) (fun _ _ _ => raised_closeOne) l raised_closeOne

end

section
variable {s : State} {p : Nat → Session → Bool} {n : Nat}

/-- Closing sessions changes the sessions, and reports. -/
theorem closeWhere_frame (p : Nat → Session → Bool) (s : State) : (closeWhere p s).ev.enable = s.ev.enable ∧ closeWhere p s = { s with
    ev := (closeWhere p s).ev, dict := { s.dict with sessions := (closeWhere p s).dict.sessions } } := by
  rw [closeWhere_foldl]
  refine foldl_frame (P := fun u => u.ev.enable = s.ev.enable ∧ u = { s with
    ev := u.ev, dict := { s.dict with sessions := u.dict.sessions } }) (f := closeOne) (fun u x h => ⟨h.1, ?_⟩) _ ⟨rfl, rfl⟩
  rw [h.2]
  rfl

theorem replied_closeWhere (p : Nat → Session → Bool) (s : State) : replied s (closeWhere p s) := by
  obtain ⟨enable, frame⟩ := closeWhere_frame p s
  refine ⟨enable, ?_⟩
  have time : (closeWhere p s).time = s.time := by rw [frame]
  have reply : (closeWhere p s).dict.reply = s.dict.reply := by rw [frame]
  have qstats : (closeWhere p s).dict.qstats = s.dict.qstats := by rw [frame]
  rw [time, reply, qstats]
  exact frame

/-- The session that a number names stands in the table when it is open. -/
theorem sessOf_mem (opened : (sessOf s n).opened = true) : (n, sessOf s n) ∈ s.dict.sessions := by
  unfold sessOf tabGet at opened ⊢
  cases found : tabFind s.dict.sessions n with
  | none => rw [found] at opened; exact absurd opened (by decide)
  | some x => exact mem_of_tabFind found

theorem mem_closing {x : Nat × Session} : x ∈ closing p s ↔ x ∈ s.dict.sessions ∧ x.2.opened = true ∧ p x.1 x.2 = true := by
  rw [closing, List.mem_filter, Bool.and_eq_true]

/-- An open session that a closing takes. -/
theorem closing_sessOf (opened : (sessOf s n).opened = true) (taken : p n (sessOf s n) = true) : (n, sessOf s n) ∈ closing p s :=
  mem_closing.mpr ⟨sessOf_mem opened, opened, taken⟩

theorem closeWhere_closes (opened : (sessOf s n).opened = true) (taken : p n (sessOf s n) = true) :
    (sessOf (closeWhere p s) n).opened = false ∧ (closeWhere p s).raised 86 := by
  have mem := closing_sessOf opened taken
  rw [closeWhere_foldl]
  exact ⟨opened_foldl_closeOne_mem mem, raised_foldl_closeOne (.inr (List.ne_nil_of_mem mem))⟩

/-- A closing that takes one session alone leaves the others. -/
theorem sessionsKept_closeWhere (alone : ∀ m x, p m x = true → m = n) : sessionsKept n s (closeWhere p s) := by
  intro m hm
  rw [closeWhere_foldl]
  exact (sessOf_foldl_closeOne fun x hx same => hm (same.trans (alone x.1 x.2 (mem_closing.mp hx).2.2))).1

theorem closeWhere_none (none : ∀ x ∈ s.dict.sessions, x.2.opened = true → p x.1 x.2 = false) : closeWhere p s = s := by
  have empty : closing p s = [] := List.filter_eq_nil_iff.mpr fun x hx => by
    rw [Bool.and_eq_true]
    exact fun h => absurd (none x hx h.1) (by rw [h.2]; decide)
  rw [closeWhere_foldl, empty]
  rfl

/-- With one entry per number, the entry of a number is its session. -/
theorem sessOf_of_mem {x : Nat × Session} (nodup : (tabKeys s.dict.sessions).Nodup) (hx : x ∈ s.dict.sessions) : sessOf s x.1 = x.2 := by
  have found : ∀ t : Tab Session, (tabKeys t).Nodup → x ∈ t → tabFind t x.1 = some x.2 := by
    intro t
    induction t with
    | nil => exact fun _ h => absurd h List.not_mem_nil
    | cons y t ih =>
      intro nodup hx
      obtain ⟨fresh, nodup⟩ := List.nodup_cons.mp nodup
      rcases List.mem_cons.mp hx with rfl | hx
      · exact if_pos rfl
      · exact (if_neg fun same : y.1 = x.1 => fresh (List.mem_map.mpr ⟨x, hx, same.symm⟩)).trans (ih nodup hx)
  rw [sessOf, tabGet, found _ nodup hx]
  rfl

end

/-- A session held by the maintenance port. -/
def overPort (x : Session) : Bool := match x.src with | .udp _ _ => true | _ => false

theorem overPort_iff {x : Session} : overPort x = true ↔ ∃ ip port, x.src = .udp ip port := by
  unfold overPort
  split
  next ip port source => exact ⟨fun _ => ⟨ip, port, source⟩, fun _ => rfl⟩
  next other => exact ⟨fun h => absurd h Bool.false_ne_true, fun ⟨ip, port, source⟩ => absurd source (other ip port)⟩

/-- The link of the maintenance port lost closes the sessions it holds (R540). -/
theorem maintenanceDown_eq (s : State) : maintenanceDown s = closeWhere (fun _ x => overPort x) s := rfl

/-! ## Refused OPENs of a source -/

section
variable {s : State} {src : Source}

theorem failOf_src (s : State) (src : Source) : (failOf s src).src = src := by
  unfold failOf
  cases found : s.dict.fails.find? (fun x => x.src = src) with
  | none => rfl
  | some x => simpa using List.find?_some found

theorem failOf_congr {t : State} (h : t.dict.fails = s.dict.fails) (src : Source) : failOf t src = failOf s src := by
  rw [failOf, failOf, h]

/-- What is held of a source after it is put is what was put, but that nothing is held of a source with nothing to tell. -/
theorem failOf_putFail (x : OpenFail) (s : State) : failOf (putFail x s) x.src = x := by
  have gone : (s.dict.fails.filter (fun y => y.src ≠ x.src)).find? (fun y => y.src = x.src) = none :=
    List.find?_eq_none.mpr fun y hy => by simpa using (List.mem_filter.mp hy).2
  unfold putFail failOf
  dsimp only
  split
  next nothing =>
    rw [gone]
    obtain ⟨src, times, lockedTo⟩ := x
    simp only [Bool.and_eq_true, decide_eq_true_eq, Option.isNone_iff_eq_none] at nothing
    rw [nothing.1, nothing.2]
    rfl
  next =>
    rw [List.find?_append, gone, List.find?_singleton, if_pos (decide_eq_true rfl)]
    rfl

theorem failOf_putFail_other (x : OpenFail) {y : Source} (hy : y ≠ x.src) : failOf (putFail x s) y = failOf s y := by
  have kept : (s.dict.fails.filter (fun z => z.src ≠ x.src)).find? (fun z => z.src = y) = s.dict.fails.find? (fun z => z.src = y) := by
    rw [List.find?_filter]
    refine congrArg (List.find? · s.dict.fails) (funext fun z => ?_)
    by_cases same : z.src = y
    · simp [same, hy]
    · simp [same]
  unfold putFail failOf
  dsimp only
  split
  · rw [kept]
  · rw [List.find?_append, kept, List.find?_singleton, if_neg (by simpa using Ne.symm hy)]
    cases s.dict.fails.find? (fun z => z.src = y) <;> rfl

end

/-! ## Replies of a session -/

/-- The reply of a session has left and is kept, nothing else but stamps (R541, R553). -/
structure Answered (n : Nat) (r : Reply) (s t : State) : Prop where
  reply : t.dict.reply = some r
  raised : ∀ e, e ≠ 52 → (t.raised e ↔ s.raised e)
  own : ∃ kept, eventsAdded { sessOf s n with kept := kept } (sessOf t n)
  kept : sessionsKept n s t
  replied : replied s t

theorem answered_sendReply (n : Nat) (r : Reply) (s : State) :
    Answered n { r with status := sessionStatus s n } s (sendReply n r s) := by
  have sent := emitted_emit { r with status := sessionStatus s n } (modSess n (fun x => { x with
    kept := keepLast keptReplies (x.kept ++ [{ r with status := sessionStatus s n }]) }) s)
  refine ⟨sent.reply, sent.raised,
    ⟨keepLast keptReplies ((sessOf s n).kept ++ [{ r with status := sessionStatus s n }]), ?_⟩, fun m hm => ?_, replied_trans (replied_modSess _ _ _) sent.replied⟩
  · have added := sent.sess n
    rw [sessOf_modSess] at added
    exact added
  · have added := sent.sess m
    rw [sessOf_modSess_other _ _ hm] at added
    exact added.1

/-- What a session of a reply holds beside its kept replies and its events. -/
theorem Answered.fields {n : Nat} {r : Reply} {s t : State} (h : Answered n r s t) : (sessOf t n).opened = (sessOf s n).opened ∧
    (sessOf t n).stamp = (sessOf s n).stamp ∧ (sessOf t n).level = (sessOf s n).level ∧ (sessOf t n).src = (sessOf s n).src ∧
    (sessOf t n).newest = (sessOf s n).newest ∧ (sessOf t n).last = (sessOf s n).last := by
  obtain ⟨kept, same, -⟩ := h.own
  rw [same]
  exact ⟨rfl, rfl, rfl, rfl, rfl, rfl⟩

/-! ## OPEN -/

section
variable {s t : State} {src : Source} {ch : Option Half} {d : Dgram}

theorem Quiet.lockedOut (h : Quiet s t) (src : Source) : lockedOut t src = Machine.lockedOut s src := by
  have fails : t.dict.fails = s.dict.fails := by rw [h.frame]
  have ns : t.ns = s.ns := by rw [h.frame]
  rw [Machine.lockedOut, Machine.lockedOut, failOf_congr fails, ns]

theorem Quiet.freeSession (h : Quiet s t) : freeSession t = Machine.freeSession s := by
  unfold Machine.freeSession
  refine congrArg (List.find? · (List.range 16)) (funext fun n => ?_)
  rw [(h.fields n).1]

theorem Quiet.credentialOk (h : Quiet s t) (level : Nat) (cred : List Byte) : credentialOk t level cred = Machine.credentialOk s level cred := by
  have creds : t.dict.creds = s.dict.creds := by rw [h.frame]
  have ident : t.ident = s.ident := by rw [h.frame]
  have lio : t.lio = s.lio := by rw [h.frame]
  unfold Machine.credentialOk
  rw [creds, ident, lio]

/-- Only a Welong datagram has a copy by the other channel (R541). -/
theorem openCopy_receiveStamp (copy : openCopy s src ch d = false) : openCopy (receiveStamp src d s) src ch d = false := by
  cases src with
  | udp ip port =>
    refine List.any_eq_false.mpr fun p _ both => ?_
    simp only [Bool.and_eq_true, decide_eq_true_eq] at both
    obtain ⟨⟨-, source⟩, second⟩ := both
    rw [otherCopy, source] at second
    exact absurd second Bool.false_ne_true
  | welong p => exact copy
  | proxy m l => exact copy

section
variable (copy : openCopy s src ch d = false) (allowed : ∀ p, src = .welong p → s.dict.welong = true)
include copy allowed

/-- An OPEN that is no copy, of a source that may hold sessions, meets the refusals of Table 14.6 in their order. -/
theorem openReq_judged : openReq src ch d s =
    if lockedOut s src then emit (looseReply src d rLockedOut s) s
    else match freeSession s with
      | none => emit (looseReply src d rSessionFull s) s
      | some n =>
        if field d.data 0 1 = 3 && !s.lio.key then emit (looseReply src d rKey s) s
        else if !credentialOk s (field d.data 0 1) (d.data.drop 4) then
          emit (looseReply src d rCredential (noteRefused src s)) (noteRefused src s)
        else openAt n (field d.data 0 1) src ch d s := by
  unfold openReq
  dsimp only
  rw [if_neg (by simp [copy])]
  refine (if_neg ?_).trans rfl
  cases src with
  | welong p => rw [allowed p rfl]; exact Bool.false_ne_true
  | _ => exact Bool.false_ne_true

theorem openReq_refused {code : Nat} (why : lockedOut s src = true ∧ code = rLockedOut ∨
    lockedOut s src = false ∧ freeSession s = none ∧ code = rSessionFull ∨
    lockedOut s src = false ∧ freeSession s ≠ none ∧ field d.data 0 1 = 3 ∧ s.lio.key = false ∧ code = rKey) :
    openReq src ch d s = emit (looseReply src d code s) s := by
  rw [openReq_judged copy allowed]
  rcases why with ⟨locked, rfl⟩ | ⟨unlocked, full, rfl⟩ | ⟨unlocked, room, level, key, rfl⟩
  · exact if_pos locked
  · rw [unlocked, full]
    rfl
  · obtain ⟨n, free⟩ := Option.ne_none_iff_exists'.mp room
    rw [unlocked, free, level, key]
    rfl

variable (unlocked : lockedOut s src = false) {n : Nat} (free : freeSession s = some n)
  (key : field d.data 0 1 = 3 → s.lio.key = true)
include unlocked free key

theorem openReq_credential : openReq src ch d s = if credentialOk s (field d.data 0 1) (d.data.drop 4)
    then openAt n (field d.data 0 1) src ch d s
    else emit (looseReply src d rCredential (noteRefused src s)) (noteRefused src s) := by
  have keyed : ¬(field d.data 0 1 = 3 && !s.lio.key) = true := by
    rw [Bool.and_eq_true, decide_eq_true_eq]
    exact fun h => absurd h.2 (by rw [key h.1]; decide)
  rw [openReq_judged copy allowed, if_neg (by rw [unlocked]; decide), free]
  dsimp only
  rw [if_neg keyed]
  cases credentialOk s (field d.data 0 1) (d.data.drop 4) <;> rfl

end

end

/-! ## A credential refused -/

/-- Times of the refusals of a source that still count, with the present one (R539). -/
def refusalTimes (s : State) (src : Source) : List Nat := (failOf s src).times.filter (fun y => s.ns < y + 60000000000) ++ [s.ns]

/-- What a refused credential tells of its source: a lockout at the last one allowed (R539). -/
def refusedFail (s : State) (src : Source) : OpenFail :=
  if s.dict.lockN ≤ (refusalTimes s src).length then
    { failOf s src with times := [], lockedTo := some (s.ns + s.dict.lockS * 1000000000) }
  else { failOf s src with times := refusalTimes s src, lockedTo := none }

section
variable {s t : State} {src : Source}

theorem eventsAdded_raiseEv (e d n : Nat) (s : State) : eventsAdded (sessOf s n) (sessOf (raiseEv e d s) n) := by
  rw [raiseEv, sessOf_raiseAt]
  exact eventsAdded_offerSession _ _ _ _ _

/-- A refused credential is held against its source, with event 86 (R539, R540). -/
theorem noteRefused_spec (src : Source) (s : State) : ∃ t, noteRefused src s = t ∧ t.raised 86 ∧ failOf t src = refusedFail s src ∧
    t.ev.enable = s.ev.enable ∧ (∀ n, eventsAdded (sessOf s n) (sessOf t n)) ∧ t = { s with
      ev := t.ev, dict := { s.dict with sessions := t.dict.sessions, fails := t.dict.fails } } := by
  have told : (raiseEv 86 noDetail s).raised 86 := raised_raiseEv (by decide)
  have added n := eventsAdded_raiseEv 86 noDetail n s
  have own : failOf (putFail (refusedFail s src) (raiseEv 86 noDetail s)) src = refusedFail s src := by
    have source : (refusedFail s src).src = src := by
      unfold refusedFail
      split <;> exact failOf_src s src
    have held := failOf_putFail (refusedFail s src) (raiseEv 86 noDetail s)
    rwa [source] at held
  by_cases many : s.dict.lockN ≤ (refusalTimes s src).length
  · have runs : noteRefused src s = raiseEv 86 noDetail (putFail (refusedFail s src) (raiseEv 86 noDetail s)) := by
      rw [refusedFail, if_pos many]
      exact if_pos many
    refine ⟨_, runs, raised_raiseEv (by decide), own, rfl, fun n => eventsAdded_trans (added n) (eventsAdded_raiseEv _ _ _ _), rfl⟩
  · have runs : noteRefused src s = putFail (refusedFail s src) (raiseEv 86 noDetail s) := by
      rw [refusedFail, if_neg many]
      exact if_neg many
    exact ⟨_, runs, told, own, rfl, added, rfl⟩

end

/-! ## A session opened -/

section
variable {s : State} {n level : Nat} {src : Source} {ch : Option Half} {d : Dgram}

/-- A new stamp is neither 0 nor the last one of its number (R537). -/
theorem newStamp_spec (last : Nat) (s : State) : (newStamp last s).1 ≠ 0 ∧ (newStamp last s).1 < 65536 ∧ (newStamp last s).1 ≠ last := by
  unfold newStamp
  dsimp only
  split
  next same => omega
  next other => exact ⟨by omega, by omega, other⟩

/-- A session as it is opened (R537). -/
def openedSession (level stamp : Nat) (src : Source) (ch : Option Half) (d : Dgram) (s : State) : Session :=
  { Session.closed with opened := true, level := levelAt level, src := src, stamp := stamp, lastStamp := stamp, newest := d.seq,
                        seenChan := ch, seenAt := s.bus.counter, last := s.ns }

/-- The session opened, its reply not yet sent; event 86 is raised before it opens (R557). -/
def opening (n level stamp : Nat) (src : Source) (ch : Option Half) (d : Dgram) (s : State) : State :=
  { raiseEv 86 n s with
    free := s.free + 1
    dict := { (raiseEv 86 n s).dict with
      sessions := tabPut (raiseEv 86 n s).dict.sessions n (openedSession level stamp src ch d s) } }

theorem openAt_eq : ∃ stamp, (stamp ≠ 0 ∧ stamp < 65536 ∧ stamp ≠ (sessOf s n).lastStamp) ∧ openAt n level src ch d s =
    sendReply n (replyTo src d n stamp rOk (be 1 level ++ be 1 0 ++ be 2 s.dict.timeoutS)) (opening n level stamp src ch d s) := by
  have spec := newStamp_spec (sessOf (raiseEv 86 n s) n).lastStamp (raiseEv 86 n s)
  have last : (sessOf (raiseEv 86 n s) n).lastStamp = (sessOf s n).lastStamp := by
    rw [(eventsAdded_raiseEv 86 n n s).1]
  refine ⟨_, ?_, rfl⟩
  rw [← last]
  exact spec

theorem opening_spec (stamp : Nat) : ∃ w, opening n level stamp src ch d s = w ∧ sessOf w n = openedSession level stamp src ch d s ∧
    sessionsKept n s w ∧ w.raised 86 ∧ replied { s with free := w.free } w := by
  refine ⟨_, rfl, tabGet_put _ _ _ _, fun m hm => ?_, raised_raiseEv (d := n) (s := s) (by decide), rfl, rfl⟩
  have kept : sessOf (opening n level stamp src ch d s) m = sessOf (raiseEv 86 n s) m := tabGet_put_other _ _ _ hm
  rw [kept]
  exact (eventsAdded_raiseEv 86 n m s).1

/-- The lowest free number (R537). -/
theorem freeSession_spec (free : freeSession s = some n) : n < 16 ∧ (sessOf s n).opened = false ∧ ∀ m, m < n → (sessOf s m).opened = true := by
  obtain ⟨closed, small, before⟩ := List.find?_range_eq_some.mp free
  refine ⟨List.mem_range.mp small, by simpa using closed, fun m hm => ?_⟩
  have opened := before m hm
  rwa [Bool.not_not] at opened

end

/-! ## The rows -/

section
variable {s : State} {src : Source} {ch : Option Half} {b : List Byte} {d : Dgram}

theorem answer_local (local_ : ∀ m l, src ≠ .proxy m l) (result : Nat) (data : List Byte) :
    answer src d result data s = sendReply d.session (replyTo src d d.session d.stamp result data) s := by
  cases src with
  | proxy m l => exact absurd rfl (local_ m l)
  | _ => rfl

/-- Of an accepted request the session is open, on its level and source. -/
theorem Accepted.fields {t : State} (h : Accepted d s t) : (sessOf t d.session).opened = (sessOf s d.session).opened ∧
    (sessOf t d.session).level = (sessOf s d.session).level ∧ (sessOf t d.session).newest = d.seq ∧ (sessOf t d.session).last = s.ns := by
  obtain ⟨y, added, ch, seen, own⟩ := h.own
  rw [own]
  refine ⟨?_, ?_, rfl, rfl⟩
  · show y.opened = _
    rw [added.1]
  · show y.level = _
    rw [added.1]

theorem inSession_opened (h : inSession s src d = true) : (sessOf s d.session).opened = true := by
  simp only [inSession, Bool.and_eq_true] at h
  obtain ⟨⟨⟨⟨-, opened⟩, -⟩, -⟩, -⟩ := h
  exact opened

/-- CLOSE answers and closes its own session (R540). -/
theorem closeReq_spec {t : State} (local_ : ∀ m l, src ≠ .proxy m l) (h : Accepted d s t) (opened : (sessOf s d.session).opened = true) :
    ∃ u r, closeReq src d t = u ∧ u.dict.reply = some r ∧ r.result = 0 ∧ r.session = d.session ∧ r.seq = d.seq ∧
      (sessOf u d.session).opened = false ∧ u.raised 86 ∧ sessionsKept d.session s u ∧ replied s u := by
  have sent := answered_sendReply d.session (replyTo src d d.session d.stamp rOk []) t
  have stillOpen : (sessOf (sendReply d.session (replyTo src d d.session d.stamp rOk []) t) d.session).opened = true :=
    sent.fields.1.trans (h.fields.1.trans opened)
  have runs : closeReq src d t = closeWhere (fun n _ => n = d.session) (sendReply d.session (replyTo src d d.session d.stamp rOk []) t) := by
    rw [← answer_local local_ rOk []]
    rfl
  generalize sendReply d.session (replyTo src d d.session d.stamp rOk []) t = v at sent stillOpen runs
  obtain ⟨closed, event⟩ := closeWhere_closes (p := fun n _ => n = d.session) stillOpen (decide_eq_true rfl)
  have reply : (closeWhere (fun n _ => n = d.session) v).dict.reply = v.dict.reply := by rw [(closeWhere_frame _ v).2]
  refine ⟨_, _, runs, reply.trans sent.reply, rfl, rfl, rfl, closed, event, ?_, ?_⟩
  · exact sessionsKept_trans (sessionsKept_trans h.kept sent.kept) (sessionsKept_closeWhere fun m _ hm => of_decide_eq_true hm)
  · exact replied_trans (replied_trans h.replied sent.replied) (replied_closeWhere _ v)

end

section
variable {s : State} {src : Source} {ch : Option Half} {b : List Byte}

/-- An OPEN that is taken is judged after its receive stamp. -/
theorem exec_open (alive : dictAlive s = true) (ok : dgramOk b = true) (good : badRequest (readDgram b) = false)
    (service : (readDgram b).service = 0x01) (local_ : ∀ m l, src ≠ .proxy m l) (copy : openCopy s src ch (readDgram b) = false)
    (allowed : ∀ p, src = .welong p → s.dict.welong = true) :
    ∃ u, Quiet s u ∧ openCopy u src ch (readDgram b) = false ∧ (∀ p, src = .welong p → u.dict.welong = true) ∧
      exec (.openSess src ch b) s = .next (openReq src ch (readDgram b) u) := by
  have stamps := quiet_receiveStamp src (readDgram b) s
  refine ⟨_, stamps, openCopy_receiveStamp copy, fun p hp => ?_, congrArg Host.Outcome.next ?_⟩
  · rw [stamps.frame]
    exact allowed p hp
  · exact withRequest_own alive ok good (decide_eq_true service) local_

/-- A refused credential is answered and held against its source. -/
theorem openReq_noted {u : State} {d : Dgram} (stamps : Quiet s u) (copy : openCopy u src ch d = false)
    (allowed : ∀ p, src = .welong p → u.dict.welong = true) (unlocked : lockedOut s src = false) {n : Nat} (free : freeSession s = some n)
    (key : field d.data 0 1 = 3 → s.lio.key = true) (wrong : credentialOk s (field d.data 0 1) (d.data.drop 4) = false) :
    ∃ t r, openReq src ch d u = t ∧ t.dict.reply = some r ∧ r.result = rCredential ∧ r.data = [] ∧ t.raised 86 ∧
      failOf t src = refusedFail s src ∧ replied { s with dict := { s.dict with fails := t.dict.fails } } t ∧
      ∀ m, sessOf t m = { sessOf s m with events := (sessOf t m).events } := by
  have lio : u.lio = s.lio := by rw [stamps.frame]
  have same : refusedFail u src = refusedFail s src := by
    rw [stamps.frame]
    rfl
  obtain ⟨v, hv, event, fail, enable, added, frame⟩ := noteRefused_spec src u
  rw [openReq_credential copy allowed (by rw [stamps.lockedOut, unlocked]) (by rw [stamps.freeSession, free]) (by rw [lio]; exact key),
    if_neg (by rw [stamps.credentialOk, wrong]; decide), hv]
  have sent := emitted_emit (looseReply src d rCredential v) v
  have fails : (emit (looseReply src d rCredential v) v).dict.fails = v.dict.fails := by rw [sent.replied.2]
  refine ⟨_, _, rfl, sent.reply, rfl, rfl, (sent.raised 86 (by decide)).mpr event, ?_, ?_, fun m => ?_⟩
  · rw [failOf_congr fails, fail, same]
  · rw [fails]
    refine replied_trans ⟨enable.trans stamps.enable, ?_⟩ sent.replied
    rw [frame, stamps.frame]
  · exact (eventsAdded_trans (eventsAdded_trans (stamps.sess m) (added m)) (sent.sess m)).1

/-- A session is opened and answered. -/
theorem openReq_opens {u : State} {d : Dgram} (stamps : Quiet s u) (copy : openCopy u src ch d = false)
    (allowed : ∀ p, src = .welong p → u.dict.welong = true) (unlocked : lockedOut s src = false) {n : Nat} (free : freeSession s = some n)
    (key : field d.data 0 1 = 3 → s.lio.key = true) (right : credentialOk s (field d.data 0 1) (d.data.drop 4) = true) :
    ∃ t r, openReq src ch d u = t ∧ t.dict.reply = some r ∧ r.result = 0 ∧ r.session = n ∧ r.seq = d.seq ∧
      r.stamp ≠ 0 ∧ r.stamp < 65536 ∧ r.stamp ≠ (sessOf s n).lastStamp ∧
      r.data = be 1 (field d.data 0 1) ++ be 1 0 ++ be 2 s.dict.timeoutS ∧ (sessOf t n).opened = true ∧
      (sessOf t n).stamp = r.stamp ∧ (sessOf t n).level = levelAt (field d.data 0 1) ∧ (sessOf t n).src = src ∧
      (sessOf t n).newest = d.seq ∧ (sessOf t n).last = s.ns ∧ t.raised 86 ∧ sessionsKept n s t ∧ replied { s with free := t.free } t := by
  have lio : u.lio = s.lio := by rw [stamps.frame]
  have timeout : u.dict.timeoutS = s.dict.timeoutS := by rw [stamps.frame]
  have ns : u.ns = s.ns := by rw [stamps.frame]
  obtain ⟨stamp, ⟨nonzero, small, new⟩, runs⟩ := openAt_eq (n := n) (level := field d.data 0 1) (src := src) (ch := ch) (d := d) (s := u)
  obtain ⟨w, hw, own, kept, event, frame⟩ := opening_spec (n := n) (level := field d.data 0 1) (src := src) (ch := ch) (d := d) (s := u) stamp
  rw [openReq_credential copy allowed (by rw [stamps.lockedOut, unlocked]) (by rw [stamps.freeSession, free]) (by rw [lio]; exact key),
    if_pos (by rw [stamps.credentialOk, right]), runs, hw, timeout]
  have sent := answered_sendReply n (replyTo src d n stamp rOk (be 1 (field d.data 0 1) ++ be 1 0 ++ be 2 s.dict.timeoutS)) w
  obtain ⟨opened, stamped, level, source, newest, last⟩ := sent.fields
  rw [own] at opened stamped level source newest last
  have free' : (sendReply n (replyTo src d n stamp rOk (be 1 (field d.data 0 1) ++ be 1 0 ++ be 2 s.dict.timeoutS)) w).free = w.free := by
    rw [sent.replied.2]
  obtain ⟨-, -, -, -, -, -, lastStamp⟩ := stamps.fields n
  rw [lastStamp] at new
  refine ⟨_, _, rfl, sent.reply, rfl, rfl, rfl, nonzero, small, new, rfl, opened, stamped, level, source, newest, last.trans ns,
    (sent.raised 86 (by decide)).mpr event, sessionsKept_trans (sessionsKept_trans (stamps.sessionsKept n) kept) sent.kept, ?_⟩
  rw [free']
  refine replied_trans (replied_trans (t := { u with free := w.free }) ⟨stamps.enable, ?_⟩ frame) sent.replied
  rw [stamps.frame]

end

/-- Settles O45: OPEN, CLOSE, timeouts, the link lost, lockouts and new network settings. -/
theorem sessionLife : Obligations.SessionLife := by
  refine ⟨fun s src ch b d alive ok good hd service local_ copy allowed => ?_,
    fun s src ch b d x alive ok good hd hx local_ inSess first new later room service => ?_,
    fun s n => ⟨fun opened late => ?_, fun early => congrArg Host.Outcome.next (closeWhere_none fun x hx opened => ?_)⟩,
    fun s nodup => ?_, fun s src l => ⟨fun locked late => ?_, fun locked early => ?_, fun unlocked => ?_⟩,
    fun s => ⟨fun p due late => ?_, fun p due early => ?_, fun none => ?_⟩⟩
  · subst hd
    obtain ⟨u, stamps, copy', allowed', runs⟩ := exec_open alive ok good service local_ copy allowed
    rw [runs]
    refine ⟨fun code why => ?_, fun n unlocked free key => ⟨fun wrong => ?_, fun right => ?_⟩⟩
    · have lio : u.lio = s.lio := by rw [stamps.frame]
      rw [openReq_refused copy' allowed' (code := code) (by rwa [stamps.lockedOut, stamps.freeSession, lio])]
      have sent := (emitted_emit (looseReply src (readDgram b) code u) u).of_quiet stamps
      exact ⟨_, _, rfl, sent.reply, rfl, rfl, rfl, sent.replied, sent.sessions⟩
    · obtain ⟨t, r, ht, reply, result, data, event, fail, told, kept⟩ := openReq_noted stamps copy' allowed' unlocked free key wrong
      refine ⟨t, r, refusalTimes s src, congrArg Host.Outcome.next ht, reply, result, data, event, rfl, fun few => ?_, fun many => ?_, told, kept⟩
      · rw [fail, refusedFail, if_neg (Nat.not_le.mpr few)]
      · rw [fail, refusedFail, if_pos many]
    · obtain ⟨t, r, ht, reply, result, session, seq, h0, h16, hlast, data, opened, stamp, level, source, newest, last, event, kept, told⟩ :=
        openReq_opens stamps copy' allowed' unlocked free key right
      obtain ⟨small, closed, before⟩ := freeSession_spec free
      exact ⟨t, r, congrArg Host.Outcome.next ht, reply, result, session, seq, h0, h16, hlast, data, opened, stamp, level, source, newest,
        last, small, closed, before, event, kept, told⟩
  · subst hd hx
    obtain ⟨t, accepted, runs⟩ := withRequest_served (own := fun d => d.service = svClose) (f := closeReq src)
      alive ok good (decide_eq_true service) local_ inSess first new later room
    obtain ⟨u, r, hu, spec⟩ := closeReq_spec local_ accepted (inSession_opened inSess)
    exact ⟨u, r, congrArg Host.Outcome.next (runs.trans hu), spec⟩
  · obtain ⟨enable, frame⟩ := closeWhere_frame (fun m x => m = n && x.last + s.dict.timeoutS * secNs ≤ s.ns) s
    obtain ⟨closed, event⟩ := closeWhere_closes (p := fun m x => m = n && x.last + s.dict.timeoutS * secNs ≤ s.ns) opened
      (by rw [Bool.and_eq_true]; exact ⟨decide_eq_true rfl, decide_eq_true late⟩)
    refine ⟨_, rfl, closed, event, sessionsKept_closeWhere fun m x taken => ?_, enable, frame⟩
    rw [Bool.and_eq_true] at taken
    exact of_decide_eq_true taken.1
  · rw [Bool.and_eq_false_iff, decide_eq_false_iff_not, decide_eq_false_iff_not]
    by_cases same : x.1 = n
    · exact .inr (Nat.not_le.mpr (early x hx same opened))
    · exact .inl same
  · obtain ⟨enable, frame⟩ := closeWhere_frame (fun _ x => overPort x) s
    refine ⟨_, congrArg Host.Outcome.next (maintenanceDown_eq s), fun n ip port source => ?_, fun n other => ?_, ?_, enable, frame⟩
    · cases opened : (sessOf s n).opened with
      | true => exact (closeWhere_closes (p := fun _ x => overPort x) opened (overPort_iff.mpr ⟨ip, port, source⟩)).1
      | false => exact opened_foldl_closeOne opened
    · rw [closeWhere_foldl]
      refine (sessOf_foldl_closeOne fun x hx same => ?_).1
      obtain ⟨mem, -, held⟩ := mem_closing.mp hx
      obtain ⟨ip, port, source⟩ := overPort_iff.mp held
      rw [same, sessOf_of_mem nodup mem] at other
      exact other ip port source
    · rintro ⟨x, mem, opened, source⟩
      have hx : x ∈ closing (fun _ x => overPort x) s := mem_closing.mpr ⟨mem, opened, overPort_iff.mpr source⟩
      exact raised_foldl_closeOne (.inr (List.ne_nil_of_mem hx))
  · have runs : lockoutEnd src s = putFail { failOf s src with lockedTo := none } s := by
      rw [lockoutEnd, locked]
      exact if_pos late
    have own : failOf (putFail { failOf s src with lockedTo := none } s) src = { failOf s src with lockedTo := none } := by
      have held := failOf_putFail { failOf s src with lockedTo := none } s
      rwa [show OpenFail.src { failOf s src with lockedTo := none } = src from failOf_src s src] at held
    refine ⟨_, congrArg Host.Outcome.next runs, by rw [own], by rw [own], by rw [lockedOut, own], fun y hy => failOf_putFail_other _ ?_, rfl⟩
    exact fun same => hy (same.trans (failOf_src s src))
  · refine congrArg Host.Outcome.next ?_
    rw [lockoutEnd, locked]
    exact if_neg (Nat.not_le.mpr early)
  · refine congrArg Host.Outcome.next ?_
    rw [lockoutEnd, unlocked]
  · refine congrArg Host.Outcome.next ?_
    rw [networkApply, due]
    exact if_pos late
  · refine congrArg Host.Outcome.next ?_
    rw [networkApply, due]
    exact if_neg (Nat.not_le.mpr early)
  · refine congrArg Host.Outcome.next ?_
    rw [networkApply, none]

end Sys2Proof.Proofs
end

section
/-! PROOFS. The services of a session and what answers them (R544 to R564), and the SERVICE frame that carries a datagram (R346). -/

namespace Sys2Proof.Proofs

open Sys2Proof Sys2Proof.Machine Sys2Proof.Laws

/-! ## What a reply leaves -/

section
variable {s t : State}

theorem findObj_replied (h : replied s t) (index sub : Nat) : findObj t index sub = findObj s index sub := by
  obtain ⟨-, frame⟩ := h
  have view : t.view = s.view := by rw [frame]
  have ident : t.ident = s.ident := by rw [frame]
  rw [findObj, findObj, objRow, objRow, exportRow, exportRow, portAbsent, portAbsent, view, ident]

theorem readsClear_replied (h : replied s t) (d : Dgram) : readsClear t d = readsClear s d := by
  obtain ⟨-, frame⟩ := h
  have view : t.view = s.view := by rw [frame]
  rw [readsClear, readsClear, objRow, objRow, exportRow, exportRow, view]

theorem laneRefusal_replied (h : replied s t) (standbyToo : Bool) : laneRefusal t standbyToo = laneRefusal s standbyToo := by
  obtain ⟨-, frame⟩ := h
  rw [frame]
  rfl

theorem writeRefusal_replied (h : replied s t) (level : Level) (r : ObjRow) (index sub : Nat) (v : List Byte) :
    writeRefusal t level r index sub v = writeRefusal s level r index sub v := by
  have key : t.lio.key = s.lio.key := by rw [h.2]
  rw [writeRefusal, writeRefusal, laneBar, laneBar, laneRefusal_replied h, key]

theorem bridgePath_replied (h : replied s t) (target : Nat) : bridgePath t target = bridgePath s target := by
  obtain ⟨-, frame⟩ := h
  rw [frame]
  rfl

end

/-! ## Requests served -/

/-- A good datagram of an open session of its own source, new, in order and with room for its answer (R535, R536, R541, R542). -/
structure Admitted (s : State) (src : Source) (ch : Option Half) (b : List Byte) : Prop where
  alive : dictAlive s = true
  ok : dgramOk b = true
  good : badRequest (readDgram b) = false
  direct : ∀ m l, src ≠ .proxy m l
  inSess : inSession s src (readDgram b) = true
  first : otherCopy s (sessOf s (readDgram b).session) ch (readDgram b) = false
  new : (sessOf s (readDgram b).session).kept.find? (fun r => r.seq = (readDgram b).seq) = none
  later : laterSeq (readDgram b).seq (sessOf s (readDgram b).session).newest = true
  room : unanswered (sessOf s (readDgram b).session) < 8

/-- A request of a session answered, and nothing else done: the session holds its sequence and time (R541, R553). -/
structure Served (d : Dgram) (s t : State) (r : Reply) : Prop where
  reply : t.dict.reply = some r
  seq : r.seq = d.seq
  service : r.service = 128 + d.service
  session : r.session = d.session
  newest : (sessOf t d.session).newest = d.seq
  last : (sessOf t d.session).last = s.ns
  kept : sessionsKept d.session s t
  replied : replied s t
  raised : ∀ e, e ≠ 52 → (t.raised e ↔ s.raised e)

/-- The reply to a request, with the status of its session. -/
def replyIn (src : Source) (d : Dgram) (result : Nat) (data : List Byte) (s : State) : Reply :=
  { replyTo src d d.session d.stamp result data with status := sessionStatus s d.session }

section
variable {s t : State} {src : Source} {ch : Option Half} {b : List Byte} {d : Dgram}

theorem Admitted.served (h : Admitted s src ch b) {own : Dgram → Bool} (f : Dgram → State → State) (mine : own (readDgram b) = true) :
    ∃ t, Accepted (readDgram b) s t ∧ withRequest own (fun d => inAnySession src ch d (f d)) src b s = f (readDgram b) t :=
  withRequest_served h.alive h.ok h.good mine h.direct h.inSess h.first h.new h.later h.room

theorem answered_answer (direct : ∀ m l, src ≠ .proxy m l) (d : Dgram) (result : Nat) (data : List Byte) (s : State) :
    Answered d.session (replyIn src d result data s) s (answer src d result data s) := by
  rw [answer_local direct]
  exact answered_sendReply _ _ _

theorem served_answer (direct : ∀ m l, src ≠ .proxy m l) (h : Accepted d s t) (result : Nat) (data : List Byte) :
    Served d s (answer src d result data t) (replyIn src d result data t) := by
  have sent := answered_answer direct d result data t
  obtain ⟨-, -, newest, last⟩ := h.fields
  obtain ⟨-, -, -, -, newest', last'⟩ := sent.fields
  exact ⟨sent.reply, rfl, rfl, rfl, newest'.trans newest, last'.trans last, sessionsKept_trans h.kept sent.kept,
    replied_trans h.replied sent.replied, fun e he => (sent.raised e he).trans (h.raised e he)⟩

theorem sessNo_direct (direct : ∀ m l, src ≠ .proxy m l) (d : Dgram) : sessNo src d = d.session := by
  cases src with
  | proxy m l => exact absurd rfl (direct m l)
  | _ => rfl

theorem reqLevel_direct (direct : ∀ m l, src ≠ .proxy m l) (s : State) (n : Nat) : reqLevel s src n = (sessOf s n).level := by
  cases src with
  | proxy m l => exact absurd rfl (direct m l)
  | _ => rfl

theorem originOf_direct (direct : ∀ m l, src ≠ .proxy m l) : originOf src = none := by
  cases src with
  | proxy m l => exact absurd rfl (direct m l)
  | _ => rfl

/-- A request that waits for the tick is put behind those of its session (R546). -/
theorem queueReq_accepted (direct : ∀ m l, src ≠ .proxy m l) (h : Accepted d s t) (write : Bool) :
    (queueReq src d write t).dict.reply = s.dict.reply ∧
    (sessOf (queueReq src d write t) d.session).queue = (sessOf s d.session).queue ++ [⟨src, d.seq, write, d.index, d.sub, d.data⟩] ∧
    (sessOf (queueReq src d write t) d.session).newest = d.seq ∧ sessionsKept d.session s (queueReq src d write t) ∧
    replied s (queueReq src d write t) := by
  have runs : queueReq src d write t = modSess d.session (fun x => { x with
      queue := x.queue ++ [⟨src, d.seq, write, d.index, d.sub, d.data⟩] }) t := by
    cases src with
    | proxy m l => exact absurd rfl (direct m l)
    | _ => rfl
  obtain ⟨y, added, c, seen, own⟩ := h.own
  rw [runs, sessOf_modSess, own]
  refine ⟨h.reply, ?_, rfl, sessionsKept_trans h.kept (sessionsKept_modSess _ _ _), replied_trans h.replied (replied_modSess _ _ _)⟩
  show y.queue ++ _ = _
  rw [added.1]

end

/-! ## STATUS, DESCRIBE and READ -/

section
variable {s : State} {src : Source} {ch : Option Half} {b : List Byte} (h : Admitted s src ch b)
include h

theorem statusRow_served (service : (readDgram b).service = 0x03) :
    ∃ r, Served (readDgram b) s (statusRow src ch b s) r ∧ r.result = 0 ∧ r.data = [] := by
  obtain ⟨t, accepted, runs⟩ := h.served (own := fun d => d.service = svStatus) (statusService src) (decide_eq_true service)
  rw [statusRow, runs]
  exact ⟨_, served_answer h.direct accepted rOk [], rfl, rfl⟩

theorem describeRow_served (service : (readDgram b).service = 0x12) :
    ∃ r, Served (readDgram b) s (describeRow src ch b s) r ∧
      (∀ o, findObj s (readDgram b).index (readDgram b).sub = .inl o → r.result = 0 ∧ r.data = o.descriptor) ∧
      (∀ c, findObj s (readDgram b).index (readDgram b).sub = .inr c → r.result = c ∧ r.data = []) := by
  obtain ⟨t, accepted, runs⟩ := h.served (own := fun d => d.service = svDescribe) (describeReq src) (decide_eq_true service)
  rw [describeRow, runs, describeReq, findObj_replied accepted.replied]
  cases findObj s (readDgram b).index (readDgram b).sub with
  | inl o => exact ⟨_, served_answer h.direct accepted rOk _, fun o' same => by cases same; exact ⟨rfl, rfl⟩, fun _ k => nomatch k⟩
  | inr c => exact ⟨_, served_answer h.direct accepted c [], fun _ k => (nomatch k), fun c' same => by cases same; exact ⟨rfl, rfl⟩⟩

theorem readRow_eq (service : (readDgram b).service = 0x10) (plain : readsClear s (readDgram b) = false) :
    ∃ t, Accepted (readDgram b) s t ∧ readRow src ch b s = readReq src (readDgram b) t :=
  h.served (own := fun d => d.service = svRead && !readsClear s d) (readReq src) (by simp [svRead, service, plain])

end

theorem newest_bookReadFn (n : Nat) (s : State) : (sessOf (bookReadFn n s).1 n).newest = (sessOf s n).newest := by
  unfold bookReadFn
  dsimp only
  split
  · rfl
  · split
    · rfl
    · exact (congrArg Session.newest (sessOf_modSess n _ s)).trans rfl

theorem newest_chestReadFn (n : Nat) (good : Bool) (s : State) : (sessOf (chestReadFn n good s).1 n).newest = (sessOf s n).newest := by
  unfold chestReadFn
  split
  · rfl
  next r _ =>
    extract_lets r c s1 f s2
    refine (congrArg Session.newest (sessOf_modSess n _ _)).trans ?_
    show (sessOf (if r.good then s1 else raiseEv 77 r.num f.2) n).newest = _
    split
    · rfl
    · rw [raiseEv, sessOf_raiseAt, (eventsAdded_offerSession _ _ _ _ _).1]
      rfl

theorem newest_eventRecordFn (n : Nat) (s : State) : (sessOf (eventRecordFn n s).1 n).newest = (sessOf s n).newest := by
  unfold eventRecordFn
  split
  · exact (congrArg Session.newest (sessOf_modSess n _ s)).trans rfl
  · rfl

theorem newest_forceRecordFn (n : Nat) (s : State) : (sessOf (forceRecordFn n s).1 n).newest = (sessOf s n).newest := by
  unfold forceRecordFn
  split
  · exact (congrArg Session.newest (sessOf_modSess n _ s)).trans rfl
  · rfl

/-- Reading a window that moves a cursor keeps the newest sequence of its session. -/
theorem newest_readWindow {s : State} {n index sub : Nat} {w : State × Nat × List Byte} (hw : readWindow s n index sub = some w) :
    (sessOf w.1 n).newest = (sessOf s n).newest := by
  unfold readWindow at hw
  split at hw
  · cases hw; exact newest_bookReadFn n s
  split at hw
  · cases hw; exact newest_chestReadFn n true s
  split at hw
  · cases hw; exact (congrArg Session.newest (sessOf_modSess n _ s)).trans rfl
  split at hw
  · cases hw; exact newest_eventRecordFn n s
  split at hw
  · cases hw; exact newest_forceRecordFn n s
  · cases hw

theorem readReq_unknown {s t : State} {src : Source} {d : Dgram} (h : Accepted d s t) {c : Nat}
    (found : findObj s d.index d.sub = .inr c) : readReq src d t = answer src d c [] t := by
  rw [readReq, findObj_replied h.replied, found]

section
variable {s t : State} {src : Source} {d : Dgram} (direct : ∀ m l, src ≠ .proxy m l) (h : Accepted d s t)
include direct h

theorem readReq_plain {o : ObjRow} (found : findObj s d.index d.sub = .inl o) (plain : readWindow t d.session d.index d.sub = none) :
    readReq src d t = answer src d rOk (readValue t d.session o d.index d.sub) t := by
  rw [readReq, findObj_replied h.replied, found, sessNo_direct direct]
  simp only [plain]

theorem readReq_window {o : ObjRow} {w : State × Nat × List Byte} (found : findObj s d.index d.sub = .inl o)
    (window : readWindow t d.session d.index d.sub = some w) : readReq src d t = answer src d w.2.1 w.2.2 w.1 := by
  rw [readReq, findObj_replied h.replied, found, sessNo_direct direct]
  simp only [window]

end

/-- READ answers with the value of the moment, or what is wrong with the object (R544, R546). -/
theorem readRow_served {s : State} {src : Source} {ch : Option Half} {b : List Byte} (h : Admitted s src ch b)
    (service : (readDgram b).service = 0x10) (plain : readsClear s (readDgram b) = false) {d : Dgram} (hd : d = readDgram b) :
    ∃ t r, readRow src ch b s = t ∧ t.dict.reply = some r ∧ r.seq = d.seq ∧ (sessOf t d.session).newest = d.seq ∧
      (∀ c, findObj s d.index d.sub = .inr c → r.result = c ∧ r.data = [] ∧ sessionsKept d.session s t ∧ replied s t) ∧
      (∀ o, findObj s d.index d.sub = .inl o → ∃ u, replied s u ∧ sessionsKept d.session s u ∧
        (readWindow u d.session d.index d.sub = none → r.result = 0 ∧ r.data = readValue u d.session o d.index d.sub ∧
          sessionsKept d.session s t ∧ replied s t) ∧
        (∀ w, readWindow u d.session d.index d.sub = some w → r.result = w.2.1 ∧ r.data = w.2.2 ∧ replied w.1 t)) := by
  obtain ⟨t, accepted, runs⟩ := readRow_eq h service plain
  rw [← hd] at accepted runs
  rw [runs]
  cases found : findObj s d.index d.sub with
  | inr c =>
    have sent := served_answer h.direct accepted c []
    rw [readReq_unknown accepted found]
    exact ⟨_, _, rfl, sent.reply, sent.seq, sent.newest, fun c' same => by cases same; exact ⟨rfl, rfl, sent.kept, sent.replied⟩,
      fun _ k => (nomatch k)⟩
  | inl o =>
    cases window : readWindow t d.session d.index d.sub with
    | none =>
      have sent := served_answer h.direct accepted rOk (readValue t d.session o d.index d.sub)
      rw [readReq_plain h.direct accepted found window]
      refine ⟨_, _, rfl, sent.reply, sent.seq, sent.newest, fun _ k => (nomatch k), fun o' same => ?_⟩
      cases same
      refine ⟨t, accepted.replied, accepted.kept, fun _ => ⟨rfl, rfl, sent.kept, sent.replied⟩, fun w k => ?_⟩
      rw [window] at k
      cases k
    | some w =>
      have sent := answered_answer h.direct d w.2.1 w.2.2 w.1
      rw [readReq_window h.direct accepted found window]
      refine ⟨_, _, rfl, sent.reply, rfl, ?_, fun _ k => (nomatch k), fun o' same => ?_⟩
      · obtain ⟨-, -, -, -, newest, -⟩ := sent.fields
        obtain ⟨-, -, served, -⟩ := accepted.fields
        rw [newest, newest_readWindow window, served]
      · refine ⟨t, accepted.replied, accepted.kept, fun k => ?_, fun w' k => ?_⟩
        · rw [window] at k
          cases k
        · rw [window] at k
          cases k
          exact ⟨rfl, rfl, sent.replied⟩

/-! ## WRITE -/

section
variable {s t : State} {src : Source} {d : Dgram} {o : ObjRow} (direct : ∀ m l, src ≠ .proxy m l) (h : Accepted d s t)
  (found : findObj s d.index d.sub = .inl o)
include direct h found

/-- A WRITE to an object is judged by its level, key, length and lanes, then queued or applied (R546). -/
theorem writeReq_judged : writeReq src d t =
    if writeRefusal s (sessOf s d.session).level o d.index d.sub d.data ≠ rOk then
      answer src d (writeRefusal s (sessOf s d.session).level o d.index d.sub d.data) [] t
    else if o.atTick then queueReq src d true t
    else
      let w := writePart d.session none (sessOf s d.session).level d.index d.sub d.data t
      answer src d w.2.1 (if o.acc = 2 then (if w.2.1 = rOk then [] else w.2.2) else w.2.2) w.1 := by
  rw [writeReq, findObj_replied h.replied, found, sessNo_direct direct]
  simp only [reqLevel_direct direct, h.fields.2.1, writeRefusal_replied h.replied, originOf_direct direct]

end

section
variable {s : State} {src : Source} {ch : Option Half} {b : List Byte} {d : Dgram} (h : Admitted s src ch b) (hd : d = readDgram b)
  (service : d.service = 0x11) (other : d.index ≠ 0x3001)
include h hd service other

theorem writeRow_eq : ∃ t, Accepted d s t ∧ writeRow src ch b s = writeReq src d t := by
  subst hd
  exact h.served (own := fun d => d.service = svWrite && d.index ≠ pendingIndex) (writeReq src) (by simp [svWrite, pendingIndex, service, other])

theorem writeRow_unknown {c : Nat} (found : findObj s d.index d.sub = .inr c) :
    ∃ r, Served d s (writeRow src ch b s) r ∧ r.result = c ∧ r.data = [] := by
  obtain ⟨t, accepted, runs⟩ := writeRow_eq h hd service other
  rw [runs, writeReq, findObj_replied accepted.replied, found]
  exact ⟨_, served_answer h.direct accepted c [], rfl, rfl⟩

variable {o : ObjRow} (found : findObj s d.index d.sub = .inl o)
include found

theorem writeRow_refused (refused : writeRefusal s (sessOf s d.session).level o d.index d.sub d.data ≠ rOk) :
    ∃ r, Served d s (writeRow src ch b s) r ∧ r.result = writeRefusal s (sessOf s d.session).level o d.index d.sub d.data ∧ r.data = [] := by
  obtain ⟨t, accepted, runs⟩ := writeRow_eq h hd service other
  rw [runs, writeReq_judged h.direct accepted found, if_pos refused]
  exact ⟨_, served_answer h.direct accepted _ [], rfl, rfl⟩

variable (allowed : writeRefusal s (sessOf s d.session).level o d.index d.sub d.data = rOk)
include allowed

theorem writeRow_queued (tick : o.atTick = true) : ∃ t, Accepted d s t ∧ writeRow src ch b s = queueReq src d true t := by
  obtain ⟨t, accepted, runs⟩ := writeRow_eq h hd service other
  rw [runs, writeReq_judged h.direct accepted found, if_neg (not_not.mpr allowed), if_pos tick]
  exact ⟨t, accepted, rfl⟩

theorem writeRow_applied (now : o.atTick = false) : ∃ t r u w, writeRow src ch b s = t ∧ replied s u ∧ sessionsKept d.session s u ∧
    w = writePart d.session none (sessOf s d.session).level d.index d.sub d.data u ∧ t.dict.reply = some r ∧ r.result = w.2.1 ∧
    (r.data = w.2.2 ∨ o.acc = 2 ∧ w.2.1 = 0 ∧ r.data = []) ∧ replied w.1 t := by
  obtain ⟨t, accepted, runs⟩ := writeRow_eq h hd service other
  rw [runs, writeReq_judged h.direct accepted found, if_neg (not_not.mpr allowed), if_neg (by simp [now])]
  dsimp only
  generalize hw : writePart d.session none (sessOf s d.session).level d.index d.sub d.data t = w
  have sent := answered_answer h.direct d w.2.1 (if o.acc = 2 then (if w.2.1 = rOk then [] else w.2.2) else w.2.2) w.1
  refine ⟨_, _, t, w, rfl, accepted.replied, accepted.kept, hw.symm, sent.reply, rfl, ?_, sent.replied⟩
  show (if o.acc = 2 then (if w.2.1 = rOk then [] else w.2.2) else w.2.2) = _ ∨ _ ∧ _ ∧
    (if o.acc = 2 then (if w.2.1 = rOk then [] else w.2.2) else w.2.2) = _
  by_cases writeOnly : o.acc = 2
  · by_cases done : w.2.1 = rOk
    · exact .inr ⟨writeOnly, done, by rw [if_pos writeOnly, if_pos done]⟩
    · exact .inl (by rw [if_pos writeOnly, if_neg done])
  · exact .inl (by rw [if_neg writeOnly])

end

/-! ## READ of an RC object -/

section
variable {s : State} {src : Source} {ch : Option Half} {b : List Byte} {d : Dgram} {o : ObjRow} (h : Admitted s src ch b)
  (hd : d = readDgram b) (service : d.service = 0x10) (clears : readsClear s d = true) (found : findObj s d.index d.sub = .inl o)
include h hd service clears found

theorem clearRow_eq : ∃ t, Accepted d s t ∧ clearRow src ch b s = clearReq src d t := by
  subst hd
  exact h.served (own := fun d => d.service = svRead && readsClear s d) (clearReq src) (by simp [svRead, service, clears])

theorem clearRow_commons (commons : o.lane = false) : ∃ t r u, clearRow src ch b s = t ∧ replied s u ∧ sessionsKept d.session s u ∧
    t.dict.reply = some r ∧ r.result = 0 ∧ r.data = readValue u d.session o d.index d.sub ∧
    replied (clearPart d.session d.index d.sub u) t := by
  obtain ⟨t, accepted, runs⟩ := clearRow_eq h hd service clears found
  rw [runs, clearReq, findObj_replied accepted.replied, found, sessNo_direct h.direct]
  dsimp only
  rw [if_neg (by simp [commons])]
  have sent := answered_answer h.direct d rOk (readValue t d.session o d.index d.sub) (clearPart d.session d.index d.sub t)
  exact ⟨_, _, t, rfl, accepted.replied, accepted.kept, sent.reply, rfl, rfl, sent.replied⟩

variable (lane : o.lane = true)
include lane

theorem clearRow_refused (refused : laneRefusal s false ≠ rOk) :
    ∃ r, Served d s (clearRow src ch b s) r ∧ r.result = laneRefusal s false := by
  obtain ⟨t, accepted, runs⟩ := clearRow_eq h hd service clears found
  rw [runs, clearReq, findObj_replied accepted.replied, found, sessNo_direct h.direct]
  dsimp only
  rw [if_pos lane, laneBar, if_pos lane, laneRefusal_replied accepted.replied, if_pos refused]
  exact ⟨_, served_answer h.direct accepted _ [], rfl⟩

theorem clearRow_queued (allowed : laneRefusal s false = rOk) :
    ∃ t, Accepted d s t ∧ clearRow src ch b s = queueReq src d false t := by
  obtain ⟨t, accepted, runs⟩ := clearRow_eq h hd service clears found
  rw [runs, clearReq, findObj_replied accepted.replied, found, sessNo_direct h.direct]
  dsimp only
  rw [if_pos lane, laneBar, if_pos lane, laneRefusal_replied accepted.replied, if_neg (not_not.mpr allowed)]
  exact ⟨t, accepted, rfl⟩

end

/-! ## EVENT-READ -/

section
variable {s : State} {src : Source} {ch : Option Half} {b : List Byte} {d : Dgram} (h : Admitted s src ch b)
  (hd : d = readDgram b) (service : d.service = 0x20)
include h hd service

theorem eventsRow_eq : ∃ t, Accepted d s t ∧ eventsRow src ch b s = eventsReq src d t := by
  subst hd
  exact h.served (own := fun d => d.service = svEvents) (eventsReq src) (decide_eq_true service)

theorem eventsRow_range (wrong : field d.data 0 1 = 0 ∨ 16 < field d.data 0 1 ∨ field d.data 1 3 ≠ 0) :
    ∃ r, Served d s (eventsRow src ch b s) r ∧ r.result = rRange ∧ r.data = [] := by
  obtain ⟨t, accepted, runs⟩ := eventsRow_eq h hd service
  rw [runs, eventsReq]
  dsimp only
  rw [if_pos (by simpa [or_assoc] using wrong)]
  exact ⟨_, served_answer h.direct accepted rRange [], rfl, rfl⟩

/-- The oldest records are answered and leave the queue of their session, none else (R558). -/
theorem eventsRow_read (some_ : 1 ≤ field d.data 0 1) (few : field d.data 0 1 ≤ 16) (zero : field d.data 1 3 = 0) :
    ∃ t r u l, eventsRow src ch b s = t ∧ replied s u ∧ l = (sessOf u d.session).events.take (field d.data 0 1) ∧
      (sessOf u d.session).events.map (·.event) = (sessOf s d.session).events.map (·.event) ++
        ((sessOf u d.session).events.map (·.event)).drop (sessOf s d.session).events.length ∧
      t.dict.reply = some r ∧ r.result = 0 ∧ r.data = be 1 l.length ++ be 3 0 ++ (l.map eventRec).flatten ∧
      (∃ rest, (sessOf t d.session).events.map (·.event) =
        ((sessOf u d.session).events.drop (field d.data 0 1)).map (·.event) ++ rest) ∧ sessionsKept d.session s t ∧ replied s t := by
  obtain ⟨t, accepted, runs⟩ := eventsRow_eq h hd service
  obtain ⟨y, ⟨-, added⟩, c, seen, own⟩ := accepted.own
  have held : (sessOf t d.session).events = y.events := by rw [own]
  rw [runs, eventsReq]
  dsimp only
  rw [if_neg (by simp only [Bool.or_eq_true, decide_eq_true_eq, not_or, not_not]; omega)]
  generalize hl : (sessOf t d.session).events.take (field d.data 0 1) = l
  have taken := sessOf_modSess d.session (fun x => { x with events := x.events.drop (field d.data 0 1) }) t
  have sent := answered_answer h.direct d rOk (be 1 l.length ++ be 3 0 ++ (l.map eventRec).flatten)
    (modSess d.session (fun x => { x with events := x.events.drop (field d.data 0 1) }) t)
  refine ⟨_, _, t, l, rfl, accepted.replied, hl.symm, ?_, sent.reply, rfl, rfl, ?_,
    sessionsKept_trans accepted.kept (sessionsKept_trans (sessionsKept_modSess _ _ _) sent.kept),
    replied_trans accepted.replied (replied_trans (replied_modSess _ _ _) sent.replied)⟩
  · rw [held]
    conv_lhs => rw [List.prefix_iff_eq_append.mp added |>.symm]
    rw [List.length_map]
  · obtain ⟨kept, -, rest, same⟩ := sent.own
    refine ⟨rest, ?_⟩
    rw [← same, taken]

end

/-! ## The pending words -/

/-- The row of the pending words (Table 14.14). -/
def pendingObj : ObjRow := ⟨0x3001, 0x3001, 1, 3, 4, 3, 1, false, true, 0⟩

/-- No row of a table but that of the pending words names their index. -/
def onlyPending (l : List ObjRow) : Bool := l.all (fun r => 0x3001 < r.i0 || r.i1 < 0x3001 || r = pendingObj)

theorem onlyPending_objIdent : onlyPending objIdent = true := by decide
theorem onlyPending_objLanes : onlyPending objLanes = true := by decide
theorem onlyPending_objSlots : onlyPending objSlots = true := by decide
theorem onlyPending_objBus : onlyPending objBus = true := by decide
theorem onlyPending_objTime : onlyPending objTime = true := by decide
theorem onlyPending_objCare : onlyPending objCare = true := by decide

theorem onlyPending_append {l m : List ObjRow} (h : onlyPending l = true) (k : onlyPending m = true) : onlyPending (l ++ m) = true := by
  rw [onlyPending, List.all_append, Bool.and_eq_true]
  exact ⟨h, k⟩

theorem onlyPending_objTable : onlyPending objTable = true :=
  onlyPending_append (onlyPending_append (onlyPending_append (onlyPending_append (onlyPending_append onlyPending_objIdent
    onlyPending_objLanes) onlyPending_objSlots) onlyPending_objBus) onlyPending_objTime) onlyPending_objCare

theorem findObj_pending {s : State} {sub : Nat} {o : ObjRow} (found : findObj s 0x3001 sub = .inl o) :
    o = pendingObj ∧ 1 ≤ sub ∧ sub ≤ 3 := by
  have row : tableRow 0x3001 sub = some o := by
    unfold findObj objRow exportRow at found
    cases h : tableRow 0x3001 sub with
    | none => simp [h] at found
    | some r =>
      simp only [h] at found
      split at found
      · cases found
      · cases found; rfl
  have names := List.find?_some row
  have only := List.all_eq_true.mp onlyPending_objTable o (List.mem_of_find?_eq_some row)
  simp only [ObjRow.has, Bool.and_eq_true, Bool.or_eq_true, decide_eq_true_eq] at names only
  obtain ⟨⟨⟨low, high⟩, first⟩, last⟩ := names
  obtain rfl : o = pendingObj := by
    rcases only with (k | k) | k
    · omega
    · omega
    · exact k
  exact ⟨rfl, first, last⟩

/-- The bits of a number made of three parts, the middle one of 32 bits. -/
theorem testBit_parts (hi mid lo k i : Nat) (hmid : mid < 2 ^ 32) (hlo : lo < 2 ^ k) :
    (2 ^ k * (2 ^ 32 * hi + mid) + lo).testBit i =
      if i < k then lo.testBit i else if i - k < 32 then mid.testBit (i - k) else hi.testBit (i - k - 32) := by
  rw [Nat.testBit_two_pow_mul_add _ hlo, Nat.testBit_two_pow_mul_add _ hmid]

/-- The bits of a number with one 32-bit part replaced. -/
theorem testBit_replacePart (m v k i : Nat) (small : v < 2 ^ 32) :
    (m - m / 2 ^ k % 2 ^ 32 * 2 ^ k + v * 2 ^ k).testBit i =
      if k ≤ i ∧ i < k + 32 then v.testBit (i - k) else m.testBit i := by
  have hlo : m % 2 ^ k < 2 ^ k := Nat.mod_lt _ (Nat.two_pow_pos k)
  have hmid : m / 2 ^ k % 2 ^ 32 < 2 ^ 32 := Nat.mod_lt _ (by decide)
  have old : m = 2 ^ k * (2 ^ 32 * (m / 2 ^ k / 2 ^ 32) + m / 2 ^ k % 2 ^ 32) + m % 2 ^ k := by
    rw [Nat.div_add_mod, Nat.div_add_mod]
  generalize m % 2 ^ k = lo at hlo old
  generalize m / 2 ^ k % 2 ^ 32 = mid at hmid old
  generalize m / 2 ^ k / 2 ^ 32 = hi at old
  subst old
  have new : 2 ^ k * (2 ^ 32 * hi + mid) + lo - mid * 2 ^ k + v * 2 ^ k = 2 ^ k * (2 ^ 32 * hi + v) + lo := by
    rw [Nat.mul_add, Nat.mul_add, Nat.mul_comm mid, Nat.mul_comm v]
    omega
  rw [new, testBit_parts _ _ _ _ _ small hlo, testBit_parts _ _ _ _ _ hmid hlo]
  grind

/-- A pending word written clears the bits written as 1, and no others (R559). -/
theorem getLsbD_clearPending (m : BitVec 96) (sub x e : Nat) (first : 1 ≤ sub) (he : e < 96) :
    (putPart m sub (maskPart m sub &&& (0xFFFFFFFF ^^^ x))).getLsbD e = true ↔
      m.getLsbD e = true ∧ ¬(e / 32 + 1 = sub ∧ bit x (e % 32) = true) := by
  have small : maskPart m sub &&& (0xFFFFFFFF ^^^ x) < 2 ^ 32 :=
    Nat.lt_of_le_of_lt Nat.and_le_left (Nat.mod_lt _ (by decide))
  have hbit (i : Nat) : bit x i = x.testBit i := by rw [bit, Nat.testBit_eq_decide_div_mod_eq]
  rw [putPart, BitVec.getLsbD_ofNat, decide_eq_true he, Bool.true_and, Nat.mod_eq_of_lt small]
  unfold maskPart at small ⊢
  rw [testBit_replacePart _ _ _ _ small, hbit]
  show _ ↔ m.toNat.testBit e = true ∧ _
  split
  next within =>
    have part : e / 32 + 1 = sub := by omega
    have place : e - 32 * (sub - 1) = e % 32 := by omega
    have low : e % 32 < 32 := Nat.mod_lt _ (by decide)
    have whole : 32 * (sub - 1) + e % 32 = e := by omega
    have ones : (0xFFFFFFFF : Nat).testBit (e % 32) = true := by
      rw [show (0xFFFFFFFF : Nat) = 2 ^ 32 - 1 from rfl, Nat.testBit_two_pow_sub_one, decide_eq_true low]
    rw [place, Nat.testBit_and, Nat.testBit_xor, ones, Nat.testBit_mod_two_pow, Nat.testBit_div_two_pow, decide_eq_true low,
      Nat.add_comm, whole]
    simp [part]
  next outside =>
    have part : ¬e / 32 + 1 = sub := by omega
    simp [part]

/-- A WRITE of a pending word that is allowed is applied at once (R559). -/
theorem writePart_pending (n : Nat) (level : Level) (sub : Nat) (v : List Byte) (s : State) :
    writePart n none level 0x3001 sub v s = clearPending sub v s := by
  unfold writePart writeIdent
  simp

section
variable {s : State} {src : Source} {ch : Option Half} {b : List Byte} {d : Dgram} {o : ObjRow} (h : Admitted s src ch b)
  (hd : d = readDgram b) (service : d.service = 0x11) (word : d.index = 0x3001) (found : findObj s d.index d.sub = .inl o)
include h hd service word found

theorem pendingRow_eq : ∃ t, Accepted d s t ∧ pendingRow src ch b s = writeReq src d t := by
  subst hd
  exact h.served (own := fun d => d.service = svWrite && d.index = pendingIndex) (writeReq src) (by simp [svWrite, pendingIndex, service, word])

theorem pendingRow_refused (refused : writeRefusal s (sessOf s d.session).level o d.index d.sub d.data ≠ rOk) :
    ∃ r, Served d s (pendingRow src ch b s) r ∧ r.result = writeRefusal s (sessOf s d.session).level o d.index d.sub d.data := by
  obtain ⟨t, accepted, runs⟩ := pendingRow_eq h hd service word found
  rw [runs, writeReq_judged h.direct accepted found, if_pos refused]
  exact ⟨_, served_answer h.direct accepted _ [], rfl⟩

theorem pendingRow_clears (allowed : writeRefusal s (sessOf s d.session).level o d.index d.sub d.data = rOk) :
    ∃ t r, pendingRow src ch b s = t ∧ t.dict.reply = some r ∧ r.result = 0 ∧
      (∀ e, e ≠ 52 → e < 96 → (t.raised e ↔ s.raised e ∧ ¬(e / 32 + 1 = d.sub ∧ bit (ofBe d.data) (e % 32) = true))) ∧
      sessionsKept d.session s t ∧ replied s t := by
  obtain ⟨u, accepted, runs⟩ := pendingRow_eq h hd service word found
  obtain ⟨rfl, first, -⟩ := findObj_pending (word ▸ found)
  rw [runs, writeReq_judged h.direct accepted found, if_neg (not_not.mpr allowed), if_neg (by decide), word, writePart_pending]
  dsimp only
  generalize hw : (clearPending d.sub d.data u).1 = w
  have pend (e : Nat) (he : e < 96) : w.raised e ↔ u.raised e ∧ ¬(e / 32 + 1 = d.sub ∧ bit (ofBe d.data) (e % 32) = true) := by
    rw [← hw]
    exact getLsbD_clearPending u.ev.pend d.sub (ofBe d.data) e first he
  have kept : sessionsKept d.session u w := by
    rw [← hw]
    exact fun _ _ => rfl
  have told : replied u w := by
    rw [← hw]
    exact ⟨rfl, rfl⟩
  have sent := answered_answer h.direct d (clearPending d.sub d.data u).2.1 (if pendingObj.acc = 2 then
    (if (clearPending d.sub d.data u).2.1 = rOk then [] else (clearPending d.sub d.data u).2.2) else (clearPending d.sub d.data u).2.2) w
  exact ⟨_, _, rfl, sent.reply, rfl, fun e hne he => by rw [sent.raised e hne, pend e he, accepted.raised e hne],
    sessionsKept_trans accepted.kept (sessionsKept_trans kept sent.kept), replied_trans accepted.replied (replied_trans told sent.replied)⟩

end

/-! ## PROXY -/

section
variable {s : State} {src : Source} {ch : Option Half} {b : List Byte} {far : ProxyIn} {d : Dgram} (h : Admitted s src ch b)
  (hd : d = readDgram b) (service : d.service = 0x30)
include h hd service

/-- PROXY in its session: refused, answered by the far module, or with the bridge's code (R564). -/
theorem proxyRow_judged : ∃ t, Accepted d s t ∧ proxyRow src ch b far s =
    if field d.data 0 2 = s.dict.modAddr ∨ field (d.data.drop 4) 1 1 ∈ [0x01, 0x02, 0x20, 0x30] then answer src d rBadRequest [] t
    else if bridgePath s (field d.data 0 2) = none then
      answer src d rProxy (be 2 0x8005) (bridgeFail (proxyTrans t (field d.data 0 2) (d.data.drop 4)) 0x8005 t)
    else if far.code = 0 then answer src d rOk (be 2 0 ++ be 2 0 ++ far.reply) t
    else answer src d rProxy (be 2 far.code)
      (if far.posted then bridgeFail (proxyTrans t (field d.data 0 2) (d.data.drop 4)) far.code t else t) := by
  subst hd
  obtain ⟨t, accepted, runs⟩ := h.served (own := fun d => d.service = svProxy) (fun d => proxyService src d far) (decide_eq_true service)
  have modAddr : t.dict.modAddr = s.dict.modAddr := by rw [accepted.replied.2]
  refine ⟨t, accepted, ?_⟩
  rw [proxyRow, runs, proxyService]
  dsimp only
  rw [modAddr, bridgePath_replied accepted.replied]
  have own : (decide (field (readDgram b).data 0 2 = s.dict.modAddr) ||
      [svOpen, svClose, svEvents, svProxy].contains (field ((readDgram b).data.drop 4) 1 1)) = true ↔
      field (readDgram b).data 0 2 = s.dict.modAddr ∨ field ((readDgram b).data.drop 4) 1 1 ∈ [0x01, 0x02, 0x20, 0x30] := by
    rw [Bool.or_eq_true, decide_eq_true_eq, List.contains_iff_mem]
    rfl
  rw [if_congr own rfl rfl]
  split
  · rfl
  · cases bridgePath s (field (readDgram b).data 0 2) with
    | none => simp [bNoPath]
    | some p => simp

variable (target : field d.data 0 2 ≠ s.dict.modAddr) (inner : field (d.data.drop 4) 1 1 ∉ [0x01, 0x02, 0x20, 0x30])
include target inner

theorem proxyRow_far (path : bridgePath s (field d.data 0 2) ≠ none) : ∃ t, Accepted d s t ∧ proxyRow src ch b far s =
    if far.code = 0 then answer src d rOk (be 2 0 ++ be 2 0 ++ far.reply) t
    else answer src d rProxy (be 2 far.code)
      (if far.posted then bridgeFail (proxyTrans t (field d.data 0 2) (d.data.drop 4)) far.code t else t) := by
  obtain ⟨t, accepted, runs⟩ := proxyRow_judged (far := far) h hd service
  rw [if_neg (not_or.mpr ⟨target, inner⟩), if_neg path] at runs
  exact ⟨t, accepted, runs⟩

/-- Without a path the failure is recorded with event 72 (R526). -/
theorem proxyRow_noPath (path : bridgePath s (field d.data 0 2) = none) (room : s.bridge.failures.length < 64) :
    ∃ t r f, proxyRow src ch b far s = t ∧ t.dict.reply = some r ∧ r.result = rProxy ∧ r.data = [0x80#8, 0x05#8] ∧
      t.raised 72 ∧ t.bridge.failures = s.bridge.failures ++ [f] ∧ f.target = field d.data 0 2 ∧ f.window = 14 ∧ f.init = 0 ∧
      f.code = 0x8005 ∧ sessionsKept d.session s t ∧
      replied { s with bridge := { s.bridge with failures := t.bridge.failures } } t := by
  obtain ⟨u, accepted, runs⟩ := proxyRow_judged (far := far) h hd service
  rw [if_neg (not_or.mpr ⟨target, inner⟩), if_pos path] at runs
  have bridge : u.bridge = s.bridge := by rw [accepted.replied.2]
  generalize hf : failRec (proxyTrans u (field d.data 0 2) (d.data.drop 4)) 0x8005 u = f
  have fails := bridgeFail_room (proxyTrans u (field d.data 0 2) (d.data.drop 4)) 0x8005 (s := u) (by rw [bridge]; exact room)
  rw [hf, bridge] at fails
  have held : sessionsKept d.session u (bridgeFail (proxyTrans u (field d.data 0 2) (d.data.drop 4)) 0x8005 u) := by
    rw [fails]
    exact fun n _ => (reported_failTold _ _ _).1.2.2 n
  have event : (bridgeFail (proxyTrans u (field d.data 0 2) (d.data.drop 4)) 0x8005 u).raised 72 := by
    rw [fails]
    exact raised_failTold _ _ _
  have told : replied { u with bridge := { s.bridge with failures := s.bridge.failures ++ [f] } }
      (bridgeFail (proxyTrans u (field d.data 0 2) (d.data.drop 4)) 0x8005 u) := by
    rw [fails]
    exact ⟨rfl, rfl⟩
  generalize bridgeFail (proxyTrans u (field d.data 0 2) (d.data.drop 4)) 0x8005 u = w at runs held event told
  have sent := answered_answer h.direct d rProxy (be 2 0x8005) w
  rw [runs]
  have failures : (answer src d rProxy (be 2 0x8005) w).bridge.failures = s.bridge.failures ++ [f] := by
    rw [sent.replied.2, told.2]
  have first : replied { s with bridge := { s.bridge with failures := s.bridge.failures ++ [f] } }
      { u with bridge := { s.bridge with failures := s.bridge.failures ++ [f] } } := by
    obtain ⟨enable, frame⟩ := accepted.replied
    refine ⟨enable, ?_⟩
    rw [frame]
  refine ⟨_, _, f, rfl, sent.reply, rfl, rfl, (sent.raised 72 (by decide)).mpr event, failures, ?_, ?_, ?_, ?_,
    sessionsKept_trans accepted.kept (sessionsKept_trans held sent.kept), ?_⟩
  · rw [← hf]; rfl
  · rw [← hf]; rfl
  · rw [← hf]; rfl
  · rw [← hf]; rfl
  · rw [failures]
    exact replied_trans first (replied_trans told sent.replied)

end

/-! ## The SERVICE frame -/

theorem raised_discard {h : Half} {p : Nat} {s : State} (first : (portOf s h p).discEvt = false) : (Machine.discard h p s).raised 28 := by
  unfold Machine.discard
  dsimp only
  rw [if_neg (by simp [first])]
  exact raised_raiseEv (by decide)

section
variable {s : State} {h : Half} {port : Nat} {f : Frame} {far : ProxyIn}

theorem serviceRow_dead (dead : chanUp s h = false ∨ portLive s h port = false ∨ (portOf s h port).integ = false ∨
    (portOf s h port).closed = true) : serviceRow h port f far s = s := by
  rw [serviceRow]
  refine if_pos ?_
  rcases dead with k | k | k | k <;> simp [k]

variable (up : chanUp s h = true) (live : portLive s h port = true) (integ : (portOf s h port).integ = true)
  (open_ : (portOf s h port).closed = false)
include up live integ open_

theorem serviceRow_live : serviceRow h port f far s = match serviceFrom s h port f.slot with
    | none => Machine.discard h port s
    | some r =>
      if !(frameForm s port f 0x60 1500 (f.flags < 2) && f.counter = s.bus.counter) then Machine.discard h port s
      else serve (.welong port) (some h) f.body far (stamp (txQueue h + 1) 4 (welongStamp s h f.counter f.slot port true r) s) := by
  rw [serviceRow]
  exact if_neg (by simp [up, live, integ, open_])

theorem serviceRow_discarded (wrong : serviceFrom s h port f.slot = none ∨ frameForm s port f 0x60 1500 (f.flags < 2) = false ∨
    f.counter ≠ s.bus.counter) : serviceRow h port f far s = Machine.discard h port s := by
  rw [serviceRow_live up live integ open_]
  split
  · rfl
  next r start =>
    refine if_pos ?_
    rw [Bool.not_eq_true', Bool.and_eq_false_iff, decide_eq_false_iff_not]
    exact wrong.resolve_left fun k => by rw [start] at k; cases k

theorem serviceRow_serves {r : Nat} (start : serviceFrom s h port f.slot = some r) (form : frameForm s port f 0x60 1500 (f.flags < 2) = true)
    (now : f.counter = s.bus.counter) : serviceRow h port f far s =
      serve (.welong port) (some h) f.body far (stamp (txQueue h + 1) 4 (welongStamp s h f.counter f.slot port true r) s) := by
  rw [serviceRow_live up live integ open_, start]
  refine if_neg ?_
  rw [form, decide_eq_true now]
  decide

end

/-- What a SERVICE frame that is taken does is the command of its datagram, on the state that stamped its arrival. -/
theorem serve_command {s u : State} {port : Nat} {h : Half} {b : List Byte} {far : ProxyIn} (kept : replied s u) (c : Instr)
    (asks : field b 1 1 = 0x01 ∧ c = .openSess (.welong port) (some h) b ∨
      field b 1 1 = 0x02 ∧ c = .closeSess (.welong port) (some h) b ∨
      field b 1 1 = 0x03 ∧ c = .statusReq (.welong port) (some h) b ∨
      field b 1 1 = 0x10 ∧ readsClear s (readDgram b) = false ∧ c = .readObj (.welong port) (some h) b ∨
      field b 1 1 = 0x10 ∧ readsClear s (readDgram b) = true ∧ c = .readClear (.welong port) (some h) b ∨
      field b 1 1 = 0x11 ∧ field b 8 2 ≠ 0x3001 ∧ c = .writeObj (.welong port) (some h) b ∨
      field b 1 1 = 0x11 ∧ field b 8 2 = 0x3001 ∧ c = .eventPendingClear (.welong port) (some h) b ∨
      field b 1 1 = 0x12 ∧ c = .describeObj (.welong port) (some h) b ∨
      field b 1 1 = 0x20 ∧ c = .eventRead (.welong port) (some h) b ∨
      field b 1 1 = 0x30 ∧ c = .proxyReq (.welong port) (some h) b far) :
    .next (serve (.welong port) (some h) b far u) = exec c u := by
  have clears := readsClear_replied kept (readDgram b)
  unfold serve
  simp only [clears, pendingIndex, svOpen, svClose, svRead, svWrite, svDescribe, svEvents, svProxy]
  rcases asks with ⟨k, rfl⟩ | ⟨k, rfl⟩ | ⟨k, rfl⟩ | ⟨k, l, rfl⟩ | ⟨k, l, rfl⟩ | ⟨k, l, rfl⟩ | ⟨k, l, rfl⟩ | ⟨k, rfl⟩ | ⟨k, rfl⟩ | ⟨k, rfl⟩
  all_goals simp only [k, Nat.reduceEqDiff, if_true, if_false]
  · rfl
  · rfl
  · rfl
  · simp only [l, Bool.false_eq_true, if_false]
    rfl
  · simp only [l, if_true]
    rfl
  · simp only [l, if_false]
    rfl
  · simp only [l, if_true]
    rfl
  · rfl
  · rfl
  · rfl

/-- Settles O46: the services of a session, and the frames that carry them. -/
theorem dictionaryServices : Obligations.DictionaryServices := by
  refine ⟨fun s src ch b d x alive ok good hd hx direct inSess first new later room => ?_, fun s h port f far => ⟨fun dead => ?_,
    fun up live integ open_ => ⟨fun wrong => ?_, fun r start form now => ?_⟩⟩⟩
  · subst hx
    have adm : Admitted s src ch b := by
      subst hd
      exact ⟨alive, ok, good, direct, inSess, first, new, later, room⟩
    refine ⟨fun service => ?_, fun service => ?_, fun service plain => ?_, fun service other => ⟨fun c found => ?_, fun o found refused => ?_,
      fun o found allowed tick => ?_, fun o found allowed now => ?_⟩, fun service clears o found => ⟨fun commons => ?_, fun lane refused => ?_,
      fun lane allowed => ?_⟩, fun service wrong => ?_, fun service some_ few zero => ?_, fun service word o found => ⟨fun refused => ?_,
      fun allowed => ?_⟩, fun far service => ⟨fun own => ?_, fun target inner => ⟨fun path code => ?_, fun path code posted => ?_, fun path space => ?_⟩⟩⟩
    · subst hd
      obtain ⟨r, sent, result, data⟩ := statusRow_served adm service
      exact ⟨_, r, rfl, sent.reply, result, data, sent.seq, sent.service.trans (by rw [service]), sent.session, sent.newest, sent.last,
        sent.kept, sent.replied⟩
    · subst hd
      obtain ⟨r, sent, known, unknown⟩ := describeRow_served adm service
      exact ⟨_, r, rfl, sent.reply, sent.seq, known, unknown, sent.newest, sent.kept, sent.replied⟩
    · obtain ⟨t, r, ht, spec⟩ := readRow_served adm (hd ▸ service) (hd ▸ plain) hd
      exact ⟨t, r, congrArg Host.Outcome.next ht, spec⟩
    · obtain ⟨r, sent, result, data⟩ := writeRow_unknown adm hd service other found
      exact ⟨_, r, rfl, sent.reply, result, data, sent.kept, sent.replied⟩
    · obtain ⟨r, sent, result, data⟩ := writeRow_refused adm hd service other found refused
      exact ⟨_, r, rfl, sent.reply, result, data, sent.kept, sent.replied⟩
    · obtain ⟨t, accepted, runs⟩ := writeRow_queued adm hd service other found allowed tick
      obtain ⟨reply, queue, newest, kept, told⟩ := queueReq_accepted direct accepted true
      exact ⟨_, congrArg Host.Outcome.next runs, reply, queue, newest, kept, told⟩
    · obtain ⟨t, r, u, w, ht, spec⟩ := writeRow_applied adm hd service other found allowed now
      exact ⟨t, r, u, w, congrArg Host.Outcome.next ht, spec⟩
    · obtain ⟨t, r, u, ht, spec⟩ := clearRow_commons adm hd service clears found commons
      exact ⟨t, r, u, congrArg Host.Outcome.next ht, spec⟩
    · obtain ⟨r, sent, result⟩ := clearRow_refused adm hd service clears found lane refused
      exact ⟨_, r, rfl, sent.reply, result, sent.kept, sent.replied⟩
    · obtain ⟨t, accepted, runs⟩ := clearRow_queued adm hd service clears found lane allowed
      obtain ⟨reply, queue, -, kept, told⟩ := queueReq_accepted direct accepted false
      exact ⟨_, congrArg Host.Outcome.next runs, reply, queue, kept, told⟩
    · obtain ⟨r, sent, result, data⟩ := eventsRow_range adm hd service wrong
      exact ⟨_, r, rfl, sent.reply, result, data, sent.kept, sent.replied⟩
    · obtain ⟨t, r, u, l, ht, spec⟩ := eventsRow_read adm hd service some_ few zero
      exact ⟨t, r, u, l, congrArg Host.Outcome.next ht, spec⟩
    · obtain ⟨r, sent, result⟩ := pendingRow_refused adm hd service word found refused
      exact ⟨_, r, rfl, sent.reply, result, sent.kept, sent.replied⟩
    · obtain ⟨t, r, ht, spec⟩ := pendingRow_clears adm hd service word found allowed
      exact ⟨t, r, congrArg Host.Outcome.next ht, spec⟩
    · obtain ⟨t, accepted, runs⟩ := proxyRow_judged (far := far) adm hd service
      have sent := served_answer direct accepted rBadRequest []
      exact ⟨_, _, congrArg Host.Outcome.next (runs.trans (if_pos own)), sent.reply, rfl, sent.kept, sent.replied⟩
    · obtain ⟨t, accepted, runs⟩ := proxyRow_far adm hd service target inner path
      have sent := served_answer direct accepted rOk (be 2 0 ++ be 2 0 ++ far.reply)
      exact ⟨_, _, congrArg Host.Outcome.next (runs.trans (if_pos code)), sent.reply, rfl, rfl, sent.kept, sent.replied⟩
    · obtain ⟨t, accepted, runs⟩ := proxyRow_far adm hd service target inner path
      rw [if_neg code, if_neg (by simp [posted])] at runs
      have sent := served_answer direct accepted rProxy (be 2 far.code)
      exact ⟨_, _, congrArg Host.Outcome.next runs, sent.reply, rfl, rfl, sent.kept, sent.replied⟩
    · obtain ⟨t, r, f, ht, spec⟩ := proxyRow_noPath (far := far) adm hd service target inner path space
      exact ⟨t, r, f, congrArg Host.Outcome.next ht, spec⟩
  · exact congrArg Host.Outcome.next (serviceRow_dead dead)
  · exact ⟨_, congrArg Host.Outcome.next (serviceRow_discarded up live integ open_ wrong), discard_port h port s, raised_discard,
      told_discard h port s, portsKept_discard h port s, discard_chans h port s⟩
  · have stamps := quiet_stamp (txQueue h + 1) 4 (welongStamp s h f.counter f.slot port true r) s
    refine ⟨_, stamps.replied, stamps.sessions, stamps.reply, fun c asks => ?_⟩
    rw [← serve_command stamps.replied c asks]
    exact congrArg Host.Outcome.next (serviceRow_serves up live integ open_ start form now)

end Sys2Proof.Proofs
end

section
/-! PROOFS. Firmware received, forwarded and installed (R613 to R625). -/

namespace Sys2Proof.Proofs

open Sys2Proof Sys2Proof.Machine Sys2Proof.Laws

/-! ## Update commands -/

/-- A session, or an upstream module through a PROXY request, that may give update commands (R616). -/
def updateAllows (s : State) (n : Nat) (via : Option Level) : Prop :=
  via = none ∧ s.allows n .operator false ∨ ∃ l, via = some l ∧ 1 ≤ levelRank l

theorem next_asUpdate {s t : State} {n : Nat} {via : Option Level} {f : State → State × Nat × List Byte} {r : Nat × List Byte}
    (h : updateAllows s n via) (hf : f s = (t, r)) :
    (.next (asUpdate n via f s) : Host.Outcome State Fault Refusal) = .next (withResult r t) := by
  rcases h with ⟨rfl, h⟩ | ⟨l, rfl, h⟩
  · exact next_asSession h hf
  · exact congrArg Host.Outcome.next ((asProxy_operator h).trans (by rw [hf]))

/-- An update command refused, told by an event (Table 16.9). -/
def updateRefused (e c : Nat) (s : State) : State := raiseEv e c { s with upd := { s.upd with outcome := c } }

theorem functionReply_refused {c : Nat} (h : c ≠ 0) (v : List Byte) : functionReply c v = (rFunction, be 2 c) := if_neg h

theorem updateReply_refused {c : Nat} (h : c ≠ 0) (e : Nat) (s : State) :
    updateReply c true (raiseEv e c s) = (updateRefused e c s, rFunction, be 2 c) :=
  congrArg (Prod.mk (updateRefused e c s)) (functionReply_refused h [])

/-- What is known of the state that a refused update command leaves. -/
theorem updateRefused_spec {e : Nat} (he : e < 96) (c : Nat) (s : State) :
    (withResult (rFunction, be 2 c) (updateRefused e c s)).raised e ∧
    (withResult (rFunction, be 2 c) (updateRefused e c s)).dict.result = rFunction ∧
    (withResult (rFunction, be 2 c) (updateRefused e c s)).dict.value = be 2 c ∧
    reported { s with upd := { s.upd with outcome := c } } (withResult (rFunction, be 2 c) (updateRefused e c s)) :=
  ⟨raised_raiseEv (d := c) he, rfl, rfl, reported_trans (reported_raiseEv _ _ _) (reported_withResult _ _)⟩

/-- An event told and the function's result: reporting alone. -/
theorem reported_withResult_raiseEv (r : Nat × List Byte) (e d : Nat) (s : State) : reported s (withResult r (raiseEv e d s)) :=
  reported_trans (reported_raiseEv _ _ _) (reported_withResult _ _)

/-! ## Open -/

section
variable {s : State} {c : Nat}

/-- The checks of Table 16.7 up to the vendor key, in their order. -/
theorem openRefusal_first (why : s.upd.accept = false ∧ c = 0xB012 ∨ s.upd.accept = true ∧ updateBusy s = true ∧ c = 0xB007 ∨
    s.upd.accept = true ∧ updateBusy s = false ∧ fwHeaderOk s.upd.buffer = false ∧ c = 0xB002 ∨
    s.upd.accept = true ∧ updateBusy s = false ∧ fwHeaderOk s.upd.buffer = true ∧ s.ident.loader < memNat s.upd.buffer 36 4 ∧ c = 0xB003 ∨
    s.upd.accept = true ∧ updateBusy s = false ∧ fwHeaderOk s.upd.buffer = true ∧ memNat s.upd.buffer 36 4 ≤ s.ident.loader ∧
      vendorKey s s.upd.buffer = none ∧ c = 0xB004) : openRefusal s = c ∧ c ≠ 0 := by
  have loader : (fwHeader s.upd.buffer).minLoader = memNat s.upd.buffer 36 4 := rfl
  unfold openRefusal
  simp only [loader]
  rcases why with ⟨accept, rfl⟩ | ⟨accept, busy, rfl⟩ | ⟨accept, free, bad, rfl⟩ | ⟨accept, free, good, old, rfl⟩ |
    ⟨accept, free, good, new, unknown, rfl⟩
  · simp [accept]
  · simp [accept, busy]
  · simp [accept, free, bad]
  · simp [accept, free, good, old]
  · simp [accept, free, good, Nat.not_lt.mpr new, unknown]

section
variable {k : List Byte} (accept : s.upd.accept = true) (free : updateBusy s = false) (good : fwHeaderOk s.upd.buffer = true)
  (loader : memNat s.upd.buffer 36 4 ≤ s.ident.loader) (key : vendorKey s s.upd.buffer = some k)
include accept free good loader key

/-- The signature and the version, once the vendor key is known (R614, R617). -/
theorem openRefusal_keyed : openRefusal s = if fwSigned k s.upd.buffer = false then 0xB005
    else if memNat s.upd.buffer 8 4 < runningVersion s ∧ s.upd.rollback = false then 0xB006 else 0 := by
  have minLoader : (fwHeader s.upd.buffer).minLoader = memNat s.upd.buffer 36 4 := rfl
  have version : (fwHeader s.upd.buffer).version = memNat s.upd.buffer 8 4 := rfl
  unfold openRefusal
  simp [minLoader, version, accept, free, good, Nat.not_lt.mpr loader, key]

end

theorem updateOpenFn_refused (h : openRefusal s = c) (hc : c ≠ 0) : updateOpenFn s = (updateRefused 92 c s, rFunction, be 2 c) := by
  rw [← h] at hc ⊢
  exact (if_pos hc).trans (updateReply_refused hc 92 s)

/-- The update that an open begins (R617). -/
def openedUpdate (s : State) : UpdateSt :=
  { s.upd with header := some (fwHeader s.upd.buffer), upd := true, valid := false, newArea := [], blockDigest := [], nextBlock := 0,
               newVersion := 0, fwdNext := 0, fwdOutcomes := [0, 0, 0, 0], outcome := 0xB001 }

theorem updateOpenFn_opens (h : openRefusal s = 0) :
    updateOpenFn s = (raiseEv 92 0xB001 { s with upd := openedUpdate s }, rOk, []) :=
  if_neg (not_not.mpr h)

end

/-! ## Blocks -/

section
variable {s : State} {i crc c : Nat} {good : Bool} {h : FwHeader}

theorem updateBlockFn_refused (why : s.upd.accept = false ∧ c = 0xB012 ∨ s.upd.accept = true ∧ s.upd.header = none ∧ c = 0xB008 ∨
    (∃ h, s.upd.accept = true ∧ s.upd.header = some h ∧
      (s.upd.upd = false ∨ s.upd.valid = true ∨ i ≠ s.upd.nextBlock ∨ h.blocks ≤ i)) ∧ c = 0xB008 ∨
    (∃ h, s.upd.accept = true ∧ s.upd.header = some h ∧ s.upd.upd = true ∧ s.upd.valid = false ∧ i = s.upd.nextBlock ∧ i < h.blocks ∧
      (crcOf crc32c (memReadAll s.upd.buffer 0 65536) ≠ crc ∨ good = false)) ∧ c = 0xB009) :
    updateBlockFn i crc good s = (updateRefused 93 c s, rFunction, be 2 c) := by
  unfold updateBlockFn
  dsimp only
  rcases why with ⟨accept, rfl⟩ | ⟨accept, none, rfl⟩ | ⟨⟨h, accept, header, order⟩, rfl⟩ | ⟨⟨h, accept, header, upd, valid, next, few, wrong⟩, rfl⟩
  · rw [if_pos (by simp [accept])]
    exact updateReply_refused (by decide) 93 s
  · rw [if_neg (by simp [accept]), none]
    exact updateReply_refused (by decide) 93 s
  · rw [if_neg (by simp [accept]), header]
    refine (if_pos ?_).trans (updateReply_refused (by decide) 93 s)
    simpa [or_assoc] using order
  · rw [if_neg (by simp [accept]), header]
    refine (if_neg ?_).trans ((if_pos ?_).trans (updateReply_refused (by decide) 93 s))
    · simp [upd, valid, next, Nat.not_le.mpr (next ▸ few)]
    · rw [Bool.or_eq_true, decide_eq_true_eq, Bool.not_eq_true']
      exact wrong

variable (accept : s.upd.accept = true) (header : s.upd.header = some h) (upd : s.upd.upd = true) (valid : s.upd.valid = false)
  (next : i = s.upd.nextBlock) (few : i < h.blocks)
include accept header upd valid next few

theorem updateBlockFn_good : updateBlockFn i (crcOf crc32c (memReadAll s.upd.buffer 0 65536)) true s =
    blockTaken h i (memReadAll s.upd.buffer 0 65536) s := by
  unfold updateBlockFn
  dsimp only
  rw [if_neg (by simp [accept]), header]
  refine (if_neg ?_).trans (if_neg ?_)
  · simp [upd, valid, next, Nat.not_le.mpr (next ▸ few)]
  · simp [blockLen]

end

/-- A block in the new area (R617). -/
def blockIn (i : Nat) (b : List Byte) (s : State) : State :=
  { s with upd := { s.upd with newArea := memWriteAll s.upd.newArea (i * 65536) b, nextBlock := i + 1 } }

/-- The image that its last block completes, valid (R617). -/
def imageIn (h : FwHeader) (s : State) : State :=
  raiseEv 93 0xB00B { s with upd := { s.upd with valid := true, newVersion := h.version, outcome := 0xB00B } }

/-- The image whose digest is wrong, discarded (R617). -/
def imageOut (s : State) : State :=
  raiseEv 93 0xB00A { s with upd := { s.upd with
    upd := false, valid := false, header := none, newArea := [], nextBlock := 0, outcome := 0xB00A } }

section
variable {s : State} {i : Nat} {b : List Byte} {h : FwHeader}

theorem newArea_blockIn : (blockIn i b s).upd.newArea = memWriteAll s.upd.newArea (i * 65536) b := rfl

theorem newArea_imageIn (r : Nat × List Byte) : (withResult r (imageIn h s)).upd.newArea = s.upd.newArea := rfl

theorem blockTaken_more (more : i + 1 < h.blocks) : blockTaken h i b s = (blockIn i b s, rOk, []) := if_neg (Nat.ne_of_lt more)

theorem blockTaken_last (last : i + 1 = h.blocks) : blockTaken h i b s = finishImage h (blockIn i b s) := if_pos last

theorem finishImage_valid (digest : Config.shakeMem s.upd.newArea h.length = h.digest)
    (manual : s.upd.auto = false ∨ h.version = runningVersion s) : finishImage h s = (imageIn h s, rOk, []) := by
  have stays : ¬(s.upd.auto && h.version ≠ runningVersion s) = true := by
    rcases manual with k | k <;> simp [k]
  unfold finishImage
  rw [if_pos digest]
  exact congrArg (updateReply 0xB00B false) (if_neg stays)

theorem finishImage_wrong (digest : Config.shakeMem s.upd.newArea h.length ≠ h.digest) :
    finishImage h s = (imageOut s, rFunction, be 2 0xB00A) := by
  unfold finishImage
  rw [if_neg digest]
  rfl

end

/-! ## Abandon, the buffer window and forwarding -/

section
variable {s : State}

theorem updateAbandonFn_off (off : s.upd.accept = false) :
    updateAbandonFn s = ({ s with upd := { s.upd with outcome := 0xB012 } }, rFunction, [0xB0#8, 0x12#8]) :=
  if_pos (by simp [off])

/-- The update that an abandon leaves (R617). -/
def abandonedUpdate (s : State) : UpdateSt :=
  { s.upd with newArea := [], valid := false, blockDigest := [], nextBlock := 0, outcome := 0xB011,
               upd := s.upd.upd && (s.upd.phase ≠ .idle || s.upd.updating) }

theorem updateAbandonFn_on (on : s.upd.accept = true) :
    updateAbandonFn s = (raiseEv 95 0xB011 { s with upd := abandonedUpdate s }, rOk, []) :=
  if_neg (by simp [on])

theorem forwardRow_none {c : Nat} (none : s.upd.valid = false ∨ nextDown s = none) : forwardRow c s = s := by
  unfold forwardRow
  split
  next valid down => rcases none with k | k <;> simp [k] at valid down
  · rfl

theorem forwardRow_some {c i : Nat} (valid : s.upd.valid = true) (down : nextDown s = some i) : forwardRow c s =
    raiseEv 93 c { s with upd := { s.upd with fwdOutcomes := s.upd.fwdOutcomes.set i (c % 65536), fwdNext := i + 1 } } := by
  rw [forwardRow, valid, down]

theorem bufferWindowFn_length {d : List Byte} (wrong : d = [] ∨ 1024 < d.length) : bufferWindowFn d s = (s, rLength, []) :=
  if_pos (by simpa using wrong)

section
variable {d : List Byte} (some_ : d ≠ []) (few : d.length ≤ 1024)
include some_ few

theorem bufferWindowFn_judged : bufferWindowFn d s = if 65536 < s.upd.bufOffset + d.length then (s, rRange, []) else
    ({ s with upd := { s.upd with buffer := memWriteAll s.upd.buffer s.upd.bufOffset d,
                                  bufOffset := s.upd.bufOffset + d.length } }, rOk, []) :=
  if_neg (by simp [some_, Nat.not_lt.mpr few])

end

end

/-- Settles O55: the buffer window, an image opened, its blocks, abandoned and forwarded. -/
theorem receivingFirmware : Obligations.ReceivingFirmware := by
  refine ⟨fun s n d allowed => ⟨fun wrong => ?_, fun some_ few beyond => ?_, fun some_ few fits => ?_⟩,
    fun s n via allowed => ⟨fun c why => ?_, fun k accept free good loader key => ⟨fun c why => ?_, fun signed version => ?_⟩,
      fun i crc good c why => ?_, fun i h accept header upd valid next few => ⟨fun more => ?_, fun last m hm => ⟨fun digest manual => ?_, fun digest => ?_⟩⟩,
      fun off => ?_, fun on => ?_⟩,
    fun s c i => ⟨fun none => congrArg Host.Outcome.next (forwardRow_none none), fun valid down => ?_⟩⟩
  · exact next_asSession allowed (bufferWindowFn_length wrong)
  · exact next_asSession allowed ((bufferWindowFn_judged some_ few).trans (if_pos beyond))
  · exact next_asSession allowed ((bufferWindowFn_judged some_ few).trans (if_neg (Nat.not_lt.mpr fits)))
  · obtain ⟨refused, hc⟩ := openRefusal_first why
    exact ⟨_, next_asUpdate allowed (updateOpenFn_refused refused hc), updateRefused_spec (by decide) c s⟩
  · have judged := openRefusal_keyed accept free good loader key
    have refused : openRefusal s = c ∧ c ≠ 0 := by
      rcases why with ⟨unsigned, rfl⟩ | ⟨signed, older, kept, rfl⟩
      · exact ⟨judged.trans (if_pos unsigned), by decide⟩
      · exact ⟨judged.trans ((if_neg (by simp [signed])).trans (if_pos ⟨older, kept⟩)), by decide⟩
    exact ⟨_, next_asUpdate allowed (updateOpenFn_refused refused.1 refused.2), updateRefused_spec (by decide) c s⟩
  · have taken : openRefusal s = 0 := (openRefusal_keyed accept free good loader key).trans
      ((if_neg (by simp [signed])).trans (if_neg fun older => by
        rcases version with k | k
        · exact absurd older.1 (Nat.not_lt.mpr k)
        · exact absurd older.2 (by simp [k])))
    exact ⟨_, next_asUpdate allowed (updateOpenFn_opens taken), raised_raiseEv (d := 0xB001) (by decide), rfl, rfl, rfl, rfl, rfl, rfl, rfl,
      reported_withResult_raiseEv _ _ _ _⟩
  · exact ⟨_, next_asUpdate allowed (updateBlockFn_refused why), updateRefused_spec (by decide) c s⟩
  · exact next_asUpdate allowed ((updateBlockFn_good accept header upd valid next few).trans (blockTaken_more more))
  · have area := (newArea_blockIn (s := s) (i := i) (b := memReadAll s.upd.buffer 0 65536)).trans hm.symm
    exact ⟨_, next_asUpdate allowed ((updateBlockFn_good accept header upd valid next few).trans ((blockTaken_last last).trans
        (finishImage_valid (area ▸ digest) manual))), raised_raiseEv (d := 0xB00B) (by decide), rfl, rfl, rfl, rfl,
      (newArea_imageIn _).trans area, reported_withResult_raiseEv _ _ _ _⟩
  · have area := (newArea_blockIn (s := s) (i := i) (b := memReadAll s.upd.buffer 0 65536)).trans hm.symm
    exact ⟨_, next_asUpdate allowed ((updateBlockFn_good accept header upd valid next few).trans ((blockTaken_last last).trans
        (finishImage_wrong (area ▸ digest)))), raised_raiseEv (d := 0xB00A) (by decide), rfl, rfl, rfl, rfl, rfl, rfl,
      reported_withResult_raiseEv _ _ _ _⟩
  · exact next_asUpdate allowed (updateAbandonFn_off off)
  · exact ⟨_, next_asUpdate allowed (updateAbandonFn_on on), raised_raiseEv (d := 0xB011) (by decide), rfl, reported_withResult_raiseEv _ _ _ _⟩
  · exact ⟨_, congrArg Host.Outcome.next (forwardRow_some valid down), raised_raiseEv (by decide), reported_raiseEv _ _ _⟩

end Sys2Proof.Proofs
end

section
/-! PROOFS. Firmware installed, lane by lane or in all lanes at once (R620 to R623). -/

namespace Sys2Proof.Proofs

open Sys2Proof Sys2Proof.Machine Sys2Proof.Laws

/-! ## An install begins -/

section
variable {s : State}

theorem installRollingFn_refused (h : rollingRefusal s ≠ 0) : installRollingFn s =
    ({ s with upd := { s.upd with installOutcome := rollingRefusal s } }, rFunction, be 2 (rollingRefusal s)) :=
  (if_pos h).trans (congrArg (Prod.mk _) (functionReply_refused h []))

/-- The rolling install begun: the running version is kept as fallback and Lane C's withdrawal is asked for (R621). -/
def rollingBegun (s : State) : State :=
  loaderWithdraw .c { copyFallback s with upd := { (copyFallback s).upd with
    action := 1, phase := .withdrawing, rolling := true, stopAsked := false, doneL := 0, block := 0 } }

theorem installRollingFn_begins (h : rollingRefusal s = 0) : installRollingFn s = (rollingBegun s, rOk, []) :=
  if_neg (not_not.mpr h)

theorem fallback_copyFallback {l : Lane} {r : List Lane} (votes : lanesInVote s = l :: r) :
    (copyFallback s).upd.fallback = (triGet s.lanes l).fwVersion := by
  rw [copyFallback, votes]

theorem lanes_copyFallback (s : State) : (copyFallback s).lanes = s.lanes := by
  unfold copyFallback
  split <;> rfl

theorem installAllFn_refused (h : allLanesRefusal s ≠ 0) : installAllFn s =
    ({ s with upd := { s.upd with installOutcome := allLanesRefusal s } }, rFunction, be 2 (allLanesRefusal s)) :=
  (if_pos h).trans (congrArg (Prod.mk _) (functionReply_refused h []))

/-- The install of all lanes begun: the lanes stop with nothing in their next buffers (R623). -/
def allLanesBegun (s : State) : State :=
  { copyFallback s with
    upd := { (copyFallback s).upd with action := 2, phase := .writing, updating := true, rolling := false, stopAsked := false, doneL := 0,
                                       lane := 2, block := 0 }
    halves := twoMap (copyFallback s).halves (fun _ x => { x with next := none })
    lio := { (copyFallback s).lio with localNext := none } }

theorem installAllFn_begins (h : allLanesRefusal s = 0) : installAllFn s = (allLanesBegun s, rOk, []) := if_neg (not_not.mpr h)

theorem installStopFn_asks (rolling : s.upd.action = 1) (under : s.upd.phase ≠ .idle) (forth : s.upd.phase ≠ .rollingBack) :
    installStopFn s = ({ s with upd := { s.upd with stopAsked := true } }, rOk, []) :=
  if_pos (by simp [rolling, under, forth])

theorem installStopFn_none (none : s.upd.action ≠ 1 ∨ s.upd.phase = .idle ∨ s.upd.phase = .rollingBack) :
    installStopFn s = ({ s with upd := { s.upd with installOutcome := 0xB014 } }, rFunction, [0xB0#8, 0x14#8]) := by
  refine if_neg ?_
  rcases none with k | k | k <;> simp [k]

end

/-! ## A lane done -/

section
variable {s : State} {l : Lane}

theorem installLaneDone_elsewhere (rolling : s.upd.updating = false) (away : s.upd.lane ≠ laneNo l ∨ inVote s l = false) :
    installLaneDone l s = s := by
  unfold installLaneDone
  rw [if_neg (by simp [rolling])]
  refine if_pos ?_
  simpa using away

/-- The lane in hand back in the vote: event 94. -/
def laneBack (l : Lane) (s : State) : State :=
  raiseEv 94 (laneNo l) { s with upd := { s.upd with doneL := s.upd.doneL ||| 2 ^ laneNo l } }

theorem raised_laneBack (l : Lane) (s : State) : (laneBack l s).raised 94 := raised_raiseEv (d := laneNo l) (by decide)

theorem raised_installDone (s : State) : (installDone s).raised 95 := raised_raiseEv (d := 0) (by decide)

theorem installLaneDone_back (rolling : s.upd.updating = false) (own : s.upd.lane = laneNo l) (voting : inVote s l = true)
    (phase : s.upd.phase = .rejoining) (goesOn : s.upd.stopAsked = false) : installLaneDone l s = match lanePast l with
      | some n => loaderWithdraw n { laneBack l s with upd := { (laneBack l s).upd with phase := .withdrawing, block := 0 } }
      | none => installDone (laneBack l s) := by
  unfold installLaneDone
  rw [if_neg (by simp [rolling]), if_neg (by simp [own, voting]), if_pos phase]
  exact if_neg (by simp [goesOn])

variable (all : s.upd.updating = true)
include all

theorem installLaneDone_again (written : bit s.upd.doneL (laneNo l) = true) : installLaneDone l s = s := by
  unfold installLaneDone
  rw [if_pos all, if_pos written]

theorem installLaneDone_writes (first : bit s.upd.doneL (laneNo l) = false) : installLaneDone l s = writeAllLane l s := by
  unfold installLaneDone
  rw [if_pos all, if_neg (by simp [first])]

end

/-- A lane's flash with the new firmware (R623). -/
def reflashed (u : UpdateSt) (x : LaneSt) : LaneSt :=
  { x with fwVersion := u.newVersion, fwClass := (u.header.map (·.cclass)).getD x.fwClass, fwDigest := (u.header.map (·.digest)).getD x.fwDigest }

/-- A lane written in an install of all lanes (R623). -/
def laneWritten (l : Lane) (s : State) : State := { s with
  lanes := triMod s.lanes l (reflashed s.upd)
  upd := { s.upd with doneL := s.upd.doneL ||| 2 ^ laneNo l, lane := laneNo l, block := (s.upd.header.map (·.blocks)).getD 1 - 1 } }

theorem writeAllLane_eq (l : Lane) (s : State) : writeAllLane l s =
    if s.upd.doneL ||| 2 ^ laneNo l = 7 then installDone (restartModule true (laneWritten l s)) else laneWritten l s := rfl

/-- Settles O56: a rolling install and one of all lanes begun, stopped, and a lane done. -/
theorem installingFirmware : Obligations.InstallingFirmware := by
  refine ⟨fun s n allowed => ⟨fun refused => next_asSession allowed (installRollingFn_refused refused), fun invalid => ?_,
      fun valid idle still same => ?_, fun valid busy => ?_, fun free => ?_, fun refused => next_asSession allowed (installAllFn_refused refused),
      fun valid idle still newer role formed heard ready => ?_, fun valid idle still newer role alone held => ?_, fun free => ?_,
      fun rolling under forth => next_asSession allowed (installStopFn_asks rolling under forth),
      fun none => next_asSession allowed (installStopFn_none none)⟩,
    fun s l rolling away => congrArg Host.Outcome.next (installLaneDone_elsewhere rolling away),
    fun s l rolling own voting phase goesOn => ?_, fun s l all => ⟨fun written => congrArg Host.Outcome.next (installLaneDone_again all written),
      fun first others => ?_, fun first last => ?_⟩⟩
  · simp [rollingRefusal, invalid]
  · simp [rollingRefusal, valid, idle, still, same]
  · rcases busy with k | k <;> simp [rollingRefusal, valid, k]
  · refine ⟨_, next_asSession allowed (installRollingFn_begins free), rfl, rfl, rfl, rfl, rfl, fun l r votes => ?_⟩
    exact fallback_copyFallback votes
  · simp [allLanesRefusal, valid, idle, still, newer, role, formed, heard, ready]
  · simp [allLanesRefusal, valid, idle, still, newer, role, alone, held]
  · exact ⟨_, next_asSession allowed (installAllFn_begins free), rfl, rfl, rfl, rfl, rfl, rfl, rfl, lanes_copyFallback s⟩
  · refine ⟨_, congrArg Host.Outcome.next (installLaneDone_back rolling own voting phase goesOn), ?_⟩
    cases l with
    | a =>
      refine ⟨raised_mono (raised_laneBack .a s), fun _ => ⟨raised_installDone _, rfl, rfl, rfl, rfl, rfl, rfl, fun h header some_ => ?_, rfl⟩,
        fun k => absurd k (by decide), fun k => absurd k (by decide), fun k => absurd rfl k⟩
      have held : (laneBack .a s).upd.header = some h := header
      show (if ((((laneBack .a s).upd.header).map (·.formats)).getD []).filter (· ≠ 0) = [] then _ else
        ((((laneBack .a s).upd.header).map (·.formats)).getD []).filter (· ≠ 0)) = _
      rw [held]
      exact if_neg some_
    | b => exact ⟨raised_laneBack .b s, fun k => absurd k (by decide), fun k => absurd k (by decide), fun _ => rfl, fun _ => rfl⟩
    | c => exact ⟨raised_laneBack .c s, fun k => absurd k (by decide), fun _ => rfl, fun k => absurd k (by decide), fun _ => rfl⟩
  · refine ⟨_, congrArg Host.Outcome.next ((installLaneDone_writes all first).trans ((writeAllLane_eq l s).trans (if_neg others))),
      ?_, ?_, rfl, fun m other => triGet_mod_other _ _ other, rfl⟩
    · exact congrArg LaneSt.fwVersion (triGet_mod s.lanes l (reflashed s.upd))
    · exact (congrArg LaneSt.kernel (triGet_mod s.lanes l (reflashed s.upd))).trans rfl
  · refine ⟨_, congrArg Host.Outcome.next ((installLaneDone_writes all first).trans ((writeAllLane_eq l s).trans (if_pos last))),
      raised_installDone _, ?_, rfl, ?_, rfl, rfl, rfl, rfl⟩
    · show (triGet (triMap (triMod s.lanes l (reflashed s.upd)) (fun _ x => laneOff x.kernel x)) l).fwVersion = _
      rw [triGet_map, triGet_mod]
      rfl
    · exact Bool.or_true _

end Sys2Proof.Proofs
end

section
/-! PROOFS. Power-state transitions begun and completed (R598 to R604). -/

namespace Sys2Proof.Proofs

open Sys2Proof Sys2Proof.Machine Sys2Proof.Laws

/-! ## Where a transition goes -/

section
variable {s : State}

theorem moveOn_stays (why : s.power.moving.isSome = true ∨ s.power.pfail ≠ 0 ∨ s.power.st = .off ∨ s.power.st = .failedWake ∨
    (s.power.step ≠ 0 ∧ s.power.step ≠ 7) ∨ powerTarget s.power.votes = pwCode s.power.st ∨ s.upd.updating = true) :
    moveOn s = s := by
  refine if_pos ?_
  rcases why with k | k | k | k | ⟨k, l⟩ | k | k
  · simp [k]
  · simp [k]
  · simp [k, inLadder]
  · simp [k, inLadder]
  · simp [k, l]
  · simp [k]
  · simp [k]

/-- A transition that nothing bars begins towards the neighbour of its state. -/
theorem moveOn_begins (still : s.power.moving = none) (supplied : s.power.pfail = 0) (ready : s.power.step = 0 ∨ s.power.step = 7)
    (noUpdate : s.upd.updating = false) (ladder : inLadder s.power.st = true) (differs : powerTarget s.power.votes ≠ pwCode s.power.st) :
    moveOn s = beginMove (nextState s.power.st (powerTarget s.power.votes)) s := by
  refine if_neg ?_
  rcases ready with k | k <;> simp [still, supplied, k, noUpdate, ladder, differs]

/-! ## Transitions begun -/

/-- The transition noted as under way. -/
def movingTo (w : PwState) (s : State) : State := { s with power := { s.power with moving := some w, transAt := s.ns } }

theorem startKept_leaveRun_base (s : State) : StartKept s (abortModeSwitch (abortChange 0x5105 s)) :=
  (startKept_abortChange _ s).trans (startKept_abortModeSwitch _)

theorem leaveActive_run (standby : s.pair.role ≠ .active) (none : s.power.leavingFor = none) : leaveActive s = leaveRun s := by
  unfold leaveActive
  rw [none]
  simp [standby]

theorem ns_abortChange (code : Nat) (s : State) : (abortChange code s).ns = s.ns := by
  unfold abortChange
  split <;> rfl

theorem ns_abortModeSwitch (s : State) : (abortModeSwitch s).ns = s.ns := by
  unfold abortModeSwitch
  split
  · split <;> rfl
  · rfl

theorem leaveRun_spec (s : State) : (leaveRun s).power = { s.power with moving := some .quiet, transAt := s.ns, leavingFor := none } ∧
    (leaveRun s).halves.a.next = none ∧ (leaveRun s).halves.b.next = none ∧ (leaveRun s).lio.localNext = none := by
  have power : (leaveRun s).power = { (abortModeSwitch (abortChange 0x5105 s)).power with
    moving := some .quiet, transAt := (abortModeSwitch (abortChange 0x5105 s)).ns, leavingFor := none } := rfl
  refine ⟨?_, rfl, rfl, rfl⟩
  rw [power, (startKept_leaveRun_base s).power, ns_abortModeSwitch, ns_abortChange]

theorem endQuietTests_kept (s : State) : (endQuietTests s).power = s.power ∧ (endQuietTests s).lanes = s.lanes ∧
    (endQuietTests s).ns = s.ns := by
  unfold endQuietTests
  rw [(abortTests_frame _ s).2]
  exact ⟨rfl, rfl, rfl⟩

/-- From Quiet to Dormant, and from Dormant to Standby, the tests of the state end, nothing else. -/
theorem beginMove_down {w : PwState} (down : s.power.st = .quiet ∧ w = .dormant ∨ s.power.st = .dormant ∧ w = .standby) :
    beginMove w s = movingTo w (endQuietTests s) := by
  unfold beginMove
  rcases down with ⟨st, rfl⟩ | ⟨st, rfl⟩ <;> rw [st] <;> rfl

theorem movingTo_endQuietTests (w : PwState) (s : State) : (movingTo w (endQuietTests s)).power = { s.power with
    moving := some w, transAt := s.ns } ∧ (movingTo w (endQuietTests s)).lanes = s.lanes := by
  obtain ⟨power, lanes, ns⟩ := endQuietTests_kept s
  refine ⟨?_, lanes⟩
  rw [movingTo, power, ns]

/-- Into Run from Quiet: the restart choice, then start-up step 6 (R603). -/
def intoRun (s : State) : State :=
  { restartChoice (quietWarm s) (movingTo .run (endQuietTests s)) with
    power := { (restartChoice (quietWarm s) (movingTo .run (endQuietTests s))).power with st := .run } }

theorem beginMove_run (st : s.power.st = .quiet) (free : s.vote.restrictive = false) : beginMove .run s = intoRun s := by
  unfold beginMove
  rw [st]
  exact if_neg (by simp [free])

theorem power_restartKernels (f : KEnv → Nat → KRun → KRun) (s : State) : (restartKernels f s).power = s.power := by
  rw [(reported_restartKernels f s).2]
  rfl

theorem moving_restartChoice (warm : Bool) (s : State) : (restartChoice warm s).power.moving = s.power.moving := by
  unfold restartChoice
  cases warm with
  | false =>
    simp only [Bool.false_eq_true, if_false]
    rw [coldRestart, power_restartKernels]
  | true =>
    simp only [if_true]
    rw [warmRestart, power_restartKernels]

/-- From Dormant to Quiet the module goes through start-up step 3 (R603). -/
def outOfDormant (s : State) : State := raiseEv 29 noDetail (modeZero (busDown { movingTo .quiet s with
  power := { (movingTo .quiet s).power with wakeDrive := s.ns + wakeDeafNs } }))

theorem beginMove_quiet (st : s.power.st = .dormant) : beginMove .quiet s = { outOfDormant s with
    tres := ⟨TrestleSt.init, TrestleSt.init⟩
    vote := { (outOfDormant s).vote with restrictive := false }
    power := { (outOfDormant s).power with
      st := .run, step := 3, confirmed := false
      coldNext := (outOfDormant s).power.coldNext || (outOfDormant s).power.bankMask ≠ 0xFF || (outOfDormant s).vote.restrictive } } := by
  unfold beginMove
  rw [st]
  rfl

theorem power_outOfDormant (s : State) : (outOfDormant s).power = { s.power with
    moving := some .quiet, transAt := s.ns, wakeDrive := s.ns + wakeDeafNs } :=
  (startKept_modeZero _).power

theorem dormant_modeZero (s : State) : (modeZero s).bus.dormant = false := by
  unfold modeZero
  dsimp only
  split <;> rfl

theorem beginMove_dormant (st : s.power.st = .standby) : (beginMove .dormant s).power = { s.power with
    moving := some .dormant, transAt := s.ns, wakeDrive := s.ns + wakeDeafNs, step := 1, coldNext := true } := by
  unfold beginMove
  rw [st]

end

/-! ## Transitions completed -/

/-- The state reached is told with event 64, and nothing runs or is counted any more (R604). -/
def arrived (w : PwState) (s : State) : State :=
  { raiseEv 64 (pwCode w) (arrive w s) with
    power := { (raiseEv 64 (pwCode w) (arrive w s)).power with collapsed := 0, wakeQ := false } }

section
variable {s : State} {w : PwState}

theorem transitionComplete_still (still : s.power.moving = none) : transitionComplete s = s := by
  rw [transitionComplete, still]

theorem transitionComplete_goesOn (moving : s.power.moving = some w) (why : moveDone s = false ∨ s.power.pfail ≠ 0) :
    transitionComplete s = s := by
  rw [transitionComplete, moving]
  refine if_pos ?_
  rcases why with k | k <;> simp [k]

theorem transitionComplete_done (moving : s.power.moving = some w) (done : moveDone s = true) (supplied : s.power.pfail = 0)
    (reached : powerTarget (arrived w s).power.votes = pwCode (arrived w s).power.st) : transitionComplete s = arrived w s := by
  have stays : moveOn (arrived w s) = arrived w s := moveOn_stays (.inr (.inr (.inr (.inr (.inr (.inl reached))))))
  rw [transitionComplete, moving]
  exact (if_neg (by simp [done, supplied])).trans stays

theorem raised_arrived (w : PwState) (s : State) : (arrived w s).raised 64 := raised_raiseEv (d := pwCode w) (by decide)

theorem power_arrived (w : PwState) (s : State) : (arrived w s).power = { (arrive w s).power with collapsed := 0, wakeQ := false } := rfl

/-- What reaching Dormant leaves of the module's power state. -/
theorem power_arrive_dormant (s : State) : (arrive .dormant s).power = { s.power with
    st := .dormant, moving := none, coldNext := s.power.coldNext || s.power.bankMask ≠ 0xFF
    retained := if s.power.bankMask = 0xFF then s.power.retained else ⟨none, none, none⟩ } := by
  by_cases st : s.power.st = .standby
  · unfold arrive
    simp only [st, if_true]
    rfl
  · unfold arrive
    simp only [st, if_false]
    rfl

theorem bus_arrive_dormant (s : State) : (arrive .dormant s).bus.dormant = true ∧ (arrive .dormant s).raised 29 :=
  ⟨rfl, raised_raiseEv (d := noDetail) (by decide)⟩

theorem power_arrive_standby (s : State) : (arrive .standby s).power = { s.power with
    st := .standby, moving := none, calendar := moduleNs s / secNs, votes := s.power.votes.set 4 0xFF, wakeUntil := none
    retained := ⟨none, none, none⟩, coldNext := true } := rfl

/-- No session is open in Standby. -/
theorem opened_arrive_standby (s : State) (n : Nat) : (sessOf (arrive .standby s) n).opened = false := by
  have ended : sessOf (arrive .standby s) n = tabGet (tabMap s.dict.sessions (fun _ x => endSession x)) n Session.closed := rfl
  rw [ended, tabGet, tabFind_map]
  cases tabFind s.dict.sessions n <;> rfl

theorem halves_arrive_standby (s : State) : (arrive .standby s).halves.a.inServ = false ∧ (arrive .standby s).halves.b.inServ = false :=
  ⟨rfl, rfl⟩

theorem opened_arrived {n : Nat} (closed : (sessOf (arrive w s) n).opened = false) : (sessOf (arrived w s) n).opened = false := by
  have kept : sessOf (arrived w s) n = sessOf (raiseEv 64 (pwCode w) (arrive w s)) n := rfl
  rw [kept, raiseEv, sessOf_raiseAt_unoffered (.inl closed)]
  exact closed

end

/-- Settles O52: the transitions begun from each state, and completed. -/
theorem powerTransitions : Obligations.PowerTransitions := by
  refine ⟨fun s why => congrArg Host.Outcome.next (moveOn_stays why), fun s still supplied ready noUpdate => ?_, fun s =>
    ⟨fun still => congrArg Host.Outcome.next (transitionComplete_still still), fun w moving why =>
      congrArg Host.Outcome.next (transitionComplete_goesOn moving why), fun w moving done supplied which reached => ?_,
      fun moving supplied target => ?_⟩⟩
  · have begins (w : PwState) (ladder : inLadder s.power.st = true) (differs : powerTarget s.power.votes ≠ pwCode s.power.st)
        (toward : nextState s.power.st (powerTarget s.power.votes) = w) :
        exec .transitionStart s = .next (beginMove w s) := by
      rw [← toward]
      exact congrArg Host.Outcome.next (moveOn_begins still supplied ready noUpdate ladder differs)
    refine ⟨fun st deeper standby none => ?_, fun st deeper => ?_, fun st target free => ?_, fun st target => ?_, fun st target => ?_,
      fun st target => ?_⟩
    · have toward : nextState s.power.st (powerTarget s.power.votes) = .quiet := by
        rw [st]
        exact if_pos deeper
      have move : beginMove .quiet s = leaveActive s := by
        unfold beginMove
        rw [st]
      obtain ⟨power, a, b, locals⟩ := leaveRun_spec s
      refine ⟨_, (begins .quiet (by rw [st]; decide) (by rw [st]; exact Nat.ne_of_gt deeper) toward).trans
        (congrArg Host.Outcome.next (move.trans (leaveActive_run standby none))), ?_, ?_, ?_, a, b, locals, ?_⟩
      all_goals rw [power]
      exact st
    · have toward : nextState s.power.st (powerTarget s.power.votes) = .dormant := by
        rw [st]
        exact if_pos deeper
      exact ⟨_, (begins .dormant (by rw [st]; decide) (by rw [st]; exact Nat.ne_of_gt deeper) toward).trans
        (congrArg Host.Outcome.next (beginMove_down (.inl ⟨st, rfl⟩))), movingTo_endQuietTests .dormant s⟩
    · have toward : nextState s.power.st (powerTarget s.power.votes) = .run := by
        rw [st, target]
        rfl
      have warm := restartChoice_spec (quietWarm s) (movingTo .run (endQuietTests s))
      obtain ⟨step, -, confirmed, choice⟩ := warm
      refine ⟨_, (begins .run (by rw [st]; decide) (by rw [st, target]; decide) toward).trans
        (congrArg Host.Outcome.next (beginMove_run st free)), rfl, ?_, step, confirmed, choice, fun cold l n => ?_⟩
      · exact (moving_restartChoice _ _).trans rfl
      · have released := restartChoice_released (movingTo .run (endQuietTests s)) l n
        rw [← cold] at released
        exact released
    · have toward : nextState s.power.st (powerTarget s.power.votes) = .quiet := by
        rw [st]
        exact if_neg (Nat.not_lt.mpr (target.trans (by decide)))
      have power := power_outOfDormant s
      refine ⟨_, (begins .quiet (by rw [st]; decide) (by rw [st]; exact Nat.ne_of_lt (Nat.lt_succ_of_le target)) toward).trans
        (congrArg Host.Outcome.next (beginMove_quiet st)), rfl, congrArg PowerSt.moving power, rfl, rfl,
        raised_raiseEv (d := noDetail) (by decide), dormant_modeZero _, fun banks => ?_⟩
      have mask : (outOfDormant s).power.bankMask = s.power.bankMask := by rw [power]
      show ((outOfDormant s).power.coldNext || (outOfDormant s).power.bankMask ≠ 0xFF || (outOfDormant s).vote.restrictive) = true
      rw [mask]
      simp [banks]
    · have toward : nextState s.power.st (powerTarget s.power.votes) = .standby := by
        rw [st, target]
        rfl
      exact ⟨_, (begins .standby (by rw [st]; decide) (by rw [st, target]; decide) toward).trans
        (congrArg Host.Outcome.next (beginMove_down (.inr ⟨st, rfl⟩))), (movingTo_endQuietTests .standby s).1⟩
    · have toward : nextState s.power.st (powerTarget s.power.votes) = .dormant := by
        rw [st]
        exact if_neg (Nat.not_lt.mpr (target.trans (by decide)))
      have power := beginMove_dormant st
      refine ⟨_, begins .dormant (by rw [st]; decide) (by rw [st]; exact Nat.ne_of_lt (Nat.lt_succ_of_le target)) toward, ?_, ?_, ?_, ?_⟩
      all_goals rw [power]
      exact st
  · rcases which with rfl | rfl | rfl
    · exact ⟨_, congrArg Host.Outcome.next (transitionComplete_done moving done supplied reached), raised_arrived .run s, rfl, rfl, rfl, rfl,
        rfl, fun k => absurd k (by decide), fun k => absurd k (by decide)⟩
    · exact ⟨_, congrArg Host.Outcome.next (transitionComplete_done moving done supplied reached), raised_arrived .quiet s, rfl, rfl, rfl, rfl,
        rfl, fun _ => ⟨rfl, rfl, rfl⟩, fun k => absurd k (by decide)⟩
    · have power := power_arrived .dormant s
      rw [power_arrive_dormant] at power
      obtain ⟨bus, told⟩ := bus_arrive_dormant s
      refine ⟨_, congrArg Host.Outcome.next (transitionComplete_done moving done supplied (by rw [power]; exact reached)),
        raised_arrived .dormant s, ?_, ?_, ?_, ?_, ?_, fun k => absurd k (by decide), fun _ => ⟨bus, raised_mono (img := s.imageNo) (d := pwCode .dormant) told, ?_⟩⟩
      all_goals rw [power]
  · have done : moveDone s = true := by
      rw [moveDone, moving]
    have power := power_arrived .standby s
    rw [power_arrive_standby] at power
    obtain ⟨a, b⟩ := halves_arrive_standby s
    refine ⟨_, congrArg Host.Outcome.next (transitionComplete_done moving done supplied (by rw [power]; exact target)), ?_, ?_,
      raised_arrived .standby s, fun n => opened_arrived (opened_arrive_standby s n), a, b, ?_, ?_⟩
    all_goals rw [power]
    rfl

end Sys2Proof.Proofs
end

section
/-! PROOFS. Self-tests, halves out for test, ageing and margins (R579 to R592). -/

namespace Sys2Proof.Proofs

open Sys2Proof Sys2Proof.Machine Sys2Proof.Laws

/-! ## Self-tests commanded -/

section
variable {s : State} {k : Nat}

theorem testOf_modTest (k : Nat) (f : TestInst → TestInst) (s : State) : testOf (modTest k f s) k = f (testOf s k) := tabGet_mod _ _ _ _

theorem testOf_modTest_other {j : Nat} (hj : j ≠ k) (f : TestInst → TestInst) (s : State) : testOf (modTest k f s) j = testOf s j :=
  tabGet_mod_other _ _ _ _ hj

/-- The tests that the instances show are those of the table. -/
theorem testOf_congr {t : State} (h : t.test.insts = s.test.insts) (j : Nat) : testOf t j = testOf s j := by rw [testOf, testOf, h]

/-- A self-test command refused (Table 15.6). -/
theorem testReply_refused {c : Nat} (h : c = 0xA002 ∨ c = 0xA003 ∨ c = 0xA006 ∨ c = 0xA007) (s : State) :
    testReply c s = (testOutcome c s, rFunction, be 2 c) := by
  rcases h with rfl | rfl | rfl | rfl <;> rfl

theorem testRunFn_nowhere {target inst slices : Nat} (h : instKey? inst = none) :
    testRunFn target inst slices s = (testOutcome 0xA002 s, rFunction, be 2 0xA002) := by
  rw [testRunFn, h]
  exact testReply_refused (.inl rfl) s

/-- What a self-test begun holds (R580). -/
def testBegun (target slices k : Nat) (s : State) : TestInst :=
  { testOf s k with target := target, ts := .running, done := 0, next := 0, last := 0xA001, stop := false, due := s.ns, fail := 0
                    total := if slices = 0 then testSlices s target else min slices (testSlices s target) }

section
variable {target inst slices : Nat} (key : instKey? inst = some k)
include key

theorem testRunFn_refused {c : Nat} (why : (targetFits target k = false ∨ isolated s k = false) ∧ c = 0xA002 ∨
    targetFits target k = true ∧ isolated s k = true ∧ (testOf s k).ts = .running ∧ c = 0xA006 ∨
    targetFits target k = true ∧ isolated s k = true ∧ (testOf s k).ts ≠ .running ∧ s.test.budget < fixedSlice target ∧ c = 0xA003) :
    testRunFn target inst slices s = (testOutcome c s, rFunction, be 2 c) := by
  rw [testRunFn, key]
  dsimp only
  rcases why with ⟨misfit, rfl⟩ | ⟨fits, alone, running, rfl⟩ | ⟨fits, alone, idle, short, rfl⟩
  · rw [if_pos (by simpa using misfit)]
    rfl
  · rw [if_neg (by simp [fits, alone]), if_pos running]
    rfl
  · rw [if_neg (by simp [fits, alone]), if_neg idle, if_pos short]
    rfl

theorem testRunFn_begins (fits : targetFits target k = true) (alone : isolated s k = true) (idle : (testOf s k).ts ≠ .running)
    (budget : fixedSlice target ≤ s.test.budget) : testRunFn target inst slices s =
      (testOutcome 0xA001 (raiseEv 73 inst (modTest k (fun _ => testBegun target slices k s) s)), rOk, []) := by
  rw [testRunFn, key]
  dsimp only
  rw [if_neg (by simp [fits, alone]), if_neg idle, if_neg (Nat.not_lt.mpr budget)]
  rfl

end

theorem testStopFn_nowhere {inst : Nat} (h : instKey? inst = none) :
    testStopFn inst s = (testOutcome 0xA002 s, rFunction, be 2 0xA002) := by
  rw [testStopFn, h]
  exact testReply_refused (.inl rfl) s

section
variable {inst : Nat} (key : instKey? inst = some k)
include key

theorem testStopFn_idle (idle : (testOf s k).ts ≠ .running) : testStopFn inst s = (testOutcome 0xA005 s, rOk, []) := by
  rw [testStopFn, key]
  dsimp only
  rw [if_pos idle]
  rfl

theorem testStopFn_running (running : (testOf s k).ts = .running) : testStopFn inst s =
    if s.ns < (testOf s k).due then (testOutcome 0xA005 (endTest k .stopped 0xA005 s), rOk, [])
    else (testOutcome 0xA005 (modTest k (fun t => { t with stop := true }) s), rOk, []) := by
  rw [testStopFn, key]
  dsimp only
  rw [if_neg (not_not.mpr running)]
  split <;> rfl

end

/-- A test that ends with an outcome, event 73 (R582). -/
theorem endTest_spec (k : Nat) (ts : TestState) (code : Nat) (s : State) :
    (endTest k ts code s).raised 73 ∧ (endTest k ts code s).test.outcome = code ∧
    testOf (endTest k ts code s) k = { testOf s k with ts := ts, last := code, stop := false } ∧
    (∀ j, j ≠ k → testOf (endTest k ts code s) j = testOf s j) ∧
    reported { s with test := (endTest k ts code s).test } (endTest k ts code s) := by
  have insts : (endTest k ts code s).test.insts = (modTest k (fun t => { t with ts := ts, last := code, stop := false }) s).test.insts := rfl
  refine ⟨raised_raiseEv (d := instNo k) (by decide), rfl, ?_, fun j hj => ?_, reported_raiseEv _ _ _⟩
  · rw [testOf_congr insts, testOf_modTest]
  · rw [testOf_congr insts, testOf_modTest_other hj]

end

/-! ## What a slice destroys -/

/-- What a slice destroys is not the record of the tests, nor the time. -/
structure TestsKept (s t : State) : Prop where
  insts : t.test.insts = s.test.insts
  outcome : t.test.outcome = s.test.outcome
  ns : t.ns = s.ns

section
variable {s : State} {target k : Nat}

theorem TestsKept.of_onlyBus {t : State} (h : onlyBus s t) : TestsKept s t := by
  unfold onlyBus at h
  rw [h]
  exact ⟨rfl, rfl, rfl⟩

theorem onlyBus_linkDown (h : Half) (p : Nat) (s : State) : onlyBus s (linkDown h p s) := by
  cases linked : (portOf s h p).link with
  | true =>
    rw [linkDown_linked linked]
    exact onlyBus_nodeLost _ _ _ _ _
  | false =>
    rw [linkDown, if_pos (by simp [linked])]
    rfl

/-- A slice at a half destroys what the half holds of the votes, of Trestle, of its links or of its clock (Table 15.4). -/
theorem destroy_half (half : laneOf? k = none) : TestsKept s (destroy target k s) := by
  rw [destroy, half]
  dsimp only
  split
  · exact ⟨rfl, rfl, rfl⟩
  split
  · exact ⟨rfl, rfl, rfl⟩
  split
  · exact .of_onlyBus (foldl_frame (P := onlyBus s) (fun u p h => onlyBus_trans h (onlyBus_linkDown _ p u)) _ rfl)
  · exact ⟨rfl, rfl, rfl⟩

/-- The tests note a slice at a lane in Quiet. -/
def quietNoted (s : State) : State := if s.power.st = .quiet then { s with test := { s.test with quietLane := true } } else s

theorem quietNoted_eq (s : State) : ∃ q, quietNoted s = { s with test := { s.test with quietLane := q } } := by
  unfold quietNoted
  split
  · exact ⟨true, rfl⟩
  · exact ⟨s.test.quietLane, rfl⟩

section
variable {l : Lane} (lane : laneOf? k = some l)
include lane

theorem destroy_lane_kept (part : target ≠ 1 ∧ target ≠ 2) : destroy target k s = quietNoted s := by
  rw [destroy, lane]
  exact if_neg (by simp [part])

/-- A slice over a lane's working memory loses its state and what is retained of it. -/
theorem destroy_lane_lost (part : target = 1 ∨ target = 2) : destroy target k s = { quietNoted s with
    lanes := triMod (quietNoted s).lanes l (fun x => { x with kernel := { Kernel.init with prog := { ProgSt.init with prog := x.kernel.prog.prog } } })
    power := { (quietNoted s).power with retained := triPut (quietNoted s).power.retained l none } } := by
  rw [destroy, lane]
  exact if_pos (by simp [part])

end

theorem destroy_kept (target k : Nat) (s : State) : TestsKept s (destroy target k s) := by
  cases lane : laneOf? k with
  | none => exact destroy_half lane
  | some l =>
    obtain ⟨q, noted⟩ := quietNoted_eq s
    by_cases part : target = 1 ∨ target = 2
    · rw [destroy_lane_lost lane part, noted]
      exact ⟨rfl, rfl, rfl⟩
    · rw [destroy_lane_kept lane (not_or.mp part), noted]
      exact ⟨rfl, rfl, rfl⟩

end

/-! ## Slices -/

section
variable {s : State} {k inst : Nat}

/-- A slice that passes counts; the next is due 10 ms later (R580). -/
def slicePassed (k : Nat) (s : State) : State :=
  modTest k (fun t => { t with done := t.done + 1, next := t.next + 1, due := s.ns + 10000000 }) s

theorem testSlice_nowhere {fail : Option Nat} (h : instKey? inst = none) : testSlice inst fail s = s := by
  rw [testSlice, h]

section
variable (key : instKey? inst = some k)
include key

theorem testSlice_early {fail : Option Nat} (early : (testOf s k).ts ≠ .running ∨ s.ns < (testOf s k).due) : testSlice inst fail s = s := by
  rw [testSlice, key]
  exact if_pos (by simpa using early)

variable (running : (testOf s k).ts = .running) (due : (testOf s k).due ≤ s.ns)
include running due

theorem testSlice_failed (d : Nat) :
    testSlice inst (some d) s = testFailed k (testOf s k).next d (destroy (testOf s k).target k s) := by
  rw [testSlice, key]
  exact if_neg (by simp [running, due])

theorem testSlice_passed : testSlice inst none s =
    if (testOf s k).total ≤ (testOf s k).next + 1 then endTest k .passed 0 (slicePassed k (destroy (testOf s k).target k s))
    else if (testOf s k).stop then endTest k .stopped 0xA005 (slicePassed k (destroy (testOf s k).target k s))
    else slicePassed k (destroy (testOf s k).target k s) := by
  rw [testSlice, key]
  exact if_neg (by simp [running, due])

end

theorem testOf_slicePassed (k : Nat) (s : State) : testOf (slicePassed k s) k =
    { testOf s k with done := (testOf s k).done + 1, next := (testOf s k).next + 1, due := s.ns + 10000000 } :=
  testOf_modTest k _ s

theorem testOf_slicePassed_other {j : Nat} (hj : j ≠ k) : testOf (slicePassed k s) j = testOf s j := testOf_modTest_other hj _ s

/-- A slice that passes: the test counts it, and ends, is stopped, or goes on (R580, R582). -/
theorem testSlice_passed_spec (key : instKey? inst = some k) (running : (testOf s k).ts = .running) (due : (testOf s k).due ≤ s.ns) :
    ∃ t, testSlice inst none s = t ∧ (∀ j, j ≠ k → testOf t j = testOf s j) ∧ (testOf t k).done = (testOf s k).done + 1 ∧
      ((testOf s k).total ≤ (testOf s k).next + 1 → (testOf t k).ts = .passed ∧ t.test.outcome = 0 ∧ t.raised 73) ∧
      ((testOf s k).next + 1 < (testOf s k).total → (testOf s k).stop = true →
        (testOf t k).ts = .stopped ∧ t.test.outcome = 0xA005 ∧ t.raised 73) ∧
      ((testOf s k).next + 1 < (testOf s k).total → (testOf s k).stop = false →
        (testOf t k).ts = .running ∧ (testOf t k).due = s.ns + 10000000) ∧
      reported { destroy (testOf s k).target k s with test := t.test } t := by
  have kept := destroy_kept (testOf s k).target k s
  have runs := testSlice_passed key running due
  generalize destroy (testOf s k).target k s = u at kept runs
  have slice := testOf_slicePassed k u
  have others (j : Nat) (hj : j ≠ k) : testOf (slicePassed k u) j = testOf s j :=
    (testOf_slicePassed_other hj).trans (testOf_congr kept.insts j)
  rw [testOf_congr kept.insts] at slice
  have ended (ts : TestState) (code : Nat) : (∀ j, j ≠ k → testOf (endTest k ts code (slicePassed k u)) j = testOf s j) ∧
      (testOf (endTest k ts code (slicePassed k u)) k).done = (testOf s k).done + 1 ∧
      (testOf (endTest k ts code (slicePassed k u)) k).ts = ts ∧ (endTest k ts code (slicePassed k u)).test.outcome = code ∧
      (endTest k ts code (slicePassed k u)).raised 73 ∧
      reported { u with test := (endTest k ts code (slicePassed k u)).test } (endTest k ts code (slicePassed k u)) := by
    obtain ⟨told, outcome, own, rest, frame⟩ := endTest_spec k ts code (slicePassed k u)
    rw [slice] at own
    exact ⟨fun j hj => (rest j hj).trans (others j hj), by rw [own], by rw [own], outcome, told, frame⟩
  rw [runs]
  refine ⟨_, rfl, ?_⟩
  by_cases last : (testOf s k).total ≤ (testOf s k).next + 1
  · obtain ⟨rest, done, ts, outcome, told, frame⟩ := ended .passed 0
    rw [if_pos last]
    exact ⟨rest, done, fun _ => ⟨ts, outcome, told⟩, fun more => absurd more (Nat.not_lt.mpr last),
      fun more => absurd more (Nat.not_lt.mpr last), frame⟩
  · rw [if_neg last]
    cases stop : (testOf s k).stop with
    | true =>
      obtain ⟨rest, done, ts, outcome, told, frame⟩ := ended .stopped 0xA005
      exact ⟨rest, done, fun k => absurd k last, fun _ _ => ⟨ts, outcome, told⟩, fun _ k => absurd k (by decide), frame⟩
    | false =>
      refine ⟨others, ?_, fun k => absurd k last, fun _ k => absurd k (by decide), fun _ _ => ⟨?_, ?_⟩, reported_refl _⟩
      · exact congrArg TestInst.done slice
      · exact (congrArg TestInst.ts slice).trans running
      · exact (congrArg TestInst.due slice).trans (by rw [kept.ns])

/-- A test with a failed slice (R584). -/
def sliceFailed (d target : Nat) (t : TestInst) : TestInst :=
  { t with ts := .failed, last := 0xA004, fail := d, stop := false, rerun := some target }

/-- A failed slice told (R584): the Chest record, events 74 and 73. -/
def failTellTest (k slice d : Nat) (s : State) : State :=
  raiseEv 73 (instNo k) (raiseEv 74 (instNo k) (chestWrite 9 (instNo k) 0xA004
    (be 1 (testOf s k).target ++ be 1 (instNo k) ++ be 2 slice ++ be 8 d) (testOutcome 0xA004
      (modTest k (sliceFailed d (testOf s k).target) s))))

/-- A lane held after a failed slice (R584). -/
def heldForTest (x : LaneSt) : LaneSt := { x with ls := .held, line := ⟨false, false⟩, out := none }

/-- After a failed slice the lane is held, or the half stays disabled (R584). -/
theorem testFailed_eq (k slice d : Nat) (s : State) : testFailed k slice d s = match laneOf? k with
    | some l => { failTellTest k slice d s with lanes := triMod (failTellTest k slice d s).lanes l heldForTest }
    | none => disableHalf (keyHalf k) 10 halfDisabled [] (failTellTest k slice d s) := rfl

theorem failTellTest_test (k slice d : Nat) (s : State) : (failTellTest k slice d s).test = (testOutcome 0xA004
    (modTest k (sliceFailed d (testOf s k).target) s)).test := by
  have told : reported _ (failTellTest k slice d s) :=
    reported_trans (reported_chestWrite _ _ _ _ _) (reported_trans (reported_raiseEv _ _ _) (reported_raiseEv _ _ _))
  rw [told.2]

theorem raised_failTellTest (k slice d : Nat) (s : State) : (failTellTest k slice d s).raised 74 ∧ (failTellTest k slice d s).raised 73 :=
  ⟨raised_mono (img := s.imageNo) (d := instNo k) (raised_raiseEv (d := instNo k) (by decide)), raised_raiseEv (d := instNo k) (by decide)⟩

theorem testFailed_spec (k slice d : Nat) (s : State) :
    (∀ j, j ≠ k → testOf (testFailed k slice d s) j = testOf s j) ∧ (testOf (testFailed k slice d s) k).ts = .failed ∧
    (testOf (testFailed k slice d s) k).fail = d ∧ (testOf (testFailed k slice d s) k).last = 0xA004 ∧
    (testFailed k slice d s).test.outcome = 0xA004 ∧ (testFailed k slice d s).raised 74 ∧ (testFailed k slice d s).raised 73 ∧
    (∀ l, laneOf? k = some l → (triGet (testFailed k slice d s).lanes l).ls = .held) ∧
    (laneOf? k = none → (twoGet (testFailed k slice d s).halves (keyHalf k)).inServ = false) := by
  have test := failTellTest_test k slice d s
  obtain ⟨told74, told73⟩ := raised_failTellTest k slice d s
  have kept : (testFailed k slice d s).test = (failTellTest k slice d s).test ∧ (testFailed k slice d s).raised 74 ∧
      (testFailed k slice d s).raised 73 := by
    rw [testFailed_eq]
    generalize failTellTest k slice d s = u at told74 told73
    split
    · exact ⟨rfl, told74, told73⟩
    · rcases disableHalf_cases (keyHalf k) 10 halfDisabled [] u with ⟨same, -⟩ | ⟨told, mono⟩
      · rw [same]
        exact ⟨rfl, told74, told73⟩
      · refine ⟨?_, mono 74 told74, mono 73 told73⟩
        rw [told.2]
        rfl
  obtain ⟨tests, event74, event73⟩ := kept
  rw [test] at tests
  have own := testOf_congr (s := modTest k (sliceFailed d (testOf s k).target) s) (by rw [tests]; rfl)
  have slice_ := testOf_modTest k (sliceFailed d (testOf s k).target) s
  refine ⟨fun j hj => (own j).trans (testOf_modTest_other hj _ s), ?_, ?_, ?_, by rw [tests]; rfl, event74, event73, fun l lane => ?_, fun half => ?_⟩
  · rw [own]
    exact (congrArg TestInst.ts slice_).trans rfl
  · rw [own]
    exact (congrArg TestInst.fail slice_).trans rfl
  · rw [own]
    exact (congrArg TestInst.last slice_).trans rfl
  · rw [testFailed_eq, lane]
    exact (congrArg LaneSt.ls (triGet_mod _ _ _)).trans rfl
  · rw [testFailed_eq, half]
    exact disableHalf_inServ _ _ _ _ _

/-- What a slice that passes leaves beside the tests (Table 15.4). -/
theorem destroy_reported {t : State} (few : k < 3) {target : Nat} (part : target = 3 ∨ target = 4)
    (told : reported { destroy target k s with test := t.test } t) : reported { s with test := t.test } t := by
  obtain ⟨l, lane⟩ : ∃ l, laneOf? k = some l := by
    interval_cases k
    · exact ⟨.a, rfl⟩
    · exact ⟨.b, rfl⟩
    · exact ⟨.c, rfl⟩
  obtain ⟨q, noted⟩ := quietNoted_eq s
  rw [destroy_lane_kept lane (by omega), noted] at told
  exact told

theorem destroy_lane_spec {t : State} {l : Lane} (lane : laneOf? k = some l) {target : Nat} (part : target = 1 ∨ target = 2)
    (told : reported { destroy target k s with test := t.test } t) : triGet t.power.retained l = none ∧
      (∀ m, m ≠ l → triGet t.lanes m = triGet s.lanes m) ∧ t.halves = s.halves := by
  obtain ⟨q, noted⟩ := quietNoted_eq s
  rw [destroy_lane_lost lane part, noted] at told
  have frame := told.2
  refine ⟨?_, fun m hm => ?_, ?_⟩
  · rw [frame]
    exact triGet_put _ _ _
  · rw [frame]
    exact triGet_mod_other _ _ hm
  · rw [frame]

end

end Sys2Proof.Proofs
end

section
/-! PROOFS. Halves taken out for test and restarted (R43, R581). -/

namespace Sys2Proof.Proofs

open Sys2Proof Sys2Proof.Machine Sys2Proof.Laws

/-! ## What the trials and the disabling of a half touch -/

/-- Of the module only the halves with what they send, and the reports, have changed. -/
def halvesOnly (s t : State) : Prop := t = { s with
  free := t.free, halves := t.halves, tres := t.tres, tx := t.tx, bus := t.bus, dict := t.dict, ev := t.ev, book := t.book, chest := t.chest }

section
variable {s t u : State} {h : Half}

theorem halvesOnly_trans (a : halvesOnly s t) (b : halvesOnly t u) : halvesOnly s u := by
  unfold halvesOnly at *
  rw [a] at b
  exact b

theorem halvesOnly_of_reported (r : reported s t) : halvesOnly s t := by
  unfold halvesOnly
  rw [r.2]

theorem disableHalf_reported_frame (h : Half) (cause kind : Nat) (detail : List Byte) (s : State) : reported { s with
    halves := (disableHalf h cause kind detail s).halves, tres := (disableHalf h cause kind detail s).tres
    tx := (disableHalf h cause kind detail s).tx, bus := (disableHalf h cause kind detail s).bus } (disableHalf h cause kind detail s) := by
  rcases disableHalf_cases h cause kind detail s with ⟨same, -⟩ | ⟨told, -⟩
  · rw [same]
    exact reported_refl s
  · generalize disableHalf h cause kind detail s = t at told
    have base : { s with halves := t.halves, tres := t.tres, tx := t.tx, bus := t.bus } = halfDown h cause s := by
      rw [told.2]
      rfl
    rw [base]
    exact told

theorem halvesOnly_disableHalf (h : Half) (cause kind : Nat) (detail : List Byte) (s : State) :
    halvesOnly s (disableHalf h cause kind detail s) := by
  have frame := halvesOnly_of_reported (disableHalf_reported_frame h cause kind detail s)
  unfold halvesOnly at frame ⊢
  exact frame

theorem halvesOnly_stepThree (i : StartIn) (h : Half) (s : State) : halvesOnly s (stepThree i h s) := by
  unfold stepThree
  extract_lets v good s1 s2 s3
  have h2 : halvesOnly s s2 := by
    unfold s2
    split <;> rfl
  have h3 : halvesOnly s s3 := by
    unfold s3
    split
    · exact h2
    · exact halvesOnly_trans (halvesOnly_trans h2 (halvesOnly_disableHalf _ _ _ _ _)) rfl
  split
  · rfl
  · split
    · exact h3
    · refine halvesOnly_trans ?_ (halvesOnly_disableHalf _ _ _ _ _)
      exact halvesOnly_trans h3 rfl

/-- Good trials and vectors leave the bus as it is. -/
theorem stepThree_good_bus (i : StartIn) (trials : (twoGet i.voter h).1 = 0) (vectors : (twoGet i.vec h).isNone = true) :
    (stepThree i h s).bus = s.bus := by
  unfold stepThree
  extract_lets v good s1 s2 s3
  have tried : s3 = s2 := if_pos trials
  have bus2 : s2.bus = s.bus := by
    unfold s2
    split <;> rfl
  split
  · rfl
  · rw [Option.isNone_iff_eq_none.mp vectors, tried]
    exact bus2

end

/-! ## A half taken out -/

section
variable {s : State} {inst : Nat} {h : Half}

theorem reported_test {s t : State} (r : reported s t) (x : TestSt) : reported { s with test := x } { t with test := x } :=
  ⟨r.1, congrArg (fun u : State => { u with test := x }) r.2⟩

theorem takeOutFn_nowhere (none : instHalf? inst = none) : takeOutFn inst s = (testOutcome 0xA002 s, rFunction, be 2 0xA002) := by
  rw [takeOutFn, none]
  exact testReply_refused (.inl rfl) s

/-- The half out of service and out for test (R581). -/
def takenOut (h : Half) (inst : Nat) (s : State) : State :=
  testOutcome 0 (raiseEv 73 inst { disableHalf h 10 halfDisabled [] s with
    test := { (disableHalf h 10 halfDisabled [] s).test with halfOut := twoPut (disableHalf h 10 halfDisabled [] s).test.halfOut h true } })

variable (half : instHalf? inst = some h)
include half

theorem takeOutFn_judged : takeOutFn inst s =
    if (testOf s (3 + halfNo h)).ts = .running then (testOutcome 0xA006 s, rFunction, be 2 0xA006)
    else if (twoGet s.halves (otherHalf h)).inServ = false ∨ modeOf s ≠ 0 ∧ modeOf s ≠ 1 then (testOutcome 0xA007 s, rFunction, be 2 0xA007)
    else (takenOut h inst s, rOk, []) := by
  have barred : (!(twoGet s.halves (otherHalf h)).inServ || (modeOf s ≠ 0 && modeOf s ≠ 1)) = true ↔
      (twoGet s.halves (otherHalf h)).inServ = false ∨ modeOf s ≠ 0 ∧ modeOf s ≠ 1 := by simp
  rw [takeOutFn, half]
  dsimp only
  rw [if_congr barred rfl rfl]
  rfl

end

/-- What taking a half out does (R581). -/
theorem takenOut_spec (h : Half) (inst : Nat) (s : State) : (takenOut h inst s).raised 73 ∧
    (twoGet (takenOut h inst s).halves h).inServ = false ∧
    twoGet (takenOut h inst s).halves (otherHalf h) = twoGet s.halves (otherHalf h) ∧ twoGet (takenOut h inst s).test.halfOut h = true ∧
    twoGet (takenOut h inst s).test.halfOut (otherHalf h) = twoGet s.test.halfOut (otherHalf h) ∧
    (takenOut h inst s).test.insts = s.test.insts ∧
    reported { s with
      halves := (takenOut h inst s).halves, tres := (takenOut h inst s).tres, tx := (takenOut h inst s).tx
      bus := (takenOut h inst s).bus, test := (takenOut h inst s).test } (takenOut h inst s) := by
  have other : otherHalf h ≠ h := by cases h <;> decide
  have out := disableHalf_inServ h 10 halfDisabled [] s
  have rest := disableHalf_other other 10 halfDisabled [] s
  have frame := disableHalf_reported_frame h 10 halfDisabled [] s
  unfold takenOut
  generalize disableHalf h 10 halfDisabled [] s = u at out rest frame
  have test : u.test = s.test := by rw [frame.2]
  refine ⟨raised_raiseEv (d := inst) (by decide), out, rest, twoGet_put _ _ _, ?_, ?_, ?_⟩
  · exact (twoGet_put_other _ _ other).trans (by rw [test])
  · show u.test.insts = _
    rw [test]
  · exact reported_trans (reported_test frame _) (reported_raiseEv 73 inst _)

/-! ## A half restarted -/

/-- A star port whose half restarts. -/
def portRestarted (p : PortSt) : PortSt := { p with rx := none, base := PortSt.init.base }

/-- The clock that a half starts from: the other half's, when that is in service (R43). -/
def restartClock (h : Half) (s : State) : HalfClock :=
  if (twoGet s.halves (otherHalf h)).inServ then twoGet s.time.halves (otherHalf h) else twoGet s.time.halves h

/-- A half in service again, before its trials (R43, R581). -/
def halfRestarted (h : Half) (s : State) : State := { s with
  halves := twoPut s.halves h { HalfSt.init with inServ := true }
  tres := twoPut s.tres h TrestleSt.init
  tx := twoPut s.tx h TxSt.init
  busImg := twoPut s.busImg h BusImage.init
  lanes := triMap s.lanes (fun _ x => if x.ls = .inVote then { x with line := twoPut x.line h true } else x)
  env := tabMap s.env (fun _ v => { v with permBase := twoPut v.permBase h none })
  lio := { s.lio with pairs := twoPut s.lio.pairs h [] }
  time := { s.time with halves := twoPut s.time.halves h (restartClock h s) }
  test := { s.test with halfOut := twoPut s.test.halfOut h false }
  bus := { s.bus with chans := twoMod s.bus.chans h (fun x => { x with
    st := .listening, since := s.ns, starter := false, ports := tabMap x.ports (fun _ p => portRestarted p) }) } }

/-- The trials of a half that restarts (R581). -/
def halfTried (h : Half) (i : StartIn) (s : State) : State :=
  stepThree i h (halfRestarted h (abortTests (· = 3 + halfNo h) s))

/-- The graph loaded at the half that restarts (R258). -/
def graphLoaded (h : Half) (s : State) : State :=
  { s with tres := twoMod s.tres h (fun t => { t with lock := true, graphCheck := crcOf crc64 (Config.graphBytes s.cfg) }) }

theorem restartHalf_eq (h : Half) (i : StartIn) (s : State) : restartHalf h i s =
    if !(twoGet (halfTried h i s).halves h).inServ || (halfTried h i s).power.unconfigured then halfTried h i s
    else if twoGet i.graph h then graphLoaded h (halfTried h i s)
    else disableHalf h 5 halfDisabled [] (graphLoaded h (halfTried h i s)) := rfl

section
variable (h : Half) (i : StartIn) (s : State)

/-- A restart leaves of the module what the half that restarts does not hold. -/
theorem halvesOnly_restartHalf : halvesOnly (halfRestarted h (abortTests (· = 3 + halfNo h) s)) (restartHalf h i s) := by
  have tried := halvesOnly_stepThree i h (halfRestarted h (abortTests (· = 3 + halfNo h) s))
  have loaded : halvesOnly (halfRestarted h (abortTests (· = 3 + halfNo h) s)) (graphLoaded h (halfTried h i s)) :=
    halvesOnly_trans tried rfl
  rw [restartHalf_eq]
  split
  · exact tried
  split
  · exact loaded
  · exact halvesOnly_trans loaded (halvesOnly_disableHalf _ _ _ _ _)

theorem restartHalf_other : twoGet (restartHalf h i s).halves (otherHalf h) = twoGet s.halves (otherHalf h) := by
  have other : otherHalf h ≠ h := by cases h <;> decide
  have halves : (abortTests (· = 3 + halfNo h) s).halves = s.halves := by rw [(abortTests_frame _ s).2]
  have tried : twoGet (halfTried h i s).halves (otherHalf h) = twoGet s.halves (otherHalf h) := by
    rw [halfTried, stepThree_other other, ← halves]
    exact twoGet_put_other _ _ other
  rw [restartHalf_eq]
  split
  · exact tried
  split
  · exact tried
  · exact (disableHalf_other other _ _ _ _).trans tried

/-- The lanes in vote raise their status lines to the half that restarts; nothing else of a lane changes. -/
theorem restartHalf_kept : twoGet (restartHalf h i s).test.halfOut h = false ∧ (restartHalf h i s).cfg = s.cfg ∧
    ∀ l, (triGet (restartHalf h i s).lanes l).kernel = (triGet s.lanes l).kernel ∧ (triGet (restartHalf h i s).lanes l).ls = (triGet s.lanes l).ls := by
  have frame := halvesOnly_restartHalf h i s
  unfold halvesOnly at frame
  have lanes : (abortTests (· = 3 + halfNo h) s).lanes = s.lanes := by rw [(abortTests_frame _ s).2]
  have cfg : (abortTests (· = 3 + halfNo h) s).cfg = s.cfg := by rw [(abortTests_frame _ s).2]
  have test : (restartHalf h i s).test = (halfRestarted h (abortTests (· = 3 + halfNo h) s)).test := by rw [frame]
  have lanes' : (restartHalf h i s).lanes = (halfRestarted h (abortTests (· = 3 + halfNo h) s)).lanes := by rw [frame]
  have cfg' : (restartHalf h i s).cfg = (halfRestarted h (abortTests (· = 3 + halfNo h) s)).cfg := by rw [frame]
  rw [test, lanes', cfg']
  refine ⟨twoGet_put _ _ _, cfg, fun l => ?_⟩
  have lane : triGet (halfRestarted h (abortTests (· = 3 + halfNo h) s)).lanes l = if (triGet s.lanes l).ls = .inVote then
      { triGet s.lanes l with line := twoPut (triGet s.lanes l).line h true } else triGet s.lanes l := by
    rw [← lanes]
    exact triGet_map _ _ _
  rw [lane]
  split <;> exact ⟨rfl, rfl⟩

/-- A half with good trials, vectors and graph is in service with its channel listening (R43, R581). -/
theorem restartHalf_good (trials : (twoGet i.voter h).1 = 0) (vectors : (twoGet i.vec h).isNone = true) (graph : twoGet i.graph h = true) :
    (twoGet (restartHalf h i s).halves h).inServ = true ∧ (twoGet (restartHalf h i s).halves h).voter = true ∧
    (twoGet (restartHalf h i s).bus.chans h).st = .listening := by
  have started : (twoGet (halfRestarted h (abortTests (· = 3 + halfNo h) s)).halves h).inServ = true :=
    congrArg HalfSt.inServ (twoGet_put _ _ _)
  obtain ⟨inServ, voter⟩ := stepThree_good started trials vectors
  have bus : (halfTried h i s).bus = (halfRestarted h (abortTests (· = 3 + halfNo h) s)).bus := stepThree_good_bus i trials vectors
  have listening : (twoGet (halfTried h i s).bus.chans h).st = .listening := by
    rw [bus]
    exact congrArg ChanSt.st (twoGet_mod _ _ _)
  rw [restartHalf_eq, if_pos graph]
  split
  · exact ⟨inServ, voter, listening⟩
  · exact ⟨inServ, voter, listening⟩

theorem restartHalf_bad (failed : (twoGet i.voter h).1 ≠ 0) : (twoGet (restartHalf h i s).halves h).inServ = false := by
  have out : (twoGet (halfTried h i s).halves h).inServ = false := stepThree_bad failed
  rw [restartHalf_eq, if_pos (by simp [out])]
  exact out

end

section
variable {s : State} {inst : Nat} {h : Half} {i : StartIn} (half : instHalf? inst = some h)
include half

theorem restartHalfFn_inService (inServ : (twoGet s.halves h).inServ = true) :
    restartHalfFn inst i s = (testOutcome 0xA007 s, rFunction, be 2 0xA007) := by
  rw [restartHalfFn, half]
  exact if_pos inServ

theorem restartHalfFn_restarts (out : (twoGet s.halves h).inServ = false) :
    restartHalfFn inst i s = (testOutcome 0 (raiseEv 73 inst (restartHalf h i s)), rOk, []) := by
  rw [restartHalfFn, half]
  exact if_neg (by simp [out])

end

end Sys2Proof.Proofs
end

section
/-! PROOFS. Ageing and margins (R586 to R592), and O50 from them, the self-tests and the halves out for test. -/

namespace Sys2Proof.Proofs

open Sys2Proof Sys2Proof.Machine Sys2Proof.Laws

/-! ## Margins measured -/

section
variable {s : State} {index sub margin : Nat}

theorem ageItemOf_modAge (key : Nat) (f : AgeItem → AgeItem) (s : State) : ageItemOf (modAge key f s) key = f (ageItemOf s key) :=
  tabGet_mod _ _ _ _

theorem ageItemOf_modAge_other {key k : Nat} (hk : k ≠ key) (f : AgeItem → AgeItem) (s : State) :
    ageItemOf (modAge key f s) k = ageItemOf s k :=
  tabGet_mod_other _ _ _ _ hk

theorem ageItemOf_congr {t : State} (h : t.age.items = s.age.items) (key : Nat) : ageItemOf t key = ageItemOf s key := by
  rw [ageItemOf, ageItemOf, h]

/-- A margin noted at its item (R588). -/
def marginNoted (index sub margin : Nat) (s : State) : State := modAge (ageKey index sub) (fun x => { x with
  margin := margin, warned := margin ≤ warnLevel s (ageKey index sub), sum := x.sum + margin, samples := x.samples + 1 }) s

/-- A margin noted, with event 69 once at its warning level (R588). -/
def warnTold (index sub margin : Nat) (s : State) : State :=
  if margin ≤ warnLevel s (ageKey index sub) && !(ageItemOf s (ageKey index sub)).warned then
    raiseEv 69 index (marginNoted index sub margin s)
  else marginNoted index sub margin s

/-- The power-fail threshold raised, event 71 (R591). -/
def thresholdRaised (s : State) : State :=
  raiseEv 71 noDetail { s with age := { s.age with threshold := min 16500 (s.age.threshold + 100) } }

theorem warnTold_kept (index sub margin : Nat) (s : State) : (warnTold index sub margin s).age = (marginNoted index sub margin s).age ∧
    reported (marginNoted index sub margin s) (warnTold index sub margin s) := by
  unfold warnTold
  split
  · exact ⟨rfl, reported_raiseEv _ _ _⟩
  · exact ⟨rfl, reported_refl _⟩

theorem raised_warnTold (low : margin ≤ warnLevel s (ageKey index sub)) (first : (ageItemOf s (ageKey index sub)).warned = false) :
    (warnTold index sub margin s).raised 69 := by
  rw [warnTold, if_pos (by simp [low, first])]
  exact raised_raiseEv (by decide)

theorem threshold_warnTold (index sub margin : Nat) (s : State) : (warnTold index sub margin s).age.threshold = s.age.threshold :=
  (congrArg AgeSt.threshold (warnTold_kept index sub margin s).1).trans rfl

theorem ageing_rises (action : index = 0x3603 ∧ margin ≤ 40 ∧ s.age.threshold < 16500) :
    ageing index sub margin s = thresholdRaised (warnTold index sub margin s) := by
  obtain ⟨item, low, room⟩ := action
  refine if_pos ?_
  have threshold := threshold_warnTold index sub margin s
  show (decide (index = 0x3603) && decide (margin ≤ 40) && decide ((warnTold index sub margin s).age.threshold < thresholdMax)) = true
  rw [threshold]
  simp [item, low, room, thresholdMax]

theorem ageing_stays (none : index ≠ 0x3603 ∨ 40 < margin ∨ 16500 ≤ s.age.threshold) :
    ageing index sub margin s = warnTold index sub margin s := by
  refine if_neg ?_
  have threshold := threshold_warnTold index sub margin s
  show ¬(decide (index = 0x3603) && decide (margin ≤ 40) && decide ((warnTold index sub margin s).age.threshold < thresholdMax)) = true
  rw [threshold, Bool.and_eq_true, Bool.and_eq_true, decide_eq_true_eq, decide_eq_true_eq, decide_eq_true_eq]
  rintro ⟨⟨item, low⟩, room⟩
  rcases none with k | k | k
  · exact k item
  · exact absurd low (Nat.not_le.mpr k)
  · exact absurd room (Nat.not_lt.mpr k)

theorem reported_age {s t : State} (r : reported s t) (x : AgeSt) : reported { s with age := x } { t with age := x } :=
  ⟨r.1, congrArg (fun u : State => { u with age := x }) r.2⟩

/-- What a measurement leaves (R588, R591). -/
theorem ageing_spec (index sub margin : Nat) (s : State) :
    (ageing index sub margin s).age.items = (marginNoted index sub margin s).age.items ∧
    ((warnTold index sub margin s).raised 69 → (ageing index sub margin s).raised 69) ∧
    (index = 0x3603 → margin ≤ 40 → s.age.threshold < 16500 →
      (ageing index sub margin s).raised 71 ∧ (ageing index sub margin s).age.threshold = min 16500 (s.age.threshold + 100)) ∧
    ((index ≠ 0x3603 ∨ 40 < margin ∨ 16500 ≤ s.age.threshold) → (ageing index sub margin s).age.threshold = s.age.threshold) ∧
    reported { s with age := { s.age with
      items := (ageing index sub margin s).age.items, threshold := (ageing index sub margin s).age.threshold } } (ageing index sub margin s) := by
  obtain ⟨age, told⟩ := warnTold_kept index sub margin s
  have threshold := threshold_warnTold index sub margin s
  by_cases action : index = 0x3603 ∧ margin ≤ 40 ∧ s.age.threshold < 16500
  · rw [ageing_rises action]
    generalize warnTold index sub margin s = w at age told threshold
    have raised : thresholdRaised w = raiseEv 71 noDetail { w with age := { (marginNoted index sub margin s).age with
        threshold := min 16500 (s.age.threshold + 100) } } := by
      rw [thresholdRaised, threshold, age]
    rw [raised]
    refine ⟨rfl, fun h => raised_mono (img := s.imageNo) (d := noDetail) h, fun _ _ _ =>
      ⟨raised_raiseEv (d := noDetail) (by decide), rfl⟩, fun none => by omega, ?_⟩
    exact reported_trans (reported_age told _) (reported_raiseEv 71 noDetail _)
  · have none : index ≠ 0x3603 ∨ 40 < margin ∨ 16500 ≤ s.age.threshold := by omega
    rw [ageing_stays none]
    refine ⟨congrArg AgeSt.items age, id, fun item low room => absurd ⟨item, low, room⟩ action, fun _ => threshold, ?_⟩
    rw [age]
    exact told

end

/-! ## Clocks, refreshes and the rotation -/

section
variable {s : State} {l : Lane}

/-- A lane stepped to 1.0 GHz, event 68 (R589). -/
def clockStepped (l : Lane) (s : State) : State :=
  raiseEv 68 (laneNo l) { s with lanes := triMod s.lanes l (fun x => { x with redclk := true }) }

theorem clockStep_action (low : timingMargin s l ≤ 10) (full : (triGet s.lanes l).redclk = false) :
    clockStep l true s = clockStepped l s := if_pos (by simp [low, full])

theorem clockStep_deferred : clockStep l false s = s := if_neg (by simp)

theorem clockStep_none {inTime : Bool} (none : 10 < timingMargin s l ∨ (triGet s.lanes l).redclk = true) : clockStep l inTime s = s := by
  refine if_neg ?_
  rcases none with k | k
  · simp [Nat.not_le.mpr k]
  · simp [k]

theorem norRefresh_fine {good : Bool} (fine : 40 < (ageItemOf s (ageKey 0x3602 (laneNo l + 1))).margin) : norRefresh l good s = s :=
  if_pos fine

theorem norRefresh_action {good : Bool} (low : (ageItemOf s (ageKey 0x3602 (laneNo l + 1))).margin ≤ 40) :
    norRefresh l good s = if good then raiseEv 70 (laneNo l) s else excludeLane l 0x05 [] s := if_neg (Nat.not_lt.mpr low)

theorem rotationSlow_told (slow : slowImages < (triGet s.test.ist l).images) (first : (triGet s.test.ist l).slow = false) :
    rotationSlow l s = raiseEv 75 (laneNo l) { s with test := { s.test with ist := triPut s.test.ist l { triGet s.test.ist l with slow := true } } } :=
  if_pos (by simp [slow, first])

theorem rotationSlow_none (none : (triGet s.test.ist l).images ≤ slowImages ∨ (triGet s.test.ist l).slow = true) : rotationSlow l s = s := by
  refine if_neg ?_
  rcases none with k | k
  · simp [Nat.not_lt.mpr k]
  · simp [k]

theorem clockRestoreFn_lane {v : Nat} (lane : laneOf? v = some l) :
    clockRestoreFn v s = ({ s with age := { s.age with restore := triPut s.age.restore l true } }, rOk, []) := by
  rw [clockRestoreFn, lane]

theorem clockRestoreFn_none {v : Nat} (none : laneOf? v = none) : clockRestoreFn v s = (s, rRange, []) := by
  rw [clockRestoreFn, none]

end

/-! ## Forecasts -/

/-- An item with the day's mean joined to the last 180 (R592). -/
def dayMean (x : AgeItem) : AgeItem :=
  if x.samples = 0 then x else { x with means := ((x.sum * 1000 / x.samples) :: x.means).take 180, sum := 0, samples := 0 }

/-- An item at the end of a day (R592). -/
def dayItem (s : State) (key : Nat) (x : AgeItem) : AgeItem := { dayMean x with forecast := forecast (warnLevel s key) (dayMean x) }

theorem items_forecastDay (s : State) : (forecastDay s).age.items = tabMap s.age.items (dayItem s) := rfl

theorem dayMean_spec (x : AgeItem) : (dayMean x).samples = 0 ∧ (dayMean x).margin = x.margin ∧ (dayMean x).warned = x.warned ∧
    (x.samples ≠ 0 → (dayMean x).means = ((x.sum * 1000 / x.samples) :: x.means).take 180) ∧ (x.samples = 0 → (dayMean x).means = x.means) := by
  unfold dayMean
  split
  next none => exact ⟨none, rfl, rfl, fun k => absurd none k, fun _ => rfl⟩
  next some_ => exact ⟨rfl, rfl, rfl, fun _ => rfl, fun k => absurd k some_⟩

/-! ## O50 -/

section
variable {s : State} {n inst : Nat} (allowed : s.allows n .maintainer false)
include allowed

/-- A self-test that begins (R579, R580). -/
theorem selfTestRun_begins {target slices k : Nat} (key : instKey? inst = some k) (fits : targetFits target k = true)
    (alone : isolated s k = true) (idle : (testOf s k).ts ≠ .running) (budget : fixedSlice target ≤ s.test.budget) :
    ∃ t, exec (.selfTestRun n target inst slices) s = .next t ∧ t.raised 73 ∧ t.dict.result = 0 ∧ t.test.outcome = 0xA001 ∧
      (testOf t k).ts = .running ∧ (testOf t k).target = target ∧ (testOf t k).done = 0 ∧ (testOf t k).next = 0 ∧
      (testOf t k).total = (if slices = 0 then testSlices s target else min slices (testSlices s target)) ∧
      (∀ j, j ≠ k → testOf t j = testOf s j) ∧ reported { s with test := t.test } t := by
  have begun := next_asSession allowed (testRunFn_begins (slices := slices) key fits alone idle budget)
  have own := testOf_modTest k (fun _ => testBegun target slices k s) s
  have insts : (withResult (rOk, []) (testOutcome 0xA001 (raiseEv 73 inst (modTest k (fun _ => testBegun target slices k s) s)))).test.insts =
      (modTest k (fun _ => testBegun target slices k s) s).test.insts := rfl
  have shown := (testOf_congr insts k).trans own
  refine ⟨_, begun, raised_raiseEv (d := inst) (by decide), rfl, rfl, ?_, ?_, ?_, ?_, ?_, fun j hj =>
    (testOf_congr insts j).trans (testOf_modTest_other hj _ s), reported_withResult_raiseEv (rOk, []) 73 inst _⟩
  all_goals rw [shown]; rfl

/-- A test under way that is stopped (R582). -/
theorem selfTestStop_running {k : Nat} (key : instKey? inst = some k) (running : (testOf s k).ts = .running) :
    (s.ns < (testOf s k).due → ∃ t, exec (.selfTestStop n inst) s = .next t ∧ t.raised 73 ∧
      t.dict.result = 0 ∧ t.test.outcome = 0xA005 ∧ testOf t k = { testOf s k with ts := .stopped, last := 0xA005, stop := false } ∧
      (∀ j, j ≠ k → testOf t j = testOf s j) ∧ reported { s with test := t.test } t) ∧
    ((testOf s k).due ≤ s.ns → ∃ t, exec (.selfTestStop n inst) s = .next t ∧ t.dict.result = 0 ∧
      testOf t k = { testOf s k with stop := true } ∧ (∀ j, j ≠ k → testOf t j = testOf s j) ∧ reported { s with test := t.test } t) := by
  have runs := testStopFn_running key running
  refine ⟨fun between => ?_, fun during => ?_⟩
  · rw [if_pos between] at runs
    obtain ⟨told, -, own, others, frame⟩ := endTest_spec k .stopped 0xA005 s
    have insts : (withResult (rOk, []) (testOutcome 0xA005 (endTest k .stopped 0xA005 s))).test.insts =
      (endTest k .stopped 0xA005 s).test.insts := rfl
    exact ⟨_, next_asSession allowed runs, told, rfl, rfl, (testOf_congr insts k).trans own, fun j hj =>
      (testOf_congr insts j).trans (others j hj), reported_trans (reported_test frame _) (reported_withResult (rOk, []) _)⟩
  · rw [if_neg (Nat.not_lt.mpr during)] at runs
    have insts : (withResult (rOk, []) (testOutcome 0xA005 (modTest k (fun t => { t with stop := true }) s))).test.insts =
      (modTest k (fun t => { t with stop := true }) s).test.insts := rfl
    have own := testOf_modTest k (fun t => { t with stop := true }) s
    exact ⟨_, next_asSession allowed runs, rfl, (testOf_congr insts k).trans own, fun j hj =>
      (testOf_congr insts j).trans (testOf_modTest_other hj _ s), reported_withResult (rOk, []) (testOutcome 0xA005
        (modTest k (fun t => { t with stop := true }) s))⟩

/-- What a command that takes a half out or restarts it does (R43, R581). -/
theorem takeHalfOut_takes {h : Half} (half : instHalf? inst = some h) (idle : (testOf s (3 + halfNo h)).ts ≠ .running)
    (other : (twoGet s.halves (otherHalf h)).inServ = true) (mode : modeOf s = 0 ∨ modeOf s = 1) :
    ∃ t, exec (.takeHalfOut n inst) s = .next t ∧ t.raised 73 ∧ t.dict.result = 0 ∧ (twoGet t.halves h).inServ = false ∧
      twoGet t.halves (otherHalf h) = twoGet s.halves (otherHalf h) ∧ twoGet t.test.halfOut h = true ∧
      twoGet t.test.halfOut (otherHalf h) = twoGet s.test.halfOut (otherHalf h) ∧ t.test.insts = s.test.insts ∧
      reported { s with halves := t.halves, tres := t.tres, tx := t.tx, bus := t.bus, test := t.test } t := by
  have runs := takeOutFn_judged half (s := s)
  rw [if_neg idle, if_neg (by rw [other]; rcases mode with k | k <;> simp [k])] at runs
  obtain ⟨told, out, rest, halfOut, otherOut, insts, frame⟩ := takenOut_spec h inst s
  exact ⟨_, next_asSession allowed runs, told, rfl, out, rest, halfOut, otherOut, insts, reported_trans frame (reported_withResult (rOk, []) _)⟩

theorem restartHalf_restarts {h : Half} (half : instHalf? inst = some h) (i : StartIn) (out : (twoGet s.halves h).inServ = false) :
    ∃ t, exec (.restartHalf n inst i) s = .next t ∧ t.raised 73 ∧ t.dict.result = 0 ∧
      twoGet t.test.halfOut h = false ∧ twoGet t.halves (otherHalf h) = twoGet s.halves (otherHalf h) ∧ t.cfg = s.cfg ∧
      (∀ l, (triGet t.lanes l).kernel = (triGet s.lanes l).kernel ∧ (triGet t.lanes l).ls = (triGet s.lanes l).ls) ∧
      ((twoGet i.voter h).1 = 0 → (twoGet i.vec h).isNone = true → twoGet i.graph h = true →
        (twoGet t.halves h).inServ = true ∧ (twoGet t.halves h).voter = true ∧ (twoGet t.bus.chans h).st = .listening) ∧
      ((twoGet i.voter h).1 ≠ 0 → (twoGet t.halves h).inServ = false) := by
  obtain ⟨halfOut, cfg, lanes⟩ := restartHalf_kept h i s
  have other := restartHalf_other h i s
  have good := restartHalf_good h i s
  have bad := restartHalf_bad h i s
  have runs := restartHalfFn_restarts (i := i) half out
  generalize restartHalf h i s = u at halfOut cfg lanes other good bad runs
  exact ⟨_, next_asSession allowed runs, raised_raiseEv (d := inst) (by decide), rfl, halfOut, other, cfg, lanes, good, bad⟩

end

/-- Settles O50: self-tests, halves out for test, and ageing. -/
theorem testsAndAgeing : Obligations.TestsAndAgeing := by
  refine ⟨fun s n inst allowed => ⟨fun target slices none => next_asSession allowed (testRunFn_nowhere none), fun target slices k c key why =>
      next_asSession allowed (testRunFn_refused key why), fun target slices k key fits alone idle budget =>
      selfTestRun_begins allowed key fits alone idle budget, fun none => next_asSession allowed (testStopFn_nowhere none),
      fun k key => ⟨fun idle => next_asSession allowed (testStopFn_idle key idle), fun running => (selfTestStop_running allowed key running).1,
        fun running => (selfTestStop_running allowed key running).2⟩,
      fun h half => ⟨fun running => ?_, fun idle barred => ?_, takeHalfOut_takes allowed half, fun i inServ => ?_,
        fun i out => restartHalf_restarts allowed half i out⟩,
      fun none => next_asSession allowed (takeOutFn_nowhere none)⟩,
    fun s inst fail => ⟨fun none => congrArg Host.Outcome.next (testSlice_nowhere none), fun k key =>
      ⟨fun early => congrArg Host.Outcome.next (testSlice_early key early), fun running due => ?_⟩⟩,
    fun s index sub margin item few => ?_,
    fun s l => ⟨fun low full => ?_, congrArg Host.Outcome.next clockStep_deferred, fun b none => congrArg Host.Outcome.next (clockStep_none none),
      fun b fine => congrArg Host.Outcome.next (norRefresh_fine fine), fun low => ⟨?_, fun voting => ?_⟩, fun slow first => ?_,
      fun none => congrArg Host.Outcome.next (rotationSlow_none none)⟩,
    fun s n v allowed => ⟨fun l lane => ?_, fun none => next_asSession allowed (clockRestoreFn_none none)⟩, fun s => ?_⟩
  · exact next_asSession allowed ((takeOutFn_judged half).trans (if_pos running))
  · exact next_asSession allowed ((takeOutFn_judged half).trans ((if_neg idle).trans (if_pos barred)))
  · exact next_asSession allowed (restartHalfFn_inService half inServ)
  · cases fail with
    | none =>
      obtain ⟨t, runs, others, done, passed, stopped, goesOn, told⟩ := testSlice_passed_spec key running due
      exact ⟨t, congrArg Host.Outcome.next runs, others, fun _ => ⟨done, passed, stopped, goesOn, fun lane part => destroy_reported lane part told,
        fun l lane part => destroy_lane_spec lane part told⟩, fun d k => absurd k (by simp)⟩
    | some d =>
      have kept := destroy_kept (testOf s k).target k s
      obtain ⟨others, ts, detail, last, outcome, told74, told73, lane, half⟩ :=
        testFailed_spec k (testOf s k).next d (destroy (testOf s k).target k s)
      refine ⟨_, congrArg Host.Outcome.next (testSlice_failed key running due d), fun j hj =>
        (others j hj).trans (testOf_congr kept.insts j), fun k => absurd k (by simp), fun d' same => ?_⟩
      cases same
      exact ⟨ts, detail, last, outcome, told74, told73, lane, half⟩
  · obtain ⟨items, warned, rises, stays, told⟩ := ageing_spec index sub margin s
    have shown (key : Nat) := ageItemOf_congr items key
    have own := ageItemOf_modAge (ageKey index sub) (fun x => { x with
      margin := margin, warned := margin ≤ warnLevel s (ageKey index sub), sum := x.sum + margin, samples := x.samples + 1 }) s
    refine ⟨_, if_pos (by simp [item, few]), ?_, ?_, ?_, fun low first => warned (raised_warnTold low first), rises, stays, fun k hk => ?_, told⟩
    · rw [shown]
      exact (congrArg AgeItem.margin own).trans rfl
    · rw [shown]
      exact (congrArg AgeItem.samples own).trans rfl
    · rw [shown]
      exact (congrArg AgeItem.warned own).trans rfl
    · rw [shown]
      exact ageItemOf_modAge_other hk _ s
  · exact ⟨_, congrArg Host.Outcome.next (clockStep_action low full), raised_raiseEv (by decide), triGet_mod _ _ _,
      fun m hm => triGet_mod_other _ _ hm, reported_raiseEv _ _ _⟩
  · exact ⟨_, congrArg Host.Outcome.next (norRefresh_action low), raised_raiseEv (by decide), reported_raiseEv _ _ _⟩
  · have out := excludeLane_laneOut voting 0x05 []
    exact ⟨_, congrArg Host.Outcome.next (norRefresh_action low), out.not_inVote, out.reason, out.pend⟩
  · exact ⟨_, congrArg Host.Outcome.next (rotationSlow_told slow first), raised_raiseEv (by decide), triGet_put _ _ _,
      fun m hm => triGet_put_other _ _ hm, reported_raiseEv _ _ _⟩
  · exact ⟨_, next_asSession allowed (clockRestoreFn_lane lane), triGet_put _ _ _, fun m hm => triGet_put_other _ _ hm, rfl⟩
  · refine ⟨_, rfl, fun p hp => ?_, fun q hq => ?_, rfl⟩
    · rw [items_forecastDay] at hp
      obtain ⟨q, -, rfl⟩ := List.mem_map.mp hp
      exact ⟨rfl, (dayMean_spec q.2).1⟩
    · obtain ⟨-, margin, warned, means, kept⟩ := dayMean_spec q.2
      exact ⟨(q.1, dayItem s q.1 q.2), List.mem_map.mpr ⟨q, hq, rfl⟩, rfl, margin, warned, means, kept⟩

end Sys2Proof.Proofs
end
